-- ==== Sys2Proof/Word.lean ====
section
/-! DEFINITION. Words, bytes, and the sparse map every table of the model is held in. -/

namespace Sys2Proof

/-- A 64-bit word: a register, an item word, a device-external address (R3, R236). -/
abbrev Word := BitVec 64

/-- A byte of a memory. -/
abbrev Byte := BitVec 8

/-- A sparse table: pairs of a key and an entry, keys strictly rising; a key with no pair has no entry. -/
abbrev Map (α : Type) := List (Nat × α)

end Sys2Proof
end

