-- ==== Sys2Proof/Syntax.lean ====
section
/-! DEFINITION. The commands of the ES1, one constructor of `Instr` for each row of the table of operations
and events, with the operands each carries.  A control item carries the queue and the queue position it was fetched
from; a cell item carries the cell and the fields of R234; an event carries the object it happens to and what
the outside world contributes to it (a pin level, a received frame, what a cartridge returned). -/

namespace Sys2Proof

/-- Where a control item came from: context, command queue, and QPOS of R534. -/
structure Src where
  ctx   : Nat
  queue : Nat
  qpos  : Nat
  deriving DecidableEq, Repr

/-- The fields of a cell item (R234): the device cell number of the cell that issues it, then D, A, B, C, P, PZ, T, FN,
IMM of word 0, and word 1 for the items that have one. -/
structure CellItem where
  cell : Nat
  d    : Nat
  a    : Nat
  b    : Nat
  c    : Nat
  p    : Nat
  pz   : Bool
  t    : Nat
  fn   : Nat
  imm  : BitVec 20
  w1   : BitVec 64
  deriving DecidableEq, Repr

/-- The static colophon of a cartridge (R376), as read over the sideband, with the verdict of the root of trust on
its signature and whether any reserved bit is set. -/
structure Colophon where
  sigOk        : Bool
  reservedZero : Bool
  ver          : Nat
  part         : Nat
  cls          : Nat
  serial       : Nat
  userBytes    : Nat
  ratedWrites  : Nat
  channels     : Nat
  diesPerCh    : Nat
  planes       : Nat
  blocksPerPl  : Nat
  pagesPerBlk  : Nat
  tRdWorst     : Nat
  tProgSlc     : Nat
  tSusp        : Nat
  tResumeMin   : Nat
  progRate     : Nat
  retryMax     : Nat
  peRated      : Nat
  deriving DecidableEq, Repr

/-- The fields of a wear record (R378), or the wear fields of a superblock, and whether its tag verified. -/
structure WearRec where
  tagOk    : Bool
  wgen     : Nat
  readOnly : Bool
  roReason : Nat
  hostWr   : Nat
  nandWr   : Nat
  eraseMax : Nat
  eraseMean : Nat
  spare    : Nat
  retired  : Nat
  deriving DecidableEq, Repr

/-- A directory or journal record (R392). -/
structure DirRec where
  typ      : Nat
  jseq     : Nat
  handle   : Nat
  prev     : Nat
  dur      : Nat
  context  : Nat
  customer : Nat
  vocab    : Nat
  grammar  : Nat
  model    : Nat
  prio     : Nat
  draftEn  : Bool
  cls      : Nat
  queue    : Nat
  tokens   : Nat
  generated : Nat
  tag      : Nat
  contract : Nat
  head     : Nat
  pages    : Nat
  keyId    : Nat
  createTime : Nat
  origin   : Nat
  parkGen  : Nat
  vocabId  : Nat
  modelTag : Nat
  jstart   : Nat
  jtime    : Nat
  deriving DecidableEq, Repr

/-- What the head page of a parked copy records beside its record (R381): the CUR bit, TRANSCRIPT_BYTES and KV_PAGES. -/
structure HeadPage where
  cur        : Bool
  transcript : Nat
  kvPages    : Nat
  deriving DecidableEq, Repr

/-- A link flit (R367), with whether its CRC is good. -/
structure Flit where
  crcOk   : Bool
  seq     : Nat
  typ     : Nat
  ack     : Nat
  nak     : Bool
  channel : Nat
  len     : Nat
  optag   : Nat
  payload : List (BitVec 8)
  deriving DecidableEq, Repr

/-- An EFT frame as received or sent (R463), with whether its ICRC is good. -/
structure EftFrame where
  icrcOk  : Bool
  op      : Nat
  cls     : Nat
  first   : Bool
  last    : Bool
  ackreq  : Bool
  notify  : Bool
  resent  : Bool
  psn     : Nat
  srcDev  : Nat
  dstDev  : Nat
  srcQp   : Nat
  dstQp   : Nat
  srcInstar : Nat
  qpInstar  : Nat
  ackPsn  : Nat
  ackKind : Nat
  retryUs : Nat
  syndrome : Nat
  raddr   : Nat
  operand : BitVec 64
  payload : List (BitVec 8)
  deriving DecidableEq, Repr

/-- A discovery frame's payload (R449). -/
structure Discovery where
  port    : Nat
  devAddr : Nat
  instar  : Nat
  serial  : Nat
  compGen : Nat
  deriving DecidableEq, Repr

/-- Who uses a synchronisation object (R264): a cell, whose reference and value are in sA and sB, or a command queue, whose
reference and value are in words 1 and 2. -/
inductive SyncUse where
  | cell (x : CellItem)
  | item (src : Src) (ref value : BitVec 64)
  deriving DecidableEq, Repr

/-- The commands of the block: one constructor for each row of the table of operations and events. -/
inductive Instr where
  /-- Allocates and binds a new session entry in WAITING at P1, or refuses it. (R45) -/
  | sesCreate (src : Src) (vocab grammar model prio dur customer : Nat) (draftEn : Bool) (tag : BitVec 64) (contract cls : Nat)
  /-- Appends transcript bytes or tokens to a session and optionally starts a run. (R39) -/
  | sesFeed (src : Src) (handle : BitVec 64) (addr : BitVec 64) (len : Nat) (tokens run : Bool) (genLimit : Nat)
  /-- Starts a run of a WAITING session, taking a sequence slot or starting revival. (R49) -/
  | sesRun (src : Src) (handle : BitVec 64) (genLimit : Nat)
  /-- Records EXPECT_TIME and DEADLINE and applies the horizon rule to choose a tier. (R76) -/
  | sesWait (src : Src) (handle : BitVec 64) (expect deadline : Nat)
  /-- Holds an ACTIVE or PREFILL session with HOLD_REASON 4 after the current step. (R49) -/
  | sesHold (src : Src) (handle : BitVec 64)
  /-- Releases a host hold and returns the session to ACTIVE or PREFILL. (R49) -/
  | sesRelease (src : Src) (handle : BitVec 64)
  /-- Creates a child session sharing the parent's pages below the fork position. (R54) -/
  | sesFork (src : Src) (handle : BitVec 64) (position : Nat) (newSeed : Bool) (seed tag : BitVec 64)
  /-- Moves a session to MIGRATING and copies its state to a destination device. (R49) -/
  | sesMigrate (src : Src) (handle : BitVec 64) (device : Nat)
  /-- Chooses a tier for a WAITING session under a hint and starts the park. (R82) -/
  | sesPark (src : Src) (handle : BitVec 64) (hint : Nat)
  /-- Starts revival of a WAITING session to P1, or notifies at once if already at P1. (R83) -/
  | sesRevive (src : Src) (handle : BitVec 64)
  /-- Sets CANCEL_REQ and CANCELLING within 2 us and begins draining the session. (R63) -/
  | sesCancel (src : Src) (handle : BitVec 64)
  /-- Ends a session after its current step, flushing held-back text and releasing pages. (R49) -/
  | sesEnd (src : Src) (handle : BitVec 64)
  /-- Frees an ENDED or FAULTED entry, increments its instar and appends its index to the free list. (R36) -/
  | sesFree (src : Src) (handle : BitVec 64)
  /-- Writes the 128-byte session table entry to host memory. (R40) -/
  | sesQuery (src : Src) (handle : BitVec 64) (dest : BitVec 64)
  /-- Changes one session field or sampler setting selected by SELECTOR. (R60) -/
  | sesConfig (src : Src) (handle : BitVec 64) (selector index : Nat) (value : BitVec 64)
  /-- All work of a cancelled session has drained; it becomes ENDED and the cancel completes. (R49) -/
  | cancelDrainComplete (index : Nat)
  /-- Draining exceeds DRAIN_MS; the session is forced ENDED with a fault message. (R69) -/
  | sessionDrainTimeout (index : Nat)
  /-- The wait grace expires with no ses.wait and the class default tier is applied. (R50) -/
  | waitGraceExpiry (index : Nat)
  /-- Revival starts at EXPECT_TIME less the revival bound and margin. (R87) -/
  | proactiveRevivalStart (index : Nat)
  /-- EXPECT_TIME plus OVERDUE_MS passes with no event and the horizon rule is re-applied. (R90) -/
  | overdueExpiry (index : Nat)
  /-- DEADLINE passes with no event and one notice 0x2016 is posted. (R91) -/
  | deadlinePassed (index : Nat)
  /-- A durable session waiting longer than DUR_LAG_MS has its P3 copy brought current. (R94) -/
  | durLagExpiry (index : Nat)
  /-- Free pages below LOW_PCT trigger horizon parking of a context's waiting sessions. (R102) -/
  | p1PressureParking (ctx : Nat)
  /-- A park's last page and record are durable or acknowledged and the tier change commits. (R83) -/
  | parkCommit (index : Nat)
  /-- A park failing on a media or fabric error is retried once elsewhere or abandoned. (R85) -/
  | parkFailure (index status : Nat)
  /-- The last page of a revival reaches P1 and TIER becomes P1. (R84) -/
  | revivalCommit (index : Nat) (badPages : List Nat)
  /-- The destination commits; the session is ENDED with MOVED and LINK set. (R49) -/
  | migrationCommit (index : Nat) (newHandle : BitVec 64)
  /-- The destination refuses and the session returns to its previous state. (R49) -/
  | migrationRefused (index status : Nat)
  /-- A migration exceeds MIGRATE_MS and the session returns to its previous state. (R503) -/
  | migrationTimeout (index : Nat)
  /-- A lender advertises its free lent space within 1 ms of a change. (R97) -/
  | advertiseFreeLentSpace 
  /-- A received lender advertisement updates the known lenders. (R97) -/
  | lenderAdvertisement (lender free hops reclaimMs : Nat)
  /-- A lender sends reclaim notices and stops accepting shards. (R99) -/
  | reclaimNoticeSend 
  /-- A borrower acknowledges a reclaim notice and vacates each affected session. (R100) -/
  | reclaimNotice (lender deadline : Nat)
  /-- An unacknowledged reclaim notice is resent every 100 us up to 8 times. (R99) -/
  | reclaimResend (borrower : Nat)
  /-- At RECLAIM_MS the lender frees reclaimed memory and discards pages still lent. (R99) -/
  | reclaimDeadline 
  /-- Sessions on a read-only bay are copied to another writable bay. (R105) -/
  | bayReadOnlyEvacuation (bay : Nat)
  /-- Adds or replaces a contract record in the context's pending set. (R116) -/
  | mkrDefine (src : Src) (addr : BitVec 64)
  /-- Removes a contract from the pending set. (R115) -/
  | mkrDrop (src : Src) (id : Nat)
  /-- Submits the pending set for admission against the resource model. (R118) -/
  | mkrReady (src : Src) (addr : BitVec 64)
  /-- An evaluation starts in fetch order and admits the set or writes a shortfall report. (R119) -/
  | makeReadyEvaluation 
  /-- Empties the context's pending and admitted sets. (R121) -/
  | mkrWithdraw (src : Src)
  /-- Writes a contract's record, state and bucket levels. (R611) -/
  | mkrQuery (src : Src) (id : Nat) (addr : BitVec 64)
  /-- Re-evaluates all admitted sets within 10 ms of a capacity change. (R143) -/
  | capacityReevaluation 
  /-- Verifies and loads a model image into a model slot. (R158) -/
  | galLoad (src : Src) (slot source : Nat) (addr : BitVec 64)
  /-- Unloads an unbound, unused model slot. (R187) -/
  | galUnload (src : Src) (slot : Nat)
  /-- Writes draft tokens into a sequence's draft buffer. (R173) -/
  | galDraft (src : Src) (handle : BitVec 64) (base count : Nat) (addr : BitVec 64)
  /-- Fully saves a partition to HBM and leaves it stopped. (R181) -/
  | galPreempt (src : Src) (part : Nat) (addr : BitVec 64)
  /-- Restores a fully saved partition. (R181) -/
  | galResume (src : Src) (part : Nat) (addr : BitVec 64)
  /-- A built galley swaps in at its RELEASE or when the previous step completes. (R162) -/
  | galleySwap (part slice : Nat)
  /-- The builder selects sequences and writes the next galley of a slice. (R161) -/
  | galleyBuild (part slice : Nat)
  /-- Once all cells reach step.done and tokens are sampled, the commit points run. (R245) -/
  | galleyCommit (part slice : Nat)
  /-- A contracted section passes its DEADLINE uncommitted and a missed-contract fault is raised. (R165) -/
  | contractStepMissed (part slice : Nat)
  /-- Cell work passes RELEASE plus STEP_WD periods and the galley is abandoned. (R503) -/
  | stepWatchdog (part slice : Nat)
  /-- Verifies and loads a vocabulary image into a slot. (R319) -/
  | tokVload (src : Src) (slot : Nat) (addr : BitVec 64)
  /-- Verifies and loads a grammar image into a slot. (R335) -/
  | tokGload (src : Src) (slot : Nat) (addr : BitVec 64)
  /-- Unloads an unbound vocabulary or grammar slot. (R321) -/
  | tokUnload (src : Src) (kind slot : Nat)
  /-- Tokenises a host buffer with the prefill procedure. (R322) -/
  | tokEncode (src : Src) (vocab bytes : Nat) (source dest : BitVec 64)
  /-- A logits segment arrives at the token engine and is kept or discarded. (R326) -/
  | logitSegment (part slice recIdx offset first : Nat) (logits : List (BitVec 32))
  /-- Sampling of a position completes once all its logits have arrived. (R331) -/
  | positionSampled (part slice recIdx offset : Nat)
  /-- Sets a bank's width, KEY_BYTES and VERIFY and invalidates its entries. (R355) -/
  | camCfg (src : Src) (bank width keyBytes : Nat) (verify : Bool)
  /-- Writes or clears an entry in a bank and its HBM copy. (R356) -/
  | camWrite (src : Src) (bank entry : Nat) (clear : Bool) (addr : BitVec 64)
  /-- Searches a bank for a masked key from START. (R357) -/
  | camFind (src : Src) (bank start : Nat) (keyAddr mask dataAddr : BitVec 64)
  /-- Reads one bank entry to host memory. (R361) -/
  | camRead (src : Src) (bank entry : Nat) (dest : BitVec 64)
  /-- Every bank row is compared with its HBM copy at least every 10 ms. (R360) -/
  | camScrub (bank : Nat)
  /-- Presence held for 50 ms moves an EMPTY bay to CHARGING. (R365) -/
  | presenceAsserted (bay : Nat)
  /-- Hold-up status reads good and the colophon is read. (R365) -/
  | holdUpGood (bay : Nat)
  /-- The 2 s hold-up timer expires and the bay FAILS. (R365) -/
  | holdUpTimerExpiry (bay : Nat)
  /-- The colophon read completes and is accepted or refused. (R377) -/
  | colophonVerified (bay : Nat) (col : Colophon) (wearA wearB superblock : Option WearRec) (erased : Bool)
  /-- I3C stays silent for 100 ms and the bay fails. (R365) -/
  | i3cSilent (bay : Nat)
  /-- Training ends; with five good lanes the bay starts replay, otherwise it fails. (R365) -/
  | linkTrained (bay lanes : Nat) (paramsMatch : Bool)
  /-- A failed bay retries training every 1 s while presence holds. (R365) -/
  | trainingRetry (bay lanes : Nat) (paramsMatch : Bool)
  /-- Directory replay completes and the bay becomes WRITABLE, READ_ONLY or FOREIGN. (R400) -/
  | replayComplete (bay : Nat) (opened : Bool) (checkpoint : Nat) (records : List (DirRec × HeadPage))
  /-- A bay turns READ_ONLY on wear, spare exhaustion, hold-up or superblock failure. (R406) -/
  | endOfLife (bay reason : Nat)
  /-- Surprise removal empties the bay and fails operations in flight. (R366) -/
  | presenceDeasserted (bay : Nat)
  /-- Writes a new flash object. (R410) -/
  | crtPut (src : Src) (id source : BitVec 64) (len : Nat)
  /-- Reads bytes of a flash object. (R410) -/
  | crtGet (src : Src) (id dest : BitVec 64) (offset len : Nat)
  /-- Deletes a flash object. (R410) -/
  | crtDel (src : Src) (id : BitVec 64)
  /-- Starts ejecting a bay. (R610) -/
  | crtEject (src : Src) (bay : Nat)
  /-- Operations drain and the superblock and wear record are written; the bay is EJECTED. (R365) -/
  | ejectDrained (bay : Nat)
  /-- Erases a FOREIGN cartridge and writes an empty superblock. (R610) -/
  | crtFormat (src : Src) (bay : Nat)
  /-- Starts compaction of a writable bay's directory. (R395) -/
  | crtCompact (src : Src) (bay : Nat)
  /-- The journal reaches J_COMPACT records and a new checkpoint is written. (R395) -/
  | compaction (bay : Nat)
  /-- The new superblock is durable and the old checkpoint and journal are freed. (R395) -/
  | compactionSuperblockDurable (bay : Nat)
  /-- A link flit is accepted in order or discarded with a NAK. (R368) -/
  | flitReceived (bay : Nat) (flit : Flit)
  /-- 4 us without acknowledgement resends from the oldest unacknowledged flit. (R368) -/
  | flitResendTimeout (bay : Nat)
  /-- 16 resends without progress retrain the link, sparing a failed lane. (R369) -/
  | retrain (bay lanes : Nat)
  /-- A busy die's program or erase is suspended after T_RESUME_MIN to serve reads. (R373) -/
  | programSuspend (bay channel die : Nat)
  /-- A page read returns and is decoded. (R374) -/
  | pageReadDone (bay optag : Nat) (decoded : Bool) (correctedPct : Nat) (data : List (BitVec 8))
  /-- A die operation exceeds CHOP_MS; the die is reset or retired. (R503) -/
  | flashDieTimeout (bay channel die : Nat)
  /-- A failed program or erase retires its block and reprograms its pages. (R389) -/
  | programOrEraseFailure (bay block : Nat) (erase : Bool)
  /-- The older wear record copy is rewritten at least hourly. (R379) -/
  | wearRecordWrite (bay : Nat) (accepted : Bool)
  /-- A journal page closes after 100 us or when full and is programmed. (R393) -/
  | journalPageClose (bay : Nat)
  /-- Both programs of a journal page pass and its records become durable. (R393) -/
  | journalPageProgrammed (bay : Nat)
  /-- A block's read count reaches its limit and its valid pages are relocated. (R387) -/
  | readDisturbRelocation (bay block : Nat)
  /-- Every valid page is read within SCAN_DAYS and weak blocks relocated. (R388) -/
  | patrolScan (bay block : Nat) (retried : Bool) (correctedPct : Nat)
  /-- Cold data moves into the most-erased blocks to bound erase spread. (R386) -/
  | wearLevelling (bay fromBlock toBlock : Nat)
  /-- Consolidates copies with many extents and frees superseded pages. (R385) -/
  | collector (bay : Nat)
  /-- A pied page is restored from the first source holding a current copy. (R391) -/
  | piedPageRecovery (frame : Nat) (crcGood : Bool)
  /-- Verifies and opens an index object into a slot. (R416) -/
  | vseOpen (src : Src) (id : BitVec 64) (slot part prio : Nat) (pinCodes pinVec : Bool) (qpg sideCap encPart encSlice : Nat) (noEnc : Bool)
  /-- Closes an index slot. (R443) -/
  | vseClose (src : Src) (slot : Nat)
  /-- Starts a vector search query. (R420) -/
  | vseQuery (src : Src) (slot k probes rerank : Nat) (qaddr : BitVec 64) (fmask fval : BitVec 32) (raddr : BitVec 64) (contract : Nat)
  /-- Appends an insert record to the side list. (R426) -/
  | vseInsert (src : Src) (slot : Nat) (attr : BitVec 32) (id addr : BitVec 64)
  /-- Appends a delete record to the side list. (R426) -/
  | vseDelete (src : Src) (slot : Nat) (id : BitVec 64)
  /-- Builds the next generation of an index. (R430) -/
  | vseMerge (src : Src) (slot : Nat) (id : BitVec 64)
  /-- Queues a document for embedding by the encoder slice. (R438) -/
  | vseDoc (src : Src) (slot tokens : Nat) (attr : BitVec 32) (id addr : BitVec 64)
  /-- A search galley is released when none is in flight on the partition. (R434) -/
  | searchGalleyRelease (part : Nat)
  /-- A channel engine returns its best candidates for a partition scan. (R423) -/
  | partitionScanReturn (slot query partition engine instar : Nat)
  /-- A channel engine returns a vector record for re-rank. (R424) -/
  | recordReadReturn (slot query key engine instar : Nat)
  /-- A query writes its result and completes. (R421) -/
  | queryComplete (slot query : Nat)
  /-- A side-list page closes after 100 us or when full and is programmed. (R427) -/
  | sidePageClose (slot : Nat)
  /-- Side records become durable and their inserts and deletes complete. (R427) -/
  | sideRecordDurable (slot : Nat)
  /-- The slot switches to the new generation at a query boundary once durable. (R431) -/
  | mergeGenerationChange (slot : Nat)
  /-- Each 1 ms charges indexing energy to each index. (R442) -/
  | energyMeter (inputUj busyCells : Nat) (indexCells : List (Nat × Nat))
  /-- Claims a queue pair for a context or slice. (R472) -/
  | fabQpc (src : Src) (ownerKind slice cls window depth : Nat) (counter : BitVec 64)
  /-- Places one fabric item on a queue pair. (R476) -/
  | fabPost (src : Src) (qp op : Nat) (chain notify wait : Bool) (waitKind waitQp : Nat) (laddr : BitVec 64) (raddr len : Nat) (operand swap threshold : BitVec 64)
  /-- Sets an access window on a queue pair. (R475) -/
  | fabWin (src : Src) (qp : Nat) (read write atomic : Bool) (mode stallUs : Nat) (base : BitVec 64) (len : Nat)
  /-- Starts connecting a queue pair to a peer. (R473) -/
  | fabCtlConnect (src : Src) (qp peerDev peerQp : Nat)
  /-- Resets a queue pair to INIT, flushing its items. (R473) -/
  | fabCtlReset (src : Src) (qp : Nat)
  /-- Frees a queue pair, flushing its items. (R473) -/
  | fabCtlDestroy (src : Src) (qp : Nat)
  /-- Removes ungranted items from a queue pair. (R483) -/
  | fabCtlCancel (src : Src) (qp : Nat)
  /-- Writes the queue pair record. (R489) -/
  | fabCtlQuery (src : Src) (qp : Nat) (addr : BitVec 64)
  /-- Revokes a queue pair's window. (R475) -/
  | fabCtlRevokeWindow (src : Src) (qp window : Nat)
  /-- Applies a signed composition image. (R452) -/
  | fabCtlCompose (src : Src) (addr : BitVec 64)
  /-- Signal on all four lanes starts port training. (R448) -/
  | portSignalDetected (port : Nat)
  /-- A trained link passing the headroom check goes UP. (R460) -/
  | portLinkUp (port : Nat)
  /-- No link within 2 s returns the port to DOWN. (R448) -/
  | portTrainingTimeout (port : Nat)
  /-- A lost link takes the port DOWN and rebinds its queue pairs. (R453) -/
  | portLinkLost (port : Nat)
  /-- A failed SerDes is replaced by the spare or the port FAILS. (R448) -/
  | serdesFault (port unit : Nat)
  /-- A write to CABLE_M or MEDIA returns a FAILED port to DOWN. (R448) -/
  | fabPortMediaWrite (port media cableM : Nat)
  /-- Every UP port sends a discovery frame every 100 ms. (R449) -/
  | discoverySend 
  /-- A received discovery frame records the neighbour. (R449) -/
  | discoveryFrame (port : Nat) (frame : Discovery)
  /-- A Sync message corrects device time and may establish the lock. (R457) -/
  | ptpSync (sender : Nat) (offset : Int)
  /-- 8 missing Sync intervals enter holdover. (R457) -/
  | syncMissed 
  /-- Estimated offset in holdover passes 40 ns and a time fault is raised. (R26) -/
  | holdoverTimeFault (offset : Int)
  /-- No port up 10 s after start-up declares a domain of one. (R25) -/
  | domainOfOne 
  /-- A received pause stops or resumes a class on a port. (R461) -/
  | pfcPauseReceived (port cls quanta : Nat)
  /-- A standing pause is refreshed every 20 us. (R461) -/
  | pfcRefresh (port cls : Nat)
  /-- A class paused for PFC_WD_MS is marked stuck and its frames discarded. (R462) -/
  | pfcWatchdog (port cls : Nat)
  /-- The stuck mark clears after 10 x PFC_WD_MS without pause. (R462) -/
  | stuckClear (port cls : Nat)
  /-- A received EFT frame is accepted, executed or discarded by PSN and instar. (R465) -/
  | eftFrame (port : Nat) (frame : EftFrame)
  /-- ACK_NS after the first unacknowledged packet sends an ACK. (R467) -/
  | ackTimer (qp : Nat)
  /-- RTO passes and the sender resends, counting a retry. (R468) -/
  | rtoExpiry (qp : Nat)
  /-- RETRY_US after a NAK resend-after the sender resends. (R482) -/
  | resendAfterExpiry (qp : Nat)
  /-- A stalled target sends a hold ACK every 4 us. (R481) -/
  | holdAckSend (qp : Nat)
  /-- An absent page not arriving within STALL_US draws a NAK resend-after. (R481) -/
  | stallTimeout (qp : Nat)
  /-- An absent page arrives in local HBM and the held packet executes. (R481) -/
  | pageArrival (qp frame : Nat)
  /-- CONNECT is resent every 10 ms while CONNECTING. (R473) -/
  | connectResend (qp : Nat)
  /-- CONNECT_MS elapses and the queue pair returns to INIT. (R473) -/
  | connectTimeout (qp : Nat)
  /-- The port arbiter grants a packet a request slot and transmits it. (R470) -/
  | arbiterGrant (port : Nat)
  /-- A WAIT item reaches the sync-wait timeout with 0x9014. (R479) -/
  | fabWaitTimeout (qp : Nat)
  /-- A fence record makes the device discard a lost device's instar. (R485) -/
  | fenceRecord (device instar : Nat)
  /-- The partner writes and journals a mirror copy of a park. (R522) -/
  | mirroredPark (rec : DirRec) (head : HeadPage)
  /-- A restarting device obtains adopted handles and tombstones them. (R524) -/
  | partnerHandleQuery (adopted : List (BitVec 64))
  /-- Missed heartbeats declare a cell, engine, forme or hub lost. (R504) -/
  | unitDeclaredLost (source : Nat)
  /-- Watchers declare a device lost and send fence records. (R509) -/
  | deviceDeclaredLost (device instar : Nat) (reporters : List Nat)
  /-- Firmware exchanges engine roles when the active hub warns. (R521) -/
  | hubHandover 
  /-- A collector handles the next latched error as a fault message. (R500) -/
  | faultLatchHandled (hub : Nat)
  /-- Corrected errors pass WARN_N in a window and the warning action runs. (R510) -/
  | failureWarning (source : Nat)
  /-- A departing channel or stack is remapped into the sparing reserve. (R493) -/
  | hbmSparing (stack channel : Nat) (whole : Bool) (unreadable : List Nat)
  /-- A partition is re-imposed onto replacement cells and resumes. (R517) -/
  | reImposition (part : Nat)
  /-- A lost unit speaking again is ordered to reset. (R508) -/
  | staleMessageResetOrder (source : Nat) (selfTestPassed : Bool)
  /-- A serving or adaptation proof is written to the writable bays. (R512) -/
  | proofWrite (scope : Nat)
  /-- A cell item not retired within ITEM_US stops the cell. (R503) -/
  | cellItemTimeout (cell : Nat)
  /-- A control item exceeding CTL_ITEM_MS completes with 0xA003. (R503) -/
  | controlItemTimeout (src : Src)
  /-- A descriptor without progress for DMA_US faults with 0x5024. (R503) -/
  | dmaTimeout (cell desc : Nat)
  /-- A waiting synchronisation operation ends with 0x5015. (R268) -/
  | syncWaitTimeout (obj actor : Nat)
  /-- Does nothing. (R241) -/
  | nop (x : CellItem)
  /-- Scalar add modulo 2^64. (R241) -/
  | sadd (x : CellItem)
  /-- Scalar subtract modulo 2^64. (R241) -/
  | ssub (x : CellItem)
  /-- Scalar multiply modulo 2^64. (R241) -/
  | smul (x : CellItem)
  /-- Scalar bitwise and. (R241) -/
  | sand (x : CellItem)
  /-- Scalar bitwise or. (R241) -/
  | sor (x : CellItem)
  /-- Scalar bitwise exclusive or. (R241) -/
  | sxor (x : CellItem)
  /-- Scalar shift left. (R241) -/
  | shl (x : CellItem)
  /-- Scalar logical shift right. (R241) -/
  | shr (x : CellItem)
  /-- Scalar arithmetic shift right. (R241) -/
  | sra (x : CellItem)
  /-- Scalar compare under condition FN. (R241) -/
  | cmp (x : CellItem)
  /-- Loads a 64-bit immediate. (R241) -/
  | li (x : CellItem)
  /-- Loads an integer from cell memory. (R241) -/
  | ld (x : CellItem)
  /-- Stores an integer to cell memory. (R241) -/
  | st (x : CellItem)
  /-- Reads a special register. (R240) -/
  | rdsr (x : CellItem)
  /-- Writes a special register. (R240) -/
  | wrsr (x : CellItem)
  /-- Branches unconditionally. (R241) -/
  | br (x : CellItem)
  /-- Branches when a condition holds. (R241) -/
  | bc (x : CellItem)
  /-- Saves the return index and branches. (R241) -/
  | call (x : CellItem)
  /-- Jumps to a register address. (R241) -/
  | jr (x : CellItem)
  /-- Raises the trap exception. (R270) -/
  | trap (x : CellItem)
  /-- Returns from an exception handler. (R270) -/
  | eret (x : CellItem)
  /-- Fetches the next non-void galley record. (R244) -/
  | galRec (x : CellItem)
  /-- Ends the cell's part of the current galley. (R245) -/
  | stepDone (x : CellItem)
  /-- Writes draft tokens for a sequence from a cell. (R173) -/
  | dftWrite (x : CellItem)
  /-- Loads a vector from cell memory. (R241) -/
  | vld (x : CellItem)
  /-- Stores a vector to cell memory. (R241) -/
  | vst (x : CellItem)
  /-- Broadcasts a scalar to every lane. (R241) -/
  | vbc (x : CellItem)
  /-- Copies a vector register. (R241) -/
  | vmov (x : CellItem)
  /-- Lane-wise add. (R217) -/
  | vadd (x : CellItem)
  /-- Lane-wise subtract. (R217) -/
  | vsub (x : CellItem)
  /-- Lane-wise multiply. (R217) -/
  | vmul (x : CellItem)
  /-- Lane-wise minimum. (R601) -/
  | vmin (x : CellItem)
  /-- Lane-wise maximum. (R601) -/
  | vmax (x : CellItem)
  /-- Lane-wise and. (R241) -/
  | vand (x : CellItem)
  /-- Lane-wise or. (R241) -/
  | vor (x : CellItem)
  /-- Lane-wise exclusive or. (R241) -/
  | vxor (x : CellItem)
  /-- Lane-wise fused multiply-add rounded once. (R217) -/
  | vfma (x : CellItem)
  /-- Lane-wise shift left. (R241) -/
  | vshl (x : CellItem)
  /-- Lane-wise shift right. (R241) -/
  | vshr (x : CellItem)
  /-- Lane-wise type conversion. (R602) -/
  | vcvt (x : CellItem)
  /-- Lane-wise compare into a predicate. (R241) -/
  | vcmp (x : CellItem)
  /-- Lane-wise select under a predicate. (R241) -/
  | vsel (x : CellItem)
  /-- Predicate logic operation. (R241) -/
  | plog (x : CellItem)
  /-- Lane permutation. (R241) -/
  | vperm (x : CellItem)
  /-- Sums the lanes in a fixed six-level tree. (R218) -/
  | vredAdd (x : CellItem)
  /-- Exact maximum over predicated lanes. (R218) -/
  | vredMax (x : CellItem)
  /-- Correctly rounded 2^x per lane. (R219) -/
  | vexp2 (x : CellItem)
  /-- Correctly rounded reciprocal per lane. (R219) -/
  | vrcp (x : CellItem)
  /-- Correctly rounded reciprocal square root per lane. (R219) -/
  | vrsqrt (x : CellItem)
  /-- Lane gather of 32-bit words from cell memory. (R260) -/
  | vgth (x : CellItem)
  /-- Lane scatter of 32-bit words to cell memory. (R260) -/
  | vsct (x : CellItem)
  /-- Accumulates a blocked tensor product into a tile. (R213) -/
  | tmma (x : CellItem)
  /-- Sets a tile to +0. (R241) -/
  | tzero (x : CellItem)
  /-- Loads a tile from cell memory. (R241) -/
  | tld (x : CellItem)
  /-- Stores a tile to cell memory. (R241) -/
  | tst (x : CellItem)
  /-- Quantises tile rows into MX blocks. (R212) -/
  | tmx (x : CellItem)
  /-- Clears a wide accumulator and sets its binary point. (R220) -/
  | wclr (x : CellItem)
  /-- Adds binary32 lanes onto a wide accumulator grid. (R221) -/
  | waddF32 (x : CellItem)
  /-- Adds exact binary32 products onto a wide accumulator grid. (R221) -/
  | wmacF32 (x : CellItem)
  /-- Rounds a wide accumulator to a vector. (R223) -/
  | wcvt (x : CellItem)
  /-- Merges a received wide record into an accumulator. (R224) -/
  | wmrg (x : CellItem)
  /-- Starts a descriptor copying into cell memory. (R255) -/
  | dmaIn (x : CellItem)
  /-- Starts a descriptor copying out of cell memory. (R255) -/
  | dmaOut (x : CellItem)
  /-- Starts an indexed gather descriptor. (R256) -/
  | dmaGth (x : CellItem)
  /-- Starts an indexed scatter descriptor. (R256) -/
  | dmaSct (x : CellItem)
  /-- Starts a page-list walk descriptor. (R295) -/
  | dmaWalk (x : CellItem)
  /-- Starts a KV append descriptor. (R299) -/
  | dmaApp (x : CellItem)
  /-- Starts a wide record send descriptor. (R253) -/
  | dmaWsend (x : CellItem)
  /-- Waits for a descriptor and raises the DMA fault if it faulted. (R257) -/
  | dmaWait (x : CellItem)
  /-- Resumes a faulted descriptor at DONE. (R258) -/
  | dmaRst (x : CellItem)
  /-- A descriptor completes and its writes become visible. (R248) -/
  | dmaDescriptorDone (cell desc : Nat)
  /-- An element fault stops a descriptor FAULTED at that element. (R257) -/
  | dmaElementFault (cell desc element status : Nat)
  /-- Sends a logits segment to the token engine. (R325) -/
  | lgtSend (x : CellItem)
  /-- Scores code entries against a score table. (R441) -/
  | vsrScan (x : CellItem)
  /-- Appends an embedding as a side insert record. (R440) -/
  | vsrPut (x : CellItem)
  /-- Reads a synchronisation object's value. (R264) -/
  | ctrRd (u : SyncUse)
  /-- Adds to a counter as a release. (R264) -/
  | ctrAdd (u : SyncUse)
  /-- Waits until a counter reaches a value. (R264) -/
  | ctrWait (u : SyncUse)
  /-- Waits for and decrements a semaphore. (R264) -/
  | semTake (u : SyncUse)
  /-- Increments a semaphore as a release. (R264) -/
  | semGive (u : SyncUse)
  /-- Arrives at a barrier. (R264) -/
  | barArv (u : SyncUse)
  /-- Waits for a barrier generation change. (R264) -/
  | barWait (u : SyncUse)
  /-- Waits for and takes a quoin. (R264) -/
  | qnAcq (u : SyncUse)
  /-- Takes a quoin only if free. (R264) -/
  | qnTry (u : SyncUse)
  /-- Releases a quoin and grants it to the first waiter. (R266) -/
  | qnRel (u : SyncUse)
  /-- Reads a synchronisation object's value from a queue. (R264) -/
  | syncRd (u : SyncUse)
  /-- Orders later items after earlier descriptors or items. (R251) -/
  | fence (u : SyncUse)
  /-- Claims and initialises a synchronisation object. (R263) -/
  | syncInit (src : Src) (kind ownerKind owner : Nat) (value : BitVec 64)
  /-- Frees a synchronisation object, ending its waiters. (R269) -/
  | syncFree (src : Src) (ref : BitVec 64)
  /-- Completes with success and result zero. (R241) -/
  | ctlNop (src : Src)
  /-- Returns device time at execution. (R241) -/
  | ctlStamp (src : Src)
  /-- The device fetches and starts the next complete item of a command ring. (R534) -/
  | commandFetch (ctx queue : Nat)
  /-- A CMD_TAIL write advances the queue or errors it beyond the ring. (R540) -/
  | doorbellCmdTail (fn ctx queue : Nat) (value : BitVec 32)
  /-- A CPL_HEAD write consumes entries and arms the interrupt. (R538) -/
  | doorbellCplHead (fn ctx queue : Nat) (value : BitVec 32)
  /-- An OUT_HEAD write frees room and waiting output records are written. (R539) -/
  | doorbellOutHead (fn ctx queue : Nat) (value : BitVec 32)
  /-- A partial item not completed within PARTIAL_MS errors the queue. (R540) -/
  | partialTimeout (ctx queue : Nat)
  /-- A failed or timed-out ring read errors the queue. (R540) -/
  | ringReadFailure (ctx queue : Nat)
  /-- Writing ENABLE 1 starts a queue with counters reset. (R540) -/
  | queueEnable (ctx queue : Nat)
  /-- Writing ENABLE 0 disables a queue, discarding unfetched words. (R540) -/
  | queueDisable (ctx queue : Nat)
  /-- Writing FLUSH 1 disables a queue and posts a flush notice. (R540) -/
  | queueFlush (ctx queue : Nat)
  /-- Purges every object, key and frame of a context. (R561) -/
  | contextPurge (fn ctx : Nat)
  /-- Maps a customer to a context, refused while it has live sessions. (R71) -/
  | sesCustMapWrite (fn customer : Nat) (value : BitVec 32)
  /-- Sets a context's page reservation, ignoring oversubscribing writes. (R313) -/
  | sesCtxPagesWrite (fn ctx : Nat) (value : BitVec 64)
  /-- Sets a partition's quires, ignoring writes that place a quire twice. (R152) -/
  | galPartWrite (fn part : Nat) (value : BitVec 64)
  /-- Setting ENABLE starts a customer budget full. (R171) -/
  | galBudgetEnable (customer : Nat)
  /-- A DEPTH write clips LEVEL to the new depth. (R171) -/
  | galBudgetDepthWrite (customer : Nat) (depth : BitVec 32)
  /-- Changing a bank's owner invalidates every entry. (R354) -/
  | camOwnerWrite (fn bank ownerKind owner : Nat)
  /-- A write of `width` bits to a register: each field behaves as its access code gives. (R7) -/
  | registerWrite (fn offset width : Nat) (value : BitVec 64)
  /-- A read of `width` bits of a register; reading an RC field returns and clears it. (R9) -/
  | registerReadClear (fn offset width : Nat)
  /-- A low-half read of a 64-bit register latches the high half into a shadow. (R22) -/
  | registerLowHalfRead (fn offset : Nat)
  /-- A misaligned BAR0 access of `width` bits reads zero or is ignored and recorded. (R20) -/
  | misalignedBar0Access (fn offset width : Nat) (write : Bool)
  /-- Resets a PCIe function and withdraws its context's contracts and queues. (R531) -/
  | functionLevelReset (fn : Nat)
  /-- Hot reset or link down acts as a function-level reset of every function. (R531) -/
  | pcieHotReset 
  /-- Discards a partly received SPDM request and unread response. (R553) -/
  | doeAbort (fn : Nat)
  /-- SPDM GET_VERSION request. (R549) -/
  | getVersion (fn : Nat)
  /-- SPDM GET_CAPABILITIES request. (R549) -/
  | getCapabilities (fn : Nat)
  /-- SPDM NEGOTIATE_ALGORITHMS request. (R549) -/
  | negotiateAlgorithms (fn : Nat) (offered : Bool)
  /-- SPDM GET_DIGESTS request. (R549) -/
  | getDigests (fn : Nat)
  /-- SPDM GET_CERTIFICATE request. (R549) -/
  | getCertificate (fn slot offset len : Nat)
  /-- SPDM CHALLENGE request. (R549) -/
  | challenge (fn slot : Nat) (nonce : BitVec 256)
  /-- Returns the measurement blocks. (R550) -/
  | getMeasurements (fn index : Nat)
  /-- SPDM KEY_EXCHANGE request. (R549) -/
  | keyExchange (fn : Nat) (exchange : BitVec 768)
  /-- SPDM FINISH request completing a secured session. (R549) -/
  | finish (fn : Nat) (macOk : Bool)
  /-- SPDM HEARTBEAT request. (R549) -/
  | heartbeat (fn : Nat)
  /-- SPDM KEY_UPDATE request. (R549) -/
  | keyUpdate (fn operation : Nat)
  /-- SPDM END_SESSION request. (R549) -/
  | endSession (fn : Nat)
  /-- Installs a context transport key, making the context confidential. (R541) -/
  | setCtk (fn : Nat) (key : BitVec 256)
  /-- Installs the domain keys. (R551) -/
  | domainKeys (fn : Nat) (wrap colophon composition debug : BitVec 768) (gen : Nat) (signedByHeld : Bool)
  /-- Destroys the domain keys. (R551) -/
  | clearDomain (fn : Nat)
  /-- Sets INVASIVE on a valid signed token. (R565) -/
  | debugUnlock (fn : Nat) (serial startCount : Nat) (sigOk : Bool)
  /-- Returns identity, state and security status over USB. (R555) -/
  | getInfo 
  /-- Reads a BAR0 register over USB. (R555) -/
  | readReg (wValue wIndex wLength : Nat)
  /-- Writes a PWR_ register over USB, refusing other offsets. (R555) -/
  | writeReg (wValue wIndex wLength : Nat) (value : BitVec 64)
  /-- Returns both collectors' first errors over USB. (R555) -/
  | getFirst 
  /-- Opens a bulk transfer of a given kind and length. (R557) -/
  | bulkStart (kind len wLength : Nat)
  /-- A bulk transfer completes; a verified firmware image is installed. (R557) -/
  | bulkTransferDone (slot svn : Nat) (verified : Bool)
  /-- Returns REQ_COUNT and the last status. (R555) -/
  | getResult 
  /-- Resets the device as PORST_N from the management port. (R555) -/
  | reset (wValue wIndex : Nat)
  /-- A bus reset or new SETUP discards an incomplete request. (R556) -/
  | usbBusReset 
  /-- A control stage exceeding USB_MS is abandoned. (R503) -/
  | usbStageTimeout 
  /-- Freed HBM frames are zeroed before returning to the free list. (R559) -/
  | frameZeroing (frame : Nat)
  /-- Cell memory and HBM are read and corrected on their scrub periods. (R560) -/
  | memoryScrub (cell : Nat)
  /-- An idle island chooses its sleep state by the horizon rule. (R571) -/
  | islandStateChoice (island : Nat)
  /-- An island starts waking before its next known event or at an early event. (R572) -/
  | islandWake (island : Nat)
  /-- After IDLE_MS of idleness the device enters D1. (R573) -/
  | d1Entry 
  /-- An edge on an event source sets its latch or increments MERGED. (R576) -/
  | eventEdge (source : Nat)
  /-- A pending group's vector is delivered to its control core after hold-off. (R577) -/
  | eventDelivery (hub : Nat)
  /-- Device time reaches a timer comparator and its source latches. (R575) -/
  | evcTimerReached (timer : Nat)
  /-- Each 1 ms of input energy is added to PWR_ENERGY. (R574) -/
  | energyTelemetry (uj : Nat)
  /-- Power-fail warning stops bulk programs and seals every bay. (R397) -/
  | pwrfailNAsserted 
  /-- PWRFAIL_N deasserted for 10 ms triggers an internal reset and start-up. (R573) -/
  | pwrfailNDeasserted 
  /-- PORST_N asserted performs a cold reset. (R573) -/
  | porstNAsserted 
  /-- PORST_N release starts device time and start-up phase 0x1. (R579) -/
  | porstNReleased 
  /-- A start-up phase completes and the next begins. (R579) -/
  | startPhaseAdvance 
  /-- A missing SerDes reference for 0.8 s reports 0xC002. (R593) -/
  | serdesReferenceAbsent (hub : Nat)
  /-- VIN below 44 V for 50 us acts as PWRFAIL_N. (R590) -/
  | vinLow (mv : Nat)
  /-- VIN between 54 V and 57 V raises a message once per second. (R590) -/
  | vinHighWarning (mv : Nat)
  /-- VIN above 57 V enters D3 and holds reset. (R590) -/
  | vinOvervoltage (mv : Nat)
  /-- VIN below 40 V or VSB below 3.0 V holds the device in reset. (R590) -/
  | railCollapse (vin vsb : Nat)
  /-- A junction at 125 C asserts THERMTRIP_N, seals and enters D3. (R595) -/
  | thermtrip (tj : Nat)
  /-- A junction at 100 C limits uncontracted partitions to 1,400 MHz. (R597) -/
  | thermalThrottle (tj hub : Nat)
  /-- Above 103 C after 100 ms every partition is limited. (R597) -/
  | thermalLimitAll (tj hub : Nat)
  /-- Below 95 C for 1 s the limits lift. (R597) -/
  | thermalLimitLift (tj : Nat)
  /-- A bay's hold-up status pin reads bad while the bay is WRITABLE, so the bay stops accepting parks and make-ready re-evaluates. (R399) -/
  | holdUpStatusBad (bay : Nat)
  /-- A park deferred as red, or a durable write deferred for lack of wear credit or space, starts once the peak bucket or credit holds its length. (R140) -/
  | deferredParkStart (index : Nat)
  /-- The grandmaster sends an IEEE 1588 Sync and Follow_Up every 2^-7 s on its ports. (R455) -/
  | syncMessageSend 
  /-- Each port sends a peer-delay request every 2^-4 s. (R455) -/
  | pdelayReqSend (port : Nat)
  /-- A received Pdelay_Req is answered, or a Pdelay_Resp updates the port's measured link delay. (R455) -/
  | pdelayMessage (port : Nat) (resp : Bool) (t1 t2 t3 t4 : Nat)
  /-- The device sends its 1 ms class-6 heartbeat to its watchers. (R504) -/
  | deviceHeartbeatSend 
  /-- A received pause's quanta run out without refresh and the class resumes transmission on the port. (R461) -/
  | pfcPauseExpiry (port cls : Nat)
  /-- A host memory read for an item's data passes the PCIe completion timeout and the item fails with 0xA006. (R503) -/
  | hostMemoryReadTimeout (src : Src)
  /-- A PCIe lane fault makes the host link retrain at a narrower width. (R527) -/
  | pcieLinkRetrain (lanes : Nat)
  /-- Enabling or disabling virtual functions in the SR-IOV capability sets FN_ENABLED, letting contexts 1 to 63 ring doorbells and allocate, or stopping them. (R528) -/
  | srIovVfEnable (fn : Nat) (enable : Bool)
  /-- A cell fetches an unassigned or control-only opcode, or a wrong extension count, and raises the illegal-instruction exception. (R230) -/
  | illegalInstruction (x : CellItem) (opcode ext : Nat)
  /-- A management-port control request outside the table, or with the wrong wLength, draws a STALL and records 0x1022. (R555) -/
  | unsupportedManagementRequest (bRequest bmRequestType wLength : Nat)
  /-- An IEEE 1149.1 instruction is shifted into the test port, with EXTEST, CLAMP and HIGHZ loading as BYPASS unless PORST_N is asserted. (R564) -/
  | testPortInstruction (code : Nat)
  /-- VSB enters its range and the always-on domain (event latches, root of trust, management port) starts. (R589) -/
  | standbyRailUp (vsb : Nat)
  /-- A lender's reclaim sweep frees lent pages that an abandoned P2 park left unreferenced. (R84) -/
  | lenderReclaimSweep (borrower : Nat)
  deriving DecidableEq, Repr

end Sys2Proof
end

