-- ==== Sys2Proof/Decode.lean ====
section
/-! DEFINITION. Reading a command from a word of the table of operations.  The table gives none of its rows any bits (log entry
2): an item's words are read by the operands of its constructor, and an event has no encoding. -/

namespace Sys2Proof

/-- The command a word of the table spells: none, since no row of the table has bits. -/
def decodeTableWord (nbits w : Nat) : Option Instr :=
  match nbits, w with
  | _, _ => none

end Sys2Proof
end

