-- ==== Sys2Proof/Config.lean ====
section
/-! DEFINITION. What an implementation fixes and what the spec leaves open: constants with no body, so that nothing can be
proved of their values (free values, log entry 12; algorithms named by reference, log entry 13). -/

namespace Sys2Proof

/-- GLB_SERIAL.SERIAL, the fused serial number (R28). -/
opaque Config.serial : Word
/-- A free value of 64 bits, by the state's counter of free values (log entry 12). -/
opaque Config.freeWord : Nat → Word
/-- AES-256-GCM encryption: key, IV, additional data, plaintext to ciphertext and tag (R542, log entry 13). -/
opaque Config.gcmSeal : BitVec 256 → BitVec 96 → List Byte → List Byte → List Byte × List Byte
/-- AES-256-GCM decryption: key, IV, additional data, ciphertext, tag to the plaintext, none where the tag fails (R542, log
entry 13). -/
opaque Config.gcmOpen : BitVec 256 → BitVec 96 → List Byte → List Byte → List Byte → Option (List Byte)
/-- Bytes of another device's memory that a read over the fabric returns: device, address, length, free-value counter. -/
opaque Config.remoteBytes : Nat → Nat → Nat → Nat → List Byte

end Sys2Proof
end

