-- ==== Sys2Proof/Machine/Hash.lean ====
section
/-! DEFINITION. The two checksums the spec names by their standard: CRC-32C (R40, R288, R367) and SHA-384 (R158, R514, R550). -/

namespace Sys2Proof.Machine

/-- One bit of the reflected CRC-32C division. -/
def crcBit (c : BitVec 32) : BitVec 32 :=
  if c.getLsbD 0 then (c >>> 1) ^^^ 0x82F63B78#32 else c >>> 1

/-- One byte of CRC-32C. -/
def crcByte (c : BitVec 32) (b : Byte) : BitVec 32 :=
  let x := c ^^^ b.setWidth 32
  crcBit (crcBit (crcBit (crcBit (crcBit (crcBit (crcBit (crcBit x)))))))

/-- CRC-32C of a byte string: reflected polynomial 0x1EDC6F41, initial value and final exclusive or all ones. -/
def crc32c (bs : List Byte) : BitVec 32 :=
  ~~~ bs.foldl crcByte (BitVec.allOnes 32)

/-- The largest r below 2^(n) + acc with r³ ≤ x, found bit by bit. -/
def cbrtBits : Nat → Nat → Nat → Nat
  | 0, _, acc => acc
  | n + 1, x, acc =>
    let r := acc + 2 ^ n
    cbrtBits n x (if r * r * r ≤ x then r else acc)

/-- The largest r with r² ≤ x, found bit by bit. -/
def sqrtBits : Nat → Nat → Nat → Nat
  | 0, _, acc => acc
  | n + 1, x, acc =>
    let r := acc + 2 ^ n
    sqrtBits n x (if r * r ≤ x then r else acc)

/-- The first eighty primes, from which SHA-384 takes its constants. -/
def shaPrimes : List Nat :=
  [2, 3, 5, 7, 11, 13, 17, 19, 23, 29, 31, 37, 41, 43, 47, 53, 59, 61, 67, 71, 73, 79, 83, 89, 97, 101, 103, 107, 109, 113] ++
  [127, 131, 137, 139, 149, 151, 157, 163, 167, 173, 179, 181, 191, 193, 197, 199, 211, 223, 227, 229, 233, 239, 241, 251] ++
  [257, 263, 269, 271, 277, 281, 283, 293, 307, 311, 313, 317, 331, 337, 347, 349, 353, 359, 367, 373, 379, 383, 389, 397] ++
  [401, 409]

/-- Round constants: the first 64 bits of the fractional parts of the cube roots of the primes. -/
def shaK : List Word :=
  shaPrimes.map fun p => BitVec.ofNat 64 (cbrtBits 68 (p * 2 ^ 192) 0)

/-- Initial state of SHA-384: the fractional parts of the square roots of the ninth to sixteenth primes. -/
def shaInit : List Word :=
  ((shaPrimes.drop 8).take 8).map fun p => BitVec.ofNat 64 (sqrtBits 68 (p * 2 ^ 128) 0)

/-- The message schedule extended by `n` words, newest first. -/
def shaExtend : Nat → List Word → List Word
  | 0, w => w
  | n + 1, w =>
    let g (i : Nat) := w.getD i 0
    let a := g 14
    let b := g 1
    let s0 := a.rotateRight 1 ^^^ a.rotateRight 8 ^^^ (a >>> 7)
    let s1 := b.rotateRight 19 ^^^ b.rotateRight 61 ^^^ (b >>> 6)
    shaExtend n ((g 15 + s0 + g 6 + s1) :: w)

/-- One round on the eight working words. -/
def shaRound (v : List Word) (kw : Word × Word) : List Word :=
  match v with
  | [a, b, c, d, e, f, g, h] =>
    let t1 := h + (e.rotateRight 14 ^^^ e.rotateRight 18 ^^^ e.rotateRight 41) + ((e &&& f) ^^^ (~~~ e &&& g)) + kw.1 + kw.2
    let t2 := (a.rotateRight 28 ^^^ a.rotateRight 34 ^^^ a.rotateRight 39) + ((a &&& b) ^^^ (a &&& c) ^^^ (b &&& c))
    [t1 + t2, a, b, c, d + t1, e, f, g]
  | _ => v

/-- One 128-byte block, given as its sixteen words. -/
def shaBlock (v : List Word) (w : List Word) : List Word :=
  let sched := (shaExtend 64 w.reverse).reverse
  List.zipWith (· + ·) v ((List.zip shaK sched).foldl shaRound v)

/-- The big-endian word of eight bytes. -/
def beWord (bs : List Byte) : Word :=
  BitVec.ofNat 64 (bs.foldl (fun a b => a * 256 + b.toNat) 0)

/-- Words of a byte string, big-endian; `n` words. -/
def beWords : Nat → List Byte → List Word
  | 0, _ => []
  | n + 1, bs => beWord (bs.take 8) :: beWords n (bs.drop 8)

/-- Big-endian bytes of a number, `n` of them. -/
def beBytes : Nat → Nat → List Byte
  | 0, _ => []
  | n + 1, x => BitVec.ofNat 8 (x / 2 ^ (8 * n)) :: beBytes n x

/-- Folds `n` blocks of words into the state. -/
def shaBlocks : Nat → List Word → List Word → List Word
  | 0, v, _ => v
  | n + 1, v, w => shaBlocks n (shaBlock v (w.take 16)) (w.drop 16)

/-- SHA-384 of a byte string, 48 bytes (named by R158, R514 and R550). -/
def sha384 (bs : List Byte) : List Byte :=
  let len := bs.length
  let blocks := (len + 17 + 127) / 128
  let padded := bs ++ [0x80#8] ++ List.replicate (blocks * 128 - len - 17) 0#8 ++ beBytes 16 (8 * len)
  ((shaBlocks blocks shaInit (beWords (blocks * 16) padded)).take 6).flatMap fun w => beBytes 8 w.toNat

end Sys2Proof.Machine
end

