-- ==== Sys2Proof/Machine/State.lean ====
section
/-! DEFINITION. The state of the ES1 as plain data: every register, memory, table, queue, mode and pin the spec gives the
block, the reasons a step can stop, and the state right after reset.  A field's comment gives its name, its width, the file
and rule that name it, and its value at reset. -/

namespace Sys2Proof.Machine

/-- Why a command stops the model. -/
inductive Fault where
  /-- Raised by a cell item that names a device cell number the part does not have (01 R12 numbers cells 0 to 1,919).  Safe:
  the model stops where the part has nothing to do. -/
  | noSuchCell
  deriving DecidableEq, Repr

/-- Why a command has no meaning. -/
inductive Refusal where
  /-- Raised by the arm of a command that is not modelled.  Safe: nothing can be proved of it. -/
  | notModelled (mnemonic : String)
  deriving DecidableEq, Repr

/-- A field of a BAR0 register: the offset of its register, its lowest bit, its width (01 R4). -/
structure Field where
  off : Nat
  lo  : Nat
  w   : Nat
  deriving DecidableEq, Repr

/-- The access codes of register fields (00 R7). -/
inductive Access where
  | ro | rw | wo | w1c | rwl | rc
  deriving DecidableEq, Repr

/-- A field as a register's table gives it: place, access code, reset value. -/
structure RegField where
  lo : Nat
  w  : Nat
  access : Access
  reset  : Nat
  deriving DecidableEq, Repr

/-- A register, or a family of registers (each dimension a stride and a count). -/
structure RegDesc where
  base : Nat
  dims : List (Nat × Nat)
  bits : Nat
  fields : List RegField
  deriving DecidableEq, Repr
/-! ### Sessions (02, 03, 08, 09) -/

/-- Lifecycle states (02 R48). -/
inductive SesState where
  | free | prefill | active | held | waiting | migrating | cancelling | ended | faulted
  deriving DecidableEq, Repr

/-- Residence tiers (03 R72). -/
inductive Tier where
  | p0 | p1 | p2 | p3
  deriving DecidableEq, Repr

/-- One segment of a transcript (09 R322): the bytes of one feed, or the token identities of a feed with TOKENS set. -/
inductive Segment where
  | text (bytes : List Byte)
  | ids (tokens : List Nat)
  deriving DecidableEq, Repr, Inhabited

/-- The sampler region of the auxiliary page (09 R329). -/
structure Sampler where
  /-- SEED | 64 | 09 R329 | device time at create -/
  seed        : Word
  /-- TEMP, binary32 | 32 | 09 R329 | 0x3F80_0000 at create -/
  temp        : BitVec 32
  /-- TOP_K | 32 | 09 R329 | 0 at create -/
  topK        : Nat
  /-- TOP_P, binary32 | 32 | 09 R329 | 0x3F80_0000 at create -/
  topP        : BitVec 32
  /-- IGNORE_END | 1 | 09 R329 | 0 at create -/
  ignoreEnd   : Bool
  /-- INCLUDE_STOP | 1 | 09 R329 | 0 at create -/
  includeStop : Bool
  /-- OUT_MODE | 2 | 09 R329 | 0 at create -/
  outMode     : Nat
  /-- NEXT_OSEQ | 32 | 09 R329 | 0 at create -/
  nextOseq    : Nat
  deriving DecidableEq, Repr, Inhabited

/-- The text side of a session held in its auxiliary page (02 R38). -/
structure TextState where
  /-- Sampler parameters | 256 B | 02 R38, 09 R329 | at create as R329 gives -/
  sampler  : Sampler
  /-- Grammar automaton's current state | 20 | 09 R334 | the grammar's START at create -/
  gramSt   : Nat
  /-- Grammar stack, top first, entries SYM and RET | 256 × 36 | 09 R334 | empty at create -/
  gramStk  : List (Nat × Nat)
  /-- The sixteen stop strings, 64 bytes each | 1 KiB | 02 R38, 09 R352 | zero at create -/
  stops    : List (List Byte)
  /-- Stop string lengths, 0 disabled | 16 × 8 | 09 R329 | zero at create -/
  stopLens : List Nat
  /-- Bytes the stop matcher holds back | up to 63 B | 09 R346 | empty at create -/
  matcher  : List Byte
  /-- Bytes the UTF-8 assembler holds back | up to 3 B | 09 R347 | empty at create -/
  utf8     : List Byte
  deriving DecidableEq, Repr, Inhabited

/-- What the pages of a parked copy on a cartridge hold beside its KV and recurrent pages (10 R380): auxiliary page,
transcript, token identities. -/
structure Parked where
  /-- the auxiliary page, ordinal 0 -/
  text    : TextState
  /-- the transcript pages -/
  segs    : List Segment
  /-- the token identities of the history -/
  history : List Nat
  deriving DecidableEq, Repr, Inhabited

/-- A parked copy of a session (03 R72, 10 R380, R381): what a revival or a restoration from it reads. -/
structure Copy where
  /-- Bay that holds the copy | 2 | 03 R72 | no copy at reset -/
  bay        : Nat
  /-- Cartridge serial of that bay when the copy was written | 64 | 10 R405 | no copy at reset -/
  serial     : Nat
  /-- Park generation of the copy | 32 | 10 R381, R392 | no copy at reset -/
  gen        : Nat
  /-- Pages of the copy | 32 | 10 R392 | no copy at reset -/
  pages      : Nat
  /-- Extents named by the head page: first ordinal, page count, first block | ≤ 1,016 | 10 R381 | no copy at reset -/
  extents    : List (Nat × Nat × Nat)
  /-- TOKENS of the copy | 32 | 03 R101 | no copy at reset -/
  tokens     : Nat
  /-- GENERATED of the copy | 32 | 10 R392 | no copy at reset -/
  generated  : Nat
  /-- KV_PAGES of the copy | 32 | 10 R381 | no copy at reset -/
  kvPages    : Nat
  /-- TRANSCRIPT_BYTES of the copy | 24 | 10 R381 | no copy at reset -/
  transcript : Nat
  /-- Transcript segments of the copy | ≤ 4 MiB | 10 R380 | no copy at reset -/
  segs       : List Segment
  /-- CUR bit of the copy | 1 | 10 R381 | no copy at reset -/
  cur        : Bool
  /-- Text state of the copy (the auxiliary page, ordinal 0) | 16 KiB | 10 R380 | no copy at reset -/
  text       : TextState
  /-- KV entries of the copy: entry index and page bytes | pages | 10 R380 | no copy at reset -/
  kv         : Map (Map Byte)
  /-- Recurrent slots of the copy: slot and page bytes | pages | 10 R380 | no copy at reset -/
  recur      : Map (Map Byte)
  deriving DecidableEq, Repr

/-- A park in progress (03 R83). -/
structure ParkOp where
  target  : Tier
  /-- lender address for P2, bay for P3 -/
  place   : Nat
  bytes   : Nat
  started : Nat
  /-- the one retry of R85 is spent -/
  retried : Bool
  /-- the write only brings the P3 copy current (R94), or evacuates (R105): TIER stays -/
  copyOnly : Bool
  /-- colour of R138 when a park-throughput contract polices it: 0 none, 1 green, 2 yellow, 3 red -/
  colour  : Nat
  /-- the journal record of the park: not yet submitted 0, submitted 1, durable 2 -/
  journal : Nat
  /-- contract that polices it (R138) -/
  policed : Option Nat
  deriving DecidableEq, Repr

/-- A revival in progress (03 R83). -/
structure RevOp where
  src     : Tier
  started : Nat
  colour  : Nat
  /-- completion bound T_t(S) of R73, in nanoseconds -/
  bound   : Nat
  /-- ses.revive asked for a P1 notice -/
  notify  : Bool
  /-- the horizon rule is applied again at commit (R83: ses.wait during a revival) -/
  again   : Bool
  /-- P1 frames allocated for its pages: KV and recurrent pages, auxiliary page, transcript pages (R83) -/
  frames  : List Nat
  /-- P1 frames allocated for its list pages (R286) -/
  lists   : List Nat
  /-- contract that polices it (R138) -/
  policed : Option Nat
  deriving DecidableEq, Repr

/-- A migration in progress (02 R49). -/
structure MigOp where
  dest    : Nat
  prev    : SesState
  /-- HOLD_REASON before the migration -/
  hold    : Nat
  started : Nat
  deriving DecidableEq, Repr

/-- A session table entry and the parts of session state it roots (02 R40, R37, R38).  CHECK is CRC-32C of the other
fields, computed when the entry is written out; `checkBad` records a stored CHECK that no longer matches. -/
structure Session where
  /-- INSTAR | 24 | 02 R40 | entry FREE at reset -/
  instar : Nat
  /-- STATE | 4 | 02 R40, R48 | FREE -/
  state : SesState
  /-- TIER | 2 | 02 R40, R43 | entry FREE at reset -/
  tier : Tier
  /-- DUR | 2 | 02 R40 | entry FREE at reset -/
  dur : Nat
  /-- CONTEXT | 6 | 02 R40 | entry FREE at reset -/
  context : Nat
  /-- CUSTOMER | 12 | 02 R40 | entry FREE at reset -/
  customer : Nat
  /-- VOCAB | 6 | 02 R40 | entry FREE at reset -/
  vocab : Nat
  /-- GRAMMAR | 8 | 02 R40 | entry FREE at reset -/
  grammar : Nat
  /-- MODEL | 10 | 02 R40 | entry FREE at reset -/
  model : Nat
  /-- PRIO | 3 | 02 R40 | entry FREE at reset -/
  prio : Nat
  /-- HOLD_REASON | 3 | 02 R40 | entry FREE at reset -/
  holdReason : Nat
  /-- CANCEL_REQ | 1 | 02 R40 | entry FREE at reset -/
  cancelReq : Bool
  /-- PARK_BUSY | 1 | 02 R40, 03 R83 | entry FREE at reset -/
  parkBusy : Bool
  /-- REVIVE_BUSY | 1 | 02 R40, 03 R83 | entry FREE at reset -/
  reviveBusy : Bool
  /-- END_REQ | 1 | 02 R40 | entry FREE at reset -/
  endReq : Bool
  /-- DRAFT_EN | 1 | 02 R40 | entry FREE at reset -/
  draftEn : Bool
  /-- MOVED | 1 | 02 R40, R49 | entry FREE at reset -/
  moved : Bool
  /-- SEQ_SLOT | 13 | 02 R40 | entry FREE at reset -/
  seqSlot : Nat
  /-- SEQ_VALID | 1 | 02 R40 | entry FREE at reset -/
  seqValid : Bool
  /-- QUEUE | 4 | 02 R40 | entry FREE at reset -/
  queue : Nat
  /-- LAST_STATUS | 16 | 02 R40, R41 | entry FREE at reset -/
  lastStatus : Nat
  /-- TOKENS | 32 | 02 R40 | entry FREE at reset -/
  tokens : Nat
  /-- GENERATED | 32 | 02 R40 | entry FREE at reset -/
  generated : Nat
  /-- KV_ROOT | 64 | 02 R40, R37 | entry FREE at reset -/
  kvRoot : Word
  /-- RECUR_ROOT | 64 | 02 R40, R37 | entry FREE at reset -/
  recurRoot : Word
  /-- AUX | 64 | 02 R40, R37 | entry FREE at reset -/
  aux : Word
  /-- EXPECT_TIME | 64 | 02 R40 | entry FREE at reset -/
  expectTime : Nat
  /-- DEADLINE | 64 | 02 R40 | entry FREE at reset -/
  deadline : Nat
  /-- CREATE_TIME | 64 | 02 R40 | entry FREE at reset -/
  createTime : Nat
  /-- CHANGE_TIME | 64 | 02 R40 | entry FREE at reset -/
  changeTime : Nat
  /-- LINK | 64 | 02 R40 | entry FREE at reset -/
  link : Word
  /-- KV_PAGES | 32 | 02 R40 | entry FREE at reset -/
  kvPages : Nat
  /-- DIRTY_PAGES | 32 | 02 R40 | entry FREE at reset -/
  dirtyPages : Nat
  /-- TAG | 64 | 02 R40 | entry FREE at reset -/
  tag : Word
  /-- CLASS | 8 | 02 R40 | entry FREE at reset -/
  cls : Nat
  /-- CONTRACT | 16 | 02 R40 | entry FREE at reset -/
  contract : Nat
  /-- GEN_LIMIT | 24 | 02 R40 | entry FREE at reset -/
  genLimit : Nat
  /-- LENDER | 16 | 02 R40 | entry FREE at reset -/
  lender : Nat
  /-- BAY | 2 | 02 R40 | entry FREE at reset -/
  bay : Nat
  /-- TRANSCRIPT_BYTES | 24 | 02 R40 | entry FREE at reset -/
  transcriptBytes : Nat
  /-- UPDATE_SEQ | 32 | 02 R40, R41 | entry FREE at reset -/
  updateSeq : Nat
  /-- The stored CHECK does not match | 1 | 02 R42 | entry FREE at reset -/
  checkBad : Bool
  /-- The shadow engine's copy fails its CHECK | 1 | 02 R42 | entry FREE at reset -/
  shadowBad : Bool
  /-- The shadow engine has confirmed the last update (13 R519, R521) | 1 | 13 R519 | entry FREE at reset -/
  mirrored : Bool
  /-- Instar a migration commit replaced, accepted under R31 while MOVED | 24 | 02 R31 | none -/
  oldInstar : Option Nat
  /-- Device address where the session was created (10 R383, R392 ORIGIN) | 16 | 10 R392 | entry FREE at reset -/
  origin : Nat
  /-- Text state of the auxiliary page | 16 KiB | 02 R38 | entry FREE at reset -/
  text : TextState
  /-- Transcript segments waiting for prefill | ≤ 4,194,304 B | 02 R39, 09 R322 | entry FREE at reset -/
  segs : List Segment
  /-- Transcript page references | 256 × 64 | 02 R38, R37 | entry FREE at reset -/
  transcriptPages : List Word
  /-- Token identities of the transcript once tokenised, those not yet computed, each with the bytes it consumes | 21, 8 each | 09 R322, R324 | entry FREE at reset -/
  prompt : List (Nat × Nat)
  /-- The token engine has tokenised the transcript (R324) | 1 | 09 R324 | entry FREE at reset -/
  tokenised : Bool
  /-- Token identity at every position of the history and its head (what the KV cache is keyed to) | 21 each | 02 R47 | entry FREE at reset -/
  history : List Nat
  /-- KV page references by entry index (directory and list pages) | 64 each | 08 R284 | entry FREE at reset -/
  kv : Map Word
  /-- Recurrent page references by slot | 64 each | 08 R285 | entry FREE at reset -/
  recur : Map Word
  /-- CUR: the half holding the committed recurrent state | 1 | 08 R285 | entry FREE at reset -/
  cur : Bool
  /-- Frames of the list pages: 0 the directory page, 1 the recurrent list page, 2 + i list page i | frame numbers | 08 R284 to R287 | entry FREE at reset -/
  listFrames : Map Nat
  /-- The P3 copy | see Copy | 03 R72 | none -/
  p3 : Option Copy
  /-- What the lender holds of the P2 copy (SES_LENDER names it) | see Copy | 03 R72 | none -/
  p2 : Option Copy
  /-- Park in progress | see ParkOp | 03 R83 | none -/
  park : Option ParkOp
  /-- A park deferred as red, or a durable write deferred for want of credit or space: target tier, place, bytes, whether only the copy is brought current | - | 04 R140, 03 R94 | none -/
  deferred : Option (Tier × Nat × Nat × Bool)
  /-- Revival in progress | see RevOp | 03 R83 | none -/
  rev : Option RevOp
  /-- Migration in progress | see MigOp | 02 R49 | none -/
  mig : Option MigOp
  /-- Item of the cancel in progress, with the device time CANCEL_REQ was set and NEXT_OSEQ then | - | 02 R63, 14 R535 | none -/
  cancel : Option (Src × Nat × Nat)
  /-- A tombstone for the session's directory record: 0 not needed, 1 needed, 2 submitted, 3 durable | 2 | 02 R67 | 0 -/
  tombstone : Nat
  /-- Item of ses.end that waits for the current step | - | 02 R69 | none -/
  ending : Option Src
  /-- ses.hold that waits for the current step | 1 | 02 R49, 05 R185 | 0 -/
  holdReq : Bool
  /-- A hold for reason 3 has been lifted and ends at the next build | 1 | 09 R343 | 0 -/
  lifted : Bool
  /-- GEN_LIMIT of a run waiting for its revival | 24 | 02 R49 | none -/
  runAfter : Option Nat
  /-- End of the wait grace | 64 | 02 R50 | none -/
  graceAt : Option Nat
  /-- Device time since which the session waits at P1 or P2 | 64 | 03 R94 | entry FREE at reset -/
  waitSince : Nat
  /-- The overdue rule is not armed: no revival has begun for this EXPECT_TIME, or it has been applied | 1 | 03 R90 | 0 -/
  overdueDone : Bool
  /-- The DEADLINE notice has been posted | 1 | 03 R91 | 0 -/
  deadlineDone : Bool
  /-- Counted in SES_DUR_BEHIND | 1 | 03 R94 | 0 -/
  behind : Bool
  /-- Counts in the binding counts of its three slots | 1 | 02 R46 | entry FREE at reset -/
  bound : Bool
  /-- Identities a restored or adopted session must meet: VOCAB_ID and MODEL_TAG | 64, 64 | 10 R402 | none -/
  mustMatch : Option (Nat × Nat)
  /-- Previous handle of a restored or adopted session, the result of its notice | 64 | 10 R401 | entry FREE at reset -/
  prevHandle : Word
  /-- The restoration notice has been posted | 1 | 10 R401 | entry FREE at reset -/
  announced : Bool
  /-- JSTART, JTIME and bay of the record the session was restored from | 24, 64, 2 | 10 R607, R608 | none -/
  restored : Option (Nat × Nat × Nat)
  deriving DecidableEq, Repr

/-- A page frame table entry (08 R288). -/
structure Frame where
  /-- REFCNT | 16 | 08 R288 | 0 -/
  refcnt   : Nat
  /-- KIND | 3 | 08 R288 | 0 free -/
  kind     : Nat
  /-- CONTEXT | 6 | 08 R288 | 0 -/
  context  : Nat
  /-- PIED | 1 | 08 R288, R289 | 0 -/
  pied     : Bool
  /-- CRC_VALID | 1 | 08 R288 | 0 -/
  crcValid : Bool
  /-- CRC, or OWNER for KIND 2 | 32 | 08 R288 | 0 -/
  crc      : Nat
  deriving DecidableEq, Repr

/-- Sessions and the page frame table. -/
structure SesBlock where
  /-- Session table, by local index; an absent index is FREE | 16,777,216 × 128 B | 02 R40 | every entry FREE -/
  entries   : Map Session
  /-- Free list, first in first out, as ranges of indices | 16,777,216 indices | 02 R36 | ascending order -/
  freeList  : List (Nat × Nat)
  /-- Instar of every FREE entry that ses.free has moved on since start-up | 24 each | 02 R34 | none moved on -/
  freeInstar : Map Nat
  /-- Instar of every other FREE entry | 24 | 02 R35 | DESIGN CHOICE 1 -/
  baseInstar : Nat
  /-- Page frame table, by frame; an absent frame is KIND 0 | 25,165,824 × 8 B | 08 R288 | every frame free -/
  frames    : Map Frame
  /-- HBM channels that have left service, 32 × stack + channel: first frame of the reserve that stands in, 0 none | frame numbers | 13 R493 | none -/
  remap     : Map Nat
  deriving DecidableEq, Repr
/-! ### Tiers and neighbour memory (03) -/

/-- A lender known from its advertisement (03 R97, R98, R127). -/
structure Lender where
  /-- Free lent bytes advertised | 64 | 03 R97 | no lender known -/
  free      : Nat
  /-- Fabric hops to the lender | 4 | 03 R98 | no lender known -/
  hops      : Nat
  /-- The lender's RECLAIM_MS | 16 | 04 R127 | no lender known -/
  reclaimMs : Nat
  /-- Reclaim deadline received from the lender | 64 | 03 R99 | none -/
  reclaim   : Option Nat
  deriving DecidableEq, Repr

/-- A borrower of this device's lent memory, and the reclaim notice sent to it (03 R96, R99). -/
structure Borrower where
  /-- Frames lent to it | frame numbers | 03 R96 | none lent -/
  frames   : List Nat
  /-- Frames that an abandoned P2 park left unreferenced | frame numbers | 03 R84 | none -/
  orphans  : List Nat
  /-- The reclaim notice has been acknowledged | 1 | 03 R99 | 0 -/
  acked    : Bool
  /-- Times the notice was sent again | 4 | 03 R99 | 0 -/
  resends  : Nat
  /-- Device time of the last sending | 64 | 03 R99 | 0 -/
  sentAt   : Nat
  /-- Told that its pages were discarded | 1 | 03 R99 | 0 -/
  told     : Bool
  deriving DecidableEq, Repr

/-- Tier moves of the whole device. -/
structure TierBlock where
  /-- Advertising lenders, by device address | map | 03 R97 | none -/
  lenders   : Map Lender
  /-- Borrowers, by device address | map | 03 R96 | none -/
  borrowers : Map Borrower
  /-- Deadline of the reclaim this device has sent | 64 | 03 R99 | none -/
  reclaimAt : Option Nat
  /-- Free lent bytes last advertised | 64 | 03 R97 | 0 -/
  advertised : Nat
  deriving DecidableEq, Repr

/-! ### Make-ready (04) -/

/-- A contract record's twelve words (04 R109). -/
abbrev Contract := List Word

/-- What a contract in force carries beside its record (04 R111, R139, R140, R141). -/
structure Live where
  /-- Committed bucket level, in 10⁻⁹ units | exact | 04 R140 | no contract in force -/
  cLevel : Nat
  /-- Peak bucket level, in 10⁻⁹ units | exact | 04 R140 | no contract in force -/
  pLevel : Nat
  /-- Device time of the levels | 64 | 04 R140 | no contract in force -/
  at_    : Nat
  /-- Operations in progress that it reserves for | 16 | 04 R139 | no contract in force -/
  conc   : Nat
  /-- Wear pools on bays 0 to 3, in bytes × 12 × 86,400 × 10⁹ | exact | 04 R141 | no contract in force -/
  pools  : List Nat
  /-- Device time of the wear pools | 64 | 04 R141 | no contract in force -/
  poolAt : Nat
  deriving DecidableEq, Repr

/-- A mkr.ready that waits for its evaluation (04 R119). -/
structure ReadyReq where
  src  : Src
  addr : Word
  deriving DecidableEq, Repr

/-- Make-ready state. -/
structure MkrBlock where
  /-- Pending set of each context | 64 × 96 B | 04 R114 | empty -/
  pending  : Map Contract
  /-- Admitted sets, by identifier (the context is [11:6]) | 4,096 × 96 B | 04 R114 | empty -/
  admitted : Map Contract
  /-- Contracts shed and not defined again | records | 04 R611 | none -/
  shed     : Map Contract
  /-- Bucket levels, pools and counts of contracts in force | see Live | 04 R138 to R142 | none -/
  live     : Map Live
  /-- Reservations kept for operations of changed or withdrawn contracts, with the operations still running | records | 04 R120 | none -/
  kept     : List (Nat × Contract × Nat)
  /-- mkr.ready items fetched and waiting | queue | 04 R119 | empty -/
  waiting  : List ReadyReq
  /-- The evaluation in progress | - | 04 R119, R123 | none -/
  evaluating : Option ReadyReq
  /-- A re-evaluation under R143 is due | 1 | 04 R143 | 0 -/
  due      : Bool
  /-- Device time of the free wear pools | 64 | 04 R141 | 0 -/
  wearAt   : Nat
  /-- Free wear pools of bays 0 to 3, in bytes × 12 × 86,400 × 10⁹ (MKR_WEAR_FREE shows whole bytes) | exact | 04 R141 | 0 -/
  wearFree : List Nat
  /-- Slice bound to each step-period contract in force | slice 4p+s | 04, 05 R155 | none -/
  binding  : Map Nat
  deriving DecidableEq, Repr

/-! ### Galleys (05) -/

/-- An active sequence table entry (05 R151). -/
structure Slot where
  /-- INDEX | 24 | 05 R151 | slot free -/
  index      : Nat
  /-- PREFILL | 1 | 05 R151 | slot free -/
  prefill    : Bool
  /-- CONTRACTED | 1 | 05 R151 | slot free -/
  contracted : Bool
  /-- DRAFT_EN | 1 | 05 R151 | slot free -/
  draftEn    : Bool
  /-- PRIO | 3 | 05 R151 | slot free -/
  prio       : Nat
  /-- HOLD_REASON | 3 | 05 R151 | slot free -/
  holdReason : Nat
  /-- PARTITION | 4 | 05 R151 | slot free -/
  part       : Nat
  /-- SLICE | 2 | 05 R151 | slot free -/
  slice      : Nat
  /-- MODEL | 10 | 05 R151 | slot free -/
  model      : Nat
  /-- CUSTOMER | 12 | 05 R151 | slot free -/
  customer   : Nat
  /-- POS | 32 | 05 R151 | slot free -/
  pos        : Nat
  /-- SKIPPED | 16 | 05 R151 | slot free -/
  skipped    : Nat
  /-- DRAFT_READY | 5 | 05 R151 | slot free -/
  draftReady : Nat
  /-- LAST_STEP | 32 | 05 R151 | slot free -/
  lastStep   : Nat
  /-- CONTRACT | 12 | 05 R151 | slot free -/
  contract   : Nat
  /-- DRAFT_BASE | 32 | 05 R151 | slot free -/
  draftBase  : Nat
  /-- DRAFT, up to 16 tokens | 16 × 32 | 05 R151 | slot free -/
  draft      : List Nat
  deriving DecidableEq, Repr

/-- A galley record (05 R159) with what the step has produced for it. -/
structure Rec where
  slot       : Nat
  contracted : Bool
  prefill    : Bool
  void       : Bool
  index      : Nat
  instar     : Nat
  /-- context and customer of the session at the build (08 R292, 05 R172) -/
  context    : Nat
  customer   : Nat
  pos        : Nat
  new        : Nat
  draft      : Nat
  eprio      : Nat
  kvRoot     : Word
  recurRoot  : Word
  /-- draft tokens the record verifies (05 R174) -/
  drafts     : List Nat
  /-- budget tokens deducted at the build (05 R172) -/
  deducted   : Nat
  /-- frames still reserved for its appends (08 R292, R293) -/
  reserved   : Nat
  /-- KV pages appended to in this step, by entry (08 R302) -/
  newPages   : List Nat
  /-- logits received, by OFFSET: segments (first, values) (09 R326) -/
  logits     : Map (List (Nat × List (BitVec 32)))
  /-- a bad segment came: the session commits nothing (09 R326) -/
  spoiled    : Bool
  /-- tokens sampled by OFFSET; none marks an empty mask (09 R331, R342) -/
  sampled    : Map (Option Nat)
  /-- the recurrent half has been written (08 R310) -/
  recurWritten : Bool
  deriving DecidableEq, Repr

/-- A galley (05 R159). -/
structure Galley where
  step      : Nat
  model     : Nat
  release   : Nat
  deadline  : Nat
  cCount    : Nat
  positions : Nat
  recs      : List Rec
  /-- raw record words of an indexing or adaptation galley (05 R159, 11 R439) -/
  raw       : List (List Word)
  /-- cells that executed step.done (07 R245) -/
  done      : List Nat
  /-- its contracted section passed the DEADLINE uncommitted, and was reported (05 R165) -/
  missed    : Bool
  deriving DecidableEq, Repr

/-- A slice's galleys and step times (05 R160 to R164). -/
structure Slice where
  /-- Galley built and not yet swapped in | 262,208 B buffer | 05 R160 | none -/
  built     : Option Galley
  /-- Galley swapped in, running or suspended | 262,208 B buffer | 05 R160 | none -/
  running   : Option Galley
  /-- RELEASE of the last galley swapped in | 64 | 05 R164 | 0 -/
  prevRelease : Nat
  /-- Completion time of the last step | 64 | 05 R164 | 0 -/
  prevDone  : Nat
  /-- Release of step 0 under the bound contract, and steps since | 64 | 05 R163 | none -/
  r0        : Option (Nat × Nat)
  /-- Contract bound to the slice | 12 | 05 R155 | none -/
  contract  : Option Nat
  /-- A build is in progress or due (its number in the builder's order) | 1 | 05 R160, R161 | 0 -/
  building  : Bool
  /-- Weights of a non-resident slice now in cell memory | 1 | 05 R182 | 0 -/
  loaded    : Bool
  /-- Step number of the next build | 32 | 05 R159 | 0 -/
  nextStep  : Nat
  deriving DecidableEq, Repr

/-- A partition's dispatch state (05 R165, R178, R179). -/
structure Part where
  /-- Slice (0 to 3; 4 the search galley) whose galley runs | 3 | 05 R165 | none -/
  running : Option Nat
  /-- Galleys suspended by light switches, innermost first, with their save area | ≤ 4 | 05 R178 | none -/
  nest    : List (Nat × Nat)
  /-- A search galley in flight: index slot, the queries it serves, its release time, and its earliest green deadline (11 R433, R434) | - | 11 R434 | none -/
  search  : Option (Nat × List Nat × Nat × Option Nat)
  deriving DecidableEq, Repr

/-- A loaded model image: the header's figures (05 R158) and the layout record's (08 R278). -/
structure Model where
  wformat : Nat
  aformat : Nat
  recur   : Bool
  moe     : Bool
  quires  : Nat
  params  : Nat
  vocabId : Nat
  f       : Nat
  a       : Nat
  kb      : Nat
  xb      : Nat
  rb      : Nat
  mtok    : Nat
  wres    : Nat
  wtotal  : Nat
  layers  : Nat
  attnLayers : Nat
  recurLayers : Nat
  experts : Nat
  program : Nat
  imageBytes : Nat
  /-- DIGEST, 48 bytes -/
  digest  : List Byte
  source  : Nat
  addr    : Word
  kvFmt   : Nat
  merge   : Nat
  log2ppp : Nat
  kvHeads : Nat
  groupHeads : Nat
  headDim : Nat
  qPerKv  : Nat
  scaleC  : BitVec 32
  ctxMax  : Nat
  exactB  : Int
  exactBl : Int
  recurHalf : Nat
  /-- words of the program from PROGRAM on, as far as a window can hold them (06 R198, 13 R517) -/
  code    : List Word
  /-- sessions bound (02 R46) -/
  bindings : Nat
  deriving DecidableEq, Repr

/-- Galley scheduling state. -/
structure GalBlock where
  /-- Active sequence table, by slot | 8,192 × 128 B | 05 R149, R151 | every slot free -/
  slots  : Map Slot
  /-- Slices, by 4 × partition + slice | 64 | 05 R153, R160 | no galley -/
  slices : Map Slice
  /-- Partitions | 16 | 05 R152, R165 | idle -/
  parts  : Map Part
  /-- Model slots | 1,024 | 05 R158 | every slot empty -/
  models : Map Model
  /-- Fraction of a token in each budget's LEVEL, in 10⁻⁹ tokens, and its time | exact | 05 R171 | 0 -/
  budget : Map (Nat × Nat)
  /-- Partition clocks limited by heat: 0 none, 1 uncontracted, 2 all | 2 | 16 R597 | 0 -/
  limited : Nat
  /-- Logits segments sent by cells and not yet at the token engine: slice 4p+s, record, OFFSET, first identity, values | list | 09 R325, R326 | none -/
  logitsSent : List (Nat × Nat × Nat × Nat × List (BitVec 32))
  deriving DecidableEq, Repr
/-! ### Cells (06, 07) -/

/-- A wide accumulator (06 R220): 64 lanes of a 192-bit integer, its binary point, and flags NAN, PINF, NINF, OVF. -/
structure Wide where
  /-- lane integers | 64 × 192 | 06 R220 | 0 -/
  lanes : List (BitVec 192)
  /-- binary point B | 9, −256 to 255 | 06 R220 | 0 -/
  b     : Int
  deriving DecidableEq, Repr

/-- A DMA descriptor (07 R253, 08 R294). -/
structure Desc where
  /-- OP | 4 | 07 R253 | 0 -/
  op       : Nat
  /-- ACTIVE | 1 | 07 R253 | 0 -/
  active   : Bool
  /-- FAULTED | 1 | 07 R253 | 0 -/
  faulted  : Bool
  /-- STATUS | 16 | 07 R253 | 0 -/
  status   : Nat
  /-- DONE | 32 | 07 R253 | 0 -/
  done     : Nat
  /-- REMOTE | 64 | 07 R253 | 0 -/
  remote   : Word
  /-- LOCAL | 22 | 07 R253 | 0 -/
  local_   : Nat
  /-- COUNT | 32 | 07 R253 | 0 -/
  count    : Nat
  /-- INDEX_ADDR | 22 | 07 R253 | 0 -/
  indexAddr : Nat
  /-- ELEM_UNITS | 8 | 07 R253 | 0 -/
  elemUnits : Nat
  /-- STRIDE | 32 | 07 R253 | 0 -/
  stride   : Nat
  /-- Word 4 of a walk or append | 64 | 08 R294 | 0 -/
  word4    : Word
  /-- FAULT_ADDR | 64 | 07 R253 | 0 -/
  faultAddr : Word
  deriving DecidableEq, Repr

/-- What a cell is doing. -/
inductive CellRun where
  | idle        -- between galleys, or executed step.done (07 R245)
  | running
  | stopped     -- stopped by an unhandled exception, a timeout or a switch (07 R271, 05 R178)
  | fenced      -- 07 R272
  deriving DecidableEq, Repr

/-- The architectural state of an in-service cell (06 R189, 07 R238 to R240, R253, R273). -/
structure Cell where
  /-- s0 to s31, by number; s0 reads zero | 32 × 64 | 06 R189, 07 R238 | 0 -/
  s     : Map Word
  /-- v0 to v31, each 64 lanes | 32 × 64 × 32 | 06 R189 | 0 -/
  v     : Map (List (BitVec 32))
  /-- p0 to p7 | 8 × 64 | 07 R238 | 0 -/
  p     : Map Word
  /-- t0 to t7, 16 × 64 binary32, row-major | 8 × 4 KiB | 06 R213 | 0 -/
  t     : Map (List (BitVec 32))
  /-- w0 to w3 | 4 × 64 × 192 | 06 R220 | 0, B 0 -/
  w     : Map Wide
  /-- pc, word index | 12 | 07 R238 | 0 -/
  pc    : Nat
  /-- Status register | 64 | 06 R208, 07 R239 | 0 -/
  status : Word
  /-- EPC | 12 | 07 R240 | 0 -/
  epc   : Nat
  /-- Cell memory | 4 MiB | 06 R192 | DESIGN CHOICE 0 -/
  mem   : Map Byte
  /-- 16-byte units of cell memory holding an uncorrectable error | unit numbers | 06 R197 | none -/
  poison : List Nat
  /-- 16-byte units holding a single-bit error, 262,144 + i for word i of the instruction store | unit numbers | 06 R197 | none -/
  weak  : List Nat
  /-- Instruction store | 4,096 × 64 | 06 R198 | DESIGN CHOICE 0 -/
  istore : Map Word
  /-- DMA descriptors | 16 × 64 B | 07 R253 | inactive -/
  desc  : Map Desc
  /-- Sender of the wide record in each receive slot: device cell number and its instar (the bytes are in cell memory) | 31 × 35 | 06 R192, R224, 13 R507 | none -/
  recv  : Map (Nat × Nat)
  /-- Pending wait: opcode, object reference, value | 3 × 64 | 07 R273 | none -/
  wait  : Option (Nat × Word × Word)
  /-- tmma in progress: next block | 32 | 07 R273, 06 R216 | none -/
  tmma  : Option Nat
  /-- Running state | - | 07 R245, R271, R272 | idle -/
  run   : CellRun
  /-- Partition and slice whose galley the cell runs (WHERE) | 6 | 07 R240 | 0 -/
  part  : Nat
  slice : Nat
  /-- Rank in the partition, and cells of the partition | 11, 11 | 07 R240 | 0 -/
  rank  : Nat
  cells : Nat
  deriving DecidableEq, Repr

/-! ### Synchronisation (07 R261 to R269); the objects themselves are the SYN_OBJ registers -/

/-- An operation waiting on an object (07 R265): actor (device cell number, or 0x8000 + 16 × context + queue), opcode, value. -/
structure Waiter where
  actor : Nat
  op    : Nat
  value : Word
  /-- QPOS of a queue's item, destination register of a cell's -/
  ret   : Nat
  since : Nat
  deriving DecidableEq, Repr

/-! ### Tokens, text and banks (09) -/

/-- A loaded vocabulary (09 R316 to R318). -/
structure Vocab where
  ntok     : Nat
  vocabId  : Nat
  byteFb   : Bool
  byteBase : Nat
  ends     : List Nat
  /-- token t: bytes, SPECIAL, BYTE -/
  strings  : List (List Byte × Bool × Bool)
  /-- trie nodes by word offset: TOKEN_P1, children (BYTE, offset) -/
  trie     : Map (Nat × List (Nat × Nat))
  imageBytes : Nat
  deriving DecidableEq, Repr

/-- A grammar transition entry (09 R334). -/
structure GEntry where
  lo : Nat
  hi : Nat
  top : Nat
  action : Nat
  target : Nat
  pushSym : Nat
  ret : Nat
  deriving DecidableEq, Repr

/-- A loaded grammar (09 R333, R334). -/
structure Grammar where
  nstates : Nat
  vocabId : Nat
  start   : Nat
  classes : List Nat
  /-- FIRST, NTRANS, ACCEPT, FINAL -/
  states  : List (Nat × Nat × Bool × Bool)
  entries : List GEntry
  imageBytes : Nat
  deriving DecidableEq, Repr

/-- Token engines' tables. -/
structure TokBlock where
  /-- Vocabulary slots | 64 | 09 R316 | empty -/
  vocabs   : Map Vocab
  /-- Grammar slots 1 to 255; slot 0 is built in | 255 | 09 R333, R339 | empty -/
  grammars : Map Grammar
  deriving DecidableEq, Repr

/-- An associative bank's rows and their copy in HBM (09 R353 to R360). -/
structure Bank where
  /-- Rows of 16 bytes | 8,192 × 128 | 09 R353 | DESIGN CHOICE 0 -/
  rows : Map (List Byte)
  /-- The copy in HBM | 8,192 × 128 | 09 R356 | DESIGN CHOICE 0 -/
  copy : Map (List Byte)
  deriving DecidableEq, Repr
/-! ### Bays, translation layer and journal (10) -/

/-- A flash object (10 R409): its bytes, the bays and context its identifier names. -/
structure FlashObj where
  /-- length in bytes | 40 | 10 R410 | no object -/
  len   : Nat
  /-- bytes | ≤ 2^40 | 10 R409 | no object -/
  bytes : Map Byte
  /-- serials of the cartridges that hold it, in bay order | 64 each | 10 R409 | no object -/
  serials : List Nat
  deriving DecidableEq, Repr

/-- One end of the cartridge link (10 R367, R368). -/
structure Link where
  /-- SEQ of the next flit sent | 12 | 10 R367 | 0 -/
  txSeq   : Nat
  /-- highest SEQ received in order, plus one | 12 | 10 R367 | 0 -/
  rxSeq   : Nat
  /-- transmitted flits not yet acknowledged, oldest first | ≤ 1,024 | 10 R368 | empty -/
  replay  : List Flit
  /-- consecutive resends without progress | 5 | 10 R368 | 0 -/
  resends : Nat
  /-- device time of the oldest unacknowledged flit's last sending | 64 | 10 R368 | 0 -/
  sentAt  : Nat
  /-- a NAK is owed | 1 | 10 R368 | 0 -/
  nakOwed : Bool
  /-- flits sent, newest last (what the cartridge sees) | log | 10 R367 | empty -/
  sent    : List Flit
  /-- command credits granted and not used, by channel | counts | 10 R367 (TYPE 5) | 0 -/
  credits : Map Nat
  /-- command flits that wait for a credit, oldest first | list | 10 R367, R371 | empty -/
  held    : List Flit
  deriving DecidableEq, Repr

/-- A channel operation outstanding at the bridge (10 R371 to R374). -/
structure ChanOp where
  channel : Nat
  die     : Nat
  /-- OP of R372 -/
  op      : Nat
  row     : Nat
  /-- read-retry setting in use -/
  retry   : Nat
  started : Nat
  /-- instar of the channel engine that issued it -/
  issuer  : Nat
  /-- the operation has timed out once (13 R503) -/
  again   : Bool
  /-- the session, object or query it serves, as a tag of the owning engine -/
  owner   : Nat
  deriving DecidableEq, Repr

/-- A die that is programming or erasing (10 R373). -/
structure DieOp where
  /-- program or erase in progress; suspended -/
  suspended : Bool
  /-- device time of its start or last resume -/
  resumedAt : Nat
  deriving DecidableEq, Repr

/-- A block of the cartridge as the translation layer knows it (10 R386 to R389). -/
structure Block where
  /-- reads since the last erase | 32 | 10 R387 | 0 -/
  reads   : Nat
  /-- erase count | 32 | 10 R386 | 0 -/
  erases  : Nat
  /-- retired | 1 | 10 R389 | 0 -/
  retired : Bool
  /-- device time of its last patrol read | 64 | 10 R388 | 0 -/
  scanned : Nat
  deriving DecidableEq, Repr

/-- A journal page on its way to both channels (10 R393). -/
structure JPage where
  records   : List (DirRec × HeadPage)
  submitted : Nat
  deriving DecidableEq, Repr

/-- A bay (10 R364 to R412); STATE, PRESENT, HOLDUP_OK, counters and wear totals are its CRT_ registers. -/
structure Bay where
  /-- Device time the current bay state was entered | 64 | 10 R365 | 0 -/
  since     : Nat
  /-- Device time presence was first seen asserted | 64 | 10 R365 | none -/
  presAt    : Option Nat
  /-- Device time hold-up status was first seen bad | 64 | 10 R406 | none -/
  badAt     : Option Nat
  /-- Colophon accepted | 512 B | 10 R376 | none -/
  col       : Option Colophon
  /-- Wear record fields | 64 B | 10 R378 | none -/
  wear      : WearRec
  /-- Device time of the last wear record write, and the copy written | 64, 1 | 10 R379 | 0 -/
  wearAt    : Nat
  wearCopy  : Nat
  /-- Superblock generation, and the slot of the newest | 32, 1 | 10 R395, R400 | 0 -/
  sbGen     : Nat
  sbSlot    : Nat
  /-- Directory checkpoint records | ≤ 16,777,216 | 10 R395 | empty -/
  checkpoint : List (DirRec × HeadPage)
  /-- Durable journal records since the checkpoint, oldest first | ≤ 67,108,864 | 10 R393 | empty -/
  journal   : List (DirRec × HeadPage)
  /-- Records of the open journal page, and its opening time | 16 KiB | 10 R393 | empty -/
  openPage  : List (DirRec × HeadPage)
  openAt    : Nat
  /-- Journal pages submitted, oldest first | - | 10 R393 | empty -/
  inFlight  : List JPage
  /-- Next JSEQ | 64 | 10 R392 | 1 -/
  nextJseq  : Nat
  /-- Compaction: journal position J0 fixed, and whether its superblock has been submitted | - | 10 R395 | none -/
  compact   : Option Nat
  /-- Items of crt.compact or crt.eject that wait: opcode, item | list | 10 R410 | none -/
  waitItems : List (Nat × Src)
  /-- The cartridge is blank: no wear record, NAND reads erased | 1 | 10 R365, R379 | 0 -/
  blank     : Bool
  /-- The superblock could not be opened yet in this start-up (15 R580) | 1 | 15 R580 | 0 -/
  tried     : Bool
  /-- The records of the directory have been restored, adopted or reattached | 1 | 15 R580 | 0 -/
  settled   : Bool
  /-- Records adopted or restored when their mapping becomes valid | list | 10 R403, R607 | empty -/
  heldBack  : List (DirRec × HeadPage)
  /-- Wrapped context keys of the superblock key table: KEY_ID, context | table | 10 R392, 14 R552 | empty -/
  keyTable  : List (Nat × Nat)
  /-- The superblock opens with the domain's keys | 1 | 10 R365, R580 | 0 -/
  opened    : Bool
  /-- Link state | see Link | 10 R367 | reset -/
  link      : Link
  /-- Instar of the channel engine serving each of the 24 channels, as set at the bridge | 24 × 24 | 10 R370 | none set -/
  issuers   : Map Nat
  /-- Commands outstanding, by OPTAG | ≤ 64 a channel | 10 R371 | empty -/
  ops       : Map ChanOp
  /-- Next OPTAG | 16 | 10 R367 | 0 -/
  nextTag   : Nat
  /-- Dies programming or erasing, by 32 × channel + die | 768 | 10 R373 | idle -/
  dies      : Map DieOp
  /-- Dies retired | die numbers | 13 R503 | none -/
  deadDies  : List Nat
  /-- Blocks by number | map | 10 R386 | none used -/
  blocks    : Map Block
  /-- Seal in progress: device time PWRFAIL_N asserted | 64 | 10 R397 | none -/
  sealing   : Option Nat
  /-- Superblock and wear record of an eject, or the first superblock, have been written | 1 | 10 R365 | 0 -/
  drained   : Bool
  /-- Retired link lanes | ≤ 6 | 10 R369 | none -/
  badLanes  : List Nat
  deriving DecidableEq, Repr

/-- The four bays, flash objects, and the serials verified since start-up. -/
structure CrtBlock where
  /-- Bays 0 to 3 | 4 | 10 R364 | EMPTY -/
  bays    : Map Bay
  /-- Flash objects by identifier | map | 10 R409 | none -/
  objects : Map FlashObj
  /-- Flash objects deleted, with the serials of their cartridges and the length of those found on a cartridge | list | 10 R410 | none -/
  gone    : List (Nat × List Nat × Nat)
  /-- Serials of cartridges this device initialised or formatted: they hold only what it wrote | 64 each | 10 R365 | none -/
  fresh   : List Nat
  /-- Serials of cartridges verified since the last start-up | 64 each | 10 R405, R607 | none -/
  serials : List Nat
  /-- Purged contexts by cartridge: their objects on it are gone | context, serial | 14 R561 | none -/
  purged  : List (Nat × Nat)
  /-- Free pages that superseded copies still hold, by bay | counts | 10 R385 | none -/
  stale   : Map Nat
  deriving DecidableEq, Repr

/-! ### Vector search (11) -/

/-- A side-list record (11 R415, R426). -/
structure SideRec where
  seq     : Nat
  id      : Nat
  attr    : BitVec 32
  delete  : Bool
  /-- vector elements widened to binary32 -/
  vec     : List (BitVec 32)
  /-- the item or document that waits for it: completion source, or notice queue -/
  src     : Option Src
  /-- queued by a document (notice REASON 8) -/
  doc     : Bool
  durable : Bool
  deriving DecidableEq, Repr

/-- A query in progress (11 R420).  Its answer is fixed at its fetch (R422): the entries, the counts and the generation. -/
structure Query where
  src     : Src
  /-- K, result address -/
  k       : Nat
  raddr   : Word
  /-- generation and side-list snapshot at fetch -/
  gen     : Nat
  snap    : Nat
  fetched : Nat
  /-- colour of R138: 0 none, 1 green, 2 yellow; the contract that polices it -/
  colour  : Nat
  policed : Option Nat
  /-- deadline of a green query: fetch plus BOUND_NS -/
  deadline : Option Nat
  /-- entries of the result: ID, DIST, ATTR -/
  out     : List (Nat × Nat × Nat)
  dead    : Nat
  filtered : Nat
  scanned : Nat
  /-- partitions still to be scanned, each with the channel engine that does it -/
  toScan  : List (Nat × Nat)
  /-- records to be read for re-rank once the scans are in, and those still to be read: key, channel engine -/
  keys    : List (Nat × Nat)
  toRead  : List (Nat × Nat)
  deriving DecidableEq, Repr

/-- A document pending for an encoder slice (11 R438, R439). -/
structure Doc where
  qpos   : Nat
  tokens : List Nat
  attr   : BitVec 32
  id     : Nat
  src    : Src
  deriving DecidableEq, Repr

/-- An open index (11 R413 to R416): header figures, sections as values, side list, queries and documents. -/
structure Index where
  object  : Nat
  metric  : Nat
  vformat : Nat
  d       : Nat
  m       : Nat
  log2rec : Nat
  nlist   : Nat
  g       : Nat
  nvec    : Nat
  centB   : Int
  rrB     : Int
  gen     : Nat
  /-- centroids, codebook words, code entries and vector records are read from the object through these first pages -/
  centPg  : Nat
  bookPg  : Nat
  codePg  : Nat
  vecPg   : Nat
  sidePg  : Nat
  sidePages : Nat
  /-- side list in SEQ order -/
  side    : List SideRec
  nextSeq : Nat
  /-- side records of the open page, count, and its opening time -/
  pageOpen : Nat
  pageAt  : Nat
  /-- side pages submitted: records in each -/
  pagesInFlight : List Nat
  queries : Map Query
  nextQuery : Nat
  docs    : List Doc
  nextDoc : Nat
  encoder : Option (Nat × Nat)
  /-- merge in progress: item, new identifier, merge point -/
  merge   : Option (Src × Nat × Nat)
  /-- vse.close that waits for queries -/
  closing : Option Src
  /-- older generations still used by queries: generation, object identifier -/
  oldObjects : List (Nat × Nat)
  /-- pinned pages that HBM returned poisoned -/
  badPins : List Nat
  deriving DecidableEq, Repr

/-! ### Fabric (12) -/

/-- A window on a queue pair (12 R475). -/
structure Window where
  base   : Nat
  len    : Nat
  read   : Bool
  write  : Bool
  atomic : Bool
  mode   : Nat
  stallUs : Nat
  deriving DecidableEq, Repr

/-- An item of a send queue (12 R476, R479). -/
structure FabItem where
  src     : Option Src
  /-- ordinal of the item on its queue pair (12 R479) -/
  seq     : Nat
  op      : Nat
  chain   : Bool
  notify  : Bool
  wait    : Bool
  waitKind : Nat
  waitQp  : Nat
  laddr   : Word
  raddr   : Nat
  len     : Nat
  operand : Word
  swap    : Word
  threshold : Word
  /-- packets granted so far -/
  granted : Nat
  /-- PSN of its first packet, once granted -/
  psn     : Nat
  /-- bytes of a read, or the word of an atomic, received so far -/
  got     : Nat
  result  : Word
  posted  : Nat
  deriving DecidableEq, Repr

/-- Queue pair states (12 R473). -/
inductive QpState where
  | free | init | connecting | ready | error
  deriving DecidableEq, Repr

/-- A queue pair (12 R472 to R475, R489). -/
structure Qp where
  /-- STATE | 3 | 12 R489 | FREE -/
  state   : QpState
  /-- OWNER_KIND: 0 context, 1 slice, 2 control-core firmware | 1 | 12 R489 | 0 -/
  ownerKind : Nat
  /-- OWNER | 6 | 12 R489 | 0 -/
  owner   : Nat
  /-- CLASS | 3 | 12 R489 | 0 -/
  cls     : Nat
  /-- INSTAR | 24 | 12 R473 | 0 -/
  instar  : Nat
  /-- PEER_DEV, PEER_QP, PEER_INSTAR and the peer QP's instar | 16, 16, 24, 24 | 12 R489 | 0 -/
  peerDev : Nat
  peerQp  : Nat
  peerInstar : Nat
  peerQpInstar : Nat
  /-- WINDOW, DEPTH, bound PORT | 13, 13, 4 | 12 R489 | 0 -/
  window  : Nat
  depth   : Nat
  port    : Nat
  /-- Next send PSN, expected receive PSN | 24, 24 | 12 R489 | 0 -/
  sendPsn : Nat
  expPsn  : Nat
  /-- Oldest unacknowledged PSN | 24 | 12 R468 | 0 -/
  ackedPsn : Nat
  /-- CQ_COUNT, NOTIFY_COUNT, notify counter reference | 64 each | 12 R489 | 0 -/
  cqCount : Nat
  notifyCount : Nat
  counter : Word
  /-- LAST_ERROR, ERRORS | 16, 32 | 12 R489 | 0 -/
  lastError : Nat
  errors  : Nat
  /-- PSN of the next packet to transmit: below the next send PSN while packets are resent | 24 | 12 R468 | 0 -/
  txPsn   : Nat
  /-- Ordinal of the next item | counter | 12 R479 | 0 -/
  nextSeq : Nat
  /-- Send queue | ≤ DEPTH items | 12 R471 | empty -/
  items   : List FabItem
  /-- Windows 0 to 15 | 16 | 12 R475 | none -/
  windows : Map Window
  /-- Retries without progress | 4 | 12 R468 | 0 -/
  retries : Nat
  /-- Device time the oldest unacknowledged packet was sent, or the RTO restarted | 64 | 12 R468 | none -/
  rtoAt   : Option Nat
  /-- NAK resend-after received: PSN, device time to resend | - | 12 R482 | none -/
  resendAfter : Option (Nat × Nat)
  /-- NAK resend-afters sent: PSN, consecutive count | - | 12 R482 | 0, 0 -/
  raSent  : Nat × Nat
  /-- Absent pages asked of firmware: window, page, oldest first | list | 12 R481 | empty -/
  wanted  : List (Nat × Nat)
  /-- A NAK sequence has been sent and the expected packet has not come | 1 | 12 R465 | 0 -/
  nakSent : Bool
  /-- Packets accepted and not acknowledged, and the time of the first | - | 12 R467 | 0 -/
  unacked : Nat
  unackedAt : Nat
  /-- Responses of the last 16 atomics by PSN | 16 | 12 R466 | empty -/
  atomics : List (Nat × Word)
  /-- Packets held for an absent page: packet and time of arrival (mode 1) | - | 12 R481 | none -/
  held    : Option (EftFrame × Nat × Nat)
  heldNext : List EftFrame
  /-- Connect in progress: item and start time | - | 12 R473 | none -/
  connect : Option (Option Src × Nat)
  deriving DecidableEq, Repr

/-- A port (12 R446 to R462); STATE and the counters are its FAB_ registers. -/
structure Port where
  /-- Device time the state was entered | 64 | 12 R448 | 0 -/
  since   : Nat
  /-- SerDes units failed | ≤ 5 | 12 R448 | none -/
  bad     : List Nat
  /-- Shared occupancy of each class, bytes | 8 × 21 | 12 R461 | 0 -/
  occ     : Map Nat
  /-- Pauses this device stands on, by class: time of the last refresh | 8 | 12 R461 | none -/
  pausing : Map Nat
  /-- Pauses received, by class: end of the quanta, and start of the unbroken pause | 8 | 12 R461, R462 | none -/
  paused  : Map (Nat × Nat)
  /-- Device time the last pause was received on a stuck class | 8 | 12 R462 | none -/
  lastPause : Map Nat
  /-- Device time of the last discovery frame | 64 | 12 R449, R490 | none -/
  nbrAt   : Option Nat
  /-- Measured link delay, nanoseconds | 32 | 12 R455 | 0 -/
  delay   : Nat
  /-- Round-robin deficits of classes 3, 2 and 1 | 3 | 12 R458 | 0 -/
  deficit : Map Nat
  deriving DecidableEq, Repr

/-- What leaves on the fabric (frames other than EFT). -/
inductive Sent where
  | discovery (port : Nat) (d : Discovery)
  | eft (port : Nat) (f : EftFrame)
  | pause (port cls quanta : Nat)
  | sync (port time : Nat)
  | pdelayReq (port : Nat)
  | pdelayResp (port t2 t3 : Nat)
  | advert (free : Nat)
  | reclaim (borrower deadline : Nat)
  | reclaimAck (lender : Nat)
  | discarded (borrower : Nat)
  | heartbeat
  | fence (device instar : Nat)
  | migrate (index dest : Nat)
  | migrateAbort (index : Nat)
  | releaseP2 (lender index : Nat)
  deriving DecidableEq, Repr

/-- The composition applied (12 R451, R452). -/
structure Comp where
  gen     : Nat
  devices : Nat
  gm      : Nat
  backup  : Nat
  /-- expected neighbours of ports 0 to 15: address and port -/
  nbrs    : List (Nat × Nat)
  /-- SHA-384 of the image (14 R550) -/
  digest  : List Byte
  deriving DecidableEq, Repr

/-- Fabric state. -/
structure FabBlock where
  /-- Ports 0 to 15 | 16 | 12 R446 | DOWN -/
  ports   : Map Port
  /-- Queue pairs | 65,536 | 12 R472 | FREE -/
  qps     : Map Qp
  /-- Composition | image | 12 R451 | none -/
  comp    : Option Comp
  /-- Instars declared lost: device address, instar, time of the last fenced answer | list | 12 R485 | none -/
  fenced  : List (Nat × Nat × Nat)
  /-- Fabric transmission stopped | 1 | 12 R485, 13 R496 | 0 -/
  stopped : Bool
  /-- Frames sent, oldest first | log | 12 R463 | empty -/
  sent    : List Sent
  /-- Device time discovery frames were last sent | 64 | 12 R449 | 0 -/
  discAt  : Nat
  /-- Items of fab.post that wait for room in a send queue | list | 12 R471 | empty -/
  waiting : List (Nat × FabItem)
  /-- FULL_PASSES: QPs passed over for want of a request slot (R470 names it in FAB_REQ, whose table has no such field) | counter | 12 R470 | 0 -/
  fullPasses : Nat
  deriving DecidableEq, Repr
/-! ### Faults (13) -/

/-- A fault message (13 R498). -/
structure FaultMsg where
  source  : Nat
  kind    : Nat
  status  : Nat
  address : Word
  instar  : Nat
  master  : Nat
  access  : Nat
  time    : Nat
  deriving DecidableEq, Repr

/-- Fault collection, fencing and proofs. -/
structure FltBlock where
  /-- Latches, by source: the error not yet handled | 4,096 | 13 R500 | empty -/
  latch    : Map FaultMsg
  /-- Device times of each source's correctable errors inside its window | lists | 13 R510 | empty -/
  times    : Map (List Nat)
  /-- Sources of units declared lost | list | 13 R504, R508 | none -/
  lost     : List Nat
  /-- Interrupts raised for fault messages | count | 13 R495 | 0 -/
  irqs     : Nat
  /-- Newest proof of each scope: flash object identifier, sequence | map | 13 R512 | none -/
  proofs   : Map (Nat × Nat)
  /-- Session shards of the newest serving proofs: scope, local index, instar, pages and state as of the proof | list | 13 R511, R513 | none -/
  shards   : List (Nat × Nat × Nat × Copy)
  /-- Device addresses reported missing, with the reporters | map | 13 R509 | none -/
  missing  : Map (List Nat)
  /-- Handles the partner adopted | list | 13 R524 | empty -/
  adopted  : List Word
  /-- Mirror records held for the partner | list | 13 R522, R523 | empty -/
  mirrors  : List (DirRec × HeadPage)
  /-- Device time of the last heartbeat sent | 64 | 13 R504 | 0 -/
  beatAt   : Nat
  /-- Partitions whose re-imposition is due | list | 13 R517 | none -/
  reimpose : List Nat
  deriving DecidableEq, Repr

/-! ### Host interface and security (14) -/

/-- A completion entry or notice (14 R535). -/
structure Completion where
  status : Nat
  opcode : Nat
  notice : Bool
  reason : Nat
  qpos   : Nat
  result : Word
  object : Word
  tag    : Word
  deriving DecidableEq, Repr

/-- A session output record (09 R350) before its OSEQ is taken. -/
structure OutRec where
  handle : Word
  index  : Nat
  kind   : Nat
  reason : Nat
  stop   : Nat
  tokens : Nat
  data   : List Byte
  deriving DecidableEq, Repr

/-- An item fetched from a command ring (14 R534). -/
structure Item where
  qpos    : Nat
  words   : List Word
  started : Nat
  /-- nonce of its sealed slot (14 R544) -/
  nonce   : Nat
  deriving DecidableEq, Repr

/-- A command queue (14 R533 to R540); its other fields are the HIF_Q_ registers. -/
structure Queue where
  /-- CMD_TAIL | 32 | 14 R533 | DESIGN CHOICE 0 -/
  cmdTail  : Nat
  /-- CPL_HEAD | 32 | 14 R533 | DESIGN CHOICE 0 -/
  cplHead  : Nat
  /-- OUT_HEAD | 32 | 14 R533 | DESIGN CHOICE 0 -/
  outHead  : Nat
  /-- Completion entries written | counter | 14 R536 | 0 -/
  entries  : Nat
  /-- Output records written | counter | 14 R539 | 0 -/
  records  : Nat
  /-- Notices and flushed completions that wait | ≤ 1,024 notices | 14 R537 | empty -/
  backlog  : List Completion
  /-- Output records that wait for room | list | 14 R539 | empty -/
  waiting  : List OutRec
  /-- Items started and not completed | list | 14 R537 | empty -/
  started  : List Item
  /-- Device time the partial-item timer started | 64 | 14 R540 | none -/
  partialAt : Option Nat
  /-- NONCE of the last accepted slot, next completion and output counters | 56 each | 14 R544 | 0, 1, 1 -/
  nonce    : Nat
  cplCtr   : Nat
  outCtr   : Nat
  /-- QPOS of items that were started when a function-level reset came: their completions are not written | list | 14 R566 | empty -/
  mute     : List Nat
  deriving DecidableEq, Repr

/-- Host interface state. -/
structure HostBlock where
  /-- Host memory by 2^64 × function + I/O virtual address (outside the device; items and rings live there) | bytes | 07 R236, 14 R534 | DESIGN CHOICE 0 -/
  mem      : Map Byte
  /-- High-half shadow of each PCIe function: register offset and value | 64 × 32 | 01 R22 | none -/
  shadow   : Map (Nat × BitVec 32)
  /-- Value and width of the last register read answered to each function (64: management port) | 65 × 64 | 01 R7 | none -/
  answer   : Map Word
  /-- Queues by 16 × context + queue | 1,024 | 14 R533 | DISABLED -/
  queues   : Map Queue
  /-- MSI-X messages sent: function, vector | log | 14 R538 | empty -/
  msix     : List (Nat × Nat)
  /-- Context transport keys | 64 × 256 | 14 R541 | none -/
  ctk      : Map (BitVec 256)
  /-- Context XTS data keys, by key identity | 64 | 14 R552 | none -/
  dataKey  : Map Nat
  /-- PCIe link lanes in use | 5 | 14 R527 | PRESUMED 16 -/
  lanes    : Nat
  deriving DecidableEq, Repr

/-- Stages of an SPDM responder (14 R549). -/
inductive SpdmStage where
  | start | version | capabilities | algorithms | exchange | session
  deriving DecidableEq, Repr

/-- An SPDM responder of a function's DOE mailbox, or of the management port (14 R549). -/
structure Spdm where
  stage  : SpdmStage
  /-- a response not yet fully read: request code and answer bytes known to the model -/
  answer : Option (Nat × List Byte)
  /-- a request partly received -/
  partialReq : Bool
  /-- handshake: key exchange data of the requester -/
  exchange : Option (BitVec 768)
  /-- key updates done in the session -/
  updates : Nat
  deriving DecidableEq, Repr

/-- Domain keys held by the root of trust (14 R551). -/
structure DomKeys where
  wrap : BitVec 768
  colophon : BitVec 768
  composition : BitVec 768
  debug : BitVec 768
  gen : Nat
  deriving DecidableEq, Repr

/-- A firmware image in boot flash (14 R548, R557). -/
structure FwSlot where
  verified : Bool
  svn : Nat
  /-- which image this is (the model's own name for its bytes) -/
  image : Nat
  deriving DecidableEq, Repr

/-- Root of trust, management port and test port. -/
structure SecBlock where
  /-- SPDM responders by function; 64 the management port | 65 | 14 R549 | start -/
  spdm     : Map Spdm
  /-- Domain keys, sealed in boot flash | keys | 14 R551, R552 | none -/
  keys     : Option DomKeys
  /-- Firmware slots 0 and 1 | 2 | 14 R548 | DESIGN CHOICE slot 0 verified, SVN 0 -/
  slots    : List FwSlot
  /-- Fused minimum security version | 8 | 14 R548 | DESIGN CHOICE 0 -/
  minSvn   : Nat
  /-- Start-up count, kept across resets | ≥ 32 | 14 R548, 02 R35 | DESIGN CHOICE 0 -/
  startCount : Nat
  /-- REQ_COUNT of the management port | 16 | 14 R556 | DESIGN CHOICE 0 -/
  reqCount : Nat
  /-- Last status of the management port | 16 | 14 R555 | DESIGN CHOICE 0 -/
  lastStatus : Nat
  /-- Bulk transfer open: kind and length | - | 14 R557 | none -/
  bulk     : Option (Nat × Nat)
  /-- Data of the last IN request | ≤ 64 B | 14 R555 | empty -/
  usbIn    : List Byte
  /-- A management request is incomplete (its data stage has not arrived) | 1 | 14 R556 | 0 -/
  usbBusy  : Bool
  /-- A STALL was answered to the last request | 1 | 14 R555 | 0 -/
  stall    : Bool
  /-- Test-port instruction loaded | code | 14 R564 | DESIGN CHOICE IDCODE -/
  tap      : Nat
  /-- Test data register captured under that instruction | 32 | 14 R564 | IDCODE 0x10E5_1B47 -/
  tapData  : BitVec 32
  deriving DecidableEq, Repr

/-! ### Islands, events, supplies (15, 16) -/

/-- An island's power state (15 R569 to R572). -/
structure Island where
  /-- I0 to I3 | 2 | 15 R569 | I3 for cells (06 R229), DESIGN CHOICE I0 for the others -/
  state  : Nat
  /-- Entry to a deeper state in progress: target, start | - | 15 R572 | none -/
  entry  : Option (Nat × Nat)
  /-- Wake in progress: start | - | 15 R572 | none -/
  wake   : Option Nat
  deriving DecidableEq, Repr

/-- Islands and the event controller; the latches are the EVC_SRC registers. -/
structure IslBlock where
  /-- Islands: cells 0 to 2,015 (168f+k), 4096 + engine, 8192 + core, 12288 + hub token engine | map | 15 R569 | see Island -/
  islands : Map Island
  /-- Groups held: end of the hold-off, and whether the core has acknowledged | 64 | 15 R577 | none -/
  holds   : Map (Nat × Bool)
  /-- Vectors delivered: core, vector | log | 15 R577 | empty -/
  vectors : List (Nat × Nat)
  /-- Device time since which the device has been idle | 64 | 15 R573 | 0 -/
  idleSince : Nat
  /-- Device time the start-up phase was entered | 64 | 15 R579 | 0 -/
  phaseAt : Nat
  /-- HBM stacks in self-refresh | 1 | 15 R573 | 0 -/
  selfRefresh : Bool
  /-- A compose item was accepted (phase 0x5 may end) | 1 | 15 R579 | 0 -/
  composed : Bool
  /-- The start-up in progress follows an internal reset: event latches are cleared as phase 0x2 begins | 1 | 15 R583 | 0 -/
  internal : Bool
  deriving DecidableEq, Repr

/-- Pins, supplies and temperature (16). -/
structure PinBlock where
  /-- PORST_N level | 1 | 16 R594 | low: the device is held in reset -/
  porstN   : Bool
  /-- PWRFAIL_N level | 1 | 16 R594 | PRESUMED high (10 kΩ up) -/
  pwrfailN : Bool
  /-- THERMTRIP_N level | 1 | 16 R595 | PRESUMED high (open drain, not driven) -/
  thermtripN : Bool
  /-- FAILOVER_EN strap | 1 | 16 R594 | PRESUMED low (10 kΩ down) -/
  failoverEn : Bool
  /-- PRES_N of bays 0 to 3 asserted | 4 | 16 R594 | PRESUMED not asserted (10 kΩ up) -/
  present  : List Bool
  /-- HOLDUP_OK of bays 0 to 3 | 4 | 16 R594 | PRESUMED low (10 kΩ down) -/
  holdup   : List Bool
  /-- SerDes references of Hub A and Hub B good | 2 | 16 R593 | DESIGN CHOICE good -/
  serdes   : List Bool
  /-- Always-on domain started (VSB in range) | 1 | 16 R589 | 0 -/
  standby  : Bool
  /-- Held in reset by an overvoltage or collapsed rails until PORST_N is pulsed | 1 | 16 R590 | 0 -/
  ovHold   : Bool
  /-- Device time partitions were first limited | 64 | 16 R597 | none -/
  hotAt    : Option Nat
  /-- Device time of the last high-voltage message | 64 | 16 R590 | none -/
  vinMsgAt : Option Nat
  deriving DecidableEq, Repr

/-- Device time and the time lock (01 R23 to R26, 12 R457). -/
structure ClkBlock where
  /-- Device time, ns (GLB_TIME) | 64 | 01 R6, R23 | 0 -/
  now      : Nat
  /-- The single step has been made | 1 | 01 R24 | 0 -/
  stepped  : Bool
  /-- Consecutive Sync messages within ±40 ns | 5 | 12 R457 | 0 -/
  syncGood : Nat
  /-- Device time of the last Sync message followed | 64 | 12 R457 | none -/
  syncAt   : Option Nat
  /-- Following GM_BACKUP | 1 | 12 R457 | 0 -/
  backup   : Bool
  /-- The holdover time fault has been reported | 1 | 01 R26 | 0 -/
  reported : Bool
  /-- Offset still to be corrected by slewing, ns, and device time of its last nanosecond | 64, 64 | 01 R24 | 0, 0 -/
  slew     : Int
  slewAt   : Nat
  deriving DecidableEq, Repr

/-- The state of the block. -/
structure State where
  /-- Commands waiting, first in first out (the model's own queue) | list | host's form | empty -/
  pending : List Instr
  /-- BAR0 registers that differ from their reset values, by offset | 64 MiB window | 01 R19 | every register at its reset value -/
  regs    : Map Word
  clk     : ClkBlock
  pins    : PinBlock
  host    : HostBlock
  ses     : SesBlock
  tier    : TierBlock
  mkr     : MkrBlock
  gal     : GalBlock
  /-- In-service cells by device cell number | 1,920 | 06 R189 | registers 0 -/
  cells   : Map Cell
  /-- Operations waiting on synchronisation objects, by object, in order | lists | 07 R265 | empty -/
  waiters : Map (List Waiter)
  /-- Local HBM by byte address | 432 GiB | 01 R17 | DESIGN CHOICE 0 -/
  hbm     : Map Byte
  /-- 32-byte units of HBM holding poisoned data | unit numbers | 08 R289 | none -/
  hbmBad  : List Nat
  /-- 32-byte units of HBM holding a single-bit error | unit numbers | 14 R560 | none -/
  hbmWeak : List Nat
  tok     : TokBlock
  /-- Associative banks | 32 | 09 R353 | empty -/
  banks   : Map Bank
  crt     : CrtBlock
  /-- Index slots | 64 | 11 R416 | none open -/
  vse     : Map Index
  fab     : FabBlock
  flt     : FltBlock
  sec     : SecBlock
  isl     : IslBlock
  /-- Counter that gives each free value its own argument (the model's own field) | - | model | DESIGN CHOICE 0 -/
  freeCtr : Nat
  deriving DecidableEq, Repr

/-- The block right after reset: PORST_N holds the device in reset (D3, START_PHASE 0x0), no register differs from its reset
value, every table is empty and every memory lists nothing.  Values the spec does not give are named in log entries 9 to 12. -/
def State.reset : State where
  pending := []
  regs := []
  clk := { now := 0, stepped := false, syncGood := 0, syncAt := none, backup := false, reported := false, slew := 0, slewAt := 0 }
  pins := { porstN := false, pwrfailN := true, thermtripN := true, failoverEn := false,
            present := [false, false, false, false], holdup := [false, false, false, false],
            serdes := [true, true], standby := false, ovHold := false,
            hotAt := none, vinMsgAt := none }
  host := { mem := [], shadow := [], answer := [], queues := [], msix := [], ctk := [], dataKey := [], lanes := 16 }
  ses := { entries := [], freeList := [(0, 16777215)], freeInstar := [], baseInstar := 1, frames := [], remap := [] }
  tier := { lenders := [], borrowers := [], reclaimAt := none, advertised := 0 }
  mkr := { pending := [], admitted := [], shed := [], live := [], kept := [], waiting := [],
           evaluating := none, due := false, wearAt := 0, wearFree := [0, 0, 0, 0], binding := [] }
  gal := { slots := [], slices := [], parts := [], models := [], budget := [], limited := 0, logitsSent := [] }
  cells := []
  waiters := []
  hbm := []
  hbmBad := []
  hbmWeak := []
  tok := { vocabs := [], grammars := [] }
  banks := []
  crt := { bays := [], objects := [], gone := [], fresh := [], serials := [], purged := [], stale := [] }
  vse := []
  fab := { ports := [], qps := [], comp := none, fenced := [], stopped := false, sent := [], discAt := 0, waiting := [], fullPasses := 0 }
  flt := { latch := [], times := [], lost := [], irqs := 0, proofs := [], shards := [], missing := [], adopted := [], mirrors := [],
           beatAt := 0, reimpose := [] }
  sec := { spdm := [], keys := none, slots := [⟨true, 0, 0⟩, ⟨false, 0, 1⟩], minSvn := 0, startCount := 0, reqCount := 0,
           lastStatus := 0, bulk := none, usbIn := [], usbBusy := false, stall := false, tap := 2, tapData := 0x10E51B47 }
  isl := { islands := [], holds := [], vectors := [], idleSince := 0, phaseAt := 0, selfRefresh := false,
           composed := false, internal := false }
  freeCtr := 0

end Sys2Proof.Machine
end

