-- ==== Sys2Proof/Machine/RegTable.lean ====
section
/-! DEFINITION. The BAR0 registers as the tables of the spec give them (R28, R70, R106, R148, R188, R229, R277, R313,
R363, R412, R445, R490, R526, R567, R585, R599): a descriptor per register with the place, access code and reset value of
each field, and a name for each field. -/

namespace Sys2Proof.Machine

/-- The GLB_ registers. -/
def regsGlb0 : List RegDesc := [
  -- GLB_ID (R28)
  ⟨0x0, [], 64, [⟨0, 16, .ro, 0xe51⟩, ⟨16, 8, .ro, 0xb0⟩, ⟨32, 16, .ro, 0xed01⟩]⟩,
  -- GLB_SERIAL (R28)
  ⟨0x8, [], 64, [⟨0, 64, .ro, 0x0⟩]⟩,
  -- GLB_CAP0 (R28)
  ⟨0x10, [], 64, [⟨0, 8, .ro, 0xc⟩, ⟨8, 8, .ro, 0xa0⟩, ⟨16, 4, .ro, 0x8⟩, ⟨20, 4, .ro, 0x2⟩, ⟨24, 5, .ro, 0x10⟩, ⟨29, 3, .ro, 0x4⟩, ⟨32, 8, .ro, 0x60⟩, ⟨40, 6, .ro, 0x10⟩, ⟨48, 8, .ro, 0x20⟩]⟩,
  -- GLB_CAP1 (R28)
  ⟨0x18, [], 64, [⟨0, 8, .ro, 0x18⟩, ⟨8, 8, .ro, 0xd⟩, ⟨16, 8, .ro, 0x40⟩, ⟨24, 8, .ro, 0x10⟩, ⟨32, 8, .ro, 0xc⟩, ⟨40, 8, .ro, 0x40⟩, ⟨48, 8, .ro, 0xe⟩, ⟨56, 8, .ro, 0x2d⟩]⟩,
  -- GLB_CAP2 (R28)
  ⟨0x20, [], 64, [⟨0, 8, .ro, 0x8⟩, ⟨8, 8, .ro, 0x10⟩, ⟨16, 8, .ro, 0x10⟩, ⟨24, 8, .ro, 0x26⟩, ⟨32, 16, .ro, 0x1000⟩, ⟨48, 16, .ro, 0x400⟩]⟩,
  -- GLB_CAP3 (R28)
  ⟨0x28, [], 64, [⟨0, 11, .ro, 0x7ff⟩, ⟨16, 1, .ro, 0x1⟩, ⟨17, 1, .ro, 0x1⟩, ⟨18, 1, .ro, 0x0⟩, ⟨19, 1, .ro, 0x1⟩]⟩,
  -- GLB_RES0 (R28)
  ⟨0x30, [], 64, [⟨0, 12, .ro, 0x0⟩, ⟨16, 8, .ro, 0x0⟩, ⟨32, 10, .ro, 0x0⟩, ⟨48, 8, .ro, 0x0⟩]⟩,
  -- GLB_RES1 (R28)
  ⟨0x38, [], 64, [⟨0, 12, .ro, 0x0⟩, ⟨12, 4, .ro, 0x0⟩, ⟨16, 16, .ro, 0x0⟩, ⟨32, 2, .ro, 0x0⟩, ⟨34, 12, .ro, 0x0⟩]⟩,
  -- GLB_STATE (R29)
  ⟨0x40, [], 32, [⟨0, 2, .ro, 0x3⟩, ⟨8, 4, .ro, 0x0⟩, ⟨12, 1, .ro, 0x0⟩, ⟨13, 1, .ro, 0x0⟩, ⟨14, 1, .ro, 0x0⟩]⟩,
  -- GLB_DEV_ADDR (R29)
  ⟨0x44, [], 32, [⟨0, 14, .ro, 0x0⟩, ⟨15, 1, .ro, 0x0⟩, ⟨16, 1, .ro, 0x0⟩]⟩,
  -- GLB_TIME (R30)
  ⟨0x48, [], 64, [⟨0, 64, .ro, 0x0⟩]⟩,
  -- GLB_TIME_STATUS (R30)
  ⟨0x50, [], 32, [⟨0, 1, .ro, 0x0⟩, ⟨1, 1, .ro, 0x0⟩, ⟨2, 2, .ro, 0x0⟩, ⟨16, 16, .ro, 0x0⟩]⟩]

/-- The GLB_ registers, continued. -/
def regsGlb1 : List RegDesc := [
  -- GLB_SCRATCH (R30)
  ⟨0x58, [], 64, [⟨0, 64, .rw, 0x0⟩]⟩]

/-- The SES_ registers. -/
def regsSes0 : List RegDesc := [
  -- SES_CFG (R70)
  ⟨0x200000, [], 32, [⟨0, 16, .rw, 0xc8⟩]⟩,
  -- SES_LIVE (R70)
  ⟨0x200008, [], 64, [⟨0, 25, .ro, 0x0⟩, ⟨32, 14, .ro, 0x0⟩]⟩,
  -- SES_CANCEL_DISCARDS (R70)
  ⟨0x200010, [], 32, [⟨0, 32, .rc, 0x0⟩]⟩,
  -- SES_STALE (R70)
  ⟨0x200014, [], 32, [⟨0, 32, .rc, 0x0⟩]⟩,
  -- SES_CUST_MAP[n] (R70)
  ⟨0x201000, [(0x4, 4096)], 32, [⟨0, 6, .rw, 0x0⟩, ⟨6, 1, .rw, 0x0⟩]⟩,
  -- SES_TIER_STATUS (R106)
  ⟨0x200018, [], 32, [⟨0, 1, .ro, 0x0⟩, ⟨1, 1, .ro, 0x0⟩, ⟨2, 4, .ro, 0x0⟩, ⟨8, 8, .ro, 0x0⟩]⟩,
  -- SES_P1_WATER (R106)
  ⟨0x20001c, [], 32, [⟨0, 8, .rw, 0xa⟩, ⟨8, 8, .rw, 0x14⟩]⟩,
  -- SES_LEND_CFG (R106)
  ⟨0x200020, [], 64, [⟨0, 1, .rwl, 0x0⟩, ⟨8, 8, .rwl, 0x0⟩, ⟨16, 16, .rwl, 0x64⟩, ⟨32, 8, .rwl, 0x40⟩]⟩,
  -- SES_LEND_STATUS (R106)
  ⟨0x200028, [], 64, [⟨0, 8, .ro, 0x0⟩, ⟨8, 8, .ro, 0x0⟩, ⟨16, 1, .ro, 0x0⟩]⟩,
  -- SES_REVIVE_LATE (R106)
  ⟨0x200030, [], 32, [⟨0, 32, .rc, 0x0⟩]⟩,
  -- SES_DUR_BEHIND (R106)
  ⟨0x200034, [], 32, [⟨0, 25, .ro, 0x0⟩]⟩,
  -- SES_CLASS_A[n] (R106)
  ⟨0x208000, [(0x10, 256)], 64, [⟨0, 2, .rwl, 0x1⟩, ⟨2, 1, .rwl, 0x1⟩, ⟨3, 1, .rwl, 0x1⟩, ⟨8, 8, .rwl, 0xa⟩, ⟨16, 16, .rwl, 0x14⟩, ⟨32, 16, .rwl, 0x1e⟩, ⟨48, 16, .rwl, 0x3e8⟩]⟩]

/-- The SES_ registers, continued. -/
def regsSes1 : List RegDesc := [
  -- SES_CLASS_B[n] (R106)
  ⟨0x208008, [(0x10, 256)], 64, [⟨0, 32, .rwl, 0x3e8⟩]⟩,
  -- SES_KV_FREE (R313)
  ⟨0x200040, [], 32, [⟨0, 25, .ro, 0x0⟩]⟩,
  -- SES_KV_PAGE_WAIT (R313)
  ⟨0x200044, [], 32, [⟨0, 32, .rc, 0x0⟩]⟩,
  -- SES_KV_PIED (R313)
  ⟨0x200048, [], 32, [⟨0, 32, .rc, 0x0⟩]⟩,
  -- SES_CTX_PAGES[c] (R313)
  ⟨0x200400, [(0x8, 64)], 64, [⟨0, 25, .rw, 0x0⟩, ⟨32, 25, .ro, 0x0⟩]⟩]

/-- The MKR_ registers. -/
def regsMkr0 : List RegDesc := [
  -- MKR_STATUS (R148)
  ⟨0x400000, [], 32, [⟨0, 13, .ro, 0x0⟩, ⟨13, 1, .ro, 0x0⟩, ⟨14, 1, .ro, 0x0⟩, ⟨16, 16, .ro, 0x0⟩]⟩,
  -- MKR_CFG (R148)
  ⟨0x400008, [], 64, [⟨0, 16, .rwl, 0x722⟩, ⟨16, 16, .rwl, 0x64⟩, ⟨32, 16, .rwl, 0xb0⟩]⟩,
  -- MKR_DERATE (R148)
  ⟨0x400010, [], 64, [⟨0, 8, .ro, 0x46⟩, ⟨8, 8, .ro, 0x50⟩, ⟨16, 8, .ro, 0x46⟩, ⟨24, 8, .ro, 0x50⟩, ⟨32, 8, .ro, 0x4b⟩, ⟨40, 8, .ro, 0x4b⟩, ⟨48, 8, .ro, 0x5a⟩, ⟨56, 8, .ro, 0x40⟩]⟩,
  -- MKR_STEP_OVH (R148)
  ⟨0x400018, [], 32, [⟨0, 16, .ro, 0x1770⟩]⟩,
  -- MKR_LOCK_VIOL (R148)
  ⟨0x400020, [], 32, [⟨0, 16, .w1c, 0x0⟩, ⟨16, 1, .w1c, 0x0⟩]⟩,
  -- MKR_SHED_COUNT (R148)
  ⟨0x400024, [], 32, [⟨0, 32, .rc, 0x0⟩]⟩,
  -- MKR_RED (R148)
  ⟨0x400028, [], 32, [⟨0, 32, .rc, 0x0⟩]⟩,
  -- MKR_CAP[r] (R148)
  ⟨0x400110, [(0x10, 11)], 64, [⟨0, 64, .ro, 0x0⟩]⟩,
  -- MKR_RESV[r] (R148)
  ⟨0x400118, [(0x10, 11)], 64, [⟨0, 64, .ro, 0x0⟩]⟩,
  -- MKR_WEAR_FREE[b] (R148)
  ⟨0x400200, [(0x8, 4)], 64, [⟨0, 48, .ro, 0x0⟩]⟩]

/-- The GAL_ registers. -/
def regsGal0 : List RegDesc := [
  -- GAL_CFG (R188)
  ⟨0x300000, [], 32, [⟨0, 8, .rw, 0x10⟩]⟩,
  -- GAL_STATUS (R188)
  ⟨0x300004, [], 32, [⟨0, 16, .ro, 0x0⟩, ⟨16, 1, .ro, 0x0⟩]⟩,
  -- GAL_SLICE_ERR (R188)
  ⟨0x300008, [], 64, [⟨0, 64, .ro, 0x0⟩]⟩,
  -- GAL_OVERRUN (R188)
  ⟨0x300010, [], 32, [⟨0, 32, .rc, 0x0⟩]⟩,
  -- GAL_SWITCHES (R188)
  ⟨0x300014, [], 32, [⟨0, 32, .rc, 0x0⟩]⟩,
  -- GAL_PART[p] (R188)
  ⟨0x301000, [(0x8, 16)], 64, [⟨0, 48, .rwl, 0x0⟩, ⟨48, 1, .rwl, 0x0⟩, ⟨52, 12, .rwl, 0x7d0⟩]⟩,
  -- GAL_SLICE_A[p,s] (R188)
  ⟨0x302000, [(0x40, 16), (0x10, 4)], 64, [⟨0, 10, .rwl, 0x0⟩, ⟨10, 1, .rwl, 0x0⟩, ⟨11, 1, .rwl, 0x0⟩, ⟨12, 2, .rwl, 0x0⟩, ⟨16, 5, .rwl, 0x0⟩, ⟨32, 32, .rwl, 0x9c40⟩]⟩,
  -- GAL_SLICE_B[p,s] (R188)
  ⟨0x302008, [(0x40, 16), (0x10, 4)], 64, [⟨0, 16, .rwl, 0x1000⟩, ⟨16, 16, .rwl, 0x200⟩, ⟨32, 6, .rwl, 0x0⟩, ⟨40, 6, .rwl, 0x20⟩]⟩,
  -- GAL_STEP[p,s] (R188)
  ⟨0x303000, [(0x20, 16), (0x8, 4)], 64, [⟨0, 32, .ro, 0x0⟩, ⟨32, 32, .ro, 0x0⟩]⟩,
  -- GAL_BUDGET_A[c] (R188)
  ⟨0x310000, [(0x10, 4096)], 64, [⟨0, 32, .rw, 0x0⟩, ⟨32, 32, .rw, 0x0⟩]⟩,
  -- GAL_BUDGET_B[c] (R188)
  ⟨0x310008, [(0x10, 4096)], 64, [⟨0, 32, .ro, 0x0⟩, ⟨32, 1, .rw, 0x0⟩]⟩,
  -- GAL_KVL_A[m] (R313)
  ⟨0x320000, [(0x10, 1024)], 64, [⟨0, 1, .ro, 0x0⟩, ⟨1, 1, .ro, 0x0⟩, ⟨2, 4, .ro, 0x0⟩, ⟨8, 16, .ro, 0x0⟩, ⟨24, 16, .ro, 0x0⟩]⟩]

/-- The GAL_ registers, continued. -/
def regsGal1 : List RegDesc := [
  -- GAL_KVL_B[m] (R313)
  ⟨0x320008, [(0x10, 1024)], 64, [⟨0, 32, .ro, 0x0⟩, ⟨32, 10, .ro, 0x0⟩]⟩]

/-- The FRM_ registers. -/
def regsFrm0 : List RegDesc := [
  -- FRM_STATUS (R229)
  ⟨0x1000000, [(0x400000, 12)], 32, [⟨0, 8, .ro, 0x0⟩, ⟨8, 4, .ro, 0x0⟩, ⟨12, 1, .ro, 0x0⟩]⟩,
  -- FRM_CELL_MAP[n] (R229)
  ⟨0x1001000, [(0x400000, 12), (0x4, 160)], 32, [⟨0, 8, .ro, 0x0⟩, ⟨8, 24, .ro, 0x0⟩]⟩,
  -- FRM_CELL_STAT[k] (R229)
  ⟨0x1002000, [(0x400000, 12), (0x4, 168)], 32, [⟨0, 2, .ro, 0x0⟩, ⟨2, 2, .ro, 0x3⟩, ⟨16, 8, .ro, 0xff⟩]⟩,
  -- FRM_CELL_ECC[k] (R229)
  ⟨0x1003000, [(0x400000, 12), (0x4, 168)], 32, [⟨0, 16, .rc, 0x0⟩, ⟨16, 8, .rc, 0x0⟩]⟩]

/-- The SYN_ registers. -/
def regsSyn0 : List RegDesc := [
  -- SYN_STATUS (R277)
  ⟨0xc00000, [], 32, [⟨0, 15, .ro, 0x0⟩, ⟨16, 12, .ro, 0x0⟩]⟩,
  -- SYN_STALE (R277)
  ⟨0xc00004, [], 32, [⟨0, 32, .rc, 0x0⟩]⟩,
  -- SYN_BROKEN (R277)
  ⟨0xc00008, [], 32, [⟨0, 32, .rc, 0x0⟩]⟩,
  -- SYN_OBJ_A[n] (R277)
  ⟨0xc40000, [(0x10, 16384)], 64, [⟨0, 3, .ro, 0x0⟩, ⟨3, 1, .ro, 0x0⟩, ⟨4, 6, .ro, 0x0⟩, ⟨10, 1, .ro, 0x0⟩, ⟨11, 1, .ro, 0x0⟩, ⟨16, 24, .ro, 0x0⟩]⟩,
  -- SYN_OBJ_B[n] (R277)
  ⟨0xc40008, [(0x10, 16384)], 64, [⟨0, 64, .ro, 0x0⟩]⟩]

/-- The TOK_ registers. -/
def regsTok0 : List RegDesc := [
  -- TOK_VOCAB_A[v] (R363)
  ⟨0x500000, [(0x10, 64)], 64, [⟨0, 1, .ro, 0x0⟩, ⟨1, 21, .ro, 0x0⟩, ⟨22, 1, .ro, 0x0⟩, ⟨23, 1, .ro, 0x0⟩, ⟨24, 25, .ro, 0x0⟩]⟩,
  -- TOK_VOCAB_B[v] (R363)
  ⟨0x500008, [(0x10, 64)], 64, [⟨0, 64, .ro, 0x0⟩]⟩,
  -- TOK_GRAM_A[g] (R363)
  ⟨0x501000, [(0x10, 256)], 64, [⟨0, 1, .ro, 0x0⟩, ⟨1, 20, .ro, 0x0⟩, ⟨21, 25, .ro, 0x0⟩]⟩,
  -- TOK_GRAM_B[g] (R363)
  ⟨0x501008, [(0x10, 256)], 64, [⟨0, 64, .ro, 0x0⟩]⟩,
  -- TOK_COUNTS (R363)
  ⟨0x502000, [], 64, [⟨0, 16, .rc, 0x0⟩, ⟨16, 16, .rc, 0x0⟩, ⟨32, 16, .rc, 0x0⟩, ⟨48, 16, .rc, 0x0⟩]⟩]

/-- The CAM_ registers. -/
def regsCam0 : List RegDesc := [
  -- CAM_CFG[b] (R363)
  ⟨0x600000, [(0x8, 32)], 64, [⟨0, 2, .rw, 0x0⟩, ⟨2, 6, .rw, 0x0⟩, ⟨8, 2, .ro, 0x0⟩, ⟨10, 6, .ro, 0x0⟩, ⟨16, 1, .ro, 0x0⟩, ⟨17, 14, .ro, 0x0⟩]⟩,
  -- CAM_FIX (R363)
  ⟨0x600100, [], 32, [⟨0, 16, .rc, 0x0⟩, ⟨16, 16, .rc, 0x0⟩]⟩]

/-- The CRT_ registers. -/
def regsCrt0 : List RegDesc := [
  -- CRT_CFG (R412)
  ⟨0x800000, [], 64, [⟨0, 8, .rwl, 0x2⟩, ⟨8, 1, .rw, 0x1⟩, ⟨16, 16, .rw, 0x7⟩, ⟨32, 26, .rw, 0x1000000⟩]⟩,
  -- CRT_SEAL (R412)
  ⟨0x800008, [], 32, [⟨0, 4, .ro, 0x0⟩, ⟨4, 1, .ro, 0x0⟩, ⟨16, 16, .ro, 0x0⟩]⟩,
  -- CRT_BAY[b] (R412)
  ⟨0x800100, [(0x100, 4)], 64, [⟨0, 4, .ro, 0x0⟩, ⟨4, 1, .ro, 0x0⟩, ⟨5, 1, .ro, 0x0⟩, ⟨6, 3, .ro, 0x0⟩, ⟨9, 1, .ro, 0x0⟩, ⟨10, 4, .ro, 0x0⟩, ⟨14, 1, .ro, 0x0⟩, ⟨15, 1, .ro, 0x0⟩, ⟨16, 16, .ro, 0x0⟩]⟩,
  -- CRT_SERIAL[b] (R412)
  ⟨0x800108, [(0x100, 4)], 64, [⟨0, 64, .ro, 0x0⟩]⟩,
  -- CRT_HOST_WR[b] (R412)
  ⟨0x800110, [(0x100, 4)], 64, [⟨0, 64, .ro, 0x0⟩]⟩,
  -- CRT_NAND_WR[b] (R412)
  ⟨0x800118, [(0x100, 4)], 64, [⟨0, 64, .ro, 0x0⟩]⟩,
  -- CRT_BLOCKS[b] (R412)
  ⟨0x800120, [(0x100, 4)], 64, [⟨0, 16, .ro, 0x0⟩, ⟨16, 16, .ro, 0x0⟩, ⟨32, 32, .ro, 0x0⟩]⟩,
  -- CRT_FREE[b] (R412)
  ⟨0x800128, [(0x100, 4)], 64, [⟨0, 64, .ro, 0x0⟩]⟩,
  -- CRT_JRNL[b] (R412)
  ⟨0x800130, [(0x100, 4)], 64, [⟨0, 26, .ro, 0x0⟩, ⟨32, 25, .ro, 0x0⟩]⟩,
  -- CRT_ERRS[b] (R412)
  ⟨0x800138, [(0x100, 4)], 64, [⟨0, 16, .rc, 0x0⟩, ⟨16, 8, .rc, 0x0⟩, ⟨32, 16, .rc, 0x0⟩, ⟨48, 16, .rc, 0x0⟩]⟩]

/-- The VSE_ registers. -/
def regsVse0 : List RegDesc := [
  -- VSE_STATUS (R445)
  ⟨0x700000, [], 64, [⟨0, 64, .ro, 0x0⟩]⟩,
  -- VSE_PIN_MISS (R445)
  ⟨0x700008, [], 32, [⟨0, 32, .rc, 0x0⟩]⟩,
  -- VSE_IX_A[i] (R445)
  ⟨0x701000, [(0x20, 64)], 64, [⟨0, 6, .ro, 0x0⟩, ⟨6, 4, .ro, 0x0⟩, ⟨10, 3, .ro, 0x0⟩, ⟨13, 1, .ro, 0x0⟩, ⟨14, 1, .ro, 0x0⟩, ⟨15, 7, .ro, 0x0⟩, ⟨22, 25, .ro, 0x0⟩, ⟨47, 1, .ro, 0x0⟩]⟩,
  -- VSE_IX_B[i] (R445)
  ⟨0x701008, [(0x20, 64)], 64, [⟨0, 32, .ro, 0x0⟩, ⟨32, 31, .ro, 0x0⟩]⟩,
  -- VSE_IX_DOCS[i] (R445)
  ⟨0x701010, [(0x20, 64)], 64, [⟨0, 64, .ro, 0x0⟩]⟩,
  -- VSE_IX_ENERGY[i] (R445)
  ⟨0x701018, [(0x20, 64)], 64, [⟨0, 64, .ro, 0x0⟩]⟩]

/-- The FAB_ registers. -/
def regsFab0 : List RegDesc := [
  -- FAB_COMP (R490)
  ⟨0x900000, [], 32, [⟨0, 1, .ro, 0x0⟩, ⟨1, 15, .ro, 0x0⟩]⟩,
  -- FAB_TIMER (R490)
  ⟨0x900008, [], 64, [⟨0, 16, .rwl, 0x1f40⟩, ⟨16, 16, .rwl, 0x3e8⟩, ⟨32, 4, .rwl, 0x7⟩, ⟨36, 12, .rwl, 0x7d0⟩, ⟨48, 8, .rwl, 0x64⟩, ⟨56, 8, .rwl, 0x64⟩]⟩,
  -- FAB_REQ (R490)
  ⟨0x900010, [], 64, [⟨0, 19, .ro, 0x0⟩, ⟨32, 19, .rc, 0x0⟩]⟩,
  -- FAB_STALE (R490)
  ⟨0x900018, [], 32, [⟨0, 32, .rc, 0x0⟩]⟩,
  -- FAB_PAIR (R490)
  ⟨0x900020, [], 64, [⟨0, 16, .ro, 0xffff⟩, ⟨16, 16, .ro, 0x0⟩, ⟨32, 4, .ro, 0x0⟩]⟩,
  -- FAB_CLASS[c] (R490)
  ⟨0x900100, [(0x8, 8)], 64, [⟨0, 1, .ro, 0x0⟩, ⟨8, 8, .rwl, 0x0⟩, ⟨16, 16, .rwl, 0xa0⟩]⟩,
  -- FAB_PORT[p] (R490)
  ⟨0x901000, [(0x10, 16)], 64, [⟨0, 2, .ro, 0x0⟩, ⟨2, 1, .ro, 0x0⟩, ⟨3, 1, .rw, 0x0⟩, ⟨4, 8, .rw, 0xa⟩, ⟨12, 8, .ro, 0x0⟩, ⟨32, 16, .ro, 0xffff⟩, ⟨48, 1, .ro, 0x0⟩]⟩,
  -- FAB_PORT_ERR[p] (R490)
  ⟨0x901008, [(0x10, 16)], 64, [⟨0, 16, .rc, 0x0⟩, ⟨16, 16, .rc, 0x0⟩, ⟨32, 16, .rc, 0x0⟩, ⟨48, 16, .rc, 0x0⟩]⟩,
  -- FAB_ROUTE[n] (R490)
  ⟨0x910000, [(0x4, 16384)], 32, [⟨0, 32, .ro, 0x0⟩]⟩,
  -- FAB_RMAP[s,i] (R490)
  ⟨0x920000, [(0x200, 64), (0x8, 64)], 64, [⟨0, 16, .rw, 0x0⟩, ⟨16, 16, .rw, 0x0⟩, ⟨32, 1, .rw, 0x0⟩]⟩]

/-- The FLT_ registers. -/
def regsFlt0 : List RegDesc := [
  -- FLT_RING_BASE (R526)
  ⟨0xa00000, [], 64, [⟨12, 52, .rw, 0x0⟩]⟩,
  -- FLT_RING_CFG (R526)
  ⟨0xa00008, [], 32, [⟨0, 4, .rw, 0x7⟩, ⟨4, 11, .rw, 0x0⟩, ⟨15, 1, .rw, 0x0⟩]⟩,
  -- FLT_RING_PTR (R526)
  ⟨0xa0000c, [], 32, [⟨0, 16, .ro, 0x0⟩, ⟨16, 16, .rw, 0x0⟩]⟩,
  -- FLT_TIMEOUT_A (R526)
  ⟨0xa00010, [], 64, [⟨0, 16, .rw, 0x64⟩, ⟨16, 4, .rw, 0x8⟩, ⟨32, 16, .rw, 0x32⟩, ⟨48, 16, .rw, 0x3e8⟩]⟩,
  -- FLT_TIMEOUT_B (R526)
  ⟨0xa00018, [], 64, [⟨0, 16, .rw, 0x2710⟩, ⟨16, 16, .rw, 0x1f4⟩, ⟨32, 16, .rw, 0x7d0⟩, ⟨48, 16, .rw, 0x14⟩]⟩,
  -- FLT_TIMEOUT_C (R526)
  ⟨0xa00020, [], 32, [⟨0, 16, .rw, 0x3e8⟩, ⟨16, 8, .rw, 0x14⟩]⟩,
  -- FLT_STALE (R526)
  ⟨0xa00024, [], 32, [⟨0, 32, .rc, 0x0⟩]⟩,
  -- FLT_FIRST[h,w] (R526)
  ⟨0xa00100, [(0x40, 2), (0x8, 4)], 64, [⟨0, 64, .ro, 0x0⟩]⟩,
  -- FLT_FIRST_CTL[h] (R526)
  ⟨0xa00120, [(0x40, 2)], 32, [⟨0, 1, .w1c, 0x0⟩]⟩,
  -- FLT_LOST[h] (R526)
  ⟨0xa00180, [(0x4, 2)], 32, [⟨0, 16, .rc, 0x0⟩, ⟨16, 16, .rc, 0x0⟩]⟩,
  -- FLT_UNIT_INSTAR[u] (R526)
  ⟨0xa00200, [(0x4, 110)], 32, [⟨0, 24, .ro, 0x1⟩]⟩,
  -- FLT_SRC[n] (R526)
  ⟨0xa10000, [(0x8, 4096)], 64, [⟨0, 2, .rw, 0x1⟩, ⟨2, 2, .rw, 0x2⟩, ⟨4, 1, .w1c, 0x0⟩, ⟨8, 8, .rw, 0x0⟩, ⟨16, 16, .rw, 0x0⟩, ⟨32, 16, .rc, 0x0⟩]⟩]

/-- The HIF_ registers. -/
def regsHif0 : List RegDesc := [
  -- HIF_CFG (R567)
  ⟨0x100000, [], 32, [⟨0, 16, .rw, 0x64⟩, ⟨16, 1, .ro, 0x0⟩]⟩,
  -- HIF_ACC_ERR (R567)
  ⟨0x100008, [], 64, [⟨0, 1, .w1c, 0x0⟩, ⟨1, 1, .ro, 0x0⟩, ⟨2, 6, .ro, 0x0⟩, ⟨8, 1, .ro, 0x0⟩, ⟨16, 26, .ro, 0x0⟩, ⟨48, 16, .rc, 0x0⟩]⟩,
  -- HIF_CTX_CTL[c] (R567)
  ⟨0x101000, [(0x8, 64)], 32, [⟨0, 1, .wo, 0x0⟩, ⟨1, 1, .ro, 0x0⟩, ⟨2, 1, .ro, 0x0⟩, ⟨3, 1, .ro, 0x0⟩]⟩,
  -- HIF_Q_CMD[c,q] (R567)
  ⟨0x180000, [(0x2000, 64), (0x80, 16)], 64, [⟨0, 5, .rw, 0x8⟩, ⟨12, 52, .rw, 0x0⟩]⟩,
  -- HIF_Q_CPL[c,q] (R567)
  ⟨0x180008, [(0x2000, 64), (0x80, 16)], 64, [⟨0, 5, .rw, 0x6⟩, ⟨12, 52, .rw, 0x0⟩]⟩,
  -- HIF_Q_OUT[c,q] (R567)
  ⟨0x180010, [(0x2000, 64), (0x80, 16)], 64, [⟨0, 5, .rw, 0x7⟩, ⟨12, 52, .rw, 0x0⟩]⟩,
  -- HIF_Q_CTL[c,q] (R567)
  ⟨0x180018, [(0x2000, 64), (0x80, 16)], 64, [⟨0, 1, .rw, 0x0⟩, ⟨1, 2, .ro, 0x0⟩, ⟨3, 1, .wo, 0x0⟩, ⟨4, 11, .rw, 0x0⟩, ⟨15, 1, .ro, 0x0⟩, ⟨16, 16, .ro, 0x0⟩, ⟨32, 16, .rc, 0x0⟩]⟩,
  -- HIF_Q_PTR[c,q] (R567)
  ⟨0x180020, [(0x2000, 64), (0x80, 16)], 64, [⟨0, 32, .ro, 0x0⟩, ⟨32, 32, .ro, 0x0⟩]⟩]

/-- The SEC_ registers. -/
def regsSec0 : List RegDesc := [
  -- SEC_STATUS (R567)
  ⟨0xe00000, [], 64, [⟨0, 1, .ro, 0x0⟩, ⟨1, 1, .ro, 0x0⟩, ⟨2, 1, .ro, 0x0⟩, ⟨8, 8, .ro, 0x0⟩, ⟨16, 16, .ro, 0x0⟩, ⟨32, 32, .ro, 0x0⟩]⟩]

/-- The DBG_ registers. -/
def regsDbg0 : List RegDesc := [
  -- DBG_CFG (R567)
  ⟨0xf00000, [], 32, [⟨0, 1, .rw, 0x0⟩, ⟨1, 1, .ro, 0x0⟩]⟩,
  -- DBG_PART_BUSY[p] (R567)
  ⟨0xf00100, [(0x8, 16)], 64, [⟨0, 64, .rc, 0x0⟩]⟩]

/-- The PWR_ registers. -/
def regsPwr0 : List RegDesc := [
  -- PWR_CFG (R585)
  ⟨0xd00000, [], 64, [⟨0, 16, .rwl, 0x1f4⟩, ⟨16, 8, .rwl, 0x14⟩, ⟨24, 2, .rwl, 0x2⟩, ⟨32, 16, .rwl, 0x3e8⟩, ⟨48, 16, .rwl, 0x64⟩]⟩,
  -- PWR_ISLANDS (R585)
  ⟨0xd00008, [], 64, [⟨0, 12, .ro, 0x0⟩, ⟨16, 12, .ro, 0x0⟩, ⟨32, 12, .ro, 0x0⟩, ⟨48, 12, .ro, 0x0⟩]⟩,
  -- PWR_ENERGY (R585)
  ⟨0xd00010, [], 64, [⟨0, 64, .ro, 0x0⟩]⟩,
  -- PWR_POWER (R585)
  ⟨0xd00018, [], 32, [⟨0, 32, .ro, 0x0⟩]⟩,
  -- PWR_RAILS (R599)
  ⟨0xd00020, [], 64, [⟨0, 16, .ro, 0x0⟩, ⟨16, 16, .ro, 0x0⟩, ⟨32, 1, .w1c, 0x0⟩, ⟨33, 1, .w1c, 0x0⟩, ⟨34, 1, .ro, 0x0⟩]⟩,
  -- PWR_THERM (R599)
  ⟨0xd00028, [], 32, [⟨0, 8, .ro, 0x0⟩, ⟨8, 1, .ro, 0x0⟩, ⟨9, 1, .ro, 0x0⟩, ⟨10, 1, .ro, 0x0⟩]⟩]

/-- The EVC_ registers. -/
def regsEvc0 : List RegDesc := [
  -- EVC_SRC[n] (R585)
  ⟨0xb00000, [(0x4, 2048)], 32, [⟨0, 6, .ro, 0x0⟩, ⟨6, 1, .ro, 0x0⟩, ⟨7, 1, .ro, 0x0⟩, ⟨8, 8, .ro, 0x0⟩]⟩,
  -- EVC_GROUP[g] (R585)
  ⟨0xb02000, [(0x8, 64)], 64, [⟨0, 4, .ro, 0x0⟩, ⟨4, 8, .ro, 0x0⟩, ⟨16, 16, .ro, 0x3e8⟩, ⟨32, 1, .ro, 0x0⟩, ⟨40, 12, .ro, 0x0⟩]⟩,
  -- EVC_TIMER[k] (R585)
  ⟨0xb03000, [(0x8, 64)], 64, [⟨0, 64, .ro, 0x0⟩]⟩,
  -- EVC_STATUS (R585)
  ⟨0xb03200, [], 32, [⟨0, 12, .ro, 0x0⟩, ⟨16, 16, .rc, 0x0⟩]⟩]

/-- Every register of BAR0. -/
def regTable : List RegDesc :=
  regsGlb0 ++
  regsGlb1 ++
  regsSes0 ++
  regsSes1 ++
  regsMkr0 ++
  regsGal0 ++
  regsGal1 ++
  regsFrm0 ++
  regsSyn0 ++
  regsTok0 ++
  regsCam0 ++
  regsCrt0 ++
  regsVse0 ++
  regsFab0 ++
  regsFlt0 ++
  regsHif0 ++
  regsSec0 ++
  regsDbg0 ++
  regsPwr0 ++
  regsEvc0

/-- GLB_ID.PART (R28). -/
abbrev GLB_ID_PART : Field := ⟨0x0, 0, 16⟩
/-- GLB_ID.STEPPING (R28). -/
abbrev GLB_ID_STEPPING : Field := ⟨0x0, 16, 8⟩
/-- GLB_ID.FAMILY (R28). -/
abbrev GLB_ID_FAMILY : Field := ⟨0x0, 32, 16⟩
/-- GLB_SERIAL.SERIAL (R28). -/
abbrev GLB_SERIAL_SERIAL : Field := ⟨0x8, 0, 64⟩
/-- GLB_CAP0.FORMES (R28). -/
abbrev GLB_CAP0_FORMES : Field := ⟨0x10, 0, 8⟩
/-- GLB_CAP0.CELLS_SVC (R28). -/
abbrev GLB_CAP0_CELLS_SVC : Field := ⟨0x10, 8, 8⟩
/-- GLB_CAP0.SPARES (R28). -/
abbrev GLB_CAP0_SPARES : Field := ⟨0x10, 16, 4⟩
/-- GLB_CAP0.HUBS (R28). -/
abbrev GLB_CAP0_HUBS : Field := ⟨0x10, 20, 4⟩
/-- GLB_CAP0.FAB_PORTS (R28). -/
abbrev GLB_CAP0_FAB_PORTS : Field := ⟨0x10, 24, 5⟩
/-- GLB_CAP0.BAYS (R28). -/
abbrev GLB_CAP0_BAYS : Field := ⟨0x10, 29, 3⟩
/-- GLB_CAP0.CHAN_ENG (R28). -/
abbrev GLB_CAP0_CHAN_ENG : Field := ⟨0x10, 32, 8⟩
/-- GLB_CAP0.CTRL_CORES (R28). -/
abbrev GLB_CAP0_CTRL_CORES : Field := ⟨0x10, 40, 6⟩
/-- GLB_CAP0.ASSOC_BANKS (R28). -/
abbrev GLB_CAP0_ASSOC_BANKS : Field := ⟨0x10, 48, 8⟩
/-- GLB_CAP1.LOG2_SESSIONS (R28). -/
abbrev GLB_CAP1_LOG2_SESSIONS : Field := ⟨0x18, 0, 8⟩
/-- GLB_CAP1.LOG2_ACTIVE_SEQ (R28). -/
abbrev GLB_CAP1_LOG2_ACTIVE_SEQ : Field := ⟨0x18, 8, 8⟩
/-- GLB_CAP1.CONTEXTS (R28). -/
abbrev GLB_CAP1_CONTEXTS : Field := ⟨0x18, 16, 8⟩
/-- GLB_CAP1.QUEUES_PER_CTX (R28). -/
abbrev GLB_CAP1_QUEUES_PER_CTX : Field := ⟨0x18, 24, 8⟩
/-- GLB_CAP1.LOG2_CUSTOMERS (R28). -/
abbrev GLB_CAP1_LOG2_CUSTOMERS : Field := ⟨0x18, 32, 8⟩
/-- GLB_CAP1.VOCABS (R28). -/
abbrev GLB_CAP1_VOCABS : Field := ⟨0x18, 40, 8⟩
/-- GLB_CAP1.LOG2_SYNC_OBJ (R28). -/
abbrev GLB_CAP1_LOG2_SYNC_OBJ : Field := ⟨0x18, 48, 8⟩
/-- GLB_CAP1.LOG2_PARAMS (R28). -/
abbrev GLB_CAP1_LOG2_PARAMS : Field := ⟨0x18, 56, 8⟩
/-- GLB_CAP2.LOG2_GRAMMARS (R28). -/
abbrev GLB_CAP2_LOG2_GRAMMARS : Field := ⟨0x20, 0, 8⟩
/-- GLB_CAP2.MAX_DRAFT (R28). -/
abbrev GLB_CAP2_MAX_DRAFT : Field := ⟨0x20, 8, 8⟩
/-- GLB_CAP2.STOP_STRINGS (R28). -/
abbrev GLB_CAP2_STOP_STRINGS : Field := ⟨0x20, 16, 8⟩
/-- GLB_CAP2.LOG2_VECTORS (R28). -/
abbrev GLB_CAP2_LOG2_VECTORS : Field := ⟨0x20, 24, 8⟩
/-- GLB_CAP2.MAX_DIM (R28). -/
abbrev GLB_CAP2_MAX_DIM : Field := ⟨0x20, 32, 16⟩
/-- GLB_CAP2.MAX_K (R28). -/
abbrev GLB_CAP2_MAX_K : Field := ⟨0x20, 48, 16⟩
/-- GLB_CAP3.FORMATS (R28). -/
abbrev GLB_CAP3_FORMATS : Field := ⟨0x28, 0, 11⟩
/-- GLB_CAP3.ORDER_INDEP (R28). -/
abbrev GLB_CAP3_ORDER_INDEP : Field := ⟨0x28, 16, 1⟩
/-- GLB_CAP3.CONFIDENTIAL (R28). -/
abbrev GLB_CAP3_CONFIDENTIAL : Field := ⟨0x28, 17, 1⟩
/-- GLB_CAP3.FAILOVER_PORT (R28). -/
abbrev GLB_CAP3_FAILOVER_PORT : Field := ⟨0x28, 18, 1⟩
/-- GLB_CAP3.PLANE_PAIR (R28). -/
abbrev GLB_CAP3_PLANE_PAIR : Field := ⟨0x28, 19, 1⟩
/-- GLB_RES0.CELLS_ACTIVE (R28). -/
abbrev GLB_RES0_CELLS_ACTIVE : Field := ⟨0x30, 0, 12⟩
/-- GLB_RES0.SPARE_CELLS (R28). -/
abbrev GLB_RES0_SPARE_CELLS : Field := ⟨0x30, 16, 8⟩
/-- GLB_RES0.HBM_GIB (R28). -/
abbrev GLB_RES0_HBM_GIB : Field := ⟨0x30, 32, 10⟩
/-- GLB_RES0.HBM_SPARE_GIB (R28). -/
abbrev GLB_RES0_HBM_SPARE_GIB : Field := ⟨0x30, 48, 8⟩
/-- GLB_RES1.FORME_OK (R28). -/
abbrev GLB_RES1_FORME_OK : Field := ⟨0x38, 0, 12⟩
/-- GLB_RES1.BAYS_PRESENT (R28). -/
abbrev GLB_RES1_BAYS_PRESENT : Field := ⟨0x38, 12, 4⟩
/-- GLB_RES1.PORTS_UP (R28). -/
abbrev GLB_RES1_PORTS_UP : Field := ⟨0x38, 16, 16⟩
/-- GLB_RES1.HUB_OK (R28). -/
abbrev GLB_RES1_HUB_OK : Field := ⟨0x38, 32, 2⟩
/-- GLB_RES1.STACKS_OK (R28). -/
abbrev GLB_RES1_STACKS_OK : Field := ⟨0x38, 34, 12⟩
/-- GLB_STATE.DEV_STATE (R29). -/
abbrev GLB_STATE_DEV_STATE : Field := ⟨0x40, 0, 2⟩
/-- GLB_STATE.START_PHASE (R29). -/
abbrev GLB_STATE_START_PHASE : Field := ⟨0x40, 8, 4⟩
/-- GLB_STATE.READY (R29). -/
abbrev GLB_STATE_READY : Field := ⟨0x40, 12, 1⟩
/-- GLB_STATE.ACTIVE_HUB (R29). -/
abbrev GLB_STATE_ACTIVE_HUB : Field := ⟨0x40, 13, 1⟩
/-- GLB_STATE.DOMAIN_CLASS (R29). -/
abbrev GLB_STATE_DOMAIN_CLASS : Field := ⟨0x40, 14, 1⟩
/-- GLB_DEV_ADDR.DEVICE (R29). -/
abbrev GLB_DEV_ADDR_DEVICE : Field := ⟨0x44, 0, 14⟩
/-- GLB_DEV_ADDR.PLANE (R29). -/
abbrev GLB_DEV_ADDR_PLANE : Field := ⟨0x44, 15, 1⟩
/-- GLB_DEV_ADDR.VALID (R29). -/
abbrev GLB_DEV_ADDR_VALID : Field := ⟨0x44, 16, 1⟩
/-- GLB_TIME.TIME (R30). -/
abbrev GLB_TIME_TIME : Field := ⟨0x48, 0, 64⟩
/-- GLB_TIME_STATUS.LOCKED (R30). -/
abbrev GLB_TIME_STATUS_LOCKED : Field := ⟨0x50, 0, 1⟩
/-- GLB_TIME_STATUS.HOLDOVER (R30). -/
abbrev GLB_TIME_STATUS_HOLDOVER : Field := ⟨0x50, 1, 1⟩
/-- GLB_TIME_STATUS.SOURCE (R30). -/
abbrev GLB_TIME_STATUS_SOURCE : Field := ⟨0x50, 2, 2⟩
/-- GLB_TIME_STATUS.OFFSET (R30). -/
abbrev GLB_TIME_STATUS_OFFSET : Field := ⟨0x50, 16, 16⟩
/-- GLB_SCRATCH.VALUE (R30). -/
abbrev GLB_SCRATCH_VALUE : Field := ⟨0x58, 0, 64⟩
/-- SES_CFG.WAIT_GRACE (R70). -/
abbrev SES_CFG_WAIT_GRACE : Field := ⟨0x200000, 0, 16⟩
/-- SES_LIVE.ALLOCATED (R70). -/
abbrev SES_LIVE_ALLOCATED : Field := ⟨0x200008, 0, 25⟩
/-- SES_LIVE.SLOTS_USED (R70). -/
abbrev SES_LIVE_SLOTS_USED : Field := ⟨0x200008, 32, 14⟩
/-- SES_CANCEL_DISCARDS.COUNT (R70). -/
abbrev SES_CANCEL_DISCARDS_COUNT : Field := ⟨0x200010, 0, 32⟩
/-- SES_STALE.COUNT (R70). -/
abbrev SES_STALE_COUNT : Field := ⟨0x200014, 0, 32⟩
/-- SES_CUST_MAP.CONTEXT (R70). -/
abbrev SES_CUST_MAP_CONTEXT (n : Nat) : Field := ⟨0x201000 + 0x4 * n, 0, 6⟩
/-- SES_CUST_MAP.VALID (R70). -/
abbrev SES_CUST_MAP_VALID (n : Nat) : Field := ⟨0x201000 + 0x4 * n, 6, 1⟩
/-- SES_TIER_STATUS.P2_OPEN (R106). -/
abbrev SES_TIER_STATUS_P2_OPEN : Field := ⟨0x200018, 0, 1⟩
/-- SES_TIER_STATUS.P3_OPEN (R106). -/
abbrev SES_TIER_STATUS_P3_OPEN : Field := ⟨0x200018, 1, 1⟩
/-- SES_TIER_STATUS.BAYS_WRITABLE (R106). -/
abbrev SES_TIER_STATUS_BAYS_WRITABLE : Field := ⟨0x200018, 2, 4⟩
/-- SES_TIER_STATUS.LENDERS (R106). -/
abbrev SES_TIER_STATUS_LENDERS : Field := ⟨0x200018, 8, 8⟩
/-- SES_P1_WATER.LOW_PCT (R106). -/
abbrev SES_P1_WATER_LOW_PCT : Field := ⟨0x20001c, 0, 8⟩
/-- SES_P1_WATER.HIGH_PCT (R106). -/
abbrev SES_P1_WATER_HIGH_PCT : Field := ⟨0x20001c, 8, 8⟩
/-- SES_LEND_CFG.ENABLE (R106). -/
abbrev SES_LEND_CFG_ENABLE : Field := ⟨0x200020, 0, 1⟩
/-- SES_LEND_CFG.LEND_GIB (R106). -/
abbrev SES_LEND_CFG_LEND_GIB : Field := ⟨0x200020, 8, 8⟩
/-- SES_LEND_CFG.RECLAIM_MS (R106). -/
abbrev SES_LEND_CFG_RECLAIM_MS : Field := ⟨0x200020, 16, 16⟩
/-- SES_LEND_CFG.BORROW_MAX_GIB (R106). -/
abbrev SES_LEND_CFG_BORROW_MAX_GIB : Field := ⟨0x200020, 32, 8⟩
/-- SES_LEND_STATUS.LENT_GIB (R106). -/
abbrev SES_LEND_STATUS_LENT_GIB : Field := ⟨0x200028, 0, 8⟩
/-- SES_LEND_STATUS.BORROWED_GIB (R106). -/
abbrev SES_LEND_STATUS_BORROWED_GIB : Field := ⟨0x200028, 8, 8⟩
/-- SES_LEND_STATUS.RECLAIMING (R106). -/
abbrev SES_LEND_STATUS_RECLAIMING : Field := ⟨0x200028, 16, 1⟩
/-- SES_REVIVE_LATE.COUNT (R106). -/
abbrev SES_REVIVE_LATE_COUNT : Field := ⟨0x200030, 0, 32⟩
/-- SES_DUR_BEHIND.COUNT (R106). -/
abbrev SES_DUR_BEHIND_COUNT : Field := ⟨0x200034, 0, 25⟩
/-- SES_CLASS_A.DEFAULT_TIER (R106). -/
abbrev SES_CLASS_A_DEFAULT_TIER (n : Nat) : Field := ⟨0x208000 + 0x10 * n, 0, 2⟩
/-- SES_CLASS_A.P2_EN (R106). -/
abbrev SES_CLASS_A_P2_EN (n : Nat) : Field := ⟨0x208000 + 0x10 * n, 2, 1⟩
/-- SES_CLASS_A.P3_EN (R106). -/
abbrev SES_CLASS_A_P3_EN (n : Nat) : Field := ⟨0x208000 + 0x10 * n, 3, 1⟩
/-- SES_CLASS_A.MARGIN_PCT (R106). -/
abbrev SES_CLASS_A_MARGIN_PCT (n : Nat) : Field := ⟨0x208000 + 0x10 * n, 8, 8⟩
/-- SES_CLASS_A.MARGIN_MIN_US (R106). -/
abbrev SES_CLASS_A_MARGIN_MIN_US (n : Nat) : Field := ⟨0x208000 + 0x10 * n, 16, 16⟩
/-- SES_CLASS_A.MIN_DWELL_S (R106). -/
abbrev SES_CLASS_A_MIN_DWELL_S (n : Nat) : Field := ⟨0x208000 + 0x10 * n, 32, 16⟩
/-- SES_CLASS_A.OVERDUE_MS (R106). -/
abbrev SES_CLASS_A_OVERDUE_MS (n : Nat) : Field := ⟨0x208000 + 0x10 * n, 48, 16⟩
/-- SES_CLASS_B.DUR_LAG_MS (R106). -/
abbrev SES_CLASS_B_DUR_LAG_MS (n : Nat) : Field := ⟨0x208008 + 0x10 * n, 0, 32⟩
/-- MKR_STATUS.IN_FORCE (R148). -/
abbrev MKR_STATUS_IN_FORCE : Field := ⟨0x400000, 0, 13⟩
/-- MKR_STATUS.EVALUATING (R148). -/
abbrev MKR_STATUS_EVALUATING : Field := ⟨0x400000, 13, 1⟩
/-- MKR_STATUS.SHEDDING (R148). -/
abbrev MKR_STATUS_SHEDDING : Field := ⟨0x400000, 14, 1⟩
/-- MKR_STATUS.LAST_STATUS (R148). -/
abbrev MKR_STATUS_LAST_STATUS : Field := ⟨0x400000, 16, 16⟩
/-- MKR_CFG.LIFE_DAYS (R148). -/
abbrev MKR_CFG_LIFE_DAYS : Field := ⟨0x400008, 0, 16⟩
/-- MKR_CFG.RECLAIM_FLOOR_MS (R148). -/
abbrev MKR_CFG_RECLAIM_FLOOR_MS : Field := ⟨0x400008, 16, 16⟩
/-- MKR_CFG.LEND_BW_GBS (R148). -/
abbrev MKR_CFG_LEND_BW_GBS : Field := ⟨0x400008, 32, 16⟩
/-- MKR_DERATE.ARITH_PCT (R148). -/
abbrev MKR_DERATE_ARITH_PCT : Field := ⟨0x400010, 0, 8⟩
/-- MKR_DERATE.HBM_PCT (R148). -/
abbrev MKR_DERATE_HBM_PCT : Field := ⟨0x400010, 8, 8⟩
/-- MKR_DERATE.FLASH_RD_PCT (R148). -/
abbrev MKR_DERATE_FLASH_RD_PCT : Field := ⟨0x400010, 16, 8⟩
/-- MKR_DERATE.FLASH_PG_PCT (R148). -/
abbrev MKR_DERATE_FLASH_PG_PCT : Field := ⟨0x400010, 24, 8⟩
/-- MKR_DERATE.FLASH_OPS_PCT (R148). -/
abbrev MKR_DERATE_FLASH_OPS_PCT : Field := ⟨0x400010, 32, 8⟩
/-- MKR_DERATE.FABRIC_PCT (R148). -/
abbrev MKR_DERATE_FABRIC_PCT : Field := ⟨0x400010, 40, 8⟩
/-- MKR_DERATE.WEAR_PCT (R148). -/
abbrev MKR_DERATE_WEAR_PCT : Field := ⟨0x400010, 48, 8⟩
/-- MKR_DERATE.CELLMEM_RSV_KIB (R148). -/
abbrev MKR_DERATE_CELLMEM_RSV_KIB : Field := ⟨0x400010, 56, 8⟩
/-- MKR_STEP_OVH.SIGMA_NS (R148). -/
abbrev MKR_STEP_OVH_SIGMA_NS : Field := ⟨0x400018, 0, 16⟩
/-- MKR_LOCK_VIOL.BLOCK (R148). -/
abbrev MKR_LOCK_VIOL_BLOCK : Field := ⟨0x400020, 0, 16⟩
/-- MKR_LOCK_VIOL.FORME (R148). -/
abbrev MKR_LOCK_VIOL_FORME : Field := ⟨0x400020, 16, 1⟩
/-- MKR_SHED_COUNT.COUNT (R148). -/
abbrev MKR_SHED_COUNT_COUNT : Field := ⟨0x400024, 0, 32⟩
/-- MKR_RED.COUNT (R148). -/
abbrev MKR_RED_COUNT : Field := ⟨0x400028, 0, 32⟩
/-- MKR_CAP.VALUE (R148). -/
abbrev MKR_CAP_VALUE (r : Nat) : Field := ⟨0x400100 + 0x10 * r, 0, 64⟩
/-- MKR_RESV.VALUE (R148). -/
abbrev MKR_RESV_VALUE (r : Nat) : Field := ⟨0x400108 + 0x10 * r, 0, 64⟩
/-- MKR_WEAR_FREE.BYTES (R148). -/
abbrev MKR_WEAR_FREE_BYTES (b : Nat) : Field := ⟨0x400200 + 0x8 * b, 0, 48⟩
/-- GAL_CFG.AGE_STEPS (R188). -/
abbrev GAL_CFG_AGE_STEPS : Field := ⟨0x300000, 0, 8⟩
/-- GAL_STATUS.STOPPED (R188). -/
abbrev GAL_STATUS_STOPPED : Field := ⟨0x300004, 0, 16⟩
/-- GAL_STATUS.BUILDING (R188). -/
abbrev GAL_STATUS_BUILDING : Field := ⟨0x300004, 16, 1⟩
/-- GAL_SLICE_ERR.ERR (R188). -/
abbrev GAL_SLICE_ERR_ERR : Field := ⟨0x300008, 0, 64⟩
/-- GAL_OVERRUN.COUNT (R188). -/
abbrev GAL_OVERRUN_COUNT : Field := ⟨0x300010, 0, 32⟩
/-- GAL_SWITCHES.COUNT (R188). -/
abbrev GAL_SWITCHES_COUNT : Field := ⟨0x300014, 0, 32⟩
/-- GAL_PART.QUIRES (R188). -/
abbrev GAL_PART_QUIRES (p : Nat) : Field := ⟨0x301000 + 0x8 * p, 0, 48⟩
/-- GAL_PART.ENABLE (R188). -/
abbrev GAL_PART_ENABLE (p : Nat) : Field := ⟨0x301000 + 0x8 * p, 48, 1⟩
/-- GAL_PART.CLOCK_MHZ (R188). -/
abbrev GAL_PART_CLOCK_MHZ (p : Nat) : Field := ⟨0x301000 + 0x8 * p, 52, 12⟩
/-- GAL_SLICE_A.MODEL (R188). -/
abbrev GAL_SLICE_A_MODEL (p s : Nat) : Field := ⟨0x302000 + 0x40 * p + 0x10 * s, 0, 10⟩
/-- GAL_SLICE_A.ENABLE (R188). -/
abbrev GAL_SLICE_A_ENABLE (p s : Nat) : Field := ⟨0x302000 + 0x40 * p + 0x10 * s, 10, 1⟩
/-- GAL_SLICE_A.RESIDENT (R188). -/
abbrev GAL_SLICE_A_RESIDENT (p s : Nat) : Field := ⟨0x302000 + 0x40 * p + 0x10 * s, 11, 1⟩
/-- GAL_SLICE_A.KIND (R188). -/
abbrev GAL_SLICE_A_KIND (p s : Nat) : Field := ⟨0x302000 + 0x40 * p + 0x10 * s, 12, 2⟩
/-- GAL_SLICE_A.DRAFT_MAX (R188). -/
abbrev GAL_SLICE_A_DRAFT_MAX (p s : Nat) : Field := ⟨0x302000 + 0x40 * p + 0x10 * s, 16, 5⟩
/-- GAL_SLICE_A.PERIOD_NS (R188). -/
abbrev GAL_SLICE_A_PERIOD_NS (p s : Nat) : Field := ⟨0x302000 + 0x40 * p + 0x10 * s, 32, 32⟩
/-- GAL_SLICE_B.MAX_POS (R188). -/
abbrev GAL_SLICE_B_MAX_POS (p s : Nat) : Field := ⟨0x302008 + 0x40 * p + 0x10 * s, 0, 16⟩
/-- GAL_SLICE_B.PF_CHUNK (R188). -/
abbrev GAL_SLICE_B_PF_CHUNK (p s : Nat) : Field := ⟨0x302008 + 0x40 * p + 0x10 * s, 16, 16⟩
/-- GAL_SLICE_B.IS_BASE (R188). -/
abbrev GAL_SLICE_B_IS_BASE (p s : Nat) : Field := ⟨0x302008 + 0x40 * p + 0x10 * s, 32, 6⟩
/-- GAL_SLICE_B.IS_SIZE (R188). -/
abbrev GAL_SLICE_B_IS_SIZE (p s : Nat) : Field := ⟨0x302008 + 0x40 * p + 0x10 * s, 40, 6⟩
/-- GAL_STEP.STEP (R188). -/
abbrev GAL_STEP_STEP (p s : Nat) : Field := ⟨0x303000 + 0x20 * p + 0x8 * s, 0, 32⟩
/-- GAL_STEP.LAST_NS (R188). -/
abbrev GAL_STEP_LAST_NS (p s : Nat) : Field := ⟨0x303000 + 0x20 * p + 0x8 * s, 32, 32⟩
/-- GAL_BUDGET_A.RATE (R188). -/
abbrev GAL_BUDGET_A_RATE (c : Nat) : Field := ⟨0x310000 + 0x10 * c, 0, 32⟩
/-- GAL_BUDGET_A.DEPTH (R188). -/
abbrev GAL_BUDGET_A_DEPTH (c : Nat) : Field := ⟨0x310000 + 0x10 * c, 32, 32⟩
/-- GAL_BUDGET_B.LEVEL (R188). -/
abbrev GAL_BUDGET_B_LEVEL (c : Nat) : Field := ⟨0x310008 + 0x10 * c, 0, 32⟩
/-- GAL_BUDGET_B.ENABLE (R188). -/
abbrev GAL_BUDGET_B_ENABLE (c : Nat) : Field := ⟨0x310008 + 0x10 * c, 32, 1⟩
/-- FRM_STATUS.IN_SERVICE (R229). -/
abbrev FRM_STATUS_IN_SERVICE (f : Nat) : Field := ⟨0x1000000 + 0x400000 * f, 0, 8⟩
/-- FRM_STATUS.SPARES (R229). -/
abbrev FRM_STATUS_SPARES (f : Nat) : Field := ⟨0x1000000 + 0x400000 * f, 8, 4⟩
/-- FRM_STATUS.TESTED (R229). -/
abbrev FRM_STATUS_TESTED (f : Nat) : Field := ⟨0x1000000 + 0x400000 * f, 12, 1⟩
/-- FRM_CELL_MAP.PHYS (R229). -/
abbrev FRM_CELL_MAP_PHYS (f n : Nat) : Field := ⟨0x1001000 + 0x400000 * f + 0x4 * n, 0, 8⟩
/-- FRM_CELL_MAP.INSTAR (R229). -/
abbrev FRM_CELL_MAP_INSTAR (f n : Nat) : Field := ⟨0x1001000 + 0x400000 * f + 0x4 * n, 8, 24⟩
/-- FRM_CELL_STAT.STATE (R229). -/
abbrev FRM_CELL_STAT_STATE (f k : Nat) : Field := ⟨0x1002000 + 0x400000 * f + 0x4 * k, 0, 2⟩
/-- FRM_CELL_STAT.ISLAND (R229). -/
abbrev FRM_CELL_STAT_ISLAND (f k : Nat) : Field := ⟨0x1002000 + 0x400000 * f + 0x4 * k, 2, 2⟩
/-- FRM_CELL_STAT.SVC (R229). -/
abbrev FRM_CELL_STAT_SVC (f k : Nat) : Field := ⟨0x1002000 + 0x400000 * f + 0x4 * k, 16, 8⟩
/-- FRM_CELL_ECC.CE (R229). -/
abbrev FRM_CELL_ECC_CE (f k : Nat) : Field := ⟨0x1003000 + 0x400000 * f + 0x4 * k, 0, 16⟩
/-- FRM_CELL_ECC.UE (R229). -/
abbrev FRM_CELL_ECC_UE (f k : Nat) : Field := ⟨0x1003000 + 0x400000 * f + 0x4 * k, 16, 8⟩
/-- SYN_STATUS.IN_USE (R277). -/
abbrev SYN_STATUS_IN_USE : Field := ⟨0xc00000, 0, 15⟩
/-- SYN_STATUS.WAITERS (R277). -/
abbrev SYN_STATUS_WAITERS : Field := ⟨0xc00000, 16, 12⟩
/-- SYN_STALE.COUNT (R277). -/
abbrev SYN_STALE_COUNT : Field := ⟨0xc00004, 0, 32⟩
/-- SYN_BROKEN.COUNT (R277). -/
abbrev SYN_BROKEN_COUNT : Field := ⟨0xc00008, 0, 32⟩
/-- SYN_OBJ_A.KIND (R277). -/
abbrev SYN_OBJ_A_KIND (n : Nat) : Field := ⟨0xc40000 + 0x10 * n, 0, 3⟩
/-- SYN_OBJ_A.OWNER_KIND (R277). -/
abbrev SYN_OBJ_A_OWNER_KIND (n : Nat) : Field := ⟨0xc40000 + 0x10 * n, 3, 1⟩
/-- SYN_OBJ_A.OWNER (R277). -/
abbrev SYN_OBJ_A_OWNER (n : Nat) : Field := ⟨0xc40000 + 0x10 * n, 4, 6⟩
/-- SYN_OBJ_A.BROKEN (R277). -/
abbrev SYN_OBJ_A_BROKEN (n : Nat) : Field := ⟨0xc40000 + 0x10 * n, 10, 1⟩
/-- SYN_OBJ_A.HELD (R277). -/
abbrev SYN_OBJ_A_HELD (n : Nat) : Field := ⟨0xc40000 + 0x10 * n, 11, 1⟩
/-- SYN_OBJ_A.INSTAR (R277). -/
abbrev SYN_OBJ_A_INSTAR (n : Nat) : Field := ⟨0xc40000 + 0x10 * n, 16, 24⟩
/-- SYN_OBJ_B.VALUE (R277). -/
abbrev SYN_OBJ_B_VALUE (n : Nat) : Field := ⟨0xc40008 + 0x10 * n, 0, 64⟩
/-- SES_KV_FREE.FREE (R313). -/
abbrev SES_KV_FREE_FREE : Field := ⟨0x200040, 0, 25⟩
/-- SES_KV_PAGE_WAIT.COUNT (R313). -/
abbrev SES_KV_PAGE_WAIT_COUNT : Field := ⟨0x200044, 0, 32⟩
/-- SES_KV_PIED.COUNT (R313). -/
abbrev SES_KV_PIED_COUNT : Field := ⟨0x200048, 0, 32⟩
/-- SES_CTX_PAGES.RSV_PAGES (R313). -/
abbrev SES_CTX_PAGES_RSV_PAGES (c : Nat) : Field := ⟨0x200400 + 0x8 * c, 0, 25⟩
/-- SES_CTX_PAGES.USED_PAGES (R313). -/
abbrev SES_CTX_PAGES_USED_PAGES (c : Nat) : Field := ⟨0x200400 + 0x8 * c, 32, 25⟩
/-- GAL_KVL_A.KV_FMT (R313). -/
abbrev GAL_KVL_A_KV_FMT (m : Nat) : Field := ⟨0x320000 + 0x10 * m, 0, 1⟩
/-- GAL_KVL_A.MERGE (R313). -/
abbrev GAL_KVL_A_MERGE (m : Nat) : Field := ⟨0x320000 + 0x10 * m, 1, 1⟩
/-- GAL_KVL_A.LOG2_PPP (R313). -/
abbrev GAL_KVL_A_LOG2_PPP (m : Nat) : Field := ⟨0x320000 + 0x10 * m, 2, 4⟩
/-- GAL_KVL_A.G (R313). -/
abbrev GAL_KVL_A_G (m : Nat) : Field := ⟨0x320000 + 0x10 * m, 8, 16⟩
/-- GAL_KVL_A.HEAD_DIM (R313). -/
abbrev GAL_KVL_A_HEAD_DIM (m : Nat) : Field := ⟨0x320000 + 0x10 * m, 24, 16⟩
/-- GAL_KVL_B.P_LIM (R313). -/
abbrev GAL_KVL_B_P_LIM (m : Nat) : Field := ⟨0x320008 + 0x10 * m, 0, 32⟩
/-- GAL_KVL_B.RECUR_HALF (R313). -/
abbrev GAL_KVL_B_RECUR_HALF (m : Nat) : Field := ⟨0x320008 + 0x10 * m, 32, 10⟩
/-- TOK_VOCAB_A.LOADED (R363). -/
abbrev TOK_VOCAB_A_LOADED (v : Nat) : Field := ⟨0x500000 + 0x10 * v, 0, 1⟩
/-- TOK_VOCAB_A.NTOK (R363). -/
abbrev TOK_VOCAB_A_NTOK (v : Nat) : Field := ⟨0x500000 + 0x10 * v, 1, 21⟩
/-- TOK_VOCAB_A.BYTE_FB (R363). -/
abbrev TOK_VOCAB_A_BYTE_FB (v : Nat) : Field := ⟨0x500000 + 0x10 * v, 22, 1⟩
/-- TOK_VOCAB_A.HUB (R363). -/
abbrev TOK_VOCAB_A_HUB (v : Nat) : Field := ⟨0x500000 + 0x10 * v, 23, 1⟩
/-- TOK_VOCAB_A.BINDINGS (R363). -/
abbrev TOK_VOCAB_A_BINDINGS (v : Nat) : Field := ⟨0x500000 + 0x10 * v, 24, 25⟩
/-- TOK_VOCAB_B.VOCAB_ID (R363). -/
abbrev TOK_VOCAB_B_VOCAB_ID (v : Nat) : Field := ⟨0x500008 + 0x10 * v, 0, 64⟩
/-- TOK_GRAM_A.LOADED (R363). -/
abbrev TOK_GRAM_A_LOADED (g : Nat) : Field := ⟨0x501000 + 0x10 * g, 0, 1⟩
/-- TOK_GRAM_A.NSTATES (R363). -/
abbrev TOK_GRAM_A_NSTATES (g : Nat) : Field := ⟨0x501000 + 0x10 * g, 1, 20⟩
/-- TOK_GRAM_A.BINDINGS (R363). -/
abbrev TOK_GRAM_A_BINDINGS (g : Nat) : Field := ⟨0x501000 + 0x10 * g, 21, 25⟩
/-- TOK_GRAM_B.VOCAB_ID (R363). -/
abbrev TOK_GRAM_B_VOCAB_ID (g : Nat) : Field := ⟨0x501008 + 0x10 * g, 0, 64⟩
/-- TOK_COUNTS.REPLACED (R363). -/
abbrev TOK_COUNTS_REPLACED : Field := ⟨0x502000, 0, 16⟩
/-- TOK_COUNTS.DEGENERATE (R363). -/
abbrev TOK_COUNTS_DEGENERATE : Field := ⟨0x502000, 16, 16⟩
/-- TOK_COUNTS.NO_TOKEN (R363). -/
abbrev TOK_COUNTS_NO_TOKEN : Field := ⟨0x502000, 32, 16⟩
/-- TOK_COUNTS.OUT_WAIT (R363). -/
abbrev TOK_COUNTS_OUT_WAIT : Field := ⟨0x502000, 48, 16⟩
/-- CAM_CFG.OWNER_KIND (R363). -/
abbrev CAM_CFG_OWNER_KIND (b : Nat) : Field := ⟨0x600000 + 0x8 * b, 0, 2⟩
/-- CAM_CFG.OWNER (R363). -/
abbrev CAM_CFG_OWNER (b : Nat) : Field := ⟨0x600000 + 0x8 * b, 2, 6⟩
/-- CAM_CFG.WIDTH (R363). -/
abbrev CAM_CFG_WIDTH (b : Nat) : Field := ⟨0x600000 + 0x8 * b, 8, 2⟩
/-- CAM_CFG.KEY_BYTES (R363). -/
abbrev CAM_CFG_KEY_BYTES (b : Nat) : Field := ⟨0x600000 + 0x8 * b, 10, 6⟩
/-- CAM_CFG.VERIFY (R363). -/
abbrev CAM_CFG_VERIFY (b : Nat) : Field := ⟨0x600000 + 0x8 * b, 16, 1⟩
/-- CAM_CFG.VALID_ENTRIES (R363). -/
abbrev CAM_CFG_VALID_ENTRIES (b : Nat) : Field := ⟨0x600000 + 0x8 * b, 17, 14⟩
/-- CAM_FIX.HIT (R363). -/
abbrev CAM_FIX_HIT : Field := ⟨0x600100, 0, 16⟩
/-- CAM_FIX.SCRUB (R363). -/
abbrev CAM_FIX_SCRUB : Field := ⟨0x600100, 16, 16⟩
/-- CRT_CFG.RESERVE_PCT (R412). -/
abbrev CRT_CFG_RESERVE_PCT : Field := ⟨0x800000, 0, 8⟩
/-- CRT_CFG.ADOPT (R412). -/
abbrev CRT_CFG_ADOPT : Field := ⟨0x800000, 8, 1⟩
/-- CRT_CFG.SCAN_DAYS (R412). -/
abbrev CRT_CFG_SCAN_DAYS : Field := ⟨0x800000, 16, 16⟩
/-- CRT_CFG.J_COMPACT (R412). -/
abbrev CRT_CFG_J_COMPACT : Field := ⟨0x800000, 32, 26⟩
/-- CRT_SEAL.SEALED (R412). -/
abbrev CRT_SEAL_SEALED : Field := ⟨0x800008, 0, 4⟩
/-- CRT_SEAL.LATE (R412). -/
abbrev CRT_SEAL_LATE : Field := ⟨0x800008, 4, 1⟩
/-- CRT_SEAL.SEAL_US (R412). -/
abbrev CRT_SEAL_SEAL_US : Field := ⟨0x800008, 16, 16⟩
/-- CRT_BAY.STATE (R412). -/
abbrev CRT_BAY_STATE (b : Nat) : Field := ⟨0x800100 + 0x100 * b, 0, 4⟩
/-- CRT_BAY.PRESENT (R412). -/
abbrev CRT_BAY_PRESENT (b : Nat) : Field := ⟨0x800100 + 0x100 * b, 4, 1⟩
/-- CRT_BAY.HOLDUP_OK (R412). -/
abbrev CRT_BAY_HOLDUP_OK (b : Nat) : Field := ⟨0x800100 + 0x100 * b, 5, 1⟩
/-- CRT_BAY.LANES_GOOD (R412). -/
abbrev CRT_BAY_LANES_GOOD (b : Nat) : Field := ⟨0x800100 + 0x100 * b, 6, 3⟩
/-- CRT_BAY.SPARE_USED (R412). -/
abbrev CRT_BAY_SPARE_USED (b : Nat) : Field := ⟨0x800100 + 0x100 * b, 9, 1⟩
/-- CRT_BAY.RO_REASON (R412). -/
abbrev CRT_BAY_RO_REASON (b : Nat) : Field := ⟨0x800100 + 0x100 * b, 10, 4⟩
/-- CRT_BAY.WEAR_UNVERIFIED (R412). -/
abbrev CRT_BAY_WEAR_UNVERIFIED (b : Nat) : Field := ⟨0x800100 + 0x100 * b, 14, 1⟩
/-- CRT_BAY.COMPACTING (R412). -/
abbrev CRT_BAY_COMPACTING (b : Nat) : Field := ⟨0x800100 + 0x100 * b, 15, 1⟩
/-- CRT_BAY.PART (R412). -/
abbrev CRT_BAY_PART (b : Nat) : Field := ⟨0x800100 + 0x100 * b, 16, 16⟩
/-- CRT_SERIAL.SERIAL (R412). -/
abbrev CRT_SERIAL_SERIAL (b : Nat) : Field := ⟨0x800108 + 0x100 * b, 0, 64⟩
/-- CRT_HOST_WR.BYTES (R412). -/
abbrev CRT_HOST_WR_BYTES (b : Nat) : Field := ⟨0x800110 + 0x100 * b, 0, 64⟩
/-- CRT_NAND_WR.BYTES (R412). -/
abbrev CRT_NAND_WR_BYTES (b : Nat) : Field := ⟨0x800118 + 0x100 * b, 0, 64⟩
/-- CRT_BLOCKS.ERASE_MAX (R412). -/
abbrev CRT_BLOCKS_ERASE_MAX (b : Nat) : Field := ⟨0x800120 + 0x100 * b, 0, 16⟩
/-- CRT_BLOCKS.ERASE_MEAN (R412). -/
abbrev CRT_BLOCKS_ERASE_MEAN (b : Nat) : Field := ⟨0x800120 + 0x100 * b, 16, 16⟩
/-- CRT_BLOCKS.SPARE_BLOCKS (R412). -/
abbrev CRT_BLOCKS_SPARE_BLOCKS (b : Nat) : Field := ⟨0x800120 + 0x100 * b, 32, 32⟩
/-- CRT_FREE.BYTES (R412). -/
abbrev CRT_FREE_BYTES (b : Nat) : Field := ⟨0x800128 + 0x100 * b, 0, 64⟩
/-- CRT_JRNL.JOURNAL (R412). -/
abbrev CRT_JRNL_JOURNAL (b : Nat) : Field := ⟨0x800130 + 0x100 * b, 0, 26⟩
/-- CRT_JRNL.CHECKPOINT (R412). -/
abbrev CRT_JRNL_CHECKPOINT (b : Nat) : Field := ⟨0x800130 + 0x100 * b, 32, 25⟩
/-- CRT_ERRS.REPLAYS (R412). -/
abbrev CRT_ERRS_REPLAYS (b : Nat) : Field := ⟨0x800138 + 0x100 * b, 0, 16⟩
/-- CRT_ERRS.RETRAINS (R412). -/
abbrev CRT_ERRS_RETRAINS (b : Nat) : Field := ⟨0x800138 + 0x100 * b, 16, 8⟩
/-- CRT_ERRS.RETRIES (R412). -/
abbrev CRT_ERRS_RETRIES (b : Nat) : Field := ⟨0x800138 + 0x100 * b, 32, 16⟩
/-- CRT_ERRS.UNCORRECTABLE (R412). -/
abbrev CRT_ERRS_UNCORRECTABLE (b : Nat) : Field := ⟨0x800138 + 0x100 * b, 48, 16⟩
/-- VSE_STATUS.OPEN (R445). -/
abbrev VSE_STATUS_OPEN : Field := ⟨0x700000, 0, 64⟩
/-- VSE_PIN_MISS.COUNT (R445). -/
abbrev VSE_PIN_MISS_COUNT : Field := ⟨0x700008, 0, 32⟩
/-- VSE_IX_A.CONTEXT (R445). -/
abbrev VSE_IX_A_CONTEXT (i : Nat) : Field := ⟨0x701000 + 0x20 * i, 0, 6⟩
/-- VSE_IX_A.PART (R445). -/
abbrev VSE_IX_A_PART (i : Nat) : Field := ⟨0x701000 + 0x20 * i, 6, 4⟩
/-- VSE_IX_A.PRIO (R445). -/
abbrev VSE_IX_A_PRIO (i : Nat) : Field := ⟨0x701000 + 0x20 * i, 10, 3⟩
/-- VSE_IX_A.PIN_CODES (R445). -/
abbrev VSE_IX_A_PIN_CODES (i : Nat) : Field := ⟨0x701000 + 0x20 * i, 13, 1⟩
/-- VSE_IX_A.PIN_VEC (R445). -/
abbrev VSE_IX_A_PIN_VEC (i : Nat) : Field := ⟨0x701000 + 0x20 * i, 14, 1⟩
/-- VSE_IX_A.QPG (R445). -/
abbrev VSE_IX_A_QPG (i : Nat) : Field := ⟨0x701000 + 0x20 * i, 15, 7⟩
/-- VSE_IX_A.SIDE_CAP (R445). -/
abbrev VSE_IX_A_SIDE_CAP (i : Nat) : Field := ⟨0x701000 + 0x20 * i, 22, 25⟩
/-- VSE_IX_A.MERGING (R445). -/
abbrev VSE_IX_A_MERGING (i : Nat) : Field := ⟨0x701000 + 0x20 * i, 47, 1⟩
/-- VSE_IX_B.GEN (R445). -/
abbrev VSE_IX_B_GEN (i : Nat) : Field := ⟨0x701008 + 0x20 * i, 0, 32⟩
/-- VSE_IX_B.SEQ (R445). -/
abbrev VSE_IX_B_SEQ (i : Nat) : Field := ⟨0x701008 + 0x20 * i, 32, 31⟩
/-- VSE_IX_DOCS.DOCS (R445). -/
abbrev VSE_IX_DOCS_DOCS (i : Nat) : Field := ⟨0x701010 + 0x20 * i, 0, 64⟩
/-- VSE_IX_ENERGY.ENERGY_UJ (R445). -/
abbrev VSE_IX_ENERGY_ENERGY_UJ (i : Nat) : Field := ⟨0x701018 + 0x20 * i, 0, 64⟩
/-- FAB_COMP.SEALED (R490). -/
abbrev FAB_COMP_SEALED : Field := ⟨0x900000, 0, 1⟩
/-- FAB_COMP.DEVICES (R490). -/
abbrev FAB_COMP_DEVICES : Field := ⟨0x900000, 1, 15⟩
/-- FAB_TIMER.RTO_BASE_NS (R490). -/
abbrev FAB_TIMER_RTO_BASE_NS : Field := ⟨0x900008, 0, 16⟩
/-- FAB_TIMER.RTO_HOP_NS (R490). -/
abbrev FAB_TIMER_RTO_HOP_NS : Field := ⟨0x900008, 16, 16⟩
/-- FAB_TIMER.RETRY_MAX (R490). -/
abbrev FAB_TIMER_RETRY_MAX : Field := ⟨0x900008, 32, 4⟩
/-- FAB_TIMER.ACK_NS (R490). -/
abbrev FAB_TIMER_ACK_NS : Field := ⟨0x900008, 36, 12⟩
/-- FAB_TIMER.CONNECT_MS (R490). -/
abbrev FAB_TIMER_CONNECT_MS : Field := ⟨0x900008, 48, 8⟩
/-- FAB_TIMER.PFC_WD_MS (R490). -/
abbrev FAB_TIMER_PFC_WD_MS : Field := ⟨0x900008, 56, 8⟩
/-- FAB_REQ.OUTSTANDING (R490). -/
abbrev FAB_REQ_OUTSTANDING : Field := ⟨0x900010, 0, 19⟩
/-- FAB_REQ.HIGH_WATER (R490). -/
abbrev FAB_REQ_HIGH_WATER : Field := ⟨0x900010, 32, 19⟩
/-- FAB_STALE.COUNT (R490). -/
abbrev FAB_STALE_COUNT : Field := ⟨0x900018, 0, 32⟩
/-- FAB_PAIR.PARTNER (R490). -/
abbrev FAB_PAIR_PARTNER : Field := ⟨0x900020, 0, 16⟩
/-- FAB_PAIR.PORTS (R490). -/
abbrev FAB_PAIR_PORTS : Field := ⟨0x900020, 16, 16⟩
/-- FAB_PAIR.HOPS (R490). -/
abbrev FAB_PAIR_HOPS : Field := ⟨0x900020, 32, 4⟩
/-- FAB_CLASS.LOSSLESS (R490). -/
abbrev FAB_CLASS_LOSSLESS (c : Nat) : Field := ⟨0x900100 + 0x8 * c, 0, 1⟩
/-- FAB_CLASS.WEIGHT (R490). -/
abbrev FAB_CLASS_WEIGHT (c : Nat) : Field := ⟨0x900100 + 0x8 * c, 8, 8⟩
/-- FAB_CLASS.XOFF_KIB (R490). -/
abbrev FAB_CLASS_XOFF_KIB (c : Nat) : Field := ⟨0x900100 + 0x8 * c, 16, 16⟩
/-- FAB_PORT.STATE (R490). -/
abbrev FAB_PORT_STATE (p : Nat) : Field := ⟨0x901000 + 0x10 * p, 0, 2⟩
/-- FAB_PORT.SPARE_USED (R490). -/
abbrev FAB_PORT_SPARE_USED (p : Nat) : Field := ⟨0x901000 + 0x10 * p, 2, 1⟩
/-- FAB_PORT.MEDIA (R490). -/
abbrev FAB_PORT_MEDIA (p : Nat) : Field := ⟨0x901000 + 0x10 * p, 3, 1⟩
/-- FAB_PORT.CABLE_M (R490). -/
abbrev FAB_PORT_CABLE_M (p : Nat) : Field := ⟨0x901000 + 0x10 * p, 4, 8⟩
/-- FAB_PORT.STUCK (R490). -/
abbrev FAB_PORT_STUCK (p : Nat) : Field := ⟨0x901000 + 0x10 * p, 12, 8⟩
/-- FAB_PORT.NBR_ADDR (R490). -/
abbrev FAB_PORT_NBR_ADDR (p : Nat) : Field := ⟨0x901000 + 0x10 * p, 32, 16⟩
/-- FAB_PORT.NBR_SEEN (R490). -/
abbrev FAB_PORT_NBR_SEEN (p : Nat) : Field := ⟨0x901000 + 0x10 * p, 48, 1⟩
/-- FAB_PORT_ERR.FCS (R490). -/
abbrev FAB_PORT_ERR_FCS (p : Nat) : Field := ⟨0x901008 + 0x10 * p, 0, 16⟩
/-- FAB_PORT_ERR.FEC_UNCORR (R490). -/
abbrev FAB_PORT_ERR_FEC_UNCORR (p : Nat) : Field := ⟨0x901008 + 0x10 * p, 16, 16⟩
/-- FAB_PORT_ERR.MISDIRECTED (R490). -/
abbrev FAB_PORT_ERR_MISDIRECTED (p : Nat) : Field := ⟨0x901008 + 0x10 * p, 32, 16⟩
/-- FAB_PORT_ERR.PAUSES_RX (R490). -/
abbrev FAB_PORT_ERR_PAUSES_RX (p : Nat) : Field := ⟨0x901008 + 0x10 * p, 48, 16⟩
/-- FAB_ROUTE.ENTRY (R490). -/
abbrev FAB_ROUTE_ENTRY (n : Nat) : Field := ⟨0x910000 + 0x4 * n, 0, 32⟩
/-- FAB_RMAP.DEVICE (R490). -/
abbrev FAB_RMAP_DEVICE (s i : Nat) : Field := ⟨0x920000 + 0x200 * s + 0x8 * i, 0, 16⟩
/-- FAB_RMAP.QP (R490). -/
abbrev FAB_RMAP_QP (s i : Nat) : Field := ⟨0x920000 + 0x200 * s + 0x8 * i, 16, 16⟩
/-- FAB_RMAP.VALID (R490). -/
abbrev FAB_RMAP_VALID (s i : Nat) : Field := ⟨0x920000 + 0x200 * s + 0x8 * i, 32, 1⟩
/-- FLT_RING_BASE.BASE (R526). -/
abbrev FLT_RING_BASE_BASE : Field := ⟨0xa00000, 12, 52⟩
/-- FLT_RING_CFG.LOG2_ENTRIES (R526). -/
abbrev FLT_RING_CFG_LOG2_ENTRIES : Field := ⟨0xa00008, 0, 4⟩
/-- FLT_RING_CFG.VECTOR (R526). -/
abbrev FLT_RING_CFG_VECTOR : Field := ⟨0xa00008, 4, 11⟩
/-- FLT_RING_CFG.ENABLE (R526). -/
abbrev FLT_RING_CFG_ENABLE : Field := ⟨0xa00008, 15, 1⟩
/-- FLT_RING_PTR.PROD (R526). -/
abbrev FLT_RING_PTR_PROD : Field := ⟨0xa0000c, 0, 16⟩
/-- FLT_RING_PTR.CONS (R526). -/
abbrev FLT_RING_PTR_CONS : Field := ⟨0xa0000c, 16, 16⟩
/-- FLT_TIMEOUT_A.ITEM_US (R526). -/
abbrev FLT_TIMEOUT_A_ITEM_US : Field := ⟨0xa00010, 0, 16⟩
/-- FLT_TIMEOUT_A.STEP_WD (R526). -/
abbrev FLT_TIMEOUT_A_STEP_WD : Field := ⟨0xa00010, 16, 4⟩
/-- FLT_TIMEOUT_A.DMA_US (R526). -/
abbrev FLT_TIMEOUT_A_DMA_US : Field := ⟨0xa00010, 32, 16⟩
/-- FLT_TIMEOUT_A.SYNC_MS (R526). -/
abbrev FLT_TIMEOUT_A_SYNC_MS : Field := ⟨0xa00010, 48, 16⟩
/-- FLT_TIMEOUT_B.CTL_ITEM_MS (R526). -/
abbrev FLT_TIMEOUT_B_CTL_ITEM_MS : Field := ⟨0xa00018, 0, 16⟩
/-- FLT_TIMEOUT_B.DRAIN_MS (R526). -/
abbrev FLT_TIMEOUT_B_DRAIN_MS : Field := ⟨0xa00018, 16, 16⟩
/-- FLT_TIMEOUT_B.MIGRATE_MS (R526). -/
abbrev FLT_TIMEOUT_B_MIGRATE_MS : Field := ⟨0xa00018, 32, 16⟩
/-- FLT_TIMEOUT_B.CHOP_MS (R526). -/
abbrev FLT_TIMEOUT_B_CHOP_MS : Field := ⟨0xa00018, 48, 16⟩
/-- FLT_TIMEOUT_C.USB_MS (R526). -/
abbrev FLT_TIMEOUT_C_USB_MS : Field := ⟨0xa00020, 0, 16⟩
/-- FLT_TIMEOUT_C.DEV_LOST_MS (R526). -/
abbrev FLT_TIMEOUT_C_DEV_LOST_MS : Field := ⟨0xa00020, 16, 8⟩
/-- FLT_STALE.COUNT (R526). -/
abbrev FLT_STALE_COUNT : Field := ⟨0xa00024, 0, 32⟩
/-- FLT_FIRST.WORD (R526). -/
abbrev FLT_FIRST_WORD (h w : Nat) : Field := ⟨0xa00100 + 0x40 * h + 0x8 * w, 0, 64⟩
/-- FLT_FIRST_CTL.VALID (R526). -/
abbrev FLT_FIRST_CTL_VALID (h : Nat) : Field := ⟨0xa00120 + 0x40 * h, 0, 1⟩
/-- FLT_LOST.LOST (R526). -/
abbrev FLT_LOST_LOST (h : Nat) : Field := ⟨0xa00180 + 0x4 * h, 0, 16⟩
/-- FLT_LOST.RING_DROP (R526). -/
abbrev FLT_LOST_RING_DROP (h : Nat) : Field := ⟨0xa00180 + 0x4 * h, 16, 16⟩
/-- FLT_UNIT_INSTAR.INSTAR (R526). -/
abbrev FLT_UNIT_INSTAR_INSTAR (u : Nat) : Field := ⟨0xa00200 + 0x4 * u, 0, 24⟩
/-- FLT_SRC.SEV_CE (R526). -/
abbrev FLT_SRC_SEV_CE (n : Nat) : Field := ⟨0xa10000 + 0x8 * n, 0, 2⟩
/-- FLT_SRC.SEV_UE (R526). -/
abbrev FLT_SRC_SEV_UE (n : Nat) : Field := ⟨0xa10000 + 0x8 * n, 2, 2⟩
/-- FLT_SRC.WARNED (R526). -/
abbrev FLT_SRC_WARNED (n : Nat) : Field := ⟨0xa10000 + 0x8 * n, 4, 1⟩
/-- FLT_SRC.WARN_N (R526). -/
abbrev FLT_SRC_WARN_N (n : Nat) : Field := ⟨0xa10000 + 0x8 * n, 8, 8⟩
/-- FLT_SRC.WARN_WINDOW_S (R526). -/
abbrev FLT_SRC_WARN_WINDOW_S (n : Nat) : Field := ⟨0xa10000 + 0x8 * n, 16, 16⟩
/-- FLT_SRC.COUNT (R526). -/
abbrev FLT_SRC_COUNT (n : Nat) : Field := ⟨0xa10000 + 0x8 * n, 32, 16⟩
/-- HIF_CFG.PARTIAL_MS (R567). -/
abbrev HIF_CFG_PARTIAL_MS : Field := ⟨0x100000, 0, 16⟩
/-- HIF_CFG.ACTIVE_PORT (R567). -/
abbrev HIF_CFG_ACTIVE_PORT : Field := ⟨0x100000, 16, 1⟩
/-- HIF_ACC_ERR.VALID (R567). -/
abbrev HIF_ACC_ERR_VALID : Field := ⟨0x100008, 0, 1⟩
/-- HIF_ACC_ERR.WRITE (R567). -/
abbrev HIF_ACC_ERR_WRITE : Field := ⟨0x100008, 1, 1⟩
/-- HIF_ACC_ERR.FUNCTION (R567). -/
abbrev HIF_ACC_ERR_FUNCTION : Field := ⟨0x100008, 2, 6⟩
/-- HIF_ACC_ERR.USB (R567). -/
abbrev HIF_ACC_ERR_USB : Field := ⟨0x100008, 8, 1⟩
/-- HIF_ACC_ERR.OFFSET (R567). -/
abbrev HIF_ACC_ERR_OFFSET : Field := ⟨0x100008, 16, 26⟩
/-- HIF_ACC_ERR.COUNT (R567). -/
abbrev HIF_ACC_ERR_COUNT : Field := ⟨0x100008, 48, 16⟩
/-- HIF_CTX_CTL.PURGE (R567). -/
abbrev HIF_CTX_CTL_PURGE (c : Nat) : Field := ⟨0x101000 + 0x8 * c, 0, 1⟩
/-- HIF_CTX_CTL.PURGING (R567). -/
abbrev HIF_CTX_CTL_PURGING (c : Nat) : Field := ⟨0x101000 + 0x8 * c, 1, 1⟩
/-- HIF_CTX_CTL.CONF (R567). -/
abbrev HIF_CTX_CTL_CONF (c : Nat) : Field := ⟨0x101000 + 0x8 * c, 2, 1⟩
/-- HIF_CTX_CTL.FN_ENABLED (R567). -/
abbrev HIF_CTX_CTL_FN_ENABLED (c : Nat) : Field := ⟨0x101000 + 0x8 * c, 3, 1⟩
/-- HIF_Q_CMD.LOG2_WORDS (R567). -/
abbrev HIF_Q_CMD_LOG2_WORDS (c q : Nat) : Field := ⟨0x180000 + 0x2000 * c + 0x80 * q, 0, 5⟩
/-- HIF_Q_CMD.BASE (R567). -/
abbrev HIF_Q_CMD_BASE (c q : Nat) : Field := ⟨0x180000 + 0x2000 * c + 0x80 * q, 12, 52⟩
/-- HIF_Q_CPL.LOG2_ENTRIES (R567). -/
abbrev HIF_Q_CPL_LOG2_ENTRIES (c q : Nat) : Field := ⟨0x180008 + 0x2000 * c + 0x80 * q, 0, 5⟩
/-- HIF_Q_CPL.BASE (R567). -/
abbrev HIF_Q_CPL_BASE (c q : Nat) : Field := ⟨0x180008 + 0x2000 * c + 0x80 * q, 12, 52⟩
/-- HIF_Q_OUT.LOG2_RECORDS (R567). -/
abbrev HIF_Q_OUT_LOG2_RECORDS (c q : Nat) : Field := ⟨0x180010 + 0x2000 * c + 0x80 * q, 0, 5⟩
/-- HIF_Q_OUT.BASE (R567). -/
abbrev HIF_Q_OUT_BASE (c q : Nat) : Field := ⟨0x180010 + 0x2000 * c + 0x80 * q, 12, 52⟩
/-- HIF_Q_CTL.ENABLE (R567). -/
abbrev HIF_Q_CTL_ENABLE (c q : Nat) : Field := ⟨0x180018 + 0x2000 * c + 0x80 * q, 0, 1⟩
/-- HIF_Q_CTL.STATE (R567). -/
abbrev HIF_Q_CTL_STATE (c q : Nat) : Field := ⟨0x180018 + 0x2000 * c + 0x80 * q, 1, 2⟩
/-- HIF_Q_CTL.FLUSH (R567). -/
abbrev HIF_Q_CTL_FLUSH (c q : Nat) : Field := ⟨0x180018 + 0x2000 * c + 0x80 * q, 3, 1⟩
/-- HIF_Q_CTL.VECTOR (R567). -/
abbrev HIF_Q_CTL_VECTOR (c q : Nat) : Field := ⟨0x180018 + 0x2000 * c + 0x80 * q, 4, 11⟩
/-- HIF_Q_CTL.ARMED (R567). -/
abbrev HIF_Q_CTL_ARMED (c q : Nat) : Field := ⟨0x180018 + 0x2000 * c + 0x80 * q, 15, 1⟩
/-- HIF_Q_CTL.LAST_ERROR (R567). -/
abbrev HIF_Q_CTL_LAST_ERROR (c q : Nat) : Field := ⟨0x180018 + 0x2000 * c + 0x80 * q, 16, 16⟩
/-- HIF_Q_CTL.NOTICE_LOST (R567). -/
abbrev HIF_Q_CTL_NOTICE_LOST (c q : Nat) : Field := ⟨0x180018 + 0x2000 * c + 0x80 * q, 32, 16⟩
/-- HIF_Q_PTR.CMD_HEAD (R567). -/
abbrev HIF_Q_PTR_CMD_HEAD (c q : Nat) : Field := ⟨0x180020 + 0x2000 * c + 0x80 * q, 0, 32⟩
/-- HIF_Q_PTR.CPL_TAIL (R567). -/
abbrev HIF_Q_PTR_CPL_TAIL (c q : Nat) : Field := ⟨0x180020 + 0x2000 * c + 0x80 * q, 32, 32⟩
/-- SEC_STATUS.BOOT_SLOT (R567). -/
abbrev SEC_STATUS_BOOT_SLOT : Field := ⟨0xe00000, 0, 1⟩
/-- SEC_STATUS.KEYS_PRESENT (R567). -/
abbrev SEC_STATUS_KEYS_PRESENT : Field := ⟨0xe00000, 1, 1⟩
/-- SEC_STATUS.DEBUG_UNLOCKED (R567). -/
abbrev SEC_STATUS_DEBUG_UNLOCKED : Field := ⟨0xe00000, 2, 1⟩
/-- SEC_STATUS.SVN (R567). -/
abbrev SEC_STATUS_SVN : Field := ⟨0xe00000, 8, 8⟩
/-- SEC_STATUS.KEY_GEN (R567). -/
abbrev SEC_STATUS_KEY_GEN : Field := ⟨0xe00000, 16, 16⟩
/-- SEC_STATUS.START_COUNT (R567). -/
abbrev SEC_STATUS_START_COUNT : Field := ⟨0xe00000, 32, 32⟩
/-- DBG_CFG.PROFILE_EN (R567). -/
abbrev DBG_CFG_PROFILE_EN : Field := ⟨0xf00000, 0, 1⟩
/-- DBG_CFG.INVASIVE (R567). -/
abbrev DBG_CFG_INVASIVE : Field := ⟨0xf00000, 1, 1⟩
/-- DBG_PART_BUSY.CYCLES (R567). -/
abbrev DBG_PART_BUSY_CYCLES (p : Nat) : Field := ⟨0xf00100 + 0x8 * p, 0, 64⟩
/-- PWR_CFG.MARGIN_NS (R585). -/
abbrev PWR_CFG_MARGIN_NS : Field := ⟨0xd00000, 0, 16⟩
/-- PWR_CFG.MARGIN_PCT (R585). -/
abbrev PWR_CFG_MARGIN_PCT : Field := ⟨0xd00000, 16, 8⟩
/-- PWR_CFG.MAX_SERVING (R585). -/
abbrev PWR_CFG_MAX_SERVING : Field := ⟨0xd00000, 24, 2⟩
/-- PWR_CFG.I3_MIN_US (R585). -/
abbrev PWR_CFG_I3_MIN_US : Field := ⟨0xd00000, 32, 16⟩
/-- PWR_CFG.IDLE_MS (R585). -/
abbrev PWR_CFG_IDLE_MS : Field := ⟨0xd00000, 48, 16⟩
/-- PWR_ISLANDS.I0 (R585). -/
abbrev PWR_ISLANDS_I0 : Field := ⟨0xd00008, 0, 12⟩
/-- PWR_ISLANDS.I1 (R585). -/
abbrev PWR_ISLANDS_I1 : Field := ⟨0xd00008, 16, 12⟩
/-- PWR_ISLANDS.I2 (R585). -/
abbrev PWR_ISLANDS_I2 : Field := ⟨0xd00008, 32, 12⟩
/-- PWR_ISLANDS.I3 (R585). -/
abbrev PWR_ISLANDS_I3 : Field := ⟨0xd00008, 48, 12⟩
/-- PWR_ENERGY.UJ (R585). -/
abbrev PWR_ENERGY_UJ : Field := ⟨0xd00010, 0, 64⟩
/-- PWR_POWER.MW (R585). -/
abbrev PWR_POWER_MW : Field := ⟨0xd00018, 0, 32⟩
/-- EVC_SRC.GROUP (R585). -/
abbrev EVC_SRC_GROUP (n : Nat) : Field := ⟨0xb00000 + 0x4 * n, 0, 6⟩
/-- EVC_SRC.ENABLE (R585). -/
abbrev EVC_SRC_ENABLE (n : Nat) : Field := ⟨0xb00000 + 0x4 * n, 6, 1⟩
/-- EVC_SRC.LATCHED (R585). -/
abbrev EVC_SRC_LATCHED (n : Nat) : Field := ⟨0xb00000 + 0x4 * n, 7, 1⟩
/-- EVC_SRC.MERGED (R585). -/
abbrev EVC_SRC_MERGED (n : Nat) : Field := ⟨0xb00000 + 0x4 * n, 8, 8⟩
/-- EVC_GROUP.CORE (R585). -/
abbrev EVC_GROUP_CORE (g : Nat) : Field := ⟨0xb02000 + 0x8 * g, 0, 4⟩
/-- EVC_GROUP.VECTOR (R585). -/
abbrev EVC_GROUP_VECTOR (g : Nat) : Field := ⟨0xb02000 + 0x8 * g, 4, 8⟩
/-- EVC_GROUP.HOLDOFF_NS (R585). -/
abbrev EVC_GROUP_HOLDOFF_NS (g : Nat) : Field := ⟨0xb02000 + 0x8 * g, 16, 16⟩
/-- EVC_GROUP.HELD (R585). -/
abbrev EVC_GROUP_HELD (g : Nat) : Field := ⟨0xb02000 + 0x8 * g, 32, 1⟩
/-- EVC_GROUP.PENDING (R585). -/
abbrev EVC_GROUP_PENDING (g : Nat) : Field := ⟨0xb02000 + 0x8 * g, 40, 12⟩
/-- EVC_TIMER.AT (R585). -/
abbrev EVC_TIMER_AT (k : Nat) : Field := ⟨0xb03000 + 0x8 * k, 0, 64⟩
/-- EVC_STATUS.LATCHED (R585). -/
abbrev EVC_STATUS_LATCHED : Field := ⟨0xb03200, 0, 12⟩
/-- EVC_STATUS.DELIVERED (R585). -/
abbrev EVC_STATUS_DELIVERED : Field := ⟨0xb03200, 16, 16⟩
/-- PWR_RAILS.VIN_MV (R599). -/
abbrev PWR_RAILS_VIN_MV : Field := ⟨0xd00020, 0, 16⟩
/-- PWR_RAILS.VSB_MV (R599). -/
abbrev PWR_RAILS_VSB_MV : Field := ⟨0xd00020, 16, 16⟩
/-- PWR_RAILS.VIN_LOW (R599). -/
abbrev PWR_RAILS_VIN_LOW : Field := ⟨0xd00020, 32, 1⟩
/-- PWR_RAILS.VIN_HIGH (R599). -/
abbrev PWR_RAILS_VIN_HIGH : Field := ⟨0xd00020, 33, 1⟩
/-- PWR_RAILS.PWRFAIL (R599). -/
abbrev PWR_RAILS_PWRFAIL : Field := ⟨0xd00020, 34, 1⟩
/-- PWR_THERM.TJ_MAX_C (R599). -/
abbrev PWR_THERM_TJ_MAX_C : Field := ⟨0xd00028, 0, 8⟩
/-- PWR_THERM.THROTTLED (R599). -/
abbrev PWR_THERM_THROTTLED : Field := ⟨0xd00028, 8, 1⟩
/-- PWR_THERM.ALL_LIMITED (R599). -/
abbrev PWR_THERM_ALL_LIMITED : Field := ⟨0xd00028, 9, 1⟩
/-- PWR_THERM.TRIPPED (R599). -/
abbrev PWR_THERM_TRIPPED : Field := ⟨0xd00028, 10, 1⟩

end Sys2Proof.Machine
end

