-- ==== Sys2Proof/Machine/Ops.lean ====
section
/-! DEFINITION. The shared operations: sparse tables and memories, registers, the status and fault plumbing of the block, the
completion of control items, and the wrapper every control item goes through. -/

namespace Sys2Proof.Machine

/-! ### Sparse tables -/

/-- The entry of a key. -/
def mget {α : Type} : Map α → Nat → Option α
  | [], _ => none
  | (j, v) :: r, k => if j = k then some v else mget r k

/-- Writes an entry, keeping keys strictly rising. -/
def mset {α : Type} : Map α → Nat → α → Map α
  | [], k, v => [(k, v)]
  | (j, w) :: r, k, v =>
    if k < j then (k, v) :: (j, w) :: r else if k = j then (k, v) :: r else (j, w) :: mset r k v

/-- Removes an entry. -/
def mdel {α : Type} : Map α → Nat → Map α
  | [], _ => []
  | (j, w) :: r, k => if j = k then r else (j, w) :: mdel r k

/-- Keys all above `k`, strictly rising. -/
def mabove {α : Type} : Nat → Map α → Bool
  | _, [] => true
  | k, (j, _) :: r => decide (k < j) && mabove j r

/-- The canonical form of a table: keys strictly rising. -/
def mwf {α : Type} : Map α → Bool
  | [] => true
  | (j, _) :: r => mabove j r

/-- Number of entries that meet a test. -/
def mcount {α : Type} (m : Map α) (f : Nat → α → Bool) : Nat :=
  m.countP fun e => f e.1 e.2

/-! ### Byte memories: an unlisted address reads as 0 (log entries 5 to 8) -/

/-- One byte. -/
def rdByte (m : Map Byte) (a : Nat) : Byte := (mget m a).getD 0

/-- Writes one byte; a zero removes the entry. -/
def wrByte (m : Map Byte) (a : Nat) (b : Byte) : Map Byte :=
  if b = 0 then mdel m a else mset m a b

/-- Canonical form of a byte memory: addresses strictly rising, no entry that an unlisted address would read as. -/
def Memory.wf (m : Map Byte) : Bool := mwf m && m.all fun e => decide (e.2 ≠ 0)

/-- `n` bytes from address `a`. -/
def rdBytes (m : Map Byte) : Nat → Nat → List Byte
  | _, 0 => []
  | a, n + 1 => rdByte m a :: rdBytes m (a + 1) n

/-- Writes a byte string at `a`. -/
def wrBytes : Map Byte → Nat → List Byte → Map Byte
  | m, _, [] => m
  | m, a, b :: bs => wrBytes (wrByte m a b) (a + 1) bs

/-- Replaces the `n` bytes from `a` on by a table of bytes by place. -/
def overlay (m : Map Byte) (a n : Nat) (new : Map Byte) : Map Byte :=
  new.foldl (fun m x => if x.1 < n then wrByte m (a + x.1) x.2 else m)
    (m.filter fun x => decide (x.1 < a) || decide (a + n ≤ x.1))

/-- The value of little-endian bytes (R3). -/
def leNat : List Byte → Nat
  | [] => 0
  | b :: bs => b.toNat + 256 * leNat bs

/-- `n` little-endian bytes of a value (R3). -/
def leBytes : Nat → Nat → List Byte
  | 0, _ => []
  | n + 1, x => BitVec.ofNat 8 x :: leBytes n (x / 256)

/-- `n` bytes as a little-endian number. -/
def rdLE (m : Map Byte) (a n : Nat) : Nat := leNat (rdBytes m a n)

/-- Bits [lo + w - 1 : lo] of a number (R4). -/
def bits (x lo w : Nat) : Nat := x / 2 ^ lo % 2 ^ w

/-- Bit `i` of a number. -/
def bitOf (x i : Nat) : Bool := x / 2 ^ i % 2 = 1

/-- 1 for true. -/
def b2n (b : Bool) : Nat := if b then 1 else 0

/-- The signed value of the low `w` bits. -/
def sgn (x w : Nat) : Int :=
  let v := x % 2 ^ w
  if v < 2 ^ (w - 1) then v else (v : Int) - 2 ^ w

/-! ### Registers (R7, R19, R28 and the other register tables) -/

/-- Index of an offset in a family of registers: each dimension divides what remains. -/
def dimsAt (bytes : Nat) : List (Nat × Nat) → Nat → Option (List Nat × Nat)
  | [], rel => if rel < bytes then some ([], rel) else none
  | (st, n) :: ds, rel =>
    if rel / st < n then (dimsAt bytes ds (rel % st)).map fun r => (rel / st :: r.1, r.2) else none

/-- The register that holds a BAR0 offset: its description, its indices, and the byte within it. -/
def regAt (off : Nat) : Option (RegDesc × List Nat × Nat) :=
  regTable.findSome? fun d =>
    if d.base ≤ off then (dimsAt (d.bits / 8) d.dims (off - d.base)).map fun r => (d, r) else none

/-- Fault sources that the table of R494 assigns. -/
def srcAssigned (n : Nat) : Bool :=
  n ≤ 0x7DF || (0x800 ≤ n && n ≤ 0x97F) || (0x980 ≤ n && n ≤ 0x9BB) || (0xA00 ≤ n && n ≤ 0xA5F) ||
  (0xA80 ≤ n && n ≤ 0xAFF) || (0xB00 ≤ n && n ≤ 0xB1F) || (0xB40 ≤ n && n ≤ 0xB5F) || (0xC00 ≤ n && n ≤ 0xC3F) ||
  (0xD00 ≤ n && n ≤ 0xD03) || (0xE00 ≤ n && n ≤ 0xE3F)

/-- SerDes fault sources: fabric port units 0 to 4 and bay units 0 to 5 (R494). -/
def srcSerdes (n : Nat) : Bool :=
  (0xA80 ≤ n && n ≤ 0xAFF && n % 8 ≤ 4) || (0xB00 ≤ n && n ≤ 0xB1F && n % 8 ≤ 5)

/-- Warning count and window at reset (R510). -/
def warnReset (n : Nat) : Nat × Nat :=
  if n ≤ 0x7DF then (16, 3600)
  else if (0x800 ≤ n && n ≤ 0x97F) || (0x9B0 ≤ n && n ≤ 0x9BB) then (64, 3600)
  else if 0x980 ≤ n && n ≤ 0x9AF then (16, 3600)
  else if srcSerdes n then (4, 1)
  else if 0xB40 ≤ n && n ≤ 0xB5F then (16, 3600)
  else (0, 0)

/-- Event sources that the table of R575 assigns. -/
def evtAssigned (n : Nat) : Bool :=
  n ≤ 0x405 || (0x410 ≤ n && n ≤ 0x417) || (0x420 ≤ n && n ≤ 0x42F) || (0x440 ≤ n && n ≤ 0x4BF) || (0x600 ≤ n && n ≤ 0x7FF)

/-- Reset values that depend on the register's index (R363, R490, R510, R585) or are fused (R28). -/
def specialReset (off : Nat) : Word :=
  if off = 0x8 then Config.serial
  else if off = 0x501000 then BitVec.ofNat 64 (2 ^ (TOK_GRAM_A_LOADED 0).lo + 2 ^ (TOK_GRAM_A_NSTATES 0).lo)
  else if 0x900100 ≤ off ∧ off < 0x900140 then
    let c := (off - 0x900100) / 8
    BitVec.ofNat 64 ((if 1 ≤ c ∧ c ≤ 6 then 2 ^ (FAB_CLASS_LOSSLESS c).lo else 0) +
      (if c = 3 then 4 else if c = 2 then 2 else if c = 1 then 1 else 0) * 2 ^ (FAB_CLASS_WEIGHT c).lo)
  else if 0xA10000 ≤ off ∧ off < 0xA18000 then
    let w := warnReset ((off - 0xA10000) / 8)
    BitVec.ofNat 64 (w.1 * 2 ^ 8 + w.2 * 2 ^ 16)
  else if 0xB00000 ≤ off ∧ off < 0xB02000 then
    let n := (off - 0xB00000) / 4
    BitVec.ofNat 64 (n / 32 + b2n (evtAssigned n) * 2 ^ 6)
  else if 0xB02000 ≤ off ∧ off < 0xB02200 then
    let g := (off - 0xB02000) / 8
    BitVec.ofNat 64 (g % 16 + g * 2 ^ 4)
  else 0

/-- The reset value of the register at an offset. -/
def resetWord (off : Nat) : Word :=
  match regAt off with
  | none => 0
  | some (d, _, _) =>
    d.fields.foldl (fun a f => a ||| BitVec.ofNat 64 (f.reset * 2 ^ f.lo)) (specialReset off)

/-- The register at an offset. -/
def State.reg (s : State) (off : Nat) : Word := (mget s.regs off).getD (resetWord off)

/-- Writes a register; a value equal to the reset value leaves no entry. -/
def State.setReg (s : State) (off : Nat) (w : Word) : State :=
  { s with regs := if w = resetWord off then mdel s.regs off else mset s.regs off w }

/-- A word with one field replaced. -/
def putField (x : Word) (lo w v : Nat) : Word :=
  let mask : Word := BitVec.ofNat 64 ((2 ^ w - 1) * 2 ^ lo)
  (x &&& ~~~ mask) ||| (BitVec.ofNat 64 (v % 2 ^ w * 2 ^ lo))

/-- A field of a register. -/
def State.fld (s : State) (f : Field) : Nat := bits (s.reg f.off).toNat f.lo f.w

/-- Sets a field of a register. -/
def State.setFld (s : State) (f : Field) (v : Nat) : State :=
  s.setReg f.off (putField (s.reg f.off) f.lo f.w v)

/-- Adds to a counter field that saturates. -/
def State.incSat (s : State) (f : Field) (n : Nat) : State :=
  s.setFld f (min (s.fld f + n) (2 ^ f.w - 1))

/-- Adds to a counter field that wraps. -/
def State.incWrap (s : State) (f : Field) (n : Nat) : State :=
  s.setFld f (s.fld f + n)

/-- Takes from a count, stopping at zero. -/
def State.decFld (s : State) (f : Field) (n : Nat) : State :=
  s.setFld f (s.fld f - n)

/-- A flag field. -/
def State.flag (s : State) (f : Field) : Bool := s.fld f ≠ 0

/-- Device time (R6, R23). -/
def State.now (s : State) : Nat := s.clk.now

/-- Whether the device is out of reset: PORST_N released, and the supplies not holding it (R589, R590). -/
def State.awake (s : State) : Bool := s.pins.porstN && !s.pins.ovHold

/-- One nanosecond of device time: slewing makes it two or none at most once in 20,000 ns, 50 µs in a second (R24). -/
def tickClock (c : ClkBlock) : ClkBlock :=
  if c.slew ≠ 0 ∧ c.slewAt + 20000 ≤ c.now then
    if 0 < c.slew then { c with now := c.now + 2, slew := c.slew - 1, slewAt := c.now }
    else { c with slew := c.slew + 1, slewAt := c.now }
  else { c with now := c.now + 1 }

/-- What a step does when no command waits: device time counts one nanosecond while the part is out of reset (R6, R23, log
entry 1). -/
def idleTick (s : State) : State :=
  if s.awake then { s with clk := tickClock s.clk } else s

/-- Draws the next free value (log entry 12). -/
def State.draw (s : State) : Word × State :=
  (Config.freeWord s.freeCtr, { s with freeCtr := s.freeCtr + 1 })

/-! ### Events (15 R575, R576) -/

/-- Leaves D1 for D0 (R573). -/
def leaveD1 (s : State) : State :=
  if s.fld GLB_STATE_DEV_STATE = 1 then
    let s := s.setFld GLB_STATE_DEV_STATE 0
    { s with isl := { s.isl with selfRefresh := false, idleSince := s.now } }
  else s

/-- An edge on an event source: sets its latch or counts a folded edge, and takes the device out of D1 (R573, R576). -/
def edge (s : State) (n : Nat) : State :=
  if evtAssigned n && s.pins.standby then
    let g := s.fld (EVC_SRC_GROUP n)
    let s := if s.flag (EVC_SRC_LATCHED n) then s.incSat (EVC_SRC_MERGED n) 1
      else
        let s := s.setFld (EVC_SRC_LATCHED n) 1
        let s := s.incSat EVC_STATUS_LATCHED 1
        if s.flag (EVC_SRC_ENABLE n) then s.incSat (EVC_GROUP_PENDING g) 1 else s
    leaveD1 s
  else s

/-- A capacity change (R29, R143): the event, and a re-evaluation due. -/
def capacityChange (s : State) : State :=
  let s := edge s 0x401
  { s with mkr := { s.mkr with due := true } }

/-! ### Faults (13 R494 to R500) -/

/-- Whether hub `h` is in service (R28 GLB_RES1.HUB_OK). -/
def State.hubOk (s : State) (h : Nat) : Bool := bitOf (s.fld GLB_RES1_HUB_OK) h

/-- Whether hub `h` has not been declared lost: the bits of GLB_RES1 are set at the end of phase 0x4 (15 R579). -/
def State.hubUp (s : State) (h : Nat) : Bool := s.hubOk h || decide (s.fld GLB_STATE_START_PHASE ≤ 4)

/-- The collector that serves a source: by hub and half of the grid, or the one hub in service (R494). -/
def collector (s : State) (n : Nat) : Nat :=
  let home :=
    if n ≤ 0x7DF then (if n / 168 < 6 then 0 else 1)
    else if n ≤ 0x97F then (if (n - 0x800) / 32 < 6 then 0 else 1)
    else if n ≤ 0x9AF then (if (n - 0x980) / 4 < 6 then 0 else 1)
    else if n ≤ 0x9BB then (if n - 0x9B0 < 6 then 0 else 1)
    else if n ≤ 0xA5F then (if n - 0xA00 < 48 then 0 else 1)
    else if n ≤ 0xAFF then (if (n - 0xA80) / 8 < 8 then 0 else 1)
    else if n ≤ 0xB1F then (if (n - 0xB00) / 8 < 2 then 0 else 1)
    else if n ≤ 0xB5F then (n - 0xB40) / 16
    else s.fld GLB_STATE_ACTIVE_HUB
  if s.hubUp home || !s.hubUp (1 - home) then home else 1 - home

/-- Kinds that are correctable (R498). -/
def kindCorrectable (k : Nat) : Bool := [0x01, 0x04, 0x05, 0x08, 0x0B, 0x11].contains k

/-- The instar of a source unit (R498, R505): formes, hubs and channel engines have registers; others show 0. -/
def sourceInstar (s : State) (n : Nat) : Nat :=
  if n ≤ 0x7DF then
    if s.fld (FRM_CELL_STAT_STATE (n / 168) (n % 168)) = 1 then
      s.fld (FRM_CELL_MAP_INSTAR (n / 168) (s.fld (FRM_CELL_STAT_SVC (n / 168) (n % 168))))
    else 0
  else if 0x980 ≤ n ∧ n ≤ 0x9AF then s.fld (FLT_UNIT_INSTAR_INSTAR ((n - 0x980) / 4))
  else if 0xA00 ≤ n ∧ n ≤ 0xA5F then s.fld (FLT_UNIT_INSTAR_INSTAR (14 + (n - 0xA00)))
  else if 0xB40 ≤ n ∧ n ≤ 0xB5F then s.fld (FLT_UNIT_INSTAR_INSTAR (12 + (n - 0xB40) / 16))
  else 0

/-- Latches an error at its source; a correctable one is also counted for the warning of R510. One that finds the latch full is
lost, and counted only as such (R500). -/
def fault (s : State) (source kind status : Nat) (address : Word) (master : Nat := 0xFFFF) (access : Nat := 0) : State :=
  if srcAssigned source then
    match mget s.flt.latch source with
    | some _ => s.incSat (FLT_LOST_LOST (collector s source)) 1
    | none =>
      let m : FaultMsg := { source, kind, status, address, instar := sourceInstar s source, master, access, time := s.now }
      let s := { s with flt := { s.flt with latch := mset s.flt.latch source m } }
      if kindCorrectable kind then
        let s := s.incSat (FLT_SRC_COUNT source) 1
        { s with flt := { s.flt with times := mset s.flt.times source (((mget s.flt.times source).getD []) ++ [s.now]) } }
      else s
  else s

/-! ### Host memory and the queues (14) -/

/-- Key of a byte of a function's host memory. -/
def hostKey (fn a : Nat) : Nat := fn * 2 ^ 64 + a % 2 ^ 64

/-- Bytes of host memory. -/
def State.hostRd (s : State) (fn a n : Nat) : List Byte := rdBytes s.host.mem (hostKey fn a) n

/-- Writes bytes of host memory. -/
def State.hostWr (s : State) (fn a : Nat) (bs : List Byte) : State :=
  { s with host := { s.host with mem := wrBytes s.host.mem (hostKey fn a) bs } }

/-- A queue at reset. -/
def queue0 : Queue where
  cmdTail := 0
  cplHead := 0
  outHead := 0
  entries := 0
  records := 0
  backlog := []
  waiting := []
  started := []
  partialAt := none
  nonce := 0
  cplCtr := 1
  outCtr := 1
  mute := []

/-- A queue of a context. -/
def State.queue (s : State) (c q : Nat) : Queue := (mget s.host.queues (16 * c + q)).getD queue0

/-- Writes a queue. -/
def State.setQueue (s : State) (c q : Nat) (x : Queue) : State :=
  { s with host := { s.host with queues := mset s.host.queues (16 * c + q) x } }

/-- Whether a context is confidential (R541). -/
def State.conf (s : State) (c : Nat) : Bool := s.flag (HIF_CTX_CTL_CONF c)

/-- The context's transport key. -/
def State.ctkOf (s : State) (c : Nat) : BitVec 256 := (mget s.host.ctk c).getD 0

/-- Bytes 0 to 15 of a seal header (R542). -/
def sealHead (nonce kind len chunk queue operand : Nat) : List Byte :=
  leBytes 7 nonce ++ leBytes 1 kind ++ leBytes 4 len ++ leBytes 3 chunk ++ leBytes 1 (queue + 16 * operand)

/-- The GCM IV of a unit (R543). -/
def sealIv (nonce kind chunk queue operand : Nat) : BitVec 96 :=
  BitVec.ofNat 96 (kind + queue * 2 ^ 8 + operand * 2 ^ 12 + chunk * 2 ^ 16 + nonce * 2 ^ 40)

/-- A sealed unit: header, tag, ciphertext (R542). -/
def sealUnit (s : State) (c q kind operand chunk nonce : Nat) (pt : List Byte) : List Byte :=
  let h := sealHead nonce kind pt.length chunk q operand
  let r := Config.gcmSeal (s.ctkOf c) (sealIv nonce kind chunk q operand) h pt
  h ++ r.2 ++ r.1

/-- Opens the unit at a host address; none where its header is not the one implied or its tag fails (R546, R547). -/
def openUnit (s : State) (c q kind operand chunk nonce a len : Nat) : Option (List Byte) :=
  let h := s.hostRd c a 16
  if h = sealHead nonce kind len chunk q operand then
    Config.gcmOpen (s.ctkOf c) (sealIv nonce kind chunk q operand) h (s.hostRd c (a + 32) len) (s.hostRd c (a + 16) 16)
  else none

/-- Opens `n` chunks of an operand from chunk `k` on (R545). -/
def openChunks (s : State) (c q operand nonce a : Nat) : Nat → Nat → Nat → Option (List Byte)
  | 0, _, _ => some []
  | n + 1, k, len => do
    let part ← openUnit s c q 2 operand k nonce (a + 4128 * k) (min 4096 len)
    let rest ← openChunks s c q operand nonce a n (k + 1) (len - 4096)
    return part ++ rest

/-- Writes an operand as sealed chunks from chunk `k` on (R545). -/
def sealChunks (s : State) (c q operand nonce a : Nat) : Nat → Nat → List Byte → State
  | 0, _, _ => s
  | n + 1, k, bs =>
    sealChunks (s.hostWr c (a + 4128 * k) (sealUnit s c q 5 operand k nonce (bs.take 4096))) c q operand nonce a n (k + 1)
      (bs.drop 4096)

/-- NONCE of the item at a queue position (R544). -/
def itemNonce (s : State) (src : Src) : Nat :=
  (((s.queue src.ctx src.queue).started.find? fun i => i.qpos = src.qpos).map (·.nonce)).getD 0

/-- Reads an item's data from host memory, sealed for a confidential context: the bytes, or the status that ends the item. -/
def hostRead (s : State) (src : Src) (operand a len : Nat) : Except Nat (List Byte) :=
  if s.conf src.ctx then
    match openChunks s src.ctx src.queue operand (itemNonce s src) a ((len + 4095) / 4096) 0 len with
    | some bs => .ok bs
    | none => .error 0xB012
  else .ok (s.hostRd src.ctx a len)

/-- Writes an item's data to host memory, sealed for a confidential context. -/
def hostWrite (s : State) (src : Src) (operand a : Nat) (bs : List Byte) : State :=
  if s.conf src.ctx then
    sealChunks s src.ctx src.queue operand (itemNonce s src) a ((bs.length + 4095) / 4096) 0 bs
  else s.hostWr src.ctx a bs

/-- SPACE of a device-external address (R236). -/
def spaceOf (a : Word) : Nat := bits a.toNat 60 4

/-- Whether an address under R236 has a known SPACE, its fields in range, and no reserved bit set. -/
def addrOk (a : Word) (control : Bool) : Bool :=
  match spaceOf a with
  | 0 => bits a.toNat 39 21 = 0
  | 1 => bits a.toNat 33 27 = 0 && bits a.toNat 22 11 < 1920
  | 2 => bits a.toNat 39 5 = 0
  | 4 => control
  | _ => false

/-- The 32-byte units of HBM that a range touches. -/
def hbmUnits (a len : Nat) : List Nat := (List.range ((a % 32 + len + 31) / 32)).map (a / 32 + ·)

/-- Whether a range of HBM holds poisoned data (R289). -/
def hbmPoisoned (s : State) (a len : Nat) : Bool := (hbmUnits a len).any fun u => s.hbmBad.contains u

/-- Writes HBM; a whole unit written is clean again. -/
def hbmWrite (s : State) (a : Nat) (bs : List Byte) : State :=
  { s with hbm := wrBytes s.hbm a bs,
           hbmBad := s.hbmBad.filter fun u => !(decide (a ≤ 32 * u) && decide (32 * u + 32 ≤ a + bs.length)),
           hbmWeak := s.hbmWeak.filter fun u => !(decide (a ≤ 32 * u) && decide (32 * u + 32 ≤ a + bs.length)) }

/-- A cell before it runs anything. -/
def cell0 : Cell where
  s := []
  v := []
  p := []
  t := []
  w := []
  pc := 0
  status := 0
  epc := 0
  mem := []
  poison := []
  weak := []
  istore := []
  desc := []
  recv := []
  wait := none
  tmma := none
  run := .idle
  part := 0
  slice := 0
  rank := 0
  cells := 0

/-- A cell by its device cell number. -/
def State.cell (s : State) (n : Nat) : Cell := (mget s.cells n).getD cell0

/-- Writes a cell. -/
def State.setCell (s : State) (n : Nat) (c : Cell) : State := { s with cells := mset s.cells n c }

/-- Reads a control item's operand at an address under R236: the bytes, or the status that ends the item. -/
def itemRead (s : State) (src : Src) (operand : Nat) (a : Word) (len : Nat) : Except Nat (List Byte) :=
  if !addrOk a true then .error 0x5020
  else match spaceOf a with
    | 0 => let b := bits a.toNat 0 39
      if hbmPoisoned s b len then .error 0x5025 else .ok (rdBytes s.hbm b len)
    | 1 => .ok (rdBytes (s.cell (bits a.toNat 22 11)).mem (bits a.toNat 0 22) len)
    | 2 => .ok (Config.remoteBytes (bits a.toNat 44 16) (bits a.toNat 0 39) len s.freeCtr)
    | _ => hostRead s src operand (bits a.toNat 0 60) len

/-- Writes a control item's result at an address under R236: the state, or the status that ends the item. -/
def itemWrite (s : State) (src : Src) (operand : Nat) (a : Word) (bs : List Byte) : Except Nat State :=
  if !addrOk a true then .error 0x5020
  else match spaceOf a with
    | 0 => .ok (hbmWrite s (bits a.toNat 0 39) bs)
    | 1 =>
      let n := bits a.toNat 22 11
      .ok (s.setCell n { s.cell n with mem := wrBytes (s.cell n).mem (bits a.toNat 0 22) bs })
    | 2 => .ok s
    | _ => .ok (hostWrite s src operand (bits a.toNat 0 60) bs)

/-! ### Completions and notices (14 R535 to R538) -/

/-- The MSI-X vector a field acts as (R530). -/
def vectorOf (fn v : Nat) : Nat := min v (if fn = 0 then 2047 else 63)

/-- Sends an MSI-X message. -/
def msix (s : State) (fn v : Nat) : State :=
  { s with host := { s.host with msix := s.host.msix ++ [(fn, vectorOf fn v)] } }

/-- A completion entry with its PHASE (R535, R536). -/
def entryBytes (e : Completion) (phase : Nat) : List Byte :=
  leBytes 8 (e.status + e.opcode * 2 ^ 16 + b2n e.notice * 2 ^ 24 + phase * 2 ^ 25 + e.reason * 2 ^ 26 + e.qpos * 2 ^ 32) ++
  leBytes 8 e.result.toNat ++ leBytes 8 e.object.toNat ++ leBytes 8 e.tag.toNat

/-- Entries of a queue's completion ring not yet consumed. -/
def unconsumed (x : Queue) : Nat := (x.entries + 2 ^ 32 - x.cplHead % 2 ^ 32) % 2 ^ 32

/-- Room in a queue's completion ring (R537); none once its counter is exhausted (R544). -/
def cplRoom (s : State) (c q : Nat) : Nat :=
  if s.conf c && decide (2 ^ 56 ≤ (s.queue c q).cplCtr) then 0 else 2 ^ s.fld (HIF_Q_CPL_LOG2_ENTRIES c q) - unconsumed (s.queue c q)

/-- Sets a queue to ERROR (R540). -/
def queueError (s : State) (c q st : Nat) : State :=
  let s := (s.setFld (HIF_Q_CTL_STATE c q) 3).setFld (HIF_Q_CTL_LAST_ERROR c q) st
  s.setQueue c q { s.queue c q with partialAt := none }

/-- Writes the next entry of a queue and signals it while the queue is armed (R536, R538, R545). -/
def writeEntry (s : State) (c q : Nat) (e : Completion) : State :=
  let x := s.queue c q
  let l := s.fld (HIF_Q_CPL_LOG2_ENTRIES c q)
  let base := s.fld (HIF_Q_CPL_BASE c q) * 4096
  let i := x.entries % 2 ^ l
  let s :=
    if s.conf c then
      (s.hostWr c (base + 64 * i) (sealUnit s c q 3 0 0 x.cplCtr (entryBytes e 0))).setQueue c q
        { x with entries := x.entries + 1, cplCtr := x.cplCtr + 1 }
    else
      (s.hostWr c (base + 32 * i) (entryBytes e (1 - x.entries / 2 ^ l % 2))).setQueue c q
        { x with entries := x.entries + 1 }
  let s := s.setFld (HIF_Q_PTR_CPL_TAIL c q) (x.entries + 1)
  let s := if s.conf c && decide (2 ^ 56 ≤ x.cplCtr + 1) then queueError s c q 0xB013 else s
  if s.flag (HIF_Q_CTL_ARMED c q) then
    (msix s c (s.fld (HIF_Q_CTL_VECTOR c q))).setFld (HIF_Q_CTL_ARMED c q) 0
  else s

/-- Writes an entry, or leaves it waiting while the queue is DISABLED or the ring is full (R537). -/
def post (s : State) (c q : Nat) (e : Completion) : State :=
  let x := s.queue c q
  if s.fld (HIF_Q_CTL_STATE c q) ≠ 0 && x.backlog.isEmpty && decide (0 < cplRoom s c q) then writeEntry s c q e
  else if e.notice && decide (1024 ≤ x.backlog.countP (·.notice)) then s.incSat (HIF_Q_CTL_NOTICE_LOST c q) 1
  else s.setQueue c q { x with backlog := x.backlog ++ [e] }

/-- Writes waiting entries while there is room (R537). -/
def drainList (c q : Nat) : List Completion → State → State
  | [], s => s
  | e :: es, s =>
    if s.fld (HIF_Q_CTL_STATE c q) ≠ 0 && decide (0 < cplRoom s c q) then
      drainList c q es ((writeEntry s c q e).setQueue c q { (writeEntry s c q e).queue c q with backlog := es })
    else s

/-- Writes the backlog of a queue as ring room appears (R537). -/
def drainBacklog (s : State) (c q : Nat) : State := drainList c q (s.queue c q).backlog s

/-- Completes an item: its entry is written, unless a function-level reset came while it was started (R535, R566). -/
def complete (s : State) (src : Src) (op status : Nat) (result object tag : Word) : State :=
  let x := s.queue src.ctx src.queue
  let x' := { x with started := x.started.filter fun i => i.qpos ≠ src.qpos, mute := x.mute.filter (· ≠ src.qpos) }
  let s := if x' = x then s else s.setQueue src.ctx src.queue x'
  if x.mute.contains src.qpos then s
  else post s src.ctx src.queue
    { status, opcode := op, notice := false, reason := 0, qpos := src.qpos % 2 ^ 32, result, object, tag }

/-- Posts a notice on a queue (R535). -/
def notice (s : State) (c q reason status : Nat) (result object tag : Word) : State :=
  post s c q { status, opcode := 0, notice := true, reason, qpos := 0, result, object, tag }

/-! ### The way of a control item -/

/-- How a control item ends: completed now with a status, result, object and tag; refused with a status, its RESULT being a
free value since the spec states none (log entry 12); or completed later by an event. -/
inductive Reply where
  | done (status : Nat) (result object tag : Word)
  | fail (status : Nat) (object tag : Word)
  | later
  deriving DecidableEq, Repr

/-- Completed with success and result zero. -/
def Reply.ok : Reply := .done 0 0 0 0

/-- Refused with a status alone. -/
def Reply.status (n : Nat) : Reply := .fail n 0 0

/-- Completes an item whose RESULT the spec does not state. -/
def completeFail (s : State) (src : Src) (op status : Nat) (object tag : Word) : State :=
  complete s.draw.2 src op status s.draw.1 object tag

/-- Whether an item runs before READY is set (R581). -/
def earlyOp (op : Nat) (early : Bool) : Bool := op = 0xFC || op = 0xFD || early

/-- Runs a control item: refused while its context is purged (R561) or, but for the early items, before READY is set (R581);
then its own effect, and its completion. -/
def runItem (s : State) (src : Src) (op : Nat) (body : State → State × Reply) (early : Bool := false) : State :=
  if s.flag (HIF_CTX_CTL_PURGING src.ctx) then completeFail s src op 0x1005 0 0
  else if s.fld GLB_STATE_READY = 0 ∧ earlyOp op early = false then
    completeFail s src op (if op = 0xD2 then 0x3009 else 0xC001) 0 0
  else match body s with
    | (s', .done st r o t) => complete s' src op st r o t
    | (s', .fail st o t) => completeFail s' src op st o t
    | (s', .later) => s'

end Sys2Proof.Machine
end

