-- ==== Sys2Proof/Machine/Pages.lean ====
section
/-! DEFINITION. Page references and page frames (02 R37, 08 R286 to R291): allocation in the near stack, holders, release. -/

namespace Sys2Proof.Machine

/-- Bytes of a page (02 R37). -/
def pageBytes : Nat := 16384

/-- A page reference (R37). -/
def pageRef (dirty shared : Bool) (loc device index : Nat) : Word :=
  BitVec.ofNat 64 (index % 2 ^ 36 + device % 2 ^ 16 * 2 ^ 42 + loc % 8 * 2 ^ 58 + 2 ^ 61 + b2n shared * 2 ^ 62 + b2n dirty * 2 ^ 63)

/-- DIRTY of a page reference (R37). -/
def refDirty (r : Word) : Bool := bitOf r.toNat 63
/-- SHARED of a page reference (R37). -/
def refShared (r : Word) : Bool := bitOf r.toNat 62
/-- VALID of a page reference (R37). -/
def refValid (r : Word) : Bool := bitOf r.toNat 61
/-- LOC of a page reference (R37). -/
def refLoc (r : Word) : Nat := bits r.toNat 58 3
/-- INDEX of a page reference (R37). -/
def refIndex (r : Word) : Nat := bits r.toNat 0 36

/-- A reference with its DIRTY bit set or cleared. -/
def refSetDirty (r : Word) (d : Bool) : Word := putField r 63 1 (b2n d)
/-- A reference with its SHARED bit set or cleared. -/
def refSetShared (r : Word) (d : Bool) : Word := putField r 62 1 (b2n d)

/-- Frames a stack holds: 32 GiB of addressable HBM (log entry 15). -/
def stackFrames : Nat := 2097152

/-- The lowest frame outside the 3 GiB of fixed reservations (R126, log entry 15). -/
def firstFrame : Nat := 196608

/-- Bridge hops between two stacks or formes: row then column (R13, R16). -/
def hops (f g : Nat) : Nat :=
  (f / 3 - g / 3) + (g / 3 - f / 3) + (f % 3 - g % 3) + (g % 3 - f % 3)

/-- The lowest key from `lo` on that a table does not hold. -/
def firstFree {α : Type} : Map α → Nat → Nat
  | [], lo => lo
  | (j, _) :: r, lo => if j < lo then firstFree r lo else if j = lo then firstFree r (lo + 1) else lo

/-- Frames of an HBM channel: 1 GiB of the addressable HBM (log entry 15). -/
def channelFrames : Nat := 65536

/-- The lowest free frame of an HBM channel, or of the reserve that stands in for it (13 R493). -/
def channelFree (s : State) (ch : Nat) : Option Nat :=
  let base := match mget s.ses.remap ch with
    | some 0 => none
    | some b => some b
    | none => if bitOf (s.fld GLB_RES1_STACKS_OK) (ch / 32) then some (ch * channelFrames) else none
  match base with
  | none => none
  | some b =>
    let f := firstFree s.ses.frames (if b < firstFrame then firstFrame else b)
    if f < b + channelFrames then some f else none

/-- The lowest free frame of a stack, if any. -/
def stackFree (s : State) (st : Nat) : Option Nat := (List.range 32).findSome? fun c => channelFree s (32 * st + c)

/-- Stacks in the order in which an allocation near `near` tries them: fewest hops, then lowest number (R290). -/
def stackOrder (near : Nat) : List Nat :=
  (List.range 6).flatMap fun h => (List.range 12).filter fun st => hops near st = h

/-- Whether a context may take `n` more frames of kinds 1 to 5: within its reservation, and its function enabled (R291, R528). -/
def ctxRoom (s : State) (c n : Nat) : Bool :=
  (decide (c = 0) || s.flag (HIF_CTX_CTL_FN_ENABLED c)) &&
  decide (s.fld (SES_CTX_PAGES_USED_PAGES c) + n ≤ s.fld (SES_CTX_PAGES_RSV_PAGES c)) && decide (n ≤ s.fld SES_KV_FREE_FREE)

/-- Allocates a frame: KIND, context, and OWNER for a list page (R287, R288, R290, R291). -/
def allocFrame (s : State) (c kind near owner : Nat) : Option (Nat × State) :=
  if ctxRoom s c 1 then
    ((stackOrder near).findSome? (stackFree s)).map fun f =>
      let e : Frame := { refcnt := 1, kind, context := c, pied := false, crcValid := false,
                         crc := if kind = 2 then owner else 0 }
      let s := { s with ses := { s.ses with frames := mset s.ses.frames f e } }
      let s := s.decFld SES_KV_FREE_FREE 1
      (f, s.incWrap (SES_CTX_PAGES_USED_PAGES c) 1)
  else none

/-- Allocates `n` frames. -/
def allocFrames (c kind near owner : Nat) : Nat → State → Option (List Nat × State)
  | 0, s => some ([], s)
  | n + 1, s =>
    match allocFrame s c kind near owner with
    | none => none
    | some (f, s) => (allocFrames c kind near owner n s).map fun r => (f :: r.1, r.2)

/-- The entry of a frame. -/
def State.frame (s : State) (f : Nat) : Option Frame := mget s.ses.frames f

/-- Clears the SHARED bit of a frame's references in one session (R56). -/
def unshareIn (f : Nat) (e : Session) : Session :=
  let fix (r : Word) := if refValid r && refLoc r = 1 && refIndex r = f then refSetShared r false else r
  { e with kv := e.kv.map fun x => (x.1, fix x.2), recur := e.recur.map fun x => (x.1, fix x.2) }

/-- Releases one hold on a frame: the last hold leaves it awaiting zeroing with KIND 6 (R559), the last but one clears the
remaining holder's SHARED bit (R56). -/
def freeFrame (s : State) (f : Nat) : State :=
  match s.frame f with
  | none => s
  | some e =>
    if e.refcnt ≤ 1 then
      let s := { s with ses := { s.ses with frames := mset s.ses.frames f { e with refcnt := 0, kind := 6, crcValid := false } } }
      if e.kind ≠ 6 then s.decFld (SES_CTX_PAGES_USED_PAGES e.context) 1 else s
    else
      let s := { s with ses := { s.ses with frames := mset s.ses.frames f { e with refcnt := e.refcnt - 1 } } }
      if e.refcnt = 2 then
        { s with ses := { s.ses with entries := s.ses.entries.map fun x => (x.1, unshareIn f x.2) } }
      else s

/-- Releases a list of frames. -/
def freeFrames (s : State) (fs : List Nat) : State := fs.foldl freeFrame s

/-- Takes one more hold on a frame (R54, R55). -/
def holdFrame (s : State) (f : Nat) : State :=
  match s.frame f with
  | none => s
  | some e => { s with ses := { s.ses with frames := mset s.ses.frames f { e with refcnt := e.refcnt + 1 } } }

/-- Marks a frame PIED and counts it (R289). -/
def piedFrame (s : State) (f : Nat) : State :=
  match s.frame f with
  | none => s
  | some e =>
    if e.pied then s
    else ({ s with ses := { s.ses with frames := mset s.ses.frames f { e with pied := true } } }).incSat SES_KV_PIED_COUNT 1

/-- Frames in local HBM that a set of references names. -/
def localFrames (rs : List Word) : List Nat :=
  (rs.filter fun r => refValid r && decide (refLoc r = 1)).map refIndex

/-- Every page reference of a session: KV, recurrent, auxiliary, transcript. -/
def Session.refs (e : Session) : List Word :=
  e.kv.map (·.2) ++ e.recur.map (·.2) ++ [e.aux] ++ e.transcriptPages

/-- Every frame a session holds in local HBM, list pages included. -/
def Session.frames (e : Session) : List Nat := localFrames e.refs ++ e.listFrames.map (·.2)

/-- KV_PAGES and DIRTY_PAGES recomputed from the references (R40). -/
def Session.recount (e : Session) : Session :=
  { e with kvPages := e.kv.length + e.recur.length,
           dirtyPages := (e.refs.filter fun r => refValid r && refDirty r).length }

/-- Bytes of the page held in a frame, as a table of its non-zero bytes. -/
def frameBytes (s : State) (f : Nat) : Map Byte :=
  (s.hbm.filter fun x => decide (x.1 / pageBytes = f)).map fun x => (x.1 % pageBytes, x.2)

/-- Replaces the bytes of a frame. -/
def setFrameBytes (s : State) (f : Nat) (m : Map Byte) : State :=
  { s with hbm := overlay s.hbm (f * pageBytes) pageBytes m,
           hbmBad := s.hbmBad.filter fun u => decide (u / 512 ≠ f),
           hbmWeak := s.hbmWeak.filter fun u => decide (u / 512 ≠ f) }

/-- Copies one frame's page into another. -/
def copyFrame (s : State) (src dst : Nat) : State := setFrameBytes s dst (frameBytes s src)

end Sys2Proof.Machine
end

