-- ==== Sys2Proof/Machine/Contracts.lean ====
section
/-! DEFINITION. Contracts in force as the rest of the block sees them (04 R108 to R112, R138 to R142, R605): fields of a
record, coverage, the governing contract, the two-rate marker, and wear credit. -/

namespace Sys2Proof.Machine

/-- A field of a contract record: word, lowest bit, width (R109). -/
def cf (c : Contract) (word lo w : Nat) : Nat := bits (c.getD word 0).toNat lo w

/-- KIND (R109). -/
def Contract.kind (c : Contract) : Nat := cf c 0 0 4
/-- ID (R109). -/
def Contract.id (c : Contract) : Nat := cf c 0 8 12
/-- SHED_RANK (R109). -/
def Contract.rank (c : Contract) : Nat := cf c 0 20 3
/-- BUCKET_INIT (R109). -/
def Contract.initEmpty (c : Contract) : Bool := cf c 0 23 1 = 1
/-- SPILL (R109). -/
def Contract.spill (c : Contract) : Bool := cf c 0 24 1 = 1
/-- CONC (R109). -/
def Contract.conc (c : Contract) : Nat := cf c 2 26 16
/-- S_MAX of kind 2, D_MAX of kind 3, BYTES_PER_DAY of kind 5 (R109). -/
def Contract.bytes (c : Contract) : Nat := cf c 3 0 48
/-- SESSIONS of kind 2 (R109). -/
def Contract.sessions (c : Contract) : Nat := cf c 2 2 24
/-- TIER of kinds 2 and 3 (R109). -/
def Contract.tier (c : Contract) : Nat := cf c 2 0 2
/-- BAY_MASK of kind 5 (R109). -/
def Contract.bayMask (c : Contract) : Nat := cf c 2 0 4
/-- CR, OVH, PR, CB, PB of kinds 2 to 4 (R109). -/
def Contract.cr (c : Contract) : Nat := cf c 8 0 48
def Contract.ovh (c : Contract) : Nat := cf c 8 48 16
def Contract.pr (c : Contract) : Nat := cf c 9 0 48
def Contract.cb (c : Contract) : Nat := cf c 10 0 48
def Contract.pb (c : Contract) : Nat := cf c 11 0 48

/-- The links a kind has, 0xFFF left out (R109, R116). -/
def Contract.links (c : Contract) : List Nat :=
  let l := if c.kind = 1 then [cf c 1 0 12, cf c 1 12 12, cf c 1 24 12]
    else if c.kind = 2 then [cf c 1 12 12, cf c 1 24 12] else []
  l.filter (· ≠ 0xFFF)

/-- A contract in force. -/
def inForce (s : State) (id : Nat) : Option Contract := mget s.mkr.admitted id

/-- Links of a contract in force that still name contracts in force (R145). -/
def linksOf (s : State) (id : Nat) : List Nat :=
  match inForce s id with
  | none => []
  | some c => c.links.filter fun l => (inForce s l).isSome

/-- The contracts that cover a session by the CONTRACT field, nearest first (R110, R605). -/
def coverLevels (s : State) (contract : Nat) : List (List Nat) :=
  if contract = 0xFFFF ∨ (inForce s contract).isNone then []
  else
    let l1 := linksOf s contract
    [[contract], l1, l1.flatMap (linksOf s)]

/-- The governing contract of a kind, among those that pass a test (R605). -/
def governing (s : State) (contract kind : Nat) (ok : Contract → Bool) : Option Nat :=
  (coverLevels s contract).findSome? fun l =>
    (l.filter fun id => match inForce s id with
      | none => false
      | some c => decide (c.kind = kind) && ok c).min?

/-- Whether a session's state counts it live (R48). -/
def SesState.live : SesState → Bool
  | .free | .ended | .faulted => false
  | _ => true

/-- Sessions bound to a contract (R111): live sessions it covers. -/
def boundTo (s : State) (id : Nat) : Nat :=
  mcount s.ses.entries fun _ e => e.state.live && (coverLevels s e.contract).flatten.contains id

/-- The bucket state of a contract: absent reads as just admitted. -/
def liveInit (c : Contract) (now : Nat) : Live where
  cLevel := if c.initEmpty then 0 else c.cb * 10 ^ 9
  pLevel := if c.initEmpty then 0 else c.pb * 10 ^ 9
  at_ := now
  conc := 0
  pools := (List.range 4).map fun b =>
    if c.kind = 5 && bitOf c.bayMask b && !c.initEmpty then
      c.bytes * 12 / ((List.range 4).countP (bitOf c.bayMask)) * (86400 * 10 ^ 9) else 0
  poolAt := now

/-- What a contract in force carries, filled up to now (R140, R141). -/
def liveOf (s : State) (id : Nat) (c : Contract) : Live :=
  match mget s.mkr.live id with
  | none => liveInit c s.now
  | some l =>
    let n := (List.range 4).countP (bitOf c.bayMask)
    let rate := c.bytes * 12 / n
    { l with cLevel := min (c.cb * 10 ^ 9) (l.cLevel + c.cr * (s.now - l.at_)),
             pLevel := min (c.pb * 10 ^ 9) (l.pLevel + c.pr * (s.now - l.at_)),
             at_ := s.now,
             pools := if c.kind = 5 then l.pools.zipIdx.map fun x =>
                 if bitOf c.bayMask x.2 then min (rate * (86400 * 10 ^ 9)) (x.1 + rate * (s.now - l.poolAt)) else 0
               else l.pools,
             poolAt := s.now }

/-- Stores what a contract carries. -/
def setLive (s : State) (id : Nat) (l : Live) : State := { s with mkr := { s.mkr with live := mset s.mkr.live id l } }

/-- Colours of the marker: 1 green, 2 yellow, 3 red. -/
def markOf (cLevel pLevel len : Nat) (cap : Bool) : Nat :=
  if pLevel < len then 3 else if cLevel < len || cap then 2 else 1

/-- Marks an item of a contract in force and debits its buckets (R138, R139, R140): the colour and the state.  `cap` says the
item goes beyond CONC or the contract's parameters. -/
def police (s : State) (id len : Nat) (cap : Bool) : Nat × State :=
  match inForce s id with
  | none => (0, s)
  | some c =>
    let l := liveOf s id c
    let n := (len + c.ovh) * 10 ^ 9
    let cap := cap || decide (c.conc ≤ l.conc && c.kind ≠ 4)
    match markOf l.cLevel l.pLevel n cap with
    | 1 => (1, setLive s id { l with cLevel := l.cLevel - n, pLevel := l.pLevel - n, conc := l.conc + 1 })
    | 2 => (2, setLive s id { l with pLevel := l.pLevel - n, conc := l.conc + 1 })
    | _ => (3, (setLive s id l).incSat MKR_RED_COUNT 1)

/-- Takes one operation off the first kept reservation of an identifier (R120). -/
def keptDone (id : Nat) : List (Nat × Contract × Nat) → List (Nat × Contract × Nat)
  | [] => []
  | (j, c, n) :: r => if j = id then (if n ≤ 1 then r else (j, c, n - 1) :: r) else (j, c, n) :: keptDone id r

/-- Ends one concurrent operation of a contract: of a kept reservation first, else of the contract in force (R120, R139). -/
def policeDone (s : State) (id : Option Nat) : State :=
  match id with
  | none => s
  | some id =>
    if s.mkr.kept.any fun x => x.1 = id then { s with mkr := { s.mkr with kept := keptDone id s.mkr.kept } }
    else match inForce s id with
      | none => s
      | some c => let l := liveOf s id c; setLive s id { l with conc := l.conc - 1 }

/-- Scale of the wear pools: bytes × 12 × 86,400 × 10⁹ (R141). -/
def wearScale : Nat := 12 * 86400 * 10 ^ 9

/-- A bay at reset. -/
def bay0 : Bay where
  since := 0
  presAt := none
  badAt := none
  col := none
  wear := { tagOk := true, wgen := 0, readOnly := false, roReason := 0, hostWr := 0, nandWr := 0, eraseMax := 0,
            eraseMean := 0, spare := 0, retired := 0 }
  wearAt := 0
  wearCopy := 0
  sbGen := 0
  sbSlot := 0
  checkpoint := []
  journal := []
  openPage := []
  openAt := 0
  inFlight := []
  nextJseq := 1
  compact := none
  waitItems := []
  blank := false
  tried := false
  settled := false
  heldBack := []
  keyTable := []
  opened := false
  link := { txSeq := 0, rxSeq := 0, replay := [], resends := 0, sentAt := 0, nakOwed := false, sent := [], credits := [], held := [] }
  issuers := []
  ops := []
  nextTag := 0
  dies := []
  deadDies := []
  blocks := []
  sealing := none
  drained := false
  badLanes := []

/-- A bay. -/
def State.bay (s : State) (b : Nat) : Bay := (mget s.crt.bays b).getD bay0

/-- Writes a bay. -/
def State.setBay (s : State) (b : Nat) (x : Bay) : State := { s with crt := { s.crt with bays := mset s.crt.bays b x } }

/-- W_bay of a bay, in bytes × 12 per day (R124): only while the bay accepts parks (R125). -/
def wearBay (s : State) (b : Nat) : Nat :=
  match (s.bay b).col with
  | none => 0
  | some c =>
    if bitOf (s.fld SES_TIER_STATUS_BAYS_WRITABLE) b then
      s.fld MKR_DERATE_WEAR_PCT * c.ratedWrites * 12 / (100 * s.fld MKR_CFG_LIFE_DAYS)
    else 0

/-- Contracted wear on a bay, in bytes × 12 per day (R132). -/
def wearContracted (s : State) (b : Nat) : Nat :=
  s.mkr.admitted.foldl (fun a x =>
    if x.2.kind = 5 && bitOf x.2.bayMask b then a + x.2.bytes * 12 / (List.range 4).countP (bitOf x.2.bayMask) else a) 0

/-- The free pool of a bay, filled up to now (R141). -/
def wearFreeNow (s : State) (b : Nat) : Nat :=
  let rate := wearBay s b - wearContracted s b
  min (max (s.mkr.wearFree.getD b 0) (rate * (86400 * 10 ^ 9)))
    (s.mkr.wearFree.getD b 0 + rate * (s.now - s.mkr.wearAt))

/-- Brings the free pools up to now and shows their whole bytes in MKR_WEAR_FREE. -/
def wearFill (s : State) : State :=
  let l := (List.range 4).map (wearFreeNow s)
  let s := { s with mkr := { s.mkr with wearFree := l, wearAt := s.now } }
  (List.range 4).foldl (fun s b => s.setFld (MKR_WEAR_FREE_BYTES b) (l.getD b 0 / wearScale)) s

/-- The contract pool that governs a session's wear on a bay (R142, R605). -/
def wearContract (s : State) (contract b : Nat) : Option Nat :=
  governing s contract 5 fun c => bitOf c.bayMask b

/-- Wear credit of a session on a bay, in scaled bytes (R142). -/
def wearCredit (s : State) (contract b : Nat) : Nat :=
  let free := wearFreeNow s b
  match wearContract s contract b with
  | none => free
  | some id =>
    match inForce s id with
    | none => free
    | some c => (liveOf s id c).pools.getD b 0 + free

/-- Debits a park's bytes from the wear credit, the contract pool first (R79, R142). -/
def wearDebit (s : State) (contract b bytes : Nat) : State :=
  let s := wearFill s
  let n := bytes * wearScale
  match (wearContract s contract b).bind fun id => (inForce s id).map fun c => (id, liveOf s id c) with
  | none => wearFill { s with mkr := { s.mkr with wearFree := s.mkr.wearFree.modify b (· - n) } }
  | some (id, l) =>
    let p := l.pools.getD b 0
    let s := setLive s id { l with pools := l.pools.set b (p - n) }
    wearFill { s with mkr := { s.mkr with wearFree := s.mkr.wearFree.modify b (· - (n - p)) } }

end Sys2Proof.Machine
end

