-- ==== Sys2Proof/Machine/Text.lean ====
section
/-! DEFINITION. Text of a session (09): tokenisation, the stop matcher, the UTF-8 assembler, and output records (R322, R344 to
R350, R539). -/

namespace Sys2Proof.Machine

/-! ### Tokenisation (R318, R322) -/

/-- The child of a trie node for a byte. -/
def trieChild (v : Vocab) (node : Nat) (b : Byte) : Option Nat :=
  (mget v.trie node).bind fun n => (n.2.find? fun c => c.1 = b.toNat).map (·.2)

/-- The token a node names, if it is not special. -/
def trieToken (v : Vocab) (node : Nat) : Option Nat :=
  (mget v.trie node).bind fun n =>
    if n.1 = 0 then none
    else match v.strings[n.1 - 1]? with
      | some (_, special, _) => if special then none else some (n.1 - 1)
      | none => none

/-- The longest token from a node along the bytes: `k` bytes walked, best so far. -/
def trieLongest (v : Vocab) : List Byte → Nat → Nat → Option (Nat × Nat) → Option (Nat × Nat)
  | [], _, _, best => best
  | b :: bs, node, k, best =>
    match trieChild v node b with
    | none => best
    | some n => trieLongest v bs n (k + 1) (match trieToken v n with | some t => some (t, k + 1) | none => best)

/-- The tokens of one segment with the bytes each consumes (R322); the first argument bounds the tokens. -/
def tokeniseFuel (v : Vocab) : Nat → List Byte → List (Nat × Nat)
  | 0, _ => []
  | _, [] => []
  | n + 1, b :: bs =>
    match trieLongest v (b :: bs) 0 0 none with
    | some (t, len) => (t, len) :: tokeniseFuel v n ((b :: bs).drop len)
    | none => (v.byteBase + b.toNat, 1) :: tokeniseFuel v n bs

/-- Tokens of a byte string (R322). -/
def tokenise (v : Vocab) (bs : List Byte) : List (Nat × Nat) := tokeniseFuel v bs.length bs

/-- Tokens of a segment. -/
def segTokens (v : Vocab) : Segment → List (Nat × Nat)
  | .text bs => tokenise v bs
  | .ids ts => ts.map fun t => (t, 4)

/-- Bytes of a segment in the transcript buffer. -/
def segBytes : Segment → Nat
  | .text bs => bs.length
  | .ids ts => 4 * ts.length

/-! ### The stop matcher (R344 to R346) -/

/-- The enabled stop strings with their index. -/
def enabledStops (t : TextState) : List (Nat × List Byte) :=
  (List.range 16).filterMap fun i =>
    let n := t.stopLens.getD i 0
    if n = 0 then none else some (i, (t.stops.getD i []).take n)

/-- The stop string that ends at the last byte of `held`: the longest, then the lowest index (R344). -/
def stopEnding (stops : List (Nat × List Byte)) (held : List Byte) : Option (Nat × List Byte) :=
  stops.foldl (fun best x =>
    if x.2.isSuffixOf held && (match best with | none => true | some b => decide (b.2.length < x.2.length)) then some x else best)
    none

/-- Splits held bytes into those no stop string can begin at or before, and the rest (R346). -/
def stopRelease (stops : List (Nat × List Byte)) : List Byte → List Byte × List Byte
  | [] => ([], [])
  | b :: bs =>
    if stops.any fun x => (b :: bs).isPrefixOf x.2 then ([], b :: bs)
    else let r := stopRelease stops bs; (b :: r.1, r.2)

/-- Feeds bytes to the matcher: bytes released, bytes held, and the stop string found; a match drops the rest (R345). -/
def stopFeed (stops : List (Nat × List Byte)) (include_ : Bool) : List Byte → List Byte → List Byte × List Byte × Option Nat
  | held, [] => ([], held, none)
  | held, b :: bs =>
    let h := held ++ [b]
    match stopEnding stops h with
    | some (i, str) => (if include_ then h else h.take (h.length - str.length), [], some i)
    | none =>
      let r := stopRelease stops h
      let rest := stopFeed stops include_ r.2 bs
      (r.1 ++ rest.1, rest.2)

/-! ### The UTF-8 assembler (R347) -/

/-- U+FFFD. -/
def replacement : List Byte := [0xEF#8, 0xBF#8, 0xBD#8]

/-- Length of the character a lead byte begins; 0 for none. -/
def utf8Len (b : Nat) : Nat :=
  if b < 0x80 then 1 else if 0xC2 ≤ b && b ≤ 0xDF then 2 else if 0xE0 ≤ b && b ≤ 0xEF then 3
  else if 0xF0 ≤ b && b ≤ 0xF4 then 4 else 0

/-- Whether a byte may follow the held bytes of an incomplete character (RFC 3629). -/
def utf8Follows (held : List Byte) (b : Nat) : Bool :=
  match held with
  | [] => false
  | [l] =>
    let lead := l.toNat
    let lo := if lead = 0xE0 then 0xA0 else if lead = 0xF0 then 0x90 else 0x80
    let hi := if lead = 0xED then 0x9F else if lead = 0xF4 then 0x8F else 0xBF
    decide (lo ≤ b) && decide (b ≤ hi)
  | _ => decide (0x80 ≤ b) && decide (b ≤ 0xBF)

/-- A byte at the start of a character: released, held, replacements. -/
def utf8Start (b : Byte) : List Byte × List Byte × Nat :=
  match utf8Len b.toNat with
  | 0 => (replacement, [], 1)
  | 1 => ([b], [], 0)
  | _ => ([], [b], 0)

/-- One byte into the assembler. -/
def utf8Step (held : List Byte) (b : Byte) : List Byte × List Byte × Nat :=
  match held with
  | [] => utf8Start b
  | l :: _ =>
    if utf8Follows held b.toNat then
      let h := held ++ [b]
      if h.length = utf8Len l.toNat then (h, [], 0) else ([], h, 0)
    else
      let r := utf8Start b
      (replacement ++ r.1, r.2.1, r.2.2 + 1)

/-- Bytes into the assembler. -/
def utf8Feed : List Byte → List Byte → List Byte × List Byte × Nat
  | held, [] => ([], held, 0)
  | held, b :: bs =>
    let r := utf8Step held b
    let q := utf8Feed r.2.1 bs
    (r.1 ++ q.1, q.2.1, r.2.2 + q.2.2)

/-! ### Output records (R350, R539) -/

/-- The session of a local index. -/
def State.ses? (s : State) (i : Nat) : Option Session := mget s.ses.entries i

/-- Writes a session table entry as one update: UPDATE_SEQ increments, CHECK holds again, the shadow has it (R41). -/
def State.setSes (s : State) (i : Nat) (e : Session) : State :=
  let e' := { e with updateSeq := (e.updateSeq + 1) % 2 ^ 32, checkBad := false, shadowBad := false, mirrored := true }
  { s with ses := { s.ses with entries := mset s.ses.entries i e' } }

/-- Replaces the text side of a session without an update of its entry. -/
def State.setText (s : State) (i : Nat) (t : TextState) : State :=
  match s.ses? i with
  | none => s
  | some e => { s with ses := { s.ses with entries := mset s.ses.entries i { e with text := t } } }

/-- The 64 bytes of an output record (R350). -/
def outBytes (r : OutRec) (oseq : Nat) : List Byte :=
  leBytes 8 r.handle.toNat ++
  leBytes 8 (oseq + r.data.length * 2 ^ 32 + r.kind * 2 ^ 38 + r.reason * 2 ^ 40 + r.stop * 2 ^ 44) ++
  leBytes 8 (r.tokens % 2 ^ 32) ++ r.data ++ List.replicate (40 - r.data.length) 0#8

/-- Room in a queue's output ring (R539). -/
def outRoom (s : State) (c q : Nat) : Nat :=
  let x := s.queue c q
  if s.conf c && decide (2 ^ 56 ≤ x.outCtr) then 0 else 2 ^ s.fld (HIF_Q_OUT_LOG2_RECORDS c q) - (x.records + 2 ^ 32 - x.outHead % 2 ^ 32) % 2 ^ 32

/-- Writes an output record, which takes its OSEQ now (R350, R539, R545). -/
def writeOut (s : State) (c q : Nat) (r : OutRec) : State :=
  match s.ses? r.index with
  | none => s
  | some e =>
    let oseq := e.text.sampler.nextOseq
    let x := s.queue c q
    let base := s.fld (HIF_Q_OUT_BASE c q) * 4096
    let i := x.records % 2 ^ s.fld (HIF_Q_OUT_LOG2_RECORDS c q)
    let s :=
      if s.conf c then
        (s.hostWr c (base + 128 * i) (sealUnit s c q 4 0 0 x.outCtr (outBytes r oseq))).setQueue c q
          { x with records := x.records + 1, outCtr := x.outCtr + 1 }
      else (s.hostWr c (base + 64 * i) (outBytes r oseq)).setQueue c q { x with records := x.records + 1 }
    let s := if s.conf c && decide (2 ^ 56 ≤ x.outCtr + 1) then queueError s c q 0xB013 else s
    s.setText r.index { e.text with sampler := { e.text.sampler with nextOseq := (oseq + 1) % 2 ^ 32 } }

/-- Writes an output record, or leaves it waiting behind the others of its ring (R539). -/
def postOut (s : State) (c q : Nat) (r : OutRec) : State :=
  let x := s.queue c q
  if s.fld (HIF_Q_CTL_STATE c q) ≠ 0 && x.waiting.isEmpty && decide (0 < outRoom s c q) then writeOut s c q r
  else s.setQueue c q { x with waiting := x.waiting ++ [r] }

/-- Writes waiting records while there is room. -/
def drainOutList (c q : Nat) : List OutRec → State → State
  | [], s => s
  | r :: rs, s =>
    if s.fld (HIF_Q_CTL_STATE c q) ≠ 0 && decide (0 < outRoom s c q) then
      let s := writeOut s c q r
      drainOutList c q rs (s.setQueue c q { s.queue c q with waiting := rs })
    else s

/-- Writes the waiting records of a queue as room appears (R539). -/
def drainOut (s : State) (c q : Nat) : State := drainOutList c q (s.queue c q).waiting s

/-- Discards the waiting records of a session (R65, R539). -/
def dropWaiting (s : State) (i : Nat) : State :=
  { s with host := { s.host with queues := s.host.queues.map fun x =>
      (x.1, { x.2 with waiting := x.2.waiting.filter fun r => r.index ≠ i }) } }

/-- Cuts data into pieces of 40 bytes. -/
def pieces : Nat → List Byte → List (List Byte)
  | 0, _ => []
  | _, [] => []
  | n + 1, bs => bs.take 40 :: pieces n (bs.drop 40)

/-- The device address (R29 GLB_DEV_ADDR). -/
def State.devAddr (s : State) : Nat := s.fld GLB_DEV_ADDR_DEVICE + s.fld GLB_DEV_ADDR_PLANE * 2 ^ 15

/-- The handle of a session (02). -/
def handleOf (s : State) (i : Nat) (e : Session) : Word :=
  BitVec.ofNat 64 (s.devAddr * 2 ^ 48 + i % 2 ^ 24 * 2 ^ 24 + e.instar % 2 ^ 24)

/-- Sends data of a session to its output ring in records of one kind (R350). -/
def sendData (s : State) (i : Nat) (e : Session) (kind : Nat) (data : List Byte) : State :=
  (pieces data.length data).foldl (fun s d =>
    postOut s e.context e.queue { handle := handleOf s i e, index := i, kind, reason := 0, stop := 0, tokens := e.tokens, data := d }) s

/-- Sends the final record of a run (R350). -/
def sendFinal (s : State) (i : Nat) (e : Session) (reason stop : Nat) : State :=
  postOut s e.context e.queue { handle := handleOf s i e, index := i, kind := 2, reason, stop, tokens := e.tokens, data := [] }

/-- Releases raw bytes of a session through the UTF-8 assembler or unchanged, by OUT_MODE (R347). -/
def releaseBytes (s : State) (i : Nat) (raw : List Byte) : State :=
  match s.ses? i with
  | none => s
  | some e =>
    match e.text.sampler.outMode with
    | 0 =>
      let r := utf8Feed e.text.utf8 raw
      let s := s.setText i { e.text with utf8 := r.2.1 }
      let s := if r.2.2 = 0 then s else s.incSat TOK_COUNTS_REPLACED r.2.2
      sendData s i e 0 r.1
    | 1 => sendData s i e 0 raw
    | _ => s

/-- Releases everything the matcher and the assembler hold and resets both (R348). -/
def flushText (s : State) (i : Nat) : State :=
  match s.ses? i with
  | none => s
  | some e =>
    let s := releaseBytes s i e.text.matcher
    match s.ses? i with
    | none => s
    | some e =>
      let s := s.setText i { e.text with matcher := [], utf8 := [] }
      if e.text.sampler.outMode = 0 && !e.text.utf8.isEmpty then
        sendData (s.incSat TOK_COUNTS_REPLACED 1) i e 0 replacement
      else s

/-- Posts a session notice on the queue named by QUEUE and writes its status to LAST_STATUS (R41, R535); a cancelled session
posts none (R63). -/
def sesNotice (s : State) (i reason status : Nat) (result : Word) : State :=
  match s.ses? i with
  | none => s
  | some e =>
    if e.cancelReq then s
    else notice (s.setSes i { e with lastStatus := status }) e.context e.queue reason status result (handleOf s i e) e.tag

/-- A session notice whose detail the spec does not state: a free value (log entry 12). -/
def sesNoticeFree (s : State) (i reason status : Nat) : State := sesNotice s.draw.2 i reason status s.draw.1

end Sys2Proof.Machine
end

