-- ==== Sys2Proof/Machine/Tiers.lean ====
section
/-! DEFINITION. Tiers of a session (03), its sequence slot (05 R149 to R156), the journal records written for it (10 R392,
R393) and the ways it leaves service: the shared operations that session items and events are made of. -/

namespace Sys2Proof.Machine

/-! ### Journal submissions (10 R392, R393) -/

/-- VOCAB_ID of a slot. -/
def vocabIdOf (s : State) (v : Nat) : Nat := s.fld (TOK_VOCAB_B_VOCAB_ID v)

/-- MODEL_TAG of a model slot: bytes 0 to 7 of its DIGEST (R392). -/
def modelTagOf (s : State) (m : Nat) : Nat :=
  match mget s.gal.models m with
  | none => 0
  | some x => leNat (x.digest.take 8)

/-- A padding record. -/
def rec0 : DirRec where
  typ := 0
  jseq := 0
  handle := 0
  prev := 0
  dur := 0
  context := 0
  customer := 0
  vocab := 0
  grammar := 0
  model := 0
  prio := 0
  draftEn := false
  cls := 0
  queue := 0
  tokens := 0
  generated := 0
  tag := 0
  contract := 0
  head := 0
  pages := 0
  keyId := 0
  createTime := 0
  origin := 0
  parkGen := 0
  vocabId := 0
  modelTag := 0
  jstart := 0
  jtime := 0

/-- The record of a session's copy (R392): type 1 a session record, type 2 a tombstone. -/
def sessionRec (s : State) (i : Nat) (e : Session) (typ head pages gen : Nat) : DirRec :=
  { rec0 with
    typ, handle := (handleOf s i e).toNat, dur := e.dur, context := e.context, customer := e.customer, vocab := e.vocab,
    grammar := e.grammar, model := e.model, prio := e.prio, draftEn := e.draftEn, cls := e.cls, queue := e.queue,
    tokens := e.tokens, generated := e.generated, tag := e.tag.toNat, contract := e.contract, head, pages,
    keyId := (mget s.host.dataKey e.context).getD 0, createTime := e.createTime, origin := e.origin, parkGen := gen,
    vocabId := if e.bound then vocabIdOf s e.vocab else (e.mustMatch.map (·.1)).getD 0,
    modelTag := if e.bound then modelTagOf s e.model else (e.mustMatch.map (·.2)).getD 0,
    jstart := s.sec.startCount % 2 ^ 24, jtime := s.now }

/-- A context's data key, created at its first park or object write, and its wrapped copy in the key table of a bay (14 R552); the
key's identity is a free value (log entry 13). -/
def ensureKey (s : State) (c b : Nat) : State :=
  let s := match mget s.host.dataKey c with
    | some _ => s
    | none => { s.draw.2 with host := { s.host with dataKey := mset s.host.dataKey c (s.draw.1.toNat % 2 ^ 32) } }
  let y := ((mget s.host.dataKey c).getD 0, c)
  if (s.bay b).keyTable.contains y then s else s.setBay b { s.bay b with keyTable := (s.bay b).keyTable ++ [y] }

/-- Closes a bay's open journal page: it is submitted to a die of channels 0 and 12 (R393). -/
def closePage (s : State) (b : Nat) : State :=
  let x := s.bay b
  if x.openPage.isEmpty then s
  else s.setBay b { x with openPage := [], inFlight := x.inFlight ++ [⟨x.openPage, s.now⟩],
                           dies := mset (mset x.dies 0 ⟨false, s.now⟩) 384 ⟨false, s.now⟩ }

/-- Submits a journal record to a bay (R393): it takes the next JSEQ; a page of 128 records is full and closes. -/
def journalSubmit (s : State) (b : Nat) (r : DirRec) (h : HeadPage) : State :=
  let x := s.bay b
  let s := s.setBay b { x with openPage := x.openPage ++ [({ r with jseq := x.nextJseq }, h)],
                               openAt := if x.openPage.isEmpty then s.now else x.openAt,
                               nextJseq := x.nextJseq + 1 }
  if 127 ≤ x.openPage.length then closePage s b else s

/-- Whether a bay takes journal records: WRITABLE, or READ_ONLY from its reserve (R407). -/
def bayJournals (s : State) (b : Nat) : Bool :=
  s.fld (CRT_BAY_STATE b) = 5 || s.fld (CRT_BAY_STATE b) = 6

/-- Whether a session's P3 copy can be reached: its cartridge is in its bay (R83, R364). -/
def copyPresent (s : State) (c : Copy) : Bool :=
  bayJournals s c.bay && decide (s.fld (CRT_SERIAL_SERIAL c.bay) = c.serial)

/-- Submits the tombstone of a session's P3 copy; without the cartridge it stays owed (R67, R394, R411). -/
def tombstone (s : State) (i : Nat) : State :=
  match s.ses? i with
  | none => s
  | some e =>
    match e.p3 with
    | none => s
    | some c =>
      if copyPresent s c then
        let s := journalSubmit s c.bay (sessionRec s i e 2 0 c.pages c.gen) ⟨c.cur, c.transcript, c.kvPages⟩
        { s with ses := { s.ses with entries := mset s.ses.entries i { e with tombstone := 2 } } }
      else { s with ses := { s.ses with entries := mset s.ses.entries i { e with tombstone := 1 } } }

/-! ### Sizes and times (R73, R80) -/

/-- Pages that count in a session's size (R73, R286). -/
def sesPages (e : Session) : Nat := e.kvPages + 1 + e.transcriptPages.length

/-- S: bytes of a session (R73). -/
def sesBytes (e : Session) : Nat := sesPages e * pageBytes

/-- Units of 1/6,160,000 ns, in which every time of R73 and every margin of R76 is whole. -/
def tick : Nat := 6160000

/-- T_t(S) (R73). -/
def revTime : Tier → Nat → Nat
  | .p0, S | .p1, S => 4000 * tick + S * (tick / 800)
  | .p2, S => 16000 * tick + S * (tick / 44)
  | .p3, S => 250000 * tick + S * (tick / 14)

/-- W_t(D) (R73). -/
def parkTime : Tier → Nat → Nat
  | .p0, _ | .p1, _ => 0
  | .p2, D => 16000 * tick + D * (tick / 44)
  | .p3, D => 3000000 * tick + D * (tick / 2)

/-- The class margin (R76). -/
def margin (s : State) (cls : Nat) (t : Tier) (S : Nat) : Nat :=
  max (s.fld (SES_CLASS_A_MARGIN_MIN_US cls) * 1000 * tick) (revTime t S * s.fld (SES_CLASS_A_MARGIN_PCT cls) / 100)

/-- Bytes of dirty pages (R80). -/
def dirtyBytes (e : Session) : Nat := e.dirtyPages * pageBytes

/-! ### Places (R78, R79, R95, R98, R127) -/

/-- Bytes borrowed from all lenders. -/
def borrowedBytes (s : State) : Nat :=
  s.ses.entries.foldl (fun a x => if x.2.tier = .p2 && x.2.state.live then a + sesBytes x.2 else a) 0

/-- Shows the borrowed GiB, rounded up (R106). -/
def showBorrowed (s : State) : State :=
  s.setFld SES_LEND_STATUS_BORROWED_GIB (min 255 ((borrowedBytes s + 2 ^ 30 - 1) / 2 ^ 30))

/-- Whether a session is covered by a contract that its P2 copies must respect (R127). -/
def contracted (s : State) (e : Session) : Bool := !(coverLevels s e.contract).isEmpty

/-- The lender for a P2 park of S bytes: fewest hops, most free, lowest address (R98, R99, R127). -/
def chooseLender (s : State) (e : Session) (S : Nat) : Option Nat :=
  let ok := s.tier.lenders.filter fun x =>
    decide (S ≤ x.2.free) && x.2.reclaim.isNone &&
    (!contracted s e || decide (s.fld MKR_CFG_RECLAIM_FLOOR_MS ≤ x.2.reclaimMs))
  (ok.foldl (fun best x => match best with
    | none => some x
    | some y => if x.2.hops < y.2.hops || (x.2.hops = y.2.hops && decide (y.2.free < x.2.free)) then some x else some y)
    (none : Option (Nat × Lender))).map (·.1)

/-- Space for P2 (R78). -/
def spaceP2 (s : State) (e : Session) : Option Nat :=
  let S := sesBytes e
  if s.fld SES_LEND_STATUS_BORROWED_GIB * 2 ^ 30 + S ≤ s.fld SES_LEND_CFG_BORROW_MAX_GIB * 2 ^ 30 then
    chooseLender s e S
  else none

/-- Whether a bay can take a park of D bytes: it accepts parks, keeps its reserve, its head page fits the extents and its
journal is below its limit (R125, R384, R396). -/
def baySpace (s : State) (e : Session) (b D : Nat) : Bool :=
  let user := ((s.bay b).col.map (·.userBytes)).getD 0
  let ext := match e.p3 with
    | some c => if c.bay = b then c.extents.length else 0
    | none => 0
  bitOf (s.fld SES_TIER_STATUS_BAYS_WRITABLE) b &&
  decide (s.fld CRT_CFG_RESERVE_PCT * user ≤ 100 * (s.fld (CRT_FREE_BYTES b) - D)) && decide (D ≤ s.fld (CRT_FREE_BYTES b)) &&
  decide (ext + 4 ≤ 1016) && decide (s.fld (CRT_JRNL_JOURNAL b) < 33554432)

/-- Whether a bay passes the wear gate for D bytes (R79, R142). -/
def bayWear (s : State) (e : Session) (b D : Nat) : Bool := decide (D * wearScale ≤ wearCredit s e.contract b)

/-- The bay for a P3 park with the bytes to write there: the bay that holds the copy, else the least worn by ratio, then the
lowest number (R80, R95). -/
def chooseBay (s : State) (e : Session) (wear : Bool) (other : Bool := false) : Option (Nat × Nat) :=
  let S := sesBytes e
  let ok (b D : Nat) := baySpace s e b D && (!wear || bayWear s e b D)
  let own := match e.p3 with
    | some c => if copyPresent s c && ok c.bay (dirtyBytes e) && !other then some (c.bay, dirtyBytes e) else none
    | none => none
  match own with
  | some x => some x
  | none =>
    let cand := (List.range 4).filter fun b =>
      ok b S && (match e.p3 with | some c => decide (c.bay ≠ b) || !copyPresent s c | none => true)
    let ratio (b : Nat) := (s.fld (CRT_HOST_WR_BYTES b), ((s.bay b).col.map (·.ratedWrites)).getD 1)
    (cand.foldl (fun best b => match best with
      | none => some b
      | some a => if (ratio b).1 * (ratio a).2 < (ratio a).1 * (ratio b).2 then some b else some a)
      (none : Option Nat)).map fun b => (b, S)

/-! ### The horizon rule (R76, R77) -/

/-- A tier with its place (lender or bay) and the bytes to write. -/
structure Choice where
  tier  : Tier
  place : Nat
  bytes : Nat
  deriving DecidableEq, Repr

/-- The choice of staying. -/
def stay : Choice := ⟨.p1, 0, 0⟩

/-- Whether a class and the device permit a tier (R77). -/
def permitted (s : State) (e : Session) : Tier → Bool
  | .p2 => s.flag (SES_CLASS_A_P2_EN e.cls) && s.flag SES_TIER_STATUS_P2_OPEN
  | .p3 => s.flag (SES_CLASS_A_P3_EN e.cls) && (e.dur = 1 || e.dur = 2) && s.flag SES_TIER_STATUS_P3_OPEN
  | _ => true

/-- The place for a tier, all gates passed (R78, R79). -/
def placeFor (s : State) (e : Session) : Tier → Option Choice
  | .p2 => if permitted s e .p2 then (spaceP2 s e).map fun l => ⟨.p2, l, sesBytes e⟩ else none
  | .p3 => if permitted s e .p3 then (chooseBay s e true).map fun b => ⟨.p3, b.1, b.2⟩ else none
  | _ => none

/-- Depth of a tier as the hint counts it. -/
def Tier.depth : Tier → Nat
  | .p0 => 0
  | .p1 => 1
  | .p2 => 2
  | .p3 => 3

/-- default_tier (R76): a DEFAULT_TIER of 0 is taken as P1 (R106). -/
def defaultTier (s : State) (e : Session) : Choice :=
  let d := s.fld (SES_CLASS_A_DEFAULT_TIER e.cls)
  ((([Tier.p3, Tier.p2].filter fun t => t.depth ≤ d).findSome? (placeFor s e))).getD stay

/-- Whether a choice fits a bounded horizon of h ns (R76). -/
def fits (s : State) (e : Session) (c : Choice) (h : Nat) : Bool :=
  let S := sesBytes e
  decide (parkTime c.tier c.bytes + revTime c.tier S + margin s e.cls c.tier S ≤ h * tick) &&
  (decide (c.tier ≠ .p3) || decide (s.fld (SES_CLASS_A_MIN_DWELL_S e.cls) * 10 ^ 9 ≤ h))

/-- choose_tier (R76). -/
def chooseTier (s : State) (e : Session) (hint : Nat) : Choice :=
  if e.expectTime = 0 ∧ hint = 0 then defaultTier s e
  else if e.expectTime ≠ 0 ∧ e.expectTime ≤ s.now then stay
  else
    (([Tier.p3, Tier.p2].filter fun t => hint = 0 || decide (t.depth ≤ hint)).findSome? fun t =>
      (placeFor s e t).bind fun c =>
        if e.expectTime = 0 || fits s e c (e.expectTime - s.now) then some c else none).getD stay

/-! ### Sequence slots (05 R149 to R156) -/

/-- The slice bound to a step-period contract that covers a session, if any (R110, R155). -/
def contractSlice (s : State) (e : Session) : Option (Nat × Nat) :=
  (governing s e.contract 1 fun c => decide (cf c 2 32 10 = e.model)).bind fun id =>
    (mget s.mkr.binding id).map fun sl => (id, sl)

/-- Whether slice 4p + s is an enabled serving slice of a model (R156). -/
def servesModel (s : State) (sl model : Nat) : Bool :=
  let p := sl / 4
  let k := sl % 4
  s.flag (GAL_PART_ENABLE p) && s.flag (GAL_SLICE_A_ENABLE p k) && decide (s.fld (GAL_SLICE_A_KIND p k) = 0) &&
  decide (s.fld (GAL_SLICE_A_MODEL p k) = model)

/-- The slice a session is assigned to: its contract's, else an uncontracted serving slice, else any (R156). -/
def chooseSlice (s : State) (e : Session) : Option Nat :=
  match contractSlice s e with
  | some x => some x.2
  | none =>
    let c := (List.range 64).filter fun sl => servesModel s sl e.model
    match c.find? fun sl => !(s.mkr.binding.any fun b => b.2 = sl) with
    | some sl => some sl
    | none => c.head?

/-- Releases a session's sequence slot (R149). -/
def releaseSlot (s : State) (e : Session) : State × Session :=
  if e.seqValid then
    (({ s with gal := { s.gal with slots := mdel s.gal.slots e.seqSlot } }).decFld SES_LIVE_SLOTS_USED 1,
     { e with seqValid := false, seqSlot := 0 })
  else (s, e)

/-- Voids a session's records in galleys built and not yet swapped in (R66, R184). -/
def voidBuilt (s : State) (i : Nat) : State :=
  let fix (g : Galley) : Galley := { g with recs := g.recs.map fun r => if r.index = i then { r with void := true } else r }
  { s with gal := { s.gal with slices := s.gal.slices.map fun x => (x.1, { x.2 with built := x.2.built.map fix }) } }

/-- Whether a galley in flight holds a record of a session. -/
def inStep (s : State) (i : Nat) : Bool :=
  s.gal.slices.any fun x => match x.2.running with
    | none => false
    | some g => g.recs.any fun r => r.index = i && !r.void

/-- Whether a session is in the galley executed or built (R43). -/
def inGalley (s : State) (i : Nat) : Bool :=
  inStep s i || s.gal.slices.any fun x => match x.2.built with
    | none => false
    | some g => g.recs.any fun r => r.index = i && !r.void

/-- Takes the lowest free slot on a slice (R149, R151). -/
def takeSlot (s : State) (i : Nat) (e : Session) (sl : Nat) (prefill : Bool) : Option (State × Session) :=
  let n := firstFree s.gal.slots 0
  if n < 8192 then
    let c := contractSlice s e
    let x : Slot := { index := i, prefill, contracted := c.isSome, draftEn := e.draftEn, prio := e.prio, holdReason := 0,
                      part := sl / 4, slice := sl % 4, model := e.model, customer := e.customer, pos := e.tokens, skipped := 0,
                      draftReady := 0, lastStep := 0, contract := (c.map (·.1)).getD 0xFFF, draftBase := 0, draft := [] }
    some (({ s with gal := { s.gal with slots := mset s.gal.slots n x } }).incWrap SES_LIVE_SLOTS_USED 1,
          { e with seqValid := true, seqSlot := n })
  else none

/-! ### Parks and revivals (R83 to R89) -/

/-- Policing of a park (R138, R140): the colour, the contract, the state. -/
def policePark (s : State) (e : Session) (t : Tier) (D : Nat) : Nat × Option Nat × State :=
  match governing s e.contract 3 fun c => decide (c.tier = t.depth) with
  | none => (0, none, s)
  | some id => let r := police s id D false; (r.1, if r.1 = 3 then none else some id, r.2)

/-- Starts a park, or defers it when its contract marks it red (R83, R140). -/
def startPark (s : State) (i : Nat) (c : Choice) (copyOnly : Bool) : State :=
  match s.ses? i with
  | none => s
  | some e =>
    let r := policePark s e c.tier c.bytes
    if r.1 = 3 then r.2.2.setSes i { e with deferred := some (c.tier, c.place, c.bytes, copyOnly) }
    else
      let op : ParkOp := { target := c.tier, place := c.place, bytes := c.bytes, started := s.now, retried := false, copyOnly,
                           colour := r.1, journal := 0, policed := r.2.1 }
      r.2.2.setSes i { e with park := some op, parkBusy := true, deferred := none }

/-- The ordinal of each page in a P3 copy (R380), with its reference. -/
def ordinals (e : Session) : List (Nat × Word) :=
  (0, e.aux) :: (e.transcriptPages.zipIdx.map fun x => (1 + x.2, x.1)) ++
  e.recur.map (fun x => (257 + x.1, x.2)) ++
  (e.kv.zipIdx.map fun x => (257 + e.recur.length + x.2, x.1.2))

/-- Runs of consecutive numbers: first and count. -/
def runsOf : List Nat → List (Nat × Nat)
  | [] => []
  | n :: ns =>
    match runsOf ns with
    | [] => [(n, 1)]
    | (f, c) :: rest => if f = n + 1 then (n, c + 1) :: rest else (n, 1) :: (f, c) :: rest

/-- The bytes behind a session's references: from P1 frames, or from the lender's or the cartridge's copy. -/
def pagesOf (s : State) (e : Session) : Map (Map Byte) × Map (Map Byte) :=
  match e.tier, e.p2, e.p3 with
  | .p2, some c, _ => (c.kv, c.recur)
  | .p3, _, some c => (c.kv, c.recur)
  | _, _, _ => (e.kv.map fun x => (x.1, frameBytes s (refIndex x.2)), e.recur.map fun x => (x.1, frameBytes s (refIndex x.2)))

/-- The copy a park writes (R380, R381); physical places are free values (log entry 17). -/
def makeCopy (s : State) (e : Session) (b : Nat) (whole : Bool) : Copy :=
  let old := if whole then [] else (e.p3.map (·.extents)).getD []
  let dirty := ((ordinals e).filter fun x => whole || refDirty x.2).map (·.1)
  let ext := (runsOf dirty).map fun r => (r.1, r.2, ((Config.freeWord (s.freeCtr + r.1)).toNat % 2 ^ 40))
  let pg := pagesOf s e
  { bay := b, serial := s.fld (CRT_SERIAL_SERIAL b), gen := (e.p3.map (·.gen)).getD 0 + 1, pages := sesPages e,
    extents := old ++ ext, tokens := e.tokens, generated := e.generated, kvPages := e.kvPages,
    transcript := e.transcriptBytes, segs := e.segs, cur := e.cur, text := e.text, kv := pg.1, recur := pg.2 }

/-- A session whose references name ordinals on a cartridge or frames of a lender: no list pages, roots zero (R40, R286). -/
def deepRefs (e : Session) (loc device base : Nat) : Session :=
  let fix (o : Nat) (r : Word) : Word := pageRef (refDirty r && decide (loc ≠ 3)) false loc device (base + o)
  { e with aux := fix 0 e.aux,
           transcriptPages := e.transcriptPages.zipIdx.map fun x => fix (1 + x.2) x.1,
           recur := e.recur.map fun x => (x.1, fix (257 + x.1) x.2),
           kv := e.kv.zipIdx.map fun x => (x.1.1, fix (257 + e.recur.length + x.2) x.1.2),
           kvRoot := 0, recurRoot := 0, listFrames := [] }

/-- References with DIRTY cleared. -/
def cleanRefs (e : Session) : Session :=
  let fix (r : Word) : Word := refSetDirty r false
  { e with aux := fix e.aux, transcriptPages := e.transcriptPages.map fix, recur := e.recur.map fun x => (x.1, fix x.2),
           kv := e.kv.map fun x => (x.1, fix x.2), dirtyPages := 0 }

/-- Tells the fabric something (frames other than EFT); nothing leaves while transmission is stopped (R485, R496). -/
def send (s : State) (m : Sent) : State :=
  if s.fab.stopped then s else { s with fab := { s.fab with sent := s.fab.sent ++ [m] } }

/-- Releases a session's P2 copy at its lender (R72). -/
def releaseP2 (s : State) (i : Nat) (e : Session) : State :=
  if e.tier = .p2 then send s (.releaseP2 e.lender i) else s

/-- Stops counting a session in SES_DUR_BEHIND (R94). -/
def notBehind (s : State) (e : Session) : State := if e.behind then s.decFld SES_DUR_BEHIND_COUNT 1 else s

/-- Counts a session in SES_DUR_BEHIND (R94). -/
def countBehind (s : State) (i : Nat) (e : Session) : State :=
  if e.behind then s else (s.setSes i { e with behind := true }).incSat SES_DUR_BEHIND_COUNT 1

/-- Commits a P3 write (R83, R84, R93, R94): the copy, the tier unless only the copy is brought current, wear and space. -/
def commitP3 (s : State) (i : Nat) (e : Session) (op : ParkOp) : State :=
  let b := op.place
  let moved := match e.p3 with | some c => c.bay ≠ b | none => true
  let copy := makeCopy s e b moved
  let s := { s with freeCtr := s.freeCtr + sesPages e + 1024 }
  let s := match e.p3 with
    | some c => if c.bay ≠ b && copyPresent s c then
        journalSubmit s c.bay (sessionRec s i e 2 0 c.pages c.gen) ⟨c.cur, c.transcript, c.kvPages⟩ else s
    | none => s
  let stale := (mget s.crt.stale b).getD 0
  let s := if moved then s else { s with crt := { s.crt with stale := mset s.crt.stale b (stale + op.bytes / pageBytes) } }
  let s := ((s.decFld (CRT_FREE_BYTES b) op.bytes).incWrap (CRT_HOST_WR_BYTES b) op.bytes).incWrap (CRT_NAND_WR_BYTES b) op.bytes
  let s := wearDebit s e.contract b op.bytes
  let s := notBehind s e
  let s := policeDone s op.policed
  let done := { e with park := none, parkBusy := false, p3 := some copy, behind := false, waitSince := s.now }
  if op.copyOnly then s.setSes i { cleanRefs done with bay := if e.tier = .p3 then b else e.bay }
  else
    let s := releaseP2 s i e
    let s := freeFrames s e.frames
    let s := s.setSes i { deepRefs (cleanRefs done) 3 0 0 with
      tier := .p3, bay := b, lender := 0, p2 := none, changeTime := s.now }
    showBorrowed s

/-- Commits a P2 park (R83, R84): every page is at the lender; frames there are free values (log entry 17). -/
def commitP2 (s : State) (i : Nat) (e : Session) (op : ParkOp) : State :=
  let copy := makeCopy s e 0 true
  let base := s.draw.1.toNat % 2 ^ 30
  let s := s.draw.2
  let s := releaseP2 s i e
  let s := freeFrames s e.frames
  let s := policeDone s op.policed
  let s := s.setSes i { deepRefs e 2 op.place base with
    park := none, parkBusy := false, tier := .p2, lender := op.place, p2 := some copy, changeTime := s.now }
  showBorrowed s

/-- Aborts a park (R83): pages already durable in P3 become the P3 copy; a partial P2 copy is released. -/
def abortPark (s : State) (i : Nat) : State :=
  match s.ses? i with
  | none => s
  | some e =>
    match e.park with
    | none => s
    | some op =>
      if op.target = .p3 ∧ op.journal ≠ 0 then commitP3 s i e { op with copyOnly := true }
      else
        let s := policeDone s op.policed
        let s := if op.target = .p2 then send s (.releaseP2 op.place i) else s
        s.setSes i { e with park := none, parkBusy := false }

/-- Pages a revival brings to P1, and list pages it rebuilds (R83, R286). -/
def revPages (e : Session) : Nat × Nat :=
  (sesPages e, 1 + (if e.recur.isEmpty then 0 else 1) + ((e.kv.map fun x => x.1 / 2048).eraseDups).length)

/-- Starts a revival (R83, R86 to R88): P1 frames for its pages, policed by its revival-bound contract.  The status says why
it could not start. -/
def startRevival (s : State) (i : Nat) (notify : Bool) : State × Nat :=
  match s.ses? i with
  | none => (s, 0)
  | some e =>
    match e.rev with
    | some op => (s.setSes i { e with rev := some { op with notify := op.notify || notify } }, 0)
    | none =>
      if e.tier = .p3 ∧ (match e.p3 with | some c => copyPresent s c | none => false) = false then
        (sesNoticeFree s i 5 0x2015, 0)
      else
        let n := revPages e
        match allocFrames e.context 1 0 i n.1 s with
        | none => (s, 0x200D)
        | some (fs, s) =>
          match allocFrames e.context 2 0 i n.2 s with
          | none => (freeFrames s fs, 0x200D)
          | some (ls, s) =>
            let S := sesBytes e
            let gov := governing s e.contract 2 fun c => decide (e.tier.depth ≤ c.tier) && decide (S ≤ c.bytes)
            let r := match gov with
              | none => (0, s)
              | some id => police s id S false
            let op : RevOp := { src := e.tier, started := s.now, colour := r.1, bound := revTime e.tier S / tick, notify,
                                again := false, frames := fs, lists := ls, policed := if r.1 = 3 then none else gov }
            (r.2.setSes i { e with rev := some op, reviveBusy := true, overdueDone := false }, 0)

/-- Abandons a revival: its P1 frames are freed (R66, R366). -/
def abortRevival (s : State) (i : Nat) : State :=
  match s.ses? i with
  | none => s
  | some e =>
    match e.rev with
    | none => s
    | some op =>
      let s := policeDone (freeFrames s (op.frames ++ op.lists)) op.policed
      s.setSes i { e with rev := none, reviveBusy := false }

/-- Moves a waiting session to a chosen tier (R83). -/
def applyChoice (s : State) (i : Nat) (c : Choice) : State :=
  match s.ses? i with
  | none => s
  | some e =>
    if e.reviveBusy then
      match e.rev with
      | some op => s.setSes i { e with rev := some { op with again := true } }
      | none => s
    else
      let same := match e.park with
        | some op => op.target = c.tier && op.place = c.place && !op.copyOnly
        | none => false
      if same then s
      else
        let s := if e.parkBusy then abortPark s i else s
        match e.tier, c.tier with
        | .p3, _ => s
        | .p2, .p3 => startPark s i c false
        | .p2, .p2 => s
        | .p2, _ => (startRevival s i false).1
        | _, .p2 => startPark s i c false
        | _, .p3 => startPark s i c false
        | _, _ => s

/-- Applies the horizon rule to a waiting session (R50, R76). -/
def applyHorizon (s : State) (i hint : Nat) : State :=
  match s.ses? i with
  | none => s
  | some e => applyChoice (s.setSes i { e with graceAt := none }) i (chooseTier s e hint)

/-! ### Runs and their ends (R49, R50, R150, R156, R402) -/

/-- Tokenises a session's transcript on entry to PREFILL (R322, R324). -/
def tokeniseSession (s : State) (e : Session) : Session :=
  match mget s.tok.vocabs e.vocab with
  | none => e
  | some v => { e with prompt := e.segs.flatMap (segTokens v), tokenised := true }

/-- Takes a session from PREFILL or ACTIVE to WAITING (R49, R50): slot released, notice posted, wait grace started. -/
def toWaiting (s : State) (i : Nat) (reason status : Nat) : State :=
  match s.ses? i with
  | none => s
  | some e =>
    let r := releaseSlot s e
    let s := r.1.setSes i { r.2 with
      state := .waiting, holdReason := 0, tier := .p1, changeTime := s.now, waitSince := s.now, genLimit := 0, expectTime := 0,
      deadline := 0, graceAt := some (s.now + s.fld SES_CFG_WAIT_GRACE * 1000) }
    let s := sesNoticeFree s i reason status
    if s.fld SES_CFG_WAIT_GRACE = 0 then applyHorizon s i 0 else s

/-- What follows when the transcript is consumed (R49): ACTIVE with tokens to generate, else WAITING. -/
def prefillDone (s : State) (i : Nat) : State :=
  match s.ses? i with
  | none => s
  | some e =>
    if e.genLimit = 0 then toWaiting s i 2 0
    else
      let s := s.setSes i { e with state := .active, changeTime := s.now }
      match mget s.gal.slots e.seqSlot with
      | none => s
      | some x => { s with gal := { s.gal with slots := mset s.gal.slots e.seqSlot { x with prefill := false } } }

/-- Binds a session's three slots in their binding counts (R46). -/
def bindSlots (s : State) (e : Session) : State :=
  let s := s.incWrap (TOK_VOCAB_A_BINDINGS e.vocab) 1
  let s := s.incWrap (TOK_GRAM_A_BINDINGS e.grammar) 1
  match mget s.gal.models e.model with
  | none => s
  | some m => { s with gal := { s.gal with models := mset s.gal.models e.model { m with bindings := m.bindings + 1 } } }

/-- Takes a session out of the binding counts of its three slots (R46). -/
def unbindSlots (s : State) (e : Session) : State :=
  if e.bound then
    let s := s.decFld (TOK_VOCAB_A_BINDINGS e.vocab) 1
    let s := s.decFld (TOK_GRAM_A_BINDINGS e.grammar) 1
    match mget s.gal.models e.model with
    | none => s
    | some m => { s with gal := { s.gal with models := mset s.gal.models e.model { m with bindings := m.bindings - 1 } } }
  else s

/-- Whether the slots bound by a restored or adopted session hold what its record names (R402). -/
def slotsMatch (s : State) (e : Session) : Bool :=
  match e.mustMatch with
  | none => true
  | some (v, m) => s.flag (TOK_VOCAB_A_LOADED e.vocab) && decide (vocabIdOf s e.vocab = v) && (mget s.gal.models e.model).isSome &&
      decide (modelTagOf s e.model = m)

/-- Starts a run at P1 (R49, R149, R150, R156): the status, 0 when it started. -/
def startRun (s : State) (i genLimit : Nat) : State × Nat :=
  match s.ses? i with
  | none => (s, 0)
  | some e =>
    match chooseSlice s e with
    | none => (s, 0x4002)
    | some sl =>
      match takeSlot s i e sl true with
      | none => (s, 0x4008)
      | some (s, e) =>
        let s := if e.bound then s else bindSlots s e
        let e := tokeniseSession s { e with bound := true, mustMatch := none }
        let s := s.setSes i { e with
          state := .prefill, genLimit, changeTime := s.now, graceAt := none, runAfter := none,
          overdueDone := true, deadlineDone := true, deferred := none }
        (if e.transcriptBytes = 0 then prefillDone s i else s, 0)

/-- The event a waiting session waited for (R83, R88, R89): a park is aborted; a revival starts when the session is parked, and
its commit does not arm the overdue rule (R90). -/
def sesEvent (s : State) (i : Nat) (notify : Bool) : State × Nat :=
  let s := abortPark s i
  match s.ses? i with
  | none => (s, 0)
  | some e =>
    let s := s.setSes i { e with overdueDone := true, deadlineDone := true, graceAt := none, deferred := none }
    if e.tier = .p2 ∨ e.tier = .p3 then
      let r := startRevival s i notify
      match r.1.ses? i with
      | none => r
      | some e => (r.1.setSes i { e with overdueDone := true }, r.2)
    else (s, 0)

/-- Runs a WAITING session now, or after its revival (R49, R402): the status. -/
def runSession (s : State) (i genLimit : Nat) : State × Nat :=
  match s.ses? i with
  | none => (s, 0)
  | some e =>
    if !slotsMatch s e then (s, 0x2006)
    else if (chooseSlice s e).isNone then (s, 0x4002)
    else if 8192 ≤ firstFree s.gal.slots 0 then (s, 0x4008)
    else
      let r := sesEvent s i false
      if r.2 ≠ 0 then (s, r.2)
      else
        match r.1.ses? i with
        | none => r
        | some e =>
          if e.tier = .p2 ∨ e.tier = .p3 then (r.1.setSes i { e with runAfter := if e.reviveBusy then some genLimit else none }, 0)
          else startRun r.1 i genLimit

/-! ### Leaving service (R46, R49, R63 to R69) -/

/-- Releases everything of a session but its entry: slot, frames, P2 copy, bindings, held text. -/
def releaseState (s : State) (i : Nat) (st : SesState) : State :=
  match s.ses? i with
  | none => s
  | some e =>
    let s := abortRevival s i
    let s := policeDone s ((e.park.bind (·.policed)))
    let s := match e.park with
      | some op => if op.target = .p2 then send s (.releaseP2 op.place i) else s
      | none => s
    let r := releaseSlot s e
    let s := releaseP2 r.1 i e
    let s := freeFrames s e.frames
    let s := unbindSlots s e
    let s := notBehind s e
    let s := s.setSes i { r.2 with
      state := st, tier := .p1, holdReason := 0, parkBusy := false, reviveBusy := false, endReq := false, kvRoot := 0,
      recurRoot := 0, aux := 0, kv := [], recur := [], transcriptPages := [], segs := [], prompt := [], listFrames := [],
      kvPages := 0, dirtyPages := 0, transcriptBytes := 0, genLimit := 0, park := none, deferred := none, rev := none,
      mig := none, p2 := none, runAfter := none, graceAt := none, ending := none, holdReq := false, lifted := false, behind := false,
      bound := false, lender := 0, changeTime := s.now }
    showBorrowed s

/-- Faults a session and posts the loss (R49). -/
def faultSession (s : State) (i status : Nat) : State :=
  match s.ses? i with
  | none => s
  | some e =>
    if e.state.live then sesNoticeFree (voidBuilt (releaseState s i .faulted) i) i 5 status else s

/-- Restores a session to its P3 copy as it stands (R101): TOKENS and all state as of that copy. -/
def restoreCopy (s : State) (i : Nat) (c : Copy) : State :=
  match s.ses? i with
  | none => s
  | some e =>
    let s := freeFrames (abortRevival s i) e.frames
    let e' : Session := { e with
      tokens := c.tokens, generated := c.generated, kvPages := c.kvPages, transcriptBytes := c.transcript, segs := c.segs,
      cur := c.cur, text := c.text, kv := c.kv.map fun x => (x.1, 0), recur := c.recur.map fun x => (x.1, 0),
      transcriptPages := List.replicate ((c.transcript + pageBytes - 1) / pageBytes) 0, history := e.history.take c.tokens }
    let s := s.setSes i { deepRefs (cleanRefs e') 3 0 0 with
      tier := .p3, bay := c.bay, lender := 0, p2 := none, park := none, parkBusy := false, rev := none, reviveBusy := false,
      changeTime := s.now }
    showBorrowed s

/-- A session whose P2 copy is lost (R101): restored to its P3 copy, or FAULTED. -/
def lostP2 (s : State) (i : Nat) : State :=
  match s.ses? i with
  | none => s
  | some e =>
    match e.p3 with
    | some c =>
      if e.dur = 0 then faultSession s i 0x2012
      else sesNotice (restoreCopy s i c) i 5 0x2013 (BitVec.ofNat 64 c.tokens)
    | none => faultSession s i 0x2012

/-- Whether a cancelled session's work has drained (R66, R67): no galley in flight holds it and its tombstone, where it needs
one, is durable. -/
def drained (s : State) (i : Nat) (e : Session) : Bool :=
  !inStep s i && (e.tombstone = 0 || e.tombstone = 3)

/-- Completes a cancel (R49, R67, R68): the entry is ENDED, the pages are released, the completion posted. -/
def finishCancel (s : State) (i status : Nat) : State :=
  match s.ses? i with
  | none => s
  | some e =>
    match e.cancel with
    | none => s
    | some (src, _, oseq) =>
      let s := releaseState s i .ended
      match s.ses? i with
      | none => s
      | some e =>
        let s := s.setSes i { e with cancel := none, p3 := none, tombstone := 0, lastStatus := status }
        complete s src 0xCA status 0 (BitVec.ofNat 64 oseq) e.tag

/-- Ends a session (R49, R348): held text released, the final record with REASON 6, the state released, its P3 copy
tombstoned, the item completed. -/
def finishEnd (s : State) (i : Nat) (src : Src) : State :=
  let s := flushText s i
  let s := match s.ses? i with
    | none => s
    | some e => sendFinal s i e 6 0
  let s := tombstone s i
  let s := releaseState (voidBuilt s i) i .ended
  match s.ses? i with
  | none => s
  | some e =>
    let s := s.setSes i { e with p3 := none, lastStatus := 0 }
    complete s src 0xCB 0 0 (handleOf s i e) e.tag

end Sys2Proof.Machine
end

