-- ==== Sys2Proof/Machine/MakeReady.lean ====
section
/-! DEFINITION. Make-ready (04): the resource model in exact rational arithmetic, its evaluation, the shortfall report, the shed
order, and the make-ready instructions and events. -/

namespace Sys2Proof.Machine

/-! ### What the model charges against (R124 to R126, R606; 05 R152, R155, R180; 11 R434 to R437) -/

/-- Whether in-service cell `n` of forme `f` is in service (06 R229). -/
def cellInService (s : State) (f n : Nat) : Bool :=
  let k := s.fld (FRM_CELL_MAP_PHYS f n)
  decide (s.fld (FRM_CELL_STAT_STATE f k) = 1) && decide (s.fld (FRM_CELL_STAT_SVC f k) = n)

/-- In-service cells of quire `q` (R152: four quires of forty cells on each forme). -/
def quireCells (s : State) (q : Nat) : List Nat :=
  (List.range 40).filterMap fun j => if cellInService s (q / 4) (40 * (q % 4) + j) then some (160 * (q / 4) + 40 * (q % 4) + j) else none

/-- Quires of a partition. -/
def partQuires (s : State) (p : Nat) : List Nat := (List.range 48).filter (bitOf (s.fld (GAL_PART_QUIRES p)))

/-- In-service cells of a partition, by device cell number (R12). -/
def partCells (s : State) (p : Nat) : List Nat := (partQuires s p).flatMap (quireCells s)

/-- Cell clock of a partition that holds contracts, in MHz (R597). -/
def partClock (s : State) (p : Nat) : Nat :=
  if s.gal.limited = 2 then min 1400 (s.fld (GAL_PART_CLOCK_MHZ p)) else s.fld (GAL_PART_CLOCK_MHZ p)

/-- Class of a format of GLB_CAP3.FORMATS: 0 binary32, 1 sixteen-bit, 2 eight- or six-bit MX, 3 four-bit MX, 4 T2A4. -/
def fmtClass (f : Nat) : Nat :=
  if f = 0 then 0 else if f ≤ 2 then 1 else if f = 7 ∨ f = 9 then 3 else if f = 10 then 4 else 2

/-- Multiply-adds per element per cycle of a pairing of A and B formats (R214, R606); none where the pairing is refused. -/
def madds (a w : Nat) : Option Nat :=
  match fmtClass a, fmtClass w with
  | 0, _ | _, 0 => some 1
  | 1, 1 => some 1
  | 2, 2 | 2, 3 | 3, 2 | 2, 4 => some 2
  | 3, 3 => some 4
  | 3, 4 => some 8
  | _, _ => none

/-- Bits set among the low `n`. -/
def popc (x n : Nat) : Nat := (List.range n).countP (bitOf x)

/-- A percentage of MKR_DERATE. -/
def pct (s : State) (f : Field) : Rat := (s.fld f : Rat) / 100

/-- 10⁹. -/
def giga : Rat := 1000000000

/-- Whether a bay's copies can be read (R125). -/
def bayReads (s : State) (b : Nat) : Bool := decide (s.fld (CRT_BAY_STATE b) = 5) || decide (s.fld (CRT_BAY_STATE b) = 6)

/-- Whether a bay accepts parks (R125). -/
def bayParks (s : State) (b : Nat) : Bool := bitOf (s.fld SES_TIER_STATUS_BAYS_WRITABLE) b

/-- Capacity of a resource at a scope (R124, R125). -/
def capAt (s : State) (r x : Nat) : Rat :=
  let col := (s.bay x).col
  match r with
  | 1 => 1000 * ((partCells s x).length : Rat)
  | 2 => ((partCells s x).length : Rat) * (4194304 - 4096 * (s.fld MKR_DERATE_CELLMEM_RSV_KIB : Rat))
  | 3 => pct s MKR_DERATE_HBM_PCT * 3200 * giga * (popc (s.fld GLB_RES1_STACKS_OK) 12 : Rat)
  | 4 => (s.fld GLB_RES0_HBM_GIB : Rat) * 2 ^ 30
  | 5 => if bayReads s x then pct s MKR_DERATE_FLASH_RD_PCT * 24 * 4800000000 else 0
  | 6 => if bayParks s x then pct s MKR_DERATE_FLASH_PG_PCT * ((col.map (·.progRate)).getD 0 : Rat) * 1000000 else 0
  | 7 => match col with
    | some c => if bayReads s x then
        pct s MKR_DERATE_FLASH_OPS_PCT * 24 * (c.diesPerCh : Rat) * (c.planes : Rat) * 1000000 / (c.tRdWorst : Rat) else 0
    | none => 0
  | 8 | 9 => pct s MKR_DERATE_FABRIC_PCT * 100 * giga * (popc (s.fld GLB_RES1_PORTS_UP) 16 : Rat)
  | 10 => (wearBay s x : Rat) / 12
  | _ => 0

/-- Scopes of a resource: partitions, bays, or the device. -/
def scopesOf (r : Nat) : List Nat :=
  if r ≤ 2 then List.range 16 else if r = 5 ∨ r = 6 ∨ r = 7 ∨ r = 10 then List.range 4 else [0]

/-- SCOPE_KIND of a resource (R136). -/
def scopeKind (r : Nat) : Nat := if r ≤ 2 then 1 else if r = 5 ∨ r = 6 ∨ r = 7 ∨ r = 10 then 2 else if r = 11 then 3 else 0

/-- HBM an open index holds (11 R416). -/
def indexBytes (s : State) (slot : Nat) (x : Index) : Nat :=
  let cap := s.fld (VSE_IX_A_SIDE_CAP slot)
  4 * x.nlist * x.d + 1024 * x.d + cap * (16 + (x.m + 7) / 8 * 8) + cap * 16 +
  (if s.flag (VSE_IX_A_PIN_CODES slot) then x.nlist * x.g * 16384 else 0) +
  (if s.flag (VSE_IX_A_PIN_VEC slot) then (x.nvec + cap) * 2 ^ x.log2rec else 0) +
  (if x.encoder.isSome then 67108864 else 0)

/-- HBM capacity that is always held (R126, 09 R315, 11 R416). -/
def hbmFixed (s : State) : Nat :=
  3 * 2 ^ 30 + (if s.flag SES_LEND_CFG_ENABLE then min 192 (s.fld SES_LEND_CFG_LEND_GIB) * 2 ^ 30 else 0) +
  (s.gal.models.map fun m => if m.2.source = 1 then m.2.imageBytes else m.2.imageBytes - m.2.wtotal).sum +
  (s.tok.vocabs.map fun v => v.2.imageBytes).sum + (s.tok.grammars.map fun g => g.2.imageBytes).sum +
  (s.vse.map fun x => indexBytes s x.1 x.2).sum

/-- Fixed reservations of a resource for a set of contracts (R126). -/
def fixedAt (s : State) (cs : List Contract) (r : Nat) : Rat :=
  let lend : Rat := if s.flag SES_LEND_CFG_ENABLE then (s.fld MKR_CFG_LEND_BW_GBS : Rat) * giga else 0
  let v := min ((cs.filter fun c => decide (c.kind = 2) && decide (2 ≤ c.tier)).map fun c => c.sessions * c.bytes).sum
    (s.fld SES_LEND_CFG_BORROW_MAX_GIB * 2 ^ 30)
  let vac : Rat := (v : Rat) * 1000 / (max 1 (s.fld MKR_CFG_RECLAIM_FLOOR_MS) : Rat)
  match r with
  | 3 => lend + vac
  | 4 => (hbmFixed s : Rat)
  | 8 => lend + vac
  | 9 => lend
  | _ => 0

/-- A demand: resource, scope, amount. -/
abbrev Demand := Nat × Nat × Rat

/-- Terms of a search on an index (11 R435): cycles P and S, bytes H_s and H_u. -/
def searchTerms (s : State) (slot : Nat) (x : Index) (probes rerank : Nat) : Rat × Rat × Rat × Rat :=
  let cap := s.fld (VSE_IX_A_SIDE_CAP slot)
  let ec := 8 + (x.m + 7) / 8 * 8
  let ne := 16384 / ec
  let es := 16 + (x.m + 7) / 8 * 8
  ( (x.nlist * x.d : Rat) / 64 + (probes * x.g * ne * x.m : Rat) / 64 + (cap * x.m : Rat) / 64 + (rerank * x.d : Rat) / 64 + 1000,
    4 * (x.d : Rat) + 8 * (x.m : Rat) + 1000,
    4 * (x.nlist * x.d : Rat) + 1024 * (x.d : Rat) + (cap * es : Rat),
    (probes * x.g * 16384 : Rat) + (rerank * 2 ^ x.log2rec : Rat) )

/-- B_s of R180 for a partition, in bytes per second. -/
def saveRate (s : State) (p bytes : Nat) : Rat :=
  let full := 38400 * giga
  let bf := max ((pct s MKR_DERATE_HBM_PCT * full - (s.fld (MKR_RESV_VALUE 3) : Rat)) / 12)
    ((1 - pct s MKR_DERATE_HBM_PCT) * full / 12)
  ((List.range 12).map fun f =>
    let c := ((partCells s p).filter fun n => n / 160 = f).length
    min ((c * bytes : Rat) * (partClock s p : Rat) * 1000000) (if c = 0 then 0 else bf)).sum

/-- The term of a galley in R434 and R435, in nanoseconds. -/
def searchTerm (s : State) (slot : Nat) (x : Index) (probes rerank : Nat) : Rat :=
  let p := s.fld (VSE_IX_A_PART slot)
  let t := searchTerms s slot x probes rerank
  let q : Rat := s.fld (VSE_IX_A_QPG slot)
  let f : Rat := (partClock s p : Rat) / 1000
  let c : Rat := (partCells s p).length
  max (q * t.1 / (c * f)) ((t.2.2.1 + q * t.2.2.2) * giga / saveRate s p 512) + t.2.1 / f

/-- PROBES and RERANK of the contracts on an index, the largest values of each. -/
def largestProbes (cs : List Contract) (slot : Nat) : Nat × Nat :=
  let l := cs.filter fun c => decide (c.kind = 4) && decide (cf c 2 0 16 = slot)
  ((l.map fun c => cf c 2 27 16).foldl max 0, (l.map fun c => cf c 3 0 16).foldl max 0)

/-- The bound of a query under a search-latency contract (R434, R435), in nanoseconds. -/
def queryBound (s : State) (cs : List Contract) (slot : Nat) (x : Index) (probes rerank : Nat) : Rat :=
  let own := searchTerm s slot x probes rerank
  let p := s.fld (VSE_IX_A_PART slot)
  let other := (s.vse.filter fun y => decide (y.1 ≠ slot) && decide (s.fld (VSE_IX_A_PART y.1) = p)).map fun y =>
    let l := largestProbes cs y.1
    searchTerm s y.1 y.2 l.1 l.2
  10000 + (if other.isEmpty then own else (other.foldl max 0)) + own

/-! ### Demands (R128 to R132) -/

/-- Figures of a step-period contract (R128): n, U, O, H without E, cell memory without E, rate r × η_arith. -/
def stepFigures (s : State) (c : Contract) (m : Model) : Rat × Rat × Rat × Rat × Rat × Rat :=
  let seqs : Rat := cf c 2 42 14
  let mt : Rat := cf c 3 0 32
  let n : Rat := seqs * (1 + (cf c 2 56 5 : Rat)) + (cf c 3 32 16 : Rat)
  let u : Rat := (cf c 2 0 32 : Rat) - (s.fld MKR_STEP_OVH_SIGMA_NS : Rat)
  let o : Rat := n * (m.f : Rat) + n * mt * (m.a : Rat)
  let h : Rat := seqs * mt * (m.kb : Rat) + 2 * seqs * (m.rb : Rat) + n * (m.kb : Rat)
  let r : Rat := 2048 * ((madds m.aformat m.wformat).getD 1 : Rat) * (partClock s (cf c 3 48 8) : Rat) * 1000000
  (n, u, o, h, (m.wres : Rat) + n * (m.mtok : Rat), r * pct s MKR_DERATE_ARITH_PCT)

/-- Spilled bytes of a step-period contract with `avail` bytes of cell memory (R134). -/
def spilled (c : Contract) (mem avail : Rat) : Rat :=
  let e := mem - avail
  if c.spill && decide (0 < e) && decide (e ≤ avail / 4) then e else 0

/-- Demands of a step-period contract (R128). -/
def stepDemand (s : State) (c : Contract) (m : Model) (avail : Rat) : List Demand :=
  let (n, u, o, h, mem, r) := stepFigures s c m
  let e := spilled c mem avail
  let p := cf c 3 48 8
  let seqs : Rat := cf c 2 42 14
  let x := n * (m.xb : Rat) * giga / u
  [ (1, p, 1000 * o * giga / (u * r)), (2, p, mem - e), (3, 0, (h + e) * giga / u),
    (4, 0, seqs * ((cf c 3 0 32 : Rat) * (m.kb : Rat) + (m.rb : Rat) + 16384)), (8, 0, x), (9, 0, x) ]

/-- Demands of a search-latency contract (R131, R437). -/
def searchDemand (s : State) (c : Contract) (slot : Nat) (x : Index) : List Demand :=
  let probes := cf c 2 27 16
  let rerank := cf c 3 0 16
  let pi : Rat := (c.cr : Rat) + (c.cb : Rat)
  let q := pi / (max 1 probes : Rat)
  let ops := pi * (x.g : Rat) + q * (rerank : Rat)
  let bays := (List.range 4).filter (bitOf (x.object % 16))
  let t := searchTerms s slot x probes rerank
  let p := s.fld (VSE_IX_A_PART slot)
  bays.flatMap (fun b => [(5, b, ops * 16384 / (bays.length : Rat)), (7, b, ops / (bays.length : Rat))]) ++
  [ (1, p, 1000 * q * (t.1 + t.2.1) / ((partClock s p : Rat) * 1000000 * pct s MKR_DERATE_ARITH_PCT)),
    (3, 0, q * (t.2.2.1 + t.2.2.2)) ]

/-- Demands of a contract; `avail` is the cell memory left to a step-period contract (R128 to R132). -/
def demandsOf (s : State) (c : Contract) (avail : Rat) : List Demand :=
  let m : Rat := c.conc
  let parks := (List.range 4).filter (bayParks s)
  match c.kind with
  | 1 => match mget s.gal.models (cf c 2 32 10) with
    | some x => stepDemand s c x avail
    | none => []
  | 2 =>
    [(4, 0, (c.sessions * c.bytes : Rat)),
     (3, 0, m * (800 + (if 2 ≤ c.tier then 88 else 0) + (if c.tier = 3 then 16 else 0)) * giga)] ++
    (if 2 ≤ c.tier then [(8, 0, m * 44 * giga), (9, 0, m * 44 * giga)] else []) ++
    (if c.tier = 3 then
      ((List.range 4).filter (bayReads s)).flatMap (fun b => [(5, b, m * 14 * giga), (7, b, m * 14 * giga / 16384)]) ++
      parks.map (fun b => (6, b, m * 2 * giga)) else [])
  | 3 => if c.tier = 2 then [(3, 0, m * 44 * giga), (9, 0, m * 44 * giga)]
    else (3, 0, m * 2 * giga) :: parks.map fun b => (6, b, m * 2 * giga)
  | 4 => match mget s.vse (cf c 2 0 16) with
    | some x => searchDemand s c (cf c 2 0 16) x
    | none => []
  | 5 =>
    let bays := (List.range 4).filter (bitOf c.bayMask)
    bays.map fun b => (10, b, (c.bytes : Rat) / (bays.length : Rat))
  | _ => []

/-- The bound a contract needs where it fails its latency check (R133, R436); none where it passes. -/
def latencyNeed (s : State) (cs : List Contract) (c : Contract) : Option Rat :=
  let bound : Rat := cf c 4 0 32
  match c.kind with
  | 1 => if cf c 2 0 32 ≤ s.fld MKR_STEP_OVH_SIGMA_NS then some (s.fld MKR_STEP_OVH_SIGMA_NS : Rat) else none
  | 2 =>
    let t : Tier := if c.tier = 3 then .p3 else if c.tier = 2 then .p2 else .p1
    let need : Rat := (revTime t c.bytes : Rat) / (tick : Rat)
    if need ≤ bound then none else some need
  | 4 =>
    let slot := cf c 2 0 16
    match mget s.vse slot with
    | none => some (2 ^ 64 - 1)
    | some x =>
      if s.flag (VSE_IX_A_PIN_CODES slot) && s.flag (VSE_IX_A_PIN_VEC slot) then
        let need := queryBound s cs slot x (cf c 2 27 16) (cf c 3 0 16)
        if need ≤ bound then none else some need
      else some (2 ^ 64 - 1)
  | _ => none

/-! ### Binding of step-period contracts to slices (05 R155) -/

/-- Whether a slice can carry a step-period contract. -/
def sliceFits (s : State) (c : Contract) (sl : Nat) : Bool :=
  let model := cf c 2 32 10
  decide (sl / 4 = cf c 3 48 8) && servesModel s sl model && s.flag (GAL_SLICE_A_RESIDENT (sl / 4) (sl % 4)) &&
  (mget s.gal.models model).isSome

/-- Contracts of a set that keep the slice they hold: in force with the record unchanged. -/
def keepBinding (s : State) (set : Map Contract) : Map Nat :=
  s.mkr.binding.filter fun b => match mget set b.1 with
    | none => false
    | some c => decide (inForce s b.1 = some c) && sliceFits s c b.2

/-- Claims slices for the rest in ascending identifier. -/
def claimSlices (s : State) : Map Contract → Map Nat → Map Nat
  | [], b => b
  | (id, c) :: r, b =>
    if c.kind = 1 ∧ (mget b id).isNone then
      match (List.range 64).find? fun sl => sliceFits s c sl && !b.any (·.2 = sl) with
      | some sl => claimSlices s r (mset b id sl)
      | none => claimSlices s r b
    else claimSlices s r b

/-- The slices of a set's step-period contracts. -/
def bindingOf (s : State) (set : Map Contract) : Map Nat := claimSlices s set (keepBinding s set)

/-! ### Evaluation (R118, R124, R135 to R137) -/

/-- Each contract with its demands; a step-period contract finds the cell memory that those before it leave (R134). -/
def chargeAll (s : State) : List (Nat × Contract) → Map Rat → List (Nat × Contract × Rat × List Demand)
  | [], _ => []
  | (id, c) :: r, used =>
    let p := cf c 3 48 8
    let avail := capAt s 2 p - (mget used p).getD 0
    let d := demandsOf s c avail
    let mem := (d.filter fun x => x.1 = 2).map (·.2.2) |>.sum
    (id, c, avail, d) :: chargeAll s r (if c.kind = 1 then mset used p ((mget used p).getD 0 + mem) else used)

/-- Total demand at a resource and scope. -/
def totalAt (l : List (Nat × Contract × Rat × List Demand)) (r x : Nat) : Rat :=
  ((l.flatMap fun e => e.2.2.2).filter fun d => decide (d.1 = r) && decide (d.2.1 = x)).map (·.2.2) |>.sum

/-- Step-period contracts of a set that found no slice: they have zero capacity in cell time and cell memory (R155). -/
def unbound (set : Map Contract) (b : Map Nat) (p : Nat) : Bool :=
  set.any fun x => decide (x.2.kind = 1) && decide (cf x.2 3 48 8 = p) && (mget b x.1).isNone

/-- Resources and scopes that are short: capacity below fixed reservations and demand (R124). -/
def shortScopes (s : State) (set : Map Contract) (kept : List Contract) (l : List (Nat × Contract × Rat × List Demand)) :
    List (Nat × Nat) :=
  let b := bindingOf s set
  let cs := set.map (·.2) ++ kept
  ((List.range 10).map (· + 1)).flatMap fun r => (scopesOf r).filterMap fun x =>
    if decide (capAt s r x < fixedAt s cs r + totalAt l r x) || (decide (r ≤ 2) && unbound set b x) then some (r, x) else none

/-- Contracts that fail their latency check, with the bound they need. -/
def lateOnes (s : State) (set : Map Contract) : List (Nat × Rat) :=
  set.filterMap fun x => (latencyNeed s (set.map (·.2)) x.2).map fun n => (x.1, n)

/-- An amount as a 64-bit word, rounded up or down, at least zero. -/
def ceilWord (q : Rat) : Nat := min (2 ^ 64 - 1) (max 0 q.ceil).toNat
def floorWord (q : Rat) : Nat := min (2 ^ 64 - 1) (max 0 q.floor).toNat

/-- One entry of the shortfall report (R136). -/
def reportEntry (r kind x id req avail : Nat) : List Byte :=
  leBytes 8 (r + kind * 2 ^ 8 + x * 2 ^ 10 + id * 2 ^ 26) ++ leBytes 8 req ++ leBytes 8 avail ++ leBytes 8 (req - avail)

/-- Contracts of the kept reservations (R120). -/
def keptOf (s : State) : List (Nat × Contract) := s.mkr.kept.map fun x => (x.1, x.2.1)

/-- The set an evaluation looks at: the context's pending set with the admitted sets of the others (R118). -/
def setFor (s : State) (ctx : Nat) : Map Contract :=
  (s.mkr.pending.filter fun x => x.1 / 64 = ctx).foldl (fun m x => mset m x.1 x.2)
    (s.mkr.admitted.filter fun x => x.1 / 64 ≠ ctx)

/-- Contracts charged in an evaluation of a context's pending set: the others first, then kept reservations, then the pending
ones, each by identifier. -/
def chargeOrder (s : State) (ctx : Nat) : List (Nat × Contract) :=
  (s.mkr.admitted.filter fun x => x.1 / 64 ≠ ctx) ++ keptOf s ++ s.mkr.pending.filter fun x => x.1 / 64 = ctx

/-- Entries of the report for short scopes (R136, R137). -/
def shortEntries (s : State) (ctx : Nat) (set : Map Contract) (l : List (Nat × Contract × Rat × List Demand))
    (short : List (Nat × Nat)) : List (List Byte) :=
  let mine := l.drop (l.length - (s.mkr.pending.filter fun x => x.1 / 64 = ctx).length)
  let rest := l.take (l.length - mine.length)
  let b := bindingOf s set
  let cs := set.map (·.2) ++ (keptOf s).map (·.2)
  short.map fun k =>
    let req := ceilWord (totalAt mine k.1 k.2)
    let cap := if decide (k.1 ≤ 2) && unbound set b k.2 then 0 else capAt s k.1 k.2
    let avail := floorWord (cap - fixedAt s cs k.1 - totalAt rest k.1 k.2)
    let id := (mine.filter fun e => e.2.2.2.any fun d => decide (d.1 = k.1) && decide (d.2.1 = k.2)).map (·.1) |>.min?
    reportEntry k.1 (scopeKind k.1) k.2 (id.getD 0xFFF) req avail

/-- The spill offer (R135): contract and period in nanoseconds. -/
def spillOffer (s : State) (ctx : Nat) (set : Map Contract) (l : List (Nat × Contract × Rat × List Demand))
    (short : List (Nat × Nat)) (late : Bool) : Option (Nat × Nat) :=
  if late || short.isEmpty || short.any fun k => decide (k.1 ≠ 2) then none
  else
    let mine := l.filter fun e => decide (e.1 / 64 = ctx) && decide (e.2.1.kind = 1) && short.any fun k => k.2 = cf e.2.1 3 48 8
    match mine.map (·.1) |>.min? with
    | none => none
    | some id =>
      match mine.find? (·.1 = id) with
      | none => none
      | some (_, c, avail, _) =>
        match mget s.gal.models (cf c 2 32 10) with
        | none => none
        | some m =>
          let (_, _, o, h, mem, r) := stepFigures s c m
          let e := mem - avail
          let p := cf c 3 48 8
          let rest := l.filter (·.1 ≠ id)
          let ca := (capAt s 1 p - totalAt rest 1 p) / 1000
          let ba := capAt s 3 0 - fixedAt s (set.map (·.2) ++ (keptOf s).map (·.2)) 3 - totalAt rest 3 0
          if c.spill || decide (e ≤ 0) || decide (avail / 4 < e) || decide (ca ≤ 0) || decide (ba ≤ 0) then none
          else
            let t := (s.fld MKR_STEP_OVH_SIGMA_NS : Rat) + max (o * giga / (ca * r)) ((h + e) * giga / ba)
            some (id, 1000 * (t / 1000).ceil.toNat)

/-- The 1,056 bytes of the shortfall report (R136). -/
def reportBytes (entries : List (List Byte)) (offer : Option (Nat × Nat)) : List Byte :=
  let n := min 32 entries.length
  let w0 := 0x3001 + n * 2 ^ 16 + b2n (decide (32 < entries.length)) * 2 ^ 22 + b2n offer.isSome * 2 ^ 23 +
    ((offer.map (·.1)).getD 0) * 2 ^ 24
  let body := leBytes 8 w0 ++ leBytes 8 ((offer.map (·.2)).getD 0) ++ leBytes 16 0 ++ (entries.take 32).flatten
  body ++ List.replicate (1056 - body.length) 0

/-- Shows IN_FORCE, capacities and reservations (R148). -/
def showModel (s : State) : State :=
  let all := s.mkr.admitted ++ keptOf s
  let l := chargeAll s all []
  let cs := all.map (·.2)
  let s1 := s.setFld MKR_STATUS_IN_FORCE s.mkr.admitted.length
  ((List.range 10).map (· + 1)).foldl (fun t r =>
    let cap := ((scopesOf r).map fun x => capAt s r x).sum
    let res := fixedAt s cs r + ((scopesOf r).map fun x => totalAt l r x).sum
    (t.setFld (MKR_CAP_VALUE r) (floorWord cap)).setFld (MKR_RESV_VALUE r) (ceilWord res)) s1

/-- Whether a changed record starts its buckets or pools anew (R140, R141). -/
def rebucket (old new_ : Contract) : Bool :=
  decide (old.kind ≠ new_.kind) || decide (old.cr ≠ new_.cr) || decide (old.pr ≠ new_.pr) || decide (old.cb ≠ new_.cb) ||
  decide (old.pb ≠ new_.pb) || decide (old.ovh ≠ new_.ovh) ||
  (decide (new_.kind = 5) && (decide (old.bytes ≠ new_.bytes) || decide (old.bayMask ≠ new_.bayMask)))

/-- The next admitted sets take the place of the present ones (R118, R120, R140, R155): levels of unchanged contracts stay,
reservations of operations in progress are kept. -/
def installSets (s : State) (set : Map Contract) : State :=
  let s := wearFill s
  let gone := s.mkr.admitted.filter fun x => decide (mget set x.1 ≠ some x.2)
  let kept := gone.filterMap fun x =>
    let n := (liveOf s x.1 x.2).conc
    if n = 0 then none else some (x.1, x.2, n)
  let live := set.map fun x => match inForce s x.1 with
    | none => (x.1, liveInit x.2 s.now)
    | some old =>
      let l := liveOf s x.1 old
      let l := if rebucket old x.2 then liveInit x.2 s.now else l
      (x.1, { l with conc := if old = x.2 then l.conc else 0 })
  let b := bindingOf s set
  showModel { s with mkr := { s.mkr with admitted := set, live, kept := s.mkr.kept ++ kept, binding := b } }

/-- Whether every link of a context's pending set names a contract of the right kind in that set (R116, R118). -/
def linksOk (s : State) (ctx : Nat) : Bool :=
  let set := s.mkr.pending.filter fun x => x.1 / 64 = ctx
  let names (l kind : Nat) : Bool := decide (l = 0xFFF) || (match mget set l with | none => false | some c => decide (c.kind = kind))
  set.all fun x =>
    (decide (x.2.kind ≠ 1) || names (cf x.2 1 0 12) 2) &&
    (decide (x.2.kind ≠ 1 ∧ x.2.kind ≠ 2) || (names (cf x.2 1 12 12) 3 && names (cf x.2 1 24 12) 5))

/-- Completes a mkr.ready with a status; LAST_STATUS shows it (R148). -/
def readyDone (s : State) (src : Src) (st : Nat) : State :=
  let s := s.setFld MKR_STATUS_LAST_STATUS st
  if st = 0 then
    complete s src 0xD2 0 (BitVec.ofNat 64 (s.mkr.admitted.countP fun x => x.1 / 64 = src.ctx)) 0 0
  else completeFail s src 0xD2 st 0 0

/-- Evaluates one mkr.ready (R118, R124, R136), refused while time is not locked (01 R27). -/
def evaluateOne (s : State) (r : ReadyReq) : State :=
  let ctx := r.src.ctx
  if s.fld GLB_TIME_STATUS_LOCKED = 0 then readyDone s r.src 0x3002
  else if !linksOk s ctx then readyDone s r.src 0x3006
  else
    let set := setFor s ctx
    let l := chargeAll s (chargeOrder s ctx) []
    let short := shortScopes s set ((keptOf s).map (·.2)) l
    let late := lateOnes s set
    if short.isEmpty && late.isEmpty then readyDone (installSets s set) r.src 0
    else
      let entries := shortEntries s ctx set l short ++ late.map fun x =>
        reportEntry 11 3 x.1 x.1 (ceilWord x.2) (match mget set x.1 with | some c => cf c 4 0 32 | none => 0)
      let rep := reportBytes entries (spillOffer s ctx set l short (!late.isEmpty))
      match itemWrite s r.src 1 r.addr rep with
      | .error st => readyDone s r.src st
      | .ok s => readyDone s r.src 0x3001

/-- Starts the next evaluation in fetch order (R119). -/
def startNext (s : State) : State :=
  match s.mkr.waiting with
  | [] => { s.setFld MKR_STATUS_EVALUATING 0 with mkr := { s.mkr with evaluating := none } }
  | r :: rest => { s.setFld MKR_STATUS_EVALUATING 1 with mkr := { s.mkr with evaluating := some r, waiting := rest } }

/-! ### Capacity loss and shedding (R143 to R146) -/

/-- Order of kinds in which contracts are shed (R144). -/
def shedKind (k : Nat) : Nat := match k with | 4 => 0 | 3 => 1 | 5 => 2 | 2 => 3 | _ => 4

/-- The key by which contracts are shed, as one number (R144). -/
def shedKey (id : Nat) (c : Contract) : Nat :=
  ((c.rank * 8 + shedKind c.kind) * 64 + (63 - id / 64)) * 64 + (63 - id % 64)

/-- A record with its links to an identifier taken as none (R145). -/
def unlink (id : Nat) (c : Contract) : Contract :=
  let fix (lo : Nat) (w : Word) : Word := if bits w.toNat lo 12 = id then putField w lo 12 0xFFF else w
  let w := c.getD 1 0
  let w := if c.kind = 1 then fix 0 (fix 12 (fix 24 w)) else if c.kind = 2 then fix 12 (fix 24 w) else w
  c.set 1 w

/-- Sheds a contract (R145). -/
def shedOne (s : State) (id : Nat) (c : Contract) (resource : Nat) : State :=
  let fix (m : Map Contract) : Map Contract := (mdel m id).map fun x => (x.1, unlink id x.2)
  let s := wearFill s
  let s := { s with mkr := { s.mkr with
    admitted := fix s.mkr.admitted, pending := fix s.mkr.pending, shed := mset s.mkr.shed id c,
    live := mdel s.mkr.live id, binding := mdel s.mkr.binding id } }
  let s := s.incSat MKR_SHED_COUNT_COUNT 1
  notice s (id / 64) 0 7 0x3020 (BitVec.ofNat 64 resource) (BitVec.ofNat 64 id) 0

/-- Sheds contracts one at a time until everything fits (R144). -/
def shedLoop : Nat → State → State
  | 0, s => s
  | n + 1, s =>
    let set := s.mkr.admitted
    let l := chargeAll s (set ++ keptOf s) []
    let b := bindingOf s set
    let short := shortScopes s set ((keptOf s).map (·.2)) l
    let late := lateOnes s set
    let touches (id : Nat) (c : Contract) (d : List Demand) : Bool :=
      (d.any fun x => decide (0 < x.2.2) && short.contains (x.1, x.2.1)) || late.any (·.1 = id) ||
      (decide (c.kind = 1) && (mget b id).isNone)
    let cand := (l.take set.length).filter fun e => touches e.1 e.2.1 e.2.2.2
    let first := match short with
      | k :: _ => k.1
      | [] => 11
    match cand.foldl (fun best e => match best with
        | none => some (e.1, e.2.1)
        | some y => if shedKey e.1 e.2.1 < shedKey y.1 y.2 then some (e.1, e.2.1) else some y)
        (none : Option (Nat × Contract)) with
    | none => s
    | some (id, c) => shedLoop n (shedOne s id c first)

/-- The re-evaluation of every admitted set on the remaining capacity (R143). -/
def reevaluate (s : State) : State :=
  let s := shedLoop s.mkr.admitted.length (wearFill s)
  showModel { s with mkr := { s.mkr with due := false, binding := bindingOf s s.mkr.admitted } }

def execCapacityReevaluation (s : State) : Host.Outcome State Fault Refusal :=
  .next (if s.mkr.due then reevaluate s else s)

/-- The evaluation in progress ends; after a capacity loss it restarts on the reduced capacity first (R119, R147). -/
def endEvaluation (s : State) : State :=
  match s.mkr.evaluating with
  | none => s
  | some r =>
    let s := if s.mkr.due then reevaluate s else s
    startNext (evaluateOne s r)

def execMakeReadyEvaluation (s : State) : Host.Outcome State Fault Refusal := .next (endEvaluation s)

/-! ### The make-ready instructions (R115 to R122, R611) -/

/-- Bits of a word outside a mask of used bits. -/
def unused (c : Contract) (word used : Nat) : Bool := decide ((c.getD word 0).toNat &&& (2 ^ 64 - 1 - used) ≠ 0)

/-- A mask of bits lo to lo + w - 1. -/
def span (lo w : Nat) : Nat := (2 ^ w - 1) * 2 ^ lo

/-- Used bits of words 0, 2 to 11 of a kind (R109). -/
def usedBits (k : Nat) : List (Nat × Nat) :=
  let buckets := [(8, span 0 64), (9, span 0 48), (10, span 0 48), (11, span 0 48)]
  let none_ := [(8, 0), (9, 0), (10, 0), (11, 0)]
  let head := span 0 4 + span 8 15
  (match k with
  | 1 => [(0, head + span 24 1), (2, span 0 61), (3, span 0 56), (4, 0)] ++ none_
  | 2 => [(0, head + span 23 1), (2, span 0 42), (3, span 0 48), (4, span 0 32)] ++ buckets
  | 3 => [(0, head + span 23 1), (2, span 0 2 + span 26 16), (3, span 0 48), (4, 0)] ++ buckets
  | 4 => [(0, head + span 23 1), (2, span 0 43), (3, span 0 16), (4, span 0 32)] ++ buckets
  | _ => [(0, head + span 23 1), (2, span 0 4), (3, span 0 48), (4, 0)] ++ none_) ++
  [(1, span 0 36), (5, 0), (6, 0), (7, 0)]

/-- Whether the fields of a record lie in the ranges of R109. -/
def rangesOk (c : Contract) : Bool :=
  let within (lo v hi : Nat) : Bool := decide (lo ≤ v) && decide (v ≤ hi)
  match c.kind with
  | 1 => decide (40000 ≤ cf c 2 0 32) && within 1 (cf c 2 42 14) 8192 && decide (cf c 2 56 5 ≤ 16) && decide (cf c 3 48 8 ≤ 15)
  | 2 => within 1 c.tier 3 && within 1 c.sessions 16777215 && decide (1 ≤ c.conc)
  | 3 => within 2 c.tier 3 && decide (1 ≤ c.conc)
  | 4 => within 1 (cf c 2 16 11) 1024 && decide (1 ≤ cf c 2 27 16)
  | 5 => decide (c.bayMask ≠ 0)
  | _ => false

/-- Whether links are set only in kinds that have them, and name contracts of the right kind (R116). -/
def linkShape (s : State) (c : Contract) : Bool :=
  let names (l kind : Nat) : Bool := decide (l = 0xFFF) ||
    (match mget s.mkr.pending l with | none => true | some x => decide (x.kind = kind))
  let free (l : Nat) : Bool := decide (l = 0) || decide (l = 0xFFF)
  (if c.kind = 1 then names (cf c 1 0 12) 2 else free (cf c 1 0 12)) &&
  (if c.kind = 1 ∨ c.kind = 2 then names (cf c 1 12 12) 3 && names (cf c 1 24 12) 5
   else free (cf c 1 12 12) && free (cf c 1 24 12))

/-- Whether bucket parameters are valid (R117). -/
def bucketsOk (c : Contract) : Bool :=
  let item := (if c.kind = 4 then cf c 2 27 16 else c.bytes) + c.ovh
  decide (c.kind = 1) || decide (c.kind = 5) ||
  (decide (0 < c.cr) && decide (c.cr ≤ c.pr) && decide (c.cb ≤ c.pb) && decide (item ≤ c.cb))

/-- The status that refuses a record in a context (R116, R117); 0 where none does. -/
def defineRefusal (s : State) (ctx : Nat) (c : Contract) : Nat :=
  if c.id / 64 ≠ ctx then 0x3004
  else if decide (c.kind = 0) || decide (5 < c.kind) || !rangesOk c || (usedBits c.kind).any fun u => unused c u.1 u.2 then 0x3003
  else if !linkShape s c then 0x3006
  else if !bucketsOk c then 0x3005
  else 0

/-- Eight-byte words of a byte string. -/
def words8 : Nat → List Byte → List Word
  | 0, _ => []
  | n + 1, bs => BitVec.ofNat 64 (leNat (bs.take 8)) :: words8 n (bs.drop 8)

/-- The effect of mkr.define. -/
def defineBody (src : Src) (addr : Word) (s : State) : State × Reply :=
  match itemRead s src 1 addr 96 with
  | .error st => (s, .status st)
  | .ok bs =>
    let c : Contract := words8 12 bs
    let obj := BitVec.ofNat 64 c.id
    let st := defineRefusal s src.ctx c
    if st ≠ 0 then (s, .fail st obj 0)
    else ({ s with mkr := { s.mkr with pending := mset s.mkr.pending c.id c, shed := mdel s.mkr.shed c.id } },
          .done 0 obj obj 0)

def execMkrDefine (src : Src) (addr : BitVec 64) (s : State) : Host.Outcome State Fault Refusal :=
  .next (runItem s src 0xD0 (defineBody src addr))

/-- The effect of mkr.drop. -/
def dropBody (src : Src) (id : Nat) (s : State) : State × Reply :=
  let obj := BitVec.ofNat 64 id
  if id / 64 = src.ctx ∧ (mget s.mkr.pending id).isSome then
    ({ s with mkr := { s.mkr with pending := mdel s.mkr.pending id } }, .done 0 0 obj 0)
  else (s, .fail 0x3012 obj 0)

def execMkrDrop (src : Src) (id : Nat) (s : State) : Host.Outcome State Fault Refusal :=
  .next (runItem s src 0xD1 (dropBody src id))

/-- The effect of mkr.ready: refused without a time lock, else evaluated in fetch order (R119, R122). -/
def readyBody (src : Src) (addr : Word) (s : State) : State × Reply :=
  if s.fld GLB_TIME_STATUS_LOCKED = 0 then (s.setFld MKR_STATUS_LAST_STATUS 0x3002, .status 0x3002)
  else
    let s := { s with mkr := { s.mkr with waiting := s.mkr.waiting ++ [⟨src, addr⟩] } }
    (if s.mkr.evaluating.isSome then s else startNext s, .later)

def execMkrReady (src : Src) (addr : BitVec 64) (s : State) : Host.Outcome State Fault Refusal :=
  .next (runItem s src 0xD2 (readyBody src addr))

/-- Empties a context's pending and admitted sets (R121). -/
def withdraw (s : State) (ctx : Nat) : State :=
  let s := { s with mkr := { s.mkr with pending := s.mkr.pending.filter fun x => x.1 / 64 ≠ ctx } }
  installSets s (s.mkr.admitted.filter fun x => x.1 / 64 ≠ ctx)

def execMkrWithdraw (src : Src) (s : State) : Host.Outcome State Fault Refusal :=
  .next (runItem s src 0xD3 fun s => (withdraw s src.ctx, .ok))

/-- The 128 bytes of mkr.query (R115). -/
def queryImage (s : State) (id st : Nat) (c : Contract) : List Byte :=
  let l := if st = 1 then liveOf s id c else liveInit c s.now
  let lv (n : Nat) : Nat := if st = 1 ∧ 2 ≤ c.kind ∧ c.kind ≤ 4 then n / 10 ^ 9 else 0
  c.flatMap (fun w => leBytes 8 w.toNat) ++
  leBytes 8 (st + (if st = 1 then boundTo s id else 0) * 4) ++ leBytes 8 (lv l.cLevel) ++ leBytes 8 (lv l.pLevel) ++ leBytes 8 0

/-- The state and record of an identifier: in force 1, pending 0, shed 2 (R115, R611). -/
def contractState (s : State) (id : Nat) : Option (Nat × Contract) :=
  match inForce s id, mget s.mkr.pending id, mget s.mkr.shed id with
  | some c, _, _ => some (1, c)
  | _, some c, _ => some (0, c)
  | _, _, some c => some (2, c)
  | _, _, _ => none

/-- The effect of mkr.query. -/
def mkrQueryBody (src : Src) (id : Nat) (addr : Word) (s : State) : State × Reply :=
  let obj := BitVec.ofNat 64 id
  if id / 64 ≠ src.ctx then (s, .fail 0x3004 obj 0)
  else match contractState s id with
    | none => (s, .fail 0x3010 obj 0)
    | some (st, c) =>
      match itemWrite s src 2 addr (queryImage s id st c) with
      | .error e => (s, .fail e obj 0)
      | .ok s => (s, .done 0 (BitVec.ofNat 64 st) obj 0)

def execMkrQuery (src : Src) (id : Nat) (addr : BitVec 64) (s : State) : Host.Outcome State Fault Refusal :=
  .next (runItem s src 0xD4 (mkrQueryBody src id addr))

end Sys2Proof.Machine
end

