-- ==== Sys2Proof/Machine/Objects.lean ====
section
/-! DEFINITION. Flash objects (10 R409, R410): identifiers, who may use an object, which bays hold it. -/

namespace Sys2Proof.Machine

/-- An object found on cartridges this device did not write it to: serials, identifier (free values, log entry 12). -/
opaque Config.flashObject : List Nat → Nat → Option FlashObj
/-- Bytes of a cartridge held by flash objects found on it, by serial (free values, log entry 12). -/
opaque Config.objectBytes : Nat → Nat
/-- Bytes of a cartridge that one context's flash objects found on it hold, by serial (free values, log entry 12). -/
opaque Config.ctxObjectBytes : Nat → Nat → Nat

/-- BAY_MASK of an identifier (R409). -/
def objMask (id : Nat) : Nat := bits id 0 4
/-- KIND of an identifier (R409). -/
def objKind (id : Nat) : Nat := bits id 4 4
/-- CONTEXT of an identifier (R409). -/
def objCtx (id : Nat) : Nat := bits id 8 6

/-- Bays a mask names. -/
def maskBays (m : Nat) : List Nat := (List.range 4).filter (bitOf m)

/-- Whether a context may use an object: its own, and the physical function's every object (R409). -/
def objMay (ctx id : Nat) : Bool := decide (ctx = 0) || decide (ctx = objCtx id)

/-- Serials of the cartridges in the bays an identifier names. -/
def objSerials (s : State) (id : Nat) : List Nat := (maskBays (objMask id)).map fun b => s.fld (CRT_SERIAL_SERIAL b)

/-- An object that was on the cartridges before this device wrote to them, unless it has been deleted or formatted away. -/
def objFound (s : State) (ks : List Nat) (id : Nat) : Option FlashObj :=
  if (s.crt.gone.any fun g => decide (g.1 = id) && decide (g.2.1 = ks)) || (ks.any fun k => s.crt.fresh.contains k) ||
      (ks.any fun k => s.crt.purged.contains (objCtx id, k)) then none
  else Config.flashObject ks id

/-- The object of an identifier on the cartridges now in its bays. -/
def objAt (s : State) (id : Nat) : Option FlashObj :=
  let ks := objSerials s id
  match mget s.crt.objects id with
  | some o => if o.serials = ks then some o else objFound s ks id
  | none => objFound s ks id

/-- An object as a context reads it, or the status that refuses it (R410): 0x8005 of another context, 0x8001 while a bay of the
mask cannot be read, 0x8003 where there is no such object. -/
def objFind (s : State) (ctx id : Nat) : Except Nat FlashObj :=
  if !objMay ctx id then .error 0x8005
  else if objMask id = 0 ∨ !((maskBays (objMask id)).all (bayReads s)) then .error 0x8001
  else match objAt s id with
    | none => .error 0x8003
    | some o => .ok o

/-- Bytes of a bay that an object of a length takes: its pages go round-robin over the bays of its mask (R409). -/
def objShare (id len b : Nat) : Nat :=
  let bays := maskBays (objMask id)
  let n := bays.length
  let pages := (len + pageBytes - 1) / pageBytes
  if bays.contains b then (pages + n - 1 - bays.idxOf b) / n * pageBytes else 0

/-- Puts an object in the list of those known. -/
def objStore (s : State) (id : Nat) (m : Map Byte) (len : Nat) : State :=
  { s with crt := { s.crt with objects := mset s.crt.objects id ⟨len, m, objSerials s id⟩ } }

/-- Charges a bay for a write of flash: FREE, HOST_WR and NAND_WR (R379, R412). -/
def chargeWrite (s : State) (b bytes : Nat) : State :=
  ((s.decFld (CRT_FREE_BYTES b) bytes).incWrap (CRT_HOST_WR_BYTES b) bytes).incWrap (CRT_NAND_WR_BYTES b) bytes

/-- Writes an object: its bytes, and each bay's share of its pages. -/
def objPut (s : State) (id : Nat) (bs : List Byte) : State :=
  let m : Map Byte := (bs.zipIdx.filter fun x => decide (x.1 ≠ 0)).map fun x => (x.2, x.1)
  (maskBays (objMask id)).foldl (fun s b => chargeWrite s b (objShare id bs.length b)) (objStore s id m bs.length)

/-- Deletes an object: its pages are free again. -/
def objDel (s : State) (id : Nat) (o : FlashObj) : State :=
  let ks := objSerials s id
  let known := match mget s.crt.objects id with
    | some x => decide (x.serials = ks)
    | none => false
  let s := { s with crt := { s.crt with
    objects := if known then mdel s.crt.objects id else s.crt.objects,
    gone := s.crt.gone ++ [(id, ks, if known then 0 else o.len)] } }
  (maskBays (objMask id)).foldl (fun s b => s.incWrap (CRT_FREE_BYTES b) (objShare id o.len b)) s

/-- Bytes of an object. -/
def objRead (o : FlashObj) (a n : Nat) : List Byte := rdBytes o.bytes a (min n (o.len - a))

/-- Bytes of a bay that the flash objects of its cartridge hold. -/
def objBytesOn (s : State) (b : Nat) : Nat :=
  let k := s.fld (CRT_SERIAL_SERIAL b)
  let known := (s.crt.objects.filter fun x => (maskBays (objMask x.1)).contains b && x.2.serials.contains k).map fun x =>
    objShare x.1 x.2.len b
  let freed := (s.crt.gone.filter fun g => (maskBays (objMask g.1)).contains b && g.2.1.contains k).map fun g => objShare g.1 g.2.2 b
  let purged := (s.crt.purged.filter fun y => y.2 = k).map fun y => Config.ctxObjectBytes k y.1
  (if s.crt.fresh.contains k then 0 else Config.objectBytes k - freed.sum - purged.sum) + known.sum

end Sys2Proof.Machine
end

