-- ==== Sys2Proof/Machine/Flags.lean ====
section
/-! DEFINITION. Rounding and the arithmetic flags (06 R200, R201, R208 to R211): exact values, one rounding to a binary
format under RM and SAT, and the flags of the status register that a result sets. -/

namespace Sys2Proof.Machine

/-- An exact value: a NaN, an infinity, or (-1)^neg × m × 2^e. -/
inductive Num where
  | nan
  | inf (neg : Bool)
  | fin (neg : Bool) (m : Nat) (e : Int)
  deriving DecidableEq, Repr

/-- A binary format: width, exponent bits, fraction bits, bias (R200, R202). -/
structure Fmt where
  bits  : Nat
  ebits : Nat
  mbits : Nat
  bias  : Nat
  deriving DecidableEq, Repr

/-- binary32 (R200). -/
def fmt32 : Fmt := ⟨32, 8, 23, 127⟩
/-- binary16 (R200). -/
def fmt16 : Fmt := ⟨16, 5, 10, 15⟩
/-- bfloat16 (R200). -/
def fmtBf : Fmt := ⟨16, 8, 7, 127⟩

/-- Flag masks of the status register (R208). -/
def fINVALID : Nat := 0x100
def fDIVZERO : Nat := 0x200
def fOVERFLOW : Nat := 0x400
def fUNDERFLOW : Nat := 0x800
def fINEXACT : Nat := 0x1000
def fFMT : Nat := 0x2000

/-- A result's bits and the flags it sets. -/
abbrev FRes := Nat × Nat

/-- RM and SAT (R208, R209, R210). -/
structure RMode where
  rm  : Nat
  sat : Bool
  deriving DecidableEq, Repr

/-- RM and SAT of a status register. -/
def modeOf (status : Word) : RMode := ⟨bits status.toNat 0 2, bitOf status.toNat 2⟩

/-- RNE with a status register's SAT, for the operations that RM does not govern (R209, R210). -/
def rneOf (status : Word) : RMode := ⟨0, bitOf status.toNat 2⟩

/-- RNE with SAT at 0. -/
def rne : RMode := ⟨0, false⟩

/-- A status register with flags set (R208). -/
def orFlags (status : Word) (f : Nat) : Word := status ||| BitVec.ofNat 64 f

/-- Encodings of a format: canonical NaN (R201), infinity, largest finite, zero. -/
def nanBits (f : Fmt) : Nat := (2 ^ f.ebits - 1) * 2 ^ f.mbits + 2 ^ (f.mbits - 1)
def signBit (f : Fmt) (neg : Bool) : Nat := b2n neg * 2 ^ (f.bits - 1)
def infBits (f : Fmt) (neg : Bool) : Nat := signBit f neg + (2 ^ f.ebits - 1) * 2 ^ f.mbits
def maxBits (f : Fmt) (neg : Bool) : Nat := infBits f neg - 1

/-- The least exponent of a normal number. -/
def emin (f : Fmt) : Int := 1 - (f.bias : Int)

/-- m × 2^-d rounded to an integer, `sticky` standing for a part below the least bit of m: the integer, and whether it differs
from the exact value (R208, R209). -/
def roundShift (rm : Nat) (neg : Bool) (m : Nat) (d : Int) (sticky : Bool) : Nat × Bool :=
  if d ≤ 0 then (m * 2 ^ (-d).toNat, sticky)
  else
    let w := 2 ^ d.toNat
    let q := m / w
    let r := m % w
    let inexact := decide (r ≠ 0) || sticky
    let above := decide (w < 2 * r) || (decide (2 * r = w) && sticky)
    let tie := decide (2 * r = w) && !sticky
    let up := match rm with
      | 0 => above || (tie && decide (q % 2 = 1))
      | 1 => false
      | 2 => inexact && !neg
      | _ => inexact && neg
    (if up then q + 1 else q, inexact)

/-- The encoding magnitude of n × 2^q with q the exponent of the last place. -/
def encMag (f : Fmt) (n : Nat) (q : Int) : Nat := ((q + f.mbits + f.bias).toNat - 1) * 2 ^ f.mbits + n

/-- Rounds (-1)^neg × (m + sticky) × 2^e once to a format under RM and SAT, with the flags of R211: tininess is detected
after rounding, and an overflow gives an infinity or the largest finite number. -/
def roundTo (f : Fmt) (md : RMode) (neg : Bool) (m : Nat) (e : Int) (sticky : Bool := false) : FRes :=
  if m = 0 then (signBit f neg, 0)
  else
    let E : Int := e + Nat.log2 m
    let q := max E (emin f) - f.mbits
    let r := roundShift md.rm neg m (q - e) sticky
    let mag := encMag f r.1 q
    let inx := if r.2 then fINEXACT else 0
    if (2 ^ f.ebits - 1) * 2 ^ f.mbits ≤ mag then
      (if md.sat || decide (md.rm = 1) || (decide (md.rm = 2) && neg) || (decide (md.rm = 3) && !neg) then maxBits f neg
       else infBits f neg, fOVERFLOW ||| fINEXACT)
    else
      let u := roundShift md.rm neg m (E - f.mbits - e) sticky
      let tiny := decide (E < emin f) && !(decide (E + 1 = emin f) && decide (u.1 = 2 ^ (f.mbits + 1)))
      (signBit f neg + mag, inx ||| (if tiny && r.2 then fUNDERFLOW else 0))

/-- The value of an encoding in a format whose top exponent holds infinities and NaNs. -/
def decodeF (f : Fmt) (x : Nat) : Num :=
  let neg := bitOf x (f.bits - 1)
  let e := bits x f.mbits f.ebits
  let m := bits x 0 f.mbits
  if e = 2 ^ f.ebits - 1 then (if m = 0 then .inf neg else .nan)
  else if e = 0 then .fin neg m (emin f - f.mbits)
  else .fin neg (m + 2 ^ f.mbits) ((e : Int) - f.bias - f.mbits)

/-- INVALID where an operand is a signalling NaN (R201). -/
def sigFlag (f : Fmt) (x : Nat) : Nat :=
  if decodeF f x = .nan ∧ bitOf x (f.mbits - 1) = false then fINVALID else 0

/-- The canonical NaN with INVALID. -/
def invalid (f : Fmt) : FRes := (nanBits f, fINVALID)

/-- A signed mantissa. -/
def smant (neg : Bool) (m : Nat) : Int := if neg then -(m : Int) else m

/-- An exact signed sum of finite values, rounded once; an exact zero sum takes the sign of IEEE 754 (R211). -/
def roundSum (f : Fmt) (md : RMode) (na : Bool) (ma : Nat) (ea : Int) (nb : Bool) (mb : Nat) (eb : Int) : FRes :=
  let e := min ea eb
  let v := smant na (ma * 2 ^ (ea - e).toNat) + smant nb (mb * 2 ^ (eb - e).toNat)
  if v = 0 then (signBit f (if decide (ma = 0) && decide (mb = 0) && na == nb then na else decide (md.rm = 3)), 0)
  else roundTo f md (decide (v < 0)) v.natAbs e

/-- A sum of two values (R217). -/
def addNum (f : Fmt) (md : RMode) (a b : Num) : FRes :=
  match a, b with
  | .nan, _ | _, .nan => (nanBits f, 0)
  | .inf x, .inf y => if x = y then (infBits f x, 0) else invalid f
  | .inf x, _ => (infBits f x, 0)
  | _, .inf y => (infBits f y, 0)
  | .fin na ma ea, .fin nb mb eb => roundSum f md na ma ea nb mb eb

/-- The exact product, with INVALID for ∞ × 0. -/
def mulNum (a b : Num) : Num × Nat :=
  match a, b with
  | .nan, _ | _, .nan => (.nan, 0)
  | .inf x, .inf y => (.inf (x != y), 0)
  | .inf x, .fin y m _ => if m = 0 then (.nan, fINVALID) else (.inf (x != y), 0)
  | .fin x m _, .inf y => if m = 0 then (.nan, fINVALID) else (.inf (x != y), 0)
  | .fin x m e, .fin y n d => (.fin (x != y) (m * n) (e + d), 0)

/-- A value rounded to a format; an infinity stays infinite under SAT (R210). -/
def roundNum (f : Fmt) (md : RMode) : Num → FRes
  | .nan => (nanBits f, 0)
  | .inf n => (infBits f n, 0)
  | .fin n m e => roundTo f md n m e

/-- The value with the other sign. -/
def negNum : Num → Num
  | .nan => .nan
  | .inf n => .inf !n
  | .fin n m e => .fin (!n) m e

/-- Adds flags to a result. -/
def withFlags (r : FRes) (f : Nat) : FRes := (r.1, r.2 ||| f)

/-- Addition in a format (R217). -/
def fAdd (f : Fmt) (md : RMode) (a b : Nat) : FRes :=
  withFlags (addNum f md (decodeF f a) (decodeF f b)) (sigFlag f a ||| sigFlag f b)

/-- Subtraction in a format (R217). -/
def fSub (f : Fmt) (md : RMode) (a b : Nat) : FRes :=
  withFlags (addNum f md (decodeF f a) (negNum (decodeF f b))) (sigFlag f a ||| sigFlag f b)

/-- Multiplication in a format (R217). -/
def fMul (f : Fmt) (md : RMode) (a b : Nat) : FRes :=
  let p := mulNum (decodeF f a) (decodeF f b)
  withFlags (roundNum f md p.1) (p.2 ||| sigFlag f a ||| sigFlag f b)

/-- Fused multiply-add, rounded once; (0 × ∞) + c is INVALID whatever c holds (R217). -/
def fFma (f : Fmt) (md : RMode) (a b c : Nat) : FRes :=
  let p := mulNum (decodeF f a) (decodeF f b)
  withFlags (addNum f md p.1 (decodeF f c)) (p.2 ||| sigFlag f a ||| sigFlag f b ||| sigFlag f c)

/-- Order of two values that are no NaN, −0 below +0: whether the first is at or below the second. -/
def leNum (a b : Num) : Bool :=
  match a, b with
  | .nan, _ | _, .nan => false
  | .inf x, .inf y => x || !y
  | .inf x, _ => x
  | _, .inf y => !y
  | .fin na ma ea, .fin nb mb eb =>
    let e := min ea eb
    let v := smant na (ma * 2 ^ (ea - e).toNat)
    let w := smant nb (mb * 2 ^ (eb - e).toNat)
    if v = 0 ∧ w = 0 then na || !nb else decide (v ≤ w)

/-- Order of two values that are no NaN, the zeros equal: below, equal, above as −1, 0, 1. -/
def cmpNum (a b : Num) : Int :=
  match a, b with
  | .inf x, .inf y => if x = y then 0 else if x then -1 else 1
  | .inf x, _ => if x then -1 else 1
  | _, .inf y => if y then 1 else -1
  | .fin na ma ea, .fin nb mb eb =>
    let e := min ea eb
    let v := smant na (ma * 2 ^ (ea - e).toNat)
    let w := smant nb (mb * 2 ^ (eb - e).toNat)
    if v < w then -1 else if v = w then 0 else 1
  | _, _ => 0

/-- Minimum or maximum (R601). -/
def fMinMax (f : Fmt) (top : Bool) (a b : Nat) : FRes :=
  let x := decodeF f a
  let y := decodeF f b
  if x = .nan ∨ y = .nan then (nanBits f, sigFlag f a ||| sigFlag f b)
  else if leNum x y then (if top then b else a, 0) else (if top then a else b, 0)

/-- A quotient of finite values, the divisor not zero, rounded once. -/
def roundQuot (f : Fmt) (md : RMode) (neg : Bool) (ma : Nat) (ea : Int) (mb : Nat) (eb : Int) : FRes :=
  let k := 64 + Nat.log2 mb
  roundTo f md neg (ma * 2 ^ k / mb) (ea - eb - k) (decide (ma * 2 ^ k % mb ≠ 0))

/-! ### The defined functions (R219) -/

/-- Fraction bits kept while 2^x is formed; they separate 2^x from every rounding boundary of the three formats (log entry
14). -/
def expBits : Nat := 256

/-- 2 to a fraction whose `n` lowest bits are given, least significant first, in units of 2^-256. -/
def exp2Frac : Nat → Nat → Nat → Nat
  | 0, _, y => y
  | n + 1, k, y => exp2Frac n (k / 2) (sqrtBits (expBits + 1) (y * 2 ^ (k % 2) * 2 ^ expBits) 0)

/-- 2^x for a finite x, rounded once with RNE. -/
def exp2Fin (f : Fmt) (md : RMode) (neg : Bool) (m : Nat) (e : Int) : FRes :=
  if 0 ≤ e then
    let v := smant neg (m * 2 ^ (min e 12).toNat)
    roundTo f md false 1 (max (-1000) (min 1000 v))
  else
    let d := (-e).toNat
    let v := smant neg m
    let n := Int.fdiv v (2 ^ d)
    let fr := (Int.fmod v (2 ^ d)).toNat
    if 1000 ≤ n then roundTo f md false 1 1000
    else if n ≤ -1000 then roundTo f md false 1 (-1000)
    else if fr = 0 then roundTo f md false 1 n
    else roundTo f md false (exp2Frac d fr (2 ^ expBits)) (n - expBits) true

/-- vexp2 of one value (R219). -/
def fExp2 (f : Fmt) (md : RMode) (a : Nat) : FRes :=
  match decodeF f a with
  | .nan => (nanBits f, sigFlag f a)
  | .inf neg => (if neg then 0 else infBits f false, 0)
  | .fin neg m e => exp2Fin f md neg m e

/-- vrcp of one value (R219). -/
def fRcp (f : Fmt) (md : RMode) (a : Nat) : FRes :=
  match decodeF f a with
  | .nan => (nanBits f, sigFlag f a)
  | .inf neg => (signBit f neg, 0)
  | .fin neg m e => if m = 0 then (infBits f neg, fDIVZERO) else roundQuot f md neg 1 0 m e

/-- 1 ÷ √(m × 2^e) for m > 0, rounded once. -/
def rsqrtFin (f : Fmt) (md : RMode) (m : Nat) (e : Int) : FRes :=
  let m' := if e % 2 = 0 then m else 2 * m
  let e' := if e % 2 = 0 then e else e - 1
  let k := 80
  let r := sqrtBits (k + 1) (2 ^ (2 * k) / m') 0
  roundTo f md false r (-(e' / 2) - k) (decide (r * r * m' ≠ 2 ^ (2 * k)))

/-- vrsqrt of one value (R219). -/
def fRsqrt (f : Fmt) (md : RMode) (a : Nat) : FRes :=
  match decodeF f a with
  | .nan => (nanBits f, sigFlag f a)
  | .inf neg => if neg then invalid f else (0, 0)
  | .fin neg m e => if m = 0 then (infBits f neg, fDIVZERO) else if neg then invalid f else rsqrtFin f md m e

/-! ### Conversions (R209, R602) -/

/-- A value to an integer of `w` bits: the result and the flags of R602. -/
def toIntF (f : Fmt) (md : RMode) (w : Nat) (signed : Bool) (a : Nat) : FRes :=
  let lo : Int := if signed then -(2 ^ (w - 1)) else 0
  let hi : Int := if signed then 2 ^ (w - 1) - 1 else 2 ^ w - 1
  match decodeF f a with
  | .nan => (0, fINVALID)
  | .inf neg => (((if neg then lo else hi) % 2 ^ w).toNat, fINVALID)
  | .fin neg m e =>
    let r := roundShift md.rm neg m (-e) false
    let v := smant neg r.1
    if v < lo then ((lo % 2 ^ w).toNat, fINVALID)
    else if hi < v then ((hi % 2 ^ w).toNat, fINVALID)
    else ((v % 2 ^ w).toNat, if r.2 then fINEXACT else 0)

/-- An integer to a format under RM and SAT (R602). -/
def ofIntF (f : Fmt) (md : RMode) (v : Int) : FRes := roundTo f md (decide (v < 0)) v.natAbs 0

/-- A format to a format (R209). -/
def cvtF (src dst : Fmt) (md : RMode) (a : Nat) : FRes :=
  withFlags (roundNum dst md (decodeF src a)) (sigFlag src a)

end Sys2Proof.Machine
end

