-- ==== Sys2Proof/Machine/Operands.lean ====
section
/-! DEFINITION. Operand forms of the cell profile (07 R234 to R237, R242; 06 R200 to R207): registers, type codes, operand
addresses in cell memory, the element formats, and lanes under a governing predicate. -/

namespace Sys2Proof.Machine

/-- Number of in-service cells (01 R12). -/
def cellCount : Nat := 1920

/-- Bytes of cell memory (R192). -/
def cellBytes : Nat := 0x400000

/-- First byte that a program load or store may not touch (R193). -/
def cellLimit : Nat := 0x3C0000

/-! ### Registers (07 R238) -/

/-- A scalar register; s0 reads zero. -/
def sreg (c : Cell) (n : Nat) : Word := if n = 0 then 0 else (mget c.s n).getD 0

/-- Writes a scalar register; a write of s0 is discarded. -/
def setS (c : Cell) (n : Nat) (w : Word) : Cell := if n = 0 then c else { c with s := mset c.s n w }

/-- 64 lanes of zero. -/
def lanes0 : List (BitVec 32) := List.replicate 64 0

/-- A vector register. -/
def vreg (c : Cell) (n : Nat) : List (BitVec 32) := (mget c.v n).getD lanes0

/-- Writes a vector register. -/
def setV (c : Cell) (n : Nat) (l : List (BitVec 32)) : Cell := { c with v := mset c.v n l }

/-- A predicate register. -/
def preg (c : Cell) (n : Nat) : Word := (mget c.p n).getD 0

/-- Writes a predicate register. -/
def setP (c : Cell) (n : Nat) (w : Word) : Cell := { c with p := mset c.p n w }

/-- A tile of +0 (16 × 64 values, row-major). -/
def tile0 : List (BitVec 32) := List.replicate 1024 0

/-- A tile. -/
def treg (c : Cell) (n : Nat) : List (BitVec 32) := (mget c.t n).getD tile0

/-- Writes a tile. -/
def setT (c : Cell) (n : Nat) (l : List (BitVec 32)) : Cell := { c with t := mset c.t n l }

/-- A wide accumulator of zeros with a binary point (R220). -/
def wide0 (b : Int) : Wide := ⟨List.replicate 64 0, b⟩

/-- A wide accumulator. -/
def wreg (c : Cell) (n : Nat) : Wide := (mget c.w n).getD (wide0 0)

/-- Writes a wide accumulator. -/
def setW (c : Cell) (n : Nat) (x : Wide) : Cell := { c with w := mset c.w n x }

/-- Flags NAN, PINF, NINF, OVF of an accumulator: bits 16 + 4j of the status register (R208). -/
def wflags (c : Cell) (j : Nat) : Nat := bits c.status.toNat (16 + 4 * j) 4

/-- Replaces an accumulator's flags. -/
def setWflags (c : Cell) (j f : Nat) : Cell := { c with status := putField c.status (16 + 4 * j) 4 f }

/-- Sets arithmetic flags (R208, R211). -/
def raise (c : Cell) (f : Nat) : Cell := { c with status := orFlags c.status f }

/-! ### Fields and types (R234, R235) -/

/-- IMM, sign-extended to 64 bits. -/
def immOf (x : CellItem) : Word := x.imm.signExtend 64

/-- sA plus IMM: an operand address (R235). -/
def opAddr (c : Cell) (x : CellItem) : Word := sreg c x.a + immOf x

/-- The second operand of a scalar item: sB plus IMM (R241). -/
def opB (c : Cell) (x : CellItem) : Word := sreg c x.b + immOf x

/-- An integer type: width and signedness. -/
def intType (t : Nat) : Option (Nat × Bool) :=
  if t = 16 then some (8, true) else if t = 17 then some (8, false)
  else if t = 18 then some (16, true) else if t = 19 then some (16, false)
  else if t = 20 then some (32, true) else if t = 21 then some (32, false)
  else if t = 22 then some (64, true) else if t = 23 then some (64, false)
  else none

/-- An IEEE type or bfloat16. -/
def floatType (t : Nat) : Option Fmt :=
  if t = 0 then some fmt32 else if t = 1 then some fmt16 else if t = 2 then some fmtBf else none

/-- An integer type that fits a lane. -/
def laneInt (t : Nat) : Option (Nat × Bool) := (intType t).filter fun x => decide (x.1 ≤ 32)

/-- Condition FN on an ordering: eq, ne, lt, ge, le, gt; `un` says the operands are unordered (R241). -/
def condHolds (fn : Nat) (o : Int) (un : Bool) : Bool :=
  if fn = 0 then !un && decide (o = 0)
  else if fn = 1 then un || decide (o ≠ 0)
  else if fn = 2 then !un && decide (o < 0)
  else if fn = 3 then !un && decide (0 ≤ o)
  else if fn = 4 then !un && decide (o ≤ 0)
  else !un && decide (0 < o)

/-- Ordering of two integers. -/
def ordInt (a b : Int) : Int := if a < b then -1 else if a = b then 0 else 1

/-- A value read at an integer type. -/
def atType (w : Nat) (signed : Bool) (x : Nat) : Int := if signed then sgn x w else (x % 2 ^ w : Nat)

/-! ### Lanes under a governing predicate (R234) -/

/-- Merges new lanes into old ones under a predicate: a lane whose bit is 0 keeps its old value, or is zero with PZ. -/
def mergeLanes (p : Word) (pz : Bool) (old new : List (BitVec 32)) : List (BitVec 32) :=
  (List.range 64).map fun i => if bitOf p.toNat i then new.getD i 0 else if pz then 0 else old.getD i 0

/-- Writes vD under the item's governing predicate. -/
def writeV (c : Cell) (x : CellItem) (new : List (BitVec 32)) : Cell :=
  setV c x.d (mergeLanes (preg c x.p) x.pz (vreg c x.d) new)

/-- Lane results with flags, of the active lanes only. -/
def laneFlags (p : Word) (rs : List FRes) : Nat :=
  (rs.zipIdx.foldl (fun a r => if bitOf p.toNat r.2 then a ||| r.1.2 else a) 0)

/-- A lane of one 32-bit or two packed 16-bit results (R217). -/
def packLane (f : Fmt) (op : Nat → Nat → Nat → FRes) (a b c : BitVec 32) : FRes :=
  if f.bits = 32 then op a.toNat b.toNat c.toNat
  else
    let lo := op (a.toNat % 65536) (b.toNat % 65536) (c.toNat % 65536)
    let hi := op (a.toNat / 65536) (b.toNat / 65536) (c.toNat / 65536)
    (lo.1 + hi.1 * 65536, lo.2 ||| hi.2)

/-- The results of a floating-point operation on every lane. -/
def laneOp (f : Fmt) (op : Nat → Nat → Nat → FRes) (a b c : List (BitVec 32)) : List FRes :=
  (List.range 64).map fun i => packLane f op (a.getD i 0) (b.getD i 0) (c.getD i 0)

/-- Writes floating-point lane results and their flags. -/
def writeF (c : Cell) (x : CellItem) (rs : List FRes) : Cell :=
  raise (writeV c x (rs.map fun r => BitVec.ofNat 32 r.1)) (laneFlags (preg c x.p) rs)

/-- An integer result in a lane: reduced to its width and extended by its signedness (log entry 33). -/
def intLane (w : Nat) (signed : Bool) (v : Int) : BitVec 32 :=
  let r := (v % 2 ^ w).toNat
  BitVec.ofInt 32 (atType w signed r)

/-- The results of an integer operation on every lane. -/
def laneIntOp (w : Nat) (signed : Bool) (op : Int → Int → Int) (a b : List (BitVec 32)) : List (BitVec 32) :=
  (List.range 64).map fun i =>
    intLane w signed (op (atType w signed (a.getD i 0).toNat) (atType w signed (b.getD i 0).toNat))

/-! ### Element formats of the tensor unit (R202 to R207) -/

/-- The small floating-point element formats. -/
def mxFmt (t : Nat) : Option Fmt :=
  if t = 3 then some ⟨8, 4, 3, 7⟩ else if t = 4 then some ⟨8, 5, 2, 15⟩ else if t = 5 then some ⟨6, 3, 2, 3⟩
  else if t = 6 then some ⟨6, 2, 3, 1⟩ else if t = 7 then some ⟨4, 2, 1, 1⟩ else none

/-- Fraction bits of the integer element formats MXINT8 and MXINT4. -/
def mxInt (t : Nat) : Option (Nat × Nat) := if t = 8 then some (8, 6) else if t = 9 then some (4, 2) else none

/-- emax of an element format (R202). -/
def mxEmax (t : Nat) : Int :=
  if t = 3 then 8 else if t = 4 then 15 else if t = 5 then 4 else if t = 6 then 2 else if t = 7 then 2 else 0

/-- Largest magnitude of a floating-point element, as an encoding (R202). -/
def mxMax (t : Nat) : Nat :=
  if t = 3 then 0x7E else if t = 4 then 0x7B else if t = 5 then 0x1F else if t = 6 then 0x1F else 0x7

/-- Bits of an element of type T; T2A4 counts its 8-byte block (R204, R206). -/
def elemBits (t : Nat) : Nat :=
  if t = 1 ∨ t = 2 then 16
  else match mxFmt t, mxInt t with
    | some f, _ => f.bits
    | _, some x => x.1
    | _, _ => 2

/-- Bytes of a block of 32 elements (R204, R206). -/
def blockBytes (t : Nat) : Nat := 4 * elemBits t

/-- The value of an element code (R202, R205). -/
def decodeElem (t x : Nat) : Num :=
  match floatType t, mxFmt t, mxInt t with
  | some f, _, _ => decodeF f x
  | _, some f, _ =>
    let neg := bitOf x (f.bits - 1)
    let e := bits x f.mbits f.ebits
    let m := bits x 0 f.mbits
    if t = 3 ∧ e = 15 ∧ m = 7 then .nan
    else if t = 4 ∧ e = 31 then (if m = 0 then .inf neg else .nan)
    else if e = 0 then .fin neg m (emin f - f.mbits)
    else .fin neg (m + 2 ^ f.mbits) ((e : Int) - f.bias - f.mbits)
  | _, _, some i =>
    let v := sgn x i.1
    .fin (decide (v < 0)) v.natAbs (-(i.2 : Int))
  | _, _, _ => .nan

/-- Trit `i` of a trit byte, zero from 243 up and in the padding (R207). -/
def tritOf (byte i : Nat) : Int := if 243 ≤ byte then 0 else (byte / 3 ^ i % 3 : Nat) - 1

/-- The 32 values of a block in memory, unscaled, and the flags that reading it sets (R201, R204, R206, R207). -/
def decodeBlock (t : Nat) (bs : List Byte) : List Num × Nat :=
  if t = 10 then
    ((List.range 32).map fun j =>
      let v := tritOf ((bs.getD (j / 5) 0).toNat) (j % 5)
      .fin (decide (v < 0)) v.natAbs 0,
     if (bs.take 7).any fun b => decide (243 ≤ b.toNat) then fFMT else 0)
  else
    let n := leNat bs
    let w := elemBits t
    let codes := (List.range 32).map fun j => bits n (w * j) w
    (codes.map (decodeElem t), match floatType t with
      | some f => codes.foldl (fun a x => a ||| sigFlag f x) 0
      | none => 0)

/-- One element of the quantiser: RNE, saturating; the code and whether it differs from the exact value (R212). -/
def quantElem (t : Nat) (neg : Bool) (m : Nat) (e : Int) : Nat × Bool :=
  match mxFmt t, mxInt t with
  | some f, _ =>
    if m = 0 then (signBit f neg, false)
    else
      let E : Int := e + Nat.log2 m
      let q := max E (emin f) - f.mbits
      let r := roundShift 0 false m (q - e) false
      let mag := encMag f r.1 q
      if mxMax t < mag then (signBit f neg + mxMax t, true) else (signBit f neg + mag, r.2)
  | _, some i =>
    let r := roundShift 0 neg m (-(e + i.2)) false
    let v := smant neg r.1
    let hi : Int := 2 ^ (i.1 - 1) - 1
    if hi < v then (hi.toNat, true)
    else if v < -(2 ^ (i.1 - 1)) then (2 ^ (i.1 - 1), true)
    else ((v % 2 ^ i.1).toNat, r.2)
  | _, _ => (0, false)

/-- Conversion of 32 binary32 values to one MX block: scale, element codes, flags (R212). -/
def quantBlock (t : Nat) (vs : List Nat) : Nat × List Nat × Nat :=
  let d := vs.map (decodeF fmt32)
  if d.any fun x => match x with | .fin _ _ _ => false | _ => true then (0xFF, vs.map fun _ => 0, fINVALID)
  else
    let tops := d.filterMap fun x => match x with
      | .fin _ m e => if m = 0 then none else some (e + (Nat.log2 m : Int))
      | _ => none
    match tops with
    | [] => (0, d.map fun x => match x, mxFmt t with
        | .fin neg _ _, some f => signBit f neg
        | _, _ => 0, 0)
    | y :: ys =>
      let top := ys.foldl max y
      let x := max (-127) (min 127 (top - mxEmax t))
      let es := d.map fun v => match v with
        | .fin neg m e => quantElem t neg m (e - x)
        | _ => (0, false)
      ((x + 127).toNat, es.map (·.1), if es.any (·.2) then fINEXACT else 0)

/-- Element codes packed into bytes: element j at bits [w(j+1) − 1 : wj] (R204). -/
def packElems (t : Nat) (codes : List Nat) : List Byte :=
  leBytes (blockBytes t) ((codes.zipIdx.foldl (fun a x => a + x.1 * 2 ^ (elemBits t * x.2)) 0))

/-! ### Descriptors over cell memory (07 R247, R253; 08 R294, R295) -/

/-- A descriptor at reset. -/
def desc0 : Desc where
  op := 0
  active := false
  faulted := false
  status := 0
  done := 0
  remote := 0
  local_ := 0
  count := 0
  indexAddr := 0
  elemUnits := 0
  stride := 0
  word4 := 0
  faultAddr := 0

/-- A descriptor. -/
def descOf (c : Cell) (n : Nat) : Desc := (mget c.desc n).getD desc0

/-- Writes a descriptor. -/
def setDesc (c : Cell) (n : Nat) (d : Desc) : Cell := { c with desc := mset c.desc n d }

/-- Bytes of a wide record (R224). -/
def wideBytes : Nat := 1544

/-- V0 of a KV page, HEAD_DIM and positions per page of the model a slice runs (08 R282). -/
def kvGeometry (m : Model) : Nat × Nat × Nat := (2 * m.groupHeads * 2 ^ m.log2ppp * m.headDim, m.headDim, 2 ^ m.log2ppp)

/-- Bytes each page of a walk leaves in cell memory (08 R295). -/
def walkUnit (m : Option Model) (word4 : Word) : Nat :=
  match bits word4.toNat 48 2 with
  | 0 => pageSize
  | 3 => 8
  | _ => match m with | some m => (kvGeometry m).1 | none => 0
where pageSize : Nat := 16384

/-- The LOCAL extent of a descriptor in bytes. -/
def descExtent (m : Option Model) (d : Desc) : Nat :=
  if d.op = 1 ∨ d.op = 2 then d.count
  else if d.op = 3 ∨ d.op = 4 then d.count * d.elemUnits * 16
  else if d.op = 5 then d.count * walkUnit m d.word4
  else if d.op = 6 then d.count * bits d.word4.toNat 56 8 * 4 * (match m with | some m => m.headDim | none => 0)
  else 0

/-- Whether a byte range overlaps another. -/
def overlaps (a n b k : Nat) : Bool := decide (a < b + k) && decide (b < a + n)

/-- Whether a program access must wait for a descriptor in flight (R247). -/
def mustWait (m : Option Model) (c : Cell) (a n : Nat) (store : Bool) : Bool :=
  c.desc.any fun x =>
    x.2.active &&
    ((overlaps a n x.2.local_ (descExtent m x.2) && (store || decide (x.2.op = 1) || decide (x.2.op = 3) || decide (x.2.op = 5))) ||
     (store && (decide (x.2.op = 3) || decide (x.2.op = 4)) && overlaps a n x.2.indexAddr (4 * x.2.count)))

end Sys2Proof.Machine
end

