-- ==== Sys2Proof/Machine/Sessions.lean ====
section
/-! DEFINITION. The session instructions (02 R31 to R71, R604; 03 R81, R82, R86; 09 R323, R332, R340, R343, R352). -/

namespace Sys2Proof.Machine

/-! ### The way of a session item (R31 to R33, R41, R42, R61, R62) -/

/-- Whether an entry answers a handle's INSTAR and a context (R31). -/
def answers (e : Session) (instar ctx : Nat) : Bool :=
  (decide (e.instar = instar) || (e.moved && decide (e.oldInstar = some instar))) && decide (e.context = ctx)

/-- What the session engine reads of an entry whose CHECK fails (R42): the shadow's copy, or nothing after the entry has become
FAULTED with a fault message. -/
def checkEntry (s : State) (i : Nat) (e : Session) : State × Option Session :=
  if !e.checkBad then (s, some e)
  else if !e.shadowBad then (s, some { e with checkBad := false })
  else
    let s := if e.state.live then voidBuilt (releaseState s i .faulted) i else s
    (fault s (0xB40 + 16 * s.fld GLB_STATE_ACTIVE_HUB) 0x0E 0x200C (handleOf s i e), none)

/-- Writes an item's status to LAST_STATUS (R41). -/
def stampStatus (s : State) (i st : Nat) : State :=
  match s.ses? i with
  | none => s
  | some e => s.setSes i { e with lastStatus := st }

/-- Finishes a session item: LAST_STATUS, and OBJECT and TAG of its completion (R41, R535). -/
def sesReply (i : Nat) (h tag : Word) (stamp : Bool) (r : State × Reply) : State × Reply :=
  match r with
  | (s, .done st res _ _) => (if stamp then stampStatus s i st else s, .done st res h tag)
  | (s, .fail st _ _) => (if stamp then stampStatus s i st else s, .fail st h tag)
  | (s, .later) => (s, .later)

/-- A session item's effect once its handle is looked at.  `moved`, `ended` and `faulted` say whether the item acts on a session
that has moved, ended or faulted; `stamp` whether it writes LAST_STATUS. -/
def sesBody (src : Src) (h : Word) (moved ended faulted stamp : Bool) (body : Nat → Session → State → State × Reply)
    (s : State) : State × Reply :=
  let i := bits h.toNat 24 24
  if bits h.toNat 48 16 ≠ s.devAddr then (s, .status 0x200B)
  else match s.ses? i with
    | none => (s.incSat SES_STALE_COUNT 1, .status 0x2002)
    | some e0 =>
      if !answers e0 (bits h.toNat 0 24) src.ctx then (s.incSat SES_STALE_COUNT 1, .status 0x2002)
      else match checkEntry s i e0 with
        | (s, none) => (s, .fail 0x200C h e0.tag)
        | (s, some e) =>
          if e.moved && !moved then (s, .done 0x2003 e.link h e.tag)
          else if e.state = .ended && !ended then sesReply i h e.tag stamp (s, .status 0x2005)
          else if e.state = .faulted && !faulted then sesReply i h e.tag stamp (s, .status 0x200E)
          else sesReply i h e.tag stamp (body i e s)

/-- A session item. -/
def sesItem (s : State) (src : Src) (op : Nat) (h : Word) (body : Nat → Session → State → State × Reply)
    (moved ended faulted : Bool := false) (stamp : Bool := true) : State :=
  runItem s src op (sesBody src h moved ended faulted stamp body)

/-! ### ses.create (R36, R40, R44, R45, R51, R58, R111, R291, R329, R340, R604) -/

/-- Whether vocabulary, grammar and model slots are resident and belong together (R45, R340). -/
def slotsFit (s : State) (vocab grammar model : Nat) : Bool :=
  s.flag (TOK_VOCAB_A_LOADED vocab) && s.flag (TOK_GRAM_A_LOADED grammar) &&
  (match mget s.gal.models model with | none => false | some m => decide (m.vocabId = vocabIdOf s vocab)) &&
  (decide (grammar = 0) || decide (s.fld (TOK_GRAM_B_VOCAB_ID grammar) = vocabIdOf s vocab))

/-- Whether a binding is valid (R45). -/
def bindingOk (s : State) (ctx vocab grammar model dur customer : Nat) : Bool :=
  s.flag (SES_CUST_MAP_VALID customer) && decide (s.fld (SES_CUST_MAP_CONTEXT customer) = ctx) &&
  slotsFit s vocab grammar model && decide (dur ≤ 2) && (decide (dur ≠ 2) || decide (s.fld FAB_PAIR_PARTNER ≠ 0xFFFF))

/-- Whether a CONTRACT value is in force in a context, or none (R111). -/
def contractOk (s : State) (ctx contract : Nat) : Bool :=
  decide (contract = 0xFFFF) || (decide (contract < 4096) && decide (contract / 64 = ctx) && (inForce s contract).isSome)

/-- Whether a covering revival-bound contract has all its sessions (R111). -/
def contractFull (s : State) (contract : Nat) : Bool :=
  (coverLevels s contract).flatten.any fun id => match inForce s id with
    | none => false
    | some c => decide (c.kind = 2) && decide (c.sessions ≤ boundTo s id)

/-- Start state of a grammar slot; slot 0 is the built-in grammar (R334, R339). -/
def gramStart (s : State) (g : Nat) : Nat := ((mget s.tok.grammars g).map (·.start)).getD 0

/-- Takes the index at the head of the free list, with its instar (R35, R36). -/
def takeIndex (s : State) : Option (Nat × Nat × State) :=
  match s.ses.freeList with
  | [] => none
  | (lo, hi) :: r =>
    let inst := (mget s.ses.freeInstar lo).getD s.ses.baseInstar
    some (lo, inst, { s with ses := { s.ses with
      freeList := if lo < hi then (lo + 1, hi) :: r else r, freeInstar := mdel s.ses.freeInstar lo } })

/-- Sampler parameters at create (R329). -/
def samplerInit (seed : Word) : Sampler where
  seed := seed
  temp := 0x3F800000
  topK := 0
  topP := 0x3F800000
  ignoreEnd := false
  includeStop := false
  outMode := 0
  nextOseq := 0

/-- The auxiliary page at create (R38, R329, R334). -/
def textInit (seed : Word) (gram : Nat) : TextState where
  sampler := samplerInit seed
  gramSt := gram
  gramStk := []
  stops := List.replicate 16 (List.replicate 64 0)
  stopLens := List.replicate 16 0
  matcher := []
  utf8 := []

/-- A session table entry at create (R40). -/
def sesInit (now instar ctx queue vocab grammar model prio dur customer : Nat) (draftEn : Bool) (tag : Word)
    (contract cls origin gram : Nat) : Session where
  instar := instar
  state := .waiting
  tier := .p1
  dur := dur
  context := ctx
  customer := customer
  vocab := vocab
  grammar := grammar
  model := model
  prio := prio
  holdReason := 0
  cancelReq := false
  parkBusy := false
  reviveBusy := false
  endReq := false
  draftEn := draftEn
  moved := false
  seqSlot := 0
  seqValid := false
  queue := queue
  lastStatus := 0
  tokens := 0
  generated := 0
  kvRoot := 0
  recurRoot := 0
  aux := 0
  expectTime := 0
  deadline := 0
  createTime := now
  changeTime := now
  link := 0
  kvPages := 0
  dirtyPages := 0
  tag := tag
  cls := cls
  contract := contract
  genLimit := 0
  lender := 0
  bay := 0
  transcriptBytes := 0
  updateSeq := 0
  checkBad := false
  shadowBad := false
  mirrored := true
  oldInstar := none
  origin := origin
  text := textInit (BitVec.ofNat 64 now) gram
  segs := []
  transcriptPages := []
  prompt := []
  tokenised := false
  history := []
  kv := []
  recur := []
  cur := false
  listFrames := []
  p3 := none
  p2 := none
  park := none
  deferred := none
  rev := none
  mig := none
  cancel := none
  tombstone := 0
  ending := none
  holdReq := false
  lifted := false
  runAfter := none
  graceAt := none
  waitSince := now
  overdueDone := false
  deadlineDone := false
  behind := false
  bound := true
  mustMatch := none
  prevHandle := 0
  announced := true
  restored := none

/-- RECUR_HALF of a model slot and whether it has recurrent layers. -/
def recurOf (s : State) (m : Nat) : Nat × Bool :=
  match mget s.gal.models m with
  | none => (0, false)
  | some x => (x.recurHalf, x.recur)

/-- The pages of a new session (R37, R40, R285, R286): its list pages, recurrent pages and auxiliary page. -/
def newPages (s : State) (c i half : Nat) (recur : Bool) : Option (List Nat × List Nat × List Nat × State) := do
  let (ls, s) ← allocFrames c 2 0 i (if recur then 2 else 1) s
  let (rs, s) ← allocFrames c 3 0 0 (if recur then 2 * half else 0) s
  let (as, s) ← allocFrames c 4 0 0 1 s
  return (ls, rs, as, s)

/-- References and list frames of a session's newly allocated pages. -/
def withPages (e : Session) (ls rs as : List Nat) : Session :=
  ({ e with
    kvRoot := pageRef false false 1 0 (ls.getD 0 0),
    recurRoot := match ls[1]? with | some f => pageRef false false 1 0 f | none => 0,
    aux := pageRef true false 1 0 (as.getD 0 0),
    recur := rs.zipIdx.map fun (x : Nat × Nat) => (x.2, pageRef true false 1 0 x.1),
    listFrames := ls.zipIdx.map fun (x : Nat × Nat) => (x.2, x.1) }).recount

/-- The status that refuses a new session of a context bound to a contract (R604): 0 where none does. -/
def createRefusal (s : State) (ctx contract : Nat) (bound : Bool) : Nat :=
  if !bound then 0x2006
  else if !contractOk s ctx contract then 0x3010
  else if contractFull s contract then 0x3011
  else if s.ses.freeList.isEmpty then 0x2001
  else 0

/-- Allocates and binds a session, or refuses it (R36, R40, R45, R51, R58, R604). -/
def createSession (src : Src) (vocab grammar model prio dur customer : Nat) (draftEn : Bool) (tag : Word)
    (contract cls : Nat) (s : State) : State × Reply :=
  let st := createRefusal s src.ctx contract (bindingOk s src.ctx vocab grammar model dur customer)
  if st ≠ 0 then (s, .fail st 0 tag)
  else match takeIndex s with
    | none => (s, .fail 0x2001 0 tag)
    | some (i, inst, s1) =>
      let r := recurOf s model
      match newPages s1 src.ctx i r.1 r.2 with
      | none => (s, .fail 0x200D 0 tag)
      | some (ls, rs, as, s2) =>
        let e := withPages (sesInit s.now inst src.ctx src.queue vocab grammar model prio dur customer draftEn tag contract cls
          s.devAddr (gramStart s grammar)) ls rs as
        let s3 := bindSlots { s2 with ses := { s2.ses with entries := mset s2.ses.entries i e } } e
        let s4 := s3.incWrap SES_LIVE_ALLOCATED 1
        (s4, .done 0 (handleOf s4 i e) (handleOf s4 i e) tag)

def execSesCreate (src : Src) (vocab grammar model prio dur customer : Nat) (draftEn : Bool) (tag : BitVec 64)
    (contract cls : Nat) (s : State) : Host.Outcome State Fault Refusal :=
  .next (runItem s src 0xC0 (createSession src vocab grammar model prio dur customer draftEn tag contract cls))

/-! ### ses.feed, ses.run (R39, R49, R66, R150, R156, R323, R402, R603) -/

/-- The token identities of a feed's bytes. -/
def wordsOf : List Byte → List Nat
  | a :: b :: c :: d :: r => leNat [a, b, c, d] :: wordsOf r
  | _ => []

/-- An entry whose auxiliary page has been written (R37). -/
def dirtyAux (e : Session) : Session := ({ e with aux := refSetDirty e.aux true }).recount

/-- Appends a segment to a session: its transcript pages (kind 5), bytes and, in PREFILL, tokens (R38, R39, R322); none where
no page is free. -/
def appendSegment (s : State) (i : Nat) (e : Session) (seg : Segment) : Option State :=
  let bytes := e.transcriptBytes + segBytes seg
  let need := (bytes + pageBytes - 1) / pageBytes - e.transcriptPages.length
  (allocFrames e.context 5 0 0 need s).map fun r =>
    let last := e.transcriptPages.length - 1
    let old := e.transcriptPages.zipIdx.map fun x =>
      if x.2 = last && decide (e.transcriptBytes % pageBytes ≠ 0) then refSetDirty x.1 true else x.1
    let e := dirtyAux { e with segs := e.segs ++ [seg], transcriptBytes := bytes,
                               transcriptPages := old ++ r.1.map (pageRef true false 1 0 ·) }
    r.2.setSes i (if e.state = .prefill then tokeniseSession s e else e)

/-- The effect of ses.feed on an accepted session. -/
def feedBody (src : Src) (addr : Word) (len : Nat) (tokens run : Bool) (genLimit : Nat) (i : Nat) (e : Session)
    (s : State) : State × Reply :=
  if e.state = .cancelling then (s, .status 0x200A)
  else if e.state = .migrating ∨ (run ∧ e.state ≠ .waiting) then (s, .status 0x2004)
  else if tokens ∧ len % 4 ≠ 0 then (s, .status 0x5003)
  else if 4194304 < e.transcriptBytes + len then (s, .status 0x2009)
  else match itemRead s src 2 addr len with
    | .error st => (s, .status st)
    | .ok bs =>
      let ids := wordsOf bs
      if tokens && ids.any fun t => decide (s.fld (TOK_VOCAB_A_NTOK e.vocab) ≤ t) then (s, .status 0x6012)
      else match (if len = 0 then some s else appendSegment s i e (if tokens then .ids ids else .text bs)) with
        | none => (s, .status 0x200D)
        | some s1 =>
          let res := BitVec.ofNat 64 (e.transcriptBytes + len)
          if e.state = .waiting then
            let r := if run then runSession s1 i genLimit else ((sesEvent s1 i false).1, 0)
            if r.2 = 0 then (r.1, .done 0 res 0 0) else (r.1, .status r.2)
          else (s1, .done 0 res 0 0)

def execSesFeed (src : Src) (handle addr : BitVec 64) (len : Nat) (tokens run : Bool) (genLimit : Nat) (s : State) :
    Host.Outcome State Fault Refusal :=
  .next (sesItem s src 0xC1 handle (feedBody src addr len tokens run genLimit))

/-- The effect of ses.run on an accepted session. -/
def runBody (genLimit : Nat) (i : Nat) (e : Session) (s : State) : State × Reply :=
  if e.state ≠ .waiting then (s, .status 0x2004)
  else
    let r := runSession s i genLimit
    if r.2 = 0 then (r.1, .ok) else (r.1, .status r.2)

def execSesRun (src : Src) (handle : BitVec 64) (genLimit : Nat) (s : State) : Host.Outcome State Fault Refusal :=
  .next (sesItem s src 0xC2 handle (runBody genLimit))

/-! ### ses.wait, ses.park, ses.revive (R49, R76, R81 to R83, R86) -/

/-- The effect of ses.wait. -/
def waitBody (expect deadline : Nat) (i : Nat) (e : Session) (s : State) : State × Reply :=
  if e.state ≠ .waiting then (s, .status 0x2004)
  else if deadline ≠ 0 ∧ deadline < expect then (s, .status 0x2011)
  else
    let e' := { e with expectTime := expect, deadline, graceAt := none, overdueDone := true, deadlineDone := false,
                       deferred := none }
    let c := chooseTier s e' 0
    (applyChoice (s.setSes i e') i c, .done 0 (BitVec.ofNat 64 c.tier.depth) 0 0)

def execSesWait (src : Src) (handle : BitVec 64) (expect deadline : Nat) (s : State) : Host.Outcome State Fault Refusal :=
  .next (sesItem s src 0xC3 handle (waitBody expect deadline))

/-- The effect of ses.park. -/
def parkBody (hint : Nat) (i : Nat) (e : Session) (s : State) : State × Reply :=
  if e.state ≠ .waiting then (s, .status 0x2004)
  else
    let c := chooseTier s e hint
    (applyChoice (s.setSes i { e with graceAt := none, deferred := none }) i c, .done 0 (BitVec.ofNat 64 c.tier.depth) 0 0)

def execSesPark (src : Src) (handle : BitVec 64) (hint : Nat) (s : State) : Host.Outcome State Fault Refusal :=
  .next (sesItem s src 0xC8 handle (parkBody hint))

/-- The effect of ses.revive: a park is aborted, a revival started, and at P1 the P1 notice posted at once. -/
def reviveBody (i : Nat) (e : Session) (s : State) : State × Reply :=
  if e.state ≠ .waiting then (s, .status 0x2004)
  else
    let s := abortPark s i
    match e.tier with
    | .p2 | .p3 =>
      let r := startRevival s i true
      if r.2 = 0 then (r.1, .ok) else (r.1, .status r.2)
    | _ => (sesNoticeFree s i 3 0, .ok)

def execSesRevive (src : Src) (handle : BitVec 64) (s : State) : Host.Outcome State Fault Refusal :=
  .next (sesItem s src 0xC9 handle reviveBody)

/-! ### ses.hold, ses.release (R49, R185) -/

/-- Writes HOLD_REASON of a session's sequence slot. -/
def slotHold (s : State) (slot reason : Nat) (prefill : Bool) : State :=
  match mget s.gal.slots slot with
  | none => s
  | some x => { s with gal := { s.gal with slots := mset s.gal.slots slot { x with holdReason := reason, prefill } } }

/-- Holds a session (R49). -/
def holdSession (s : State) (i reason : Nat) : State :=
  match s.ses? i with
  | none => s
  | some e =>
    let s := slotHold s e.seqSlot reason (decide (e.state = .prefill))
    s.setSes i { e with state := .held, tier := .p1, holdReason := reason, holdReq := false, lifted := false,
                        changeTime := s.now }

/-- Ends a hold: ACTIVE, or PREFILL while transcript bytes wait (R49). -/
def unholdSession (s : State) (i : Nat) : State :=
  match s.ses? i with
  | none => s
  | some e =>
    let pre := decide (0 < e.transcriptBytes)
    let s := slotHold s e.seqSlot 0 pre
    let e' := { e with state := if pre then .prefill else .active, holdReason := 0, lifted := false, changeTime := s.now }
    s.setSes i (if pre then tokeniseSession s e' else e')

/-- The effect of ses.hold: after the current step, and never in a galley already built. -/
def holdBody (i : Nat) (e : Session) (s : State) : State × Reply :=
  if e.state ≠ .active ∧ e.state ≠ .prefill then (s, .status 0x2004)
  else if inGalley s i then (s.setSes i { e with holdReq := true }, .ok)
  else (holdSession s i 4, .ok)

def execSesHold (src : Src) (handle : BitVec 64) (s : State) : Host.Outcome State Fault Refusal :=
  .next (sesItem s src 0xC4 handle holdBody)

/-- The effect of ses.release. -/
def releaseBody (i : Nat) (e : Session) (s : State) : State × Reply :=
  if e.state ≠ .held ∨ e.holdReason ≠ 4 then (s, .status 0x2004)
  else (unholdSession s i, .ok)

def execSesRelease (src : Src) (handle : BitVec 64) (s : State) : Host.Outcome State Fault Refusal :=
  .next (sesItem s src 0xC5 handle releaseBody)

/-! ### ses.fork (R52 to R57, R286, R604) -/

/-- KV pages in one block of positions, and positions in a block (R278, R284). -/
def kvShape (m : Model) : Nat × Nat := (m.attnLayers * (m.kvHeads / m.groupHeads), 2 ^ m.log2ppp)

/-- KV entries wholly below a position, and those of the page that contains it (R54). -/
def forkSplit (m : Model) (kv : Map Word) (pos : Nat) : Map Word × Map Word :=
  let g := (kvShape m).1
  let ppp := (kvShape m).2
  (kv.filter fun x => decide ((x.1 / g + 1) * ppp ≤ pos), kv.filter fun x => x.1 / g = pos / ppp)

/-- Copies pages into newly allocated frames: their references under the same keys. -/
def copyPages (s : State) (ps : Map Word) (fs : List Nat) : State × Map Word :=
  ((ps.zip fs).foldl (fun s x => copyFrame s (refIndex x.1.2) x.2) s,
   (ps.zip fs).map fun x => (x.1.1, pageRef true false 1 0 x.2))

/-- The child of a fork (R54): frames allocated, pages shared and copied. -/
def forkPages (s : State) (i j : Nat) (e : Session) (m : Model) (pos : Nat) : Option (State × Session) := do
  let (shared, cut) := forkSplit m e.kv pos
  let lists := 1 + ((shared ++ cut).map fun x => x.1 / 2048).eraseDups.length + (if e.recur.isEmpty then 0 else 1)
  let (ls, s) ← allocFrames e.context 2 0 j lists s
  let (ks, s) ← allocFrames e.context 1 0 0 cut.length s
  let (rs, s) ← allocFrames e.context 3 0 0 e.recur.length s
  let (as, s) ← allocFrames e.context 4 0 0 1 s
  let (s, kc) := copyPages s cut ks
  let (s, rc) := copyPages s e.recur rs
  let s := (localFrames (shared.map (·.2))).foldl holdFrame s
  let mark (x : Nat × Word) : Nat × Word := (x.1, refSetShared x.2 true)
  let parent := { e with kv := e.kv.map fun x => if shared.any (·.1 = x.1) then mark x else x }
  let s := { s with ses := { s.ses with entries := mset s.ses.entries i parent } }
  let pages := (shared ++ cut).map (fun x => x.1 / 2048) |>.eraseDups
  let keys := 0 :: (if e.recur.isEmpty then [] else [1]) ++ pages.map (2 + ·)
  let child := ({ e with
    kv := shared.map mark ++ kc, recur := rc, aux := pageRef true false 1 0 (as.getD 0 0), transcriptPages := [],
    listFrames := (keys.zip ls).foldl (fun (l : Map Nat) (x : Nat × Nat) => mset l x.1 x.2) [],
    kvRoot := pageRef false false 1 0 (ls.getD 0 0),
    recurRoot := if e.recur.isEmpty then 0 else pageRef false false 1 0 (ls.getD 1 0) }).recount
  return (s, child)

/-- The child's entry, but for its pages (R40, R54). -/
def childEntry (e : Session) (s : State) (instar queue pos : Nat) (seed : Option Word) (tag link : Word) : Session :=
  let base := sesInit s.now instar e.context queue e.vocab e.grammar e.model e.prio e.dur e.customer e.draftEn tag e.contract
    e.cls s.devAddr 0
  { base with
    tokens := pos, link, cur := e.cur, history := e.history.take pos,
    kv := e.kv, recur := e.recur, aux := e.aux, kvRoot := e.kvRoot, recurRoot := e.recurRoot, listFrames := e.listFrames,
    kvPages := e.kvPages, dirtyPages := e.dirtyPages,
    text := { e.text with sampler := { e.text.sampler with seed := seed.getD e.text.sampler.seed, nextOseq := 0 },
                          matcher := [], utf8 := [] } }

/-- The effect of ses.fork. -/
def forkBody (src : Src) (pos : Nat) (seed : Option Word) (tag : Word) (i : Nat) (e : Session) (s : State) :
    State × Reply :=
  if (e.state ≠ .waiting ∧ e.state ≠ .held) ∨ e.tier ≠ .p1 ∨ e.tokens < pos then (s, .status 0x2004)
  else match mget s.gal.models e.model with
    | none => (s, .status 0x2006)
    | some m =>
      if m.recur ∧ pos ≠ e.tokens then (s, .status 0x200F)
      else if (localFrames ((forkSplit m e.kv pos).1.map (·.2))).any fun f =>
          match s.frame f with | none => false | some x => decide (x.refcnt = 65535) then (s, .status 0x2008)
      else
        let ok := bindingOk s e.context e.vocab e.grammar e.model e.dur e.customer && slotsMatch s e
        let st := createRefusal s e.context e.contract ok
        if st ≠ 0 then (s, .status st)
        else match takeIndex s with
          | none => (s, .status 0x2001)
          | some (j, inst, s1) =>
            match forkPages s1 i j e m pos with
            | none => (s, .status 0x200D)
            | some (s2, p) =>
              let c := childEntry p s2 inst src.queue pos seed tag (handleOf s2 i e)
              let s3 := bindSlots { s2 with ses := { s2.ses with entries := mset s2.ses.entries j c } } c
              let s4 := s3.incWrap SES_LIVE_ALLOCATED 1
              (s4, .done 0 (handleOf s4 j c) 0 0)

def execSesFork (src : Src) (handle : BitVec 64) (position : Nat) (newSeed : Bool) (seed tag : BitVec 64) (s : State) :
    Host.Outcome State Fault Refusal :=
  .next (sesItem s src 0xC6 handle (forkBody src position (if newSeed then some seed else none) tag))

/-! ### ses.migrate (R49) -/

/-- The effect of ses.migrate: MIGRATING, its slot released, its state on the way to the destination. -/
def migrateBody (device : Nat) (i : Nat) (e : Session) (s : State) : State × Reply :=
  if e.state ≠ .waiting ∧ e.state ≠ .held then (s, .status 0x2004)
  else
    let s := abortRevival (abortPark s i) i
    match s.ses? i with
    | none => (s, .ok)
    | some e =>
      let op : MigOp := { dest := device, prev := e.state, hold := e.holdReason, started := s.now }
      let r := releaseSlot s e
      let s := r.1.setSes i { r.2 with state := .migrating, holdReason := 0, mig := some op, graceAt := none, deferred := none,
                                       lifted := false, changeTime := s.now }
      (send (voidBuilt s i) (.migrate i device), .ok)

def execSesMigrate (src : Src) (handle : BitVec 64) (device : Nat) (s : State) : Host.Outcome State Fault Refusal :=
  .next (sesItem s src 0xC7 handle (migrateBody device))

/-! ### ses.cancel, ses.end, ses.free (R34, R36, R49, R63 to R69, R348) -/

/-- Sets CANCEL_REQ and CANCELLING and begins to drain (R63, R65, R66): slot released, built records voided, parks, revivals and
migrations abandoned, waiting output and held text discarded, the tombstone submitted. -/
def beginCancel (s : State) (i : Nat) (src : Src) : State :=
  let s := abortRevival (abortPark s i) i
  match s.ses? i with
  | none => s
  | some e =>
    let s := match e.ending with
      | some src' => completeFail s src' 0xCB 0x200A (handleOf s i e) e.tag
      | none => s
    let s := if e.mig.isSome then send s (.migrateAbort i) else s
    let r := releaseSlot s e
    let s := r.1.setSes i { r.2 with
      cancelReq := true, state := if e.state = .faulted then .ended else .cancelling, holdReason := 0,
      cancel := some (src, s.now, e.text.sampler.nextOseq), mig := none, ending := none, endReq := false, holdReq := false,
      lifted := false, runAfter := none, graceAt := none, deferred := none, changeTime := s.now,
      text := { e.text with matcher := [], utf8 := [] } }
    tombstone (dropWaiting (voidBuilt s i) i) i

/-- The effect of ses.cancel; it completes when the session has drained (R67, R68). -/
def cancelBody (src : Src) (i : Nat) (e : Session) (s : State) : State × Reply :=
  if e.state = .cancelling then (s, .status 0x2010)
  else (beginCancel s i src, .later)

def execSesCancel (src : Src) (handle : BitVec 64) (s : State) : Host.Outcome State Fault Refusal :=
  .next (sesItem s src 0xCA handle (cancelBody src) (faulted := true))

/-- The effect of ses.end: at once, or after the current step. -/
def endBody (src : Src) (i : Nat) (e : Session) (s : State) : State × Reply :=
  if e.state = .migrating ∨ e.state = .cancelling ∨ e.endReq then (s, .status 0x2004)
  else if inStep s i then (s.setSes i { e with endReq := true, ending := some src }, .later)
  else (finishEnd (abortPark s i) i src, .later)

def execSesEnd (src : Src) (handle : BitVec 64) (s : State) : Host.Outcome State Fault Refusal :=
  .next (sesItem s src 0xCB handle (endBody src))

/-- The instar after another (R34). -/
def nextInstar (n : Nat) : Nat := if n = 0xFFFFFF then 1 else n + 1

/-- Frees an entry: instar moved on, index at the tail of the free list (R34, R36, R49). -/
def freeBody (i : Nat) (e : Session) (s : State) : State × Reply :=
  if e.state ≠ .ended ∧ e.state ≠ .faulted then (s, .status 0x2004)
  else
    let s := dropWaiting s i
    let s := { s with ses := { s.ses with
      entries := mdel s.ses.entries i, freeList := s.ses.freeList ++ [(i, i)],
      freeInstar := mset s.ses.freeInstar i (nextInstar e.instar) } }
    (s.decFld SES_LIVE_ALLOCATED 1, .ok)

def execSesFree (src : Src) (handle : BitVec 64) (s : State) : Host.Outcome State Fault Refusal :=
  .next (sesItem s src 0xCC handle freeBody (moved := true) (ended := true) (faulted := true))

/-! ### ses.query (R40, R41, R43) -/

/-- STATE as encoded (R48). -/
def stateCode : SesState → Nat
  | .free => 0
  | .prefill => 1
  | .active => 2
  | .held => 3
  | .waiting => 4
  | .migrating => 5
  | .cancelling => 6
  | .ended => 7
  | .faulted => 8

/-- TIER as read: P0 while the sequence is in a galley executed or built (R43). -/
def tierShown (s : State) (i : Nat) (e : Session) : Nat :=
  if (e.state = .prefill ∨ e.state = .active) ∧ inGalley s i then 0 else e.tier.depth

/-- Words 0 to 14 and the low half of word 15 of an entry (R40). -/
def entryWords (s : State) (i : Nat) (e : Session) : List Nat :=
  [ e.instar + stateCode e.state * 2 ^ 24 + tierShown s i e * 2 ^ 28 + e.dur * 2 ^ 30 + e.context * 2 ^ 32 +
      e.customer * 2 ^ 38 + e.vocab * 2 ^ 50 + e.grammar * 2 ^ 56,
    e.model + e.prio * 2 ^ 10 + e.holdReason * 2 ^ 13 + b2n e.cancelReq * 2 ^ 16 + b2n e.parkBusy * 2 ^ 17 +
      b2n e.reviveBusy * 2 ^ 18 + b2n e.endReq * 2 ^ 19 + b2n e.draftEn * 2 ^ 20 + b2n e.moved * 2 ^ 21 +
      e.seqSlot * 2 ^ 24 + b2n e.seqValid * 2 ^ 37 + e.queue * 2 ^ 38 + e.lastStatus * 2 ^ 48,
    e.tokens % 2 ^ 32 + e.generated * 2 ^ 32,
    e.kvRoot.toNat, e.recurRoot.toNat, e.aux.toNat, e.expectTime, e.deadline, e.createTime, e.changeTime, e.link.toNat,
    e.kvPages + e.dirtyPages * 2 ^ 32,
    e.tag.toNat,
    e.cls + e.contract * 2 ^ 8 + e.genLimit * 2 ^ 24,
    e.lender + e.bay * 2 ^ 16 + e.transcriptBytes * 2 ^ 20 ]

/-- The 128 bytes of an entry with their CHECK (R40). -/
def entryImage (s : State) (i : Nat) (e : Session) : List Byte :=
  let bs := (entryWords s i e).flatMap (leBytes 8) ++ leBytes 4 e.updateSeq
  bs ++ leBytes 4 (crc32c bs).toNat

/-- The effect of ses.query. -/
def queryBody (src : Src) (dest : Word) (i : Nat) (e : Session) (s : State) : State × Reply :=
  match itemWrite s src 2 dest (entryImage s i e) with
  | .error st => (s, .status st)
  | .ok s => (s, .done 0 (BitVec.ofNat 64 e.updateSeq) 0 0)

def execSesQuery (src : Src) (handle dest : BitVec 64) (s : State) : Host.Outcome State Fault Refusal :=
  .next (sesItem s src 0xCD handle (queryBody src dest) (ended := true) (faulted := true) (stamp := false))

/-! ### ses.config (R47, R60, R111, R332, R340, R343, R352) -/

/-- What a selector does: refused with a status, or the previous value and the new entry. -/
abbrev ConfigResult := Except Nat (Word × Session)

/-- A session between runs or held (R60, R352). -/
def betweenRuns (e : Session) : Bool := decide (e.state = .waiting) || decide (e.state = .held)

/-- Selectors 0x01 to 0x07 (R60). -/
def configBinding (s : State) (e : Session) (selector : Nat) (value : Word) : ConfigResult :=
  let v := value.toNat
  let old (n : Nat) (e' : Session) : ConfigResult := .ok (BitVec.ofNat 64 n, e')
  match selector with
  | 1 => if 7 < v then .error 0x2014 else old e.prio { e with prio := v }
  | 2 => if !betweenRuns e then .error 0x2004 else if 255 < v then .error 0x2014 else old e.cls { e with cls := v }
  | 3 =>
    if !betweenRuns e then .error 0x2004
    else if v ≠ 0xFFFF ∧ 4095 < v then .error 0x2014
    else if !contractOk s e.context v then .error 0x3010
    else if v ≠ e.contract ∧ contractFull s v then .error 0x3011
    else old e.contract { e with contract := v }
  | 4 => .ok (e.tag, { e with tag := value })
  | 5 =>
    if !betweenRuns e then .error 0x2004
    else if 255 < v then .error 0x2014
    else if !s.flag (TOK_GRAM_A_LOADED v) || (decide (v ≠ 0) && decide (s.fld (TOK_GRAM_B_VOCAB_ID v) ≠ vocabIdOf s e.vocab)) then
      .error 0x2006
    else old e.grammar (dirtyAux { e with
      grammar := v, text := { e.text with gramSt := gramStart s v, gramStk := [] },
      lifted := e.lifted || (decide (e.state = .held) && decide (e.holdReason = 3)) })
  | 6 =>
    if !betweenRuns e then .error 0x2004 else if 1 < v then .error 0x2014
    else old (b2n e.draftEn) { e with draftEn := decide (v = 1) }
  | 7 =>
    if e.state ≠ .waiting then .error 0x2004
    else if 2 < v then .error 0x2014
    else if v = 0 ∧ e.tier ≠ .p1 then .error 0x2004
    else old e.dur { e with dur := v }
  | _ => .error 0x2004

/-- Whether the grammar state has ACCEPT with an empty stack (R341, R343); the built-in grammar accepts everywhere. -/
def atAccept (s : State) (e : Session) : Bool :=
  e.text.gramStk.isEmpty && (match mget s.tok.grammars e.grammar with
    | none => true
    | some g => match g.states[e.text.gramSt]? with | some (_, _, acc, _) => acc | none => false)

/-- A binary32 TEMP that is allowed: +0, positive, or +∞ (R332). -/
def tempOk (b : Nat) : Bool := decide (b ≤ 0x7F800000)

/-- A binary32 TOP_P in (0, 1] (R332). -/
def topPOk (b : Nat) : Bool := decide (0 < b) && decide (b ≤ 0x3F800000)

/-- Replaces eight bytes of a stop string. -/
def putStop (t : TextState) (i c : Nat) (value : Word) : TextState :=
  let str := t.stops.getD i []
  { t with stops := t.stops.set i (str.take (8 * c) ++ leBytes 8 value.toNat ++ str.drop (8 * c + 8)) }

/-- Selectors 0x10 to 0x3F (R352). -/
def configSampler (s : State) (e : Session) (selector index : Nat) (value : Word) : ConfigResult :=
  let v := value.toNat
  let t := e.text
  let p := t.sampler
  let put (old : Nat) (t' : TextState) : ConfigResult := .ok (BitVec.ofNat 64 old, dirtyAux { e with text := t' })
  let samp (ok : Bool) (old : Nat) (p' : Sampler) : ConfigResult :=
    if index ≠ 0 ∨ ok = false then .error 0x6020 else put old { t with sampler := p' }
  if !(([0x10, 0x11, 0x12, 0x13, 0x14, 0x15, 0x16, 0x20, 0x21, 0x22] : List Nat).contains selector) then .error 0x2004
  else if !betweenRuns e then .error 0x2004
  else match selector with
    | 0x10 => samp true p.seed.toNat { p with seed := value }
    | 0x11 => samp (tempOk (v % 2 ^ 32)) p.temp.toNat { p with temp := BitVec.ofNat 32 v }
    | 0x12 => samp (decide (v ≤ 1048576)) p.topK { p with topK := v }
    | 0x13 => samp (topPOk (v % 2 ^ 32)) p.topP.toNat { p with topP := BitVec.ofNat 32 v }
    | 0x14 => samp (decide (v ≤ 2)) p.outMode { p with outMode := v }
    | 0x15 =>
      (samp (decide (v ≤ 1)) (b2n p.ignoreEnd) { p with ignoreEnd := decide (v = 1) }).map fun (r : Word × Session) =>
        (r.1, { r.2 with lifted := e.lifted ||
          (decide (v = 0) && decide (e.state = .held) && decide (e.holdReason = 3) && atAccept s e) })
    | 0x16 => samp (decide (v ≤ 1)) (b2n p.includeStop) { p with includeStop := decide (v = 1) }
    | 0x20 =>
      if 127 < index then .error 0x6020
      else put (leNat (((t.stops.getD (index / 8) []).drop (8 * (index % 8))).take 8)) (putStop t (index / 8) (index % 8) value)
    | 0x21 =>
      if 15 < index ∨ 64 < v then .error 0x6020
      else put (t.stopLens.getD index 0) { t with stopLens := t.stopLens.set index v }
    | _ => if index ≠ 0 then .error 0x6020 else put 0 { t with stopLens := List.replicate 16 0 }

/-- Copies PRIO, DRAFT_EN and CONTRACT of an entry to its sequence slot (R151). -/
def slotCopy (s : State) (e : Session) : State :=
  if e.seqValid then
    match mget s.gal.slots e.seqSlot with
    | none => s
    | some x =>
      let c := (contractSlice s e).filter fun c => c.2 = 4 * x.part + x.slice
      let x' := { x with prio := e.prio, draftEn := e.draftEn, contracted := c.isSome, contract := (c.map (·.1)).getD 0xFFF }
      { s with gal := { s.gal with slots := mset s.gal.slots e.seqSlot x' } }
  else s

/-- The binding counts after a grammar change (R46). -/
def regram (s : State) (old new_ : Session) : State :=
  if old.bound ∧ old.grammar ≠ new_.grammar then
    (s.decFld (TOK_GRAM_A_BINDINGS old.grammar) 1).incWrap (TOK_GRAM_A_BINDINGS new_.grammar) 1
  else s

/-- A session made ephemeral gives up its P3 copy (R92). -/
def dropDurable (s : State) (i : Nat) : State :=
  match s.ses? i with
  | none => s
  | some e =>
    let s := tombstone s i
    (notBehind s e).setSes i { e with p3 := none, behind := false, deferred := none, tombstone := 0 }

/-- The effect of ses.config; selector 0x22 has no previous value, so its result is a free value (log entry 12). -/
def configBody (selector index : Nat) (value : Word) (i : Nat) (e : Session) (s : State) : State × Reply :=
  if !e.state.live then (s, .status 0x2004)
  else
    match (if selector < 0x10 then configBinding s e selector value else configSampler s e selector index value) with
    | .error st => (s, .status st)
    | .ok (old, e') =>
      let s := slotCopy (regram (s.setSes i e') e e') e'
      let s := if selector = 7 ∧ value = 0 then dropDurable s i else s
      (s, if selector = 0x22 then .status 0 else .done 0 old 0 0)

def execSesConfig (src : Src) (handle : BitVec 64) (selector index : Nat) (value : BitVec 64) (s : State) :
    Host.Outcome State Fault Refusal :=
  .next (sesItem s src 0xCE handle (configBody selector index value))

end Sys2Proof.Machine
end

