-- ==== Sys2Proof/Machine/GalCore.lean ====
section
/-! DEFINITION. Galleys and partitions (05): records, rank, dispatch and light switches, what bars a slice, the save record of
a cell, budgets, and the abandoning of a galley. -/

namespace Sys2Proof.Machine

/-! ### Partitions and slices (R152 to R157) -/

/-- A slice that has run nothing. -/
def slice0 : Slice where
  built := none
  running := none
  prevRelease := 0
  prevDone := 0
  r0 := none
  contract := none
  building := false
  loaded := false
  nextStep := 0

/-- A slice, by 4 × partition + slice. -/
def State.slice (s : State) (sl : Nat) : Slice := (mget s.gal.slices sl).getD slice0

/-- Writes a slice. -/
def State.setSlice (s : State) (sl : Nat) (x : Slice) : State := { s with gal := { s.gal with slices := mset s.gal.slices sl x } }

/-- A partition that runs nothing. -/
def part0 : Part where
  running := none
  nest := []
  search := none

/-- A partition. -/
def State.part (s : State) (p : Nat) : Part := (mget s.gal.parts p).getD part0

/-- Writes a partition. -/
def State.setPart (s : State) (p : Nat) (x : Part) : State := { s with gal := { s.gal with parts := mset s.gal.parts p x } }

/-- Whether a partition is stopped by a full switch (R181). -/
def stopped (s : State) (p : Nat) : Bool := bitOf (s.fld GAL_STATUS_STOPPED) p

/-- The model image a slice runs. -/
def sliceModel (s : State) (p k : Nat) : Option Model := mget s.gal.models (s.fld (GAL_SLICE_A_MODEL p k))

/-- First word and word count of a slice's instruction-store window; the search program's window for slice 4 (R153, R433). -/
def window (s : State) (p k : Nat) : Nat × Nat :=
  if k = 4 then (3584, 512) else (s.fld (GAL_SLICE_B_IS_BASE p k) * 128, s.fld (GAL_SLICE_B_IS_SIZE p k) * 128)

/-- Whether two windows overlap. -/
def windowsMeet (a b : Nat × Nat) : Bool := overlaps a.1 a.2 b.1 b.2

/-- Cell memory of a partition that no contract's resident weights take (R183). -/
def spareMem (s : State) (p : Nat) : Nat := (partCells s p).length * (4194304 - 4096 * s.fld MKR_DERATE_CELLMEM_RSV_KIB)

/-- Whether a quire has all its forty cells (13 R516). -/
def quireWhole (s : State) (q : Nat) : Bool := decide ((quireCells s q).length = 40)

/-- Whether an enabled slice is barred (R154, R183, 11 R433, 13 R516). -/
def barred (s : State) (p k : Nat) : Bool :=
  match sliceModel s p k with
  | none => true
  | some m =>
    decide (m.quires ≠ (partQuires s p).length) ||
    !((partQuires s p).all (quireWhole s)) ||
    decide (4096 < (window s p k).1 + (window s p k).2) ||
    (List.range k).any (fun j => s.flag (GAL_SLICE_A_ENABLE p j) && windowsMeet (window s p k) (window s p j)) ||
    (s.vse.any (fun x => decide (s.fld (VSE_IX_A_PART x.1) = p)) && windowsMeet (window s p k) (3584, 512)) ||
    (!s.flag (GAL_SLICE_A_RESIDENT p k) && decide (m.source = 2) && decide (9 * spareMem s p < 10 * m.wres))

/-- Whether a slice is enabled in an enabled partition. -/
def sliceOn (s : State) (p k : Nat) : Bool := s.flag (GAL_PART_ENABLE p) && s.flag (GAL_SLICE_A_ENABLE p k)

/-- Shows the barred slices (R154, R183). -/
def refreshErr (s : State) : State :=
  s.setFld GAL_SLICE_ERR_ERR (((List.range 64).filter fun sl => sliceOn s (sl / 4) (sl % 4) && barred s (sl / 4) (sl % 4)).map
    (2 ^ ·)).sum

/-- The step-period contract bound to a slice (R155). -/
def boundContract (s : State) (sl : Nat) : Option (Nat × Contract) :=
  (s.mkr.binding.find? fun x => x.2 = sl).bind fun x => (inForce s x.1).map fun c => (x.1, c)

/-! ### Records (R159) -/

/-- The four words of a galley record (R159). -/
def recWords (r : Rec) : List Word :=
  [BitVec.ofNat 64 (r.slot + b2n r.contracted * 2 ^ 13 + b2n r.prefill * 2 ^ 14 + b2n r.void * 2 ^ 15 + r.index % 2 ^ 24 * 2 ^ 16 +
     r.instar % 2 ^ 24 * 2 ^ 40),
   BitVec.ofNat 64 (r.pos % 2 ^ 32 + r.new % 2 ^ 16 * 2 ^ 32 + r.draft * 2 ^ 48 + r.eprio * 2 ^ 53), r.kvRoot, r.recurRoot]

/-- COUNT of a galley: its records. -/
def galCount (g : Galley) : Nat := g.recs.length + g.raw.length

/-- The record words a cell fetches at an index: the first record from there on with VOID clear (R184, R244). -/
def fetchRec (g : Galley) (i : Nat) : Option (Nat × List Word) :=
  let live := (g.recs.map fun r => (!r.void, recWords r)) ++ g.raw.map fun w => (true, w)
  (live.zipIdx.find? fun x => decide (i ≤ x.2) && x.1.1).map fun x => (x.2, x.1.2)

/-- Rank of a galley under R165, best first in lexical order: class, then its keys. -/
def galRank (s : State) (p k : Nat) (g : Galley) : List Nat :=
  match s.fld (GAL_SLICE_A_KIND p k) with
  | 2 => [3, g.release, k]
  | 1 => [4, g.release, k]
  | _ => if 0 < g.cCount then [1, g.deadline, k] else [2, 7 - (g.recs.map (·.eprio)).foldl max 0, g.release, k]

/-- Rank of a search galley (11 R433). -/
def searchRank (s : State) (x : Nat × List Nat × Nat × Option Nat) : List Nat :=
  match x.2.2.2 with
  | some d => [1, d, 4]
  | none => [2, 7 - s.fld (VSE_IX_A_PRIO x.1), x.2.2.1, 4]

/-- Lexical order of ranks. -/
def rankLt : List Nat → List Nat → Bool
  | [], [] => false
  | [], _ => true
  | _, [] => false
  | a :: as, b :: bs => decide (a < b) || (decide (a = b) && rankLt as bs)

/-- Galleys of a partition in flight, with their ranks. -/
def inFlight (s : State) (p : Nat) : List (Nat × List Nat) :=
  ((List.range 4).filterMap fun k => ((s.slice (4 * p + k)).running).map fun g => (k, galRank s p k g)) ++
  (match (s.part p).search with | none => [] | some x => [(4, searchRank s x)])

/-- The best-ranked galley of a partition. -/
def bestRank : List (Nat × List Nat) → Option (Nat × List Nat)
  | [] => none
  | x :: r => match bestRank r with
    | none => some x
    | some y => if rankLt y.2 x.2 then some y else some x

/-! ### The save record of a cell (R179, 07 R273) -/

/-- Non-zero bytes of a byte string, by place. -/
def sparse (bs : List Byte) : Map Byte :=
  bs.zipIdx.filterMap fun x => if x.1 = 0 then none else some (x.2, x.1)

/-- A range of a byte memory, by place in the range. -/
def rangeOf (m : Map Byte) (a n : Nat) : Map Byte :=
  (m.filter fun x => decide (a ≤ x.1) && decide (x.1 < a + n)).map fun x => (x.1 - a, x.2)

/-- Cuts a byte string into `n` pieces of `k` bytes. -/
def chunks (k : Nat) : Nat → List Byte → List (List Byte)
  | 0, _ => []
  | n + 1, bs => bs.take k :: chunks k n (bs.drop k)

/-- Words of a descriptor (07 R253). -/
def descWords (n : Nat) (d : Desc) : List Nat :=
  [n + d.op * 2 ^ 4 + b2n d.active * 2 ^ 8 + b2n d.faulted * 2 ^ 9 + d.status * 2 ^ 16 + d.done * 2 ^ 32, d.remote.toNat,
   d.local_ + d.count * 2 ^ 32, d.indexAddr + d.elemUnits * 2 ^ 22 + d.stride * 2 ^ 32, d.word4.toNat, d.faultAddr.toNat, 0, 0]

/-- A descriptor from its words. -/
def wordsDesc (w : List Nat) : Desc where
  op := bits (w.getD 0 0) 4 4
  active := bitOf (w.getD 0 0) 8
  faulted := bitOf (w.getD 0 0) 9
  status := bits (w.getD 0 0) 16 16
  done := bits (w.getD 0 0) 32 32
  remote := BitVec.ofNat 64 (w.getD 1 0)
  local_ := bits (w.getD 2 0) 0 22
  count := bits (w.getD 2 0) 32 32
  indexAddr := bits (w.getD 3 0) 0 22
  elemUnits := bits (w.getD 3 0) 22 8
  stride := bits (w.getD 3 0) 32 32
  word4 := BitVec.ofNat 64 (w.getD 4 0)
  faultAddr := BitVec.ofNat 64 (w.getD 5 0)

/-- Words as bytes. -/
def w64 (l : List Nat) : List Byte := l.flatMap (leBytes 8)

/-- The instar of in-service cell `n` by device cell number (06 R229). -/
def cellInstar (s : State) (n : Nat) : Nat := s.fld (FRM_CELL_MAP_INSTAR (n / 160) (n % 160))

/-- The physical cell behind a device cell number (06 R229). -/
def cellPhys (s : State) (n : Nat) : Nat := s.fld (FRM_CELL_MAP_PHYS (n / 160) (n % 160))

/-- STEP of the galley a partition's slice runs. -/
def stepOf (s : State) (p k : Nat) : Nat := (((s.slice (4 * p + k)).running).map (·.step)).getD 0

/-- Sequencer state of a save record (07 R273). -/
def seqBytes (c : Cell) : List Byte :=
  let b (j : Nat) : Nat := ((wreg c j).b % 512).toNat
  let w := match c.wait with
    | none => (0, 0)
    | some (op, ref, v) => (ref.toNat % 2 ^ 38 + 2 ^ 38 + op * 2 ^ 56, v.toNat)
  w64 [c.pc, c.status.toNat, c.epc, b 0 + b 1 * 2 ^ 9 + b 2 * 2 ^ 18 + b 3 * 2 ^ 27, w.1, w.2,
       (match c.tmma with | none => 0 | some k => k + 2 ^ 32), 0]

/-- The first 48 KiB of a cell's save record; KIND 1 light, 2 full (R179). -/
def lowRecord (s : State) (n kind : Nat) : List Byte :=
  let c := s.cell n
  w64 [n, cellPhys s n, cellInstar s n, kind, c.part, c.slice, stepOf s c.part c.slice, s.now] ++
  w64 ((List.range 32).map fun i => (sreg c i).toNat) ++
  w64 ((List.range 8).map fun i => (preg c i).toNat) ++ seqBytes c ++
  w64 ((List.range 16).flatMap fun i => descWords i (descOf c i)) ++ List.replicate 576 0#8 ++
  ((List.range 32).flatMap fun i => (vreg c i).flatMap fun l => leBytes 4 l.toNat) ++
  ((List.range 4).flatMap fun i => (wreg c i).lanes.flatMap fun l => leBytes 24 l.toNat) ++
  ((List.range 8).flatMap fun i => (treg c i).flatMap fun l => leBytes 4 l.toNat)

/-- Registers taken from the first 48 KiB of a save record (R178, R179, 07 R259, R274): a wait is issued again. -/
def loadLow (c : Cell) (bs : List Byte) : Cell :=
  let seg (a n : Nat) : List Byte := (bs.drop a).take n
  let words (a n : Nat) : List Nat := (chunks 8 n (seg a (8 * n))).map leNat
  let sq := words 0x180 8
  { c with
    s := ((words 0x40 32).zipIdx.filter fun (x : Nat × Nat) => decide (x.2 ≠ 0)).map fun (x : Nat × Nat) => (x.2, BitVec.ofNat 64 x.1),
    p := (words 0x140 8).zipIdx.map fun (x : Nat × Nat) => (x.2, BitVec.ofNat 64 x.1),
    pc := sq.getD 0 0 % 4096, status := BitVec.ofNat 64 (sq.getD 1 0), epc := sq.getD 2 0 % 4096, wait := none,
    tmma := if bitOf (sq.getD 6 0) 32 then some (sq.getD 6 0 % 2 ^ 32) else none,
    desc := (List.range 16).map fun (i : Nat) => (i, wordsDesc (words (0x1C0 + 64 * i) 8)),
    v := (List.range 32).map fun (i : Nat) =>
      (i, (chunks 4 64 (seg (0x800 + 256 * i) 256)).map fun l => BitVec.ofNat 32 (leNat l)),
    w := (List.range 4).map fun (i : Nat) =>
      (i, ⟨(chunks 24 64 (seg (0x2800 + 1536 * i) 1536)).map fun l => BitVec.ofNat 192 (leNat l), sgn (bits (sq.getD 3 0) (9 * i) 9) 9⟩),
    t := (List.range 8).map fun (i : Nat) =>
      (i, (chunks 4 1024 (seg (0x4000 + 4096 * i) 4096)).map fun l => BitVec.ofNat 32 (leNat l)) }

/-- First byte of a light save area in cell memory (06 R192). -/
def saveArea (a : Nat) : Nat := 0x3C0000 + 0xC000 * a

/-- Withdraws a cell's wait on a synchronisation object (07 R274). -/
def withdrawWait (s : State) (n : Nat) : State :=
  let c := s.cell n
  match c.wait with
  | none => s
  | some (_, ref, _) =>
    let k := bits ref.toNat 0 14
    let l := (mget s.waiters k).getD []
    let l' := l.filter fun w => w.actor ≠ n
    ({ s with waiters := mset s.waiters k l' }.decFld SYN_STATUS_WAITERS (l.length - l'.length)).setCell n { c with wait := none }

/-- Light save of one cell into an area of its memory (R178). -/
def lightSave (a : Nat) (s : State) (n : Nat) : State :=
  let bs := lowRecord s n 1
  let s := withdrawWait s n
  let c := s.cell n
  s.setCell n { c with mem := overlay c.mem (saveArea a) 0xC000 (sparse bs), run := if c.run = .running then .stopped else c.run }

/-- Whether a cell has executed step.done in the galley in flight of its slice (07 R245). -/
def cellDone (s : State) (p k n : Nat) : Bool :=
  match (s.slice (4 * p + k)).running with
  | none => false
  | some g => g.done.contains n

/-- Light restore of one cell from an area of its memory (R178). -/
def lightLoad (p k a : Nat) (s : State) (n : Nat) : State :=
  let c := loadLow (s.cell n) (rdBytes (s.cell n).mem (saveArea a) 0xC000)
  s.setCell n { c with part := p, slice := k, run := if cellDone s p k n then .idle else .running }

/-- Registers of a cell at the start of a galley (07 R238, R243). -/
def startCell (p k count base : Nat) (code : List Word) (cells : Nat) (s : State) (x : Nat × Nat) : State :=
  let c := s.cell x.1
  s.setCell x.1 { c with
    s := [(1, BitVec.ofNat 64 x.2), (2, BitVec.ofNat 64 cells), (3, BitVec.ofNat 64 count)],
    v := [], p := [], t := [], w := [], status := 0, epc := 0, wait := none, tmma := none, run := .running,
    pc := base + 16, part := p, slice := k, rank := x.2, cells,
    istore := (code.zipIdx.foldl (fun m y => mset m (base + y.2) y.1) c.istore) }

/-- Starts the galley of a slice, or the search galley as slice 4, on the cells of its partition. -/
def startGalley (s : State) (p k : Nat) : State :=
  let cs := partCells s p
  let w := window s p k
  let count := (((s.slice (4 * p + k)).running).map galCount).getD 0
  let code := if k = 4 then [] else ((sliceModel s p k).map fun m => m.code.take w.2).getD []
  let s := cs.zipIdx.foldl (startCell p k (if k = 4 then 0 else count) w.1 code cs.length) s
  if k < 4 ∧ s.flag (GAL_SLICE_A_RESIDENT p k) = false then
    (List.range 4).foldl (fun s j => s.setSlice (4 * p + j) { s.slice (4 * p + j) with
      loaded := if j = k then true else if s.flag (GAL_SLICE_A_RESIDENT p j) then (s.slice (4 * p + j)).loaded else false }) s
  else s

/-- Suspends the running galley by a light switch (R178). -/
def suspend (s : State) (p k : Nat) : State :=
  let a := ((List.range 4).find? fun i => !((s.part p).nest.any fun x => x.2 = i)).getD 3
  let s := (partCells s p).foldl (lightSave a) s
  let s := s.incSat GAL_SWITCHES_COUNT 1
  s.setPart p { s.part p with running := none, nest := (k, a) :: (s.part p).nest }

/-- Runs the best-ranked galley in flight of a partition, suspending a running one of worse rank (R165, R178). -/
def dispatch (s : State) (p : Nat) : State :=
  if stopped s p then s
  else match bestRank (inFlight s p) with
    | none => s
    | some (k, _) =>
      let x := s.part p
      if x.running = some k then s
      else
        let s := match x.running with
          | some j => suspend s p j
          | none => s
        match (s.part p).nest.find? fun y => y.1 = k with
        | some (_, a) =>
          let s := (partCells s p).foldl (lightLoad p k a) s
          s.setPart p { s.part p with running := some k, nest := (s.part p).nest.filter fun y => y.1 ≠ k }
        | none => (startGalley s p k).setPart p { s.part p with running := some k }

/-! ### Budgets (R171, R172) -/

/-- Writes the fraction and time of a budget. -/
def State.setBudget (s : State) (c : Nat) (x : Nat × Nat) : State := { s with gal := { s.gal with budget := mset s.gal.budget c x } }

/-- Brings a customer's budget up to now (R171). -/
def budgetFill (s : State) (c : Nat) : State :=
  if s.flag (GAL_BUDGET_B_ENABLE c) then
    let x := (mget s.gal.budget c).getD (0, s.now)
    let t := x.1 + s.fld (GAL_BUDGET_A_RATE c) * (s.now - x.2)
    let d := s.fld (GAL_BUDGET_A_DEPTH c)
    let l := min d (s.fld (GAL_BUDGET_B_LEVEL c) + t / 10 ^ 9)
    let frac := if l = d then 0 else t % 10 ^ 9
    (s.setFld (GAL_BUDGET_B_LEVEL c) l).setBudget c (frac, s.now)
  else s

/-- Returns tokens to a customer's budget (R172). -/
def budgetReturn (s : State) (c n : Nat) : State :=
  if s.flag (GAL_BUDGET_B_ENABLE c) then
    s.setFld (GAL_BUDGET_B_LEVEL c) (min (s.fld (GAL_BUDGET_A_DEPTH c)) (s.fld (GAL_BUDGET_B_LEVEL c) + n))
  else s

/-! ### Ends of a galley (07 R271, 08 R293, R302) -/

/-- Returns the unused part of a record's reservation (08 R293). -/
def returnReserve (s : State) (ctx n : Nat) : State :=
  if n = 0 then s else (s.incWrap SES_KV_FREE_FREE n).decFld (SES_CTX_PAGES_USED_PAGES ctx) n

/-- Frees KV entries of a session: their frames, and the list pages left empty (08 R287, R302). -/
def dropEntries (s : State) (i : Nat) (gone : Nat → Bool) : State :=
  match s.ses? i with
  | none => s
  | some e =>
    let kept := e.kv.filter fun x => !gone x.1
    let old := e.kv.filter fun x => gone x.1
    if old.isEmpty then s
    else
      let dead := e.listFrames.filter fun x => decide (2 ≤ x.1) && !(kept.any fun y => y.1 / 2048 = x.1 - 2)
      let s := freeFrames s (localFrames (old.map (·.2)) ++ dead.map (·.2))
      match s.ses? i with
      | none => s
      | some e => s.setSes i (({ e with
          kv := e.kv.filter fun (x : Nat × Word) => !gone x.1,
          listFrames := e.listFrames.filter fun (x : Nat × Nat) => !(dead.any fun y => y.1 = x.1) } : Session).recount)

/-- What every record of a galley gives back when it ends without committing: reserved frames, new pages, budget (07 R271,
08 R293, R302, 05 R172). -/
def abandonRec (s : State) (r : Rec) : State :=
  let s := returnReserve s r.context r.reserved
  let s := match s.ses? r.index with
    | none => s
    | some e => if e.instar = r.instar then dropEntries s r.index fun j => r.newPages.contains j else s
  budgetReturn s r.customer r.deducted

/-- Stops the partition's cells that run a slice. -/
def stopSlice (p k : Nat) (s : State) (n : Nat) : State :=
  let c := s.cell n
  if c.part = p ∧ c.slice = k then (withdrawWait s n).setCell n { (withdrawWait s n).cell n with run := if c.run = .fenced then .fenced else .idle }
  else s

/-- Counts a galley's busy cell cycles while profiling is on (14 R562); how many there are is timing: a free value (log entry 12). -/
def profile (s : State) (p : Nat) : State :=
  if s.flag DBG_CFG_PROFILE_EN then s.draw.2.incSat (DBG_PART_BUSY_CYCLES p) s.draw.1.toNat else s

/-- Takes a slice's galley out of flight: its cells idle, its partition dispatches what is left. -/
def endGalley (s : State) (p k : Nat) : State :=
  let s := profile s p
  let x := s.part p
  let s := if x.running = some k then (partCells s p).foldl (stopSlice p k) s else s
  let s := s.setPart p { x with running := if x.running = some k then none else x.running,
                                nest := x.nest.filter fun y => y.1 ≠ k, search := if k = 4 then none else x.search }
  let s := if k < 4 then s.setSlice (4 * p + k) { s.slice (4 * p + k) with running := none } else s
  dispatch s p

/-- A session whose step has ended: an ses.end or an ses.hold that waited for it takes effect (02 R49, R69). -/
def afterStep (s : State) (i : Nat) : State :=
  match s.ses? i with
  | none => s
  | some e =>
    match e.ending with
    | some src => finishEnd s i src
    | none =>
      if e.holdReq && !inGalley s i && (decide (e.state = .active) || decide (e.state = .prefill)) then holdSession s i 4 else s

/-- Abandons the galley of a slice (07 R271): no record commits, every sequence keeps its place. -/
def abandonGalley (s : State) (p k : Nat) : State :=
  match (s.slice (4 * p + k)).running with
  | none => if k = 4 then endGalley s p 4 else s
  | some g =>
    let s := g.recs.foldl abandonRec s
    let s := endGalley s p k
    let s := s.setSlice (4 * p + k) { s.slice (4 * p + k) with prevDone := s.now }
    g.recs.foldl (fun s r => afterStep s r.index) s

end Sys2Proof.Machine
end

