-- ==== Sys2Proof/Machine/Sampling.lean ====
section
/-! DEFINITION. Grammars and sampling (09 R330 to R343): the pushdown automaton, the mask, the position-keyed generator and
the draw. -/

namespace Sys2Proof.Machine

/-! ### Grammars (R334 to R339) -/

/-- Whether a token is one of the session's end tokens. -/
def isEnd (v : Vocab) (t : Nat) : Bool := v.ends.contains t

/-- Whether a token is special (R317). -/
def isSpecial (v : Vocab) (t : Nat) : Bool :=
  match v.strings[t]? with
  | some (_, sp, _) => sp
  | none => true

/-- Bytes of a token. -/
def tokenBytes (v : Vocab) (t : Nat) : List Byte := ((v.strings[t]?).map (·.1)).getD []

/-- A grammar's state and stack, top first. -/
abbrev GState := Nat × List (Nat × Nat)

/-- Whether a transition entry matches a class in a state of the stack (R336). -/
def entryMatches (cls : Nat) (stk : List (Nat × Nat)) (g : GEntry) : Bool :=
  decide (g.lo ≤ cls) && decide (cls ≤ g.hi) &&
  (match stk with
   | [] => decide (g.top = 0xFFFF) || decide (g.top = 0xFFFE)
   | y :: _ => decide (g.top = 0xFFFF) || decide (g.top = y.1)) &&
  (decide (g.action ≠ 2) || !stk.isEmpty) && (decide (g.action ≠ 1) || decide (stk.length < 256))

/-- Takes an entry (R337). -/
def takeEntry (g : GEntry) (stk : List (Nat × Nat)) : GState :=
  match g.action, stk with
  | 0, _ => (g.target, stk)
  | 1, _ => (g.target, (g.pushSym, g.ret) :: stk)
  | _, [] => (g.target, [])
  | _, y :: r => (y.2, r)

/-- The record of a state: FIRST, NTRANS, ACCEPT, FINAL. -/
def gramRecord (g : Grammar) (x : Nat) : Nat × Nat × Bool × Bool := (g.states[x]?).getD (0, 0, false, false)

/-- The first entry of a state that matches a token (R336). -/
def gramEntry (g : Grammar) (st : GState) (t : Nat) : Option GEntry :=
  let r := gramRecord g st.1
  (((g.entries.drop r.1).take r.2.1).find? (entryMatches ((g.classes[t]?).getD 0) st.2))

/-- What a token does to an automaton: the state after it, none where it is not allowed (R336 to R339).  The built-in grammar
of slot 0 is no automaton. -/
def gramStep (v : Vocab) (g : Option Grammar) (ignoreEnd : Bool) (st : GState) (t : Nat) : Option GState :=
  if isEnd v t then
    match g with
    | none => if ignoreEnd then none else some st
    | some g => if !ignoreEnd && (gramRecord g st.1).2.2.1 && st.2.isEmpty then some st else none
  else if isSpecial v t then none
  else match g with
    | none => some st
    | some g => (gramEntry g st t).map fun e => takeEntry e st.2

/-- The state that a run of tokens leaves, none where one of them is not allowed. -/
def gramRun (v : Vocab) (g : Option Grammar) (ignoreEnd : Bool) : GState → List Nat → Option GState
  | st, [] => some st
  | st, t :: ts => (gramStep v g ignoreEnd st t).bind fun st => gramRun v g ignoreEnd st ts

/-- The mask of a position (R336 to R339): one bit for each token identity. -/
def gramMask (v : Vocab) (g : Option Grammar) (ignoreEnd : Bool) (st : GState) : List Bool :=
  (List.range v.ntok).map fun t => (gramStep v g ignoreEnd st t).isSome

/-- Whether entering a state with its stack ends the run (R334 FINAL, R349). -/
def gramFinal (g : Option Grammar) (st : GState) : Bool :=
  match g with
  | none => false
  | some g => (gramRecord g st.1).2.2.2 && st.2.isEmpty

/-! ### The generator (R330) -/

/-- mix of R330. -/
def genMix (x : Word) : Word :=
  let x := x ^^^ (x >>> 32)
  let x := x * 0xB5A39C47E2D16F0B
  let x := x ^^^ (x >>> 29)
  let x := x * 0x8E7D41F3A96C25D7
  x ^^^ (x >>> 32)

/-- gen of R330. -/
def genAt (seed : Word) (pos : Nat) : Word := genMix (seed ^^^ genMix (BitVec.ofNat 64 (pos % 2 ^ 32) + 1))

/-! ### The draw (R331) -/

/-- −∞ in binary32. -/
def negInf : Nat := 0xFF800000

/-- The greater of two values, −0 below +0; a NaN never comes here. -/
def maxZ (a b : Nat) : Nat := if leNum (decodeF fmt32 a) (decodeF fmt32 b) then b else a

/-- Weight of a logit: 2^((z − m) × c) as an integer on the 2^-149 grid; a NaN weighs nothing. -/
def weightOf (m c z : Nat) : Nat :=
  if z = negInf then 0
  else
    let d := (fSub fmt32 rne z m).1
    let x := (fMul fmt32 rne d c).1
    match decodeF fmt32 (fExp2 fmt32 rne x).1 with
    | .fin _ n e => n * 2 ^ (e + 149).toNat
    | _ => 0

/-- Inserts by weight descending, then identity ascending. -/
def insertW (x : Nat × Nat) : List (Nat × Nat) → List (Nat × Nat)
  | [] => [x]
  | y :: r => if y.2 < x.2 ∨ (y.2 = x.2 ∧ x.1 < y.1) then x :: y :: r else y :: insertW x r

/-- The shortest run from the front whose sum is at least `q`. -/
def prefixSum (q : Nat) : Nat → List (Nat × Nat) → List (Nat × Nat)
  | _, [] => []
  | acc, x :: r => if q ≤ acc then [] else x :: prefixSum q (acc + x.2) r

/-- The first identity whose running sum exceeds `t`, in ascending identity. -/
def walkSum (t : Nat) : Nat → List (Nat × Nat) → Option Nat
  | _, [] => none
  | acc, x :: r => if t < acc + x.2 then some x.1 else walkSum t (acc + x.2) r

/-- ⌈TOP_P × S⌉, exact. -/
def topPOf (p s : Nat) : Nat :=
  match decodeF fmt32 p with
  | .fin _ m e => if e < 0 then (m * s + 2 ^ (-e).toNat - 1) / 2 ^ (-e).toNat else m * s * 2 ^ e.toNat
  | _ => s

/-- What a draw gives: no token, the lowest allowed of a degenerate position, a token, or no identity that R331 names. -/
inductive Draw where
  | noToken
  | degenerate (t : Nat)
  | token (t : Nat)
  | unstated
  deriving DecidableEq, Repr

/-- Identities with their weights kept by TOP_K and TOP_P, in ascending identity. -/
def keptWeights (sm : Sampler) (ws : List (Nat × Nat)) : List (Nat × Nat) :=
  let order := (ws.filter fun x => decide (0 < x.2)).foldr insertW []
  let kept := if 0 < sm.topK then order.take sm.topK else order
  let kept := if cmpNum (decodeF fmt32 sm.topP.toNat) (.fin false 1 0) < 0 then
      prefixSum (topPOf sm.topP.toNat (kept.map (·.2)).sum) 0 kept
    else kept
  ws.filter fun x => kept.any fun y => y.1 = x.1

/-- The draw of R331 at position q. -/
def sampleToken (sm : Sampler) (q : Nat) (zs : List Nat) (allowed : List Bool) : Draw :=
  let z := (zs.zip allowed).map fun x => if x.2 && decide (decodeF fmt32 x.1 ≠ .nan) then x.1 else negInf
  match allowed.findIdx? (· = true) with
  | none => .noToken
  | some low =>
    let m := z.foldl maxZ negInf
    if m = negInf then .degenerate low
    else if decodeF fmt32 sm.temp.toNat = .fin false 0 (-149) ∨ sm.topK = 1 then
      match z.findIdx? fun x => decide (x ≠ negInf) && decide (cmpNum (decodeF fmt32 x) (decodeF fmt32 m) = 0) with
      | some i => .token i
      | none => .unstated
    else
      let c := match decodeF fmt32 sm.temp.toNat with
        | .fin _ n e => (roundQuot fmt32 rne false 0xB8AA3B (-23) n e).1
        | _ => 0
      let kept := keptWeights sm (z.zipIdx.map fun x => (x.2, weightOf m c x.1))
      let total := (kept.map (·.2)).sum
      let t := total * ((genAt sm.seed (q + 1)).toNat / 2 ^ 40) / 2 ^ 24
      match walkSum t 0 kept with
      | some i => .token i
      | none => .unstated

end Sys2Proof.Machine
end

