-- ==== Sys2Proof/Machine/SesEvents.lean ====
section
/-! DEFINITION. What happens to sessions by itself: cancels that drain, waits that expire, parks and revivals that commit,
migrations that end, lenders and their reclaims (02 R49, R50, R67 to R69; 03 R83 to R105).  An event whose condition does not
hold has no effect (log entry 4). -/

namespace Sys2Proof.Machine

/-- Nanoseconds of a millisecond. -/
def msNs : Nat := 1000000

/-- A deadline notice (14 R535 REASON 10), a copy notice (REASON 5) and so on go through `sesNoticeFree`; the fault source of a
context's session events (13 R494). -/
def ctxSource (c : Nat) : Nat := 0xC00 + c

/-! ### Cancels (R49, R67 to R69) -/

def execCancelDrainComplete (index : Nat) (s : State) : Host.Outcome State Fault Refusal :=
  .next (match s.ses? index with
    | none => s
    | some e => if e.cancel.isSome && drained s index e then finishCancel s index 0 else s)

/-- The drain timeout (R69, R503). -/
def drainTimeout (s : State) (i : Nat) : State :=
  match s.ses? i with
  | none => s
  | some e =>
    match e.cancel with
    | none => s
    | some (_, t0, _) =>
      if t0 + s.fld FLT_TIMEOUT_B_DRAIN_MS * msNs ≤ s.now then
        fault (finishCancel s i 0xA001) (ctxSource e.context) 0x07 0xA001 (handleOf s i e)
      else s

def execSessionDrainTimeout (index : Nat) (s : State) : Host.Outcome State Fault Refusal := .next (drainTimeout s index)

/-! ### Waits (R50, R87, R90, R91, R94, R102, R140) -/

/-- The end of the wait grace (R50). -/
def graceExpiry (s : State) (i : Nat) : State :=
  match s.ses? i with
  | none => s
  | some e =>
    match e.graceAt with
    | none => s
    | some t => if e.state = .waiting ∧ t ≤ s.now then applyHorizon s i 0 else s

def execWaitGraceExpiry (index : Nat) (s : State) : Host.Outcome State Fault Refusal := .next (graceExpiry s index)

/-- Whether the proactive start time of a parked session has come (R87). -/
def proactiveDue (s : State) (e : Session) : Bool :=
  let S := sesBytes e
  decide (e.state = .waiting) && (decide (e.tier = .p2) || decide (e.tier = .p3)) && !e.reviveBusy && decide (e.expectTime ≠ 0) &&
  decide (e.expectTime * tick ≤ s.now * tick + revTime e.tier S + margin s e.cls e.tier S)

def execProactiveRevivalStart (index : Nat) (s : State) : Host.Outcome State Fault Refusal :=
  .next (match s.ses? index with
    | none => s
    | some e => if proactiveDue s e then (startRevival (abortPark s index) index false).1 else s)

/-- The overdue rule (R90): DEADLINE, where it lies in the future, becomes the expected time; otherwise there is none. -/
def overdue (s : State) (i : Nat) : State :=
  match s.ses? i with
  | none => s
  | some e =>
    if e.state = .waiting ∧ e.tier = .p1 ∧ e.reviveBusy = false ∧ e.expectTime ≠ 0 ∧ e.overdueDone = false ∧
        e.expectTime + s.fld (SES_CLASS_A_OVERDUE_MS e.cls) * msNs ≤ s.now then
      let s := s.setSes i { e with expectTime := if s.now < e.deadline then e.deadline else 0,
                                   overdueDone := decide (e.deadline ≤ s.now) }
      applyHorizon s i 0
    else s

def execOverdueExpiry (index : Nat) (s : State) : Host.Outcome State Fault Refusal := .next (overdue s index)

/-- The deadline rule (R91). -/
def deadlineRule (s : State) (i : Nat) : State :=
  match s.ses? i with
  | none => s
  | some e =>
    if e.state = .waiting ∧ e.deadline ≠ 0 ∧ e.deadlineDone = false ∧ e.deadline ≤ s.now then
      sesNoticeFree (s.setSes i { e with deadlineDone := true }) i 10 0x2016
    else s

def execDeadlinePassed (index : Nat) (s : State) : Host.Outcome State Fault Refusal := .next (deadlineRule s index)

/-- Brings a session's P3 copy current, or defers the write (R94). -/
def bringCurrent (s : State) (i : Nat) (e : Session) : State :=
  match chooseBay s e true with
  | some (b, D) => startPark s i ⟨.p3, b, D⟩ true
  | none => countBehind s i { e with deferred := some (.p3, 0, 0, true) }

/-- Whether a durable session has waited longer than DUR_LAG_MS without a current P3 copy (R94). -/
def lagging (s : State) (e : Session) : Bool :=
  decide (e.state = .waiting) && decide (e.dur ≠ 0) && (decide (e.tier = .p1) || decide (e.tier = .p2)) && !e.parkBusy &&
  !e.reviveBusy && (e.p3.isNone || decide (e.dirtyPages ≠ 0)) &&
  decide (e.waitSince + s.fld (SES_CLASS_B_DUR_LAG_MS e.cls) * msNs < s.now)

def execDurLagExpiry (index : Nat) (s : State) : Host.Outcome State Fault Refusal :=
  .next (match s.ses? index with
    | none => s
    | some e => if lagging s e then bringCurrent s index e else s)

/-- Starts a deferred park once its gates pass (R94, R140); a park still red stays deferred. -/
def deferredStart (s : State) (i : Nat) : State :=
  match s.ses? i with
  | none => s
  | some e =>
    match e.deferred with
    | none => s
    | some (t, _, _, copyOnly) =>
      if e.state = .waiting ∧ e.parkBusy = false ∧ e.reviveBusy = false then
        if copyOnly then
          match chooseBay s e true with
          | some (b, D) => startPark s i ⟨.p3, b, D⟩ true
          | none => s
        else
          match placeFor s e t with
          | some c => startPark s i c false
          | none => s
      else s

def execDeferredParkStart (index : Nat) (s : State) : Host.Outcome State Fault Refusal := .next (deferredStart s index)

/-- The sessions that pressure parking considers, in its order (R102): WAITING at P1, no landing reservation, EXPECT_TIME 0
first, then the latest, ties by index. -/
def pressureOrder (s : State) (c : Nat) : List Nat :=
  let cand := s.ses.entries.filter fun x =>
    decide (x.2.context = c) && decide (x.2.state = .waiting) && decide (x.2.tier = .p1) && !x.2.parkBusy && !x.2.reviveBusy &&
    (governing s x.2.contract 2 fun _ => true).isNone
  let zero := cand.filter fun x => x.2.expectTime = 0
  let rest := (cand.filter fun x => x.2.expectTime ≠ 0).mergeSort fun x y => decide (y.2.expectTime ≤ x.2.expectTime)
  (zero ++ rest).map (·.1)

/-- Applies the horizon rule down a list of sessions until enough pages are on their way out (R102). -/
def pressureRun : List Nat → Nat → State → State
  | [], _, s => s
  | i :: is, need, s =>
    if need = 0 then s
    else
      let s' := applyHorizon s i 0
      let out := match s'.ses? i with
        | some e => if e.parkBusy then e.frames.length else 0
        | none => 0
      pressureRun is (need - out) s'

/-- HIGH_PCT, taken as LOW_PCT + 1 where it is not above LOW_PCT (R106). -/
def highPct (s : State) : Nat := max (s.fld SES_P1_WATER_HIGH_PCT) (s.fld SES_P1_WATER_LOW_PCT + 1)

/-- Pressure parking of a context (R102). -/
def pressure (s : State) (c : Nat) : State :=
  let rsv := s.fld (SES_CTX_PAGES_RSV_PAGES c)
  let free := rsv - s.fld (SES_CTX_PAGES_USED_PAGES c)
  if free * 100 < s.fld SES_P1_WATER_LOW_PCT * rsv then
    pressureRun (pressureOrder s c) ((highPct s * rsv + 99) / 100 - free) s
  else s

def execP1PressureParking (ctx : Nat) (s : State) : Host.Outcome State Fault Refusal := .next (pressure s ctx)

/-! ### Parks (R83 to R85, R93, R381, R394) -/

/-- Submits the directory record of a park whose pages are written (R381, R393, R394). -/
def submitPark (s : State) (i : Nat) (e : Session) (op : ParkOp) : State :=
  let s := ensureKey s e.context op.place
  let c := makeCopy s e op.place (match e.p3 with | some c => decide (c.bay ≠ op.place) | none => true)
  let s := s.draw.2
  let r := sessionRec s i e 1 (s.draw.1.toNat % 2 ^ 40) c.pages c.gen
  let s := journalSubmit s.draw.2 op.place r ⟨c.cur, c.transcript, c.kvPages⟩
  s.setSes i { e with park := some { op with journal := 1 } }

/-- A park's progress: to P2 it commits; to P3 its record is first submitted, and it commits once the record is durable. -/
def parkProgress (s : State) (i : Nat) : State :=
  match s.ses? i with
  | none => s
  | some e =>
    match e.park with
    | none => s
    | some op =>
      if op.target = .p2 then commitP2 s i e op
      else if op.journal = 0 then submitPark s i e op
      else if op.journal = 2 then commitP3 s i e op
      else s

def execParkCommit (index : Nat) (s : State) : Host.Outcome State Fault Refusal := .next (parkProgress s index)

/-- The other place a failed park is retried at (R85). -/
def otherPlace (s : State) (e : Session) (op : ParkOp) : Option (Nat × Nat) :=
  if op.target = .p2 then
    let s' := { s with tier := { s.tier with lenders := mdel s.tier.lenders op.place } }
    (spaceP2 s' e).map fun l => (l, sesBytes e)
  else
    let s' := s.setFld SES_TIER_STATUS_BAYS_WRITABLE
      (s.fld SES_TIER_STATUS_BAYS_WRITABLE - b2n (bitOf (s.fld SES_TIER_STATUS_BAYS_WRITABLE) op.place) * 2 ^ op.place)
    chooseBay s' e true (other := decide ((e.p3.map (·.bay)) = some op.place))

/-- A failed park: one retry at another place, else it is given up with a notice (R85). -/
def parkFailed (s : State) (i status : Nat) : State :=
  match s.ses? i with
  | none => s
  | some e =>
    match e.park with
    | none => s
    | some op =>
      match (if op.retried then none else otherPlace s e op) with
      | some (place, bytes) =>
        s.setSes i { e with park := some { op with place, bytes, started := s.now, retried := true, journal := 0 } }
      | none =>
        let s := policeDone s op.policed
        let s := if op.target = .p2 then send s (.releaseP2 op.place i) else s
        sesNoticeFree (s.setSes i { e with park := none, parkBusy := false }) i 5 status

def execParkFailure (index status : Nat) (s : State) : Host.Outcome State Fault Refusal := .next (parkFailed s index status)

/-! ### Revivals (R74, R83, R84, R88, R112, R286, R289, R291) -/

/-- Sets KIND, CRC and CRC_VALID of a frame that a page has been read into, and PIED where its CRC failed (R288, R289). -/
def landFrame (s : State) (f kind : Nat) (bytes : Option (Map Byte)) (bad : Bool) : State :=
  let s := match bytes with
    | some m => setFrameBytes s f m
    | none => s
  match s.frame f with
  | none => s
  | some x =>
    let crc := match bytes with
      | some m => (crc32c (rdBytes m 0 pageBytes)).toNat
      | none => 0
    let s := { s with ses := { s.ses with
      frames := mset s.ses.frames f { x with kind, crcValid := bytes.isSome, crc } } }
    if bad then piedFrame s f else s

/-- Lands a list of pages: ordinal, frame, kind, bytes. -/
def landAll (bad : List Nat) : List (Nat × Nat × Nat × Option (Map Byte)) → State → State
  | [], s => s
  | (o, f, kind, bytes) :: r, s => landAll bad r (landFrame s f kind bytes (bad.contains o))

/-- Gives each reference that is not in local HBM the next of the frames; the frames left over. -/
def assignRefs : List Word → List Nat → List Word × List Nat
  | [], fs => ([], fs)
  | r :: rs, fs =>
    if refLoc r = 1 then let x := assignRefs rs fs; (r :: x.1, x.2)
    else match fs with
      | [] => let x := assignRefs rs []; (r :: x.1, x.2)
      | f :: fs => let x := assignRefs rs fs; (pageRef (refDirty r) false 1 0 f :: x.1, x.2)

/-- The session's references in P1, with the frames not used. -/
def revRefs (e : Session) (fs : List Nat) : Session × List Nat :=
  let a := assignRefs [e.aux] fs
  let t := assignRefs e.transcriptPages a.2
  let r := assignRefs (e.recur.map (·.2)) t.2
  let k := assignRefs (e.kv.map (·.2)) r.2
  ({ e with aux := a.1.headD 0, transcriptPages := t.1,
            recur := (e.recur.map (·.1)).zip r.1, kv := (e.kv.map (·.1)).zip k.1 }, k.2)

/-- Keys of the list pages of a session (R284 to R286). -/
def listKeys (e : Session) : List Nat :=
  0 :: (if e.recur.isEmpty then [] else [1]) ++ ((e.kv.map fun x => 2 + x.1 / 2048).eraseDups)

/-- The commit of a revival: every page in P1, roots rebuilt, the P2 copy released, the P3 copy kept (R83, R84, R286). -/
def commitRevival (s : State) (i : Nat) (e : Session) (op : RevOp) (bad : List Nat) : State :=
  let pg := pagesOf s e
  let (e1, spare) := revRefs e op.frames
  let keys := listKeys e1
  let lists := (keys.zip op.lists).foldl (fun (l : Map Nat) (x : Nat × Nat) => mset l x.1 x.2) []
  let from_ (l : List Word) (o kind : Nat) (old : List Word) (bytes : Nat → Option (Map Byte)) :=
    (l.zip old).zipIdx.filterMap fun x =>
      if refLoc x.1.2 = 1 then none else some (o + x.2, refIndex x.1.1, kind, bytes x.2)
  let lands :=
    from_ [e1.aux] 0 4 [e.aux] (fun _ => none) ++
    from_ e1.transcriptPages 1 5 e.transcriptPages (fun _ => none) ++
    from_ (e1.recur.map (·.2)) 257 3 (e.recur.map (·.2)) (fun n => some ((pg.2[n]?.map (·.2)).getD [])) ++
    from_ (e1.kv.map (·.2)) (257 + e.recur.length) 1 (e.kv.map (·.2)) (fun n => some ((pg.1[n]?.map (·.2)).getD []))
  let s := landAll bad lands s
  let s := freeFrames s (spare ++ op.lists.drop keys.length)
  let s := policeDone (releaseP2 s i e) op.policed
  let s := s.setSes i { e1.recount with
    tier := .p1, lender := 0, bay := 0, p2 := none, rev := none, reviveBusy := false, changeTime := s.now, listFrames := lists,
    kvRoot := pageRef false false 1 0 (op.lists.getD 0 0),
    recurRoot := if e1.recur.isEmpty then 0 else pageRef false false 1 0 (op.lists.getD 1 0), waitSince := s.now }
  showBorrowed s

/-- Counts a late revival, or reports a contracted one (R74, R411). -/
def revivalLate (s : State) (e : Session) (op : RevOp) : State :=
  if s.now ≤ op.started + op.bound then s
  else match op.policed with
    | some id => fault s (ctxSource e.context) 0x0C 0xA013 (BitVec.ofNat 64 id)
    | none => s.incSat SES_REVIVE_LATE_COUNT 1

/-- What waits for a revival: the P1 notice, the run, the horizon rule (R49, R83). -/
def afterRevival (s : State) (i : Nat) (op : RevOp) : State :=
  let s := if op.notify then sesNoticeFree s i 3 0 else s
  match s.ses? i with
  | none => s
  | some e =>
    match e.runAfter with
    | some g =>
      let r := startRun (s.setSes i { e with runAfter := none }) i g
      if r.2 = 0 then r.1 else sesNoticeFree r.1 i 1 r.2
    | none => if op.again then applyHorizon s i 0 else s

/-- The last page of a revival reaches P1. -/
def revivalEnd (s : State) (i : Nat) (bad : List Nat) : State :=
  match s.ses? i with
  | none => s
  | some e =>
    match e.rev with
    | none => s
    | some op => afterRevival (revivalLate (commitRevival s i e op bad) e op) i op

def execRevivalCommit (index : Nat) (badPages : List Nat) (s : State) : Host.Outcome State Fault Refusal :=
  .next (revivalEnd s index badPages)

/-! ### Migrations (R31, R34, R49, R503) -/

/-- The destination commits: ENDED, MOVED, LINK, the next instar, the notice (R49). -/
def migrationDone (s : State) (i : Nat) (newHandle : Word) : State :=
  match s.ses? i with
  | none => s
  | some e =>
    if e.state ≠ .migrating then s
    else
      let s := releaseState (tombstone s i) i .ended
      let s := sesNotice s i 4 0 newHandle
      match s.ses? i with
      | none => s
      | some e => s.setSes i { e with moved := true, link := newHandle, oldInstar := some e.instar,
                                      instar := nextInstar e.instar, p3 := none, tombstone := 0 }

def execMigrationCommit (index : Nat) (newHandle : BitVec 64) (s : State) : Host.Outcome State Fault Refusal :=
  .next (migrationDone s index newHandle)

/-- A migration that does not happen: back to the previous state, a HELD session taking a slot again (log entry 20). -/
def migrationBack (s : State) (i status : Nat) : State :=
  match s.ses? i with
  | none => s
  | some e =>
    match e.state, e.mig with
    | .migrating, some op =>
      let e' := { e with mig := none, state := .waiting, changeTime := s.now, waitSince := s.now }
      let s := match op.prev, chooseSlice s e with
        | .held, some sl =>
          match takeSlot s i { e' with state := .held, holdReason := op.hold } sl (decide (0 < e.transcriptBytes)) with
          | some (s, e') => slotHold (s.setSes i e') e'.seqSlot op.hold (decide (0 < e.transcriptBytes))
          | none => s.setSes i e'
        | _, _ => s.setSes i e'
      sesNoticeFree s i 4 status
    | _, _ => s

def execMigrationRefused (index status : Nat) (s : State) : Host.Outcome State Fault Refusal :=
  .next (migrationBack s index status)

/-- The migration timeout (R503). -/
def migrationLate (s : State) (i : Nat) : State :=
  match s.ses? i with
  | none => s
  | some e =>
    match e.mig with
    | none => s
    | some op =>
      if op.started + s.fld FLT_TIMEOUT_B_MIGRATE_MS * msNs ≤ s.now then
        fault (migrationBack (send s (.migrateAbort i)) i 0xA002) (ctxSource e.context) 0x07 0xA002 (handleOf s i e)
      else s

def execMigrationTimeout (index : Nat) (s : State) : Host.Outcome State Fault Refusal := .next (migrationLate s index)

/-! ### Lending and borrowing (R96 to R101, R103) -/

/-- Shows which lenders are known and whether P2 is open (R103, R106). -/
def showLenders (s : State) : State :=
  let n := mcount s.tier.lenders fun _ l => decide (0 < l.free) && l.reclaim.isNone
  (s.setFld SES_TIER_STATUS_LENDERS (min n 255)).setFld SES_TIER_STATUS_P2_OPEN (b2n (decide (0 < n)))

/-- Free bytes this device lends (R96). -/
def freeLent (s : State) : Nat :=
  if s.flag SES_LEND_CFG_ENABLE ∧ s.tier.reclaimAt = none then
    min (s.fld SES_LEND_CFG_LEND_GIB) 192 * 2 ^ 30 - (s.tier.borrowers.map fun x => x.2.frames.length).sum * pageBytes
  else 0

def execAdvertiseFreeLentSpace (s : State) : Host.Outcome State Fault Refusal :=
  .next (if freeLent s = s.tier.advertised then s
    else { send s (.advert (freeLent s)) with tier := { s.tier with advertised := freeLent s } })

/-- A lender's advertisement, from the same plane only (R97). -/
def lenderHeard (s : State) (lender free hops reclaimMs : Nat) : State :=
  if lender / 2 ^ 15 = s.fld GLB_DEV_ADDR_PLANE ∧ lender ≠ s.devAddr then
    let l : Lender := { free, hops, reclaimMs, reclaim := none }
    showLenders { s with tier := { s.tier with lenders := mset s.tier.lenders lender l } }
  else s

def execLenderAdvertisement (lender free hops reclaimMs : Nat) (s : State) : Host.Outcome State Fault Refusal :=
  .next (lenderHeard s lender free hops reclaimMs)

/-- Sends the reclaim notices (R99). -/
def sendReclaim (s : State) : State :=
  if s.tier.reclaimAt.isSome then s
  else
    let d := s.now + s.fld SES_LEND_CFG_RECLAIM_MS * msNs
    let s := s.tier.borrowers.foldl (fun s x => send s (.reclaim x.1 d)) s
    let s := { s with tier := { s.tier with
      reclaimAt := some d,
      borrowers := s.tier.borrowers.map fun (x : Nat × Borrower) => (x.1, { x.2 with acked := false, resends := 0, sentAt := s.now, told := false }) } }
    s.setFld SES_LEND_STATUS_RECLAIMING 1

def execReclaimNoticeSend (s : State) : Host.Outcome State Fault Refusal := .next (sendReclaim s)

/-- Sends an unacknowledged notice again (R99). -/
def resendReclaim (s : State) (borrower : Nat) : State :=
  match s.tier.reclaimAt, mget s.tier.borrowers borrower with
  | some d, some b =>
    if !b.acked && decide (b.resends < 8) && decide (b.sentAt + 100000 ≤ s.now) then
      let s := send s (.reclaim borrower d)
      { s with tier := { s.tier with
        borrowers := mset s.tier.borrowers borrower { b with resends := b.resends + 1, sentAt := s.now } } }
    else s
  | _, _ => s

def execReclaimResend (borrower : Nat) (s : State) : Host.Outcome State Fault Refusal := .next (resendReclaim s borrower)

/-- Whether a session's P3 copy is current (R100). -/
def copyCurrent (s : State) (e : Session) : Bool :=
  decide (e.dur ≠ 0) && decide (e.dirtyPages = 0) && (match e.p3 with | some c => copyPresent s c | none => false)

/-- Takes a P2 session to its current P3 copy with no data moved (R100). -/
def settleP3 (s : State) (i : Nat) (e : Session) : State :=
  let b := (e.p3.map (·.bay)).getD 0
  let s := releaseP2 s i e
  showBorrowed (s.setSes i { deepRefs (cleanRefs e) 3 0 0 with
    tier := .p3, bay := b, lender := 0, p2 := none, changeTime := s.now })

/-- Vacates one session from a lender (R100). -/
def vacate (s : State) (i : Nat) : State :=
  match s.ses? i with
  | none => s
  | some e =>
    if e.reviveBusy then s
    else
      let s := abortPark s i
      match s.ses? i with
      | none => s
      | some e =>
        if copyCurrent s e then settleP3 s i e
        else match spaceP2 s e with
          | some l => startPark s i ⟨.p2, l, sesBytes e⟩ false
          | none =>
            match (if e.dur = 0 then none else chooseBay s e true) with
            | some (b, D) => startPark s i ⟨.p3, b, D⟩ false
            | none =>
              let r := startRevival s i false
              if r.2 = 0 then r.1
              else if e.dur = 0 ∧ contracted s e = false then faultSession r.1 i 0x2012
              else r.1

/-- The sessions whose P2 copy a lender holds. -/
def lentFrom (s : State) (lender : Nat) : List Nat :=
  (s.ses.entries.filter fun x => decide (x.2.tier = .p2) && x.2.state.live && decide (x.2.lender = lender)).map (·.1)

/-- A reclaim notice: acknowledged, and each affected session vacated (R99, R100). -/
def reclaimHeard (s : State) (lender deadline : Nat) : State :=
  match mget s.tier.lenders lender with
  | none => s
  | some l =>
    let s := send s (.reclaimAck lender)
    let s := showLenders { s with tier := { s.tier with lenders := mset s.tier.lenders lender { l with reclaim := some deadline } } }
    (lentFrom s lender).foldl vacate s

def execReclaimNotice (lender deadline : Nat) (s : State) : Host.Outcome State Fault Refusal :=
  .next (reclaimHeard s lender deadline)

/-- The reclaim deadline at the lender: everything still lent is discarded and each owner told (R99). -/
def reclaimLender (s : State) : State :=
  match s.tier.reclaimAt with
  | none => s
  | some d =>
    if d ≤ s.now then
      let bs := s.tier.borrowers
      let s := bs.foldl (fun s x => if x.2.frames.isEmpty then s else send s (.discarded x.1)) s
      let s := bs.foldl (fun s x => freeFrames s (x.2.frames ++ x.2.orphans)) s
      let s := { s with tier := { s.tier with
        reclaimAt := none, borrowers := bs.map fun (x : Nat × Borrower) => (x.1, { x.2 with frames := [], orphans := [], told := true }) } }
      (s.setFld SES_LEND_STATUS_RECLAIMING 0).setFld SES_LEND_STATUS_LENT_GIB 0
    else s

/-- Lenders whose reclaim deadline has passed. -/
def expiredLenders (s : State) : List Nat :=
  (s.tier.lenders.filter fun x => match x.2.reclaim with | some d => decide (d ≤ s.now) | none => false).map (·.1)

/-- The reclaim deadline: as lender, and for sessions still lent as borrower (R99, R101). -/
def reclaimOver (s : State) : State :=
  let s := reclaimLender s
  (expiredLenders s).foldl (fun s l => (lentFrom s l).foldl lostP2 s) s

def execReclaimDeadline (s : State) : Host.Outcome State Fault Refusal := .next (reclaimOver s)

/-- The lender's sweep of pages an abandoned park left (R84). -/
def sweep (s : State) (borrower : Nat) : State :=
  match mget s.tier.borrowers borrower with
  | none => s
  | some b =>
    let s := freeFrames s b.orphans
    { s with tier := { s.tier with borrowers := mset s.tier.borrowers borrower { b with
      frames := b.frames.filter fun f => !b.orphans.contains f, orphans := [] } } }

def execLenderReclaimSweep (borrower : Nat) (s : State) : Host.Outcome State Fault Refusal := .next (sweep s borrower)

/-! ### Evacuation of a read-only bay (R105) -/

/-- Starts copying one session of a read-only bay to another bay (R105). -/
def evacuateOne (s : State) (bay i : Nat) : State :=
  match s.ses? i with
  | none => s
  | some e =>
    if e.state = .waiting ∧ e.parkBusy = false ∧ e.reviveBusy = false ∧ (e.p3.map (·.bay)) = some bay then
      match chooseBay s e true (other := true) with
      | some (b, D) => startPark s i ⟨.p3, b, D⟩ true
      | none => s
    else s

/-- Evacuates a READ_ONLY bay in ascending order of local index (R105). -/
def evacuate (s : State) (bay : Nat) : State :=
  if s.fld (CRT_BAY_STATE bay) = 6 then (s.ses.entries.map (·.1)).foldl (fun s i => evacuateOne s bay i) s else s

def execBayReadOnlyEvacuation (bay : Nat) (s : State) : Host.Outcome State Fault Refusal := .next (evacuate s bay)

end Sys2Proof.Machine
end

