-- ==== Sys2Proof/Machine/Galleys.lean ====
section
/-! DEFINITION. Galleys from build to commit (05 R160 to R177; 08 R280, R281, R292, R293, R302, R310; 09 R327, R341 to R351)
and the galley instructions (05 R158, R173, R181, R187; 08 R278, R279). -/

namespace Sys2Proof.Machine

/-! ### The builder (R160, R161, R163, R164, R167 to R172, R174) -/

/-- Inserts by an order. -/
def insertBy {α : Type} (lt : α → α → Bool) (x : α) : List α → List α
  | [] => [x]
  | y :: r => if lt x y then x :: y :: r else y :: insertBy lt x r

/-- Sorts by an order, equal elements in place. -/
def sortBy {α : Type} (lt : α → α → Bool) (l : List α) : List α := l.foldl (fun a x => insertBy lt x a) []

/-- Position limit of an image (R280). -/
def pLim (m : Model) : Nat :=
  let g := m.attnLayers * (m.kvHeads / m.groupHeads)
  if m.attnLayers = 0 ∨ g = 0 then m.ctxMax else min m.ctxMax (4194304 / g * 2 ^ m.log2ppp)

/-- Frames reserved for a record of `new` positions (R292). -/
def reserveFor (m : Model) (new : Nat) : Nat :=
  if m.attnLayers = 0 then 2 else (kvShape m).1 * ((new + (kvShape m).2 - 1) / (kvShape m).2 + 1) + 2

/-- Writes a sequence slot. -/
def State.setSlot (s : State) (n : Nat) (x : Slot) : State := { s with gal := { s.gal with slots := mset s.gal.slots n x } }

/-- Whether a customer's budget holds no token (R172). -/
def budgetDry (s : State) (c : Nat) : Bool := s.flag (GAL_BUDGET_B_ENABLE c) && decide (s.fld (GAL_BUDGET_B_LEVEL c) < 1)

/-- Holds that a build ends or begins for one session: ses.hold after its step, a lifted grammar hold, a budget with tokens again
(R49, R172, R185, 09 R343). -/
def settleHold (s : State) (i : Nat) : State :=
  match s.ses? i with
  | none => s
  | some e =>
    if e.holdReq && !inGalley s i && (decide (e.state = .active) || decide (e.state = .prefill)) then holdSession s i 4
    else if e.state = .held ∧ ((e.holdReason = 3 ∧ e.lifted = true) ∨ (e.holdReason = 2 ∧ budgetDry s e.customer = false)) then
      unholdSession s i
    else s

/-- Brings a slot up to date with its session before a build looks at it (R42, R151, R171). -/
def prepSlot (s : State) (n : Nat) : State :=
  match mget s.gal.slots n with
  | none => s
  | some x0 =>
    match s.ses? x0.index with
    | none => s
    | some e0 =>
      match checkEntry s x0.index e0 with
      | (s, none) => s
      | (s, some e1) =>
        let s := settleHold (budgetFill s e1.customer) x0.index
        match s.ses? x0.index, mget s.gal.slots n with
        | some e, some x =>
          let c := (contractSlice s e).filter fun c => c.2 = 4 * x.part + x.slice
          s.setSlot n { x with prio := e.prio, draftEn := e.draftEn, customer := e.customer, contracted := c.isSome,
                               contract := (c.map (·.1)).getD 0xFFF, pos := e.tokens }
        | _, _ => s

/-- Slots assigned to a slice. -/
def sliceSlots (s : State) (p k : Nat) : List (Nat × Slot) :=
  s.gal.slots.filter fun x => decide (x.2.part = p) && decide (x.2.slice = k)

/-- Whether a slot's sequence is eligible (R168, R281, R289, 09 R324). -/
def eligible (s : State) (m : Model) (x : Slot) : Bool :=
  match s.ses? x.index with
  | none => false
  | some e =>
    (decide (e.state = .prefill) || decide (e.state = .active) || (decide (e.state = .held) && decide (e.holdReason = 1))) &&
    !e.cancelReq && !e.holdReq && !e.endReq && decide (e.tokens < pLim m) && (!x.prefill || e.tokenised) &&
    !(e.frames.any fun f => match s.frame f with | none => false | some y => y.pied)

/-- Effective priority of a sequence (R169). -/
def eprioOf (s : State) (x : Slot) : Nat :=
  let a := s.fld GAL_CFG_AGE_STEPS
  if a = 0 then x.prio else min 7 (x.prio + x.skipped / a)

/-- Order of the contracted section (R167). -/
def ltContracted (a b : Nat × Slot) : Bool :=
  decide (a.2.lastStep < b.2.lastStep) || (decide (a.2.lastStep = b.2.lastStep) && decide (a.2.index < b.2.index))

/-- Order of the fill section (R168). -/
def ltFill (s : State) (a b : Nat × Slot) : Bool :=
  decide (eprioOf s b.2 < eprioOf s a.2) || (decide (eprioOf s a.2 = eprioOf s b.2) && ltContracted a b)

/-- DRAFT of a decode record (R174, 08 R311). -/
def draftOf (s : State) (p k : Nat) (m : Model) (x : Slot) (e : Session) (cap : Nat) : Nat :=
  if x.draftEn && decide (x.draftBase = x.pos) && !m.recur then
    let d := min (min x.draftReady (s.fld (GAL_SLICE_A_DRAFT_MAX p k))) (min cap (pLim m - x.pos - 1))
    if s.flag (GAL_BUDGET_B_ENABLE e.customer) then min d (s.fld (GAL_BUDGET_B_LEVEL e.customer) - 1) else d
  else 0

/-- Whether the output ring of a session has room for one more decode record (09 R351). -/
def outSpace (s : State) (e : Session) (rings : List Nat) : Bool :=
  let r := 16 * e.context + e.queue
  decide (112 * (1 + rings.count r) + (s.queue e.context e.queue).waiting.length ≤ outRoom s e.context e.queue)

/-- What the builder answers for one sequence: selected with its record, held for its budget, waiting with nothing changed
but a counter, or past MAX_POS. -/
abbrev Pick := Option Rec × Nat

/-- One sequence for a record (R168, R172, R174, 08 R281, R292, 09 R351): 0 selected, 1 held for its budget, 2 waits, 3 past
the positions left.  `pf` bounds prefill positions, `room` all positions, `cap` the drafts. -/
def tryRec (s : State) (p k : Nat) (m : Model) (contracted : Bool) (cap pf room step n : Nat) (x : Slot) (rings : List Nat) :
    State × Pick :=
  match s.ses? x.index with
  | none => (s, none, 2)
  | some e =>
    if !x.prefill && budgetDry s e.customer then
      (if e.state = .held then slotHold (s.setSes x.index { e with holdReason := 2 }) n 2 false else holdSession s x.index 2, none, 1)
    else
      let d := if x.prefill then 0 else draftOf s p k m x e cap
      let new := if x.prefill then
          min (min e.prompt.length (s.fld (GAL_SLICE_B_PF_CHUNK p k))) (min pf (pLim m - e.tokens))
        else 1 + d
      let res := reserveFor m new
      if room < new then (s, none, 3)
      else if !x.prefill && !outSpace s e rings then (s.incSat TOK_COUNTS_OUT_WAIT 1, none, 2)
      else if !ctxRoom s e.context res then (s.incSat SES_KV_PAGE_WAIT_COUNT 1, none, 2)
      else
        let s := (s.decFld SES_KV_FREE_FREE res).incWrap (SES_CTX_PAGES_USED_PAGES e.context) res
        let ded := if !x.prefill && s.flag (GAL_BUDGET_B_ENABLE e.customer) then new else 0
        let s := if ded = 0 then s else s.decFld (GAL_BUDGET_B_LEVEL e.customer) ded
        let ep := eprioOf s x
        let s := if e.state = .held then unholdSession s x.index else s
        let s := s.setSlot n { (mget s.gal.slots n).getD x with skipped := 0, lastStep := step, holdReason := 0 }
        (s, some { slot := n, contracted, prefill := x.prefill, void := false, index := x.index, instar := e.instar,
                   context := e.context, customer := e.customer, pos := e.tokens, new, draft := d, eprio := ep,
                   kvRoot := e.kvRoot, recurRoot := e.recurRoot, drafts := x.draft.take d, deducted := ded, reserved := res,
                   newPages := [], logits := [], spoiled := false, sampled := [], recurWritten := false }, 0)

/-- Rings of the decode records among records. -/
def ringsOf (s : State) (rs : List Rec) : List Nat :=
  (rs.filter fun r => !r.prefill).filterMap fun r => (s.ses? r.index).map fun e => 16 * e.context + e.queue

/-- Positions of records. -/
def posOf (rs : List Rec) : Nat := (rs.map (·.new)).sum

/-- The contracted section (R113, R167, R172): the state, the records, and the sequences left to the fill section. -/
def contractedSection (p k : Nat) (m : Model) (draft step : Nat) : List (Nat × Slot) → Nat → Nat → State → List Rec →
    State × List Rec × List (Nat × Slot)
  | [], _, _, s, rs => (s, rs, [])
  | x :: xs, places, pf, s, rs =>
    if places = 0 ∨ (x.2.prefill ∧ pf = 0) then
      let r := contractedSection p k m draft step xs places pf s rs
      (r.1, r.2.1, x :: r.2.2)
    else match tryRec s p k m true draft pf (2 ^ 32) step x.1 x.2 (ringsOf s rs) with
      | (s, some r, _) =>
        contractedSection p k m draft step xs (places - 1) (pf - (if r.prefill then r.new else 0)) s (rs ++ [r])
      | (s, none, n) => contractedSection p k m draft step xs (if n = 1 then places - 1 else places) pf s rs

/-- A sequence that a build passes over (R170). -/
def passOver (s : State) (x : Nat × Slot) : State :=
  match s.ses? x.2.index with
  | none => s
  | some e =>
    let s := if e.state = .held then s else holdSession s x.2.index 1
    match mget s.gal.slots x.1 with
    | none => s
    | some y => s.setSlot x.1 { y with skipped := min 65535 (y.skipped + 1) }

/-- The fill section (R168, R170): it stops at the first record that would pass MAX_POS. -/
def fillSection (p k : Nat) (m : Model) (covered step : Nat) : List (Nat × Slot) → Nat → State → List Rec → State × List Rec
  | [], _, s, rs => (s, rs)
  | x :: xs, room, s, rs =>
    match tryRec s p k m false (if x.2.contracted then covered else 16) (2 ^ 32) room step x.1 x.2 (ringsOf s rs) with
    | (s, some r, _) => fillSection p k m covered step xs (room - r.new) s (rs ++ [r])
    | (s, none, n) => if n = 3 then ((x :: xs).foldl passOver s, rs) else fillSection p k m covered step xs room s rs

/-- Period of a slice (R163, R164). -/
def periodOf (s : State) (p k : Nat) : Nat :=
  match boundContract s (4 * p + k) with
  | some (_, c) => cf c 2 0 32
  | none => s.fld (GAL_SLICE_A_PERIOD_NS p k)

/-- RELEASE of the next galley, with the step origin kept for a contract (R163, R164): a release that has passed is not built. -/
def nextRelease (s : State) (p k : Nat) : Nat × Option (Nat × Nat) × Option Nat :=
  let y := s.slice (4 * p + k)
  match boundContract s (4 * p + k) with
  | some (id, c) =>
    let per := cf c 2 0 32
    match (if y.contract = some id then y.r0 else none) with
    | none => (s.now, some (s.now, 1), some id)
    | some (r0, n) =>
      let n := max n ((s.now - r0 + per - 1) / per)
      (r0 + n * per, some (r0, n + 1), some id)
  | none => (if y.nextStep = 0 then s.now else max (y.prevRelease + s.fld (GAL_SLICE_A_PERIOD_NS p k)) y.prevDone, none, none)

/-- Words of an indexing record (11 R439). -/
def docWords (slot : Nat) (d : Doc) (addr : Word) : List Word :=
  [BitVec.ofNat 64 (d.qpos % 4096 + slot * 2 ^ 12 + d.tokens.length * 2 ^ 32), addr, BitVec.ofNat 64 d.id,
   BitVec.ofNat 64 d.attr.toNat]

/-- Pending documents of a slice, not yet in its galley in flight, in queue order up to a number of tokens (11 R439). -/
def docRecords (s : State) (p k max : Nat) : State × List (List Word) :=
  let inFlight := (((s.slice (4 * p + k)).running).map (·.raw)).getD []
  let docs := (s.vse.filter fun x => x.2.encoder = some (p, k)).flatMap fun x => x.2.docs.map fun d => (x.1, d)
  let docs := docs.filter fun x => !(inFlight.any fun w => (w.getD 0 0).toNat % 2 ^ 18 = x.2.qpos % 4096 + x.1 * 2 ^ 12)
  let r := docs.foldl (fun (a : State × List (List Word) × Nat × Bool) x =>
    let n := a.2.2.1 + x.2.tokens.length
    if a.2.2.2 || decide (max < n) then (a.1, a.2.1, a.2.2.1, true)
    else (a.1.draw.2, a.2.1 ++ [docWords x.1 x.2 a.1.draw.1], n, false)) (s, [], 0, false)
  (r.1, r.2.1)

/-- The records of a build: contracted section, fill section, and how many are contracted. -/
def selectRecs (s : State) (p k : Nat) (m : Model) (step : Nat) : State × List Rec × Nat :=
  let most := s.fld (GAL_SLICE_B_MAX_POS p k)
  let s := ((sliceSlots s p k).map (·.1)).foldl prepSlot s
  let cand := (sliceSlots s p k).filter fun x => eligible s m x.2
  match boundContract s (4 * p + k) with
  | none =>
    let r := fillSection p k m 16 step (sortBy (ltFill s) cand) most s []
    (r.1, r.2, 0)
  | some (id, c) =>
    let cov := sortBy ltContracted (cand.filter fun x => x.2.contracted && decide (x.2.contract = id))
    let other := cand.filter fun x => !(x.2.contracted && decide (x.2.contract = id))
    let a := contractedSection p k m (cf c 2 56 5) step cov (cf c 2 42 14) (cf c 3 32 16) s []
    let rest := sortBy (ltFill a.1) (other ++ a.2.2)
    let b := fillSection p k m (cf c 2 56 5) step rest (most - posOf a.2.1) a.1 a.2.1
    (b.1, b.2, a.2.1.length)

/-- Shows whether a build is due (R160, R188). -/
def showBuilding (s : State) : State :=
  s.setFld GAL_STATUS_BUILDING (b2n (s.gal.slices.any fun x => x.2.building))

/-- Queue pairs of a slice that no contract binds carry on in class 3 (12 R459). -/
def classFive (s : State) (sl : Nat) : State :=
  if (s.slice sl).contract.isSome then s
  else { s with fab := { s.fab with qps := s.fab.qps.map fun (y : Nat × Qp) =>
    if y.2.ownerKind = 1 ∧ y.2.owner = sl ∧ y.2.cls = 5 then (y.1, { y.2 with cls := 3 }) else y } }

/-- Builds the next galley of a slice (R159 to R161). -/
def buildGalley (s : State) (p k : Nat) : State :=
  let y := s.slice (4 * p + k)
  match sliceOn s p k && y.built.isNone, sliceModel s p k with
  | true, some m =>
    let rel := nextRelease s p k
    let kind := s.fld (GAL_SLICE_A_KIND p k)
    let a := if kind = 0 then selectRecs s p k m y.nextStep else (s, [], 0)
    let d := if kind = 1 then docRecords a.1 p k (s.fld (GAL_SLICE_B_MAX_POS p k)) else (a.1, [])
    let g : Galley := { step := y.nextStep, model := s.fld (GAL_SLICE_A_MODEL p k), release := rel.1,
                        deadline := rel.1 + periodOf s p k, cCount := a.2.2,
                        positions := if kind = 1 then (d.2.map fun w => (w.getD 0 0).toNat / 2 ^ 32 % 2 ^ 16).sum else posOf a.2.1,
                        recs := a.2.1, raw := d.2, done := [], missed := false }
    let s := d.1
    showBuilding (classFive (s.setSlice (4 * p + k) { s.slice (4 * p + k) with
      built := some g, building := false, r0 := rel.2.1, contract := rel.2.2, nextStep := (y.nextStep + 1) % 2 ^ 32 }) (4 * p + k))
  | _, _ => s

def execGalleyBuild (part slice : Nat) (s : State) : Host.Outcome State Fault Refusal := .next (buildGalley s part slice)

/-! ### The swap (R162, R165, R178, R182, R184) -/

/-- Gives back what a record that will not run holds, and voids it (R184, 08 R293). -/
def voidRec (s : State) (r : Rec) : State × Rec :=
  (abandonRec s r, { r with void := true, reserved := 0, deducted := 0, newPages := [] })

/-- A record as the swap finds its session: its place and drafts are those the previous step left (R43, R151, R174, R184). -/
def resolveRec (m : Model) (s : State) (r : Rec) : State × Rec :=
  match s.ses? r.index with
  | none => voidRec s r
  | some e =>
    let gone := r.void || decide (e.instar ≠ r.instar) || e.cancelReq || !e.seqValid || decide (e.seqSlot ≠ r.slot) ||
      !(decide (e.state = .active) || (decide (e.state = .prefill) && r.prefill)) || decide (pLim m ≤ e.tokens)
    if gone then voidRec s r
    else
      let left := pLim m - e.tokens
      let r := { r with pos := e.tokens, kvRoot := e.kvRoot, recurRoot := e.recurRoot }
      if e.state = .prefill then (s, { r with new := min (min r.new e.prompt.length) left })
      else if r.prefill then (s, { r with prefill := false, new := 1, draft := 0, drafts := [] })
      else
        match mget s.gal.slots r.slot with
        | none => (s, { r with new := 1, draft := 0, drafts := [] })
        | some x =>
          let d := if x.draftBase = e.tokens then min (min r.draft x.draft.length) (left - 1) else 0
          (s, { r with new := 1 + d, draft := d, drafts := x.draft.take d })

/-- Resolves the records of a galley in order. -/
def resolveRecs (m : Model) : List Rec → State → State × List Rec
  | [], s => (s, [])
  | r :: rs, s =>
    let a := resolveRec m s r
    let b := resolveRecs m rs a.1
    (b.1, a.2 :: b.2)

/-- Swaps in a built galley, begins the next build, and dispatches the partition. -/
def swapGalley (s : State) (p k : Nat) : State :=
  let y := s.slice (4 * p + k)
  match y.built, sliceModel s p k with
  | some g, some m =>
    let rel := if y.contract.isNone then max g.release y.prevDone else g.release
    if sliceOn s p k && !stopped s p && !barred s p k && y.running.isNone && decide (rel ≤ s.now) then
      let a := resolveRecs m g.recs s
      let g := { g with release := rel, deadline := rel + (g.deadline - g.release), recs := a.2 }
      let s := a.1.setSlice (4 * p + k) { a.1.slice (4 * p + k) with
        built := none, running := some g, prevRelease := rel, building := true }
      dispatch (showBuilding (s.setFld (GAL_STEP_STEP p k) g.step)) p
    else s
  | _, _ => s

def execGalleySwap (part slice : Nat) (s : State) : Host.Outcome State Fault Refusal :=
  .next (swapGalley (refreshErr s) part slice)

/-! ### The commit points (02 R64; 05 R172, R175, R176; 08 R302, R310; 09 R341, R342, R344 to R351) -/

/-- Offsets a record needs sampled, walked along the drafts that the samples accept (R175, R327): the tokens to emit, none while
a sample is missing; an empty mask ends the walk. -/
def acceptedRun (sampled : Map (Option Nat)) : Nat → List Nat → Option (List Nat)
  | j, ds =>
    match mget sampled j with
    | none => none
    | some none => some []
    | some (some t) =>
      match ds with
      | [] => some [t]
      | d :: ds' => if d = t then (acceptedRun sampled (j + 1) ds').map (t :: ·) else some [t]

/-- Whether a record's last position is sampled: every decode record, and the last chunk of a prefill with tokens to generate
(R327). -/
def samples (e : Session) (r : Rec) : Bool := !r.prefill || (decide (e.prompt.length ≤ r.new) && decide (0 < e.genLimit))

/-- The tokens a record would emit: none while one is still to be sampled. -/
def recTokens (e : Session) (r : Rec) : Option (List Nat) :=
  if r.void || r.spoiled || e.cancelReq || !samples e r then some []
  else if r.prefill then acceptedRun r.sampled (r.new - 1) []
  else acceptedRun r.sampled 0 r.drafts

/-- Text, tokens and end of an emission: the session, bytes released by the stop matcher, identities, tokens emitted, and the
reason and stop string that end the run. -/
abbrev Emit := Session × List Byte × List Nat × Nat × Nat × Nat

/-- One token emitted (R341, R344, R345, R349): `last` says whether the position limit is reached with it. -/
def emitOne (v : Vocab) (g : Option Grammar) (last : Nat → Bool) (t : Nat) (a : Emit) : Emit :=
  let (e, raw, ids, n, _, _) := a
  let sm := e.text.sampler
  let st := (gramStep v g sm.ignoreEnd (e.text.gramSt, e.text.gramStk) t).getD (e.text.gramSt, e.text.gramStk)
  let f := if sm.outMode = 2 ∨ isSpecial v t then ([], e.text.matcher, none)
    else stopFeed (enabledStops e.text) sm.includeStop e.text.matcher (tokenBytes v t)
  let text := { e.text with gramSt := st.1, gramStk := st.2, matcher := f.2.1 }
  let e := { e with text, generated := (e.generated + 1) % 2 ^ 32, genLimit := e.genLimit - 1, history := e.history ++ [t] }
  let why := match f.2.2 with
    | some i => (1, i)
    | none =>
      if isEnd v t then (2, 0) else if gramFinal g st then (3, 0) else if last (n + 1) then (4, 0)
      else if e.genLimit = 0 then (5, 0) else (0, 0)
  (e, raw ++ f.1, ids ++ [t], n + 1, why.1, why.2)

/-- Emits tokens until one ends the run. -/
def emitAll (v : Vocab) (g : Option Grammar) (last : Nat → Bool) : List Nat → Emit → Emit
  | [], a => a
  | t :: ts, a =>
    let b := emitOne v g last t a
    if b.2.2.2.2.1 = 0 then emitAll v g last ts b else b

/-- Drops `n` bytes from the front of a transcript. -/
def dropBytes : Nat → List Segment → List Segment
  | _, [] => []
  | n, x :: r =>
    if segBytes x ≤ n then dropBytes (n - segBytes x) r
    else (match x with | .text b => .text (b.drop n) | .ids t => .ids (t.drop (n / 4))) :: r

/-- The transcript consumer (R39, R322): the tokens of a chunk leave the transcript and join the history. -/
def consume (s : State) (i : Nat) (n : Nat) : State :=
  match s.ses? i with
  | none => s
  | some e =>
    let used := e.prompt.take n
    let bytes := (used.map (·.2)).sum
    let left := e.transcriptBytes - bytes
    let gone := e.transcriptPages.length - (left + pageBytes - 1) / pageBytes
    let s := freeFrames s (localFrames (e.transcriptPages.take gone))
    match s.ses? i with
    | none => s
    | some e => s.setSes i (dirtyAux { e with
        prompt := e.prompt.drop n, segs := dropBytes bytes e.segs, transcriptBytes := left,
        transcriptPages := e.transcriptPages.drop gone, history := e.history ++ used.map (·.1), tokens := e.tokens + n })

/-- The recurrent-state write commit point (08 R310). -/
def flipRecur (e : Session) (written : Bool) : Session :=
  if written then
    let half := e.recur.length / 2
    let now := !e.cur
    ({ e with cur := now, recur := e.recur.map fun (x : Nat × Word) =>
        if (decide (half ≤ x.1)) = now then (x.1, refSetDirty x.2 true) else x }).recount
  else e

/-- Frees the new pages that hold only positions that did not become history (08 R302). -/
def trimPages (s : State) (m : Option Model) (i : Nat) (r : Rec) : State :=
  match s.ses? i, m with
  | some e, some m =>
    let g := (kvShape m).1
    dropEntries s i fun j => r.newPages.contains j && decide (e.tokens ≤ j / g * (kvShape m).2)
  | _, _ => s

/-- Ends a run at a commit (02 R49, 08 R281, 09 R348, R350). -/
def endRun (s : State) (i reason stop : Nat) : State :=
  let s := flushText s i
  match s.ses? i with
  | none => s
  | some e => toWaiting (sendFinal s i e reason stop) i 1 (if reason = 4 then 0x2017 else 0)

/-- Commits the tokens of a record: emission, output, end of the run (R175, R176).  `adv` says that TOKENS advances with them. -/
def commitTokens (s : State) (m : Option Model) (i : Nat) (r : Rec) (ts : List Nat) (adv : Bool) : State :=
  match s.ses? i, (s.ses? i).bind fun e => mget s.tok.vocabs e.vocab with
  | some e, some v =>
    let lim := (m.map pLim).getD (2 ^ 32)
    let last (n : Nat) : Bool := decide (lim ≤ e.tokens + (if adv then n else 0))
    let a := emitAll v (mget s.tok.grammars e.grammar) last ts (e, [], [], 0, 0, 0)
    let n := a.2.2.2.1
    let e' := dirtyAux { flipRecur a.1 r.recurWritten with tokens := e.tokens + (if adv then n else 0) }
    let s := s.setSes i e'
    let s := if e'.text.sampler.outMode = 2 then sendData s i e' 1 (a.2.2.1.flatMap fun t => leBytes 4 t)
      else releaseBytes s i a.2.1
    let s := budgetReturn s r.customer (r.deducted - n)
    if a.2.2.2.2.1 = 0 then s else endRun s i a.2.2.2.2.1 a.2.2.2.2.2
  | _, _ => s

/-- Keeps a slot's POS, and empties a draft buffer that was used or whose base has passed (R151, R176, R186). -/
def afterDrafts (s : State) (n : Nat) (r : Rec) : State :=
  match mget s.gal.slots n with
  | none => s
  | some x =>
    match s.ses? x.index with
    | none => s
    | some e =>
      let x := { x with pos := e.tokens }
      s.setSlot n (if (0 < r.draft ∧ r.prefill = false) ∨ x.draftBase ≠ e.tokens then { x with draft := [], draftReady := 0 } else x)

/-- Commit points of a session whose CANCEL_REQ is set: each discards and counts (02 R64). -/
def discards (e : Session) (m : Option Model) (r : Rec) : Nat :=
  (match m with | some m => b2n (decide (0 < m.attnLayers)) + b2n m.recur | none => 0) + b2n r.prefill + b2n (samples e r)

/-- A record that commits nothing: new pages freed, budget returned (08 R302, 05 R172). -/
def discardRec (s : State) (r : Rec) : State := abandonRec s { r with reserved := 0 }

/-- The commit points for one record (02 R64, 08 R293, R302, R310, 09 R342). -/
def commitRec (s : State) (m : Option Model) (r : Rec) : State :=
  let s := returnReserve s r.context r.reserved
  match s.ses? r.index with
  | none => discardRec s r
  | some e =>
    if r.void then s
    else if e.cancelReq then discardRec (s.incSat SES_CANCEL_DISCARDS_COUNT (discards e m r)) r
    else if e.instar ≠ r.instar ∨ r.spoiled = true ∨ (e.state ≠ .prefill ∧ e.state ≠ .active) then discardRec s r
    else
      let ts := (recTokens e r).getD []
      if !r.prefill && ts.isEmpty then
        let s := holdSession (discardRec s r) r.index 3
        sesNoticeFree (s.incSat TOK_COUNTS_NO_TOKEN 1) r.index 0 0x6010
      else
        let s :=
          if r.prefill then
            let s := consume s r.index r.new
            let s := if (s.ses? r.index).any fun e => e.prompt.isEmpty then prefillDone s r.index else s
            if !samples e r then
              (match s.ses? r.index with | none => s | some e => s.setSes r.index (flipRecur e r.recurWritten))
            else if ts.isEmpty then
              let s := match s.ses? r.index with | none => s | some e => s.setSes r.index (flipRecur e r.recurWritten)
              sesNoticeFree ((holdSession s r.index 3).incSat TOK_COUNTS_NO_TOKEN 1) r.index 0 0x6010
            else commitTokens s m r.index r ts false
          else commitTokens s m r.index r ts true
        afterDrafts (trimPages s m r.index r) r.slot r

/-- Whether a galley's records have every token they need. -/
def galSampled (s : State) (g : Galley) : Bool :=
  g.recs.all fun r => match s.ses? r.index with
    | none => true
    | some e => (recTokens e r).isSome || decide (e.instar ≠ r.instar)

/-- Commits a galley whose cell work is complete (07 R245), and lets its partition go on. -/
def commitGalley (s : State) (p k : Nat) : State :=
  match (s.slice (4 * p + k)).running with
  | none => s
  | some g =>
    if (s.part p).running = some k ∧ ((partCells s p).all fun n => g.done.contains n) = true ∧ galSampled s g = true then
      let m := sliceModel s p k
      let s := g.recs.foldl (fun s r => commitRec s m r) s
      let contracted := (s.slice (4 * p + k)).contract.isSome
      let s := endGalley s p k
      let s := s.setSlice (4 * p + k) { s.slice (4 * p + k) with prevDone := s.now }
      let s := s.setFld (GAL_STEP_LAST_NS p k) (min (2 ^ 32 - 1) (s.now - g.release))
      let s := if !contracted && decide (g.deadline < s.now) then s.incSat GAL_OVERRUN_COUNT 1 else s
      g.recs.foldl (fun s r => afterStep s r.index) s
    else s

def execGalleyCommit (part slice : Nat) (s : State) : Host.Outcome State Fault Refusal := .next (commitGalley s part slice)

/-- A contracted section that passes its DEADLINE uncommitted (R165, 13 R498). -/
def contractMissed (s : State) (p k : Nat) : State :=
  let y := s.slice (4 * p + k)
  match y.running, y.contract with
  | some g, some id =>
    if 0 < g.cCount ∧ g.deadline < s.now ∧ g.missed = false then
      let s := s.incSat GAL_OVERRUN_COUNT 1
      let s := s.setSlice (4 * p + k) { y with running := some { g with missed := true } }
      fault s (0xC00 + id / 64 % 64) 0x0C 0xA013 (BitVec.ofNat 64 id)
    else s
  | _, _ => s

def execContractStepMissed (part slice : Nat) (s : State) : Host.Outcome State Fault Refusal :=
  .next (contractMissed s part slice)

/-- The step watchdog (13 R503): cells not at step.done are stopped, the galley is abandoned. -/
def watchdog (s : State) (p k : Nat) : State :=
  match (s.slice (4 * p + k)).running with
  | none => s
  | some g =>
    if g.release + s.fld FLT_TIMEOUT_A_STEP_WD * (g.deadline - g.release) ≤ s.now ∧
        ((partCells s p).all fun n => g.done.contains n) = false then
      let s := fault s (0xE00 + 4 * p + k) 0x07 0xA012 (BitVec.ofNat 64 g.step)
      abandonGalley s p k
    else s

def execStepWatchdog (part slice : Nat) (s : State) : Host.Outcome State Fault Refusal := .next (watchdog s part slice)

/-! ### Model images (R158, R187; 08 R278, R279) -/

/-- A word of an image. -/
def imgWord (bs : List Byte) (i : Nat) : Nat := leNat ((bs.drop (8 * i)).take 8)

/-- The bytes an image's digest covers. -/
def digestBody (bs : List Byte) : List Byte := bs.take 208 ++ List.replicate 48 0#8 ++ bs.drop 256

/-- Whether the header is valid (R158, R606). -/
def headerOk (bs : List Byte) : Bool :=
  let w := imgWord bs
  let af := bits (w 0) 28 4
  let wf := bits (w 0) 16 4
  let q := bits (w 0) 22 6
  decide (bits (w 0) 0 16 = 1) && decide (bits (w 0) 32 32 = 0) && decide (wf ≤ 10) && decide (af ≤ 10) && (madds af wf).isSome &&
  decide (0 < q) && decide (q ≤ 48) && decide (0 < w 1) && decide (w 1 ≤ 2 ^ 45) &&
  ((List.range 14).all fun j => decide (w (12 + j) = 0)) && decide (w 10 < w 11) &&
  decide (sha384 (digestBody bs) = (bs.drop 208).take 48)

/-- Whether the KV layout record is valid (08 R278, R279). -/
def layoutOk (bs : List Byte) : Bool :=
  let w (i : Nat) := imgWord bs (32 + i)
  let al := bits (imgWord bs 9) 16 16
  let kvh := bits (w 0) 32 16
  let gh := bits (w 0) 48 8
  let hd := bits (w 1) 0 16
  let lp := bits (w 0) 18 4
  let rh := bits (w 3) 0 10
  let rb := bits (imgWord bs 6) 0 32
  decide (bits (w 0) 0 16 = 1) && decide (bits (w 0) 22 10 = 0) && decide (bits (w 0) 56 8 = 0) && decide (bits (w 2) 50 14 = 0) &&
  decide (bits (w 3) 10 54 = 0) && ((List.range 4).all fun j => decide (w (4 + j) = 0)) &&
  (decide (al = 0) ||
    (decide (5 ≤ lp) && decide (lp ≤ 8) && decide (1 ≤ kvh) && decide (kvh ≤ 256) && decide (1 ≤ gh) && decide (kvh % gh = 0) &&
     decide (32 ≤ hd) && decide (hd ≤ 512) && decide (hd % 32 = 0) && decide (1 ≤ bits (w 1) 16 16) &&
     decide (bits (w 1) 16 16 ≤ 64) && decide (al * (kvh / gh) ≤ 32768) && decide (4 * gh * 2 ^ lp * hd ≤ 16384) &&
     decide (al * kvh * hd * 4 = bits (imgWord bs 5) 0 32))) &&
  (if bitOf (imgWord bs 0) 20 then decide (2 * rh * 16384 = rb) else decide (rh = 0))

/-- Words of the program of an image, as many as an instruction store can hold. -/
def programWords (bs : List Byte) : List Word :=
  let r := (bs.drop (imgWord bs 10)).take 32768
  (chunks 8 (r.length / 8) r).map fun c => BitVec.ofNat 64 (leNat c)

/-- The figures of an image. -/
def modelOf (bs : List Byte) (source : Nat) (addr : Word) : Model :=
  let w := imgWord bs
  let l (i : Nat) := imgWord bs (32 + i)
  { wformat := bits (w 0) 16 4, aformat := bits (w 0) 28 4, recur := bitOf (w 0) 20, moe := bitOf (w 0) 21,
    quires := bits (w 0) 22 6, params := w 1, vocabId := w 2, f := w 3, a := w 4, kb := bits (w 5) 0 32, xb := bits (w 5) 32 32,
    rb := bits (w 6) 0 32, mtok := bits (w 6) 32 32, wres := w 7, wtotal := w 8, layers := bits (w 9) 0 16,
    attnLayers := bits (w 9) 16 16, recurLayers := bits (w 9) 32 16, experts := bits (w 9) 48 16, program := w 10,
    imageBytes := w 11, digest := (bs.drop 208).take 48, source, addr, kvFmt := bits (l 0) 16 1, merge := bits (l 0) 17 1,
    log2ppp := bits (l 0) 18 4, kvHeads := bits (l 0) 32 16, groupHeads := bits (l 0) 48 8, headDim := bits (l 1) 0 16,
    qPerKv := bits (l 1) 16 16, scaleC := BitVec.ofNat 32 (bits (l 1) 32 32), ctxMax := bits (l 2) 0 32,
    exactB := sgn (bits (l 2) 32 9) 9, exactBl := sgn (bits (l 2) 41 9) 9, recurHalf := bits (l 3) 0 10,
    code := programWords bs, bindings := 0 }

/-- Shows the layout of a model slot in its GAL_KVL registers (08 R278, R313). -/
def showLayout (s : State) (n : Nat) (m : Option Model) : State :=
  let v (f : Model → Nat) : Nat := (m.map f).getD 0
  let g (m : Model) : Nat := if m.attnLayers = 0 then 0 else (kvShape m).1
  let s := s.setFld (GAL_KVL_A_KV_FMT n) (v (·.kvFmt))
  let s := s.setFld (GAL_KVL_A_MERGE n) (v (·.merge))
  let s := s.setFld (GAL_KVL_A_LOG2_PPP n) (v (·.log2ppp))
  let s := s.setFld (GAL_KVL_A_G n) (v g)
  let s := s.setFld (GAL_KVL_A_HEAD_DIM n) (v (·.headDim))
  let s := s.setFld (GAL_KVL_B_P_LIM n) (v pLim)
  s.setFld (GAL_KVL_B_RECUR_HALF n) (v (·.recurHalf))

/-- Reads IMAGE_BYTES of an image: the bytes, or the status (R158, R187). -/
def readImage (s : State) (src : Src) (source : Nat) (addr : Word) : Except Nat (List Byte) :=
  if source = 1 then
    if spaceOf addr ≠ 0 ∧ spaceOf addr ≠ 4 then .error 0x5020
    else match itemRead s src 2 addr 256 with
      | .error st => .error st
      | .ok h => if imgWord h 11 < 320 then .error 0x4006 else itemRead s src 2 addr (imgWord h 11)
  else match objFind s src.ctx addr.toNat with
    | .error st => .error st
    | .ok o =>
      let n := imgWord (objRead o 0 256) 11
      if n < 320 ∨ o.len < n then .error 0x4006 else .ok (objRead o 0 n)

/-- The effect of gal.load, which the physical function alone may issue (14 R558). -/
def loadBody (src : Src) (slot source : Nat) (addr : Word) (s : State) : State × Reply :=
  if src.ctx ≠ 0 then (s, .status 0x400B)
  else if source ≠ 1 ∧ source ≠ 2 then (s, .status 0x5003)
  else if (mget s.gal.models slot).isSome then (s, .status 0x4005)
  else match readImage s src source addr with
    | .error st => (s, .status st)
    | .ok bs =>
      if headerOk bs && layoutOk bs then
        let m := modelOf bs source addr
        let s := { s with gal := { s.gal with models := mset s.gal.models slot m } }
        (refreshErr (showLayout s slot (some m)), .done 0 (BitVec.ofNat 64 m.params) 0 0)
      else (s, .status 0x4006)

def execGalLoad (src : Src) (slot source : Nat) (addr : BitVec 64) (s : State) : Host.Outcome State Fault Refusal :=
  .next (runItem s src 0xD8 (loadBody src slot source addr))

/-- Whether an enabled slice names a model slot. -/
def sliceNames (s : State) (slot : Nat) : Bool :=
  (List.range 64).any fun sl => s.flag (GAL_SLICE_A_ENABLE (sl / 4) (sl % 4)) && decide (s.fld (GAL_SLICE_A_MODEL (sl / 4) (sl % 4)) = slot)

/-- The effect of gal.unload, which the physical function alone may issue (14 R558). -/
def unloadBody (src : Src) (slot : Nat) (s : State) : State × Reply :=
  if src.ctx ≠ 0 then (s, .status 0x400B)
  else match mget s.gal.models slot with
  | none => (s, .status 0x4004)
  | some m =>
    if 0 < m.bindings ∨ sliceNames s slot = true then (s, .status 0x4005)
    else
      let s := { s with gal := { s.gal with models := mdel s.gal.models slot } }
      (refreshErr (showLayout s slot none), .ok)

def execGalUnload (src : Src) (slot : Nat) (s : State) : Host.Outcome State Fault Refusal :=
  .next (runItem s src 0xD9 (unloadBody src slot))

/-! ### Draft writes (R173) -/

/-- A draft write into a slot: the new slot, or the base is stale. -/
def draftWrite (x : Slot) (pos base : Nat) (ts : List Nat) : Option Slot :=
  if base = pos ∧ x.draftReady = 0 then
    let d := ts.take 16
    some { x with draftBase := base, draft := d, draftReady := d.length }
  else if base = x.draftBase ∧ x.draft.length < 16 then
    let d := (x.draft ++ ts).take 16
    some { x with draft := d, draftReady := d.length }
  else none

/-- The effect of gal.draft; a session with no sequence slot has no draft buffer (R149). -/
def draftBody (src : Src) (base count : Nat) (addr : Word) (i : Nat) (e : Session) (s : State) : State × Reply :=
  if count = 0 ∨ 16 < count then (s, .status 0x5003)
  else if e.seqValid = false then (s, .status 0x2004)
  else match itemRead s src 3 addr (4 * count) with
    | .error st => (s, .status st)
    | .ok bs =>
      match mget s.gal.slots e.seqSlot with
      | none => (s, .status 0x2004)
      | some x =>
        match draftWrite x e.tokens base (wordsOf bs) with
        | none => (s, .status 0x4009)
        | some x => if x.index = i then (s.setSlot e.seqSlot x, .done 0 (BitVec.ofNat 64 x.draftReady) 0 0) else (s, .status 0x2004)

def execGalDraft (src : Src) (handle : BitVec 64) (base count : Nat) (addr : BitVec 64) (s : State) :
    Host.Outcome State Fault Refusal :=
  .next (sesItem s src 0xDA handle (draftBody src base count addr))

/-! ### Full switches (R179 to R181) -/

/-- Bytes of a full save record (R179). -/
def saveStride : Nat := 0x414000

/-- First byte past the addressable HBM. -/
def hbmEnd : Nat := 25165824 * 16384

/-- Writes a cell's full save record to HBM (R179). -/
def fullSave (base : Nat) (s : State) (x : Nat × Nat) : State :=
  let c := s.cell x.1
  let a := base + saveStride * x.2
  let ist := c.istore.flatMap fun y => sparse (leBytes 8 y.2.toNat) |>.map fun z => (0xC000 + 8 * y.1 + z.1, z.2)
  let r : Map Byte := sparse (lowRecord s x.1 2) ++ ist ++ c.mem.map fun y => (0x14000 + y.1, y.2)
  let s := withdrawWait s x.1
  ({ s with hbm := overlay s.hbm a saveStride r,
            hbmBad := s.hbmBad.filter fun (u : Nat) => !(decide (a ≤ 32 * u) && decide (32 * u < a + saveStride)),
            hbmWeak := s.hbmWeak.filter fun (u : Nat) => !(decide (a ≤ 32 * u) && decide (32 * u < a + saveStride)) }).setCell x.1
    { s.cell x.1 with run := if c.run = CellRun.fenced then .fenced else .stopped }

/-- The store words held in a range of bytes. -/
def storeWords (m : Map Byte) : Map Word :=
  (List.range 4096).filterMap fun i => let w := rdLE m (8 * i) 8; if w = 0 then none else some (i, BitVec.ofNat 64 w)

/-- Restores a cell from its full save record (R179, R181). -/
def fullLoad (p base : Nat) (s : State) (x : Nat × Nat) : State :=
  let a := base + saveStride * x.2
  let low := rdBytes s.hbm a 0xC000
  let k := leNat ((low.drop 40).take 8) % 8
  let c : Cell := { loadLow (s.cell x.1) low with
    istore := storeWords (rangeOf s.hbm (a + 0xC000) 0x8000), mem := rangeOf s.hbm (a + 0x14000) cellBytes, poison := [], weak := [] }
  let busy := (s.part p).running = some k ∧ cellDone s p k x.1 = false
  s.setCell x.1 { c with part := p, slice := k, run := if c.run = CellRun.fenced then .fenced else if busy then .running else .idle }

/-- Bytes per second at which a partition saves (512 B per cycle) or loads (256 B), exact (R180). -/
def switchRate (s : State) (p bytes : Nat) : Rat :=
  let bw : Rat := 38400 * giga
  let hp := pct s MKR_DERATE_HBM_PCT
  let bf := max ((hp * bw - (s.fld (MKR_RESV_VALUE 3) : Rat)) / 12) ((1 - hp) * bw / 12)
  ((List.range 12).map fun f =>
    let n : Rat := ((partCells s p).countP fun c => c / 160 = f : Nat)
    min (n * (bytes : Rat) * (partClock s p : Rat) * 1000000) bf).sum

/-- The longest a full save may take, in nanoseconds (R181). -/
def saveBound (s : State) (p : Nat) : Nat :=
  let n : Rat := ((partCells s p).length * 4276224 : Nat)
  let r := switchRate s p 512
  if r = 0 then 2000 else (2000 + n * giga / r).floor.toNat

/-- What refuses a full switch, in order (R181): 0 where nothing does. -/
def switchRefusal (s : State) (ctx p : Nat) (addr : Word) (save : Bool) : Nat :=
  let a := bits addr.toNat 0 39
  if ctx ≠ 0 then 0x400B
  else if s.flag (GAL_PART_ENABLE p) = false then 0x4001
  else if save && ((List.range 4).any fun k => (boundContract s (4 * p + k)).isSome) then 0x4003
  else if stopped s p = save then 0x400A
  else if addr.toNat % 4096 ≠ 0 ∨ spaceOf addr ≠ 0 ∨ addrOk addr true = false ∨ hbmEnd < a + saveStride * (partCells s p).length then
    0x4007
  else 0

/-- The effect of gal.preempt: the time it took is a free value within its bound (R181, log entry 12). -/
def preemptBody (src : Src) (p : Nat) (addr : Word) (s : State) : State × Reply :=
  let st := switchRefusal s src.ctx p addr true
  if st ≠ 0 then (s, .status st)
  else
    let t := s.draw.1.toNat % (saveBound s p + 1)
    let s := (partCells s p).zipIdx.foldl (fullSave (bits addr.toNat 0 39)) s.draw.2
    (s.setFld GAL_STATUS_STOPPED (s.fld GAL_STATUS_STOPPED ||| 2 ^ p), .done 0 (BitVec.ofNat 64 t) 0 0)

def execGalPreempt (src : Src) (part : Nat) (addr : BitVec 64) (s : State) : Host.Outcome State Fault Refusal :=
  .next (runItem s src 0xDB (preemptBody src part addr))

/-- The effect of gal.resume. -/
def resumeBody (src : Src) (p : Nat) (addr : Word) (s : State) : State × Reply :=
  let st := switchRefusal s src.ctx p addr false
  if st ≠ 0 then (s, .status st)
  else
    let s := (partCells s p).zipIdx.foldl (fullLoad p (bits addr.toNat 0 39)) s
    (dispatch (s.setFld GAL_STATUS_STOPPED (s.fld GAL_STATUS_STOPPED - 2 ^ p)) p, .ok)

def execGalResume (src : Src) (part : Nat) (addr : BitVec 64) (s : State) : Host.Outcome State Fault Refusal :=
  .next (runItem s src 0xDC (resumeBody src part addr))

end Sys2Proof.Machine
end

