-- ==== Sys2Proof/Machine/Tokens.lean ====
section
/-! DEFINITION. Token engines (09 R314 to R343, R361): vocabulary and grammar images, tok.encode, logits and sampling. -/

namespace Sys2Proof.Machine

/-! ### Vocabulary images (R316 to R320) -/

/-- Reads IMAGE_BYTES, the word `at_` of a 128-byte header, then the whole image; `bad` is the status of an image too short. -/
def readHeaded (s : State) (src : Src) (addr : Word) (at_ : Nat) : Except Nat (List Byte) :=
  match itemRead s src 2 addr 128 with
  | .error st => .error st
  | .ok h => if imgWord h at_ < 128 then .error 0x6002 else itemRead s src 2 addr (imgWord h at_)

/-- Whether the digest of a text image matches: words 10 to 15 taken as zero. -/
def textDigestOk (bs : List Byte) : Bool :=
  decide (sha384 (bs.take 80 ++ List.replicate 48 0#8 ++ bs.drop 128) = (bs.drop 80).take 48)

/-- End tokens of a header: those that are not 0x1F_FFFF (R316). -/
def endFields (bs : List Byte) : List Nat :=
  let w := imgWord bs
  [bits (w 5) 0 21, bits (w 5) 21 21, bits (w 6) 0 21, bits (w 6) 21 21]

/-- Whether a vocabulary header is in range (R316, R319). -/
def vocabHeadOk (bs : List Byte) : Bool :=
  let w := imgWord bs
  let n := bits (w 0) 16 21
  decide (bits (w 0) 0 16 = 1) && decide (bits (w 0) 37 27 = 0) && decide (1 ≤ n) && decide (n ≤ 1048576) &&
  decide (bits (w 2) 22 42 = 0) && decide (bits (w 5) 42 22 = 0) && decide (bits (w 6) 42 22 = 0) && decide (w 8 = 0) &&
  decide (w 9 = 0) && (!bitOf (w 2) 21 || decide (bits (w 2) 0 21 + 255 < n)) &&
  decide (bits (w 3) 0 32 + bits (w 4) 0 32 ≤ w 7) && decide (bits (w 3) 32 32 + bits (w 4) 32 32 ≤ w 7) &&
  decide (bits (w 3) 32 32 % 8 = 0) && decide (bits (w 4) 32 32 ≤ 134217728) && decide (8 * n ≤ bits (w 4) 0 32) &&
  ((endFields bs).all fun t => decide (t < n) || decide (t = 0x1FFFFF)) && textDigestOk bs

/-- A string table entry: bytes, SPECIAL, BYTE; none where it is out of range (R317). -/
def strEntry (tab strs : List Byte) (t : Nat) : Option (List Byte × Bool × Bool) :=
  let w := imgWord tab t
  let off := bits w 0 32
  let len := bits w 32 8
  if bits w 42 22 ≠ 0 ∨ len = 0 ∨ strs.length < off + len then none
  else some ((strs.drop off).take len, bitOf w 40, bitOf w 41)

/-- A trie node at a word offset: TOKEN_P1 and children; none where it is malformed or lies outside the trie (R318, R319). -/
def trieNode (trie : List Byte) (ntok off : Nat) : Option (Nat × List (Nat × Nat)) :=
  let words := trie.length / 8
  let w := imgWord trie off
  let n := bits w 21 9
  if words ≤ off ∨ bits w 30 34 ≠ 0 ∨ 256 < n ∨ ntok < bits w 0 21 ∨ words < off + 1 + (n + 1) / 2 then none
  else
    let kids := (List.range n).map fun k =>
      let x := bits (imgWord trie (off + 1 + k / 2)) (32 * (k % 2)) 32
      (bits x 0 8, bits x 8 24)
    let spare := if n % 2 = 1 then bits (imgWord trie (off + 1 + n / 2)) 32 32 else 0
    if spare ≠ 0 ∨ !((kids.zip (kids.drop 1)).all fun x => decide (x.1.1 < x.2.1)) then none
    else some (bits w 0 21, kids)

/-- The nodes of a trie reachable from a list of offsets; the first argument bounds the nodes read. -/
def trieNodes (trie : List Byte) (ntok : Nat) : Nat → List Nat → Map (Nat × List (Nat × Nat)) →
    Option (Map (Nat × List (Nat × Nat)))
  | _, [], m => some m
  | 0, _ :: _, _ => none
  | f + 1, o :: os, m =>
    if (mget m o).isSome then trieNodes trie ntok f os m
    else match trieNode trie ntok o with
      | none => none
      | some x => trieNodes trie ntok f (x.2.map (·.2) ++ os) (mset m o x)

/-- The node that a path of bytes leads to. -/
def triePath (v : Vocab) : List Byte → Nat → Option Nat
  | [], n => some n
  | b :: bs, n => (trieChild v n b).bind (triePath v bs)

/-- TOKEN_P1 of a node. -/
def tokenP1 (v : Vocab) (n : Nat) : Nat := ((mget v.trie n).map (·.1)).getD 0

/-- Whether every non-special token's path ends at its node (R319). -/
def pathsOk (v : Vocab) : Bool :=
  v.strings.zipIdx.all fun x => x.1.2.1 || (match triePath v x.1.1 0 with | some n => decide (tokenP1 v n = x.2 + 1) | none => false)

/-- Whether every byte can be tokenised (R320). -/
def bytesOk (v : Vocab) : Bool :=
  v.byteFb || (List.range 256).all fun b =>
    (((trieChild v 0 (BitVec.ofNat 8 b)).bind fun n => trieToken v n).any fun t => decide ((tokenBytes v t).length = 1))

/-- The vocabulary an image holds, or the status that refuses it. -/
def parseVocab (bs : List Byte) : Except Nat Vocab :=
  if !vocabHeadOk bs then .error 0x6002
  else
    let w := imgWord bs
    let n := bits (w 0) 16 21
    let str := (bs.drop (bits (w 3) 0 32)).take (bits (w 4) 0 32)
    let trie := (bs.drop (bits (w 3) 32 32)).take (bits (w 4) 32 32)
    match (List.range n).mapM (strEntry (str.take (8 * n)) (str.drop (8 * n))), trieNodes trie n (trie.length + 1) [0] [] with
    | some strings, some nodes =>
      let v : Vocab := { ntok := n, vocabId := w 1, byteFb := bitOf (w 2) 21, byteBase := bits (w 2) 0 21,
                         ends := (endFields bs).filter (· ≠ 0x1FFFFF), strings, trie := nodes, imageBytes := w 7 }
      if !pathsOk v then .error 0x6002 else if !bytesOk v then .error 0x6003 else .ok v
    | _, _ => .error 0x6002

/-- The hub whose engine serves a vocabulary slot (R314). -/
def tokHub (s : State) (slot : Nat) : Nat :=
  let h := if slot < 32 then 0 else 1
  if s.hubOk h || !s.hubOk (1 - h) then h else 1 - h

/-- Shows the serving hub of every loaded vocabulary, as it stands (R314, R363). -/
def showHubs (s : State) : State :=
  (List.range 64).foldl (fun s v => if (mget s.tok.vocabs v).isSome then s.setFld (TOK_VOCAB_A_HUB v) (tokHub s v) else s) s

/-- The effect of tok.vload. -/
def vloadBody (src : Src) (slot : Nat) (addr : Word) (s : State) : State × Reply :=
  if (mget s.tok.vocabs slot).isSome then (s, .status 0x6001)
  else match readHeaded s src addr 7 with
    | .error st => (s, .status st)
    | .ok bs =>
      match parseVocab bs with
      | .error st => (s, .status st)
      | .ok v =>
        let s := { s with tok := { s.tok with vocabs := mset s.tok.vocabs slot v } }
        let s := s.setFld (TOK_VOCAB_A_LOADED slot) 1
        let s := s.setFld (TOK_VOCAB_A_NTOK slot) v.ntok
        let s := s.setFld (TOK_VOCAB_A_BYTE_FB slot) (b2n v.byteFb)
        let s := s.setFld (TOK_VOCAB_A_HUB slot) (tokHub s slot)
        (s.setFld (TOK_VOCAB_B_VOCAB_ID slot) v.vocabId, .done 0 (BitVec.ofNat 64 v.ntok) 0 0)

def execTokVload (src : Src) (slot : Nat) (addr : BitVec 64) (s : State) : Host.Outcome State Fault Refusal :=
  .next (runItem s src 0xE0 (vloadBody src slot addr))

/-! ### Grammar images (R333 to R335, R339) -/

/-- Whether a grammar header is in range (R333, R335). -/
def gramHeadOk (bs : List Byte) : Bool :=
  let w := imgWord bs
  let n := bits (w 0) 16 20
  decide (bits (w 0) 0 16 = 1) && decide (bits (w 0) 36 28 = 0) && decide (1 ≤ n) && decide (n ≤ 1048575) &&
  decide (bits (w 2) 17 3 = 0) && decide (bits (w 2) 40 24 = 0) && decide (1 ≤ bits (w 2) 0 17) &&
  decide (bits (w 2) 0 17 ≤ 65535) && decide (bits (w 2) 20 20 < n) && ((List.range 4).all fun j => decide (w (6 + j) = 0)) &&
  decide (bits (w 3) 32 32 + 8 * n ≤ w 5) && decide (bits (w 4) 0 32 + 16 * bits (w 4) 32 32 ≤ w 5) && textDigestOk bs

/-- A state record; none where it is malformed. -/
def gramState (nent w : Nat) : Option (Nat × Nat × Bool × Bool) :=
  if bits w 46 18 ≠ 0 ∨ nent < bits w 0 32 + bits w 32 12 then none
  else some (bits w 0 32, bits w 32 12, bitOf w 44, bitOf w 45)

/-- A transition entry; none where it is malformed (R334, R335). -/
def gramTrans (n w0 w1 : Nat) : Option GEntry :=
  let e : GEntry := { lo := bits w0 0 16, hi := bits w0 16 16, top := bits w0 32 16, action := bits w0 48 2,
                      target := bits w1 0 20, pushSym := bits w1 20 16, ret := bits w1 36 20 }
  if bits w0 50 14 ≠ 0 ∨ bits w1 56 8 ≠ 0 ∨ e.action = 3 ∨ (e.action ≠ 2 ∧ n ≤ e.target) ∨
      (e.action = 2 ∧ e.top = 0xFFFE) ∨ (e.action = 1 ∧ (n ≤ e.ret ∨ 0xFFFD < e.pushSym)) then none
  else some e

/-- The grammar an image holds for a vocabulary of NTOK tokens, none where it is invalid. -/
def parseGrammar (bs : List Byte) (ntok : Nat) : Option Grammar :=
  let w := imgWord bs
  let n := bits (w 0) 16 20
  let nent := bits (w 4) 32 32
  let classes := (List.range ntok).map fun t => leNat ((bs.drop (bits (w 3) 0 32 + 2 * t)).take 2)
  let st := bs.drop (bits (w 3) 32 32)
  let en := bs.drop (bits (w 4) 0 32)
  if w 5 < bits (w 3) 0 32 + 2 * ntok ∨ (classes.any fun c => decide (bits (w 2) 0 17 ≤ c)) then none
  else match (List.range n).mapM fun i => gramState nent (imgWord st i),
      (List.range nent).mapM fun i => gramTrans n (imgWord en (2 * i)) (imgWord en (2 * i + 1)) with
    | some states, some entries =>
      some { nstates := n, vocabId := w 1, start := bits (w 2) 20 20, classes, states, entries, imageBytes := w 5 }
    | _, _ => none

/-- The effect of tok.gload. -/
def gloadBody (src : Src) (slot : Nat) (addr : Word) (s : State) : State × Reply :=
  if slot = 0 then (s, .status 0x6007)
  else if (mget s.tok.grammars slot).isSome then (s, .status 0x6001)
  else match readHeaded s src addr 5 with
    | .error st => (s, .status st)
    | .ok bs =>
      if !gramHeadOk bs then (s, .status 0x6002)
      else match s.tok.vocabs.find? fun v => v.2.vocabId = imgWord bs 1 with
        | none => (s, .status 0x6006)
        | some v =>
          match parseGrammar bs v.2.ntok with
          | none => (s, .status 0x6002)
          | some g =>
            let s := { s with tok := { s.tok with grammars := mset s.tok.grammars slot g } }
            let s := s.setFld (TOK_GRAM_A_LOADED slot) 1
            let s := s.setFld (TOK_GRAM_A_NSTATES slot) g.nstates
            (s.setFld (TOK_GRAM_B_VOCAB_ID slot) g.vocabId, .done 0 (BitVec.ofNat 64 g.nstates) 0 0)

def execTokGload (src : Src) (slot : Nat) (addr : BitVec 64) (s : State) : Host.Outcome State Fault Refusal :=
  .next (runItem s src 0xE1 (gloadBody src slot addr))

/-! ### tok.unload, tok.encode (R321, R322, R361) -/

/-- Unloads a vocabulary slot. -/
def unloadVocab (s : State) (slot : Nat) : State × Reply :=
  if 63 < slot then (s, .status 0x5003)
  else if (mget s.tok.vocabs slot).isNone then (s, .status 0x6004)
  else if s.fld (TOK_VOCAB_A_BINDINGS slot) ≠ 0 then (s, .status 0x6005)
  else
    let s := { s with tok := { s.tok with vocabs := mdel s.tok.vocabs slot } }
    let s := s.setFld (TOK_VOCAB_A_LOADED slot) 0
    let s := s.setFld (TOK_VOCAB_A_NTOK slot) 0
    let s := s.setFld (TOK_VOCAB_A_BYTE_FB slot) 0
    let s := s.setFld (TOK_VOCAB_A_HUB slot) 0
    (s.setFld (TOK_VOCAB_B_VOCAB_ID slot) 0, .ok)

/-- Unloads a grammar slot. -/
def unloadGrammar (s : State) (slot : Nat) : State × Reply :=
  if slot = 0 then (s, .status 0x6007)
  else if (mget s.tok.grammars slot).isNone then (s, .status 0x6004)
  else if s.fld (TOK_GRAM_A_BINDINGS slot) ≠ 0 then (s, .status 0x6005)
  else
    let s := { s with tok := { s.tok with grammars := mdel s.tok.grammars slot } }
    let s := s.setFld (TOK_GRAM_A_LOADED slot) 0
    let s := s.setFld (TOK_GRAM_A_NSTATES slot) 0
    (s.setFld (TOK_GRAM_B_VOCAB_ID slot) 0, .ok)

def execTokUnload (src : Src) (kind slot : Nat) (s : State) : Host.Outcome State Fault Refusal :=
  .next (runItem s src 0xE2 fun s => if kind = 0 then unloadVocab s slot else unloadGrammar s slot)

/-- The effect of tok.encode. -/
def encodeBody (src : Src) (vocab n : Nat) (source dest : Word) (s : State) : State × Reply :=
  if n = 0 then (s, .status 0x5003)
  else match mget s.tok.vocabs vocab with
    | none => (s, .status 0x6004)
    | some v =>
      match itemRead s src 2 source n with
      | .error st => (s, .status st)
      | .ok bs =>
        let ts := (tokenise v bs).map (·.1)
        match itemWrite s src 3 dest (ts.flatMap fun t => leBytes 4 t) with
        | .error st => (s, .status st)
        | .ok s => (s, .done 0 (BitVec.ofNat 64 ts.length) 0 0)

def execTokEncode (src : Src) (vocab bytes : Nat) (source dest : BitVec 64) (s : State) : Host.Outcome State Fault Refusal :=
  .next (runItem s src 0xE3 (encodeBody src vocab bytes source dest))

/-! ### Logits (R325 to R327) -/

/-- Changes a record of a slice's galley in flight. -/
def setRec (s : State) (sl i : Nat) (r : Rec) : State :=
  match (s.slice sl).running with
  | none => s
  | some g => s.setSlice sl { s.slice sl with running := some { g with recs := g.recs.set i r } }

/-- A record of a slice's galley in flight. -/
def recAt (s : State) (sl i : Nat) : Option Rec := (s.slice sl).running.bind fun g => g.recs[i]?

/-- Vocabulary of a record's session. -/
def recVocab (s : State) (r : Rec) : Option Vocab := (s.ses? r.index).bind fun e => mget s.tok.vocabs e.vocab

/-- Whether the token engine wants the logits of a position (R327): every decode position; of a prefill only the last position
of a chunk that consumes the transcript with tokens to generate. -/
def wanted (s : State) (r : Rec) (offset : Nat) : Bool :=
  decide (offset < r.new) &&
  (!r.prefill || (decide (offset + 1 = r.new) && (match s.ses? r.index with | none => false | some e => samples e r)))

/-- A bad segment: the session commits nothing, and a fault message is raised (R326). -/
def badSegment (s : State) (sl i : Nat) : State :=
  let s := match recAt s sl i with
    | none => s
    | some r => if r.void then s else setRec s sl i { r with spoiled := true }
  fault s (0xE00 + sl) 0x10 0 0

/-- A segment at the token engine (R326, R327). -/
def segmentIn (s : State) (sl i offset first : Nat) (ls : List (BitVec 32)) : State :=
  match recAt s sl i with
  | none => if ((s.slice sl).running).isSome then badSegment s sl i else s
  | some r =>
    if r.void then badSegment s sl i
    else if !wanted s r offset then s
    else
      let n := ((recVocab s r).map (·.ntok)).getD 0
      let old := (mget r.logits offset).getD []
      if n < first + ls.length ∨ (old.any fun x => overlaps first ls.length x.1 x.2.length) = true then badSegment s sl i
      else setRec s sl i { r with logits := mset r.logits offset (old ++ [(first, ls)]) }

/-- Takes a segment off those on their way, if it is one of them. -/
def arrive (s : State) (x : Nat × Nat × Nat × Nat × List (BitVec 32)) : State :=
  { s with gal := { s.gal with logitsSent := s.gal.logitsSent.erase x } }

def execLogitSegment (part slice recIdx offset first : Nat) (logits : List (BitVec 32)) (s : State) :
    Host.Outcome State Fault Refusal :=
  .next (segmentIn (arrive s (4 * part + slice, recIdx, offset, first, logits)) (4 * part + slice) recIdx offset first logits)

/-! ### Sampling (R328 to R331, R341) -/

/-- The logits of a position in order of identity, once segments cover 0 to NTOK - 1. -/
def allLogits (r : Rec) (offset ntok : Nat) : Option (List Nat) :=
  let segs := sortBy (fun (a b : Nat × List (BitVec 32)) => decide (a.1 < b.1)) ((mget r.logits offset).getD [])
  let zs := segs.flatMap (·.2)
  if zs.length = ntok then some (zs.map (·.toNat)) else none

/-- The automaton at a position: after the drafts before it (R341). -/
def gramAt (s : State) (e : Session) (v : Vocab) (r : Rec) (offset : Nat) : Option GState :=
  gramRun v (mget s.tok.grammars e.grammar) e.text.sampler.ignoreEnd (e.text.gramSt, e.text.gramStk)
    (if r.prefill then [] else r.drafts.take offset)

/-- The outcome of a draw: the token, counted where it is degenerate; a token the procedure does not name is a free value. -/
def drawn (s : State) (v : Vocab) : Draw → State × Option Nat
  | .noToken => (s, none)
  | .degenerate t => (s.incSat TOK_COUNTS_DEGENERATE 1, some t)
  | .token t => (s, some t)
  | .unstated => (s.draw.2, some (s.draw.1.toNat % v.ntok))

/-- Sampling of a position (R331). -/
def samplePosition (s : State) (sl i offset : Nat) : State :=
  match recAt s sl i with
  | none => s
  | some r =>
    match s.ses? r.index, recVocab s r with
    | some e, some v =>
      if r.void || r.spoiled || e.cancelReq || decide (e.instar ≠ r.instar) || !wanted s r offset || (mget r.sampled offset).isSome then s
      else match allLogits r offset v.ntok, gramAt s e v r offset with
        | some zs, some st =>
          let mask := gramMask v (mget s.tok.grammars e.grammar) e.text.sampler.ignoreEnd st
          let d := drawn s v (sampleToken e.text.sampler (r.pos + offset) zs mask)
          setRec d.1 sl i { r with sampled := mset r.sampled offset d.2 }
        | _, _ => s
    | _, _ => s

def execPositionSampled (part slice recIdx offset : Nat) (s : State) : Host.Outcome State Fault Refusal :=
  .next (samplePosition s (4 * part + slice) recIdx offset)

end Sys2Proof.Machine
end

