-- ==== Sys2Proof/Machine/Banks.lean ====
section
/-! DEFINITION. Associative banks (09 R353 to R361): configuration, writes, searches, reads, and the scrub against the copy in
HBM. -/

namespace Sys2Proof.Machine

/-- An empty bank. -/
def bank0 : Bank := ⟨[], []⟩

/-- A bank. -/
def State.bank (s : State) (b : Nat) : Bank := (mget s.banks b).getD bank0

/-- Writes a bank. -/
def State.setBank (s : State) (b : Nat) (x : Bank) : State := { s with banks := mset s.banks b x }

/-- A row of 16 bytes. -/
def rowOf (rows : Map (List Byte)) (i : Nat) : List Byte := (mget rows i).getD (List.replicate 16 0#8)

/-- Writes a row; a row of zeros is not listed. -/
def setRow (rows : Map (List Byte)) (i : Nat) (bs : List Byte) : Map (List Byte) :=
  if bs.all (· = 0) then mdel rows i else mset rows i bs

/-- Units per entry (R353). -/
def bankUnits (s : State) (b : Nat) : Nat := 2 ^ s.fld (CAM_CFG_WIDTH b)

/-- Entries of a bank (R353). -/
def bankEntries (s : State) (b : Nat) : Nat := 8192 / bankUnits s b

/-- The bytes of an entry. -/
def entryOf (rows : Map (List Byte)) (w e : Nat) : List Byte := (List.range w).flatMap fun i => rowOf rows (w * e + i)

/-- Writes an entry. -/
def setEntry (rows : Map (List Byte)) (w e : Nat) (bs : List Byte) : Map (List Byte) :=
  (List.range w).foldl (fun m i => setRow m (w * e + i) ((bs.drop (16 * i)).take 16)) rows

/-- VALID of an entry's bytes. -/
def entryValid (bs : List Byte) : Bool := bitOf (bs.getD 0 0).toNat 0

/-- An entry's bytes with VALID as given and its reserved bits zero. -/
def withValid (bs : List Byte) (v : Bool) : List Byte := bs.set 0 (BitVec.ofNat 8 (b2n v))

/-- Whether a bank belongs to the issuing context (R354). -/
def bankOwned (s : State) (src : Src) (b : Nat) : Bool :=
  decide (s.fld (CAM_CFG_OWNER_KIND b) = 1) && decide (s.fld (CAM_CFG_OWNER b) = src.ctx)

/-- Valid entries of a bank, counted. -/
def countValid (s : State) (b : Nat) : Nat :=
  let w := bankUnits s b
  (s.bank b).rows.countP fun x => decide (x.1 % w = 0) && entryValid x.2

/-- Shows the valid entries of a bank. -/
def showValid (s : State) (b : Nat) : State := s.setFld (CAM_CFG_VALID_ENTRIES b) (countValid s b)

/-- Clears VALID of every row that starts an entry at one of two widths. -/
def invalidRows (rows : Map (List Byte)) (w1 w2 : Nat) : Map (List Byte) :=
  (rows.map fun x => if x.1 % w1 = 0 ∨ x.1 % w2 = 0 then (x.1, withValid x.2 false) else x).filter fun x => x.2.any (· ≠ 0)

/-- Invalidates every entry of a bank that goes from one width to another (R354, R355). -/
def invalidate (s : State) (b w1 w2 : Nat) : State :=
  let x := s.bank b
  (s.setBank b ⟨invalidRows x.rows w1 w2, invalidRows x.copy w1 w2⟩).setFld (CAM_CFG_VALID_ENTRIES b) 0

/-- The effect of cam.cfg (R355). -/
def camCfgBody (src : Src) (b width keyBytes : Nat) (verify : Bool) (s : State) : State × Reply :=
  if !bankOwned s src b then (s, .status 0x6030)
  else if 2 < width then (s, .status 0x5003)
  else if keyBytes = 0 ∨ 16 * 2 ^ width - 1 < keyBytes then (s, .status 0x6031)
  else
    let s := invalidate s b (bankUnits s b) (2 ^ width)
    let s := s.setFld (CAM_CFG_WIDTH b) width
    let s := s.setFld (CAM_CFG_KEY_BYTES b) keyBytes
    (s.setFld (CAM_CFG_VERIFY b) (b2n verify), .ok)

def execCamCfg (src : Src) (bank width keyBytes : Nat) (verify : Bool) (s : State) : Host.Outcome State Fault Refusal :=
  .next (runItem s src 0xE4 (camCfgBody src bank width keyBytes verify))

/-- Stores an entry in a bank and its copy (R356). -/
def storeEntry (s : State) (b e : Nat) (bs : List Byte) : State :=
  let w := bankUnits s b
  let x := s.bank b
  showValid (s.setBank b ⟨setEntry x.rows w e bs, setEntry x.copy w e bs⟩) b

/-- The effect of cam.write (R356, R361). -/
def camWriteBody (src : Src) (b e : Nat) (clear : Bool) (addr : Word) (s : State) : State × Reply :=
  if !bankOwned s src b then (s, .status 0x6030)
  else if bankEntries s b ≤ e then (s, .status 0x6033)
  else
    let w := bankUnits s b
    if clear then (storeEntry s b e (withValid (entryOf (s.bank b).rows w e) false), .ok)
    else match itemRead s src 2 addr (16 * w) with
      | .error st => (s, .status st)
      | .ok bs => (storeEntry s b e (withValid bs (entryValid bs)), .ok)

def execCamWrite (src : Src) (bank entry : Nat) (clear : Bool) (addr : BitVec 64) (s : State) :
    Host.Outcome State Fault Refusal :=
  .next (runItem s src 0xE5 (camWriteBody src bank entry clear addr))

/-- Whether an entry matches a key under a byte mask (R357). -/
def keyMatches (key : List Byte) (mask : Nat) (bs : List Byte) : Bool :=
  entryValid bs && (key.zipIdx.all fun x => !bitOf mask x.2 || decide (bs.getD (x.2 + 1) 0 = x.1))

/-- The entries from START on that match (R357). -/
def camMatches (s : State) (b start : Nat) (key : List Byte) (mask : Nat) : List Nat :=
  (List.range (bankEntries s b)).filter fun e =>
    decide (start ≤ e) && keyMatches key mask (entryOf (s.bank b).rows (bankUnits s b) e)

/-- The fault source of a bank: associative banks of its hub (13 R494). -/
def bankSource (b : Nat) : Nat := 0xB42 + 16 * (b / 16)

/-- A search: with VERIFY, a hit that differs from its copy is repaired and the search repeated once (R359). -/
def camSearch (s : State) (b start : Nat) (key : List Byte) (mask : Nat) : State × List Nat :=
  let m := camMatches s b start key mask
  let w := bankUnits s b
  match m.head? with
  | none => (s, m)
  | some e =>
    let x := s.bank b
    if s.flag (CAM_CFG_VERIFY b) ∧ entryOf x.rows w e ≠ entryOf x.copy w e then
      let s := showValid (s.setBank b { x with rows := setEntry x.rows w e (entryOf x.copy w e) }) b
      let s := fault (s.incSat CAM_FIX_HIT 1) (bankSource b) 0x01 0 0
      (s, camMatches s b start key mask)
    else (s, m)

/-- RESULT of cam.find (R357). -/
def camResult (m : List Nat) : Word :=
  BitVec.ofNat 64 (match m with
    | [] => 0
    | e :: r => e + 2 ^ 13 + b2n (!r.isEmpty) * 2 ^ 14 + min 8191 m.length * 2 ^ 16)

/-- The effect of cam.find. -/
def camFindBody (src : Src) (b start : Nat) (keyAddr mask dataAddr : Word) (s : State) : State × Reply :=
  if !bankOwned s src b then (s, .status 0x6030)
  else if bankEntries s b ≤ start then (s, .status 0x6033)
  else
    let k := s.fld (CAM_CFG_KEY_BYTES b)
    match itemRead s src 2 keyAddr k with
    | .error st => (s, .status st)
    | .ok key =>
      let r := camSearch s b start key mask.toNat
      match r.2.head? with
      | none => (r.1, .done 0 (camResult r.2) 0 0)
      | some e =>
        if dataAddr = 0 then (r.1, .done 0 (camResult r.2) 0 0)
        else match itemWrite r.1 src 4 dataAddr ((entryOf (r.1.bank b).rows (bankUnits r.1 b) e).drop (k + 1)) with
          | .error st => (r.1, .status st)
          | .ok s => (s, .done 0 (camResult r.2) 0 0)

def execCamFind (src : Src) (bank start : Nat) (keyAddr mask dataAddr : BitVec 64) (s : State) :
    Host.Outcome State Fault Refusal :=
  .next (runItem s src 0xE6 (camFindBody src bank start keyAddr mask dataAddr))

/-- The effect of cam.read (R361). -/
def camReadBody (src : Src) (b e : Nat) (dest : Word) (s : State) : State × Reply :=
  if !bankOwned s src b then (s, .status 0x6030)
  else if bankEntries s b ≤ e then (s, .status 0x6033)
  else
    let bs := entryOf (s.bank b).rows (bankUnits s b) e
    match itemWrite s src 2 dest bs with
    | .error st => (s, .status st)
    | .ok s => (s, .done 0 (BitVec.ofNat 64 (b2n (entryValid bs))) 0 0)

def execCamRead (src : Src) (bank entry : Nat) (dest : BitVec 64) (s : State) : Host.Outcome State Fault Refusal :=
  .next (runItem s src 0xE7 (camReadBody src bank entry dest))

/-- Rows of a bank that differ from their copy. -/
def rowsDiffer (x : Bank) : Nat := (List.range 8192).countP fun i => decide (rowOf x.rows i ≠ rowOf x.copy i)

/-- The scrub of a bank (R360): every row that differs is repaired and counted. -/
def camScrub (s : State) (b : Nat) : State :=
  if s.fld (CAM_CFG_OWNER_KIND b) = 0 then s
  else
    let x := s.bank b
    let n := rowsDiffer x
    if n = 0 then s else showValid ((s.setBank b { x with rows := x.copy }).incSat CAM_FIX_SCRUB n) b

def execCamScrub (bank : Nat) (s : State) : Host.Outcome State Fault Refusal := .next (camScrub s bank)

end Sys2Proof.Machine
end

