-- ==== Sys2Proof/Machine/CellCore.lean ====
section
/-! DEFINITION. The way of a cell item (07 R230 to R242, R246, R247, R270 to R272; 06 R192 to R198): the window check, what an
item ends in, exceptions, and program accesses to cell memory. -/

namespace Sys2Proof.Machine

/-- How a cell item ends: done, done with a new pc, an exception with its code, or not yet because it must wait. -/
inductive CellOut where
  | ok (s : State) (c : Cell)
  | jump (s : State) (c : Cell) (pc : Nat)
  | exc (s : State) (c : Cell) (code : Nat)
  | wait (s : State) (c : Cell)
  deriving DecidableEq, Repr

/-- Fault source of the physical cell behind a device cell number (13 R494). -/
def cellSource (s : State) (n : Nat) : Nat := 168 * (n / 160) + cellPhys s n

/-- Fault source of a slice's exceptions; the search galley is the vector-search block's (13 R494). -/
def sliceSource (s : State) (p k : Nat) : Nat :=
  if k < 4 then 0xE00 + 4 * p + k else 0xB46 + 16 * s.fld GLB_STATE_ACTIVE_HUB

/-- An address in a cell's memory, as R236 writes it. -/
def cellAddr (n a : Nat) : Word := BitVec.ofNat 64 (2 ^ 60 + n * 2 ^ 22 + a)

/-- Window of the galley a cell runs. -/
def cellWindow (s : State) (c : Cell) : Nat × Nat := window s c.part c.slice

/-- EXC_ACTIVE, EXC and HANDLERS of the status register (R239). -/
def excActive (c : Cell) : Bool := bitOf c.status.toNat 37
def excCode (c : Cell) : Nat := bits c.status.toNat 32 5
def hasHandler (c : Cell) (code : Nat) : Bool := bitOf c.status.toNat (48 + code)

/-- Whether an exception enters a handler (R270, R271). -/
def handled (c : Cell) (code : Nat) : Bool :=
  hasHandler c code && !excActive c && decide (code ≠ 5) && decide (code ≠ 10)

/-- Takes an exception (R270, R271): into its vector, or the cell stops, the galley is abandoned and a fault message raised. -/
def takeException (s : State) (n : Nat) (c : Cell) (code : Nat) : State :=
  let h := handled c code
  let c' := { c with status := putField c.status 32 5 code, epc := c.pc }
  if h then
    s.setCell n { c' with status := putField c'.status 37 1 1, pc := ((cellWindow s c).1 + code) % 4096 }
  else
    let s := s.setCell n { c' with run := .stopped }
    let s := fault s (sliceSource s c.part c.slice) 0x0F 0
      (BitVec.ofNat 64 (c.pc + stepOf s c.part c.slice % 2 ^ 32 * 2 ^ 12 + code * 2 ^ 44)) n
    abandonGalley s c.part c.slice

/-- Puts an item's outcome into the state; `ext` is its count of extension words. -/
def finishCell (n pc ext : Nat) : CellOut → State
  | .ok s c => s.setCell n { c with pc := (pc + 1 + ext) % 4096 }
  | .jump s c t => s.setCell n { c with pc := t % 4096 }
  | .exc s c code => takeException s n c code
  | .wait s c => s.setCell n c

/-- Whether an item's words lie in the running slice's window (R198, R233). -/
def fetchOk (s : State) (c : Cell) (ext : Nat) : Bool :=
  let w := cellWindow s c
  decide (w.1 ≤ c.pc) && decide (c.pc + ext < w.1 + w.2) && decide (c.pc + ext < 4096)

/-- A cell item: no effect unless the cell runs and waits for nothing; then its window check and its own effect. -/
def cellItem (x : CellItem) (ext : Nat) (body : State → Cell → CellOut) (s : State) : Host.Outcome State Fault Refusal :=
  if cellCount ≤ x.cell then .fault .noSuchCell
  else
    let c := s.cell x.cell
    if c.run ≠ .running ∨ c.wait.isSome = true then .next s
    else if fetchOk s c ext then .next (finishCell x.cell c.pc ext (body s c))
    else .next (takeException s x.cell c 3)

/-! ### Program accesses to cell memory (R235, R242, R246, R247; 06 R193, R197) -/

/-- The 16-byte units a range touches. -/
def memUnits (a n : Nat) : List Nat := (List.range ((a % 16 + n + 15) / 16)).map (a / 16 + ·)

/-- The model a cell's slice runs. -/
def cellModel (s : State) (c : Cell) : Option Model := sliceModel s c.part c.slice

/-- What stops an access at its address: 3 access, 4 alignment, 0 nothing. -/
def accessCode (a n align : Nat) : Nat :=
  if cellLimit < a + n then 3 else if a % align ≠ 0 then 4 else 0

/-- An uncorrectable error met by a cell (06 R197). -/
def memError (s : State) (n a : Nat) : State :=
  let s := s.incSat (FRM_CELL_ECC_UE (n / 160) (cellPhys s n)) 1
  fault s (cellSource s n) 0x02 0 (cellAddr n a) n 1

/-- Counts corrected errors met by a cell (06 R197, 13 R510). -/
def memCorrected (s : State) (n a k : Nat) : State :=
  if k = 0 then s
  else fault (s.incSat (FRM_CELL_ECC_CE (n / 160) (cellPhys s n)) k) (cellSource s n) 0x01 0 (cellAddr n a) n 1

/-- A program load of `len` bytes. -/
def cellLoad (s : State) (n : Nat) (c : Cell) (a len align : Nat) (k : State → List Byte → CellOut) : CellOut :=
  let e := accessCode a len align
  if e ≠ 0 then .exc s c e
  else if mustWait (cellModel s c) c a len false then .wait s c
  else if (memUnits a len).any (c.poison.contains ·) then .exc (memError s n a) c 5
  else k (memCorrected s n a ((memUnits a len).countP (c.weak.contains ·))) (rdBytes c.mem a len)

/-- Whether a unit of `size` bytes lies wholly in a range. -/
def wholeUnit (size a n u : Nat) : Bool := decide (a ≤ size * u) && decide (size * u + size ≤ a + n)

/-- Bytes written to cell memory: units written whole are clean again. -/
def cellWrite (c : Cell) (a : Nat) (bs : List Byte) : Cell :=
  { c with mem := wrBytes c.mem a bs, poison := c.poison.filter fun u => !wholeUnit 16 a bs.length u,
           weak := c.weak.filter fun u => !wholeUnit 16 a bs.length u }

/-- A program store. -/
def cellStore (s : State) (c : Cell) (a align : Nat) (bs : List Byte) : CellOut :=
  let e := accessCode a bs.length align
  if e ≠ 0 then .exc s c e
  else if mustWait (cellModel s c) c a bs.length true then .wait s c
  else .ok s (cellWrite c a bs)

/-- A register item: it changes the cell alone. -/
def regItem (x : CellItem) (ext : Nat) (f : Cell → Cell) (s : State) : Host.Outcome State Fault Refusal :=
  cellItem x ext (fun s c => .ok s (f c)) s

/-- A register item with a check of its operands: none raises the illegal-operand exception. -/
def checkedItem (x : CellItem) (ext : Nat) (f : Cell → Option Cell) (s : State) : Host.Outcome State Fault Refusal :=
  cellItem x ext (fun s c => match f c with | none => .exc s c 2 | some c' => .ok s c') s

end Sys2Proof.Machine
end

