-- ==== Sys2Proof/Machine/CellVector.lean ====
section
/-! DEFINITION. Vector and predicate items of the cell profile (06 R209 to R211, R217 to R219, R601, R602; 07 R234, R241, R242,
R260). -/

namespace Sys2Proof.Machine

/-! ### Loads, stores and moves -/

/-- Lanes from 256 bytes. -/
def lanesOf (bs : List Byte) : List (BitVec 32) := (chunks 4 64 bs).map fun l => BitVec.ofNat 32 (leNat l)

/-- vld: 256 bytes at sA + IMM, lane by lane under the predicate. -/
def vldBody (x : CellItem) (s : State) (c : Cell) : CellOut :=
  cellLoad s x.cell c (opAddr c x).toNat 256 16 fun s bs => .ok s (writeV c x (lanesOf bs))

def execVld (x : CellItem) (s : State) : Host.Outcome State Fault Refusal := cellItem x 0 (vldBody x) s

/-- vst: the lanes whose predicate bit is 1. -/
def vstBody (x : CellItem) (s : State) (c : Cell) : CellOut :=
  let a := (opAddr c x).toNat
  let e := accessCode a 256 16
  if e ≠ 0 then .exc s c e
  else if mustWait (cellModel s c) c a 256 true then .wait s c
  else .ok s ((List.range 64).foldl (fun c' i =>
    if bitOf (preg c x.p).toNat i then cellWrite c' (a + 4 * i) (leBytes 4 ((vreg c x.b).getD i 0).toNat) else c') c)

def execVst (x : CellItem) (s : State) : Host.Outcome State Fault Refusal := cellItem x 0 (vstBody x) s

def execVbc (x : CellItem) (s : State) : Host.Outcome State Fault Refusal :=
  regItem x 0 (fun c => writeV c x (List.replicate 64 ((sreg c x.a).setWidth 32))) s

def execVmov (x : CellItem) (s : State) : Host.Outcome State Fault Refusal :=
  regItem x 0 (fun c => writeV c x (vreg c x.a)) s

/-! ### Arithmetic (R217, R601) -/

/-- A lane-wise operation on a floating-point or a lane-sized integer type; other types are illegal operands (R235). -/
def arithItem (x : CellItem) (fop : Fmt → RMode → Nat → Nat → FRes) (iop : Int → Int → Int) (s : State) :
    Host.Outcome State Fault Refusal :=
  checkedItem x 0 (fun c =>
    match floatType x.t, laneInt x.t with
    | some f, _ => some (writeF c x (laneOp f (fun a b _ => fop f (modeOf c.status) a b) (vreg c x.a) (vreg c x.b) lanes0))
    | _, some (w, signed) => some (writeV c x (laneIntOp w signed iop (vreg c x.a) (vreg c x.b)))
    | _, _ => none) s

def execVadd (x : CellItem) (s : State) : Host.Outcome State Fault Refusal := arithItem x fAdd (· + ·) s

def execVsub (x : CellItem) (s : State) : Host.Outcome State Fault Refusal := arithItem x fSub (· - ·) s

def execVmul (x : CellItem) (s : State) : Host.Outcome State Fault Refusal := arithItem x fMul (· * ·) s

def execVmin (x : CellItem) (s : State) : Host.Outcome State Fault Refusal := arithItem x (fun f _ => fMinMax f false) min s

def execVmax (x : CellItem) (s : State) : Host.Outcome State Fault Refusal := arithItem x (fun f _ => fMinMax f true) max s

/-- A bitwise operation on every lane. -/
def bitItem (x : CellItem) (op : BitVec 32 → BitVec 32 → BitVec 32) (s : State) : Host.Outcome State Fault Refusal :=
  checkedItem x 0 (fun c =>
    if (floatType x.t).isSome || (laneInt x.t).isSome then
      some (writeV c x ((List.range 64).map fun i => op ((vreg c x.a).getD i 0) ((vreg c x.b).getD i 0)))
    else none) s

def execVand (x : CellItem) (s : State) : Host.Outcome State Fault Refusal := bitItem x (· &&& ·) s

def execVor (x : CellItem) (s : State) : Host.Outcome State Fault Refusal := bitItem x (· ||| ·) s

def execVxor (x : CellItem) (s : State) : Host.Outcome State Fault Refusal := bitItem x (· ^^^ ·) s

/-- vfma: rounded once, on the floating-point types. -/
def vfmaBody (x : CellItem) (c : Cell) : Option Cell :=
  (floatType x.t).map fun f => writeF c x (laneOp f (fFma f (modeOf c.status)) (vreg c x.a) (vreg c x.b) (vreg c x.c))

def execVfma (x : CellItem) (s : State) : Host.Outcome State Fault Refusal := checkedItem x 0 (vfmaBody x) s

/-- A shift of every lane by vB[4:0]. -/
def vshiftItem (x : CellItem) (op : Int → Nat → Int) (s : State) : Host.Outcome State Fault Refusal :=
  checkedItem x 0 (fun c => (laneInt x.t).map fun t =>
    writeV c x ((List.range 64).map fun i =>
      intLane t.1 t.2 (op (atType t.1 t.2 ((vreg c x.a).getD i 0).toNat) (((vreg c x.b).getD i 0).toNat % 32)))) s

def execVshl (x : CellItem) (s : State) : Host.Outcome State Fault Refusal := vshiftItem x (fun a n => a * 2 ^ n) s

def execVshr (x : CellItem) (s : State) : Host.Outcome State Fault Refusal := vshiftItem x (fun a n => a / 2 ^ n) s

/-! ### vcvt (R209, R602) -/

/-- One lane converted: the result, and whether only its low half is stated. -/
def cvtLane (md : RMode) (src dst : Nat) (x : BitVec 32) : FRes × Bool :=
  match floatType src, floatType dst, laneInt src, laneInt dst with
  | some f, some g, _, _ =>
    if f.bits = 16 ∧ g.bits = 16 then (packLane f (fun a _ _ => cvtF f g md a) x 0 0, false)
    else (cvtF f g md (x.toNat % 2 ^ f.bits), decide (g.bits = 16))
  | some f, _, _, some (w, signed) =>
    let r := toIntF f md w signed (x.toNat % 2 ^ f.bits)
    (((intLane w signed (atType w signed r.1)).toNat, r.2), false)
  | _, some g, some (w, signed), _ => (ofIntF g md (atType w signed x.toNat), decide (g.bits = 16))
  | _, _, _, _ => ((0, 0), false)

/-- Whether vcvt has a pairing of types: a floating-point type on one side, an integer of at most a lane at most on the other. -/
def cvtOk (src dst : Nat) : Bool :=
  ((floatType src).isSome && ((floatType dst).isSome || (laneInt dst).isSome)) || ((laneInt src).isSome && (floatType dst).isSome)

/-- vcvt from type FN to type T; the upper half of a lane that receives one 16-bit value is a free value (log entry 12). -/
def vcvtBody (x : CellItem) (s : State) (c : Cell) : CellOut :=
  if !cvtOk x.fn x.t then .exc s c 2
  else
    let rs := (List.range 64).map fun k =>
      let r := cvtLane (modeOf c.status) x.fn x.t ((vreg c x.a).getD k 0)
      if r.2 then (r.1.1 + (Config.freeWord (s.freeCtr + k)).toNat % 2 ^ 16 * 2 ^ 16, r.1.2) else r.1
    .ok { s with freeCtr := s.freeCtr + 64 } (writeF c x rs)

def execVcvt (x : CellItem) (s : State) : Host.Outcome State Fault Refusal := cellItem x 0 (vcvtBody x) s

/-! ### Comparison, selection, predicates -/

/-- A comparison of two values of a floating-point type: the condition, and INVALID for a signalling NaN. -/
def fcmp (f : Fmt) (fn a b : Nat) : Bool × Nat :=
  let x := decodeF f a
  let y := decodeF f b
  let un := decide (x = .nan) || decide (y = .nan)
  (condHolds fn (if un then 0 else cmpNum x y) un, sigFlag f a ||| sigFlag f b)

/-- Bit of one lane of vcmp: the condition in both halves of a packed lane, which may differ. -/
def cmpLane (t fn : Nat) (a b : BitVec 32) : Bool × Bool × Nat :=
  match floatType t, laneInt t with
  | some f, _ =>
    if f.bits = 32 then let r := fcmp f fn a.toNat b.toNat; (r.1, r.1, r.2)
    else
      let l := fcmp f fn (a.toNat % 65536) (b.toNat % 65536)
      let h := fcmp f fn (a.toNat / 65536) (b.toNat / 65536)
      (l.1, h.1, l.2 ||| h.2)
  | _, some (w, signed) =>
    let r := condHolds fn (ordInt (atType w signed a.toNat) (atType w signed b.toNat)) false
    (r, r, 0)
  | _, _ => (false, false, 0)

/-- A predicate from 64 bits. -/
def predOf (bs : List Bool) : Word := BitVec.ofNat 64 ((bs.zipIdx.map fun x => b2n x.1 * 2 ^ x.2).sum)

/-- vcmp: pD bit i under the predicate; where the two halves of a packed lane disagree the bit is a free value (log entry 12). -/
def vcmpBody (x : CellItem) (s : State) (c : Cell) : CellOut :=
  if 7 < x.d ∨ 5 < x.fn ∨ ((floatType x.t).isNone ∧ (laneInt x.t).isNone) then .exc s c 2
  else
    let rs := (List.range 64).map fun i => cmpLane x.t x.fn ((vreg c x.a).getD i 0) ((vreg c x.b).getD i 0)
    let p := preg c x.p
    let bs := rs.zipIdx.map fun r =>
      if bitOf p.toNat r.2 then (if r.1.1 = r.1.2.1 then r.1.1 else bitOf s.draw.1.toNat r.2)
      else if x.pz then false else bitOf (preg c x.d).toNat r.2
    .ok s.draw.2 (raise (setP c x.d (predOf bs)) (laneFlags p (rs.map fun r => (0, r.2.2))))

def execVcmp (x : CellItem) (s : State) : Host.Outcome State Fault Refusal := cellItem x 0 (vcmpBody x) s

/-- vsel: pP selects, lane by lane. -/
def vselCell (x : CellItem) (c : Cell) : Cell :=
  setV c x.d ((List.range 64).map fun i =>
    if bitOf (preg c x.p).toNat i then (vreg c x.a).getD i 0 else (vreg c x.b).getD i 0)

def execVsel (x : CellItem) (s : State) : Host.Outcome State Fault Refusal := regItem x 0 (vselCell x) s

/-- plog: pD = pA op pB. -/
def plogBody (x : CellItem) (c : Cell) : Option Cell :=
  if 7 < x.d ∨ 7 < x.a ∨ 4 < x.fn ∨ (x.fn ≠ 4 ∧ 7 < x.b) then none
  else
    let a := preg c x.a
    let b := preg c x.b
    some (setP c x.d (if x.fn = 0 then a &&& b else if x.fn = 1 then a ||| b else if x.fn = 2 then a ^^^ b
      else if x.fn = 3 then a &&& ~~~ b else ~~~ a))

def execPlog (x : CellItem) (s : State) : Host.Outcome State Fault Refusal := checkedItem x 0 (plogBody x) s

def execVperm (x : CellItem) (s : State) : Host.Outcome State Fault Refusal :=
  regItem x 0 (fun c => writeV c x ((List.range 64).map fun i => (vreg c x.a).getD (((vreg c x.b).getD i 0).toNat % 64) 0)) s

/-! ### Reductions (R218) -/

/-- One level of the tree. -/
def sumLevel (md : RMode) : List Nat → List Nat × Nat
  | a :: b :: r =>
    let x := fAdd fmt32 md a b
    let y := sumLevel md r
    (x.1 :: y.1, x.2 ||| y.2)
  | l => (l, 0)

/-- `n` levels of the tree. -/
def sumTree (md : RMode) : Nat → List Nat → List Nat × Nat
  | 0, l => (l, 0)
  | n + 1, l =>
    let x := sumLevel md l
    let y := sumTree md n x.1
    (y.1, x.2 ||| y.2)

/-- The lanes as binary32 with predicated-off lanes replaced. -/
def redLanes (c : Cell) (x : CellItem) (off : Nat) : List Nat :=
  (List.range 64).map fun i => if bitOf (preg c x.p).toNat i then ((vreg c x.a).getD i 0).toNat else off

/-- vred.add. -/
def vredAddCell (x : CellItem) (c : Cell) : Cell :=
  let r := sumTree (modeOf c.status) 6 (redLanes c x 0x80000000)
  raise (setS c x.d (BitVec.ofNat 64 (r.1.headD 0))) r.2

def execVredAdd (x : CellItem) (s : State) : Host.Outcome State Fault Refusal := regItem x 0 (vredAddCell x) s

/-- vred.max. -/
def vredMaxCell (x : CellItem) (c : Cell) : Cell :=
  let r := (redLanes c x 0xFF800000).foldl (fun (a : FRes) l => withFlags (fMinMax fmt32 true a.1 l) (a.2 ||| sigFlag fmt32 l))
    (0xFF800000, 0)
  raise (setS c x.d (BitVec.ofNat 64 r.1)) r.2

def execVredMax (x : CellItem) (s : State) : Host.Outcome State Fault Refusal := regItem x 0 (vredMaxCell x) s

/-! ### Defined functions (R219) -/

/-- A defined function on every lane, RNE whatever RM holds. -/
def defItem (x : CellItem) (op : Fmt → RMode → Nat → FRes) (s : State) : Host.Outcome State Fault Refusal :=
  checkedItem x 0 (fun c => (floatType x.t).map fun f =>
    writeF c x (laneOp f (fun a _ _ => op f (rneOf c.status) a) (vreg c x.a) lanes0 lanes0)) s

def execVexp2 (x : CellItem) (s : State) : Host.Outcome State Fault Refusal := defItem x fExp2 s

def execVrcp (x : CellItem) (s : State) : Host.Outcome State Fault Refusal := defItem x fRcp s

def execVrsqrt (x : CellItem) (s : State) : Host.Outcome State Fault Refusal := defItem x fRsqrt s

/-! ### Lane gather and scatter (R242, R260) -/

/-- ELEM of the status register (R239). -/
def elemOf (c : Cell) : Nat := bits c.status.toNat 38 6

/-- Writes ELEM. -/
def setElem (c : Cell) (n : Nat) : Cell := { c with status := putField c.status 38 6 n }

/-- The lane at which the item starts: ELEM when eret resumes it, else 0. -/
def firstLane (c : Cell) : Nat := if c.epc = c.pc then elemOf c else 0

/-- Addresses of the lanes that act, from a lane on, ascending. -/
def laneAddrs (c : Cell) (x : CellItem) : List (Nat × Nat) :=
  ((List.range 64).filter fun i => decide (firstLane c ≤ i) && bitOf (preg c x.p).toNat i).map fun i =>
    (i, ((vreg c x.a).getD i 0).toNat)

/-- The first lane that faults, with its code: access, alignment, or for a load a machine check. -/
def laneFault (c : Cell) (load : Bool) (l : List (Nat × Nat)) : Option (Nat × Nat × Nat) :=
  l.findSome? fun x =>
    let e := accessCode x.2 4 4
    if e ≠ 0 then some (x.1, x.2, e)
    else if load && c.poison.contains (x.2 / 16) then some (x.1, x.2, 5) else none

/-- Ends a lane item: ELEM records a faulting lane, and is clear again when a resumed item completes. -/
def laneEnd (s : State) (n : Nat) (c c' : Cell) : Option (Nat × Nat × Nat) → CellOut
  | none => .ok s (if firstLane c = 0 then c' else setElem c' 0)
  | some (i, a, code) => .exc (if code = 5 then memError s n a else s) (setElem c' i) code

/-- vgth: the words at the lane addresses; lanes whose predicate bit is 0 as R234 has them. -/
def vgthBody (x : CellItem) (s : State) (c : Cell) : CellOut :=
  let l := laneAddrs c x
  let f := laneFault c true l
  let stop := (f.map (·.1)).getD 64
  let l := l.filter fun (y : Nat × Nat) => decide (y.1 < stop)
  if l.any fun y => mustWait (cellModel s c) c y.2 4 false then .wait s c
  else
    let lanes := (List.range 64).map fun k =>
      match l.find? fun y => y.1 = k with
      | some y => BitVec.ofNat 32 (rdLE c.mem y.2 4)
      | none => if x.pz && decide (k < stop) && !bitOf (preg c x.p).toNat k then 0 else (vreg c x.d).getD k 0
    let weak := (l.filter fun y => c.weak.contains (y.2 / 16)).length
    laneEnd (memCorrected s x.cell ((l.headD (0, 0)).2) weak) x.cell c (setV c x.d lanes) f

def execVgth (x : CellItem) (s : State) : Host.Outcome State Fault Refusal := cellItem x 0 (vgthBody x) s

/-- vsct: lane i of vB at the lane's address; the higher lane stands. -/
def vsctBody (x : CellItem) (s : State) (c : Cell) : CellOut :=
  let l := laneAddrs c x
  let f := laneFault c false l
  let stop := (f.map (·.1)).getD 64
  let l := l.filter fun (y : Nat × Nat) => decide (y.1 < stop)
  if l.any fun y => mustWait (cellModel s c) c y.2 4 true then .wait s c
  else
    let c' := l.foldl (fun c' y => cellWrite c' y.2 (leBytes 4 ((vreg c x.b).getD y.1 0).toNat)) c
    laneEnd s x.cell c c' f

def execVsct (x : CellItem) (s : State) : Host.Outcome State Fault Refusal := cellItem x 0 (vsctBody x) s

end Sys2Proof.Machine
end

