-- ==== Sys2Proof/Machine/CellTensor.lean ====
section
/-! DEFINITION. Tensor and wide-accumulator items of the cell profile (06 R203 to R207, R212 to R216, R220 to R225, R609; 07
R241, R242). -/

namespace Sys2Proof.Machine

/-! ### tmma (R213 to R216, R609) -/

/-- Class of an operand type: 1 IEEE 16-bit, 2 MX of 8 or 6 bits, 3 MX of 4 bits, 4 T2A4, 0 none of them (R214). -/
def tmmaClass (t : Nat) : Nat :=
  if t = 1 ∨ t = 2 then 1 else if t = 7 ∨ t = 9 then 3 else if 3 ≤ t ∧ t ≤ 8 then 2 else if t = 10 then 4 else 0

/-- Whether tmma accepts a pair of operand types (R214). -/
def tmmaPair (a b : Nat) : Bool :=
  let x := tmmaClass a
  let y := tmmaClass b
  (x == 1 && y == 1) || ((x == 2 || x == 3) && (y == 2 || y == 3 || y == 4))

/-- An element under its block's scale: a scale of 255 makes it NaN (R203). -/
def scaleNum (sc : Nat) (x : Num) : Num :=
  if sc = 255 then .nan
  else match x with
    | .fin neg m e => .fin neg m (e + sc - 127)
    | y => y

/-- Whether blocks of a type take their scales from a scale register: MX formats. -/
def hasScales (t : Nat) : Bool := tmmaClass t == 2 || tmmaClass t == 3

/-- The scale of a block: from its scale byte, from byte 7 of a T2A4 block, 1 for an IEEE type. -/
def blockScale (t : Nat) (bs : List Byte) (sc : Nat) : Nat :=
  if hasScales t then sc else if t = 10 then (bs.getD 7 0).toNat else 127

/-- Block `i` of an operand: its 32 values and the flags that reading it sets. -/
def operandBlock (t : Nat) (elems scales : List Byte) (i : Nat) : List Num × Nat :=
  let bs := (elems.drop (i * blockBytes t)).take (blockBytes t)
  let d := decodeBlock t bs
  (d.1.map (scaleNum (blockScale t bs (scales.getD i 0).toNat)), d.2)

/-- A finite term: sign, magnitude, exponent. -/
def finPart : Num → Bool × Nat × Int
  | .fin neg m e => (neg, m, e)
  | _ => (false, 0, 0)

/-- The exact sum of finite terms; a zero sum is −0 only when every term is −0 (R609). -/
def exactSum (ps : List Num) : Num :=
  let fs := ps.map finPart
  let e := fs.foldl (fun a x => min a x.2.2) 0
  let v := (fs.map fun x => smant x.1 (x.2.1 * 2 ^ (x.2.2 - e).toNat)).sum
  if v = 0 then .fin (fs.all fun x => x.1 && decide (x.2.1 = 0)) 0 0 else .fin (decide (v < 0)) v.natAbs e

/-- The dot product of two blocks: exact, or NaN or an infinity, and INVALID (R215). -/
def dotBlock (a b : List Num) : Num × Nat :=
  let ps := (a.zip b).map fun x => mulNum x.1 x.2
  let bad := ps.any fun p => p.2 ≠ 0
  let pos := ps.any fun p => p.1 = .inf false
  let neg := ps.any fun p => p.1 = .inf true
  let inv := bad || (pos && neg)
  if inv || ps.any fun p => p.1 = .nan then (.nan, if inv then fINVALID else 0)
  else if pos then (.inf false, 0)
  else if neg then (.inf true, 0)
  else (exactSum (ps.map (·.1)), 0)

/-- One block step of tmma on a tile: every element takes one block's dot product, rounded once. -/
def tmmaStep (md : RMode) (rows cols : List (List Num × Nat)) (tile : List (BitVec 32)) : List FRes :=
  (List.range 1024).map fun i =>
    let a := rows.getD (i / 64) ([], 0)
    let b := cols.getD (i % 64) ([], 0)
    let d := dotBlock a.1 b.1
    let t := (tile.getD i 0).toNat
    withFlags (addNum fmt32 md (decodeF fmt32 t) d.1) (d.2 ||| a.2 ||| b.2 ||| sigFlag fmt32 t)

/-- tmma from block `b` on, in ascending order; the tile and the flags raised. -/
def tmmaRun (md : RMode) (row col : Nat → List (List Num × Nat)) : Nat → Nat → List (BitVec 32) × Nat → List (BitVec 32) × Nat
  | 0, _, r => r
  | n + 1, b, r =>
    let x := tmmaStep md (row b) (col b) r.1
    tmmaRun md row col n (b + 1) (x.map fun y => BitVec.ofNat 32 y.1, x.foldl (fun a y => a ||| y.2) r.2)

/-- The first access or alignment code of a list of accesses (address, length, alignment). -/
def firstCode (l : List (Nat × Nat × Nat)) : Nat :=
  (l.findSome? fun x => let e := accessCode x.1 x.2.1 x.2.2; if e ≠ 0 then some e else none).getD 0

/-- tmma on tile D. -/
def tmmaBody (x : CellItem) (s : State) (c : Cell) : CellOut :=
  let nb := (sreg c x.c).toNat
  if 7 < x.d ∨ nb = 0 ∨ !tmmaPair x.fn x.t then .exc s c 2
  else
    let a := (sreg c x.a).toNat
    let b := (sreg c x.b).toNat
    let sa := (sreg c (bits x.w1.toNat 0 5)).toNat
    let sb := (sreg c (bits x.w1.toNat 5 5)).toNat
    let la := 16 * nb * blockBytes x.fn
    let lb := 64 * nb * blockBytes x.t
    let na := if hasScales x.fn then 16 * nb else 0
    let nbs := if hasScales x.t then 64 * nb else 0
    let e := firstCode [(a, la, 16), (b, lb, 16), (if na = 0 then 0 else sa, na, 1), (if nbs = 0 then 0 else sb, nbs, 1)]
    if e ≠ 0 then .exc s c e
    else
      cellLoad s x.cell c a la 16 fun s as =>
      cellLoad s x.cell c b lb 16 fun s bs =>
      cellLoad s x.cell c (if na = 0 then 0 else sa) na 1 fun s sas =>
      cellLoad s x.cell c (if nbs = 0 then 0 else sb) nbs 1 fun s sbs =>
        let row := fun (k : Nat) => (List.range 16).map fun m => operandBlock x.fn as sas (m * nb + k)
        let col := fun (k : Nat) => (List.range 64).map fun m => operandBlock x.t bs sbs (m * nb + k)
        let k := c.tmma.getD 0
        let r := tmmaRun (rneOf c.status) row col (nb - k) k (treg c x.d, 0)
        .ok s { raise (setT c x.d r.1) r.2 with tmma := none }

def execTmma (x : CellItem) (s : State) : Host.Outcome State Fault Refusal := cellItem x 1 (tmmaBody x) s

/-! ### Tiles in cell memory -/

/-- A tile number (R189). -/
def tileOk (x : CellItem) : Bool := decide (x.d ≤ 7)

def execTzero (x : CellItem) (s : State) : Host.Outcome State Fault Refusal :=
  checkedItem x 0 (fun c => if tileOk x then some (setT c x.d tile0) else none) s

/-- tld: 4 KiB of binary32 at sA, row-major. -/
def tldBody (x : CellItem) (s : State) (c : Cell) : CellOut :=
  if !tileOk x then .exc s c 2
  else cellLoad s x.cell c (sreg c x.a).toNat 4096 256 fun s bs =>
    .ok s (setT c x.d ((chunks 4 1024 bs).map fun l => BitVec.ofNat 32 (leNat l)))

def execTld (x : CellItem) (s : State) : Host.Outcome State Fault Refusal := cellItem x 0 (tldBody x) s

/-- tst. -/
def tstBody (x : CellItem) (s : State) (c : Cell) : CellOut :=
  if !tileOk x then .exc s c 2
  else cellStore s c (sreg c x.a).toNat 256 ((treg c x.d).flatMap fun v => leBytes 4 v.toNat)

def execTst (x : CellItem) (s : State) : Host.Outcome State Fault Refusal := cellItem x 0 (tstBody x) s

/-- The 32 blocks of a tile, two a row (R212, R241). -/
def tileBlocks (t : Nat) (tile : List (BitVec 32)) : List (Nat × List Nat × Nat) :=
  (List.range 32).map fun i => quantBlock t (((tile.drop (32 * i)).take 32).map (·.toNat))

/-- tmx: elements at sA, scales at sB. -/
def tmxBody (x : CellItem) (s : State) (c : Cell) : CellOut :=
  if !tileOk x || !hasScales x.t then .exc s c 2
  else
    let a := (sreg c x.a).toNat
    let b := (sreg c x.b).toNat
    let n := 32 * blockBytes x.t
    let e := firstCode [(a, n, 16), (b, 32, 1)]
    if e ≠ 0 then .exc s c e
    else if mustWait (cellModel s c) c a n true || mustWait (cellModel s c) c b 32 true then .wait s c
    else
      let q := tileBlocks x.t (treg c x.d)
      let c := cellWrite c a (q.flatMap fun y => packElems x.t y.2.1)
      let c := cellWrite c b (q.map fun y => BitVec.ofNat 8 y.1)
      .ok s (raise c (q.foldl (fun f y => f ||| y.2.2) 0))

def execTmx (x : CellItem) (s : State) : Host.Outcome State Fault Refusal := cellItem x 0 (tmxBody x) s

/-! ### Wide accumulators (R220 to R225) -/

/-- Flags of an accumulator (R208): NAN, PINF, NINF, OVF. -/
def wNAN : Nat := 1
def wPINF : Nat := 2
def wNINF : Nat := 4
def wOVF : Nat := 8

/-- Sets flags of an accumulator. -/
def orWflags (c : Cell) (j f : Nat) : Cell := setWflags c j (wflags c j ||| f)

/-- wclr. -/
def wclrCell (x : CellItem) (c : Cell) : Option Cell :=
  if 3 < x.d then none else some (setWflags (setW c x.d (wide0 (sgn x.imm.toNat 9))) x.d 0)

def execWclr (x : CellItem) (s : State) : Host.Outcome State Fault Refusal := checkedItem x 0 (wclrCell x) s

/-- An addend on the grid of binary point B: the integer added, and the accumulator's flags (R221, R222). -/
def gridAddend (b : Int) : Num → Int × Nat
  | .nan => (0, wNAN)
  | .inf neg => (0, if neg then wNINF else wPINF)
  | .fin neg m e =>
    let r := (roundShift 0 neg m (-(e + b)) false).1
    if 2 ^ 175 ≤ r then (0, wOVF) else (smant neg r, 0)

/-- Adds 64 addends, each with its arithmetic flags, to an accumulator. -/
def wideAdd (c : Cell) (j : Nat) (ps : List (Num × Nat)) : Cell :=
  let w := wreg c j
  let gs := ps.map fun p => gridAddend w.b p.1
  let c := setW c j { w with lanes := (List.range 64).map fun k => w.lanes.getD k 0 + BitVec.ofInt 192 (gs.getD k (0, 0)).1 }
  raise (orWflags c j (gs.foldl (fun a y => a ||| y.2) 0)) (ps.foldl (fun a p => a ||| p.2) 0)

/-- wadd.f32: every lane. -/
def waddCell (x : CellItem) (c : Cell) : Option Cell :=
  if 3 < x.d then none
  else some (wideAdd c x.d ((List.range 64).map fun i =>
    let v := ((vreg c x.a).getD i 0).toNat
    (decodeF fmt32 v, sigFlag fmt32 v)))

def execWaddF32 (x : CellItem) (s : State) : Host.Outcome State Fault Refusal := checkedItem x 0 (waddCell x) s

/-- wmac.f32: the exact product of every lane. -/
def wmacCell (x : CellItem) (c : Cell) : Option Cell :=
  if 3 < x.d then none
  else some (wideAdd c x.d ((List.range 64).map fun i =>
    let a := ((vreg c x.a).getD i 0).toNat
    let b := ((vreg c x.b).getD i 0).toNat
    let p := mulNum (decodeF fmt32 a) (decodeF fmt32 b)
    (p.1, p.2 ||| sigFlag fmt32 a ||| sigFlag fmt32 b)))

def execWmacF32 (x : CellItem) (s : State) : Host.Outcome State Fault Refusal := checkedItem x 0 (wmacCell x) s

/-- One lane of wcvt (R223). -/
def wcvtLane (f : Fmt) (md : RMode) (fl : Nat) (b : Int) (n : BitVec 192) : FRes :=
  let v := n.toInt
  let neg := decide (v < 0)
  if bitOf fl 0 || (bitOf fl 1 && bitOf fl 2) then (nanBits f, 0)
  else if bitOf fl 1 then (infBits f false, 0)
  else if bitOf fl 2 then (infBits f true, 0)
  else if bitOf fl 3 || decide (v < -(2 ^ 175)) || decide (2 ^ 175 ≤ v) then
    (if md.sat then maxBits f neg else infBits f neg, fOVERFLOW ||| fINEXACT)
  else roundTo f md neg v.natAbs (-b)

/-- wcvt to type T; the upper half of a lane that receives one 16-bit value is a free value (log entry 12). -/
def wcvtBody (x : CellItem) (s : State) (c : Cell) : CellOut :=
  if 3 < x.a then .exc s c 2
  else match floatType x.t with
    | none => .exc s c 2
    | some f =>
      let w := wreg c x.a
      let rs := (List.range 64).map fun k =>
        let r := wcvtLane f (modeOf c.status) (wflags c x.a) w.b (w.lanes.getD k 0)
        if f.bits = 16 then (r.1 + (Config.freeWord (s.freeCtr + k)).toNat % 2 ^ 16 * 2 ^ 16, r.2) else r
      .ok { s with freeCtr := s.freeCtr + 64 } (writeF c x rs)

def execWcvt (x : CellItem) (s : State) : Host.Outcome State Fault Refusal := cellItem x 0 (wcvtBody x) s

/-- Cell-memory address of a receive slot (R192, log entry 16). -/
def recvAddr (i : Nat) : Nat := 0x3F4000 + wideBytes * i

/-- A wide record's B and flags, and its lanes (R224). -/
def recordOf (bs : List Byte) : Int × Nat × List (BitVec 192) :=
  let h := leNat (bs.take 8)
  (sgn (bits h 0 9) 9, bits h 9 4, (chunks 24 64 (bs.drop 8)).map fun l => BitVec.ofNat 192 (leNat l))

/-- An accumulator and its flags as a wide record stamped with the sender's instar (R224). -/
def recordBytes (w : Wide) (fl inst : Nat) : List Byte :=
  leBytes 8 ((w.b % 512).toNat + fl * 2 ^ 9 + inst * 2 ^ 16) ++ w.lanes.flatMap fun l => leBytes 24 l.toNat

/-- Merges a record into an accumulator. -/
def mergeRecord (c : Cell) (j : Nat) (r : Int × Nat × List (BitVec 192)) : Cell :=
  let w := wreg c j
  if r.1 ≠ w.b then raise (orWflags c j wNAN) fINVALID
  else orWflags (setW c j { w with lanes := (List.range 64).map fun k => w.lanes.getD k 0 + r.2.2.getD k 0 }) j r.2.1

/-- A message, completion or record from a sender that has since been reset: discarded, counted, reported (13 R507). -/
def staleMessage (s : State) (source stale : Nat) : State :=
  fault (s.incSat FLT_STALE_COUNT 1) source 0x08 0 (BitVec.ofNat 64 stale)

/-- Whether the record in a receive slot came from a cell whose instar has changed since (08, 13 R507). -/
def recvStale (s : State) (c : Cell) (i : Nat) : Bool :=
  match mget c.recv i with
  | some r => decide (cellInstar s r.1 ≠ r.2)
  | none => false

/-- wmrg: the record in receive slot IMM; a stale record is discarded before it. -/
def wmrgBody (x : CellItem) (s : State) (c : Cell) : CellOut :=
  if 3 < x.d ∨ 30 < x.imm.toNat then .exc s c 2
  else
    let a := recvAddr x.imm.toNat
    if recvStale s c x.imm.toNat then
      .ok (staleMessage s (cellSource s x.cell) (((mget c.recv x.imm.toNat).getD (0, 0)).2)) { c with recv := mdel c.recv x.imm.toNat }
    else if (memUnits a wideBytes).any (c.poison.contains ·) then .exc (memError s x.cell a) c 5
    else .ok (memCorrected s x.cell a ((memUnits a wideBytes).countP (c.weak.contains ·)))
      (mergeRecord c x.d (recordOf (rdBytes c.mem a wideBytes)))

def execWmrg (x : CellItem) (s : State) : Host.Outcome State Fault Refusal := cellItem x 0 (wmrgBody x) s

end Sys2Proof.Machine
end

