-- ==== Sys2Proof/Machine/CellDma.lean ====
section
/-! DEFINITION. DMA descriptors of the cell profile (07 R236, R237, R247, R248, R253 to R259; 08 R294 to R303; 12 R480), and
lgt.send (09 R325). -/

namespace Sys2Proof.Machine

/-! ### Memory outside the cell -/

/-- Frames of the sessions in the galley a cell works on: its access windows beside the model image (R237). -/
def galleyFrames (s : State) (c : Cell) : List Nat :=
  match (s.slice (4 * c.part + c.slice)).running with
  | none => []
  | some g => g.recs.flatMap fun r => match s.ses? r.index with | some e => e.frames | none => []

/-- Whether a range of local HBM lies in a cell's access windows (R237). -/
def inWindows (s : State) (c : Cell) (a len : Nat) : Bool :=
  (match cellModel s c with
   | some m => decide (m.source = 1) && decide (spaceOf m.addr = 0) && decide (bits m.addr.toNat 0 39 ≤ a) &&
       decide (a + len ≤ bits m.addr.toNat 0 39 + m.imageBytes)
   | none => false) ||
  ((List.range ((a % pageBytes + len + pageBytes - 1) / pageBytes)).all fun i => (galleyFrames s c).contains (a / pageBytes + i))

/-- What an access outside the cell answers: the state, a status, 0 for none, and the bytes read. -/
abbrev ExtRes := State × Nat × List Byte

/-- The remote-map entry of a cell's slice for a device: valid, and on a queue pair the slice owns (12 R480, R490). -/
def remoteMap (s : State) (c : Cell) (dev : Nat) : Option Nat :=
  if c.slice < 4 then
    let sl := 4 * c.part + c.slice
    (List.range 64).findSome? fun i =>
      let q := s.fld (FAB_RMAP_QP sl i)
      if s.flag (FAB_RMAP_VALID sl i) && decide (s.fld (FAB_RMAP_DEVICE sl i) = dev) &&
          (match mget s.fab.qps q with | some x => decide (x.ownerKind = 1) && decide (x.owner = sl) | none => false) then some q
      else none
  else none

/-- Records an error in a queue pair. -/
def qpError (s : State) (q st : Nat) : State :=
  match mget s.fab.qps q with
  | none => s
  | some x => { s with fab := { s.fab with qps := mset s.fab.qps q { x with lastError := st } } }

/-- A remote access with no mapping: the error shows in the queue pair an entry for the device names (12 R480). -/
def noMapping (s : State) (c : Cell) (dev : Nat) : State :=
  let sl := 4 * c.part + c.slice
  match (List.range 64).find? fun i => s.fld (FAB_RMAP_DEVICE sl i) = dev && decide (c.slice < 4) with
  | some i => qpError s (s.fld (FAB_RMAP_QP sl i)) 0x9011
  | none => s

/-- The way of a remote access (12 R480, R473): a status, 0 where it goes. -/
def remoteWay (s : State) (c : Cell) (dev : Nat) : State × Nat :=
  match remoteMap s c dev with
  | none => (noMapping s c dev, 0x5023)
  | some q =>
    match mget s.fab.qps q with
    | some x => if x.state = .ready ∧ x.peerDev = dev then (s, 0) else (qpError s q 0x9004, 0x5023)
    | none => (s, 0x5023)

/-- The frames of HBM that hold poisoned data in a range are marked PIED (08 R289). -/
def piedRange (s : State) (a len : Nat) : State :=
  ((hbmUnits a len).filter (s.hbmBad.contains ·)).foldl (fun s u => piedFrame s (u / 512)) s

/-- A read outside the cell (R236, R237). -/
def extRead (s : State) (c : Cell) (a : Word) (len : Nat) : ExtRes :=
  if !addrOk a false then (s, 0x5020, [])
  else match spaceOf a with
    | 0 =>
      let b := bits a.toNat 0 39
      if !inWindows s c b len then (s, 0x5021, [])
      else if hbmPoisoned s b len then (piedRange s b len, 0x5025, [])
      else (s, 0, rdBytes s.hbm b len)
    | 1 =>
      let o := s.cell (bits a.toNat 22 11)
      let b := bits a.toNat 0 22
      if cellBytes < b + len then (s, 0x5020, [])
      else if (memUnits b len).any (o.poison.contains ·) then (s, 0x5025, [])
      else (s, 0, rdBytes o.mem b len)
    | _ =>
      let d := bits a.toNat 44 16
      let w := remoteWay s c d
      if w.2 ≠ 0 then (w.1, w.2, [])
      else ({ s with freeCtr := s.freeCtr + 1 }, 0, Config.remoteBytes d (bits a.toNat 0 39) len s.freeCtr)

/-- The recurrent-state write of a record: its session's half that is not committed was written (08 R310). -/
def markRecur (f : Nat) (s : State) (r : Rec) : Rec :=
  match s.ses? r.index with
  | none => r
  | some e =>
    let half := e.recur.length / 2
    if e.recur.any fun x => decide (refIndex x.2 = f) && decide (refLoc x.2 = 1) && (decide (half ≤ x.1) != e.cur) then
      { r with recurWritten := true }
    else r

/-- Marks the records whose standby half a write of a frame reaches. -/
def recurWrite (s : State) (c : Cell) (f : Nat) : State :=
  let sl := 4 * c.part + c.slice
  match (s.slice sl).running with
  | none => s
  | some g => s.setSlice sl { s.slice sl with running := some { g with recs := g.recs.map (markRecur f s) } }

/-- A write outside the cell (R236, R237). -/
def extWrite (s : State) (c : Cell) (a : Word) (bs : List Byte) : State × Nat :=
  if !addrOk a false then (s, 0x5020)
  else match spaceOf a with
    | 0 =>
      let b := bits a.toNat 0 39
      if !inWindows s c b bs.length then (s, 0x5021)
      else (recurWrite (hbmWrite s b bs) c (b / pageBytes), 0)
    | 1 =>
      let n := bits a.toNat 22 11
      let b := bits a.toNat 0 22
      if cellBytes < b + bs.length then (s, 0x5020)
      else (s.setCell n (cellWrite (s.cell n) b bs), 0)
    | _ => remoteWay s c (bits a.toNat 44 16)

/-! ### Walk and append (08 R294 to R303) -/

/-- The session whose list pages a root reference names, found through OWNER of its frame (R288). -/
def rootOwner (s : State) (root : Word) : Option Nat :=
  match s.frame (refIndex root) with
  | some f => if refValid root && decide (refLoc root = 1) && decide (f.kind = 2) then some f.crc else none
  | none => none

/-- The page reference a walk or append finds for an entry of a list: 0 KV, 1 committed half, 2 other half; a reference that
names no page is zero. -/
def entryRef (s : State) (m : Model) (root : Word) (list e : Nat) : Word :=
  match (rootOwner s root).bind s.ses? with
  | none => 0
  | some x =>
    if list = 0 then (if x.kvRoot = root then (mget x.kv e).getD 0 else 0)
    else if x.recurRoot = root then
      (mget x.recur (e + if (decide (list = 1)) = x.cur then m.recurHalf else 0)).getD 0
    else 0

/-- The checks of R296 on an entry, but for the data itself: the status of the first that fails, or 0. -/
def walkCheck (s : State) (c : Cell) (m : Model) (list e : Nat) (r : Word) (refsOnly : Bool) : Nat :=
  if (if list = 0 then 4194304 else m.recurHalf) ≤ e then 0x5032
  else if !refValid r then 0x5030
  else if refLoc r ≠ 1 then 0x5031
  else if refsOnly then 0
  else if !(galleyFrames s c).contains (refIndex r) then 0x5021
  else match s.frame (refIndex r) with
    | none => 0x5033
    | some f => if f.kind ≠ (if list = 0 then 1 else 3) then 0x5033 else if f.pied then 0x5035 else 0

/-- First byte and length that a PART of a page takes (R295). -/
def partRange (m : Model) (part : Nat) : Nat × Nat :=
  let v0 := (kvGeometry m).1
  if part = 0 then (0, pageBytes) else if part = 1 then (0, v0) else (v0, v0)

/-- Page `i` of a walk: what it leaves in cell memory (R295, R296). -/
def walkPage (s : State) (c : Cell) (m : Model) (d : Desc) (i : Nat) : ExtRes :=
  let w := d.word4.toNat
  let e := bits w 0 32 + i * bits w 32 16
  let r := entryRef s m d.remote (bits w 50 2) e
  let part := bits w 48 2
  let st := walkCheck s c m (bits w 50 2) e r (decide (part = 3))
  if st ≠ 0 then (s, st, [])
  else if part = 3 then (s, 0, leBytes 8 r.toNat)
  else
    let a := refIndex r * pageBytes + (partRange m part).1
    let n := (partRange m part).2
    if hbmPoisoned s a n then (piedFrame s (refIndex r), 0x5025, []) else (s, 0, rdBytes s.hbm a n)

/-- The record of a session in the galley a cell works on: its place and itself. -/
def recordFor (s : State) (c : Cell) (i : Nat) : Option (Nat × Rec) :=
  match (s.slice (4 * c.part + c.slice)).running with
  | none => none
  | some g => (g.recs.zipIdx.find? fun x => decide (x.1.index = i) && !x.1.void).map fun x => (x.2, x.1)

/-- One frame drawn from a record's reservation (R293, R299). -/
def drawFrame (s : State) (sl k : Nat) (kind near owner : Nat) : Option (Nat × State) :=
  match recAt s sl k with
  | none => none
  | some r =>
    if r.reserved = 0 then none
    else allocFrame (returnReserve (setRec s sl k { r with reserved := r.reserved - 1 }) r.context 1) r.context kind near owner

/-- The list page of an entry, allocated where it is missing (R299). -/
def ensureList (s : State) (sl k near i e : Nat) : Option State :=
  match s.ses? i with
  | none => none
  | some x =>
    if (mget x.listFrames (2 + e / 2048)).isSome then some s
    else match drawFrame s sl k 2 near i with
      | none => none
      | some (f, s) =>
        match s.ses? i with
        | none => none
        | some x => some (s.setSes i { x with listFrames := mset x.listFrames (2 + e / 2048) f })

/-- The private page of an entry that an append may write: allocated where there is none, copied where it is shared (R299,
R303); the reference, or the status. -/
def appendPage (s : State) (c : Cell) (m : Model) (n i k e : Nat) : State × Except Nat Word :=
  let sl := 4 * c.part + c.slice
  let near := n / 160
  match s.ses? i with
  | none => (s, .error 0x5030)
  | some x =>
    let r := (mget x.kv e).getD 0
    if 4194304 ≤ e then (s, .error 0x5032)
    else if refValid r then
      let st := walkCheck s c m 0 e r false
      if st ≠ 0 then (s, .error st)
      else if hbmPoisoned s (refIndex r * pageBytes) pageBytes && refShared r then (piedFrame s (refIndex r), .error 0x5025)
      else if refShared r then
        match drawFrame s sl k 1 near i with
        | none => (s, .error 0x5034)
        | some (f, s) =>
          let s := freeFrame (copyFrame s (refIndex r) f) (refIndex r)
          let r' := pageRef true false 1 0 f
          match s.ses? i with
          | none => (s, .error 0x5030)
          | some x => (s.setSes i ({ x with kv := mset x.kv e r' } : Session).recount, .ok r')
      else (s, .ok r)
    else
      match ensureList s sl k near i e with
      | none => (s, .error 0x5034)
      | some s1 =>
        match drawFrame s1 sl k 1 near i with
        | none => (s, .error 0x5034)
        | some (f, s2) =>
          let r' := pageRef true false 1 0 f
          let s2 := match recAt s2 sl k with
            | some r => setRec s2 sl k { r with newPages := r.newPages ++ [e] }
            | none => s2
          match s2.ses? i with
          | none => (s, .error 0x5030)
          | some x => (s2.setSes i ({ x with kv := mset x.kv e r' } : Session).recount, .ok r')

/-- The bytes of position `q` written into a page: K into rows, V into columns (08 R282, R299). -/
def appendWrite (m : Model) (c : Cell) (d : Desc) (base p q : Nat) (s : State) : State :=
  let w := d.word4.toNat
  let h0 := bits w 48 8
  let hc := bits w 56 8
  let hd := m.headDim
  let ppp := 2 ^ m.log2ppp
  let v0 := (kvGeometry m).1
  let i := p % ppp
  (List.range hc).foldl (fun s j =>
    let src := d.local_ + (q * hc + j) * (4 * hd)
    let s := hbmWrite s (base + 2 * (((h0 + j) * ppp + i) * hd)) (rdBytes c.mem src (2 * hd))
    (List.range hd).foldl (fun s k =>
      hbmWrite s (base + v0 + 2 * (((h0 + j) * hd + k) * ppp + i)) (rdBytes c.mem (src + 2 * hd + 2 * k) 2)) s) s

/-- Position `q` of an append (R299 to R301). -/
def appendPos (s : State) (c : Cell) (m : Model) (n : Nat) (d : Desc) (q : Nat) : State × Nat :=
  let w := d.word4.toNat
  let p := bits w 0 32 + q
  match rootOwner s d.remote with
  | none => (s, 0x5030)
  | some i =>
    match s.ses? i with
    | none => (s, 0x5030)
    | some x =>
      if x.kvRoot ≠ d.remote then (s, 0x5030)
      else if p < x.tokens then (s, 0x5036)
      else match recordFor s c i with
        | none => (s, 0x5034)
        | some (k, _) =>
          let e := p / 2 ^ m.log2ppp * (kvShape m).1 + bits w 32 16
          match appendPage s c m n i k e with
          | (s, .error st) => (s, st)
          | (s, .ok r) =>
            let s := appendWrite m c d (refIndex r * pageBytes) p q s
            match s.ses? i with
            | none => (s, 0)
            | some x => (s.setSes i ({ x with kv := mset x.kv e (refSetDirty r true) } : Session).recount, 0)

/-! ### A descriptor's progress (R255 to R257) -/

/-- What one element moves: DONE afterwards counts `n` more. -/
structure ElemOut where
  s : State
  status : Nat
  n : Nat
  deriving DecidableEq, Repr

/-- Bytes read into cell memory. -/
def intoCell (n a : Nat) (x : ExtRes) : State × Nat :=
  if x.2.1 ≠ 0 then (x.1, x.2.1) else (x.1.setCell n (cellWrite (x.1.cell n) a x.2.2), 0)

/-- Bytes read from the cell's own memory for a transfer outside: poisoned data stops the element (06 R197). -/
def outOfCell (s : State) (c : Cell) (a len : Nat) (k : List Byte → State × Nat) : State × Nat :=
  if (memUnits a len).any (c.poison.contains ·) then (s, 0x5025) else k (rdBytes c.mem a len)

/-- A record that arrives in a receive slot carries its sender (06 R192, 13 R507). -/
def markRecv (s : State) (sender : Nat) (a : Word) : State :=
  let n := bits a.toNat 22 11
  let b := bits a.toNat 0 22
  if spaceOf a = 1 ∧ 0x3F4000 ≤ b ∧ (b - 0x3F4000) % wideBytes = 0 ∧ (b - 0x3F4000) / wideBytes ≤ 30 then
    s.setCell n { s.cell n with recv := mset (s.cell n).recv ((b - 0x3F4000) / wideBytes) (sender, cellInstar s sender) }
  else s

/-- Address of the element at DONE: the faulting element's, when it faults (R257). -/
def elemAddr (c : Cell) (d : Desc) : Word :=
  if d.op = 1 ∨ d.op = 2 then d.remote + BitVec.ofNat 64 d.done
  else if d.op = 3 ∨ d.op = 4 then d.remote + BitVec.ofNat 64 (rdLE c.mem (d.indexAddr + 4 * d.done) 4 * d.stride)
  else if d.op = 7 then d.remote + BitVec.ofNat 64 (wideBytes * d.done)
  else d.remote

/-- The element at DONE: 256 bytes of OP 1 and 2, one element of the others. -/
def runElem (s : State) (n : Nat) (d : Desc) : ElemOut :=
  let c := s.cell n
  let a := elemAddr c d
  let len := if d.op = 1 ∨ d.op = 2 then min 256 (d.count - d.done) else d.elemUnits * 16
  let at_ := if d.op = 1 ∨ d.op = 2 then d.local_ + d.done else d.local_ + d.done * len
  let one := if d.op = 1 ∨ d.op = 2 then len else 1
  let r : State × Nat :=
    if d.op = 1 ∨ d.op = 3 then intoCell n at_ (extRead s c a len)
    else if d.op = 2 ∨ d.op = 4 then outOfCell s c at_ len (extWrite s c a)
    else match cellModel s c with
      | none =>
        if d.op = 7 then
          let r := s.draw
          let j := r.1.toNat % 4
          let w := extWrite r.2 c a (recordBytes (wreg c j) (wflags c j) (cellInstar s n))
          (if w.2 = 0 then markRecv w.1 n a else w.1, w.2)
        else (s, 0x5030)
      | some m =>
        if d.op = 5 then intoCell n (d.local_ + d.done * walkUnit (some m) d.word4) (walkPage s c m d d.done)
        else if d.op = 6 then appendPos s c m n d d.done
        else
          let r := s.draw
          let j := r.1.toNat % 4
          let w := extWrite r.2 c a (recordBytes (wreg c j) (wflags c j) (cellInstar s n))
          (if w.2 = 0 then markRecv w.1 n a else w.1, w.2)
  ⟨r.1, r.2, one⟩

/-- Writes a descriptor of a cell. -/
def State.setCellDesc (s : State) (n k : Nat) (d : Desc) : State := s.setCell n (setDesc (s.cell n) k d)

/-- A descriptor stopped on a fault at the element DONE (R257). -/
def faultDesc (s : State) (n k st : Nat) : State :=
  let c := s.cell n
  let d := descOf c k
  s.setCellDesc n k { d with active := false, faulted := true, status := st, faultAddr := elemAddr c d }

/-- Moves elements of a descriptor until `limit`, or stops on the first that faults. -/
def runDesc (n k limit : Nat) : Nat → State → State
  | 0, s => s
  | f + 1, s =>
    let d := descOf (s.cell n) k
    if limit ≤ d.done then s
    else
      let r := runElem s n d
      if r.status ≠ 0 then faultDesc r.s n k r.status
      else runDesc n k limit f (r.s.setCellDesc n k { descOf (r.s.cell n) k with done := d.done + r.n })

/-- A descriptor completes: every element from DONE on moves, and ACTIVE clears (R248); an element that faults stops it. -/
def finishDesc (s : State) (n k : Nat) : State :=
  let d := descOf (s.cell n) k
  if (s.cell n).run ≠ .fenced ∧ d.active = true then
    let s := runDesc n k d.count d.count s
    let d' := descOf (s.cell n) k
    if d'.active ∧ d.count ≤ d'.done then s.setCellDesc n k { d' with active := false } else s
  else s

def execDmaDescriptorDone (cell desc : Nat) (s : State) : Host.Outcome State Fault Refusal :=
  if cellCount ≤ cell then .fault .noSuchCell else .next (finishDesc s cell desc)

/-- An element fault that the fabric reports for a remote access (R257, 12 R480): the elements below it complete, of OP 1 and 2 the
steps of 256 bytes (R255) below the one that holds it.  A fault of
the device's own checks stops the descriptor wherever the event places it. -/
def elemFault (s : State) (n k element status : Nat) : State :=
  let d := descOf (s.cell n) k
  if (s.cell n).run ≠ .fenced ∧ d.active = true ∧ d.done ≤ element ∧ element < d.count then
    let stop := if d.op = 1 ∨ d.op = 2 then element - (element - d.done) % 256 else element
    let s := runDesc n k stop d.count s
    let d' := descOf (s.cell n) k
    if d'.active = true ∧ stop ≤ d'.done then
      let own := (runElem s n d').status
      if own ≠ 0 then faultDesc (runElem s n d').s n k own
      else if status = 0x5023 ∧ spaceOf (elemAddr (s.cell n) d') = 2 then faultDesc s n k status
      else s
    else s
  else s

def execDmaElementFault (cell desc element status : Nat) (s : State) : Host.Outcome State Fault Refusal :=
  if cellCount ≤ cell then .fault .noSuchCell else .next (elemFault s cell desc element status)

/-! ### Starting, waiting, restarting (R254, R257, R258) -/

/-- Starts descriptor D: waits while it is ACTIVE; a count of 0 completes at once (R254, R255). -/
def startBody (x : CellItem) (d : Desc) (ok : Cell → Bool) (s : State) (c : Cell) : CellOut :=
  let d := { d with remote := sreg c x.a, local_ := (sreg c x.b).toNat % 2 ^ 22, count := (sreg c x.c).toNat % 2 ^ 32 }
  if 15 < x.d ∨ !ok c ∨ cellBytes < d.local_ + descExtent (cellModel s c) d then .exc s c 2
  else if (descOf c x.d).active then .wait s c
  else .ok s (setDesc c x.d { d with active := decide (d.count ≠ 0) })

/-- A descriptor of an OP with nothing else set. -/
def newDesc (op : Nat) : Desc := { desc0 with op }

def execDmaIn (x : CellItem) (s : State) : Host.Outcome State Fault Refusal :=
  cellItem x 0 (startBody x (newDesc 1) fun _ => true) s

def execDmaOut (x : CellItem) (s : State) : Host.Outcome State Fault Refusal :=
  cellItem x 0 (startBody x (newDesc 2) fun _ => true) s

/-- A gather or scatter descriptor from word 1 (R254). -/
def indexedDesc (op : Nat) (w : Word) : Desc :=
  { desc0 with op, indexAddr := bits w.toNat 0 22, elemUnits := bits w.toNat 22 8, stride := bits w.toNat 32 32 }

/-- ELEM_UNITS, STRIDE and the index list in range (R254). -/
def indexedOk (x : CellItem) (c : Cell) : Bool :=
  let d := indexedDesc 3 x.w1
  decide (1 ≤ d.elemUnits) && decide (d.elemUnits ≤ 64) && decide (d.stride % 16 = 0) &&
  decide (d.indexAddr + 4 * ((sreg c x.c).toNat % 2 ^ 32) ≤ cellBytes)

def execDmaGth (x : CellItem) (s : State) : Host.Outcome State Fault Refusal :=
  cellItem x 1 (startBody x (indexedDesc 3 x.w1) (indexedOk x)) s

def execDmaSct (x : CellItem) (s : State) : Host.Outcome State Fault Refusal :=
  cellItem x 1 (startBody x (indexedDesc 4 x.w1) (indexedOk x)) s

/-- ESTRIDE not 0, LIST not 3 (08 R294). -/
def walkOk (w : Word) : Bool := decide (bits w.toNat 32 16 ≠ 0) && decide (bits w.toNat 50 2 ≠ 3)

def execDmaWalk (x : CellItem) (s : State) : Host.Outcome State Fault Refusal :=
  cellItem x 1 (startBody x { newDesc 5 with word4 := x.w1 } fun _ => walkOk x.w1) s

/-- HCNT and COUNT in range (08 R294, R299). -/
def appOk (m : Option Model) (x : CellItem) (c : Cell) : Bool :=
  let n := (sreg c x.c).toNat % 2 ^ 32
  match m with
  | none => false
  | some m => decide (1 ≤ bits x.w1.toNat 56 8) && decide (bits x.w1.toNat 48 8 + bits x.w1.toNat 56 8 ≤ m.groupHeads) &&
      decide (1 ≤ n) && decide (n ≤ 512)

/-- dma.app. -/
def appBody (x : CellItem) (s : State) (c : Cell) : CellOut :=
  startBody x { newDesc 6 with word4 := x.w1 } (appOk (cellModel s c) x) s c

def execDmaApp (x : CellItem) (s : State) : Host.Outcome State Fault Refusal := cellItem x 1 (appBody x) s

/-- dma.wsend: the accumulators whose records leave are free values, since the spec names none (log entry 12). -/
def execDmaWsend (x : CellItem) (s : State) : Host.Outcome State Fault Refusal :=
  cellItem x 0 (startBody x (newDesc 7) fun _ => true) s

/-- dma.wait: waits for descriptor D; the DMA-fault exception if it faulted, the timeout exception if it timed out. -/
def dmaWaitBody (x : CellItem) (s : State) (c : Cell) : CellOut :=
  let d := descOf c x.d
  if 15 < x.d then .exc s c 2
  else if d.active then .wait s c
  else if d.faulted then .exc s c (if d.status = 0x5024 then 8 else 6)
  else .ok s c

def execDmaWait (x : CellItem) (s : State) : Host.Outcome State Fault Refusal := cellItem x 0 (dmaWaitBody x) s

/-- dma.rst: a FAULTED descriptor goes on at DONE. -/
def dmaRstBody (x : CellItem) (c : Cell) : Option Cell :=
  let d := descOf c x.d
  if 15 < x.d ∨ !d.faulted then none
  else some (setDesc c x.d { d with active := true, faulted := false, status := 0 })

def execDmaRst (x : CellItem) (s : State) : Host.Outcome State Fault Refusal := checkedItem x 0 (dmaRstBody x) s

/-- A descriptor without progress for DMA_US (13 R503): FAULTED with 0x5024; dma.wait then raises the timeout exception. -/
def execDmaTimeout (cell desc : Nat) (s : State) : Host.Outcome State Fault Refusal :=
  if cellCount ≤ cell then .fault .noSuchCell
  else if (descOf (s.cell cell) desc).active = true ∧ (s.cell cell).run ≠ .fenced then .next (faultDesc s cell desc 0x5024)
  else .next s

/-! ### lgt.send (09 R325) -/

/-- lgt.send: the segment leaves for the token engine, where LOGIT_SEGMENT receives it. -/
def lgtBody (x : CellItem) (s : State) (c : Cell) : CellOut :=
  let n := (sreg c x.b).toNat
  if n = 0 ∨ 65536 < n then .exc s c 2
  else cellLoad s x.cell c (sreg c x.a).toNat (4 * n) 16 fun s bs =>
    let seg := (4 * c.part + c.slice, bits x.w1.toNat 0 13, bits x.w1.toNat 16 16, (sreg c x.c).toNat,
      (chunks 4 n bs).map fun l => BitVec.ofNat 32 (leNat l))
    .ok { s with gal := { s.gal with logitsSent := s.gal.logitsSent ++ [seg] } } c

def execLgtSend (x : CellItem) (s : State) : Host.Outcome State Fault Refusal := cellItem x 1 (lgtBody x) s

end Sys2Proof.Machine
end

