-- ==== Sys2Proof/Machine/Sync.lean ====
section
/-! DEFINITION. Synchronisation objects (07 R250, R251, R261 to R269), the fence, ctl.nop and ctl.stamp. -/

namespace Sys2Proof.Machine

/-! ### Objects (R261 to R263) -/

/-- VALUE of an object. -/
def objVal (s : State) (n : Nat) : Nat := s.fld (SYN_OBJ_B_VALUE n)

/-- Writes VALUE. -/
def setVal (s : State) (n v : Nat) : State := s.setFld (SYN_OBJ_B_VALUE n) v

/-- The reference of an object (R262). -/
def objRef (s : State) (n : Nat) : Word := BitVec.ofNat 64 (n + s.fld (SYN_OBJ_A_INSTAR n) * 2 ^ 14)

/-- The next instar: from 0xFF_FFFF comes 0x00_0001 (R277). -/
def nextObjInstar (s : State) (n : Nat) : State :=
  let i := s.fld (SYN_OBJ_A_INSTAR n)
  s.setFld (SYN_OBJ_A_INSTAR n) (if i = 0xFFFFFF then 1 else i + 1)

/-- The object a reference names for an owner: 0x5011 for another instar, 0x5010 for another owner or kind (R261, R262);
kind 0 stands for any. -/
def syncLookup (s : State) (kind ownerKind owner : Nat) (ref : Word) : Except Nat Nat :=
  let n := bits ref.toNat 0 14
  let k := s.fld (SYN_OBJ_A_KIND n)
  if bits ref.toNat 14 50 ≠ s.fld (SYN_OBJ_A_INSTAR n) then .error 0x5011
  else if k = 0 ∨ s.fld (SYN_OBJ_A_OWNER_KIND n) ≠ ownerKind ∨ s.fld (SYN_OBJ_A_OWNER n) ≠ owner ∨ (kind ≠ 0 ∧ k ≠ kind) then
    .error 0x5010
  else .ok n

/-- Counts a stale reference (R262). -/
def countStale (s : State) (st : Nat) : State := if st = 0x5011 then s.incSat SYN_STALE_COUNT 1 else s

/-- Barrier VALUE: EXPECTED, ARRIVED, GENERATION (R277). -/
def barExpected (v : Nat) : Nat := bits v 0 24
def barArrived (v : Nat) : Nat := bits v 24 24
def barGen (v : Nat) : Nat := bits v 48 16

/-- Instar an actor's holding is recorded with: a cell's own, 0 for a queue (R266). -/
def actorInstar (s : State) (actor : Nat) : Nat := if actor < 0x8000 then cellInstar s actor else 0

/-- A quoin taken by an actor; the result: 1, or 2 when BROKEN is set. -/
def takeQuoin (s : State) (n actor : Nat) : State × Word :=
  let s' := setVal (s.setFld (SYN_OBJ_A_HELD n) 1) n (actor + actorInstar s actor * 2 ^ 16)
  (s', if s.flag (SYN_OBJ_A_BROKEN n) then 2 else 1)

/-! ### Waiting (R264, R265) -/

/-- What a waiting operation does when its condition holds: the state and the result; none while it does not (R264). -/
def tryWait (op : Nat) (s : State) (n actor : Nat) (v : Word) : Option (State × Word) :=
  if op = 0xB2 then (if v.toNat ≤ objVal s n then some (s, BitVec.ofNat 64 (objVal s n)) else none)
  else if op = 0xB3 then
    (if 1 ≤ objVal s n then some (setVal s n (objVal s n - 1), BitVec.ofNat 64 (objVal s n - 1)) else none)
  else if op = 0xB6 then
    (if barGen (objVal s n) ≠ v.toNat % 65536 then some (s, BitVec.ofNat 64 (barGen (objVal s n))) else none)
  else (if s.flag (SYN_OBJ_A_HELD n) then none else some (takeQuoin s n actor))

/-- Removes a waiter from an object's queue. -/
def dropWaiter (s : State) (n : Nat) (w : Waiter) : State :=
  let l := ((mget s.waiters n).getD []).filter (· ≠ w)
  ({ s with waiters := if l.isEmpty then mdel s.waiters n else mset s.waiters n l }).decFld SYN_STATUS_WAITERS 1

/-- The item of a command queue that waits. -/
def waiterSrc (w : Waiter) : Src := ⟨(w.actor - 0x8000) / 16, (w.actor - 0x8000) % 16, w.ret⟩

/-- Ends a wait with its result: the cell's item completes, or the queue's. -/
def wake (s : State) (w : Waiter) (r : Word) : State :=
  if w.actor < 0x8000 then
    let c := s.cell w.actor
    s.setCell w.actor { setS c w.ret r with wait := none, pc := (c.pc + 1) % 4096 }
  else complete s (waiterSrc w) w.op 0 r 0 0

/-- Ends a wait with a status: the sync-fault or timeout exception in a cell, the completion's status on a queue. -/
def failWait (s : State) (w : Waiter) (st : Nat) : State :=
  if w.actor < 0x8000 then
    takeException s w.actor { s.cell w.actor with wait := none } (if st = 0x5015 then 8 else 7)
  else completeFail s (waiterSrc w) w.op st 0 0

/-- Grants what the waiters of an object ask for, in the order in which they began to wait (R265). -/
def serve (s : State) (n : Nat) : State :=
  ((mget s.waiters n).getD []).foldl (fun s w =>
    match tryWait w.op s n w.actor w.value with
    | none => s
    | some (s', r) => wake (dropWaiter s' n w) w r) s

/-! ### The operations (R264) -/

/-- How a synchronisation operation ends. -/
inductive SyncOut where
  | done (s : State) (r : Word)
  | fail (s : State) (status : Nat)
  | wait (s : State)
  deriving DecidableEq, Repr

/-- A wait that is not satisfied joins the object's queue. -/
def addWaiter (s : State) (n : Nat) (w : Waiter) : State :=
  ({ s with waiters := mset s.waiters n (((mget s.waiters n).getD []) ++ [w]) }).incSat SYN_STATUS_WAITERS 1

/-- An acquire: done at once, or it waits. -/
def acquire (op : Nat) (s : State) (n actor ret : Nat) (v : Word) : SyncOut :=
  match tryWait op s n actor v with
  | some (s', r) => .done s' r
  | none => .wait (addWaiter s n ⟨actor, op, v, ret, s.now⟩)

/-- ctr.add: the value before. -/
def counterAdd (s : State) (n : Nat) (v : Word) : SyncOut :=
  .done (serve (setVal s n ((objVal s n + v.toNat) % 2 ^ 64)) n) (BitVec.ofNat 64 (objVal s n))

/-- sem.give: the value after; 0x5013 at its limit. -/
def semGive (s : State) (n : Nat) : SyncOut :=
  if objVal s n = 2 ^ 64 - 1 then .fail s 0x5013
  else .done (serve (setVal s n (objVal s n + 1)) n) (BitVec.ofNat 64 (objVal s n + 1))

/-- bar.arv: the generation before. -/
def barArrive (s : State) (n : Nat) : SyncOut :=
  let v := objVal s n
  let s' :=
    if barArrived v + 1 = barExpected v then
      serve (setVal s n (barExpected v + (barGen v + 1) % 65536 * 2 ^ 48)) n
    else setVal s n (barExpected v + (barArrived v + 1) % 2 ^ 24 * 2 ^ 24 + barGen v * 2 ^ 48)
  .done s' (BitVec.ofNat 64 (barGen v))

/-- qn.rel: only by the recorded holder; it clears BROKEN and grants the quoin to the first waiter (R264, R266). -/
def quoinRelease (s : State) (n actor : Nat) : SyncOut :=
  if !s.flag (SYN_OBJ_A_HELD n) ∨ objVal s n ≠ actor + actorInstar s actor * 2 ^ 16 then .fail s 0x5014
  else .done (serve (setVal ((s.setFld (SYN_OBJ_A_HELD n) 0).setFld (SYN_OBJ_A_BROKEN n) 0) n 0) n) 0

/-- qn.try: 0 while the quoin is held. -/
def quoinTry (s : State) (n actor : Nat) : SyncOut :=
  match tryWait 0xB7 s n actor 0 with
  | some (s', r) => .done s' r
  | none => .done s 0

/-- The wrapper of a cell's and of a queue's use of an object (R250, R261, R262, R264). -/
def syncUse (u : SyncUse) (op kind : Nat) (release : Bool) (f : State → Nat → Nat → Nat → Word → SyncOut) (s : State) :
    Host.Outcome State Fault Refusal :=
  match u with
  | .cell x => cellItem x 0 (fun s c =>
      if release && c.desc.any fun d => d.2.active && ([2, 4, 6, 7] : List Nat).contains d.2.op then .wait s c
      else match syncLookup s kind 1 (4 * c.part + c.slice) (sreg c x.a) with
        | .error st => .exc (countStale s st) c 7
        | .ok n => match f s n x.cell x.d (sreg c x.b) with
          | .done s' r => .ok s' (setS (s'.cell x.cell) x.d r)
          | .fail s' _ => .exc s' c 7
          | .wait s' => .wait s' { c with wait := some (op, sreg c x.a, sreg c x.b) }) s
  | .item src ref value => .next (runItem s src op fun s =>
      match syncLookup s kind 0 src.ctx ref with
      | .error st => (countStale s st, .status st)
      | .ok n => match f s n (0x8000 + 16 * src.ctx + src.queue) src.qpos value with
        | .done s' r => (s', .done 0 r 0 0)
        | .fail s' st => (s', .status st)
        | .wait s' => (s', .later))

def execCtrRd (u : SyncUse) (s : State) : Host.Outcome State Fault Refusal :=
  syncUse u 0xB0 0 false (fun s n _ _ _ => .done s (BitVec.ofNat 64 (objVal s n))) s

def execCtrAdd (u : SyncUse) (s : State) : Host.Outcome State Fault Refusal :=
  syncUse u 0xB1 1 true (fun s n _ _ v => counterAdd s n v) s

def execCtrWait (u : SyncUse) (s : State) : Host.Outcome State Fault Refusal :=
  syncUse u 0xB2 1 false (acquire 0xB2) s

def execSemTake (u : SyncUse) (s : State) : Host.Outcome State Fault Refusal :=
  syncUse u 0xB3 2 false (acquire 0xB3) s

def execSemGive (u : SyncUse) (s : State) : Host.Outcome State Fault Refusal :=
  syncUse u 0xB4 2 true (fun s n _ _ _ => semGive s n) s

def execBarArv (u : SyncUse) (s : State) : Host.Outcome State Fault Refusal :=
  syncUse u 0xB5 3 true (fun s n _ _ _ => barArrive s n) s

def execBarWait (u : SyncUse) (s : State) : Host.Outcome State Fault Refusal :=
  syncUse u 0xB6 3 false (acquire 0xB6) s

def execQnAcq (u : SyncUse) (s : State) : Host.Outcome State Fault Refusal :=
  syncUse u 0xB7 4 false (acquire 0xB7) s

def execQnTry (u : SyncUse) (s : State) : Host.Outcome State Fault Refusal :=
  syncUse u 0xB8 4 false (fun s n actor _ _ => quoinTry s n actor) s

def execQnRel (u : SyncUse) (s : State) : Host.Outcome State Fault Refusal :=
  syncUse u 0xB9 4 true (fun s n actor _ _ => quoinRelease s n actor) s

def execSyncRd (u : SyncUse) (s : State) : Host.Outcome State Fault Refusal :=
  syncUse u 0xBA 0 false (fun s n _ _ _ => .done s (BitVec.ofNat 64 (objVal s n))) s

/-! ### Fence (R251) -/

/-- fence: in a cell it waits for every earlier descriptor; on a queue the order of R251 decides when it starts. -/
def execFence (u : SyncUse) (s : State) : Host.Outcome State Fault Refusal :=
  match u with
  | .cell x => cellItem x 0 (fun s c => if c.desc.any fun d => d.2.active then .wait s c else .ok s c) s
  | .item src _ _ => .next (runItem s src 0xBB fun s => (s, .ok))

/-! ### Claiming, freeing, breaking, timing out (R263, R267 to R269) -/

/-- The lowest-numbered free object. -/
def firstFreeObj (s : State) : Option Nat := (List.range 16384).find? fun n => s.fld (SYN_OBJ_A_KIND n) = 0

/-- The effect of sync.init. -/
def syncInitBody (src : Src) (kind ownerKind owner : Nat) (value : Word) (s : State) : State × Reply :=
  if kind = 0 ∨ 4 < kind ∨ (kind = 3 ∧ (value = 0 ∨ 16777215 < value.toNat)) then (s, .status 0x5003)
  else if src.ctx ≠ 0 ∧ ownerKind = 1 then (s, .status 0x5010)
  else match firstFreeObj s with
    | none => (s, .status 0x5016)
    | some n =>
      let s := nextObjInstar s n
      let s := s.setReg (SYN_OBJ_A_KIND n).off (BitVec.ofNat 64 (kind + ownerKind * 2 ^ 3 + owner * 2 ^ 4 +
        s.fld (SYN_OBJ_A_INSTAR n) * 2 ^ 16))
      let s := setVal s n (if kind = 4 then 0 else value.toNat)
      (s.incSat SYN_STATUS_IN_USE 1, .done 0 (objRef s n) 0 0)

def execSyncInit (src : Src) (kind ownerKind owner : Nat) (value : BitVec 64) (s : State) : Host.Outcome State Fault Refusal :=
  .next (runItem s src 0xFA (syncInitBody src kind ownerKind owner value))

/-- Frees an object: it is free, its instar moves on, every waiter ends with 0x5012 (R269). -/
def freeObj (s : State) (n : Nat) : State :=
  let ws := (mget s.waiters n).getD []
  let s := nextObjInstar s n
  let s := s.setReg (SYN_OBJ_A_KIND n).off (BitVec.ofNat 64 (s.fld (SYN_OBJ_A_INSTAR n) * 2 ^ 16))
  let s := (setVal s n 0).decFld SYN_STATUS_IN_USE 1
  ws.foldl (fun s w => failWait (dropWaiter s n w) w 0x5012) s

/-- The effect of sync.free. -/
def syncFreeBody (src : Src) (ref : Word) (s : State) : State × Reply :=
  match syncLookup s 0 0 src.ctx ref with
  | .error st => (countStale s st, .status st)
  | .ok n =>
    if s.fld (SYN_OBJ_A_KIND n) = 4 ∧ s.flag (SYN_OBJ_A_HELD n) = true then (s, .status 0x5017) else (freeObj s n, .ok)

def execSyncFree (src : Src) (ref : BitVec 64) (s : State) : Host.Outcome State Fault Refusal :=
  .next (runItem s src 0xFB (syncFreeBody src ref))

/-- Breaks one quoin (R267): BROKEN, the next instar, a fault message, and the first waiter has it. -/
def breakQuoin (source : Nat) (s : State) (n : Nat) : State :=
  let s := nextObjInstar ((s.setFld (SYN_OBJ_A_BROKEN n) 1).setFld (SYN_OBJ_A_HELD n) 0) n
  let s := (setVal s n 0).incSat SYN_BROKEN_COUNT 1
  serve (fault s source 0x0D 0 (objRef s n)) n

/-- Quoins an actor holds. -/
def heldBy (s : State) (actor inst : Nat) : List Nat :=
  (List.range 16384).filter fun n =>
    s.fld (SYN_OBJ_A_KIND n) = 4 && s.flag (SYN_OBJ_A_HELD n) && decide (objVal s n = actor + inst * 2 ^ 16)

/-- Breaks every quoin an actor holds, when its cell's instar moves on or its queue's function is reset (R267). -/
def breakQuoins (s : State) (source actor inst : Nat) : State := (heldBy s actor inst).foldl (breakQuoin source) s

/-- Ends the wait of an actor on an object at the timeout (R268). -/
def waitTimeout (s : State) (n actor : Nat) : State :=
  match ((mget s.waiters n).getD []).find? fun w => w.actor = actor with
  | none => s
  | some w =>
    if w.since + s.fld FLT_TIMEOUT_A_SYNC_MS * 1000000 ≤ s.now then failWait (dropWaiter s n w) w 0x5015 else s

def execSyncWaitTimeout (obj actor : Nat) (s : State) : Host.Outcome State Fault Refusal := .next (waitTimeout s obj actor)

/-! ### ctl.nop and ctl.stamp (R241) -/

def execCtlNop (src : Src) (s : State) : Host.Outcome State Fault Refusal := .next (runItem s src 0xFC fun s => (s, .ok))

def execCtlStamp (src : Src) (s : State) : Host.Outcome State Fault Refusal :=
  .next (runItem s src 0xFD fun s => (s, .done 0 (BitVec.ofNat 64 s.now) 0 0))

end Sys2Proof.Machine
end

