-- ==== Sys2Proof/Machine/Restore.lean ====
section
/-! DEFINITION. Sessions brought back: from a cartridge's directory (10 R400 to R408, R607, R608; 02 R35; 15 R580), from a
proof (13 R511 to R513), from the other plane's copy (10 R391, R408). -/

namespace Sys2Proof.Machine

/-- What the pages of a copy on a cartridge hold: serial, address of the head page (free values, log entry 12). -/
opaque Config.parked : Nat → Nat → Parked
/-- Bytes of a page of a copy on a cartridge: serial, address of the head page, ordinal (free values, log entry 12). -/
opaque Config.flashPage : Nat → Nat → Nat → List Byte

/-! ### Fields of a record -/

/-- INDEX, INSTAR and HOME of a record's handle (02). -/
def recIndex (r : DirRec) : Nat := bits r.handle 0 24
def recInstar (r : DirRec) : Nat := bits r.handle 24 24
def recHome (r : DirRec) : Nat := bits r.handle 48 16

/-- The live session records of a directory: each record replaces those of its handle and of the handle it follows (R392,
R395, R400). -/
def liveRecs (l : List (DirRec × HeadPage)) : List (DirRec × HeadPage) :=
  l.foldl (fun a x =>
    let a := if x.1.typ = 1 ∨ x.1.typ = 2 then
        a.filter fun y => !(decide (y.1.handle = x.1.handle) || (decide (x.1.prev ≠ 0) && decide (y.1.handle = x.1.prev)))
      else a
    if x.1.typ = 1 then a ++ [x] else a) []

/-- A record's customer is mapped to its context (R403, R607). -/
def recMapped (s : State) (r : DirRec) : Bool :=
  s.flag (SES_CUST_MAP_VALID r.customer) && decide (s.fld (SES_CUST_MAP_CONTEXT r.customer) = r.context)

/-- An instar advanced d times (02 R34, R35). -/
def advanceInstar (n d : Nat) : Nat := if n = 0 then d % (2 ^ 24 - 1) else (n - 1 + d) % (2 ^ 24 - 1) + 1

/-- d of R35: how far a journalled instar is advanced at this start-up. -/
def startAdvance (s : State) (r : DirRec) : Nat :=
  let d := (s.sec.startCount + 2 ^ 24 - r.jstart % 2 ^ 24) % 2 ^ 24
  if d = 0 then 1 else d

/-- Whether one record is newer than another: JSTART, then JTIME, then the lower bay (R608). -/
def newer (a : DirRec) (ba : Nat) (b : Nat × Nat × Nat) : Bool :=
  let d := (a.jstart + 2 ^ 24 - b.1 % 2 ^ 24) % 2 ^ 24
  if d ≠ 0 then decide (d < 2 ^ 23)
  else if a.jtime ≠ b.2.1 then decide (b.2.1 < a.jtime) else decide (ba < b.2.2)

/-! ### Entries -/

/-- Takes an index out of the free list. -/
def dropFree (i : Nat) : List (Nat × Nat) → List (Nat × Nat)
  | [] => []
  | (lo, hi) :: r =>
    if lo ≤ i ∧ i ≤ hi then
      (if lo < i then [(lo, i - 1)] else []) ++ (if i < hi then [(i + 1, hi)] else []) ++ r
    else (lo, hi) :: dropFree i r

/-- The copy a record names, with what its pages hold. -/
def copyOf (serial b half : Nat) (r : DirRec) (h : HeadPage) : Copy :=
  let x := Config.parked serial r.head
  let page (o : Nat) : Map Byte := sparse ((Config.flashPage serial r.head o).take pageBytes)
  { bay := b, serial, gen := r.parkGen, pages := r.pages, extents := [], tokens := r.tokens, generated := r.generated,
    kvPages := h.kvPages, transcript := h.transcript, segs := x.segs, cur := h.cur, text := x.text,
    kv := (List.range (h.kvPages - 2 * half)).map fun k => (k, page (257 + 2 * half + k)),
    recur := (List.range (2 * half)).map fun k => (k, page (257 + k)) }

/-- The entry of a restored or adopted session (R401): at P3 on the bay, bound to nothing, to meet its record's identities. -/
def entryFrom (s : State) (b inst status prev : Nat) (r : DirRec) (h : HeadPage) : Session :=
  let half := (recurOf s r.model).1
  let serial := s.fld (CRT_SERIAL_SERIAL b)
  let c := copyOf serial b half r h
  let e := sesInit s.now inst r.context r.queue r.vocab r.grammar r.model r.prio r.dur r.customer r.draftEn
    (BitVec.ofNat 64 r.tag) r.contract r.cls r.origin 0
  let e := { e with
    tier := .p3, bay := b, tokens := r.tokens, generated := r.generated, createTime := r.createTime, lastStatus := status,
    kvPages := h.kvPages, transcriptBytes := h.transcript, dirtyPages := 0, text := c.text, segs := c.segs, cur := h.cur,
    history := ((Config.parked serial r.head).history).take r.tokens,
    transcriptPages := List.replicate ((h.transcript + pageBytes - 1) / pageBytes) 0,
    kv := c.kv.map fun (x : Nat × Map Byte) => (x.1, (0 : Word)),
    recur := c.recur.map fun (x : Nat × Map Byte) => (x.1, (0 : Word)),
    p3 := some c, bound := false, mustMatch := some (r.vocabId, r.modelTag), prevHandle := BitVec.ofNat 64 prev,
    announced := false, restored := some (r.jstart, r.jtime, b) }
  deepRefs (cleanRefs e) 3 0 0

/-- Posts the notice of a restored or adopted session once its queue is enabled (R401). -/
def announce (s : State) (i : Nat) : State :=
  match s.ses? i with
  | none => s
  | some e =>
    if !e.announced && decide (s.fld (HIF_Q_CTL_STATE e.context e.queue) = 1) &&
        (decide (e.lastStatus = 0x8010) || decide (e.lastStatus = 0x8011) || decide (e.lastStatus = 0xA040)) then
      sesNotice (s.setSes i { e with announced := true }) i 6 e.lastStatus e.prevHandle
    else s

/-- Places a restored entry at an index. -/
def placeEntry (s : State) (i : Nat) (e : Session) : State :=
  let s := { s with ses := { s.ses with
    entries := mset s.ses.entries i e, freeList := dropFree i s.ses.freeList, freeInstar := mdel s.ses.freeInstar i } }
  announce (s.incWrap SES_LIVE_ALLOCATED 1) i

/-- Submits the tombstone of a record (R405, R407, R608). -/
def tombRec (s : State) (b : Nat) (x : DirRec × HeadPage) : State :=
  if bayJournals s b then
    journalSubmit s b { x.1 with typ := 2, jstart := s.sec.startCount % 2 ^ 24, jtime := s.now } x.2
  else s

/-- A record whose PREV_HANDLE names a live entry of this device: that entry was adopted elsewhere (R404). -/
def adoptedElsewhere (s : State) (r : DirRec) : State :=
  let i := bits r.prev 0 24
  match s.ses? i with
  | none => s
  | some e =>
    if r.prev ≠ 0 ∧ bits r.prev 48 16 = s.devAddr ∧ e.instar = bits r.prev 24 24 then faultSession s i 0x8012 else s

/-- Adopts a record under a new index and handle (R403, R607, 13 R523); none while no entry is free. -/
def adopt (s : State) (b status : Nat) (x : DirRec × HeadPage) : Option State :=
  let s := adoptedElsewhere s x.1
  match takeIndex s with
  | none => none
  | some (i, inst, s) =>
    let e := entryFrom s b inst status x.1.handle x.1 x.2
    let s := journalSubmit s b { x.1 with
      handle := (handleOf s i e).toNat, prev := x.1.handle, jstart := s.sec.startCount % 2 ^ 24, jtime := s.now } x.2
    some (placeEntry s i e)

/-- Holds a record back until its mapping becomes valid (R403, R607). -/
def holdBack (s : State) (b : Nat) (x : DirRec × HeadPage) : State :=
  s.setBay b { s.bay b with heldBack := (s.bay b).heldBack ++ [x] }

/-- Adopts a record of another device when it may, else holds it back (R403). -/
def adoptOther (s : State) (b : Nat) (x : DirRec × HeadPage) : State :=
  if s.flag CRT_CFG_ADOPT && recMapped s x.1 then (adopt s b 0x8011 x).getD (holdBack s b x) else holdBack s b x

/-- A live entry restored at this start-up that holds the record's session from a newer record (R607). -/
def heldNewer (s : State) (b : Nat) (r : DirRec) : Bool :=
  s.ses.entries.any fun y =>
    y.2.state.live && decide (bits y.2.prevHandle.toNat 0 24 = recIndex r) && decide (y.2.createTime = r.createTime) &&
    decide (y.2.origin = r.origin) &&
    (match y.2.restored with | some k => !newer r b k | none => false)

/-- A record of this device on a cartridge that this start-up had not seen (R607). -/
def restoreLate (s : State) (b : Nat) (x : DirRec × HeadPage) : State :=
  if heldNewer s b x.1 then tombRec s b x
  else if recMapped s x.1 then (adopt s b 0x8010 x).getD (holdBack s b x) else holdBack s b x

/-- Whether an entry has the instar of a record (R405): the record's own, or the one that R35 gave the entry when this start-up
restored it from that record (log entry 110). -/
def sameInstar (s : State) (e : Session) (r : DirRec) : Bool :=
  decide (e.instar = recInstar r) ||
  (decide (e.instar = advanceInstar (recInstar r) (startAdvance s r)) &&
    decide (e.restored.map (fun k => (k.1, k.2.1)) = some (r.jstart, r.jtime)))

/-- A record found in a replay after READY (R403, R405, R607). -/
def recAfterReady (b : Nat) (seen : Bool) (s : State) (x : DirRec × HeadPage) : State :=
  if recHome x.1 ≠ s.devAddr then adoptOther s b x
  else
    let here : Bool := match s.ses? (recIndex x.1) with
      | some e => e.state.live && decide (e.tier = .p3) && decide (e.bay = b) && sameInstar s e x.1
      | none => false
    if here = true then s else if seen = true then tombRec s b x else restoreLate s b x

/-- Restores a record of this device at start-up under its own index (02 R35, R401); one that the partner adopted is tombstoned
(13 R524). -/
def restoreOwn (s : State) (b : Nat) (x : DirRec × HeadPage) : State :=
  if s.flt.adopted.contains (BitVec.ofNat 64 x.1.handle) then tombRec s b x
  else
    let e := entryFrom s b (advanceInstar (recInstar x.1) (startAdvance s x.1)) 0x8010 x.1.handle x.1 x.2
    placeEntry s (recIndex x.1) e

/-- Bays whose directory has been replayed. -/
def replayedBays (s : State) : List Nat := (List.range 4).filter (bayReads s)

/-- The live records of a bay. -/
def bayRecs (s : State) (b : Nat) : List (DirRec × HeadPage) := liveRecs ((s.bay b).checkpoint ++ (s.bay b).journal)

/-- Marks a bay's records as dealt with, and its cartridge as verified in this start-up (R405). -/
def markSettled (s : State) (b : Nat) : State :=
  let s := s.setBay b { s.bay b with settled := true }
  let k := s.fld (CRT_SERIAL_SERIAL b)
  if s.crt.serials.contains k then s else { s with crt := { s.crt with serials := s.crt.serials ++ [k] } }

/-- Whether a record is the newest of its index among all bays replayed (R608). -/
def isNewest (all : List (Nat × DirRec × HeadPage)) (x : Nat × DirRec × HeadPage) : Bool :=
  all.all fun y => decide (recIndex y.2.1 ≠ recIndex x.2.1) || decide (y = x) || newer x.2.1 x.1 (y.2.1.jstart, y.2.1.jtime, y.1)

/-- Restoration, adoption and reattachment of start-up (15 R580, R401, R403, R608). -/
def restoreAll (s : State) : State :=
  let bays := (replayedBays s).filter fun b => !(s.bay b).settled
  let all := bays.flatMap fun b => (bayRecs s b).map fun x => (b, x.1, x.2)
  let own := all.filter fun x => recHome x.2.1 = s.devAddr
  let other := all.filter fun x => recHome x.2.1 ≠ s.devAddr
  let s := own.foldl (fun s x => if isNewest own x then restoreOwn s x.1 x.2 else tombRec s x.1 x.2) s
  let s := other.foldl (fun s x => adoptOther s x.1 x.2) s
  bays.foldl markSettled s

/-- Records of one bay after READY. -/
def restoreBay (s : State) (b : Nat) : State :=
  let seen := s.crt.serials.contains (s.fld (CRT_SERIAL_SERIAL b))
  markSettled ((bayRecs s b).foldl (recAfterReady b seen) s) b

/-- Tries the records a bay holds back again (R403, R607). -/
def retryHeld (s : State) (b : Nat) : State :=
  let l := (s.bay b).heldBack
  let s := s.setBay b { s.bay b with heldBack := [] }
  if bayJournals s b then
    l.foldl (fun s x => if recHome x.1 = s.devAddr then restoreLate s b x else adoptOther s b x) s
  else s.setBay b { s.bay b with heldBack := l }

/-! ### Copies lost (R391, R408, 13 R513, R518) -/

/-- The shard of a session in the newest proofs (13 R511). -/
def shardOf (s : State) (i : Nat) (e : Session) : Option Copy :=
  (s.flt.shards.find? fun x => decide (x.2.1 = i) && decide (x.2.2.1 = e.instar)).map (·.2.2.2)

/-- A session restored to a shard of a proof: TOKENS and all state as of the proof, its pages in P1 (13 R513). -/
def fromShard (s : State) (i : Nat) (c : Copy) : State :=
  let s := restoreCopy s i c
  match s.ses? i with
  | none => s
  | some e =>
    let n := revPages e
    match allocFrames e.context 1 0 i n.1 s with
    | none => faultSession s i 0x8022
    | some (fs, s) =>
      match allocFrames e.context 2 0 i n.2 s with
      | none => faultSession (freeFrames s fs) i 0x8022
      | some (ls, s) =>
        let op : RevOp := { src := .p3, started := s.now, colour := 0, bound := 0, notify := false, again := false, frames := fs,
                            lists := ls, policed := none }
        let s := commitRevival s i { e with p3 := some c } op []
        let s := match s.ses? i with
          | some x => s.setSes i { x with p3 := e.p3 }
          | none => s
        sesNotice s i 5 0xA030 (BitVec.ofNat 64 c.tokens)

/-- Whether the partner of the redundant pair holds a session's copy (13 R522). -/
def partnerHolds (s : State) (e : Session) : Bool :=
  decide (e.dur = 2) && decide (s.fld FAB_PAIR_PARTNER ≠ 0xFFFF) && !(s.fab.fenced.any fun x => x.1 = s.fld FAB_PAIR_PARTNER)

/-- A session whose only copy was on a failed cartridge (R408): from the other plane's copy, which another bay then holds, or
from a proof, or FAULTED. -/
def lostCopy (s : State) (i : Nat) (e : Session) (status : Nat) : State :=
  match e.p3, (if partnerHolds s e then chooseBay s e false true else none), shardOf s i e with
  | some c, some (b, _), _ =>
    let c' := { c with bay := b, serial := s.fld (CRT_SERIAL_SERIAL b) }
    let s := journalSubmit s b (sessionRec s i e 1 ((Config.freeWord s.freeCtr).toNat % 2 ^ 40) c.pages c.gen)
      ⟨c.cur, c.transcript, c.kvPages⟩
    s.draw.2.setSes i { e with p3 := some c', bay := b }
  | _, _, some c => fromShard s i c
  | _, _, none => faultSession s i status

/-- What the failure of a bay's cartridge does to the sessions whose copy it holds (R408). -/
def cartridgeLost (s : State) (b serial : Nat) : State :=
  let l := s.ses.entries.filter fun x =>
    x.2.state.live && (match x.2.p3 with | some c => decide (c.bay = b) && decide (c.serial = serial) | none => false)
  l.foldl (fun s x =>
    match s.ses? x.1 with
    | none => s
    | some e => if e.tier = .p3 then lostCopy s x.1 e 0x8022 else s.setSes x.1 { e with p3 := none }) s

end Sys2Proof.Machine
end

