-- ==== Sys2Proof/Machine/Search.lean ====
section
/-! DEFINITION. Vector search (11 R413 to R445): index objects, distances and scores, queries, the side list, merging,
documents, and the two cell items of indexing programs. -/

namespace Sys2Proof.Machine

/-! ### The index object (R413 to R416) -/

/-- Element format of an index (R413). -/
def vfmt (v : Nat) : Fmt := if v = 1 then fmt16 else if v = 2 then fmtBf else fmt32

/-- Bytes of a vector element. -/
def velem (v : Nat) : Nat := if v = 0 then 4 else 2

/-- A little-endian field of an object. -/
def objLE (o : FlashObj) (a n : Nat) : Nat := leNat (rdBytes o.bytes a n)

/-- An element of a stored vector, widened to binary32 (R417). -/
def widen (v raw : Nat) : Nat := (cvtF (vfmt v) fmt32 rne raw).1

/-- Bytes of a code entry, and entries of a page (R415). -/
def entryBytesOf (m : Nat) : Nat := 8 + (m + 7) / 8 * 8
def entriesPage (m : Nat) : Nat := 16384 / entryBytesOf m

/-- The least LOG2_REC from 6 upward that fits a record (R415). -/
def leastRec (d v : Nat) : Nat := ((List.range 9).find? fun k => 16 + d * velem v ≤ 2 ^ (6 + k)).getD 9 + 6

/-- The header of an index object, as an index with nothing in progress (R413). -/
def headIndex (id : Nat) (h : List Byte) : Index where
  object := id
  metric := bits (imgWord h 0) 16 2
  vformat := bits (imgWord h 0) 18 2
  d := bits (imgWord h 0) 20 13
  m := bits (imgWord h 0) 33 9
  log2rec := bits (imgWord h 0) 42 4
  nlist := bits (imgWord h 1) 0 24
  g := bits (imgWord h 1) 24 16
  nvec := bits (imgWord h 2) 0 38
  centB := sgn (bits (imgWord h 3) 0 9) 9
  rrB := sgn (bits (imgWord h 3) 9 9) 9
  gen := bits (imgWord h 4) 0 32
  centPg := bits (imgWord h 5) 0 32
  bookPg := bits (imgWord h 5) 32 32
  codePg := bits (imgWord h 6) 0 32
  vecPg := bits (imgWord h 6) 32 32
  sidePg := bits (imgWord h 7) 0 32
  sidePages := bits (imgWord h 7) 32 32
  side := []
  nextSeq := 1
  pageOpen := 0
  pageAt := 0
  pagesInFlight := []
  queries := []
  nextQuery := 0
  docs := []
  nextDoc := 0
  encoder := none
  merge := none
  closing := none
  oldObjects := []
  badPins := []

/-- Bytes in whole pages. -/
def inPages (n : Nat) : Nat := (n + 16383) / 16384

/-- The sections of an index: first page and pages (R414), the header page first. -/
def sectionsOf (x : Index) : List (Nat × Nat) :=
  [(0, 1), (x.centPg, inPages (4 * x.nlist * x.d)), (x.bookPg, inPages (1024 * x.d)), (x.codePg, x.nlist * x.g),
   (x.vecPg, inPages (x.nvec * 2 ^ x.log2rec)), (x.sidePg, x.sidePages)]

/-- Whether no two ranges of a list meet. -/
def disjoint : List (Nat × Nat) → Bool
  | [] => true
  | r :: rs => rs.all (fun q => !overlaps r.1 r.2 q.1 q.2) && disjoint rs

/-- Byte offset of code entry i of partition p. -/
def codeAt (x : Index) (p i : Nat) : Nat :=
  (x.codePg + p * x.g + i / entriesPage x.m) * 16384 + i % entriesPage x.m * entryBytesOf x.m

/-- The VALID entries of a partition: ordinal and code bytes (R415). -/
def partEntries (o : FlashObj) (x : Index) (p : Nat) : List (Nat × List Nat) :=
  (List.range (x.g * entriesPage x.m)).filterMap fun i =>
    let a := codeAt x p i
    let w := objLE o a 8
    if bitOf w 38 then some (bits w 0 38, (rdBytes o.bytes (a + 8) x.m).map (·.toNat)) else none

/-- Byte offset of a record: a main record by its ordinal, a side record by its SEQ (R414). -/
def mainAt (x : Index) (ord : Nat) : Nat := x.vecPg * 16384 + ord * 2 ^ x.log2rec
def sideAt (x : Index) (seq : Nat) : Nat := x.sidePg * 16384 + (seq - 1) * 2 ^ x.log2rec

/-- A stored record (R415). -/
def recordAt (o : FlashObj) (x : Index) (a : Nat) : SideRec where
  seq := bits (objLE o (a + 8) 8) 32 31
  id := objLE o a 8
  attr := BitVec.ofNat 32 (bits (objLE o (a + 8) 8) 0 32)
  delete := bitOf (objLE o (a + 8) 8) 63
  vec := (List.range x.d).map fun k =>
    BitVec.ofNat 32 (widen x.vformat (objLE o (a + 16 + k * velem x.vformat) (velem x.vformat)))
  src := none
  doc := false
  durable := true

/-- Checks of R413 to R415 on the header and the code and vector sections, and those of R416. -/
def indexOk (o : FlashObj) (x : Index) (h : List Byte) : Bool :=
  let body := rdBytes o.bytes 0 (x.sidePg * 16384)
  let secs := sectionsOf x
  let words : List Nat := [bits (imgWord h 0) 0 16, bits (imgWord h 0) 46 18, bits (imgWord h 1) 40 24, bits (imgWord h 2) 38 26,
    bits (imgWord h 3) 18 46, bits (imgWord h 4) 32 32, imgWord h 8, imgWord h 9]
  decide (words = [1, 0, 0, 0, 0, 0, 0, 0]) && decide (x.metric ≤ 1) && decide (x.vformat ≤ 2) &&
  decide (1 ≤ x.d) && decide (x.d ≤ 4096) && decide (1 ≤ x.m) && decide (x.m ≤ 256) && decide (x.d % x.m = 0) &&
  decide (x.log2rec = leastRec x.d x.vformat) && decide (x.log2rec ≤ 14) && decide (1 ≤ x.nlist) && decide (1 ≤ x.g) &&
  (o.bytes.all fun y => decide (y.1 < 128) || decide (16384 ≤ y.1) || decide (y.2 = 0)) && disjoint secs && secs.all (fun r => decide ((r.1 + r.2) * 16384 ≤ o.len)) &&
  decide (x.nvec ≤ x.nlist * x.g * entriesPage x.m) &&
  (List.range (x.nlist * x.g * entriesPage x.m)).all (fun j =>
    let n := x.g * entriesPage x.m
    let w := objLE o (codeAt x (j / n) (j % n)) 8
    decide (bits w 39 25 = 0) && (!bitOf w 38 || decide (bits w 0 38 < x.nvec))) &&
  (List.range x.nvec).all (fun ord =>
    let a := mainAt x ord
    decide (bits (objLE o (a + 8) 8) 32 32 = 0) &&
    (rdBytes o.bytes (a + 16 + x.d * velem x.vformat) (2 ^ x.log2rec - 16 - x.d * velem x.vformat)).all fun b => decide (b = 0)) &&
  decide (sha384 (body.take 80 ++ List.replicate 48 0#8 ++ body.drop 128) = (h.drop 80).take 48)

/-- The side section up to its last durable record (R429). -/
def readSide (o : FlashObj) (x : Index) : Nat → Nat → List SideRec
  | 0, _ => []
  | n + 1, seq =>
    let r := recordAt o x (sideAt x seq)
    if r.seq = seq then r :: readSide o x n (seq + 1) else []

/-! ### Distances and scores (R417, R418) -/

/-- dist of R417 over pairs of a query element and a stored element at a binary point. -/
def dist (metric : Nat) (b : Int) (l : List (Nat × Nat)) : Nat :=
  let md := rne
  let gs := l.map fun y =>
    let p := if metric = 0 then
        let d := decodeF fmt32 (fSub fmt32 md y.1 y.2).1
        mulNum d d
      else mulNum (decodeF fmt32 y.1) (negNum (decodeF fmt32 y.2))
    gridAddend b p.1
  let n := gs.foldl (fun (a : BitVec 192) g => a + BitVec.ofInt 192 g.1) 0
  (wcvtLane fmt32 md (gs.foldl (fun a g => a ||| g.2) 0) b n).1

/-- The order of distances (R417), as a key. -/
def distKey (d : Nat) : Nat :=
  let mag := d % 2 ^ 31
  if 0x7F800000 < mag then 2 ^ 33 else if d / 2 ^ 31 % 2 = 1 then 2 ^ 32 - mag else 2 ^ 32 + mag

/-- The smaller of two distances, and the larger. -/
def distMin (a b : Nat) : Nat := if distKey b < distKey a then b else a
def distMax (a b : Nat) : Nat := if distKey a < distKey b then b else a

/-- The centroid of a partition. -/
def centroid (o : FlashObj) (x : Index) (p : Nat) : List Nat :=
  (List.range x.d).map fun k => objLE o (x.centPg * 16384 + 4 * (p * x.d + k)) 4

/-- A codeword. -/
def codeword (o : FlashObj) (x : Index) (m c : Nat) : List Nat :=
  let w := x.d / x.m
  (List.range w).map fun k => objLE o (x.bookPg * 16384 + 4 * ((m * 256 + c) * w + k)) 4

/-- Distances of a vector to the 256 codewords of a subspace. -/
def codeDists (o : FlashObj) (x : Index) (q : List Nat) (m : Nat) : List Nat :=
  let w := x.d / x.m
  (List.range 256).map fun c => dist x.metric x.rrB (((q.drop (m * w)).take w).zip (codeword o x m c))

/-- One value of the score table (R418). -/
def scoreOf (l lo s : Nat) : Nat :=
  match decodeF fmt32 (fMul fmt32 rne (fSub fmt32 rne l lo).1 s).1 with
  | .nan => 65535
  | .inf _ => 65535
  | .fin _ m e => min 65535 (roundShift 0 false m (-e) false).1

/-- The score table of a query, by subspace (R418). -/
def scoreTable (o : FlashObj) (x : Index) (q : List Nat) : List (List Nat) :=
  let ls := (List.range x.m).map (codeDists o x q)
  let lows := ls.map fun l => l.foldl distMin (l.headD 0)
  let highs := ls.map fun l => l.foldl distMax (l.headD 0)
  let ds := (highs.zip lows).map fun y => (fSub fmt32 rne y.1 y.2).1
  let h := ds.foldl distMax (ds.headD 0)
  let s := match decodeF fmt32 h with
    | .fin neg m e => if m = 0 then 0 else (roundQuot fmt32 rne neg 65535 0 m e).1
    | _ => 0
  (ls.zip lows).map fun y => y.1.map fun l => scoreOf l y.2 s

/-- The approximate score of code bytes (R418). -/
def approx (table : List (List Nat)) (code : List Nat) : Nat := ((table.zip code).map fun y => y.1.getD y.2 0).sum

/-- The code of a vector: the nearest codeword of each subspace (R430). -/
def codeOf (o : FlashObj) (x : Index) (v : List Nat) : List Nat :=
  (List.range x.m).map fun m =>
    let l := codeDists o x v m
    ((l.zipIdx.foldl (fun (a : Nat × Nat) (y : Nat × Nat) => if distKey y.1 < distKey a.1 then y else a) (l.headD 0, 0)).2)

/-! ### A query's answer (R420, R426) -/

/-- Whether a record of an ID at a sequence number is dead at a snapshot (R426). -/
def deadAt (side : List SideRec) (id seq snap : Nat) : Bool :=
  side.any fun r => decide (r.id = id) && decide (seq < r.seq) && decide (r.seq ≤ snap)

/-- The highest durable SEQ (R420). -/
def snapOf (x : Index) : Nat := (x.side.filter (·.durable)).foldl (fun a r => max a r.seq) (x.nextSeq - 1 - x.side.length)

/-- The partitions probed: the PROBES smallest by distance and number (R420). -/
def probesOf (o : FlashObj) (x : Index) (q : List Nat) (n : Nat) : List Nat :=
  let l := (List.range x.nlist).map fun p => (distKey (dist x.metric x.centB (q.zip (centroid o x p))), p)
  ((sortBy (fun (a b : Nat × Nat) => decide (a.1 < b.1) || (decide (a.1 = b.1) && decide (a.2 < b.2))) l).take n).map (·.2)

/-- A record by its key: a main ordinal, or 2^38 plus SEQ (R420). -/
def recordOfKey (o : FlashObj) (x : Index) (key : Nat) : SideRec :=
  if key < 2 ^ 38 then recordAt o x (mainAt x key)
  else (x.side.find? fun r => r.seq = key - 2 ^ 38).getD (recordAt o x (sideAt x (key - 2 ^ 38)))

/-- What R420 returns for a query: the entries, DEAD, FILTERED, SCANNED, the partitions probed, the candidates kept. -/
structure Answer where
  out      : List (Nat × Nat × Nat)
  dead     : Nat
  filtered : Nat
  scanned  : Nat
  probed   : List Nat
  kept     : List Nat
  deriving DecidableEq, Repr

/-- Takes survivors in order until K pass the filter; those that fail before the K-th are counted (R420, R421). -/
def filterFirst (fmask fval : BitVec 32) : Nat → List (Nat × SideRec) → List (Nat × Nat × Nat) × Nat
  | 0, _ => ([], 0)
  | _ + 1, [] => ([], 0)
  | k + 1, (dx, r) :: rest =>
    if r.attr &&& fmask = fval then
      let y := filterFirst fmask fval k rest
      ((r.id, dx, r.attr.toNat) :: y.1, y.2)
    else
      let y := filterFirst fmask fval (k + 1) rest
      (y.1, y.2 + 1)

/-- The procedure of R420. -/
def answer (o : FlashObj) (x : Index) (q : List Nat) (k probes rerank : Nat) (fmask fval : BitVec 32) (snap : Nat) : Answer :=
  let ps := probesOf o x q probes
  let table := scoreTable o x q
  let main := ps.flatMap fun p => (partEntries o x p).map fun e => (approx table e.2, e.1)
  let ins := (x.side.filter fun r => !r.delete && decide (r.seq ≤ snap)).map fun r =>
    (approx table (codeOf o x (r.vec.map (·.toNat))), 2 ^ 38 + r.seq)
  let cand := main ++ ins
  let kept := ((sortBy (fun (a b : Nat × Nat) => decide (a.1 < b.1) || (decide (a.1 = b.1) && decide (a.2 < b.2))) cand).take
    rerank).map (·.2)
  let recs := kept.map fun key => (key, recordOfKey o x key)
  let live := recs.filter fun y => !deadAt x.side y.2.id y.2.seq snap
  let scored := live.map fun y => (dist x.metric x.rrB (q.zip (y.2.vec.map (·.toNat))), y.1, y.2)
  let order := sortBy (fun (a b : Nat × Nat × SideRec) =>
    let ka := distKey a.1
    let kb := distKey b.1
    decide (ka < kb) || (decide (ka = kb) && (decide (a.2.2.id < b.2.2.id) ||
      (decide (a.2.2.id = b.2.2.id) && decide (a.2.1 < b.2.1))))) scored
  let f := filterFirst fmask fval k (order.map fun y => (y.1, y.2.2))
  { out := f.1, dead := recs.length - live.length, filtered := f.2, scanned := cand.length, probed := ps, kept }

/-- The bytes of a result (R421). -/
def resultBytes (q : Query) (elapsed : Nat) : List Byte :=
  let n := q.out.length
  leBytes 8 (q.gen + q.snap * 2 ^ 32) ++
  leBytes 8 (n + b2n (decide (n < q.k)) * 2 ^ 11 + q.dead * 2 ^ 16 + min 65535 q.filtered * 2 ^ 32) ++
  leBytes 8 (min (2 ^ 32 - 1) q.scanned) ++ leBytes 8 elapsed ++
  q.out.flatMap (fun e => leBytes 8 e.1 ++ leBytes 4 e.2.1 ++ leBytes 4 e.2.2) ++ List.replicate (16 * (q.k - n)) 0#8

/-! ### Slots -/

/-- Writes a slot. -/
def State.setVse (s : State) (slot : Nat) (x : Index) : State := { s with vse := mset s.vse slot x }

/-- The open index of a slot, for the issuing context (R419, R444). -/
def openIndex (s : State) (src : Src) (slot : Nat) : Option Index :=
  (mget s.vse slot).filter fun x => decide (s.fld (VSE_IX_A_CONTEXT slot) = src.ctx) && x.closing.isNone

/-- Whether every bay of an object's mask can be read, and written. -/
def maskReads (s : State) (id : Nat) : Bool := objMask id ≠ 0 && (maskBays (objMask id)).all (bayReads s)
def maskWrites (s : State) (id : Nat) : Bool := objMask id ≠ 0 && (maskBays (objMask id)).all (bayParks s)

/-- The object of an index, as its flash holds it. -/
def indexObj (s : State) (x : Index) : FlashObj := (objAt s x.object).getD ⟨0, [], []⟩

/-- HBM capacity left after fixed reservations and admitted demand (R416). -/
def hbmLeft (s : State) : Rat :=
  let all := s.mkr.admitted ++ keptOf s
  capAt s 4 0 - fixedAt s (all.map (·.2)) 4 - totalAt (chargeAll s all []) 4 0

/-- The channel engine that serves a page of an object (R409; 01 R14). -/
def pageEngine (id pg : Nat) : Nat :=
  let bays := maskBays (objMask id)
  24 * bays.getD (pg % bays.length) 0 + pg / bays.length % 24

/-- Instar of a channel engine (13 R505). -/
def engineInstar (s : State) (e : Nat) : Nat := s.fld (FLT_UNIT_INSTAR_INSTAR (14 + e))

/-- The effect of vse.open. -/
def openBody (src : Src) (id slot part prio : Nat) (pinCodes pinVec : Bool) (qpg sideCap encPart encSlice : Nat) (noEnc : Bool)
    (s : State) : State × Reply :=
  if (mget s.vse slot).isSome then (s, .status 0x7001)
  else match objFind s src.ctx id with
    | .error st => (s, .status st)
    | .ok o =>
      let h := rdBytes o.bytes 0 128
      let x0 := headIndex id h
      if qpg = 0 ∨ 64 < qpg ∨ sideCap = 0 ∨ 16777216 < sideCap then (s, .status 0x7003)
      else if objKind id ≠ 2 ∨ !indexOk o x0 h then (s, .status 0x7006)
      else if x0.sidePages * 2 ^ (14 - x0.log2rec) < sideCap then (s, .status 0x7003)
      else
        let side := readSide o x0 (x0.sidePages * 2 ^ (14 - x0.log2rec)) 1
        let x := { x0 with side, nextSeq := side.length + 1, encoder := if noEnc then none else some (encPart, encSlice) }
        let a := src.ctx + part * 2 ^ 6 + prio * 2 ^ 10 + b2n pinCodes * 2 ^ 13 + b2n pinVec * 2 ^ 14 + qpg * 2 ^ 15 + sideCap * 2 ^ 22
        let t := (s.setVse slot x).setReg (VSE_IX_A_CONTEXT slot).off (BitVec.ofNat 64 a)
        if 2 ^ 38 < (t.vse.map fun y => y.2.nvec).sum ∨ hbmLeft t < 0 then (s, .status 0x7007)
        else
          let t := t.setReg (VSE_IX_B_GEN slot).off (BitVec.ofNat 64 (x.gen + side.length * 2 ^ 32))
          let t := (t.setFld (VSE_IX_DOCS_DOCS slot) 0).setFld (VSE_IX_ENERGY_ENERGY_UJ slot) 0
          let t := t.setFld VSE_STATUS_OPEN (t.fld VSE_STATUS_OPEN ||| 2 ^ slot)
          (refreshErr t, .done 0 (BitVec.ofNat 64 x.nvec) 0 0)

def execVseOpen (src : Src) (id : BitVec 64) (slot part prio : Nat) (pinCodes pinVec : Bool)
    (qpg sideCap encPart encSlice : Nat) (noEnc : Bool) (s : State) : Host.Outcome State Fault Refusal :=
  .next (runItem s src 0xE8 (openBody src id.toNat slot part prio pinCodes pinVec qpg sideCap encPart encSlice noEnc))

/-- Whether a slot may be closed: nothing of it is in flight (R443). -/
def slotQuiet (x : Index) : Bool := x.queries.isEmpty && x.merge.isNone && x.side.all (·.durable)

/-- Takes an index out of its slot. -/
def closeSlot (s : State) (slot : Nat) : State :=
  let s := { s with vse := mdel s.vse slot }
  let s := s.setFld VSE_STATUS_OPEN (s.fld VSE_STATUS_OPEN - b2n (bitOf (s.fld VSE_STATUS_OPEN) slot) * 2 ^ slot)
  refreshErr ((s.setReg (VSE_IX_A_CONTEXT slot).off 0).setReg (VSE_IX_B_GEN slot).off 0)

/-- Ends a close that waits, once nothing of the slot is in flight. -/
def tryClose (s : State) (slot : Nat) : State :=
  match mget s.vse slot with
  | none => s
  | some x =>
    match x.closing with
    | none => s
    | some src => if slotQuiet x then complete (closeSlot s slot) src 0xE9 0 0 0 0 else s

/-- Posts an index notice: SEQ as its detail, the ID as its object (R438). -/
def indexNotice (s : State) (src : Src) (status seq id : Nat) : State :=
  notice s src.ctx src.queue 8 status (BitVec.ofNat 64 seq) (BitVec.ofNat 64 id) 0

/-- The effect of vse.close. -/
def closeBody (src : Src) (slot : Nat) (s : State) : State × Reply :=
  match openIndex s src slot with
  | none => (s, .status 0x7002)
  | some x =>
    if s.mkr.admitted.any fun c => decide (c.2.kind = 4) && decide (cf c.2 2 0 16 = slot) then (s, .status 0x7005)
    else
      let s := x.docs.foldl (fun s d => indexNotice s.draw.2 d.src 0x7013 s.draw.1.toNat d.id) s
      let x := { x with docs := [] }
      if slotQuiet x then (closeSlot s slot, .ok) else (s.setVse slot { x with closing := some src }, .later)

def execVseClose (src : Src) (slot : Nat) (s : State) : Host.Outcome State Fault Refusal :=
  .next (runItem s src 0xE9 (closeBody src slot))

/-! ### Queries (R419 to R425, R433, R434) -/

/-- Colours a query (04 R138 to R140): the colour, the contract that polices it, its deadline, the state. -/
def policeQuery (s : State) (ctx slot k probes rerank contract : Nat) : Nat × Option Nat × Option Nat × State :=
  match inForce s contract with
  | none => (0, none, none, s)
  | some c =>
    if contract / 64 = ctx ∧ c.kind = 4 ∧ cf c 2 0 16 = slot then
      let r := police s contract probes (decide (cf c 2 16 11 < k) || decide (cf c 2 27 16 < probes) || decide (cf c 3 0 16 < rerank))
      (r.1, some contract, if r.1 = 1 then some (s.now + cf c 4 0 32) else none, r.2)
    else (0, none, none, s)

/-- The channel engines that scan a partition's pages. -/
def scanEngines (x : Index) (p : Nat) : List (Nat × Nat) :=
  ((List.range x.g).map fun j => (p, pageEngine x.object (x.codePg + p * x.g + j))).eraseDups

/-- The channel engine that reads a record. -/
def keyEngine (x : Index) (key : Nat) : Nat × Nat :=
  (key, pageEngine x.object ((if key < 2 ^ 38 then mainAt x key else sideAt x (key - 2 ^ 38)) / 16384))

/-- The effect of vse.query. -/
def vseQueryBody (src : Src) (slot k probes rerank : Nat) (qaddr : Word) (fmask fval : BitVec 32) (raddr : Word) (contract : Nat)
    (s : State) : State × Reply :=
  match openIndex s src slot with
  | none => (s, .status 0x7002)
  | some x =>
    if k = 0 ∨ 1024 < k ∨ rerank < k ∨ 65535 < rerank ∨ probes = 0 ∨ x.nlist < probes then (s, .status 0x7003)
    else match itemRead s src 2 qaddr (4 * x.d) with
      | .error st => (s, .status st)
      | .ok bs =>
        let q := (chunks 4 x.d bs).map leNat
        if !(q.all fun v => decide (v % 2 ^ 31 < 0x7F800000)) then (s, .status 0x7004)
        else if !maskReads s x.object then (s, .status 0x8001)
        else
          let r := policeQuery s src.ctx slot k probes rerank contract
          if r.1 = 3 then (r.2.2.2, .status 0x3031)
          else
            let snap := snapOf x
            let a := answer (indexObj s x) x q k probes rerank fmask fval snap
            let keys := if s.flag (VSE_IX_A_PIN_VEC slot) then [] else a.kept.map (keyEngine x)
            let scans := if s.flag (VSE_IX_A_PIN_CODES slot) then [] else a.probed.flatMap (scanEngines x)
            let y : Query := { src, k, raddr, gen := x.gen, snap, fetched := s.now, colour := r.1,
                               policed := r.2.1, deadline := r.2.2.1, out := a.out, dead := a.dead, filtered := a.filtered,
                               scanned := a.scanned, toScan := scans, keys, toRead := if scans.isEmpty then keys else [] }
            (r.2.2.2.setVse slot { x with queries := mset x.queries x.nextQuery y, nextQuery := x.nextQuery + 1 }, .later)

def execVseQuery (src : Src) (slot k probes rerank : Nat) (qaddr : BitVec 64) (fmask fval : BitVec 32) (raddr : BitVec 64)
    (contract : Nat) (s : State) : Host.Outcome State Fault Refusal :=
  .next (runItem s src 0xEA (vseQueryBody src slot k probes rerank qaddr fmask fval raddr contract))

/-- Order of queries: green ones by deadline first, then by time of fetch (R423, R434). -/
def queryLt (a b : Nat × Query) : Bool :=
  match a.2.deadline, b.2.deadline with
  | some d, some e => decide (d < e) || (decide (d = e) && decide (a.1 < b.1))
  | some _, none => true
  | none, some _ => false
  | none, none => decide (a.2.fetched < b.2.fetched) || (decide (a.2.fetched = b.2.fetched) && decide (a.1 < b.1))

/-- The indexes of a partition with queries waiting, each with its first query. -/
def searchHeads (s : State) (p : Nat) : List (Nat × Nat × Query) :=
  (s.vse.filter fun y => decide (s.fld (VSE_IX_A_PART y.1) = p)).filterMap fun y =>
    ((sortBy queryLt y.2.queries).head?).map fun q => (y.1, q)

/-- Releases a search galley of a partition (R433, R434). -/
def searchRelease (s : State) (p : Nat) : State :=
  if (s.part p).search.isSome then s
  else match (sortBy (fun (a b : Nat × Nat × Query) => queryLt a.2 b.2) (searchHeads s p)).head? with
    | none => s
    | some (slot, _, _) =>
      match mget s.vse slot with
      | none => s
      | some x =>
        let qs := (sortBy queryLt x.queries).take (s.fld (VSE_IX_A_QPG slot))
        let dl := qs.foldl (fun (a : Option Nat) y => match a, y.2.deadline with
          | none, d => d
          | some e, none => some e
          | some e, some d => some (min e d)) none
        dispatch (s.setPart p { s.part p with search := some (slot, qs.map (·.1), s.now, dl) }) p

def execSearchGalleyRelease (part : Nat) (s : State) : Host.Outcome State Fault Refusal := .next (searchRelease s part)

/-- Replaces a query of a slot. -/
def setQuery (s : State) (slot : Nat) (x : Index) (n : Nat) (q : Query) : State :=
  s.setVse slot { x with queries := mset x.queries n q }

/-- Counts a pinned page read from flash (R416). -/
def pinMiss (s : State) (slot : Nat) (x : Index) (pg : Nat) : State :=
  (s.setVse slot { x with badPins := if x.badPins.contains pg then x.badPins else x.badPins ++ [pg] }).incSat VSE_PIN_MISS_COUNT 1

/-- A channel engine's return for a partition: an orphan when its instar is stale (R425, 13 R507); on a pinned section it is the
read of a page that HBM returned poisoned (R416). -/
def scanReturn (s : State) (slot n p engine inst : Nat) : State :=
  if inst ≠ engineInstar s engine then staleMessage s (0xA00 + engine) inst
  else match mget s.vse slot with
    | none => s
    | some x =>
      match mget x.queries n with
      | none => s
      | some q =>
        if q.toScan.contains (p, engine) then
          let left := q.toScan.filter (· ≠ (p, engine))
          setQuery s slot x n { q with toScan := left, toRead := if left.isEmpty then q.keys else q.toRead }
        else if s.flag (VSE_IX_A_PIN_CODES slot) ∧ (scanEngines x p).contains (p, engine) then
          pinMiss s slot x (x.codePg + p * x.g)
        else s

def execPartitionScanReturn (slot query partition engine instar : Nat) (s : State) : Host.Outcome State Fault Refusal :=
  .next (scanReturn s slot query partition engine instar)

/-- A channel engine's return of a record (R424, R425). -/
def readReturn (s : State) (slot n key engine inst : Nat) : State :=
  if inst ≠ engineInstar s engine then staleMessage s (0xA00 + engine) inst
  else match mget s.vse slot with
    | none => s
    | some x =>
      match mget x.queries n with
      | none => s
      | some q =>
        if q.toRead.contains (key, engine) then
          setQuery s slot x n { q with toRead := q.toRead.filter (· ≠ (key, engine)) }
        else if s.flag (VSE_IX_A_PIN_VEC slot) ∧ keyEngine x key = (key, engine) then
          pinMiss s slot x ((if key < 2 ^ 38 then mainAt x key else sideAt x (key - 2 ^ 38)) / 16384)
        else s

def execRecordReadReturn (slot query key engine instar : Nat) (s : State) : Host.Outcome State Fault Refusal :=
  .next (readReturn s slot query key engine instar)

/-- Deletes the objects of older generations that no query uses (R431). -/
def dropOld (s : State) (slot : Nat) : State :=
  match mget s.vse slot with
  | none => s
  | some x =>
    let used (g : Nat) : Bool := x.queries.any fun q => q.2.gen = g
    let s := s.setVse slot { x with oldObjects := x.oldObjects.filter fun y => used y.1 }
    (x.oldObjects.filter fun y => !used y.1).foldl (fun s y => match objAt s y.2 with
      | some o => objDel s y.2 o
      | none => s) s

/-- Takes a query out of its slot and of the search galley that serves it; an empty galley ends. -/
def endQuery (s : State) (slot n : Nat) : State :=
  match mget s.vse slot with
  | none => s
  | some x =>
    let s := policeDone s ((mget x.queries n).bind (·.policed))
    let s := s.setVse slot { x with queries := mdel x.queries n }
    let p := s.fld (VSE_IX_A_PART slot)
    let s := match (s.part p).search with
      | none => s
      | some y =>
        if y.1 = slot then
          let left := y.2.1.filter (· ≠ n)
          if left.isEmpty then endGalley s p 4
          else s.setPart p { s.part p with search := some (slot, left, y.2.2) }
        else s
    tryClose (dropOld s slot) slot

/-- Whether a query's galley runs. -/
def inSearch (s : State) (slot n : Nat) : Bool :=
  let x := s.part (s.fld (VSE_IX_A_PART slot))
  decide (x.running = some 4) && (match x.search with | none => false | some y => decide (y.1 = slot) && y.2.1.contains n)

/-- A query writes its result and completes (R420, R421). -/
def queryDone (s : State) (slot n : Nat) : State :=
  match mget s.vse slot with
  | none => s
  | some x =>
    match mget x.queries n with
    | none => s
    | some q =>
      if q.toScan.isEmpty && q.toRead.isEmpty && inSearch s slot n then
        let c := q.out.length
        endQuery (match itemWrite s q.src 4 q.raddr (resultBytes q (s.now - q.fetched)) with
        | .ok s => complete s q.src 0xEA 0 (BitVec.ofNat 64 (c + b2n (decide (c < q.k)) * 2 ^ 11)) 0 0
        | .error st => completeFail s q.src 0xEA st 0 0) slot n
      else s

def execQueryComplete (slot query : Nat) (s : State) : Host.Outcome State Fault Refusal := .next (queryDone s slot query)

/-! ### The side list (R426 to R429) -/

/-- Closes the open side page. -/
def closeSide (x : Index) : Index := { x with pageOpen := 0, pagesInFlight := x.pagesInFlight ++ [x.pageOpen] }

/-- Appends a side record; a full page closes (R426, R427). -/
def appendSide (s : State) (slot : Nat) (x : Index) (id : Nat) (attr : BitVec 32) (delete : Bool) (vec : List (BitVec 32))
    (src : Option Src) (doc : Bool) : State :=
  let r : SideRec := { seq := x.nextSeq, id, attr, delete, vec, src, doc, durable := false }
  let x := { x with side := x.side ++ [r], nextSeq := x.nextSeq + 1, pageOpen := x.pageOpen + 1,
                    pageAt := if x.pageOpen = 0 then s.now else x.pageAt }
  s.setVse slot (if 2 ^ (14 - x.log2rec) ≤ x.pageOpen then closeSide x else x)

/-- Why a record cannot be appended: 0x8001, 0x8002 for a READ_ONLY bay, 0x7008 for a full list; 0 when it can (R428, R443). -/
def sideRefusal (s : State) (slot : Nat) (x : Index) : Nat :=
  if !maskReads s x.object then 0x8001
  else if !maskWrites s x.object then 0x8002
  else if s.fld (VSE_IX_A_SIDE_CAP slot) ≤ x.side.length then 0x7008 else 0

/-- A binary32 vector rounded to the index's element format and widened again (R440). -/
def roundVec (x : Index) (vs : List Nat) : List (BitVec 32) :=
  vs.map fun v => BitVec.ofNat 32 (widen x.vformat (cvtF fmt32 (vfmt x.vformat) rne v).1)

/-- The effect of vse.insert. -/
def insertBody (src : Src) (slot : Nat) (attr : BitVec 32) (id addr : Word) (s : State) : State × Reply :=
  match openIndex s src slot with
  | none => (s, .status 0x7002)
  | some x =>
    let e := sideRefusal s slot x
    if e ≠ 0 then (s, .status e)
    else match itemRead s src 3 addr (4 * x.d) with
      | .error st => (s, .status st)
      | .ok bs =>
        (appendSide s slot x id.toNat attr false (roundVec x ((chunks 4 x.d bs).map leNat)) (some src) false, .later)

def execVseInsert (src : Src) (slot : Nat) (attr : BitVec 32) (id addr : BitVec 64) (s : State) : Host.Outcome State Fault Refusal :=
  .next (runItem s src 0xEB (insertBody src slot attr id addr))

/-- The effect of vse.delete. -/
def deleteBody (src : Src) (slot : Nat) (id : Word) (s : State) : State × Reply :=
  match openIndex s src slot with
  | none => (s, .status 0x7002)
  | some x =>
    let e := sideRefusal s slot x
    if e ≠ 0 then (s, .status e)
    else (appendSide s slot x id.toNat 0 true (List.replicate x.d 0) (some src) false, .later)

def execVseDelete (src : Src) (slot : Nat) (id : BitVec 64) (s : State) : Host.Outcome State Fault Refusal :=
  .next (runItem s src 0xEC (deleteBody src slot id))

/-- A side page closes 100 µs after its first record (R427). -/
def sideClose (s : State) (slot : Nat) : State :=
  match mget s.vse slot with
  | none => s
  | some x => if 0 < x.pageOpen ∧ x.pageAt + 100000 ≤ s.now then s.setVse slot (closeSide x) else s

def execSidePageClose (slot : Nat) (s : State) : Host.Outcome State Fault Refusal := .next (sideClose s slot)

/-- The bytes of a record (R415). -/
def recBytes (x : Index) (r : SideRec) : List Byte :=
  let el := r.vec.flatMap fun v => leBytes (velem x.vformat) (cvtF fmt32 (vfmt x.vformat) rne v.toNat).1
  let bs := leBytes 8 r.id ++ leBytes 8 (r.attr.toNat + r.seq * 2 ^ 32 + b2n r.delete * 2 ^ 63) ++ el
  bs ++ List.replicate (2 ^ x.log2rec - bs.length) 0#8

/-- Replaces bytes of an object. -/
def objPatch (s : State) (id a : Nat) (bs : List Byte) : State :=
  match objAt s id with
  | none => s
  | some o => objStore s id (wrBytes o.bytes a bs) o.len

/-- What happens when a side record becomes durable: its bytes are in the object and its item or document is told (R427, R438). -/
def recDurable (slot : Nat) (x : Index) (s : State) (r : SideRec) : State :=
  let s := objPatch s x.object (sideAt x r.seq) (recBytes x r)
  let s := s.setFld (VSE_IX_B_SEQ slot) r.seq
  match r.src with
  | none => s
  | some src =>
    if r.doc then indexNotice (s.incWrap (VSE_IX_DOCS_DOCS slot) 1) src 0 r.seq r.id
    else complete s src (if r.delete then 0xEC else 0xEB) 0 (BitVec.ofNat 64 r.seq) 0 0

/-- The oldest side page in flight is durable (R394, R427). -/
def sideDurable (s : State) (slot : Nat) : State :=
  match mget s.vse slot with
  | none => s
  | some x =>
    match x.pagesInFlight with
    | [] => s
    | n :: rest =>
      if (maskBays (objMask x.object)).all fun b => s.flag (CRT_BAY_HOLDUP_OK b) then
        let new := (x.side.filter fun r => !r.durable).take n
        let seqs := new.map (·.seq)
        let mark (r : SideRec) : SideRec := if seqs.contains r.seq then { r with durable := true, src := none } else r
        let x' := { x with pagesInFlight := rest, side := x.side.map mark }
        let pg := (sideAt x (seqs.headD 1)) / 16384
        let b := pageEngine x.object pg / 24
        let s := ((s.setVse slot x').incWrap (CRT_HOST_WR_BYTES b) 16384).incWrap (CRT_NAND_WR_BYTES b) 16384
        tryClose (new.foldl (recDurable slot x) s) slot
      else s

def execSideRecordDurable (slot : Nat) (s : State) : Host.Outcome State Fault Refusal := .next (sideDurable s slot)

/-! ### Merging (R430 to R432) -/

/-- The members of each partition at a merge point: old key, code, record (R430). -/
def mergeParts (o : FlashObj) (x : Index) (n : Nat) : List (List (Nat × List Nat × SideRec)) :=
  let placed := (x.side.filter fun r => !r.delete && decide (r.seq ≤ n) && !deadAt x.side r.id r.seq n).map fun r =>
    let v := r.vec.map (·.toNat)
    ((probesOf o x v 1).headD 0, 2 ^ 38 + r.seq, codeOf o x v, r)
  (List.range x.nlist).map fun p =>
    let main := (partEntries o x p).filterMap fun e =>
      let r := recordAt o x (mainAt x e.1)
      if deadAt x.side r.id 0 n then none else some (e.1, e.2, r)
    sortBy (fun (a b : Nat × List Nat × SideRec) => decide (a.1 < b.1))
      (main ++ ((placed.filter fun y => y.1 = p).map fun y => (y.2.1, y.2.2)))

/-- The bytes of one code entry. -/
def codeBytes (m ord : Nat) (code : List Nat) : List Byte :=
  let bs := leBytes 8 (ord + 2 ^ 38) ++ code.map (BitVec.ofNat 8 ·)
  bs ++ List.replicate (entryBytesOf m - bs.length) 0#8

/-- The partitions' entries with their new ordinals, in ascending partition and entry order. -/
def numberParts : Nat → List (List (Nat × List Nat × SideRec)) → List (List (Nat × List Nat × SideRec))
  | _, [] => []
  | n, p :: ps => (p.zipIdx.map fun y => (n + y.2, y.1.2)) :: numberParts (n + p.length) ps

/-- The header words of an index (R413), without its digest. -/
def headWords (x : Index) : List Nat :=
  [1 + x.metric * 2 ^ 16 + x.vformat * 2 ^ 18 + x.d * 2 ^ 20 + x.m * 2 ^ 33 + x.log2rec * 2 ^ 42, x.nlist + x.g * 2 ^ 24, x.nvec,
   (x.centB % 512).toNat + (x.rrB % 512).toNat * 2 ^ 9, x.gen, x.centPg + x.bookPg * 2 ^ 32, x.codePg + x.vecPg * 2 ^ 32,
   x.sidePg + x.sidePages * 2 ^ 32, 0, 0]

/-- The next generation: the index and the bytes of its object (R430).  Its sections follow one another in the order of R414 (log
entry 21). -/
def mergeIndex (o : FlashObj) (x : Index) (id n : Nat) : Index × Map Byte × Nat :=
  let room := x.g * entriesPage x.m
  let parts := mergeParts o x n
  let placed := numberParts 0 (parts.map fun (p : List (Nat × List Nat × SideRec)) => p.take room)
  let carried := parts.flatMap fun (p : List (Nat × List Nat × SideRec)) => (p.drop room).reverse.map fun y => y.2.2
  let later := x.side.filter fun r => n < r.seq
  let side := ((carried.map fun (r : SideRec) => { r with delete := false, durable := true, src := none }) ++ later).zipIdx.map
    fun (y : SideRec × Nat) => { y.1 with seq := y.2 + 1 }
  let nvec := (placed.map List.length).sum
  let cent := 1
  let book := cent + inPages (4 * x.nlist * x.d)
  let code := book + inPages (1024 * x.d)
  let vec := code + x.nlist * x.g
  let sp := vec + inPages (nvec * 2 ^ x.log2rec)
  let y := { x with object := id, gen := x.gen + 1, nvec, centPg := cent, bookPg := book, codePg := code, vecPg := vec, sidePg := sp,
                    side, nextSeq := side.length + 1, merge := none, badPins := [] }
  let m := wrBytes [] (cent * 16384) (rdBytes o.bytes (x.centPg * 16384) (4 * x.nlist * x.d))
  let m := wrBytes m (book * 16384) (rdBytes o.bytes (x.bookPg * 16384) (1024 * x.d))
  let m := placed.zipIdx.foldl (fun m p => p.1.zipIdx.foldl (fun m e =>
    wrBytes (wrBytes m (codeAt y p.2 e.2) (codeBytes x.m e.1.1 e.1.2.1)) (mainAt y e.1.1)
      (recBytes y { e.1.2.2 with seq := 0, delete := false })) m) m
  let m := (side.filter (·.durable)).foldl (fun m r => wrBytes m (sideAt y r.seq) (recBytes y r)) m
  let m := wrBytes m 0 ((headWords y).flatMap (leBytes 8))
  (y, wrBytes m 80 (sha384 (rdBytes m 0 (sp * 16384))), (sp + x.sidePages) * 16384)

/-- Whether pinned sections of a next generation fit in HBM (R432). -/
def pinsFit (s : State) (slot : Nat) (x : Index) : Bool :=
  let second := (if s.flag (VSE_IX_A_PIN_CODES slot) then x.nlist * x.g * 16384 else 0) +
    (if s.flag (VSE_IX_A_PIN_VEC slot) then (x.nvec + x.side.length + s.fld (VSE_IX_A_SIDE_CAP slot)) * 2 ^ x.log2rec else 0)
  decide ((second : Rat) ≤ hbmLeft s)

/-- The effect of vse.merge. -/
def mergeBody (src : Src) (slot id : Nat) (s : State) : State × Reply :=
  match openIndex s src slot with
  | none => (s, .status 0x7002)
  | some x =>
    if x.merge.isSome then (s, .status 0x7009)
    else if !objMay src.ctx id then (s, .status 0x8005)
    else if !maskReads s x.object ∨ !maskReads s id then (s, .status 0x8001)
    else if !maskWrites s x.object ∨ !maskWrites s id then (s, .status 0x8002)
    else if (objAt s id).isSome then (s, .status 0x8007)
    else if !pinsFit s slot x then (s, .status 0x7007)
    else
      let s := s.setVse slot { x with merge := some (src, id, snapOf x) }
      (s.setFld (VSE_IX_A_MERGING slot) 1, .later)

def execVseMerge (src : Src) (slot : Nat) (id : BitVec 64) (s : State) : Host.Outcome State Fault Refusal :=
  .next (runItem s src 0xED (mergeBody src slot id.toNat))

/-- The change of generation (R431). -/
def mergeChange (s : State) (slot : Nat) : State :=
  match mget s.vse slot with
  | none => s
  | some x =>
    match x.merge with
    | none => s
    | some (src, id, n) =>
      let (y, bytes, len) := mergeIndex (indexObj s x) x id n
      let fits := (maskBays (objMask id)).all fun b => objShare id len b ≤ s.fld (CRT_FREE_BYTES b)
      let s := s.setFld (VSE_IX_A_MERGING slot) 0
      if !maskWrites s id ∨ !fits then
        tryClose (completeFail (s.setVse slot { x with merge := none }) src 0xED (if fits then 0x8002 else 0x8006) 0 0) slot
      else
        let s := objStore s id bytes len
        let s := (maskBays (objMask id)).foldl (fun s b => chargeWrite s b (objShare id len b)) s
        let s := s.setVse slot { y with oldObjects := x.oldObjects ++ [(x.gen, x.object)] }
        let s := (s.setFld (VSE_IX_B_GEN slot) y.gen).setFld (VSE_IX_B_SEQ slot) (snapOf y)
        tryClose (complete (dropOld s slot) src 0xED 0 (BitVec.ofNat 64 y.gen) 0 0) slot

def execMergeGenerationChange (slot : Nat) (s : State) : Host.Outcome State Fault Refusal := .next (mergeChange s slot)

/-! ### Documents (R438 to R442) -/

/-- The effect of vse.doc. -/
def docBody (src : Src) (slot tokens : Nat) (attr : BitVec 32) (id addr : Word) (s : State) : State × Reply :=
  match openIndex s src slot with
  | none => (s, .status 0x7002)
  | some x =>
    if tokens = 0 ∨ 8192 < tokens then (s, .status 0x7003)
    else if x.encoder.isNone then (s, .status 0x7012)
    else if 4096 ≤ x.docs.length ∨ 67108864 < 4 * ((x.docs.map fun d => d.tokens.length).sum + tokens) then (s, .status 0x7011)
    else match itemRead s src 3 addr (4 * tokens) with
      | .error st => (s, .status st)
      | .ok bs =>
        let d : Doc := { qpos := x.nextDoc % 4096, tokens := (chunks 4 tokens bs).map leNat, attr, id := id.toNat, src }
        (s.setVse slot { x with docs := x.docs ++ [d], nextDoc := x.nextDoc + 1 }, .done 0 (BitVec.ofNat 64 d.qpos) 0 0)

def execVseDoc (src : Src) (slot tokens : Nat) (attr : BitVec 32) (id addr : BitVec 64) (s : State) :
    Host.Outcome State Fault Refusal := .next (runItem s src 0xEE (docBody src slot tokens attr id addr))

/-- Puts a vector for the record of a cell's indexing galley: the state, the status and SEQ (R428, R440, R443). -/
def putVector (s : State) (w : List Word) (vs : Nat → List Nat) : Option (State × Nat × Nat) :=
  let w0 := (w.getD 0 0).toNat
  let slot := bits w0 12 6
  match mget s.vse slot with
  | none => none
  | some x =>
    match x.docs.find? fun d => d.qpos = bits w0 0 12 with
    | none => none
    | some d =>
      let x' := { x with docs := x.docs.filter fun y => y.qpos ≠ d.qpos }
      let e := sideRefusal s slot x
      if e ≠ 0 then some (indexNotice (s.setVse slot x') d.src e 0 d.id, e, 0)
      else some (appendSide s slot x' d.id d.attr false (roundVec x (vs x.d)) (some d.src) true, 0, x.nextSeq)

/-- vsr.put: no exception; where the record index or the address names nothing, what sD gets is a free value (log entry 12). -/
def vsrPutBody (x : CellItem) (s : State) (c : Cell) : CellOut :=
  let a := (sreg c x.a).toNat
  let rec_ := if c.slice < 4 then
      ((s.slice (4 * c.part + c.slice)).running).bind fun g => fetchRec g (sreg c x.b).toNat
    else none
  match rec_.bind fun r => putVector s r.2 fun d => (List.range d).map fun k => rdLE c.mem ((a + 4 * k) % 2 ^ 22) 4 with
  | some (s', st, seq) => .ok s' (setS c x.d (BitVec.ofNat 64 (st + seq * 2 ^ 16)))
  | none => .ok s.draw.2 (setS c x.d s.draw.1)

def execVsrPut (x : CellItem) (s : State) : Host.Outcome State Fault Refusal := cellItem x 0 (vsrPutBody x) s

/-- vsr.scan. -/
def vsrScanBody (x : CellItem) (s : State) (c : Cell) : CellOut :=
  let n := (sreg c x.c).toNat
  let m := bits x.w1.toNat 0 9
  let out := bits x.w1.toNat 9 22
  let a := (sreg c x.a).toNat
  let b := (sreg c x.b).toNat
  if m = 0 ∨ 256 < m then .exc s c 2
  else
    let e := firstCode [(a, n * entryBytesOf m, 1), (b, 512 * m, 1), (out, 4 * n, 1)]
    if e ≠ 0 then .exc s c e
    else if mustWait (cellModel s c) c a (n * entryBytesOf m) false || mustWait (cellModel s c) c b (512 * m) false ||
        mustWait (cellModel s c) c out (4 * n) true then .wait s c
    else if (memUnits a (n * entryBytesOf m) ++ memUnits b (512 * m)).any (c.poison.contains ·) then .exc (memError s x.cell a) c 5
    else
      let score (i : Nat) : Nat := ((List.range m).map fun k =>
        rdLE c.mem (b + 2 * (256 * k + (rdByte c.mem (a + i * entryBytesOf m + 8 + k)).toNat)) 2).sum
      .ok (memCorrected s x.cell a ((memUnits a (n * entryBytesOf m) ++ memUnits b (512 * m)).countP (c.weak.contains ·)))
        (setS (cellWrite c out ((List.range n).flatMap fun i => leBytes 4 (score i))) x.d (sreg c x.c))

def execVsrScan (x : CellItem) (s : State) : Host.Outcome State Fault Refusal := cellItem x 1 (vsrScanBody x) s

/-- Charges indexing energy (R442); a fraction of a microjoule is dropped. -/
def meter (s : State) (inputUj busy : Nat) (l : List (Nat × Nat)) : State :=
  if busy = 0 then s
  else l.foldl (fun s y =>
    if (mget s.vse y.1).isSome then s.incWrap (VSE_IX_ENERGY_ENERGY_UJ y.1) (inputUj * y.2 / busy) else s) s

def execEnergyMeter (inputUj busyCells : Nat) (indexCells : List (Nat × Nat)) (s : State) : Host.Outcome State Fault Refusal :=
  .next (meter s inputUj busyCells indexCells)

end Sys2Proof.Machine
end

