-- ==== Sys2Proof/Machine/Bays.lean ====
section
/-! DEFINITION. Cartridge bays (10 R364 to R366, R375 to R379, R399, R400, R406 to R410, R610): the bay state machine, wear
records, and the cartridge items. -/

namespace Sys2Proof.Machine

/-! ### States and what they show (R364; 03 R103, R104) -/

/-- STATE of a bay. -/
def bst (s : State) (b : Nat) : Nat := s.fld (CRT_BAY_STATE b)

/-- A set of bays as bits. -/
def bayBits (f : Nat → Bool) : Nat := ((List.range 4).map fun b => b2n (f b) * 2 ^ b).sum

/-- Shows which bays are present and accept parks, and whether P3 is open; when P3 closes, the tier-change event (R364, R399;
03 R103, R104). -/
def showBays (s : State) : State :=
  let was := s.flag SES_TIER_STATUS_P3_OPEN
  let s := s.setFld GLB_RES1_BAYS_PRESENT (bayBits fun b => bst s b = 5 || bst s b = 6 || bst s b = 8)
  let w := bayBits fun b => bst s b = 5 && s.flag (CRT_BAY_HOLDUP_OK b)
  let s := (s.setFld SES_TIER_STATUS_BAYS_WRITABLE w).setFld SES_TIER_STATUS_P3_OPEN (b2n (w ≠ 0))
  if was && decide (w = 0) then edge s 0x402 else s

/-- Puts a bay in a state, at this device time. -/
def setBst (s : State) (b st : Nat) : State := showBays ((s.setFld (CRT_BAY_STATE b) st).setBay b { s.bay b with since := s.now })

/-- Fault source of a bay's unit (13 R494). -/
def baySource (b u : Nat) : Nat := 0xB00 + 8 * b + u

/-- Whether a bay runs its sequence: from phase 0x2 onward, while its hub is in service (15 R580; 13 R520). -/
def baysRun (s : State) (b : Nat) : Bool :=
  s.awake && s.hubUp (b / 2) && decide (2 ≤ s.fld GLB_STATE_START_PHASE) && decide (s.fld GLB_STATE_START_PHASE ≤ 7)

/-! ### Insertion (R365) -/

/-- Presence has been asserted for 50 ms. -/
def presence (s : State) (b : Nat) : State :=
  if 4 ≤ b then s
  else
    let s := if s.pins.present.getD b false then s
      else edge { s with pins := { s.pins with present := s.pins.present.set b true } } (0x410 + b)
    if baysRun s b then
      let s := (s.setFld (CRT_BAY_PRESENT b) 1).setBay b { s.bay b with presAt := some s.now }
      if bst s b = 0 then setBst s b 1 else s
    else s

def execPresenceAsserted (bay : Nat) (s : State) : Host.Outcome State Fault Refusal := .next (presence s bay)

/-- Hold-up status reads good. -/
def holdUp (s : State) (b : Nat) : State :=
  if 4 ≤ b then s
  else
    let s := if s.pins.holdup.getD b false then s
      else edge { s with pins := { s.pins with holdup := s.pins.holdup.set b true } } (0x414 + b)
    if baysRun s b then
      let s := (s.setFld (CRT_BAY_HOLDUP_OK b) 1).setBay b { s.bay b with badAt := none }
      if bst s b = 1 then setBst s b 2
      else if bst s b = 5 then capacityChange (showBays s) else s
    else s

def execHoldUpGood (bay : Nat) (s : State) : Host.Outcome State Fault Refusal := .next (holdUp s bay)

/-- The hold-up timer of 2 s. -/
def holdUpLate (s : State) (b : Nat) : State :=
  if bst s b = 1 ∧ (s.bay b).since + 2 * 10 ^ 9 ≤ s.now then setBst (s.setFld (CRT_BAY_RO_REASON b) 3) b 10 else s

def execHoldUpTimerExpiry (bay : Nat) (s : State) : Host.Outcome State Fault Refusal := .next (holdUpLate s bay)

/-- Whether the root of trust accepts a colophon (R376, R377). -/
def colophonOk (c : Colophon) : Bool :=
  c.sigOk && decide (c.ver = 1) && decide (c.channels = 24) && decide (c.tProgSlc ≤ 230) &&
  decide (c.tResumeMin + c.tSusp + 2 * c.tRdWorst + 4 ≤ 200) && c.reservedZero

/-- The later of two wear copies. -/
def newestWear : Option WearRec → Option WearRec → Option WearRec
  | some a, some b => if a.wgen < b.wgen then some b else some a
  | some a, none => some a
  | none, b => b

/-- Field by field the greater of two sets of wear fields (R379). -/
def greaterWear (a b : WearRec) : WearRec where
  tagOk := true
  wgen := max a.wgen b.wgen
  readOnly := a.readOnly || b.readOnly
  roReason := max a.roReason b.roReason
  hostWr := max a.hostWr b.hostWr
  nandWr := max a.nandWr b.nandWr
  eraseMax := max a.eraseMax b.eraseMax
  eraseMean := max a.eraseMean b.eraseMean
  spare := max a.spare b.spare
  retired := max a.retired b.retired

/-- Wear fields of a blank cartridge. -/
def blankWear : WearRec where
  tagOk := true
  wgen := 0
  readOnly := false
  roReason := 0
  hostWr := 0
  nandWr := 0
  eraseMax := 0
  eraseMean := 0
  spare := 0
  retired := 0

/-- Wear fields at insertion, whether the cartridge is blank, whether the fields are unverified (R379). -/
def insertedWear (a b sb : Option WearRec) (erased : Bool) : WearRec × Bool × Bool :=
  match newestWear (a.filter (·.tagOk)) (b.filter (·.tagOk)), sb.filter (·.tagOk) with
  | some w, some v => (greaterWear w v, false, false)
  | some w, none => (w, false, false)
  | none, some v => (v, false, false)
  | none, none => if erased then (blankWear, true, false) else ((newestWear a b).getD blankWear, false, true)

/-- Shows wear fields in the bay's registers (R412). -/
def showWear (s : State) (b : Nat) (w : WearRec) : State :=
  let s := (s.setFld (CRT_HOST_WR_BYTES b) w.hostWr).setFld (CRT_NAND_WR_BYTES b) w.nandWr
  ((s.setFld (CRT_BLOCKS_ERASE_MAX b) w.eraseMax).setFld (CRT_BLOCKS_ERASE_MEAN b) w.eraseMean).setFld (CRT_BLOCKS_SPARE_BLOCKS b) w.spare

/-- The colophon has been read: TRAINING, or refused (R365, R376 to R379). -/
def colophonRead (s : State) (b : Nat) (c : Colophon) (wa wb sb : Option WearRec) (erased : Bool) : State :=
  if bst s b ≠ 2 then s
  else if colophonOk c then
    let w := insertedWear wa wb sb erased
    let s := s.setBay b { s.bay b with col := some c, wear := w.1, blank := w.2.1, wearAt := s.now }
    let s := (s.setFld (CRT_BAY_PART b) c.part).setFld (CRT_SERIAL_SERIAL b) c.serial
    setBst ((showWear s b w.1).setFld (CRT_BAY_WEAR_UNVERIFIED b) (b2n w.2.2)) b 3
  else fault (setBst s b 10) (baySource b 6) 0x10 0x800A 0 (0x4000 + b)

def execColophonVerified (bay : Nat) (col : Colophon) (wearA wearB superblock : Option WearRec) (erased : Bool) (s : State) :
    Host.Outcome State Fault Refusal := .next (colophonRead s bay col wearA wearB superblock erased)

/-- I3C has been silent for 100 ms (R365). -/
def i3cQuiet (s : State) (b : Nat) : State :=
  if bst s b = 2 ∧ (s.bay b).since + 100 * 10 ^ 6 ≤ s.now then fault (setBst s b 10) (baySource b 6) 0x10 0x800A 0 (0x4000 + b) else s

def execI3cSilent (bay : Nat) (s : State) : Host.Outcome State Fault Refusal := .next (i3cQuiet s bay)

/-! ### The link of a bay (R367, R368, R370, R371) -/

/-- A link end after training. -/
def link0 : Link := bay0.link

/-- Number of a sequence minus one, modulo 4,096. -/
def seqBefore (n : Nat) : Nat := (n + 4095) % 4096

/-- Sends a flit that takes a sequence number, and keeps it until it is acknowledged (R367, R368). -/
def sendFlit (s : State) (b typ channel optag : Nat) (payload : List Byte) : State :=
  let l := (s.bay b).link
  let f : Flit := { crcOk := true, seq := l.txSeq, typ, ack := seqBefore l.rxSeq, nak := false, channel, len := payload.length,
                    optag, payload }
  let kept := l.replay ++ [f]
  s.setBay b { s.bay b with link := { l with
    txSeq := (l.txSeq + 1) % 4096, replay := kept.drop (kept.length - 1024), sent := l.sent ++ [f],
    sentAt := if l.replay.isEmpty then s.now else l.sentAt } }

/-- Sends a command flit, or holds it until the bridge grants a credit of its channel (R367, R371). -/
def sendCommand (s : State) (b channel optag : Nat) (payload : List Byte) : State :=
  let l := (s.bay b).link
  let n := (mget l.credits channel).getD 0
  if 0 < n then
    sendFlit (s.setBay b { s.bay b with link := { l with credits := mset l.credits channel (n - 1) } }) b 1 channel optag payload
  else
    let f : Flit := { crcOk := true, seq := 0, typ := 1, ack := 0, nak := false, channel, len := payload.length, optag, payload }
    s.setBay b { s.bay b with link := { l with held := l.held ++ [f] } }

/-- A channel command's payload (R371). -/
def commandBytes (op die row column units retry issuer : Nat) : List Byte :=
  leBytes 1 op ++ leBytes 1 die ++ leBytes 1 0 ++ leBytes 1 0 ++ leBytes 4 row ++ leBytes 2 column ++ leBytes 2 units ++
  leBytes 1 retry ++ leBytes 3 0 ++ leBytes 3 issuer

/-- Sets at the bridge the instar of the engine that serves a channel (R370). -/
def sendIssuer (b : Nat) (s : State) (ch : Nat) : State :=
  let i := engineInstar s (24 * b + ch)
  let s := s.setBay b { s.bay b with issuers := mset (s.bay b).issuers ch i }
  sendFlit s b 6 31 0 (leBytes 1 ch ++ leBytes 3 i)

/-- A trained link: REPLAYING, the engines' instars set at the bridge. -/
def linkUp (s : State) (b lanes : Nat) : State :=
  let s := s.setBay b { s.bay b with link := link0, ops := [], dies := [] }
  let s := s.setFld (CRT_BAY_LANES_GOOD b) lanes
  setBst ((List.range 24).foldl (sendIssuer b) s) b 4

/-- Whether training succeeds: five lanes good and the parameter pages match (R365). -/
def trainOk (lanes : Nat) (same : Bool) : Bool := decide (5 ≤ lanes) && decide (lanes ≤ 6) && same

/-- The end of training (R365, R408). -/
def trained (s : State) (b lanes : Nat) (same : Bool) : State :=
  if bst s b ≠ 3 then s
  else if trainOk lanes same && decide (s.now ≤ (s.bay b).since + 50 * 10 ^ 6) then linkUp s b lanes
  else cartridgeLost (setBst s b 10) b (s.fld (CRT_SERIAL_SERIAL b))

def execLinkTrained (bay lanes : Nat) (paramsMatch : Bool) (s : State) : Host.Outcome State Fault Refusal :=
  .next (trained s bay lanes paramsMatch)

/-- A failed bay tries training again each second while presence holds (R365). -/
def retryTraining (s : State) (b lanes : Nat) (same : Bool) : State :=
  if bst s b = 10 ∧ s.flag (CRT_BAY_PRESENT b) ∧ (s.bay b).col.isSome ∧ (s.bay b).since + 10 ^ 9 ≤ s.now then
    if trainOk lanes same then linkUp s b lanes else setBst s b 10
  else s

def execTrainingRetry (bay lanes : Nat) (paramsMatch : Bool) (s : State) : Host.Outcome State Fault Refusal :=
  .next (retryTraining s bay lanes paramsMatch)

/-! ### Wear records (R375, R378, R379, R406) -/

/-- The wear record as it would now be written. -/
def wearNow (s : State) (b : Nat) : WearRec :=
  let w := (s.bay b).wear
  { w with tagOk := true, wgen := w.wgen + 1, roReason := s.fld (CRT_BAY_RO_REASON b), hostWr := s.fld (CRT_HOST_WR_BYTES b),
           nandWr := s.fld (CRT_NAND_WR_BYTES b), eraseMax := s.fld (CRT_BLOCKS_ERASE_MAX b),
           eraseMean := s.fld (CRT_BLOCKS_ERASE_MEAN b), spare := s.fld (CRT_BLOCKS_SPARE_BLOCKS b) }

/-- Writes a wear record: the older copy, or the other where the sideband refuses it (R375, R379). -/
def writeWear (s : State) (b : Nat) (accepted : Bool) : State :=
  let x := s.bay b
  s.setBay b { x with wear := wearNow s b, wearAt := s.now, wearCopy := if accepted then 1 - x.wearCopy else x.wearCopy }

/-- Bays whose wear record the device writes: an accepted cartridge with its link trained. -/
def execWearRecordWrite (bay : Nat) (accepted : Bool) (s : State) : Host.Outcome State Fault Refusal :=
  .next (if 4 ≤ bst s bay ∧ bst s bay ≤ 8 then writeWear s bay accepted else s)

/-! ### Replay (R365, R400; 15 R580) -/

/-- Free user bytes after a replay. -/
def freeAfter (s : State) (b : Nat) : Nat :=
  let user := ((s.bay b).col.map (·.userBytes)).getD 0
  user - ((bayRecs s b).map fun x => x.1.pages * pageBytes).sum - objBytesOn s b

/-- A cartridge that holds only what this device writes from now on. -/
def freshCartridge (s : State) (b : Nat) : State :=
  let k := s.fld (CRT_SERIAL_SERIAL b)
  { s with crt := { s.crt with
    fresh := if s.crt.fresh.contains k then s.crt.fresh else s.crt.fresh ++ [k],
    objects := s.crt.objects.filter fun o => !o.2.serials.contains k,
    gone := s.crt.gone.filter fun g => !g.2.1.contains k } }

/-- The directory of a bay is in place: WRITABLE or READ_ONLY (R365). -/
def replayed (s : State) (b : Nat) : State :=
  let x := s.bay b
  let s := s.setFld (CRT_JRNL_JOURNAL b) x.journal.length
  let s := s.setFld (CRT_JRNL_CHECKPOINT b) x.checkpoint.length
  let s := s.setFld (CRT_FREE_BYTES b) (freeAfter s b)
  let s := { s with crt := { s.crt with stale := mdel s.crt.stale b } }
  let s := s.setFld (CRT_BAY_RO_REASON b) (if x.wear.readOnly then x.wear.roReason else 0)
  let s := capacityChange (setBst s b (if x.wear.readOnly then 6 else 5))
  if s.flag GLB_STATE_READY then restoreBay s b else s

/-- The end of a replay (R365, R400, R580): a superblock that cannot be opened, as none can without domain keys (R551), waits
until READY, then the bay is FOREIGN. -/
def replayEnd (s : State) (b : Nat) (opened : Bool) (n : Nat) (recs : List (DirRec × HeadPage)) : State :=
  if bst s b ≠ 4 then s
  else
    let x := s.bay b
    if x.blank then
      let s := writeWear (freshCartridge s b) b true
      let x := s.bay b
      replayed (s.setBay b { x with blank := false, opened := true, sbGen := x.sbGen + 1, sbSlot := 1 - x.sbSlot,
                                    checkpoint := [], journal := [], nextJseq := 1, settled := false }) b
    else if s.sec.keys.isSome && (x.opened || opened) then
      let last := (recs.map fun (y : DirRec × HeadPage) => y.1.jseq).foldl max 0
      replayed (s.setBay b { x with opened := true, checkpoint := recs.take n, journal := recs.drop n, nextJseq := last + 1,
                                    settled := false }) b
    else if s.flag GLB_STATE_READY then fault (setBst s b 7) (baySource b 7) 0x10 0x800B 0 (0x4000 + b)
    else s.setBay b { x with tried := true }

def execReplayComplete (bay : Nat) (opened : Bool) (checkpoint : Nat) (records : List (DirRec × HeadPage)) (s : State) :
    Host.Outcome State Fault Refusal := .next (replayEnd s bay opened checkpoint records)

/-- At the end of phase 0x6, a bay whose superblock still cannot be opened is FOREIGN (15 R580). -/
def foreignLate (s : State) (b : Nat) : State :=
  if bst s b = 4 ∧ (s.bay b).tried = true then fault (setBst s b 7) (baySource b 7) 0x10 0x800B 0 (0x4000 + b) else s

/-! ### Parks and searches that meet the end of a bay (R366, R406, R411; 11 R443) -/

/-- Sessions that are parking to a bay. -/
def parkingTo (s : State) (b : Nat) : List Nat :=
  (s.ses.entries.filter fun x => match x.2.park with | some op => op.target = .p3 && op.place = b | none => false).map (·.1)

/-- Sessions reviving from a bay. -/
def revivingFrom (s : State) (b : Nat) : List Nat :=
  (s.ses.entries.filter fun x => match x.2.rev with | some op => op.src = .p3 && x.2.bay = b | none => false).map (·.1)

/-- A tombstone that was on its way to a removed cartridge is owed again. -/
def owedAgain (s : State) (b : Nat) (x : Nat × Session) : State :=
  if x.2.tombstone = 2 ∧ (x.2.p3.map (·.bay)) = some b then
    { s with ses := { s.ses with entries := mset s.ses.entries x.1 { x.2 with tombstone := 1 } } }
  else s

/-- Ends what an index has in flight with a status: queries, pending appends and a merge. -/
def searchEnds (st : Nat) (s : State) (slot : Nat) : State :=
  match mget s.vse slot with
  | none => s
  | some x =>
    let s := x.queries.foldl (fun s q => endQuery (completeFail s q.2.src 0xEA st 0 0) slot q.1) s
    match mget s.vse slot with
    | none => s
    | some x =>
      let open_ := x.side.filter fun r => !r.durable
      let s := open_.foldl (fun s r => match r.src with
        | none => s
        | some src => if r.doc then indexNotice s src st r.seq r.id
          else completeFail s src (if r.delete then 0xEC else 0xEB) st 0 0) s
      let s := match x.merge with
        | none => s
        | some (src, _, _) => (completeFail s src 0xED st 0 0).setFld (VSE_IX_A_MERGING slot) 0
      tryClose (s.setVse slot { x with side := x.side.filter (·.durable), nextSeq := x.nextSeq - open_.length, pageOpen := 0,
                                       pagesInFlight := [], merge := none }) slot

/-- The searches on an index whose bay is gone (11 R443). -/
def searchLost (s : State) (slot : Nat) : State := searchEnds 0x8004 s slot

/-- Every operation of a bay in flight fails with 0x8004 (R365, R366). -/
def bayGone (s : State) (b : Nat) : State :=
  let s := (parkingTo s b).foldl (fun s i => parkFailed s i 0x8004) s
  let s := (revivingFrom s b).foldl abortRevival s
  let s := s.ses.entries.foldl (fun s x => owedAgain s b x) s
  let s := (s.bay b).waitItems.foldl (fun s y => completeFail s y.2 y.1 0x8004 0 0) s
  let s := s.setBay b { s.bay b with waitItems := [] }
  ((s.vse.filter fun y => (maskBays (objMask y.2.object)).contains b).map (·.1)).foldl searchLost s

/-- Clears a bay's registers, but for its pins and the bay it leaves for. -/
def clearBay (s : State) (b : Nat) : State :=
  let s := ((s.setReg (CRT_BAY_STATE b).off 0).setReg (CRT_SERIAL_SERIAL b).off 0).setReg (CRT_HOST_WR_BYTES b).off 0
  let s := ((s.setReg (CRT_NAND_WR_BYTES b).off 0).setReg (CRT_BLOCKS_ERASE_MAX b).off 0).setReg (CRT_FREE_BYTES b).off 0
  let s := (s.setReg (CRT_JRNL_JOURNAL b).off 0).setFld (CRT_BAY_HOLDUP_OK b) (b2n (s.pins.holdup.getD b false))
  s.setBay b bay0

/-- Surprise removal (R365, R366). -/
def removed (s : State) (b : Nat) : State :=
  if 4 ≤ b then s
  else
    let s := if s.pins.present.getD b false then
        edge { s with pins := { s.pins with present := s.pins.present.set b false } } (0x410 + b)
      else s
    if bst s b = 0 then s.setFld (CRT_BAY_PRESENT b) 0
    else
      let s := bayGone (setBst s b 0) b
      let s := (clearBay s b).setBay b { bay0 with since := s.now }
      capacityChange (showBays s)

def execPresenceDeasserted (bay : Nat) (s : State) : Host.Outcome State Fault Refusal := .next (removed s bay)

/-! ### End of life (R399, R406, R407) -/

/-- Blocks of a cartridge. -/
def blocksOf (c : Colophon) : Nat := c.channels * c.diesPerCh * c.planes * c.blocksPerPl

/-- Whether an end-of-life condition holds, by RO_REASON (R406). -/
def lifeOver (s : State) (b reason : Nat) : Bool :=
  match (s.bay b).col, reason with
  | none, _ => false
  | some c, 1 => decide (200 * s.fld (CRT_BLOCKS_SPARE_BLOCKS b) ≤ blocksOf c)
  | some c, 2 => decide (c.peRated ≤ s.fld (CRT_BLOCKS_ERASE_MEAN b))
  | some _, 3 => match (s.bay b).badAt with
    | none => false
    | some t => decide (t + 100 * 10 ^ 6 ≤ s.now)
  | some _, 4 => true
  | some _, _ => false

/-- A bay turns READ_ONLY: recorded in the wear record; parks to it abort; it neither compacts nor parks (R406, R407). -/
def endLife (s : State) (b reason : Nat) : State :=
  if bst s b = 5 && lifeOver s b reason then
    let s := (s.setFld (CRT_BAY_RO_REASON b) reason).setFld (CRT_BAY_COMPACTING b) 0
    let s := s.setBay b { s.bay b with wear := { (s.bay b).wear with readOnly := true, roReason := reason }, compact := none }
    let s := setBst (writeWear s b true) b 6
    let s := (parkingTo s b).foldl (fun s i => parkFailed s i 0x8002) s
    let items := (s.bay b).waitItems.filter fun y => y.1 = 0xF5
    let s := s.setBay b { s.bay b with waitItems := (s.bay b).waitItems.filter fun y => y.1 ≠ 0xF5 }
    capacityChange (items.foldl (fun s y => completeFail s y.2 y.1 0x8009 0 0) s)
  else s

def execEndOfLife (bay reason : Nat) (s : State) : Host.Outcome State Fault Refusal := .next (endLife s bay reason)

/-- Hold-up status reads bad (R399, R406). -/
def holdUpBad (s : State) (b : Nat) : State :=
  if 4 ≤ b then s
  else
    let s := if s.pins.holdup.getD b false then
        edge { s with pins := { s.pins with holdup := s.pins.holdup.set b false } } (0x414 + b)
      else s
    let s := s.setFld (CRT_BAY_HOLDUP_OK b) 0
    if bst s b = 5 then
      capacityChange (showBays (s.setBay b { s.bay b with badAt := some (((s.bay b).badAt).getD s.now) }))
    else s

def execHoldUpStatusBad (bay : Nat) (s : State) : Host.Outcome State Fault Refusal := .next (holdUpBad s bay)

/-! ### Flash objects (R409, R410; 13 R514, R515) -/

/-- Why a context cannot write to an object's bays, 0 when it can. -/
def objWriteRefusal (s : State) (ctx id : Nat) : Nat :=
  if !objMay ctx id then 0x8005
  else if !maskReads s id then 0x8001
  else if !maskWrites s id then 0x8002
  else 0

/-- Whether an adaptation proof may be written (13 R514, R515). -/
def proofOk (bs : List Byte) : Bool :=
  let w (i : Nat) := imgWord bs i
  bitOf (w 0) 18 && bitOf (w 0) 19 && decide (bits (w 6) 32 32 ≠ 0) && decide (bits (w 7) 32 32 ≠ 0) &&
  decide (sha384 (bs.take 80 ++ List.replicate 48 0#8 ++ bs.drop 128) = (bs.drop 80).take 48)

/-- The effect of crt.put. -/
def crtPutBody (src : Src) (id : Nat) (source : Word) (len : Nat) (s : State) : State × Reply :=
  let e := objWriteRefusal s src.ctx id
  if e ≠ 0 then (s, .status e)
  else if (objAt s id).isSome then (s, .status 0x8007)
  else if (maskBays (objMask id)).any fun b => s.fld (CRT_FREE_BYTES b) < objShare id len b then (s, .status 0x8006)
  else match itemRead s src 2 source len with
    | .error st => (s, .status st)
    | .ok bs =>
      if objKind id = 3 ∧ bits (imgWord bs 0) 16 2 = 2 ∧ !proofOk bs then (s, .status 0xA020)
      else
        let s := (maskBays (objMask id)).foldl (fun s b => ensureKey s (objCtx id) b) s
        (objPut s id bs, .done 0 (BitVec.ofNat 64 len) 0 0)

def execCrtPut (src : Src) (id source : BitVec 64) (len : Nat) (s : State) : Host.Outcome State Fault Refusal :=
  .next (runItem s src 0xF0 (crtPutBody src id.toNat source len))

/-- The effect of crt.get. -/
def crtGetBody (src : Src) (id : Nat) (dest : Word) (offset len : Nat) (s : State) : State × Reply :=
  match objFind s src.ctx id with
  | .error st => (s, .status st)
  | .ok o =>
    let bs := objRead o offset len
    match itemWrite s src 2 dest bs with
    | .error st => (s, .status st)
    | .ok s => (s, .done 0 (BitVec.ofNat 64 bs.length) 0 0)

def execCrtGet (src : Src) (id dest : BitVec 64) (offset len : Nat) (s : State) : Host.Outcome State Fault Refusal :=
  .next (runItem s src 0xF1 (crtGetBody src id.toNat dest offset len))

/-- The effect of crt.del. -/
def crtDelBody (src : Src) (id : Nat) (s : State) : State × Reply :=
  let e := objWriteRefusal s src.ctx id
  if e ≠ 0 then (s, .status e)
  else match objAt s id with
    | none => (s, .status 0x8003)
    | some o => (objDel s id o, .ok)

def execCrtDel (src : Src) (id : BitVec 64) (s : State) : Host.Outcome State Fault Refusal :=
  .next (runItem s src 0xF2 (crtDelBody src id.toNat))

/-! ### Eject and format (R365, R410, R610) -/

/-- The effect of crt.eject. -/
def ejectBody (src : Src) (b : Nat) (s : State) : State × Reply :=
  let st := bst s b
  if src.ctx ≠ 0 then (s, .status 0x8008)
  else if st = 5 ∨ st = 6 ∨ st = 7 then
    let s := s.setBay b { s.bay b with waitItems := (s.bay b).waitItems ++ [(0xF3, src)], drained := decide (st = 7) }
    (capacityChange (setBst s b 8), .later)
  else if st = 3 ∨ st = 4 ∨ st = 8 then (s, .status 0x8009)
  else (s, .status 0x8001)

def execCrtEject (src : Src) (bay : Nat) (s : State) : Host.Outcome State Fault Refusal :=
  .next (runItem s src 0xF3 (ejectBody src bay))

/-- Whether the operations of an ejecting bay have drained. -/
def bayIdle (s : State) (b : Nat) : Bool :=
  let x := s.bay b
  (parkingTo s b).isEmpty && (revivingFrom s b).isEmpty && x.openPage.isEmpty && x.inFlight.isEmpty && x.compact.isNone &&
  !(s.vse.any fun y => (maskBays (objMask y.2.object)).contains b && !slotQuiet y.2)

/-- An ejecting bay has drained: superblock and wear record written, EJECTED (R365, R379). -/
def ejected (s : State) (b : Nat) : State :=
  if bst s b = 8 && bayIdle s b then
    let x := s.bay b
    let s := if x.drained then s
      else writeWear (s.setBay b { x with sbGen := x.sbGen + 1, sbSlot := 1 - x.sbSlot, drained := true }) b true
    let items := (s.bay b).waitItems
    let s := s.setBay b { s.bay b with waitItems := [] }
    items.foldl (fun s y => complete s y.2 y.1 0 0 0 0) (capacityChange (setBst s b 9))
  else s

def execEjectDrained (bay : Nat) (s : State) : Host.Outcome State Fault Refusal := .next (ejected s bay)

/-- The effect of crt.format: every block erased, an empty superblock written, REPLAYING. -/
def formatBody (src : Src) (b : Nat) (s : State) : State × Reply :=
  if src.ctx ≠ 0 then (s, .status 0x8008)
  else if bst s b ≠ 7 then (s, .status 0x8009)
  else
    let s := freshCartridge s b
    let s := (s.incSat (CRT_BLOCKS_ERASE_MAX b) 1).incSat (CRT_BLOCKS_ERASE_MEAN b) 1
    let s := s.setBay b { s.bay b with blocks := [], checkpoint := [], journal := [], heldBack := [], keyTable := [], blank := true }
    (setBst s b 4, .ok)

def execCrtFormat (src : Src) (bay : Nat) (s : State) : Host.Outcome State Fault Refusal :=
  .next (runItem s src 0xF4 (formatBody src bay))

end Sys2Proof.Machine
end

