-- ==== Sys2Proof/Machine/CellScalar.lean ====
section
/-! DEFINITION. Scalar and control items of the cell profile (07 R230, R238 to R245, R270; 05 R173): arithmetic, loads and
stores, special registers, branches, exceptions, and the step-program items. -/

namespace Sys2Proof.Machine

/-! ### Scalar arithmetic (R241) -/

/-- sD = sA op (sB + IMM). -/
def scalarItem (x : CellItem) (op : Word → Word → Word) (s : State) : Host.Outcome State Fault Refusal :=
  regItem x 0 (fun c => setS c x.d (op (sreg c x.a) (opB c x))) s

/-- Shift count: bits [5:0]. -/
def shiftOf (w : Word) : Nat := w.toNat % 64

def execNop (x : CellItem) (s : State) : Host.Outcome State Fault Refusal := regItem x 0 id s

def execSadd (x : CellItem) (s : State) : Host.Outcome State Fault Refusal := scalarItem x (· + ·) s

def execSsub (x : CellItem) (s : State) : Host.Outcome State Fault Refusal := scalarItem x (· - ·) s

def execSmul (x : CellItem) (s : State) : Host.Outcome State Fault Refusal := scalarItem x (· * ·) s

def execSand (x : CellItem) (s : State) : Host.Outcome State Fault Refusal := scalarItem x (· &&& ·) s

def execSor (x : CellItem) (s : State) : Host.Outcome State Fault Refusal := scalarItem x (· ||| ·) s

def execSxor (x : CellItem) (s : State) : Host.Outcome State Fault Refusal := scalarItem x (· ^^^ ·) s

def execShl (x : CellItem) (s : State) : Host.Outcome State Fault Refusal := scalarItem x (fun a b => a <<< shiftOf b) s

def execShr (x : CellItem) (s : State) : Host.Outcome State Fault Refusal := scalarItem x (fun a b => a >>> shiftOf b) s

def execSra (x : CellItem) (s : State) : Host.Outcome State Fault Refusal := scalarItem x (fun a b => a.sshiftRight (shiftOf b)) s

/-- cmp.T on the whole registers, signed or unsigned as T is. -/
def cmpBody (x : CellItem) (c : Cell) : Option Cell :=
  match intType x.t with
  | none => none
  | some (_, signed) =>
    if 5 < x.fn then none
    else
      let o := ordInt (atType 64 signed (sreg c x.a).toNat) (atType 64 signed (opB c x).toNat)
      some (setS c x.d (BitVec.ofNat 64 (b2n (condHolds x.fn o false))))

def execCmp (x : CellItem) (s : State) : Host.Outcome State Fault Refusal := checkedItem x 0 (cmpBody x) s

def execLi (x : CellItem) (s : State) : Host.Outcome State Fault Refusal := regItem x 1 (fun c => setS c x.d x.w1) s

/-! ### Loads and stores (R241, R242) -/

/-- ld.T: an integer of type T, extended by T's sign. -/
def ldBody (x : CellItem) (s : State) (c : Cell) : CellOut :=
  match intType x.t with
  | none => .exc s c 2
  | some (w, signed) =>
    cellLoad s x.cell c (opAddr c x).toNat (w / 8) (w / 8) fun s bs =>
      .ok s (setS c x.d (BitVec.ofInt 64 (atType w signed (leNat bs))))

def execLd (x : CellItem) (s : State) : Host.Outcome State Fault Refusal := cellItem x 0 (ldBody x) s

/-- st.T: the low bytes of sB. -/
def stBody (x : CellItem) (s : State) (c : Cell) : CellOut :=
  match intType x.t with
  | none => .exc s c 2
  | some (w, _) => cellStore s c (opAddr c x).toNat (w / 8) (leBytes (w / 8) (sreg c x.b).toNat)

def execSt (x : CellItem) (s : State) : Host.Outcome State Fault Refusal := cellItem x 0 (stBody x) s

/-! ### Special registers (R239, R240) -/

/-- The galley a cell runs. -/
def cellGalley (s : State) (c : Cell) : Option Galley := (s.slice (4 * c.part + c.slice)).running.filter fun _ => decide (c.slice < 4)

/-- The number that IMM gives a special register; a negative IMM names none. -/
def srNumber (x : CellItem) : Nat := x.imm.toNat

/-- The value of a special register (R240). -/
def specialReg (s : State) (n : Nat) (c : Cell) (r : Nat) : Nat :=
  let g := cellGalley s c
  match r with
  | 0x00 => s.now
  | 0x01 => n
  | 0x02 => cellInstar s n
  | 0x03 => c.part + c.slice % 4 * 2 ^ 4
  | 0x04 => c.rank
  | 0x05 => c.cells
  | 0x06 => (g.map (·.step)).getD 0
  | 0x07 => (g.map fun g => galCount g + g.cCount * 2 ^ 16).getD 0
  | 0x08 => (g.map (·.release)).getD 0
  | 0x09 => (g.map (·.deadline)).getD 0
  | 0x0A => c.status.toNat
  | 0x0B => c.epc
  | r =>
    if 0x20 ≤ r ∧ r ≤ 0x2F then (descWords (r - 0x20) (descOf c (r - 0x20))).getD 0 0
    else if 0x30 ≤ r ∧ r ≤ 0x3F then (descOf c (r - 0x30)).faultAddr.toNat
    else 0

def execRdsr (x : CellItem) (s : State) : Host.Outcome State Fault Refusal :=
  cellItem x 0 (fun s c => .ok s (setS c x.d (BitVec.ofNat 64 (specialReg s x.cell c (srNumber x))))) s

/-- A write of the status register (06 R208, R239): RM, SAT and HANDLERS take the value, flags are cleared by ones, the rest
ignores it; HANDLERS bits 0, 5 and 10 to 15 stay zero. -/
def writeStatus (old v : Word) : Word :=
  let rw : Word := BitVec.ofNat 64 (0x7 + 0x03DE * 2 ^ 48)
  let w1c : Word := BitVec.ofNat 64 0xFFFF3F00
  (old &&& ~~~ (rw ||| (w1c &&& v))) ||| (v &&& rw)

/-- wrsr: the status register and EPC take writes, the others ignore them. -/
def wrsrBody (x : CellItem) (c : Cell) : Cell :=
  match srNumber x with
  | 0x0A => { c with status := writeStatus c.status (sreg c x.a) }
  | 0x0B => { c with epc := (sreg c x.a).toNat % 4096 }
  | _ => c

def execWrsr (x : CellItem) (s : State) : Host.Outcome State Fault Refusal := regItem x 0 (wrsrBody x) s

/-! ### Branches (R241) -/

/-- pc + IMM as a word index. -/
def branchTo (c : Cell) (x : CellItem) : Nat := (BitVec.ofNat 64 c.pc + immOf x).toNat % 4096

def execBr (x : CellItem) (s : State) : Host.Outcome State Fault Refusal :=
  cellItem x 0 (fun s c => .jump s c (branchTo c x)) s

/-- bc: the order is signed or unsigned as the spec leaves open; where the two differ the branch is a free value (log entry
12). -/
def bcBody (x : CellItem) (s : State) (c : Cell) : CellOut :=
  if 5 < x.fn then .exc s c 2
  else
    let holds (signed : Bool) : Bool :=
      condHolds x.fn (ordInt (atType 64 signed (sreg c x.a).toNat) (atType 64 signed (sreg c x.b).toNat)) false
    let go (s : State) (b : Bool) : CellOut := if b then .jump s c (branchTo c x) else .ok s c
    if holds true = holds false then go s (holds true) else go s.draw.2 (bitOf s.draw.1.toNat 0)

def execBc (x : CellItem) (s : State) : Host.Outcome State Fault Refusal := cellItem x 0 (bcBody x) s

def execCall (x : CellItem) (s : State) : Host.Outcome State Fault Refusal :=
  cellItem x 0 (fun s c => .jump s (setS c x.d (BitVec.ofNat 64 (c.pc + 1))) (branchTo c x)) s

def execJr (x : CellItem) (s : State) : Host.Outcome State Fault Refusal :=
  cellItem x 0 (fun s c => .jump s c ((sreg c x.a).toNat % 4096)) s

/-! ### Exceptions (R230, R232, R270) -/

def execTrap (x : CellItem) (s : State) : Host.Outcome State Fault Refusal := cellItem x 0 (fun s c => .exc s c 9) s

def execEret (x : CellItem) (s : State) : Host.Outcome State Fault Refusal :=
  cellItem x 0 (fun s c =>
    .jump s { c with status := putField c.status 37 1 0 } (if excCode c = 9 then c.epc + 1 else c.epc)) s

/-- Extension words of an opcode in the cell profile; none where it is unassigned or control-only (R230, R241). -/
def extOf (op : Nat) : Option Nat :=
  if op = 0x0B ∨ op = 0x18 ∨ op = 0x50 ∨ (0x72 ≤ op ∧ op ≤ 0x75) ∨ (0x80 ≤ op ∧ op ≤ 0x82) then some 1
  else if op ≤ 0x17 ∨ (0x20 ≤ op ∧ op ≤ 0x3A) ∨ (0x51 ≤ op ∧ op ≤ 0x54) ∨ (0x60 ≤ op ∧ op ≤ 0x64) ∨
      (0x70 ≤ op ∧ op ≤ 0x78) ∨ (0xB0 ≤ op ∧ op ≤ 0xBB) then some 0
  else none

/-- An item whose opcode the cell profile does not have, or whose count of extension words is not the opcode's. -/
def execIllegalInstruction (x : CellItem) (opcode ext : Nat) (s : State) : Host.Outcome State Fault Refusal :=
  if extOf opcode = some ext then .next s else cellItem x ext (fun s c => .exc s c 1) s

/-! ### Step programs (R244, R245) -/

/-- gal.rec: the first record from an index on that is not void. -/
def galRecBody (x : CellItem) (s : State) (c : Cell) : CellOut :=
  if 27 < x.d then .exc s c 2
  else
    match cellGalley s c with
    | none => .ok s (setS c x.d 0)
    | some g =>
      match fetchRec g (sreg c x.a).toNat with
      | none => .ok s (setS c x.d (BitVec.ofNat 64 (galCount g)))
      | some (i, ws) =>
        .ok s (ws.zipIdx.foldl (fun c w => setS c (x.d + 1 + w.2) w.1) (setS c x.d (BitVec.ofNat 64 i)))

def execGalRec (x : CellItem) (s : State) : Host.Outcome State Fault Refusal := cellItem x 0 (galRecBody x) s

/-- Records that a cell has ended its part of its galley; the search galley ends when its last cell has (R245, 11 R434). -/
def markDone (s : State) (n : Nat) (p k : Nat) : State :=
  if k < 4 then
    match (s.slice (4 * p + k)).running with
    | none => s
    | some g => s.setSlice (4 * p + k) { s.slice (4 * p + k) with running := some { g with done := g.done ++ [n] } }
  else if (partCells s p).all fun m => decide ((s.cell m).run ≠ .running) then endGalley s p 4
  else s

/-- step.done: the cell idles. -/
def stepDoneItem (x : CellItem) (s : State) : Host.Outcome State Fault Refusal :=
  match cellItem x 0 (fun s c => .ok s { c with run := .idle }) s with
  | .next s' =>
    let c := s'.cell x.cell
    if (s.cell x.cell).run = .running ∧ c.run = .idle ∧ (s.cell x.cell).wait = none ∧ fetchOk s (s.cell x.cell) 0 = true then
      .next (markDone s' x.cell c.part c.slice)
    else .next s'
  | r => r

def execStepDone (x : CellItem) (s : State) : Host.Outcome State Fault Refusal := stepDoneItem x s

/-- A draft write by a cell (05 R173): the status, DRAFT_READY after it, and the state. -/
def cellDraft (s : State) (c : Cell) (h : Word) (base count addr : Nat) : Nat × Nat × State :=
  let i := bits h.toNat 24 24
  if bits h.toNat 48 16 ≠ s.devAddr then (0x200B, 0, s)
  else match s.ses? i with
    | none => (0x2002, 0, s.incSat SES_STALE_COUNT 1)
    | some e =>
      if e.instar ≠ bits h.toNat 0 24 then (0x2002, 0, s.incSat SES_STALE_COUNT 1)
      else match (if e.seqValid then mget s.gal.slots e.seqSlot else none) with
        | none => (0x2004, 0, s)
        | some x =>
          if count = 0 ∨ 16 < count ∨ cellLimit < addr + 4 * count then (0x5003, x.draftReady, s)
          else match draftWrite x e.tokens base (wordsOf (rdBytes c.mem addr (4 * count))) with
            | none => (0x4009, x.draftReady, s)
            | some y => (0, y.draftReady, s.setSlot e.seqSlot y)

/-- dft.write: handle sA, base sB, count sC, tokens at word 1 [21:0]. -/
def dftBody (x : CellItem) (s : State) (c : Cell) : CellOut :=
  let r := cellDraft s c (sreg c x.a) ((sreg c x.b).toNat % 2 ^ 32) (sreg c x.c).toNat (bits x.w1.toNat 0 22)
  .ok r.2.2 (setS c x.d (BitVec.ofNat 64 (r.1 + r.2.1 * 2 ^ 16)))

def execDftWrite (x : CellItem) (s : State) : Host.Outcome State Fault Refusal := cellItem x 1 (dftBody x) s

end Sys2Proof.Machine
end

