-- ==== Sys2Proof/Machine/Flash.lean ====
section
/-! DEFINITION. The cartridge link, channel operations, upkeep of the flash, the journal, compaction, seals, and recovery of pied
pages (10 R367 to R374, R385 to R398, R411). -/

namespace Sys2Proof.Machine

/-! ### Compaction (R395, R396, R410) -/

/-- Starts compaction: the journal position J0 is fixed (R395). -/
def startCompact (s : State) (b : Nat) : State :=
  if (s.bay b).compact.isSome then s
  else (s.setBay b { s.bay b with compact := some (s.bay b).journal.length }).setFld (CRT_BAY_COMPACTING b) 1

/-- The effect of crt.compact. -/
def compactBody (src : Src) (b : Nat) (s : State) : State × Reply :=
  if src.ctx ≠ 0 then (s, .status 0x8008)
  else if bst s b ≠ 5 then (s, .status 0x8009)
  else
    let s := startCompact s b
    (s.setBay b { s.bay b with waitItems := (s.bay b).waitItems ++ [(0xF5, src)] }, .later)

def execCrtCompact (src : Src) (bay : Nat) (s : State) : Host.Outcome State Fault Refusal :=
  .next (runItem s src 0xF5 (compactBody src bay))

/-- A bay compacts when its journal holds J_COMPACT records (R395). -/
def execCompaction (bay : Nat) (s : State) : Host.Outcome State Fault Refusal :=
  .next (if bst s bay = 5 ∧ s.fld CRT_CFG_J_COMPACT ≤ (s.bay bay).journal.length then startCompact s bay else s)

/-- The superblock of a compaction is durable: the merged checkpoint stands, the journal before J0 is freed, the wear record is
written, waiting items complete (R379, R395). -/
def compacted (s : State) (b : Nat) : State :=
  let x := s.bay b
  match x.compact with
  | none => s
  | some j0 =>
    let cp := liveRecs (x.checkpoint ++ x.journal.take j0)
    let items := x.waitItems.filter fun y => y.1 = 0xF5
    let keys := (x.keyTable ++ cp.map fun (y : DirRec × HeadPage) => (y.1.keyId, y.1.context)).eraseDups
    let s := s.setBay b { x with checkpoint := cp, journal := x.journal.drop j0, sbGen := x.sbGen + 1, sbSlot := 1 - x.sbSlot,
                                 compact := none, keyTable := keys, waitItems := x.waitItems.filter fun y => y.1 ≠ 0xF5 }
    let left := (x.journal.drop j0).length
    let s := (s.setFld (CRT_JRNL_JOURNAL b) left).setFld (CRT_JRNL_CHECKPOINT b) cp.length
    let s := (s.incWrap (CRT_NAND_WR_BYTES b) (inPages (128 * cp.length) * pageBytes + 2 * pageBytes)).setFld (CRT_BAY_COMPACTING b) 0
    items.foldl (fun s y => complete s y.2 0xF5 0 (BitVec.ofNat 64 left) 0 0) (writeWear s b true)

def execCompactionSuperblockDurable (bay : Nat) (s : State) : Host.Outcome State Fault Refusal := .next (compacted s bay)

/-! ### Channel operations (R371 to R374, R389; 13 R503) -/

/-- Physical flash address of a channel operation (R382); ONFI row: page in the low 12 bits, then plane, then block. -/
def flashAddr (o : ChanOp) : Nat :=
  o.channel + o.die * 2 ^ 5 + bits o.row 12 2 * 2 ^ 10 + bits o.row 14 14 * 2 ^ 12 + bits o.row 0 12 * 2 ^ 28

/-- Number of the block of a channel operation. -/
def blockKey (o : ChanOp) : Nat := (32 * o.channel + o.die) * 2 ^ 16 + o.row / 4096

/-- A block before anything is known of it. -/
def block0 : Block where
  reads := 0
  erases := 0
  retired := false
  scanned := 0

/-- A block of a bay. -/
def blockOf (s : State) (b n : Nat) : Block := (mget (s.bay b).blocks n).getD block0

/-- Writes a block of a bay. -/
def setBlock (s : State) (b n : Nat) (x : Block) : State := s.setBay b { s.bay b with blocks := mset (s.bay b).blocks n x }

/-- Key of a die of a bay. -/
def dieKey (ch die : Nat) : Nat := 32 * ch + die

/-- Operations outstanding on a die. -/
def dieOps (x : Bay) (ch die : Nat) : Map ChanOp := x.ops.filter fun o => decide (o.2.channel = ch) && decide (o.2.die = die)

/-- Issues a channel command (R371) for an operation. -/
def issue (s : State) (b tag op : Nat) (o : ChanOp) : State :=
  sendCommand s b o.channel tag (commandBytes op o.die o.row 0 1024 o.retry o.issuer)

/-- Suspends a die's program or erase for the reads queued for it (R373). -/
def suspendDie (s : State) (b ch die : Nat) : State :=
  let x := s.bay b
  match mget x.dies (dieKey ch die) with
  | none => s
  | some d =>
    if d.suspended = false ∧ (dieOps x ch die).isEmpty = false ∧
        d.resumedAt + ((x.col.map (·.tResumeMin)).getD 0) * 1000 ≤ s.now then
      let s := s.setBay b { x with dies := mset x.dies (dieKey ch die) { d with suspended := true } }
      sendCommand s b ch 0 (commandBytes 0x30 die 0 0 0 0 (engineInstar s (24 * b + ch)))
    else s

def execProgramSuspend (bay channel die : Nat) (s : State) : Host.Outcome State Fault Refusal :=
  .next (suspendDie s bay channel die)

/-- Resumes a die once every read queued for it has been served (R373). -/
def resumeDie (s : State) (b ch die : Nat) : State :=
  let x := s.bay b
  match mget x.dies (dieKey ch die) with
  | none => s
  | some d =>
    if d.suspended = true ∧ (dieOps x ch die).isEmpty = true then
      let s := s.setBay b { x with dies := mset x.dies (dieKey ch die) ⟨false, s.now⟩ }
      sendCommand s b ch 0 (commandBytes 0x31 die 0 0 0 0 (engineInstar s (24 * b + ch)))
    else s

/-- Takes an operation off its channel. -/
def endOp (s : State) (b tag : Nat) (o : ChanOp) : State :=
  resumeDie (s.setBay b { s.bay b with ops := mdel (s.bay b).ops tag }) b o.channel o.die

/-- The channel operation of an OPTAG; a read of which no more is known is of a place that is a free value (log entry 17). -/
def opOf (s : State) (b tag : Nat) : ChanOp × State :=
  match mget (s.bay b).ops tag with
  | some o => (o, s)
  | none =>
    let w := s.draw.1.toNat
    let ch := w % 24
    ({ channel := ch, die := w / 2 ^ 8 % 32, op := 1, row := w / 2 ^ 16 % 2 ^ 28, retry := 0, started := s.now,
       issuer := engineInstar s (24 * b + ch), again := false, owner := 0 }, s.draw.2)

/-- A page read returns and is decoded; a failure reads again with the next setting, up to RETRY_MAX (R374). -/
def readDone (s : State) (b tag : Nat) (decoded : Bool) : State :=
  if bst s b < 4 ∨ 8 < bst s b then s
  else
    let (o, s) := opOf s b tag
    let k := blockOf s b (blockKey o)
    let s := setBlock s b (blockKey o) { k with reads := k.reads + 1 }
    if decoded then endOp s b tag o
    else if o.retry < ((s.bay b).col.map (·.retryMax)).getD 0 then
      let o := { o with retry := o.retry + 1, started := s.now }
      let s := (s.setBay b { s.bay b with ops := mset (s.bay b).ops tag o }).incSat (CRT_ERRS_RETRIES b) 1
      issue (issue s b tag 0x06 o) b tag 0x01 o
    else
      let s := (endOp s b tag o).incSat (CRT_ERRS_UNCORRECTABLE b) 1
      fault s (baySource b 7) 0x02 0 (BitVec.ofNat 64 (flashAddr o)) (0x1000 + 24 * b + o.channel) 8

def execPageReadDone (bay optag : Nat) (decoded : Bool) (correctedPct : Nat) (data : List (BitVec 8)) (s : State) :
    Host.Outcome State Fault Refusal :=
  let _ := correctedPct
  let _ := data
  .next (readDone s bay optag decoded)

/-- A retired block (R389, R406). -/
def retireBlock (s : State) (b n : Nat) : State :=
  let k := blockOf s b n
  if k.retired then s
  else
    let s := setBlock s b n { k with retired := true }
    let s := s.setBay b { s.bay b with wear := { (s.bay b).wear with retired := (s.bay b).wear.retired + 1 } }
    s.decFld (CRT_BLOCKS_SPARE_BLOCKS b) 1

/-- A failed program or erase retires its block; failed pages are programmed again elsewhere (R389). -/
def programFailed (s : State) (b block : Nat) (erase : Bool) : State :=
  if bst s b < 4 ∨ 8 < bst s b then s
  else
    let s := retireBlock s b block
    if erase then s else s.incWrap (CRT_NAND_WR_BYTES b) pageBytes

def execProgramOrEraseFailure (bay block : Nat) (erase : Bool) (s : State) : Host.Outcome State Fault Refusal :=
  .next (programFailed s bay block erase)

/-- A die operation has passed CHOP_MS: a reset and one repeat, then the die is retired (13 R503). -/
def dieLate (s : State) (b ch die : Nat) : State :=
  let x := s.bay b
  let late := (dieOps x ch die).filter fun o => o.2.started + s.fld FLT_TIMEOUT_B_CHOP_MS * msNs ≤ s.now
  match late with
  | [] => s
  | (tag, o) :: _ =>
    let s := fault s (0xA00 + 24 * b + ch) 0x07 0xA004 (BitVec.ofNat 64 (flashAddr o)) (0x1000 + 24 * b + ch) 8
    let s := sendCommand s b ch tag (commandBytes 0x60 die 0 0 0 0 o.issuer)
    if o.again then
      let x := s.bay b
      s.setBay b { x with ops := x.ops.filter fun y => !(decide (y.2.channel = ch) && decide (y.2.die = die)),
                          dies := mdel x.dies (dieKey ch die),
                          deadDies := if x.deadDies.contains (dieKey ch die) then x.deadDies else x.deadDies ++ [dieKey ch die] }
    else
      let o := { o with again := true, started := s.now }
      issue (s.setBay b { s.bay b with ops := mset (s.bay b).ops tag o }) b tag o.op o

def execFlashDieTimeout (bay channel die : Nat) (s : State) : Host.Outcome State Fault Refusal := .next (dieLate s bay channel die)

/-! ### Flits (R367 to R370; 13 R507) -/

/-- Owes the other end a NAK: an idle flit with NAK set (R367, R368). -/
def sendNak (s : State) (b : Nat) : State :=
  let l := (s.bay b).link
  let f : Flit := { crcOk := true, seq := l.txSeq, typ := 0, ack := seqBefore l.rxSeq, nak := true, channel := 31, len := 0,
                    optag := 0, payload := [] }
  s.setBay b { s.bay b with link := { l with nakOwed := true, sent := l.sent ++ [f] } }

/-- Sends every flit not acknowledged again (R368). -/
def resendAll (s : State) (b : Nat) : State :=
  let l := (s.bay b).link
  let s := s.setBay b { s.bay b with link := { l with sent := l.sent ++ l.replay, resends := l.resends + 1, sentAt := s.now } }
  fault (s.incSat (CRT_ERRS_REPLAYS b) 1) (baySource b 7) 0x04 0 0

/-- Takes acknowledged flits out of the replay buffer (R368). -/
def takeAck (s : State) (b ack : Nat) : State :=
  let l := (s.bay b).link
  match l.replay.findIdx? fun f => f.seq = ack with
  | none => s
  | some i => s.setBay b { s.bay b with link := { l with replay := l.replay.drop (i + 1), resends := 0, sentAt := s.now } }

/-- Sends the command flits that a credit lets go (R367). -/
def sendHeld (b ch : Nat) : Nat → State → State
  | 0, s => s
  | n + 1, s =>
    let l := (s.bay b).link
    match l.held.find? fun f => f.channel = ch with
    | none => s
    | some f =>
      sendHeld b ch n (sendCommand (s.setBay b { s.bay b with link := { l with held := l.held.erase f } }) b ch f.optag f.payload)

/-- A status flit: bytes 0 and 1 of its payload hold the ONFI status and the bridge status (R371); bit 0 of the ONFI status says the
program or erase failed. -/
def statusFlit (s : State) (b : Nat) (f : Flit) : State :=
  match mget (s.bay b).ops f.optag with
  | none => s
  | some o =>
    let onfi := (f.payload.getD 0 0).toNat
    let bridge := (f.payload.getD 1 0).toNat
    if bridge = 1 then staleMessage (endOp s b f.optag o) (0xA00 + 24 * b + o.channel) o.issuer
    else if bridge = 2 then dieLate (s.setBay b { s.bay b with ops := mset (s.bay b).ops f.optag { o with started := 0 } }) b o.channel o.die
    else if bitOf onfi 0 ∧ (o.op = 0x10 ∨ o.op = 0x20) then
      programFailed (endOp s b f.optag o) b (blockKey o) (o.op = 0x20)
    else if o.op = 0x01 then s
    else endOp s b f.optag o

/-- What a flit received in order does (R367, R371). -/
def flitBody (s : State) (b : Nat) (f : Flit) : State :=
  if f.typ = 4 then statusFlit s b f
  else if f.typ = 5 then
    let l := (s.bay b).link
    let n := leNat (f.payload.take 2)
    let s := s.setBay b { s.bay b with link := { l with credits := mset l.credits f.channel (((mget l.credits f.channel).getD 0) + n) } }
    sendHeld b f.channel n s
  else s

/-- A flit arrives: with a bad CRC or out of order it is discarded with a NAK; else its acknowledgement is taken and its body
acts.  An idle flit takes no sequence number (R367, R368). -/
def flitIn (s : State) (b : Nat) (f : Flit) : State :=
  if bst s b < 4 ∨ 8 < bst s b then s
  else
    let l := (s.bay b).link
    if !f.crcOk ∨ (f.typ ≠ 0 ∧ f.seq ≠ l.rxSeq) then sendNak s b
    else
      let s := takeAck s b f.ack
      let s := if f.nak then resendAll s b else s
      if f.typ = 0 then s
      else
        let s := s.setBay b { s.bay b with link := { (s.bay b).link with rxSeq := (l.rxSeq + 1) % 4096, nakOwed := false } }
        flitBody s b f

def execFlitReceived (bay : Nat) (flit : Flit) (s : State) : Host.Outcome State Fault Refusal := .next (flitIn s bay flit)

/-- 4 µs without acknowledgement: the oldest flit and those after it are sent again (R368). -/
def flitLate (s : State) (b : Nat) : State :=
  let l := (s.bay b).link
  if l.replay.isEmpty = false ∧ l.sentAt + 4000 ≤ s.now then resendAll s b else s

def execFlitResendTimeout (bay : Nat) (s : State) : Host.Outcome State Fault Refusal := .next (flitLate s bay)

/-- A retrain after 16 resends without progress: a failed lane gives way to the spare; below five lanes the bay fails as for
surprise removal, and its sessions are recovered (R365, R368, R369, R408). -/
def retrained (s : State) (b lanes : Nat) : State :=
  if bst s b < 4 ∨ 8 < bst s b ∨ (s.bay b).link.resends < 16 then s
  else
    let was := s.fld (CRT_BAY_LANES_GOOD b)
    let s := fault (s.incSat (CRT_ERRS_RETRAINS b) 1) (baySource b 7) 0x04 0 0
    let s := s.setFld (CRT_BAY_LANES_GOOD b) (min lanes 6)
    if 5 ≤ lanes then
      let s := s.setBay b { s.bay b with link := { (s.bay b).link with resends := 0, sentAt := s.now } }
      if lanes < was then
        let lane := s.draw.1.toNat % 6
        let s := s.draw.2
        let s := s.setBay b { s.bay b with badLanes := (s.bay b).badLanes ++ [lane] }
        fault (s.setFld (CRT_BAY_SPARE_USED b) 1) (baySource b lane) 0x05 0 (BitVec.ofNat 64 lane)
      else s
    else
      let s := fault s (baySource b 7) 0x06 0 (BitVec.ofNat 64 b) (0x4000 + b)
      if bst s b = 5 ∨ bst s b = 6 then
        let k := s.fld (CRT_SERIAL_SERIAL b)
        cartridgeLost (capacityChange (bayGone (setBst s b 10) b)) b k
      else s

def execRetrain (bay lanes : Nat) (s : State) : Host.Outcome State Fault Refusal := .next (retrained s bay lanes)

/-! ### Upkeep (R385 to R390) -/

/-- Pages of a block of a cartridge. -/
def blockPages (s : State) (b : Nat) : Nat := ((s.bay b).col.map (·.pagesPerBlk)).getD 0

/-- Relocates the valid pages of a block, whose number is a free value (log entry 17), and erases it. -/
def relocate (s : State) (b n : Nat) : State :=
  let pages := s.draw.1.toNat % (blockPages s b + 1)
  let s := s.draw.2
  let k := blockOf s b n
  let s := setBlock s b n { k with reads := 0, erases := k.erases + 1, scanned := s.now }
  let s := s.incWrap (CRT_NAND_WR_BYTES b) (pages * pageBytes)
  s.setFld (CRT_BLOCKS_ERASE_MAX b) (max (s.fld (CRT_BLOCKS_ERASE_MAX b)) (min 65535 (k.erases + 1)))

/-- The read limit of a cartridge (R387). -/
def readLimit (s : State) (b : Nat) : Nat := if s.fld (CRT_BAY_PART b) = 0xC320 then 50000 else 20000

def execReadDisturbRelocation (bay block : Nat) (s : State) : Host.Outcome State Fault Refusal :=
  .next (if bayJournals s bay && decide (readLimit s bay ≤ (blockOf s bay block).reads) then relocate s bay block else s)

/-- A patrol read of a block (R388). -/
def patrol (s : State) (b n : Nat) (retried : Bool) (pct : Nat) : State :=
  if bayJournals s b then
    let k := blockOf s b n
    let pages := s.draw.1.toNat % (blockPages s b + 1)
    let s := setBlock s.draw.2 b n { k with reads := k.reads + pages, scanned := s.now }
    let s := if retried then s.incSat (CRT_ERRS_RETRIES b) 1 else s
    if retried || decide (75 < pct) then relocate s b n else s
  else s

def execPatrolScan (bay block : Nat) (retried : Bool) (correctedPct : Nat) (s : State) : Host.Outcome State Fault Refusal :=
  .next (patrol s bay block retried correctedPct)

/-- Cold data moves into the most-erased free block (R386). -/
def execWearLevelling (bay fromBlock toBlock : Nat) (s : State) : Host.Outcome State Fault Refusal :=
  .next (if bayJournals s bay && decide (fromBlock ≠ toBlock) && !(blockOf s bay toBlock).retired then relocate s bay fromBlock else s)

/-- Consolidates a session's copy of more than 256 extents into one run, under a new head page and record (R385, R390). -/
def consolidate (b : Nat) (s : State) (i : Nat) : State :=
  match s.ses? i with
  | none => s
  | some e =>
    match e.p3 with
    | none => s
    | some c =>
      if c.bay = b ∧ copyPresent s c ∧ 256 < c.extents.length ∧ e.park.isNone then
        let at_ := s.draw.1.toNat % 2 ^ 40
        let s := s.draw.2
        let c' := { c with extents := [(0, c.pages, at_)] }
        let s := (s.setSes i { e with p3 := some c' }).incWrap (CRT_NAND_WR_BYTES b) (c.pages * pageBytes)
        journalSubmit s.draw.2 b (sessionRec s i e 1 (s.draw.1.toNat % 2 ^ 40) c.pages c.gen) ⟨c.cur, c.transcript, c.kvPages⟩
      else s

/-- The collector of a WRITABLE bay (R385). -/
def collect (s : State) (b : Nat) : State :=
  if bst s b = 5 then
    let s := (s.ses.entries.map (·.1)).foldl (consolidate b) s
    let n := (mget s.crt.stale b).getD 0
    ({ s with crt := { s.crt with stale := mdel s.crt.stale b } }).incWrap (CRT_FREE_BYTES b) (n * pageBytes)
  else s

def execCollector (bay : Nat) (s : State) : Host.Outcome State Fault Refusal := .next (collect s bay)

/-! ### The journal (R393, R394, R397, R398; 02 R67) -/

/-- A journal page closes 100 µs after its first record (R393). -/
def execJournalPageClose (bay : Nat) (s : State) : Host.Outcome State Fault Refusal :=
  .next (if (s.bay bay).openAt + 100000 ≤ s.now then closePage s bay else s)

/-- Time in microseconds that a bay's seal may take (R397). -/
def sealBound (s : State) (b : Nat) : Nat := 10 + 3 * (((s.bay b).col.map (·.tProgSlc)).getD 0 + 20)

/-- A bay is sealed once nothing of its journal is on its way (R397, R398). -/
def trySeal (s : State) (b : Nat) : State :=
  let x := s.bay b
  match x.sealing with
  | none => s
  | some t =>
    if x.openPage.isEmpty && x.inFlight.isEmpty && !bitOf (s.fld CRT_SEAL_SEALED) b then
      let us := (s.now - t + 999) / 1000
      let s := s.setFld CRT_SEAL_SEALED (s.fld CRT_SEAL_SEALED + 2 ^ b)
      let s := s.setFld CRT_SEAL_SEAL_US (max (s.fld CRT_SEAL_SEAL_US) (min us 65535))
      if sealBound s b * 1000 < s.now - t then s.setFld CRT_SEAL_LATE 1 else s
    else s

/-- Seals a bay at a power failure: an open page closes with a seal record (R397). -/
def sealBay (s : State) (b : Nat) : State :=
  let x := s.bay b
  if bst s b = 5 ∨ bst s b = 6 ∨ (bst s b = 8 ∧ (x.openPage.isEmpty = false ∨ x.inFlight.isEmpty = false)) then
    let s := s.setBay b { x with sealing := some s.now }
    let s := if x.openPage.isEmpty then s
      else closePage (journalSubmit s b { rec0 with typ := 4, jstart := s.sec.startCount % 2 ^ 24, jtime := s.now } ⟨false, 0, 0⟩) b
    trySeal s b
  else s

/-- A durable session record lets the park that submitted it commit (R93, R394). -/
def parkDurable (b : Nat) (r : DirRec) (s : State) (i : Nat) : State :=
  match s.ses? i with
  | none => s
  | some e =>
    match e.park with
    | none => s
    | some op =>
      if op.target = .p3 ∧ op.place = b ∧ op.journal = 1 ∧ r.parkGen = (e.p3.map (·.gen)).getD 0 + 1 ∧ recInstar r = e.instar then
        s.setSes i { e with park := some { op with journal := 2 } }
      else s

/-- A durable tombstone: a cancel that waited for it and has drained completes (02 R67, R68). -/
def tombDurable (b : Nat) (r : DirRec) (s : State) (i : Nat) : State :=
  match s.ses? i with
  | none => s
  | some e =>
    if e.tombstone = 2 ∧ recInstar r = e.instar ∧ (e.p3.map (·.bay)) = some b then
      let e := { e with tombstone := 3 }
      let s := { s with ses := { s.ses with entries := mset s.ses.entries i e } }
      if e.cancel.isSome && drained s i e then finishCancel s i 0 else s
    else s

/-- What one durable record does. -/
def recDurableAt (b : Nat) (s : State) (x : DirRec × HeadPage) : State :=
  if x.1.typ = 1 then parkDurable b x.1 s (recIndex x.1)
  else if x.1.typ = 2 then
    let n := (mget s.crt.stale b).getD 0
    tombDurable b x.1 { s with crt := { s.crt with stale := mset s.crt.stale b (n + x.1.pages) } } (recIndex x.1)
  else s

/-- Both programs of the oldest journal page in flight report pass: its records are durable, on a cartridge whose hold-up status
reads good, or on a READ_ONLY one outside a power failure (R393, R394, R399, R407). -/
def pageDurable (s : State) (b : Nat) : State :=
  let x := s.bay b
  match x.inFlight with
  | [] => s
  | p :: rest =>
    if s.flag (CRT_BAY_HOLDUP_OK b) || (bst s b = 6 && x.sealing.isNone) then
      let s := s.setBay b { x with inFlight := rest, journal := x.journal ++ p.records,
                                   dies := if rest.isEmpty then mdel (mdel x.dies 0) 384 else x.dies }
      let s := s.setFld (CRT_JRNL_JOURNAL b) (x.journal.length + p.records.length)
      trySeal (p.records.foldl (recDurableAt b) (s.incWrap (CRT_NAND_WR_BYTES b) (2 * pageBytes))) b
    else s

def execJournalPageProgrammed (bay : Nat) (s : State) : Host.Outcome State Fault Refusal := .next (pageDurable s bay)

/-! ### Pied pages (R391) -/

/-- The session whose page a frame holds, by the page's place: 0 KV, 1 recurrent, 2 auxiliary, 3 transcript. -/
def frameOwner (s : State) (f : Nat) : Option (Nat × Session) :=
  s.ses.entries.find? fun x => x.2.state.live && (localFrames x.2.refs).contains f

/-- Whether a reference names a frame, dirty or not. -/
def frameDirty (e : Session) (f : Nat) : Bool :=
  e.refs.any fun r => refValid r && decide (refLoc r = 1) && decide (refIndex r = f) && refDirty r

/-- Bytes of the page of a frame in a copy, where the copy holds it as bytes. -/
def copyPage (e : Session) (c : Copy) (f : Nat) : Option (Map Byte) :=
  let hit (r : Word) : Bool := refValid r && decide (refLoc r = 1) && decide (refIndex r = f)
  match e.kv.find? fun x => hit x.2 with
  | some (k, _) => mget c.kv k
  | none => match e.recur.find? fun x => hit x.2 with
    | some (k, _) => mget c.recur k
    | none => none

/-- A pied page restored: PIED cleared, its bytes and CRC as the copy holds them, the notice posted. -/
def unpie (s : State) (i : Nat) (e : Session) (c : Copy) (f : Nat) : State :=
  let s := match copyPage e c f with
    | some m => setFrameBytes s f m
    | none => { s with hbmBad := s.hbmBad.filter fun u => decide (u / 512 ≠ f) }
  let s := match s.frame f with
    | none => s
    | some x => { s with ses := { s.ses with frames := mset s.ses.frames f { x with pied := false } } }
  sesNoticeFree s i 5 0x8020

/-- Recovery of a pied page: the P3 copy where the page is clean, the other plane's copy, a proof; else the session is FAULTED
(R391). -/
def recoverPage (s : State) (f : Nat) (crcGood : Bool) (lost : Nat := 0x8021) : State :=
  match s.frame f with
  | none => s
  | some x =>
    if x.pied = false then s
    else match frameOwner s f with
      | none => s
      | some (i, e) =>
        let own := match e.p3 with | some c => crcGood && copyPresent s c && !frameDirty e f | none => false
        let other := e.p3.isSome && crcGood && !frameDirty e f && partnerHolds s e
        match e.p3, own || other with
        | some c, true => unpie s i e c f
        | _, _ => match shardOf s i e with
          | some c => sesNoticeFree (fromShard s i c) i 5 0x8020
          | none => faultSession s i lost

def execPiedPageRecovery (frame : Nat) (crcGood : Bool) (s : State) : Host.Outcome State Fault Refusal :=
  .next (recoverPage s frame crcGood)

end Sys2Proof.Machine
end

