-- ==== Sys2Proof/Machine/Reset.lean ====
section
/-! DEFINITION. Resets (15 R573, R583; 13 R496, R502): the cold reset of PORST_N and the internal reset, and what each keeps. -/

namespace Sys2Proof.Machine

/-- Registers that a reset keeps whole (R583, R502): event latches in the always-on domain, and across an internal reset the
first and lost errors and GLB_SCRATCH. -/
def keptReg (cold : Bool) (off : Nat) : Bool :=
  !cold && (decide (off = GLB_SCRATCH_VALUE.off) || (decide (0xA00100 ≤ off) && decide (off < 0xA00188)) ||
    (decide (0xB00000 ≤ off) && decide (off < 0xB02000)))

/-- One field of the state before carried over a reset. -/
def keepFld (old s : State) (f : Field) : State := s.setFld f (old.fld f)

/-- What a reset leaves outside the reset values (R583): pins, host memory, the root of trust with what boot flash holds, the
contents of the cartridges, and the logs of what has left the device. -/
def resetBase (cold : Bool) (s : State) : State :=
  { State.reset with
    pending := s.pending
    freeCtr := s.freeCtr
    regs := s.regs.filter fun (e : Nat × Word) => keptReg cold e.1
    pins := { s.pins with hotAt := none, vinMsgAt := none,
                          thermtripN := cold || s.pins.thermtripN }
    host := { State.reset.host with mem := s.host.mem, msix := s.host.msix, answer := s.host.answer }
    sec := { s.sec with spdm := [], bulk := none }
    crt := { State.reset.crt with objects := s.crt.objects, gone := s.crt.gone, fresh := s.crt.fresh, purged := s.crt.purged }
    fab := { State.reset.fab with sent := s.fab.sent, stopped := true }
    flt := { State.reset.flt with irqs := s.flt.irqs, proofs := s.flt.proofs, shards := s.flt.shards, mirrors := s.flt.mirrors }
    isl := { State.reset.isl with vectors := s.isl.vectors, internal := !cold } }

/-- A reset (R573, R583): the cold one of PORST_N or the internal one, the device held in START_PHASE 0x0. -/
def resetDevice (cold : Bool) (s : State) : State :=
  let t := resetBase cold s
  let t := keepFld s t CRT_SEAL_SEAL_US
  let t := t.setFld PWR_RAILS_PWRFAIL (b2n (!s.pins.pwrfailN))
  if cold then t
  else
    let t := keepFld s (keepFld s t GLB_CAP3_FAILOVER_PORT) PWR_THERM_TRIPPED
    let t := keepFld s t EVC_STATUS_LATCHED
    (List.range 64).foldl (fun t g => keepFld s t (EVC_GROUP_PENDING g)) t

/-- The release of a reset (R23, R579): device time starts at zero and phase 0x1 begins. -/
def releaseReset (s : State) : State :=
  ({ s with clk := { s.clk with now := 0 }, isl := { s.isl with phaseAt := 0 } }).setFld GLB_STATE_START_PHASE 1

/-- The internal reset, with start-up from phase 0x1 (R573). -/
def internalReset (s : State) : State := releaseReset (resetDevice false s)

/-- The stop of fatal severity or of a fence order (13 R496, 12 R485): the seal of 10 R397 leaves its mark on the cartridges
alone, whose records come back with their replay; transmission stops, and the device resets. -/
def fatalStop (s : State) : State := internalReset s

end Sys2Proof.Machine
end

