-- ==== Sys2Proof/Machine/Ports.lean ====
section
/-! DEFINITION. The fabric below queue pairs (12 R446 to R463): ports, routes, the binding of queue pairs to ports, discovery,
composition, priority flow control. -/

namespace Sys2Proof.Machine

/-! ### Ports and queue pairs as tables -/

/-- A port that has done nothing. -/
def port0 : Port where
  since := 0
  bad := []
  occ := []
  pausing := []
  paused := []
  lastPause := []
  nbrAt := none
  delay := 0
  deficit := []

/-- A port. -/
def State.port (s : State) (p : Nat) : Port := (mget s.fab.ports p).getD port0

/-- Writes a port. -/
def State.setPort (s : State) (p : Nat) (x : Port) : State := { s with fab := { s.fab with ports := mset s.fab.ports p x } }

/-- A queue pair that nobody has claimed. -/
def qp0 : Qp where
  state := .free
  ownerKind := 0
  owner := 0
  cls := 0
  instar := 0
  peerDev := 0
  peerQp := 0
  peerInstar := 0
  peerQpInstar := 0
  window := 0
  depth := 0
  port := 0
  sendPsn := 0
  expPsn := 0
  ackedPsn := 0
  cqCount := 0
  notifyCount := 0
  counter := 0
  lastError := 0
  errors := 0
  txPsn := 0
  nextSeq := 0
  items := []
  windows := []
  retries := 0
  rtoAt := none
  resendAfter := none
  raSent := (0, 0)
  wanted := []
  nakSent := false
  unacked := 0
  unackedAt := 0
  atomics := []
  held := none
  heldNext := []
  connect := none

/-- A queue pair. -/
def State.qp (s : State) (q : Nat) : Qp := (mget s.fab.qps q).getD qp0

/-- Writes a queue pair. -/
def State.setQp (s : State) (q : Nat) (x : Qp) : State := { s with fab := { s.fab with qps := mset s.fab.qps q x } }

/-- The device instar (R450). -/
def devInstar (s : State) : Nat := if s.sec.startCount % 2 ^ 24 = 0 then 1 else s.sec.startCount % 2 ^ 24

/-- STATE of a port: 0 DOWN, 1 TRAINING, 2 UP, 3 FAILED (R490). -/
def pst (s : State) (p : Nat) : Nat := s.fld (FAB_PORT_STATE p)

/-- Fault source of a port's unit (13 R494). -/
def portSource (p u : Nat) : Nat := 0xA80 + 8 * p + u

/-! ### Sequence numbers (R464) -/

/-- a − b modulo 2^24. -/
def psnDiff (a b : Nat) : Nat := (a + 2 ^ 24 - b % 2 ^ 24) % 2 ^ 24

/-- a + n modulo 2^24. -/
def psnAdd (a n : Nat) : Nat := (a + n) % 2 ^ 24

/-- Whether a lies ahead of b: within half the numbers. -/
def psnAhead (a b : Nat) : Bool := decide (0 < psnDiff a b) && decide (psnDiff a b < 2 ^ 23)

/-- Packets of an item: 4,096 bytes each for a write, one for the others (R463, R464). -/
def itemPackets (i : FabItem) : Nat := if i.op = 1 then (i.len + 4095) / 4096 else 1

/-- Sequence numbers an item consumes (R464). -/
def itemPsns (i : FabItem) : Nat := if i.op = 1 ∨ i.op = 2 then (i.len + 4095) / 4096 else 1

/-- The oldest packet not acknowledged: of the first item started and not complete. -/
def oldestPsn (x : Qp) : Nat :=
  match x.items.find? fun i => decide (0 < i.granted) with
  | none => x.sendPsn
  | some i => if i.op = 1 ∧ psnDiff x.ackedPsn i.psn < itemPackets i then x.ackedPsn else i.psn

/-! ### Routes and binding (R453, R454) -/

/-- Ports and hops of the route to a device; none where there is no VALID route. -/
def routeOf (s : State) (dev : Nat) : Option (Nat × Nat) :=
  if s.fld FAB_PAIR_PARTNER ≠ 0xFFFF ∧ dev = s.fld FAB_PAIR_PARTNER then some (s.fld FAB_PAIR_PORTS, s.fld FAB_PAIR_HOPS)
  else if dev / 2 ^ 15 = s.fld GLB_DEV_ADDR_PLANE ∧ bitOf dev 14 = false then
    let e := s.fld (FAB_ROUTE_ENTRY (dev % 2 ^ 14))
    if bitOf e 20 then some (bits e 0 16, bits e 16 4) else none
  else none

/-- Ports of a set that are UP and not stuck for a class, ascending. -/
def usable (s : State) (cls ports : Nat) : List Nat :=
  (List.range 16).filter fun p => bitOf ports p && decide (pst s p = 2) && !bitOf (s.fld (FAB_PORT_STUCK p)) cls

/-- The port a queue pair is bound to. -/
def bindPort (s : State) (q : Nat) (dev cls : Nat) : Option Nat :=
  match routeOf s dev with
  | none => none
  | some (ports, _) =>
    let m := usable s cls ports
    m[q % m.length]?

/-- Binds a queue pair again; a rebound one resends from its oldest unacknowledged packet. -/
def rebind (s : State) (q : Nat) : State :=
  let x := s.qp q
  if x.state = .ready ∨ x.state = .connecting then
    match bindPort s q x.peerDev x.cls with
    | some p => if p = x.port then s else s.setQp q { x with port := p, txPsn := oldestPsn x }
    | none => s
  else s

/-- Binds every queue pair whose route names a port again. -/
def rebindPort (s : State) (p : Nat) : State :=
  s.fab.qps.foldl (fun s y => match routeOf s y.2.peerDev with
    | some (ports, _) => if bitOf ports p then rebind s y.1 else s
    | none => s) s

/-! ### Port transitions (R448) -/

/-- Puts a port in a state: its event, PORTS_UP and what follows from it, and the binding of its queue pairs. -/
def setPst (s : State) (p st : Nat) : State :=
  let was := pst s p
  let s := (s.setFld (FAB_PORT_STATE p) st).setPort p { s.port p with since := s.now }
  let s := edge s (0x420 + p)
  let up := s.fld GLB_RES1_PORTS_UP
  let s :=
    if st = 2 ∧ bitOf up p = false then capacityChange (s.setFld GLB_RES1_PORTS_UP (up + 2 ^ p))
    else if st ≠ 2 ∧ bitOf up p = true then capacityChange (s.setFld GLB_RES1_PORTS_UP (up - 2 ^ p))
    else s
  if was = 2 ∨ st = 2 then rebindPort s p else s

/-- Whether ports train: from phase 0x2 on, on a hub in service whose reference is good (15 R579, 16 R593). -/
def portsRun (s : State) (p : Nat) : Bool :=
  s.awake && decide (2 ≤ s.fld GLB_STATE_START_PHASE) && decide (s.fld GLB_STATE_START_PHASE ≤ 7) && decide (p < 16) &&
  s.hubUp (p / 8) && s.pins.serdes.getD (p / 8) false

/-- Signal on all four lanes. -/
def portSignal (s : State) (p : Nat) : State := if portsRun s p = true ∧ pst s p = 0 then setPst s p 1 else s

def execPortSignalDetected (port : Nat) (s : State) : Host.Outcome State Fault Refusal := .next (portSignal s port)

/-- H of R460 for a port, in bytes. -/
def headroom (s : State) (p : Nat) : Nat := 100 * (10 * s.fld (FAB_PORT_CABLE_M p) + 1200) + 8380

/-- A discovery frame's payload (R449). -/
def discoveryOf (s : State) (p : Nat) : Discovery where
  port := p
  devAddr := if s.flag GLB_DEV_ADDR_VALID then s.devAddr else 0xFFFF
  instar := devInstar s
  serial := (s.reg GLB_SERIAL_SERIAL.off).toNat
  compGen := (s.fab.comp.map (·.gen)).getD 0

/-- Sends a discovery frame (R449). -/
def sendDiscovery (s : State) (p : Nat) : State := send s (.discovery p (discoveryOf s p))

/-- The link is up: UP when the headroom fits the cable, else FAILED (R460). -/
def portUp (s : State) (p : Nat) : State :=
  if portsRun s p = true ∧ pst s p = 1 then
    if 6 * headroom s p ≤ 1835008 then sendDiscovery (setPst s p 2) p
    else fault (setPst s p 3) (portSource p 5) 0x10 0x9002 0 (0x3000 + p)
  else s

def execPortLinkUp (port : Nat) (s : State) : Host.Outcome State Fault Refusal := .next (portUp s port)

/-- No link within 2 s. -/
def portTimeout (s : State) (p : Nat) : State :=
  if p < 16 ∧ pst s p = 1 ∧ (s.port p).since + 2 * 10 ^ 9 ≤ s.now then setPst s p 0 else s

def execPortTrainingTimeout (port : Nat) (s : State) : Host.Outcome State Fault Refusal := .next (portTimeout s port)

/-- The link is lost. -/
def portLost (s : State) (p : Nat) : State :=
  if p < 16 ∧ pst s p = 2 then fault (setPst s p 0) (portSource p 5) 0x06 0 (BitVec.ofNat 64 p) (0x3000 + p) else s

def execPortLinkLost (port : Nat) (s : State) : Host.Outcome State Fault Refusal := .next (portLost s port)

/-- A SerDes fails (R448): the spare takes its place and the port trains again; with none left the port is FAILED. -/
def serdesFails (s : State) (p u : Nat) : State :=
  if 16 ≤ p ∨ 5 ≤ u ∨ (s.port p).bad.contains u = true then s
  else
    let s := s.setPort p { s.port p with bad := (s.port p).bad ++ [u] }
    if s.flag (FAB_PORT_SPARE_USED p) then
      fault (setPst s p 3) (portSource p u) 0x06 0 (BitVec.ofNat 64 p) (0x3000 + p)
    else
      let s := s.setFld (FAB_PORT_SPARE_USED p) 1
      let s := if pst s p = 2 ∨ pst s p = 1 then setPst s p 1 else s
      fault s (portSource p u) 0x05 0 (BitVec.ofNat 64 u) (0x3000 + p)

def execSerdesFault (port unit : Nat) (s : State) : Host.Outcome State Fault Refusal := .next (serdesFails s port unit)

/-- The write of MEDIA or CABLE_M (R448, R490): a FAILED port is DOWN again. -/
def mediaWrite (s : State) (p media cable : Nat) : State :=
  let s := (s.setFld (FAB_PORT_MEDIA p) media).setFld (FAB_PORT_CABLE_M p) cable
  if pst s p = 3 then setPst s p 0 else s

def execFabPortMediaWrite (port media cableM : Nat) (s : State) : Host.Outcome State Fault Refusal :=
  .next (if port < 16 then mediaWrite s port media cableM else s)

/-! ### Discovery (R449) -/

/-- NBR_SEEN of a port that has heard nothing for 300 ms falls (R490). -/
def ageNeighbour (s : State) (p : Nat) : State :=
  match (s.port p).nbrAt with
  | some t => if t + 300 * 10 ^ 6 < s.now then s.setFld (FAB_PORT_NBR_SEEN p) 0 else s
  | none => s

/-- Every UP port sends its discovery frame each 100 ms. -/
def discoverAll (s : State) : State :=
  if s.fab.discAt + 100 * 10 ^ 6 ≤ s.now then
    let s := (List.range 16).foldl ageNeighbour s
    let s := ((List.range 16).filter fun p => pst s p = 2).foldl sendDiscovery s
    { s with fab := { s.fab with discAt := s.now } }
  else s

def execDiscoverySend (s : State) : Host.Outcome State Fault Refusal := .next (discoverAll s)

/-- Whether a frame shows another neighbour than the composition expects; a sender without an address shows none yet. -/
def miswired (s : State) (p : Nat) (d : Discovery) : Bool :=
  match s.fab.comp with
  | none => false
  | some c => decide (d.devAddr ≠ 0xFFFF) && decide (c.nbrs.getD p (0xFFFF, 0) ≠ (d.devAddr, d.port))

/-- A discovery frame arrives. -/
def discovered (s : State) (p : Nat) (d : Discovery) : State :=
  if p < 16 ∧ pst s p = 2 then
    let s := (s.setFld (FAB_PORT_NBR_ADDR p) d.devAddr).setFld (FAB_PORT_NBR_SEEN p) 1
    let s := s.setPort p { s.port p with nbrAt := some s.now }
    if miswired s p d then fault (setPst s p 3) (portSource p 5) 0x10 0x9009 0 (0x3000 + p) else s
  else s

def execDiscoveryFrame (port : Nat) (frame : Discovery) (s : State) : Host.Outcome State Fault Refusal :=
  .next (discovered s port frame)

/-! ### Composition (R451, R452) -/

/-- Whether a signature verifies under the composition key of the domain (14 R551). -/
opaque Config.compositionSig : BitVec 768 → List Byte → List Byte → Bool

/-- Bytes of a composition image. -/
def compImageBytes : Nat := 0x10160

/-- `n` bytes of an image at an offset, as a number. -/
def imgNat (bs : List Byte) (off n : Nat) : Nat := leNat ((bs.drop off).take n)

/-- Whether every reserved bit of an image is zero (R451). -/
def compReserved (bs : List Byte) : Bool :=
  decide (bits (imgNat bs 0 8) 16 16 = 0) && decide (bits (imgNat bs 16 8) 31 33 = 0) &&
  decide (bits (imgNat bs 24 8) 48 16 = 0) && decide (bits (imgNat bs 32 8) 20 44 = 0) && decide (imgNat bs 40 88 = 0) &&
  (List.range 16).all (fun p => decide (bits (imgNat bs (0x80 + 8 * p) 8) 20 44 = 0)) &&
  (List.range 16384).all (fun n => decide (bits (imgNat bs (0x100 + 4 * n) 4) 21 11 = 0))

/-- Whether control-core firmware accepts an image (R452). -/
def compOk (s : State) (bs : List Byte) : Bool :=
  let addr := bits (imgNat bs 16 8) 0 16
  (match s.sec.keys with
   | some k => Config.compositionSig k.composition (bs.take 0x10100) (bs.drop 0x10100)
   | none => false) &&
  decide (bits (imgNat bs 0 8) 0 16 = 1) && decide (imgNat bs 8 8 = (s.reg GLB_SERIAL_SERIAL.off).toNat) &&
  !bitOf addr 14 && !bitOf (imgNat bs (0x100 + 4 * (addr % 2 ^ 14)) 4) 20 && compReserved bs

/-- The composition an image holds. -/
def compOf (bs : List Byte) : Comp where
  gen := bits (imgNat bs 0 8) 32 32
  devices := bits (imgNat bs 16 8) 16 15
  gm := bits (imgNat bs 24 8) 0 16
  backup := bits (imgNat bs 24 8) 16 16
  nbrs := (List.range 16).map fun p => (imgNat bs (0x80 + 8 * p) 2, bits (imgNat bs (0x80 + 8 * p) 8) 16 4)
  digest := sha384 bs

/-- Applies an accepted image (R452; 01 R30). -/
def applyComp (s : State) (bs : List Byte) : State :=
  let c := compOf bs
  let addr := bits (imgNat bs 16 8) 0 16
  let s := ((s.setFld GLB_DEV_ADDR_DEVICE (addr % 2 ^ 14)).setFld GLB_DEV_ADDR_PLANE (addr / 2 ^ 15)).setFld GLB_DEV_ADDR_VALID 1
  let s := (List.range 16384).foldl (fun s n => s.setFld (FAB_ROUTE_ENTRY n) (imgNat bs (0x100 + 4 * n) 4)) s
  let s := (s.setFld FAB_PAIR_PARTNER (bits (imgNat bs 24 8) 32 16)).setFld FAB_PAIR_PORTS (bits (imgNat bs 32 8) 0 16)
  let s := s.setFld FAB_PAIR_HOPS (bits (imgNat bs 32 8) 16 4)
  let s := s.setFld GLB_STATE_DOMAIN_CLASS (b2n (decide (512 < c.devices)))
  let s := (s.setFld FAB_COMP_DEVICES c.devices).setFld FAB_COMP_SEALED 1
  { s with fab := { s.fab with comp := some c }, isl := { s.isl with composed := true } }

/-- fab.ctl compose: once, on a device that is no domain of one (R452). -/
def composeBody (src : Src) (addr : Word) (s : State) : State × Reply :=
  if src.ctx ≠ 0 ∨ s.flag FAB_COMP_SEALED = true ∨ s.fld GLB_TIME_STATUS_SOURCE = 1 then (s, .status 0x9008)
  else match itemRead s src 2 addr compImageBytes with
    | .error st => (s, .status st)
    | .ok bs => if compOk s bs then (applyComp s bs, .ok) else (s, .status 0x9008)

def execFabCtlCompose (src : Src) (addr : BitVec 64) (s : State) : Host.Outcome State Fault Refusal :=
  .next (runItem s src 0xF9 (composeBody src addr) true)

/-! ### Priority flow control (R461, R462) -/

/-- Bytes of the shared buffer that are taken. -/
def sharedTaken (s : State) (p : Nat) : Nat := ((s.port p).occ.map (·.2)).sum

/-- Bytes of the shared buffer that are free. -/
def sharedFree (s : State) (p : Nat) : Nat := 2097152 - 6 * headroom s p - sharedTaken s p

/-- Shared occupancy of a class. -/
def classOcc (s : State) (p c : Nat) : Nat := (mget (s.port p).occ c).getD 0

/-- Whether a class must pause its peer. -/
def mustPause (s : State) (p c : Nat) : Bool :=
  decide (s.fld (FAB_CLASS_XOFF_KIB c) * 1024 ≤ classOcc s p c) || decide (sharedFree s p < 8380)

/-- Whether a class may let its peer go on. -/
def mayResume (s : State) (p c : Nat) : Bool :=
  decide (classOcc s p c + 8192 ≤ s.fld (FAB_CLASS_XOFF_KIB c) * 1024) && decide (16384 ≤ sharedFree s p)

/-- Sends the pause, or the end of one, that the occupancy of a class asks for. -/
def pauseCheck (p : Nat) (s : State) (c : Nat) : State :=
  match mget (s.port p).pausing c with
  | none =>
    if mustPause s p c then
      send (s.setPort p { s.port p with pausing := mset (s.port p).pausing c s.now }) (.pause p c 0xFFFF)
    else s
  | some _ =>
    if mayResume s p c then
      send (s.setPort p { s.port p with pausing := mdel (s.port p).pausing c }) (.pause p c 0)
    else s

/-- Sends what every lossless class of a port asks for. -/
def pauseChecks (s : State) (p : Nat) : State := ([1, 2, 3, 4, 5, 6] : List Nat).foldl (pauseCheck p) s

/-- Changes the shared occupancy of a class. -/
def addOcc (s : State) (p c n : Nat) : State :=
  pauseChecks (s.setPort p { s.port p with occ := mset (s.port p).occ c (classOcc s p c + n) }) p

/-- Frees shared buffer of a class. -/
def freeOcc (s : State) (p c n : Nat) : State :=
  pauseChecks (s.setPort p { s.port p with
    occ := if classOcc s p c ≤ n then mdel (s.port p).occ c else mset (s.port p).occ c (classOcc s p c - n) }) p

/-- A standing pause is refreshed each 20 µs while its condition holds. -/
def pauseRefresh (s : State) (p c : Nat) : State :=
  match mget (s.port p).pausing c with
  | none => s
  | some t =>
    if t + 20000 ≤ s.now ∧ mustPause s p c = true then
      send (s.setPort p { s.port p with pausing := mset (s.port p).pausing c s.now }) (.pause p c 0xFFFF)
    else pauseCheck p s c

def execPfcRefresh (port cls : Nat) (s : State) : Host.Outcome State Fault Refusal :=
  .next (if port < 16 ∧ pst s port = 2 then pauseRefresh s port cls else s)

/-- Whether the device honours pauses of a class. -/
def honours (c : Nat) : Bool := decide (1 ≤ c) && decide (c ≤ 6)

/-- A pause arrives: quanta of 512 bit times at 800 Gb/s; quanta 0 ends it. -/
def pauseIn (s : State) (p c quanta : Nat) : State :=
  if p < 16 ∧ pst s p = 2 then
    let s := s.incSat (FAB_PORT_ERR_PAUSES_RX p) 1
    let x := s.port p
    if honours c = false then s
    else if bitOf (s.fld (FAB_PORT_STUCK p)) c then s.setPort p { x with lastPause := mset x.lastPause c s.now }
    else if quanta = 0 then s.setPort p { x with paused := mdel x.paused c }
    else
      let start := match mget x.paused c with
        | some (_, t) => t
        | none => s.now
      s.setPort p { x with paused := mset x.paused c (s.now + quanta * 64 / 100, start) }
  else s

def execPfcPauseReceived (port cls quanta : Nat) (s : State) : Host.Outcome State Fault Refusal := .next (pauseIn s port cls quanta)

/-- A received pause runs out. -/
def pauseExpires (s : State) (p c : Nat) : State :=
  match mget (s.port p).paused c with
  | some (e, _) => if e ≤ s.now then s.setPort p { s.port p with paused := mdel (s.port p).paused c } else s
  | none => s

def execPfcPauseExpiry (port cls : Nat) (s : State) : Host.Outcome State Fault Refusal := .next (pauseExpires s port cls)

/-- A class paused without a break for PFC_WD_MS is stuck on the port (R462). -/
def pauseWatchdog (s : State) (p c : Nat) : State :=
  let x := s.port p
  match mget x.paused c with
  | none => s
  | some (_, t) =>
    if t + s.fld FAB_TIMER_PFC_WD_MS * 10 ^ 6 ≤ s.now ∧ honours c = true then
      let s := s.setFld (FAB_PORT_STUCK p) (s.fld (FAB_PORT_STUCK p) ||| 2 ^ c)
      let s := s.setPort p { x with paused := mdel x.paused c, lastPause := mset x.lastPause c s.now }
      let s := fault s (portSource p 6) 0x07 0x9032 (BitVec.ofNat 64 p) (0x3000 + p)
      let s := rebindPort s p
      if c = 4 ∨ c = 5 then { s with mkr := { s.mkr with due := true } } else s
    else s

def execPfcWatchdog (port cls : Nat) (s : State) : Host.Outcome State Fault Refusal := .next (pauseWatchdog s port cls)

/-- The stuck mark clears after 10 × PFC_WD_MS with no pause (R462). -/
def unstick (s : State) (p c : Nat) : State :=
  let x := s.port p
  match mget x.lastPause c with
  | none => s
  | some t =>
    if t + 10 * s.fld FAB_TIMER_PFC_WD_MS * 10 ^ 6 ≤ s.now ∧ bitOf (s.fld (FAB_PORT_STUCK p)) c = true then
      let s := s.setFld (FAB_PORT_STUCK p) (s.fld (FAB_PORT_STUCK p) - 2 ^ c)
      rebindPort (s.setPort p { x with lastPause := mdel x.lastPause c }) p
    else s

def execStuckClear (port cls : Nat) (s : State) : Host.Outcome State Fault Refusal := .next (unstick s port cls)

end Sys2Proof.Machine
end

