-- ==== Sys2Proof/Machine/Fabric.lean ====
section
/-! DEFINITION. Queue pairs and their transport (12 R459, R463 to R489): the fabric items, arbitration, acceptance and
execution of packets, acknowledgement, resends, paging faults, errors and fencing. -/

namespace Sys2Proof.Machine

/-! ### Request slots (R470) -/

/-- Packets of an item that are not acknowledged, or its request that awaits a response. -/
def itemOut (x : Qp) (i : FabItem) : Nat :=
  if i.op = 1 then
    let acked := if psnDiff x.ackedPsn i.psn < 2 ^ 23 then psnDiff x.ackedPsn i.psn else 0
    i.granted - acked
  else min i.granted 1

/-- Packets of a queue pair that are not acknowledged. -/
def outstanding (x : Qp) : Nat := (x.items.map (itemOut x)).sum

/-- Request slots held. -/
def slotsHeld (s : State) : Nat := (s.fab.qps.map fun y => outstanding y.2).sum

/-- Shows the slots held, and their high-water mark. -/
def showSlots (s : State) : State :=
  let n := slotsHeld s
  (s.setFld FAB_REQ_OUTSTANDING n).setFld FAB_REQ_HIGH_WATER (max n (s.fld FAB_REQ_HIGH_WATER))

/-! ### Frames (R463) -/

/-- A frame of a queue pair to its peer. -/
def frameOf (s : State) (q op psn : Nat) : EftFrame :=
  let x := s.qp q
  { icrcOk := true, op, cls := x.cls, first := false, last := false, ackreq := false, notify := false, resent := false, psn,
    srcDev := s.devAddr, dstDev := x.peerDev, srcQp := q, dstQp := x.peerQp, srcInstar := devInstar s, qpInstar := x.peerQpInstar,
    ackPsn := 0, ackKind := 0, retryUs := 0, syndrome := 0, raddr := 0, operand := 0, payload := [] }

/-- Sends a frame on a port. -/
def sendFrame (s : State) (p : Nat) (f : EftFrame) : State := if pst s p = 2 then send s (.eft p f) else s

/-- Sends an acknowledgement: its kind, the last PSN in order, RETRY_US and SYNDROME (R467). -/
def sendAck (s : State) (q kind ackPsn retryUs syndrome : Nat) : State :=
  let x := s.qp q
  let s := s.setQp q { x with unacked := 0 }
  sendFrame s x.port { frameOf s q 8 0 with ackPsn := ackPsn, ackKind := kind, retryUs := retryUs, syndrome := syndrome }

/-- The last PSN received in order. -/
def lastIn (x : Qp) : Nat := psnAdd x.expPsn (2 ^ 24 - 1)

/-- Sends a CONNECT: both queue pairs, the device instar and the queue pair's own instar (R473). -/
def sendConnect (s : State) (q : Nat) : State :=
  let x := s.qp q
  match bindPort s q x.peerDev 6 with
  | none => s
  | some p => sendFrame s p { frameOf s q 9 0 with cls := 6, qpInstar := x.instar }

/-! ### Completion, flush and the states of a queue pair (R471, R473, R474) -/

/-- Moves an item that waits for room into the send queue (R471). -/
def admitWaiting (s : State) (q : Nat) : State :=
  let x := s.qp q
  if x.items.length < x.depth then
    match s.fab.waiting.find? fun y => y.1 = q with
    | none => s
    | some y =>
      let s := { s with fab := { s.fab with waiting := s.fab.waiting.filter fun z => z ≠ y } }
      s.setQp q { x with items := x.items ++ [{ y.2 with seq := x.nextSeq }], nextSeq := x.nextSeq + 1 }
  else s

/-- Completes the control item behind a fabric item. -/
def completeFab (s : State) (i : FabItem) (st : Nat) (r : Word) : State :=
  match i.src with
  | none => s
  | some src => if st = 0 then complete s src 0xF7 0 r 0 0 else completeFail s src 0xF7 st 0 0

/-- Ends an item of a send queue: CQ_COUNT counts it, failed or not (R479). -/
def finishItem (s : State) (q : Nat) (i : FabItem) (st : Nat) (r : Word) : State :=
  let x := s.qp q
  let items := x.items.filter fun j => j.seq ≠ i.seq
  let x := { x with items := items, cqCount := (x.cqCount + 1) % 2 ^ 64,
                    lastError := if st = 0 then x.lastError else st,
                    rtoAt := if items.any fun j => decide (0 < j.granted) then x.rtoAt else none }
  admitWaiting (completeFab (s.setQp q x) i st r) q

/-- Ends a connect item. -/
def finishConnect (s : State) (q st : Nat) : State :=
  let x := s.qp q
  match x.connect with
  | none => s
  | some (src, _) =>
    let s := s.setQp q { x with connect := none }
    match src with
    | none => s
    | some src => if st = 0 then complete s src 0xF9 0 0 0 0 else completeFail s src 0xF9 st 0 0

/-- A flush: every item that has not completed ends with the status, in order, those that wait for room included (R474). -/
def flushQp (s : State) (q st : Nat) : State :=
  let x := s.qp q
  let out := (s.fab.waiting.filter fun y => y.1 = q).map (·.2)
  let s := { s with fab := { s.fab with waiting := s.fab.waiting.filter fun y => y.1 ≠ q } }
  let s := s.setQp q { x with items := [], cqCount := (x.cqCount + x.items.length + out.length) % 2 ^ 64 }
  let s := (x.items ++ out).foldl (fun s i => completeFab s i st 0) s
  finishConnect s q st

/-- A queue pair with nothing in progress. -/
def quietQp (x : Qp) : Qp :=
  { x with retries := 0, rtoAt := none, resendAfter := none, raSent := (0, 0), nakSent := false, unacked := 0, atomics := [],
           held := none, heldNext := [], wanted := [] }

/-- Starts a connection (R473). -/
def startConnect (s : State) (q : Nat) (src : Option Src) : State :=
  let x := s.qp q
  sendConnect (rebind (s.setQp q { x with state := .connecting, connect := some (src, s.now) }) q) q

/-- Enters ERROR: the flush, and the reconnection of a slice's or firmware's queue pair (R473). -/
def enterError (s : State) (q st : Nat) : State :=
  let x := s.qp q
  let s := flushQp (s.setQp q { quietQp x with state := .error, lastError := st }) q st
  if x.ownerKind = 0 then s else startConnect s q none

/-- Enters INIT with the next instar (R473). -/
def enterInit (s : State) (q : Nat) : State :=
  let x := s.qp q
  s.setQp q { quietQp x with state := .init, instar := if x.instar = 0xFFFFFF then 1 else x.instar + 1 }

/-- Whether an actor owns a queue pair (R472). -/
def ownsQp (s : State) (ctx q : Nat) : Bool :=
  let x := s.qp q
  x.state ≠ .free && ((decide (x.ownerKind = 0) && decide (x.owner = ctx)) || (decide (x.ownerKind = 1) && decide (ctx = 0)))

/-! ### fab.qpc, fab.win, fab.ctl (R472, R473, R475, R483, R488, R489) -/

/-- Classes an owner may use (R459). -/
def classOk (s : State) (ownerKind slice cls : Nat) : Bool :=
  if ownerKind = 0 then decide (1 ≤ cls) && decide (cls ≤ 3)
  else decide (cls = 1) || decide (cls = 3) || (decide (cls = 5) && (s.slice slice).contract.isSome)

/-- The lowest free queue pair from 1,024 upward. -/
def freeQp (s : State) : Option Nat :=
  let used := s.fab.qps.filter fun y => decide (1024 ≤ y.1) && y.2.state ≠ .free
  let n := firstFree used 1024
  if n < 65536 then some n else none

/-- fab.qpc. -/
def qpcBody (src : Src) (ownerKind slice cls window depth : Nat) (counter : Word) (s : State) : State × Reply :=
  if 1 < ownerKind ∨ window = 0 ∨ 4096 < window ∨ depth < 16 ∨ 4096 < depth ∨ classOk s ownerKind slice cls = false then
    (s, .status 0x900B)
  else if ownerKind = 1 ∧ src.ctx ≠ 0 then (s, .status 0x9004)
  else match freeQp s with
    | none => (s, .status 0x9007)
    | some q =>
      let s := s.setQp q { qp0 with ownerKind := ownerKind, owner := if ownerKind = 0 then src.ctx else slice, cls := cls,
                                    window := window, depth := depth, counter := counter, instar := (s.qp q).instar }
      let s := enterInit s q
      (s, .done 0 (BitVec.ofNat 64 (q + (s.qp q).instar * 2 ^ 16)) 0 0)

def execFabQpc (src : Src) (ownerKind slice cls window depth : Nat) (counter : BitVec 64) (s : State) :
    Host.Outcome State Fault Refusal := .next (runItem s src 0xF6 (qpcBody src ownerKind slice cls window depth counter))

/-- fab.win: the lowest free window. -/
def winBody (src : Src) (q : Nat) (w : Window) (s : State) : State × Reply :=
  if 2 < w.mode ∨ (w.mode = 0 ∧ 2 ^ 39 < w.base + w.len) then (s, .status 0x900B)
  else if !ownsQp s src.ctx q then (s, .status 0x9004)
  else
    let x := s.qp q
    let n := firstFree x.windows 0
    if 16 ≤ n then (s, .status 0x900B)
    else (s.setQp q { x with windows := mset x.windows n w }, .done 0 (BitVec.ofNat 64 n) 0 0)

def execFabWin (src : Src) (qp : Nat) (read write atomic : Bool) (mode stallUs : Nat) (base : BitVec 64) (len : Nat) (s : State) :
    Host.Outcome State Fault Refusal :=
  .next (runItem s src 0xF8 (winBody src qp ⟨base.toNat, len, read, write, atomic, mode, stallUs⟩))

/-- fab.ctl connect. -/
def connectBody (src : Src) (q dev pq : Nat) (s : State) : State × Reply :=
  if s.flag FAB_COMP_SEALED = false then (s, .status 0x9001)
  else if !ownsQp s src.ctx q || decide ((s.qp q).state ≠ .init) then (s, .status 0x9004)
  else if (routeOf s dev).isNone then (s, .status 0x900A)
  else (startConnect (s.setQp q { s.qp q with peerDev := dev, peerQp := pq }) q (some src), .later)

def execFabCtlConnect (src : Src) (qp peerDev peerQp : Nat) (s : State) : Host.Outcome State Fault Refusal :=
  .next (runItem s src 0xF9 (connectBody src qp peerDev peerQp))

/-- fab.ctl reset. -/
def qpResetBody (src : Src) (q : Nat) (s : State) : State × Reply :=
  if !ownsQp s src.ctx q then (s, .status 0x9004) else (showSlots (enterInit (flushQp s q 0x9013) q), .ok)

def execFabCtlReset (src : Src) (qp : Nat) (s : State) : Host.Outcome State Fault Refusal :=
  .next (runItem s src 0xF9 (qpResetBody src qp))

/-- Frees a queue pair (R473). -/
def destroyQp (s : State) (q : Nat) : State :=
  let s := flushQp s q 0x9013
  showSlots (s.setQp q { qp0 with instar := (s.qp q).instar })

/-- fab.ctl destroy. -/
def qpDestroyBody (src : Src) (q : Nat) (s : State) : State × Reply :=
  if !ownsQp s src.ctx q then (s, .status 0x9004) else (destroyQp s q, .ok)

def execFabCtlDestroy (src : Src) (qp : Nat) (s : State) : Host.Outcome State Fault Refusal :=
  .next (runItem s src 0xF9 (qpDestroyBody src qp))

/-- Removes every item whose first packet has not been granted (R483). -/
def cancelItems (s : State) (q : Nat) : State :=
  let x := s.qp q
  let out := x.items.filter (fun i => decide (i.granted = 0)) ++ (s.fab.waiting.filter fun y => y.1 = q).map (·.2)
  let s := { s with fab := { s.fab with waiting := s.fab.waiting.filter fun y => y.1 ≠ q } }
  let s := s.setQp q { x with items := x.items.filter (fun i => decide (0 < i.granted)),
                              cqCount := (x.cqCount + out.length) % 2 ^ 64 }
  out.foldl (fun s i => completeFab s i 0x9012 0) s

/-- fab.ctl cancel. -/
def qpCancelBody (src : Src) (q : Nat) (s : State) : State × Reply :=
  if !ownsQp s src.ctx q then (s, .status 0x9004) else (cancelItems s q, .ok)

def execFabCtlCancel (src : Src) (qp : Nat) (s : State) : Host.Outcome State Fault Refusal :=
  .next (runItem s src 0xF9 (qpCancelBody src qp))

/-- Code of a queue pair's state (R489). -/
def QpState.code : QpState → Nat
  | .free => 0
  | .init => 1
  | .connecting => 2
  | .ready => 3
  | .error => 4

/-- The QP record (R489). -/
def qpRecord (x : Qp) : List Byte :=
  leBytes 8 (x.state.code + x.ownerKind % 2 * 2 ^ 3 + x.owner * 2 ^ 4 + x.cls * 2 ^ 10 + x.instar * 2 ^ 16) ++
  leBytes 8 (x.peerDev + x.peerQp * 2 ^ 16 + x.peerInstar * 2 ^ 32) ++
  leBytes 8 (x.window + x.depth * 2 ^ 13 + x.port * 2 ^ 26) ++
  leBytes 8 (x.sendPsn + x.expPsn * 2 ^ 24) ++ leBytes 8 x.cqCount ++ leBytes 8 x.notifyCount ++ leBytes 8 x.counter.toNat ++
  leBytes 8 (x.lastError + x.errors * 2 ^ 16)

/-- fab.ctl query. -/
def qpQueryBody (src : Src) (q : Nat) (addr : Word) (s : State) : State × Reply :=
  if !ownsQp s src.ctx q then (s, .status 0x9004)
  else match itemWrite s src 2 addr (qpRecord (s.qp q)) with
    | .error st => (s, .status st)
    | .ok s => (s, .ok)

def execFabCtlQuery (src : Src) (qp : Nat) (addr : BitVec 64) (s : State) : Host.Outcome State Fault Refusal :=
  .next (runItem s src 0xF9 (qpQueryBody src qp addr) true)

/-- fab.ctl revoke window. -/
def revokeBody (src : Src) (q w : Nat) (s : State) : State × Reply :=
  if !ownsQp s src.ctx q then (s, .status 0x9004)
  else (s.setQp q { s.qp q with windows := mdel (s.qp q).windows w }, .ok)

def execFabCtlRevokeWindow (src : Src) (qp window : Nat) (s : State) : Host.Outcome State Fault Refusal :=
  .next (runItem s src 0xF9 (revokeBody src qp window))

/-! ### fab.post (R471, R476, R479, R488) -/

/-- Whether the operands of fab.post lie in their ranges. -/
def postOk (op len : Nat) (laddr : Word) : Bool :=
  decide (1 ≤ op) && decide (op ≤ 5) && decide (1 ≤ len) && decide (len < 2 ^ 32) &&
  (decide (spaceOf laddr = 0) || decide (spaceOf laddr = 4)) && addrOk laddr true

/-- fab.post: the item joins the send queue, or waits for room. -/
def postBody (i : FabItem) (src : Src) (q : Nat) (s : State) : State × Reply :=
  let x := s.qp q
  if !postOk i.op i.len i.laddr then (s, .status 0x900B)
  else if !ownsQp s src.ctx q || decide (x.state ≠ .ready) || (i.wait && !ownsQp s src.ctx i.waitQp) then (s, .status 0x9004)
  else if (routeOf s x.peerDev).isNone then (s, .status 0x900A)
  else
    let i := { i with posted := s.now, src := some src }
    if x.items.length < x.depth ∧ (s.fab.waiting.any fun y => decide (y.1 = q)) = false then
      (s.setQp q { x with items := x.items ++ [{ i with seq := x.nextSeq }], nextSeq := x.nextSeq + 1 }, .later)
    else ({ s with fab := { s.fab with waiting := s.fab.waiting ++ [(q, i)] } }, .later)

def execFabPost (src : Src) (qp op : Nat) (chain notify wait : Bool) (waitKind waitQp : Nat) (laddr : BitVec 64) (raddr len : Nat)
    (operand swap threshold : BitVec 64) (s : State) : Host.Outcome State Fault Refusal :=
  .next (runItem s src 0xF7 (postBody
    { src := some src, seq := 0, op, chain, notify, wait, waitKind, waitQp, laddr, raddr, len, operand, swap, threshold,
      granted := 0, psn := 0, got := 0, result := 0, posted := 0 } src qp))

/-! ### Arbitration (R458, R464, R468 to R470, R479) -/

/-- Whether the count that an item waits for has been reached (R479). -/
def waitMet (s : State) (i : FabItem) : Bool :=
  let w := s.qp i.waitQp
  decide (i.threshold.toNat ≤ (if i.waitKind = 0 then w.cqCount else w.notifyCount))

/-- Whether an item may start: its chain, its wait, and at most 16 atomics outstanding (R466, R479). -/
def mayStart (s : State) (x : Qp) (i : FabItem) : Bool :=
  (!i.chain || !(x.items.any fun j => decide (j.seq + 1 = i.seq))) && (!i.wait || waitMet s i) &&
  (!(decide (i.op = 3) || decide (i.op = 4)) ||
    decide ((x.items.countP fun j => decide (0 < j.granted) && (decide (j.op = 3) || decide (j.op = 4))) < 16))

/-- The item whose next packet is the next new one, if it may be sent. -/
def newPacket (s : State) (x : Qp) : Option FabItem :=
  match x.items.find? fun i => decide (i.granted < itemPackets i) with
  | none => none
  | some i => if (decide (0 < i.granted) || mayStart s x i) && decide (outstanding x < x.window) then some i else none

/-- Whether a queue pair could transmit on a port. -/
def onPort (s : State) (p : Nat) (x : Qp) : Bool :=
  x.state = .ready && decide (x.port = p) && (mget (s.port p).paused x.cls).isNone &&
  !bitOf (s.fld (FAB_PORT_STUCK p)) x.cls && x.resendAfter.isNone

/-- Whether a queue pair has a packet to resend. -/
def resends (x : Qp) : Bool := decide (x.txPsn ≠ x.sendPsn)

/-- Bytes of an item's local operand. -/
def itemData (s : State) (i : FabItem) : Except Nat (List Byte) :=
  match i.src with
  | none => .ok (rdBytes s.hbm (bits i.laddr.toNat 0 39) i.len)
  | some src => itemRead s src 2 i.laddr i.len

/-- Packet `k` of an item, or the status with which its operand cannot be read (R463, R469). -/
def packetOf (s : State) (q : Nat) (i : FabItem) (k : Nat) (resent : Bool) : Except Nat EftFrame :=
  let last := decide (k + 1 = itemPackets i)
  let f := { frameOf s q 0 (psnAdd i.psn k) with
    first := decide (k = 0), last := last, ackreq := last, resent := resent, notify := last && (i.notify || decide (i.op = 5)) }
  if i.op = 1 then
    match itemData s i with
    | .error st => .error st
    | .ok bs => .ok { f with op := 1, raddr := i.raddr + 4096 * k, payload := (bs.drop (4096 * k)).take 4096 }
  else if i.op = 2 then .ok { f with op := 2, raddr := i.raddr, operand := BitVec.ofNat 64 i.len }
  else if i.op = 3 then .ok { f with op := 4, raddr := i.raddr, operand := i.operand }
  else if i.op = 4 then .ok { f with op := 5, raddr := i.raddr, operand := i.operand, payload := leBytes 8 i.swap.toNat }
  else .ok { f with op := 7, raddr := i.raddr }

/-- Transmits the next new packet of an item; an operand that cannot be read ends the item. -/
def sendNew (s : State) (p q : Nat) (i : FabItem) : State :=
  let x := s.qp q
  let i' := if i.granted = 0 then { i with psn := x.sendPsn } else i
  match packetOf s q i' i.granted false with
  | .error st => finishItem s q i st 0
  | .ok f =>
    let n := if i.op = 1 then 1 else itemPsns i
    let next := psnAdd x.sendPsn n
    let s := s.setQp q { x with sendPsn := next, txPsn := next,
                                rtoAt := if x.rtoAt.isSome then x.rtoAt else some s.now,
                                items := x.items.map fun j => if j.seq = i.seq then { i' with granted := i.granted + 1 } else j }
    sendFrame s p f

/-- Transmits the next packet of a resend. -/
def sendAgain (s : State) (p q : Nat) : State :=
  let x := s.qp q
  let inside (i : FabItem) : Bool := decide (0 < i.granted) &&
    (decide (psnDiff x.txPsn i.psn < (if i.op = 1 then i.granted else itemPsns i)) || psnAhead i.psn x.txPsn)
  match x.items.find? inside with
  | none => s.setQp q { x with txPsn := x.sendPsn }
  | some i =>
    let k := if i.op = 1 ∧ psnDiff x.txPsn i.psn < i.granted then psnDiff x.txPsn i.psn else 0
    let next := psnAdd (psnAdd i.psn k) (if i.op = 1 then 1 else itemPsns i)
    let s' := s.setQp q { x with txPsn := next, rtoAt := if psnAdd i.psn k = oldestPsn x then some s.now else x.rtoAt }
    match packetOf s q i k true with
    | .error st => finishItem s' q i st 0
    | .ok f => sendFrame s' p f

/-- Chooses one of some queue pairs: the spec gives no order within a class, so a free value chooses (log entry 12). -/
def chooseQp (s : State) (l : List Nat) : Option Nat × State :=
  if l.length ≤ 1 then (l.head?, s) else (l[s.draw.1.toNat % l.length]?, s.draw.2)

/-- Queue pairs of a class that may transmit. -/
def readyQps (s : State) (p c : Nat) (free : Bool) : List Nat :=
  (s.fab.qps.filter fun y => onPort s p y.2 && decide (y.2.cls = c) &&
    (resends y.2 || (free && (newPacket s y.2).isSome))).map (·.1)

/-- Most bytes of a frame on the wire, and the unit of the round robin's quanta. -/
def frameBytesMax : Nat := 4190

/-- Deficits of classes 3, 2 and 1 for a turn: each class that waits has its own, raised by its weight where none covers a
frame (R458). -/
def deficits (s : State) (p : Nat) (cs : List Nat) : Map Nat :=
  let d (c : Nat) : Nat := if cs.contains c then (mget (s.port p).deficit c).getD 0 else 0
  let short := cs.all fun c => decide (d c < frameBytesMax)
  ([1, 2, 3] : List Nat).map fun c =>
    (c, d c + (if short && cs.contains c then s.fld (FAB_CLASS_WEIGHT c) * frameBytesMax else 0))

/-- The class a port serves next: 6, 5, 4 by rank, then 3, 2, 1 by their deficits (R458). -/
def chooseClass (s : State) (p : Nat) (free : Bool) : Option (Nat × Map Nat) :=
  let has (c : Nat) : Bool := !(readyQps s p c free).isEmpty
  match ([6, 5, 4] : List Nat).find? has with
  | some c => some (c, (s.port p).deficit)
  | none =>
    let cs := ([3, 2, 1] : List Nat).filter has
    let d := deficits s p cs
    (cs.find? fun c => decide (frameBytesMax ≤ (mget d c).getD 0)).map fun c => (c, mset d c ((mget d c).getD 0 - frameBytesMax))

/-- The arbiter of a port transmits one packet. -/
def arbitrate (s : State) (p : Nat) : State :=
  if p < 16 ∧ pst s p = 2 then
    let free := decide (slotsHeld s < 262144)
    let passed := if free then 0 else s.fab.qps.countP fun y => onPort s p y.2 && !resends y.2 && (newPacket s y.2).isSome
    let s := { s with fab := { s.fab with fullPasses := s.fab.fullPasses + passed } }
    match chooseClass s p free with
    | none => s
    | some (c, d) =>
      let s := s.setPort p { s.port p with deficit := d }
      match chooseQp s (readyQps s p c free) with
      | (none, s) => s
      | (some q, s) =>
        let x := s.qp q
        if resends x then sendAgain s p q
        else match newPacket s x with
          | none => s
          | some i => sendNew s p q i
  else s

def execArbiterGrant (port : Nat) (s : State) : Host.Outcome State Fault Refusal := .next (showSlots (arbitrate s port))

/-- A waiting item at the sync-wait timeout (R479). -/
def waitTimedOut (s : State) (q : Nat) : State :=
  let x := s.qp q
  match x.items.find? fun i => decide (i.granted = 0) with
  | none => s
  | some i =>
    if i.wait = true ∧ waitMet s i = false ∧ i.posted + s.fld FLT_TIMEOUT_A_SYNC_MS * 10 ^ 6 ≤ s.now then
      finishItem s q i 0x9014 0
    else s

def execFabWaitTimeout (qp : Nat) (s : State) : Host.Outcome State Fault Refusal := .next (waitTimedOut s qp)

/-! ### The sender: acknowledgements and resends (R465, R467, R468, R476, R482) -/

/-- Everything before a PSN is acknowledged; whether that is an advance. -/
def ackUpTo (s : State) (q a : Nat) : State × Bool :=
  let x := s.qp q
  let d := psnDiff a x.ackedPsn
  if 0 < d ∧ d ≤ psnDiff x.sendPsn x.ackedPsn then
    let s := s.setQp q { x with ackedPsn := a, retries := 0, rtoAt := some s.now, resendAfter := none,
                                txPsn := if psnAhead a x.txPsn then a else x.txPsn }
    let whole (i : FabItem) : Bool := (decide (i.op = 1) || decide (i.op = 5)) && decide (i.granted = itemPackets i) &&
      decide (itemPackets i ≤ psnDiff a i.psn) && decide (psnDiff a i.psn < 2 ^ 23)
    let s := (x.items.filter whole).foldl (fun s i => finishItem s q i 0 (if i.op = 1 then BitVec.ofNat 64 i.len else 0)) s
    (s, true)
  else (s, false)

/-- A round of resends from a PSN; one without an advance counts a retry (R468). -/
def resendRound (s : State) (q from_ : Nat) (advanced : Bool) : State :=
  let x := s.qp q
  let n := if advanced then 0 else x.retries + 1
  if s.fld FAB_TIMER_RETRY_MAX + 1 ≤ n then enterError s q 0x9005
  else s.setQp q { x with retries := n, txPsn := from_, rtoAt := some s.now }

/-- RTO of a queue pair. -/
def rto (s : State) (x : Qp) : Nat :=
  s.fld FAB_TIMER_RTO_BASE_NS + ((routeOf s x.peerDev).map (·.2)).getD 0 * s.fld FAB_TIMER_RTO_HOP_NS

/-- RTO has passed since the oldest unacknowledged packet was sent. -/
def rtoPassed (s : State) (q : Nat) : State :=
  let x := s.qp q
  match x.rtoAt with
  | none => s
  | some t =>
    if x.state = .ready ∧ x.resendAfter = none ∧ 0 < outstanding x ∧ t + rto s x ≤ s.now then resendRound s q (oldestPsn x) false
    else s

def execRtoExpiry (qp : Nat) (s : State) : Host.Outcome State Fault Refusal := .next (showSlots (rtoPassed s qp))

/-- RETRY_US has passed since a NAK resend-after. -/
def retryPassed (s : State) (q : Nat) : State :=
  let x := s.qp q
  match x.resendAfter with
  | none => s
  | some (psn, t) => if t ≤ s.now then s.setQp q { x with resendAfter := none, txPsn := psn, rtoAt := some s.now } else s

def execResendAfterExpiry (qp : Nat) (s : State) : Host.Outcome State Fault Refusal := .next (retryPassed s qp)

/-- The item that holds a PSN. -/
def itemAt (x : Qp) (psn : Nat) : Option FabItem :=
  x.items.find? fun i => decide (0 < i.granted) && decide (psnDiff psn i.psn < itemPsns i)

/-- The target refused a packet: ACK_PSN is the last PSN it consumed (R486). -/
def refused (s : State) (q : Nat) (f : EftFrame) : State :=
  let x := s.qp q
  match itemAt x f.ackPsn with
  | none => s
  | some i =>
    let s := (ackUpTo s q i.psn).1
    if s.fld GLB_STATE_DOMAIN_CLASS = 0 then enterError s q f.syndrome
    else
      let s := finishItem s q i f.syndrome 0
      (ackUpTo s q (psnAdd f.ackPsn 1)).1

/-- An acknowledgement arrives (R463, R467, R482). -/
def ackIn (s : State) (q : Nat) (f : EftFrame) : State :=
  let a := psnAdd f.ackPsn 1
  if f.ackKind = 1 then (ackUpTo s q a).1
  else if f.ackKind = 2 then
    let r := ackUpTo s q a
    resendRound r.1 q a r.2
  else if f.ackKind = 3 then
    let s := (ackUpTo s q a).1
    s.setQp q { s.qp q with resendAfter := some (a, s.now + f.retryUs * 1000) }
  else if f.ackKind = 4 ∨ f.ackKind = 6 then refused s q f
  else if f.ackKind = 7 then
    let s := (ackUpTo s q a).1
    s.setQp q { s.qp q with rtoAt := some s.now }
  else s

/-- Writes a chunk of a read's bytes at its place in the local operand. -/
def putChunk (s : State) (i : FabItem) (bs : List Byte) : State :=
  let a := bits i.laddr.toNat 0 60 + i.got
  if spaceOf i.laddr = 0 then hbmWrite s a bs
  else match i.src with
    | none => s
    | some src =>
      if s.conf src.ctx then
        sealChunks s src.ctx src.queue 2 (itemNonce s src) (bits i.laddr.toNat 0 60) 1 (i.got / 4096) bs
      else s.hostWr src.ctx a bs

/-- A read response arrives: taken in order, and the read completes with its last byte. -/
def readIn (s : State) (q : Nat) (f : EftFrame) : State :=
  let x := s.qp q
  match itemAt x f.psn with
  | none => s
  | some i =>
    if i.op = 2 ∧ psnDiff f.psn i.psn * 4096 = i.got then
      let bs := f.payload.take (min 4096 (i.len - i.got))
      let s := putChunk s i bs
      let i' := { i with got := i.got + bs.length }
      let x := s.qp q
      let s := s.setQp q { x with retries := 0, rtoAt := some s.now,
                                  items := x.items.map fun j => if j.seq = i.seq then i' else j }
      if i'.got = i.len then finishItem s q i' 0 (BitVec.ofNat 64 i.len) else s
    else s

/-- The response of an atomic arrives: the word before (R476). -/
def atomicIn (s : State) (q : Nat) (f : EftFrame) : State :=
  match itemAt (s.qp q) f.psn with
  | none => s
  | some i => if i.op = 3 ∨ i.op = 4 then finishItem s q i 0 (BitVec.ofNat 64 (leNat (f.payload.take 8))) else s

/-! ### The receiver: windows and execution (R466, R475 to R478, R481) -/

/-- How the execution of a packet ends. -/
inductive PacketOut where
  | done (s : State)
  | refuse (s : State) (status : Nat)
  | absent (w : Nat) (page : Nat)
  deriving DecidableEq, Repr

/-- The right an operation needs: 0 read, 1 write, 2 atomic. -/
def hasRight (w : Window) (need : Nat) : Bool := if need = 0 then w.read else if need = 1 then w.write else w.atomic

/-- The lowest window that holds every byte of a range with the right it needs. -/
def windowFor (x : Qp) (need a len : Nat) : Option (Nat × Window) :=
  x.windows.find? fun w => hasRight w.2 need &&
    (if w.2.mode = 0 then decide (w.2.base ≤ a) && decide (a + len ≤ w.2.base + w.2.len) else decide (a + len ≤ w.2.len))

/-- Pages of a range. -/
def pagesTouched (a len : Nat) : List Nat :=
  (List.range ((a % pageBytes + len + pageBytes - 1) / pageBytes)).map (a / pageBytes + ·)

/-- Whether a stack in service backs a byte of HBM; the reserve lies above the stacks. -/
def stackServes (s : State) (a : Nat) : Bool :=
  let st := a / pageBytes / stackFrames
  decide (12 ≤ st) || bitOf (s.fld GLB_RES1_STACKS_OK) st

/-- The session whose page list a window names (R481). -/
def listOwner (s : State) (w : Window) : Option (Nat × Session) :=
  s.ses.entries.find? fun y => y.2.state.live && decide (y.2.kvRoot.toNat = w.base) && decide (w.base ≠ 0)

/-- Whether a page of a window is present. -/
def pagePresent (s : State) (w : Window) (n : Nat) : Bool :=
  if w.mode = 0 then stackServes s (n * pageBytes)
  else match listOwner s w with
    | none => false
    | some (_, e) => match mget e.kv n with
      | some r => refValid r && decide (refLoc r = 1)
      | none => false

/-- HBM address of a byte of a window. -/
def winAddr (s : State) (w : Window) (a : Nat) : Nat :=
  if w.mode = 0 then a
  else match listOwner s w with
    | none => a
    | some (_, e) => refIndex ((mget e.kv (a / pageBytes)).getD 0) * pageBytes + a % pageBytes

/-- Pieces of a range of at most a page that lie in one page each. -/
def pageParts (a len : Nat) : List (Nat × Nat) :=
  let n := pageBytes - a % pageBytes
  if len ≤ n then [(a, len)] else [(a, n), (a + n, len - n)]

/-- Bytes of a window. -/
def winRead (s : State) (w : Window) (a len : Nat) : List Byte :=
  (pageParts a len).flatMap fun p => rdBytes s.hbm (winAddr s w p.1) p.2

/-- Writes bytes of a window. -/
def winWrite (s : State) (w : Window) (a : Nat) (bs : List Byte) : State :=
  (pageParts a bs.length).foldl (fun s p => hbmWrite s (winAddr s w p.1) ((bs.drop (p.1 - a)).take p.2)) s

/-- Whether a range of a window holds poisoned data. -/
def winPoisoned (s : State) (w : Window) (a len : Nat) : Bool :=
  (pagesTouched a len).any fun n =>
    let lo := max a (n * pageBytes)
    hbmPoisoned s (winAddr s w lo) (min (a + len) ((n + 1) * pageBytes) - lo)

/-- Read responses, 4,096 bytes each, from chunk k on. -/
def respond (s : State) (q psn : Nat) (w : Window) (a : Nat) : Nat → Nat → Nat → State
  | 0, _, _ => s
  | n + 1, k, len =>
    let x := s.qp q
    let f := { frameOf s q 3 (psnAdd psn k) with
      first := decide (k = 0), last := decide (n = 0), payload := winRead s w (a + 4096 * k) (min 4096 len) }
    respond (sendFrame s x.port f) q psn w a n (k + 1) (len - 4096)

/-- Sends the response of an atomic. -/
def sendAtomic (s : State) (q psn : Nat) (old : Word) : State :=
  sendFrame s (s.qp q).port { frameOf s q 6 psn with first := true, last := true, payload := leBytes 8 old.toNat }

/-- Finds the window of an operation and checks its pages, then runs it. -/
def inWindow (s : State) (x : Qp) (need a len : Nat) (reads : Bool) (k : Window → State) : PacketOut :=
  match windowFor x need a len with
  | none => .refuse s 0x9021
  | some (n, w) =>
    if w.mode ≠ 0 ∧ (listOwner s w).isNone = true then .refuse s 0x9031
    else match (pagesTouched a len).find? fun p => !pagePresent s w p with
      | some p => .absent n p
      | none =>
        if reads && winPoisoned s w a len then
          .refuse ((pagesTouched a len).foldl (fun s p =>
            piedFrame s (winAddr s w (max a (p * pageBytes)) / pageBytes)) s) 0x9031
        else .done (k w)

/-- PSNs a request consumes. -/
def framePsns (f : EftFrame) : Nat := if f.op = 2 then (bits f.operand.toNat 0 32 + 4095) / 4096 else 1

/-- Executes a packet in order. -/
def runPacket (s : State) (q : Nat) (f : EftFrame) : PacketOut :=
  let x := s.qp q
  if f.op = 1 then
    inWindow s x 1 f.raddr f.payload.length false fun w => winWrite s w f.raddr f.payload
  else if f.op = 2 then
    let len := bits f.operand.toNat 0 32
    inWindow s x 0 f.raddr len true fun w => respond s q f.psn w f.raddr ((len + 4095) / 4096) 0 len
  else if f.op = 4 ∨ f.op = 5 then
    if (windowFor x 2 f.raddr 8).isSome ∧ f.raddr % 8 ≠ 0 then .refuse s 0x9022
    else inWindow s x 2 f.raddr 8 true fun w =>
      let old := BitVec.ofNat 64 (leNat (winRead s w f.raddr 8))
      let new : Word := if f.op = 4 then old + f.operand
        else if old = f.operand then BitVec.ofNat 64 (leNat (f.payload.take 8)) else old
      let s := winWrite s w f.raddr (leBytes 8 new.toNat)
      let kept := (s.qp q).atomics ++ [(f.psn, old)]
      sendAtomic (s.setQp q { s.qp q with atomics := kept.drop (kept.length - 16) }) q f.psn old
  else .done s

/-- Performs the notify of an item: NOTIFY_COUNT, and ctr.add of 1 on the notify counter (R477). -/
def notifyQp (s : State) (q : Nat) : State :=
  let x := s.qp q
  let s := s.setQp q { x with notifyCount := (x.notifyCount + 1) % 2 ^ 64 }
  if x.counter = 0 then s
  else match syncLookup s 1 x.ownerKind x.owner x.counter with
    | .error st => countStale s st
    | .ok n => match counterAdd s n 1 with
      | .done s' _ => s'
      | .fail s' _ => s'
      | .wait s' => s'

/-- A packet has been executed: the expected PSN moves on, the item notifies, and the acknowledgement goes when it is due
(R465, R467). -/
def accepted (s : State) (q : Nat) (f : EftFrame) : State :=
  let x := s.qp q
  let s := s.setQp q { x with expPsn := psnAdd f.psn (framePsns f), nakSent := false, raSent := (0, 0), unacked := x.unacked + 1,
                              unackedAt := if x.unacked = 0 then s.now else x.unackedAt }
  let s := if f.notify && f.last then notifyQp s q else s
  let x := s.qp q
  if f.ackreq ∨ 16 ≤ x.unacked then sendAck s q 1 (lastIn x) 0 0 else s

/-- Refuses a packet, by the domain's class (R486). -/
def refusePacket (s : State) (q : Nat) (f : EftFrame) (st : Nat) : State :=
  let n := framePsns f
  let s := sendAck s q (if st = 0x9031 then 6 else 4) (psnAdd f.psn (n - 1)) 0 st
  if s.fld GLB_STATE_DOMAIN_CLASS = 0 then enterError s q st
  else
    let x := s.qp q
    let s := s.setQp q { x with expPsn := psnAdd f.psn n, nakSent := false, raSent := (0, 0),
                                errors := min (x.errors + 1) (2 ^ 32 - 1), lastError := st }
    fault s (portSource x.port 7) 0x10 st (BitVec.ofNat 64 (f.raddr + f.srcDev * 2 ^ 48)) q 7

/-- A NAK resend-after, its RETRY_US the firmware's estimate; the ninth for one PSN is a refusal (R481, R482). -/
def askAgain (s : State) (q : Nat) (f : EftFrame) : State :=
  let x := s.qp q
  let n := if x.raSent.1 = f.psn then x.raSent.2 else 0
  if 8 ≤ n then refusePacket s q f 0x9031
  else
    let us := s.draw.1.toNat % 2 ^ 16
    let s := s.draw.2
    let s := s.setQp q { x with raSent := (f.psn, n + 1), nakSent := true }
    sendAck s q 3 (lastIn x) us 0

/-- Asks firmware for an absent page. -/
def wantPage (s : State) (q w page : Nat) : State :=
  let x := s.qp q
  if x.wanted.contains (w, page) then s else s.setQp q { x with wanted := x.wanted ++ [(w, page)] }

/-- Bytes a held frame takes of the shared buffer. -/
def wireBytes (f : EftFrame) : Nat := f.payload.length + 94

/-- A packet meets an absent page (R481). -/
def pageAbsent (s : State) (q : Nat) (f : EftFrame) (w page : Nat) : State :=
  let x := s.qp q
  let mode : Nat := ((mget x.windows w).map (·.mode)).getD 0
  if mode = 0 then refusePacket s q f 0x9031
  else if mode = 1 then
    let s := wantPage (s.setQp q { x with held := some (f, s.now, s.now) }) q w page
    addOcc (sendAck s q 7 (lastIn x) 0 0) x.port f.cls (wireBytes f)
  else askAgain (wantPage s q w page) q f

/-- Executes a packet that is next in order. -/
def takePacket (s : State) (q : Nat) (f : EftFrame) : State :=
  match runPacket s q f with
  | .done s => accepted s q f
  | .refuse s st => refusePacket s q f st
  | .absent w page => pageAbsent s q f w page

/-- The PSN after the packets that are held. -/
def heldEnd (x : Qp) (f : EftFrame) : Nat :=
  match x.heldNext.getLast? with
  | some g => psnAdd g.psn (framePsns g)
  | none => psnAdd f.psn (framePsns f)

/-- A packet behind the expected PSN: an ACK, and the response of a read or an atomic again (R465, R466). -/
def packetBehind (s : State) (q : Nat) (f : EftFrame) : State :=
  let x := s.qp q
  let s := sendAck s q 1 (lastIn x) 0 0
  if f.op = 2 then
    match runPacket s q f with
    | .done s' => s'
    | _ => s
  else if f.op = 4 ∨ f.op = 5 then
    match x.atomics.find? fun y => y.1 = f.psn with
    | some (_, old) => sendAtomic s q f.psn old
    | none => s
  else s

/-- A packet ahead of the expected PSN: one NAK sequence (R465). -/
def packetAhead (s : State) (q : Nat) : State :=
  let x := s.qp q
  if x.nakSent then s else sendAck (s.setQp q { x with nakSent := true }) q 2 (lastIn x) 0 0

/-- A request arrives on a READY queue pair (R465, R481). -/
def requestIn (s : State) (q : Nat) (f : EftFrame) : State :=
  let x := s.qp q
  match x.held with
  | some (g, _, _) =>
    if f.psn = heldEnd x g then addOcc (s.setQp q { x with heldNext := x.heldNext ++ [f] }) x.port f.cls (wireBytes f)
    else if psnAhead f.psn (heldEnd x g) then packetAhead s q
    else if psnDiff f.psn x.expPsn < 2 ^ 23 then sendAck s q 7 (lastIn x) 0 0
    else packetBehind s q f
  | none =>
    if f.psn = x.expPsn then takePacket s q f
    else if psnAhead f.psn x.expPsn then packetAhead s q
    else packetBehind s q f

/-! ### Arrival (R454, R465, R473, R484, R485) -/

/-- Discards a packet with a stale instar (R484). -/
def staleFrame (s : State) (f : EftFrame) : State :=
  fault (s.incSat FAB_STALE_COUNT 1) 0xD00 0x08 0 (BitVec.ofNat 64 f.srcInstar) 0xFFFF 7

/-- Answers a packet of a fenced instar, at most once a millisecond per source; the answer names that instar in QP_INSTAR
(R485). -/
def fencedFrame (s : State) (p : Nat) (f : EftFrame) (e : Nat × Nat × Nat) : State :=
  if e.2.2 = 0 ∨ e.2.2 + 10 ^ 6 ≤ s.now then
    let s := { s with fab := { s.fab with fenced := s.fab.fenced.map fun y => if y = e then (e.1, e.2.1, s.now) else y } }
    sendFrame s p { frameOf s f.dstQp 8 0 with
      cls := f.cls, dstDev := f.srcDev, dstQp := f.srcQp, qpInstar := f.srcInstar, ackKind := 5, syndrome := 0x9040 }
  else s

/-- A CONNECT arrives (R473, R487). -/
def connectIn (s : State) (f : EftFrame) : State :=
  let q := f.dstQp
  let x := s.qp q
  if x.peerDev ≠ f.srcDev ∨ x.peerQp ≠ f.srcQp then s
  else if x.state = .connecting then
    let s := finishConnect (s.setQp q { quietQp x with
      state := .ready, peerInstar := f.srcInstar, peerQpInstar := f.qpInstar, sendPsn := 0, txPsn := 0, expPsn := 0, ackedPsn := 0 }) q 0
    rebind s q
  else if x.state = .ready ∧ f.srcInstar ≠ x.peerInstar then
    if psnAhead f.srcInstar x.peerInstar then enterError s q 0x9006 else staleFrame s f
  else s

/-- A frame for a queue pair. -/
def frameIn (s : State) (f : EftFrame) : State :=
  let q := f.dstQp
  let x := s.qp q
  if f.op = 9 then connectIn s f
  else if f.op = 8 ∧ f.ackKind = 5 then
    if x.state = .ready ∧ x.peerDev = f.srcDev ∧ psnAhead f.srcInstar x.peerInstar = true then enterError s q 0x9006 else s
  else if f.srcInstar ≠ x.peerInstar ∨ f.qpInstar ≠ x.instar then staleFrame s f
  else if x.state ≠ .ready then s
  else if f.op = 8 then ackIn s q f
  else if f.op = 3 then readIn s q f
  else if f.op = 6 then atomicIn s q f
  else if f.op = 1 ∨ f.op = 2 ∨ f.op = 4 ∨ f.op = 5 ∨ f.op = 7 then requestIn s q f
  else s

/-- An EFT frame arrives at a port. -/
def eftIn (s : State) (p : Nat) (f : EftFrame) : State :=
  if 16 ≤ p ∨ pst s p ≠ 2 then s
  else
    let s := leaveD1 s
    if !f.icrcOk then s.incSat (FAB_PORT_ERR_FCS p) 1
    else if f.dstDev ≠ s.devAddr ∨ s.flag GLB_DEV_ADDR_VALID = false then s.incSat (FAB_PORT_ERR_MISDIRECTED p) 1
    else if f.op = 8 ∧ f.ackKind = 5 ∧ f.qpInstar = devInstar s then fatalStop s
    else match s.fab.fenced.find? fun y => decide (y.1 = f.srcDev) && decide (y.2.1 = f.srcInstar) with
      | some e => fencedFrame s p f e
      | none => frameIn s f

def execEftFrame (port : Nat) (frame : EftFrame) (s : State) : Host.Outcome State Fault Refusal :=
  .next (showSlots (eftIn s port frame))

/-! ### Timers of a queue pair (R467, R473, R481) -/

/-- ACK_NS after the first unacknowledged packet. -/
def ackDue (s : State) (q : Nat) : State :=
  let x := s.qp q
  if x.state = .ready ∧ 0 < x.unacked ∧ x.unackedAt + s.fld FAB_TIMER_ACK_NS ≤ s.now then sendAck s q 1 (lastIn x) 0 0 else s

def execAckTimer (qp : Nat) (s : State) : Host.Outcome State Fault Refusal := .next (ackDue s qp)

/-- A hold ACK each 4 µs. -/
def holdAgain (s : State) (q : Nat) : State :=
  let x := s.qp q
  match x.held with
  | none => s
  | some (f, t, l) =>
    if l + 4000 ≤ s.now then sendAck (s.setQp q { x with held := some (f, t, s.now) }) q 7 (lastIn x) 0 0 else s

def execHoldAckSend (qp : Nat) (s : State) : Host.Outcome State Fault Refusal := .next (holdAgain s qp)

/-- Drops what a queue pair holds, with its share of the buffer. -/
def dropHeld (s : State) (q : Nat) : State :=
  let x := s.qp q
  match x.held with
  | none => s
  | some (f, _, _) =>
    freeOcc (s.setQp q { x with held := none, heldNext := [] }) x.port f.cls (((f :: x.heldNext).map wireBytes).sum)

/-- The page has not come within STALL_US. -/
def stallPassed (s : State) (q : Nat) : State :=
  let x := s.qp q
  match x.held with
  | none => s
  | some (f, t, _) =>
    let us := match runPacket s q f with
      | .absent w _ => ((mget x.windows w).map (·.stallUs)).getD 0
      | _ => 0
    if t + us * 1000 ≤ s.now then askAgain (dropHeld s q) q f else s

def execStallTimeout (qp : Nat) (s : State) : Host.Outcome State Fault Refusal := .next (stallPassed s qp)

/-- Puts an absent page of a session's list into a free frame, with the bytes its copy holds. -/
def bringPage (s : State) (i : Nat) (e : Session) (n frame : Nat) : State :=
  if (s.frame frame).isSome ∨ frame < firstFrame then s
  else
    let fe : Frame := { refcnt := 1, kind := 1, context := e.context, pied := false, crcValid := false, crc := 0 }
    let bytes := (mget (pagesOf s e).1 n).getD []
    let s := { s with ses := { s.ses with
      frames := mset s.ses.frames frame fe,
      entries := mset s.ses.entries i { e with kv := mset e.kv n (pageRef false false 1 0 frame) } } }
    let s := (s.decFld SES_KV_FREE_FREE 1).incWrap (SES_CTX_PAGES_USED_PAGES e.context) 1
    setFrameBytes s frame bytes

/-- The page a queue pair waits for first arrives in a frame; what it held is executed in order (R481). -/
def pageArrives (s : State) (q frame : Nat) : State :=
  let x := s.qp q
  match x.wanted with
  | [] => s
  | (w, page) :: rest =>
    let s := s.setQp q { x with wanted := rest }
    let s := match mget x.windows w with
      | none => s
      | some win => match listOwner s win with
        | none => s
        | some (i, e) => bringPage s i e page frame
    match x.held with
    | none => s
    | some (f, _, _) => (f :: x.heldNext).foldl (fun s g => if (s.qp q).state = .ready then requestIn s q g else s) (dropHeld s q)

def execPageArrival (qp frame : Nat) (s : State) : Host.Outcome State Fault Refusal := .next (pageArrives s qp frame)

def execConnectResend (qp : Nat) (s : State) : Host.Outcome State Fault Refusal :=
  .next (if (s.qp qp).state = .connecting then sendConnect s qp else s)

/-- CONNECT_MS has passed without a connection. -/
def connectLate (s : State) (q : Nat) : State :=
  let x := s.qp q
  match x.connect with
  | some (_, t) =>
    if x.state = .connecting ∧ t + s.fld FAB_TIMER_CONNECT_MS * 10 ^ 6 ≤ s.now then enterInit (finishConnect s q 0x9003) q else s
  | none => s

def execConnectTimeout (qp : Nat) (s : State) : Host.Outcome State Fault Refusal := .next (connectLate s qp)

/-! ### Fence records (R485; 03 R101, 13 R523) -/

/-- Sessions whose P2 copy a device holds. -/
def lentBy (s : State) (dev : Nat) : List Nat :=
  (s.ses.entries.filter fun y => y.2.state.live && decide (y.2.tier = .p2) && decide (y.2.lender = dev)).map (·.1)

/-- A lender is lost (03 R101): moves to and from it end, and the sessions it holds are restored to P3 or FAULTED. -/
def lenderLost (s : State) (dev : Nat) : State :=
  let parks := (s.ses.entries.filter fun y => match y.2.park with
    | some op => decide (op.target = .p2) && decide (op.place = dev)
    | none => false).map (·.1)
  let s := parks.foldl (fun s i => parkFailed s i 0x9006) s
  let s := (lentBy s dev).foldl (fun s i => lostP2 (match s.ses? i with
    | some e => if e.reviveBusy then abortRevival s i else s
    | none => s) i) s
  { s with tier := { s.tier with lenders := mdel s.tier.lenders dev } }

/-- The partner is fenced: every mirror record that is mapped is adopted, with LAST_STATUS 0xA040 (13 R523). -/
def adoptMirrors (s : State) : State :=
  match (List.range 4).find? (bayJournals s) with
  | none => s
  | some b =>
    let l := s.flt.mirrors.filter fun x => recMapped s x.1
    let s := { s with flt := { s.flt with mirrors := s.flt.mirrors.filter fun x => !recMapped s x.1 } }
    l.foldl (fun s x =>
      let at_ := ((List.range 4).find? fun b => bayJournals s b && (bayRecs s b).any fun y => decide (y.1.handle = x.1.handle)).getD b
      (adopt s at_ 0xA040 x).getD { s with flt := { s.flt with mirrors := s.flt.mirrors ++ [x] } }) s

/-- An instar of a device is fenced: its own stops this device; another's packets are discarded from now on. -/
def fenceIn (s : State) (dev inst : Nat) : State :=
  if s.flag GLB_DEV_ADDR_VALID = true ∧ dev = s.devAddr then
    if inst = devInstar s then fatalStop s else s
  else if s.fab.fenced.any fun y => decide (y.1 = dev) && decide (y.2.1 = inst) then s
  else
    let s := { s with fab := { s.fab with fenced := s.fab.fenced ++ [(dev, inst, 0)] } }
    let s := fault s 0xD01 0x09 0xA024 0
    let s := lenderLost s dev
    if dev = s.fld FAB_PAIR_PARTNER then adoptMirrors s else s

def execFenceRecord (device instar : Nat) (s : State) : Host.Outcome State Fault Refusal := .next (fenceIn s device instar)

end Sys2Proof.Machine
end

