-- ==== Sys2Proof/Machine/Clock.lean ====
section
/-! DEFINITION. Device time in the domain (01 R23 to R26; 12 R455 to R457): the grandmaster's Sync messages, the lock, holdover,
the domain of one, peer delays; and the device heartbeat (13 R504). -/

namespace Sys2Proof.Machine

/-- Shows an offset, saturating (GLB_TIME_STATUS.OFFSET). -/
def showOffset (s : State) (o : Int) : State :=
  let v : Int := if o < -32768 then -32768 else if 32767 < o then 32767 else o
  s.setFld GLB_TIME_STATUS_OFFSET (v % 65536).toNat

/-- Shows the lock and its source. -/
def setLock (s : State) (source : Nat) : State :=
  edge ((s.setFld GLB_TIME_STATUS_LOCKED 1).setFld GLB_TIME_STATUS_SOURCE source) 0x403

/-- Leaves holdover. -/
def endHoldover (s : State) : State :=
  if s.flag GLB_TIME_STATUS_HOLDOVER then
    let s := { s with clk := { s.clk with reported := false } }
    edge (s.setFld GLB_TIME_STATUS_HOLDOVER 0) 0x403
  else s

/-- Whether the device follows a sender of Sync messages: the grandmaster, or in holdover the backup (R455, R457). -/
def follows (s : State) (sender : Nat) : Bool :=
  match s.fab.comp with
  | none => false
  | some c => decide (c.gm ≠ s.devAddr) &&
    (if s.clk.backup then decide (sender = c.backup)
     else decide (sender = c.gm) || (decide (sender = c.backup) && s.flag GLB_TIME_STATUS_HOLDOVER))

/-- The one step of device time, at the first lock (R24). -/
def stepTime (c : ClkBlock) (offset : Int) : ClkBlock :=
  if c.stepped then c else { c with now := ((c.now : Int) - offset).toNat, stepped := true }

/-- A Sync message arrives with its measured offset. -/
def syncIn (s : State) (sender : Nat) (offset : Int) : State :=
  if follows s sender then
    let near : Bool := decide (-40 ≤ offset) && decide (offset ≤ 40)
    let isBackup : Bool := match s.fab.comp with
      | some c => decide (sender = c.backup) && decide (sender ≠ c.gm)
      | none => false
    let s := { s with clk := { s.clk with
      syncAt := some s.now, backup := isBackup, syncGood := if near then min (s.clk.syncGood + 1) 16 else 0 } }
    let s := showOffset (endHoldover s) offset
    if s.flag GLB_TIME_STATUS_LOCKED then { s with clk := { s.clk with slew := -offset } }
    else if s.clk.syncGood = 16 then
      let s := { s with clk := stepTime s.clk offset }
      setLock { s with clk := { s.clk with syncAt := some s.now } } 2
    else s
  else s

def execPtpSync (sender : Nat) (offset : Int) (s : State) : Host.Outcome State Fault Refusal := .next (syncIn s sender offset)

/-- Nanoseconds of a Sync interval, 2^-7 s. -/
def syncInterval : Nat := 7812500

/-- Eight Sync intervals have passed without a message: holdover (R26, R457). -/
def syncLost (s : State) : State :=
  match s.clk.syncAt with
  | none => s
  | some t =>
    if s.fld GLB_TIME_STATUS_SOURCE = 2 ∧ s.fld GLB_TIME_STATUS_HOLDOVER = 0 ∧ t + 8 * syncInterval ≤ s.now then
      let s := { s with clk := { s.clk with syncGood := 0, slew := 0, backup := false } }
      edge (s.setFld GLB_TIME_STATUS_HOLDOVER 1) 0x403
    else s

def execSyncMissed (s : State) : Host.Outcome State Fault Refusal := .next (syncLost s)

/-- Fault source of a unit of the active session engine's hub (13 R494). -/
def hubUnit (s : State) (u : Nat) : Nat := 0xB40 + 16 * s.fld GLB_STATE_ACTIVE_HUB + u

/-- The estimated offset in holdover passes ±40 ns (R26). -/
def holdoverFault (s : State) (offset : Int) : State :=
  if s.flag GLB_TIME_STATUS_HOLDOVER = true ∧ s.clk.reported = false ∧ (offset < -40 ∨ 40 < offset) then
    let s := showOffset { s with clk := { s.clk with reported := true } } offset
    fault s (hubUnit s 13) 0x10 0 0
  else s

def execHoldoverTimeFault (offset : Int) (s : State) : Host.Outcome State Fault Refusal := .next (holdoverFault s offset)

/-- No port is up 10 s after start-up began: a domain of one, whose address is 0 (R25, R30). -/
def loneDomain (s : State) : State :=
  if s.awake = true ∧ 10 ^ 10 ≤ s.now ∧ s.fld GLB_RES1_PORTS_UP = 0 ∧ s.flag FAB_COMP_SEALED = false ∧
      s.flag GLB_TIME_STATUS_LOCKED = false ∧ s.flag GLB_STATE_READY = false then
    let s := ((s.setFld GLB_DEV_ADDR_DEVICE 0).setFld GLB_DEV_ADDR_PLANE 0).setFld GLB_DEV_ADDR_VALID 1
    setLock s 1
  else s

def execDomainOfOne (s : State) : Host.Outcome State Fault Refusal := .next (loneDomain s)

/-- Whether the device sends Sync messages: the grandmaster, and the backup while the grandmaster is silent (R455, R457). -/
def sendsSync (s : State) : Bool :=
  match s.fab.comp with
  | none => false
  | some c => decide (c.gm = s.devAddr) || (decide (c.backup = s.devAddr) && s.flag GLB_TIME_STATUS_HOLDOVER)

/-- Ports that are UP. -/
def upPorts (s : State) : List Nat := (List.range 16).filter fun p => pst s p = 2

/-- Sends a Sync and its Follow_Up on every port; the grandmaster's own time is the domain's, so it is locked. -/
def syncOut (s : State) : State :=
  if sendsSync s then
    let s := if s.flag GLB_TIME_STATUS_LOCKED then s else setLock s 2
    (upPorts s).foldl (fun s p => send s (.sync p s.now)) s
  else s

def execSyncMessageSend (s : State) : Host.Outcome State Fault Refusal := .next (syncOut s)

def execPdelayReqSend (port : Nat) (s : State) : Host.Outcome State Fault Refusal :=
  .next (if port < 16 ∧ pst s port = 2 then send s (.pdelayReq port) else s)

/-- A peer-delay message: a request is answered with its times of arrival and departure; a response gives the delay. -/
def pdelayIn (s : State) (p : Nat) (resp : Bool) (t1 t2 t3 t4 : Nat) : State :=
  if p < 16 ∧ pst s p = 2 then
    if resp then s.setPort p { s.port p with delay := ((t4 - t1) - (t3 - t2)) / 2 }
    else send s (.pdelayResp p s.now s.now)
  else s

def execPdelayMessage (port : Nat) (resp : Bool) (t1 t2 t3 t4 : Nat) (s : State) : Host.Outcome State Fault Refusal :=
  .next (pdelayIn s port resp t1 t2 t3 t4)

/-- The heartbeat to the watchers, each millisecond (13 R504). -/
def heartbeatOut (s : State) : State :=
  if s.flag FAB_COMP_SEALED = true ∧ s.flt.beatAt + 10 ^ 6 ≤ s.now then
    send { s with flt := { s.flt with beatAt := s.now } } .heartbeat
  else s

def execDeviceHeartbeatSend (s : State) : Host.Outcome State Fault Refusal := .next (heartbeatOut s)

/-! ### Hold-off of event groups (15 R577) -/

/-- Ends the holds whose hold-off has passed and whose core has acknowledged (R577). -/
def endHolds (s : State) : State :=
  let done := s.isl.holds.filter fun (x : Nat × Nat × Bool) => x.2.2 && decide (x.2.1 ≤ s.now)
  let s := done.foldl (fun s x => s.setFld (EVC_GROUP_HELD x.1) 0) s
  { s with isl := { s.isl with holds := s.isl.holds.filter fun (x : Nat × Nat × Bool) => !(x.2.2 && decide (x.2.1 ≤ s.now)) } }

end Sys2Proof.Machine
end

