-- ==== Sys2Proof/Machine/Faults.lean ====
section
/-! DEFINITION. Faults, fencing and elasticity (13): fault messages, warnings, spare cells and quires, the sparing reserve, lost
units, proofs, the redundant pair, and the timeouts of items. -/

namespace Sys2Proof.Machine

/-! ### Fault messages (R495 to R501) -/

/-- Severity of a message at its source (R495). -/
def severity (s : State) (m : FaultMsg) : Nat :=
  if kindCorrectable m.kind then s.fld (FLT_SRC_SEV_CE m.source) else s.fld (FLT_SRC_SEV_UE m.source)

/-- The words of a fault message (R498). -/
def msgWords (s : State) (m : FaultMsg) (first : Bool) : List Nat :=
  [m.source + b2n first * 2 ^ 12 + b2n (!kindCorrectable m.kind) * 2 ^ 13 + severity s m * 2 ^ 14 + m.kind * 2 ^ 16 +
     m.status * 2 ^ 32 + s.devAddr * 2 ^ 48,
   m.address.toNat, m.instar % 2 ^ 24 + m.master * 2 ^ 24 + m.access * 2 ^ 40, m.time]

/-- Writes a message to the fault ring, or drops it (R499); the event of a message written (15 R575). -/
def ringWrite (s : State) (h : Nat) (ws : List Nat) : State :=
  let n := 2 ^ s.fld FLT_RING_CFG_LOG2_ENTRIES
  let prod := s.fld FLT_RING_PTR_PROD
  if s.fld FLT_RING_CFG_ENABLE = 0 ∨ (prod + 65536 - s.fld FLT_RING_PTR_CONS) % 65536 = n then
    s.incSat (FLT_LOST_RING_DROP h) 1
  else
    let s := s.hostWr 0 (s.fld FLT_RING_BASE_BASE * 4096 + 32 * (prod % n)) (ws.flatMap (leBytes 8))
    edge (s.incWrap FLT_RING_PTR_PROD 1) 0x404

/-- Captures the first error of a collector (R501). -/
def captureFirst (s : State) (h : Nat) (ws : List Nat) : State :=
  let s := ws.zipIdx.foldl (fun s (w : Nat × Nat) => s.setFld (FLT_FIRST_WORD h w.2) w.1) s
  s.setFld (FLT_FIRST_CTL_VALID h) 1

/-- Delivers a message by its severity (R495, R496). -/
def deliver (s : State) (h : Nat) (m : FaultMsg) (first : Bool) : State :=
  let sev := severity s m
  let ws := msgWords s m first
  let s := if first then captureFirst s h ws else s
  let s := if m.kind = 0x09 ∨ m.kind = 0x0A then edge s 0x405 else s
  let s := if 1 ≤ sev then ringWrite s h ws else s
  let s := if 2 ≤ sev then
      msix { s with flt := { s.flt with irqs := s.flt.irqs + 1 } } 0 (s.fld FLT_RING_CFG_VECTOR)
    else s
  if sev = 3 then fatalStop s else s

/-- The lowest source whose latch a collector has to handle (R500). -/
def nextLatched (s : State) (h : Nat) : Option (Nat × FaultMsg) := s.flt.latch.find? fun y => collector s y.1 = h

/-- A collector handles its next latched error. -/
def handleLatch (s : State) (h : Nat) : State :=
  if 2 ≤ h ∨ s.hubUp h = false then s
  else match nextLatched s h with
    | none => s
    | some (n, m) =>
      let first := !s.flag (FLT_FIRST_CTL_VALID h)
      deliver { s with flt := { s.flt with latch := mdel s.flt.latch n } } h m first

def execFaultLatchHandled (hub : Nat) (s : State) : Host.Outcome State Fault Refusal := .next (handleLatch s hub)

/-! ### Spare cells and quires (R492, R516, R517) -/

/-- The instar after another: 0xFF_FFFF is followed by 0x00_0001 (R505). -/
def instarAfter (n : Nat) : Nat := if n = 0xFFFFFF then 1 else n + 1

/-- A field that holds an instar moves on. -/
def bumpInstar (s : State) (f : Field) : State := s.setFld f (instarAfter (s.fld f))

/-- The lowest spare cell of a forme. -/
def spareOf (s : State) (f : Nat) : Option Nat := (List.range 168).find? fun k => s.fld (FRM_CELL_STAT_STATE f k) = 2

/-- Fault source of the synchronisation unit of the active hub (R494). -/
def syncSource (s : State) : Nat := hubUnit s 7

/-- Marks the partition of a device cell for a re-imposition. -/
def markReimpose (s : State) (n : Nat) : State :=
  match (List.range 16).find? fun p => bitOf (s.fld (GAL_PART_QUIRES p)) (n / 40) with
  | some p => if s.flt.reimpose.contains p then s else { s with flt := { s.flt with reimpose := s.flt.reimpose ++ [p] } }
  | none => s

/-- Abandons every galley of a partition: the one that runs and those that light switches suspended (R517). -/
def abandonPart (s : State) (p : Nat) : State :=
  let x := s.part p
  ((x.running.toList ++ x.nest.map (·.1))).foldl (fun s k => abandonGalley s p k) s

/-- Bridge hops from a quire to the others of a partition. -/
def quireHops (others : List Nat) (q : Nat) : Nat := (others.map fun o => hops (q / 4) (o / 4)).sum

/-- Quires that lie in no enabled partition and are whole. -/
def freeQuires (s : State) : List Nat :=
  (List.range 48).filter fun q => quireWhole s q &&
    !((List.range 16).any fun p => s.flag (GAL_PART_ENABLE p) && bitOf (s.fld (GAL_PART_QUIRES p)) q)

/-- The free quire with the fewest hops to the others, the lowest number on a tie. -/
def bestQuire (s : State) (others : List Nat) : Option Nat :=
  (freeQuires s).foldl (fun (best : Option Nat) q => match best with
    | none => some q
    | some b => if quireHops others q < quireHops others b then some q else some b) none

/-- A quire of an enabled partition that is short is replaced; with no other, the partition's slices are barred (R516). -/
def replaceQuire (s : State) (q : Nat) : State :=
  if quireWhole s q then s
  else match (List.range 16).find? fun p => s.flag (GAL_PART_ENABLE p) && bitOf (s.fld (GAL_PART_QUIRES p)) q with
    | none => s
    | some p =>
      match bestQuire s ((partQuires s p).filter (· ≠ q)) with
      | some q' => refreshErr (markReimpose (s.setFld (GAL_PART_QUIRES p) (s.fld (GAL_PART_QUIRES p) - 2 ^ q + 2 ^ q')) (40 * q'))
      | none => capacityChange (refreshErr s)

/-- A physical cell leaves service: a spare takes its in-service number under the next instar, or the number stays vacant
(R492); quoins of the holder break (07 R267). -/
def retireCell (s : State) (f k : Nat) : State :=
  let st := s.fld (FRM_CELL_STAT_STATE f k)
  let s1 := s.setFld (FRM_CELL_STAT_STATE f k) 3
  if st = 2 then (s1.decFld (FRM_STATUS_SPARES f) 1).decFld GLB_RES0_SPARE_CELLS 1
  else if st ≠ 1 then s1
  else
    let n := s.fld (FRM_CELL_STAT_SVC f k)
    let cellNo := 160 * f + n
    let old := s.fld (FRM_CELL_MAP_INSTAR f n)
    let s := abandonPart (markReimpose s cellNo) (((List.range 16).find? fun p => bitOf (s.fld (GAL_PART_QUIRES p)) (cellNo / 40)).getD 16)
    let s := (s.setFld (FRM_CELL_STAT_STATE f k) 3).setFld (FRM_CELL_STAT_SVC f k) 0xFF
    match spareOf s f with
    | some k' =>
      let s := (s.setFld (FRM_CELL_STAT_STATE f k') 1).setFld (FRM_CELL_STAT_SVC f k') n
      let s := bumpInstar (s.setFld (FRM_CELL_MAP_PHYS f n) k') (FRM_CELL_MAP_INSTAR f n)
      let s := (s.decFld (FRM_STATUS_SPARES f) 1).decFld GLB_RES0_SPARE_CELLS 1
      breakQuoins (s.setCell cellNo cell0) (syncSource s) cellNo old
    | none =>
      let s := (s.decFld (FRM_STATUS_IN_SERVICE f) 1).decFld GLB_RES0_CELLS_ACTIVE 1
      let s := s.setCell cellNo { cell0 with run := .fenced }
      replaceQuire (capacityChange s) (cellNo / 40)

/-- The re-imposition of a partition: its galleys are abandoned, its cells loaded anew at the next galley (R517, R525). -/
def reimpose (s : State) (p : Nat) : State :=
  if s.flt.reimpose.contains p then
    let s := abandonPart s p
    let s := (partQuires s p).foldl replaceQuire s
    let s := (List.range 4).foldl (fun s k => s.setSlice (4 * p + k) { s.slice (4 * p + k) with loaded := false }) s
    dispatch { s with flt := { s.flt with reimpose := s.flt.reimpose.filter (· ≠ p) } } p
  else s

def execReImposition (part : Nat) (s : State) : Host.Outcome State Fault Refusal := .next (reimpose s part)

/-! ### The sparing reserve (R493, R518) -/

/-- First frame of the sparing reserve: past the 384 GiB addressable. -/
def reserveBase : Nat := 25165824

/-- Frames of the reserve: 48 GiB. -/
def reserveFrames : Nat := 3145728

/-- Frames of an HBM channel with its share of the reserve: 1.125 GiB (R491). -/
def channelAll : Nat := 73728

/-- Channels that the reserve stands in for. -/
def sparedChannels (s : State) : Nat := s.ses.remap.countP fun e => decide (e.2 ≠ 0)

/-- A reference that follows its frame. -/
def moveRef (lo hi base : Nat) (r : Word) : Word :=
  if refValid r && decide (refLoc r = 1) && decide (lo ≤ refIndex r) && decide (refIndex r < hi) then
    putField r 0 36 (base + (refIndex r - lo))
  else r

/-- A session whose frames have moved. -/
def moveSession (lo hi base : Nat) (e : Session) : Session :=
  let f := moveRef lo hi base
  let root (r : Word) : Word := if r = 0 then r else f r
  { e with kv := e.kv.map fun x => (x.1, f x.2), recur := e.recur.map fun x => (x.1, f x.2), aux := f e.aux,
           transcriptPages := e.transcriptPages.map f, kvRoot := root e.kvRoot, recurRoot := root e.recurRoot,
           listFrames := e.listFrames.map fun x => (x.1, if lo ≤ x.2 ∧ x.2 < hi then base + (x.2 - lo) else x.2) }

/-- Moves a frame: its bytes where they still read correctly, else PIED. -/
def moveFrame (lo base : Nat) (bad : List Nat) (s : State) (f : Nat) : State :=
  match s.frame f with
  | none => s
  | some e =>
    let t := base + (f - lo)
    let lost := bad.contains f || hbmPoisoned s (f * pageBytes) pageBytes
    let s := if lost then s else copyFrame s f t
    let s := { s with ses := { s.ses with frames := mset (mdel s.ses.frames f) t e } }
    let s := setFrameBytes s f []
    if lost then piedFrame s t else s

/-- Gives a channel's frames reserve frames; none where the reserve does not hold a channel any more. -/
def spareChannel (bad : Option (List Nat)) (s : State) (ch : Nat) : State :=
  if (mget s.ses.remap ch).isSome then s
  else
    let lo := ch * channelFrames
    let hi := lo + channelFrames
    let here := (s.ses.frames.filter fun y => decide (lo ≤ y.1) && decide (y.1 < hi)).map (·.1)
    let n := sparedChannels s
    if (n + 1) * channelAll ≤ reserveFrames then
      let base := reserveBase + n * channelAll
      let s := here.foldl (moveFrame lo base (bad.getD here)) s
      { s with ses := { s.ses with entries := s.ses.entries.map fun x => (x.1, moveSession lo hi base x.2),
                                   remap := mset s.ses.remap ch base } }
    else
      let held := (s.ses.entries.filter fun x => x.2.state.live && x.2.frames.any fun f => decide (lo ≤ f) && decide (f < hi)).map (·.1)
      let s := held.foldl (fun s i => match s.ses? i with
        | none => s
        | some e => match e.p3, shardOf s i e with
          | some c, _ => if copyPresent s c || partnerHolds s e then sesNoticeFree (restoreCopy s i c) i 5 0x8020 else faultSession s i 0xA031
          | none, some c => sesNoticeFree (fromShard s i c) i 5 0xA030
          | none, none => faultSession s i 0xA031) s
      let s := s.decFld SES_KV_FREE_FREE (channelFrames - here.length)
      { s with ses := { s.ses with remap := mset s.ses.remap ch 0 } }

/-- Whole GiB still held in reserve. -/
def reserveGib (s : State) : Nat := (reserveFrames - sparedChannels s * channelAll) / channelFrames

/-- Channels leave service (R493): their frames move, the reserve and what it does not cover show in GLB_RES0. -/
def spareChannels (s : State) (chs : List Nat) (bad : Option (List Nat)) : State :=
  let lost0 := s.ses.remap.countP fun e => decide (e.2 = 0)
  let s := chs.foldl (spareChannel bad) s
  let lost := s.ses.remap.countP (fun e => decide (e.2 = 0)) - lost0
  let s := s.setFld GLB_RES0_HBM_SPARE_GIB (reserveGib s)
  let s := s.decFld GLB_RES0_HBM_GIB ((lost * channelAll + channelFrames - 1) / channelFrames)
  capacityChange s

/-- Frames that are PIED and held by a session. -/
def piedHeld (s : State) : List Nat := (s.ses.frames.filter fun y => y.2.pied && (frameOwner s y.1).isSome).map (·.1)

/-- A forme's in-service numbers fall vacant: its four quires are short (R516, R518). -/
def vacateForme (s : State) (f : Nat) : State :=
  let nos := (List.range 160).filter (cellInService s f)
  let s := ((List.range 16).filter fun p => (partQuires s p).any fun q => q / 4 = f).foldl abandonPart s
  let s := (List.range 168).foldl (fun s k =>
    if s.fld (FRM_CELL_STAT_STATE f k) = 1 ∨ s.fld (FRM_CELL_STAT_STATE f k) = 2 then
      (s.setFld (FRM_CELL_STAT_STATE f k) 3).setFld (FRM_CELL_STAT_SVC f k) 0xFF
    else s) s
  let s := s.decFld GLB_RES0_CELLS_ACTIVE nos.length
  let s := s.decFld GLB_RES0_SPARE_CELLS (s.fld (FRM_STATUS_SPARES f))
  let s := (s.setFld (FRM_STATUS_IN_SERVICE f) 0).setFld (FRM_STATUS_SPARES f) 0
  let s := nos.foldl (fun s n => markReimpose (s.setCell (160 * f + n) { cell0 with run := .fenced }) (160 * f + n)) s
  ([0, 1, 2, 3] : List Nat).foldl (fun s j => replaceQuire s (4 * f + j)) s

/-- A stack leaves service: it is remapped, the forme's quires are short, and each session whose frames were not copied is
restored or FAULTED (R493, R518). -/
def loseStack (s : State) (st : Nat) (bad : Option (List Nat)) : State :=
  if bitOf (s.fld GLB_RES1_STACKS_OK) st then
    let was := piedHeld s
    let s := s.setFld GLB_RES1_STACKS_OK (s.fld GLB_RES1_STACKS_OK - 2 ^ st)
    let s := spareChannels s ((List.range 32).map (32 * st + ·)) bad
    let s := vacateForme s st
    ((piedHeld s).filter fun f => !was.contains f).foldl (fun s f => recoverPage s f true 0xA031) s
  else s

def execHbmSparing (stack channel : Nat) (whole : Bool) (unreadable : List Nat) (s : State) : Host.Outcome State Fault Refusal :=
  .next (if whole then loseStack s stack (some unreadable) else spareChannels s [32 * stack + channel] (some unreadable))

/-! ### Proofs (R511 to R514) -/

/-- What a proof holds beside its header: records and encrypted pages (10 R383), whose bytes no rule lets one compute without
the keys; one free value per proof, of a length in bytes (log entry 12). -/
opaque Config.proofBody : Nat → Nat → List Byte

/-- Whether a frame lies in a scope named by its source number (R494, R510, R511). -/
def inScope (scope f : Nat) : Bool :=
  if 0x800 ≤ scope ∧ scope ≤ 0x97F then decide (f / channelFrames = scope - 0x800)
  else if 0x980 ≤ scope ∧ scope ≤ 0x9AF then decide (f / stackFrames = (scope - 0x980) / 4)
  else if 0x9B0 ≤ scope ∧ scope ≤ 0x9BB then decide (f / stackFrames = scope - 0x9B0)
  else decide (0xB40 ≤ scope) && decide (scope ≤ 0xB5F)

/-- Sessions with pages in a scope; a session that is being cancelled is left out (R525). -/
def scopeSessions (s : State) (scope : Nat) : List (Nat × Session) :=
  s.ses.entries.filter fun x => x.2.state.live && !x.2.cancelReq && x.2.frames.any (inScope scope)

/-- Bays that are writable, as a mask. -/
def writableMask (s : State) : Nat := s.fld SES_TIER_STATUS_BAYS_WRITABLE

/-- The header of a serving proof (R514). -/
def proofHeader (s : State) (scope seq count : Nat) (digest : List Byte) : List Byte :=
  leBytes 8 (1 + 1 * 2 ^ 16 + seq % 2 ^ 32 * 2 ^ 32) ++
  leBytes 8 (s.devAddr + devInstar s * 2 ^ 16 + scope % 2 ^ 12 * 2 ^ 40) ++ leBytes 8 s.now ++ leBytes 8 count ++
  leBytes 8 0 ++ leBytes 8 0 ++ List.replicate 32 0 ++ digest

/-- Slices of kind 2, adaptation, with cells on the forme of a scope. -/
def adaptationIn (s : State) (scope : Nat) : List Nat :=
  let forme := if 0x800 ≤ scope ∧ scope ≤ 0x97F then (scope - 0x800) / 32
    else if 0x980 ≤ scope ∧ scope ≤ 0x9AF then (scope - 0x980) / 4 else scope - 0x9B0
  (List.range 64).filter fun sl => sliceOn s (sl / 4) (sl % 4) && decide (s.fld (GAL_SLICE_A_KIND (sl / 4) (sl % 4)) = 2) &&
    (decide (0xB40 ≤ scope) || (partQuires s (sl / 4)).any fun q => decide (q / 4 = forme))

/-- Asks the programs of adaptation slices for their proofs: an event on command queue 0, or the notice that no bay is writable
(R515). -/
def askAdaptation (s : State) (scope : Nat) : State :=
  (adaptationIn s scope).foldl (fun s _ =>
    if writableMask s = 0 then notice s.draw.2 0 0 0 0xA041 s.draw.1 0 0 else notice s.draw.2 0 0 11 0 s.draw.1 0 0) s

/-- Deletes the proof that a new one replaces (R512). -/
def dropProof (s : State) (old : Option (Nat × Nat)) : State :=
  match old with
  | none => s
  | some (o, _) => match objAt s o with
    | some x => objDel s o x
    | none => s

/-- Writes the serving proof of a scope (R511, R512). -/
def writeProof (s : State) (scope : Nat) : State :=
  let s := askAdaptation s scope
  if writableMask s = 0 then fault s (hubUnit s 3) 0x10 0xA041 0
  else
    let all := scopeSessions s scope
    let s := (all.filter fun x => decide (x.2.dur ≠ 0) && decide (x.2.state = .waiting) && !x.2.parkBusy && !x.2.reviveBusy &&
      (x.2.p3.isNone || decide (x.2.dirtyPages ≠ 0))).foldl (fun s x => bringCurrent s x.1 x.2) s
    let eph := all.filter fun x => decide (x.2.dur = 0)
    let old := mget s.flt.proofs scope
    let seq := (old.map (·.2)).getD 0 + 1
    let id := writableMask s + 3 * 2 ^ 4 + (scope + seq % 2 ^ 20 * 2 ^ 12) * 2 ^ 32
    let len := (eph.map fun x => 128 + sesPages x.2 * pageBytes).sum
    let body := (Config.proofBody s.freeCtr len).take len
    let s := s.draw.2
    let head := proofHeader s scope seq eph.length
    let bs := head (sha384 (head (List.replicate 48 0) ++ body)) ++ body
    let s := objPut s id bs
    let s := dropProof s old
    let kept := s.flt.shards.filter fun x => decide (x.1 ≠ scope)
    let shards := eph.map fun x => (scope, x.1, x.2.instar, makeCopy s x.2 0 true)
    let s := { s with flt := { s.flt with proofs := mset s.flt.proofs scope (id, seq), shards := kept ++ shards } }
    fault s scope 0x11 0 (BitVec.ofNat 64 id)

def execProofWrite (scope : Nat) (s : State) : Host.Outcome State Fault Refusal := .next (writeProof s scope)

/-! ### Failure warnings (R510) -/

/-- Correctable errors of a source inside its window. -/
def recentErrors (s : State) (n : Nat) : Nat :=
  (((mget s.flt.times n).getD []).filter fun t => decide (s.now ≤ t + s.fld (FLT_SRC_WARN_WINDOW_S n) * 10 ^ 9)).length

/-- A lane of a cartridge link is spared (10 R369). -/
def spareLane (s : State) (b lane : Nat) : State :=
  let x := s.bay b
  if x.badLanes.contains lane then s
  else
    let s := s.setBay b { x with badLanes := x.badLanes ++ [lane] }
    let good := s.fld (CRT_BAY_LANES_GOOD b) - 1
    let s := s.setFld (CRT_BAY_LANES_GOOD b) good
    if 5 ≤ good then fault (s.setFld (CRT_BAY_SPARE_USED b) 1) (baySource b lane) 0x05 0 (BitVec.ofNat 64 lane)
    else
      let s := fault s (baySource b 7) 0x06 0 (BitVec.ofNat 64 b) (0x4000 + b)
      if bst s b = 5 ∨ bst s b = 6 then
        cartridgeLost (capacityChange (bayGone (setBst s b 10) b)) b (s.fld (CRT_SERIAL_SERIAL b))
      else s

/-- The action of a warning, by its source. -/
def warnAction (s : State) (n : Nat) : State :=
  if n ≤ 0x7DF then if (spareOf s (n / 168)).isSome then retireCell s (n / 168) (n % 168) else s
  else if 0x800 ≤ n ∧ n ≤ 0x97F then
    let s := writeProof s n
    if (sparedChannels s + 1) * channelAll ≤ reserveFrames then spareChannels s [n - 0x800] (some []) else s
  else if 0x980 ≤ n ∧ n ≤ 0x9BB then writeProof s n
  else if 0xA80 ≤ n ∧ n ≤ 0xAFF ∧ n % 8 ≤ 4 then serdesFails s ((n - 0xA80) / 8) (n % 8)
  else if 0xB00 ≤ n ∧ n ≤ 0xB1F ∧ n % 8 ≤ 5 then spareLane s ((n - 0xB00) / 8) (n % 8)
  else if 0xB40 ≤ n ∧ n ≤ 0xB5F then writeProof s n
  else s

/-- More than WARN_N correctable errors have fallen in the window. -/
def warned (s : State) (n : Nat) : State :=
  let wn := s.fld (FLT_SRC_WARN_N n)
  if srcAssigned n = true ∧ wn ≠ 0 ∧ wn < recentErrors s n then
    let s := s.setFld (FLT_SRC_WARNED n) 1
    let s := fault s n 0x0B 0 (BitVec.ofNat 64 (s.fld (FLT_SRC_COUNT n)))
    let s := { s with flt := { s.flt with times := mdel s.flt.times n } }
    warnAction s n
  else s

def execFailureWarning (source : Nat) (s : State) : Host.Outcome State Fault Refusal := .next (warned s source)

/-- The active hub has warned and its shadow is in service: the engines exchange roles (R521). -/
def handover (s : State) : State :=
  let h := s.fld GLB_STATE_ACTIVE_HUB
  if s.hubOk (1 - h) = true ∧ ((List.range 16).any fun u => s.flag (FLT_SRC_WARNED (0xB40 + 16 * h + u))) = true then
    s.setFld GLB_STATE_ACTIVE_HUB (1 - h)
  else s

def execHubHandover (s : State) : Host.Outcome State Fault Refusal := .next (handover s)

/-! ### Units lost and fenced (R504, R505, R507, R508, R518 to R520) -/

/-- Adds a unit to those declared lost, with the message of kind 0x09. -/
def declare (s : State) (n st : Nat) : State :=
  fault { s with flt := { s.flt with lost := s.flt.lost ++ [n] } } n 0x09 st 0

/-- A channel engine is reset: its next instar, set at the bridge (R505, 10 R370). -/
def resetEngine (s : State) (c : Nat) : State :=
  let s := bumpInstar s (FLT_UNIT_INSTAR_INSTAR (14 + c))
  if 4 ≤ bst s (c / 24) ∧ bst s (c / 24) ≤ 8 then sendIssuer (c / 24) s (c % 24) else s

/-- A forme is lost: its cells and its near stack leave service (R491, R518). -/
def loseForme (s : State) (f : Nat) : State :=
  let ok := s.fld GLB_RES1_FORME_OK
  if bitOf ok f then
    let s := s.setFld GLB_RES1_FORME_OK (ok - 2 ^ f)
    let s := bumpInstar s (FLT_UNIT_INSTAR_INSTAR f)
    let s := vacateForme s f
    capacityChange (loseStack s f none)
  else s

/-- A hub's bays leave service (R520). -/
def loseBay (s : State) (b : Nat) : State :=
  if bst s b = 0 then s
  else
    let k := s.fld (CRT_SERIAL_SERIAL b)
    let s := bayGone (setBst s b 0) b
    let s := (clearBay s b).setBay b { bay0 with since := s.now }
    cartridgeLost (showBays s) b k

/-- Whether a hub's token engine serves a record's session (09 R314). -/
def servedBy (s : State) (h : Nat) (r : Rec) : Bool :=
  match s.ses? r.index with
  | some e => !r.void && decide (tokHub s e.vocab = h)
  | none => false

/-- The step in flight of a slice commits nothing for the sessions of a hub's token engine (09 R314, R362). -/
def spoilStep (h : Nat) (s : State) (sl : Nat) : State :=
  match (s.slice sl).running with
  | none => s
  | some g =>
    let recs := g.recs.map fun r => if servedBy s h r then { r with spoiled := true } else r
    s.setSlice sl { s.slice sl with running := some { g with recs } }

/-- A hub is lost: the shadow takes over, its units leave service, and errors latched at its collector are lost (R519, R520,
R525). -/
def loseHub (s : State) (h : Nat) : State :=
  let s := (List.range 64).foldl (spoilStep h) s
  let gone := (s.flt.latch.filter fun y => collector s y.1 = h).length
  let s := { s with flt := { s.flt with latch := s.flt.latch.filter fun y => !decide (collector s y.1 = h) } }
  let s := s.incSat (FLT_LOST_LOST h) gone
  let s := s.setFld GLB_RES1_HUB_OK (s.fld GLB_RES1_HUB_OK - 2 ^ h)
  let s := showHubs (bumpInstar s (FLT_UNIT_INSTAR_INSTAR (12 + h)))
  let s := ((List.range 8).map (8 * h + ·)).foldl (fun s p => if pst s p = 0 then s else setPst s p 0) s
  let s := ([2 * h, 2 * h + 1] : List Nat).foldl loseBay s
  let s := ((List.range 16).map (16 * h + ·)).foldl (fun s b => invalidate s b (bankUnits s b) (bankUnits s b)) s
  let s := if h = 0 ∧ s.flag GLB_CAP3_FAILOVER_PORT = true then s.setFld HIF_CFG_ACTIVE_PORT 1 else s
  if s.hubOk (1 - h) then
    capacityChange (if s.fld GLB_STATE_ACTIVE_HUB = h then s.setFld GLB_STATE_ACTIVE_HUB (1 - h) else s)
  else { s with fab := { s.fab with stopped := true } }

/-- A unit is declared lost (R504). -/
def unitLost (s : State) (n : Nat) : State :=
  if s.flt.lost.contains n then s
  else if n ≤ 0x7DF then
    let st := s.fld (FRM_CELL_STAT_STATE (n / 168) (n % 168))
    if st = 1 ∨ st = 2 then retireCell (declare s n 0xA021) (n / 168) (n % 168) else s
  else if 0xA00 ≤ n ∧ n ≤ 0xA5F then resetEngine (declare s n 0xA005) (n - 0xA00)
  else if 0x980 ≤ n ∧ n ≤ 0x9AF then
    if bitOf (s.fld GLB_RES1_FORME_OK) ((n - 0x980) / 4) then loseForme (declare s n 0xA022) ((n - 0x980) / 4) else s
  else if 0xB40 ≤ n ∧ n ≤ 0xB5F then
    if s.hubOk ((n - 0xB40) / 16) then declare (loseHub s ((n - 0xB40) / 16)) n 0xA023 else s
  else s

def execUnitDeclaredLost (source : Nat) (s : State) : Host.Outcome State Fault Refusal := .next (unitLost s source)

/-- Instar that a unit's late messages carry. -/
def staleInstar (s : State) (n : Nat) : Nat := (sourceInstar s n + 2 ^ 24 - 1) % 2 ^ 24

/-- A lost unit speaks again: its message is discarded, and it is reset (R507, R508; 07 R272). -/
def speaksAgain (s : State) (n : Nat) (passed : Bool) : State :=
  if s.flt.lost.contains n then
    let s := { s with flt := { s.flt with lost := s.flt.lost.filter (· ≠ n) } }
    let receiver := if n ≤ 0x7DF then 0x980 + 4 * (n / 168) else hubUnit s 7
    let s := fault (s.incSat FLT_STALE_COUNT 1) receiver 0x08 0 (BitVec.ofNat 64 (staleInstar s n))
    let s := fault s n 0x0A 0xA025 0
    if n ≤ 0x7DF then
      if passed then
        ((s.setFld (FRM_CELL_STAT_STATE (n / 168) (n % 168)) 2).incSat (FRM_STATUS_SPARES (n / 168)) 1).incSat GLB_RES0_SPARE_CELLS 1
      else s
    else if 0xA00 ≤ n ∧ n ≤ 0xA5F then resetEngine s (n - 0xA00)
    else if 0xB40 ≤ n ∧ n ≤ 0xB5F then
      let h := (n - 0xB40) / 16
      let s := s.setFld GLB_RES1_HUB_OK (s.fld GLB_RES1_HUB_OK + (if s.hubOk h then 0 else 2 ^ h))
      capacityChange (bumpInstar (showHubs s) (FLT_UNIT_INSTAR_INSTAR (12 + h)))
    else s
  else s

def execStaleMessageResetOrder (source : Nat) (selfTestPassed : Bool) (s : State) : Host.Outcome State Fault Refusal :=
  .next (speaksAgain s source selfTestPassed)

/-! ### Devices lost, and the redundant pair (R509, R522 to R524) -/

/-- Watchers of a device: its partner, and its neighbours in its plane (R509). -/
def watcherCount (s : State) : Nat :=
  min 2 (s.fld FAB_COMP_DEVICES - 1) + b2n (decide (s.fld FAB_PAIR_PARTNER ≠ 0xFFFF))

/-- Watchers report a device's heartbeat missing: the lowest reporter, if it is this device, sends the fence records. -/
def deviceLost (s : State) (dev inst : Nat) (reporters : List Nat) : State :=
  let rs := reporters.eraseDups
  let s := { s with flt := { s.flt with missing := mset s.flt.missing dev rs } }
  if 2 ≤ rs.length ∨ (rs.length = 1 ∧ watcherCount s = 1) then
    if rs.min? = some s.devAddr ∧ s.flag GLB_DEV_ADDR_VALID = true then
      let s := fault s 0xD03 0x09 0xA024 0
      fenceIn (send s (.fence dev inst)) dev inst
    else s
  else s

def execDeviceDeclaredLost (device instar : Nat) (reporters : List Nat) (s : State) : Host.Outcome State Fault Refusal :=
  .next (deviceLost s device instar reporters)

/-- The bay for a mirror copy: the one of the fewest host bytes written that takes parks and has the room (R522, 03 R95). -/
def mirrorBay (s : State) (bytes : Nat) : Option Nat :=
  ((List.range 4).filter fun b => bayParks s b && decide (bytes ≤ s.fld (CRT_FREE_BYTES b))).foldl (fun (best : Option Nat) b =>
    match best with
    | none => some b
    | some a => if s.fld (CRT_HOST_WR_BYTES b) < s.fld (CRT_HOST_WR_BYTES a) then some b else some a) none

/-- Writes and journals a mirror copy for the partner: its record keeps the origin device as HOME (R522). -/
def mirrorPark (s : State) (r : DirRec) (h : HeadPage) : State :=
  match mirrorBay s (r.pages * pageBytes) with
  | none => s
  | some b =>
    let s := journalSubmit (chargeWrite s b (r.pages * pageBytes)) b r h
    { s with flt := { s.flt with mirrors := (s.flt.mirrors.filter fun x => decide (x.1.handle ≠ r.handle)) ++ [(r, h)] } }

def execMirroredPark (rec : DirRec) (head : HeadPage) (s : State) : Host.Outcome State Fault Refusal :=
  .next (mirrorPark s rec head)

/-- The partner's answer to a restarting device: the handles it adopted (R524). -/
def execPartnerHandleQuery (adopted : List (BitVec 64)) (s : State) : Host.Outcome State Fault Refusal :=
  .next { s with flt := { s.flt with adopted := adopted } }

/-! ### Timeouts of items (R503) -/

/-- A cell item has not retired within ITEM_US: the cell stops, its galley is abandoned. -/
def cellTimeout (s : State) (n : Nat) : State :=
  let c := s.cell n
  if c.run = .running ∧ c.wait = none then
    let s := s.setCell n { c with run := .stopped }
    let s := fault s (cellSource s n) 0x07 0xA011 (BitVec.ofNat 64 n) n
    abandonGalley s c.part c.slice
  else s

def execCellItemTimeout (cell : Nat) (s : State) : Host.Outcome State Fault Refusal := .next (cellTimeout s cell)

/-- Opcode of an item: bits [63:56] of its first word (07 R231). -/
def itemOpcode (i : Item) : Nat := bits ((i.words.getD 0 0).toNat) 56 8

/-- Items without this timeout: mkr.ready, crt.eject, vse.merge, and the waits. -/
def untimed (op : Nat) : Bool := ([0xD2, 0xF3, 0xED, 0xB2, 0xB3, 0xB6, 0xB7] : List Nat).contains op

/-- A control item has run for CTL_ITEM_MS: it completes with 0xA003, and its later completion is not written. -/
def itemTimeout (s : State) (src : Src) : State :=
  let x := s.queue src.ctx src.queue
  match x.started.find? fun i => i.qpos = src.qpos with
  | none => s
  | some i =>
    if untimed (itemOpcode i) = false ∧ i.started + s.fld FLT_TIMEOUT_B_CTL_ITEM_MS * 10 ^ 6 ≤ s.now then
      let s := completeFail s src (itemOpcode i) 0xA003 0 0
      let x := s.queue src.ctx src.queue
      s.setQueue src.ctx src.queue { x with mute := x.mute ++ [src.qpos] }
    else s

def execControlItemTimeout (src : Src) (s : State) : Host.Outcome State Fault Refusal := .next (itemTimeout s src)

end Sys2Proof.Machine
end

