-- ==== Sys2Proof/Machine/Queues.lean ====
section
/-! DEFINITION. The command queues of the host interface (14 R528 to R547): doorbells, fetch, enabling and flushing, function
resets and the purge of a context. -/

namespace Sys2Proof.Machine

/-- Whether a function has a path to the device: out of reset, the link trained from phase 0x2 on, the function enabled, and Hub A
not lost or the failover port standing in for it (R528, R532; 15 R579, R581; log entry 26). -/
def hostReach (s : State) (fn : Nat) : Bool :=
  s.awake && decide (2 ≤ s.fld GLB_STATE_START_PHASE) && decide (s.fld GLB_STATE_START_PHASE ≤ 8) && decide (fn < 64) && (decide (fn = 0) || s.flag (HIF_CTX_CTL_FN_ENABLED fn)) &&
  (s.hubUp 0 || (decide (fn = 0) && s.flag GLB_CAP3_FAILOVER_PORT))

/-- Captures an access error; later ones only count (R600; 01 R20). -/
def accErr (s : State) (fn off : Nat) (write usb : Bool) : State :=
  let s := s.incSat HIF_ACC_ERR_COUNT 1
  if s.flag HIF_ACC_ERR_VALID then s
  else
    let s := ((s.setFld HIF_ACC_ERR_VALID 1).setFld HIF_ACC_ERR_WRITE (b2n write)).setFld HIF_ACC_ERR_FUNCTION fn
    (s.setFld HIF_ACC_ERR_USB (b2n usb)).setFld HIF_ACC_ERR_OFFSET off

/-- Whether a context's queues accept items: context 0 from phase 0x2 on, the others once READY is set (15 R581). -/
def queuesOpen (s : State) (c : Nat) : Bool :=
  if c = 0 then decide (2 ≤ s.fld GLB_STATE_START_PHASE) && decide (s.fld GLB_STATE_START_PHASE ≤ 7)
  else s.flag GLB_STATE_READY

/-! ### The order in which items start (07 R230, R232, R250 to R252; R537) -/

/-- Extension words of a control opcode; none where the opcode is cell-only or unassigned (07 R230, R241). -/
def ctlWords (op : Nat) : Option Nat :=
  if 0xB0 ≤ op ∧ op ≤ 0xBA then some 2
  else if op = 0xBB then some 0
  else if 0xC0 ≤ op ∧ op ≤ 0xCE then ([2, 3, 2, 3, 1, 1, 4, 2, 2, 1, 1, 1, 1, 2, 3] : List Nat)[op - 0xC0]?
  else if 0xD0 ≤ op ∧ op ≤ 0xD4 then ([1, 1, 1, 0, 2] : List Nat)[op - 0xD0]?
  else if 0xD8 ≤ op ∧ op ≤ 0xDC then ([2, 1, 3, 2, 2] : List Nat)[op - 0xD8]?
  else if 0xE0 ≤ op ∧ op ≤ 0xEE then ([2, 2, 1, 3, 1, 2, 4, 2, 3, 1, 5, 3, 2, 2, 4] : List Nat)[op - 0xE0]?
  else if 0xF0 ≤ op ∧ op ≤ 0xFD then ([3, 4, 1, 1, 1, 1, 2, 7, 3, 2, 1, 1, 0, 0] : List Nat)[op - 0xF0]?
  else none

/-- An acquire or a fence: later items wait for it (07 R250, R251). -/
def holdsLater (op : Nat) : Bool := ([0xB2, 0xB3, 0xB6, 0xB7, 0xB8, 0xBB] : List Nat).contains op

/-- A release or a fence: it waits for every earlier item (07 R250, R251). -/
def waitsEarlier (op : Nat) : Bool := ([0xB1, 0xB4, 0xB5, 0xB9, 0xBB] : List Nat).contains op

/-- A word of an item, zero past its end. -/
def Item.word (i : Item) (n : Nat) : Nat := (i.words.getD n 0).toNat

/-- Objects an item names: 0 sessions, 1 contracts, 2 model slots, 3 synchronisation objects; no number for all of a kind
(07 R252). -/
def named (i : Item) : List (Nat × Option Nat) :=
  let op := itemOpcode i
  if op = 0xC0 then
    (2, some (bits (i.word 0) 14 10)) :: (if bits (i.word 2) 0 16 = 0xFFFF then [] else [(1, some (bits (i.word 2) 0 12))])
  else if op = 0xC6 then [(0, some (bits (i.word 1) 24 40)), (1, none)]
  else if op = 0xCE ∧ bits (i.word 2) 0 8 = 3 then
    (0, some (bits (i.word 1) 24 40)) :: (if bits (i.word 3) 0 16 = 0xFFFF then [] else [(1, some (bits (i.word 3) 0 12))])
  else if (0xC1 ≤ op ∧ op ≤ 0xCE) ∨ op = 0xDA then [(0, some (bits (i.word 1) 24 40))]
  else if op = 0xD0 ∨ op = 0xD2 ∨ op = 0xD3 then [(1, none)]
  else if op = 0xD1 ∨ op = 0xD4 then [(1, some (bits (i.word 1) 0 12))]
  else if op = 0xD8 ∨ op = 0xD9 then [(2, some (bits (i.word 1) 0 10))]
  else if (0xB0 ≤ op ∧ op ≤ 0xBA) ∨ op = 0xFB then [(3, some (bits (i.word 1) 0 14))]
  else if op = 0xF6 ∧ i.word 2 ≠ 0 then [(3, some (bits (i.word 2) 0 14))]
  else []

/-- Whether two items name the same object. -/
def sameObject (a b : Item) : Bool :=
  (named a).any fun x => (named b).any fun y =>
    decide (x.1 = y.1) && (x.2.isNone || y.2.isNone || decide (x.2 = y.2))

/-- Whether a queue may start an item now (R537; 07 R250 to R252; 12 R482). -/
def mayBegin (s : State) (c q : Nat) (i : Item) : Bool :=
  let l := (s.queue c q).started
  decide (l.length < cplRoom s c q) && !(l.any fun j => holdsLater (itemOpcode j)) &&
  (!waitsEarlier (itemOpcode i) || l.isEmpty) && !(l.any fun j => sameObject i j) &&
  !(s.fab.waiting.any fun y => match y.2.src with
    | some src => decide (src.ctx = c) && decide (src.queue = q)
    | none => false)

/-! ### Fetch (R534, R540, R542 to R547) -/

/-- Words, or slots, of a command ring (R534, R545). -/
def ringSize (s : State) (c q : Nat) : Nat := 2 ^ s.fld (HIF_Q_CMD_LOG2_WORDS c q) / (if s.conf c then 16 else 1)

/-- Words or slots below CMD_TAIL that are not fetched. -/
def unfetched (s : State) (c q : Nat) : Nat := ((s.queue c q).cmdTail + 2 ^ 32 - s.fld (HIF_Q_PTR_CMD_HEAD c q)) % 2 ^ 32

/-- Starts an item: CMD_HEAD passes it; one of a cell-only or unassigned opcode or a wrong length completes at once
(07 R230, R232); any other is started, and its own row gives its effect. -/
def beginItem (s : State) (c q : Nat) (i : Item) (n : Nat) : State :=
  let s := s.setFld (HIF_Q_PTR_CMD_HEAD c q) (i.qpos + n)
  let src : Src := ⟨c, q, i.qpos⟩
  match ctlWords (itemOpcode i) with
  | none => completeFail s src (itemOpcode i) 0x5001 0 0
  | some e =>
    if i.words.length ≠ e + 1 then completeFail s src (itemOpcode i) 0x5002 0 0
    else s.setQueue c q { s.queue c q with started := (s.queue c q).started ++ [i] }

/-- Word `k` of a command ring (R534). -/
def ringWord (s : State) (c q k : Nat) : Word :=
  BitVec.ofNat 64 (leNat (s.hostRd c (s.fld (HIF_Q_CMD_BASE c q) * 4096 + 8 * (k % 2 ^ s.fld (HIF_Q_CMD_LOG2_WORDS c q))) 8))

/-- Fetches the next item of a plain ring: an item that ends past CMD_TAIL leaves the queue PARTIAL with its timer running. -/
def fetchWords (s : State) (c q : Nat) : State :=
  let head := s.fld (HIF_Q_PTR_CMD_HEAD c q)
  let n := bits (ringWord s c q head).toNat 53 3 + 1
  if unfetched s c q = 0 then s
  else if unfetched s c q < n then
    if s.fld (HIF_Q_CTL_STATE c q) = 2 then s
    else (s.setFld (HIF_Q_CTL_STATE c q) 2).setQueue c q { s.queue c q with partialAt := some s.now }
  else
    let s := if s.fld (HIF_Q_CTL_STATE c q) = 2 then
        (s.setFld (HIF_Q_CTL_STATE c q) 1).setQueue c q { s.queue c q with partialAt := none }
      else s
    let i : Item := { qpos := head, words := (List.range n).map fun k => ringWord s c q (head + k), started := s.now, nonce := 0 }
    if mayBegin s c q i then beginItem s c q i n else s

/-- The item of a sealed slot: its nonce and words; none where the slot fails (R542, R545 to R547). -/
def openSlot (s : State) (c q head : Nat) : Option (Nat × List Word) :=
  let a := s.fld (HIF_Q_CMD_BASE c q) * 4096 + 128 * (head % ringSize s c q)
  let h := s.hostRd c a 16
  let nonce := leNat (h.take 7)
  let len := leNat ((h.drop 8).take 4)
  if (s.queue c q).nonce < nonce ∧ len % 8 = 0 ∧ 8 ≤ len ∧ len ≤ 64 then
    (openUnit s c q 1 0 0 nonce a len).bind fun bs =>
      let ws := words8 (len / 8) bs
      if bits (ws.getD 0 0).toNat 53 3 + 1 = len / 8 then some (nonce, ws) else none
  else none

/-- Fetches the next slot of a sealed ring; a slot that fails sets the queue to ERROR, and so does the last nonce (R544, R547). -/
def fetchSlot (s : State) (c q : Nat) : State :=
  let head := s.fld (HIF_Q_PTR_CMD_HEAD c q)
  if unfetched s c q = 0 then s
  else match openSlot s c q head with
    | none => queueError s c q 0xB011
    | some (nonce, ws) =>
      let i : Item := { qpos := head, words := ws, started := s.now, nonce }
      if mayBegin s c q i then
        let s := beginItem s c q i 1
        let s := s.setQueue c q { s.queue c q with nonce }
        if nonce = 2 ^ 56 - 1 then queueError s c q 0xB013 else s
      else s

/-- The next item of a queue, in the form its context uses. -/
def fetchNext (s : State) (c q : Nat) : State := if s.conf c then fetchSlot s c q else fetchWords s c q

/-- Fetches and starts the next item of a queue that is RUNNING or PARTIAL. -/
def fetchItem (s : State) (c q : Nat) : State :=
  let st := s.fld (HIF_Q_CTL_STATE c q)
  if q < 16 ∧ hostReach s c = true ∧ queuesOpen s c = true ∧ (st = 1 ∨ st = 2) then fetchNext s c q else s

def execCommandFetch (ctx queue : Nat) (s : State) : Host.Outcome State Fault Refusal := .next (fetchItem s ctx queue)

/-! ### Doorbells (R528, R533, R538 to R540; 15 R575) -/

/-- A doorbell write of a function to a context's page: ignored where the context's function is not enabled (R528); the write
is an edge of its event source. -/
def doorbell (s : State) (fn c q : Nat) (effect : State → State) : State :=
  if q < 16 ∧ (fn = 0 ∨ fn = c) ∧ hostReach s fn = true ∧ hostReach s c = true then effect (edge s (16 * c + q)) else s

/-- CMD_TAIL: one beyond the ring sets the queue to ERROR and is not applied; one that completes a partial item fetches it. -/
def cmdTail (c q v : Nat) (s : State) : State :=
  let st := s.fld (HIF_Q_CTL_STATE c q)
  let run := decide (st = 1) || decide (st = 2)
  if run && decide (ringSize s c q < (v + 2 ^ 32 - s.fld (HIF_Q_PTR_CMD_HEAD c q)) % 2 ^ 32) then queueError s c q 0x1003
  else
    let s := s.setQueue c q { s.queue c q with cmdTail := v }
    if st = 2 then fetchItem s c q else s

def execDoorbellCmdTail (fn ctx queue : Nat) (value : BitVec 32) (s : State) : Host.Outcome State Fault Refusal :=
  .next (doorbell s fn ctx queue (cmdTail ctx queue value.toNat))

/-- CPL_HEAD: entries are consumed, the queue is armed, and the backlog takes the room. -/
def cplHead (c q v : Nat) (s : State) : State :=
  let s := s.setQueue c q { s.queue c q with cplHead := v }
  drainBacklog (s.setFld (HIF_Q_CTL_ARMED c q) 1) c q

def execDoorbellCplHead (fn ctx queue : Nat) (value : BitVec 32) (s : State) : Host.Outcome State Fault Refusal :=
  .next (doorbell s fn ctx queue (cplHead ctx queue value.toNat))

/-- OUT_HEAD: records are consumed, and waiting records are written. -/
def outHead (c q v : Nat) (s : State) : State := drainOut (s.setQueue c q { s.queue c q with outHead := v }) c q

def execDoorbellOutHead (fn ctx queue : Nat) (value : BitVec 32) (s : State) : Host.Outcome State Fault Refusal :=
  .next (doorbell s fn ctx queue (outHead ctx queue value.toNat))

/-! ### Queue states (R539, R540) -/

/-- PARTIAL_MS elapses: the partial words are discarded. -/
def partialOver (s : State) (c q : Nat) : State :=
  match (s.queue c q).partialAt with
  | none => s
  | some t =>
    if s.fld (HIF_Q_CTL_STATE c q) = 2 ∧ t + s.fld HIF_CFG_PARTIAL_MS * msNs ≤ s.now then
      queueError (s.setFld (HIF_Q_PTR_CMD_HEAD c q) (s.queue c q).cmdTail) c q 0x1004
    else s

def execPartialTimeout (ctx queue : Nat) (s : State) : Host.Outcome State Fault Refusal := .next (partialOver s ctx queue)

/-- A ring read fails or times out. -/
def ringFails (s : State) (c q : Nat) : State :=
  let st := s.fld (HIF_Q_CTL_STATE c q)
  if st = 1 ∨ st = 2 then queueError s c q 0xA006 else s

def execRingReadFailure (ctx queue : Nat) (s : State) : Host.Outcome State Fault Refusal := .next (ringFails s ctx queue)

/-- Whether a confidential queue has used its last nonce or counter (R544). -/
def sealSpent (s : State) (c q : Nat) : Bool :=
  let x := s.queue c q
  s.conf c && (decide (2 ^ 56 ≤ x.cplCtr) || decide (2 ^ 56 ≤ x.outCtr) || decide (2 ^ 56 - 1 ≤ x.nonce))

/-- ENABLE written 1: counters at zero, armed, the backlog written, then the notices of restored sessions (R540; 10 R401). -/
def enableQueue (s : State) (c q : Nat) : State :=
  if 64 ≤ c ∨ 16 ≤ q ∨ s.fld (HIF_Q_CTL_STATE c q) ≠ 0 then s
  else if s.fld (HIF_Q_CMD_BASE c q) = 0 ∨ s.fld (HIF_Q_CPL_BASE c q) = 0 ∨ s.fld (HIF_Q_OUT_BASE c q) = 0 then
    (s.setFld (HIF_Q_CTL_LAST_ERROR c q) 0x1010).setFld (HIF_Q_CTL_ENABLE c q) 0
  else
    let x := s.queue c q
    let s := s.setQueue c q { x with entries := 0, records := 0, cplHead := 0, outHead := 0, partialAt := none }
    let s := (s.setFld (HIF_Q_PTR_CMD_HEAD c q) x.cmdTail).setFld (HIF_Q_PTR_CPL_TAIL c q) 0
    let s := ((s.setFld (HIF_Q_CTL_ENABLE c q) 1).setFld (HIF_Q_CTL_STATE c q) 1).setFld (HIF_Q_CTL_ARMED c q) 1
    let s := if sealSpent s c q then queueError s c q 0xB013 else s
    let s := drainOut (drainBacklog s c q) c q
    s.ses.entries.foldl (fun s y => if y.2.context = c ∧ y.2.queue = q then announce s y.1 else s) s

def execQueueEnable (ctx queue : Nat) (s : State) : Host.Outcome State Fault Refusal :=
  .next (if hostReach s ctx = true ∨ hostReach s 0 = true then enableQueue s ctx queue else s)

/-- DISABLED: hardware clears ENABLE, and the records waiting for the queue are discarded (R539, R540). -/
def turnOff (s : State) (c q : Nat) : State :=
  let s := (s.setFld (HIF_Q_CTL_STATE c q) 0).setFld (HIF_Q_CTL_ENABLE c q) 0
  s.setQueue c q { s.queue c q with waiting := [], partialAt := none }

/-- FLUSH written 1, or ENABLE written 0: what is not fetched is discarded, and a notice with REASON 9 says how much (R540). -/
def flushQueue (s : State) (c q : Nat) : State :=
  if 64 ≤ c ∨ 16 ≤ q ∨ s.fld (HIF_Q_CTL_STATE c q) = 0 then s
  else
    let n := unfetched s c q + b2n (decide (s.fld (HIF_Q_CTL_STATE c q) = 2)) * 2 ^ 32
    let s := s.setFld (HIF_Q_PTR_CMD_HEAD c q) (s.queue c q).cmdTail
    turnOff (notice s c q 9 0 (BitVec.ofNat 64 n) 0 0) c q

def execQueueDisable (ctx queue : Nat) (s : State) : Host.Outcome State Fault Refusal :=
  .next (if hostReach s ctx = true ∨ hostReach s 0 = true then flushQueue s ctx queue else s)

def execQueueFlush (ctx queue : Nat) (s : State) : Host.Outcome State Fault Refusal :=
  .next (if hostReach s ctx = true ∨ hostReach s 0 = true then flushQueue s ctx queue else s)

/-! ### Function resets (R531, R553; 04 R121; 07 R267; 12 R473) -/

/-- The context's transport key is destroyed: it is confidential no more (R531, R541, R561). -/
def dropCtk (s : State) (c : Nat) : State :=
  { s with host := { s.host with ctk := mdel s.host.ctk c } }.setFld (HIF_CTX_CTL_CONF c) 0

/-- Queue pairs that a context owns. -/
def ownQps (s : State) (c : Nat) : List Nat :=
  (s.fab.qps.filter fun y => decide (y.2.state ≠ .free) && decide (y.2.ownerKind = 0) && decide (y.2.owner = c)).map (·.1)

/-- A queue at a function-level reset: DISABLED, nothing written, the completions of its started items are dropped (R531, R566). -/
def resetQueue (c : Nat) (s : State) (q : Nat) : State :=
  let s := turnOff s c q
  let x := s.queue c q
  let m := { x with mute := x.mute ++ (x.started.map (·.qpos)).filter fun p => !x.mute.contains p }
  if m = x then s else s.setQueue c q m

/-- The withdrawal of a reset function: an evaluation that runs ends first, one that has not started is removed (04 R121). -/
def withdrawReset (s : State) (c : Nat) : State :=
  let s := if (s.mkr.evaluating.map (·.src.ctx)) = some c then endEvaluation s else s
  let s := { s with mkr := { s.mkr with waiting := s.mkr.waiting.filter fun r => decide (r.src.ctx ≠ c) } }
  withdraw s c

/-- A function-level reset. -/
def functionReset (s : State) (c : Nat) : State :=
  let s := withdrawReset s c
  let s := (List.range 16).foldl (resetQueue c) s
  let s := dropCtk s c
  let s := { s with sec := { s.sec with spdm := mdel s.sec.spdm c } }
  let s := (List.range 16).foldl (fun s q => breakQuoins s (ctxSource c) (0x8000 + 16 * c + q) 0) s
  (ownQps s c).foldl destroyQp s

def execFunctionLevelReset (fn : Nat) (s : State) : Host.Outcome State Fault Refusal :=
  .next (if hostReach s fn then functionReset s fn else s)

/-- A hot reset, a link down or a conventional reset of the port: every function (R531). -/
def portReset (s : State) : State :=
  (List.range 64).foldl (fun s c => if c = 0 ∨ s.flag (HIF_CTX_CTL_FN_ENABLED c) = true then functionReset s c else s) s

def execPcieHotReset (s : State) : Host.Outcome State Fault Refusal := .next (if s.awake then portReset s else s)

/-! ### The purge of a context (R561) -/

/-- Takes a session away: a cancel under way completes first; its P3 copy on a bay present is tombstoned once (R566). -/
def purgeSession (s : State) (i : Nat) : State :=
  match s.ses? i with
  | none => s
  | some e =>
    let s :=
      if e.cancel.isSome then finishCancel s i 0
      else
        let s := abortRevival (abortPark s i) i
        let s := match e.ending with
          | some src => completeFail s src 0xCB 0x200A (handleOf s i e) e.tag
          | none => s
        let s := if e.mig.isSome then send s (.migrateAbort i) else s
        releaseState (tombstone (dropWaiting (voidBuilt s i) i) i) i .ended
    match s.ses? i with
    | none => s
    | some e => (freeBody i { e with state := .ended } s).1

/-- Sessions of a context. -/
def ctxSessions (s : State) (c : Nat) : List Nat := (s.ses.entries.filter fun y => y.2.context = c).map (·.1)

/-- Frees a bank: its entries are no longer valid, and it has no owner. -/
def freeBank (s : State) (b : Nat) : State :=
  let s := invalidate s b (bankUnits s b) (bankUnits s b)
  (s.setFld (CAM_CFG_OWNER_KIND b) 0).setFld (CAM_CFG_OWNER b) 0

/-- Closes an index at once: its documents and what it has in flight end with 0x1005. -/
def purgeIndex (s : State) (slot : Nat) : State :=
  match mget s.vse slot with
  | none => s
  | some x =>
    let s := x.docs.foldl (fun s d => indexNotice s.draw.2 d.src 0x7013 s.draw.1.toNat d.id) s
    let s := searchEnds 0x1005 (s.setVse slot { x with docs := [] }) slot
    match mget s.vse slot with
    | none => s
    | some x => match x.closing with
      | some src => completeFail (closeSlot s slot) src 0xE9 0x1005 0 0
      | none => closeSlot s slot

/-- Step 3: the context's queue pairs, synchronisation objects and banks, and its indexes. -/
def purgeUnits (s : State) (c : Nat) : State :=
  let s := (ownQps s c).foldl destroyQp s
  let objs := (List.range 16384).filter fun n =>
    s.fld (SYN_OBJ_A_KIND n) ≠ 0 && decide (s.fld (SYN_OBJ_A_OWNER_KIND n) = 0) && decide (s.fld (SYN_OBJ_A_OWNER n) = c)
  let s := objs.foldl freeObj s
  let banks := (List.range 32).filter fun b => decide (s.fld (CAM_CFG_OWNER_KIND b) = 1) && decide (s.fld (CAM_CFG_OWNER b) = c)
  let s := banks.foldl freeBank s
  ((s.vse.filter fun y => s.fld (VSE_IX_A_CONTEXT y.1) = c).map (·.1)).foldl purgeIndex s

/-- Step 4: the context's flash objects on the cartridges present. -/
def purgeObjects (s : State) (c : Nat) : State :=
  let mine := s.crt.objects.filter fun y => decide (objCtx y.1 = c) && (maskBays (objMask y.1)).all (bayReads s) &&
    decide (y.2.serials = objSerials s y.1)
  let s := mine.foldl (fun s y => objDel s y.1 y.2) s
  let ks := ((List.range 4).filter (bayReads s)).map fun b => s.fld (CRT_SERIAL_SERIAL b)
  let new := (ks.map fun k => (c, k)).filter fun y => !s.crt.purged.contains y
  { s with crt := { s.crt with purged := s.crt.purged ++ new } }

/-- Step 5: the keys, with the wrapped copies on the bays present. -/
def purgeKeys (s : State) (c : Nat) : State :=
  let s := dropCtk s c
  let s := { s with host := { s.host with dataKey := mdel s.host.dataKey c } }
  ((List.range 4).filter (bayReads s)).foldl (fun s b =>
    s.setBay b { s.bay b with keyTable := (s.bay b).keyTable.filter fun y => y.2 ≠ c }) s

/-- Step 6 is over when no frame of the context awaits zeroing (R559). -/
def purgeOver (s : State) (c : Nat) : State :=
  if s.ses.frames.any fun y => decide (y.2.kind = 6) && decide (y.2.context = c) then s else s.setFld (HIF_CTX_CTL_PURGING c) 0

/-- The purge: mkr.ready items that wait end with 0x1005, and the backlogs are emptied (R537). -/
def purge (s : State) (c : Nat) : State :=
  let s := s.setFld (HIF_CTX_CTL_PURGING c) 1
  let s := (List.range 16).foldl (fun s q => flushQueue s c q) s
  let waits := s.mkr.waiting.filter fun r => r.src.ctx = c
  let s := { s with mkr := { s.mkr with waiting := s.mkr.waiting.filter fun r => decide (r.src.ctx ≠ c) } }
  let s := waits.foldl (fun s r => completeFail s r.src 0xD2 0x1005 0 0) s
  let s := withdraw s c
  let s := (ctxSessions s c).foldl purgeSession s
  let s := purgeObjects (purgeUnits s c) c
  let s := purgeKeys s c
  let s := (List.range 16).foldl (fun s q =>
    if (s.queue c q).backlog.isEmpty then s else s.setQueue c q { s.queue c q with backlog := [] }) s
  purgeOver s c

/-- PURGE written 1 by the physical function; any other function's write is refused (R561, R600). -/
def execContextPurge (fn ctx : Nat) (s : State) : Host.Outcome State Fault Refusal :=
  .next (if hostReach s fn = false ∨ 64 ≤ ctx then s
    else if fn = 0 then purge s ctx else accErr s fn (HIF_CTX_CTL_PURGE ctx).off true false)

/-- A freed frame is zeroed and returns to the free list (R559). -/
def zeroFrame (s : State) (f : Nat) : State :=
  match s.frame f with
  | none => s
  | some e =>
    if e.kind = 6 then
      let s := setFrameBytes s f []
      let s := { s with ses := { s.ses with frames := mdel s.ses.frames f } }
      let s := if mget s.ses.remap (f / channelFrames) = some 0 then s else s.incWrap SES_KV_FREE_FREE 1
      if s.flag (HIF_CTX_CTL_PURGING e.context) then purgeOver s e.context else s
    else s

def execFrameZeroing (frame : Nat) (s : State) : Host.Outcome State Fault Refusal := .next (zeroFrame s frame)

end Sys2Proof.Machine
end

