-- ==== Sys2Proof/Machine/Registers.lean ====
section
/-! DEFINITION. BAR0 (00 R7 to R9; 01 R19 to R22; 14 R529, R600): what each access code does, the lock of make-ready, the values a
write is stored as, reads with their half-word shadow, and the registers with an effect of their own. -/

namespace Sys2Proof.Machine

/-! ### Locks (00 R7; 04 R123; 05 R157) -/

/-- Whether a contract in force is bound to a slice of a partition. -/
def partBound (s : State) (p : Nat) : Bool := s.mkr.binding.any fun y => decide (y.2 / 4 = p) && (inForce s y.1).isSome

/-- Whether a contract in force covers a session of a class. -/
def classCovered (s : State) (n : Nat) : Bool := s.ses.entries.any fun y => decide (y.2.cls = n) && y.2.state.live && contracted s y.2

/-- Whether make-ready locks the RWL fields of a register. -/
def locked (s : State) (off : Nat) : Bool :=
  s.mkr.evaluating.isSome ||
  (if 0x208000 ≤ off ∧ off < 0x209000 then classCovered s ((off - 0x208000) / 16)
   else if 0x301000 ≤ off ∧ off < 0x301080 then partBound s ((off - 0x301000) / 8)
   else if 0x302000 ≤ off ∧ off < 0x302400 then partBound s ((off - 0x302000) / 64)
   else !s.mkr.admitted.isEmpty)

/-- Records a write to a locked field (R148 MKR_LOCK_VIOL). -/
def lockViol (s : State) (off : Nat) : State :=
  if off < 0x1000000 then
    let v := s.fld MKR_LOCK_VIOL_BLOCK
    let k := off / 0x100000
    if bitOf v k then s else s.setFld MKR_LOCK_VIOL_BLOCK (v + 2 ^ k)
  else s.setFld MKR_LOCK_VIOL_FORME 1

/-! ### Writing a register (00 R7) -/

/-- A value brought between two limits. -/
def clampTo (lo hi v : Nat) : Nat := max lo (min hi v)

/-- The value a written field is stored as: family base and lowest bit, the index's offset within the family, the value (the
notes of R70, R106, R148, R152, R164, R188, R363, R412, R490, R526, R567, R585; 03 R96). -/
def storedAs (base lo rel v : Nat) : Nat :=
  let atLeast1 := max 1 v
  match base, lo with
  | 0x100000, 0 => atLeast1
  | 0x180000, 0 => clampTo 8 20 v
  | 0x180008, 0 => clampTo 6 16 v
  | 0x180010, 0 => clampTo 7 16 v
  | 0x200020, 8 => min 192 v
  | 0x200020, 16 => atLeast1
  | 0x400008, 0 => atLeast1
  | 0x400008, 16 => atLeast1
  | 0x301000, 52 => clampTo 1400 2000 v
  | 0x302000, 12 => if v = 3 then 0 else v
  | 0x302000, 16 => min 16 v
  | 0x302000, 32 => max 40000 v
  | 0x302008, 0 => atLeast1
  | 0x302008, 16 => atLeast1
  | 0x302008, 40 => atLeast1
  | 0x600000, 0 => if v = 3 then 0 else v
  | 0x800000, 16 => atLeast1
  | 0x800000, 32 => clampTo 1 0x2000000 v
  | 0x900008, 36 => atLeast1
  | 0x900008, 48 => atLeast1
  | 0x900008, 56 => atLeast1
  | 0x900100, 8 => if 8 ≤ rel ∧ rel ≤ 24 then atLeast1 else v
  | 0xA00008, 0 => max 7 v
  | 0xA00010, _ => atLeast1
  | 0xA00018, _ => atLeast1
  | 0xA00020, _ => atLeast1
  | 0xD00000, 24 => atLeast1
  | 0xD00000, 48 => atLeast1
  | _, _ => v

/-- The new value of a field of a register, from the bits a write carries (R7, R22). -/
def newField (f : RegField) (lock : Bool) (store : Nat → Nat) (old mask val : Nat) : Nat :=
  let o := bits old f.lo f.w
  let m := bits mask f.lo f.w
  let v := bits val f.lo f.w &&& m
  if m = 0 then o
  else match f.access with
    | .ro | .rc => o
    | .wo => 0
    | .w1c => o - (o &&& v)
    | .rw => store (o - (o &&& m) + v)
    | .rwl => if lock then o else store (o - (o &&& m) + v)

/-- The word of a register after a write; reserved bits read zero (R5). -/
def newWord (d : RegDesc) (rel : Nat) (lock : Bool) (old mask val : Nat) : Nat :=
  (d.fields.map fun f => newField f lock (storedAs d.base f.lo rel) old mask val % 2 ^ f.w * 2 ^ f.lo).sum

/-- Whether a write carries bits of a field with an access code. -/
def carries (d : RegDesc) (a : Access) (mask : Nat) : Bool := d.fields.any fun f => decide (f.access = a) && decide (bits mask f.lo f.w ≠ 0)

/-- Writes a register: its descriptor, its offset, the bits carried and their value. -/
def putReg (s : State) (d : RegDesc) (off mask val : Nat) : State :=
  let lock := locked s off
  let s := if lock && carries d .rwl mask then lockViol s off else s
  s.setReg off (BitVec.ofNat 64 (newWord d (off - d.base) lock (s.reg off).toNat mask val))

/-- The word a write would leave. -/
def afterWrite (s : State) (d : RegDesc) (off mask val : Nat) : Nat :=
  newWord d (off - d.base) (locked s off) (s.reg off).toNat mask val

/-! ### Registers whose write has an effect of its own -/

/-- HIF_Q_CTL: VECTOR is stored; FLUSH and ENABLE act under R540. -/
def writeQueueCtl (s : State) (d : RegDesc) (off c q mask val : Nat) : State :=
  let en := s.fld (HIF_Q_CTL_ENABLE c q)
  let s := (putReg s d off mask val).setFld (HIF_Q_CTL_ENABLE c q) en
  if mask % 2 = 0 then s
  else if bitOf val 3 ∧ s.fld (HIF_Q_CTL_STATE c q) ≠ 0 then flushQueue s c q
  else if bitOf val 0 then enableQueue s c q
  else flushQueue s c q

/-- A queue's window: the rings are written only while the queue is DISABLED (R540). -/
def writeQueue (s : State) (d : RegDesc) (off mask val : Nat) : State :=
  let c := (off - 0x180000) / 0x2000
  let q := (off - 0x180000) % 0x2000 / 0x80
  if d.base ≤ 0x180010 then
    if s.fld (HIF_Q_CTL_STATE c q) ≠ 0 then accErr s 0 off true false else putReg s d off mask val
  else if d.base = 0x180018 then writeQueueCtl s d off c q mask val
  else putReg s d off mask val

/-- SES_CUST_MAP: refused while a customer whose mapping would go has live sessions; records held back are tried again (02 R71;
10 R403, R607). -/
def writeCustMap (s : State) (d : RegDesc) (off mask val : Nat) : State :=
  let n := (off - 0x201000) / 4
  let w := afterWrite s d off mask val
  let live := s.ses.entries.any fun y => decide (y.2.customer = n) && y.2.state.live
  let was := s.flag (SES_CUST_MAP_VALID n)
  if live = true ∧ ((was = true ∧ bitOf w 6 = false) ∨ bits w 0 6 ≠ s.fld (SES_CUST_MAP_CONTEXT n)) then accErr s 0 off true false
  else ([0, 1, 2, 3] : List Nat).foldl retryHeld (putReg s d off mask val)

/-- Frames outside the fixed reservations (08 R313; 04 R126). -/
def openFrames (s : State) : Nat := (s.fld GLB_RES0_HBM_GIB * 2 ^ 30 - hbmFixed s) / pageBytes

/-- SES_CTX_PAGES: refused where the reservations would pass the frames there are (08 R313). -/
def writeCtxPages (s : State) (d : RegDesc) (off mask val : Nat) : State :=
  let c := (off - 0x200400) / 8
  let new := bits (afterWrite s d off mask val) 0 25
  let others := ((List.range 64).map fun k => if k = c then 0 else s.fld (SES_CTX_PAGES_RSV_PAGES k)).sum
  if new ≠ s.fld (SES_CTX_PAGES_RSV_PAGES c) ∧ openFrames s < others + new then accErr s 0 off true false
  else putReg s d off mask val

/-- GAL_PART: refused where a quire would stand in two enabled partitions (05 R152). -/
def writePart (s : State) (d : RegDesc) (off mask val : Nat) : State :=
  let p := (off - 0x301000) / 8
  let w := afterWrite s d off mask val
  let twice := (List.range 16).any fun k => decide (k ≠ p) && s.flag (GAL_PART_ENABLE k) &&
    decide (s.fld (GAL_PART_QUIRES k) &&& bits w 0 48 ≠ 0)
  if bitOf w 48 = true ∧ twice = true then accErr s 0 off true false else refreshErr (putReg s d off mask val)

/-- DEPTH of a budget: its level is brought up to now at the old rate and clipped to the new depth (05 R171). -/
def writeBudgetA (s : State) (d : RegDesc) (off mask val : Nat) : State :=
  let c := (off - 0x310000) / 16
  let s := putReg (budgetFill s c) d off mask val
  s.setFld (GAL_BUDGET_B_LEVEL c) (min (s.fld (GAL_BUDGET_A_DEPTH c)) (s.fld (GAL_BUDGET_B_LEVEL c)))

/-- ENABLE of a budget: its level starts full (05 R171). -/
def writeBudgetB (s : State) (d : RegDesc) (off mask val : Nat) : State :=
  let c := (off - 0x310008) / 16
  let was := s.flag (GAL_BUDGET_B_ENABLE c)
  let s := putReg (budgetFill s c) d off mask val
  if !was && s.flag (GAL_BUDGET_B_ENABLE c) then
    (s.setFld (GAL_BUDGET_B_LEVEL c) (s.fld (GAL_BUDGET_A_DEPTH c))).setBudget c (0, s.now)
  else s

/-- CAM_CFG: a change of owner invalidates every entry of the bank (09 R354). -/
def writeBank (s : State) (d : RegDesc) (off mask val : Nat) : State :=
  let b := (off - 0x600000) / 8
  let t := putReg s d off mask val
  if t.fld (CAM_CFG_OWNER_KIND b) = s.fld (CAM_CFG_OWNER_KIND b) ∧ t.fld (CAM_CFG_OWNER b) = s.fld (CAM_CFG_OWNER b) then t
  else invalidate t b (bankUnits t b) (bankUnits t b)

/-- FAB_PORT: MEDIA and CABLE_M (12 R448, R490). -/
def writePort (s : State) (d : RegDesc) (off mask val : Nat) : State :=
  let p := (off - 0x901000) / 16
  let w := afterWrite s d off mask val
  if mask % 2 ^ 32 = 0 then s else mediaWrite s p (bits w 3 1) (bits w 4 8)

/-- A write of the physical function at a register. -/
def writeAt (s : State) (d : RegDesc) (off mask val : Nat) : State :=
  match d.base with
  | 0x101000 => if bitOf (val &&& mask) 0 then purge s ((off - 0x101000) / 8) else s
  | 0x180000 | 0x180008 | 0x180010 | 0x180018 | 0x180020 => writeQueue s d off mask val
  | 0x201000 => writeCustMap s d off mask val
  | 0x200400 => writeCtxPages s d off mask val
  | 0x301000 => writePart s d off mask val
  | 0x302000 | 0x302008 => refreshErr (putReg s d off mask val)
  | 0x310000 => writeBudgetA s d off mask val
  | 0x310008 => writeBudgetB s d off mask val
  | 0x600000 => writeBank s d off mask val
  | 0x901000 => writePort s d off mask val
  | _ => putReg s d off mask val

/-! ### The bus (01 R20 to R22; 14 R529, R532, R600) -/

/-- Whether an access is one BAR0 accepts (01 R20). -/
def accessOk (off width : Nat) : Bool := (decide (width = 32) && decide (off % 4 = 0)) || (decide (width = 64) && decide (off % 8 = 0))

/-- Whether a forme's block answers (01 R21). -/
def formeAnswers (s : State) (off : Nat) : Bool :=
  decide (off < 0x1000000) || bitOf (s.fld GLB_RES1_FORME_OK) ((off - 0x1000000) / 0x400000)

/-- What of BAR0 the failover port serves while Hub A is lost: the GLB_, FLT_, SEC_ and DBG_ blocks to read, and context 0's
queues (14 R532). -/
def portServes (s : State) (off : Nat) (write : Bool) : Bool :=
  s.hubUp 0 || (decide (0x180000 ≤ off) && decide (off < 0x182000)) ||
  (!write && (decide (off < 0x100000) || decide (off / 0x100000 = 0xA) || decide (off / 0x100000 = 0xE) || decide (off / 0x100000 = 0xF)))

/-- Where a function's BAR0 offset lies in the map of R19, and whether it is the read-only copy; none for a reserved offset of a
virtual function (14 R529). -/
def windowOf (fn off : Nat) : Option (Nat × Bool) :=
  if fn = 0 then some (off, false)
  else if off < 0x2000 then some (0x180000 + 0x2000 * fn + off, false)
  else if off < 0x2060 then some (off - 0x2000, true)
  else none

/-- Writes 32 bits: a register, or half of a 64-bit one. -/
def write32 (s : State) (off val : Nat) : State :=
  match regAt off with
  | none => s
  | some (d, _, k) => writeAt s d (off - k) ((2 ^ 32 - 1) * 2 ^ (8 * k)) (val % 2 ^ 32 * 2 ^ (8 * k))

/-- Writes 64 bits: a 64-bit register in one step, or two 32-bit ones. -/
def write64 (s : State) (off val : Nat) : State :=
  match regAt off with
  | some (d, _, 0) =>
    if d.bits = 64 then writeAt s d off (2 ^ 64 - 1) (val % 2 ^ 64)
    else write32 (write32 s off val) (off + 4) (val / 2 ^ 32)
  | _ => write32 s (off + 4) (val / 2 ^ 32)

/-- A write of a function to BAR0. -/
def busWrite (s : State) (fn off width val : Nat) : State :=
  if hostReach s fn = false then s
  else if !accessOk off width then accErr s fn off true false
  else match windowOf fn off with
    | none => accErr s fn off true false
    | some (o, copy) =>
      if copy then s
      else if fn ≠ 0 ∧ (regAt o).isNone = true ∧ (width = 32 ∨ (regAt (o + 4)).isNone = true) then accErr s fn off true false
      else if !(formeAnswers s o && portServes s o true) then s
      else if width = 64 then write64 s o val
      else write32 s o val

/-- SEC_STATUS as it stands (14 R567). -/
def secStatus (s : State) (bootSlot : Nat) : Nat :=
  let k := s.sec.keys
  bootSlot + b2n k.isSome * 2 + s.fld DBG_CFG_INVASIVE * 4 + ((s.sec.slots.getD bootSlot ⟨false, 0, 0⟩).svn % 256) * 2 ^ 8 +
    ((k.map (·.gen)).getD 0 % 65536) * 2 ^ 16 + s.sec.startCount % 2 ^ 32 * 2 ^ 32

/-- Physical cells in an island state (15 R585). -/
def cellsIn (s : State) (st : Nat) : Nat :=
  (List.range 2016).countP fun n => decide (((mget s.isl.islands n).map (·.state)).getD 3 = st)

/-- Brings a register whose field follows the time or other state up to now. -/
def freshen (s : State) (off : Nat) : State :=
  if 0x310000 ≤ off ∧ off < 0x320000 then budgetFill s ((off - 0x310000) / 16)
  else if 0x400200 ≤ off ∧ off < 0x400220 then wearFill s
  else if 0x400110 ≤ off ∧ off < 0x4001C0 then showModel s
  else if 0xB02000 ≤ off ∧ off < 0xB02200 then endHolds s
  else s

/-- The word a read of a register returns. -/
def viewReg (s : State) (off : Nat) : Word :=
  match off with
  | 0x30 | 0x38 => if s.fld GLB_STATE_START_PHASE ≤ 4 then 0 else s.reg off
  | 0x48 => BitVec.ofNat 64 s.now
  | 0xD00008 => BitVec.ofNat 64 (cellsIn s 0 + cellsIn s 1 * 2 ^ 16 + cellsIn s 2 * 2 ^ 32 + cellsIn s 3 * 2 ^ 48)
  | 0xE00000 => BitVec.ofNat 64 (secStatus s (s.fld SEC_STATUS_BOOT_SLOT))
  | _ => s.reg off

/-- Clears the RC fields whose lowest bit an access returns (00 R7, R9). -/
def clearRead (s : State) (d : RegDesc) (off lo hi : Nat) : State :=
  d.fields.foldl (fun s f =>
    if f.access = .rc ∧ lo ≤ f.lo ∧ f.lo < hi ∧ s.fld ⟨off, f.lo, f.w⟩ ≠ 0 then s.setFld ⟨off, f.lo, f.w⟩ 0 else s) s

/-- Keeps the high half of a register for a function, or drops it. -/
def setShadow (s : State) (fn : Nat) (v : Option (Nat × BitVec 32)) : State :=
  { s with host := { s.host with shadow := match v with
    | some x => mset s.host.shadow fn x
    | none => mdel s.host.shadow fn } }

/-- Reads 32 bits (01 R22). -/
def read32 (s : State) (fn off : Nat) : State × Nat :=
  match regAt off with
  | none => (s, 0)
  | some (d, _, k) =>
    let r := off - k
    let s := freshen s r
    let w := (viewReg s r).toNat
    if d.bits = 32 then (clearRead s d r 0 32, w % 2 ^ 32)
    else if k = 0 then (setShadow (clearRead s d r 0 32) fn (some (r, BitVec.ofNat 32 (w / 2 ^ 32))), w % 2 ^ 32)
    else match mget s.host.shadow fn with
      | some (r', h) => if r' = r then (setShadow (clearRead s d r 32 64) fn none, h.toNat) else (clearRead s d r 32 64, w / 2 ^ 32)
      | none => (clearRead s d r 32 64, w / 2 ^ 32)

/-- Reads 64 bits: a 64-bit register in one step, or two 32-bit ones. -/
def read64 (s : State) (fn off : Nat) : State × Nat :=
  match regAt off with
  | some (d, _, 0) =>
    if d.bits = 64 then
      let s := freshen s off
      (clearRead s d off 0 64, (viewReg s off).toNat)
    else
      let r := read32 s fn off
      let h := read32 r.1 fn (off + 4)
      (h.1, r.2 + h.2 * 2 ^ 32)
  | _ =>
    let h := read32 s fn (off + 4)
    (h.1, h.2 * 2 ^ 32)

/-- Answers a function. -/
def answerTo (fn : Nat) (r : State × Nat) : State :=
  { r.1 with host := { r.1.host with answer := mset r.1.host.answer fn (BitVec.ofNat 64 r.2) } }

/-- A read of a function from BAR0. -/
def busRead (s : State) (fn off width : Nat) : State :=
  if hostReach s fn = false then s
  else if !accessOk off width then answerTo fn (accErr s fn off false false, 0)
  else match windowOf fn off with
    | none => answerTo fn (s, 0)
    | some (o, _) =>
      if !portServes s o false then s
      else if !formeAnswers s o then answerTo fn (s, 0)
      else answerTo fn (if width = 64 then read64 s fn o else read32 s fn o)

/-! ### The commands -/

def execRegisterWrite (fn offset width : Nat) (value : BitVec 64) (s : State) : Host.Outcome State Fault Refusal :=
  .next (busWrite s fn offset width value.toNat)

def execRegisterReadClear (fn offset width : Nat) (s : State) : Host.Outcome State Fault Refusal := .next (busRead s fn offset width)

def execRegisterLowHalfRead (fn offset : Nat) (s : State) : Host.Outcome State Fault Refusal := .next (busRead s fn offset 32)

/-- An access BAR0 does not accept: zero on a read, ignored on a write, and recorded (01 R20). -/
def execMisalignedBar0Access (fn offset width : Nat) (write : Bool) (s : State) : Host.Outcome State Fault Refusal :=
  .next (if accessOk offset width then s else if write then busWrite s fn offset width 0 else busRead s fn offset width)

def execSesCustMapWrite (fn customer : Nat) (value : BitVec 32) (s : State) : Host.Outcome State Fault Refusal :=
  .next (if customer < 4096 then busWrite s fn (SES_CUST_MAP_CONTEXT customer).off 32 value.toNat else s)

def execSesCtxPagesWrite (fn ctx : Nat) (value : BitVec 64) (s : State) : Host.Outcome State Fault Refusal :=
  .next (if ctx < 64 then busWrite s fn (SES_CTX_PAGES_RSV_PAGES ctx).off 64 value.toNat else s)

def execGalPartWrite (fn part : Nat) (value : BitVec 64) (s : State) : Host.Outcome State Fault Refusal :=
  .next (if part < 16 then busWrite s fn (GAL_PART_QUIRES part).off 64 value.toNat else s)

/-- ENABLE of a budget written 1: the high half of GAL_BUDGET_B. -/
def execGalBudgetEnable (customer : Nat) (s : State) : Host.Outcome State Fault Refusal :=
  .next (if customer < 4096 then busWrite s 0 ((GAL_BUDGET_B_ENABLE customer).off + 4) 32 1 else s)

/-- DEPTH of a budget written: the high half of GAL_BUDGET_A. -/
def execGalBudgetDepthWrite (customer : Nat) (depth : BitVec 32) (s : State) : Host.Outcome State Fault Refusal :=
  .next (if customer < 4096 then busWrite s 0 ((GAL_BUDGET_A_DEPTH customer).off + 4) 32 depth.toNat else s)

/-- OWNER_KIND and OWNER of a bank written: the low half of CAM_CFG. -/
def execCamOwnerWrite (fn bank ownerKind owner : Nat) (s : State) : Host.Outcome State Fault Refusal :=
  .next (if bank < 32 then busWrite s fn (CAM_CFG_OWNER_KIND bank).off 32 (ownerKind % 4 + owner % 64 * 4) else s)

end Sys2Proof.Machine
end

