-- ==== Sys2Proof/Machine/Host.lean ====
section
/-! DEFINITION. The host port and memory upkeep (14 R527, R528, R560; 13 R503): virtual functions, link width, host memory reads
that time out, and the scrub of cell memory and HBM. -/

namespace Sys2Proof.Machine

/-! ### Virtual functions and the link (R527, R528) -/

/-- VF Enable for a virtual function; the capability is the physical function's, which the device answers from phase 0x2 on, and
which the failover port does not present (R528, R532; 15 R581). -/
def enableVf (s : State) (fn : Nat) (on : Bool) : State :=
  if s.awake = true ∧ 2 ≤ s.fld GLB_STATE_START_PHASE ∧ s.fld GLB_STATE_START_PHASE ≤ 8 ∧ s.hubUp 0 = true ∧ 1 ≤ fn ∧ fn < 64 then
    s.setFld (HIF_CTX_CTL_FN_ENABLED fn) (b2n on)
  else s

def execSrIovVfEnable (fn : Nat) (enable : Bool) (s : State) : Host.Outcome State Fault Refusal := .next (enableVf s fn enable)

/-- Retraining after a lane fault: a narrower width of the table (R527). -/
def retrainHost (s : State) (lanes : Nat) : State :=
  if ([8, 4, 2, 1] : List Nat).contains lanes = true ∧ lanes < s.host.lanes then { s with host := { s.host with lanes } } else s

def execPcieLinkRetrain (lanes : Nat) (s : State) : Host.Outcome State Fault Refusal := .next (retrainHost s lanes)

/-! ### Host memory reads (13 R503) -/

/-- A read for a started item's data passes the completion timeout: the item fails with 0xA006, and nothing more comes of it. -/
def hostReadLate (s : State) (src : Src) : State :=
  match (s.queue src.ctx src.queue).started.find? fun i => i.qpos = src.qpos with
  | none => s
  | some i =>
    let s := completeFail s src (itemOpcode i) 0xA006 0 0
    let x := s.queue src.ctx src.queue
    s.setQueue src.ctx src.queue { x with mute := x.mute ++ [src.qpos] }

def execHostMemoryReadTimeout (src : Src) (s : State) : Host.Outcome State Fault Refusal := .next (hostReadLate s src)

/-! ### Scrubbing (R560; 06 R197; 13 R510) -/

/-- One unit of cell memory, or one word of the instruction store, corrected by the scrub. -/
def scrubUnit (n : Nat) (s : State) (u : Nat) : State := memCorrected s n (16 * u) 1

/-- The scrub of a cell: every single-bit error is corrected and counted. -/
def scrubCell (s : State) (n : Nat) : State :=
  let w := (s.cell n).weak
  if w.isEmpty then s
  else
    let s := w.foldl (scrubUnit n) s
    s.setCell n { s.cell n with weak := [] }

/-- Fault source of the HBM channel that holds a 32-byte unit (13 R494, R493). -/
def hbmSource (u : Nat) : Nat := 0x800 + u / 512 / channelFrames % 384

/-- The stack that holds a 32-byte unit of HBM. -/
def unitStack (u : Nat) : Nat := u / 512 / stackFrames

/-- The scrub of a stack: every single-bit error is corrected and counted. -/
def scrubStack (s : State) (st : Nat) : State :=
  let w := s.hbmWeak.filter fun u => decide (unitStack u = st)
  if w.isEmpty then s
  else
    let s := w.foldl (fun s u => fault s (hbmSource u) 0x01 0 (BitVec.ofNat 64 (32 * u)) 0xFFFF 1) s
    { s with hbmWeak := s.hbmWeak.filter fun u => !decide (unitStack u = st) }

/-- One turn of the scrub: a cell, and with the first cell of a forme its near stack (log entry 60). -/
def scrub (s : State) (n : Nat) : State :=
  if cellCount ≤ n then s
  else
    let s := scrubCell s n
    if n % 160 = 0 then scrubStack s (n / 160) else s

def execMemoryScrub (cell : Nat) (s : State) : Host.Outcome State Fault Refusal := .next (scrub s cell)

end Sys2Proof.Machine
end

