-- ==== Sys2Proof/Machine/Security.lean ====
section
/-! DEFINITION. The root of trust, the management port and the test port (14 R541, R548 to R557, R563 to R565; 13 R503): SPDM
requests, keys, debug unlock, USB requests. -/

namespace Sys2Proof.Machine

/-- The certificate chain of slot 0, by the image that runs (R549; free, log entry 13). -/
opaque Config.certChain : Nat → List Byte
/-- Digest of a measurement block 1 to 3, by the image that runs (R550; free, log entry 13). -/
opaque Config.fwDigest : Nat → Nat → List Byte
/-- Bytes of a response that hold nonces, signatures or key exchange data, by the counter of free values (log entry 12). -/
opaque Config.spdmBytes : Nat → List Byte

/-! ### SPDM responders (R549, R553) -/

/-- A responder that has had no request. -/
def spdm0 : Spdm where
  stage := .start
  answer := none
  partialReq := false
  exchange := none
  updates := 0

/-- The responder of a function; 64 is the management port's. -/
def State.responder (s : State) (fn : Nat) : Spdm := (mget s.sec.spdm fn).getD spdm0

/-- Writes a responder. -/
def State.setResponder (s : State) (fn : Nat) (x : Spdm) : State := { s with sec := { s.sec with spdm := mset s.sec.spdm fn x } }

/-- Whether a responder takes a request: a function's mailbox from phase 0x2 on, the management port's while a bulk transfer of
kind 1 is open (R549, R557; 15 R581). -/
def spdmServes (s : State) (fn : Nat) : Bool :=
  if fn = 64 then s.pins.standby && decide (s.sec.bulk.map (·.1) = some 1)
  else hostReach s fn

/-- Answers a request: the response code and what follows it, with the responder as the request leaves it. -/
def reply (s : State) (fn : Nat) (x : Spdm) (code : Nat) (bs : List Byte) : State :=
  s.setResponder fn { x with answer := some (code, bs), partialReq := false }

/-- An ERROR response: its code, and the status in the vendor field. -/
def spdmError (s : State) (fn : Nat) (err status : Nat) : State :=
  reply s fn (s.responder fn) 0x7F (leBytes 1 err ++ leBytes 2 status)

/-- Takes a request where the responder serves and stands at a stage that allows it; else it is an unexpected request. -/
def spdmAt (s : State) (fn : Nat) (stages : List SpdmStage) (body : Spdm → State) : State :=
  if spdmServes s fn then
    if stages.contains (s.responder fn).stage then body (s.responder fn) else spdmError s fn 0x04 0
  else s

/-- Every stage. -/
def allStages : List SpdmStage := [.start, .version, .capabilities, .algorithms, .exchange, .session]

/-- GET_VERSION starts the exchange anew and ends a session. -/
def spdmVersion (s : State) (fn : Nat) : State :=
  spdmAt s fn allStages fun _ => reply s fn { spdm0 with stage := .version } 0x04 [0x13]

def execGetVersion (fn : Nat) (s : State) : Host.Outcome State Fault Refusal := .next (spdmVersion s fn)

def spdmCapabilities (s : State) (fn : Nat) : State :=
  spdmAt s fn [.version] fun x => reply s fn { x with stage := .capabilities } 0x61 []

def execGetCapabilities (fn : Nat) (s : State) : Host.Outcome State Fault Refusal := .next (spdmCapabilities s fn)

/-- NEGOTIATE_ALGORITHMS: the requester must offer the one set the device has. -/
def spdmAlgorithms (s : State) (fn : Nat) (offered : Bool) : State :=
  spdmAt s fn [.capabilities] fun x =>
    if offered then reply s fn { x with stage := .algorithms } 0x63 [] else spdmError s fn 0x01 0

def execNegotiateAlgorithms (fn : Nat) (offered : Bool) (s : State) : Host.Outcome State Fault Refusal :=
  .next (spdmAlgorithms s fn offered)

/-- The image that runs. -/
def bootImage (s : State) : Nat := (s.sec.slots.getD (s.fld SEC_STATUS_BOOT_SLOT) ⟨false, 0, 0⟩).image

/-- The certificate chain of slot 0. -/
def certChain (s : State) : List Byte := Config.certChain (bootImage s)

def spdmDigests (s : State) (fn : Nat) : State :=
  spdmAt s fn [.algorithms, .session] fun x => reply s fn x 0x01 (sha384 (certChain s))

def execGetDigests (fn : Nat) (s : State) : Host.Outcome State Fault Refusal := .next (spdmDigests s fn)

/-- GET_CERTIFICATE: slot 0 alone holds a chain. -/
def spdmCertificate (s : State) (fn slot offset len : Nat) : State :=
  spdmAt s fn [.algorithms, .session] fun x =>
    if slot = 0 then reply s fn x 0x02 (((certChain s).drop offset).take len) else spdmError s fn 0x01 0

def execGetCertificate (fn slot offset len : Nat) (s : State) : Host.Outcome State Fault Refusal :=
  .next (spdmCertificate s fn slot offset len)

/-- A response whose bytes are a free value. -/
def replyFree (s : State) (fn : Nat) (x : Spdm) (code : Nat) : State := reply s.draw.2 fn x code (Config.spdmBytes s.freeCtr)

/-- CHALLENGE: outside a session. -/
def spdmChallenge (s : State) (fn slot : Nat) : State :=
  spdmAt s fn [.algorithms] fun x => if slot = 0 then replyFree s fn x 0x03 else spdmError s fn 0x01 0

def execChallenge (fn slot : Nat) (nonce : BitVec 256) (s : State) : Host.Outcome State Fault Refusal :=
  let _ := nonce
  .next (spdmChallenge s fn slot)

/-- A measurement block (R550): block 7 belongs to the virtual functions. -/
def measurement (s : State) (fn index : Nat) : Option (List Byte) :=
  if 1 ≤ index ∧ index ≤ 3 then some (Config.fwDigest index (if index = 1 then 0 else bootImage s))
  else if index = 4 then some ((s.fab.comp.map (·.digest)).getD (List.replicate 48 0))
  else if index = 5 then some (leBytes 1 (s.fld DBG_CFG_PROFILE_EN + 2 * s.fld DBG_CFG_INVASIVE))
  else if index = 6 then some (sha384 (s.gal.models.flatMap fun m => m.2.digest))
  else if index = 7 ∧ 1 ≤ fn ∧ fn < 64 then some (leBytes 1 (b2n (s.conf fn)))
  else none

/-- Number of blocks a function has. -/
def blockCount (fn : Nat) : Nat := if 1 ≤ fn ∧ fn < 64 then 7 else 6

/-- GET_MEASUREMENTS: index 0 asks for the number of blocks, 0xFF for all of them. -/
def spdmMeasurements (s : State) (fn index : Nat) : State :=
  spdmAt s fn [.algorithms, .session] fun x =>
    if index = 0 then reply s fn x 0x60 [BitVec.ofNat 8 (blockCount fn)]
    else if index = 0xFF then reply s fn x 0x60 ((List.range (blockCount fn)).flatMap fun i => (measurement s fn (i + 1)).getD [])
    else match measurement s fn index with
      | some bs => reply s fn x 0x60 bs
      | none => spdmError s fn 0x01 0

def execGetMeasurements (fn index : Nat) (s : State) : Host.Outcome State Fault Refusal := .next (spdmMeasurements s fn index)

/-- KEY_EXCHANGE opens a handshake. -/
def spdmExchange (s : State) (fn : Nat) (d : BitVec 768) : State :=
  spdmAt s fn [.algorithms] fun x => replyFree s fn { x with stage := .exchange, exchange := some d } 0x64

def execKeyExchange (fn : Nat) (exchange : BitVec 768) (s : State) : Host.Outcome State Fault Refusal :=
  .next (spdmExchange s fn exchange)

/-- FINISH completes the handshake where its code verifies; else the handshake is over. -/
def spdmFinish (s : State) (fn : Nat) (macOk : Bool) : State :=
  spdmAt s fn [.exchange] fun x =>
    if macOk then reply s fn { x with stage := .session, updates := 0 } 0x65 []
    else reply s fn { x with stage := .algorithms, exchange := none } 0x7F (leBytes 1 0x06 ++ leBytes 2 0)

def execFinish (fn : Nat) (macOk : Bool) (s : State) : Host.Outcome State Fault Refusal := .next (spdmFinish s fn macOk)

def spdmHeartbeat (s : State) (fn : Nat) : State := spdmAt s fn [.session] fun x => reply s fn x 0x68 []

def execHeartbeat (fn : Nat) (s : State) : Host.Outcome State Fault Refusal := .next (spdmHeartbeat s fn)

/-- KEY_UPDATE: operation 1 and 2 update keys, 3 verifies the new key. -/
def spdmUpdate (s : State) (fn op : Nat) : State :=
  spdmAt s fn [.session] fun x =>
    if op = 1 ∨ op = 2 then reply s fn { x with updates := x.updates + 1 } 0x69 [BitVec.ofNat 8 op]
    else if op = 3 then reply s fn x 0x69 [3]
    else spdmError s fn 0x01 0

def execKeyUpdate (fn operation : Nat) (s : State) : Host.Outcome State Fault Refusal := .next (spdmUpdate s fn operation)

def spdmEnd (s : State) (fn : Nat) : State :=
  spdmAt s fn [.session] fun x => reply s fn { x with stage := .algorithms, exchange := none, updates := 0 } 0x6C []

def execEndSession (fn : Nat) (s : State) : Host.Outcome State Fault Refusal := .next (spdmEnd s fn)

/-- DOE Abort: a request partly received and a response not fully read are discarded (R553). -/
def mailboxAbort (s : State) (fn : Nat) : State :=
  let x := s.responder fn
  let y := { x with answer := none, partialReq := false }
  if fn < 64 ∧ hostReach s fn = true ∧ y ≠ x then s.setResponder fn y else s

def execDoeAbort (fn : Nat) (s : State) : Host.Outcome State Fault Refusal := .next (mailboxAbort s fn)

/-! ### Root-of-trust services (R541, R551, R565) -/

/-- A vendor-defined request: only inside a secured session of the function it is for; a refusal carries its status. -/
def vendor (s : State) (fn refuse : Nat) (allowed : Bool) (effect : State) : State :=
  if spdmServes s fn then
    if (s.responder fn).stage = .session ∧ allowed = true then reply effect fn (s.responder fn) 0x7E []
    else spdmError s fn 0xFF refuse
  else s

/-- Whether a queue of a context is enabled. -/
def anyQueueOn (s : State) (c : Nat) : Bool :=
  (List.range 16).any fun q => s.flag (HIF_Q_CTL_ENABLE c q) || decide (s.fld (HIF_Q_CTL_STATE c q) ≠ 0)

/-- Installs a transport key: the context is confidential, its counters start at 1 (R541, R544). -/
def installCtk (s : State) (c : Nat) (key : BitVec 256) : State :=
  let s := { s with host := { s.host with ctk := mset s.host.ctk c key } }.setFld (HIF_CTX_CTL_CONF c) 1
  (List.range 16).foldl (fun s q => s.setQueue c q { s.queue c q with nonce := 0, cplCtr := 1, outCtr := 1 }) s

/-- SET_CTK. -/
def setCtk (s : State) (fn : Nat) (key : BitVec 256) : State :=
  vendor s fn 0xB020 (decide (fn < 64) && !anyQueueOn s fn && decide (s.fld DBG_CFG_INVASIVE = 0)) (installCtk s fn key)

def execSetCtk (fn : Nat) (key : BitVec 256) (s : State) : Host.Outcome State Fault Refusal := .next (setCtk s fn key)

/-- DOMAIN_KEYS: while none are held, or signed by the held composition key with a higher generation. -/
def domainKeys (s : State) (fn : Nat) (k : DomKeys) (signed : Bool) : State :=
  let may : Bool := match s.sec.keys with
    | none => true
    | some old => signed && decide (old.gen < k.gen)
  vendor s fn 0xB022 (decide (fn = 0) && may) { s with sec := { s.sec with keys := some k } }

def execDomainKeys (fn : Nat) (wrap colophon composition debug : BitVec 768) (gen : Nat) (signedByHeld : Bool) (s : State) :
    Host.Outcome State Fault Refusal :=
  .next (domainKeys s fn { wrap, colophon, composition, debug, gen } signedByHeld)

/-- CLEAR_DOMAIN destroys the domain keys: no superblock opens from then on. -/
def clearDomain (s : State) (fn : Nat) : State :=
  vendor s fn 0xB022 (decide (fn = 0)) { s with sec := { s.sec with keys := none } }

def execClearDomain (fn : Nat) (s : State) : Host.Outcome State Fault Refusal := .next (clearDomain s fn)

/-- DEBUG_UNLOCK: a signed token for this part and this start-up, while no context is confidential (R565). -/
def debugUnlock (s : State) (fn serial count : Nat) (sigOk : Bool) : State :=
  let ok := decide (fn = 0) && sigOk && decide (serial = (s.reg GLB_SERIAL_SERIAL.off).toNat) &&
    decide (count = s.sec.startCount % 2 ^ 32) && !((List.range 64).any fun c => s.conf c)
  vendor s fn 0xB021 ok (s.setFld DBG_CFG_INVASIVE 1)

def execDebugUnlock (fn : Nat) (serial startCount : Nat) (sigOk : Bool) (s : State) : Host.Outcome State Fault Refusal :=
  .next (debugUnlock s fn serial startCount sigOk)

/-! ### Management port (R554 to R557; 13 R503) -/

/-- A request that draws a STALL and records its status (R555). -/
def stalled (s : State) : State :=
  if s.pins.standby then { s with sec := { s.sec with stall := true, lastStatus := 0x1022, usbBusy := false, usbIn := [] } } else s

/-- An IN request answered: its data. -/
def usbAnswer (s : State) (bs : List Byte) : State :=
  { s with sec := { s.sec with stall := false, lastStatus := 0, usbBusy := false, usbIn := bs } }

/-- The effect of an OUT request: REQ_COUNT counts it (R556). -/
def usbEffect (s : State) (status : Nat) : State :=
  { s with sec := { s.sec with stall := false, lastStatus := status, usbBusy := false, usbIn := [],
                               reqCount := (s.sec.reqCount + 1) % 65536 } }

/-- The bytes of a register. -/
def viewBytes (s : State) (off n : Nat) : List Byte := leBytes n (viewReg s off).toNat

/-- GET_INFO: identity, serial number, state and security status, then zero. -/
def usbInfo (s : State) : State :=
  if s.pins.standby then
    usbAnswer s (viewBytes s 0 8 ++ viewBytes s 8 8 ++ viewBytes s 0x40 4 ++ viewBytes s 0xE00000 8 ++ List.replicate 36 0)
  else s

def execGetInfo (s : State) : Host.Outcome State Fault Refusal := .next (usbInfo s)

/-- BAR0 offset and width in bits that a register request names (R555). -/
def usbOffset (wValue wIndex : Nat) : Nat := wValue % 65536 + wIndex % 1024 * 65536
def usbWidth (wIndex : Nat) : Nat := if bitOf wIndex 15 then 64 else 32

/-- Whether the fields of a register request are those of the table. -/
def usbFits (wIndex wLength : Nat) : Bool := decide (bits wIndex 10 5 = 0) && decide (8 * wLength = usbWidth wIndex)

/-- A BAR0 read of the management port; the SEC_ block reads zero (R555). -/
def usbFetch (s : State) (off width : Nat) : State × Nat :=
  if !accessOk off width then (accErr s 0 off false true, 0)
  else if off / 0x100000 = 0xE ∨ formeAnswers s off = false then (s, 0)
  else if width = 64 then read64 s 64 off
  else read32 s 64 off

/-- READ_REG. -/
def usbRead (s : State) (wValue wIndex wLength : Nat) : State :=
  if !s.pins.standby then s
  else if !usbFits wIndex wLength then stalled s
  else
    let r := usbFetch s (usbOffset wValue wIndex) (usbWidth wIndex)
    usbAnswer (answerTo 64 r) (leBytes wLength r.2)

def execReadReg (wValue wIndex wLength : Nat) (s : State) : Host.Outcome State Fault Refusal :=
  .next (usbRead s wValue wIndex wLength)

/-- A management write that is refused (R555, R600). -/
def usbRefused (s : State) (off : Nat) : State :=
  let s := accErr s 0 off true true
  { s with sec := { s.sec with stall := false, lastStatus := 0x1021, usbBusy := false, usbIn := [] } }

/-- WRITE_REG: the PWR_ block alone. -/
def usbWrite (s : State) (wValue wIndex wLength val : Nat) : State :=
  let off := usbOffset wValue wIndex
  if !s.pins.standby then s
  else if !usbFits wIndex wLength then stalled s
  else if off / 0x100000 ≠ 0xD ∨ accessOk off (usbWidth wIndex) = false then usbRefused s off
  else usbEffect (if usbWidth wIndex = 64 then write64 s off val else write32 s off val) 0

def execWriteReg (wValue wIndex wLength : Nat) (value : BitVec 64) (s : State) : Host.Outcome State Fault Refusal :=
  .next (usbWrite s wValue wIndex wLength value.toNat)

/-- GET_FIRST: FLT_FIRST of both collectors. -/
def usbFirst (s : State) : State :=
  if s.pins.standby then
    usbAnswer s (([0, 1] : List Nat).flatMap fun h => ([0, 1, 2, 3] : List Nat).flatMap fun w => leBytes 8 (s.fld (FLT_FIRST_WORD h w)))
  else s

def execGetFirst (s : State) : Host.Outcome State Fault Refusal := .next (usbFirst s)

/-- BULK_START: kinds 1 to 3. -/
def usbBulk (s : State) (kind len wLength : Nat) : State :=
  if !s.pins.standby then s
  else if wLength ≠ 8 ∨ kind = 0 ∨ 3 < kind then stalled s
  else usbEffect { s with sec := { s.sec with bulk := some (kind, len) } } 0

def execBulkStart (kind len wLength : Nat) (s : State) : Host.Outcome State Fault Refusal := .next (usbBulk s kind len wLength)

/-- The fault ring in host memory, up to a length (R557; 13 R499). -/
def ringCopy (s : State) (len : Nat) : List Byte :=
  s.hostRd 0 (s.fld FLT_RING_BASE_BASE * 4096) (min len (32 * 2 ^ s.fld FLT_RING_CFG_LOG2_ENTRIES))

/-- The announced length has moved: an image that verifies under R548 goes into the slot not booted (R557). -/
def usbBulkDone (s : State) (slot svn : Nat) (verified : Bool) : State :=
  match s.sec.bulk with
  | none => s
  | some (kind, len) =>
    let t := { s with sec := { s.sec with bulk := none } }
    if kind = 3 then
      if verified = true ∧ s.sec.minSvn ≤ svn ∧ slot < 2 ∧ slot ≠ s.fld SEC_STATUS_BOOT_SLOT then
        { t.draw.2 with sec := { t.sec with slots := t.sec.slots.set slot ⟨true, svn, t.freeCtr + 2⟩ } }
      else t
    else if kind = 2 then { t with sec := { t.sec with usbIn := ringCopy s len } }
    else t

def execBulkTransferDone (slot svn : Nat) (verified : Bool) (s : State) : Host.Outcome State Fault Refusal :=
  .next (usbBulkDone s slot svn verified)

/-- GET_RESULT: REQ_COUNT and the last status. -/
def usbResult (s : State) : State :=
  if s.pins.standby then
    { s with sec := { s.sec with stall := false, usbBusy := false, usbIn := leBytes 8 (s.sec.reqCount + s.sec.lastStatus * 65536) } }
  else s

def execGetResult (s : State) : Host.Outcome State Fault Refusal := .next (usbResult s)

/-- The release of PORST_N, or of a reset that acts as it: the strap is sampled, and start-up begins (16 R594, 15 R579). -/
def releaseCold (s : State) : State := releaseReset (s.setFld GLB_CAP3_FAILOVER_PORT (b2n s.pins.failoverEn))

/-- RESET: a device reset as PORST_N; the device stays in reset while its pin or its supplies hold it. -/
def usbReset (s : State) (wValue wIndex : Nat) : State :=
  if !s.pins.standby then s
  else if wValue ≠ 0xA55A ∨ wIndex ≠ 0 then stalled s
  else
    let s := resetDevice true (usbEffect s 0)
    if s.awake then releaseCold s else s

def execReset (wValue wIndex : Nat) (s : State) : Host.Outcome State Fault Refusal := .next (usbReset s wValue wIndex)

/-- A bus reset, or a new SETUP: what is not complete is discarded; an effect stands (R556, R557). -/
def busReset (s : State) : State :=
  if s.pins.standby then { s with sec := { s.sec with bulk := none, usbIn := [], usbBusy := false, stall := false } } else s

def execUsbBusReset (s : State) : Host.Outcome State Fault Refusal := .next (busReset s)

/-- A stage passes USB_MS: the transfer is abandoned (R556, R557; 13 R503). -/
def stageLate (s : State) : State :=
  if s.pins.standby then
    { s with sec := { s.sec with bulk := none, usbIn := [], usbBusy := false, stall := false, lastStatus := 0xA007 } }
  else s

def execUsbStageTimeout (s : State) : Host.Outcome State Fault Refusal := .next (stageLate s)

/-- Whether a request is one of the table, with its wLength (R555). -/
def usbKnown (req typ len : Nat) : Bool :=
  match req with
  | 1 | 4 => decide (typ = 0xC0) && decide (len = 64)
  | 2 => decide (typ = 0xC0) && (decide (len = 4) || decide (len = 8))
  | 3 => decide (typ = 0x40) && (decide (len = 4) || decide (len = 8))
  | 5 => decide (typ = 0x40) && decide (len = 8)
  | 6 => decide (typ = 0xC0) && decide (len = 8)
  | 7 => decide (typ = 0x40) && decide (len = 0)
  | _ => false

def execUnsupportedManagementRequest (bRequest bmRequestType wLength : Nat) (s : State) : Host.Outcome State Fault Refusal :=
  .next (if usbKnown bRequest bmRequestType wLength then s else stalled s)

/-! ### Test port (R563, R564) -/

/-- The instruction that a code loads as: 0 BYPASS, 1 SAMPLE/PRELOAD, 2 IDCODE, 3 EXTEST, 4 CLAMP, 5 HIGHZ; the others are the
private ones, which need invasive debug (log entry 61). -/
def tapLoads (s : State) (code : Nat) : Nat :=
  if code = 3 ∨ code = 4 ∨ code = 5 then if s.pins.porstN then 0 else code
  else if code ≤ 2 then code
  else if s.flag DBG_CFG_INVASIVE then code else 0

/-- Loads a test-port instruction and captures its data register: IDCODE 0x10E5_1B47, one zero bit for BYPASS and the
instructions that select it, and pin levels or private data, a free value, for the others. -/
def tapLoad (s : State) (code : Nat) : State :=
  let i := tapLoads s code
  if i = 2 then { s with sec := { s.sec with tap := i, tapData := 0x10E51B47 } }
  else if i = 0 ∨ i = 4 ∨ i = 5 then { s with sec := { s.sec with tap := i, tapData := 0 } }
  else { s.draw.2 with sec := { s.sec with tap := i, tapData := s.draw.1.setWidth 32 } }

def execTestPortInstruction (code : Nat) (s : State) : Host.Outcome State Fault Refusal := .next (tapLoad s code)

end Sys2Proof.Machine
end

