-- ==== Sys2Proof/Machine/Islands.lean ====
section
/-! DEFINITION. Islands, device states, the event controller, energy and start-up (15 R569 to R585; 14 R548; 01 R29; 12 R450;
16 R589, R593, R594). -/

namespace Sys2Proof.Machine

/-! ### Island power states (R569 to R572) -/

/-- An island as nothing has moved it: cells start in I3 (06 R229), the others run. -/
def island0 (x : Nat) : Island := { state := if x < 2016 then 3 else 0, entry := none, wake := none }

/-- An island: cells 168 × forme + physical cell, 4096 + channel engine, 8192 + control core, 12288 + hub's token engine. -/
def State.island (s : State) (x : Nat) : Island := (mget s.isl.islands x).getD (island0 x)

/-- Whether a number names an island. -/
def isIsland (x : Nat) : Bool :=
  decide (x < 2016) || (decide (4096 ≤ x) && decide (x < 4192)) || (decide (8192 ≤ x) && decide (x < 8208)) ||
  (decide (12288 ≤ x) && decide (x < 12290))

/-- Writes an island; a cell's state shows in FRM_CELL_STAT (06 R229). -/
def State.setIsland (s : State) (x : Nat) (i : Island) : State :=
  let s := { s with isl := { s.isl with islands := mset s.isl.islands x i } }
  if x < 2016 then s.setFld (FRM_CELL_STAT_ISLAND (x / 168) (x % 168)) i.state else s

/-- The device cell behind a physical cell in service. -/
def islandCell (s : State) (x : Nat) : Option Nat :=
  if s.fld (FRM_CELL_STAT_STATE (x / 168) (x % 168)) = 1 then
    some (160 * (x / 168) + s.fld (FRM_CELL_STAT_SVC (x / 168) (x % 168)))
  else none

/-- The enabled partition that holds a cell. -/
def islandPart (s : State) (x : Nat) : Option Nat :=
  (islandCell s x).bind fun n =>
    (List.range 16).find? fun p => s.flag (GAL_PART_ENABLE p) && bitOf (s.fld (GAL_PART_QUIRES p)) (n / 40)

/-- Clock of a partition, with the limits of heat (16 R597). -/
def cellClock (s : State) (p : Nat) : Nat :=
  let held := (List.range 4).any fun k => (s.slice (4 * p + k)).contract.isSome
  if s.gal.limited = 1 ∧ held = false then min 1400 (s.fld (GAL_PART_CLOCK_MHZ p)) else partClock s p

/-- The deepest state an island may take (R570). -/
def islandLimit (s : State) (x : Nat) : Nat :=
  if x < 2016 then
    match islandPart s x with
    | some p => if (List.range 4).any fun k => s.flag (GAL_SLICE_A_ENABLE p k) then s.fld PWR_CFG_MAX_SERVING else 3
    | none => 3
  else if 8192 ≤ x ∧ x < 8208 then 1
  else if x = 12288 + s.fld GLB_STATE_ACTIVE_HUB then 1
  else 3

/-- Clock that an island's save and restore run at, in MHz: 2,000 outside a partition. -/
def islandClock (s : State) (x : Nat) : Nat := max 1 (((islandPart s x).map (cellClock s)).getD 2000)

/-- Nanoseconds to move a cell save record at a number of bytes a cycle (R569). -/
def saveTime (mhz perCycle : Nat) : Nat := (4276224 * 1000 + perCycle * mhz - 1) / (perCycle * mhz)

/-- Entry time of a state, in nanoseconds (R569). -/
def entryTime (s : State) (x st : Nat) : Nat :=
  match st with
  | 0 => 0
  | 1 => 10
  | 2 => 1000
  | _ => 2000 + (if x < 2016 then saveTime (islandClock s x) 512 else 0)

/-- Wake bound of a state, in nanoseconds (R569). -/
def wakeTime (s : State) (x st : Nat) : Nat :=
  match st with
  | 0 => 0
  | 1 => 40
  | 2 => 3000
  | _ => 30000 + (if x < 2016 then saveTime (islandClock s x) 256 else 0)

/-- The margin of a state (R571). -/
def wakeMargin (s : State) (x st : Nat) : Nat :=
  max (s.fld PWR_CFG_MARGIN_NS) (wakeTime s x st * s.fld PWR_CFG_MARGIN_PCT / 100)

/-- The next known event of an island (R571): a cell's partition's earliest release; the earliest comparator aimed at a core. -/
def nextEvent (s : State) (x : Nat) : Option Nat :=
  if x < 2016 then
    (islandPart s x).bind fun p => ((List.range 4).filterMap fun k => (s.slice (4 * p + k)).built.map (·.release)).min?
  else if 8192 ≤ x ∧ x < 8208 then
    ((List.range 64).filterMap fun k =>
      let g := s.fld (EVC_SRC_GROUP (0x440 + k))
      if s.fld (EVC_TIMER_AT k) ≠ 0 ∧ s.fld (EVC_GROUP_CORE g) = x - 8192 then some (s.fld (EVC_TIMER_AT k)) else none).min?
  else none

/-- The procedure of R571, from a state down to I1. -/
def chooseIsland (s : State) (x : Nat) (h : Option Nat) : Nat → Nat
  | 0 => 0
  | st + 1 =>
    match h with
    | none => st + 1
    | some h =>
      if h < entryTime s x (st + 1) + wakeTime s x (st + 1) + wakeMargin s x (st + 1) then chooseIsland s x (some h) st
      else if st + 1 = 3 ∧ h < s.fld PWR_CFG_I3_MIN_US * 1000 then chooseIsland s x (some h) st
      else st + 1

/-- Whether an island has no work: a cell that no galley runs, a channel engine with no operation in flight. -/
def islandIdle (s : State) (x : Nat) : Bool :=
  if x < 2016 then
    match islandCell s x with
    | some n => decide ((s.cell n).run ≠ .running)
    | none => true
  else if 4096 ≤ x ∧ x < 4192 then
    !((s.bay ((x - 4096) / 24)).ops.any fun o => decide (o.2.channel = (x - 4096) % 24))
  else true

/-- An island with no work takes its state: the entry begins now. -/
def sleepIsland (s : State) (x : Nat) : State :=
  if isIsland x = true ∧ islandIdle s x = true then
    let st := chooseIsland s x ((nextEvent s x).map (· - s.now)) (islandLimit s x)
    if st = (s.island x).state then s
    else if st = 0 then s.setIsland x { state := 0, entry := none, wake := some s.now }
    else s.setIsland x { state := st, entry := some (st, s.now), wake := none }
  else s

def execIslandStateChoice (island : Nat) (s : State) : Host.Outcome State Fault Refusal := .next (sleepIsland s island)

/-- An island wakes; an entry in progress is abandoned (R572). -/
def wakeIsland (s : State) (x : Nat) : State :=
  if isIsland x = true ∧ (s.island x).state ≠ 0 then s.setIsland x { state := 0, entry := none, wake := some s.now } else s

def execIslandWake (island : Nat) (s : State) : Host.Outcome State Fault Refusal := .next (wakeIsland s island)

/-! ### D1 (R573) -/

/-- Whether a queue holds no item. -/
def queueIdle (s : State) (k : Nat) : Bool :=
  let st := s.fld (HIF_Q_CTL_STATE (k / 16) (k % 16))
  (s.queue (k / 16) (k % 16)).started.isEmpty &&
  (decide (unfetched s (k / 16) (k % 16) = 0) || decide (st = 0) || decide (st = 3))

/-- Whether nothing that keeps the device in D0 is in progress (R573). -/
def deviceIdle (s : State) : Bool :=
  s.gal.slices.all (fun x => x.2.running.isNone) && s.gal.parts.all (fun x => x.2.running.isNone && x.2.search.isNone) &&
  s.host.queues.all (fun x => queueIdle s x.1) &&
  s.ses.entries.all (fun x => x.2.park.isNone && x.2.rev.isNone && x.2.mig.isNone) &&
  s.vse.all (fun x => slotQuiet x.2) &&
  s.crt.bays.all (fun x => x.2.ops.isEmpty && x.2.inFlight.isEmpty && x.2.openPage.isEmpty && x.2.compact.isNone) &&
  s.fab.qps.all (fun x => x.2.items.isEmpty) && s.fab.waiting.isEmpty &&
  s.tier.borrowers.all (fun x => x.2.frames.isEmpty) && s.mkr.admitted.isEmpty

/-- Every island: cells, channel engines, control cores, token engines. -/
def allIslands : List Nat :=
  List.range 2016 ++ (List.range 96).map (4096 + ·) ++ (List.range 16).map (8192 + ·) ++ [12288, 12289]

/-- An island goes to its limit. -/
def toLimit (s : State) (x : Nat) : State :=
  let st := islandLimit s x
  if (s.island x).state = st then s else s.setIsland x { state := st, entry := some (st, s.now), wake := none }

/-- D0 to D1. -/
def enterD1 (s : State) : State :=
  if s.fld GLB_STATE_DEV_STATE = 0 ∧ s.flag GLB_STATE_READY = true ∧ deviceIdle s = true ∧
      s.isl.idleSince + s.fld PWR_CFG_IDLE_MS * 10 ^ 6 ≤ s.now then
    let s := allIslands.foldl toLimit (s.setFld GLB_STATE_DEV_STATE 1)
    { s with isl := { s.isl with selfRefresh := true } }
  else s

def execD1Entry (s : State) : Host.Outcome State Fault Refusal := .next (enterD1 s)

/-! ### The event controller (R575 to R578) -/

def execEventEdge (source : Nat) (s : State) : Host.Outcome State Fault Refusal := .next (edge s source)

/-- The core that a group's vector goes to: its own, or while its hub is out of service the survivor's (R577, R578). -/
def groupCore (s : State) (g : Nat) : Nat :=
  let c := s.fld (EVC_GROUP_CORE g)
  if s.hubUp (c / 8) || !s.hubUp (1 - c / 8) then c else c % 8 + 8 * (1 - c / 8)

/-- Enabled sources of a group that hold their latch. -/
def groupSources (s : State) (g : Nat) : List Nat :=
  (List.range 2048).filter fun n => decide (s.fld (EVC_SRC_GROUP n) = g) && s.flag (EVC_SRC_ENABLE n) && s.flag (EVC_SRC_LATCHED n)

/-- Firmware serves a source: its latch and its count of folded edges are cleared (R576, R577). -/
def clearLatch (s : State) (n : Nat) : State :=
  ((s.setFld (EVC_SRC_LATCHED n) 0).setFld (EVC_SRC_MERGED n) 0).decFld EVC_STATUS_LATCHED 1

/-- The lowest-numbered pending group of a hub's controller that is not held. -/
def nextGroup (s : State) (h : Nat) : Option Nat :=
  (List.range 64).find? fun g =>
    decide (s.fld (EVC_GROUP_PENDING g) ≠ 0) && !s.flag (EVC_GROUP_HELD g) && decide (groupCore s g / 8 = h)

/-- Delivers one vector: the core wakes, the group is held, and the firmware, which is part of the block, acknowledges it and
serves the group's latches at once (log entry 62). -/
def deliverEvent (s : State) (h : Nat) : State :=
  let s := endHolds s
  if 2 ≤ h ∨ s.hubUp h = false ∨ s.pins.standby = false ∨ s.awake = false then s
  else match nextGroup s h with
    | none => s
    | some g =>
      let core := groupCore s g
      let s := wakeIsland s (8192 + core)
      let s := (groupSources s g).foldl clearLatch s
      let s := ((s.setFld (EVC_GROUP_PENDING g) 0).setFld (EVC_GROUP_HELD g) 1).incSat EVC_STATUS_DELIVERED 1
      { s with isl := { s.isl with
        holds := mset s.isl.holds g (s.now + s.fld (EVC_GROUP_HOLDOFF_NS g), true),
        vectors := s.isl.vectors ++ [(core, s.fld (EVC_GROUP_VECTOR g))] } }

def execEventDelivery (hub : Nat) (s : State) : Host.Outcome State Fault Refusal := .next (deliverEvent s hub)

/-- Device time has reached an armed comparator. -/
def timerReached (s : State) (k : Nat) : State :=
  if k < 64 ∧ s.fld (EVC_TIMER_AT k) ≠ 0 ∧ s.fld (EVC_TIMER_AT k) ≤ s.now then edge s (0x440 + k) else s

def execEvcTimerReached (timer : Nat) (s : State) : Host.Outcome State Fault Refusal := .next (timerReached s timer)

/-! ### Energy (R574) -/

/-- One millisecond of input energy, in microjoules: its mean power in milliwatts is the same number. -/
def addEnergy (s : State) (uj : Nat) : State :=
  if s.awake then (s.incWrap PWR_ENERGY_UJ uj).setFld PWR_POWER_MW (min uj (2 ^ 32 - 1)) else s

def execEnergyTelemetry (uj : Nat) (s : State) : Host.Outcome State Fault Refusal := .next (addEnergy s uj)

/-! ### Start-up (R579 to R583; 14 R548) -/

/-- PORST_N asserted: a cold reset; it also ends a hold of R590, whose pulse this begins. -/
def porstLow (s : State) : State :=
  resetDevice true { s with pins := { s.pins with porstN := false, ovHold := false } }

def execPorstNAsserted (s : State) : Host.Outcome State Fault Refusal := .next (porstLow s)

/-- PORST_N released: by then both references run (16 R589); device time starts, phase 0x1 begins. -/
def porstHigh (s : State) : State :=
  if s.pins.porstN = false ∧ s.pins.standby = true then
    releaseCold { s with pins := { s.pins with porstN := true, serdes := [true, true] } }
  else s

def execPorstNReleased (s : State) : Host.Outcome State Fault Refusal := .next (porstHigh s)

/-- Enters a start-up phase. -/
def setPhase (s : State) (p : Nat) : State :=
  ({ s with isl := { s.isl with phaseAt := s.now } }).setFld GLB_STATE_START_PHASE p

/-- Whether the root of trust accepts an image (14 R548). -/
def imageOk (s : State) (i : Nat) : Bool :=
  match s.sec.slots[i]? with
  | some x => x.verified && decide (s.sec.minSvn ≤ x.svn)
  | none => false

/-- The instar of every free entry at start-up: the low 24 bits of the start-up count, 0 replaced by 1 (02 R35). -/
def countInstar (n : Nat) : Nat := if n % 2 ^ 24 = 0 then 1 else n % 2 ^ 24

/-- Clears every event latch (R583). -/
def clearLatches (s : State) : State :=
  let s := (List.range 2048).foldl (fun s n =>
    if s.flag (EVC_SRC_LATCHED n) then (s.setFld (EVC_SRC_LATCHED n) 0).setFld (EVC_SRC_MERGED n) 0 else s) s
  let s := (List.range 64).foldl (fun s g => if s.fld (EVC_GROUP_PENDING g) = 0 then s else s.setFld (EVC_GROUP_PENDING g) 0) s
  s.setFld EVC_STATUS_LATCHED 0

/-- A bay at the start of phase 0x2: a present one begins its sequence (R580). -/
def startBay (s : State) (b : Nat) : State :=
  let s := if s.pins.present.getD b false then presence s b else s
  if s.pins.holdup.getD b false then holdUp s b else s

/-- Firmware starts: the start-up count, the instars it gives, and phase 0x2 with ports, bays and the host port (R579 to R581). -/
def bootSlot (s : State) (i : Nat) : State :=
  let n := s.sec.startCount + 1
  let s := { s with sec := { s.sec with startCount := n } }.setFld SEC_STATUS_BOOT_SLOT i
  let s := { s with ses := { s.ses with baseInstar := countInstar n, freeInstar := [] } }
  let s := setPhase (if s.isl.internal then clearLatches s else s) 2
  let s := { s with fab := { s.fab with stopped := false }, isl := { s.isl with internal := false, phaseAt := s.now } }
  ([0, 1, 2, 3] : List Nat).foldl startBay (s.setFld (HIF_CTX_CTL_FN_ENABLED 0) 1)

/-- The end of phase 0x1. -/
def bootFirmware (s : State) : State :=
  if (s.pins.serdes.all id) = false then s
  else if imageOk s 0 then bootSlot s 0
  else if imageOk s 1 then bootSlot s 1
  else { setPhase s 0xF with sec := { s.sec with lastStatus := 0xB001 } }

/-- The cells of a forme after its self-test: 160 in service, 8 spare, each under its own number (06 R229). -/
def formeTested (s : State) (f : Nat) : State :=
  let s := (List.range 160).foldl (fun s n =>
    ((s.setFld (FRM_CELL_MAP_PHYS f n) n).setFld (FRM_CELL_STAT_STATE f n) 1).setFld (FRM_CELL_STAT_SVC f n) n) s
  let s := (List.range 8).foldl (fun s j => s.setFld (FRM_CELL_STAT_STATE f (160 + j)) 2) s
  ((s.setFld (FRM_STATUS_IN_SERVICE f) 160).setFld (FRM_STATUS_SPARES f) 8).setFld (FRM_STATUS_TESTED f) 1

/-- Page frames outside the fixed reservations: 384 GiB less 3 GiB. -/
def startFrames : Nat := 24969216

/-- The end of phase 0x4: a whole part (01 R29; 08 R313; log entry 63). -/
def partTested (s : State) : State :=
  let s := (List.range 12).foldl formeTested s
  let s := (s.setFld GLB_RES0_CELLS_ACTIVE 1920).setFld GLB_RES0_SPARE_CELLS 96
  let s := (s.setFld GLB_RES0_HBM_GIB 384).setFld GLB_RES0_HBM_SPARE_GIB 48
  let s := ((s.setFld GLB_RES1_FORME_OK 0xFFF).setFld GLB_RES1_STACKS_OK 0xFFF).setFld GLB_RES1_HUB_OK 3
  capacityChange ((showBays s).setFld SES_KV_FREE_FREE startFrames)

/-- Whether time is locked: shown, or this device is the grandmaster (12 R455). -/
def timeLocked (s : State) : Bool :=
  s.flag GLB_TIME_STATUS_LOCKED || (match s.fab.comp with | some c => decide (c.gm = s.devAddr) | none => false)

/-- READY: the directories replayed so far are restored, bays that cannot be opened are FOREIGN, the device serves (R573, R580,
R582). -/
def goReady (s : State) : State :=
  let s := restoreAll s
  let s := ([0, 1, 2, 3] : List Nat).foldl foreignLate s
  let s := (setPhase ((s.setFld GLB_STATE_READY 1).setFld GLB_STATE_DEV_STATE 0) 7)
  { s with isl := { s.isl with idleSince := s.now } }

/-- A start-up phase completes, where its condition holds, and the next begins; phase 0x6 lasts 20 s at most (R579, R582). -/
def advancePhase (s : State) : State :=
  if s.awake = false then s
  else match s.fld GLB_STATE_START_PHASE with
    | 1 => bootFirmware s
    | 2 => setPhase s 3
    | 3 => setPhase s 4
    | 4 => setPhase (partTested s) 5
    | 5 => if s.flag GLB_DEV_ADDR_VALID then setPhase s 6 else s
    | 6 => if timeLocked s = true ∨ s.isl.phaseAt + 20 * 10 ^ 9 ≤ s.now then goReady s else s
    | _ => s

def execStartPhaseAdvance (s : State) : Host.Outcome State Fault Refusal := .next (advancePhase s)

end Sys2Proof.Machine
end

