-- ==== Sys2Proof/Machine/Package.lean ====
section
/-! DEFINITION. Supplies, reference clocks, power failure and heat (16 R587 to R599; 10 R397, R398, R411; 15 R573). -/

namespace Sys2Proof.Machine

/-! ### Reference clocks (R593) -/

/-- A cartridge link is gone: a bay in use fails as for surprise removal, and its sessions are recovered (10 R365, R408). -/
def linkGone (s : State) (b : Nat) : State :=
  if bst s b = 5 ∨ bst s b = 6 then
    let s := fault (s.setFld (CRT_BAY_LANES_GOOD b) 0) (baySource b 7) 0x06 0 (BitVec.ofNat 64 b) (0x4000 + b)
    let k := s.fld (CRT_SERIAL_SERIAL b)
    cartridgeLost (capacityChange (bayGone (setBst s b 10) b)) b k
  else if bst s b = 3 then setBst s b 10
  else s

/-- A hub's SerDes reference is absent: in phase 0x1 the device waits, and after 0.8 s reports it; later the hub's ports and
cartridge links are lost. -/
def referenceLost (s : State) (h : Nat) : State :=
  if 2 ≤ h ∨ s.awake = false then s
  else
    let s := { s with pins := { s.pins with serdes := s.pins.serdes.set h false } }
    if s.fld GLB_STATE_START_PHASE = 1 then
      if s.isl.phaseAt + 8 * 10 ^ 8 ≤ s.now then { s with sec := { s.sec with lastStatus := 0xC002 } } else s
    else if s.fld GLB_STATE_START_PHASE = 0 ∨ s.fld GLB_STATE_START_PHASE = 0xF then s
    else
      let s := ((List.range 8).map (8 * h + ·)).foldl (fun s p =>
        if pst s p = 2 then portLost s p else if pst s p = 1 then setPst s p 0 else s) s
      ([2 * h, 2 * h + 1] : List Nat).foldl linkGone s

def execSerdesReferenceAbsent (hub : Nat) (s : State) : Host.Outcome State Fault Refusal := .next (referenceLost s hub)

/-! ### The seal (10 R397, R398, R411; 15 R573) -/

/-- At a power failure a park stops at its next page boundary, but for one whose record is on its way (10 R397, R411). -/
def stopPark (s : State) (i : Nat) : State :=
  match s.ses? i with
  | none => s
  | some e =>
    match e.park with
    | none => s
    | some op => if op.target = .p3 ∧ op.journal ≠ 0 then s else abortPark s i

/-- Seals the device: D3, START_PHASE 0x8, and no second seal (15 R573; 16 R598). -/
def sealDevice (s : State) : State :=
  let p := s.fld GLB_STATE_START_PHASE
  if s.awake = true ∧ 1 ≤ p ∧ p ≤ 7 then
    let s := (s.ses.entries.map (·.1)).foldl stopPark s
    let s := ([0, 1, 2, 3] : List Nat).foldl sealBay s
    setPhase ((s.setFld GLB_STATE_DEV_STATE 3).setFld GLB_STATE_READY 0) 8
  else s

/-- PWRFAIL_N asserts: its event, and the seal. -/
def powerFails (s : State) : State :=
  if s.pins.pwrfailN then
    let s := { s with pins := { s.pins with pwrfailN := false } }
    sealDevice (edge (s.setFld PWR_RAILS_PWRFAIL 1) 0x400)
  else s

def execPwrfailNAsserted (s : State) : Host.Outcome State Fault Refusal := .next (powerFails s)

/-- Whether every seal that began is complete. -/
def sealsDone (s : State) : Bool :=
  (List.range 4).all fun b => (s.bay b).sealing.isNone || bitOf (s.fld CRT_SEAL_SEALED) b

/-- PWRFAIL_N has been deasserted for 10 ms: a sealed device, once its seal is complete, resets and starts up again (15 R573;
R598). -/
def powerBack (s : State) : State :=
  let s := ({ s with pins := { s.pins with pwrfailN := true } }).setFld PWR_RAILS_PWRFAIL 0
  if s.awake = true ∧ s.fld GLB_STATE_START_PHASE = 8 ∧ sealsDone s = true ∧ s.pins.thermtripN = true then internalReset s else s

def execPwrfailNDeasserted (s : State) : Host.Outcome State Fault Refusal := .next (powerBack s)

/-! ### Input voltage (R589, R590) -/

/-- VSB is in range: the always-on domain starts. -/
def standbyUp (s : State) (vsb : Nat) : State :=
  if 3135 ≤ vsb ∧ vsb ≤ 3465 then
    ({ s with pins := { s.pins with standby := true } }).setFld PWR_RAILS_VSB_MV vsb
  else s

def execStandbyRailUp (vsb : Nat) (s : State) : Host.Outcome State Fault Refusal := .next (standbyUp s vsb)

/-- VIN has been below 44 V for 50 µs while PWRFAIL_N is deasserted. -/
def inputLow (s : State) (mv : Nat) : State :=
  if s.awake = true ∧ 40000 ≤ mv ∧ mv < 44000 then
    let s := s.setFld PWR_RAILS_VIN_MV mv
    if s.pins.pwrfailN then
      sealDevice (fault (edge (s.setFld PWR_RAILS_VIN_LOW 1) 0x400) (hubUnit s 14) 0x10 0xC003 0)
    else s
  else s

def execVinLow (mv : Nat) (s : State) : Host.Outcome State Fault Refusal := .next (inputLow s mv)

/-- VIN between 54 V and 57 V: a correctable message each second. -/
def inputHigh (s : State) (mv : Nat) : State :=
  if s.awake = true ∧ 54000 < mv ∧ mv ≤ 57000 then
    let s := (s.setFld PWR_RAILS_VIN_MV mv).setFld PWR_RAILS_VIN_HIGH 1
    let due : Bool := match s.pins.vinMsgAt with
      | none => true
      | some t => decide (t + 10 ^ 9 ≤ s.now)
    if due then
      fault { s with pins := { s.pins with vinMsgAt := some s.now } } (hubUnit s 14) 0x0B 0xC003 0
    else s
  else s

def execVinHighWarning (mv : Nat) (s : State) : Host.Outcome State Fault Refusal := .next (inputHigh s mv)

/-- The device enters D3 and holds itself in reset until PORST_N is pulsed. -/
def holdReset (s : State) : State :=
  let s := resetDevice false s
  { s with pins := { s.pins with ovHold := true } }

/-- VIN above 57 V. -/
def inputOver (s : State) (mv : Nat) : State := if 57000 < mv then holdReset s else s

def execVinOvervoltage (mv : Nat) (s : State) : Host.Outcome State Fault Refusal := .next (inputOver s mv)

/-- The rails have collapsed: the device is held in reset; without VSB the always-on domain is lost as well, its latches and the
seal time with it (R590, R591). -/
def railsGone (s : State) (vin vsb : Nat) : State :=
  if vsb < 3000 then
    let s := (resetDevice true s).setFld CRT_SEAL_SEAL_US 0
    { s with pins := { s.pins with standby := false, ovHold := true },
             sec := { s.sec with reqCount := 0, lastStatus := 0, usbIn := [], usbBusy := false, stall := false } }
  else if vin < 40000 then holdReset s
  else s

def execRailCollapse (vin vsb : Nat) (s : State) : Host.Outcome State Fault Refusal := .next (railsGone s vin vsb)

/-! ### Heat (R595, R597) -/

/-- Fault message of a thermal step, from the hub nearest the hot die. -/
def heatFault (s : State) (h : Nat) : State := fault s (0xB4F + 16 * (h % 2)) 0x0B 0xC004 0

/-- A junction reaches 125 °C. -/
def tripped (s : State) (tj : Nat) : State :=
  if 125 ≤ tj then
    let s := { s with pins := { s.pins with thermtripN := false } }
    sealDevice ((s.setFld PWR_THERM_TRIPPED 1).setFld PWR_THERM_TJ_MAX_C (min tj 255))
  else s

def execThermtrip (tj : Nat) (s : State) : Host.Outcome State Fault Refusal := .next (tripped s tj)

/-- A junction reaches 100 °C: partitions without a contract in force slow down. -/
def throttle (s : State) (tj h : Nat) : State :=
  if s.awake = true ∧ 100 ≤ tj then
    let s := s.setFld PWR_THERM_TJ_MAX_C (min tj 255)
    if s.gal.limited = 0 then
      let s := { s with gal := { s.gal with limited := 1 }, pins := { s.pins with hotAt := some s.now } }
      heatFault (s.setFld PWR_THERM_THROTTLED 1) h
    else s
  else s

def execThermalThrottle (tj hub : Nat) (s : State) : Host.Outcome State Fault Refusal := .next (throttle s tj hub)

/-- A junction still exceeds 103 °C after 100 ms: every partition slows down, and make-ready evaluates again. -/
def limitAll (s : State) (tj h : Nat) : State :=
  match s.pins.hotAt with
  | none => s
  | some t =>
    if s.awake = true ∧ 103 < tj ∧ t + 10 ^ 8 ≤ s.now ∧ s.gal.limited = 1 then
      let s := (s.setFld PWR_THERM_TJ_MAX_C (min tj 255)).setFld PWR_THERM_ALL_LIMITED 1
      heatFault { s with gal := { s.gal with limited := 2 }, mkr := { s.mkr with due := true } } h
    else s

def execThermalLimitAll (tj hub : Nat) (s : State) : Host.Outcome State Fault Refusal := .next (limitAll s tj hub)

/-- Every junction has stayed below 95 °C for 1 s: the limits lift. -/
def liftLimits (s : State) (tj : Nat) : State :=
  match s.pins.hotAt with
  | none => s
  | some t =>
    if s.awake = true ∧ tj < 95 ∧ t + 10 ^ 9 ≤ s.now then
      let s := ((s.setFld PWR_THERM_TJ_MAX_C tj).setFld PWR_THERM_THROTTLED 0).setFld PWR_THERM_ALL_LIMITED 0
      { s with gal := { s.gal with limited := 0 }, pins := { s.pins with hotAt := none }, mkr := { s.mkr with due := true } }
    else s

def execThermalLimitLift (tj : Nat) (s : State) : Host.Outcome State Fault Refusal := .next (liftLimits s tj)

end Sys2Proof.Machine
end

