-- ==== Sys2Proof/Machine/Dispatch.lean ====
section
/-! DEFINITION. One arm for each command, each a direct call of its meaning. -/

namespace Sys2Proof.Machine

def exec (i : Instr) (s : State) : Host.Outcome State Fault Refusal :=
  match i with
  | .sesCreate src vocab grammar model prio dur customer draftEn tag contract cls => Sys2Proof.Machine.execSesCreate src vocab grammar model prio dur customer draftEn tag contract cls s
  | .sesFeed src handle addr len tokens run genLimit => Sys2Proof.Machine.execSesFeed src handle addr len tokens run genLimit s
  | .sesRun src handle genLimit => Sys2Proof.Machine.execSesRun src handle genLimit s
  | .sesWait src handle expect deadline => Sys2Proof.Machine.execSesWait src handle expect deadline s
  | .sesHold src handle => Sys2Proof.Machine.execSesHold src handle s
  | .sesRelease src handle => Sys2Proof.Machine.execSesRelease src handle s
  | .sesFork src handle position newSeed seed tag => Sys2Proof.Machine.execSesFork src handle position newSeed seed tag s
  | .sesMigrate src handle device => Sys2Proof.Machine.execSesMigrate src handle device s
  | .sesPark src handle hint => Sys2Proof.Machine.execSesPark src handle hint s
  | .sesRevive src handle => Sys2Proof.Machine.execSesRevive src handle s
  | .sesCancel src handle => Sys2Proof.Machine.execSesCancel src handle s
  | .sesEnd src handle => Sys2Proof.Machine.execSesEnd src handle s
  | .sesFree src handle => Sys2Proof.Machine.execSesFree src handle s
  | .sesQuery src handle dest => Sys2Proof.Machine.execSesQuery src handle dest s
  | .sesConfig src handle selector index value => Sys2Proof.Machine.execSesConfig src handle selector index value s
  | .cancelDrainComplete index => Sys2Proof.Machine.execCancelDrainComplete index s
  | .sessionDrainTimeout index => Sys2Proof.Machine.execSessionDrainTimeout index s
  | .waitGraceExpiry index => Sys2Proof.Machine.execWaitGraceExpiry index s
  | .proactiveRevivalStart index => Sys2Proof.Machine.execProactiveRevivalStart index s
  | .overdueExpiry index => Sys2Proof.Machine.execOverdueExpiry index s
  | .deadlinePassed index => Sys2Proof.Machine.execDeadlinePassed index s
  | .durLagExpiry index => Sys2Proof.Machine.execDurLagExpiry index s
  | .p1PressureParking ctx => Sys2Proof.Machine.execP1PressureParking ctx s
  | .parkCommit index => Sys2Proof.Machine.execParkCommit index s
  | .parkFailure index status => Sys2Proof.Machine.execParkFailure index status s
  | .revivalCommit index badPages => Sys2Proof.Machine.execRevivalCommit index badPages s
  | .migrationCommit index newHandle => Sys2Proof.Machine.execMigrationCommit index newHandle s
  | .migrationRefused index status => Sys2Proof.Machine.execMigrationRefused index status s
  | .migrationTimeout index => Sys2Proof.Machine.execMigrationTimeout index s
  | .advertiseFreeLentSpace => Sys2Proof.Machine.execAdvertiseFreeLentSpace s
  | .lenderAdvertisement lender free hops reclaimMs => Sys2Proof.Machine.execLenderAdvertisement lender free hops reclaimMs s
  | .reclaimNoticeSend => Sys2Proof.Machine.execReclaimNoticeSend s
  | .reclaimNotice lender deadline => Sys2Proof.Machine.execReclaimNotice lender deadline s
  | .reclaimResend borrower => Sys2Proof.Machine.execReclaimResend borrower s
  | .reclaimDeadline => Sys2Proof.Machine.execReclaimDeadline s
  | .bayReadOnlyEvacuation bay => Sys2Proof.Machine.execBayReadOnlyEvacuation bay s
  | .mkrDefine src addr => Sys2Proof.Machine.execMkrDefine src addr s
  | .mkrDrop src id => Sys2Proof.Machine.execMkrDrop src id s
  | .mkrReady src addr => Sys2Proof.Machine.execMkrReady src addr s
  | .makeReadyEvaluation => Sys2Proof.Machine.execMakeReadyEvaluation s
  | .mkrWithdraw src => Sys2Proof.Machine.execMkrWithdraw src s
  | .mkrQuery src id addr => Sys2Proof.Machine.execMkrQuery src id addr s
  | .capacityReevaluation => Sys2Proof.Machine.execCapacityReevaluation s
  | .galLoad src slot source addr => Sys2Proof.Machine.execGalLoad src slot source addr s
  | .galUnload src slot => Sys2Proof.Machine.execGalUnload src slot s
  | .galDraft src handle base count addr => Sys2Proof.Machine.execGalDraft src handle base count addr s
  | .galPreempt src part addr => Sys2Proof.Machine.execGalPreempt src part addr s
  | .galResume src part addr => Sys2Proof.Machine.execGalResume src part addr s
  | .galleySwap part slice => Sys2Proof.Machine.execGalleySwap part slice s
  | .galleyBuild part slice => Sys2Proof.Machine.execGalleyBuild part slice s
  | .galleyCommit part slice => Sys2Proof.Machine.execGalleyCommit part slice s
  | .contractStepMissed part slice => Sys2Proof.Machine.execContractStepMissed part slice s
  | .stepWatchdog part slice => Sys2Proof.Machine.execStepWatchdog part slice s
  | .tokVload src slot addr => Sys2Proof.Machine.execTokVload src slot addr s
  | .tokGload src slot addr => Sys2Proof.Machine.execTokGload src slot addr s
  | .tokUnload src kind slot => Sys2Proof.Machine.execTokUnload src kind slot s
  | .tokEncode src vocab bytes source dest => Sys2Proof.Machine.execTokEncode src vocab bytes source dest s
  | .logitSegment part slice recIdx offset first logits => Sys2Proof.Machine.execLogitSegment part slice recIdx offset first logits s
  | .positionSampled part slice recIdx offset => Sys2Proof.Machine.execPositionSampled part slice recIdx offset s
  | .camCfg src bank width keyBytes verify => Sys2Proof.Machine.execCamCfg src bank width keyBytes verify s
  | .camWrite src bank entry clear addr => Sys2Proof.Machine.execCamWrite src bank entry clear addr s
  | .camFind src bank start keyAddr mask dataAddr => Sys2Proof.Machine.execCamFind src bank start keyAddr mask dataAddr s
  | .camRead src bank entry dest => Sys2Proof.Machine.execCamRead src bank entry dest s
  | .camScrub bank => Sys2Proof.Machine.execCamScrub bank s
  | .presenceAsserted bay => Sys2Proof.Machine.execPresenceAsserted bay s
  | .holdUpGood bay => Sys2Proof.Machine.execHoldUpGood bay s
  | .holdUpTimerExpiry bay => Sys2Proof.Machine.execHoldUpTimerExpiry bay s
  | .colophonVerified bay col wearA wearB superblock erased => Sys2Proof.Machine.execColophonVerified bay col wearA wearB superblock erased s
  | .i3cSilent bay => Sys2Proof.Machine.execI3cSilent bay s
  | .linkTrained bay lanes paramsMatch => Sys2Proof.Machine.execLinkTrained bay lanes paramsMatch s
  | .trainingRetry bay lanes paramsMatch => Sys2Proof.Machine.execTrainingRetry bay lanes paramsMatch s
  | .replayComplete bay opened checkpoint records => Sys2Proof.Machine.execReplayComplete bay opened checkpoint records s
  | .endOfLife bay reason => Sys2Proof.Machine.execEndOfLife bay reason s
  | .presenceDeasserted bay => Sys2Proof.Machine.execPresenceDeasserted bay s
  | .crtPut src id source len => Sys2Proof.Machine.execCrtPut src id source len s
  | .crtGet src id dest offset len => Sys2Proof.Machine.execCrtGet src id dest offset len s
  | .crtDel src id => Sys2Proof.Machine.execCrtDel src id s
  | .crtEject src bay => Sys2Proof.Machine.execCrtEject src bay s
  | .ejectDrained bay => Sys2Proof.Machine.execEjectDrained bay s
  | .crtFormat src bay => Sys2Proof.Machine.execCrtFormat src bay s
  | .crtCompact src bay => Sys2Proof.Machine.execCrtCompact src bay s
  | .compaction bay => Sys2Proof.Machine.execCompaction bay s
  | .compactionSuperblockDurable bay => Sys2Proof.Machine.execCompactionSuperblockDurable bay s
  | .flitReceived bay flit => Sys2Proof.Machine.execFlitReceived bay flit s
  | .flitResendTimeout bay => Sys2Proof.Machine.execFlitResendTimeout bay s
  | .retrain bay lanes => Sys2Proof.Machine.execRetrain bay lanes s
  | .programSuspend bay channel die => Sys2Proof.Machine.execProgramSuspend bay channel die s
  | .pageReadDone bay optag decoded correctedPct data => Sys2Proof.Machine.execPageReadDone bay optag decoded correctedPct data s
  | .flashDieTimeout bay channel die => Sys2Proof.Machine.execFlashDieTimeout bay channel die s
  | .programOrEraseFailure bay block erase => Sys2Proof.Machine.execProgramOrEraseFailure bay block erase s
  | .wearRecordWrite bay accepted => Sys2Proof.Machine.execWearRecordWrite bay accepted s
  | .journalPageClose bay => Sys2Proof.Machine.execJournalPageClose bay s
  | .journalPageProgrammed bay => Sys2Proof.Machine.execJournalPageProgrammed bay s
  | .readDisturbRelocation bay block => Sys2Proof.Machine.execReadDisturbRelocation bay block s
  | .patrolScan bay block retried correctedPct => Sys2Proof.Machine.execPatrolScan bay block retried correctedPct s
  | .wearLevelling bay fromBlock toBlock => Sys2Proof.Machine.execWearLevelling bay fromBlock toBlock s
  | .collector bay => Sys2Proof.Machine.execCollector bay s
  | .piedPageRecovery frame crcGood => Sys2Proof.Machine.execPiedPageRecovery frame crcGood s
  | .vseOpen src id slot part prio pinCodes pinVec qpg sideCap encPart encSlice noEnc => Sys2Proof.Machine.execVseOpen src id slot part prio pinCodes pinVec qpg sideCap encPart encSlice noEnc s
  | .vseClose src slot => Sys2Proof.Machine.execVseClose src slot s
  | .vseQuery src slot k probes rerank qaddr fmask fval raddr contract => Sys2Proof.Machine.execVseQuery src slot k probes rerank qaddr fmask fval raddr contract s
  | .vseInsert src slot attr id addr => Sys2Proof.Machine.execVseInsert src slot attr id addr s
  | .vseDelete src slot id => Sys2Proof.Machine.execVseDelete src slot id s
  | .vseMerge src slot id => Sys2Proof.Machine.execVseMerge src slot id s
  | .vseDoc src slot tokens attr id addr => Sys2Proof.Machine.execVseDoc src slot tokens attr id addr s
  | .searchGalleyRelease part => Sys2Proof.Machine.execSearchGalleyRelease part s
  | .partitionScanReturn slot query partition engine instar => Sys2Proof.Machine.execPartitionScanReturn slot query partition engine instar s
  | .recordReadReturn slot query key engine instar => Sys2Proof.Machine.execRecordReadReturn slot query key engine instar s
  | .queryComplete slot query => Sys2Proof.Machine.execQueryComplete slot query s
  | .sidePageClose slot => Sys2Proof.Machine.execSidePageClose slot s
  | .sideRecordDurable slot => Sys2Proof.Machine.execSideRecordDurable slot s
  | .mergeGenerationChange slot => Sys2Proof.Machine.execMergeGenerationChange slot s
  | .energyMeter inputUj busyCells indexCells => Sys2Proof.Machine.execEnergyMeter inputUj busyCells indexCells s
  | .fabQpc src ownerKind slice cls window depth counter => Sys2Proof.Machine.execFabQpc src ownerKind slice cls window depth counter s
  | .fabPost src qp op chain notify wait waitKind waitQp laddr raddr len operand swap threshold => Sys2Proof.Machine.execFabPost src qp op chain notify wait waitKind waitQp laddr raddr len operand swap threshold s
  | .fabWin src qp read write atomic mode stallUs base len => Sys2Proof.Machine.execFabWin src qp read write atomic mode stallUs base len s
  | .fabCtlConnect src qp peerDev peerQp => Sys2Proof.Machine.execFabCtlConnect src qp peerDev peerQp s
  | .fabCtlReset src qp => Sys2Proof.Machine.execFabCtlReset src qp s
  | .fabCtlDestroy src qp => Sys2Proof.Machine.execFabCtlDestroy src qp s
  | .fabCtlCancel src qp => Sys2Proof.Machine.execFabCtlCancel src qp s
  | .fabCtlQuery src qp addr => Sys2Proof.Machine.execFabCtlQuery src qp addr s
  | .fabCtlRevokeWindow src qp window => Sys2Proof.Machine.execFabCtlRevokeWindow src qp window s
  | .fabCtlCompose src addr => Sys2Proof.Machine.execFabCtlCompose src addr s
  | .portSignalDetected port => Sys2Proof.Machine.execPortSignalDetected port s
  | .portLinkUp port => Sys2Proof.Machine.execPortLinkUp port s
  | .portTrainingTimeout port => Sys2Proof.Machine.execPortTrainingTimeout port s
  | .portLinkLost port => Sys2Proof.Machine.execPortLinkLost port s
  | .serdesFault port unit => Sys2Proof.Machine.execSerdesFault port unit s
  | .fabPortMediaWrite port media cableM => Sys2Proof.Machine.execFabPortMediaWrite port media cableM s
  | .discoverySend => Sys2Proof.Machine.execDiscoverySend s
  | .discoveryFrame port frame => Sys2Proof.Machine.execDiscoveryFrame port frame s
  | .ptpSync sender offset => Sys2Proof.Machine.execPtpSync sender offset s
  | .syncMissed => Sys2Proof.Machine.execSyncMissed s
  | .holdoverTimeFault offset => Sys2Proof.Machine.execHoldoverTimeFault offset s
  | .domainOfOne => Sys2Proof.Machine.execDomainOfOne s
  | .pfcPauseReceived port cls quanta => Sys2Proof.Machine.execPfcPauseReceived port cls quanta s
  | .pfcRefresh port cls => Sys2Proof.Machine.execPfcRefresh port cls s
  | .pfcWatchdog port cls => Sys2Proof.Machine.execPfcWatchdog port cls s
  | .stuckClear port cls => Sys2Proof.Machine.execStuckClear port cls s
  | .eftFrame port frame => Sys2Proof.Machine.execEftFrame port frame s
  | .ackTimer qp => Sys2Proof.Machine.execAckTimer qp s
  | .rtoExpiry qp => Sys2Proof.Machine.execRtoExpiry qp s
  | .resendAfterExpiry qp => Sys2Proof.Machine.execResendAfterExpiry qp s
  | .holdAckSend qp => Sys2Proof.Machine.execHoldAckSend qp s
  | .stallTimeout qp => Sys2Proof.Machine.execStallTimeout qp s
  | .pageArrival qp frame => Sys2Proof.Machine.execPageArrival qp frame s
  | .connectResend qp => Sys2Proof.Machine.execConnectResend qp s
  | .connectTimeout qp => Sys2Proof.Machine.execConnectTimeout qp s
  | .arbiterGrant port => Sys2Proof.Machine.execArbiterGrant port s
  | .fabWaitTimeout qp => Sys2Proof.Machine.execFabWaitTimeout qp s
  | .fenceRecord device instar => Sys2Proof.Machine.execFenceRecord device instar s
  | .mirroredPark rec head => Sys2Proof.Machine.execMirroredPark rec head s
  | .partnerHandleQuery adopted => Sys2Proof.Machine.execPartnerHandleQuery adopted s
  | .unitDeclaredLost source => Sys2Proof.Machine.execUnitDeclaredLost source s
  | .deviceDeclaredLost device instar reporters => Sys2Proof.Machine.execDeviceDeclaredLost device instar reporters s
  | .hubHandover => Sys2Proof.Machine.execHubHandover s
  | .faultLatchHandled hub => Sys2Proof.Machine.execFaultLatchHandled hub s
  | .failureWarning source => Sys2Proof.Machine.execFailureWarning source s
  | .hbmSparing stack channel whole unreadable => Sys2Proof.Machine.execHbmSparing stack channel whole unreadable s
  | .reImposition part => Sys2Proof.Machine.execReImposition part s
  | .staleMessageResetOrder source selfTestPassed => Sys2Proof.Machine.execStaleMessageResetOrder source selfTestPassed s
  | .proofWrite scope => Sys2Proof.Machine.execProofWrite scope s
  | .cellItemTimeout cell => Sys2Proof.Machine.execCellItemTimeout cell s
  | .controlItemTimeout src => Sys2Proof.Machine.execControlItemTimeout src s
  | .dmaTimeout cell desc => Sys2Proof.Machine.execDmaTimeout cell desc s
  | .syncWaitTimeout obj actor => Sys2Proof.Machine.execSyncWaitTimeout obj actor s
  | .nop x => Sys2Proof.Machine.execNop x s
  | .sadd x => Sys2Proof.Machine.execSadd x s
  | .ssub x => Sys2Proof.Machine.execSsub x s
  | .smul x => Sys2Proof.Machine.execSmul x s
  | .sand x => Sys2Proof.Machine.execSand x s
  | .sor x => Sys2Proof.Machine.execSor x s
  | .sxor x => Sys2Proof.Machine.execSxor x s
  | .shl x => Sys2Proof.Machine.execShl x s
  | .shr x => Sys2Proof.Machine.execShr x s
  | .sra x => Sys2Proof.Machine.execSra x s
  | .cmp x => Sys2Proof.Machine.execCmp x s
  | .li x => Sys2Proof.Machine.execLi x s
  | .ld x => Sys2Proof.Machine.execLd x s
  | .st x => Sys2Proof.Machine.execSt x s
  | .rdsr x => Sys2Proof.Machine.execRdsr x s
  | .wrsr x => Sys2Proof.Machine.execWrsr x s
  | .br x => Sys2Proof.Machine.execBr x s
  | .bc x => Sys2Proof.Machine.execBc x s
  | .call x => Sys2Proof.Machine.execCall x s
  | .jr x => Sys2Proof.Machine.execJr x s
  | .trap x => Sys2Proof.Machine.execTrap x s
  | .eret x => Sys2Proof.Machine.execEret x s
  | .galRec x => Sys2Proof.Machine.execGalRec x s
  | .stepDone x => Sys2Proof.Machine.execStepDone x s
  | .dftWrite x => Sys2Proof.Machine.execDftWrite x s
  | .vld x => Sys2Proof.Machine.execVld x s
  | .vst x => Sys2Proof.Machine.execVst x s
  | .vbc x => Sys2Proof.Machine.execVbc x s
  | .vmov x => Sys2Proof.Machine.execVmov x s
  | .vadd x => Sys2Proof.Machine.execVadd x s
  | .vsub x => Sys2Proof.Machine.execVsub x s
  | .vmul x => Sys2Proof.Machine.execVmul x s
  | .vmin x => Sys2Proof.Machine.execVmin x s
  | .vmax x => Sys2Proof.Machine.execVmax x s
  | .vand x => Sys2Proof.Machine.execVand x s
  | .vor x => Sys2Proof.Machine.execVor x s
  | .vxor x => Sys2Proof.Machine.execVxor x s
  | .vfma x => Sys2Proof.Machine.execVfma x s
  | .vshl x => Sys2Proof.Machine.execVshl x s
  | .vshr x => Sys2Proof.Machine.execVshr x s
  | .vcvt x => Sys2Proof.Machine.execVcvt x s
  | .vcmp x => Sys2Proof.Machine.execVcmp x s
  | .vsel x => Sys2Proof.Machine.execVsel x s
  | .plog x => Sys2Proof.Machine.execPlog x s
  | .vperm x => Sys2Proof.Machine.execVperm x s
  | .vredAdd x => Sys2Proof.Machine.execVredAdd x s
  | .vredMax x => Sys2Proof.Machine.execVredMax x s
  | .vexp2 x => Sys2Proof.Machine.execVexp2 x s
  | .vrcp x => Sys2Proof.Machine.execVrcp x s
  | .vrsqrt x => Sys2Proof.Machine.execVrsqrt x s
  | .vgth x => Sys2Proof.Machine.execVgth x s
  | .vsct x => Sys2Proof.Machine.execVsct x s
  | .tmma x => Sys2Proof.Machine.execTmma x s
  | .tzero x => Sys2Proof.Machine.execTzero x s
  | .tld x => Sys2Proof.Machine.execTld x s
  | .tst x => Sys2Proof.Machine.execTst x s
  | .tmx x => Sys2Proof.Machine.execTmx x s
  | .wclr x => Sys2Proof.Machine.execWclr x s
  | .waddF32 x => Sys2Proof.Machine.execWaddF32 x s
  | .wmacF32 x => Sys2Proof.Machine.execWmacF32 x s
  | .wcvt x => Sys2Proof.Machine.execWcvt x s
  | .wmrg x => Sys2Proof.Machine.execWmrg x s
  | .dmaIn x => Sys2Proof.Machine.execDmaIn x s
  | .dmaOut x => Sys2Proof.Machine.execDmaOut x s
  | .dmaGth x => Sys2Proof.Machine.execDmaGth x s
  | .dmaSct x => Sys2Proof.Machine.execDmaSct x s
  | .dmaWalk x => Sys2Proof.Machine.execDmaWalk x s
  | .dmaApp x => Sys2Proof.Machine.execDmaApp x s
  | .dmaWsend x => Sys2Proof.Machine.execDmaWsend x s
  | .dmaWait x => Sys2Proof.Machine.execDmaWait x s
  | .dmaRst x => Sys2Proof.Machine.execDmaRst x s
  | .dmaDescriptorDone cell desc => Sys2Proof.Machine.execDmaDescriptorDone cell desc s
  | .dmaElementFault cell desc element status => Sys2Proof.Machine.execDmaElementFault cell desc element status s
  | .lgtSend x => Sys2Proof.Machine.execLgtSend x s
  | .vsrScan x => Sys2Proof.Machine.execVsrScan x s
  | .vsrPut x => Sys2Proof.Machine.execVsrPut x s
  | .ctrRd u => Sys2Proof.Machine.execCtrRd u s
  | .ctrAdd u => Sys2Proof.Machine.execCtrAdd u s
  | .ctrWait u => Sys2Proof.Machine.execCtrWait u s
  | .semTake u => Sys2Proof.Machine.execSemTake u s
  | .semGive u => Sys2Proof.Machine.execSemGive u s
  | .barArv u => Sys2Proof.Machine.execBarArv u s
  | .barWait u => Sys2Proof.Machine.execBarWait u s
  | .qnAcq u => Sys2Proof.Machine.execQnAcq u s
  | .qnTry u => Sys2Proof.Machine.execQnTry u s
  | .qnRel u => Sys2Proof.Machine.execQnRel u s
  | .syncRd u => Sys2Proof.Machine.execSyncRd u s
  | .fence u => Sys2Proof.Machine.execFence u s
  | .syncInit src kind ownerKind owner value => Sys2Proof.Machine.execSyncInit src kind ownerKind owner value s
  | .syncFree src ref => Sys2Proof.Machine.execSyncFree src ref s
  | .ctlNop src => Sys2Proof.Machine.execCtlNop src s
  | .ctlStamp src => Sys2Proof.Machine.execCtlStamp src s
  | .commandFetch ctx queue => Sys2Proof.Machine.execCommandFetch ctx queue s
  | .doorbellCmdTail fn ctx queue value => Sys2Proof.Machine.execDoorbellCmdTail fn ctx queue value s
  | .doorbellCplHead fn ctx queue value => Sys2Proof.Machine.execDoorbellCplHead fn ctx queue value s
  | .doorbellOutHead fn ctx queue value => Sys2Proof.Machine.execDoorbellOutHead fn ctx queue value s
  | .partialTimeout ctx queue => Sys2Proof.Machine.execPartialTimeout ctx queue s
  | .ringReadFailure ctx queue => Sys2Proof.Machine.execRingReadFailure ctx queue s
  | .queueEnable ctx queue => Sys2Proof.Machine.execQueueEnable ctx queue s
  | .queueDisable ctx queue => Sys2Proof.Machine.execQueueDisable ctx queue s
  | .queueFlush ctx queue => Sys2Proof.Machine.execQueueFlush ctx queue s
  | .contextPurge fn ctx => Sys2Proof.Machine.execContextPurge fn ctx s
  | .sesCustMapWrite fn customer value => Sys2Proof.Machine.execSesCustMapWrite fn customer value s
  | .sesCtxPagesWrite fn ctx value => Sys2Proof.Machine.execSesCtxPagesWrite fn ctx value s
  | .galPartWrite fn part value => Sys2Proof.Machine.execGalPartWrite fn part value s
  | .galBudgetEnable customer => Sys2Proof.Machine.execGalBudgetEnable customer s
  | .galBudgetDepthWrite customer depth => Sys2Proof.Machine.execGalBudgetDepthWrite customer depth s
  | .camOwnerWrite fn bank ownerKind owner => Sys2Proof.Machine.execCamOwnerWrite fn bank ownerKind owner s
  | .registerWrite fn offset width value => Sys2Proof.Machine.execRegisterWrite fn offset width value s
  | .registerReadClear fn offset width => Sys2Proof.Machine.execRegisterReadClear fn offset width s
  | .registerLowHalfRead fn offset => Sys2Proof.Machine.execRegisterLowHalfRead fn offset s
  | .misalignedBar0Access fn offset width write => Sys2Proof.Machine.execMisalignedBar0Access fn offset width write s
  | .functionLevelReset fn => Sys2Proof.Machine.execFunctionLevelReset fn s
  | .pcieHotReset => Sys2Proof.Machine.execPcieHotReset s
  | .doeAbort fn => Sys2Proof.Machine.execDoeAbort fn s
  | .getVersion fn => Sys2Proof.Machine.execGetVersion fn s
  | .getCapabilities fn => Sys2Proof.Machine.execGetCapabilities fn s
  | .negotiateAlgorithms fn offered => Sys2Proof.Machine.execNegotiateAlgorithms fn offered s
  | .getDigests fn => Sys2Proof.Machine.execGetDigests fn s
  | .getCertificate fn slot offset len => Sys2Proof.Machine.execGetCertificate fn slot offset len s
  | .challenge fn slot nonce => Sys2Proof.Machine.execChallenge fn slot nonce s
  | .getMeasurements fn index => Sys2Proof.Machine.execGetMeasurements fn index s
  | .keyExchange fn exchange => Sys2Proof.Machine.execKeyExchange fn exchange s
  | .finish fn macOk => Sys2Proof.Machine.execFinish fn macOk s
  | .heartbeat fn => Sys2Proof.Machine.execHeartbeat fn s
  | .keyUpdate fn operation => Sys2Proof.Machine.execKeyUpdate fn operation s
  | .endSession fn => Sys2Proof.Machine.execEndSession fn s
  | .setCtk fn key => Sys2Proof.Machine.execSetCtk fn key s
  | .domainKeys fn wrap colophon composition debug gen signedByHeld => Sys2Proof.Machine.execDomainKeys fn wrap colophon composition debug gen signedByHeld s
  | .clearDomain fn => Sys2Proof.Machine.execClearDomain fn s
  | .debugUnlock fn serial startCount sigOk => Sys2Proof.Machine.execDebugUnlock fn serial startCount sigOk s
  | .getInfo => Sys2Proof.Machine.execGetInfo s
  | .readReg wValue wIndex wLength => Sys2Proof.Machine.execReadReg wValue wIndex wLength s
  | .writeReg wValue wIndex wLength value => Sys2Proof.Machine.execWriteReg wValue wIndex wLength value s
  | .getFirst => Sys2Proof.Machine.execGetFirst s
  | .bulkStart kind len wLength => Sys2Proof.Machine.execBulkStart kind len wLength s
  | .bulkTransferDone slot svn verified => Sys2Proof.Machine.execBulkTransferDone slot svn verified s
  | .getResult => Sys2Proof.Machine.execGetResult s
  | .reset wValue wIndex => Sys2Proof.Machine.execReset wValue wIndex s
  | .usbBusReset => Sys2Proof.Machine.execUsbBusReset s
  | .usbStageTimeout => Sys2Proof.Machine.execUsbStageTimeout s
  | .frameZeroing frame => Sys2Proof.Machine.execFrameZeroing frame s
  | .memoryScrub cell => Sys2Proof.Machine.execMemoryScrub cell s
  | .islandStateChoice island => Sys2Proof.Machine.execIslandStateChoice island s
  | .islandWake island => Sys2Proof.Machine.execIslandWake island s
  | .d1Entry => Sys2Proof.Machine.execD1Entry s
  | .eventEdge source => Sys2Proof.Machine.execEventEdge source s
  | .eventDelivery hub => Sys2Proof.Machine.execEventDelivery hub s
  | .evcTimerReached timer => Sys2Proof.Machine.execEvcTimerReached timer s
  | .energyTelemetry uj => Sys2Proof.Machine.execEnergyTelemetry uj s
  | .pwrfailNAsserted => Sys2Proof.Machine.execPwrfailNAsserted s
  | .pwrfailNDeasserted => Sys2Proof.Machine.execPwrfailNDeasserted s
  | .porstNAsserted => Sys2Proof.Machine.execPorstNAsserted s
  | .porstNReleased => Sys2Proof.Machine.execPorstNReleased s
  | .startPhaseAdvance => Sys2Proof.Machine.execStartPhaseAdvance s
  | .serdesReferenceAbsent hub => Sys2Proof.Machine.execSerdesReferenceAbsent hub s
  | .vinLow mv => Sys2Proof.Machine.execVinLow mv s
  | .vinHighWarning mv => Sys2Proof.Machine.execVinHighWarning mv s
  | .vinOvervoltage mv => Sys2Proof.Machine.execVinOvervoltage mv s
  | .railCollapse vin vsb => Sys2Proof.Machine.execRailCollapse vin vsb s
  | .thermtrip tj => Sys2Proof.Machine.execThermtrip tj s
  | .thermalThrottle tj hub => Sys2Proof.Machine.execThermalThrottle tj hub s
  | .thermalLimitAll tj hub => Sys2Proof.Machine.execThermalLimitAll tj hub s
  | .thermalLimitLift tj => Sys2Proof.Machine.execThermalLimitLift tj s
  | .holdUpStatusBad bay => Sys2Proof.Machine.execHoldUpStatusBad bay s
  | .deferredParkStart index => Sys2Proof.Machine.execDeferredParkStart index s
  | .syncMessageSend => Sys2Proof.Machine.execSyncMessageSend s
  | .pdelayReqSend port => Sys2Proof.Machine.execPdelayReqSend port s
  | .pdelayMessage port resp t1 t2 t3 t4 => Sys2Proof.Machine.execPdelayMessage port resp t1 t2 t3 t4 s
  | .deviceHeartbeatSend => Sys2Proof.Machine.execDeviceHeartbeatSend s
  | .pfcPauseExpiry port cls => Sys2Proof.Machine.execPfcPauseExpiry port cls s
  | .hostMemoryReadTimeout src => Sys2Proof.Machine.execHostMemoryReadTimeout src s
  | .pcieLinkRetrain lanes => Sys2Proof.Machine.execPcieLinkRetrain lanes s
  | .srIovVfEnable fn enable => Sys2Proof.Machine.execSrIovVfEnable fn enable s
  | .illegalInstruction x opcode ext => Sys2Proof.Machine.execIllegalInstruction x opcode ext s
  | .unsupportedManagementRequest bRequest bmRequestType wLength => Sys2Proof.Machine.execUnsupportedManagementRequest bRequest bmRequestType wLength s
  | .testPortInstruction code => Sys2Proof.Machine.execTestPortInstruction code s
  | .standbyRailUp vsb => Sys2Proof.Machine.execStandbyRailUp vsb s
  | .lenderReclaimSweep borrower => Sys2Proof.Machine.execLenderReclaimSweep borrower s

end Sys2Proof.Machine
end

