-- ==== Sys2Proof/Machine/Canon.lean ====
section
/-! DEFINITION. The canonical form of a state: what makes equal registers and memories equal data. -/

namespace Sys2Proof.Machine

/-- The canonical form of the registers: offsets strictly rising, no entry at its reset value. -/
def RegsWf (m : Map Word) : Prop := mwf m = true ∧ ∀ e ∈ m, e.2 ≠ resetWord e.1

/-- The canonical form of a state: its registers, its host memory and its HBM each hold nothing that an unlisted place reads
as, in strictly rising order. -/
structure Canonical (s : State) : Prop where
  regs : RegsWf s.regs
  mem  : Memory.wf s.host.mem = true
  hbm  : Memory.wf s.hbm = true

end Sys2Proof.Machine
end

