-- ==== Sys2Proof/Safety.lean ====
section
/-! DEFINITION. What counts as a safe step, and the terms the claims use: when a command of each kind runs, and how its outcome
is said. -/

namespace Sys2Proof

open Machine

/-- The step of a state answers a next state. -/
def SafeStep (s : State) : Prop := ∃ t, step s = .next t

/-- A command runs in a state: it answers a next state. -/
def Runs (c : Instr) (s : State) : Prop := ∃ t, exec c s = .next t

/-- A command ends in a state of which a claim holds. -/
def Ends (c : Instr) (s : State) (p : State → Prop) : Prop := ∃ t, exec c s = .next t ∧ p t

/-! ### Cell items -/

/-- A cell item of `ext` extension words executes: its cell exists (R12), runs and waits for nothing, and its words lie in the
window of its galley (R198). -/
def CellGo (s : State) (x : CellItem) (ext : Nat) : Prop :=
  x.cell < 1920 ∧ (s.cell x.cell).run = .running ∧ (s.cell x.cell).wait = none ∧ fetchOk s (s.cell x.cell) ext = true

/-- A cell item completes, and all it changes is its own cell, which becomes `c` with the pc after the item. -/
def CellNext (i : Instr) (s : State) (x : CellItem) (ext : Nat) (c : Cell) : Prop :=
  exec i s = .next (s.setCell x.cell { c with pc := ((s.cell x.cell).pc + 1 + ext) % 4096 })

/-- The same, with free values drawn on the way. -/
def CellDraws (i : Instr) (s : State) (x : CellItem) (ext : Nat) (n : Nat) (c : Cell) : Prop :=
  exec i s = .next (({ s with freeCtr := s.freeCtr + n } : State).setCell x.cell
    { c with pc := ((s.cell x.cell).pc + 1 + ext) % 4096 })

/-- The exception `code` that a cell meets, when it is handled: EXC, EPC and EXC_ACTIVE are written and the cell goes on at the
vector (R270); all that changes is the cell. -/
def CellTraps (i : Instr) (s : State) (x : CellItem) (code : Nat) : Prop :=
  exec i s = .next (s.setCell x.cell { s.cell x.cell with
    status := putField (putField (s.cell x.cell).status 32 5 code) 37 1 1, epc := (s.cell x.cell).pc,
    pc := ((cellWindow s (s.cell x.cell)).1 + code) % 4096 })

/-- Relation FN of R241 between two numbers: eq, ne, lt, ge, le, gt. -/
def relates (fn : Nat) (a b : Int) : Bool :=
  match fn with
  | 0 => decide (a = b)
  | 1 => decide (a ≠ b)
  | 2 => decide (a < b)
  | 3 => decide (b ≤ a)
  | 4 => decide (a ≤ b)
  | _ => decide (b < a)

/-- A range of cell memory that a program may read now: inside what loads may touch, aligned, held by no descriptor in flight,
without poisoned or weak units (R193, R242, R247, R197). -/
def CellReads (s : State) (c : Cell) (a n align : Nat) : Prop :=
  a + n ≤ 0x3C0000 ∧ a % align = 0 ∧ mustWait (cellModel s c) c a n false = false ∧
  (∀ u ∈ memUnits a n, u ∉ c.poison) ∧ (∀ u ∈ memUnits a n, u ∉ c.weak)

/-- A range of cell memory that a program may write now. -/
def CellWrites (s : State) (c : Cell) (a n align : Nat) : Prop :=
  a + n ≤ 0x3C0000 ∧ a % align = 0 ∧ mustWait (cellModel s c) c a n true = false

/-- Lane `i` of a vector register. -/
def lane (c : Cell) (n i : Nat) : BitVec 32 := (vreg c n).getD i 0

/-- A vector item completes: lane by lane vD takes `r` where the bit of pP is 1, and elsewhere keeps its value or, with PZ, is zero
(R234); nothing else of the device changes. -/
def LanesNext (i : Instr) (s : State) (x : CellItem) (r : Nat → BitVec 32) : Prop :=
  ∃ l : List (BitVec 32), l.length = 64 ∧ CellNext i s x 0 (setV (s.cell x.cell) x.d l) ∧
    ∀ k, k < 64 → l.getD k 0 =
      if (preg (s.cell x.cell) x.p).getLsbD k then r k else if x.pz then 0 else lane (s.cell x.cell) x.d k

/-- The same, with the arithmetic flags of the lanes that act raised in the status register (R208, R211). -/
def FlaggedLanesNext (i : Instr) (s : State) (x : CellItem) (r : Nat → FRes) : Prop :=
  ∃ (l : List (BitVec 32)) (f : Nat), l.length = 64 ∧ CellNext i s x 0 (raise (setV (s.cell x.cell) x.d l) f) ∧
    (∀ k, k < 64 → l.getD k 0 =
      if (preg (s.cell x.cell) x.p).getLsbD k then BitVec.ofNat 32 (r k).1 else if x.pz then 0 else lane (s.cell x.cell) x.d k) ∧
    ∀ j, f.testBit j = true ↔ ∃ k, k < 64 ∧ (preg (s.cell x.cell) x.p).getLsbD k = true ∧ (r k).2.testBit j = true

/-- The tree of vred.add (R218): s_L[i] = s_(L−1)[2i] + s_(L−1)[2i + 1], each addition rounded; with the flags of the additions. -/
def treeSum (md : RMode) (lanes : Nat → Nat) : Nat → Nat → FRes
  | 0, i => (lanes i, 0)
  | level + 1, i =>
    let a := treeSum md lanes level (2 * i)
    let b := treeSum md lanes level (2 * i + 1)
    let r := fAdd fmt32 md a.1 b.1
    (r.1, r.2 ||| a.2 ||| b.2)

/-- Descriptor D of a dma instruction starts with the operands of R254, and nothing else of the device changes. -/
def Starts (i : Instr) (s : State) (x : CellItem) (ext : Nat) (d : Desc) : Prop :=
  CellNext i s x ext (setDesc (s.cell x.cell) x.d d)

/-! ### Control items -/

/-- A control item runs: READY is set and its context is not being purged (R561, R581). -/
def ItemGo (s : State) (src : Src) : Prop :=
  s.flag (HIF_CTX_CTL_PURGING src.ctx) = false ∧ s.fld GLB_STATE_READY ≠ 0

/-- An item's effect is `t`, and it completes there with a status, result, object and tag (R535). -/
def Completes (i : Instr) (s : State) (src : Src) (op status : Nat) (result object tag : Word) (t : State) : Prop :=
  exec i s = .next (complete t src op status result object tag)

/-- A handle that a session item accepts: it names this device and session `e` at index `i`, whose entry is sound and answers
the item's context, and which has not moved (R39, R41, R45). -/
def Handle (s : State) (src : Src) (h : Word) (i : Nat) (e : Session) : Prop :=
  bits h.toNat 48 16 = s.devAddr ∧ bits h.toNat 24 24 = i ∧ s.ses? i = some e ∧ answers e (bits h.toNat 0 24) src.ctx = true ∧
  e.checkBad = false ∧ e.moved = false

end Sys2Proof
end

