-- ==== Sys2Proof/Certificates/Slice0/Obligations.lean ====
section
/-! DEFINITION. The statements about the model, for the provers. -/

open Sys2Proof Sys2Proof.Machine

/-- A step takes the command at the front of the queue and runs it on the state with the rest of the queue. -/
def Obligations.StepRunsTheFrontCommand : Prop :=
  ∀ (c : Instr) (s : State), step { s with pending := c :: s.pending } = exec c s

/-- With no command waiting, a step lets one nanosecond of device time pass while the part is out of reset (the model's choice,
log entry 1; R6, R23), and nothing else changes. -/
def Obligations.EmptyQueueCountsATick : Prop :=
  ∀ s : State, s.pending = [] → s.clk.slew = 0 →
    (s.pins.porstN = true → s.pins.ovHold = false → step s = .next { s with clk := { s.clk with now := s.clk.now + 1 } }) ∧
    (s.pins.porstN = false ∨ s.pins.ovHold = true → step s = .next s)

/-- After reset nothing waits, the state is canonical, the device is held in D3 and START_PHASE 0x0 with READY clear (R583, R28). -/
def Obligations.ResetIsCanonical : Prop :=
  State.reset.pending = [] ∧ Canonical State.reset ∧ State.reset.pins.porstN = false ∧
  State.reset.fld GLB_STATE_DEV_STATE = 3 ∧ State.reset.fld GLB_STATE_START_PHASE = 0 ∧ State.reset.fld GLB_STATE_READY = 0

/-- Every step of every canonical state that answers a next state answers a canonical one: equal registers and equal memories stay
equal data, whatever the command. -/
def Obligations.EveryStepKeepsTheStateCanonical : Prop :=
  ∀ s t : State, Canonical s → step s = .next t → Canonical t

/-- The queue after a step is the queue before it without its front: first in, first out, whatever the commands do. -/
def Obligations.NoCommandTouchesTheQueue : Prop :=
  ∀ s t : State, Canonical s → step s = .next t → t.pending = s.pending.tail

/-- nop, sadd, ssub, smul, sand, sor, sxor, shl, shr, sra and li: sD takes the value of R241, the second operand being sB plus the
sign-extended IMM; nothing else of the device changes, and a write of s0 is discarded (R238).
cmp.T: the condition FN on sA and sB + IMM, signed or unsigned as T is (R241); any other T or FN is an illegal operand. -/
def Obligations.ScalarAndCompareItems : Prop :=
  (∀ (s : State) (x : CellItem),
     let c := s.cell x.cell
     let a := sreg c x.a
     let b := sreg c x.b + x.imm.signExtend 64
     (CellGo s x 0 →
       CellNext (.nop x) s x 0 c ∧
       CellNext (.sadd x) s x 0 (setS c x.d (a + b)) ∧
       CellNext (.ssub x) s x 0 (setS c x.d (a - b)) ∧
       CellNext (.smul x) s x 0 (setS c x.d (a * b)) ∧
       CellNext (.sand x) s x 0 (setS c x.d (a &&& b)) ∧
       CellNext (.sor x) s x 0 (setS c x.d (a ||| b)) ∧
       CellNext (.sxor x) s x 0 (setS c x.d (a ^^^ b)) ∧
       CellNext (.shl x) s x 0 (setS c x.d (a <<< (b.toNat % 64))) ∧
       CellNext (.shr x) s x 0 (setS c x.d (a >>> (b.toNat % 64))) ∧
       CellNext (.sra x) s x 0 (setS c x.d (a.sshiftRight (b.toNat % 64)))) ∧
     (CellGo s x 1 → CellNext (.li x) s x 1 (setS c x.d x.w1))) ∧
  (∀ (s : State) (x : CellItem), CellGo s x 0 →
     let c := s.cell x.cell
     let a := sreg c x.a
     let b := sreg c x.b + x.imm.signExtend 64
     (x.fn ≤ 5 → x.t ∈ [16, 18, 20, 22] →
       CellNext (.cmp x) s x 0 (setS c x.d (if relates x.fn a.toInt b.toInt then 1 else 0))) ∧
     (x.fn ≤ 5 → x.t ∈ [17, 19, 21, 23] →
       CellNext (.cmp x) s x 0 (setS c x.d (if relates x.fn a.toNat b.toNat then 1 else 0))) ∧
     (5 < x.fn ∨ x.t < 16 ∨ 23 < x.t → handled c 2 = true → CellTraps (.cmp x) s x 2))



/-- ld.T and st.T of every integer type: the value at sA + IMM extended by T's sign, the low bytes of sB stored there (R235, R241);
a store leaves every byte outside its range, and no register changes. -/
def Obligations.ScalarLoadsAndStores : Prop :=
  ∀ (s : State) (x : CellItem) (w : Nat) (signed : Bool), CellGo s x 0 →
    (x.t, w, signed) ∈ [(16, 1, true), (17, 1, false), (18, 2, true), (19, 2, false), (20, 4, true), (21, 4, false),
      (22, 8, true), (23, 8, false)] →
    let c := s.cell x.cell
    let a := (sreg c x.a + x.imm.signExtend 64).toNat
    (CellReads s c a w w →
      CellNext (.ld x) s x 0 (setS c x.d (if signed then (BitVec.ofNat (8 * w) (rdLE c.mem a w)).signExtend 64
        else BitVec.ofNat 64 (rdLE c.mem a w)))) ∧
    (CellWrites s c a w w → ∃ c' : Cell, CellNext (.st x) s x 0 c' ∧
      (∀ b, (b < a ∨ a + w ≤ b) → rdByte c'.mem b = rdByte c.mem b) ∧
      (Memory.wf c.mem = true → rdLE c'.mem a w = (sreg c x.b).toNat % 2 ^ (8 * w)) ∧
      c'.s = c.s ∧ c'.v = c.v ∧ c'.p = c.p ∧ c'.t = c.t ∧ c'.w = c.w ∧ c'.status = c.status ∧ c'.epc = c.epc ∧
      c'.desc = c.desc ∧ c'.run = c.run)

/-- An address out of range (code 3) or, within range, misaligned (code 4), where the cell handles that code: the exception is entered
and nothing but EXC, EPC, EXC_ACTIVE and the pc changes (R193, R242, R270). -/
def Obligations.MisplacedAccessesTrap : Prop :=
  ∀ (s : State) (x : CellItem) (w : Nat) (signed : Bool), CellGo s x 0 →
    let c := s.cell x.cell
    let a := (sreg c x.a + x.imm.signExtend 64).toNat
    let b := (sreg c x.a).toNat
    let meets (i : Instr) (a n align : Nat) : Prop :=
      (handled c 3 = true → 0x3C0000 < a + n → CellTraps i s x 3) ∧
      (handled c 4 = true → a + n ≤ 0x3C0000 → a % align ≠ 0 → CellTraps i s x 4)
    ((x.t, w, signed) ∈ [(16, 1, true), (17, 1, false), (18, 2, true), (19, 2, false), (20, 4, true), (21, 4, false),
      (22, 8, true), (23, 8, false)] → meets (.ld x) a w w ∧ meets (.st x) a w w) ∧
    meets (.vld x) a 256 16 ∧ meets (.vst x) a 256 16 ∧
    (x.d ≤ 7 → meets (.tld x) b 4096 256 ∧ meets (.tst x) b 4096 256)

/-- br, bc, call, jr and eret (R241, R270). Where signed and unsigned order differ the outcome of bc is free (log entry 12). -/
def Obligations.BranchItemsMoveThePc : Prop :=
  ∀ (s : State) (x : CellItem), CellGo s x 0 →
    let c := s.cell x.cell
    let a := sreg c x.a
    let b := sreg c x.b
    let target := (BitVec.ofNat 64 c.pc + x.imm.signExtend 64).toNat % 4096
    let goes (i : Instr) (c' : Cell) (pc : Nat) : Prop := exec i s = .next (s.setCell x.cell { c' with pc := pc % 4096 })
    goes (.br x) c target ∧
    goes (.call x) (setS c x.d (BitVec.ofNat 64 (c.pc + 1))) target ∧
    goes (.jr x) c a.toNat ∧
    goes (.eret x) { c with status := putField c.status 37 1 0 } (if bits c.status.toNat 32 5 = 9 then c.epc + 1 else c.epc) ∧
    (x.fn ≤ 5 → relates x.fn a.toInt b.toInt = true → relates x.fn a.toNat b.toNat = true → goes (.bc x) c target) ∧
    (x.fn ≤ 5 → relates x.fn a.toInt b.toInt = false → relates x.fn a.toNat b.toNat = false → goes (.bc x) c (c.pc + 1))

/-- trap takes exception 9, an item whose opcode the cell profile does not have exception 1, an item whose words leave the window
exception 3 (R198, R230, R270); unhandled, the cell is stopped with EXC and EPC written (R271). -/
def Obligations.TrapsAndIllegalItemsEnterTheirVector : Prop :=
  ∀ (s : State) (x : CellItem) (op ext : Nat),
    let c := s.cell x.cell
    (CellGo s x 0 → handled c 9 = true → CellTraps (.trap x) s x 9) ∧
    (CellGo s x ext → extOf op = none → handled c 1 = true → CellTraps (.illegalInstruction x op ext) s x 1) ∧
    (x.cell < 1920 → c.run = .running → c.wait = none → fetchOk s c 0 = false → handled c 3 = true →
      CellTraps (.sadd x) s x 3 ∧ CellTraps (.trap x) s x 3) ∧
    (CellGo s x 0 → handled c 9 = false → ∃ u : State, exec (.trap x) s = .next (abandonGalley u c.part c.slice) ∧
      u.cell x.cell = { c with status := putField c.status 32 5 9, epc := c.pc, run := .stopped })

/-- rdsr and wrsr (R240): each register's contents, and, bit by bit, what a write of the status register leaves (R208, R239). -/
def Obligations.SpecialRegistersReadAndWrite : Prop :=
  ∀ (s : State) (x : CellItem), CellGo s x 0 →
    let c := s.cell x.cell
    let v := sreg c x.a
    let reads (k : Nat) (w : Word) : Prop := x.imm = BitVec.ofNat 20 k → CellNext (.rdsr x) s x 0 (setS c x.d w)
    reads 0 (BitVec.ofNat 64 s.clk.now) ∧ reads 1 (BitVec.ofNat 64 x.cell) ∧ reads 2 (BitVec.ofNat 64 (cellInstar s x.cell)) ∧
    reads 3 (BitVec.ofNat 64 (c.part + c.slice % 4 * 16)) ∧ reads 4 (BitVec.ofNat 64 c.rank) ∧ reads 5 (BitVec.ofNat 64 c.cells) ∧
    reads 0x0A c.status ∧ reads 0x0B (BitVec.ofNat 64 c.epc) ∧ reads 0x0C 0 ∧ reads 0x1F 0 ∧ reads 0x40 0 ∧
    (x.imm = 0x0A → ∃ st : Word, CellNext (.wrsr x) s x 0 { c with status := st } ∧
      ∀ i, i < 64 → st.getLsbD i =
        if i < 3 ∨ (49 ≤ i ∧ i ≤ 52) ∨ (54 ≤ i ∧ i ≤ 57) then v.getLsbD i
        else if (8 ≤ i ∧ i ≤ 13) ∨ (16 ≤ i ∧ i ≤ 31) then c.status.getLsbD i && !v.getLsbD i
        else c.status.getLsbD i) ∧
    (x.imm = 0x0B → CellNext (.wrsr x) s x 0 { c with epc := v.toNat % 4096 }) ∧
    (x.imm ≠ 0x0A → x.imm ≠ 0x0B → CellNext (.wrsr x) s x 0 c)

/-- gal.rec: the next record's index, or COUNT (R244). step.done: the cell idles and its galley records it (R245). dft.write: the
status in sD, and the slot's draft (05 R173). -/
def Obligations.StepProgramItemsReadTheGalley : Prop :=
  ∀ (s : State) (x : CellItem),
    let c := s.cell x.cell
    let sl := 4 * c.part + c.slice
    (∀ g : Galley, CellGo s x 0 → c.slice < 4 → (s.slice sl).running = some g →
      (x.d ≤ 27 → fetchRec g (sreg c x.a).toNat = none →
        CellNext (.galRec x) s x 0 (setS c x.d (BitVec.ofNat 64 (galCount g)))) ∧
      (∀ i ws, x.d ≤ 27 → fetchRec g (sreg c x.a).toNat = some (i, ws) → ws.length ≤ 4 →
        ∃ c' : Cell, CellNext (.galRec x) s x 0 c' ∧ sreg c' x.d = (if x.d = 0 then 0 else BitVec.ofNat 64 i) ∧
          (∀ k, k < ws.length → sreg c' (x.d + 1 + k) = ws.getD k 0) ∧
          (∀ r, (r < x.d ∨ x.d + 1 + ws.length ≤ r) → sreg c' r = sreg c r) ∧ c'.mem = c.mem ∧ c'.v = c.v) ∧
      Ends (.stepDone x) s fun t => (t.cell x.cell).run = .idle ∧
        (t.slice sl).running = some { g with done := g.done ++ [x.cell] } ∧ t.regs = s.regs ∧ t.ses = s.ses) ∧
    (∀ (e : Session) (y z : Slot), CellGo s x 1 →
      let h := sreg c x.a
      let n := (sreg c x.c).toNat
      let a := bits x.w1.toNat 0 22
      bits h.toNat 48 16 = s.devAddr → s.ses? (bits h.toNat 24 24) = some e → e.instar = bits h.toNat 0 24 →
      (e.seqValid = false → CellNext (.dftWrite x) s x 1 (setS c x.d 0x2004)) ∧
      (e.seqValid = true → mget s.gal.slots e.seqSlot = some y → 1 ≤ n → n ≤ 16 → a + 4 * n ≤ 0x3C0000 →
        draftWrite y e.tokens ((sreg c x.b).toNat % 2 ^ 32) (wordsOf (rdBytes c.mem a (4 * n))) = some z →
        exec (.dftWrite x) s = .next ((s.setSlot e.seqSlot z).setCell x.cell
          { setS c x.d (BitVec.ofNat 64 (z.draftReady * 2 ^ 16)) with pc := (c.pc + 2) % 4096 })))

/-- vbc, vmov, vperm, vand, vor, vxor and vsel (R234, R241), and plog: and, or, xor, and-not, not. -/
def Obligations.VectorRegisterItemsAct : Prop :=
  ∀ (s : State) (x : CellItem), CellGo s x 0 →
    let c := s.cell x.cell
    LanesNext (.vbc x) s x (fun _ => (sreg c x.a).setWidth 32) ∧
    LanesNext (.vmov x) s x (lane c x.a) ∧
    LanesNext (.vperm x) s x (fun k => lane c x.a ((lane c x.b k).toNat % 64)) ∧
    (x.t ∈ [0, 1, 2, 16, 17, 18, 19, 20, 21] →
      LanesNext (.vand x) s x (fun k => lane c x.a k &&& lane c x.b k) ∧
      LanesNext (.vor x) s x (fun k => lane c x.a k ||| lane c x.b k) ∧
      LanesNext (.vxor x) s x (fun k => lane c x.a k ^^^ lane c x.b k)) ∧
    (∃ l : List (BitVec 32), l.length = 64 ∧ CellNext (.vsel x) s x 0 (setV c x.d l) ∧
      ∀ k, k < 64 → l.getD k 0 = if (preg c x.p).getLsbD k then lane c x.a k else lane c x.b k) ∧
    (x.d ≤ 7 → x.a ≤ 7 → x.b ≤ 7 → x.fn ≤ 4 → ∃ w : Word, CellNext (.plog x) s x 0 (setP c x.d w) ∧
      ∀ k, k < 64 → w.getLsbD k =
        match x.fn with
        | 0 => (preg c x.a).getLsbD k && (preg c x.b).getLsbD k
        | 1 => (preg c x.a).getLsbD k || (preg c x.b).getLsbD k
        | 2 => (preg c x.a).getLsbD k != (preg c x.b).getLsbD k
        | 3 => (preg c x.a).getLsbD k && !(preg c x.b).getLsbD k
        | _ => !(preg c x.a).getLsbD k)

/-- vadd, vsub, vmul, vfma, vmin, vmax under RM and SAT, vexp2, vrcp, vrsqrt under RNE, on the three formats (R217, R219, R601). -/
def Obligations.VectorFloatItemsRoundOnce : Prop :=
  ∀ (s : State) (x : CellItem) (f : Fmt), CellGo s x 0 → (x.t, f) ∈ [(0, fmt32), (1, fmt16), (2, fmtBf)] →
    let c := s.cell x.cell
    let md := modeOf c.status
    let md0 := rneOf c.status
    let each (op : Nat → Nat → Nat → FRes) (k : Nat) : FRes := packLane f op (lane c x.a k) (lane c x.b k) (lane c x.c k)
    FlaggedLanesNext (.vadd x) s x (each fun a b _ => fAdd f md a b) ∧
    FlaggedLanesNext (.vsub x) s x (each fun a b _ => fSub f md a b) ∧
    FlaggedLanesNext (.vmul x) s x (each fun a b _ => fMul f md a b) ∧
    FlaggedLanesNext (.vfma x) s x (each fun a b d => fFma f md a b d) ∧
    FlaggedLanesNext (.vmin x) s x (each fun a b _ => fMinMax f false a b) ∧
    FlaggedLanesNext (.vmax x) s x (each fun a b _ => fMinMax f true a b) ∧
    FlaggedLanesNext (.vexp2 x) s x (each fun a _ _ => fExp2 f md0 a) ∧
    FlaggedLanesNext (.vrcp x) s x (each fun a _ _ => fRcp f md0 a) ∧
    FlaggedLanesNext (.vrsqrt x) s x (each fun a _ _ => fRsqrt f md0 a)

/-- vadd, vsub, vmul, vmin, vmax, vshl, vshr on the integer types of up to 32 bits (R241, R601; the narrow lanes' upper bits are
the model's choice, log entry 33); other types are illegal operands (R235). -/
def Obligations.VectorIntegerItemsWrap : Prop :=
  ∀ (s : State) (x : CellItem), CellGo s x 0 →
    let c := s.cell x.cell
    (∀ (w : Nat) (signed : Bool),
      (x.t, w, signed) ∈ [(16, 8, true), (17, 8, false), (18, 16, true), (19, 16, false), (20, 32, true), (21, 32, false)] →
      let v (l : BitVec 32) : Int := if signed then (l.setWidth w).toInt else ((l.setWidth w).toNat : Int)
      let put (z : Int) : BitVec 32 := if signed then (BitVec.ofInt w z).signExtend 32 else (BitVec.ofInt w z).setWidth 32
      let a (k : Nat) : Int := v (lane c x.a k)
      let b (k : Nat) : Int := v (lane c x.b k)
      let n (k : Nat) : Nat := (lane c x.b k).toNat % 32
      LanesNext (.vadd x) s x (fun k => put (a k + b k)) ∧
      LanesNext (.vsub x) s x (fun k => put (a k - b k)) ∧
      LanesNext (.vmul x) s x (fun k => put (a k * b k)) ∧
      LanesNext (.vmin x) s x (fun k => put (if a k ≤ b k then a k else b k)) ∧
      LanesNext (.vmax x) s x (fun k => put (if a k ≤ b k then b k else a k)) ∧
      LanesNext (.vshl x) s x (fun k => put (a k * 2 ^ n k)) ∧
      LanesNext (.vshr x) s x (fun k => put (a k / 2 ^ n k))) ∧
    (handled c 2 = true → 3 ≤ x.t → x.t ≤ 15 ∨ 22 ≤ x.t →
      CellTraps (.vadd x) s x 2 ∧ CellTraps (.vmin x) s x 2 ∧ CellTraps (.vand x) s x 2 ∧ CellTraps (.vshl x) s x 2 ∧
      CellTraps (.vshr x) s x 2) ∧
    (handled c 2 = true → 3 ≤ x.t → CellTraps (.vfma x) s x 2 ∧ CellTraps (.vexp2 x) s x 2 ∧ CellTraps (.vrcp x) s x 2 ∧
      CellTraps (.vrsqrt x) s x 2)

/-- vred.add is the tree of R218; vred.max is exact: NaN if an active lane is NaN, −∞ if none is active, else the encoding of an
active lane that every active lane is at or below.
The special inputs of the defined functions in the three formats, under RNE whatever SAT holds (R219), and its worked values. -/
def Obligations.ReductionsAndDefinedFunctions : Prop :=
  (∀ (s : State) (x : CellItem), CellGo s x 0 →
     let c := s.cell x.cell
     let on (k : Nat) : Prop := k < 64 ∧ (preg c x.p).getLsbD k = true
     let bitsOf (k : Nat) : Nat := (lane c x.a k).toNat
     (let r := treeSum (modeOf c.status) (fun k => if (preg c x.p).getLsbD k then bitsOf k else 0x80000000) 6 0
      CellNext (.vredAdd x) s x 0 (raise (setS c x.d (BitVec.ofNat 64 r.1)) r.2)) ∧
     (∃ m f : Nat, CellNext (.vredMax x) s x 0 (raise (setS c x.d (BitVec.ofNat 64 m)) f) ∧
       ((∃ k, on k ∧ decodeF fmt32 (bitsOf k) = .nan) → m = 0x7FC00000) ∧
       ((∀ k, ¬ on k) → m = 0xFF800000 ∧ f = 0) ∧
       ((∃ k, on k) → (∀ k, on k → decodeF fmt32 (bitsOf k) ≠ .nan) →
         f = 0 ∧ (∃ k, on k ∧ m = bitsOf k) ∧ ∀ k, on k → leNum (decodeF fmt32 (bitsOf k)) (decodeF fmt32 m) = true))) ∧
  ((∀ (f : Fmt) (sat : Bool) (a : Nat), f ∈ [fmt32, fmt16, fmtBf] →
     let md : RMode := ⟨0, sat⟩
     (decodeF f a = .nan → (fExp2 f md a).1 = nanBits f ∧ (fRcp f md a).1 = nanBits f ∧ (fRsqrt f md a).1 = nanBits f) ∧
     (decodeF f a = .inf true →
       fExp2 f md a = (0, 0) ∧ fRcp f md a = (signBit f true, 0) ∧ fRsqrt f md a = (nanBits f, fINVALID)) ∧
     (decodeF f a = .inf false → fExp2 f md a = (infBits f false, 0) ∧ fRcp f md a = (0, 0) ∧ fRsqrt f md a = (0, 0)) ∧
     (∀ m e, m ≠ 0 → decodeF f a = .fin true m e → fRsqrt f md a = (nanBits f, fINVALID)) ∧
     (∀ neg e, decodeF f a = .fin neg 0 e →
       fExp2 f md a = (f.bias * 2 ^ f.mbits, 0) ∧ fRcp f md a = (infBits f neg, fDIVZERO) ∧
       fRsqrt f md a = (infBits f neg, fDIVZERO))) ∧
   (fExp2 fmt32 rne 0x3F000000).1 = 0x3FB504F3 ∧ (fRcp fmt32 rne 0x40400000).1 = 0x3EAAAAAB ∧
   (fRsqrt fmt32 rne 0x40000000).1 = 0x3F3504F3 ∧ (fExp2 fmt32 rne 0xC3150000).1 = 1 ∧
   fExp2 fmt32 rne 0xC3160000 = (0, fUNDERFLOW ||| fINEXACT) ∧ (fExp2 fmt32 rne 0x43000000).1 = 0x7F800000 ∧
   (fExp2 fmt32 ⟨0, true⟩ 0x43000000).1 = 0x7F7FFFFF)



/-- vcvt (R602): its lanes, and what a conversion to an integer gives; vcmp (R241) on binary32 and the lane integers, written under
pP and PZ, the flags those of signalling NaNs. -/
def Obligations.ConversionsSaturateToIntegers : Prop :=
  (∀ (s : State) (x : CellItem), CellGo s x 0 →
    let c := s.cell x.cell
    let md := modeOf c.status
    (cvtOk x.fn x.t = true → ∃ (l : List (BitVec 32)) (f : Nat), l.length = 64 ∧
      CellDraws (.vcvt x) s x 0 64 (raise (setV c x.d l) f) ∧
      ∀ k, k < 64 →
        let r := cvtLane md x.fn x.t (lane c x.a k)
        if (preg c x.p).getLsbD k then
          (if r.2 then (l.getD k 0).toNat % 65536 = r.1.1 % 65536 else l.getD k 0 = BitVec.ofNat 32 r.1.1)
        else l.getD k 0 = if x.pz then 0 else lane c x.d k) ∧
    (x.t ∈ [0, 1, 2, 16, 17, 18, 19, 20, 21] → x.d ≤ 7 → x.fn ≤ 5 →
      ∃ (w : Word) (f : Nat), CellDraws (.vcmp x) s x 0 1 (raise (setP c x.d w) f) ∧ ∀ k, k < 64 →
        let r := cmpLane x.t x.fn (lane c x.a k) (lane c x.b k)
        if (preg c x.p).getLsbD k then r.1 = r.2.1 → w.getLsbD k = r.1
        else w.getLsbD k = if x.pz then false else (preg c x.d).getLsbD k)) ∧
  (∀ (fn : Nat) (a b : BitVec 32), fn ≤ 5 →
    (∀ (t w : Nat) (signed : Bool),
      (t, w, signed) ∈ [(16, 8, true), (17, 8, false), (18, 16, true), (19, 16, false), (20, 32, true), (21, 32, false)] →
      let v (l : BitVec 32) : Int := if signed then (l.setWidth w).toInt else ((l.setWidth w).toNat : Int)
      cmpLane t fn a b = (relates fn (v a) (v b), relates fn (v a) (v b), 0)) ∧
    (decodeF fmt32 a.toNat = .nan ∨ decodeF fmt32 b.toNat = .nan → (cmpLane 0 fn a b).1 = decide (fn = 1))) ∧
  (∀ (md : RMode) (w : Nat) (signed : Bool) (a : Nat), 0 < w →
    let lo : Int := if signed then -(2 ^ (w - 1)) else 0
    let hi : Int := if signed then 2 ^ (w - 1) - 1 else 2 ^ w - 1
    (decodeF fmt32 a = .nan → toIntF fmt32 md w signed a = (0, fINVALID)) ∧
    (∀ neg, decodeF fmt32 a = .inf neg → toIntF fmt32 md w signed a = (((if neg then lo else hi) % 2 ^ w).toNat, fINVALID)) ∧
    (∀ neg m e, decodeF fmt32 a = .fin neg m e → 0 ≤ e →
      let v := smant neg (m * 2 ^ e.toNat)
      (lo ≤ v → v ≤ hi → toIntF fmt32 md w signed a = ((v % 2 ^ w).toNat, 0)) ∧
      (v < lo → toIntF fmt32 md w signed a = ((lo % 2 ^ w).toNat, fINVALID)) ∧
      (hi < v → toIntF fmt32 md w signed a = ((hi % 2 ^ w).toNat, fINVALID))))

/-- vld, vst, vgth and vsct (R241, R260): lane by lane under pP; a store changes only the words of its active lanes, and of two vsct
lanes at one address the higher stands. -/
def Obligations.VectorMemoryItemsMoveLanes : Prop :=
  ∀ (s : State) (x : CellItem), CellGo s x 0 →
    let c := s.cell x.cell
    let a := (sreg c x.a + x.imm.signExtend 64).toNat
    let on (k : Nat) : Prop := k < 64 ∧ (preg c x.p).getLsbD k = true
    let at_ (k : Nat) : Nat := (lane c x.a k).toNat
    let fresh : Prop := c.epc = c.pc → bits c.status.toNat 38 6 = 0
    let same (c' : Cell) : Prop := c'.s = c.s ∧ c'.v = c.v ∧ c'.p = c.p ∧ c'.t = c.t ∧ c'.w = c.w ∧ c'.status = c.status ∧
      c'.epc = c.epc ∧ c'.desc = c.desc ∧ c'.run = c.run
    (CellReads s c a 256 16 → LanesNext (.vld x) s x (fun k => BitVec.ofNat 32 (rdLE c.mem (a + 4 * k) 4))) ∧
    (CellWrites s c a 256 16 → Memory.wf c.mem = true → ∃ c' : Cell, CellNext (.vst x) s x 0 c' ∧ same c' ∧
      (∀ k, on k → rdLE c'.mem (a + 4 * k) 4 = (lane c x.b k).toNat) ∧
      ∀ y, (∀ k, on k → ¬ (a + 4 * k ≤ y ∧ y < a + 4 * k + 4)) → rdByte c'.mem y = rdByte c.mem y) ∧
    (fresh → (∀ k, on k → CellReads s c (at_ k) 4 4) →
      LanesNext (.vgth x) s x (fun k => BitVec.ofNat 32 (rdLE c.mem (at_ k) 4))) ∧
    (fresh → Memory.wf c.mem = true → (∀ k, on k → CellWrites s c (at_ k) 4 4) →
      ∃ c' : Cell, CellNext (.vsct x) s x 0 c' ∧ same c' ∧
        (∀ k, on k → (∀ j, on j → k < j → at_ j ≠ at_ k) → rdLE c'.mem (at_ k) 4 = (lane c x.b k).toNat) ∧
        ∀ y, (∀ k, on k → ¬ (at_ k ≤ y ∧ y < at_ k + 4)) → rdByte c'.mem y = rdByte c.mem y)

/-- tzero, tld, tst: the tile and its 4 KiB at sA, row-major (R241); a store changes only those bytes; t8 and up are illegal (R234). -/
def Obligations.TileItemsMoveTiles : Prop :=
  ∀ (s : State) (x : CellItem), CellGo s x 0 →
    let c := s.cell x.cell
    let a := (sreg c x.a).toNat
    (x.d ≤ 7 → ∃ l : List (BitVec 32), CellNext (.tzero x) s x 0 (setT c x.d l) ∧ l.length = 1024 ∧ ∀ k, l.getD k 0 = 0) ∧
    (x.d ≤ 7 → CellReads s c a 4096 256 → ∃ l : List (BitVec 32), CellNext (.tld x) s x 0 (setT c x.d l) ∧ l.length = 1024 ∧
      ∀ k, k < 1024 → l.getD k 0 = BitVec.ofNat 32 (rdLE c.mem (a + 4 * k) 4)) ∧
    (x.d ≤ 7 → CellWrites s c a 4096 256 → Memory.wf c.mem = true → (treg c x.d).length = 1024 →
      ∃ c' : Cell, CellNext (.tst x) s x 0 c' ∧
      (∀ k, k < 1024 → rdLE c'.mem (a + 4 * k) 4 = ((treg c x.d).getD k 0).toNat) ∧
      (∀ b, (b < a ∨ a + 4096 ≤ b) → rdByte c'.mem b = rdByte c.mem b) ∧
      c'.s = c.s ∧ c'.v = c.v ∧ c'.p = c.p ∧ c'.t = c.t ∧ c'.w = c.w ∧ c'.status = c.status ∧ c'.epc = c.epc ∧ c'.desc = c.desc) ∧
    (7 < x.d → handled c 2 = true → CellTraps (.tzero x) s x 2 ∧ CellTraps (.tld x) s x 2 ∧ CellTraps (.tst x) s x 2)

/-- tmma (R213): every element of tile D takes, in ascending block order, one rounded addition of one exact dot product a block; only
the tile, the flags and the item's progress change. Pairs outside R214, a block count of 0 and t8 up are illegal operands. -/
def Obligations.TensorProductRoundsOncePerBlock : Prop :=
  ∀ (s : State) (x : CellItem), CellGo s x 1 →
    let c := s.cell x.cell
    let nb := (sreg c x.c).toNat
    let a := (sreg c x.a).toNat
    let b := (sreg c x.b).toNat
    let sa := (sreg c (bits x.w1.toNat 0 5)).toNat
    let sb := (sreg c (bits x.w1.toNat 5 5)).toNat
    let la := 16 * nb * blockBytes x.fn
    let lb := 64 * nb * blockBytes x.t
    let scale (t addr i : Nat) : Nat := if hasScales t then (rdByte c.mem (addr + i)).toNat else 0
    let values (t base sc i : Nat) : List Machine.Num :=
      let d := decodeBlock t (rdBytes c.mem (base + i * blockBytes t) (blockBytes t))
      d.1.map (scaleNum (blockScale t (rdBytes c.mem (base + i * blockBytes t) (blockBytes t)) (scale t sc i)))
    let first := c.tmma.getD 0
    (x.d ≤ 7 → nb ≠ 0 → tmmaPair x.fn x.t = true → CellReads s c a la 16 → CellReads s c b lb 16 →
      (hasScales x.fn = true → CellReads s c sa (16 * nb) 1) → (hasScales x.t = true → CellReads s c sb (64 * nb) 1) →
      ∃ (l : List (BitVec 32)) (f : Nat), CellNext (.tmma x) s x 1 { raise (setT c x.d l) f with tmma := none } ∧
        ∀ m n, m < 16 → n < 64 → first < nb → l.getD (64 * m + n) 0 =
          (List.range (nb - first)).foldl (fun (t : BitVec 32) k =>
            BitVec.ofNat 32 (addNum fmt32 (rneOf c.status) (decodeF fmt32 t.toNat)
              (dotBlock (values x.fn a sa (m * nb + (first + k))) (values x.t b sb (n * nb + (first + k)))).1).1)
            ((treg c x.d).getD (64 * m + n) 0)) ∧
    (7 < x.d ∨ nb = 0 ∨ tmmaPair x.fn x.t = false → handled c 2 = true → CellTraps (.tmma x) s x 2)

/-- tmx: each tile row to two blocks, elements at sA, scales at sB (R241, R212); every other byte of cell memory stays. -/
def Obligations.TileQuantisesIntoBlocks : Prop :=
  (∀ (s : State) (x : CellItem), CellGo s x 0 →
    let c := s.cell x.cell
    let a := (sreg c x.a).toNat
    let b := (sreg c x.b).toNat
    let z := blockBytes x.t
    let block (k : Nat) := quantBlock x.t ((List.range 32).map fun j => ((treg c x.d).getD (32 * k + j) 0).toNat)
    x.d ≤ 7 → x.t ∈ [3, 4, 5, 6, 7, 8, 9] → (treg c x.d).length = 1024 → Memory.wf c.mem = true →
    CellWrites s c a (32 * z) 16 → CellWrites s c b 32 1 → (a + 32 * z ≤ b ∨ b + 32 ≤ a) →
    ∃ (c' : Cell) (f : Nat), CellNext (.tmx x) s x 0 (raise c' f) ∧
      (∀ k, k < 32 → rdBytes c'.mem (a + k * z) z = packElems x.t (block k).2.1 ∧
        rdByte c'.mem (b + k) = BitVec.ofNat 8 (block k).1) ∧
      (∀ y, (y < a ∨ a + 32 * z ≤ y) → (y < b ∨ b + 32 ≤ y) → rdByte c'.mem y = rdByte c.mem y) ∧
      c'.s = c.s ∧ c'.v = c.v ∧ c'.p = c.p ∧ c'.t = c.t ∧ c'.w = c.w ∧ c'.status = c.status ∧ c'.desc = c.desc) ∧
  (∀ (t : Nat) (vs : List Nat), t ∈ [3, 4, 5, 6, 7, 8, 9] →
    ((∃ v ∈ vs, decodeF fmt32 v = .nan ∨ ∃ neg, decodeF fmt32 v = .inf neg) →
      (quantBlock t vs).1 = 0xFF ∧ (∀ e ∈ (quantBlock t vs).2.1, e = 0) ∧ (quantBlock t vs).2.2 = fINVALID) ∧
    ((∀ v ∈ vs, v = 0) → (quantBlock t vs).1 = 0 ∧ (∀ e ∈ (quantBlock t vs).2.1, e = 0) ∧ (quantBlock t vs).2.2 = 0))

/-- wclr, wadd.f32, wmac.f32 (R220 to R222): lane by lane, modulo 2^192; only the accumulator and the status register change. -/
def Obligations.WideAccumulatorsAddOnTheGrid : Prop :=
  (∀ (s : State) (x : CellItem), CellGo s x 0 →
    let c := s.cell x.cell
    let lanes (i : Instr) (p : Nat → Machine.Num) : Prop := ∃ (w : Wide) (st : Word),
      CellNext i s x 0 { setW c x.d w with status := st } ∧ w.b = (wreg c x.d).b ∧
      (∀ k, k < 64 → w.lanes.getD k 0 = (wreg c x.d).lanes.getD k 0 + BitVec.ofInt 192 (gridAddend w.b (p k)).1) ∧
      (∀ j, j < 4 → (bits st.toNat (16 + 4 * x.d) 4).testBit j = true ↔
        (bits c.status.toNat (16 + 4 * x.d) 4).testBit j = true ∨ ∃ k, k < 64 ∧ (gridAddend w.b (p k)).2.testBit j = true) ∧
      (∀ j, j < 64 → (j < 8 ∨ 14 ≤ j) → (j < 16 + 4 * x.d ∨ 20 + 4 * x.d ≤ j) → st.getLsbD j = c.status.getLsbD j)
    (x.d ≤ 3 →
      CellNext (.wclr x) s x 0 { setW c x.d ⟨List.replicate 64 0, (x.imm.setWidth 9).toInt⟩ with
        status := putField c.status (16 + 4 * x.d) 4 0 } ∧
      lanes (.waddF32 x) (fun k => decodeF fmt32 (lane c x.a k).toNat) ∧
      lanes (.wmacF32 x) (fun k => (mulNum (decodeF fmt32 (lane c x.a k).toNat) (decodeF fmt32 (lane c x.b k).toNat)).1)) ∧
    (3 < x.d → handled c 2 = true → CellTraps (.wclr x) s x 2 ∧ CellTraps (.waddF32 x) s x 2 ∧ CellTraps (.wmacF32 x) s x 2)) ∧
  (∀ b : Int, gridAddend b .nan = (0, 1) ∧ gridAddend b (.inf false) = (0, 2) ∧ gridAddend b (.inf true) = (0, 4) ∧
    ∀ (neg : Bool) (m : Nat) (e : Int), 0 ≤ e + b → gridAddend b (.fin neg m e) =
      if 2 ^ 175 ≤ m * 2 ^ (e + b).toNat then (0, 8)
      else ((if neg then -((m * 2 ^ (e + b).toNat : Nat) : Int) else ((m * 2 ^ (e + b).toNat : Nat) : Int)), 0))

/-- Two additions to an accumulator, or two merges of records, give the same accumulator and the same flags in either order. -/
def Obligations.WideSumsDependOnNoOrder : Prop :=
  ∀ (c : Cell) (j : Nat), j ≤ 3 →
    (∀ p q : List (Machine.Num × Nat), (∀ e ∈ p ++ q, e.2 < 0x4000) →
      let a := wideAdd (wideAdd c j p) j q
      let b := wideAdd (wideAdd c j q) j p
      wreg a j = wreg b j ∧ a.status = b.status) ∧
    (∀ r u : Int × Nat × List (BitVec 192), r.2.1 < 16 → u.2.1 < 16 →
      let a := mergeRecord (mergeRecord c j r) j u
      let b := mergeRecord (mergeRecord c j u) j r
      wreg a j = wreg b j ∧ a.status = b.status)

/-- wcvt (R223) under pP and PZ, and what its lanes hold by the accumulator's flags; wmrg (R224) of a clean record that is not
stale. -/
def Obligations.WideResultsLeaveAndMerge : Prop :=
  (∀ (s : State) (x : CellItem), CellGo s x 0 →
    let c := s.cell x.cell
    let w := wreg c x.a
    (∀ f : Fmt, (x.t, f) ∈ [(0, fmt32), (1, fmt16), (2, fmtBf)] → x.a ≤ 3 →
      ∃ (l : List (BitVec 32)) (g : Nat), l.length = 64 ∧ CellDraws (.wcvt x) s x 0 64 (raise (setV c x.d l) g) ∧
      ∀ k, k < 64 → if (preg c x.p).getLsbD k then
          (l.getD k 0).toNat % 2 ^ f.bits =
            (wcvtLane f (modeOf c.status) (wflags c x.a) w.b (w.lanes.getD k 0)).1 % 2 ^ f.bits
        else l.getD k 0 = if x.pz then 0 else lane c x.d k) ∧
    (let r := recordOf (rdBytes c.mem (recvAddr x.imm.toNat) 1544)
     let v := wreg c x.d
     x.d ≤ 3 → x.imm.toNat ≤ 30 → mget c.recv x.imm.toNat = none →
     (∀ u ∈ memUnits (recvAddr x.imm.toNat) 1544, u ∉ c.poison ∧ u ∉ c.weak) →
     (r.1 ≠ v.b → ∃ st : Word, CellNext (.wmrg x) s x 0 { c with status := st } ∧ st.getLsbD (16 + 4 * x.d) = true ∧
        st.getLsbD 8 = true) ∧
     (r.1 = v.b → ∃ (y : Wide) (st : Word), CellNext (.wmrg x) s x 0 { setW c x.d y with status := st } ∧ y.b = v.b ∧
        (∀ k, k < 64 → y.lanes.getD k 0 = v.lanes.getD k 0 + r.2.2.getD k 0) ∧
        bits st.toNat (16 + 4 * x.d) 4 = (bits c.status.toNat (16 + 4 * x.d) 4 ||| r.2.1) % 16))) ∧
  (∀ (f : Fmt) (md : RMode) (b : Int) (n : BitVec 192), f ∈ [fmt32, fmt16, fmtBf] →
    let full := if md.sat then maxBits f (decide (n.toInt < 0)) else infBits f (decide (n.toInt < 0))
    (∀ fl, fl.testBit 0 = true ∨ (fl.testBit 1 = true ∧ fl.testBit 2 = true) → wcvtLane f md fl b n = (nanBits f, 0)) ∧
    wcvtLane f md 2 b n = (infBits f false, 0) ∧ wcvtLane f md 4 b n = (infBits f true, 0) ∧
    wcvtLane f md 8 b n = (full, fOVERFLOW ||| fINEXACT) ∧
    (2 ^ 175 ≤ n.toInt ∨ n.toInt < -(2 ^ 175) → wcvtLane f md 0 b n = (full, fOVERFLOW ||| fINEXACT)) ∧
    (-(2 ^ 175) ≤ n.toInt → n.toInt < 2 ^ 175 →
      wcvtLane f md 0 b n = roundTo f md (decide (n.toInt < 0)) n.toInt.natAbs (-b)))

/-- dma.in, dma.out, dma.gth, dma.sct, dma.walk, dma.app, dma.wsend (R254): descriptor D takes REMOTE, LOCAL, COUNT and word 1, and is
ACTIVE unless its count is 0 (R255).
dma.wait and dma.rst (R257, R258), a dma instruction on an ACTIVE descriptor (R254), and the DMA timeout (R503).
lgt.send (R325): the segment joins the segments sent, last; nothing else changes. -/
def Obligations.DmaItemsAndLgtSend : Prop :=
  ((∀ (s : State) (x : CellItem),
      let c := s.cell x.cell
      let n := (sreg c x.c).toNat % 2 ^ 32
      let l := (sreg c x.b).toNat % 2 ^ 22
      let d (op : Nat) : Desc := { desc0 with op, remote := sreg c x.a, local_ := l, count := n, active := decide (n ≠ 0) }
      let units := bits x.w1.toNat 22 8
      let indexed (op : Nat) : Desc := { d op with
        indexAddr := bits x.w1.toNat 0 22, elemUnits := units, stride := bits x.w1.toNat 32 32 }
      let w := x.w1.toNat
      x.d ≤ 15 → (descOf c x.d).active = false →
      (CellGo s x 0 →
        (l + n ≤ 2 ^ 22 → Starts (.dmaIn x) s x 0 (d 1) ∧ Starts (.dmaOut x) s x 0 (d 2)) ∧
        Starts (.dmaWsend x) s x 0 (d 7) ∧
        (2 ^ 22 < l + n → handled c 2 = true → CellTraps (.dmaIn x) s x 2 ∧ CellTraps (.dmaOut x) s x 2)) ∧
      (CellGo s x 1 →
        (1 ≤ units → units ≤ 64 → bits w 32 32 % 16 = 0 → l + n * units * 16 ≤ 2 ^ 22 → bits w 0 22 + 4 * n ≤ 2 ^ 22 →
          Starts (.dmaGth x) s x 1 (indexed 3) ∧ Starts (.dmaSct x) s x 1 (indexed 4)) ∧
        (units = 0 ∨ 64 < units ∨ bits w 32 32 % 16 ≠ 0 → handled c 2 = true →
          CellTraps (.dmaGth x) s x 2 ∧ CellTraps (.dmaSct x) s x 2) ∧
        (bits w 32 16 ≠ 0 → bits w 50 2 ≠ 3 → (bits w 48 2 = 0 → l + n * 16384 ≤ 2 ^ 22) → (bits w 48 2 = 3 → l + n * 8 ≤ 2 ^ 22) →
          (bits w 48 2 = 1 ∨ bits w 48 2 = 2 → ∃ m, cellModel s c = some m ∧ l + n * (2 * m.groupHeads * 2 ^ m.log2ppp * m.headDim) ≤ 2 ^ 22) →
          Starts (.dmaWalk x) s x 1 { d 5 with word4 := x.w1 }) ∧
        (∀ m : Model, cellModel s c = some m → 1 ≤ bits w 56 8 → bits w 48 8 + bits w 56 8 ≤ m.groupHeads → 1 ≤ n → n ≤ 512 →
          l + n * bits w 56 8 * 4 * m.headDim ≤ 2 ^ 22 → Starts (.dmaApp x) s x 1 { d 6 with word4 := x.w1 }))) ∧
   (∀ (s : State) (x : CellItem),
      let c := s.cell x.cell
      let d := descOf c x.d
      (CellGo s x 0 → x.d ≤ 15 →
        (d.active = false → d.faulted = false → CellNext (.dmaWait x) s x 0 c) ∧
        (d.active = true → exec (.dmaWait x) s = .next (s.setCell x.cell c)) ∧
        (d.active = true → (sreg c x.b).toNat % 2 ^ 22 + (sreg c x.c).toNat % 2 ^ 32 ≤ 2 ^ 22 →
          exec (.dmaIn x) s = .next (s.setCell x.cell c) ∧ exec (.dmaOut x) s = .next (s.setCell x.cell c)) ∧
        (d.active = false → d.faulted = true → d.status ≠ 0x5024 → handled c 6 = true → CellTraps (.dmaWait x) s x 6) ∧
        (d.active = false → d.faulted = true → d.status = 0x5024 → handled c 8 = true → CellTraps (.dmaWait x) s x 8) ∧
        (d.faulted = true → CellNext (.dmaRst x) s x 0 (setDesc c x.d { d with active := true, faulted := false, status := 0 })) ∧
        (d.faulted = false → handled c 2 = true → CellTraps (.dmaRst x) s x 2)) ∧
      (x.cell < 1920 → c.run ≠ .fenced → d.active = true → ∃ a : Word, exec (.dmaTimeout x.cell x.d) s =
        .next (s.setCell x.cell (setDesc c x.d { d with active := false, faulted := true, status := 0x5024, faultAddr := a }))))) ∧
  (∀ (s : State) (x : CellItem), CellGo s x 1 →
     let c := s.cell x.cell
     let n := (sreg c x.b).toNat
     let a := (sreg c x.a).toNat
     (1 ≤ n → n ≤ 65536 → CellReads s c a (4 * n) 16 → ∃ l : List (BitVec 32), l.length = n ∧
       (∀ k, k < n → l.getD k 0 = BitVec.ofNat 32 (rdLE c.mem (a + 4 * k) 4)) ∧
       exec (.lgtSend x) s = .next (({ s with gal := { s.gal with logitsSent := s.gal.logitsSent ++
           [(4 * c.part + c.slice, bits x.w1.toNat 0 13, bits x.w1.toNat 16 16, (sreg c x.c).toNat, l)] } } : State).setCell x.cell
         { c with pc := (c.pc + 2) % 4096 })) ∧
     (n = 0 ∨ 65536 < n → handled c 2 = true → CellTraps (.lgtSend x) s x 2))


/-- The completion of an OP 1 descriptor from local HBM (R248, R255), and the stop of one from a remote device on an element fault
(R257). -/
def Obligations.DescriptorsCompleteAndFault : Prop :=
  ∀ (s : State) (n k : Nat), n < 1920 →
    let c := s.cell n
    let d := descOf c k
    c.run ≠ .fenced → d.active = true → d.op = 1 → d.done ≤ d.count → d.local_ + d.count ≤ 2 ^ 22 →
    (∀ b, (∀ i, d.done ≤ i → i < d.count → d.remote + BitVec.ofNat 64 i = BitVec.ofNat 64 (b + i)) → b + d.count ≤ 2 ^ 39 →
      (∀ i m, d.done ≤ i → i + m ≤ d.count → inWindows s c (b + i) m = true ∧ hbmPoisoned s (b + i) m = false) →
      Memory.wf c.mem = true →
      Ends (.dmaDescriptorDone n k) s fun t =>
        (descOf (t.cell n) k).active = false ∧ (descOf (t.cell n) k).faulted = d.faulted ∧
        (descOf (t.cell n) k).done = d.count ∧
        (∀ i, d.done ≤ i → i < d.count → rdByte (t.cell n).mem (d.local_ + i) = rdByte s.hbm (b + i)) ∧
        (∀ y, (y < d.local_ + d.done ∨ d.local_ + d.count ≤ y) → rdByte (t.cell n).mem y = rdByte c.mem y) ∧
        t.hbm = s.hbm ∧ t.regs = s.regs ∧ (t.cell n).s = c.s ∧ (t.cell n).v = c.v ∧ (t.cell n).pc = c.pc ∧
        ∀ j, j ≠ k → descOf (t.cell n) j = descOf c j) ∧
    (∀ e, d.done ≤ e → e < d.count →
      (∀ i, i < d.count → spaceOf (d.remote + BitVec.ofNat 64 i) = 2 ∧ addrOk (d.remote + BitVec.ofNat 64 i) false = true) →
      Ends (.dmaElementFault n k e 0x5023) s fun t =>
        let f := descOf (t.cell n) k
        f.active = false ∧ f.faulted = true ∧ f.status = 0x5023 ∧ d.done ≤ f.done ∧ f.done ≤ e ∧
        f.faultAddr = d.remote + BitVec.ofNat 64 f.done ∧ (t.cell n).pc = c.pc ∧ (t.cell n).s = c.s)

/-- The operations of R264 in a cell, on an object that answers (R261, R262) and has no waiters: VALUE, the result in sD, the pc. -/
def Obligations.SyncItemsOfACell : Prop :=
  ∀ (s : State) (x : CellItem) (kind n : Nat), CellGo s x 0 → Canonical s →
    let c := s.cell x.cell
    let r := sreg c x.a
    let v := (sreg c x.b).toNat
    let old := s.fld (SYN_OBJ_B_VALUE n)
    let ends (i : Instr) (value result : Nat) : Prop := ∃ t u : State, exec i s = .next t ∧ t.fld (SYN_OBJ_B_VALUE n) = value ∧
      t = u.setCell x.cell { setS c x.d (BitVec.ofNat 64 result) with pc := (c.pc + 1) % 4096 } ∧ u.cells = s.cells ∧
      (∀ o, o ≠ (SYN_OBJ_B_VALUE n).off → o ≠ (SYN_OBJ_A_KIND n).off → u.reg o = s.reg o)
    let holder := x.cell + cellInstar s x.cell * 2 ^ 16
    n < 16384 → r.toNat = n + s.fld (SYN_OBJ_A_INSTAR n) * 2 ^ 14 → s.fld (SYN_OBJ_A_KIND n) = kind →
    s.fld (SYN_OBJ_A_OWNER_KIND n) = 1 → s.fld (SYN_OBJ_A_OWNER n) = 4 * c.part + c.slice →
    (∀ d ∈ c.desc, d.2.active = false) → (mget s.waiters n).getD [] = [] → cellInstar s x.cell < 2 ^ 24 →
    (kind ∈ [1, 2, 3, 4] → ends (.ctrRd (.cell x)) old old ∧ ends (.syncRd (.cell x)) old old) ∧
    (kind = 1 → ends (.ctrAdd (.cell x)) ((old + v) % 2 ^ 64) old) ∧
    (kind = 1 → v ≤ old → ends (.ctrWait (.cell x)) old old) ∧
    (kind = 2 → 1 ≤ old → ends (.semTake (.cell x)) (old - 1) (old - 1)) ∧
    (kind = 2 → old < 2 ^ 64 - 1 → ends (.semGive (.cell x)) (old + 1) (old + 1)) ∧
    (kind = 2 → old = 2 ^ 64 - 1 → handled c 7 = true → CellTraps (.semGive (.cell x)) s x 7) ∧
    (kind = 3 → bits old 24 24 + 1 = bits old 0 24 →
      ends (.barArv (.cell x)) (bits old 0 24 + (bits old 48 16 + 1) % 65536 * 2 ^ 48) (bits old 48 16)) ∧
    (kind = 3 → bits old 24 24 + 1 < bits old 0 24 → ends (.barArv (.cell x)) (old + 2 ^ 24) (bits old 48 16)) ∧
    (kind = 3 → bits old 48 16 ≠ v % 65536 → ends (.barWait (.cell x)) old (bits old 48 16)) ∧
    (kind = 4 → s.flag (SYN_OBJ_A_HELD n) = false →
      ends (.qnAcq (.cell x)) holder (if s.flag (SYN_OBJ_A_BROKEN n) then 2 else 1) ∧
      ends (.qnTry (.cell x)) holder (if s.flag (SYN_OBJ_A_BROKEN n) then 2 else 1)) ∧
    (kind = 4 → s.flag (SYN_OBJ_A_HELD n) = true → ends (.qnTry (.cell x)) old 0) ∧
    (kind = 4 → s.flag (SYN_OBJ_A_HELD n) = true → old = holder → ends (.qnRel (.cell x)) 0 0) ∧
    (kind = 4 → old ≠ holder → handled c 7 = true → CellTraps (.qnRel (.cell x)) s x 7)

/-- The operations of R264 from a command queue, on an object of its context without waiters: VALUE, and the completion. -/
def Obligations.SyncItemsOfAQueue : Prop :=
  ∀ (s : State) (src : Src) (ref value : Word) (kind n : Nat), ItemGo s src → Canonical s →
    let u : SyncUse := .item src ref value
    let old := s.fld (SYN_OBJ_B_VALUE n)
    let ends (i : Instr) (op new result : Nat) : Prop := ∃ t : State,
      Completes i s src op 0 (BitVec.ofNat 64 result) 0 0 t ∧ t.fld (SYN_OBJ_B_VALUE n) = new ∧ t.cells = s.cells ∧
      t.host = s.host ∧ (∀ o, o ≠ (SYN_OBJ_B_VALUE n).off → o ≠ (SYN_OBJ_A_KIND n).off → t.reg o = s.reg o)
    let holder := 0x8000 + 16 * src.ctx + src.queue
    n < 16384 → ref.toNat = n + s.fld (SYN_OBJ_A_INSTAR n) * 2 ^ 14 → s.fld (SYN_OBJ_A_KIND n) = kind →
    s.fld (SYN_OBJ_A_OWNER_KIND n) = 0 → s.fld (SYN_OBJ_A_OWNER n) = src.ctx → (mget s.waiters n).getD [] = [] →
    src.ctx < 64 → src.queue < 16 →
    (kind ∈ [1, 2, 3, 4] → ends (.ctrRd u) 0xB0 old old ∧ ends (.syncRd u) 0xBA old old) ∧
    (kind = 1 → ends (.ctrAdd u) 0xB1 ((old + value.toNat) % 2 ^ 64) old) ∧
    (kind = 1 → value.toNat ≤ old → ends (.ctrWait u) 0xB2 old old) ∧
    (kind = 2 → 1 ≤ old → ends (.semTake u) 0xB3 (old - 1) (old - 1)) ∧
    (kind = 2 → old < 2 ^ 64 - 1 → ends (.semGive u) 0xB4 (old + 1) (old + 1)) ∧
    (kind = 3 → bits old 24 24 + 1 = bits old 0 24 →
      ends (.barArv u) 0xB5 (bits old 0 24 + (bits old 48 16 + 1) % 65536 * 2 ^ 48) (bits old 48 16)) ∧
    (kind = 3 → bits old 48 16 ≠ value.toNat % 65536 → ends (.barWait u) 0xB6 old (bits old 48 16)) ∧
    (kind = 4 → s.flag (SYN_OBJ_A_HELD n) = false → s.flag (SYN_OBJ_A_BROKEN n) = false →
      ends (.qnAcq u) 0xB7 holder 1 ∧ ends (.qnTry u) 0xB8 holder 1) ∧
    (kind = 4 → s.flag (SYN_OBJ_A_HELD n) = true → old = holder → ends (.qnRel u) 0xB9 0 0)

/-- A wait of a cell that is not satisfied (R264), its grant by ctr.add (R265), and its timeout (R268). -/
def Obligations.UnsatisfiedWaitsJoinTheQueue : Prop :=
  (∀ (s : State) (x : CellItem) (kind n : Nat), CellGo s x 0 →
    let c := s.cell x.cell
    let r := sreg c x.a
    let v := sreg c x.b
    let old := s.fld (SYN_OBJ_B_VALUE n)
    let waits (i : Instr) (op : Nat) : Prop := ∃ t : State, exec i s = .next t ∧
      t.cell x.cell = { c with wait := some (op, r, v) } ∧
      mget t.waiters n = some (((mget s.waiters n).getD []) ++ [⟨x.cell, op, v, x.d, s.now⟩]) ∧ t.host = s.host
    n < 16384 → r.toNat = n + s.fld (SYN_OBJ_A_INSTAR n) * 2 ^ 14 → s.fld (SYN_OBJ_A_KIND n) = kind →
    s.fld (SYN_OBJ_A_OWNER_KIND n) = 1 → s.fld (SYN_OBJ_A_OWNER n) = 4 * c.part + c.slice →
    (kind = 1 → old < v.toNat → waits (.ctrWait (.cell x)) 0xB2) ∧
    (kind = 2 → old = 0 → waits (.semTake (.cell x)) 0xB3) ∧
    (kind = 3 → bits old 48 16 = v.toNat % 65536 → waits (.barWait (.cell x)) 0xB6) ∧
    (kind = 4 → s.flag (SYN_OBJ_A_HELD n) = true → waits (.qnAcq (.cell x)) 0xB7)) ∧
  (∀ (s : State) (x : CellItem) (n : Nat) (w : Waiter), CellGo s x 0 → Canonical s →
    let c := s.cell x.cell
    let sum := (s.fld (SYN_OBJ_B_VALUE n) + (sreg c x.b).toNat) % 2 ^ 64
    n < 16384 → (sreg c x.a).toNat = n + s.fld (SYN_OBJ_A_INSTAR n) * 2 ^ 14 → s.fld (SYN_OBJ_A_KIND n) = 1 →
    s.fld (SYN_OBJ_A_OWNER_KIND n) = 1 → s.fld (SYN_OBJ_A_OWNER n) = 4 * c.part + c.slice →
    (∀ d ∈ c.desc, d.2.active = false) → mget s.waiters n = some [w] → mwf s.waiters = true → w.op = 0xB2 → w.actor < 1920 →
    w.actor ≠ x.cell → w.value.toNat ≤ sum →
    Ends (.ctrAdd (.cell x)) s fun t => t.fld (SYN_OBJ_B_VALUE n) = sum ∧ mget t.waiters n = none ∧
      (t.cell w.actor).wait = none ∧ (t.cell w.actor).pc = ((s.cell w.actor).pc + 1) % 4096 ∧
      (w.ret ≠ 0 → sreg (t.cell w.actor) w.ret = BitVec.ofNat 64 sum) ∧
      (x.d ≠ 0 → sreg (t.cell x.cell) x.d = BitVec.ofNat 64 (s.fld (SYN_OBJ_B_VALUE n)))) ∧
  (∀ (s : State) (n : Nat) (w : Waiter),
    mget s.waiters n = some [w] → mwf s.waiters = true → w.actor < 1920 → handled (s.cell w.actor) 8 = true →
    w.since + s.fld FLT_TIMEOUT_A_SYNC_MS * 1000000 ≤ s.now →
    Ends (.syncWaitTimeout n w.actor) s fun t => mget t.waiters n = none ∧ (t.cell w.actor).wait = none ∧
      (t.cell w.actor).epc = (s.cell w.actor).pc ∧
      (t.cell w.actor).pc = ((cellWindow s (s.cell w.actor)).1 + 8) % 4096 ∧ bits (t.cell w.actor).status.toNat 32 5 = 8)

/-- sync.init (R263) and sync.free (R269) from the command queue of a context, and the statuses of R261, R262. -/
def Obligations.ObjectsAreClaimedAndFreed : Prop :=
  ∀ (s : State) (src : Src), ItemGo s src → Canonical s → src.ctx < 64 →
    (∀ (n kind owner : Nat) (value : Word), n < 16384 → s.fld (SYN_OBJ_A_KIND n) = 0 →
      (∀ j, j < n → s.fld (SYN_OBJ_A_KIND j) ≠ 0) → (kind = 1 ∨ kind = 2 ∨ kind = 4 ∨ (kind = 3 ∧ 1 ≤ value.toNat ∧ value.toNat ≤ 16777215)) →
      owner < 64 →
      let next := if s.fld (SYN_OBJ_A_INSTAR n) = 0xFFFFFF then 1 else s.fld (SYN_OBJ_A_INSTAR n) + 1
      ∃ t : State, Completes (.syncInit src kind 0 owner value) s src 0xFA 0 (BitVec.ofNat 64 (n + next * 2 ^ 14)) 0 0 t ∧
        t.fld (SYN_OBJ_A_KIND n) = kind ∧ t.fld (SYN_OBJ_A_OWNER_KIND n) = 0 ∧ t.fld (SYN_OBJ_A_OWNER n) = owner ∧
        t.fld (SYN_OBJ_A_INSTAR n) = next ∧ t.fld (SYN_OBJ_B_VALUE n) = (if kind = 4 then 0 else value.toNat) ∧
        t.flag (SYN_OBJ_A_HELD n) = false ∧ t.cells = s.cells) ∧
    (∀ (n : Nat) (ref : Word), n < 16384 → ref.toNat = n + s.fld (SYN_OBJ_A_INSTAR n) * 2 ^ 14 → s.fld (SYN_OBJ_A_KIND n) ≠ 0 →
      s.fld (SYN_OBJ_A_OWNER_KIND n) = 0 → s.fld (SYN_OBJ_A_OWNER n) = src.ctx → (mget s.waiters n).getD [] = [] →
      (s.fld (SYN_OBJ_A_KIND n) = 4 → s.flag (SYN_OBJ_A_HELD n) = false) →
      ∃ t : State, Completes (.syncFree src ref) s src 0xFB 0 0 0 0 t ∧ t.fld (SYN_OBJ_A_KIND n) = 0 ∧
        t.fld (SYN_OBJ_A_INSTAR n) = (if s.fld (SYN_OBJ_A_INSTAR n) = 0xFFFFFF then 1 else s.fld (SYN_OBJ_A_INSTAR n) + 1) ∧
        t.cells = s.cells) ∧
    (∀ (n : Nat) (ref value : Word), bits ref.toNat 0 14 = n → bits ref.toNat 14 50 ≠ s.fld (SYN_OBJ_A_INSTAR n) →
      (exec (.syncFree src ref) s = .next (completeFail (s.incSat SYN_STALE_COUNT 1) src 0xFB 0x5011 0 0)) ∧
      (exec (.ctrAdd (.item src ref value)) s = .next (completeFail (s.incSat SYN_STALE_COUNT 1) src 0xB1 0x5011 0 0))) ∧
    (∀ (kind owner : Nat) (value : Word), (∀ j, j < 16384 → s.fld (SYN_OBJ_A_KIND j) ≠ 0) → kind = 1 →
      exec (.syncInit src kind 0 owner value) s = .next (completeFail s src 0xFA 0x5016 0 0))

/-- fence (R251), ctl.nop and ctl.stamp (R241), and the two refusals that stand before every control item (R561, R581). -/
def Obligations.FencesOrderAndControlItemsComplete : Prop :=
  (∀ (s : State) (x : CellItem), CellGo s x 0 →
    ((∀ d ∈ (s.cell x.cell).desc, d.2.active = false) → CellNext (.fence (.cell x)) s x 0 (s.cell x.cell)) ∧
    ((∃ d ∈ (s.cell x.cell).desc, d.2.active = true) → exec (.fence (.cell x)) s = .next (s.setCell x.cell (s.cell x.cell)))) ∧
  (∀ (s : State) (src : Src) (ref value : Word),
    (s.flag (HIF_CTX_CTL_PURGING src.ctx) = false →
      Completes (.ctlNop src) s src 0xFC 0 0 0 0 s ∧ Completes (.ctlStamp src) s src 0xFD 0 (BitVec.ofNat 64 s.clk.now) 0 0 s) ∧
    (ItemGo s src → Completes (.fence (.item src ref value)) s src 0xBB 0 0 0 0 s) ∧
    (s.flag (HIF_CTX_CTL_PURGING src.ctx) = true → ∀ i ∈ ([(.ctlNop src, 0xFC), (.fence (.item src ref value), 0xBB),
      (.syncFree src ref, 0xFB), (.ctrAdd (.item src ref value), 0xB1)] : List (Instr × Nat)),
      exec i.1 s = .next (completeFail s src i.2 0x1005 0 0)) ∧
    (s.flag (HIF_CTX_CTL_PURGING src.ctx) = false → s.fld GLB_STATE_READY = 0 →
      exec (.fence (.item src ref value)) s = .next (completeFail s src 0xBB 0xC001 0 0) ∧
      exec (.syncFree src ref) s = .next (completeFail s src 0xFB 0xC001 0 0)))

/-- ses.create (R36, R40, R45) and ses.query (R40), and the handles that no entry answers (R31). -/
def Obligations.SessionsAreCreatedAndRead : Prop :=
  ∀ (s : State) (src : Src), ItemGo s src →
    (∀ (vocab grammar model prio dur customer contract cls lo hi : Nat) (draftEn : Bool) (tag : Word) (rest : List (Nat × Nat)),
      s.ses.freeList = (lo, hi) :: rest →
      bindingOk s src.ctx vocab grammar model dur customer = true → contractOk s src.ctx contract = true →
      contractFull s contract = false → ((takeIndex s).bind fun x => newPages x.2.2 src.ctx lo (recurOf s model).1 (recurOf s model).2).isSome →
      ∃ (t : State) (e : Session),
        Completes (.sesCreate src vocab grammar model prio dur customer draftEn tag contract cls) s src 0xC0 0
          (handleOf t lo e) (handleOf t lo e) tag t ∧
        t.ses? lo = some e ∧ e.instar = (mget s.ses.freeInstar lo).getD s.ses.baseInstar ∧ e.state = .waiting ∧ e.tier = .p1 ∧
        e.context = src.ctx ∧ e.queue = src.queue ∧ e.vocab = vocab ∧ e.grammar = grammar ∧ e.model = model ∧ e.prio = prio ∧
        e.dur = dur ∧ e.customer = customer ∧ e.draftEn = draftEn ∧ e.tag = tag ∧ e.contract = contract ∧ e.cls = cls ∧
        e.tokens = 0 ∧ e.generated = 0 ∧ e.seqValid = false ∧ e.createTime = s.clk.now ∧
        t.ses.freeList = (if lo < hi then (lo + 1, hi) :: rest else rest) ∧ t.hbm = s.hbm ∧ t.cells = s.cells) ∧
    (∀ (h dest : Word) (i : Nat) (e : Session) (t : State), Handle s src h i e →
      itemWrite s src 2 dest (entryImage s i e) = .ok t →
      Completes (.sesQuery src h dest) s src 0xCD 0 (BitVec.ofNat 64 e.updateSeq) h e.tag t ∧
      (entryImage s i e).length = 128 ∧ ((entryImage s i e).drop 96).take 8 = leBytes 8 e.tag.toNat ∧
      ((entryImage s i e).drop 124) = leBytes 4 (crc32c ((entryImage s i e).take 124)).toNat) ∧
    (∀ (h : Word) (g : Nat), bits h.toNat 48 16 = s.devAddr → s.ses? (bits h.toNat 24 24) = none →
      exec (.sesRun src h g) s = .next (completeFail (s.incSat SES_STALE_COUNT 1) src 0xC2 0x2002 0 0) ∧
      exec (.sesFree src h) s = .next (completeFail (s.incSat SES_STALE_COUNT 1) src 0xCC 0x2002 0 0)) ∧
    (∀ (h : Word) (g : Nat), bits h.toNat 48 16 ≠ s.devAddr →
      exec (.sesRun src h g) s = .next (completeFail s src 0xC2 0x200B 0 0))

/-- ses.feed (R39) of text to a session that stays where it is, ses.run (R49) of a session with a transcript. -/
def Obligations.SessionsAreFedAndRun : Prop :=
  ∀ (s : State) (src : Src) (h : Word) (i : Nat) (e : Session), ItemGo s src → Handle s src h i e →
    (∀ (addr : Word) (len : Nat) (bs : List Byte), (e.state = .active ∨ e.state = .held ∨ (e.state = .waiting ∧ e.tier = .p1 ∧ e.park = none)) →
      0 < len → e.transcriptBytes + len ≤ 4194304 → itemRead s src 2 addr len = .ok bs → bs.length = len →
      (appendSegment s i e (.text bs)).isSome →
      ∃ (t : State) (e' : Session),
        Completes (.sesFeed src h addr len false false 0) s src 0xC1 0 (BitVec.ofNat 64 (e.transcriptBytes + len)) h e.tag t ∧
        t.ses? i = some e' ∧ e'.transcriptBytes = e.transcriptBytes + len ∧ e'.segs = e.segs ++ [.text bs] ∧ e'.state = e.state ∧
        e'.tier = e.tier ∧ e'.tokens = e.tokens ∧ e'.generated = e.generated ∧ e'.lastStatus = 0 ∧ t.hbm = s.hbm ∧
        (∀ j, j ≠ i → t.ses? j = s.ses? j)) ∧
    (∀ (g sl : Nat), e.state = .waiting → e.tier = .p1 → e.park = none → 0 < e.transcriptBytes → slotsMatch s e = true →
      chooseSlice s e = some sl → firstFree s.gal.slots 0 < 8192 → e.bound = true →
      ∃ (t : State) (e' : Session) (x : Slot), Completes (.sesRun src h g) s src 0xC2 0 0 h e.tag t ∧
        t.ses? i = some e' ∧ e'.state = .prefill ∧ e'.seqValid = true ∧ e'.seqSlot = firstFree s.gal.slots 0 ∧ e'.genLimit = g ∧
        e'.lastStatus = 0 ∧ mget t.gal.slots (firstFree s.gal.slots 0) = some x ∧ x.index = i ∧ x.prefill = true ∧
        x.part = sl / 4 ∧ x.slice = sl % 4 ∧ x.pos = e.tokens ∧ x.prio = e.prio ∧ x.customer = e.customer) ∧
    (∀ g : Nat, e.state ≠ .waiting → e.state ≠ .ended → e.state ≠ .faulted →
      exec (.sesRun src h g) s = .next (completeFail (stampStatus s i 0x2004) src 0xC2 0x2004 h e.tag))

/-- ses.wait (R76, R81), ses.park (R82), ses.revive (R83, R86) of a WAITING session. -/
def Obligations.SessionsWaitParkAndRevive : Prop :=
  ∀ (s : State) (src : Src) (h : Word) (i : Nat) (e : Session), ItemGo s src → Handle s src h i e → e.state = .waiting →
    (∀ expect deadline : Nat, (deadline = 0 ∨ expect ≤ deadline) →
      let e1 := { e with expectTime := expect, deadline, graceAt := none, overdueDone := true, deadlineDone := false, deferred := none }
      ∃ t : State, Completes (.sesWait src h expect deadline) s src 0xC3 0
          (BitVec.ofNat 64 (chooseTier s e1 0).tier.depth) h e.tag t ∧
        (e.tier = .p1 → e.park = none → e.parkBusy = false → e.rev = none → e.reviveBusy = false → expect ≠ 0 → expect ≤ s.clk.now →
          (chooseTier s e1 0).tier = .p1 ∧ ∃ e' : Session, t.ses? i = some e' ∧ e'.expectTime = expect ∧ e'.deadline = deadline ∧
            e'.tier = .p1 ∧ e'.state = .waiting ∧ e'.park = none ∧ e'.lastStatus = 0 ∧ t.regs = s.regs ∧ t.hbm = s.hbm)) ∧
    (∀ expect deadline : Nat, deadline ≠ 0 → deadline < expect →
      exec (.sesWait src h expect deadline) s = .next (completeFail (stampStatus s i 0x2011) src 0xC3 0x2011 h e.tag)) ∧
    (∀ hint : Nat, ∃ t : State, Completes (.sesPark src h hint) s src 0xC8 0 (BitVec.ofNat 64 (chooseTier s e hint).tier.depth) h e.tag t ∧
      (e.tier = .p1 → e.park = none → e.parkBusy = false → e.rev = none → e.reviveBusy = false → (chooseTier s e hint).tier = .p1 →
        ∃ e' : Session, t.ses? i = some e' ∧ e'.tier = .p1 ∧ e'.park = none ∧ e'.expectTime = e.expectTime ∧ e'.lastStatus = 0) ∧
      (e.tier = .p1 → e.park = none → e.parkBusy = false → e.rev = none → e.reviveBusy = false →
        (chooseTier s e hint).tier = .p2 ∨ (chooseTier s e hint).tier = .p3 →
        (policePark s e (chooseTier s e hint).tier (chooseTier s e hint).bytes).1 ≠ 3 →
        ∃ (e' : Session) (p : ParkOp), t.ses? i = some e' ∧ e'.parkBusy = true ∧ e'.park = some p ∧ p.target = (chooseTier s e hint).tier ∧
          p.place = (chooseTier s e hint).place ∧ e'.tier = .p1)) ∧
    (e.tier = .p1 → e.park = none →
      Completes (.sesRevive src h) s src 0xC9 0 0 h e.tag (stampStatus (sesNoticeFree s i 3 0) i 0)) ∧
    (e.tier = .p2 → e.park = none → e.rev = none → (startRevival s i true).2 = 0 → ∃ (t : State) (e' : Session) (r : RevOp),
      Completes (.sesRevive src h) s src 0xC9 0 0 h e.tag t ∧ t.ses? i = some e' ∧ e'.reviveBusy = true ∧ e'.rev = some r ∧
      r.src = .p2 ∧ r.notify = true ∧ e'.tier = .p2)

/-- ses.hold, ses.release (R49), ses.config of PRIO and TAG (R60), ses.fork (R54), ses.migrate (R49). -/
def Obligations.SessionsHoldForkAndMigrate : Prop :=
  ∀ (s : State) (src : Src) (h : Word) (i : Nat) (e : Session), ItemGo s src → Handle s src h i e →
    let ends (c : Instr) (op : Nat) (res : Word) (p : State → Session → Prop) : Prop :=
      ∃ (t : State) (e' : Session), Completes c s src op 0 res h e.tag t ∧ t.ses? i = some e' ∧ e'.lastStatus = 0 ∧ p t e'
    (e.state = .active ∨ e.state = .prefill →
      (inGalley s i = false → ends (.sesHold src h) 0xC4 0 fun t e' =>
        e'.state = .held ∧ e'.holdReason = 4 ∧ e'.tokens = e.tokens ∧ e'.tier = .p1 ∧ t.regs = s.regs) ∧
      (inGalley s i = true → ends (.sesHold src h) 0xC4 0 fun t e' =>
        e'.state = e.state ∧ e'.holdReq = true ∧ t.regs = s.regs ∧ t.gal = s.gal)) ∧
    (e.state = .held → e.holdReason = 4 → ends (.sesRelease src h) 0xC5 0 fun t e' =>
      e'.state = (if 0 < e.transcriptBytes then .prefill else .active) ∧ e'.holdReason = 0 ∧ e'.tokens = e.tokens ∧ t.regs = s.regs) ∧
    (e.state ≠ .free → e.state ≠ .ended → e.state ≠ .faulted →
      (∀ v : Word, v.toNat ≤ 7 → ends (.sesConfig src h 1 0 v) 0xCE (BitVec.ofNat 64 e.prio) fun t e' =>
        e'.prio = v.toNat ∧ e'.tag = e.tag ∧ e'.state = e.state ∧ t.regs = s.regs ∧ t.hbm = s.hbm) ∧
      (∀ v : Word, ends (.sesConfig src h 4 0 v) 0xCE e.tag fun t e' =>
        e'.tag = v ∧ e'.prio = e.prio ∧ e'.state = e.state ∧ t.regs = s.regs ∧ t.hbm = s.hbm) ∧
      (∀ v : Word, 7 < v.toNat →
        exec (.sesConfig src h 1 0 v) s = .next (completeFail (stampStatus s i 0x2014) src 0xCE 0x2014 h e.tag))) ∧
    (∀ (pos : Nat) (tag : Word) (m : Model) (lo hi : Nat) (rest : List (Nat × Nat)),
      (e.state = .waiting ∨ e.state = .held) → e.tier = .p1 → pos ≤ e.tokens → mget s.gal.models e.model = some m →
      (m.recur = true → pos = e.tokens) →
      ((localFrames ((forkSplit m e.kv pos).1.map (·.2))).any fun f =>
        match s.frame f with | none => false | some x => decide (x.refcnt = 65535)) = false →
      bindingOk s e.context e.vocab e.grammar e.model e.dur e.customer = true → slotsMatch s e = true →
      contractOk s e.context e.contract = true → contractFull s e.contract = false →
      s.ses.freeList = (lo, hi) :: rest → lo ≠ i →
      ((takeIndex s).bind fun x => forkPages x.2.2 i lo e m pos).isSome →
      ∃ (t : State) (c : Session), Completes (.sesFork src h pos false 0 tag) s src 0xC6 0 (handleOf t lo c) h e.tag t ∧
        t.ses? lo = some c ∧ c.state = .waiting ∧ c.tokens = pos ∧ c.link = handleOf t i e ∧ c.tag = tag ∧
        c.instar = (mget s.ses.freeInstar lo).getD s.ses.baseInstar ∧ c.vocab = e.vocab ∧ c.model = e.model ∧
        (∃ e' : Session, t.ses? i = some e' ∧ e'.tokens = e.tokens ∧ e'.state = e.state)) ∧
    (∀ device : Nat, (e.state = .waiting ∨ e.state = .held) → e.park = none → e.rev = none → s.fab.stopped = false →
      ends (.sesMigrate src h device) 0xC7 0 fun t e' => e'.state = .migrating ∧ e'.seqValid = false ∧
        (∃ m : MigOp, e'.mig = some m ∧ m.dest = device ∧ m.prev = e.state) ∧ t.fab.sent = s.fab.sent ++ [.migrate i device])

/-- ses.cancel (R63, R66), its drain (R67) and timeout (R69), ses.end and ses.free (R36, R49). -/
def Obligations.SessionsCancelEndAndFree : Prop :=
  ∀ (s : State) (src : Src) (h : Word) (i : Nat) (e : Session), s.ses? i = some e →
    (ItemGo s src → Handle s src h i e → (e.state = .active ∨ e.state = .waiting ∨ e.state = .held ∨ e.state = .prefill) →
      e.park = none → e.rev = none → e.ending = none → e.mig = none → e.p3 = none →
      Ends (.sesCancel src h) s fun t => ∃ e' : Session, t.ses? i = some e' ∧ e'.state = .cancelling ∧ e'.cancelReq = true ∧
        e'.seqValid = false ∧ e'.cancel = some (src, s.clk.now, e.text.sampler.nextOseq) ∧ e'.tokens = e.tokens ∧
        (e.seqValid = true → mwf s.gal.slots = true → mget t.gal.slots e.seqSlot = none) ∧ inStep t i = inStep s i ∧ t.hbm = s.hbm) ∧
    (∀ x, e.cancel = some x → inStep s i = false → e.tombstone = 0 →
      Ends (.cancelDrainComplete i) s fun t => ∃ e' : Session, t.ses? i = some e' ∧ e'.state = .ended ∧ e'.cancel = none ∧
        e'.lastStatus = 0 ∧ e'.kv = [] ∧ e'.seqValid = false) ∧
    (∀ x, e.cancel = some x → x.2.1 + s.fld FLT_TIMEOUT_B_DRAIN_MS * 1000000 ≤ s.clk.now →
      Ends (.sessionDrainTimeout i) s fun t => ∃ e' : Session, t.ses? i = some e' ∧ e'.state = .ended ∧ e'.cancel = none ∧
        e'.lastStatus = 0xA001) ∧
    (e.cancel = none → exec (.cancelDrainComplete i) s = .next s ∧ exec (.sessionDrainTimeout i) s = .next s) ∧
    (ItemGo s src → Handle s src h i e → (e.state = .active ∨ e.state = .waiting ∨ e.state = .held ∨ e.state = .prefill) → e.endReq = false →
      (inStep s i = true → Ends (.sesEnd src h) s fun t => ∃ e' : Session, t.ses? i = some e' ∧ e'.state = e.state ∧
        e'.endReq = true ∧ e'.ending = some src ∧ t.regs = s.regs ∧ t.gal = s.gal) ∧
      (inStep s i = false → e.park = none → e.rev = none → Ends (.sesEnd src h) s fun t => ∃ e' : Session, t.ses? i = some e' ∧
        e'.state = .ended ∧ e'.lastStatus = 0 ∧ e'.kv = [] ∧ e'.p3 = none ∧ e'.seqValid = false)) ∧
    (ItemGo s src → Handle s src h i e → (e.state = .ended ∨ e.state = .faulted) → mwf s.ses.entries = true →
      ∃ t : State, Completes (.sesFree src h) s src 0xCC 0 0 h e.tag t ∧ t.ses? i = none ∧
        t.ses.freeList = s.ses.freeList ++ [(i, i)] ∧
        mget t.ses.freeInstar i = some (if e.instar = 0xFFFFFF then 1 else e.instar + 1) ∧ t.hbm = s.hbm ∧ t.gal = s.gal)

/-- The wait grace (R50), the overdue rule (R90), the proactive start (R87) and the deadline notice (R91) of a WAITING session. -/
def Obligations.WaitingSessionsFollowTheirTimes : Prop :=
  ∀ (s : State) (i : Nat) (e : Session), s.ses? i = some e → e.state = .waiting → e.park = none → e.parkBusy = false →
    e.rev = none → e.reviveBusy = false →
    let c := chooseTier s e 0
    (e.tier = .p1 → ∀ t0, e.graceAt = some t0 → t0 ≤ s.clk.now → Ends (.waitGraceExpiry i) s fun t => ∃ e' : Session,
      t.ses? i = some e' ∧ e'.graceAt = none ∧ e'.tier = .p1 ∧ e'.expectTime = e.expectTime ∧
      (c.tier = .p1 → e'.park = none ∧ t.regs = s.regs) ∧
      (c.tier ≠ .p1 → (policePark s e c.tier c.bytes).1 ≠ 3 → e'.parkBusy = true ∧
        (e'.park.map fun p => (p.target, p.place, p.bytes)) = some (c.tier, c.place, c.bytes))) ∧
    (∀ t0, e.graceAt = some t0 → s.clk.now < t0 → exec (.waitGraceExpiry i) s = .next s) ∧
    (e.tier = .p1 → e.expectTime ≠ 0 → e.overdueDone = false →
      (e.expectTime + s.fld (SES_CLASS_A_OVERDUE_MS e.cls) * 1000000 ≤ s.clk.now → Ends (.overdueExpiry i) s fun t =>
        ∃ e' : Session, t.ses? i = some e' ∧ e'.expectTime = (if s.clk.now < e.deadline then e.deadline else 0) ∧
          e'.deadline = e.deadline ∧ e'.state = .waiting ∧ e'.tier = .p1) ∧
      (s.clk.now < e.expectTime + s.fld (SES_CLASS_A_OVERDUE_MS e.cls) * 1000000 → exec (.overdueExpiry i) s = .next s)) ∧
    ((e.tier = .p2 ∨ (e.tier = .p3 ∧ ∃ y, e.p3 = some y ∧ copyPresent s y = true)) → e.expectTime ≠ 0 →
      (e.expectTime * tick ≤ s.clk.now * tick + revTime e.tier (sesBytes e) + margin s e.cls e.tier (sesBytes e) →
        (startRevival s i false).2 = 0 → Ends (.proactiveRevivalStart i) s fun t => ∃ (e' : Session) (r : RevOp),
          t.ses? i = some e' ∧ e'.reviveBusy = true ∧ e'.rev = some r ∧ r.src = e.tier ∧ r.notify = false ∧ e'.tier = e.tier) ∧
      (s.clk.now * tick + revTime e.tier (sesBytes e) + margin s e.cls e.tier (sesBytes e) < e.expectTime * tick →
        exec (.proactiveRevivalStart i) s = .next s)) ∧
    (e.deadline ≠ 0 → e.deadline ≤ s.clk.now →
      (e.deadlineDone = false → exec (.deadlinePassed i) s =
        .next (sesNoticeFree (s.setSes i { e with deadlineDone := true }) i 10 0x2016)) ∧
      (e.deadlineDone = true → exec (.deadlinePassed i) s = .next s))

/-- The durability lag (R94), deferred writes (R94, R140), pressure parking (R102) and evacuation (R105). -/
def Obligations.DurableCopiesAndPressure : Prop :=
  ∀ (s : State) (i : Nat) (e : Session), s.ses? i = some e → e.state = .waiting → e.park = none → e.parkBusy = false →
    e.rev = none → e.reviveBusy = false → e.tier = .p1 →
    let parks (t : State) (tier : Tier) (place bytes : Nat) (copy : Bool) : Prop := ∃ e' : Session, t.ses? i = some e' ∧
      e'.parkBusy = true ∧ (e'.park.map fun p => (p.target, p.place, p.bytes, p.copyOnly)) = some (tier, place, bytes, copy) ∧
      e'.deferred = none ∧ e'.tier = .p1 ∧ e'.tokens = e.tokens
    let lag := e.waitSince + s.fld (SES_CLASS_B_DUR_LAG_MS e.cls) * 1000000
    (e.dur ≠ 0 → (e.p3 = none ∨ e.dirtyPages ≠ 0) →
      (lag < s.clk.now → ∀ b n, chooseBay s e true = some (b, n) → (policePark s e .p3 n).1 ≠ 3 →
        Ends (.durLagExpiry i) s fun t => parks t .p3 b n true) ∧
      (lag < s.clk.now → chooseBay s e true = none → e.behind = false → Ends (.durLagExpiry i) s fun t =>
        ∃ e' : Session, t.ses? i = some e' ∧ e'.behind = true ∧ e'.deferred = some (.p3, 0, 0, true) ∧ e'.parkBusy = false) ∧
      (s.clk.now ≤ lag → exec (.durLagExpiry i) s = .next s)) ∧
    (∀ t0 p n, e.deferred = some (t0, p, n, true) →
      (∀ b m, chooseBay s e true = some (b, m) → (policePark s e .p3 m).1 ≠ 3 →
        Ends (.deferredParkStart i) s fun t => parks t .p3 b m true) ∧
      (chooseBay s e true = none → exec (.deferredParkStart i) s = .next s)) ∧
    (let rsv := s.fld (SES_CTX_PAGES_RSV_PAGES e.context)
     let free := rsv - s.fld (SES_CTX_PAGES_USED_PAGES e.context)
     let c := chooseTier s e 0
     (s.fld SES_P1_WATER_LOW_PCT * rsv ≤ free * 100 → exec (.p1PressureParking e.context) s = .next s) ∧
     (free * 100 < s.fld SES_P1_WATER_LOW_PCT * rsv →
       s.ses.entries = [(i, e)] → (governing s e.contract 2 fun _ => true) = none →
       c.tier ≠ .p1 → (policePark s e c.tier c.bytes).1 ≠ 3 →
       Ends (.p1PressureParking e.context) s fun t => parks t c.tier c.place c.bytes false)) ∧
    (∀ bay : Nat, (s.fld (CRT_BAY_STATE bay) ≠ 6 → exec (.bayReadOnlyEvacuation bay) s = .next s) ∧
      (∀ b n, s.fld (CRT_BAY_STATE bay) = 6 → s.ses.entries = [(i, e)] → (e.p3.map (·.bay)) = some bay →
        chooseBay s e true (other := true) = some (b, n) → (policePark s e .p3 n).1 ≠ 3 →
        Ends (.bayReadOnlyEvacuation bay) s fun t => parks t .p3 b n true))

/-- The commit of a park (R83, R84), its failure (R85), and the commit of a revival (R84, R286). -/
def Obligations.ParksAndRevivalsCommit : Prop :=
  ∀ (s : State) (i : Nat) (e : Session), s.ses? i = some e →
    (∀ op : ParkOp, e.park = some op →
      (op.target = .p2 → Ends (.parkCommit i) s fun t => ∃ e' : Session, t.ses? i = some e' ∧ e'.tier = .p2 ∧
        e'.lender = op.place ∧ e'.park = none ∧ e'.parkBusy = false ∧ e'.kvRoot = 0 ∧ e'.recurRoot = 0 ∧ e'.tokens = e.tokens ∧
        (∃ y, e'.p2 = some y ∧ y.tokens = e.tokens)) ∧
      (op.target = .p3 → op.journal = 0 → Ends (.parkCommit i) s fun t => ∃ e' : Session, t.ses? i = some e' ∧
        e'.tier = e.tier ∧ e'.park = some { op with journal := 1 } ∧ (t.bay op.place).nextJseq = (s.bay op.place).nextJseq + 1) ∧
      (op.target = .p3 → op.journal = 1 → exec (.parkCommit i) s = .next s) ∧
      (op.target = .p3 → op.journal = 2 → op.copyOnly = false → Ends (.parkCommit i) s fun t => ∃ (e' : Session) (y : Copy),
        t.ses? i = some e' ∧ e'.tier = .p3 ∧ e'.bay = op.place ∧ e'.park = none ∧ e'.parkBusy = false ∧ e'.dirtyPages = 0 ∧
        e'.p3 = some y ∧ y.bay = op.place ∧ y.tokens = e.tokens ∧ y.pages = e.kvPages + 1 + e.transcriptPages.length) ∧
      (∀ st, op.retried = false → ∀ p n, otherPlace s e op = some (p, n) → exec (.parkFailure i st) s =
        .next (s.setSes i { e with park := some { op with place := p, bytes := n, started := s.clk.now, retried := true, journal := 0 } })) ∧
      (∀ st, op.retried = true → e.cancelReq = false → Ends (.parkFailure i st) s fun t => ∃ e' : Session,
        t.ses? i = some e' ∧ e'.park = none ∧ e'.parkBusy = false ∧ e'.tier = e.tier ∧ e'.lastStatus = st)) ∧
    (e.park = none → exec (.parkCommit i) s = .next s ∧ ∀ st, exec (.parkFailure i st) s = .next s) ∧
    (∀ (op : RevOp) (bad : List Nat), e.rev = some op → e.runAfter = none → op.again = false → e.refs.length ≤ op.frames.length →
      Ends (.revivalCommit i bad) s fun t => ∃ e' : Session, t.ses? i = some e' ∧ e'.tier = .p1 ∧ e'.rev = none ∧
        e'.reviveBusy = false ∧ e'.p2 = none ∧ e'.lender = 0 ∧ e'.tokens = e.tokens ∧ e'.p3 = e.p3 ∧ ∀ r ∈ e'.refs, refLoc r = 1) ∧
    (e.rev = none → ∀ bad, exec (.revivalCommit i bad) s = .next s)

/-- The ends of a migration (R49, R503), and lending: advertisements (R97), reclaims (R99) and the sweep (R84). -/
def Obligations.MigrationsAndLendingEnd : Prop :=
  (∀ (s : State) (i : Nat) (e : Session), s.ses? i = some e →
    (e.state = .migrating → ∀ nh : Word, Ends (.migrationCommit i nh) s fun t => ∃ e' : Session, t.ses? i = some e' ∧
      e'.state = .ended ∧ e'.moved = true ∧ e'.link = nh ∧ e'.oldInstar = some e.instar ∧
      e'.instar = (if e.instar = 0xFFFFFF then 1 else e.instar + 1) ∧ e'.kv = []) ∧
    (∀ op : MigOp, e.state = .migrating → e.mig = some op → op.prev = .waiting → e.cancelReq = false →
      (∀ st, Ends (.migrationRefused i st) s fun t => ∃ e' : Session, t.ses? i = some e' ∧ e'.state = .waiting ∧ e'.mig = none ∧
        e'.lastStatus = st ∧ e'.tokens = e.tokens) ∧
      (op.started + s.fld FLT_TIMEOUT_B_MIGRATE_MS * 1000000 ≤ s.clk.now → Ends (.migrationTimeout i) s fun t =>
        ∃ e' : Session, t.ses? i = some e' ∧ e'.state = .waiting ∧ e'.mig = none ∧ e'.lastStatus = 0xA002) ∧
      (s.clk.now < op.started + s.fld FLT_TIMEOUT_B_MIGRATE_MS * 1000000 → exec (.migrationTimeout i) s = .next s)) ∧
    (e.state ≠ .migrating → (∀ nh, exec (.migrationCommit i nh) s = .next s) ∧ ∀ st, exec (.migrationRefused i st) s = .next s)) ∧
  (∀ s : State, Canonical s → s.fab.stopped = false →
    (freeLent s ≠ s.tier.advertised → Ends .advertiseFreeLentSpace s fun t => t.tier.advertised = freeLent s ∧
      t.fab.sent = s.fab.sent ++ [.advert (freeLent s)] ∧ t.ses = s.ses ∧ t.regs = s.regs) ∧
    (freeLent s = s.tier.advertised → exec .advertiseFreeLentSpace s = .next s) ∧
    (∀ l f h ms : Nat, l / 2 ^ 15 = s.fld GLB_DEV_ADDR_PLANE → l ≠ s.devAddr → 0 < f →
      Ends (.lenderAdvertisement l f h ms) s fun t =>
        mget t.tier.lenders l = some { free := f, hops := h, reclaimMs := ms, reclaim := none } ∧
        t.flag SES_TIER_STATUS_P2_OPEN = true ∧ t.ses = s.ses) ∧
    (∀ l f h ms : Nat, l / 2 ^ 15 ≠ s.fld GLB_DEV_ADDR_PLANE ∨ l = s.devAddr → exec (.lenderAdvertisement l f h ms) s = .next s) ∧
    (s.tier.reclaimAt = none → Ends .reclaimNoticeSend s fun t =>
      t.tier.reclaimAt = some (s.clk.now + s.fld SES_LEND_CFG_RECLAIM_MS * 1000000) ∧ t.fld SES_LEND_STATUS_RECLAIMING = 1 ∧
      t.fab.sent = s.fab.sent ++ s.tier.borrowers.map (fun x => .reclaim x.1 (s.clk.now + s.fld SES_LEND_CFG_RECLAIM_MS * 1000000)) ∧
      freeLent t = 0) ∧
    (∀ (d b : Nat) (x : Borrower), s.tier.reclaimAt = some d → mget s.tier.borrowers b = some x → x.acked = false → x.resends < 8 →
      x.sentAt + 100000 ≤ s.clk.now → Ends (.reclaimResend b) s fun t => t.fab.sent = s.fab.sent ++ [.reclaim b d] ∧
        mget t.tier.borrowers b = some { x with resends := x.resends + 1, sentAt := s.clk.now }) ∧
    (∀ (l d : Nat) (x : Lender), mget s.tier.lenders l = some x → lentFrom s l = [] → Ends (.reclaimNotice l d) s fun t =>
      mget t.tier.lenders l = some { x with reclaim := some d } ∧ t.fab.sent = s.fab.sent ++ [.reclaimAck l] ∧ t.ses = s.ses) ∧
    (∀ d : Nat, s.tier.reclaimAt = some d → d ≤ s.clk.now → (∀ x ∈ s.tier.lenders, ∀ d', x.2.reclaim = some d' → s.clk.now < d') →
      Ends .reclaimDeadline s fun t => t.tier.reclaimAt = none ∧ (∀ x ∈ t.tier.borrowers, x.2.frames = []) ∧
        t.fld SES_LEND_STATUS_RECLAIMING = 0 ∧ t.fld SES_LEND_STATUS_LENT_GIB = 0) ∧
    (∀ (b : Nat) (x : Borrower), mget s.tier.borrowers b = some x → Ends (.lenderReclaimSweep b) s fun t => ∃ y : Borrower,
      mget t.tier.borrowers b = some y ∧ y.orphans = [] ∧ ∀ f, f ∈ y.frames ↔ f ∈ x.frames ∧ f ∉ x.orphans))

/-- mkr.define, mkr.drop, mkr.ready, mkr.withdraw, mkr.query (R115 to R122, R611), the evaluation (R118, R119) and the
re-evaluation (R143). -/
def Obligations.MakeReadySetsAreDefinedAndEvaluated : Prop :=
  (∀ (s : State) (src : Src), ItemGo s src →
    (∀ (a : Word) (bs : List Byte), itemRead s src 1 a 96 = .ok bs → defineRefusal s src.ctx (words8 12 bs) = 0 →
      let c : Contract := words8 12 bs
      ∃ t : State, Completes (.mkrDefine src a) s src 0xD0 0 (BitVec.ofNat 64 c.id) (BitVec.ofNat 64 c.id) 0 t ∧
        mget t.mkr.pending c.id = some c ∧ (mwf s.mkr.shed = true → mget t.mkr.shed c.id = none) ∧ t.mkr.admitted = s.mkr.admitted ∧
        t.regs = s.regs) ∧
    (∀ id : Nat, id / 64 = src.ctx → (mget s.mkr.pending id).isSome → mwf s.mkr.pending = true →
      ∃ t : State, Completes (.mkrDrop src id) s src 0xD1 0 0 (BitVec.ofNat 64 id) 0 t ∧ mget t.mkr.pending id = none ∧
        t.mkr.admitted = s.mkr.admitted) ∧
    (∀ id : Nat, mget s.mkr.pending id = none →
      exec (.mkrDrop src id) s = .next (completeFail s src 0xD1 0x3012 (BitVec.ofNat 64 id) 0)) ∧
    (∀ a : Word, s.fld GLB_TIME_STATUS_LOCKED ≠ 0 → s.mkr.evaluating = none → s.mkr.waiting = [] → Canonical s →
      Ends (.mkrReady src a) s fun t => t.mkr.evaluating = some ⟨src, a⟩ ∧ t.mkr.waiting = [] ∧ t.fld MKR_STATUS_EVALUATING = 1 ∧
        t.mkr.pending = s.mkr.pending ∧ t.mkr.admitted = s.mkr.admitted ∧ t.host = s.host) ∧
    (∀ (a : Word) (r : ReadyReq), s.fld GLB_TIME_STATUS_LOCKED ≠ 0 → s.mkr.evaluating = some r →
      Ends (.mkrReady src a) s fun t => t.mkr.evaluating = some r ∧ t.mkr.waiting = s.mkr.waiting ++ [⟨src, a⟩] ∧ t.host = s.host) ∧
    (∀ a : Word, s.fld GLB_TIME_STATUS_LOCKED = 0 → exec (.mkrReady src a) s =
      .next (completeFail (s.setFld MKR_STATUS_LAST_STATUS 0x3002) src 0xD2 0x3002 0 0)) ∧
    (∃ t : State, Completes (.mkrWithdraw src) s src 0xD3 0 0 0 0 t ∧
      t.mkr.pending = s.mkr.pending.filter (fun x => x.1 / 64 ≠ src.ctx) ∧
      t.mkr.admitted = s.mkr.admitted.filter (fun x => x.1 / 64 ≠ src.ctx) ∧ t.ses = s.ses) ∧
    (∀ (id : Nat) (a : Word) (st : Nat) (c : Contract) (t : State), id / 64 = src.ctx → contractState s id = some (st, c) →
      itemWrite s src 2 a (queryImage s id st c) = .ok t →
      Completes (.mkrQuery src id a) s src 0xD4 0 (BitVec.ofNat 64 st) (BitVec.ofNat 64 id) 0 t ∧
      (c.length = 12 → (queryImage s id st c).length = 128 ∧ (queryImage s id st c).take 96 = c.flatMap fun w => leBytes 8 w.toNat))) ∧
  (∀ (s : State) (r : ReadyReq), s.mkr.evaluating = some r → s.mkr.waiting = [] → s.mkr.due = false → Canonical s →
    s.fld GLB_TIME_STATUS_LOCKED ≠ 0 →
    let set := setFor s r.src.ctx
    let l := chargeAll s (chargeOrder s r.src.ctx) []
    (linksOk s r.src.ctx = true → shortScopes s set ((keptOf s).map (·.2)) l = [] →
      lateOnes s set = [] → Ends .makeReadyEvaluation s fun t =>
        t.mkr.admitted = set ∧ t.mkr.evaluating = none) ∧
    (linksOk s r.src.ctx = false → Ends .makeReadyEvaluation s fun t =>
      t.mkr.admitted = s.mkr.admitted ∧ t.mkr.pending = s.mkr.pending ∧ t.mkr.evaluating = none)) ∧
  (∀ s : State, (s.mkr.evaluating = none → exec .makeReadyEvaluation s = .next s) ∧
    (s.mkr.due = false → exec .capacityReevaluation s = .next s) ∧
    (s.mkr.due = true → Ends .capacityReevaluation s fun t => t.mkr.due = false ∧
      ∀ x ∈ t.mkr.admitted, ∃ y ∈ s.mkr.admitted, y.1 = x.1))

/-- gal.load, gal.unload (R158, R187, R558), gal.draft (R173), gal.preempt and gal.resume (R181). -/
def Obligations.ModelsAndDraftsAreLoaded : Prop :=
  ∀ (s : State) (src : Src), ItemGo s src → Canonical s →
    (∀ (slot source : Nat) (a : Word) (bs : List Byte), src.ctx = 0 → slot < 1024 → (source = 1 ∨ source = 2) → mget s.gal.models slot = none →
      readImage s src source a = .ok bs → headerOk bs = true → layoutOk bs = true →
      ∃ (t : State) (m : Model), Completes (.galLoad src slot source a) s src 0xD8 0 (BitVec.ofNat 64 (leNat ((bs.drop 8).take 8))) 0 0 t ∧
        mget t.gal.models slot = some m ∧ m.params = leNat ((bs.drop 8).take 8) ∧ m.bindings = 0 ∧ m.source = source ∧ m.addr = a ∧
        m.digest = (bs.drop 208).take 48 ∧ t.ses = s.ses ∧ t.hbm = s.hbm) ∧
    (∀ (slot : Nat) (m : Model), src.ctx = 0 → mget s.gal.models slot = some m → mwf s.gal.models = true → m.bindings = 0 → sliceNames s slot = false →
      ∃ t : State, Completes (.galUnload src slot) s src 0xD9 0 0 0 0 t ∧ mget t.gal.models slot = none ∧
        ∀ k, k ≠ slot → mget t.gal.models k = mget s.gal.models k) ∧
    (∀ (slot : Nat) (m : Model), src.ctx = 0 → mget s.gal.models slot = some m → 0 < m.bindings →
      exec (.galUnload src slot) s = .next (completeFail s src 0xD9 0x4005 0 0)) ∧
    (src.ctx ≠ 0 → (∀ (slot source : Nat) (a : Word), exec (.galLoad src slot source a) s = .next (completeFail s src 0xD8 0x400B 0 0)) ∧
      ∀ slot : Nat, exec (.galUnload src slot) s = .next (completeFail s src 0xD9 0x400B 0 0)) ∧
    (∀ (h a : Word) (base count i : Nat) (e : Session) (bs : List Byte) (x y : Slot), Handle s src h i e →
      e.state ≠ .ended → e.state ≠ .faulted → 1 ≤ count → count ≤ 16 → e.seqValid = true → itemRead s src 3 a (4 * count) = .ok bs →
      mget s.gal.slots e.seqSlot = some x → x.index = i → draftWrite x e.tokens base (wordsOf bs) = some y →
      ∃ t : State, Completes (.galDraft src h base count a) s src 0xDA 0 (BitVec.ofNat 64 y.draftReady) h e.tag t ∧
        mget t.gal.slots e.seqSlot = some y ∧ y.draftReady = y.draft.length ∧ y.draft.length ≤ 16 ∧
        (base = e.tokens → x.draftReady = 0 → y.draft = (wordsOf bs).take 16 ∧ y.draftBase = base)) ∧
    (∀ (p : Nat) (a : Word), p < 16 → switchRefusal s src.ctx p a true = 0 →
      ∃ (t : State) (d : Nat), d ≤ saveBound s p ∧ Completes (.galPreempt src p a) s src 0xDB 0 (BitVec.ofNat 64 d) 0 0 t ∧
        stopped t p = true ∧ (∀ q, q < 16 → q ≠ p → stopped t q = stopped s q) ∧
        ∀ n ∈ partCells s p, (t.cell n).run ≠ .running ∧ (t.cell n).mem = (s.cell n).mem) ∧
    (∀ (p : Nat) (a : Word), p < 16 → switchRefusal s src.ctx p a false = 0 →
      ∃ t : State, Completes (.galResume src p a) s src 0xDC 0 0 0 0 t ∧ stopped t p = false ∧
        ∀ q, q < 16 → q ≠ p → stopped t q = stopped s q) ∧
    (∀ (p : Nat) (a : Word), switchRefusal s src.ctx p a true ≠ 0 →
      exec (.galPreempt src p a) s = .next (completeFail s src 0xDB (switchRefusal s src.ctx p a true) 0 0)) ∧
    (∀ (p : Nat) (a : Word), switchRefusal s src.ctx p a false ≠ 0 →
      exec (.galResume src p a) s = .next (completeFail s src 0xDC (switchRefusal s src.ctx p a false) 0 0))

/-- The build (R160, R168), the swap (R162), the commit (R175, R245) with a cancelled session's record (R64), the missed contract
(R165) and the step watchdog (R503). -/
def Obligations.GalleysAreBuiltSwappedAndCommitted : Prop :=
  ∀ (s : State) (p k : Nat), p < 16 → k < 4 → Canonical s →
    let sl := 4 * p + k
    let y := s.slice sl
    (sliceOn s p k = true → y.built = none → (sliceModel s p k).isSome → Ends (.galleyBuild p k) s fun t => ∃ g : Galley,
      (t.slice sl).built = some g ∧ g.step = y.nextStep ∧ (t.slice sl).nextStep = (y.nextStep + 1) % 2 ^ 32 ∧
      g.release = (nextRelease s p k).1 ∧ g.deadline = g.release + periodOf s p k ∧ (t.slice sl).building = false ∧ g.done = [] ∧
      (s.fld (GAL_SLICE_A_KIND p k) = 0 → boundContract s sl = none → g.cCount = 0 ∧ g.positions ≤ s.fld (GAL_SLICE_B_MAX_POS p k))) ∧
    (sliceOn s p k = false ∨ y.built ≠ none → exec (.galleyBuild p k) s = .next s) ∧
    (∀ g : Galley, y.built = some g → y.running = none → (sliceModel s p k).isSome → sliceOn s p k = true → stopped s p = false →
      barred s p k = false → g.release ≤ s.clk.now → y.prevDone ≤ s.clk.now → g.recs = [] →
      Ends (.galleySwap p k) s fun t => ∃ g' : Galley, (t.slice sl).running = some g' ∧ (t.slice sl).built = none ∧ g'.step = g.step ∧
        (t.slice sl).building = true ∧ t.fld (GAL_STEP_STEP p k) = g.step % 2 ^ 32 ∧ t.ses = s.ses) ∧
    (∀ g : Galley, y.running = some g → (s.part p).running = some k → (∀ n ∈ partCells s p, n ∈ g.done) →
      (g.recs = [] → Ends (.galleyCommit p k) s fun t => (t.slice sl).running = none ∧ (t.slice sl).prevDone = s.clk.now ∧ t.ses = s.ses) ∧
      (∀ (r : Rec) (e : Session), g.recs = [r] → r.void = false → r.newPages = [] → s.ses? r.index = some e → e.cancelReq = true →
        e.ending = none → e.holdReq = false → Ends (.galleyCommit p k) s fun t => (t.slice sl).running = none ∧
          ∃ e' : Session, t.ses? r.index = some e' ∧ e'.tokens = e.tokens ∧ e'.generated = e.generated ∧ e'.history = e.history)) ∧
    (∀ g : Galley, y.running = some g → (∃ n ∈ partCells s p, n ∉ g.done) → exec (.galleyCommit p k) s = .next s) ∧
    (∀ (g : Galley) (id : Nat), y.running = some g → y.contract = some id → 0 < g.cCount → g.deadline < s.clk.now →
      (g.missed = false → Ends (.contractStepMissed p k) s fun t => ((t.slice sl).running.map (·.missed)) = some true ∧
        t.fld GAL_OVERRUN_COUNT = min (2 ^ 32 - 1) (s.fld GAL_OVERRUN_COUNT + 1) ∧ t.ses = s.ses) ∧
      (g.missed = true → exec (.contractStepMissed p k) s = .next s)) ∧
    (∀ g : Galley, y.running = some g → g.recs = [] → (∃ n ∈ partCells s p, n ∉ g.done) →
      (g.release + s.fld FLT_TIMEOUT_A_STEP_WD * (g.deadline - g.release) ≤ s.clk.now → Ends (.stepWatchdog p k) s fun t =>
        (t.slice sl).running = none ∧ (t.slice sl).prevDone = s.clk.now ∧ t.ses = s.ses) ∧
      (s.clk.now < g.release + s.fld FLT_TIMEOUT_A_STEP_WD * (g.deadline - g.release) → exec (.stepWatchdog p k) s = .next s))

/-- tok.vload, tok.gload, tok.unload, tok.encode (R319 to R322, R335), a logits segment (R326) and the sampling of a position
(R331). -/
def Obligations.TextEnginesLoadEncodeAndSample : Prop :=
  (∀ (s : State) (src : Src), ItemGo s src → Canonical s →
    (∀ (slot : Nat) (a : Word) (bs : List Byte) (v : Vocab), slot < 64 → mget s.tok.vocabs slot = none → readHeaded s src a 7 = .ok bs →
      parseVocab bs = .ok v → ∃ t : State, Completes (.tokVload src slot a) s src 0xE0 0 (BitVec.ofNat 64 v.ntok) 0 0 t ∧
        mget t.tok.vocabs slot = some v ∧ t.flag (TOK_VOCAB_A_LOADED slot) = true ∧ t.fld (TOK_VOCAB_B_VOCAB_ID slot) = v.vocabId % 2 ^ 64 ∧
        1 ≤ v.ntok ∧ v.ntok ≤ 1048576 ∧ t.ses = s.ses) ∧
    (∀ (slot : Nat) (a : Word) (bs : List Byte) (v : Vocab) (g : Grammar) (j : Nat), 1 ≤ slot → slot < 256 →
      mget s.tok.grammars slot = none → readHeaded s src a 5 = .ok bs → gramHeadOk bs = true →
      (s.tok.vocabs.find? fun w => w.2.vocabId = imgWord bs 1) = some (j, v) → parseGrammar bs v.ntok = some g →
      ∃ t : State, Completes (.tokGload src slot a) s src 0xE1 0 (BitVec.ofNat 64 g.nstates) 0 0 t ∧
        mget t.tok.grammars slot = some g ∧ t.flag (TOK_GRAM_A_LOADED slot) = true ∧ t.ses = s.ses) ∧
    (∀ (slot : Nat) (g : Grammar), 1 ≤ slot → slot < 256 → mget s.tok.grammars slot = some g → mwf s.tok.grammars = true →
      s.fld (TOK_GRAM_A_BINDINGS slot) = 0 → ∃ t : State, Completes (.tokUnload src 1 slot) s src 0xE2 0 0 0 0 t ∧
        mget t.tok.grammars slot = none ∧ t.flag (TOK_GRAM_A_LOADED slot) = false ∧ t.tok.vocabs = s.tok.vocabs) ∧
    (exec (.tokUnload src 1 0) s = .next (completeFail s src 0xE2 0x6007 0 0)) ∧
    (∀ (vocab n : Nat) (a d : Word) (v : Vocab) (bs : List Byte) (t : State), n ≠ 0 → mget s.tok.vocabs vocab = some v →
      itemRead s src 2 a n = .ok bs → itemWrite s src 3 d (((tokenise v bs).map (·.1)).flatMap fun x => leBytes 4 x) = .ok t →
      Completes (.tokEncode src vocab n a d) s src 0xE3 0 (BitVec.ofNat 64 (tokenise v bs).length) 0 0 t)) ∧
  (∀ (s : State) (p k i o first : Nat) (ls : List (BitVec 32)) (g : Galley) (r : Rec), p < 16 → k < 4 →
    (s.slice (4 * p + k)).running = some g → g.recs[i]? = some r → r.void = false → wanted s r o = true →
    let n := ((recVocab s r).map (·.ntok)).getD 0
    let old := (mget r.logits o).getD []
    let clear := ∀ x ∈ old, first + ls.length ≤ x.1 ∨ x.1 + x.2.length ≤ first
    (first + ls.length ≤ n → clear → Ends (.logitSegment p k i o first ls) s fun t => ∃ r' : Rec, recAt t (4 * p + k) i = some r' ∧
      mget r'.logits o = some (old ++ [(first, ls)]) ∧ r'.spoiled = r.spoiled ∧ t.ses = s.ses ∧ t.regs = s.regs) ∧
    (n < first + ls.length → Ends (.logitSegment p k i o first ls) s fun t => ∃ r' : Rec, recAt t (4 * p + k) i = some r' ∧
      r'.spoiled = true ∧ r'.logits = r.logits) ∧
    (∀ (e : Session) (v : Vocab) (zs : List Nat) (st : GState), s.ses? r.index = some e → mget s.tok.vocabs e.vocab = some v →
      r.spoiled = false → e.cancelReq = false → e.instar = r.instar → mget r.sampled o = none → allLogits r o v.ntok = some zs →
      gramAt s e v r o = some st →
      let d := sampleToken e.text.sampler (r.pos + o) zs (gramMask v (mget s.tok.grammars e.grammar) e.text.sampler.ignoreEnd st)
      (∀ x, d = .token x → Ends (.positionSampled p k i o) s fun t => ∃ r' : Rec, recAt t (4 * p + k) i = some r' ∧
        mget r'.sampled o = some (some x) ∧ t.regs = s.regs ∧ t.ses = s.ses) ∧
      (d = .noToken → Ends (.positionSampled p k i o) s fun t => ∃ r' : Rec, recAt t (4 * p + k) i = some r' ∧
        mget r'.sampled o = some none ∧ t.ses = s.ses)) ∧
    ((mget r.sampled o).isSome → exec (.positionSampled p k i o) s = .next s))

/-- The associative banks (R353 to R361): configuration, writes, searches, reads and the scrub. -/
def Obligations.AssociativeBanksFindTheFirst : Prop :=
  (∀ (s : State) (src : Src) (b : Nat), ItemGo s src → Canonical s → b < 32 →
    let w := bankUnits s b
    let entry (t : State) (e : Nat) : List Byte := entryOf (t.bank b).rows (bankUnits t b) e
    (bankOwned s src b = false → ∀ (e : Nat) (a : Word), exec (.camRead src b e a) s = .next (completeFail s src 0xE7 0x6030 0 0) ∧
      exec (.camWrite src b e false a) s = .next (completeFail s src 0xE5 0x6030 0 0)) ∧
    (bankOwned s src b = true →
      (∀ (width keyBytes : Nat) (verify : Bool), width ≤ 2 → 1 ≤ keyBytes → keyBytes ≤ 16 * 2 ^ width - 1 →
        ∃ t : State, Completes (.camCfg src b width keyBytes verify) s src 0xE4 0 0 0 0 t ∧ bankUnits t b = 2 ^ width ∧
          t.fld (CAM_CFG_KEY_BYTES b) = keyBytes ∧ t.flag (CAM_CFG_VERIFY b) = verify ∧ t.fld (CAM_CFG_VALID_ENTRIES b) = 0 ∧
          (mwf (s.bank b).rows = true → ∀ e, e < bankEntries t b → entryValid (entry t e) = false)) ∧
      (∀ (e : Nat) (a : Word) (bs : List Byte), e < bankEntries s b → itemRead s src 2 a (16 * w) = .ok bs → bs.length = 16 * w →
        mwf (s.bank b).rows = true → mwf (s.bank b).copy = true →
        ∃ t : State, Completes (.camWrite src b e false a) s src 0xE5 0 0 0 0 t ∧
          entry t e = withValid bs (entryValid bs) ∧ entryOf (t.bank b).copy w e = withValid bs (entryValid bs) ∧
          (∀ j, (j < w * e ∨ w * e + w ≤ j) → rowOf (t.bank b).rows j = rowOf (s.bank b).rows j) ∧
          ∀ c, c ≠ b → t.bank c = s.bank c) ∧
      (∀ (start : Nat) (ka mask : Word) (key : List Byte), start < bankEntries s b → s.flag (CAM_CFG_VERIFY b) = false →
        itemRead s src 2 ka (s.fld (CAM_CFG_KEY_BYTES b)) = .ok key →
        let hits (e : Nat) : Prop := start ≤ e ∧ e < bankEntries s b ∧ keyMatches key mask.toNat (entry s e) = true
        ((∀ e, ¬ hits e) → Completes (.camFind src b start ka mask 0) s src 0xE6 0 0 0 0 s) ∧
        (∀ e, hits e → (∀ j, hits j → e ≤ j) → ∃ r : Word, Completes (.camFind src b start ka mask 0) s src 0xE6 0 r 0 0 s ∧
          bits r.toNat 0 13 = e ∧ r.getLsbD 13 = true ∧ (r.getLsbD 14 = true ↔ ∃ j, j ≠ e ∧ hits j))) ∧
      (∀ (e : Nat) (a : Word) (t : State), e < bankEntries s b → itemWrite s src 2 a (entry s e) = .ok t →
        Completes (.camRead src b e a) s src 0xE7 0 (if entryValid (entry s e) then 1 else 0) 0 0 t))) ∧
  (∀ (s : State) (b : Nat), s.fld (CAM_CFG_OWNER_KIND b) ≠ 0 →
    Ends (.camScrub b) s fun t => (∀ i, i < 8192 → rowOf (t.bank b).rows i = rowOf (s.bank b).copy i) ∧
      (t.bank b).copy = (s.bank b).copy ∧ t.ses = s.ses)

/-- The transitions of a bay (R364, R365) with the colophon's acceptance (R377), wear records (R379) and the end of life (R406). -/
def Obligations.BaysFollowTheirTransitions : Prop :=
  ∀ (s : State) (b : Nat), b < 4 → Canonical s → baysRun s b = true →
    let x := s.bay b
    (bst s b = 0 → s.pins.present.length = 4 → Ends (.presenceAsserted b) s fun t => bst t b = 1 ∧ t.flag (CRT_BAY_PRESENT b) = true ∧
      (t.bay b).since = s.clk.now ∧ t.pins.present[b]? = some true ∧ t.ses = s.ses) ∧
    (bst s b ≠ 0 → Ends (.presenceAsserted b) s fun t => bst t b = bst s b) ∧
    (bst s b = 1 → Ends (.holdUpGood b) s fun t => bst t b = 2 ∧ t.flag (CRT_BAY_HOLDUP_OK b) = true ∧ (t.bay b).badAt = none) ∧
    (bst s b ≠ 1 → Ends (.holdUpGood b) s fun t => bst t b = bst s b ∧ t.flag (CRT_BAY_HOLDUP_OK b) = true) ∧
    (bst s b = 1 → x.since + 2 * 10 ^ 9 ≤ s.clk.now → Ends (.holdUpTimerExpiry b) s fun t => bst t b = 10 ∧
      t.fld (CRT_BAY_RO_REASON b) = 3) ∧
    (bst s b ≠ 1 ∨ s.clk.now < x.since + 2 * 10 ^ 9 → exec (.holdUpTimerExpiry b) s = .next s) ∧
    (∀ (c : Colophon) (wa wb sb : Option WearRec) (er : Bool),
      let ok := c.sigOk = true ∧ c.ver = 1 ∧ c.channels = 24 ∧ c.tProgSlc ≤ 230 ∧
        c.tResumeMin + c.tSusp + 2 * c.tRdWorst + 4 ≤ 200 ∧ c.reservedZero = true
      (bst s b = 2 → ok → Ends (.colophonVerified b c wa wb sb er) s fun t => bst t b = 3 ∧ (t.bay b).col = some c ∧
        t.fld (CRT_SERIAL_SERIAL b) = c.serial % 2 ^ 64 ∧ t.fld (CRT_BAY_PART b) = c.part % 2 ^ 16 ∧
        ((t.bay b).blank = true ↔ er = true ∧ (∀ w, wa = some w → w.tagOk = false) ∧ (∀ w, wb = some w → w.tagOk = false) ∧
          ∀ w, sb = some w → w.tagOk = false)) ∧
      (bst s b = 2 → ¬ ok → mget s.flt.latch (0xB00 + 8 * b + 6) = none → Ends (.colophonVerified b c wa wb sb er) s fun t =>
        bst t b = 10 ∧ (t.bay b).col = x.col ∧ ∃ m, mget t.flt.latch (0xB00 + 8 * b + 6) = some m ∧ m.status = 0x800A) ∧
      (bst s b ≠ 2 → exec (.colophonVerified b c wa wb sb er) s = .next s)) ∧
    (bst s b = 2 → x.since + 100 * 10 ^ 6 ≤ s.clk.now → Ends (.i3cSilent b) s fun t => bst t b = 10) ∧
    (bst s b ≠ 2 ∨ s.clk.now < x.since + 100 * 10 ^ 6 → exec (.i3cSilent b) s = .next s) ∧
    (∀ (lanes : Nat) (same : Bool),
      (bst s b = 3 → 5 ≤ lanes → lanes ≤ 6 → same = true → s.clk.now ≤ x.since + 50 * 10 ^ 6 → Ends (.linkTrained b lanes same) s fun t =>
        bst t b = 4 ∧ t.fld (CRT_BAY_LANES_GOOD b) = lanes ∧ (t.bay b).ops = [] ∧ (t.bay b).col = x.col) ∧
      (bst s b = 3 → lanes < 5 ∨ same = false ∨ x.since + 50 * 10 ^ 6 < s.clk.now → ∃ t : State, bst t b = 10 ∧
        exec (.linkTrained b lanes same) s = .next (cartridgeLost t b (s.fld (CRT_SERIAL_SERIAL b)))) ∧
      (bst s b ≠ 3 → exec (.linkTrained b lanes same) s = .next s) ∧
      (bst s b = 10 → s.flag (CRT_BAY_PRESENT b) = true → x.col.isSome → x.since + 10 ^ 9 ≤ s.clk.now →
        (5 ≤ lanes → lanes ≤ 6 → same = true → Ends (.trainingRetry b lanes same) s fun t => bst t b = 4 ∧
          t.fld (CRT_BAY_LANES_GOOD b) = lanes) ∧
        (lanes < 5 ∨ same = false → Ends (.trainingRetry b lanes same) s fun t => bst t b = 10 ∧ (t.bay b).since = s.clk.now)) ∧
      (bst s b ≠ 10 ∨ s.flag (CRT_BAY_PRESENT b) = false → exec (.trainingRetry b lanes same) s = .next s)) ∧
    (∀ (opened : Bool) (n : Nat) (recs : List (DirRec × HeadPage)), bst s b = 4 → s.fld GLB_STATE_READY = 0 →
      (x.blank = true → Ends (.replayComplete b opened n recs) s fun t => bst t b = (if x.wear.readOnly then 6 else 5) ∧
        (t.bay b).blank = false ∧ (t.bay b).checkpoint = [] ∧ (t.bay b).journal = [] ∧ t.mkr.due = true) ∧
      (x.blank = false → s.sec.keys.isSome → opened = true → Ends (.replayComplete b opened n recs) s fun t =>
        bst t b = (if x.wear.readOnly then 6 else 5) ∧ (t.bay b).checkpoint = recs.take n ∧ (t.bay b).journal = recs.drop n ∧
        (∀ y ∈ recs, y.1.jseq < (t.bay b).nextJseq) ∧ t.mkr.due = true) ∧
      (x.blank = false → s.sec.keys = none → Ends (.replayComplete b opened n recs) s fun t => bst t b = 4 ∧ (t.bay b).tried = true)) ∧
    (∀ (opened : Bool) (n : Nat) (recs : List (DirRec × HeadPage)), bst s b = 4 → s.fld GLB_STATE_READY ≠ 0 → x.blank = false →
      x.opened = false → opened = false → Ends (.replayComplete b opened n recs) s fun t => bst t b = 7) ∧
    (∀ r : Nat, bst s b = 5 → lifeOver s b r = true → parkingTo s b = [] → (x.waitItems.filter fun y => y.1 = 0xF5) = [] →
      Ends (.endOfLife b r) s fun t => bst t b = 6 ∧ t.fld (CRT_BAY_RO_REASON b) = r ∧ (t.bay b).wear.readOnly = true ∧
        (t.bay b).compact = none ∧ t.mkr.due = true) ∧
    (∀ r : Nat, bst s b ≠ 5 ∨ lifeOver s b r = false → exec (.endOfLife b r) s = .next s) ∧
    (bst s b ≠ 0 → Ends (.presenceDeasserted b) s fun t => bst t b = 0 ∧ t.flag (CRT_BAY_PRESENT b) = false ∧ (t.bay b).col = none ∧
      (t.bay b).journal = [] ∧ t.mkr.due = true) ∧
    (Ends (.holdUpStatusBad b) s fun t => t.flag (CRT_BAY_HOLDUP_OK b) = false ∧ bst t b = bst s b ∧
      (bst s b = 5 → (t.bay b).badAt = some (x.badAt.getD s.clk.now))) ∧
    (∀ a : Bool, (4 ≤ bst s b → bst s b ≤ 8 → Ends (.wearRecordWrite b a) s fun t => (t.bay b).wear.wgen = x.wear.wgen + 1 ∧
        (t.bay b).wear.tagOk = true ∧ (t.bay b).wearAt = s.clk.now ∧ (t.bay b).wearCopy = (if a then 1 - x.wearCopy else x.wearCopy) ∧
        t.regs = s.regs ∧ t.ses = s.ses) ∧
      (bst s b < 4 ∨ 8 < bst s b → exec (.wearRecordWrite b a) s = .next s))

/-- crt.put, crt.get, crt.del, crt.eject and crt.format (R410), objects (R409) and the end of an eject (R365). -/
def Obligations.CartridgeItemsPutGetAndEject : Prop :=
  ∀ (s : State) (src : Src), ItemGo s src → Canonical s →
    (∀ (id a : Word) (n : Nat) (bs : List Byte), objWriteRefusal s src.ctx id.toNat = 0 → objAt s id.toNat = none →
      (∀ b ∈ maskBays (objMask id.toNat), objShare id.toNat n b ≤ s.fld (CRT_FREE_BYTES b)) → itemRead s src 2 a n = .ok bs →
      (objKind id.toNat ≠ 3 ∨ proofOk bs = true) → ∃ (t : State) (o : FlashObj),
        Completes (.crtPut src id a n) s src 0xF0 0 (BitVec.ofNat 64 n) 0 0 t ∧ objAt t id.toNat = some o ∧ o.len = bs.length ∧
        objRead o 0 bs.length = bs ∧ t.ses = s.ses ∧ t.hbm = s.hbm) ∧
    (∀ (id a : Word) (n : Nat), objWriteRefusal s src.ctx id.toNat = 0 → (objAt s id.toNat).isSome →
      exec (.crtPut src id a n) s = .next (completeFail s src 0xF0 0x8007 0 0)) ∧
    (∀ (id a : Word) (off n : Nat) (o : FlashObj) (t : State), objFind s src.ctx id.toNat = .ok o →
      itemWrite s src 2 a (objRead o off n) = .ok t →
      Completes (.crtGet src id a off n) s src 0xF1 0 (BitVec.ofNat 64 (min n (o.len - off))) 0 0 t) ∧
    (∀ (id : Word) (o : FlashObj), objWriteRefusal s src.ctx id.toNat = 0 → objAt s id.toNat = some o → mwf s.crt.objects = true →
      ∃ t : State, Completes (.crtDel src id) s src 0xF2 0 0 0 0 t ∧ objAt t id.toNat = none ∧ t.ses = s.ses) ∧
    (∀ id : Word, objWriteRefusal s src.ctx id.toNat = 0 → objAt s id.toNat = none →
      exec (.crtDel src id) s = .next (completeFail s src 0xF2 0x8003 0 0)) ∧
    (∀ (id a d : Word) (m n : Nat), src.ctx ≠ 0 → src.ctx ≠ objCtx id.toNat →
      exec (.crtPut src id a n) s = .next (completeFail s src 0xF0 0x8005 0 0) ∧
      exec (.crtGet src id d m n) s = .next (completeFail s src 0xF1 0x8005 0 0) ∧
      exec (.crtDel src id) s = .next (completeFail s src 0xF2 0x8005 0 0)) ∧
    (∀ b : Nat, b < 4 → src.ctx = 0 →
      (bst s b = 5 ∨ bst s b = 6 ∨ bst s b = 7 → Ends (.crtEject src b) s fun t => bst t b = 8 ∧
        (t.bay b).waitItems = (s.bay b).waitItems ++ [(0xF3, src)] ∧ t.mkr.due = true ∧ t.host = s.host) ∧
      (bst s b = 3 ∨ bst s b = 4 ∨ bst s b = 8 → exec (.crtEject src b) s = .next (completeFail s src 0xF3 0x8009 0 0)) ∧
      (bst s b = 7 → ∃ t : State, Completes (.crtFormat src b) s src 0xF4 0 0 0 0 t ∧ bst t b = 4 ∧ (t.bay b).blank = true ∧
        (t.bay b).checkpoint = [] ∧ (t.bay b).journal = [] ∧ t.ses = s.ses) ∧
      (bst s b ≠ 7 → exec (.crtFormat src b) s = .next (completeFail s src 0xF4 0x8009 0 0)) ∧
      (bst s b = 8 → bayIdle s b = true → ∃ u : State, bst u b = 9 ∧ (u.bay b).waitItems = [] ∧ u.mkr.due = true ∧
        exec (.ejectDrained b) s = .next ((s.bay b).waitItems.foldl (fun s y => complete s y.2 y.1 0 0 0 0) u)) ∧
      (bst s b ≠ 8 ∨ bayIdle s b = false → exec (.ejectDrained b) s = .next s)) ∧
    (∀ b : Nat, src.ctx ≠ 0 → exec (.crtEject src b) s = .next (completeFail s src 0xF3 0x8008 0 0) ∧
      exec (.crtFormat src b) s = .next (completeFail s src 0xF4 0x8008 0 0) ∧
      exec (.crtCompact src b) s = .next (completeFail s src 0xF5 0x8008 0 0))

/-- Compaction (R395), channel operations (R373, R374, R389), flits (R367, R368), upkeep (R385 to R388), the journal (R393) and pied
pages (R391) of a bay. -/
def Obligations.FlashLinksAndJournalsGoOn : Prop :=
  ∀ (s : State) (b : Nat), b < 4 → Canonical s →
    let x := s.bay b
    let l := x.link
    (∀ src : Src, ItemGo s src → src.ctx = 0 → bst s b = 5 → Ends (.crtCompact src b) s fun t =>
      (t.bay b).compact = some (x.compact.getD x.journal.length) ∧ (t.bay b).waitItems = x.waitItems ++ [(0xF5, src)] ∧
      (x.compact = none → t.flag (CRT_BAY_COMPACTING b) = true) ∧ t.host = s.host) ∧
    (∀ src : Src, ItemGo s src → src.ctx = 0 → bst s b ≠ 5 → exec (.crtCompact src b) s = .next (completeFail s src 0xF5 0x8009 0 0)) ∧
    (bst s b = 5 → x.compact = none → s.fld CRT_CFG_J_COMPACT ≤ x.journal.length → Ends (.compaction b) s fun t =>
      (t.bay b).compact = some x.journal.length ∧ t.flag (CRT_BAY_COMPACTING b) = true ∧ t.ses = s.ses) ∧
    (bst s b ≠ 5 ∨ x.journal.length < s.fld CRT_CFG_J_COMPACT → exec (.compaction b) s = .next s) ∧
    (∀ j0, x.compact = some j0 → ∃ u : State, (u.bay b).journal = x.journal.drop j0 ∧ (u.bay b).compact = none ∧
      (u.bay b).checkpoint = liveRecs (x.checkpoint ++ x.journal.take j0) ∧ u.flag (CRT_BAY_COMPACTING b) = false ∧
      u.fld (CRT_JRNL_JOURNAL b) = (x.journal.drop j0).length % 2 ^ 26 ∧ (u.bay b).wear.wgen = x.wear.wgen + 1 ∧
      exec (.compactionSuperblockDurable b) s = .next ((x.waitItems.filter fun y => y.1 = 0xF5).foldl
        (fun s y => complete s y.2 0xF5 0 (BitVec.ofNat 64 (x.journal.drop j0).length) 0 0) u)) ∧
    (x.compact = none → exec (.compactionSuperblockDurable b) s = .next s) ∧
    (∀ (ch die : Nat) (d : DieOp), mget x.dies (dieKey ch die) = some d → d.suspended = false → dieOps x ch die ≠ [] →
      d.resumedAt + ((x.col.map (·.tResumeMin)).getD 0) * 1000 ≤ s.clk.now → Ends (.programSuspend b ch die) s fun t =>
        mget (t.bay b).dies (dieKey ch die) = some { d with suspended := true } ∧ t.regs = s.regs) ∧
    (∀ ch die : Nat, mget x.dies (dieKey ch die) = none → exec (.programSuspend b ch die) s = .next s) ∧
    (∀ (tag pct : Nat) (bs : List Byte) (o : ChanOp), 4 ≤ bst s b → bst s b ≤ 8 → mget x.ops tag = some o → mwf x.ops = true →
      let again := ((x.col.map (·.retryMax)).getD 0)
      (Ends (.pageReadDone b tag true pct bs) s fun t => mget (t.bay b).ops tag = none ∧
        (blockOf t b (blockKey o)).reads = (blockOf s b (blockKey o)).reads + 1) ∧
      (o.retry < again → Ends (.pageReadDone b tag false pct bs) s fun t =>
        mget (t.bay b).ops tag = some { o with retry := o.retry + 1, started := s.clk.now } ∧
        t.fld (CRT_ERRS_RETRIES b) = min (2 ^ 16 - 1) (s.fld (CRT_ERRS_RETRIES b) + 1)) ∧
      (again ≤ o.retry → Ends (.pageReadDone b tag false pct bs) s fun t => mget (t.bay b).ops tag = none ∧
        t.fld (CRT_ERRS_UNCORRECTABLE b) = min (2 ^ 16 - 1) (s.fld (CRT_ERRS_UNCORRECTABLE b) + 1))) ∧
    (∀ (n : Nat) (er : Bool), 4 ≤ bst s b → bst s b ≤ 8 → Ends (.programOrEraseFailure b n er) s fun t =>
      (blockOf t b n).retired = true ∧ ((blockOf s b n).retired = false →
        t.fld (CRT_BLOCKS_SPARE_BLOCKS b) = s.fld (CRT_BLOCKS_SPARE_BLOCKS b) - 1) ∧ t.ses = s.ses) ∧
    (∀ ch die : Nat,
      let late := (dieOps x ch die).filter fun o => o.2.started + s.fld FLT_TIMEOUT_B_CHOP_MS * msNs ≤ s.clk.now
      (late = [] → exec (.flashDieTimeout b ch die) s = .next s) ∧
      (∀ (tag : Nat) (o : ChanOp) (r : Map ChanOp), late = (tag, o) :: r →
        (o.again = false → Ends (.flashDieTimeout b ch die) s fun t =>
          mget (t.bay b).ops tag = some { o with again := true, started := s.clk.now } ∧ (t.bay b).deadDies = x.deadDies) ∧
        (o.again = true → Ends (.flashDieTimeout b ch die) s fun t => dieKey ch die ∈ (t.bay b).deadDies ∧ dieOps (t.bay b) ch die = []))) ∧
    (∀ f : Flit, 4 ≤ bst s b → bst s b ≤ 8 →
      (f.crcOk = false ∨ (f.typ ≠ 0 ∧ f.seq ≠ l.rxSeq) → Ends (.flitReceived b f) s fun t => (t.bay b).link.nakOwed = true ∧
        (t.bay b).link.rxSeq = l.rxSeq ∧ (t.bay b).ops = x.ops ∧ t.regs = s.regs) ∧
      (f.crcOk = true → f.typ ≠ 0 → f.seq = l.rxSeq → Ends (.flitReceived b f) s fun t => (t.bay b).link.nakOwed = false ∧
        (t.bay b).link.rxSeq = (l.rxSeq + 1) % 4096)) ∧
    (l.replay ≠ [] → l.sentAt + 4000 ≤ s.clk.now → Ends (.flitResendTimeout b) s fun t => (t.bay b).link.sent = l.sent ++ l.replay ∧
      (t.bay b).link.resends = l.resends + 1 ∧ t.fld (CRT_ERRS_REPLAYS b) = min (2 ^ 16 - 1) (s.fld (CRT_ERRS_REPLAYS b) + 1)) ∧
    (l.replay = [] ∨ s.clk.now < l.sentAt + 4000 → exec (.flitResendTimeout b) s = .next s) ∧
    (∀ n : Nat, 4 ≤ bst s b → bst s b ≤ 8 → 16 ≤ l.resends →
      (5 ≤ n → Ends (.retrain b n) s fun t => bst t b = bst s b ∧ (t.bay b).link.resends = 0 ∧
        t.fld (CRT_BAY_LANES_GOOD b) = min n 6 ∧ (n < s.fld (CRT_BAY_LANES_GOOD b) → t.flag (CRT_BAY_SPARE_USED b) = true)) ∧
      (n < 5 → bst s b = 5 ∨ bst s b = 6 → ∃ u : State, bst u b = 10 ∧ exec (.retrain b n) s =
        .next (cartridgeLost (capacityChange (bayGone u b)) b (s.fld (CRT_SERIAL_SERIAL b))))) ∧
    (∀ n : Nat, l.resends < 16 → exec (.retrain b n) s = .next s) ∧
    (∀ n m pct : Nat, bayJournals s b = true →
      (readLimit s b ≤ (blockOf s b n).reads → Ends (.readDisturbRelocation b n) s fun t => (blockOf t b n).reads = 0 ∧
        (blockOf t b n).erases = (blockOf s b n).erases + 1 ∧ t.ses = s.ses) ∧
      ((blockOf s b n).reads < readLimit s b → exec (.readDisturbRelocation b n) s = .next s) ∧
      (∀ retried : Bool, Ends (.patrolScan b n retried pct) s fun t => (blockOf t b n).scanned = s.clk.now ∧ t.ses = s.ses ∧
        (retried = true ∨ 75 < pct → (blockOf t b n).erases = (blockOf s b n).erases + 1)) ∧
      (n ≠ m → (blockOf s b m).retired = false → Ends (.wearLevelling b n m) s fun t =>
        (blockOf t b n).erases = (blockOf s b n).erases + 1 ∧ blockOf t b m = blockOf s b m)) ∧
    (bst s b = 5 → mwf s.crt.stale = true → Ends (.collector b) s fun t => mget t.crt.stale b = none ∧
      ∀ i, (t.ses? i).map (·.tokens) = (s.ses? i).map (·.tokens)) ∧
    (bst s b ≠ 5 → exec (.collector b) s = .next s) ∧
    (x.openPage ≠ [] → x.openAt + 100000 ≤ s.clk.now → Ends (.journalPageClose b) s fun t => (t.bay b).openPage = [] ∧
      (t.bay b).inFlight = x.inFlight ++ [⟨x.openPage, s.clk.now⟩] ∧ t.regs = s.regs ∧ t.ses = s.ses) ∧
    (x.openPage = [] ∨ s.clk.now < x.openAt + 100000 → exec (.journalPageClose b) s = .next s) ∧
    (∀ (p : JPage) (r : List JPage), x.inFlight = p :: r → s.flag (CRT_BAY_HOLDUP_OK b) = true → ∃ u : State,
      (u.bay b).journal = x.journal ++ p.records ∧ (u.bay b).inFlight = r ∧
      u.fld (CRT_JRNL_JOURNAL b) = (x.journal.length + p.records.length) % 2 ^ 26 ∧ u.ses = s.ses ∧
      exec (.journalPageProgrammed b) s = .next (trySeal (p.records.foldl (recDurableAt b) u) b)) ∧
    (x.inFlight = [] → exec (.journalPageProgrammed b) s = .next s) ∧
    (∀ (f i : Nat) (e : Session) (c : Copy) (y : Frame), s.frame f = some y → y.pied = true → frameOwner s f = some (i, e) →
      e.p3 = some c → copyPresent s c = true → frameDirty e f = false → Ends (.piedPageRecovery f true) s fun t =>
        (t.frame f).map (·.pied) = some false ∧ (t.ses? i).map (·.state) = (s.ses? i).map (·.state)) ∧
    (∀ (f : Nat) (good : Bool), (∀ y, s.frame f = some y → y.pied = false) → exec (.piedPageRecovery f good) s = .next s)

/-- vse.open, vse.close, vse.query, vse.insert, vse.delete, vse.merge, vse.doc (R444), vsr.put (R440), vsr.scan, and the events of a
search (R420 to R434). -/
def Obligations.SearchItemsAnswerTheirQueries : Prop :=
  (∀ (s : State) (src : Src) (slot : Nat), ItemGo s src → Canonical s → slot < 64 →
    (∀ (id : Word) (part prio : Nat) (pc pv : Bool) (qpg cap ep es : Nat) (noEnc : Bool) (o : FlashObj),
      mget s.vse slot = none → objFind s src.ctx id.toNat = .ok o → 1 ≤ qpg → qpg ≤ 64 → 1 ≤ cap → cap ≤ 16777216 →
      objKind id.toNat = 2 → src.ctx < 64 →
      let h := headIndex id.toNat (rdBytes o.bytes 0 128)
      let records := h.sidePages * 2 ^ (14 - h.log2rec)
      let side := readSide o h records 1
      let x := { h with side := side, nextSeq := side.length + 1, encoder := if noEnc then none else some (ep, es) }
      let u := (s.setVse slot x).setReg (VSE_IX_A_CONTEXT slot).off (BitVec.ofNat 64
        (src.ctx + part * 2 ^ 6 + prio * 2 ^ 10 + b2n pc * 2 ^ 13 + b2n pv * 2 ^ 14 + qpg * 2 ^ 15 + cap * 2 ^ 22))
      indexOk o h (rdBytes o.bytes 0 128) = true → cap ≤ records → (u.vse.map fun y => y.2.nvec).sum ≤ 2 ^ 38 → 0 ≤ hbmLeft u →
      ∃ t : State, Completes (.vseOpen src id slot part prio pc pv qpg cap ep es noEnc) s src 0xE8 0 (BitVec.ofNat 64 h.nvec) 0 0 t ∧
        mget t.vse slot = some x ∧ openIndex t src slot = some x ∧
        t.fld (VSE_IX_B_GEN slot) = h.gen ∧ t.ses = s.ses) ∧
    (∀ (id : Word) (part prio : Nat) (pc pv : Bool) (qpg cap ep es : Nat) (noEnc : Bool), (mget s.vse slot).isSome →
      exec (.vseOpen src id slot part prio pc pv qpg cap ep es noEnc) s = .next (completeFail s src 0xE8 0x7001 0 0)) ∧
    (∀ x : Index, openIndex s src slot = some x →
      let noContract := (s.mkr.admitted.any fun c => decide (c.2.kind = 4) && decide (cf c.2 2 0 16 = slot)) = false
      let u := x.docs.foldl (fun s d => indexNotice s.draw.2 d.src 0x7013 s.draw.1.toNat d.id) s
      (noContract → slotQuiet { x with docs := [] } = true → Completes (.vseClose src slot) s src 0xE9 0 0 0 0 (closeSlot u slot) ∧
        (mwf s.vse = true → mget (closeSlot u slot).vse slot = none)) ∧
      (noContract → slotQuiet { x with docs := [] } = false → Ends (.vseClose src slot) s fun t =>
        mget t.vse slot = some { x with docs := [], closing := some src }) ∧
      (¬ noContract → exec (.vseClose src slot) s = .next (completeFail s src 0xE9 0x7005 0 0)) ∧
      (∀ (k probes rerank contract : Nat) (a r : Word) (fm fv : BitVec 32) (bs : List Byte), 1 ≤ k → k ≤ 1024 → k ≤ rerank → rerank ≤ 65535 →
        1 ≤ probes → probes ≤ x.nlist → itemRead s src 2 a (4 * x.d) = .ok bs →
        (∀ v ∈ (chunks 4 x.d bs).map leNat, v % 2 ^ 31 < 0x7F800000) → maskReads s x.object = true →
        let z := answer (indexObj s x) x ((chunks 4 x.d bs).map leNat) k probes rerank fm fv (snapOf x)
        let colour := (policeQuery s src.ctx slot k probes rerank contract).1
        (colour ≠ 3 → Ends (.vseQuery src slot k probes rerank a fm fv r contract) s fun t => ∃ (x' : Index) (q : Query),
          mget t.vse slot = some x' ∧ mget x'.queries x.nextQuery = some q ∧ q.out = z.out ∧ q.dead = z.dead ∧ q.filtered = z.filtered ∧
          q.scanned = z.scanned ∧ q.gen = x.gen ∧ q.snap = snapOf x ∧ q.k = k ∧ q.raddr = r ∧ x'.side = x.side) ∧
        (colour = 3 → ∃ t : State, exec (.vseQuery src slot k probes rerank a fm fv r contract) s =
          .next (completeFail t src 0xEA 0x3031 0 0) ∧ t.vse = s.vse)) ∧
      (∀ (attr : BitVec 32) (id a : Word) (bs : List Byte), sideRefusal s slot x = 0 → itemRead s src 3 a (4 * x.d) = .ok bs →
        Ends (.vseInsert src slot attr id a) s fun t => ∃ x' : Index, mget t.vse slot = some x' ∧ x'.nextSeq = x.nextSeq + 1 ∧
          x'.side = x.side ++ [⟨x.nextSeq, id.toNat, attr, false, roundVec x ((chunks 4 x.d bs).map leNat), some src, false, false⟩] ∧
          t.host = s.host) ∧
      (∀ id : Word, sideRefusal s slot x = 0 → Ends (.vseDelete src slot id) s fun t => ∃ x' : Index, mget t.vse slot = some x' ∧
        x'.nextSeq = x.nextSeq + 1 ∧ x'.side = x.side ++ [⟨x.nextSeq, id.toNat, 0, true, List.replicate x.d 0, some src, false, false⟩]) ∧
      (∀ (attr : BitVec 32) (id a : Word), sideRefusal s slot x ≠ 0 →
        exec (.vseInsert src slot attr id a) s = .next (completeFail s src 0xEB (sideRefusal s slot x) 0 0) ∧
        exec (.vseDelete src slot id) s = .next (completeFail s src 0xEC (sideRefusal s slot x) 0 0)) ∧
      (∀ id : Word, x.merge = none → objMay src.ctx id.toNat = true → maskReads s x.object = true → maskReads s id.toNat = true →
        maskWrites s x.object = true → maskWrites s id.toNat = true → objAt s id.toNat = none → pinsFit s slot x = true →
        Ends (.vseMerge src slot id) s fun t => mget t.vse slot = some { x with merge := some (src, id.toNat, snapOf x) } ∧
          t.flag (VSE_IX_A_MERGING slot) = true ∧ t.host = s.host) ∧
      (∀ id : Word, x.merge ≠ none → exec (.vseMerge src slot id) s = .next (completeFail s src 0xED 0x7009 0 0)) ∧
      (∀ (n : Nat) (attr : BitVec 32) (id a : Word) (bs : List Byte), 1 ≤ n → n ≤ 8192 → x.encoder.isSome → x.docs.length < 4096 →
        4 * ((x.docs.map fun d => d.tokens.length).sum + n) ≤ 67108864 → itemRead s src 3 a (4 * n) = .ok bs →
        ∃ t : State, Completes (.vseDoc src slot n attr id a) s src 0xEE 0 (BitVec.ofNat 64 (x.nextDoc % 4096)) 0 0 t ∧
          mget t.vse slot = some { x with nextDoc := x.nextDoc + 1, docs := x.docs ++
            [⟨x.nextDoc % 4096, (chunks 4 n bs).map leNat, attr, id.toNat, src⟩] })) ∧
    (openIndex s src slot = none → exec (.vseClose src slot) s = .next (completeFail s src 0xE9 0x7002 0 0))) ∧
  (∀ (s : State) (slot : Nat) (x : Index), Canonical s → slot < 64 → mget s.vse slot = some x →
    (∀ p, s.fld (VSE_IX_A_PART slot) = p → (s.part p).search = none → (∃ q, (sortBy (fun (a b : Nat × Nat × Query) => queryLt a.2 b.2)
        (searchHeads s p)).head? = some (slot, q)) → ∃ (u : State) (l : List Nat) (d : Option Nat),
      (u.part p).search = some (slot, l, s.clk.now, d) ∧ l = ((sortBy queryLt x.queries).take (s.fld (VSE_IX_A_QPG slot))).map (·.1) ∧
      u.vse = s.vse ∧ exec (.searchGalleyRelease p) s = .next (dispatch u p)) ∧
    (∀ p, (s.part p).search ≠ none ∨ searchHeads s p = [] → exec (.searchGalleyRelease p) s = .next s) ∧
    (∀ (n : Nat) (q : Query), mget x.queries n = some q →
      (∀ p e, (p, e) ∈ q.toScan → Ends (.partitionScanReturn slot n p e (engineInstar s e)) s fun t => ∃ (x' : Index) (q' : Query),
        mget t.vse slot = some x' ∧ mget x'.queries n = some q' ∧ q'.toScan = q.toScan.filter (· ≠ (p, e)) ∧ q'.out = q.out ∧
        (q'.toScan = [] → q'.toRead = q.keys)) ∧
      (∀ k e, (k, e) ∈ q.toRead → Ends (.recordReadReturn slot n k e (engineInstar s e)) s fun t => ∃ (x' : Index) (q' : Query),
        mget t.vse slot = some x' ∧ mget x'.queries n = some q' ∧ q'.toRead = q.toRead.filter (· ≠ (k, e)) ∧ q'.out = q.out) ∧
      (q.toScan = [] → q.toRead = [] → inSearch s slot n = true →
        let c := q.out.length
        (resultBytes q (s.clk.now - q.fetched)).length = 32 + 16 * max q.k c ∧
        ∀ t, itemWrite s q.src 4 q.raddr (resultBytes q (s.clk.now - q.fetched)) = .ok t → exec (.queryComplete slot n) s =
          .next (endQuery (complete t q.src 0xEA 0 (BitVec.ofNat 64 (c + if c < q.k then 2 ^ 11 else 0)) 0 0) slot n)) ∧
      (q.toScan ≠ [] ∨ q.toRead ≠ [] ∨ inSearch s slot n = false → exec (.queryComplete slot n) s = .next s)) ∧
    (∀ n p e i : Nat, i ≠ engineInstar s e → Ends (.partitionScanReturn slot n p e i) s (fun t => t.vse = s.vse) ∧
      Ends (.recordReadReturn slot n p e i) s fun t => t.vse = s.vse) ∧
    (0 < x.pageOpen → x.pageAt + 100000 ≤ s.clk.now → Ends (.sidePageClose slot) s fun t =>
      mget t.vse slot = some { x with pageOpen := 0, pagesInFlight := x.pagesInFlight ++ [x.pageOpen] } ∧ t.regs = s.regs) ∧
    (x.pageOpen = 0 ∨ s.clk.now < x.pageAt + 100000 → exec (.sidePageClose slot) s = .next s) ∧
    (∀ (n : Nat) (r : List Nat), x.pagesInFlight = n :: r → (∀ b ∈ maskBays (objMask x.object), s.flag (CRT_BAY_HOLDUP_OK b) = true) →
      ∃ (u : State) (x' : Index), mget u.vse slot = some x' ∧ x'.pagesInFlight = r ∧
        (∀ y ∈ ((x.side.filter fun r => !r.durable).take n), ∀ z ∈ x'.side, z.seq = y.seq → z.durable = true) ∧
        exec (.sideRecordDurable slot) s =
          .next (tryClose (((x.side.filter fun r => !r.durable).take n).foldl (recDurable slot x) u) slot)) ∧
    (x.pagesInFlight = [] → exec (.sideRecordDurable slot) s = .next s) ∧
    (∀ (src : Src) (id n : Nat), x.merge = some (src, id, n) → maskWrites s id = true →
      let y := mergeIndex (indexObj s x) x id n
      (∀ b ∈ maskBays (objMask id), objShare id y.2.2 b ≤ s.fld (CRT_FREE_BYTES b)) → ∃ u : State,
        mget u.vse slot = some { y.1 with oldObjects := x.oldObjects ++ [(x.gen, x.object)] } ∧ y.1.gen = x.gen + 1 ∧
        u.fld (VSE_IX_B_GEN slot) = (x.gen + 1) % 2 ^ 32 ∧ u.flag (VSE_IX_A_MERGING slot) = false ∧
        exec (.mergeGenerationChange slot) s =
          .next (tryClose (complete (dropOld u slot) src 0xED 0 (BitVec.ofNat 64 (x.gen + 1)) 0 0) slot)) ∧
    (x.merge = none → exec (.mergeGenerationChange slot) s = .next s) ∧
    (∀ uj busy n : Nat, busy ≠ 0 → Ends (.energyMeter uj busy [(slot, n)]) s fun t =>
      t.fld (VSE_IX_ENERGY_ENERGY_UJ slot) = (s.fld (VSE_IX_ENERGY_ENERGY_UJ slot) + uj * n / busy) % 2 ^ 64 ∧ t.vse = s.vse)) ∧
  (∀ (s : State) (x : CellItem),
    let c := s.cell x.cell
    let a := (sreg c x.a).toNat
    let b := (sreg c x.b).toNat
    let n := (sreg c x.c).toNat
    let m := bits x.w1.toNat 0 9
    let out := bits x.w1.toNat 9 22
    (CellGo s x 0 →
      let r := if c.slice < 4 then ((s.slice (4 * c.part + c.slice)).running).bind fun g => fetchRec g (sreg c x.b).toNat else none
      let put := r.bind fun y => putVector s y.2 fun d => (List.range d).map fun k => rdLE c.mem ((a + 4 * k) % 2 ^ 22) 4
      (put = none → CellDraws (.vsrPut x) s x 0 1 (setS c x.d (Config.freeWord s.freeCtr))) ∧
      (∀ (t : State) (st seq : Nat), put = some (t, st, seq) → exec (.vsrPut x) s = .next (t.setCell x.cell
        { setS c x.d (BitVec.ofNat 64 (st + seq * 2 ^ 16)) with pc := (c.pc + 1) % 4096 }))) ∧
    (CellGo s x 1 → 1 ≤ m → m ≤ 256 → CellReads s c a (n * entryBytesOf m) 1 → CellReads s c b (512 * m) 1 → CellWrites s c out (4 * n) 1 →
      CellNext (.vsrScan x) s x 1 (setS (cellWrite c out ((List.range n).flatMap fun i => leBytes 4 ((List.range m).map fun k =>
        rdLE c.mem (b + 2 * (256 * k + (rdByte c.mem (a + i * entryBytesOf m + 8 + k)).toNat)) 2).sum)) x.d (sreg c x.c))) ∧
    (CellGo s x 1 → m = 0 ∨ 256 < m → handled c 2 = true → CellTraps (.vsrScan x) s x 2))

/-- fab.qpc, fab.win, fab.post and the actions of fab.ctl (R452, R473, R483, R488, R489). -/
def Obligations.FabricItemsActOnQueuePairs : Prop :=
  ∀ (s : State) (src : Src), ItemGo s src → Canonical s →
    (∀ (kind slice cls window depth q : Nat) (counter : Word), kind ≤ 1 → (kind = 1 → src.ctx = 0) → 1 ≤ window → window ≤ 4096 →
      16 ≤ depth → depth ≤ 4096 → classOk s kind slice cls = true → freeQp s = some q → ∃ t : State,
        let i := if (s.qp q).instar = 0xFFFFFF then 1 else (s.qp q).instar + 1
        Completes (.fabQpc src kind slice cls window depth counter) s src 0xF6 0 (BitVec.ofNat 64 (q + i * 2 ^ 16)) 0 0 t ∧
        (t.qp q).state = .init ∧ (t.qp q).instar = i ∧ (t.qp q).ownerKind = kind ∧ (t.qp q).owner = (if kind = 0 then src.ctx else slice) ∧
        (t.qp q).cls = cls ∧ (t.qp q).window = window ∧ (t.qp q).depth = depth ∧ (t.qp q).items = [] ∧ (t.qp q).windows = [] ∧
        t.regs = s.regs ∧ ∀ r, r ≠ q → t.qp r = s.qp r) ∧
    (∀ (q mode stall len : Nat) (rd wr at_ : Bool) (base : Word), ownsQp s src.ctx q = true → mode ≤ 2 →
      (mode = 0 → base.toNat + len ≤ 2 ^ 39) → firstFree (s.qp q).windows 0 < 16 → ∃ t : State,
        Completes (.fabWin src q rd wr at_ mode stall base len) s src 0xF8 0 (BitVec.ofNat 64 (firstFree (s.qp q).windows 0)) 0 0 t ∧
        mget (t.qp q).windows (firstFree (s.qp q).windows 0) = some ⟨base.toNat, len, rd, wr, at_, mode, stall⟩) ∧
    (∀ (q op wk wq raddr len : Nat) (ch no wai : Bool) (la od sw thr : Word), postOk op len la = true → ownsQp s src.ctx q = true →
      (s.qp q).state = .ready → (wai = true → ownsQp s src.ctx wq = true) → (routeOf s (s.qp q).peerDev).isSome →
      let x := s.qp q
      let i : FabItem := { src := some src, seq := x.nextSeq, op := op, chain := ch, notify := no, wait := wai, waitKind := wk,
                           waitQp := wq, laddr := la, raddr := raddr, len := len, operand := od, swap := sw, threshold := thr,
                           granted := 0, psn := 0, got := 0, result := 0, posted := s.clk.now }
      let c : Instr := .fabPost src q op ch no wai wk wq la raddr len od sw thr
      (x.items.length < x.depth → (∀ y ∈ s.fab.waiting, y.1 ≠ q) → Ends c s fun t =>
        t.qp q = { x with items := x.items ++ [i], nextSeq := x.nextSeq + 1 } ∧ t.host = s.host ∧ t.regs = s.regs) ∧
      (x.depth ≤ x.items.length → Ends c s fun t => t.qp q = x ∧ t.fab.waiting = s.fab.waiting ++ [(q, { i with seq := 0 })] ∧
        t.host = s.host)) ∧
    (∀ (q op wk wq raddr len : Nat) (ch no wai : Bool) (la od sw thr : Word), postOk op len la = false →
      exec (.fabPost src q op ch no wai wk wq la raddr len od sw thr) s = .next (completeFail s src 0xF7 0x900B 0 0)) ∧
    (∀ q dev pq : Nat, (s.flag FAB_COMP_SEALED = true → ownsQp s src.ctx q = true → (s.qp q).state = .init → (routeOf s dev).isSome →
        Ends (.fabCtlConnect src q dev pq) s fun t => (t.qp q).state = .connecting ∧ (t.qp q).peerDev = dev ∧ (t.qp q).peerQp = pq ∧
          (t.qp q).connect = some (some src, s.clk.now) ∧ (t.qp q).instar = (s.qp q).instar ∧ t.host = s.host) ∧
      (s.flag FAB_COMP_SEALED = false → exec (.fabCtlConnect src q dev pq) s = .next (completeFail s src 0xF9 0x9001 0 0))) ∧
    (∀ q : Nat, ownsQp s src.ctx q = true →
      (∃ t : State, Completes (.fabCtlReset src q) s src 0xF9 0 0 0 0 t ∧ (t.qp q).state = .init ∧ (t.qp q).items = [] ∧
        (t.qp q).connect = none ∧ (t.qp q).instar = (if (s.qp q).instar = 0xFFFFFF then 1 else (s.qp q).instar + 1)) ∧
      (∃ t : State, Completes (.fabCtlDestroy src q) s src 0xF9 0 0 0 0 t ∧ t.qp q = { qp0 with instar := (s.qp q).instar }) ∧
      (∃ t : State, Completes (.fabCtlCancel src q) s src 0xF9 0 0 0 0 t ∧
        (t.qp q).items = (s.qp q).items.filter (fun i => decide (0 < i.granted)) ∧ (t.qp q).state = (s.qp q).state ∧
        ∀ y ∈ t.fab.waiting, y.1 ≠ q) ∧
      (∀ (a : Word) (t : State), itemWrite s src 2 a (qpRecord (s.qp q)) = .ok t → (qpRecord (s.qp q)).length = 64 ∧
        Completes (.fabCtlQuery src q a) s src 0xF9 0 0 0 0 t) ∧
      (∀ w : Nat, mwf (s.qp q).windows = true → ∃ t : State, Completes (.fabCtlRevokeWindow src q w) s src 0xF9 0 0 0 0 t ∧
        mget (t.qp q).windows w = none ∧ ∀ v, v ≠ w → mget (t.qp q).windows v = mget (s.qp q).windows v)) ∧
    (∀ q : Nat, ownsQp s src.ctx q = false → ∀ w (a : Word),
      exec (.fabCtlReset src q) s = .next (completeFail s src 0xF9 0x9004 0 0) ∧
      exec (.fabCtlDestroy src q) s = .next (completeFail s src 0xF9 0x9004 0 0) ∧
      exec (.fabCtlCancel src q) s = .next (completeFail s src 0xF9 0x9004 0 0) ∧
      exec (.fabCtlQuery src q a) s = .next (completeFail s src 0xF9 0x9004 0 0) ∧
      exec (.fabCtlRevokeWindow src q w) s = .next (completeFail s src 0xF9 0x9004 0 0)) ∧
    (∀ (a : Word) (bs : List Byte), src.ctx = 0 → s.flag FAB_COMP_SEALED = false → s.fld GLB_TIME_STATUS_SOURCE ≠ 1 →
      itemRead s src 2 a compImageBytes = .ok bs → compOk s bs = true → ∃ t : State,
        Completes (.fabCtlCompose src a) s src 0xF9 0 0 0 0 t ∧ t.flag FAB_COMP_SEALED = true ∧ t.flag GLB_DEV_ADDR_VALID = true ∧
        t.fab.comp = some (compOf bs) ∧ (t.fld GLB_STATE_DOMAIN_CLASS = if 512 < bits (imgNat bs 16 8) 16 15 then 1 else 0) ∧
        t.fld FAB_PAIR_PARTNER = bits (imgNat bs 24 8) 32 16 ∧
        ∀ n, n < 16384 → t.fld (FAB_ROUTE_ENTRY n) = imgNat bs (0x100 + 4 * n) 4) ∧
    (∀ a : Word, src.ctx ≠ 0 ∨ s.flag FAB_COMP_SEALED = true ∨ s.fld GLB_TIME_STATUS_SOURCE = 1 →
      exec (.fabCtlCompose src a) s = .next (completeFail s src 0xF9 0x9008 0 0))

/-- Arbitration (R468), acceptance (R464, R465, R484), resends (R468, R482), paging faults (R481), connection timers (R473), item
waits (R479) and fence records (R485). -/
def Obligations.FabricPacketsAndTimersOfQueuePairs : Prop :=
  ∀ (s : State) (q : Nat), Canonical s →
    let x := s.qp q
    (∀ (p : Nat) (i : FabItem) (f : EftFrame), p < 16 → pst s p = 2 → s.fab.qps = [(q, x)] → onPort s p x = true → resends x = false →
      newPacket s x = some i → slotsHeld s < 262144 → (x.cls = 4 ∨ x.cls = 5 ∨ x.cls = 6) →
      packetOf s q (if i.granted = 0 then { i with psn := x.sendPsn } else i) i.granted false = .ok f →
      Ends (.arbiterGrant p) s fun t => (t.qp q).sendPsn = psnAdd x.sendPsn (if i.op = 1 then 1 else itemPsns i) ∧
        (t.qp q).txPsn = (t.qp q).sendPsn ∧ (s.fab.stopped = false → t.fab.sent = s.fab.sent ++ [.eft p f])) ∧
    (∀ p : Nat, pst s p ≠ 2 → exec (.arbiterGrant p) s = .next (showSlots s)) ∧
    (∀ i : FabItem, x.items.find? (fun i => decide (i.granted = 0)) = some i →
      let late := i.posted + s.fld FLT_TIMEOUT_A_SYNC_MS * 10 ^ 6
      (i.wait = true → waitMet s i = false → late ≤ s.clk.now → Ends (.fabWaitTimeout q) s fun t =>
        (t.qp q).cqCount = (x.cqCount + 1) % 2 ^ 64 ∧ (t.qp q).lastError = 0x9014) ∧
      (i.wait = false ∨ waitMet s i = true ∨ s.clk.now < late → exec (.fabWaitTimeout q) s = .next s)) ∧
    (∀ t0, x.rtoAt = some t0 → x.state = .ready → x.resendAfter = none → 0 < outstanding x → t0 + rto s x ≤ s.clk.now →
      (x.retries < s.fld FAB_TIMER_RETRY_MAX → Ends (.rtoExpiry q) s fun t => (t.qp q).retries = x.retries + 1 ∧
        (t.qp q).txPsn = oldestPsn x ∧ (t.qp q).state = .ready ∧ (t.qp q).items = x.items) ∧
      (s.fld FAB_TIMER_RETRY_MAX ≤ x.retries → x.ownerKind = 0 → Ends (.rtoExpiry q) s fun t => (t.qp q).state = .error ∧
        (t.qp q).lastError = 0x9005 ∧ (t.qp q).items = [])) ∧
    (x.rtoAt = none → exec (.rtoExpiry q) s = .next (showSlots s)) ∧
    (∀ psn t0, x.resendAfter = some (psn, t0) → (t0 ≤ s.clk.now → Ends (.resendAfterExpiry q) s fun t =>
        t.qp q = { x with resendAfter := none, txPsn := psn, rtoAt := some s.clk.now }) ∧
      (s.clk.now < t0 → exec (.resendAfterExpiry q) s = .next s)) ∧
    (∀ (p : Nat) (f : EftFrame), p < 16 → pst s p = 2 →
      let s1 := leaveD1 s
      (f.icrcOk = false → Ends (.eftFrame p f) s fun t => t.fab.qps = s.fab.qps ∧ t.hbm = s.hbm ∧
        t.fld (FAB_PORT_ERR_FCS p) = min (2 ^ 16 - 1) (s.fld (FAB_PORT_ERR_FCS p) + 1)) ∧
      (f.icrcOk = true → f.dstDev ≠ s.devAddr → Ends (.eftFrame p f) s fun t => t.fab.qps = s.fab.qps ∧ t.hbm = s.hbm ∧
        t.fld (FAB_PORT_ERR_MISDIRECTED p) = min (2 ^ 16 - 1) (s.fld (FAB_PORT_ERR_MISDIRECTED p) + 1)) ∧
      (f.icrcOk = true → f.dstDev = s.devAddr → s.flag GLB_DEV_ADDR_VALID = true → f.op ∈ ([1, 2, 4, 5, 7] : List Nat) → f.dstQp = q →
        (∀ y ∈ s.fab.fenced, ¬ (y.1 = f.srcDev ∧ y.2.1 = f.srcInstar)) →
        (f.srcInstar ≠ x.peerInstar ∨ f.qpInstar ≠ x.instar → Ends (.eftFrame p f) s fun t => t.fab.qps = s.fab.qps ∧ t.hbm = s.hbm ∧
          t.fld FAB_STALE_COUNT = min (2 ^ 32 - 1) (s.fld FAB_STALE_COUNT + 1)) ∧
        (f.srcInstar = x.peerInstar → f.qpInstar = x.instar → x.state = .ready → x.held = none →
          (psnAhead f.psn x.expPsn = true → Ends (.eftFrame p f) s fun t => (t.qp q).expPsn = x.expPsn ∧ (t.qp q).nakSent = true ∧
            t.hbm = s.hbm) ∧
          (∀ u, f.psn = x.expPsn → runPacket s1 q f = .done u → Ends (.eftFrame p f) s fun t =>
            (t.qp q).expPsn = psnAdd f.psn (framePsns f) ∧ (t.qp q).nakSent = false ∧ t.hbm = u.hbm)))) ∧
    (∀ (p : Nat) (f : EftFrame), pst s p ≠ 2 → exec (.eftFrame p f) s = .next (showSlots s)) ∧
    (x.state = .ready → 0 < x.unacked → x.unackedAt + s.fld FAB_TIMER_ACK_NS ≤ s.clk.now → Ends (.ackTimer q) s fun t =>
      t.qp q = { x with unacked := 0 } ∧ t.regs = s.regs) ∧
    (x.unacked = 0 ∨ s.clk.now < x.unackedAt + s.fld FAB_TIMER_ACK_NS → exec (.ackTimer q) s = .next s) ∧
    (∀ f t0 l, x.held = some (f, t0, l) → (l + 4000 ≤ s.clk.now → Ends (.holdAckSend q) s fun t =>
        (t.qp q).held = some (f, t0, s.clk.now) ∧ (t.qp q).heldNext = x.heldNext) ∧
      (s.clk.now < l + 4000 → exec (.holdAckSend q) s = .next s) ∧
      (∀ w pg, runPacket s q f = .absent w pg → t0 + ((mget x.windows w).map (·.stallUs)).getD 0 * 1000 ≤ s.clk.now →
        Ends (.stallTimeout q) s fun t => (t.qp q).held = none ∧ (t.qp q).heldNext = []) ∧
      (∀ w pg, runPacket s q f = .absent w pg → s.clk.now < t0 + ((mget x.windows w).map (·.stallUs)).getD 0 * 1000 →
        exec (.stallTimeout q) s = .next s)) ∧
    (x.held = none → exec (.holdAckSend q) s = .next s ∧ exec (.stallTimeout q) s = .next s) ∧
    (∀ (w pg fr : Nat) (r : List (Nat × Nat)) (win : Window) (i : Nat) (e : Session), x.wanted = (w, pg) :: r →
      mget x.windows w = some win → listOwner s win = some (i, e) → s.frame fr = none → firstFrame ≤ fr → x.held = none →
      Ends (.pageArrival q fr) s fun t => (t.qp q).wanted = r ∧ (t.frame fr).isSome ∧
        ∃ e', t.ses? i = some e' ∧ mget e'.kv pg = some (pageRef false false 1 0 fr)) ∧
    (∀ fr, x.wanted = [] → exec (.pageArrival q fr) s = .next s) ∧
    (x.state = .connecting → Ends (.connectResend q) s fun t => t.fab.qps = s.fab.qps ∧ t.regs = s.regs) ∧
    (x.state ≠ .connecting → exec (.connectResend q) s = .next s) ∧
    (∀ src t0, x.connect = some (src, t0) →
      (x.state = .connecting → t0 + s.fld FAB_TIMER_CONNECT_MS * 10 ^ 6 ≤ s.clk.now → Ends (.connectTimeout q) s fun t =>
        (t.qp q).state = .init ∧ (t.qp q).connect = none ∧ (t.qp q).instar = (if x.instar = 0xFFFFFF then 1 else x.instar + 1)) ∧
      (x.state ≠ .connecting ∨ s.clk.now < t0 + s.fld FAB_TIMER_CONNECT_MS * 10 ^ 6 → exec (.connectTimeout q) s = .next s)) ∧
    (∀ dev inst : Nat, (s.flag GLB_DEV_ADDR_VALID = false ∨ dev ≠ s.devAddr) →
      ((∀ y ∈ s.fab.fenced, ¬ (y.1 = dev ∧ y.2.1 = inst)) → Ends (.fenceRecord dev inst) s fun t =>
        t.fab.fenced = s.fab.fenced ++ [(dev, inst, 0)]) ∧
      ((∃ y ∈ s.fab.fenced, y.1 = dev ∧ y.2.1 = inst) → exec (.fenceRecord dev inst) s = .next s)) ∧
    (s.flag GLB_DEV_ADDR_VALID = true → exec (.fenceRecord s.devAddr (devInstar s)) s = .next (fatalStop s) ∧
      ∀ i, i ≠ devInstar s → exec (.fenceRecord s.devAddr i) s = .next s)

/-- Port transitions (R448, R460), discovery (R449), pauses (R461, R462), device time (R24 to R26, R455, R457) and the heartbeat
(R504). -/
def Obligations.PortsTrainPauseAndKeepTime : Prop :=
  ∀ s : State, Canonical s →
    (∀ p : Nat, p < 16 →
      let y := s.port p
      (portsRun s p = true → pst s p = 0 → Ends (.portSignalDetected p) s fun t => pst t p = 1 ∧ (t.port p).since = s.clk.now ∧
        t.ses = s.ses) ∧
      (pst s p ≠ 0 → exec (.portSignalDetected p) s = .next s) ∧
      (portsRun s p = true → pst s p = 1 →
        (6 * (100 * (10 * s.fld (FAB_PORT_CABLE_M p) + 1200) + 8380) ≤ 1835008 → Ends (.portLinkUp p) s fun t => pst t p = 2 ∧
          bitOf (t.fld GLB_RES1_PORTS_UP) p = true) ∧
        (1835008 < 6 * (100 * (10 * s.fld (FAB_PORT_CABLE_M p) + 1200) + 8380) → Ends (.portLinkUp p) s fun t => pst t p = 3 ∧
          (mget s.flt.latch (0xA80 + 8 * p + 5) = none → ∃ m, mget t.flt.latch (0xA80 + 8 * p + 5) = some m ∧ m.status = 0x9002))) ∧
      (pst s p ≠ 1 → exec (.portLinkUp p) s = .next s) ∧
      (pst s p = 1 → y.since + 2 * 10 ^ 9 ≤ s.clk.now → Ends (.portTrainingTimeout p) s fun t => pst t p = 0) ∧
      (pst s p ≠ 1 ∨ s.clk.now < y.since + 2 * 10 ^ 9 → exec (.portTrainingTimeout p) s = .next s) ∧
      (pst s p = 2 → Ends (.portLinkLost p) s fun t => pst t p = 0 ∧ bitOf (t.fld GLB_RES1_PORTS_UP) p = false) ∧
      (pst s p ≠ 2 → exec (.portLinkLost p) s = .next s) ∧
      (∀ u, u < 5 → u ∉ y.bad →
        (s.flag (FAB_PORT_SPARE_USED p) = false → Ends (.serdesFault p u) s fun t => t.flag (FAB_PORT_SPARE_USED p) = true ∧
          pst t p = (if pst s p = 2 ∨ pst s p = 1 then 1 else pst s p) ∧ u ∈ (t.port p).bad) ∧
        (s.flag (FAB_PORT_SPARE_USED p) = true → Ends (.serdesFault p u) s fun t => pst t p = 3 ∧ u ∈ (t.port p).bad)) ∧
      (∀ m c, m < 2 → c < 256 → Ends (.fabPortMediaWrite p m c) s fun t => t.fld (FAB_PORT_MEDIA p) = m ∧
        t.fld (FAB_PORT_CABLE_M p) = c ∧ pst t p = (if pst s p = 3 then 0 else pst s p)) ∧
      (∀ d : Discovery, (pst s p = 2 → d.devAddr < 2 ^ 16 → Ends (.discoveryFrame p d) s fun t =>
          t.fld (FAB_PORT_NBR_ADDR p) = d.devAddr ∧ t.flag (FAB_PORT_NBR_SEEN p) = true ∧ (t.port p).nbrAt = some s.clk.now ∧
          pst t p = (if miswired s p d then 3 else 2)) ∧
        (pst s p ≠ 2 → exec (.discoveryFrame p d) s = .next s)) ∧
      (∀ c n : Nat, pst s p = 2 →
        (1 ≤ c → c ≤ 6 → bitOf (s.fld (FAB_PORT_STUCK p)) c = false → n ≠ 0 → Ends (.pfcPauseReceived p c n) s fun t =>
          mget (t.port p).paused c = some (s.clk.now + n * 64 / 100, ((mget y.paused c).map (·.2)).getD s.clk.now) ∧
          t.fab.qps = s.fab.qps) ∧
        (1 ≤ c → c ≤ 6 → bitOf (s.fld (FAB_PORT_STUCK p)) c = false → mwf y.paused = true → Ends (.pfcPauseReceived p c 0) s fun t =>
          mget (t.port p).paused c = none) ∧
        (c = 0 ∨ 7 ≤ c → Ends (.pfcPauseReceived p c n) s fun t => t.port p = y ∧ t.fab.qps = s.fab.qps)) ∧
      (∀ c e t0 : Nat, mget y.paused c = some (e, t0) →
        (e ≤ s.clk.now → mwf y.paused = true → Ends (.pfcPauseExpiry p c) s fun t => mget (t.port p).paused c = none ∧ t.regs = s.regs) ∧
        (s.clk.now < e → exec (.pfcPauseExpiry p c) s = .next s) ∧
        (1 ≤ c → c ≤ 6 → mwf y.paused = true → t0 + s.fld FAB_TIMER_PFC_WD_MS * 10 ^ 6 ≤ s.clk.now → Ends (.pfcWatchdog p c) s fun t =>
          bitOf (t.fld (FAB_PORT_STUCK p)) c = true ∧ mget (t.port p).paused c = none ∧ mget (t.port p).lastPause c = some s.clk.now ∧
          (c = 4 ∨ c = 5 → t.mkr.due = true)) ∧
        (s.clk.now < t0 + s.fld FAB_TIMER_PFC_WD_MS * 10 ^ 6 → exec (.pfcWatchdog p c) s = .next s)) ∧
      (∀ c : Nat, mget y.paused c = none → exec (.pfcPauseExpiry p c) s = .next s ∧ exec (.pfcWatchdog p c) s = .next s) ∧
      (∀ c t0 : Nat, c < 8 → mget y.lastPause c = some t0 → bitOf (s.fld (FAB_PORT_STUCK p)) c = true →
        (t0 + 10 * s.fld FAB_TIMER_PFC_WD_MS * 10 ^ 6 ≤ s.clk.now → Ends (.stuckClear p c) s fun t =>
          bitOf (t.fld (FAB_PORT_STUCK p)) c = false) ∧
        (s.clk.now < t0 + 10 * s.fld FAB_TIMER_PFC_WD_MS * 10 ^ 6 → exec (.stuckClear p c) s = .next s)) ∧
      (∀ c t0 : Nat, pst s p = 2 → mget y.pausing c = some t0 →
        (t0 + 20000 ≤ s.clk.now → mustPause s p c = true → Ends (.pfcRefresh p c) s fun t =>
          mget (t.port p).pausing c = some s.clk.now ∧ (s.fab.stopped = false → t.fab.sent = s.fab.sent ++ [.pause p c 0xFFFF])) ∧
        (mustPause s p c = false → mayResume s p c = true → mwf y.pausing = true → Ends (.pfcRefresh p c) s fun t =>
          mget (t.port p).pausing c = none ∧ (s.fab.stopped = false → t.fab.sent = s.fab.sent ++ [.pause p c 0]))) ∧
      (pst s p = 2 → Ends (.pdelayReqSend p) s (fun t => (s.fab.stopped = false → t.fab.sent = s.fab.sent ++ [.pdelayReq p]) ∧
          t.regs = s.regs) ∧
        ∀ t1 t2 t3 t4 : Nat, Ends (.pdelayMessage p true t1 t2 t3 t4) s (fun t => (t.port p).delay = ((t4 - t1) - (t3 - t2)) / 2) ∧
          Ends (.pdelayMessage p false t1 t2 t3 t4) s fun t => t.port p = y ∧
            (s.fab.stopped = false → t.fab.sent = s.fab.sent ++ [.pdelayResp p s.clk.now s.clk.now]))) ∧
    (s.fab.discAt + 100 * 10 ^ 6 ≤ s.clk.now → Ends .discoverySend s fun t => t.fab.discAt = s.clk.now ∧
      (s.fab.stopped = false → t.fab.sent.length = s.fab.sent.length + (upPorts s).length)) ∧
    (s.clk.now < s.fab.discAt + 100 * 10 ^ 6 → exec .discoverySend s = .next s) ∧
    (∀ (a : Nat) (o : Int), (follows s a = true →
        (s.flag GLB_TIME_STATUS_LOCKED = true → Ends (.ptpSync a o) s fun t => t.clk.slew = -o ∧ t.clk.now = s.clk.now ∧
          t.flag GLB_TIME_STATUS_HOLDOVER = false ∧ t.flag GLB_TIME_STATUS_LOCKED = true ∧ t.clk.syncAt = some s.clk.now) ∧
        (s.flag GLB_TIME_STATUS_LOCKED = false → -40 ≤ o → o ≤ 40 → s.clk.syncGood = 15 → Ends (.ptpSync a o) s fun t =>
          t.flag GLB_TIME_STATUS_LOCKED = true ∧ t.fld GLB_TIME_STATUS_SOURCE = 2 ∧ t.clk.stepped = true ∧
          t.clk.now = (if s.clk.stepped then s.clk.now else ((s.clk.now : Int) - o).toNat)) ∧
        (s.flag GLB_TIME_STATUS_LOCKED = false → -40 ≤ o → o ≤ 40 → s.clk.syncGood < 15 → Ends (.ptpSync a o) s fun t =>
          t.clk.syncGood = s.clk.syncGood + 1 ∧ t.flag GLB_TIME_STATUS_LOCKED = false ∧ t.clk.now = s.clk.now) ∧
        (s.flag GLB_TIME_STATUS_LOCKED = false → o < -40 ∨ 40 < o → Ends (.ptpSync a o) s fun t => t.clk.syncGood = 0 ∧
          t.flag GLB_TIME_STATUS_LOCKED = false)) ∧
      (follows s a = false → exec (.ptpSync a o) s = .next s)) ∧
    (∀ t0, s.clk.syncAt = some t0 → s.fld GLB_TIME_STATUS_SOURCE = 2 → s.fld GLB_TIME_STATUS_HOLDOVER = 0 →
      (t0 + 8 * 7812500 ≤ s.clk.now → Ends .syncMissed s fun t => t.flag GLB_TIME_STATUS_HOLDOVER = true ∧ t.clk.syncGood = 0 ∧
        t.clk.now = s.clk.now) ∧
      (s.clk.now < t0 + 8 * 7812500 → exec .syncMissed s = .next s)) ∧
    (∀ o : Int, (s.flag GLB_TIME_STATUS_HOLDOVER = true → s.clk.reported = false → o < -40 ∨ 40 < o →
        Ends (.holdoverTimeFault o) s fun t => t.clk.reported = true ∧ t.clk.now = s.clk.now) ∧
      (-40 ≤ o → o ≤ 40 → exec (.holdoverTimeFault o) s = .next s)) ∧
    (s.awake = true → 10 ^ 10 ≤ s.clk.now → s.fld GLB_RES1_PORTS_UP = 0 → s.flag FAB_COMP_SEALED = false →
      s.flag GLB_TIME_STATUS_LOCKED = false → s.flag GLB_STATE_READY = false → Ends .domainOfOne s fun t =>
        t.flag GLB_TIME_STATUS_LOCKED = true ∧ t.fld GLB_TIME_STATUS_SOURCE = 1 ∧ t.fld GLB_DEV_ADDR_DEVICE = 0 ∧
        t.flag GLB_DEV_ADDR_VALID = true) ∧
    (s.clk.now < 10 ^ 10 ∨ s.fld GLB_RES1_PORTS_UP ≠ 0 → exec .domainOfOne s = .next s) ∧
    (sendsSync s = true → s.flag GLB_TIME_STATUS_LOCKED = true → s.fab.stopped = false → Ends .syncMessageSend s fun t =>
      t.fab.sent = s.fab.sent ++ (upPorts s).map (fun p => .sync p s.clk.now) ∧ t.regs = s.regs) ∧
    (sendsSync s = false → exec .syncMessageSend s = .next s) ∧
    (s.flag FAB_COMP_SEALED = true →
      (s.flt.beatAt + 10 ^ 6 ≤ s.clk.now → Ends .deviceHeartbeatSend s fun t => t.flt.beatAt = s.clk.now ∧ t.regs = s.regs ∧
        (s.fab.stopped = false → t.fab.sent = s.fab.sent ++ [.heartbeat])) ∧
      (s.clk.now < s.flt.beatAt + 10 ^ 6 → exec .deviceHeartbeatSend s = .next s))

/-- First-error capture (R501): the next error handled while VALID is 0, and every later one while it is 1. -/
def Obligations.FirstErrorsAreCapturedWhole : Prop :=
  ∀ (s : State) (h n : Nat) (m : FaultMsg), Canonical s → h < 2 → s.hubUp h = true → nextLatched s h = some (n, m) →
    (s.flag (FLT_FIRST_CTL_VALID h) = false → Ends (.faultLatchHandled h) s fun t => t.flag (FLT_FIRST_CTL_VALID h) = true ∧
      ∀ k, k < 4 → t.fld (FLT_FIRST_WORD h k) = ((msgWords s m true).getD k 0) % 2 ^ 64) ∧
    (s.flag (FLT_FIRST_CTL_VALID h) = true → Ends (.faultLatchHandled h) s fun t => t.flag (FLT_FIRST_CTL_VALID h) = true ∧
      (∀ k, k < 4 → t.fld (FLT_FIRST_WORD h k) = s.fld (FLT_FIRST_WORD h k)) ∧
      (severity s m = 2 → t.flt.irqs = s.flt.irqs + 1) ∧
      (severity s m = 1 ∨ severity s m = 2 → s.fld FLT_RING_CFG_ENABLE ≠ 0 →
        (s.fld FLT_RING_PTR_PROD + 65536 - s.fld FLT_RING_PTR_CONS) % 65536 ≠ 2 ^ s.fld FLT_RING_CFG_LOG2_ENTRIES →
        t.fld FLT_RING_PTR_PROD = (s.fld FLT_RING_PTR_PROD + 1) % 65536))

/-- The handling of latched errors (R496, R499, R500), re-imposition (R517), the reserve (R493), proofs (R511), warnings (R510), the
handover (R521), lost units (R504, R505, R508), lost devices (R509), the pair (R522, R524) and timeouts (R503). -/
def Obligations.FaultsAreDeliveredAndUnitsReplaced : Prop :=
  (∀ (s : State) (h n : Nat) (m : FaultMsg), Canonical s → h < 2 → s.hubUp h = true → nextLatched s h = some (n, m) →
    (severity s m ≠ 3 → Ends (.faultLatchHandled h) s fun t => (mwf s.flt.latch = true → mget t.flt.latch n = none) ∧
      (∀ k, k ≠ n → mget t.flt.latch k = mget s.flt.latch k) ∧ t.ses = s.ses ∧ t.clk = s.clk) ∧
    (severity s m = 3 → Ends (.faultLatchHandled h) s fun t => t.clk.now = 0 ∧ t.fld GLB_STATE_START_PHASE = 1 ∧ t.fab.stopped = true ∧
      t.cells = []) ∧
    (severity s m = 1 →
      (s.fld FLT_RING_CFG_ENABLE = 0 → Ends (.faultLatchHandled h) s fun t => t.host.mem = s.host.mem ∧
        t.fld (FLT_LOST_RING_DROP h) = min (2 ^ 16 - 1) (s.fld (FLT_LOST_RING_DROP h) + 1)) ∧
      (s.fld FLT_RING_CFG_ENABLE ≠ 0 →
        (s.fld FLT_RING_PTR_PROD + 65536 - s.fld FLT_RING_PTR_CONS) % 65536 ≠ 2 ^ s.fld FLT_RING_CFG_LOG2_ENTRIES →
        Ends (.faultLatchHandled h) s fun t => t.hostRd 0 (s.fld FLT_RING_BASE_BASE * 4096 +
          32 * (s.fld FLT_RING_PTR_PROD % 2 ^ s.fld FLT_RING_CFG_LOG2_ENTRIES)) 32 =
          (msgWords s m (!s.flag (FLT_FIRST_CTL_VALID h))).flatMap (leBytes 8)))) ∧
  (∀ s : State, Canonical s →
    (∀ h : Nat, nextLatched s h = none → exec (.faultLatchHandled h) s = .next s) ∧
    (∀ p : Nat, (p ∈ s.flt.reimpose → Ends (.reImposition p) s fun t => p ∉ t.flt.reimpose) ∧
      (p ∉ s.flt.reimpose → exec (.reImposition p) s = .next s)) ∧
    (∀ (st ch : Nat) (l : List Nat), st < 12 → ch < 32 →
      (mget s.ses.remap (32 * st + ch) = none → Ends (.hbmSparing st ch false l) s fun t => t.mkr.due = true ∧
        mget t.ses.remap (32 * st + ch) = some (if (sparedChannels s + 1) * 73728 ≤ 3145728 then
          25165824 + sparedChannels s * 73728 else 0)) ∧
      (bitOf (s.fld GLB_RES1_STACKS_OK) st = true → Ends (.hbmSparing st ch true l) s fun t => t.mkr.due = true ∧
        ∀ c, c < 32 → (mget t.ses.remap (32 * st + c)).isSome) ∧
      (bitOf (s.fld GLB_RES1_STACKS_OK) st = false → exec (.hbmSparing st ch true l) s = .next s)) ∧
    (∀ k : Nat, (s.fld SES_TIER_STATUS_BAYS_WRITABLE = 0 → Ends (.proofWrite k) s fun t => t.flt.proofs = s.flt.proofs) ∧
      (s.fld SES_TIER_STATUS_BAYS_WRITABLE ≠ 0 → adaptationIn s k = [] → Ends (.proofWrite k) s fun t => ∃ id,
        mget t.flt.proofs k = some (id, ((mget s.flt.proofs k).map (·.2)).getD 0 + 1))) ∧
    (∀ n : Nat, srcAssigned n = true → mwf s.flt.times = true →
      (s.fld (FLT_SRC_WARN_N n) ≠ 0 → s.fld (FLT_SRC_WARN_N n) < recentErrors s n → ∃ u : State,
        u.flag (FLT_SRC_WARNED n) = true ∧ mget u.flt.times n = none ∧ (mget u.flt.latch n).isSome ∧
        exec (.failureWarning n) s = .next (warnAction u n)) ∧
      (s.fld (FLT_SRC_WARN_N n) = 0 ∨ recentErrors s n ≤ s.fld (FLT_SRC_WARN_N n) → exec (.failureWarning n) s = .next s)) ∧
    (let h := s.fld GLB_STATE_ACTIVE_HUB
     let calls := ∃ u, u < 16 ∧ s.flag (FLT_SRC_WARNED (0xB40 + 16 * h + u)) = true
     (s.hubOk (1 - h) = true → calls → Ends .hubHandover s fun t => t.fld GLB_STATE_ACTIVE_HUB = 1 - h ∧ t.ses = s.ses) ∧
     (s.hubOk (1 - h) = false ∨ ¬ calls → exec .hubHandover s = .next s)) ∧
    (∀ n : Nat, (n ∈ s.flt.lost → exec (.unitDeclaredLost n) s = .next s) ∧
      (n ∉ s.flt.lost → n ≤ 0x7DF →
        s.fld (FRM_CELL_STAT_STATE (n / 168) (n % 168)) = 1 ∨ s.fld (FRM_CELL_STAT_STATE (n / 168) (n % 168)) = 2 →
        Ends (.unitDeclaredLost n) s fun t => n ∈ t.flt.lost ∧
          (s.fld (FRM_CELL_STAT_STATE (n / 168) (n % 168)) = 2 → t.fld (FRM_CELL_STAT_STATE (n / 168) (n % 168)) = 3 ∧
            t.fld (FRM_STATUS_SPARES (n / 168)) = s.fld (FRM_STATUS_SPARES (n / 168)) - 1)) ∧
      (n ∉ s.flt.lost → 0xA00 ≤ n → n ≤ 0xA5F → Ends (.unitDeclaredLost n) s fun t => n ∈ t.flt.lost ∧
        let i := s.fld (FLT_UNIT_INSTAR_INSTAR (n - 0xA00 + 14))
        t.fld (FLT_UNIT_INSTAR_INSTAR (n - 0xA00 + 14)) = (if i = 0xFFFFFF then 1 else i + 1)) ∧
      (n ∉ s.flt.lost → 0x980 ≤ n → n ≤ 0x9AF → bitOf (s.fld GLB_RES1_FORME_OK) ((n - 0x980) / 4) = true →
        Ends (.unitDeclaredLost n) s fun t => n ∈ t.flt.lost ∧ t.mkr.due = true) ∧
      (n ∉ s.flt.lost → 0xB40 ≤ n → n ≤ 0xB5F → s.hubOk ((n - 0xB40) / 16) = true → Ends (.unitDeclaredLost n) s fun t =>
        n ∈ t.flt.lost ∧ (s.hubOk (1 - (n - 0xB40) / 16) = false → t.fab.stopped = true))) ∧
    (∀ (n : Nat) (ok : Bool), (n ∈ s.flt.lost → Ends (.staleMessageResetOrder n ok) s fun t => n ∉ t.flt.lost ∧
        t.fld FLT_STALE_COUNT = min (2 ^ 32 - 1) (s.fld FLT_STALE_COUNT + 1) ∧ t.ses = s.ses ∧
        (n ≤ 0x7DF → ok = true → t.fld (FRM_CELL_STAT_STATE (n / 168) (n % 168)) = 2)) ∧
      (n ∉ s.flt.lost → exec (.staleMessageResetOrder n ok) s = .next s)) ∧
    (∀ (dev i : Nat) (l : List Nat),
      let rs := l.eraseDups
      (2 ≤ rs.length → rs.min? = some s.devAddr → s.flag GLB_DEV_ADDR_VALID = true → ∃ u : State, mget u.flt.missing dev = some rs ∧
        (s.fab.stopped = false → u.fab.sent = s.fab.sent ++ [.fence dev i]) ∧
        exec (.deviceDeclaredLost dev i l) s = .next (fenceIn u dev i)) ∧
      (rs.length < 2 → rs.length ≠ 1 ∨ watcherCount s ≠ 1 → Ends (.deviceDeclaredLost dev i l) s fun t =>
        mget t.flt.missing dev = some rs ∧ t.fab = s.fab ∧ t.regs = s.regs)) ∧
    (∀ (r : DirRec) (hd : HeadPage), (∀ b, mirrorBay s (r.pages * pageBytes) = some b → Ends (.mirroredPark r hd) s fun t =>
        (r, hd) ∈ t.flt.mirrors ∧ (t.bay b).nextJseq = (s.bay b).nextJseq + 1 ∧ t.ses = s.ses) ∧
      (mirrorBay s (r.pages * pageBytes) = none → exec (.mirroredPark r hd) s = .next s)) ∧
    (∀ l : List Word, Ends (.partnerHandleQuery l) s fun t => t.flt.adopted = l ∧ t.regs = s.regs ∧ t.ses = s.ses) ∧
    (∀ n : Nat, let c := s.cell n
      (c.run = .running → c.wait = none → ∃ u : State, (u.cell n).run = .stopped ∧ u.ses = s.ses ∧
        exec (.cellItemTimeout n) s = .next (abandonGalley u c.part c.slice)) ∧
      (c.run ≠ .running ∨ c.wait ≠ none → exec (.cellItemTimeout n) s = .next s)) ∧
    (∀ (src : Src) (i : Item), (s.queue src.ctx src.queue).started.find? (fun i => i.qpos = src.qpos) = some i →
      let due := i.started + s.fld FLT_TIMEOUT_B_CTL_ITEM_MS * 10 ^ 6
      (untimed (itemOpcode i) = false → due ≤ s.clk.now → Ends (.controlItemTimeout src) s fun t =>
        src.qpos ∈ (t.queue src.ctx src.queue).mute ∧ t.ses = s.ses) ∧
      (untimed (itemOpcode i) = true ∨ s.clk.now < due → exec (.controlItemTimeout src) s = .next s)))

/-- The fetch of an item from a plain command ring (R534). -/
def Obligations.ItemsAreFetchedFromTheRing : Prop :=
  ∀ (s : State) (c q : Nat), Canonical s → c < 64 → q < 16 → hostReach s c = true → queuesOpen s c = true → s.conf c = false →
    s.fld (HIF_Q_CTL_STATE c q) = 1 ∨ s.fld (HIF_Q_CTL_STATE c q) = 2 →
    let head := s.fld (HIF_Q_PTR_CMD_HEAD c q)
    let word (i : Nat) : Word := BitVec.ofNat 64 (leNat (rdBytes s.host.mem
      (c * 2 ^ 64 + (s.fld (HIF_Q_CMD_BASE c q) * 4096 + 8 * (i % 2 ^ s.fld (HIF_Q_CMD_LOG2_WORDS c q))) % 2 ^ 64) 8))
    let n := bits (word head).toNat 53 3 + 1
    let left := ((s.queue c q).cmdTail + 2 ^ 32 - head) % 2 ^ 32
    let i : Item := ⟨head, (List.range n).map fun k => word (head + k), s.clk.now, 0⟩
    (left < n → Ends (.commandFetch c q) s fun t => t.fld (HIF_Q_PTR_CMD_HEAD c q) = head ∧
      (t.queue c q).started = (s.queue c q).started ∧ t.host.mem = s.host.mem ∧
      (0 < left → t.fld (HIF_Q_CTL_STATE c q) = 2)) ∧
    (n ≤ left → mayBegin s c q i = false → Ends (.commandFetch c q) s fun t => t.fld (HIF_Q_PTR_CMD_HEAD c q) = head ∧
      (t.queue c q).started = (s.queue c q).started ∧ t.host.mem = s.host.mem) ∧
    (n ≤ left → mayBegin s c q i = true → ctlWords (itemOpcode i) = some (n - 1) → Ends (.commandFetch c q) s fun t =>
      (t.queue c q).started = (s.queue c q).started ++ [i] ∧ t.fld (HIF_Q_PTR_CMD_HEAD c q) = (head + n) % 2 ^ 32 ∧
      t.fld (HIF_Q_CTL_STATE c q) = 1 ∧ t.host.mem = s.host.mem)

/-- Doorbells (R533, R538, R539), queue states (R540), sealed slots (R544 to R547), function resets (R531), the purge (R561) and
zeroing (R559). -/
def Obligations.QueuesAreEnabledFlushedAndPurged : Prop :=
  (∀ (s : State) (c q : Nat), Canonical s → c < 64 → q < 16 →
    let x := s.queue c q
    let st := s.fld (HIF_Q_CTL_STATE c q)
    let head := s.fld (HIF_Q_PTR_CMD_HEAD c q)
    (st = 0 ∨ st = 3 → exec (.commandFetch c q) s = .next s) ∧
    (hostReach s c = true → queuesOpen s c = true → s.conf c = true → st = 1 → unfetched s c q ≠ 0 →
      (openSlot s c q head = none → Ends (.commandFetch c q) s fun t => t.fld (HIF_Q_CTL_STATE c q) = 3 ∧
        t.fld (HIF_Q_CTL_LAST_ERROR c q) = 0xB011 ∧ (t.queue c q).started = x.started ∧ t.ses = s.ses) ∧
      (∀ nonce ws, openSlot s c q head = some (nonce, ws) → mayBegin s c q ⟨head, ws, s.clk.now, nonce⟩ = true →
        ctlWords (itemOpcode ⟨head, ws, s.clk.now, nonce⟩) = some (ws.length - 1) → 1 ≤ ws.length → Ends (.commandFetch c q) s fun t =>
          (t.queue c q).started = x.started ++ [⟨head, ws, s.clk.now, nonce⟩] ∧ (t.queue c q).nonce = nonce ∧ x.nonce < nonce ∧
          t.fld (HIF_Q_PTR_CMD_HEAD c q) = (head + 1) % 2 ^ 32)) ∧
    (∀ (fn : Nat) (v : BitVec 32), fn = 0 ∨ fn = c → hostReach s fn = true → hostReach s c = true →
      let gap := (v.toNat + 2 ^ 32 - head) % 2 ^ 32
      (st = 1 ∨ st = 2 → ringSize s c q < gap → Ends (.doorbellCmdTail fn c q v) s fun t => t.fld (HIF_Q_CTL_STATE c q) = 3 ∧
        t.fld (HIF_Q_CTL_LAST_ERROR c q) = 0x1003 ∧ (t.queue c q).cmdTail = x.cmdTail) ∧
      (st = 0 ∨ st = 3 ∨ gap ≤ ringSize s c q → Ends (.doorbellCmdTail fn c q v) s fun t => (t.queue c q).cmdTail = v.toNat) ∧
      (Ends (.doorbellCplHead fn c q v) s fun t => (t.queue c q).cplHead = v.toNat ∧
        (x.backlog = [] → t.flag (HIF_Q_CTL_ARMED c q) = true)) ∧
      (Ends (.doorbellOutHead fn c q v) s fun t => (t.queue c q).outHead = v.toNat ∧ (x.waiting = [] → t.host.mem = s.host.mem))) ∧
    (∀ (fn : Nat) (v : BitVec 32), hostReach s c = false ∨ (fn ≠ 0 ∧ fn ≠ c) → exec (.doorbellCmdTail fn c q v) s = .next s ∧
      exec (.doorbellCplHead fn c q v) s = .next s ∧ exec (.doorbellOutHead fn c q v) s = .next s) ∧
    (∀ t0, x.partialAt = some t0 → st = 2 →
      (t0 + s.fld HIF_CFG_PARTIAL_MS * 1000000 ≤ s.clk.now → Ends (.partialTimeout c q) s fun t => t.fld (HIF_Q_CTL_STATE c q) = 3 ∧
        t.fld (HIF_Q_CTL_LAST_ERROR c q) = 0x1004 ∧ t.fld (HIF_Q_PTR_CMD_HEAD c q) = x.cmdTail % 2 ^ 32) ∧
      (s.clk.now < t0 + s.fld HIF_CFG_PARTIAL_MS * 1000000 → exec (.partialTimeout c q) s = .next s)) ∧
    (st = 1 ∨ st = 2 → Ends (.ringReadFailure c q) s fun t => t.fld (HIF_Q_CTL_STATE c q) = 3 ∧
      t.fld (HIF_Q_CTL_LAST_ERROR c q) = 0xA006 ∧ t.ses = s.ses) ∧
    (st = 0 ∨ st = 3 → exec (.ringReadFailure c q) s = .next s) ∧
    (hostReach s c = true ∨ hostReach s 0 = true →
      let based := s.fld (HIF_Q_CMD_BASE c q) ≠ 0 ∧ s.fld (HIF_Q_CPL_BASE c q) ≠ 0 ∧ s.fld (HIF_Q_OUT_BASE c q) ≠ 0
      (st = 0 → based → Ends (.queueEnable c q) s fun t => (t.queue c q).cplHead = 0 ∧ (t.queue c q).outHead = 0 ∧
        (t.queue c q).cmdTail = x.cmdTail ∧ (sealSpent s c q = false → x.backlog = [] → x.waiting = [] →
          (∀ y ∈ s.ses.entries, ¬ (y.2.context = c ∧ y.2.queue = q)) → t.fld (HIF_Q_CTL_STATE c q) = 1 ∧
            t.flag (HIF_Q_CTL_ARMED c q) = true ∧ t.fld (HIF_Q_PTR_CMD_HEAD c q) = x.cmdTail % 2 ^ 32 ∧
            t.fld (HIF_Q_PTR_CPL_TAIL c q) = 0 ∧ (t.queue c q).entries = 0)) ∧
      (st = 0 → ¬ based → Ends (.queueEnable c q) s fun t => t.fld (HIF_Q_CTL_STATE c q) = 0 ∧
        t.fld (HIF_Q_CTL_LAST_ERROR c q) = 0x1010 ∧ t.flag (HIF_Q_CTL_ENABLE c q) = false ∧ t.queue c q = x) ∧
      (st ≠ 0 → exec (.queueEnable c q) s = .next s) ∧
      (∀ i : Instr, i = .queueDisable c q ∨ i = .queueFlush c q →
        (st ≠ 0 → Ends i s fun t => t.fld (HIF_Q_CTL_STATE c q) = 0 ∧ t.flag (HIF_Q_CTL_ENABLE c q) = false ∧
          t.fld (HIF_Q_PTR_CMD_HEAD c q) = x.cmdTail % 2 ^ 32 ∧ (t.queue c q).started = x.started ∧ (t.queue c q).waiting = []) ∧
        (st = 0 → exec i s = .next s)))) ∧
  (∀ (s : State) (c : Nat), Canonical s → c < 64 → mwf s.host.ctk = true → mwf s.sec.spdm = true → mwf s.host.dataKey = true →
    (hostReach s c = true → Ends (.functionLevelReset c) s fun t => mget t.host.ctk c = none ∧ mget t.sec.spdm c = none ∧
      t.crt = s.crt ∧ t.vse = s.vse ∧ (∀ d, d ≠ c → mget t.host.ctk d = mget s.host.ctk d) ∧
      (ownQps s c = [] → s.waiters = [] → s.mkr.evaluating = none → ∀ q, q < 16 → t.fld (HIF_Q_CTL_STATE c q) = 0 ∧
        t.flag (HIF_Q_CTL_ENABLE c q) = false)) ∧
    (hostReach s c = false → exec (.functionLevelReset c) s = .next s) ∧
    (s.awake = true → Ends .pcieHotReset s fun t => ∀ d, d < 64 → (d = 0 ∨ s.flag (HIF_CTX_CTL_FN_ENABLED d) = true) →
      mget t.host.ctk d = none ∧ mget t.sec.spdm d = none) ∧
    (s.awake = false → exec .pcieHotReset s = .next s) ∧
    (hostReach s 0 = true → Ends (.contextPurge 0 c) s fun t => mget t.host.ctk c = none ∧ mget t.host.dataKey c = none) ∧
    (∀ fn, fn ≠ 0 → hostReach s fn = true → exec (.contextPurge fn c) s = .next (accErr s fn (0x101000 + 8 * c) true false)) ∧
    (∀ (f : Nat) (e : Frame), s.frame f = some e → mwf s.ses.frames = true →
      (e.kind = 6 → e.context < 64 → Ends (.frameZeroing f) s fun t => t.frame f = none ∧ rdBytes t.hbm (f * 16384) 16384 = List.replicate 16384 0#8 ∧
        (mget s.ses.remap (f / channelFrames) ≠ some 0 → t.fld SES_KV_FREE_FREE = (s.fld SES_KV_FREE_FREE + 1) % 2 ^ 25)) ∧
      (e.kind ≠ 6 → exec (.frameZeroing f) s = .next s)))

/-- BAR0 accesses (R20), reads and shadows (R22), writes by access code (R7), and the registers of R71, R152, R171, R313, R354; a
virtual function's write outside its window (R529, R600). -/
def Obligations.RegistersAreReadAndWritten : Prop :=
  ∀ s : State, Canonical s → s.hubUp 0 = true →
    (∀ (fn off width : Nat) (v : Word) (wr : Bool), hostReach s fn = true →
      ¬ ((width = 32 ∧ off % 4 = 0) ∨ (width = 64 ∧ off % 8 = 0)) →
      let recorded (t : State) (w : Nat) : Prop := t.fld HIF_ACC_ERR_COUNT = min (2 ^ 16 - 1) (s.fld HIF_ACC_ERR_COUNT + 1) ∧
        t.flag HIF_ACC_ERR_VALID = true ∧ (s.flag HIF_ACC_ERR_VALID = false → t.fld HIF_ACC_ERR_WRITE = w ∧
          t.fld HIF_ACC_ERR_FUNCTION = fn ∧ t.fld HIF_ACC_ERR_USB = 0 ∧ t.fld HIF_ACC_ERR_OFFSET = off % 2 ^ 26) ∧
        (∀ o, o ≠ 0x100008 → t.reg o = s.reg o) ∧ t.ses = s.ses
      (Ends (.misalignedBar0Access fn off width wr) s fun t => recorded t (if wr then 1 else 0) ∧
        (wr = false → mget t.host.answer fn = some 0)) ∧
      (Ends (.registerWrite fn off width v) s fun t => recorded t 1) ∧
      (Ends (.registerReadClear fn off width) s fun t => recorded t 0 ∧ mget t.host.answer fn = some 0)) ∧
    (∀ (fn off width : Nat) (wr : Bool), (width = 32 ∧ off % 4 = 0) ∨ (width = 64 ∧ off % 8 = 0) →
      exec (.misalignedBar0Access fn off width wr) s = .next s) ∧
    (hostReach s 0 = true →
      (∀ (off : Nat) (d : RegDesc) (l : List Nat), regAt off = some (d, l, 0) → formeAnswers s off = true →
        let w := viewReg (freshen s off) off
        (d.bits = 64 → off % 8 = 0 → (Ends (.registerReadClear 0 off 64) s fun t => mget t.host.answer 0 = some w ∧
            (off ≠ 0x100008 → t.reg 0x100008 = s.reg 0x100008)) ∧
          (Ends (.registerLowHalfRead 0 off) s fun t => mget t.host.answer 0 = some (BitVec.ofNat 64 (w.toNat % 2 ^ 32)) ∧
            mget t.host.shadow 0 = some (off, BitVec.ofNat 32 (w.toNat / 2 ^ 32)))) ∧
        (d.bits = 32 → off % 4 = 0 → Ends (.registerReadClear 0 off 32) s fun t =>
          mget t.host.answer 0 = some (BitVec.ofNat 64 (w.toNat % 2 ^ 32)) ∧ (off ≠ 0x100008 → t.reg 0x100008 = s.reg 0x100008))) ∧
      (∀ v : Word, (Ends (.registerWrite 0 0x58 64 v) s fun t => t.reg 0x58 = v ∧ (∀ o, o ≠ 0x58 → t.reg o = s.reg o) ∧ t.ses = s.ses) ∧
        (Ends (.registerWrite 0 0x58 32 v) s fun t => (t.reg 0x58).toNat = (s.reg 0x58).toNat / 2 ^ 32 * 2 ^ 32 + v.toNat % 2 ^ 32) ∧
        (Ends (.registerWrite 0 0x48 64 v) s fun t => t.reg 0x48 = s.reg 0x48 ∧ t.clk = s.clk) ∧
        (∀ h, h < 2 → Ends (.registerWrite 0 (0xA00120 + 0x40 * h) 32 v) s fun t =>
          t.flag (FLT_FIRST_CTL_VALID h) = (s.flag (FLT_FIRST_CTL_VALID h) && !v.getLsbD 0))) ∧
      (∀ (n : Nat) (v : BitVec 32), n < 4096 → (∀ b, b < 4 → (s.bay b).heldBack = []) →
        let live := ∃ y ∈ s.ses.entries, y.2.customer = n ∧ y.2.state.live = true
        let changes := (s.flag (SES_CUST_MAP_VALID n) = true ∧ v.getLsbD 6 = false) ∨ bits v.toNat 0 6 ≠ s.fld (SES_CUST_MAP_CONTEXT n)
        (¬ (live ∧ changes) → Ends (.sesCustMapWrite 0 n v) s fun t => t.fld (SES_CUST_MAP_CONTEXT n) = bits v.toNat 0 6 ∧
          t.flag (SES_CUST_MAP_VALID n) = v.getLsbD 6 ∧ t.ses = s.ses) ∧
        (live → changes → exec (.sesCustMapWrite 0 n v) s = .next (accErr s 0 (0x201000 + 4 * n) true false))) ∧
      (∀ (c : Nat) (v : Word), c < 64 →
        let new := bits v.toNat 0 25
        let others := ((List.range 64).map fun k => if k = c then 0 else s.fld (SES_CTX_PAGES_RSV_PAGES k)).sum
        (new = s.fld (SES_CTX_PAGES_RSV_PAGES c) ∨ others + new ≤ openFrames s → Ends (.sesCtxPagesWrite 0 c v) s fun t =>
          t.fld (SES_CTX_PAGES_RSV_PAGES c) = new ∧ t.fld (SES_CTX_PAGES_USED_PAGES c) = s.fld (SES_CTX_PAGES_USED_PAGES c) ∧
          t.ses = s.ses) ∧
        (new ≠ s.fld (SES_CTX_PAGES_RSV_PAGES c) → openFrames s < others + new →
          exec (.sesCtxPagesWrite 0 c v) s = .next (accErr s 0 (0x200400 + 8 * c) true false))) ∧
      (∀ (p : Nat) (v : Word), p < 16 → locked s (0x301000 + 8 * p) = false →
        let twice := ∃ k, k < 16 ∧ k ≠ p ∧ s.flag (GAL_PART_ENABLE k) = true ∧ s.fld (GAL_PART_QUIRES k) &&& bits v.toNat 0 48 ≠ 0
        (v.getLsbD 48 = true → twice → exec (.galPartWrite 0 p v) s = .next (accErr s 0 (0x301000 + 8 * p) true false)) ∧
        (v.getLsbD 48 = false ∨ ¬ twice → Ends (.galPartWrite 0 p v) s fun t => t.fld (GAL_PART_QUIRES p) = bits v.toNat 0 48 ∧
          t.flag (GAL_PART_ENABLE p) = v.getLsbD 48)) ∧
      (∀ n : Nat, n < 4096 → Ends (.galBudgetEnable n) s fun t => t.flag (GAL_BUDGET_B_ENABLE n) = true ∧
        (s.flag (GAL_BUDGET_B_ENABLE n) = false → t.fld (GAL_BUDGET_B_LEVEL n) = s.fld (GAL_BUDGET_A_DEPTH n))) ∧
      (∀ (n : Nat) (v : BitVec 32), n < 4096 → Ends (.galBudgetDepthWrite n v) s fun t => t.fld (GAL_BUDGET_A_DEPTH n) = v.toNat ∧
        t.fld (GAL_BUDGET_A_RATE n) = s.fld (GAL_BUDGET_A_RATE n) ∧ t.fld (GAL_BUDGET_B_LEVEL n) ≤ v.toNat) ∧
      (∀ b k o : Nat, b < 32 → k < 3 → o < 64 → Ends (.camOwnerWrite 0 b k o) s fun t => t.fld (CAM_CFG_OWNER_KIND b) = k ∧
        t.fld (CAM_CFG_OWNER b) = o ∧ t.fld (CAM_CFG_WIDTH b) = s.fld (CAM_CFG_WIDTH b))) ∧
    (∀ (fn off : Nat) (v : Word), fn ≠ 0 → hostReach s fn = true → 0x2060 ≤ off → off % 8 = 0 →
      exec (.registerWrite fn off 64 v) s = .next (accErr s fn off true false))

/-- SPDM (R549, R550, R553), the services (R541, R551, R565), the management port (R555 to R557) and the test port (R563). -/
def Obligations.TheRootOfTrustAndManagementPortAnswer : Prop :=
  (∀ (s : State) (fn : Nat), Canonical s → spdmServes s fn = true →
    let x := s.responder fn
    let tells (t : State) (st : SpdmStage) (code : Nat) : Prop := (t.responder fn).stage = st ∧
      ∃ bs, (t.responder fn).answer = some (code, bs)
    let keeps (t : State) (st : SpdmStage) (code : Nat) (bs : List Byte) : Prop := (t.responder fn).stage = st ∧
      (t.responder fn).answer = some (code, bs) ∧ (∀ k, k ≠ fn → mget t.sec.spdm k = mget s.sec.spdm k)
    let refusal (st : Nat) : List Byte := leBytes 1 0xFF ++ leBytes 2 st
    (Ends (.getVersion fn) s fun t => keeps t .version 0x04 [0x13] ∧ (t.responder fn).exchange = none) ∧
    (x.stage = .version → Ends (.getCapabilities fn) s fun t => keeps t .capabilities 0x61 []) ∧
    (x.stage ≠ .version → Ends (.getCapabilities fn) s fun t => tells t x.stage 0x7F) ∧
    (x.stage = .capabilities → (Ends (.negotiateAlgorithms fn true) s fun t => keeps t .algorithms 0x63 []) ∧
      Ends (.negotiateAlgorithms fn false) s fun t => tells t .capabilities 0x7F) ∧
    (x.stage = .algorithms ∨ x.stage = .session → (Ends (.getDigests fn) s fun t => keeps t x.stage 0x01 (sha384 (certChain s))) ∧
      (∀ o n, Ends (.getCertificate fn 0 o n) s fun t => keeps t x.stage 0x02 (((certChain s).drop o).take n)) ∧
      (∀ k o n, k ≠ 0 → Ends (.getCertificate fn k o n) s fun t => tells t x.stage 0x7F) ∧
      (Ends (.getMeasurements fn 5) s fun t => keeps t x.stage 0x60
        (leBytes 1 (s.fld DBG_CFG_PROFILE_EN + 2 * s.fld DBG_CFG_INVASIVE))) ∧
      (Ends (.getMeasurements fn 4) s fun t => keeps t x.stage 0x60 ((s.fab.comp.map (·.digest)).getD (List.replicate 48 0))) ∧
      (1 ≤ fn → fn < 64 → Ends (.getMeasurements fn 7) s fun t => keeps t x.stage 0x60 (leBytes 1 (if s.conf fn then 1 else 0))) ∧
      (fn = 0 ∨ 64 ≤ fn → Ends (.getMeasurements fn 7) s fun t => tells t x.stage 0x7F)) ∧
    (x.stage = .algorithms → (∀ nn, Ends (.challenge fn 0 nn) s fun t => tells t .algorithms 0x03) ∧
      ∀ d, Ends (.keyExchange fn d) s fun t => tells t .exchange 0x64 ∧ (t.responder fn).exchange = some d) ∧
    (x.stage ≠ .algorithms → ∀ d, Ends (.keyExchange fn d) s fun t => tells t x.stage 0x7F ∧ (t.responder fn).exchange = x.exchange) ∧
    (x.stage = .exchange → (Ends (.finish fn true) s fun t => keeps t .session 0x65 []) ∧
      Ends (.finish fn false) s fun t => tells t .algorithms 0x7F ∧ (t.responder fn).exchange = none) ∧
    (x.stage = .session → (Ends (.heartbeat fn) s fun t => keeps t .session 0x68 []) ∧
      (∀ op, op = 1 ∨ op = 2 → Ends (.keyUpdate fn op) s fun t => tells t .session 0x69 ∧ (t.responder fn).updates = x.updates + 1) ∧
      (Ends (.endSession fn) s fun t => keeps t .algorithms 0x6C []) ∧
      (∀ k : BitVec 256, fn < 64 → anyQueueOn s fn = false → s.fld DBG_CFG_INVASIVE = 0 → Ends (.setCtk fn k) s fun t =>
        tells t .session 0x7E ∧ mget t.host.ctk fn = some k ∧ t.conf fn = true ∧
        ∀ q, q < 16 → (t.queue fn q).cplCtr = 1 ∧ (t.queue fn q).outCtr = 1 ∧ (t.queue fn q).nonce = 0) ∧
      (∀ (w c m d : BitVec 768) (g : Nat) (by_ : Bool), fn = 0 → (∀ old, s.sec.keys = some old → by_ = true ∧ old.gen < g) →
        Ends (.domainKeys fn w c m d g by_) s fun t => tells t .session 0x7E ∧ t.sec.keys = some ⟨w, c, m, d, g⟩) ∧
      (fn = 0 → Ends (.clearDomain fn) s fun t => tells t .session 0x7E ∧ t.sec.keys = none) ∧
      (fn = 0 → (∀ c, c < 64 → s.conf c = false) → Ends (.debugUnlock fn (s.reg GLB_SERIAL_SERIAL.off).toNat
        (s.sec.startCount % 2 ^ 32) true) s fun t => tells t .session 0x7E ∧ t.fld DBG_CFG_INVASIVE = 1)) ∧
    (x.stage ≠ .session ∨ fn ≠ 0 → (∀ (w c m d : BitVec 768) (g : Nat) (by_ : Bool), Ends (.domainKeys fn w c m d g by_) s fun t =>
        keeps t x.stage 0x7F (refusal 0xB022) ∧ t.sec.keys = s.sec.keys) ∧
      (Ends (.clearDomain fn) s fun t => keeps t x.stage 0x7F (refusal 0xB022) ∧ t.sec.keys = s.sec.keys) ∧
      ∀ a b ok, Ends (.debugUnlock fn a b ok) s fun t => keeps t x.stage 0x7F (refusal 0xB021) ∧ t.regs = s.regs) ∧
    (x.stage ≠ .session → ∀ k, Ends (.setCtk fn k) s fun t => keeps t x.stage 0x7F (refusal 0xB020) ∧ t.host = s.host) ∧
    (fn < 64 → hostReach s fn = true → Ends (.doeAbort fn) s fun t => (t.responder fn).answer = none ∧
      (t.responder fn).partialReq = false ∧ (t.responder fn).stage = x.stage)) ∧
  (∀ (s : State) (fn : Nat), spdmServes s fn = false → exec (.getVersion fn) s = .next s ∧ (∀ k, exec (.setCtk fn k) s = .next s)) ∧
  (∀ s : State, Canonical s → s.pins.standby = true →
    let stall (t : State) : Prop := t.sec.stall = true ∧ t.sec.lastStatus = 0x1022 ∧ t.sec.reqCount = s.sec.reqCount ∧ t.regs = s.regs
    let counted (t : State) : Prop := t.sec.reqCount = (s.sec.reqCount + 1) % 65536 ∧ t.sec.lastStatus = 0 ∧ t.sec.stall = false
    (Ends .getInfo s fun t => t.sec.usbIn.length = 64 ∧ t.sec.usbIn.take 8 = leBytes 8 (viewReg s 0).toNat ∧ t.sec.stall = false ∧
      t.regs = s.regs) ∧
    (∀ v i n : Nat, let off := usbOffset v i
      (usbFits i n = true → Ends (.readReg v i n) s fun t => t.sec.usbIn = leBytes n (usbFetch s off (usbWidth i)).2 ∧
        t.sec.lastStatus = 0 ∧ (off / 0x100000 = 0xE → accessOk off (usbWidth i) = true → t.sec.usbIn = leBytes n 0)) ∧
      (usbFits i n = false → Ends (.readReg v i n) s fun t => stall t) ∧
      (∀ w : Word, (usbFits i n = true → off / 0x100000 = 0xD → accessOk off (usbWidth i) = true → Ends (.writeReg v i n w) s fun t =>
          counted t ∧ t.regs = (if usbWidth i = 64 then write64 s off w.toNat else write32 s off w.toNat).regs) ∧
        (usbFits i n = true → off / 0x100000 ≠ 0xD → Ends (.writeReg v i n w) s fun t => t.sec.lastStatus = 0x1021 ∧
          t.sec.reqCount = s.sec.reqCount ∧ ∀ o, o ≠ 0x100008 → t.reg o = s.reg o) ∧
        (usbFits i n = false → Ends (.writeReg v i n w) s fun t => stall t))) ∧
    (Ends .getFirst s fun t => t.sec.usbIn.length = 64 ∧ t.sec.usbIn.take 8 = leBytes 8 (s.fld (FLT_FIRST_WORD 0 0)) ∧ t.regs = s.regs) ∧
    (∀ k n : Nat, 1 ≤ k → k ≤ 3 → Ends (.bulkStart k n 8) s fun t => counted t ∧ t.sec.bulk = some (k, n)) ∧
    (∀ k n m : Nat, k = 0 ∨ 3 < k ∨ m ≠ 8 → Ends (.bulkStart k n m) s fun t => stall t ∧ t.sec.bulk = s.sec.bulk) ∧
    (∀ (slot svn : Nat) (ok : Bool),
      (∀ n, s.sec.bulk = some (3, n) → ok = true → s.sec.minSvn ≤ svn → slot < 2 → slot ≠ s.fld SEC_STATUS_BOOT_SLOT →
        s.sec.slots.length = 2 → Ends (.bulkTransferDone slot svn ok) s fun t => t.sec.bulk = none ∧
          (t.sec.slots[slot]?.map fun y => (y.svn)) = some svn ∧ t.sec.slots[1 - slot]? = s.sec.slots[1 - slot]?) ∧
      (∀ n, s.sec.bulk = some (3, n) → ok = false ∨ svn < s.sec.minSvn → Ends (.bulkTransferDone slot svn ok) s fun t =>
        t.sec.bulk = none ∧ t.sec.slots = s.sec.slots) ∧
      (∀ n, s.sec.bulk = some (2, n) → Ends (.bulkTransferDone slot svn ok) s fun t => t.sec.bulk = none ∧
        t.sec.usbIn = ringCopy s n) ∧
      (s.sec.bulk = none → exec (.bulkTransferDone slot svn ok) s = .next s)) ∧
    (Ends .getResult s fun t => t.sec.usbIn = leBytes 8 (s.sec.reqCount + s.sec.lastStatus * 65536) ∧
      t.sec.reqCount = s.sec.reqCount ∧ t.sec.lastStatus = s.sec.lastStatus) ∧
    (s.awake = true → Ends (.reset 0xA55A 0) s fun t => t.clk.now = 0 ∧ t.fld GLB_STATE_START_PHASE = 1 ∧ t.ses = State.reset.ses ∧
      t.sec.reqCount = (s.sec.reqCount + 1) % 65536) ∧
    (∀ v i : Nat, v ≠ 0xA55A ∨ i ≠ 0 → Ends (.reset v i) s fun t => stall t) ∧
    (Ends .usbBusReset s fun t => t.sec.bulk = none ∧ t.sec.usbIn = [] ∧ t.sec.reqCount = s.sec.reqCount) ∧
    (Ends .usbStageTimeout s fun t => t.sec.bulk = none ∧ t.sec.usbIn = [] ∧ t.sec.lastStatus = 0xA007 ∧
      t.sec.reqCount = s.sec.reqCount) ∧
    (∀ r y n : Nat, usbKnown r y n = false → Ends (.unsupportedManagementRequest r y n) s fun t => stall t)) ∧
  (∀ s : State, (Ends (.testPortInstruction 2) s fun t => t.sec.tap = 2 ∧ t.sec.tapData = 0x10E51B47) ∧
    (Ends (.testPortInstruction 0) s fun t => t.sec.tap = 0 ∧ t.sec.tapData = 0) ∧
    (∀ c, c = 3 ∨ c = 4 ∨ c = 5 → s.pins.porstN = true → Ends (.testPortInstruction c) s fun t => t.sec.tap = 0) ∧
    (∀ c, 6 ≤ c → s.flag DBG_CFG_INVASIVE = false → Ends (.testPortInstruction c) s fun t => t.sec.tap = 0 ∧ t.sec.tapData = 0) ∧
    (s.pins.standby = false → exec .getInfo s = .next s ∧ exec .getResult s = .next s))

/-- Island states (R569 to R572), D1 (R573), energy (R574), event edges and delivery (R576 to R578) and start-up (R579 to R583).
That firmware serves a group's latches at delivery is log entry 62, that phase 0x4 ends as a whole part is log entry 63. -/
def Obligations.IslandsEventsAndStartUpAdvance : Prop :=
  ∀ s : State, Canonical s →
    (∀ x : Nat, isIsland x = true →
      (islandIdle s x = true → Ends (.islandStateChoice x) s fun t =>
        let st := (t.island x).state
        st ≤ islandLimit s x ∧ (nextEvent s x = none → st = islandLimit s x) ∧
        (∀ e, nextEvent s x = some e →
          let need (k : Nat) := entryTime s x k + wakeTime s x k + wakeMargin s x k
          (st ≠ 0 → need st ≤ e - s.clk.now ∧ (st = 3 → s.fld PWR_CFG_I3_MIN_US * 1000 ≤ e - s.clk.now)) ∧
          ∀ k, st < k → k ≤ islandLimit s x → e - s.clk.now < need k ∨ (k = 3 ∧ e - s.clk.now < s.fld PWR_CFG_I3_MIN_US * 1000)) ∧
        (∀ y, y ≠ x → t.island y = s.island y) ∧ t.cells = s.cells ∧ t.clk = s.clk) ∧
      (islandIdle s x = false → exec (.islandStateChoice x) s = .next s) ∧
      ((s.island x).state ≠ 0 → Ends (.islandWake x) s fun t =>
        t.island x = { state := 0, entry := none, wake := some s.clk.now } ∧ (∀ y, y ≠ x → t.island y = s.island y) ∧
        (x < 2016 → t.fld (FRM_CELL_STAT_ISLAND (x / 168) (x % 168)) = 0) ∧ t.cells = s.cells) ∧
      ((s.island x).state = 0 → exec (.islandWake x) s = .next s)) ∧
    (∀ x : Nat, isIsland x = false → exec (.islandStateChoice x) s = .next s ∧ exec (.islandWake x) s = .next s) ∧
    (let go := s.fld GLB_STATE_DEV_STATE = 0 ∧ s.flag GLB_STATE_READY = true ∧ deviceIdle s = true ∧
        s.isl.idleSince + s.fld PWR_CFG_IDLE_MS * 10 ^ 6 ≤ s.clk.now;
      (go → Ends .d1Entry s fun t => t.fld GLB_STATE_DEV_STATE = 1 ∧ t.isl.selfRefresh = true ∧
        ∀ x ∈ allIslands, (t.island x).state = islandLimit s x) ∧
      (¬ go → exec .d1Entry s = .next s)) ∧
    (∀ n : Nat, let g := s.fld (EVC_SRC_GROUP n)
      (evtAssigned n = true → s.pins.standby = true →
        (s.flag (EVC_SRC_LATCHED n) = true → Ends (.eventEdge n) s fun t => t.flag (EVC_SRC_LATCHED n) = true ∧
          t.fld (EVC_SRC_MERGED n) = min (s.fld (EVC_SRC_MERGED n) + 1) 255 ∧
          t.fld (EVC_GROUP_PENDING g) = s.fld (EVC_GROUP_PENDING g)) ∧
        (s.flag (EVC_SRC_LATCHED n) = false → Ends (.eventEdge n) s fun t => t.flag (EVC_SRC_LATCHED n) = true ∧
          t.fld (EVC_SRC_MERGED n) = s.fld (EVC_SRC_MERGED n) ∧
          t.fld EVC_STATUS_LATCHED = min (s.fld EVC_STATUS_LATCHED + 1) 4095 ∧
          t.fld (EVC_GROUP_PENDING g) = (if s.flag (EVC_SRC_ENABLE n) then min (s.fld (EVC_GROUP_PENDING g) + 1) 4095
            else s.fld (EVC_GROUP_PENDING g))) ∧
        (s.fld GLB_STATE_DEV_STATE = 1 → Ends (.eventEdge n) s fun t => t.fld GLB_STATE_DEV_STATE = 0 ∧ t.isl.selfRefresh = false)) ∧
      (evtAssigned n = false ∨ s.pins.standby = false → exec (.eventEdge n) s = .next s)) ∧
    (let r := endHolds s
      ∀ h : Nat,
        (∀ g : Nat, h < 2 → r.hubUp h = true → r.pins.standby = true → r.awake = true → g < 64 → r.fld (EVC_GROUP_PENDING g) ≠ 0 →
          r.flag (EVC_GROUP_HELD g) = false → groupCore r g / 8 = h →
          (∀ k, k < g → r.fld (EVC_GROUP_PENDING k) = 0 ∨ r.flag (EVC_GROUP_HELD k) = true ∨ groupCore r k / 8 ≠ h) →
          Ends (.eventDelivery h) s fun t => t.isl.vectors = s.isl.vectors ++ [(groupCore r g, r.fld (EVC_GROUP_VECTOR g))] ∧
            t.fld (EVC_GROUP_PENDING g) = 0 ∧ t.flag (EVC_GROUP_HELD g) = true ∧
            mget t.isl.holds g = some (s.clk.now + r.fld (EVC_GROUP_HOLDOFF_NS g), true) ∧ (t.island (8192 + groupCore r g)).state = 0 ∧
            ∀ n, n < 2048 → r.fld (EVC_SRC_GROUP n) = g → r.flag (EVC_SRC_ENABLE n) = true → r.flag (EVC_SRC_LATCHED n) = true →
              t.flag (EVC_SRC_LATCHED n) = false ∧ t.fld (EVC_SRC_MERGED n) = 0) ∧
        (2 ≤ h ∨ r.hubUp h = false ∨ r.pins.standby = false ∨ r.awake = false ∨ (∀ g, g < 64 → r.fld (EVC_GROUP_PENDING g) = 0 ∨
          r.flag (EVC_GROUP_HELD g) = true ∨ groupCore r g / 8 ≠ h) → exec (.eventDelivery h) s = .next r)) ∧
    (∀ k : Nat, let due := k < 64 ∧ s.fld (EVC_TIMER_AT k) ≠ 0 ∧ s.fld (EVC_TIMER_AT k) ≤ s.clk.now
      (due → exec (.evcTimerReached k) s = .next (edge s (0x440 + k))) ∧ (¬ due → exec (.evcTimerReached k) s = .next s)) ∧
    (∀ uj : Nat, (s.awake = true → Ends (.energyTelemetry uj) s fun t =>
        t.fld PWR_ENERGY_UJ = (s.fld PWR_ENERGY_UJ + uj) % 2 ^ 64 ∧ t.fld PWR_POWER_MW = min uj (2 ^ 32 - 1) ∧
        t.fld GLB_STATE_DEV_STATE = s.fld GLB_STATE_DEV_STATE ∧ t.isl = s.isl) ∧
      (s.awake = false → exec (.energyTelemetry uj) s = .next s)) ∧
    (Ends .porstNAsserted s fun t => t.pins.porstN = false ∧ t.pins.ovHold = false ∧ t.fld GLB_STATE_START_PHASE = 0 ∧
      t.fld GLB_STATE_DEV_STATE = 3 ∧ (∀ o, o ≠ CRT_SEAL_SEAL_US.off → o ≠ PWR_RAILS_PWRFAIL.off → t.reg o = resetWord o) ∧
      t.ses = State.reset.ses ∧ t.cells = [] ∧ t.hbm = [] ∧ t.crt.objects = s.crt.objects ∧ t.host.mem = s.host.mem) ∧
    (s.pins.porstN = false → s.pins.standby = true → Ends .porstNReleased s fun t => t.pins.porstN = true ∧ t.clk.now = 0 ∧
      t.fld GLB_STATE_START_PHASE = 1 ∧ t.flag GLB_CAP3_FAILOVER_PORT = s.pins.failoverEn ∧ t.ses = s.ses) ∧
    (s.pins.porstN = true ∨ s.pins.standby = false → exec .porstNReleased s = .next s) ∧
    (s.awake = false → exec .startPhaseAdvance s = .next s) ∧
    (s.awake = true →
      let booted (t : State) (i : Nat) : Prop := t.fld SEC_STATUS_BOOT_SLOT = i ∧ t.fld GLB_STATE_START_PHASE = 2 ∧
        t.sec.startCount = s.sec.startCount + 1 ∧
        t.ses.baseInstar = (if (s.sec.startCount + 1) % 2 ^ 24 = 0 then 1 else (s.sec.startCount + 1) % 2 ^ 24)
      (s.fld GLB_STATE_START_PHASE = 1 →
        ((∃ b ∈ s.pins.serdes, b = false) → exec .startPhaseAdvance s = .next s) ∧
        ((∀ b ∈ s.pins.serdes, b = true) → (imageOk s 0 = true → Ends .startPhaseAdvance s fun t => booted t 0) ∧
          (imageOk s 0 = false → imageOk s 1 = true → Ends .startPhaseAdvance s fun t => booted t 1) ∧
          (imageOk s 0 = false → imageOk s 1 = false → Ends .startPhaseAdvance s fun t =>
            t.fld GLB_STATE_START_PHASE = 15 ∧ t.sec.lastStatus = 0xB001 ∧ t.sec.startCount = s.sec.startCount))) ∧
      (∀ p, p = 2 ∨ p = 3 → s.fld GLB_STATE_START_PHASE = p → Ends .startPhaseAdvance s fun t =>
        t.fld GLB_STATE_START_PHASE = p + 1 ∧ t.isl.phaseAt = s.clk.now ∧ t.ses = s.ses) ∧
      (s.fld GLB_STATE_START_PHASE = 4 → Ends .startPhaseAdvance s fun t => t.fld GLB_STATE_START_PHASE = 5 ∧
        t.fld GLB_RES0_CELLS_ACTIVE = 1920 ∧ t.fld GLB_RES0_SPARE_CELLS = 96 ∧ t.fld GLB_RES0_HBM_GIB = 384 ∧
        t.fld GLB_RES0_HBM_SPARE_GIB = 48 ∧ t.fld GLB_RES1_FORME_OK = 0xFFF ∧ t.fld GLB_RES1_STACKS_OK = 0xFFF ∧
        t.fld GLB_RES1_HUB_OK = 3 ∧ t.fld SES_KV_FREE_FREE = 24969216 ∧ t.mkr.due = true) ∧
      (s.fld GLB_STATE_START_PHASE = 5 → (s.flag GLB_DEV_ADDR_VALID = true → Ends .startPhaseAdvance s fun t =>
          t.fld GLB_STATE_START_PHASE = 6 ∧ t.isl.phaseAt = s.clk.now) ∧
        (s.flag GLB_DEV_ADDR_VALID = false → exec .startPhaseAdvance s = .next s)) ∧
      (s.fld GLB_STATE_START_PHASE = 6 → (timeLocked s = true ∨ s.isl.phaseAt + 20 * 10 ^ 9 ≤ s.clk.now → Ends .startPhaseAdvance s fun t =>
          t.fld GLB_STATE_START_PHASE = 7 ∧ t.flag GLB_STATE_READY = true ∧ t.fld GLB_STATE_DEV_STATE = 0) ∧
        (timeLocked s = false → s.clk.now < s.isl.phaseAt + 20 * 10 ^ 9 → exec .startPhaseAdvance s = .next s)) ∧
      (s.fld GLB_STATE_START_PHASE = 0 ∨ 7 ≤ s.fld GLB_STATE_START_PHASE → exec .startPhaseAdvance s = .next s))

/-- Supplies (R590, R591, 10 R397, 15 R573), references (R593), heat (R595, R597), the host port (R527, R528, R503) and the scrub
(R560, log entry 60). That an overvoltage or a collapse holds until PORST_N is pulsed is the model's reading (log entry 101). -/
def Obligations.SuppliesHeatClocksAndHostPortAct : Prop :=
  ∀ s : State, Canonical s →
    let running := s.awake = true ∧ 1 ≤ s.fld GLB_STATE_START_PHASE ∧ s.fld GLB_STATE_START_PHASE ≤ 7
    let sealed (t : State) : Prop := t.fld GLB_STATE_START_PHASE = 8 ∧ t.fld GLB_STATE_READY = 0 ∧ t.fld GLB_STATE_DEV_STATE = 3
    let held (t : State) : Prop := t.pins.ovHold = true ∧ t.awake = false ∧ t.fld GLB_STATE_START_PHASE = 0 ∧
      t.fld GLB_STATE_DEV_STATE = 3 ∧ t.ses = State.reset.ses
    let reports (t : State) (n k st : Nat) : Prop := mget s.flt.latch n = none →
      ∃ m, mget t.flt.latch n = some m ∧ m.kind = k ∧ m.status = st
    (s.pins.pwrfailN = true → (running → Ends .pwrfailNAsserted s fun t => sealed t ∧ t.pins.pwrfailN = false) ∧
      (¬ running → Ends .pwrfailNAsserted s fun t => t.pins.pwrfailN = false ∧ t.flag PWR_RAILS_PWRFAIL = true ∧
        t.fld GLB_STATE_START_PHASE = s.fld GLB_STATE_START_PHASE)) ∧
    (s.pins.pwrfailN = false → exec .pwrfailNAsserted s = .next s) ∧
    (let restarts := s.awake = true ∧ s.fld GLB_STATE_START_PHASE = 8 ∧ sealsDone s = true ∧ s.pins.thermtripN = true;
      (restarts → Ends .pwrfailNDeasserted s fun t => t.pins.pwrfailN = true ∧ t.fld GLB_STATE_START_PHASE = 1 ∧ t.clk.now = 0 ∧
        t.fld PWR_RAILS_PWRFAIL = 0 ∧ t.fld CRT_SEAL_SEAL_US = s.fld CRT_SEAL_SEAL_US) ∧
      (¬ restarts → Ends .pwrfailNDeasserted s fun t => t.pins.pwrfailN = true ∧ t.fld PWR_RAILS_PWRFAIL = 0 ∧
        t.fld GLB_STATE_START_PHASE = s.fld GLB_STATE_START_PHASE ∧ t.clk = s.clk)) ∧
    (∀ v : Nat, (3135 ≤ v → v ≤ 3465 → Ends (.standbyRailUp v) s fun t => t.pins.standby = true ∧ t.fld PWR_RAILS_VSB_MV = v) ∧
      (v < 3135 ∨ 3465 < v → exec (.standbyRailUp v) s = .next s)) ∧
    (∀ v : Nat, s.awake = true → 40000 ≤ v → v < 44000 →
      (s.pins.pwrfailN = true → running → Ends (.vinLow v) s fun t => sealed t ∧ reports t (hubUnit s 14) 0x10 0xC003) ∧
      (s.pins.pwrfailN = false → Ends (.vinLow v) s fun t => t.fld PWR_RAILS_VIN_MV = v ∧ t.flt = s.flt ∧
        t.fld GLB_STATE_START_PHASE = s.fld GLB_STATE_START_PHASE)) ∧
    (∀ v : Nat, s.awake = false ∨ v < 40000 ∨ 44000 ≤ v → exec (.vinLow v) s = .next s) ∧
    (∀ v : Nat, s.awake = true → 54000 < v → v ≤ 57000 →
      ((∀ t0, s.pins.vinMsgAt = some t0 → t0 + 10 ^ 9 ≤ s.clk.now) → Ends (.vinHighWarning v) s fun t =>
        t.fld PWR_RAILS_VIN_MV = v ∧ t.flag PWR_RAILS_VIN_HIGH = true ∧ t.pins.vinMsgAt = some s.clk.now ∧
        reports t (hubUnit s 14) 0x0B 0xC003) ∧
      (∀ t0, s.pins.vinMsgAt = some t0 → s.clk.now < t0 + 10 ^ 9 → Ends (.vinHighWarning v) s fun t =>
        t.fld PWR_RAILS_VIN_MV = v ∧ t.flag PWR_RAILS_VIN_HIGH = true ∧ t.flt = s.flt)) ∧
    (∀ v : Nat, s.awake = false ∨ v ≤ 54000 ∨ 57000 < v → exec (.vinHighWarning v) s = .next s) ∧
    (∀ v : Nat, (57000 < v → Ends (.vinOvervoltage v) s fun t => held t ∧ t.crt.objects = s.crt.objects) ∧
      (v ≤ 57000 → exec (.vinOvervoltage v) s = .next s)) ∧
    (∀ vin vsb : Nat, (vsb < 3000 → Ends (.railCollapse vin vsb) s fun t => held t ∧ t.pins.standby = false ∧
        t.fld CRT_SEAL_SEAL_US = 0 ∧ t.sec.reqCount = 0 ∧ ∀ n, n < 2048 → t.flag (EVC_SRC_LATCHED n) = false) ∧
      (3000 ≤ vsb → vin < 40000 → Ends (.railCollapse vin vsb) s fun t => held t ∧ t.pins.standby = s.pins.standby ∧
        t.fld CRT_SEAL_SEAL_US = s.fld CRT_SEAL_SEAL_US ∧
        ∀ n, n < 2048 → t.flag (EVC_SRC_LATCHED n) = s.flag (EVC_SRC_LATCHED n)) ∧
      (3000 ≤ vsb → 40000 ≤ vin → exec (.railCollapse vin vsb) s = .next s)) ∧
    (∀ h : Nat, (2 ≤ h ∨ s.awake = false → exec (.serdesReferenceAbsent h) s = .next s) ∧
      (h < 2 → s.awake = true → s.fld GLB_STATE_START_PHASE = 1 → Ends (.serdesReferenceAbsent h) s fun t =>
        t.pins.serdes = s.pins.serdes.set h false ∧ t.regs = s.regs ∧
        t.sec.lastStatus = (if s.isl.phaseAt + 8 * 10 ^ 8 ≤ s.clk.now then 0xC002 else s.sec.lastStatus)) ∧
      (h < 2 → s.awake = true → 2 ≤ s.fld GLB_STATE_START_PHASE → s.fld GLB_STATE_START_PHASE ≤ 8 → s.ses.entries = [] → s.vse = [] →
        (∀ b, b < 4 → (s.bay b).waitItems = []) → Ends (.serdesReferenceAbsent h) s fun t =>
          (∀ p, p < 16 → p / 8 = h → pst t p = (if pst s p = 1 ∨ pst s p = 2 then 0 else pst s p)) ∧
          ∀ b, b < 4 → b / 2 = h → bst t b = (if bst s b = 3 ∨ bst s b = 5 ∨ bst s b = 6 then 10 else bst s b))) ∧
    (∀ tj : Nat, (125 ≤ tj → Ends (.thermtrip tj) s fun t => t.pins.thermtripN = false ∧ (running → sealed t)) ∧
      (tj < 125 → exec (.thermtrip tj) s = .next s)) ∧
    (∀ tj h : Nat,
      (s.awake = true → 100 ≤ tj → s.gal.limited = 0 → Ends (.thermalThrottle tj h) s fun t => t.gal.limited = 1 ∧
        t.pins.hotAt = some s.clk.now ∧ t.fld PWR_THERM_TJ_MAX_C = min tj 255 ∧ t.flag PWR_THERM_THROTTLED = true ∧
        reports t (0xB4F + 16 * (h % 2)) 0x0B 0xC004) ∧
      (s.awake = true → 100 ≤ tj → s.gal.limited ≠ 0 → Ends (.thermalThrottle tj h) s fun t =>
        t.fld PWR_THERM_TJ_MAX_C = min tj 255 ∧ t.gal = s.gal ∧ t.flt = s.flt) ∧
      (s.awake = false ∨ tj < 100 → exec (.thermalThrottle tj h) s = .next s) ∧
      (∀ t0, s.pins.hotAt = some t0 → s.awake = true → 103 < tj → t0 + 10 ^ 8 ≤ s.clk.now → s.gal.limited = 1 →
        Ends (.thermalLimitAll tj h) s fun t => t.gal.limited = 2 ∧ t.mkr.due = true ∧ t.flag PWR_THERM_ALL_LIMITED = true ∧
          t.pins.hotAt = some t0 ∧ reports t (0xB4F + 16 * (h % 2)) 0x0B 0xC004) ∧
      (s.pins.hotAt = none ∨ s.awake = false ∨ tj ≤ 103 ∨ s.gal.limited ≠ 1 ∨
        (∃ t0, s.pins.hotAt = some t0 ∧ s.clk.now < t0 + 10 ^ 8) → exec (.thermalLimitAll tj h) s = .next s)) ∧
    (∀ tj : Nat,
      (∀ t0, s.pins.hotAt = some t0 → s.awake = true → tj < 95 → t0 + 10 ^ 9 ≤ s.clk.now → Ends (.thermalLimitLift tj) s fun t =>
        t.gal.limited = 0 ∧ t.pins.hotAt = none ∧ t.mkr.due = true ∧ t.fld PWR_THERM_TJ_MAX_C = tj ∧
        t.flag PWR_THERM_THROTTLED = false ∧ t.flag PWR_THERM_ALL_LIMITED = false) ∧
      (s.pins.hotAt = none ∨ s.awake = false ∨ 95 ≤ tj ∨ (∃ t0, s.pins.hotAt = some t0 ∧ s.clk.now < t0 + 10 ^ 9) →
        exec (.thermalLimitLift tj) s = .next s)) ∧
    (∀ (fn : Nat) (on : Bool),
      let open_ := s.awake = true ∧ 2 ≤ s.fld GLB_STATE_START_PHASE ∧ s.fld GLB_STATE_START_PHASE ≤ 8 ∧ s.hubUp 0 = true ∧
        1 ≤ fn ∧ fn < 64
      (open_ → Ends (.srIovVfEnable fn on) s fun t => t.flag (HIF_CTX_CTL_FN_ENABLED fn) = on ∧ t.host = s.host ∧ t.ses = s.ses ∧
        ∀ o, o ≠ (HIF_CTX_CTL_FN_ENABLED fn).off → t.reg o = s.reg o) ∧
      (¬ open_ → exec (.srIovVfEnable fn on) s = .next s)) ∧
    (∀ n : Nat, (n = 8 ∨ n = 4 ∨ n = 2 ∨ n = 1 → n < s.host.lanes → Ends (.pcieLinkRetrain n) s fun t => t.host.lanes = n ∧
        t.host.queues = s.host.queues ∧ t.regs = s.regs) ∧
      ((n ≠ 8 ∧ n ≠ 4 ∧ n ≠ 2 ∧ n ≠ 1) ∨ s.host.lanes ≤ n → exec (.pcieLinkRetrain n) s = .next s)) ∧
    (∀ src : Src,
      (∀ i, ((s.queue src.ctx src.queue).started.find? fun y => y.qpos = src.qpos) = some i → ∃ u : State,
        u = completeFail s src (itemOpcode i) 0xA006 0 0 ∧ Ends (.hostMemoryReadTimeout src) s fun t =>
          (t.queue src.ctx src.queue).mute = (u.queue src.ctx src.queue).mute ++ [src.qpos] ∧ t.regs = u.regs ∧
          t.host.mem = u.host.mem ∧ t.ses = s.ses) ∧
      ((∀ y ∈ (s.queue src.ctx src.queue).started, y.qpos ≠ src.qpos) → exec (.hostMemoryReadTimeout src) s = .next s)) ∧
    (∀ n : Nat, n < 1920 → Ends (.memoryScrub n) s fun t => (t.cell n).weak = [] ∧ (t.cell n).mem = (s.cell n).mem ∧ t.hbm = s.hbm ∧
      (∀ m, m ≠ n → t.cell m = s.cell m) ∧
      (cellPhys s n < 168 → t.fld (FRM_CELL_ECC_CE (n / 160) (cellPhys s n)) =
        min (s.fld (FRM_CELL_ECC_CE (n / 160) (cellPhys s n)) + (s.cell n).weak.length) 65535) ∧
      ∀ u, u ∈ t.hbmWeak ↔ u ∈ s.hbmWeak ∧ ¬ (n % 160 = 0 ∧ unitStack u = n / 160)) ∧
    (∀ n : Nat, 1920 ≤ n → exec (.memoryScrub n) s = .next s)
end

