-- ==== Sys2Proof/Machine/Attention.lean ====
section
/-! DEFINITION. Attention over a merge group of cells (08 R304 to R309): the exchange, the merge of fast mode, and the procedure of
exact mode.  Step programs carry these out item by item; here they stand over the lane operations of those items. -/

namespace Sys2Proof.Machine

/-! ### The exchange (R305, R309) -/

/-- Levels of the exchange of a group of C_m cells: ⌈log2 C_m⌉ (R305). -/
def mergeLevels (cm : Nat) : Nat := ((List.range 64).find? fun l => decide (cm ≤ 2 ^ l)).getD 64

/-- Receivers and senders of level `l`, from 1 (R305). -/
def mergePairs (cm l : Nat) : List (Nat × Nat) :=
  (List.range cm).filterMap fun i =>
    let r := 2 ^ l * i
    if r + 2 ^ (l - 1) < cm then some (r, r + 2 ^ (l - 1)) else none

/-- Nanoseconds within which a level completes: bytes of a sender, clock in MHz, bridge hops (R305). -/
def levelTime (bytes mhz hops : Nat) : Nat := 150 + (bytes * 1000 + 256 * mhz - 1) / (256 * mhz) + 35 * hops

/-- Bytes a sender sends at a level of the max exchange, and of the sum exchange of its rows (R309). -/
def maxBytes : Nat := 256
def sumBytes (rows : Nat) : Nat := (rows + 1) * wideBytes

/-! ### Fast mode (R306) -/

/-- What a cell keeps of a query row: the maximum, the denominator, the output lanes, in binary32. -/
structure FastPart where
  m : Nat
  l : Nat
  o : List Nat
  deriving DecidableEq, Repr

/-- RNE(x × α + y × β): one vmul, then one vfma. -/
def weighPair (al be x y : Nat) : Nat := (fFma fmt32 rne y be (fMul fmt32 rne x al).1).1

/-- The merge of a pair, the lower rank first. -/
def fastMerge (a b : FastPart) : FastPart :=
  let m := (fMinMax fmt32 true a.m b.m).1
  let al := (fExp2 fmt32 rne (fSub fmt32 rne a.m m).1).1
  let be := (fExp2 fmt32 rne (fSub fmt32 rne b.m m).1).1
  ⟨m, weighPair al be a.l b.l, (a.o.zip b.o).map fun x => weighPair al be x.1 x.2⟩

/-- One level of the tree of R305 over the parts in rank order. -/
def fastLevel : List FastPart → List FastPart
  | a :: b :: r => fastMerge a b :: fastLevel r
  | l => l

/-- `n` levels of the tree. -/
def fastTree : Nat → List FastPart → List FastPart
  | 0, l => l
  | n + 1, l => fastTree n (fastLevel l)

/-- What the cell of rank 0 holds after the exchange. -/
def fastResult (l : List FastPart) : Option FastPart := (fastTree (mergeLevels l.length) l).head?

/-! ### Exact mode (R304, R307, R308) -/

/-- Scores of a page from position `first` on, −∞ in the lanes that a row of position `q` does not see (R307). -/
def maskScores (first q : Nat) (s : List Nat) : List Nat :=
  s.zipIdx.map fun x => if first + x.2 ≤ q then x.1 else 0xFF800000

/-- The maximum of scores. -/
def maxScore (s : List Nat) : Nat := s.foldl (fun a x => (fMinMax fmt32 true a x).1) 0xFF800000

/-- The weights of a page's positions: vexp2(RNE(SCALE_C × RNE(s − M))). -/
def exactWeights (scale m : Nat) (s : List Nat) : List Nat :=
  s.map fun x => (fExp2 fmt32 rne (fMul fmt32 rne scale (fSub fmt32 rne x m).1).1).1

/-- A wide accumulator's lane after binary32 addends, with its flags (06 R221, R222). -/
def wideSum (b : Int) (l : List Nat) : BitVec 192 × Nat :=
  l.foldl (fun a x => (a.1 + BitVec.ofInt 192 (gridAddend b (decodeF fmt32 x)).1, a.2 ||| (gridAddend b (decodeF fmt32 x)).2)) (0, 0)

/-- The sum of a page's weights: vred.add of the weights padded with +0 to 64 lanes. -/
def weightSum (p : List Nat) : Nat := (sumTree rne 6 (p ++ List.replicate (64 - p.length) 0)).1.headD 0

/-- The output of a query row over the whole pages of its merge group: a page gives its masked scores and what tmma makes of the
weights against its values.  The cells' shares and their order do not enter: sums are wide, and the maximum is exact (R308). -/
def exactRow (scale : Nat) (bo bl : Int) (lanes : Nat) (pages : List (List Nat × (List Nat → List Nat))) : List Nat :=
  let m := maxScore (pages.flatMap (·.1))
  let ps := pages.map fun g => (exactWeights scale m g.1, g.2 (exactWeights scale m g.1))
  let wo := (List.range lanes).map fun j => wideSum bo (ps.map fun g => g.2.getD j 0)
  let wl := wideSum bl (ps.map fun g => weightSum g.1)
  let fl := wo.foldl (fun a x => a ||| x.2) 0
  let r := (fRcp fmt32 rne (wcvtLane fmt32 rne wl.2 bl wl.1).1).1
  wo.map fun x => (fMul fmt32 rne (wcvtLane fmt32 rne fl bo x.1).1 r).1

end Sys2Proof.Machine
end

