-- ==== Sys2Proof/Laws/Attention.lean ====
section
/-! SUPPORT. Exact mode (08 R308; 06 R225): a wide sum does not depend on the order of its addends. -/

namespace Sys2Proof.Machine

theorem wideSum_perm (b : Int) {l l' : List Nat} (h : l.Perm l') : wideSum b l = wideSum b l' := by
  unfold wideSum
  refine h.foldl_eq' (fun x _ y _ z => ?_) _
  simp only [Prod.mk.injEq]
  exact ⟨add_right_comm _ _ _, by rw [Nat.lor_assoc, Nat.lor_assoc, Nat.lor_comm (gridAddend b (decodeF fmt32 x)).2]⟩

/-- A page order does not change the output of a row: given the maximum, every sum of R307 is wide. -/
theorem exactSums_perm (b : Int) (f : List Nat × (List Nat → List Nat) → Nat) {p p' : List (List Nat × (List Nat → List Nat))}
    (h : p.Perm p') : wideSum b (p.map f) = wideSum b (p'.map f) := wideSum_perm b (h.map f)

end Sys2Proof.Machine
end

