-- ==== Sys2Proof/Laws/Maps.lean ====
section
/-! SUPPORT. Laws of the sparse tables and byte memories: a read after a write, and the canonical form that every write keeps. -/

namespace Sys2Proof.Machine

/-! ### Reads after writes -/

@[simp] theorem mget_mset_same {α : Type} (k : Nat) (v : α) : ∀ m : Map α, mget (mset m k v) k = some v
  | [] => by simp [mset, mget]
  | (i, w) :: r => by
    simp only [mset]
    split
    · simp [mget]
    · split
      · simp [mget]
      · have : ¬ i = k := by omega
        simp [mget, this, mget_mset_same k v r]

theorem mget_mset_other {α : Type} {j k : Nat} (v : α) (h : j ≠ k) : ∀ m : Map α, mget (mset m k v) j = mget m j
  | [] => by simp [mset, mget, Ne.symm h]
  | (i, w) :: r => by
    simp only [mset]
    split
    · simp [mget, Ne.symm h]
    · split
      · subst_vars; simp [mget, Ne.symm h]
      · simp only [mget, mget_mset_other v h r]

theorem mget_mset {α : Type} (j k : Nat) (v : α) (m : Map α) :
    mget (mset m k v) j = if j = k then some v else mget m j := by
  by_cases h : j = k
  · subst h; simp
  · simp [h, mget_mset_other v h m]

theorem mget_mdel_other {α : Type} {j k : Nat} (h : j ≠ k) : ∀ m : Map α, mget (mdel m k) j = mget m j
  | [] => rfl
  | (i, w) :: r => by
    simp only [mdel]
    split
    · subst_vars; simp [mget, Ne.symm h]
    · simp only [mget, mget_mdel_other h r]

theorem mabove_mono {α : Type} {j k : Nat} (h : j ≤ k) : ∀ {m : Map α}, mabove k m = true → mabove j m = true
  | [], _ => rfl
  | (i, v) :: r, hm => by
    simp only [mabove, Bool.and_eq_true, decide_eq_true_eq] at hm ⊢
    exact ⟨by omega, hm.2⟩

theorem mget_of_mabove {α : Type} {j k : Nat} (h : j ≤ k) : ∀ {m : Map α}, mabove k m = true → mget m j = none
  | [], _ => rfl
  | (i, v) :: r, hm => by
    simp only [mabove, Bool.and_eq_true, decide_eq_true_eq] at hm
    have : ¬ i = j := by omega
    simp only [mget, this, if_false]
    exact mget_of_mabove (by omega) hm.2

theorem mget_mdel_same {α : Type} (k : Nat) : ∀ {m : Map α}, mwf m = true → mget (mdel m k) k = none
  | [], _ => rfl
  | (i, w) :: r, hm => by
    simp only [mwf] at hm
    simp only [mdel]
    split
    · exact mget_of_mabove (by omega) hm
    · rename_i hne
      simp only [mget, hne, if_false]
      refine mget_mdel_same k ?_
      cases r with
      | nil => rfl
      | cons x r => simp only [mabove, Bool.and_eq_true] at hm; exact hm.2

/-! ### The canonical form of a table -/

theorem mwf_of_mabove {α : Type} {j : Nat} {m : Map α} (h : mabove j m = true) : mwf m = true := by
  cases m with
  | nil => rfl
  | cons x r => simp only [mabove, Bool.and_eq_true] at h; exact h.2

theorem mabove_mset {α : Type} {j k : Nat} {v : α} (hk : j < k) :
    ∀ {m : Map α}, mabove j m = true → mabove j (mset m k v) = true
  | [], _ => by simp [mset, mabove, hk]
  | (i, w) :: r, hm => by
    simp only [mabove, Bool.and_eq_true, decide_eq_true_eq] at hm
    simp only [mset]
    split
    · simp [mabove, hk, hm.2]; omega
    · split
      · subst_vars; simp [mabove, hk, hm.2]
      · simp only [mabove, Bool.and_eq_true, decide_eq_true_eq]
        exact ⟨hm.1, mabove_mset (by omega) hm.2⟩

theorem mwf_mset {α : Type} {k : Nat} {v : α} {m : Map α} (hm : mwf m = true) : mwf (mset m k v) = true := by
  cases m with
  | nil => simp [mset, mwf, mabove]
  | cons x r =>
    simp only [mwf] at hm
    simp only [mset]
    split
    · simp [mwf, mabove, hm]; omega
    · split
      · subst_vars; simpa [mwf] using hm
      · simp only [mwf]; exact mabove_mset (by omega) hm

theorem mabove_mdel {α : Type} {j k : Nat} : ∀ {m : Map α}, mabove j m = true → mabove j (mdel m k) = true
  | [], _ => rfl
  | (i, w) :: r, hm => by
    simp only [mabove, Bool.and_eq_true, decide_eq_true_eq] at hm
    simp only [mdel]
    split
    · exact mabove_mono (by omega) hm.2
    · simp only [mabove, Bool.and_eq_true, decide_eq_true_eq]
      exact ⟨hm.1, mabove_mdel hm.2⟩

theorem mwf_mdel {α : Type} {k : Nat} {m : Map α} (hm : mwf m = true) : mwf (mdel m k) = true := by
  cases m with
  | nil => rfl
  | cons x r =>
    simp only [mwf] at hm
    simp only [mdel]
    split
    · exact mwf_of_mabove hm
    · exact mabove_mdel hm

theorem mabove_filter {α : Type} (f : Nat × α → Bool) {j : Nat} :
    ∀ {m : Map α}, mabove j m = true → mabove j (m.filter f) = true
  | [], _ => rfl
  | (i, w) :: r, hm => by
    simp only [mabove, Bool.and_eq_true, decide_eq_true_eq] at hm
    have h := mabove_filter f (m := r) hm.2
    simp only [List.filter_cons]
    split
    · simp only [mabove, Bool.and_eq_true, decide_eq_true_eq]; exact ⟨hm.1, h⟩
    · exact mabove_mono (by omega) h

theorem mwf_filter {α : Type} (f : Nat × α → Bool) {m : Map α} (hm : mwf m = true) : mwf (m.filter f) = true := by
  cases m with
  | nil => rfl
  | cons x r =>
    simp only [mwf] at hm
    simp only [List.filter_cons]
    split
    · exact mabove_filter f hm
    · exact mwf_of_mabove (mabove_filter f hm)

theorem mem_mset {α : Type} {k : Nat} {v : α} {e : Nat × α} : ∀ {m : Map α}, e ∈ mset m k v → e = (k, v) ∨ e ∈ m
  | [], h => by simpa [mset] using h
  | (i, w) :: r, h => by
    simp only [mset] at h
    split at h
    · simpa using h
    · split at h
      · rcases List.mem_cons.1 h with h | h
        · exact .inl h
        · exact .inr (List.mem_cons_of_mem _ h)
      · rcases List.mem_cons.1 h with h | h
        · exact .inr (by simp [h])
        · rcases mem_mset h with h | h
          · exact .inl h
          · exact .inr (List.mem_cons_of_mem _ h)

theorem mem_mdel {α : Type} {k : Nat} {e : Nat × α} : ∀ {m : Map α}, e ∈ mdel m k → e ∈ m
  | [], h => h
  | (i, w) :: r, h => by
    simp only [mdel] at h
    split at h
    · exact List.mem_cons_of_mem _ h
    · rcases List.mem_cons.1 h with h | h
      · simp [h]
      · exact List.mem_cons_of_mem _ (mem_mdel h)

/-! ### Byte memories -/

theorem memory_wf_iff {m : Map Byte} : Memory.wf m = true ↔ mwf m = true ∧ ∀ e ∈ m, e.2 ≠ 0 := by
  simp [Memory.wf]

theorem Memory.wf_nil : Memory.wf [] = true := rfl

theorem Memory.wf_wrByte {m : Map Byte} (a : Nat) (b : Byte) (h : Memory.wf m = true) : Memory.wf (wrByte m a b) = true := by
  rw [memory_wf_iff] at *
  unfold wrByte
  split
  · exact ⟨mwf_mdel h.1, fun e he => h.2 e (mem_mdel he)⟩
  · rename_i hb
    refine ⟨mwf_mset h.1, fun e he => ?_⟩
    rcases mem_mset he with rfl | he
    · exact hb
    · exact h.2 e he

theorem Memory.wf_wrBytes : ∀ (bs : List Byte) {m : Map Byte} (a : Nat),
    Memory.wf m = true → Memory.wf (wrBytes m a bs) = true
  | [], _, _, h => h
  | b :: bs, _, a, h => Memory.wf_wrBytes bs (a + 1) (Memory.wf_wrByte a b h)

theorem Memory.wf_filter {m : Map Byte} (f : Nat × Byte → Bool) (h : Memory.wf m = true) :
    Memory.wf (m.filter f) = true := by
  rw [memory_wf_iff] at *
  exact ⟨mwf_filter f h.1, fun e he => h.2 e (List.mem_of_mem_filter he)⟩

theorem Memory.wf_overlay {m : Map Byte} (a n : Nat) (new : Map Byte) (h : Memory.wf m = true) :
    Memory.wf (overlay m a n new) = true := by
  unfold overlay
  generalize hm : m.filter _ = m'
  have h' : Memory.wf m' = true := hm ▸ Memory.wf_filter _ h
  clear hm
  induction new generalizing m' with
  | nil => exact h'
  | cons x r ih =>
    simp only [List.foldl_cons]
    apply ih
    split
    · exact Memory.wf_wrByte _ _ h'
    · exact h'

theorem rdByte_wrByte_same {m : Map Byte} (h : mwf m = true) (a : Nat) (b : Byte) : rdByte (wrByte m a b) a = b := by
  unfold rdByte wrByte
  split
  · rename_i hb; simp [mget_mdel_same a h, hb]
  · simp

theorem rdByte_wrByte_other (m : Map Byte) {x a : Nat} (b : Byte) (h : x ≠ a) : rdByte (wrByte m a b) x = rdByte m x := by
  unfold rdByte wrByte
  split
  · rw [mget_mdel_other h]
  · rw [mget_mset_other _ h]

theorem rdByte_wrBytes_outside : ∀ (bs : List Byte) (m : Map Byte) (x a : Nat),
    (x < a ∨ a + bs.length ≤ x) → rdByte (wrBytes m a bs) x = rdByte m x
  | [], _, _, _, _ => rfl
  | b :: bs, m, x, a, h => by
    simp only [List.length_cons] at h
    simp only [wrBytes]
    rw [rdByte_wrBytes_outside bs (wrByte m a b) x (a + 1) (by omega), rdByte_wrByte_other m b (by omega)]

theorem rdBytes_congr {m m' : Map Byte} : ∀ (n a : Nat),
    (∀ x, a ≤ x → x < a + n → rdByte m x = rdByte m' x) → rdBytes m a n = rdBytes m' a n
  | 0, _, _ => rfl
  | n + 1, a, h => by
    simp only [rdBytes, h a (by omega) (by omega)]
    rw [rdBytes_congr n (a + 1) fun x h1 h2 => h x (by omega) (by omega)]

theorem rdBytes_wrBytes_same : ∀ (bs : List Byte) {m : Map Byte} (a : Nat), Memory.wf m = true →
    rdBytes (wrBytes m a bs) a bs.length = bs
  | [], _, _, _ => rfl
  | b :: bs, m, a, h => by
    simp only [List.length_cons, rdBytes, wrBytes]
    rw [rdByte_wrBytes_outside bs (wrByte m a b) a (a + 1) (by omega),
      rdByte_wrByte_same (memory_wf_iff.1 h).1, rdBytes_wrBytes_same bs (a + 1) (Memory.wf_wrByte a b h)]

theorem rdBytes_wrBytes_outside (bs : List Byte) (m : Map Byte) (a x n : Nat)
    (h : x + n ≤ a ∨ a + bs.length ≤ x) : rdBytes (wrBytes m a bs) x n = rdBytes m x n :=
  rdBytes_congr n x fun y _ _ => rdByte_wrBytes_outside bs m y a (by omega)

@[simp] theorem rdBytes_length (m : Map Byte) : ∀ n a, (rdBytes m a n).length = n
  | 0, _ => rfl
  | n + 1, a => by simp [rdBytes, rdBytes_length m n (a + 1)]

@[simp] theorem leBytes_length : ∀ n x, (leBytes n x).length = n
  | 0, _ => rfl
  | n + 1, x => by simp [leBytes, leBytes_length n (x / 256)]

theorem leNat_leBytes : ∀ n x, leNat (leBytes n x) = x % 256 ^ n
  | 0, x => by simp [leBytes, leNat, Nat.mod_one]
  | n + 1, x => by
    simp only [leBytes, leNat, leNat_leBytes n]
    rw [Nat.pow_succ', Nat.mod_mul]
    simp

end Sys2Proof.Machine
end

