-- ==== Sys2Proof/Laws/Regs.lean ====
section
/-! SUPPORT. Laws of the registers: a register and a field read after a write, and the canonical form of the registers. -/

namespace Sys2Proof.Machine

theorem regsWf_nil : RegsWf [] := ⟨rfl, by simp⟩

theorem regsWf_setReg {s : State} (off : Nat) (w : Word) (h : RegsWf s.regs) : RegsWf (s.setReg off w).regs := by
  unfold State.setReg
  simp only
  split
  · exact ⟨mwf_mdel h.1, fun e he => h.2 e (mem_mdel he)⟩
  · rename_i hw
    refine ⟨mwf_mset h.1, fun e he => ?_⟩
    rcases mem_mset he with rfl | he
    · exact hw
    · exact h.2 e he

theorem regsWf_filter {m : Map Word} (f : Nat × Word → Bool) (h : RegsWf m) : RegsWf (m.filter f) :=
  ⟨mwf_filter f h.1, fun e he => h.2 e (List.mem_of_mem_filter he)⟩

theorem reg_setReg_same {s : State} (off : Nat) (w : Word) (h : RegsWf s.regs) : (s.setReg off w).reg off = w := by
  unfold State.setReg State.reg
  simp only
  split
  · rename_i hw; simp [mget_mdel_same off h.1, hw]
  · simp

theorem reg_setReg_other (s : State) {off o : Nat} (w : Word) (h : o ≠ off) : (s.setReg off w).reg o = s.reg o := by
  unfold State.setReg State.reg
  simp only
  split
  · rw [mget_mdel_other h]
  · rw [mget_mset_other _ h]

theorem bits_eq_iff {x y lo w lo' : Nat} : (∀ i, i < w → x.testBit (lo + i) = y.testBit (lo' + i)) → bits x lo w = bits y lo' w := by
  intro h
  apply Nat.eq_of_testBit_eq
  intro i
  unfold bits
  simp only [Nat.testBit_mod_two_pow, Nat.testBit_div_two_pow]
  by_cases hi : i < w
  · simp only [hi, decide_true, Bool.true_and]
    rw [Nat.add_comm i lo, Nat.add_comm i lo']
    exact h i hi
  · simp [hi]

theorem testBit_field (v lo w i : Nat) : (v % 2 ^ w * 2 ^ lo).testBit i = (decide (lo ≤ i ∧ i < lo + w) && v.testBit (i - lo)) := by
  rw [Nat.testBit_mul_two_pow]
  simp only [Nat.testBit_mod_two_pow]
  by_cases h : lo ≤ i
  · simp [h]; congr 2; simp; omega
  · simp [h]

theorem testBit_putField (x : Word) (lo w v : Nat) (h : lo + w ≤ 64) (i : Nat) :
    (putField x lo w v).toNat.testBit i = if lo ≤ i ∧ i < lo + w then v.testBit (i - lo) else x.toNat.testBit i := by
  rw [BitVec.testBit_toNat, BitVec.testBit_toNat]
  have hm : ∀ j, ((2 ^ w - 1) * 2 ^ lo).testBit j = decide (lo ≤ j ∧ j < lo + w) := by
    intro j
    rw [Nat.testBit_mul_two_pow, Nat.testBit_two_pow_sub_one]
    by_cases h : lo ≤ j
    · simp [h]; omega
    · simp [h]
  simp only [putField, BitVec.getLsbD_or, BitVec.getLsbD_and, BitVec.getLsbD_not, BitVec.getLsbD_ofNat, hm, testBit_field]
  by_cases hi : i < 64
  · by_cases hr : lo ≤ i ∧ i < lo + w
    · simp [hr, hi]
    · simp [hr, hi]
  · have : ¬ (lo ≤ i ∧ i < lo + w) := by omega
    simp [this, hi]
    rw [BitVec.getLsbD_of_ge]; omega

theorem bits_putField_same (x : Word) (lo w v : Nat) (h : lo + w ≤ 64) : bits (putField x lo w v).toNat lo w = v % 2 ^ w := by
  have : v % 2 ^ w = bits v 0 w := by simp [bits]
  rw [this]
  apply bits_eq_iff
  intro i hi
  rw [testBit_putField x lo w v h]
  simp [hi]

theorem bits_putField_other (x : Word) {lo w v lo' w' : Nat} (h : lo + w ≤ 64) (hd : lo + w ≤ lo' ∨ lo' + w' ≤ lo) :
    bits (putField x lo w v).toNat lo' w' = bits x.toNat lo' w' := by
  apply bits_eq_iff
  intro i hi
  rw [testBit_putField x lo w v h, if_neg (by omega)]

theorem fld_setFld_same {s : State} (f : Field) (v : Nat) (hw : f.lo + f.w ≤ 64) (h : RegsWf s.regs) :
    (s.setFld f v).fld f = v % 2 ^ f.w := by
  unfold State.setFld State.fld
  rw [reg_setReg_same _ _ h, bits_putField_same _ _ _ _ hw]

theorem fld_setFld_other (s : State) {f g : Field} (v : Nat) (h : g.off ≠ f.off) : (s.setFld f v).fld g = s.fld g := by
  unfold State.setFld State.fld
  rw [reg_setReg_other s _ h]

theorem fld_setFld_disjoint {s : State} {f g : Field} (v : Nat) (hw : f.lo + f.w ≤ 64) (h : RegsWf s.regs)
    (hd : f.lo + f.w ≤ g.lo ∨ g.lo + g.w ≤ f.lo) : (s.setFld f v).fld g = s.fld g := by
  by_cases ho : g.off = f.off
  · unfold State.setFld State.fld
    rw [ho, reg_setReg_same _ _ h, bits_putField_other _ hw hd]
  · exact fld_setFld_other s v ho

end Sys2Proof.Machine
end

