-- ==== Sys2Proof/Laws/Kept.lean ====
section
/-! SUPPORT. What every command keeps, and how a result keeps it: the lemmas the `Kept…` files go by. -/

namespace Sys2Proof.Machine

/-- What a command keeps: the queue of commands that wait, and the canonical form of the state. -/
structure Kept (wq : List Instr) (s : State) : Prop where
  pending : s.pending = wq
  canon : Canonical s

variable {wq : List Instr} {s : State}

theorem kept_upd {clk_ pins_ ses_ tier_ mkr_ gal_ cells_ waiters_ hbmBad_ hbmWeak_ tok_ banks_ crt_ vse_ fab_ flt_ sec_ isl_ freeCtr_} (h : Kept wq s) :
    Kept wq (State.mk s.pending s.regs clk_ pins_ s.host ses_ tier_ mkr_ gal_ cells_ waiters_ s.hbm hbmBad_ hbmWeak_ tok_ banks_ crt_ vse_ fab_ flt_ sec_ isl_ freeCtr_) := ⟨h.1, h.2.1, h.2.2, h.2.3⟩
theorem kept_updOverlay {a n : Nat} {m : Map Byte} {clk_ pins_ ses_ tier_ mkr_ gal_ cells_ waiters_ hbmBad_ hbmWeak_ tok_ banks_ crt_ vse_ fab_ flt_ sec_ isl_ freeCtr_} (h : Kept wq s) :
    Kept wq (State.mk s.pending s.regs clk_ pins_ s.host ses_ tier_ mkr_ gal_ cells_ waiters_ (overlay s.hbm a n m) hbmBad_ hbmWeak_ tok_ banks_ crt_ vse_ fab_ flt_ sec_ isl_ freeCtr_) := ⟨h.1, h.2.1, h.2.2, Memory.wf_overlay _ _ _ h.2.3⟩
theorem kept_updHost {host_ clk_ pins_ ses_ tier_ mkr_ gal_ cells_ waiters_ hbmBad_ hbmWeak_ tok_ banks_ crt_ vse_ fab_ flt_ sec_ isl_ freeCtr_} (h : Kept wq s) (hh : host_.mem = s.host.mem) :
    Kept wq (State.mk s.pending s.regs clk_ pins_ host_ ses_ tier_ mkr_ gal_ cells_ waiters_ s.hbm hbmBad_ hbmWeak_ tok_ banks_ crt_ vse_ fab_ flt_ sec_ isl_ freeCtr_) := ⟨h.1, h.2.1, by rw [← h.2.2]; exact congrArg Memory.wf hh, h.2.3⟩
theorem kept_ite {c : Prop} [Decidable c] {a b : State} (h1 : c → Kept wq a) (h2 : ¬ c → Kept wq b) : Kept wq (if c then a else b) := by
  split
  · exact h1 ‹_›
  · exact h2 ‹_›

theorem kept_foldl {α : Type} {f : State → α → State} (hf : ∀ t x, Kept wq t → Kept wq (f t x)) :
    ∀ (l : List α) {s : State}, Kept wq s → Kept wq (l.foldl f s)
  | [], _, h => h
  | x :: l, _, h => kept_foldl hf l (hf _ x h)


/-- `Kept` of the state in a result. -/
def Kept1 (wq : List Instr) {α : Type} (x : State × α) : Prop := Kept wq x.1
/-- `Kept` of the state in a result. -/
def Kept2 (wq : List Instr) {α : Type} (x : α × State) : Prop := Kept wq x.2
/-- `Kept` of the state in a result. -/
def Kept3 (wq : List Instr) {α β : Type} (x : α × β × State) : Prop := Kept wq x.2.2
/-- `Kept` of the state in a result. -/
def Kept4 (wq : List Instr) {α β γ : Type} (x : α × β × γ × State) : Prop := Kept wq x.2.2.2
/-- `Kept` of the state in a result. -/
def KeptOpt {α : Type} (P : α → Prop) (o : Option α) : Prop := ∀ x, o = some x → P x
/-- `Kept` of the state in a result. -/
def KeptEx {ε α : Type} (P : α → Prop) (o : Except ε α) : Prop := ∀ x, o = .ok x → P x
/-- `Kept` of the state in a result. -/
def KeptOut (wq : List Instr) (o : Host.Outcome State Fault Refusal) : Prop := ∀ x, o = .next x → Kept wq x
section
variable {α β γ ε : Type} {a : α} {b : β} {c : γ} {t : State}
theorem kept1_mk (h : Kept wq t) : Kept1 wq (t, a) := h
theorem kept2_mk (h : Kept wq t) : Kept2 wq (a, t) := h
theorem kept3_mk (h : Kept wq t) : Kept3 wq (a, b, t) := h
theorem kept4_mk (h : Kept wq t) : Kept4 wq (a, b, c, t) := h
theorem keptOpt_some {P : α → Prop} (h : P a) : KeptOpt P (some a) := by intro x hx; cases hx; exact h
theorem keptOpt_none {P : α → Prop} : KeptOpt P (none) := by intro x hx; cases hx
theorem keptOpt_map {P : β → Prop} {f : α → β} {o : Option α} (h : ∀ x, P (f x)) : KeptOpt P (o.map f) := by
  intro x hx; cases o with
  | none => cases hx
  | some y => cases hx; exact h y
theorem keptOpt_bind {P : α → Prop} {Q : β → Prop} {f : α → Option β} {o : Option α} (h1 : KeptOpt P o)
    (h : ∀ x, P x → KeptOpt Q (f x)) : KeptOpt Q (o >>= f) := by
  intro x hx; cases o with
  | none => cases hx
  | some y => exact h y (h1 _ rfl) x hx
theorem keptOpt_bindN {Q : β → Prop} {f : α → Option β} {o : Option α}
    (h : ∀ x, KeptOpt Q (f x)) : KeptOpt Q (o >>= f) := by
  intro x hx; cases o with
  | none => cases hx
  | some y => exact h y x hx
theorem keptOpt_bindO {Q : β → Prop} {f : α → Option β} {o : Option α}
    (h : ∀ x, KeptOpt Q (f x)) : KeptOpt Q (o.bind f) := by
  intro x hx; cases o with
  | none => cases hx
  | some y => exact h y x hx
theorem kept2_mksnd {β : Type} {x : β × State} (h : Kept2 wq x) : Kept2 wq (a, x.2) := h
theorem keptOpt_pure {P : α → Prop} (h : P a) : KeptOpt P (pure a) := by intro x hx; cases hx; exact h
theorem kept1_mkfst {β : Type} {x : State × β} (h : Kept1 wq x) : Kept1 wq (x.1, a) := h
theorem keptOpt_mapP {P : α → Prop} {Q : β → Prop} {f : α → β} {o : Option α} (h1 : KeptOpt P o) (h : ∀ x, P x → Q (f x)) : KeptOpt Q (o.map f) := by
  intro x hx; cases o with
  | none => cases hx
  | some y => cases hx; exact h y (h1 _ rfl)
theorem keptEx_ok {P : α → Prop} (h : P a) : KeptEx P (.ok a : Except ε α) := by intro x hx; cases hx; exact h
theorem keptEx_error {P : α → Prop} {e : ε} : KeptEx P (.error e : Except ε α) := by intro x hx; cases hx
theorem keptO_next (h : Kept wq t) : KeptOut wq (.next t) := by intro x hx; cases hx; exact h
theorem keptO_fault {r : Fault} : KeptOut wq (.fault r) := by intro x hx; cases hx
theorem kept1_ite {c : Prop} [Decidable c] {x y : State × α} (h1 : c → Kept1 wq x) (h2 : ¬ c → Kept1 wq y) : Kept1 wq (if c then x else y) := by
  split
  · exact h1 ‹_›
  · exact h2 ‹_›
theorem keptO_ite {c : Prop} [Decidable c] {x y} (h1 : c → KeptOut wq x) (h2 : ¬ c → KeptOut wq y) : KeptOut wq (if c then x else y) := by
  split
  · exact h1 ‹_›
  · exact h2 ‹_›
theorem kept1_fst {x : State × α} (h : Kept1 wq x) : Kept wq x.1 := h
theorem kept2_snd {x : α × State} (h : Kept2 wq x) : Kept wq x.2 := h
theorem kept3_snd {x : α × β × State} (h : Kept3 wq x) : Kept wq x.2.2 := h
theorem kept4_snd {x : α × β × γ × State} (h : Kept4 wq x) : Kept wq x.2.2.2 := h
theorem Kept1.elim {x : State × α} (h : Kept1 wq x) (e : x = (t, a)) : Kept wq t := by subst e; exact h
theorem Kept2.elim {x : α × State} (h : Kept2 wq x) (e : x = (a, t)) : Kept wq t := by subst e; exact h
theorem Kept3.elim {x : α × β × State} (h : Kept3 wq x) (e : x = (a, b, t)) : Kept wq t := by subst e; exact h
theorem Kept4.elim {x : α × β × γ × State} (h : Kept4 wq x) (e : x = (a, b, c, t)) : Kept wq t := by subst e; exact h
theorem KeptOpt.elim {x : Option State} (h : KeptOpt (Kept wq) x) (e : x = some t) : Kept wq t := h _ e
theorem KeptOpt.elim1 {x : Option (State × α)} (h : KeptOpt (Kept1 wq) x) (e : x = some (t, a)) : Kept wq t := h _ e
theorem KeptOpt.elim2 {x : Option (α × State)} (h : KeptOpt (Kept2 wq) x) (e : x = some (a, t)) : Kept wq t := h _ e
theorem KeptOpt.elim3 {x : Option (α × β × State)} (h : KeptOpt (Kept3 wq) x) (e : x = some (a, b, t)) : Kept wq t := h _ e
theorem KeptOpt.elim4 {x : Option (α × β × γ × State)} (h : KeptOpt (Kept4 wq) x) (e : x = some (a, b, c, t)) : Kept wq t := h _ e
theorem KeptEx.elim {x : Except ε State} (h : KeptEx (Kept wq) x) (e : x = .ok t) : Kept wq t := h _ e
theorem KeptOut.elim {x} (h : KeptOut wq x) (e : x = .next t) : Kept wq t := h _ e
theorem kept_getD {o : Option State} (h1 : KeptOpt (Kept wq) o) (h2 : Kept wq t) : Kept wq (o.getD t) := by
  cases o with
  | none => exact h2
  | some x => exact h1 _ rfl
theorem kept1_foldl {f : State × α → β → State × α} (hf : ∀ t x, Kept1 wq t → Kept1 wq (f t x)) :
    ∀ (l : List β) {s : State × α}, Kept1 wq s → Kept1 wq (l.foldl f s)
  | [], _, h => h
  | x :: l, _, h => kept1_foldl hf l (hf _ x h)
end

end Sys2Proof.Machine
end

