-- ==== Sys2Proof/Laws/KeptOps.lean ====
section
/-! SUPPORT. Each operation of the shared operations, pages, contracts and text keeps the queue and the canonical form. -/

namespace Sys2Proof.Machine

variable {wq : List Instr}

/-! ### Ops -/

theorem setReg_kept {s : State} {o : Nat} {w : Word} (h : Kept wq s) : Kept wq (s.setReg o w) :=
  ⟨h.1, regsWf_setReg o w h.2.1, h.2.2, h.2.3⟩

theorem setFld_kept (s : State) (f : Field) (v : Nat) (h0 : Kept wq s) :
    Kept wq (State.setFld s f v) := by
  unfold State.setFld
  repeat' first
    | with_reducible assumption | with_reducible apply setReg_kept

theorem incSat_kept (s : State) (f : Field) (n : Nat) (h0 : Kept wq s) :
    Kept wq (State.incSat s f n) := by
  unfold State.incSat
  repeat' first
    | with_reducible assumption | with_reducible apply setFld_kept

theorem incWrap_kept (s : State) (f : Field) (n : Nat) (h0 : Kept wq s) :
    Kept wq (State.incWrap s f n) := by
  unfold State.incWrap
  repeat' first
    | with_reducible assumption | with_reducible apply setFld_kept

theorem decFld_kept (s : State) (f : Field) (n : Nat) (h0 : Kept wq s) :
    Kept wq (State.decFld s f n) := by
  unfold State.decFld
  repeat' first
    | with_reducible assumption | with_reducible apply setFld_kept

theorem idleTick_kept (s : State) (h0 : Kept wq s) :
    Kept wq (idleTick s) := by
  unfold idleTick
  repeat' first
    | with_reducible assumption | with_reducible intro _ | with_reducible apply kept_ite
    | fail_if_no_progress with_reducible apply kept_upd | ((conv => arg 2; with_reducible whnf); split)

theorem draw_kept (s : State) (h0 : Kept wq s) :
    Kept2 wq (State.draw s) := by
  unfold State.draw
  repeat' first
    | with_reducible assumption | fail_if_no_progress with_reducible apply kept_upd
    | fail_if_no_progress with_reducible apply kept1_mkfst
    | (with_reducible apply kept1_mk; fail_if_success with_reducible apply kept1_fst)
    | fail_if_no_progress with_reducible apply kept2_mksnd
    | (with_reducible apply kept2_mk; fail_if_success with_reducible apply kept2_snd)
    | (with_reducible apply kept3_mk; fail_if_success with_reducible apply kept3_snd)
    | (with_reducible apply kept4_mk; fail_if_success with_reducible apply kept4_snd)

theorem leaveD1_kept (s : State) (h0 : Kept wq s) :
    Kept wq (leaveD1 s) := by
  unfold leaveD1
  repeat' first
    | with_reducible assumption | with_reducible intro _ | with_reducible apply setFld_kept | with_reducible apply kept_ite
    | fail_if_no_progress with_reducible apply kept_upd | ((conv => arg 2; with_reducible whnf); split)

theorem edge_kept (s : State) (n : Nat) (h0 : Kept wq s) :
    Kept wq (edge s n) := by
  unfold edge
  repeat' first
    | with_reducible assumption | with_reducible intro _ | with_reducible apply incSat_kept
    | with_reducible apply setFld_kept | with_reducible apply leaveD1_kept | with_reducible apply kept_ite
    | ((conv => arg 2; with_reducible whnf); split)

theorem capacityChange_kept (s : State) (h0 : Kept wq s) :
    Kept wq (capacityChange s) := by
  unfold capacityChange
  repeat' first
    | with_reducible assumption | with_reducible apply edge_kept | fail_if_no_progress with_reducible apply kept_upd

theorem fault_kept (s : State) (source : Nat) (kind : Nat) (status : Nat) (address : Word) (master : Nat) (access : Nat) (h0 : Kept wq s) :
    Kept wq (fault s source kind status address master access) := by
  unfold fault
  repeat' first
    | with_reducible assumption | with_reducible intro _ | with_reducible apply incSat_kept | with_reducible apply kept_ite
    | fail_if_no_progress with_reducible apply kept_upd | ((conv => arg 2; with_reducible whnf); split)

theorem hostWr_kept {s : State} {fn a : Nat} {bs : List Byte} (h : Kept wq s) : Kept wq (s.hostWr fn a bs) :=
  ⟨h.1, h.2.1, Memory.wf_wrBytes _ _ h.2.2, h.2.3⟩

theorem setQueue_kept (s : State) (c : Nat) (q : Nat) (x : Queue) (h0 : Kept wq s) :
    Kept wq (State.setQueue s c q x) := by
  unfold State.setQueue
  repeat' first
    | with_reducible assumption | fail_if_no_progress with_reducible apply kept_upd
    | fail_if_no_progress ((with_reducible apply kept_updHost); rotate_left; rfl)

theorem sealChunks_kept (c q operand nonce a : Nat) : ∀ (n k : Nat) (bs : List Byte) (s : State), Kept wq s →
    Kept wq (sealChunks s c q operand nonce a n k bs)
  | 0, _, _, _, h => h
  | n + 1, k, bs, s, h => sealChunks_kept c q operand nonce a n (k + 1) _ _ (hostWr_kept h)

theorem hostWrite_kept (s : State) (src : Src) (operand : Nat) (a : Nat) (bs : List Byte) (h0 : Kept wq s) :
    Kept wq (hostWrite s src operand a bs) := by
  unfold hostWrite
  repeat' first
    | with_reducible assumption | with_reducible intro _ | with_reducible apply hostWr_kept
    | with_reducible apply sealChunks_kept | with_reducible apply kept_ite | ((conv => arg 2; with_reducible whnf); split)

theorem hbmWrite_kept {s : State} {a : Nat} {bs : List Byte} (h : Kept wq s) : Kept wq (hbmWrite s a bs) :=
  ⟨h.1, h.2.1, h.2.2, Memory.wf_wrBytes _ _ h.2.3⟩

theorem setCell_kept (s : State) (n : Nat) (c : Cell) (h0 : Kept wq s) :
    Kept wq (State.setCell s n c) := by
  unfold State.setCell
  repeat' first
    | with_reducible assumption | fail_if_no_progress with_reducible apply kept_upd

theorem itemWrite_kept (s : State) (src : Src) (operand : Nat) (a : Word) (bs : List Byte) (h0 : Kept wq s) :
    KeptEx (Kept wq) (itemWrite s src operand a bs) := by
  unfold itemWrite
  repeat' first
    | with_reducible assumption | with_reducible intro _ | with_reducible apply setCell_kept
    | with_reducible apply hbmWrite_kept | with_reducible apply hostWrite_kept | with_reducible apply kept_ite
    | fail_if_no_progress with_reducible apply kept_upd
    | fail_if_no_progress ((with_reducible apply kept_updHost); rotate_left; rfl) | with_reducible apply keptEx_ok
    | with_reducible apply keptEx_error | ((conv => arg 2; with_reducible whnf); split)

theorem msix_kept (s : State) (fn : Nat) (v : Nat) (h0 : Kept wq s) :
    Kept wq (msix s fn v) := by
  unfold msix
  repeat' first
    | with_reducible assumption | fail_if_no_progress with_reducible apply kept_upd
    | fail_if_no_progress ((with_reducible apply kept_updHost); rotate_left; rfl)

theorem queueError_kept (s : State) (c : Nat) (q : Nat) (st : Nat) (h0 : Kept wq s) :
    Kept wq (queueError s c q st) := by
  unfold queueError
  repeat' first
    | with_reducible assumption | with_reducible apply setFld_kept | with_reducible apply setQueue_kept
    | fail_if_no_progress with_reducible apply kept_upd

theorem writeEntry_kept (s : State) (c : Nat) (q : Nat) (e : Completion) (h0 : Kept wq s) :
    Kept wq (writeEntry s c q e) := by
  unfold writeEntry
  repeat' first
    | with_reducible assumption | with_reducible intro _ | with_reducible apply hostWr_kept
    | with_reducible apply setFld_kept | with_reducible apply setQueue_kept | with_reducible apply msix_kept
    | with_reducible apply queueError_kept | with_reducible apply kept_ite
    | fail_if_no_progress with_reducible apply kept_upd
    | fail_if_no_progress ((with_reducible apply kept_updHost); rotate_left; rfl)
    | ((conv => arg 2; with_reducible whnf); split)

theorem post_kept (s : State) (c : Nat) (q : Nat) (e : Completion) (h0 : Kept wq s) :
    Kept wq (post s c q e) := by
  unfold post
  repeat' first
    | with_reducible assumption | with_reducible intro _ | with_reducible apply incSat_kept
    | with_reducible apply setQueue_kept | with_reducible apply notice_kept | with_reducible apply writeEntry_kept
    | with_reducible apply kept_ite | fail_if_no_progress with_reducible apply kept_upd
    | ((conv => arg 2; with_reducible whnf); split)

theorem drainList_kept (c q : Nat) : ∀ (es : List Completion) (s : State), Kept wq s → Kept wq (drainList c q es s)
  | [], _, h => h
  | e :: es, s, h => by
    unfold drainList
    split
    · exact drainList_kept c q es _ (setQueue_kept _ _ _ _ (writeEntry_kept _ _ _ _ h))
    · exact h

theorem drainBacklog_kept (s : State) (c : Nat) (q : Nat) (h0 : Kept wq s) :
    Kept wq (drainBacklog s c q) := by
  unfold drainBacklog
  repeat' first
    | with_reducible assumption | with_reducible apply drainList_kept

theorem complete_kept (s : State) (src : Src) (op : Nat) (status : Nat) (result : Word) (object : Word) (tag : Word) (h0 : Kept wq s) :
    Kept wq (complete s src op status result object tag) := by
  unfold complete
  repeat' first
    | with_reducible assumption | with_reducible intro _ | with_reducible apply setQueue_kept
    | with_reducible apply notice_kept | with_reducible apply post_kept | with_reducible apply kept_ite
    | fail_if_no_progress with_reducible apply kept_upd | ((conv => arg 2; with_reducible whnf); split)

theorem notice_kept (s : State) (c : Nat) (q : Nat) (reason : Nat) (status : Nat) (result : Word) (object : Word) (tag : Word) (h0 : Kept wq s) :
    Kept wq (notice s c q reason status result object tag) := by
  unfold notice
  repeat' first
    | with_reducible assumption | with_reducible apply post_kept

theorem completeFail_kept (s : State) (src : Src) (op : Nat) (status : Nat) (object : Word) (tag : Word) (h0 : Kept wq s) :
    Kept wq (completeFail s src op status object tag) := by
  unfold completeFail
  repeat' first
    | with_reducible assumption | with_reducible apply draw_kept | with_reducible apply complete_kept
    | fail_if_no_progress with_reducible apply kept1_mkfst
    | (with_reducible apply kept1_mk; fail_if_success with_reducible apply kept1_fst)
    | fail_if_no_progress with_reducible apply kept2_mksnd
    | (with_reducible apply kept2_mk; fail_if_success with_reducible apply kept2_snd)
    | (with_reducible apply kept3_mk; fail_if_success with_reducible apply kept3_snd)
    | (with_reducible apply kept4_mk; fail_if_success with_reducible apply kept4_snd) | with_reducible apply kept1_fst
    | with_reducible apply kept4_snd | with_reducible apply kept3_snd | with_reducible apply kept2_snd

theorem runItem_kept (s : State) (src : Src) (op : Nat) (body : State → State × Reply) (early : Bool)
    (hb : ∀ t, Kept wq t → Kept1 wq (body t)) (h : Kept wq s) : Kept wq (runItem s src op body early) := by
  have hs := hb s h
  unfold runItem
  split
  · exact completeFail_kept _ _ _ _ _ _ h
  · split
    · exact completeFail_kept _ _ _ _ _ _ h
    · split
      · rename_i e; rw [e] at hs; exact complete_kept _ _ _ _ _ _ _ hs
      · rename_i e; rw [e] at hs; exact completeFail_kept _ _ _ _ _ _ hs
      · rename_i e; rw [e] at hs; exact hs

/-! ### Pages -/

theorem allocFrame_kept (s : State) (c : Nat) (kind : Nat) (near : Nat) (owner : Nat) (h0 : Kept wq s) :
    KeptOpt (Kept2 wq) (allocFrame s c kind near owner) := by
  unfold allocFrame
  repeat' first
    | with_reducible assumption | with_reducible intro _ | with_reducible apply decFld_kept
    | with_reducible apply incWrap_kept | with_reducible apply kept_ite | with_reducible apply kept1_ite
    | fail_if_no_progress with_reducible apply kept_upd | fail_if_no_progress with_reducible apply kept1_mkfst
    | (with_reducible apply kept1_mk; fail_if_success with_reducible apply kept1_fst)
    | fail_if_no_progress with_reducible apply kept2_mksnd
    | (with_reducible apply kept2_mk; fail_if_success with_reducible apply kept2_snd)
    | (with_reducible apply kept3_mk; fail_if_success with_reducible apply kept3_snd)
    | (with_reducible apply kept4_mk; fail_if_success with_reducible apply kept4_snd) | with_reducible apply keptOpt_some
    | with_reducible apply keptOpt_none | with_reducible apply keptOpt_map | with_reducible apply keptOpt_pure
    | with_reducible apply keptOpt_bind | with_reducible apply keptOpt_bindO | ((conv => arg 2; with_reducible whnf); split)

theorem allocFrames_kept (c kind near owner : Nat) : ∀ (n : Nat) (s : State), Kept wq s →
    KeptOpt (Kept2 wq) (allocFrames c kind near owner n s)
  | 0, s, h => by intro x hx; cases hx; exact h
  | n + 1, s, h => by
    intro x hx
    unfold allocFrames at hx
    have h1 := allocFrame_kept s c kind near owner h
    split at hx
    · cases hx
    · rename_i f t e
      have ih := allocFrames_kept c kind near owner n t (h1 _ e)
      cases hr : allocFrames c kind near owner n t with
      | none => rw [hr] at hx; cases hx
      | some y => rw [hr] at hx; cases hx; exact ih y hr

theorem freeFrame_kept (s : State) (f : Nat) (h0 : Kept wq s) :
    Kept wq (freeFrame s f) := by
  unfold freeFrame
  repeat' first
    | with_reducible assumption | with_reducible intro _ | with_reducible apply decFld_kept | with_reducible apply kept_ite
    | fail_if_no_progress with_reducible apply kept_upd | ((conv => arg 2; with_reducible whnf); split)

theorem freeFrames_kept (s : State) (fs : List Nat) (h0 : Kept wq s) :
    Kept wq (freeFrames s fs) := by
  unfold freeFrames
  repeat' first
    | with_reducible assumption | with_reducible intro _ | with_reducible apply freeFrame_kept
    | with_reducible apply kept_foldl | with_reducible apply kept1_foldl

theorem holdFrame_kept (s : State) (f : Nat) (h0 : Kept wq s) :
    Kept wq (holdFrame s f) := by
  unfold holdFrame
  repeat' first
    | with_reducible assumption | fail_if_no_progress with_reducible apply kept_upd
    | ((conv => arg 2; with_reducible whnf); split)

theorem piedFrame_kept (s : State) (f : Nat) (h0 : Kept wq s) :
    Kept wq (piedFrame s f) := by
  unfold piedFrame
  repeat' first
    | with_reducible assumption | with_reducible intro _ | with_reducible apply incSat_kept | with_reducible apply kept_ite
    | fail_if_no_progress with_reducible apply kept_upd | ((conv => arg 2; with_reducible whnf); split)

theorem setFrameBytes_kept (s : State) (f : Nat) (m : Map Byte) (h : Kept wq s) : Kept wq (setFrameBytes s f m) :=
  ⟨h.1, h.2.1, h.2.2, Memory.wf_overlay _ _ _ h.2.3⟩

theorem copyFrame_kept (s : State) (src : Nat) (dst : Nat) (h0 : Kept wq s) :
    Kept wq (copyFrame s src dst) := by
  unfold copyFrame
  repeat' first
    | with_reducible assumption | with_reducible apply setFrameBytes_kept

/-! ### Contracts -/

theorem setLive_kept (s : State) (id : Nat) (l : Live) (h0 : Kept wq s) :
    Kept wq (setLive s id l) := by
  unfold setLive
  repeat' first
    | with_reducible assumption | fail_if_no_progress with_reducible apply kept_upd

theorem police_kept (s : State) (id : Nat) (len : Nat) (cap : Bool) (h0 : Kept wq s) :
    Kept2 wq (police s id len cap) := by
  unfold police
  repeat' first
    | with_reducible assumption | with_reducible apply incSat_kept | with_reducible apply setLive_kept
    | fail_if_no_progress with_reducible apply kept_upd | fail_if_no_progress with_reducible apply kept1_mkfst
    | (with_reducible apply kept1_mk; fail_if_success with_reducible apply kept1_fst)
    | fail_if_no_progress with_reducible apply kept2_mksnd
    | (with_reducible apply kept2_mk; fail_if_success with_reducible apply kept2_snd)
    | (with_reducible apply kept3_mk; fail_if_success with_reducible apply kept3_snd)
    | (with_reducible apply kept4_mk; fail_if_success with_reducible apply kept4_snd)
    | ((conv => arg 2; with_reducible whnf); split)

theorem policeDone_kept (s : State) (id : Option Nat) (h0 : Kept wq s) :
    Kept wq (policeDone s id) := by
  unfold policeDone
  repeat' first
    | with_reducible assumption | with_reducible intro _ | with_reducible apply setLive_kept | with_reducible apply kept_ite
    | fail_if_no_progress with_reducible apply kept_upd | ((conv => arg 2; with_reducible whnf); split)

theorem setBay_kept (s : State) (b : Nat) (x : Bay) (h0 : Kept wq s) :
    Kept wq (State.setBay s b x) := by
  unfold State.setBay
  repeat' first
    | with_reducible assumption | fail_if_no_progress with_reducible apply kept_upd

theorem wearFill_kept (s : State) (h0 : Kept wq s) :
    Kept wq (wearFill s) := by
  unfold wearFill
  repeat' first
    | with_reducible assumption | with_reducible intro _ | with_reducible apply setFld_kept
    | fail_if_no_progress with_reducible apply kept_upd | with_reducible apply kept_foldl | with_reducible apply kept1_foldl

theorem wearDebit_kept (s : State) (contract : Nat) (b : Nat) (bytes : Nat) (h0 : Kept wq s) :
    Kept wq (wearDebit s contract b bytes) := by
  unfold wearDebit
  repeat' first
    | with_reducible assumption | with_reducible intro _ | with_reducible apply setLive_kept
    | with_reducible apply wearFill_kept | fail_if_no_progress with_reducible apply kept_upd
    | ((conv => arg 2; with_reducible whnf); split)

/-! ### Text -/

theorem setSes_kept (s : State) (i : Nat) (e : Session) (h0 : Kept wq s) :
    Kept wq (State.setSes s i e) := by
  unfold State.setSes
  repeat' first
    | with_reducible assumption | fail_if_no_progress with_reducible apply kept_upd

theorem setText_kept (s : State) (i : Nat) (t : TextState) (h0 : Kept wq s) :
    Kept wq (State.setText s i t) := by
  unfold State.setText
  repeat' first
    | with_reducible assumption | fail_if_no_progress with_reducible apply kept_upd
    | ((conv => arg 2; with_reducible whnf); split)

theorem writeOut_kept (s : State) (c : Nat) (q : Nat) (r : OutRec) (h0 : Kept wq s) :
    Kept wq (writeOut s c q r) := by
  unfold writeOut
  repeat' first
    | with_reducible assumption | with_reducible intro _ | with_reducible apply hostWr_kept
    | with_reducible apply setQueue_kept | with_reducible apply setText_kept | with_reducible apply queueError_kept
    | with_reducible apply kept_ite | fail_if_no_progress with_reducible apply kept_upd
    | fail_if_no_progress ((with_reducible apply kept_updHost); rotate_left; rfl)
    | ((conv => arg 2; with_reducible whnf); split)

theorem postOut_kept (s : State) (c : Nat) (q : Nat) (r : OutRec) (h0 : Kept wq s) :
    Kept wq (postOut s c q r) := by
  unfold postOut
  repeat' first
    | with_reducible assumption | with_reducible intro _ | with_reducible apply setQueue_kept
    | with_reducible apply writeOut_kept | with_reducible apply kept_ite | fail_if_no_progress with_reducible apply kept_upd
    | ((conv => arg 2; with_reducible whnf); split)

theorem drainOutList_kept (c q : Nat) : ∀ (es : List OutRec) (s : State), Kept wq s → Kept wq (drainOutList c q es s)
  | [], _, h => h
  | e :: es, s, h => by
    unfold drainOutList
    split
    · exact drainOutList_kept c q es _ (setQueue_kept _ _ _ _ (writeOut_kept _ _ _ _ h))
    · exact h

theorem drainOut_kept (s : State) (c : Nat) (q : Nat) (h0 : Kept wq s) :
    Kept wq (drainOut s c q) := by
  unfold drainOut
  repeat' first
    | with_reducible assumption | with_reducible apply drainOutList_kept

theorem dropWaiting_kept (s : State) (i : Nat) (h0 : Kept wq s) :
    Kept wq (dropWaiting s i) := by
  unfold dropWaiting
  repeat' first
    | with_reducible assumption | with_reducible intro _ | fail_if_no_progress with_reducible apply kept_upd
    | fail_if_no_progress ((with_reducible apply kept_updHost); rotate_left; rfl)

theorem sendData_kept (s : State) (i : Nat) (e : Session) (kind : Nat) (data : List Byte) (h0 : Kept wq s) :
    Kept wq (sendData s i e kind data) := by
  unfold sendData
  repeat' first
    | with_reducible assumption | with_reducible intro _ | with_reducible apply postOut_kept
    | with_reducible apply kept_foldl | with_reducible apply kept1_foldl

theorem sendFinal_kept (s : State) (i : Nat) (e : Session) (reason : Nat) (stop : Nat) (h0 : Kept wq s) :
    Kept wq (sendFinal s i e reason stop) := by
  unfold sendFinal
  repeat' first
    | with_reducible assumption | with_reducible apply postOut_kept

theorem releaseBytes_kept (s : State) (i : Nat) (raw : List Byte) (h0 : Kept wq s) :
    Kept wq (releaseBytes s i raw) := by
  unfold releaseBytes
  repeat' first
    | with_reducible assumption | with_reducible intro _ | with_reducible apply incSat_kept
    | with_reducible apply setText_kept | with_reducible apply sendData_kept | with_reducible apply kept_ite
    | fail_if_no_progress with_reducible apply kept_upd | ((conv => arg 2; with_reducible whnf); split)

theorem flushText_kept (s : State) (i : Nat) (h0 : Kept wq s) :
    Kept wq (flushText s i) := by
  unfold flushText
  repeat' first
    | with_reducible assumption | with_reducible intro _ | with_reducible apply incSat_kept
    | with_reducible apply setText_kept | with_reducible apply releaseBytes_kept | with_reducible apply sendData_kept
    | with_reducible apply kept_ite | fail_if_no_progress with_reducible apply kept_upd
    | ((conv => arg 2; with_reducible whnf); split)

theorem sesNotice_kept (s : State) (i : Nat) (reason : Nat) (status : Nat) (result : Word) (h0 : Kept wq s) :
    Kept wq (sesNotice s i reason status result) := by
  unfold sesNotice
  repeat' first
    | with_reducible assumption | with_reducible intro _ | with_reducible apply setSes_kept
    | with_reducible apply notice_kept | with_reducible apply kept_ite | fail_if_no_progress with_reducible apply kept_upd
    | ((conv => arg 2; with_reducible whnf); split)

theorem sesNoticeFree_kept (s : State) (i : Nat) (reason : Nat) (status : Nat) (h0 : Kept wq s) :
    Kept wq (sesNoticeFree s i reason status) := by
  unfold sesNoticeFree
  repeat' first
    | with_reducible assumption | with_reducible apply draw_kept | with_reducible apply sesNotice_kept
    | fail_if_no_progress with_reducible apply kept1_mkfst
    | (with_reducible apply kept1_mk; fail_if_success with_reducible apply kept1_fst)
    | fail_if_no_progress with_reducible apply kept2_mksnd
    | (with_reducible apply kept2_mk; fail_if_success with_reducible apply kept2_snd)
    | (with_reducible apply kept3_mk; fail_if_success with_reducible apply kept3_snd)
    | (with_reducible apply kept4_mk; fail_if_success with_reducible apply kept4_snd) | with_reducible apply kept1_fst
    | with_reducible apply kept4_snd | with_reducible apply kept3_snd | with_reducible apply kept2_snd

end Sys2Proof.Machine
end

