-- ==== Sys2Proof/Laws/KeptSessions.lean ====
section
/-! SUPPORT. Each operation of tiers, sessions and their events keeps the queue and the canonical form. -/

namespace Sys2Proof.Machine

variable {wq : List Instr}

/-! ### Tiers -/

theorem ensureKey_kept (s : State) (c : Nat) (b : Nat) (h0 : Kept wq s) :
    Kept wq (ensureKey s c b) := by
  unfold ensureKey
  repeat' first
    | with_reducible assumption | with_reducible intro _ | with_reducible apply draw_kept | with_reducible apply setBay_kept
    | with_reducible apply kept_ite | with_reducible apply kept1_ite | fail_if_no_progress with_reducible apply kept_upd
    | fail_if_no_progress ((with_reducible apply kept_updHost); rotate_left; rfl)
    | fail_if_no_progress with_reducible apply kept1_mkfst
    | (with_reducible apply kept1_mk; fail_if_success with_reducible apply kept1_fst)
    | fail_if_no_progress with_reducible apply kept2_mksnd
    | (with_reducible apply kept2_mk; fail_if_success with_reducible apply kept2_snd)
    | (with_reducible apply kept3_mk; fail_if_success with_reducible apply kept3_snd)
    | (with_reducible apply kept4_mk; fail_if_success with_reducible apply kept4_snd) | with_reducible apply kept1_fst
    | with_reducible apply kept4_snd | with_reducible apply kept3_snd | with_reducible apply kept2_snd
    | ((conv => arg 2; with_reducible whnf); split) | (with_reducible refine Kept1.elim ?_ (by with_reducible assumption))
    | (with_reducible refine Kept2.elim ?_ (by with_reducible assumption))
    | (with_reducible refine Kept3.elim ?_ (by with_reducible assumption))
    | (with_reducible refine Kept4.elim ?_ (by with_reducible assumption))

theorem closePage_kept (s : State) (b : Nat) (h0 : Kept wq s) :
    Kept wq (closePage s b) := by
  unfold closePage
  repeat' first
    | with_reducible assumption | with_reducible intro _ | with_reducible apply setBay_kept | with_reducible apply kept_ite
    | fail_if_no_progress with_reducible apply kept_upd | ((conv => arg 2; with_reducible whnf); split)

theorem journalSubmit_kept (s : State) (b : Nat) (r : DirRec) (h : HeadPage) (h0 : Kept wq s) :
    Kept wq (journalSubmit s b r h) := by
  unfold journalSubmit
  repeat' first
    | with_reducible assumption | with_reducible intro _ | with_reducible apply setBay_kept
    | with_reducible apply closePage_kept | with_reducible apply kept_ite
    | fail_if_no_progress with_reducible apply kept_upd | ((conv => arg 2; with_reducible whnf); split)

theorem tombstone_kept (s : State) (i : Nat) (h0 : Kept wq s) :
    Kept wq (tombstone s i) := by
  unfold tombstone
  repeat' first
    | with_reducible assumption | with_reducible intro _ | with_reducible apply journalSubmit_kept
    | with_reducible apply kept_ite | fail_if_no_progress with_reducible apply kept_upd
    | ((conv => arg 2; with_reducible whnf); split)

theorem showBorrowed_kept (s : State) (h0 : Kept wq s) :
    Kept wq (showBorrowed s) := by
  unfold showBorrowed
  repeat' first
    | with_reducible assumption | with_reducible apply setFld_kept

theorem releaseSlot_kept (s : State) (e : Session) (h0 : Kept wq s) :
    Kept1 wq (releaseSlot s e) := by
  unfold releaseSlot
  repeat' first
    | with_reducible assumption | with_reducible intro _ | with_reducible apply decFld_kept | with_reducible apply kept_ite
    | with_reducible apply kept1_ite | fail_if_no_progress with_reducible apply kept_upd
    | fail_if_no_progress with_reducible apply kept1_mkfst
    | (with_reducible apply kept1_mk; fail_if_success with_reducible apply kept1_fst)
    | ((conv => arg 2; with_reducible whnf); split)

theorem voidBuilt_kept (s : State) (i : Nat) (h0 : Kept wq s) :
    Kept wq (voidBuilt s i) := by
  unfold voidBuilt
  repeat' first
    | with_reducible assumption | with_reducible intro _ | with_reducible apply kept_ite
    | fail_if_no_progress with_reducible apply kept_upd | ((conv => arg 2; with_reducible whnf); split)

theorem takeSlot_kept (s : State) (i : Nat) (e : Session) (sl : Nat) (prefill : Bool) (h0 : Kept wq s) :
    KeptOpt (Kept1 wq) (takeSlot s i e sl prefill) := by
  unfold takeSlot
  repeat' first
    | with_reducible assumption | with_reducible intro _ | with_reducible apply incWrap_kept | with_reducible apply kept_ite
    | with_reducible apply kept1_ite | fail_if_no_progress with_reducible apply kept_upd
    | fail_if_no_progress with_reducible apply kept1_mkfst
    | (with_reducible apply kept1_mk; fail_if_success with_reducible apply kept1_fst) | with_reducible apply keptOpt_some
    | with_reducible apply keptOpt_none | with_reducible apply keptOpt_map | with_reducible apply keptOpt_pure
    | with_reducible apply keptOpt_bind | with_reducible apply keptOpt_bindO | ((conv => arg 2; with_reducible whnf); split)

theorem policePark_kept (s : State) (e : Session) (t : Tier) (D : Nat) (h0 : Kept wq s) :
    Kept3 wq (policePark s e t D) := by
  unfold policePark
  repeat' first
    | with_reducible assumption | with_reducible intro _ | with_reducible apply police_kept | with_reducible apply kept_ite
    | with_reducible apply kept1_ite | fail_if_no_progress with_reducible apply kept1_mkfst
    | (with_reducible apply kept1_mk; fail_if_success with_reducible apply kept1_fst)
    | fail_if_no_progress with_reducible apply kept2_mksnd
    | (with_reducible apply kept2_mk; fail_if_success with_reducible apply kept2_snd)
    | (with_reducible apply kept3_mk; fail_if_success with_reducible apply kept3_snd)
    | (with_reducible apply kept4_mk; fail_if_success with_reducible apply kept4_snd) | with_reducible apply keptOpt_some
    | with_reducible apply keptOpt_none | with_reducible apply keptOpt_map | with_reducible apply keptOpt_pure
    | with_reducible apply keptOpt_bind | with_reducible apply keptOpt_bindO | with_reducible apply kept1_fst
    | with_reducible apply kept4_snd | with_reducible apply kept3_snd | with_reducible apply kept2_snd
    | ((conv => arg 2; with_reducible whnf); split) | (with_reducible refine Kept1.elim ?_ (by with_reducible assumption))
    | (with_reducible refine Kept2.elim ?_ (by with_reducible assumption))
    | (with_reducible refine Kept3.elim ?_ (by with_reducible assumption))
    | (with_reducible refine Kept4.elim ?_ (by with_reducible assumption))

theorem startPark_kept (s : State) (i : Nat) (c : Choice) (copyOnly : Bool) (h0 : Kept wq s) :
    Kept wq (startPark s i c copyOnly) := by
  unfold startPark
  repeat' first
    | with_reducible assumption | with_reducible intro _ | with_reducible apply setSes_kept
    | with_reducible apply policePark_kept | with_reducible apply kept_ite | with_reducible apply kept1_ite
    | fail_if_no_progress with_reducible apply kept_upd | fail_if_no_progress with_reducible apply kept1_mkfst
    | (with_reducible apply kept1_mk; fail_if_success with_reducible apply kept1_fst)
    | fail_if_no_progress with_reducible apply kept2_mksnd
    | (with_reducible apply kept2_mk; fail_if_success with_reducible apply kept2_snd)
    | (with_reducible apply kept3_mk; fail_if_success with_reducible apply kept3_snd)
    | (with_reducible apply kept4_mk; fail_if_success with_reducible apply kept4_snd) | with_reducible apply kept1_fst
    | with_reducible apply kept4_snd | with_reducible apply kept3_snd | with_reducible apply kept2_snd
    | ((conv => arg 2; with_reducible whnf); split) | (with_reducible refine Kept1.elim ?_ (by with_reducible assumption))
    | (with_reducible refine Kept2.elim ?_ (by with_reducible assumption))
    | (with_reducible refine Kept3.elim ?_ (by with_reducible assumption))
    | (with_reducible refine Kept4.elim ?_ (by with_reducible assumption))
    | (with_reducible refine KeptOpt.elim ?_ (by with_reducible assumption))
    | (with_reducible refine KeptOpt.elim1 ?_ (by with_reducible assumption))
    | (with_reducible refine KeptOpt.elim2 ?_ (by with_reducible assumption))
    | (with_reducible refine KeptOpt.elim3 ?_ (by with_reducible assumption))
    | (with_reducible refine KeptOpt.elim4 ?_ (by with_reducible assumption))

theorem send_kept (s : State) (m : Sent) (h0 : Kept wq s) :
    Kept wq (send s m) := by
  unfold send
  repeat' first
    | with_reducible assumption | with_reducible intro _ | with_reducible apply kept_ite
    | fail_if_no_progress with_reducible apply kept_upd | ((conv => arg 2; with_reducible whnf); split)

theorem releaseP2_kept (s : State) (i : Nat) (e : Session) (h0 : Kept wq s) :
    Kept wq (releaseP2 s i e) := by
  unfold releaseP2
  repeat' first
    | with_reducible assumption | with_reducible intro _ | with_reducible apply send_kept | with_reducible apply kept_ite
    | ((conv => arg 2; with_reducible whnf); split)

theorem notBehind_kept (s : State) (e : Session) (h0 : Kept wq s) :
    Kept wq (notBehind s e) := by
  unfold notBehind
  repeat' first
    | with_reducible assumption | with_reducible intro _ | with_reducible apply decFld_kept | with_reducible apply kept_ite
    | ((conv => arg 2; with_reducible whnf); split)

theorem countBehind_kept (s : State) (i : Nat) (e : Session) (h0 : Kept wq s) :
    Kept wq (countBehind s i e) := by
  unfold countBehind
  repeat' first
    | with_reducible assumption | with_reducible intro _ | with_reducible apply incSat_kept
    | with_reducible apply setSes_kept | with_reducible apply kept_ite | fail_if_no_progress with_reducible apply kept_upd
    | ((conv => arg 2; with_reducible whnf); split)

theorem commitP3_kept (s : State) (i : Nat) (e : Session) (op : ParkOp) (h0 : Kept wq s) :
    Kept wq (commitP3 s i e op) := by
  unfold commitP3
  repeat' first
    | with_reducible assumption | with_reducible intro _ | with_reducible apply decFld_kept
    | with_reducible apply incWrap_kept | with_reducible apply setSes_kept | with_reducible apply freeFrames_kept
    | with_reducible apply journalSubmit_kept | with_reducible apply notBehind_kept | with_reducible apply policeDone_kept
    | with_reducible apply releaseP2_kept | with_reducible apply showBorrowed_kept | with_reducible apply wearDebit_kept
    | with_reducible apply kept_ite | fail_if_no_progress with_reducible apply kept_upd
    | ((conv => arg 2; with_reducible whnf); split)

theorem commitP2_kept (s : State) (i : Nat) (e : Session) (op : ParkOp) (h0 : Kept wq s) :
    Kept wq (commitP2 s i e op) := by
  unfold commitP2
  repeat' first
    | with_reducible assumption | with_reducible apply draw_kept | with_reducible apply setSes_kept
    | with_reducible apply freeFrames_kept | with_reducible apply policeDone_kept | with_reducible apply releaseP2_kept
    | with_reducible apply showBorrowed_kept | fail_if_no_progress with_reducible apply kept_upd
    | fail_if_no_progress with_reducible apply kept1_mkfst
    | (with_reducible apply kept1_mk; fail_if_success with_reducible apply kept1_fst)
    | fail_if_no_progress with_reducible apply kept2_mksnd
    | (with_reducible apply kept2_mk; fail_if_success with_reducible apply kept2_snd)
    | (with_reducible apply kept3_mk; fail_if_success with_reducible apply kept3_snd)
    | (with_reducible apply kept4_mk; fail_if_success with_reducible apply kept4_snd) | with_reducible apply kept1_fst
    | with_reducible apply kept4_snd | with_reducible apply kept3_snd | with_reducible apply kept2_snd

theorem abortPark_kept (s : State) (i : Nat) (h0 : Kept wq s) :
    Kept wq (abortPark s i) := by
  unfold abortPark
  repeat' first
    | with_reducible assumption | with_reducible intro _ | with_reducible apply setSes_kept
    | with_reducible apply commitP3_kept | with_reducible apply policeDone_kept | with_reducible apply releaseP2_kept
    | with_reducible apply send_kept | with_reducible apply kept_ite | fail_if_no_progress with_reducible apply kept_upd
    | ((conv => arg 2; with_reducible whnf); split)

theorem startRevival_kept (s : State) (i : Nat) (notify : Bool) (h0 : Kept wq s) :
    Kept1 wq (startRevival s i notify) := by
  unfold startRevival
  repeat' first
    | with_reducible assumption | with_reducible intro _ | with_reducible apply setSes_kept
    | with_reducible apply allocFrames_kept | with_reducible apply freeFrames_kept | with_reducible apply police_kept
    | with_reducible apply sesNoticeFree_kept | with_reducible apply kept_ite | with_reducible apply kept1_ite
    | fail_if_no_progress with_reducible apply kept_upd | fail_if_no_progress with_reducible apply kept1_mkfst
    | (with_reducible apply kept1_mk; fail_if_success with_reducible apply kept1_fst)
    | fail_if_no_progress with_reducible apply kept2_mksnd
    | (with_reducible apply kept2_mk; fail_if_success with_reducible apply kept2_snd)
    | (with_reducible apply kept3_mk; fail_if_success with_reducible apply kept3_snd)
    | (with_reducible apply kept4_mk; fail_if_success with_reducible apply kept4_snd) | with_reducible apply kept1_fst
    | with_reducible apply kept4_snd | with_reducible apply kept3_snd | with_reducible apply kept2_snd
    | ((conv => arg 2; with_reducible whnf); split) | (with_reducible refine Kept1.elim ?_ (by with_reducible assumption))
    | (with_reducible refine Kept2.elim ?_ (by with_reducible assumption))
    | (with_reducible refine Kept3.elim ?_ (by with_reducible assumption))
    | (with_reducible refine Kept4.elim ?_ (by with_reducible assumption))
    | (with_reducible refine KeptOpt.elim ?_ (by with_reducible assumption))
    | (with_reducible refine KeptOpt.elim1 ?_ (by with_reducible assumption))
    | (with_reducible refine KeptOpt.elim2 ?_ (by with_reducible assumption))
    | (with_reducible refine KeptOpt.elim3 ?_ (by with_reducible assumption))
    | (with_reducible refine KeptOpt.elim4 ?_ (by with_reducible assumption))

theorem abortRevival_kept (s : State) (i : Nat) (h0 : Kept wq s) :
    Kept wq (abortRevival s i) := by
  unfold abortRevival
  repeat' first
    | with_reducible assumption | with_reducible apply setSes_kept | with_reducible apply freeFrames_kept
    | with_reducible apply policeDone_kept | fail_if_no_progress with_reducible apply kept_upd
    | ((conv => arg 2; with_reducible whnf); split)

theorem applyChoice_kept (s : State) (i : Nat) (c : Choice) (h0 : Kept wq s) :
    Kept wq (applyChoice s i c) := by
  unfold applyChoice
  repeat' first
    | with_reducible assumption | with_reducible intro _ | with_reducible apply setSes_kept
    | with_reducible apply abortPark_kept | with_reducible apply startPark_kept | with_reducible apply startRevival_kept
    | with_reducible apply kept_ite | with_reducible apply kept1_ite | fail_if_no_progress with_reducible apply kept_upd
    | fail_if_no_progress with_reducible apply kept1_mkfst
    | (with_reducible apply kept1_mk; fail_if_success with_reducible apply kept1_fst) | with_reducible apply kept1_fst
    | ((conv => arg 2; with_reducible whnf); split) | (with_reducible refine Kept1.elim ?_ (by with_reducible assumption))

theorem applyHorizon_kept (s : State) (i : Nat) (hint : Nat) (h0 : Kept wq s) :
    Kept wq (applyHorizon s i hint) := by
  unfold applyHorizon
  repeat' first
    | with_reducible assumption | with_reducible apply setSes_kept | with_reducible apply applyChoice_kept
    | fail_if_no_progress with_reducible apply kept_upd | ((conv => arg 2; with_reducible whnf); split)

theorem toWaiting_kept (s : State) (i : Nat) (reason : Nat) (status : Nat) (h0 : Kept wq s) :
    Kept wq (toWaiting s i reason status) := by
  unfold toWaiting
  repeat' first
    | with_reducible assumption | with_reducible intro _ | with_reducible apply setSes_kept
    | with_reducible apply applyHorizon_kept | with_reducible apply releaseSlot_kept
    | with_reducible apply sesNoticeFree_kept | with_reducible apply kept_ite | with_reducible apply kept1_ite
    | fail_if_no_progress with_reducible apply kept_upd | fail_if_no_progress with_reducible apply kept1_mkfst
    | (with_reducible apply kept1_mk; fail_if_success with_reducible apply kept1_fst) | with_reducible apply kept1_fst
    | ((conv => arg 2; with_reducible whnf); split) | (with_reducible refine Kept1.elim ?_ (by with_reducible assumption))

theorem prefillDone_kept (s : State) (i : Nat) (h0 : Kept wq s) :
    Kept wq (prefillDone s i) := by
  unfold prefillDone
  repeat' first
    | with_reducible assumption | with_reducible intro _ | with_reducible apply setSes_kept
    | with_reducible apply toWaiting_kept | with_reducible apply kept_ite
    | fail_if_no_progress with_reducible apply kept_upd | ((conv => arg 2; with_reducible whnf); split)

theorem bindSlots_kept (s : State) (e : Session) (h0 : Kept wq s) :
    Kept wq (bindSlots s e) := by
  unfold bindSlots
  repeat' first
    | with_reducible assumption | with_reducible apply incWrap_kept | fail_if_no_progress with_reducible apply kept_upd
    | ((conv => arg 2; with_reducible whnf); split)

theorem unbindSlots_kept (s : State) (e : Session) (h0 : Kept wq s) :
    Kept wq (unbindSlots s e) := by
  unfold unbindSlots
  repeat' first
    | with_reducible assumption | with_reducible intro _ | with_reducible apply decFld_kept | with_reducible apply kept_ite
    | fail_if_no_progress with_reducible apply kept_upd | ((conv => arg 2; with_reducible whnf); split)

theorem startRun_kept (s : State) (i : Nat) (genLimit : Nat) (h0 : Kept wq s) :
    Kept1 wq (startRun s i genLimit) := by
  unfold startRun
  repeat' first
    | with_reducible assumption | with_reducible intro _ | with_reducible apply setSes_kept
    | with_reducible apply bindSlots_kept | with_reducible apply prefillDone_kept | with_reducible apply takeSlot_kept
    | with_reducible apply kept_ite | with_reducible apply kept1_ite | fail_if_no_progress with_reducible apply kept_upd
    | fail_if_no_progress with_reducible apply kept1_mkfst
    | (with_reducible apply kept1_mk; fail_if_success with_reducible apply kept1_fst) | with_reducible apply keptOpt_some
    | with_reducible apply keptOpt_none | with_reducible apply keptOpt_map | with_reducible apply keptOpt_pure
    | with_reducible apply keptOpt_bind | with_reducible apply keptOpt_bindO | with_reducible apply keptOpt_bindO
    | with_reducible apply kept1_fst | ((conv => arg 2; with_reducible whnf); split)
    | (with_reducible refine Kept1.elim ?_ (by with_reducible assumption))
    | (with_reducible refine KeptOpt.elim ?_ (by with_reducible assumption))
    | (with_reducible refine KeptOpt.elim1 ?_ (by with_reducible assumption))
    | (with_reducible refine KeptOpt.elim2 ?_ (by with_reducible assumption))
    | (with_reducible refine KeptOpt.elim3 ?_ (by with_reducible assumption))
    | (with_reducible refine KeptOpt.elim4 ?_ (by with_reducible assumption))

theorem sesEvent_kept (s : State) (i : Nat) (notify : Bool) (h0 : Kept wq s) :
    Kept1 wq (sesEvent s i notify) := by
  unfold sesEvent
  repeat' first
    | with_reducible assumption | with_reducible intro _ | with_reducible apply setSes_kept
    | with_reducible apply abortPark_kept | with_reducible apply startRevival_kept | with_reducible apply kept_ite
    | with_reducible apply kept1_ite | fail_if_no_progress with_reducible apply kept_upd
    | fail_if_no_progress with_reducible apply kept1_mkfst
    | (with_reducible apply kept1_mk; fail_if_success with_reducible apply kept1_fst) | with_reducible apply kept1_fst
    | ((conv => arg 2; with_reducible whnf); split) | (with_reducible refine Kept1.elim ?_ (by with_reducible assumption))

theorem runSession_kept (s : State) (i : Nat) (genLimit : Nat) (h0 : Kept wq s) :
    Kept1 wq (runSession s i genLimit) := by
  unfold runSession
  repeat' first
    | with_reducible assumption | with_reducible intro _ | with_reducible apply setSes_kept
    | with_reducible apply sesEvent_kept | with_reducible apply startRun_kept | with_reducible apply kept_ite
    | with_reducible apply kept1_ite | fail_if_no_progress with_reducible apply kept_upd
    | fail_if_no_progress with_reducible apply kept1_mkfst
    | (with_reducible apply kept1_mk; fail_if_success with_reducible apply kept1_fst) | with_reducible apply kept1_fst
    | ((conv => arg 2; with_reducible whnf); split) | (with_reducible refine Kept1.elim ?_ (by with_reducible assumption))

theorem releaseState_kept (s : State) (i : Nat) (st : SesState) (h0 : Kept wq s) :
    Kept wq (releaseState s i st) := by
  unfold releaseState
  repeat' first
    | with_reducible assumption | with_reducible intro _ | with_reducible apply setSes_kept
    | with_reducible apply abortRevival_kept | with_reducible apply freeFrames_kept | with_reducible apply notBehind_kept
    | with_reducible apply policeDone_kept | with_reducible apply releaseP2_kept | with_reducible apply releaseSlot_kept
    | with_reducible apply send_kept | with_reducible apply showBorrowed_kept | with_reducible apply unbindSlots_kept
    | with_reducible apply kept_ite | with_reducible apply kept1_ite | fail_if_no_progress with_reducible apply kept_upd
    | fail_if_no_progress with_reducible apply kept1_mkfst
    | (with_reducible apply kept1_mk; fail_if_success with_reducible apply kept1_fst) | with_reducible apply kept1_fst
    | ((conv => arg 2; with_reducible whnf); split) | (with_reducible refine Kept1.elim ?_ (by with_reducible assumption))

theorem faultSession_kept (s : State) (i : Nat) (status : Nat) (h0 : Kept wq s) :
    Kept wq (faultSession s i status) := by
  unfold faultSession
  repeat' first
    | with_reducible assumption | with_reducible intro _ | with_reducible apply releaseState_kept
    | with_reducible apply sesNoticeFree_kept | with_reducible apply voidBuilt_kept | with_reducible apply kept_ite
    | ((conv => arg 2; with_reducible whnf); split)

theorem restoreCopy_kept (s : State) (i : Nat) (c : Copy) (h0 : Kept wq s) :
    Kept wq (restoreCopy s i c) := by
  unfold restoreCopy
  repeat' first
    | with_reducible assumption | with_reducible intro _ | with_reducible apply setSes_kept
    | with_reducible apply abortRevival_kept | with_reducible apply freeFrames_kept | with_reducible apply showBorrowed_kept
    | fail_if_no_progress with_reducible apply kept_upd | ((conv => arg 2; with_reducible whnf); split)

theorem lostP2_kept (s : State) (i : Nat) (h0 : Kept wq s) :
    Kept wq (lostP2 s i) := by
  unfold lostP2
  repeat' first
    | with_reducible assumption | with_reducible intro _ | with_reducible apply faultSession_kept
    | with_reducible apply restoreCopy_kept | with_reducible apply sesNotice_kept | with_reducible apply kept_ite
    | ((conv => arg 2; with_reducible whnf); split)

theorem finishCancel_kept (s : State) (i : Nat) (status : Nat) (h0 : Kept wq s) :
    Kept wq (finishCancel s i status) := by
  unfold finishCancel
  repeat' first
    | with_reducible assumption | with_reducible apply setSes_kept | with_reducible apply complete_kept
    | with_reducible apply releaseState_kept | with_reducible apply tombstone_kept
    | fail_if_no_progress with_reducible apply kept_upd | ((conv => arg 2; with_reducible whnf); split)

theorem finishEnd_kept (s : State) (i : Nat) (src : Src) (h0 : Kept wq s) :
    Kept wq (finishEnd s i src) := by
  unfold finishEnd
  repeat' first
    | with_reducible assumption | with_reducible apply setSes_kept | with_reducible apply complete_kept
    | with_reducible apply flushText_kept | with_reducible apply releaseState_kept | with_reducible apply sendFinal_kept
    | with_reducible apply tombstone_kept | with_reducible apply voidBuilt_kept
    | fail_if_no_progress with_reducible apply kept_upd | ((conv => arg 2; with_reducible whnf); split)

/-! ### Sessions -/

theorem checkEntry_kept (s : State) (i : Nat) (e : Session) (h0 : Kept wq s) :
    Kept1 wq (checkEntry s i e) := by
  unfold checkEntry
  repeat' first
    | with_reducible assumption | with_reducible intro _ | with_reducible apply fault_kept
    | with_reducible apply releaseState_kept | with_reducible apply voidBuilt_kept | with_reducible apply kept_ite
    | with_reducible apply kept1_ite | fail_if_no_progress with_reducible apply kept_upd
    | fail_if_no_progress with_reducible apply kept1_mkfst
    | (with_reducible apply kept1_mk; fail_if_success with_reducible apply kept1_fst) | with_reducible apply keptOpt_some
    | with_reducible apply keptOpt_none | with_reducible apply keptOpt_map | with_reducible apply keptOpt_pure
    | with_reducible apply keptOpt_bind | with_reducible apply keptOpt_bindO | ((conv => arg 2; with_reducible whnf); split)

theorem stampStatus_kept (s : State) (i : Nat) (st : Nat) (h0 : Kept wq s) :
    Kept wq (stampStatus s i st) := by
  unfold stampStatus
  repeat' first
    | with_reducible assumption | with_reducible apply setSes_kept | fail_if_no_progress with_reducible apply kept_upd
    | ((conv => arg 2; with_reducible whnf); split)

theorem sesReply_kept (i : Nat) (h tag : Word) (stamp : Bool) (r : State × Reply) (h0 : Kept1 wq r) :
    Kept1 wq (sesReply i h tag stamp r) := by
  have aux : ∀ (s : State) st, Kept wq s → Kept wq (if stamp then stampStatus s i st else s) := by
    intro s st hs; split
    · exact stampStatus_kept _ _ _ hs
    · exact hs
  unfold sesReply
  split
  · exact aux _ _ h0
  · exact aux _ _ h0
  · exact h0

theorem sesBody_kept (src : Src) (h : Word) (moved ended faulted stamp : Bool) (body : Nat → Session → State → State × Reply)
    (s : State) (hb : ∀ i e t, Kept wq t → Kept1 wq (body i e t)) (h0 : Kept wq s) :
    Kept1 wq (sesBody src h moved ended faulted stamp body s) := by
  unfold sesBody
  dsimp only
  split
  · exact h0
  · split
    · exact setFld_kept _ _ _ h0
    · split
      · exact setFld_kept _ _ _ h0
      · have hc := fun i e => checkEntry_kept s i e h0
        split
        · rename_i e; exact (hc _ _).elim e
        · rename_i e
          have h1 := (hc _ _).elim e
          split
          · exact h1
          · split
            · exact sesReply_kept _ _ _ _ _ h1
            · split
              · exact sesReply_kept _ _ _ _ _ h1
              · exact sesReply_kept _ _ _ _ _ (hb _ _ _ h1)

theorem sesItem_kept (s : State) (src : Src) (op : Nat) (h : Word) (body : Nat → Session → State → State × Reply)
    (moved ended faulted stamp : Bool) (hb : ∀ i e t, Kept wq t → Kept1 wq (body i e t)) (h0 : Kept wq s) :
    Kept wq (sesItem s src op h body moved ended faulted stamp) :=
  runItem_kept _ _ _ _ _ (fun t ht => sesBody_kept _ _ _ _ _ _ _ t hb ht) h0

theorem takeIndex_kept (s : State) (h0 : Kept wq s) :
    KeptOpt (Kept3 wq) (takeIndex s) := by
  unfold takeIndex
  repeat' first
    | with_reducible assumption | with_reducible intro _ | with_reducible apply kept_ite | with_reducible apply kept1_ite
    | fail_if_no_progress with_reducible apply kept_upd | fail_if_no_progress with_reducible apply kept1_mkfst
    | (with_reducible apply kept1_mk; fail_if_success with_reducible apply kept1_fst)
    | fail_if_no_progress with_reducible apply kept2_mksnd
    | (with_reducible apply kept2_mk; fail_if_success with_reducible apply kept2_snd)
    | (with_reducible apply kept3_mk; fail_if_success with_reducible apply kept3_snd)
    | (with_reducible apply kept4_mk; fail_if_success with_reducible apply kept4_snd) | with_reducible apply keptOpt_some
    | with_reducible apply keptOpt_none | with_reducible apply keptOpt_map | with_reducible apply keptOpt_pure
    | with_reducible apply keptOpt_bind | with_reducible apply keptOpt_bindO | ((conv => arg 2; with_reducible whnf); split)

theorem newPages_kept (s : State) (c : Nat) (i : Nat) (half : Nat) (recur : Bool) (h0 : Kept wq s) :
    KeptOpt (Kept4 wq) (newPages s c i half recur) := by
  unfold newPages
  repeat' first
    | with_reducible assumption | with_reducible intro _ | with_reducible apply allocFrames_kept
    | with_reducible apply kept_ite | with_reducible apply kept1_ite | fail_if_no_progress with_reducible apply kept1_mkfst
    | (with_reducible apply kept1_mk; fail_if_success with_reducible apply kept1_fst)
    | fail_if_no_progress with_reducible apply kept2_mksnd
    | (with_reducible apply kept2_mk; fail_if_success with_reducible apply kept2_snd)
    | (with_reducible apply kept3_mk; fail_if_success with_reducible apply kept3_snd)
    | (with_reducible apply kept4_mk; fail_if_success with_reducible apply kept4_snd) | with_reducible apply keptOpt_some
    | with_reducible apply keptOpt_none | with_reducible apply keptOpt_map | with_reducible apply keptOpt_pure
    | with_reducible apply keptOpt_bind | with_reducible apply keptOpt_bindO | with_reducible apply kept1_fst
    | with_reducible apply kept4_snd | with_reducible apply kept3_snd | with_reducible apply kept2_snd
    | ((conv => arg 2; with_reducible whnf); split) | (with_reducible refine Kept1.elim ?_ (by with_reducible assumption))
    | (with_reducible refine Kept2.elim ?_ (by with_reducible assumption))
    | (with_reducible refine Kept3.elim ?_ (by with_reducible assumption))
    | (with_reducible refine Kept4.elim ?_ (by with_reducible assumption))
    | (with_reducible refine KeptOpt.elim ?_ (by with_reducible assumption))
    | (with_reducible refine KeptOpt.elim1 ?_ (by with_reducible assumption))
    | (with_reducible refine KeptOpt.elim2 ?_ (by with_reducible assumption))
    | (with_reducible refine KeptOpt.elim3 ?_ (by with_reducible assumption))
    | (with_reducible refine KeptOpt.elim4 ?_ (by with_reducible assumption))

theorem createSession_kept (src : Src) (vocab : Nat) (grammar : Nat) (model : Nat) (prio : Nat) (dur : Nat) (customer : Nat) (draftEn : Bool) (tag : Word) (contract : Nat) (cls : Nat) (s : State) (h0 : Kept wq s) :
    Kept1 wq (createSession src vocab grammar model prio dur customer draftEn tag contract cls s) := by
  unfold createSession
  repeat' first
    | with_reducible assumption | with_reducible intro _ | with_reducible apply incWrap_kept
    | with_reducible apply bindSlots_kept | with_reducible apply newPages_kept | with_reducible apply takeIndex_kept
    | with_reducible apply kept_ite | with_reducible apply kept1_ite | fail_if_no_progress with_reducible apply kept_upd
    | fail_if_no_progress with_reducible apply kept1_mkfst
    | (with_reducible apply kept1_mk; fail_if_success with_reducible apply kept1_fst)
    | fail_if_no_progress with_reducible apply kept2_mksnd
    | (with_reducible apply kept2_mk; fail_if_success with_reducible apply kept2_snd)
    | (with_reducible apply kept3_mk; fail_if_success with_reducible apply kept3_snd)
    | (with_reducible apply kept4_mk; fail_if_success with_reducible apply kept4_snd) | with_reducible apply keptOpt_some
    | with_reducible apply keptOpt_none | with_reducible apply keptOpt_map | with_reducible apply keptOpt_pure
    | with_reducible apply keptOpt_bind | with_reducible apply keptOpt_bindO | with_reducible apply keptOpt_bindO
    | with_reducible apply kept1_fst | with_reducible apply kept4_snd | with_reducible apply kept3_snd
    | with_reducible apply kept2_snd | ((conv => arg 2; with_reducible whnf); split)
    | (with_reducible refine Kept1.elim ?_ (by with_reducible assumption))
    | (with_reducible refine Kept2.elim ?_ (by with_reducible assumption))
    | (with_reducible refine Kept3.elim ?_ (by with_reducible assumption))
    | (with_reducible refine Kept4.elim ?_ (by with_reducible assumption))
    | (with_reducible refine KeptOpt.elim ?_ (by with_reducible assumption))
    | (with_reducible refine KeptOpt.elim1 ?_ (by with_reducible assumption))
    | (with_reducible refine KeptOpt.elim2 ?_ (by with_reducible assumption))
    | (with_reducible refine KeptOpt.elim3 ?_ (by with_reducible assumption))
    | (with_reducible refine KeptOpt.elim4 ?_ (by with_reducible assumption))

theorem appendSegment_kept (s : State) (i : Nat) (e : Session) (seg : Segment) (h : Kept wq s) :
    KeptOpt (Kept wq) (appendSegment s i e seg) := by
  unfold appendSegment
  dsimp only
  refine keptOpt_mapP (allocFrames_kept _ _ _ _ _ s h) fun x hx => ?_
  exact setSes_kept _ _ _ hx

theorem feedBody_kept (src : Src) (addr : Word) (len : Nat) (tokens : Bool) (run : Bool) (genLimit : Nat) (i : Nat) (e : Session) (s : State) (h0 : Kept wq s) :
    Kept1 wq (feedBody src addr len tokens run genLimit i e s) := by
  unfold feedBody
  repeat' first
    | with_reducible assumption | with_reducible intro _ | with_reducible apply appendSegment_kept
    | with_reducible apply runSession_kept | with_reducible apply sesEvent_kept | with_reducible apply kept_ite
    | with_reducible apply kept1_ite | fail_if_no_progress with_reducible apply kept1_mkfst
    | (with_reducible apply kept1_mk; fail_if_success with_reducible apply kept1_fst) | with_reducible apply keptOpt_some
    | with_reducible apply keptOpt_none | with_reducible apply keptOpt_map | with_reducible apply keptOpt_pure
    | with_reducible apply keptOpt_bind | with_reducible apply keptOpt_bindO | with_reducible apply kept1_fst
    | ((conv => arg 2; with_reducible whnf); split) | (with_reducible refine Kept1.elim ?_ (by with_reducible assumption))
    | (with_reducible refine KeptOpt.elim ?_ (by with_reducible assumption))
    | (with_reducible refine KeptOpt.elim1 ?_ (by with_reducible assumption))
    | (with_reducible refine KeptOpt.elim2 ?_ (by with_reducible assumption))
    | (with_reducible refine KeptOpt.elim3 ?_ (by with_reducible assumption))
    | (with_reducible refine KeptOpt.elim4 ?_ (by with_reducible assumption))

theorem runBody_kept (genLimit : Nat) (i : Nat) (e : Session) (s : State) (h0 : Kept wq s) :
    Kept1 wq (runBody genLimit i e s) := by
  unfold runBody
  repeat' first
    | with_reducible assumption | with_reducible intro _ | with_reducible apply runSession_kept
    | with_reducible apply kept_ite | with_reducible apply kept1_ite | fail_if_no_progress with_reducible apply kept1_mkfst
    | (with_reducible apply kept1_mk; fail_if_success with_reducible apply kept1_fst) | with_reducible apply kept1_fst
    | ((conv => arg 2; with_reducible whnf); split)

theorem waitBody_kept (expect : Nat) (deadline : Nat) (i : Nat) (e : Session) (s : State) (h0 : Kept wq s) :
    Kept1 wq (waitBody expect deadline i e s) := by
  unfold waitBody
  repeat' first
    | with_reducible assumption | with_reducible intro _ | with_reducible apply setSes_kept
    | with_reducible apply applyChoice_kept | with_reducible apply kept_ite | with_reducible apply kept1_ite
    | fail_if_no_progress with_reducible apply kept_upd | fail_if_no_progress with_reducible apply kept1_mkfst
    | (with_reducible apply kept1_mk; fail_if_success with_reducible apply kept1_fst)
    | ((conv => arg 2; with_reducible whnf); split)

theorem parkBody_kept (hint : Nat) (i : Nat) (e : Session) (s : State) (h0 : Kept wq s) :
    Kept1 wq (parkBody hint i e s) := by
  unfold parkBody
  repeat' first
    | with_reducible assumption | with_reducible intro _ | with_reducible apply setSes_kept
    | with_reducible apply applyChoice_kept | with_reducible apply kept_ite | with_reducible apply kept1_ite
    | fail_if_no_progress with_reducible apply kept_upd | fail_if_no_progress with_reducible apply kept1_mkfst
    | (with_reducible apply kept1_mk; fail_if_success with_reducible apply kept1_fst)
    | ((conv => arg 2; with_reducible whnf); split)

theorem reviveBody_kept (i : Nat) (e : Session) (s : State) (h0 : Kept wq s) :
    Kept1 wq (reviveBody i e s) := by
  unfold reviveBody
  repeat' first
    | with_reducible assumption | with_reducible intro _ | with_reducible apply abortPark_kept
    | with_reducible apply sesNoticeFree_kept | with_reducible apply startRevival_kept | with_reducible apply kept_ite
    | with_reducible apply kept1_ite | fail_if_no_progress with_reducible apply kept1_mkfst
    | (with_reducible apply kept1_mk; fail_if_success with_reducible apply kept1_fst) | with_reducible apply kept1_fst
    | ((conv => arg 2; with_reducible whnf); split) | (with_reducible refine Kept1.elim ?_ (by with_reducible assumption))

theorem slotHold_kept (s : State) (slot : Nat) (reason : Nat) (prefill : Bool) (h0 : Kept wq s) :
    Kept wq (slotHold s slot reason prefill) := by
  unfold slotHold
  repeat' first
    | with_reducible assumption | fail_if_no_progress with_reducible apply kept_upd
    | ((conv => arg 2; with_reducible whnf); split)

theorem holdSession_kept (s : State) (i : Nat) (reason : Nat) (h0 : Kept wq s) :
    Kept wq (holdSession s i reason) := by
  unfold holdSession
  repeat' first
    | with_reducible assumption | with_reducible apply setSes_kept | with_reducible apply slotHold_kept
    | fail_if_no_progress with_reducible apply kept_upd | ((conv => arg 2; with_reducible whnf); split)

theorem unholdSession_kept (s : State) (i : Nat) (h0 : Kept wq s) :
    Kept wq (unholdSession s i) := by
  unfold unholdSession
  repeat' first
    | with_reducible assumption | with_reducible intro _ | with_reducible apply setSes_kept
    | with_reducible apply slotHold_kept | with_reducible apply kept_ite | fail_if_no_progress with_reducible apply kept_upd
    | ((conv => arg 2; with_reducible whnf); split)

theorem holdBody_kept (i : Nat) (e : Session) (s : State) (h0 : Kept wq s) :
    Kept1 wq (holdBody i e s) := by
  unfold holdBody
  repeat' first
    | with_reducible assumption | with_reducible intro _ | with_reducible apply setSes_kept
    | with_reducible apply holdSession_kept | with_reducible apply kept_ite | with_reducible apply kept1_ite
    | fail_if_no_progress with_reducible apply kept_upd | fail_if_no_progress with_reducible apply kept1_mkfst
    | (with_reducible apply kept1_mk; fail_if_success with_reducible apply kept1_fst)
    | ((conv => arg 2; with_reducible whnf); split)

theorem releaseBody_kept (i : Nat) (e : Session) (s : State) (h0 : Kept wq s) :
    Kept1 wq (releaseBody i e s) := by
  unfold releaseBody
  repeat' first
    | with_reducible assumption | with_reducible intro _ | with_reducible apply unholdSession_kept
    | with_reducible apply kept_ite | with_reducible apply kept1_ite | fail_if_no_progress with_reducible apply kept1_mkfst
    | (with_reducible apply kept1_mk; fail_if_success with_reducible apply kept1_fst)
    | ((conv => arg 2; with_reducible whnf); split)

theorem copyPages_kept (s : State) (ps : Map Word) (fs : List Nat) (h0 : Kept wq s) :
    Kept1 wq (copyPages s ps fs) := by
  unfold copyPages
  repeat' first
    | with_reducible assumption | with_reducible intro _ | with_reducible apply copyFrame_kept
    | with_reducible apply kept_foldl | with_reducible apply kept1_foldl
    | fail_if_no_progress with_reducible apply kept1_mkfst
    | (with_reducible apply kept1_mk; fail_if_success with_reducible apply kept1_fst)

theorem forkPages_kept (s : State) (i : Nat) (j : Nat) (e : Session) (m : Model) (pos : Nat) (h0 : Kept wq s) :
    KeptOpt (Kept1 wq) (forkPages s i j e m pos) := by
  unfold forkPages
  repeat' first
    | with_reducible assumption | with_reducible intro _ | with_reducible apply allocFrames_kept
    | with_reducible apply copyPages_kept | with_reducible apply holdFrame_kept | with_reducible apply kept_ite
    | with_reducible apply kept1_ite | fail_if_no_progress with_reducible apply kept_upd | with_reducible apply kept_foldl
    | with_reducible apply kept1_foldl | fail_if_no_progress with_reducible apply kept1_mkfst
    | (with_reducible apply kept1_mk; fail_if_success with_reducible apply kept1_fst)
    | fail_if_no_progress with_reducible apply kept2_mksnd
    | (with_reducible apply kept2_mk; fail_if_success with_reducible apply kept2_snd)
    | (with_reducible apply kept3_mk; fail_if_success with_reducible apply kept3_snd)
    | (with_reducible apply kept4_mk; fail_if_success with_reducible apply kept4_snd) | with_reducible apply keptOpt_some
    | with_reducible apply keptOpt_none | with_reducible apply keptOpt_map | with_reducible apply keptOpt_pure
    | with_reducible apply keptOpt_bind | with_reducible apply keptOpt_bindO | with_reducible apply kept1_fst
    | with_reducible apply kept4_snd | with_reducible apply kept3_snd | with_reducible apply kept2_snd
    | ((conv => arg 2; with_reducible whnf); split) | (with_reducible refine Kept1.elim ?_ (by with_reducible assumption))
    | (with_reducible refine Kept2.elim ?_ (by with_reducible assumption))
    | (with_reducible refine Kept3.elim ?_ (by with_reducible assumption))
    | (with_reducible refine Kept4.elim ?_ (by with_reducible assumption))
    | (with_reducible refine KeptOpt.elim ?_ (by with_reducible assumption))
    | (with_reducible refine KeptOpt.elim1 ?_ (by with_reducible assumption))
    | (with_reducible refine KeptOpt.elim2 ?_ (by with_reducible assumption))
    | (with_reducible refine KeptOpt.elim3 ?_ (by with_reducible assumption))
    | (with_reducible refine KeptOpt.elim4 ?_ (by with_reducible assumption))

theorem forkBody_kept (src : Src) (pos : Nat) (seed : Option Word) (tag : Word) (i : Nat) (e : Session) (s : State) (h0 : Kept wq s) :
    Kept1 wq (forkBody src pos seed tag i e s) := by
  unfold forkBody
  repeat' first
    | with_reducible assumption | with_reducible intro _ | with_reducible apply incWrap_kept
    | with_reducible apply bindSlots_kept | with_reducible apply forkPages_kept | with_reducible apply takeIndex_kept
    | with_reducible apply kept_ite | with_reducible apply kept1_ite | fail_if_no_progress with_reducible apply kept_upd
    | fail_if_no_progress with_reducible apply kept1_mkfst
    | (with_reducible apply kept1_mk; fail_if_success with_reducible apply kept1_fst)
    | fail_if_no_progress with_reducible apply kept2_mksnd
    | (with_reducible apply kept2_mk; fail_if_success with_reducible apply kept2_snd)
    | (with_reducible apply kept3_mk; fail_if_success with_reducible apply kept3_snd)
    | (with_reducible apply kept4_mk; fail_if_success with_reducible apply kept4_snd) | with_reducible apply keptOpt_some
    | with_reducible apply keptOpt_none | with_reducible apply keptOpt_map | with_reducible apply keptOpt_pure
    | with_reducible apply keptOpt_bind | with_reducible apply keptOpt_bindO | with_reducible apply keptOpt_bindO
    | with_reducible apply kept1_fst | with_reducible apply kept4_snd | with_reducible apply kept3_snd
    | with_reducible apply kept2_snd | ((conv => arg 2; with_reducible whnf); split)
    | (with_reducible refine Kept1.elim ?_ (by with_reducible assumption))
    | (with_reducible refine Kept2.elim ?_ (by with_reducible assumption))
    | (with_reducible refine Kept3.elim ?_ (by with_reducible assumption))
    | (with_reducible refine Kept4.elim ?_ (by with_reducible assumption))
    | (with_reducible refine KeptOpt.elim ?_ (by with_reducible assumption))
    | (with_reducible refine KeptOpt.elim1 ?_ (by with_reducible assumption))
    | (with_reducible refine KeptOpt.elim2 ?_ (by with_reducible assumption))
    | (with_reducible refine KeptOpt.elim3 ?_ (by with_reducible assumption))
    | (with_reducible refine KeptOpt.elim4 ?_ (by with_reducible assumption))

theorem migrateBody_kept (device : Nat) (i : Nat) (e : Session) (s : State) (h0 : Kept wq s) :
    Kept1 wq (migrateBody device i e s) := by
  unfold migrateBody
  repeat' first
    | with_reducible assumption | with_reducible intro _ | with_reducible apply setSes_kept
    | with_reducible apply abortPark_kept | with_reducible apply abortRevival_kept | with_reducible apply releaseSlot_kept
    | with_reducible apply send_kept | with_reducible apply voidBuilt_kept | with_reducible apply kept_ite
    | with_reducible apply kept1_ite | fail_if_no_progress with_reducible apply kept_upd
    | fail_if_no_progress with_reducible apply kept1_mkfst
    | (with_reducible apply kept1_mk; fail_if_success with_reducible apply kept1_fst) | with_reducible apply kept1_fst
    | ((conv => arg 2; with_reducible whnf); split) | (with_reducible refine Kept1.elim ?_ (by with_reducible assumption))

theorem beginCancel_kept (s : State) (i : Nat) (src : Src) (h0 : Kept wq s) :
    Kept wq (beginCancel s i src) := by
  unfold beginCancel
  repeat' first
    | with_reducible assumption | with_reducible intro _ | with_reducible apply setSes_kept
    | with_reducible apply abortPark_kept | with_reducible apply abortRevival_kept | with_reducible apply completeFail_kept
    | with_reducible apply dropWaiting_kept | with_reducible apply releaseSlot_kept | with_reducible apply send_kept
    | with_reducible apply tombstone_kept | with_reducible apply voidBuilt_kept | with_reducible apply kept_ite
    | with_reducible apply kept1_ite | fail_if_no_progress with_reducible apply kept_upd
    | fail_if_no_progress with_reducible apply kept1_mkfst
    | (with_reducible apply kept1_mk; fail_if_success with_reducible apply kept1_fst) | with_reducible apply kept1_fst
    | ((conv => arg 2; with_reducible whnf); split) | (with_reducible refine Kept1.elim ?_ (by with_reducible assumption))

theorem cancelBody_kept (src : Src) (i : Nat) (e : Session) (s : State) (h0 : Kept wq s) :
    Kept1 wq (cancelBody src i e s) := by
  unfold cancelBody
  repeat' first
    | with_reducible assumption | with_reducible intro _ | with_reducible apply beginCancel_kept
    | with_reducible apply kept_ite | with_reducible apply kept1_ite | fail_if_no_progress with_reducible apply kept1_mkfst
    | (with_reducible apply kept1_mk; fail_if_success with_reducible apply kept1_fst)
    | ((conv => arg 2; with_reducible whnf); split)

theorem endBody_kept (src : Src) (i : Nat) (e : Session) (s : State) (h0 : Kept wq s) :
    Kept1 wq (endBody src i e s) := by
  unfold endBody
  repeat' first
    | with_reducible assumption | with_reducible intro _ | with_reducible apply setSes_kept
    | with_reducible apply abortPark_kept | with_reducible apply finishEnd_kept | with_reducible apply kept_ite
    | with_reducible apply kept1_ite | fail_if_no_progress with_reducible apply kept_upd
    | fail_if_no_progress with_reducible apply kept1_mkfst
    | (with_reducible apply kept1_mk; fail_if_success with_reducible apply kept1_fst)
    | ((conv => arg 2; with_reducible whnf); split)

theorem freeBody_kept (i : Nat) (e : Session) (s : State) (h0 : Kept wq s) :
    Kept1 wq (freeBody i e s) := by
  unfold freeBody
  repeat' first
    | with_reducible assumption | with_reducible intro _ | with_reducible apply decFld_kept
    | with_reducible apply dropWaiting_kept | with_reducible apply kept_ite | with_reducible apply kept1_ite
    | fail_if_no_progress with_reducible apply kept_upd | fail_if_no_progress with_reducible apply kept1_mkfst
    | (with_reducible apply kept1_mk; fail_if_success with_reducible apply kept1_fst)
    | ((conv => arg 2; with_reducible whnf); split)

theorem queryBody_kept (src : Src) (dest : Word) (i : Nat) (e : Session) (s : State) (h0 : Kept wq s) :
    Kept1 wq (queryBody src dest i e s) := by
  unfold queryBody
  repeat' first
    | with_reducible assumption | with_reducible apply itemWrite_kept | fail_if_no_progress with_reducible apply kept1_mkfst
    | (with_reducible apply kept1_mk; fail_if_success with_reducible apply kept1_fst)
    | ((conv => arg 2; with_reducible whnf); split) | (with_reducible refine KeptEx.elim ?_ (by with_reducible assumption))

theorem slotCopy_kept (s : State) (e : Session) (h0 : Kept wq s) :
    Kept wq (slotCopy s e) := by
  unfold slotCopy
  repeat' first
    | with_reducible assumption | with_reducible intro _ | with_reducible apply kept_ite
    | fail_if_no_progress with_reducible apply kept_upd | ((conv => arg 2; with_reducible whnf); split)

theorem regram_kept (s : State) (old : Session) (new_ : Session) (h0 : Kept wq s) :
    Kept wq (regram s old new_) := by
  unfold regram
  repeat' first
    | with_reducible assumption | with_reducible intro _ | with_reducible apply decFld_kept
    | with_reducible apply incWrap_kept | with_reducible apply kept_ite | ((conv => arg 2; with_reducible whnf); split)

theorem dropDurable_kept (s : State) (i : Nat) (h0 : Kept wq s) :
    Kept wq (dropDurable s i) := by
  unfold dropDurable
  repeat' first
    | with_reducible assumption | with_reducible apply setSes_kept | with_reducible apply notBehind_kept
    | with_reducible apply tombstone_kept | fail_if_no_progress with_reducible apply kept_upd
    | ((conv => arg 2; with_reducible whnf); split)

theorem configBody_kept (selector : Nat) (index : Nat) (value : Word) (i : Nat) (e : Session) (s : State) (h0 : Kept wq s) :
    Kept1 wq (configBody selector index value i e s) := by
  unfold configBody
  repeat' first
    | with_reducible assumption | with_reducible intro _ | with_reducible apply setSes_kept
    | with_reducible apply dropDurable_kept | with_reducible apply regram_kept | with_reducible apply slotCopy_kept
    | with_reducible apply kept_ite | with_reducible apply kept1_ite | fail_if_no_progress with_reducible apply kept1_mkfst
    | (with_reducible apply kept1_mk; fail_if_success with_reducible apply kept1_fst)
    | ((conv => arg 2; with_reducible whnf); split)

/-! ### SesEvents -/

theorem drainTimeout_kept (s : State) (i : Nat) (h0 : Kept wq s) :
    Kept wq (drainTimeout s i) := by
  unfold drainTimeout
  repeat' first
    | with_reducible assumption | with_reducible intro _ | with_reducible apply fault_kept
    | with_reducible apply finishCancel_kept | with_reducible apply kept_ite | ((conv => arg 2; with_reducible whnf); split)

theorem graceExpiry_kept (s : State) (i : Nat) (h0 : Kept wq s) :
    Kept wq (graceExpiry s i) := by
  unfold graceExpiry
  repeat' first
    | with_reducible assumption | with_reducible intro _ | with_reducible apply applyHorizon_kept
    | with_reducible apply kept_ite | ((conv => arg 2; with_reducible whnf); split)

theorem overdue_kept (s : State) (i : Nat) (h0 : Kept wq s) :
    Kept wq (overdue s i) := by
  unfold overdue
  repeat' first
    | with_reducible assumption | with_reducible intro _ | with_reducible apply setSes_kept
    | with_reducible apply applyHorizon_kept | with_reducible apply kept_ite
    | fail_if_no_progress with_reducible apply kept_upd | ((conv => arg 2; with_reducible whnf); split)

theorem deadlineRule_kept (s : State) (i : Nat) (h0 : Kept wq s) :
    Kept wq (deadlineRule s i) := by
  unfold deadlineRule
  repeat' first
    | with_reducible assumption | with_reducible intro _ | with_reducible apply setSes_kept
    | with_reducible apply sesNoticeFree_kept | with_reducible apply kept_ite
    | fail_if_no_progress with_reducible apply kept_upd | ((conv => arg 2; with_reducible whnf); split)

theorem bringCurrent_kept (s : State) (i : Nat) (e : Session) (h0 : Kept wq s) :
    Kept wq (bringCurrent s i e) := by
  unfold bringCurrent
  repeat' first
    | with_reducible assumption | with_reducible apply countBehind_kept | with_reducible apply startPark_kept
    | fail_if_no_progress with_reducible apply kept_upd | ((conv => arg 2; with_reducible whnf); split)

theorem deferredStart_kept (s : State) (i : Nat) (h0 : Kept wq s) :
    Kept wq (deferredStart s i) := by
  unfold deferredStart
  repeat' first
    | with_reducible assumption | with_reducible intro _ | with_reducible apply startPark_kept
    | with_reducible apply kept_ite | ((conv => arg 2; with_reducible whnf); split)

theorem pressureRun_kept : ∀ (l : List Nat) (n : Nat) (s : State), Kept wq s → Kept wq (pressureRun l n s)
  | [], _, _, h => h
  | i :: is, n, s, h => by
    unfold pressureRun
    split
    · exact h
    · exact pressureRun_kept is _ _ (applyHorizon_kept _ _ _ h)

theorem pressure_kept (s : State) (c : Nat) (h0 : Kept wq s) :
    Kept wq (pressure s c) := by
  unfold pressure
  repeat' first
    | with_reducible assumption | with_reducible intro _ | with_reducible apply pressureRun_kept
    | with_reducible apply kept_ite | ((conv => arg 2; with_reducible whnf); split)

theorem submitPark_kept (s : State) (i : Nat) (e : Session) (op : ParkOp) (h0 : Kept wq s) :
    Kept wq (submitPark s i e op) := by
  unfold submitPark
  repeat' first
    | with_reducible assumption | with_reducible apply draw_kept | with_reducible apply setSes_kept
    | with_reducible apply ensureKey_kept | with_reducible apply journalSubmit_kept
    | fail_if_no_progress with_reducible apply kept_upd | fail_if_no_progress with_reducible apply kept1_mkfst
    | (with_reducible apply kept1_mk; fail_if_success with_reducible apply kept1_fst)
    | fail_if_no_progress with_reducible apply kept2_mksnd
    | (with_reducible apply kept2_mk; fail_if_success with_reducible apply kept2_snd)
    | (with_reducible apply kept3_mk; fail_if_success with_reducible apply kept3_snd)
    | (with_reducible apply kept4_mk; fail_if_success with_reducible apply kept4_snd) | with_reducible apply kept1_fst
    | with_reducible apply kept4_snd | with_reducible apply kept3_snd | with_reducible apply kept2_snd
    | ((conv => arg 2; with_reducible whnf); split) | (with_reducible refine Kept1.elim ?_ (by with_reducible assumption))
    | (with_reducible refine Kept2.elim ?_ (by with_reducible assumption))
    | (with_reducible refine Kept3.elim ?_ (by with_reducible assumption))
    | (with_reducible refine Kept4.elim ?_ (by with_reducible assumption))

theorem parkProgress_kept (s : State) (i : Nat) (h0 : Kept wq s) :
    Kept wq (parkProgress s i) := by
  unfold parkProgress
  repeat' first
    | with_reducible assumption | with_reducible intro _ | with_reducible apply commitP2_kept
    | with_reducible apply commitP3_kept | with_reducible apply submitPark_kept | with_reducible apply kept_ite
    | ((conv => arg 2; with_reducible whnf); split)

theorem parkFailed_kept (s : State) (i : Nat) (status : Nat) (h0 : Kept wq s) :
    Kept wq (parkFailed s i status) := by
  unfold parkFailed
  repeat' first
    | with_reducible assumption | with_reducible intro _ | with_reducible apply setSes_kept
    | with_reducible apply policeDone_kept | with_reducible apply releaseP2_kept | with_reducible apply send_kept
    | with_reducible apply sesNoticeFree_kept | with_reducible apply kept_ite
    | fail_if_no_progress with_reducible apply kept_upd | ((conv => arg 2; with_reducible whnf); split)

theorem landFrame_kept (s : State) (f : Nat) (kind : Nat) (bytes : Option (Map Byte)) (bad : Bool) (h0 : Kept wq s) :
    Kept wq (landFrame s f kind bytes bad) := by
  unfold landFrame
  repeat' first
    | with_reducible assumption | with_reducible intro _ | with_reducible apply piedFrame_kept
    | with_reducible apply setFrameBytes_kept | with_reducible apply kept_ite
    | fail_if_no_progress with_reducible apply kept_upd | ((conv => arg 2; with_reducible whnf); split)

theorem landAll_kept (bad : List Nat) : ∀ (l : List (Nat × Nat × Nat × Option (Map Byte))) (s : State), Kept wq s →
    Kept wq (landAll bad l s)
  | [], _, h => h
  | (o, f, kind, bytes) :: r, s, h => landAll_kept bad r _ (landFrame_kept _ _ _ _ _ h)

theorem commitRevival_kept (s : State) (i : Nat) (e : Session) (op : RevOp) (bad : List Nat) (h0 : Kept wq s) :
    Kept wq (commitRevival s i e op bad) := by
  unfold commitRevival
  repeat' first
    | with_reducible assumption | with_reducible intro _ | with_reducible apply setSes_kept
    | with_reducible apply freeFrames_kept | with_reducible apply landAll_kept | with_reducible apply policeDone_kept
    | with_reducible apply releaseP2_kept | with_reducible apply showBorrowed_kept | with_reducible apply kept_ite
    | with_reducible apply kept1_ite | fail_if_no_progress with_reducible apply kept_upd | with_reducible apply kept_foldl
    | with_reducible apply kept1_foldl | fail_if_no_progress with_reducible apply kept1_mkfst
    | (with_reducible apply kept1_mk; fail_if_success with_reducible apply kept1_fst) | with_reducible apply kept1_fst
    | ((conv => arg 2; with_reducible whnf); split) | (with_reducible refine Kept1.elim ?_ (by with_reducible assumption))
    | (with_reducible refine KeptOpt.elim ?_ (by with_reducible assumption))
    | (with_reducible refine KeptOpt.elim1 ?_ (by with_reducible assumption))
    | (with_reducible refine KeptOpt.elim2 ?_ (by with_reducible assumption))
    | (with_reducible refine KeptOpt.elim3 ?_ (by with_reducible assumption))
    | (with_reducible refine KeptOpt.elim4 ?_ (by with_reducible assumption))

theorem revivalLate_kept (s : State) (e : Session) (op : RevOp) (h0 : Kept wq s) :
    Kept wq (revivalLate s e op) := by
  unfold revivalLate
  repeat' first
    | with_reducible assumption | with_reducible intro _ | with_reducible apply incSat_kept
    | with_reducible apply fault_kept | with_reducible apply kept_ite | ((conv => arg 2; with_reducible whnf); split)

theorem afterRevival_kept (s : State) (i : Nat) (op : RevOp) (h0 : Kept wq s) :
    Kept wq (afterRevival s i op) := by
  unfold afterRevival
  repeat' first
    | with_reducible assumption | with_reducible intro _ | with_reducible apply setSes_kept
    | with_reducible apply applyHorizon_kept | with_reducible apply sesNoticeFree_kept | with_reducible apply startRun_kept
    | with_reducible apply kept_ite | with_reducible apply kept1_ite | fail_if_no_progress with_reducible apply kept_upd
    | fail_if_no_progress with_reducible apply kept1_mkfst
    | (with_reducible apply kept1_mk; fail_if_success with_reducible apply kept1_fst) | with_reducible apply kept1_fst
    | ((conv => arg 2; with_reducible whnf); split) | (with_reducible refine Kept1.elim ?_ (by with_reducible assumption))

theorem revivalEnd_kept (s : State) (i : Nat) (bad : List Nat) (h0 : Kept wq s) :
    Kept wq (revivalEnd s i bad) := by
  unfold revivalEnd
  repeat' first
    | with_reducible assumption | with_reducible apply afterRevival_kept | with_reducible apply commitRevival_kept
    | with_reducible apply revivalLate_kept | ((conv => arg 2; with_reducible whnf); split)

theorem migrationDone_kept (s : State) (i : Nat) (newHandle : Word) (h0 : Kept wq s) :
    Kept wq (migrationDone s i newHandle) := by
  unfold migrationDone
  repeat' first
    | with_reducible assumption | with_reducible intro _ | with_reducible apply setSes_kept
    | with_reducible apply releaseState_kept | with_reducible apply sesNotice_kept | with_reducible apply tombstone_kept
    | with_reducible apply kept_ite | fail_if_no_progress with_reducible apply kept_upd
    | ((conv => arg 2; with_reducible whnf); split)

theorem migrationBack_kept (s : State) (i : Nat) (status : Nat) (h0 : Kept wq s) :
    Kept wq (migrationBack s i status) := by
  unfold migrationBack
  repeat' first
    | with_reducible assumption | with_reducible apply setSes_kept | with_reducible apply sesNoticeFree_kept
    | with_reducible apply slotHold_kept | with_reducible apply takeSlot_kept
    | fail_if_no_progress with_reducible apply kept_upd | fail_if_no_progress with_reducible apply kept1_mkfst
    | (with_reducible apply kept1_mk; fail_if_success with_reducible apply kept1_fst) | with_reducible apply keptOpt_some
    | with_reducible apply keptOpt_none | with_reducible apply keptOpt_map | with_reducible apply keptOpt_pure
    | with_reducible apply keptOpt_bind | with_reducible apply keptOpt_bindO | with_reducible apply kept1_fst
    | ((conv => arg 2; with_reducible whnf); split) | (with_reducible refine Kept1.elim ?_ (by with_reducible assumption))
    | (with_reducible refine KeptOpt.elim ?_ (by with_reducible assumption))
    | (with_reducible refine KeptOpt.elim1 ?_ (by with_reducible assumption))
    | (with_reducible refine KeptOpt.elim2 ?_ (by with_reducible assumption))
    | (with_reducible refine KeptOpt.elim3 ?_ (by with_reducible assumption))
    | (with_reducible refine KeptOpt.elim4 ?_ (by with_reducible assumption))

theorem migrationLate_kept (s : State) (i : Nat) (h0 : Kept wq s) :
    Kept wq (migrationLate s i) := by
  unfold migrationLate
  repeat' first
    | with_reducible assumption | with_reducible intro _ | with_reducible apply fault_kept
    | with_reducible apply migrationBack_kept | with_reducible apply send_kept | with_reducible apply kept_ite
    | ((conv => arg 2; with_reducible whnf); split)

theorem showLenders_kept (s : State) (h0 : Kept wq s) :
    Kept wq (showLenders s) := by
  unfold showLenders
  repeat' first
    | with_reducible assumption | with_reducible intro _ | with_reducible apply setFld_kept

theorem lenderHeard_kept (s : State) (lender : Nat) (free : Nat) (hops : Nat) (reclaimMs : Nat) (h0 : Kept wq s) :
    Kept wq (lenderHeard s lender free hops reclaimMs) := by
  unfold lenderHeard
  repeat' first
    | with_reducible assumption | with_reducible intro _ | with_reducible apply showLenders_kept
    | with_reducible apply kept_ite | fail_if_no_progress with_reducible apply kept_upd
    | ((conv => arg 2; with_reducible whnf); split)

theorem sendReclaim_kept (s : State) (h0 : Kept wq s) :
    Kept wq (sendReclaim s) := by
  unfold sendReclaim
  repeat' first
    | with_reducible assumption | with_reducible intro _ | with_reducible apply setFld_kept | with_reducible apply send_kept
    | with_reducible apply kept_ite | fail_if_no_progress with_reducible apply kept_upd | with_reducible apply kept_foldl
    | with_reducible apply kept1_foldl | ((conv => arg 2; with_reducible whnf); split)

theorem resendReclaim_kept (s : State) (borrower : Nat) (h0 : Kept wq s) :
    Kept wq (resendReclaim s borrower) := by
  unfold resendReclaim
  repeat' first
    | with_reducible assumption | with_reducible intro _ | with_reducible apply send_kept | with_reducible apply kept_ite
    | fail_if_no_progress with_reducible apply kept_upd | ((conv => arg 2; with_reducible whnf); split)

theorem settleP3_kept (s : State) (i : Nat) (e : Session) (h0 : Kept wq s) :
    Kept wq (settleP3 s i e) := by
  unfold settleP3
  repeat' first
    | with_reducible assumption | with_reducible apply setSes_kept | with_reducible apply releaseP2_kept
    | with_reducible apply showBorrowed_kept | fail_if_no_progress with_reducible apply kept_upd

theorem vacate_kept (s : State) (i : Nat) (h0 : Kept wq s) :
    Kept wq (vacate s i) := by
  unfold vacate
  repeat' first
    | with_reducible assumption | with_reducible intro _ | with_reducible apply abortPark_kept
    | with_reducible apply faultSession_kept | with_reducible apply settleP3_kept | with_reducible apply startPark_kept
    | with_reducible apply startRevival_kept | with_reducible apply kept_ite | with_reducible apply kept1_ite
    | fail_if_no_progress with_reducible apply kept1_mkfst
    | (with_reducible apply kept1_mk; fail_if_success with_reducible apply kept1_fst) | with_reducible apply kept1_fst
    | ((conv => arg 2; with_reducible whnf); split) | (with_reducible refine Kept1.elim ?_ (by with_reducible assumption))

theorem reclaimHeard_kept (s : State) (lender : Nat) (deadline : Nat) (h0 : Kept wq s) :
    Kept wq (reclaimHeard s lender deadline) := by
  unfold reclaimHeard
  repeat' first
    | with_reducible assumption | with_reducible intro _ | with_reducible apply send_kept
    | with_reducible apply showLenders_kept | with_reducible apply vacate_kept
    | fail_if_no_progress with_reducible apply kept_upd | with_reducible apply kept_foldl | with_reducible apply kept1_foldl
    | ((conv => arg 2; with_reducible whnf); split)

theorem reclaimLender_kept (s : State) (h0 : Kept wq s) :
    Kept wq (reclaimLender s) := by
  unfold reclaimLender
  repeat' first
    | with_reducible assumption | with_reducible intro _ | with_reducible apply setFld_kept
    | with_reducible apply freeFrames_kept | with_reducible apply send_kept | with_reducible apply kept_ite
    | fail_if_no_progress with_reducible apply kept_upd | with_reducible apply kept_foldl | with_reducible apply kept1_foldl
    | ((conv => arg 2; with_reducible whnf); split)

theorem reclaimOver_kept (s : State) (h0 : Kept wq s) :
    Kept wq (reclaimOver s) := by
  unfold reclaimOver
  repeat' first
    | with_reducible assumption | with_reducible intro _ | with_reducible apply lostP2_kept
    | with_reducible apply reclaimLender_kept | with_reducible apply kept_foldl | with_reducible apply kept1_foldl

theorem sweep_kept (s : State) (borrower : Nat) (h0 : Kept wq s) :
    Kept wq (sweep s borrower) := by
  unfold sweep
  repeat' first
    | with_reducible assumption | with_reducible intro _ | with_reducible apply freeFrames_kept
    | fail_if_no_progress with_reducible apply kept_upd | ((conv => arg 2; with_reducible whnf); split)

theorem evacuateOne_kept (s : State) (bay : Nat) (i : Nat) (h0 : Kept wq s) :
    Kept wq (evacuateOne s bay i) := by
  unfold evacuateOne
  repeat' first
    | with_reducible assumption | with_reducible intro _ | with_reducible apply startPark_kept
    | with_reducible apply kept_ite | ((conv => arg 2; with_reducible whnf); split)

theorem evacuate_kept (s : State) (bay : Nat) (h0 : Kept wq s) :
    Kept wq (evacuate s bay) := by
  unfold evacuate
  repeat' first
    | with_reducible assumption | with_reducible intro _ | with_reducible apply evacuateOne_kept
    | with_reducible apply kept_ite | with_reducible apply kept_foldl | with_reducible apply kept1_foldl
    | ((conv => arg 2; with_reducible whnf); split)

end Sys2Proof.Machine
end

