-- ==== Sys2Proof/Laws/KeptGalleys.lean ====
section
/-! SUPPORT. Each operation of make-ready, flash objects, galleys, tokens and banks keeps the queue and the canonical form. -/

namespace Sys2Proof.Machine

variable {wq : List Instr}

/-! ### MakeReady -/

theorem showModel_kept (s : State) (h0 : Kept wq s) :
    Kept wq (showModel s) := by
  unfold showModel
  repeat' first
    | with_reducible assumption | with_reducible intro _ | with_reducible apply setFld_kept
    | with_reducible apply kept_foldl | with_reducible apply kept1_foldl

theorem installSets_kept (s : State) (set : Map Contract) (h0 : Kept wq s) :
    Kept wq (installSets s set) := by
  unfold installSets
  repeat' first
    | with_reducible assumption | with_reducible intro _ | with_reducible apply showModel_kept
    | with_reducible apply wearFill_kept | with_reducible apply kept_ite | fail_if_no_progress with_reducible apply kept_upd
    | ((conv => arg 2; with_reducible whnf); split)

theorem readyDone_kept (s : State) (src : Src) (st : Nat) (h0 : Kept wq s) :
    Kept wq (readyDone s src st) := by
  unfold readyDone
  repeat' first
    | with_reducible assumption | with_reducible intro _ | with_reducible apply setFld_kept
    | with_reducible apply complete_kept | with_reducible apply completeFail_kept | with_reducible apply kept_ite
    | ((conv => arg 2; with_reducible whnf); split)

theorem evaluateOne_kept (s : State) (r : ReadyReq) (h0 : Kept wq s) :
    Kept wq (evaluateOne s r) := by
  unfold evaluateOne
  repeat' first
    | with_reducible assumption | with_reducible intro _ | with_reducible apply installSets_kept
    | with_reducible apply itemWrite_kept | with_reducible apply readyDone_kept | with_reducible apply kept_ite
    | ((conv => arg 2; with_reducible whnf); split) | (with_reducible refine KeptEx.elim ?_ (by with_reducible assumption))

theorem startNext_kept (s : State) (h0 : Kept wq s) :
    Kept wq (startNext s) := by
  unfold startNext
  repeat' first
    | with_reducible assumption | with_reducible apply setFld_kept | fail_if_no_progress with_reducible apply kept_upd
    | ((conv => arg 2; with_reducible whnf); split)

theorem shedOne_kept (s : State) (id : Nat) (c : Contract) (resource : Nat) (h0 : Kept wq s) :
    Kept wq (shedOne s id c resource) := by
  unfold shedOne
  repeat' first
    | with_reducible assumption | with_reducible intro _ | with_reducible apply incSat_kept
    | with_reducible apply notice_kept | with_reducible apply wearFill_kept
    | fail_if_no_progress with_reducible apply kept_upd

theorem shedLoop_kept : ∀ (n : Nat) (s : State), Kept wq s → Kept wq (shedLoop n s)
  | 0, _, h => h
  | n + 1, s, h => by
    unfold shedLoop
    dsimp only
    split
    · exact h
    · exact shedLoop_kept n _ (shedOne_kept _ _ _ _ h)

theorem reevaluate_kept (s : State) (h0 : Kept wq s) :
    Kept wq (reevaluate s) := by
  unfold reevaluate
  repeat' first
    | with_reducible assumption | with_reducible apply shedLoop_kept | with_reducible apply showModel_kept
    | with_reducible apply wearFill_kept | fail_if_no_progress with_reducible apply kept_upd

theorem endEvaluation_kept (s : State) (h0 : Kept wq s) :
    Kept wq (endEvaluation s) := by
  unfold endEvaluation
  repeat' first
    | with_reducible assumption | with_reducible intro _ | with_reducible apply evaluateOne_kept
    | with_reducible apply reevaluate_kept | with_reducible apply startNext_kept | with_reducible apply kept_ite
    | ((conv => arg 2; with_reducible whnf); split)

theorem defineBody_kept (src : Src) (addr : Word) (s : State) (h0 : Kept wq s) :
    Kept1 wq (defineBody src addr s) := by
  unfold defineBody
  repeat' first
    | with_reducible assumption | with_reducible intro _ | with_reducible apply kept_ite | with_reducible apply kept1_ite
    | fail_if_no_progress with_reducible apply kept_upd | fail_if_no_progress with_reducible apply kept1_mkfst
    | (with_reducible apply kept1_mk; fail_if_success with_reducible apply kept1_fst)
    | ((conv => arg 2; with_reducible whnf); split)

theorem dropBody_kept (src : Src) (id : Nat) (s : State) (h0 : Kept wq s) :
    Kept1 wq (dropBody src id s) := by
  unfold dropBody
  repeat' first
    | with_reducible assumption | with_reducible intro _ | with_reducible apply kept_ite | with_reducible apply kept1_ite
    | fail_if_no_progress with_reducible apply kept_upd | fail_if_no_progress with_reducible apply kept1_mkfst
    | (with_reducible apply kept1_mk; fail_if_success with_reducible apply kept1_fst)
    | ((conv => arg 2; with_reducible whnf); split)

theorem readyBody_kept (src : Src) (addr : Word) (s : State) (h0 : Kept wq s) :
    Kept1 wq (readyBody src addr s) := by
  unfold readyBody
  repeat' first
    | with_reducible assumption | with_reducible intro _ | with_reducible apply setFld_kept
    | with_reducible apply startNext_kept | with_reducible apply kept_ite | with_reducible apply kept1_ite
    | fail_if_no_progress with_reducible apply kept_upd | fail_if_no_progress with_reducible apply kept1_mkfst
    | (with_reducible apply kept1_mk; fail_if_success with_reducible apply kept1_fst)
    | ((conv => arg 2; with_reducible whnf); split)

theorem withdraw_kept (s : State) (ctx : Nat) (h0 : Kept wq s) :
    Kept wq (withdraw s ctx) := by
  unfold withdraw
  repeat' first
    | with_reducible assumption | with_reducible intro _ | with_reducible apply installSets_kept
    | fail_if_no_progress with_reducible apply kept_upd

theorem mkrQueryBody_kept (src : Src) (id : Nat) (addr : Word) (s : State) (h0 : Kept wq s) :
    Kept1 wq (mkrQueryBody src id addr s) := by
  unfold mkrQueryBody
  repeat' first
    | with_reducible assumption | with_reducible intro _ | with_reducible apply itemWrite_kept
    | with_reducible apply kept_ite | with_reducible apply kept1_ite | fail_if_no_progress with_reducible apply kept1_mkfst
    | (with_reducible apply kept1_mk; fail_if_success with_reducible apply kept1_fst)
    | ((conv => arg 2; with_reducible whnf); split) | (with_reducible refine KeptEx.elim ?_ (by with_reducible assumption))

/-! ### Objects -/

theorem objStore_kept (s : State) (id : Nat) (m : Map Byte) (len : Nat) (h0 : Kept wq s) :
    Kept wq (objStore s id m len) := by
  unfold objStore
  repeat' first
    | with_reducible assumption | fail_if_no_progress with_reducible apply kept_upd

theorem chargeWrite_kept (s : State) (b : Nat) (bytes : Nat) (h0 : Kept wq s) :
    Kept wq (chargeWrite s b bytes) := by
  unfold chargeWrite
  repeat' first
    | with_reducible assumption | with_reducible apply decFld_kept | with_reducible apply incWrap_kept

theorem objPut_kept (s : State) (id : Nat) (bs : List Byte) (h0 : Kept wq s) :
    Kept wq (objPut s id bs) := by
  unfold objPut
  repeat' first
    | with_reducible assumption | with_reducible intro _ | with_reducible apply chargeWrite_kept
    | with_reducible apply objStore_kept | with_reducible apply kept_foldl | with_reducible apply kept1_foldl

theorem objDel_kept (s : State) (id : Nat) (o : FlashObj) (h0 : Kept wq s) :
    Kept wq (objDel s id o) := by
  unfold objDel
  repeat' first
    | with_reducible assumption | with_reducible intro _ | with_reducible apply incWrap_kept | with_reducible apply kept_ite
    | fail_if_no_progress with_reducible apply kept_upd | with_reducible apply kept_foldl | with_reducible apply kept1_foldl
    | ((conv => arg 2; with_reducible whnf); split)

/-! ### GalCore -/

theorem setSlice_kept (s : State) (sl : Nat) (x : Slice) (h0 : Kept wq s) :
    Kept wq (State.setSlice s sl x) := by
  unfold State.setSlice
  repeat' first
    | with_reducible assumption | fail_if_no_progress with_reducible apply kept_upd

theorem setPart_kept (s : State) (p : Nat) (x : Part) (h0 : Kept wq s) :
    Kept wq (State.setPart s p x) := by
  unfold State.setPart
  repeat' first
    | with_reducible assumption | fail_if_no_progress with_reducible apply kept_upd

theorem refreshErr_kept (s : State) (h0 : Kept wq s) :
    Kept wq (refreshErr s) := by
  unfold refreshErr
  repeat' first
    | with_reducible assumption | with_reducible intro _ | with_reducible apply setFld_kept

theorem withdrawWait_kept (s : State) (n : Nat) (h0 : Kept wq s) :
    Kept wq (withdrawWait s n) := by
  unfold withdrawWait
  repeat' first
    | with_reducible assumption | with_reducible intro _ | with_reducible apply decFld_kept
    | with_reducible apply setCell_kept | fail_if_no_progress with_reducible apply kept_upd
    | ((conv => arg 2; with_reducible whnf); split)

theorem lightSave_kept (a : Nat) (s : State) (n : Nat) (h0 : Kept wq s) :
    Kept wq (lightSave a s n) := by
  unfold lightSave
  repeat' first
    | with_reducible assumption | with_reducible intro _ | with_reducible apply setCell_kept
    | with_reducible apply withdrawWait_kept | with_reducible apply kept_ite
    | fail_if_no_progress with_reducible apply kept_upd | fail_if_no_progress with_reducible apply kept_updOverlay
    | ((conv => arg 2; with_reducible whnf); split)

theorem lightLoad_kept (p : Nat) (k : Nat) (a : Nat) (s : State) (n : Nat) (h0 : Kept wq s) :
    Kept wq (lightLoad p k a s n) := by
  unfold lightLoad
  repeat' first
    | with_reducible assumption | with_reducible intro _ | with_reducible apply setCell_kept | with_reducible apply kept_ite
    | fail_if_no_progress with_reducible apply kept_upd | ((conv => arg 2; with_reducible whnf); split)

theorem startCell_kept (p : Nat) (k : Nat) (count : Nat) (base : Nat) (code : List Word) (cells : Nat) (s : State) (x : Nat × Nat) (h0 : Kept wq s) :
    Kept wq (startCell p k count base code cells s x) := by
  unfold startCell
  repeat' first
    | with_reducible assumption | with_reducible intro _ | with_reducible apply setCell_kept
    | fail_if_no_progress with_reducible apply kept_upd | with_reducible apply kept_foldl | with_reducible apply kept1_foldl

theorem startGalley_kept (s : State) (p : Nat) (k : Nat) (h0 : Kept wq s) :
    Kept wq (startGalley s p k) := by
  unfold startGalley
  repeat' first
    | with_reducible assumption | with_reducible intro _ | with_reducible apply setSlice_kept
    | with_reducible apply startCell_kept | with_reducible apply kept_ite
    | fail_if_no_progress with_reducible apply kept_upd | with_reducible apply kept_foldl | with_reducible apply kept1_foldl
    | ((conv => arg 2; with_reducible whnf); split)

theorem suspend_kept (s : State) (p : Nat) (k : Nat) (h0 : Kept wq s) :
    Kept wq (suspend s p k) := by
  unfold suspend
  repeat' first
    | with_reducible assumption | with_reducible intro _ | with_reducible apply incSat_kept
    | with_reducible apply setPart_kept | with_reducible apply lightSave_kept
    | fail_if_no_progress with_reducible apply kept_upd | with_reducible apply kept_foldl | with_reducible apply kept1_foldl

theorem dispatch_kept (s : State) (p : Nat) (h0 : Kept wq s) :
    Kept wq (dispatch s p) := by
  unfold dispatch
  repeat' first
    | with_reducible assumption | with_reducible intro _ | with_reducible apply setPart_kept
    | with_reducible apply lightLoad_kept | with_reducible apply startGalley_kept | with_reducible apply suspend_kept
    | with_reducible apply kept_ite | fail_if_no_progress with_reducible apply kept_upd | with_reducible apply kept_foldl
    | with_reducible apply kept1_foldl | ((conv => arg 2; with_reducible whnf); split)

theorem setBudget_kept (s : State) (c : Nat) (x : Nat × Nat) (h0 : Kept wq s) :
    Kept wq (State.setBudget s c x) := by
  unfold State.setBudget
  repeat' first
    | with_reducible assumption | fail_if_no_progress with_reducible apply kept_upd

theorem budgetFill_kept (s : State) (c : Nat) (h0 : Kept wq s) :
    Kept wq (budgetFill s c) := by
  unfold budgetFill
  repeat' first
    | with_reducible assumption | with_reducible intro _ | with_reducible apply setBudget_kept
    | with_reducible apply setFld_kept | with_reducible apply kept_ite | ((conv => arg 2; with_reducible whnf); split)

theorem budgetReturn_kept (s : State) (c : Nat) (n : Nat) (h0 : Kept wq s) :
    Kept wq (budgetReturn s c n) := by
  unfold budgetReturn
  repeat' first
    | with_reducible assumption | with_reducible intro _ | with_reducible apply setFld_kept | with_reducible apply kept_ite
    | ((conv => arg 2; with_reducible whnf); split)

theorem returnReserve_kept (s : State) (ctx : Nat) (n : Nat) (h0 : Kept wq s) :
    Kept wq (returnReserve s ctx n) := by
  unfold returnReserve
  repeat' first
    | with_reducible assumption | with_reducible intro _ | with_reducible apply decFld_kept
    | with_reducible apply incWrap_kept | with_reducible apply kept_ite | ((conv => arg 2; with_reducible whnf); split)

theorem dropEntries_kept (s : State) (i : Nat) (gone : Nat → Bool) (h0 : Kept wq s) :
    Kept wq (dropEntries s i gone) := by
  unfold dropEntries
  repeat' first
    | with_reducible assumption | with_reducible intro _ | with_reducible apply setSes_kept
    | with_reducible apply freeFrames_kept | with_reducible apply kept_ite
    | fail_if_no_progress with_reducible apply kept_upd | ((conv => arg 2; with_reducible whnf); split)

theorem abandonRec_kept (s : State) (r : Rec) (h0 : Kept wq s) :
    Kept wq (abandonRec s r) := by
  unfold abandonRec
  repeat' first
    | with_reducible assumption | with_reducible intro _ | with_reducible apply budgetReturn_kept
    | with_reducible apply dropEntries_kept | with_reducible apply returnReserve_kept | with_reducible apply kept_ite
    | ((conv => arg 2; with_reducible whnf); split)

theorem stopSlice_kept (p : Nat) (k : Nat) (s : State) (n : Nat) (h0 : Kept wq s) :
    Kept wq (stopSlice p k s n) := by
  unfold stopSlice
  repeat' first
    | with_reducible assumption | with_reducible intro _ | with_reducible apply setCell_kept
    | with_reducible apply withdrawWait_kept | with_reducible apply kept_ite
    | fail_if_no_progress with_reducible apply kept_upd | ((conv => arg 2; with_reducible whnf); split)

theorem profile_kept (s : State) (p : Nat) (h0 : Kept wq s) :
    Kept wq (profile s p) := by
  unfold profile
  repeat' first
    | with_reducible assumption | with_reducible intro _ | with_reducible apply draw_kept | with_reducible apply incSat_kept
    | with_reducible apply kept_ite | with_reducible apply kept1_ite | fail_if_no_progress with_reducible apply kept1_mkfst
    | (with_reducible apply kept1_mk; fail_if_success with_reducible apply kept1_fst)
    | fail_if_no_progress with_reducible apply kept2_mksnd
    | (with_reducible apply kept2_mk; fail_if_success with_reducible apply kept2_snd)
    | (with_reducible apply kept3_mk; fail_if_success with_reducible apply kept3_snd)
    | (with_reducible apply kept4_mk; fail_if_success with_reducible apply kept4_snd) | with_reducible apply kept1_fst
    | with_reducible apply kept4_snd | with_reducible apply kept3_snd | with_reducible apply kept2_snd
    | ((conv => arg 2; with_reducible whnf); split)

theorem endGalley_kept (s : State) (p : Nat) (k : Nat) (h0 : Kept wq s) :
    Kept wq (endGalley s p k) := by
  unfold endGalley
  repeat' first
    | with_reducible assumption | with_reducible intro _ | with_reducible apply setPart_kept
    | with_reducible apply setSlice_kept | with_reducible apply dispatch_kept | with_reducible apply profile_kept
    | with_reducible apply stopSlice_kept | with_reducible apply kept_ite
    | fail_if_no_progress with_reducible apply kept_upd | with_reducible apply kept_foldl | with_reducible apply kept1_foldl
    | ((conv => arg 2; with_reducible whnf); split)

theorem afterStep_kept (s : State) (i : Nat) (h0 : Kept wq s) :
    Kept wq (afterStep s i) := by
  unfold afterStep
  repeat' first
    | with_reducible assumption | with_reducible intro _ | with_reducible apply finishEnd_kept
    | with_reducible apply holdSession_kept | with_reducible apply kept_ite | ((conv => arg 2; with_reducible whnf); split)

theorem abandonGalley_kept (s : State) (p : Nat) (k : Nat) (h0 : Kept wq s) :
    Kept wq (abandonGalley s p k) := by
  unfold abandonGalley
  repeat' first
    | with_reducible assumption | with_reducible intro _ | with_reducible apply setSlice_kept
    | with_reducible apply abandonRec_kept | with_reducible apply afterStep_kept | with_reducible apply endGalley_kept
    | with_reducible apply kept_ite | fail_if_no_progress with_reducible apply kept_upd | with_reducible apply kept_foldl
    | with_reducible apply kept1_foldl | ((conv => arg 2; with_reducible whnf); split)

/-! ### Galleys -/

theorem setSlot_kept (s : State) (n : Nat) (x : Slot) (h0 : Kept wq s) :
    Kept wq (State.setSlot s n x) := by
  unfold State.setSlot
  repeat' first
    | with_reducible assumption | fail_if_no_progress with_reducible apply kept_upd

theorem settleHold_kept (s : State) (i : Nat) (h0 : Kept wq s) :
    Kept wq (settleHold s i) := by
  unfold settleHold
  repeat' first
    | with_reducible assumption | with_reducible intro _ | with_reducible apply holdSession_kept
    | with_reducible apply unholdSession_kept | with_reducible apply kept_ite | ((conv => arg 2; with_reducible whnf); split)

theorem prepSlot_kept (s : State) (n : Nat) (h0 : Kept wq s) :
    Kept wq (prepSlot s n) := by
  unfold prepSlot
  repeat' first
    | with_reducible assumption | with_reducible intro _ | with_reducible apply setSlot_kept
    | with_reducible apply budgetFill_kept | with_reducible apply checkEntry_kept | with_reducible apply settleHold_kept
    | fail_if_no_progress with_reducible apply kept_upd | fail_if_no_progress with_reducible apply kept1_mkfst
    | (with_reducible apply kept1_mk; fail_if_success with_reducible apply kept1_fst) | with_reducible apply kept1_fst
    | ((conv => arg 2; with_reducible whnf); split) | (with_reducible refine Kept1.elim ?_ (by with_reducible assumption))
    | (with_reducible refine KeptOpt.elim ?_ (by with_reducible assumption))
    | (with_reducible refine KeptOpt.elim1 ?_ (by with_reducible assumption))
    | (with_reducible refine KeptOpt.elim2 ?_ (by with_reducible assumption))
    | (with_reducible refine KeptOpt.elim3 ?_ (by with_reducible assumption))
    | (with_reducible refine KeptOpt.elim4 ?_ (by with_reducible assumption))

theorem tryRec_kept (s : State) (p : Nat) (k : Nat) (m : Model) (contracted : Bool) (cap : Nat) (pf : Nat) (room : Nat) (step : Nat) (n : Nat) (x : Slot) (rings : List Nat) (h0 : Kept wq s) :
    Kept1 wq (tryRec s p k m contracted cap pf room step n x rings) := by
  unfold tryRec
  repeat' first
    | with_reducible assumption | with_reducible intro _ | with_reducible apply decFld_kept
    | with_reducible apply incSat_kept | with_reducible apply incWrap_kept | with_reducible apply setSes_kept
    | with_reducible apply setSlot_kept | with_reducible apply holdSession_kept | with_reducible apply newPages_kept
    | with_reducible apply slotHold_kept | with_reducible apply unholdSession_kept | with_reducible apply kept_ite
    | with_reducible apply kept1_ite | fail_if_no_progress with_reducible apply kept_upd
    | fail_if_no_progress with_reducible apply kept1_mkfst
    | (with_reducible apply kept1_mk; fail_if_success with_reducible apply kept1_fst)
    | fail_if_no_progress with_reducible apply kept2_mksnd
    | (with_reducible apply kept2_mk; fail_if_success with_reducible apply kept2_snd)
    | (with_reducible apply kept3_mk; fail_if_success with_reducible apply kept3_snd)
    | (with_reducible apply kept4_mk; fail_if_success with_reducible apply kept4_snd) | with_reducible apply keptOpt_some
    | with_reducible apply keptOpt_none | with_reducible apply keptOpt_map | with_reducible apply keptOpt_pure
    | with_reducible apply keptOpt_bind | with_reducible apply keptOpt_bindO | with_reducible apply kept1_fst
    | with_reducible apply kept4_snd | with_reducible apply kept3_snd | with_reducible apply kept2_snd
    | ((conv => arg 2; with_reducible whnf); split) | (with_reducible refine Kept1.elim ?_ (by with_reducible assumption))
    | (with_reducible refine Kept2.elim ?_ (by with_reducible assumption))
    | (with_reducible refine Kept3.elim ?_ (by with_reducible assumption))
    | (with_reducible refine Kept4.elim ?_ (by with_reducible assumption))
    | (with_reducible refine KeptOpt.elim ?_ (by with_reducible assumption))
    | (with_reducible refine KeptOpt.elim1 ?_ (by with_reducible assumption))
    | (with_reducible refine KeptOpt.elim2 ?_ (by with_reducible assumption))
    | (with_reducible refine KeptOpt.elim3 ?_ (by with_reducible assumption))
    | (with_reducible refine KeptOpt.elim4 ?_ (by with_reducible assumption))

theorem contractedSection_kept (p k : Nat) (m : Model) (draft step : Nat) : ∀ (l : List (Nat × Slot)) (places pf : Nat) (s : State)
    (rs : List Rec), Kept wq s → Kept1 wq (contractedSection p k m draft step l places pf s rs)
  | [], _, _, _, _, h => h
  | x :: xs, places, pf, s, rs, h => by
    unfold contractedSection
    split
    · exact contractedSection_kept p k m draft step xs _ _ s _ h
    · have h1 := tryRec_kept s p k m true draft pf (2 ^ 32) step x.1 x.2 (ringsOf s rs) h
      split
      · rename_i e; exact contractedSection_kept p k m draft step xs _ _ _ _ (h1.elim e)
      · rename_i e; exact contractedSection_kept p k m draft step xs _ _ _ _ (h1.elim e)

theorem passOver_kept (s : State) (x : Nat × Slot) (h0 : Kept wq s) :
    Kept wq (passOver s x) := by
  unfold passOver
  repeat' first
    | with_reducible assumption | with_reducible intro _ | with_reducible apply setSlot_kept
    | with_reducible apply holdSession_kept | with_reducible apply kept_ite
    | fail_if_no_progress with_reducible apply kept_upd | ((conv => arg 2; with_reducible whnf); split)

theorem fillSection_kept (p k : Nat) (m : Model) (covered step : Nat) : ∀ (l : List (Nat × Slot)) (room : Nat) (s : State)
    (rs : List Rec), Kept wq s → Kept1 wq (fillSection p k m covered step l room s rs)
  | [], _, _, _, h => h
  | x :: xs, room, s, rs, h => by
    unfold fillSection
    have h1 := tryRec_kept s p k m false (if x.2.contracted then covered else 16) (2 ^ 32) room step x.1 x.2 (ringsOf s rs) h
    split
    · rename_i e; exact fillSection_kept p k m covered step xs _ _ _ (h1.elim e)
    · rename_i e
      split
      · exact kept_foldl (fun t y ht => passOver_kept t y ht) _ (h1.elim e)
      · exact fillSection_kept p k m covered step xs _ _ _ (h1.elim e)

theorem docRecords_kept (s : State) (p : Nat) (k : Nat) (max : Nat) (h0 : Kept wq s) :
    Kept1 wq (docRecords s p k max) := by
  unfold docRecords
  repeat' first
    | with_reducible assumption | with_reducible intro _ | with_reducible apply draw_kept | with_reducible apply kept_ite
    | with_reducible apply kept1_ite | with_reducible apply kept_foldl | with_reducible apply kept1_foldl
    | fail_if_no_progress with_reducible apply kept1_mkfst
    | (with_reducible apply kept1_mk; fail_if_success with_reducible apply kept1_fst)
    | fail_if_no_progress with_reducible apply kept2_mksnd
    | (with_reducible apply kept2_mk; fail_if_success with_reducible apply kept2_snd)
    | (with_reducible apply kept3_mk; fail_if_success with_reducible apply kept3_snd)
    | (with_reducible apply kept4_mk; fail_if_success with_reducible apply kept4_snd) | with_reducible apply kept1_fst
    | with_reducible apply kept4_snd | with_reducible apply kept3_snd | with_reducible apply kept2_snd
    | ((conv => arg 2; with_reducible whnf); split)

theorem selectRecs_kept (s : State) (p : Nat) (k : Nat) (m : Model) (step : Nat) (h0 : Kept wq s) :
    Kept1 wq (selectRecs s p k m step) := by
  unfold selectRecs
  repeat' first
    | with_reducible assumption | with_reducible intro _ | with_reducible apply contractedSection_kept
    | with_reducible apply fillSection_kept | with_reducible apply prepSlot_kept | with_reducible apply kept_foldl
    | with_reducible apply kept1_foldl | fail_if_no_progress with_reducible apply kept1_mkfst
    | (with_reducible apply kept1_mk; fail_if_success with_reducible apply kept1_fst) | with_reducible apply kept1_fst
    | ((conv => arg 2; with_reducible whnf); split) | (with_reducible refine Kept1.elim ?_ (by with_reducible assumption))

theorem showBuilding_kept (s : State) (h0 : Kept wq s) :
    Kept wq (showBuilding s) := by
  unfold showBuilding
  repeat' first
    | with_reducible assumption | with_reducible intro _ | with_reducible apply setFld_kept

theorem classFive_kept (s : State) (sl : Nat) (h0 : Kept wq s) :
    Kept wq (classFive s sl) := by
  unfold classFive
  repeat' first
    | with_reducible assumption | with_reducible intro _ | with_reducible apply kept_ite
    | fail_if_no_progress with_reducible apply kept_upd | ((conv => arg 2; with_reducible whnf); split)

theorem buildGalley_kept (s : State) (p : Nat) (k : Nat) (h0 : Kept wq s) :
    Kept wq (buildGalley s p k) := by
  unfold buildGalley
  repeat' first
    | with_reducible assumption | with_reducible intro _ | with_reducible apply setSlice_kept
    | with_reducible apply classFive_kept | with_reducible apply docRecords_kept | with_reducible apply selectRecs_kept
    | with_reducible apply showBuilding_kept | with_reducible apply kept_ite | with_reducible apply kept1_ite
    | fail_if_no_progress with_reducible apply kept_upd | fail_if_no_progress with_reducible apply kept1_mkfst
    | (with_reducible apply kept1_mk; fail_if_success with_reducible apply kept1_fst) | with_reducible apply kept1_fst
    | ((conv => arg 2; with_reducible whnf); split) | (with_reducible refine Kept1.elim ?_ (by with_reducible assumption))

theorem voidRec_kept (s : State) (r : Rec) (h0 : Kept wq s) :
    Kept1 wq (voidRec s r) := by
  unfold voidRec
  repeat' first
    | with_reducible assumption | with_reducible apply abandonRec_kept | with_reducible apply newPages_kept
    | fail_if_no_progress with_reducible apply kept_upd | fail_if_no_progress with_reducible apply kept1_mkfst
    | (with_reducible apply kept1_mk; fail_if_success with_reducible apply kept1_fst)
    | fail_if_no_progress with_reducible apply kept2_mksnd
    | (with_reducible apply kept2_mk; fail_if_success with_reducible apply kept2_snd)
    | (with_reducible apply kept3_mk; fail_if_success with_reducible apply kept3_snd)
    | (with_reducible apply kept4_mk; fail_if_success with_reducible apply kept4_snd) | with_reducible apply keptOpt_some
    | with_reducible apply keptOpt_none | with_reducible apply keptOpt_map | with_reducible apply keptOpt_pure
    | with_reducible apply keptOpt_bind | with_reducible apply keptOpt_bindO | with_reducible apply kept1_fst
    | with_reducible apply kept4_snd | with_reducible apply kept3_snd | with_reducible apply kept2_snd

theorem resolveRec_kept (m : Model) (s : State) (r : Rec) (h0 : Kept wq s) :
    Kept1 wq (resolveRec m s r) := by
  unfold resolveRec
  repeat' first
    | with_reducible assumption | with_reducible intro _ | with_reducible apply voidRec_kept | with_reducible apply kept_ite
    | with_reducible apply kept1_ite | fail_if_no_progress with_reducible apply kept_upd
    | fail_if_no_progress with_reducible apply kept1_mkfst
    | (with_reducible apply kept1_mk; fail_if_success with_reducible apply kept1_fst) | with_reducible apply kept1_fst
    | ((conv => arg 2; with_reducible whnf); split) | (with_reducible refine Kept1.elim ?_ (by with_reducible assumption))

theorem resolveRecs_kept (m : Model) : ∀ (l : List Rec) (s : State), Kept wq s → Kept1 wq (resolveRecs m l s)
  | [], _, h => h
  | r :: rs, s, h => resolveRecs_kept m rs _ (resolveRec_kept m s r h)

theorem swapGalley_kept (s : State) (p : Nat) (k : Nat) (h0 : Kept wq s) :
    Kept wq (swapGalley s p k) := by
  unfold swapGalley
  repeat' first
    | with_reducible assumption | with_reducible intro _ | with_reducible apply setFld_kept
    | with_reducible apply setSlice_kept | with_reducible apply dispatch_kept | with_reducible apply resolveRecs_kept
    | with_reducible apply showBuilding_kept | with_reducible apply kept_ite | with_reducible apply kept1_ite
    | fail_if_no_progress with_reducible apply kept_upd | fail_if_no_progress with_reducible apply kept1_mkfst
    | (with_reducible apply kept1_mk; fail_if_success with_reducible apply kept1_fst) | with_reducible apply kept1_fst
    | ((conv => arg 2; with_reducible whnf); split) | (with_reducible refine Kept1.elim ?_ (by with_reducible assumption))

theorem consume_kept (s : State) (i : Nat) (n : Nat) (h0 : Kept wq s) :
    Kept wq (consume s i n) := by
  unfold consume
  repeat' first
    | with_reducible assumption | with_reducible apply setSes_kept | with_reducible apply freeFrames_kept
    | fail_if_no_progress with_reducible apply kept_upd | ((conv => arg 2; with_reducible whnf); split)

theorem trimPages_kept (s : State) (m : Option Model) (i : Nat) (r : Rec) (h0 : Kept wq s) :
    Kept wq (trimPages s m i r) := by
  unfold trimPages
  repeat' first
    | with_reducible assumption | with_reducible intro _ | with_reducible apply dropEntries_kept
    | ((conv => arg 2; with_reducible whnf); split)

theorem endRun_kept (s : State) (i : Nat) (reason : Nat) (stop : Nat) (h0 : Kept wq s) :
    Kept wq (endRun s i reason stop) := by
  unfold endRun
  repeat' first
    | with_reducible assumption | with_reducible intro _ | with_reducible apply flushText_kept
    | with_reducible apply sendFinal_kept | with_reducible apply toWaiting_kept | with_reducible apply kept_ite
    | ((conv => arg 2; with_reducible whnf); split)

theorem commitTokens_kept (s : State) (m : Option Model) (i : Nat) (r : Rec) (ts : List Nat) (adv : Bool) (h0 : Kept wq s) :
    Kept wq (commitTokens s m i r ts adv) := by
  unfold commitTokens
  repeat' first
    | with_reducible assumption | with_reducible intro _ | with_reducible apply setSes_kept
    | with_reducible apply budgetReturn_kept | with_reducible apply endRun_kept | with_reducible apply releaseBytes_kept
    | with_reducible apply sendData_kept | with_reducible apply kept_ite | fail_if_no_progress with_reducible apply kept_upd
    | ((conv => arg 2; with_reducible whnf); split)

theorem afterDrafts_kept (s : State) (n : Nat) (r : Rec) (h0 : Kept wq s) :
    Kept wq (afterDrafts s n r) := by
  unfold afterDrafts
  repeat' first
    | with_reducible assumption | with_reducible intro _ | with_reducible apply setSlot_kept | with_reducible apply kept_ite
    | fail_if_no_progress with_reducible apply kept_upd | ((conv => arg 2; with_reducible whnf); split)

theorem discardRec_kept (s : State) (r : Rec) (h0 : Kept wq s) :
    Kept wq (discardRec s r) := by
  unfold discardRec
  repeat' first
    | with_reducible assumption | with_reducible apply abandonRec_kept | fail_if_no_progress with_reducible apply kept_upd

theorem commitRec_kept (s : State) (m : Option Model) (r : Rec) (h0 : Kept wq s) :
    Kept wq (commitRec s m r) := by
  unfold commitRec
  repeat' first
    | with_reducible assumption | with_reducible intro _ | with_reducible apply incSat_kept
    | with_reducible apply setSes_kept | with_reducible apply afterDrafts_kept | with_reducible apply commitTokens_kept
    | with_reducible apply consume_kept | with_reducible apply discardRec_kept | with_reducible apply holdSession_kept
    | with_reducible apply prefillDone_kept | with_reducible apply returnReserve_kept
    | with_reducible apply sesNoticeFree_kept | with_reducible apply trimPages_kept | with_reducible apply kept_ite
    | ((conv => arg 2; with_reducible whnf); split)

theorem commitGalley_kept (s : State) (p : Nat) (k : Nat) (h0 : Kept wq s) :
    Kept wq (commitGalley s p k) := by
  unfold commitGalley
  repeat' first
    | with_reducible assumption | with_reducible intro _ | with_reducible apply incSat_kept
    | with_reducible apply setFld_kept | with_reducible apply setSlice_kept | with_reducible apply afterStep_kept
    | with_reducible apply commitRec_kept | with_reducible apply endGalley_kept | with_reducible apply kept_ite
    | fail_if_no_progress with_reducible apply kept_upd | with_reducible apply kept_foldl | with_reducible apply kept1_foldl
    | ((conv => arg 2; with_reducible whnf); split)

theorem contractMissed_kept (s : State) (p : Nat) (k : Nat) (h0 : Kept wq s) :
    Kept wq (contractMissed s p k) := by
  unfold contractMissed
  repeat' first
    | with_reducible assumption | with_reducible intro _ | with_reducible apply incSat_kept
    | with_reducible apply setSlice_kept | with_reducible apply fault_kept | with_reducible apply kept_ite
    | fail_if_no_progress with_reducible apply kept_upd | ((conv => arg 2; with_reducible whnf); split)

theorem watchdog_kept (s : State) (p : Nat) (k : Nat) (h0 : Kept wq s) :
    Kept wq (watchdog s p k) := by
  unfold watchdog
  repeat' first
    | with_reducible assumption | with_reducible intro _ | with_reducible apply abandonGalley_kept
    | with_reducible apply fault_kept | with_reducible apply kept_ite | ((conv => arg 2; with_reducible whnf); split)

theorem showLayout_kept (s : State) (n : Nat) (m : Option Model) (h0 : Kept wq s) :
    Kept wq (showLayout s n m) := by
  unfold showLayout
  repeat' first
    | with_reducible assumption | with_reducible intro _ | with_reducible apply setFld_kept | with_reducible apply kept_ite
    | ((conv => arg 2; with_reducible whnf); split)

theorem loadBody_kept (src : Src) (slot : Nat) (source : Nat) (addr : Word) (s : State) (h0 : Kept wq s) :
    Kept1 wq (loadBody src slot source addr s) := by
  unfold loadBody
  repeat' first
    | with_reducible assumption | with_reducible intro _ | with_reducible apply refreshErr_kept
    | with_reducible apply showLayout_kept | with_reducible apply kept_ite | with_reducible apply kept1_ite
    | fail_if_no_progress with_reducible apply kept_upd | fail_if_no_progress with_reducible apply kept1_mkfst
    | (with_reducible apply kept1_mk; fail_if_success with_reducible apply kept1_fst)
    | ((conv => arg 2; with_reducible whnf); split)

theorem unloadBody_kept (src : Src) (slot : Nat) (s : State) (h0 : Kept wq s) :
    Kept1 wq (unloadBody src slot s) := by
  unfold unloadBody
  repeat' first
    | with_reducible assumption | with_reducible intro _ | with_reducible apply refreshErr_kept
    | with_reducible apply showLayout_kept | with_reducible apply kept_ite | with_reducible apply kept1_ite
    | fail_if_no_progress with_reducible apply kept_upd | fail_if_no_progress with_reducible apply kept1_mkfst
    | (with_reducible apply kept1_mk; fail_if_success with_reducible apply kept1_fst)
    | ((conv => arg 2; with_reducible whnf); split)

theorem draftBody_kept (src : Src) (base : Nat) (count : Nat) (addr : Word) (i : Nat) (e : Session) (s : State) (h0 : Kept wq s) :
    Kept1 wq (draftBody src base count addr i e s) := by
  unfold draftBody
  repeat' first
    | with_reducible assumption | with_reducible intro _ | with_reducible apply setSlot_kept | with_reducible apply kept_ite
    | with_reducible apply kept1_ite | fail_if_no_progress with_reducible apply kept1_mkfst
    | (with_reducible apply kept1_mk; fail_if_success with_reducible apply kept1_fst)
    | ((conv => arg 2; with_reducible whnf); split)

theorem fullSave_kept (base : Nat) (s : State) (x : Nat × Nat) (h0 : Kept wq s) :
    Kept wq (fullSave base s x) := by
  unfold fullSave
  repeat' first
    | with_reducible assumption | with_reducible intro _ | with_reducible apply setCell_kept
    | with_reducible apply withdrawWait_kept | with_reducible apply kept_ite
    | fail_if_no_progress with_reducible apply kept_upd | fail_if_no_progress with_reducible apply kept_updOverlay
    | ((conv => arg 2; with_reducible whnf); split)

theorem fullLoad_kept (p : Nat) (base : Nat) (s : State) (x : Nat × Nat) (h0 : Kept wq s) :
    Kept wq (fullLoad p base s x) := by
  unfold fullLoad
  repeat' first
    | with_reducible assumption | with_reducible intro _ | with_reducible apply setCell_kept | with_reducible apply kept_ite
    | fail_if_no_progress with_reducible apply kept_upd | ((conv => arg 2; with_reducible whnf); split)

theorem preemptBody_kept (src : Src) (p : Nat) (addr : Word) (s : State) (h0 : Kept wq s) :
    Kept1 wq (preemptBody src p addr s) := by
  unfold preemptBody
  repeat' first
    | with_reducible assumption | with_reducible intro _ | with_reducible apply draw_kept | with_reducible apply setFld_kept
    | with_reducible apply fullSave_kept | with_reducible apply kept_ite | with_reducible apply kept1_ite
    | with_reducible apply kept_foldl | with_reducible apply kept1_foldl
    | fail_if_no_progress with_reducible apply kept1_mkfst
    | (with_reducible apply kept1_mk; fail_if_success with_reducible apply kept1_fst)
    | fail_if_no_progress with_reducible apply kept2_mksnd
    | (with_reducible apply kept2_mk; fail_if_success with_reducible apply kept2_snd)
    | (with_reducible apply kept3_mk; fail_if_success with_reducible apply kept3_snd)
    | (with_reducible apply kept4_mk; fail_if_success with_reducible apply kept4_snd) | with_reducible apply kept1_fst
    | with_reducible apply kept4_snd | with_reducible apply kept3_snd | with_reducible apply kept2_snd
    | ((conv => arg 2; with_reducible whnf); split)

theorem resumeBody_kept (src : Src) (p : Nat) (addr : Word) (s : State) (h0 : Kept wq s) :
    Kept1 wq (resumeBody src p addr s) := by
  unfold resumeBody
  repeat' first
    | with_reducible assumption | with_reducible intro _ | with_reducible apply setFld_kept
    | with_reducible apply dispatch_kept | with_reducible apply fullLoad_kept | with_reducible apply kept_ite
    | with_reducible apply kept1_ite | with_reducible apply kept_foldl | with_reducible apply kept1_foldl
    | fail_if_no_progress with_reducible apply kept1_mkfst
    | (with_reducible apply kept1_mk; fail_if_success with_reducible apply kept1_fst)
    | ((conv => arg 2; with_reducible whnf); split)

/-! ### Tokens -/

theorem showHubs_kept (s : State) (h0 : Kept wq s) :
    Kept wq (showHubs s) := by
  unfold showHubs
  repeat' first
    | with_reducible assumption | with_reducible intro _ | with_reducible apply setFld_kept | with_reducible apply kept_ite
    | with_reducible apply kept_foldl | with_reducible apply kept1_foldl | ((conv => arg 2; with_reducible whnf); split)

theorem vloadBody_kept (src : Src) (slot : Nat) (addr : Word) (s : State) (h0 : Kept wq s) :
    Kept1 wq (vloadBody src slot addr s) := by
  unfold vloadBody
  repeat' first
    | with_reducible assumption | with_reducible intro _ | with_reducible apply setFld_kept | with_reducible apply kept_ite
    | with_reducible apply kept1_ite | fail_if_no_progress with_reducible apply kept_upd
    | fail_if_no_progress with_reducible apply kept1_mkfst
    | (with_reducible apply kept1_mk; fail_if_success with_reducible apply kept1_fst)
    | ((conv => arg 2; with_reducible whnf); split)

theorem gloadBody_kept (src : Src) (slot : Nat) (addr : Word) (s : State) (h0 : Kept wq s) :
    Kept1 wq (gloadBody src slot addr s) := by
  unfold gloadBody
  repeat' first
    | with_reducible assumption | with_reducible intro _ | with_reducible apply setFld_kept | with_reducible apply kept_ite
    | with_reducible apply kept1_ite | fail_if_no_progress with_reducible apply kept_upd
    | fail_if_no_progress with_reducible apply kept1_mkfst
    | (with_reducible apply kept1_mk; fail_if_success with_reducible apply kept1_fst)
    | ((conv => arg 2; with_reducible whnf); split)

theorem unloadVocab_kept (s : State) (slot : Nat) (h0 : Kept wq s) :
    Kept1 wq (unloadVocab s slot) := by
  unfold unloadVocab
  repeat' first
    | with_reducible assumption | with_reducible intro _ | with_reducible apply setFld_kept | with_reducible apply kept_ite
    | with_reducible apply kept1_ite | fail_if_no_progress with_reducible apply kept_upd
    | fail_if_no_progress with_reducible apply kept1_mkfst
    | (with_reducible apply kept1_mk; fail_if_success with_reducible apply kept1_fst)
    | ((conv => arg 2; with_reducible whnf); split)

theorem unloadGrammar_kept (s : State) (slot : Nat) (h0 : Kept wq s) :
    Kept1 wq (unloadGrammar s slot) := by
  unfold unloadGrammar
  repeat' first
    | with_reducible assumption | with_reducible intro _ | with_reducible apply setFld_kept | with_reducible apply kept_ite
    | with_reducible apply kept1_ite | fail_if_no_progress with_reducible apply kept_upd
    | fail_if_no_progress with_reducible apply kept1_mkfst
    | (with_reducible apply kept1_mk; fail_if_success with_reducible apply kept1_fst)
    | ((conv => arg 2; with_reducible whnf); split)

theorem encodeBody_kept (src : Src) (vocab : Nat) (n : Nat) (source : Word) (dest : Word) (s : State) (h0 : Kept wq s) :
    Kept1 wq (encodeBody src vocab n source dest s) := by
  unfold encodeBody
  repeat' first
    | with_reducible assumption | with_reducible intro _ | with_reducible apply itemWrite_kept
    | with_reducible apply kept_ite | with_reducible apply kept1_ite | fail_if_no_progress with_reducible apply kept1_mkfst
    | (with_reducible apply kept1_mk; fail_if_success with_reducible apply kept1_fst)
    | ((conv => arg 2; with_reducible whnf); split) | (with_reducible refine KeptEx.elim ?_ (by with_reducible assumption))

theorem setRec_kept (s : State) (sl : Nat) (i : Nat) (r : Rec) (h0 : Kept wq s) :
    Kept wq (setRec s sl i r) := by
  unfold setRec
  repeat' first
    | with_reducible assumption | with_reducible apply setSlice_kept | fail_if_no_progress with_reducible apply kept_upd
    | ((conv => arg 2; with_reducible whnf); split)

theorem badSegment_kept (s : State) (sl : Nat) (i : Nat) (h0 : Kept wq s) :
    Kept wq (badSegment s sl i) := by
  unfold badSegment
  repeat' first
    | with_reducible assumption | with_reducible intro _ | with_reducible apply fault_kept
    | with_reducible apply setRec_kept | with_reducible apply kept_ite | fail_if_no_progress with_reducible apply kept_upd
    | ((conv => arg 2; with_reducible whnf); split)

theorem segmentIn_kept (s : State) (sl : Nat) (i : Nat) (offset : Nat) (first : Nat) (ls : List (BitVec 32)) (h0 : Kept wq s) :
    Kept wq (segmentIn s sl i offset first ls) := by
  unfold segmentIn
  repeat' first
    | with_reducible assumption | with_reducible intro _ | with_reducible apply badSegment_kept
    | with_reducible apply setRec_kept | with_reducible apply kept_ite | fail_if_no_progress with_reducible apply kept_upd
    | ((conv => arg 2; with_reducible whnf); split)

theorem arrive_kept (s : State) (x : Nat × Nat × Nat × Nat × List (BitVec 32)) (h0 : Kept wq s) :
    Kept wq (arrive s x) := by
  unfold arrive
  repeat' first
    | with_reducible assumption | fail_if_no_progress with_reducible apply kept_upd

theorem drawn_kept (s : State) (v : Vocab) (d : Draw) (h : Kept wq s) : Kept1 wq (drawn s v d) := by
  unfold drawn
  split
  all_goals first
    | exact h
    | exact draw_kept s h
    | exact incSat_kept _ _ _ h

theorem samplePosition_kept (s : State) (sl : Nat) (i : Nat) (offset : Nat) (h0 : Kept wq s) :
    Kept wq (samplePosition s sl i offset) := by
  unfold samplePosition
  repeat' first
    | with_reducible assumption | with_reducible intro _ | with_reducible apply drawn_kept
    | with_reducible apply setRec_kept | with_reducible apply kept_ite | with_reducible apply kept1_ite
    | fail_if_no_progress with_reducible apply kept_upd | fail_if_no_progress with_reducible apply kept1_mkfst
    | (with_reducible apply kept1_mk; fail_if_success with_reducible apply kept1_fst) | with_reducible apply kept1_fst
    | ((conv => arg 2; with_reducible whnf); split) | (with_reducible refine Kept1.elim ?_ (by with_reducible assumption))
    | (with_reducible refine KeptOpt.elim ?_ (by with_reducible assumption))
    | (with_reducible refine KeptOpt.elim1 ?_ (by with_reducible assumption))
    | (with_reducible refine KeptOpt.elim2 ?_ (by with_reducible assumption))
    | (with_reducible refine KeptOpt.elim3 ?_ (by with_reducible assumption))
    | (with_reducible refine KeptOpt.elim4 ?_ (by with_reducible assumption))

/-! ### Banks -/

theorem setBank_kept (s : State) (b : Nat) (x : Bank) (h0 : Kept wq s) :
    Kept wq (State.setBank s b x) := by
  unfold State.setBank
  repeat' first
    | with_reducible assumption | fail_if_no_progress with_reducible apply kept_upd

theorem showValid_kept (s : State) (b : Nat) (h0 : Kept wq s) :
    Kept wq (showValid s b) := by
  unfold showValid
  repeat' first
    | with_reducible assumption | with_reducible apply setFld_kept

theorem invalidate_kept (s : State) (b : Nat) (w1 : Nat) (w2 : Nat) (h0 : Kept wq s) :
    Kept wq (invalidate s b w1 w2) := by
  unfold invalidate
  repeat' first
    | with_reducible assumption | with_reducible apply setBank_kept | with_reducible apply setFld_kept

theorem camCfgBody_kept (src : Src) (b : Nat) (width : Nat) (keyBytes : Nat) (verify : Bool) (s : State) (h0 : Kept wq s) :
    Kept1 wq (camCfgBody src b width keyBytes verify s) := by
  unfold camCfgBody
  repeat' first
    | with_reducible assumption | with_reducible intro _ | with_reducible apply setFld_kept
    | with_reducible apply invalidate_kept | with_reducible apply kept_ite | with_reducible apply kept1_ite
    | fail_if_no_progress with_reducible apply kept1_mkfst
    | (with_reducible apply kept1_mk; fail_if_success with_reducible apply kept1_fst)
    | ((conv => arg 2; with_reducible whnf); split)

theorem storeEntry_kept (s : State) (b : Nat) (e : Nat) (bs : List Byte) (h0 : Kept wq s) :
    Kept wq (storeEntry s b e bs) := by
  unfold storeEntry
  repeat' first
    | with_reducible assumption | with_reducible apply setBank_kept | with_reducible apply showValid_kept

theorem camWriteBody_kept (src : Src) (b : Nat) (e : Nat) (clear : Bool) (addr : Word) (s : State) (h0 : Kept wq s) :
    Kept1 wq (camWriteBody src b e clear addr s) := by
  unfold camWriteBody
  repeat' first
    | with_reducible assumption | with_reducible intro _ | with_reducible apply storeEntry_kept
    | with_reducible apply kept_ite | with_reducible apply kept1_ite | fail_if_no_progress with_reducible apply kept1_mkfst
    | (with_reducible apply kept1_mk; fail_if_success with_reducible apply kept1_fst)
    | ((conv => arg 2; with_reducible whnf); split)

theorem camSearch_kept (s : State) (b : Nat) (start : Nat) (key : List Byte) (mask : Nat) (h0 : Kept wq s) :
    Kept1 wq (camSearch s b start key mask) := by
  unfold camSearch
  repeat' first
    | with_reducible assumption | with_reducible intro _ | with_reducible apply incSat_kept
    | with_reducible apply setBank_kept | with_reducible apply fault_kept | with_reducible apply showValid_kept
    | with_reducible apply kept_ite | with_reducible apply kept1_ite | fail_if_no_progress with_reducible apply kept_upd
    | fail_if_no_progress with_reducible apply kept1_mkfst
    | (with_reducible apply kept1_mk; fail_if_success with_reducible apply kept1_fst)
    | ((conv => arg 2; with_reducible whnf); split)

theorem camFindBody_kept (src : Src) (b : Nat) (start : Nat) (keyAddr : Word) (mask : Word) (dataAddr : Word) (s : State) (h0 : Kept wq s) :
    Kept1 wq (camFindBody src b start keyAddr mask dataAddr s) := by
  unfold camFindBody
  repeat' first
    | with_reducible assumption | with_reducible intro _ | with_reducible apply camSearch_kept
    | with_reducible apply itemWrite_kept | with_reducible apply kept_ite | with_reducible apply kept1_ite
    | fail_if_no_progress with_reducible apply kept1_mkfst
    | (with_reducible apply kept1_mk; fail_if_success with_reducible apply kept1_fst) | with_reducible apply kept1_fst
    | ((conv => arg 2; with_reducible whnf); split) | (with_reducible refine Kept1.elim ?_ (by with_reducible assumption))
    | (with_reducible refine KeptEx.elim ?_ (by with_reducible assumption))

theorem camReadBody_kept (src : Src) (b : Nat) (e : Nat) (dest : Word) (s : State) (h0 : Kept wq s) :
    Kept1 wq (camReadBody src b e dest s) := by
  unfold camReadBody
  repeat' first
    | with_reducible assumption | with_reducible intro _ | with_reducible apply itemWrite_kept
    | with_reducible apply kept_ite | with_reducible apply kept1_ite | fail_if_no_progress with_reducible apply kept1_mkfst
    | (with_reducible apply kept1_mk; fail_if_success with_reducible apply kept1_fst)
    | ((conv => arg 2; with_reducible whnf); split) | (with_reducible refine KeptEx.elim ?_ (by with_reducible assumption))

theorem camScrub_kept (s : State) (b : Nat) (h0 : Kept wq s) :
    Kept wq (camScrub s b) := by
  unfold camScrub
  repeat' first
    | with_reducible assumption | with_reducible intro _ | with_reducible apply incSat_kept
    | with_reducible apply setBank_kept | with_reducible apply showValid_kept | with_reducible apply kept_ite
    | fail_if_no_progress with_reducible apply kept_upd | ((conv => arg 2; with_reducible whnf); split)

end Sys2Proof.Machine
end

