-- ==== Sys2Proof/Laws/KeptCells.lean ====
section
/-! SUPPORT. Each operation of cells, DMA and synchronisation keeps the queue and the canonical form. -/

namespace Sys2Proof.Machine

variable {wq : List Instr}

/-! ### CellCore -/

/-- The state of a result, and `Kept` of it. -/
def CellOut.st : CellOut → State
  | .ok s _ => s
  | .jump s _ _ => s
  | .exc s _ _ => s
  | .wait s _ => s
/-- The state of a result, and `Kept` of it. -/
def KeptC (wq : List Instr) (o : CellOut) : Prop := Kept wq o.st
theorem keptC_ok {s c} (h : Kept wq s) : KeptC wq (.ok s c) := h
theorem keptC_jump {s c n} (h : Kept wq s) : KeptC wq (.jump s c n) := h
theorem keptC_exc {s c n} (h : Kept wq s) : KeptC wq (.exc s c n) := h
theorem keptC_wait {s c} (h : Kept wq s) : KeptC wq (.wait s c) := h
theorem keptC_ite {c : Prop} [Decidable c] {x y} (h1 : c → KeptC wq x) (h2 : ¬ c → KeptC wq y) : KeptC wq (if c then x else y) := by
  split
  · exact h1 ‹_›
  · exact h2 ‹_›

theorem takeException_kept (s : State) (n : Nat) (c : Cell) (code : Nat) (h0 : Kept wq s) :
    Kept wq (takeException s n c code) := by
  unfold takeException
  repeat' first
    | with_reducible assumption | with_reducible intro _ | with_reducible apply setCell_kept
    | with_reducible apply abandonGalley_kept | with_reducible apply fault_kept | with_reducible apply kept_ite
    | fail_if_no_progress with_reducible apply kept_upd | ((conv => arg 2; with_reducible whnf); split)

theorem finishCell_kept (n pc ext : Nat) (o : CellOut) (h : KeptC wq o) : Kept wq (finishCell n pc ext o) := by
  cases o with
  | ok s c => exact setCell_kept _ _ _ h
  | jump s c t => exact setCell_kept _ _ _ h
  | exc s c e => exact takeException_kept _ _ _ _ h
  | wait s c => exact setCell_kept _ _ _ h

theorem cellItem_kept (x : CellItem) (ext : Nat) (body : State → Cell → CellOut) (s : State)
    (hb : ∀ t c, Kept wq t → KeptC wq (body t c)) (h : Kept wq s) : KeptOut wq (cellItem x ext body s) := by
  unfold cellItem
  dsimp only
  split
  · exact keptO_fault
  · split
    · exact keptO_next h
    · split
      · exact keptO_next (finishCell_kept _ _ _ _ (hb _ _ h))
      · exact keptO_next (takeException_kept _ _ _ _ h)

theorem memError_kept (s : State) (n : Nat) (a : Nat) (h0 : Kept wq s) :
    Kept wq (memError s n a) := by
  unfold memError
  repeat' first
    | with_reducible assumption | with_reducible apply incSat_kept | with_reducible apply fault_kept

theorem memCorrected_kept (s : State) (n : Nat) (a : Nat) (k : Nat) (h0 : Kept wq s) :
    Kept wq (memCorrected s n a k) := by
  unfold memCorrected
  repeat' first
    | with_reducible assumption | with_reducible intro _ | with_reducible apply incSat_kept
    | with_reducible apply fault_kept | with_reducible apply kept_ite | ((conv => arg 2; with_reducible whnf); split)

theorem cellLoad_kept (s : State) (n : Nat) (c : Cell) (a len align : Nat) (k : State → List Byte → CellOut)
    (hk : ∀ t bs, Kept wq t → KeptC wq (k t bs)) (h : Kept wq s) : KeptC wq (cellLoad s n c a len align k) := by
  unfold cellLoad
  dsimp only
  split
  · exact h
  · split
    · exact h
    · split
      · exact memError_kept _ _ _ h
      · exact hk _ _ (memCorrected_kept _ _ _ _ h)

theorem cellStore_kept (s : State) (c : Cell) (a : Nat) (align : Nat) (bs : List Byte) (h0 : Kept wq s) :
    KeptC wq (cellStore s c a align bs) := by
  unfold cellStore
  repeat' first
    | with_reducible assumption | with_reducible intro _ | with_reducible apply kept_ite | with_reducible apply keptC_ite
    | with_reducible apply keptC_ok | with_reducible apply keptC_jump | with_reducible apply keptC_exc
    | with_reducible apply keptC_wait | ((conv => arg 2; with_reducible whnf); split)

theorem regItem_kept (x : CellItem) (ext : Nat) (f : Cell → Cell) (s : State) (h0 : Kept wq s) :
    KeptOut wq (regItem x ext f s) := by
  unfold regItem
  repeat' first
    | with_reducible assumption | with_reducible intro _ | with_reducible apply cellItem_kept
    | with_reducible apply keptO_ite | with_reducible apply keptO_next | with_reducible apply keptO_fault
    | with_reducible apply keptC_ok | with_reducible apply keptC_jump | with_reducible apply keptC_exc
    | with_reducible apply keptC_wait

theorem checkedItem_kept (x : CellItem) (ext : Nat) (f : Cell → Option Cell) (s : State) (h0 : Kept wq s) :
    KeptOut wq (checkedItem x ext f s) := by
  unfold checkedItem
  repeat' first
    | with_reducible assumption | with_reducible intro _ | with_reducible apply cellItem_kept
    | with_reducible apply keptO_ite | with_reducible apply keptO_next | with_reducible apply keptO_fault
    | (with_reducible refine KeptOut.elim ?_ (by with_reducible assumption)) | with_reducible apply keptC_ok
    | with_reducible apply keptC_jump | with_reducible apply keptC_exc | with_reducible apply keptC_wait
    | ((conv => arg 2; with_reducible whnf); split)

/-! ### CellScalar -/

theorem scalarItem_kept (x : CellItem) (op : Word → Word → Word) (s : State) (h0 : Kept wq s) :
    KeptOut wq (scalarItem x op s) := by
  unfold scalarItem
  repeat' first
    | with_reducible assumption | with_reducible intro _ | with_reducible apply regItem_kept
    | with_reducible apply keptO_ite | with_reducible apply keptO_next | with_reducible apply keptO_fault
    | with_reducible apply keptC_ok | with_reducible apply keptC_jump | with_reducible apply keptC_exc
    | with_reducible apply keptC_wait

theorem ldBody_kept (x : CellItem) (s : State) (c : Cell) (h0 : Kept wq s) :
    KeptC wq (ldBody x s c) := by
  unfold ldBody
  repeat' first
    | with_reducible assumption | with_reducible intro _ | with_reducible apply cellLoad_kept
    | with_reducible apply keptC_ok | with_reducible apply keptC_jump | with_reducible apply keptC_exc
    | with_reducible apply keptC_wait | ((conv => arg 2; with_reducible whnf); split)

theorem stBody_kept (x : CellItem) (s : State) (c : Cell) (h0 : Kept wq s) :
    KeptC wq (stBody x s c) := by
  unfold stBody
  repeat' first
    | with_reducible assumption | with_reducible apply cellStore_kept | with_reducible apply keptC_ok
    | with_reducible apply keptC_jump | with_reducible apply keptC_exc | with_reducible apply keptC_wait
    | ((conv => arg 2; with_reducible whnf); split)

theorem bcBody_kept (x : CellItem) (s : State) (c : Cell) (h0 : Kept wq s) :
    KeptC wq (bcBody x s c) := by
  unfold bcBody
  repeat' first
    | with_reducible assumption | with_reducible intro _ | with_reducible apply draw_kept | with_reducible apply kept_ite
    | with_reducible apply kept1_ite | with_reducible apply keptC_ite | fail_if_no_progress with_reducible apply kept1_mkfst
    | (with_reducible apply kept1_mk; fail_if_success with_reducible apply kept1_fst)
    | fail_if_no_progress with_reducible apply kept2_mksnd
    | (with_reducible apply kept2_mk; fail_if_success with_reducible apply kept2_snd)
    | (with_reducible apply kept3_mk; fail_if_success with_reducible apply kept3_snd)
    | (with_reducible apply kept4_mk; fail_if_success with_reducible apply kept4_snd) | with_reducible apply keptC_ok
    | with_reducible apply keptC_jump | with_reducible apply keptC_exc | with_reducible apply keptC_wait
    | with_reducible apply kept1_fst | with_reducible apply kept4_snd | with_reducible apply kept3_snd
    | with_reducible apply kept2_snd | ((conv => arg 2; with_reducible whnf); split)

theorem galRecBody_kept (x : CellItem) (s : State) (c : Cell) (h0 : Kept wq s) :
    KeptC wq (galRecBody x s c) := by
  unfold galRecBody
  repeat' first
    | with_reducible assumption | with_reducible intro _ | with_reducible apply kept_ite | with_reducible apply keptC_ite
    | with_reducible apply kept_foldl | with_reducible apply kept1_foldl | with_reducible apply keptC_ok
    | with_reducible apply keptC_jump | with_reducible apply keptC_exc | with_reducible apply keptC_wait
    | ((conv => arg 2; with_reducible whnf); split)

theorem markDone_kept (s : State) (n : Nat) (p : Nat) (k : Nat) (h0 : Kept wq s) :
    Kept wq (markDone s n p k) := by
  unfold markDone
  repeat' first
    | with_reducible assumption | with_reducible intro _ | with_reducible apply setSlice_kept
    | with_reducible apply endGalley_kept | with_reducible apply kept_ite
    | fail_if_no_progress with_reducible apply kept_upd | ((conv => arg 2; with_reducible whnf); split)

theorem stepDoneItem_kept (x : CellItem) (s : State) (h0 : Kept wq s) :
    KeptOut wq (stepDoneItem x s) := by
  unfold stepDoneItem
  repeat' first
    | with_reducible assumption | with_reducible intro _ | with_reducible apply cellItem_kept
    | with_reducible apply markDone_kept | with_reducible apply kept_ite | with_reducible apply keptC_ite
    | fail_if_no_progress with_reducible apply kept_upd | with_reducible apply keptO_ite | with_reducible apply keptO_next
    | with_reducible apply keptO_fault | (with_reducible refine KeptOut.elim ?_ (by with_reducible assumption))
    | with_reducible apply keptC_ok | with_reducible apply keptC_jump | with_reducible apply keptC_exc
    | with_reducible apply keptC_wait | ((conv => arg 2; with_reducible whnf); split)

theorem cellDraft_kept (s : State) (c : Cell) (h : Word) (base : Nat) (count : Nat) (addr : Nat) (h0 : Kept wq s) :
    Kept3 wq (cellDraft s c h base count addr) := by
  unfold cellDraft
  repeat' first
    | with_reducible assumption | with_reducible intro _ | with_reducible apply incSat_kept
    | with_reducible apply setSlot_kept | with_reducible apply kept_ite | with_reducible apply kept1_ite
    | fail_if_no_progress with_reducible apply kept1_mkfst
    | (with_reducible apply kept1_mk; fail_if_success with_reducible apply kept1_fst)
    | fail_if_no_progress with_reducible apply kept2_mksnd
    | (with_reducible apply kept2_mk; fail_if_success with_reducible apply kept2_snd)
    | (with_reducible apply kept3_mk; fail_if_success with_reducible apply kept3_snd)
    | (with_reducible apply kept4_mk; fail_if_success with_reducible apply kept4_snd)
    | ((conv => arg 2; with_reducible whnf); split)

theorem dftBody_kept (x : CellItem) (s : State) (c : Cell) (h0 : Kept wq s) :
    KeptC wq (dftBody x s c) := by
  unfold dftBody
  repeat' first
    | with_reducible assumption | with_reducible apply cellDraft_kept | fail_if_no_progress with_reducible apply kept1_mkfst
    | (with_reducible apply kept1_mk; fail_if_success with_reducible apply kept1_fst)
    | fail_if_no_progress with_reducible apply kept2_mksnd
    | (with_reducible apply kept2_mk; fail_if_success with_reducible apply kept2_snd)
    | (with_reducible apply kept3_mk; fail_if_success with_reducible apply kept3_snd)
    | (with_reducible apply kept4_mk; fail_if_success with_reducible apply kept4_snd) | with_reducible apply keptC_ok
    | with_reducible apply keptC_jump | with_reducible apply keptC_exc | with_reducible apply keptC_wait
    | with_reducible apply kept1_fst | with_reducible apply kept4_snd | with_reducible apply kept3_snd
    | with_reducible apply kept2_snd

/-! ### CellVector -/

theorem vldBody_kept (x : CellItem) (s : State) (c : Cell) (h0 : Kept wq s) :
    KeptC wq (vldBody x s c) := by
  unfold vldBody
  repeat' first
    | with_reducible assumption | with_reducible intro _ | with_reducible apply cellLoad_kept
    | with_reducible apply keptC_ok | with_reducible apply keptC_jump | with_reducible apply keptC_exc
    | with_reducible apply keptC_wait

theorem vstBody_kept (x : CellItem) (s : State) (c : Cell) (h0 : Kept wq s) :
    KeptC wq (vstBody x s c) := by
  unfold vstBody
  repeat' first
    | with_reducible assumption | with_reducible intro _ | with_reducible apply kept_ite | with_reducible apply keptC_ite
    | with_reducible apply kept_foldl | with_reducible apply kept1_foldl | with_reducible apply keptC_ok
    | with_reducible apply keptC_jump | with_reducible apply keptC_exc | with_reducible apply keptC_wait
    | ((conv => arg 2; with_reducible whnf); split)

theorem arithItem_kept (x : CellItem) (fop : Fmt → RMode → Nat → Nat → FRes) (iop : Int → Int → Int) (s : State) (h0 : Kept wq s) :
    KeptOut wq (arithItem x fop iop s) := by
  unfold arithItem
  repeat' first
    | with_reducible assumption | with_reducible intro _ | with_reducible apply checkedItem_kept
    | with_reducible apply keptO_ite | with_reducible apply keptO_next | with_reducible apply keptO_fault
    | (with_reducible refine KeptOut.elim ?_ (by with_reducible assumption)) | with_reducible apply keptC_ok
    | with_reducible apply keptC_jump | with_reducible apply keptC_exc | with_reducible apply keptC_wait
    | ((conv => arg 2; with_reducible whnf); split)

theorem bitItem_kept (x : CellItem) (op : BitVec 32 → BitVec 32 → BitVec 32) (s : State) (h0 : Kept wq s) :
    KeptOut wq (bitItem x op s) := by
  unfold bitItem
  repeat' first
    | with_reducible assumption | with_reducible intro _ | with_reducible apply checkedItem_kept
    | with_reducible apply kept_ite | with_reducible apply keptO_ite | with_reducible apply keptO_next
    | with_reducible apply keptO_fault | with_reducible apply keptC_ok | with_reducible apply keptC_jump
    | with_reducible apply keptC_exc | with_reducible apply keptC_wait | ((conv => arg 2; with_reducible whnf); split)

theorem vshiftItem_kept (x : CellItem) (op : Int → Nat → Int) (s : State) (h0 : Kept wq s) :
    KeptOut wq (vshiftItem x op s) := by
  unfold vshiftItem
  repeat' first
    | with_reducible assumption | with_reducible intro _ | with_reducible apply checkedItem_kept
    | with_reducible apply keptO_ite | with_reducible apply keptO_next | with_reducible apply keptO_fault
    | with_reducible apply keptC_ok | with_reducible apply keptC_jump | with_reducible apply keptC_exc
    | with_reducible apply keptC_wait

theorem vcvtBody_kept (x : CellItem) (s : State) (c : Cell) (h0 : Kept wq s) :
    KeptC wq (vcvtBody x s c) := by
  unfold vcvtBody
  repeat' first
    | with_reducible assumption | with_reducible intro _ | with_reducible apply kept_ite | with_reducible apply keptC_ite
    | fail_if_no_progress with_reducible apply kept_upd | with_reducible apply keptC_ok | with_reducible apply keptC_jump
    | with_reducible apply keptC_exc | with_reducible apply keptC_wait | ((conv => arg 2; with_reducible whnf); split)

theorem vcmpBody_kept (x : CellItem) (s : State) (c : Cell) (h0 : Kept wq s) :
    KeptC wq (vcmpBody x s c) := by
  unfold vcmpBody
  repeat' first
    | with_reducible assumption | with_reducible intro _ | with_reducible apply draw_kept | with_reducible apply kept_ite
    | with_reducible apply kept1_ite | with_reducible apply keptC_ite | fail_if_no_progress with_reducible apply kept1_mkfst
    | (with_reducible apply kept1_mk; fail_if_success with_reducible apply kept1_fst)
    | fail_if_no_progress with_reducible apply kept2_mksnd
    | (with_reducible apply kept2_mk; fail_if_success with_reducible apply kept2_snd)
    | (with_reducible apply kept3_mk; fail_if_success with_reducible apply kept3_snd)
    | (with_reducible apply kept4_mk; fail_if_success with_reducible apply kept4_snd) | with_reducible apply keptC_ok
    | with_reducible apply keptC_jump | with_reducible apply keptC_exc | with_reducible apply keptC_wait
    | with_reducible apply kept1_fst | with_reducible apply kept4_snd | with_reducible apply kept3_snd
    | with_reducible apply kept2_snd | ((conv => arg 2; with_reducible whnf); split)

theorem defItem_kept (x : CellItem) (op : Fmt → RMode → Nat → FRes) (s : State) (h0 : Kept wq s) :
    KeptOut wq (defItem x op s) := by
  unfold defItem
  repeat' first
    | with_reducible assumption | with_reducible intro _ | with_reducible apply checkedItem_kept
    | with_reducible apply keptO_ite | with_reducible apply keptO_next | with_reducible apply keptO_fault
    | with_reducible apply keptC_ok | with_reducible apply keptC_jump | with_reducible apply keptC_exc
    | with_reducible apply keptC_wait

theorem laneEnd_kept (s : State) (n : Nat) (c c' : Cell) (o : Option (Nat × Nat × Nat)) (h : Kept wq s) : KeptC wq (laneEnd s n c c' o) := by
  unfold laneEnd
  split
  · exact h
  · split
    · exact memError_kept _ _ _ h
    · exact h

theorem vgthBody_kept (x : CellItem) (s : State) (c : Cell) (h0 : Kept wq s) :
    KeptC wq (vgthBody x s c) := by
  unfold vgthBody
  repeat' first
    | with_reducible assumption | with_reducible intro _ | with_reducible apply laneEnd_kept
    | with_reducible apply memCorrected_kept | with_reducible apply kept_ite | with_reducible apply kept1_ite
    | with_reducible apply keptC_ite | fail_if_no_progress with_reducible apply kept1_mkfst
    | (with_reducible apply kept1_mk; fail_if_success with_reducible apply kept1_fst) | with_reducible apply keptC_ok
    | with_reducible apply keptC_jump | with_reducible apply keptC_exc | with_reducible apply keptC_wait
    | with_reducible apply kept1_fst | ((conv => arg 2; with_reducible whnf); split)
    | (with_reducible refine Kept1.elim ?_ (by with_reducible assumption))
    | (with_reducible refine KeptOpt.elim ?_ (by with_reducible assumption))
    | (with_reducible refine KeptOpt.elim1 ?_ (by with_reducible assumption))
    | (with_reducible refine KeptOpt.elim2 ?_ (by with_reducible assumption))
    | (with_reducible refine KeptOpt.elim3 ?_ (by with_reducible assumption))
    | (with_reducible refine KeptOpt.elim4 ?_ (by with_reducible assumption))

theorem vsctBody_kept (x : CellItem) (s : State) (c : Cell) (h0 : Kept wq s) :
    KeptC wq (vsctBody x s c) := by
  unfold vsctBody
  repeat' first
    | with_reducible assumption | with_reducible intro _ | with_reducible apply laneEnd_kept | with_reducible apply kept_ite
    | with_reducible apply kept1_ite | with_reducible apply keptC_ite | with_reducible apply kept_foldl
    | with_reducible apply kept1_foldl | fail_if_no_progress with_reducible apply kept1_mkfst
    | (with_reducible apply kept1_mk; fail_if_success with_reducible apply kept1_fst) | with_reducible apply keptC_ok
    | with_reducible apply keptC_jump | with_reducible apply keptC_exc | with_reducible apply keptC_wait
    | with_reducible apply kept1_fst | ((conv => arg 2; with_reducible whnf); split)

/-! ### CellTensor -/

theorem tmmaBody_kept (x : CellItem) (s : State) (c : Cell) (h0 : Kept wq s) :
    KeptC wq (tmmaBody x s c) := by
  unfold tmmaBody
  repeat' first
    | with_reducible assumption | with_reducible intro _ | with_reducible apply cellLoad_kept
    | with_reducible apply kept_ite | with_reducible apply keptC_ite | fail_if_no_progress with_reducible apply kept_upd
    | with_reducible apply keptC_ok | with_reducible apply keptC_jump | with_reducible apply keptC_exc
    | with_reducible apply keptC_wait | ((conv => arg 2; with_reducible whnf); split)

theorem tldBody_kept (x : CellItem) (s : State) (c : Cell) (h0 : Kept wq s) :
    KeptC wq (tldBody x s c) := by
  unfold tldBody
  repeat' first
    | with_reducible assumption | with_reducible intro _ | with_reducible apply cellLoad_kept
    | with_reducible apply kept_ite | with_reducible apply keptC_ite | with_reducible apply keptC_ok
    | with_reducible apply keptC_jump | with_reducible apply keptC_exc | with_reducible apply keptC_wait
    | ((conv => arg 2; with_reducible whnf); split)

theorem tstBody_kept (x : CellItem) (s : State) (c : Cell) (h0 : Kept wq s) :
    KeptC wq (tstBody x s c) := by
  unfold tstBody
  repeat' first
    | with_reducible assumption | with_reducible intro _ | with_reducible apply cellStore_kept
    | with_reducible apply kept_ite | with_reducible apply keptC_ite | with_reducible apply keptC_ok
    | with_reducible apply keptC_jump | with_reducible apply keptC_exc | with_reducible apply keptC_wait
    | ((conv => arg 2; with_reducible whnf); split)

theorem tmxBody_kept (x : CellItem) (s : State) (c : Cell) (h0 : Kept wq s) :
    KeptC wq (tmxBody x s c) := by
  unfold tmxBody
  repeat' first
    | with_reducible assumption | with_reducible intro _ | with_reducible apply kept_ite | with_reducible apply keptC_ite
    | with_reducible apply kept_foldl | with_reducible apply kept1_foldl | with_reducible apply keptC_ok
    | with_reducible apply keptC_jump | with_reducible apply keptC_exc | with_reducible apply keptC_wait
    | ((conv => arg 2; with_reducible whnf); split)

theorem wcvtBody_kept (x : CellItem) (s : State) (c : Cell) (h0 : Kept wq s) :
    KeptC wq (wcvtBody x s c) := by
  unfold wcvtBody
  repeat' first
    | with_reducible assumption | with_reducible intro _ | with_reducible apply kept_ite | with_reducible apply keptC_ite
    | fail_if_no_progress with_reducible apply kept_upd | with_reducible apply keptC_ok | with_reducible apply keptC_jump
    | with_reducible apply keptC_exc | with_reducible apply keptC_wait | ((conv => arg 2; with_reducible whnf); split)

theorem staleMessage_kept (s : State) (source : Nat) (stale : Nat) (h0 : Kept wq s) :
    Kept wq (staleMessage s source stale) := by
  unfold staleMessage
  repeat' first
    | with_reducible assumption | with_reducible apply incSat_kept | with_reducible apply fault_kept

theorem wmrgBody_kept (x : CellItem) (s : State) (c : Cell) (h0 : Kept wq s) :
    KeptC wq (wmrgBody x s c) := by
  unfold wmrgBody
  repeat' first
    | with_reducible assumption | with_reducible intro _ | with_reducible apply memCorrected_kept
    | with_reducible apply memError_kept | with_reducible apply staleMessage_kept | with_reducible apply kept_ite
    | with_reducible apply keptC_ite | fail_if_no_progress with_reducible apply kept_upd | with_reducible apply keptC_ok
    | with_reducible apply keptC_jump | with_reducible apply keptC_exc | with_reducible apply keptC_wait
    | ((conv => arg 2; with_reducible whnf); split)

/-! ### CellDma -/

/-- The state of a result, and `Kept` of it. -/
def KeptE (wq : List Instr) (o : ElemOut) : Prop := Kept wq o.s
theorem keptE_s {o : ElemOut} (h : KeptE wq o) : Kept wq o.s := h
theorem Kept1_fst' {α : Type} {x : State × α} (h : Kept1 wq x) : Kept wq x.1 := h

theorem qpError_kept (s : State) (q : Nat) (st : Nat) (h0 : Kept wq s) :
    Kept wq (qpError s q st) := by
  unfold qpError
  repeat' first
    | with_reducible assumption | fail_if_no_progress with_reducible apply kept_upd
    | ((conv => arg 2; with_reducible whnf); split)

theorem noMapping_kept (s : State) (c : Cell) (dev : Nat) (h0 : Kept wq s) :
    Kept wq (noMapping s c dev) := by
  unfold noMapping
  repeat' first
    | with_reducible assumption | with_reducible intro _ | with_reducible apply qpError_kept
    | ((conv => arg 2; with_reducible whnf); split)

theorem remoteWay_kept (s : State) (c : Cell) (dev : Nat) (h0 : Kept wq s) :
    Kept1 wq (remoteWay s c dev) := by
  unfold remoteWay
  repeat' first
    | with_reducible assumption | with_reducible intro _ | with_reducible apply noMapping_kept
    | with_reducible apply qpError_kept | with_reducible apply kept_ite | with_reducible apply kept1_ite
    | fail_if_no_progress with_reducible apply kept1_mkfst
    | (with_reducible apply kept1_mk; fail_if_success with_reducible apply kept1_fst)
    | ((conv => arg 2; with_reducible whnf); split)

theorem piedRange_kept (s : State) (a : Nat) (len : Nat) (h0 : Kept wq s) :
    Kept wq (piedRange s a len) := by
  unfold piedRange
  repeat' first
    | with_reducible assumption | with_reducible intro _ | with_reducible apply piedFrame_kept
    | with_reducible apply kept_foldl | with_reducible apply kept1_foldl

theorem extRead_kept (s : State) (c : Cell) (a : Word) (len : Nat) (h0 : Kept wq s) :
    Kept1 wq (extRead s c a len) := by
  unfold extRead
  repeat' first
    | with_reducible assumption | with_reducible intro _ | with_reducible apply piedRange_kept
    | with_reducible apply remoteWay_kept | with_reducible apply kept_ite | with_reducible apply kept1_ite
    | fail_if_no_progress with_reducible apply kept_upd | fail_if_no_progress with_reducible apply kept1_mkfst
    | (with_reducible apply kept1_mk; fail_if_success with_reducible apply kept1_fst) | with_reducible apply kept1_fst
    | ((conv => arg 2; with_reducible whnf); split) | (with_reducible refine Kept1.elim ?_ (by with_reducible assumption))

theorem recurWrite_kept (s : State) (c : Cell) (f : Nat) (h0 : Kept wq s) :
    Kept wq (recurWrite s c f) := by
  unfold recurWrite
  repeat' first
    | with_reducible assumption | with_reducible apply setSlice_kept | fail_if_no_progress with_reducible apply kept_upd
    | ((conv => arg 2; with_reducible whnf); split)

theorem extWrite_kept (s : State) (c : Cell) (a : Word) (bs : List Byte) (h0 : Kept wq s) :
    Kept1 wq (extWrite s c a bs) := by
  unfold extWrite
  repeat' first
    | with_reducible assumption | with_reducible intro _ | with_reducible apply setCell_kept
    | with_reducible apply hbmWrite_kept | with_reducible apply recurWrite_kept | with_reducible apply remoteWay_kept
    | with_reducible apply kept_ite | with_reducible apply kept1_ite | fail_if_no_progress with_reducible apply kept1_mkfst
    | (with_reducible apply kept1_mk; fail_if_success with_reducible apply kept1_fst) | with_reducible apply kept1_fst
    | ((conv => arg 2; with_reducible whnf); split) | (with_reducible refine Kept1.elim ?_ (by with_reducible assumption))

theorem walkPage_kept (s : State) (c : Cell) (m : Model) (d : Desc) (i : Nat) (h0 : Kept wq s) :
    Kept1 wq (walkPage s c m d i) := by
  unfold walkPage
  repeat' first
    | with_reducible assumption | with_reducible intro _ | with_reducible apply piedFrame_kept
    | with_reducible apply kept_ite | fail_if_no_progress with_reducible apply kept1_mkfst
    | (with_reducible apply kept1_mk; fail_if_success with_reducible apply kept1_fst)
    | ((conv => arg 2; with_reducible whnf); split)

theorem drawFrame_kept (s : State) (sl : Nat) (k : Nat) (kind : Nat) (near : Nat) (owner : Nat) (h0 : Kept wq s) :
    KeptOpt (Kept2 wq) (drawFrame s sl k kind near owner) := by
  unfold drawFrame
  repeat' first
    | with_reducible assumption | with_reducible intro _ | with_reducible apply allocFrame_kept
    | with_reducible apply returnReserve_kept | with_reducible apply setRec_kept | with_reducible apply kept_ite
    | with_reducible apply kept1_ite | fail_if_no_progress with_reducible apply kept_upd
    | fail_if_no_progress with_reducible apply kept1_mkfst
    | (with_reducible apply kept1_mk; fail_if_success with_reducible apply kept1_fst)
    | fail_if_no_progress with_reducible apply kept2_mksnd
    | (with_reducible apply kept2_mk; fail_if_success with_reducible apply kept2_snd)
    | (with_reducible apply kept3_mk; fail_if_success with_reducible apply kept3_snd)
    | (with_reducible apply kept4_mk; fail_if_success with_reducible apply kept4_snd) | with_reducible apply keptOpt_some
    | with_reducible apply keptOpt_none | with_reducible apply keptOpt_map | with_reducible apply keptOpt_pure
    | with_reducible apply keptOpt_bind | with_reducible apply keptOpt_bindO | with_reducible apply kept1_fst
    | with_reducible apply kept4_snd | with_reducible apply kept3_snd | with_reducible apply kept2_snd
    | ((conv => arg 2; with_reducible whnf); split) | (with_reducible refine Kept1.elim ?_ (by with_reducible assumption))
    | (with_reducible refine Kept2.elim ?_ (by with_reducible assumption))
    | (with_reducible refine Kept3.elim ?_ (by with_reducible assumption))
    | (with_reducible refine Kept4.elim ?_ (by with_reducible assumption))
    | (with_reducible refine KeptOpt.elim ?_ (by with_reducible assumption))
    | (with_reducible refine KeptOpt.elim1 ?_ (by with_reducible assumption))
    | (with_reducible refine KeptOpt.elim2 ?_ (by with_reducible assumption))
    | (with_reducible refine KeptOpt.elim3 ?_ (by with_reducible assumption))
    | (with_reducible refine KeptOpt.elim4 ?_ (by with_reducible assumption))

theorem ensureList_kept (s : State) (sl : Nat) (k : Nat) (near : Nat) (i : Nat) (e : Nat) (h0 : Kept wq s) :
    KeptOpt (Kept wq) (ensureList s sl k near i e) := by
  unfold ensureList
  repeat' first
    | with_reducible assumption | with_reducible intro _ | with_reducible apply setSes_kept
    | with_reducible apply drawFrame_kept | with_reducible apply kept_ite | with_reducible apply kept1_ite
    | fail_if_no_progress with_reducible apply kept_upd | fail_if_no_progress with_reducible apply kept1_mkfst
    | (with_reducible apply kept1_mk; fail_if_success with_reducible apply kept1_fst)
    | fail_if_no_progress with_reducible apply kept2_mksnd
    | (with_reducible apply kept2_mk; fail_if_success with_reducible apply kept2_snd)
    | (with_reducible apply kept3_mk; fail_if_success with_reducible apply kept3_snd)
    | (with_reducible apply kept4_mk; fail_if_success with_reducible apply kept4_snd) | with_reducible apply keptOpt_some
    | with_reducible apply keptOpt_none | with_reducible apply keptOpt_map | with_reducible apply keptOpt_pure
    | with_reducible apply keptOpt_bind | with_reducible apply keptOpt_bindO | with_reducible apply kept1_fst
    | with_reducible apply kept4_snd | with_reducible apply kept3_snd | with_reducible apply kept2_snd
    | ((conv => arg 2; with_reducible whnf); split) | (with_reducible refine Kept1.elim ?_ (by with_reducible assumption))
    | (with_reducible refine Kept2.elim ?_ (by with_reducible assumption))
    | (with_reducible refine Kept3.elim ?_ (by with_reducible assumption))
    | (with_reducible refine Kept4.elim ?_ (by with_reducible assumption))
    | (with_reducible refine KeptOpt.elim ?_ (by with_reducible assumption))
    | (with_reducible refine KeptOpt.elim1 ?_ (by with_reducible assumption))
    | (with_reducible refine KeptOpt.elim2 ?_ (by with_reducible assumption))
    | (with_reducible refine KeptOpt.elim3 ?_ (by with_reducible assumption))
    | (with_reducible refine KeptOpt.elim4 ?_ (by with_reducible assumption))

theorem appendPage_kept (s : State) (c : Cell) (m : Model) (n : Nat) (i : Nat) (k : Nat) (e : Nat) (h0 : Kept wq s) :
    Kept1 wq (appendPage s c m n i k e) := by
  unfold appendPage
  repeat' first
    | with_reducible assumption | with_reducible intro _ | with_reducible apply setSes_kept
    | with_reducible apply copyFrame_kept | with_reducible apply drawFrame_kept | with_reducible apply ensureList_kept
    | with_reducible apply freeFrame_kept | with_reducible apply newPages_kept | with_reducible apply piedFrame_kept
    | with_reducible apply setRec_kept | with_reducible apply kept_ite | with_reducible apply kept1_ite
    | fail_if_no_progress with_reducible apply kept_upd | with_reducible apply kept_getD
    | fail_if_no_progress with_reducible apply kept1_mkfst
    | (with_reducible apply kept1_mk; fail_if_success with_reducible apply kept1_fst)
    | fail_if_no_progress with_reducible apply kept2_mksnd
    | (with_reducible apply kept2_mk; fail_if_success with_reducible apply kept2_snd)
    | (with_reducible apply kept3_mk; fail_if_success with_reducible apply kept3_snd)
    | (with_reducible apply kept4_mk; fail_if_success with_reducible apply kept4_snd) | with_reducible apply keptOpt_some
    | with_reducible apply keptOpt_none | with_reducible apply keptOpt_map | with_reducible apply keptOpt_pure
    | with_reducible apply keptOpt_bind | with_reducible apply keptOpt_bindO | with_reducible apply keptEx_ok
    | with_reducible apply keptEx_error | with_reducible apply kept1_fst | with_reducible apply kept4_snd
    | with_reducible apply kept3_snd | with_reducible apply kept2_snd | ((conv => arg 2; with_reducible whnf); split)
    | (with_reducible refine Kept1.elim ?_ (by with_reducible assumption))
    | (with_reducible refine Kept2.elim ?_ (by with_reducible assumption))
    | (with_reducible refine Kept3.elim ?_ (by with_reducible assumption))
    | (with_reducible refine Kept4.elim ?_ (by with_reducible assumption))
    | (with_reducible refine KeptOpt.elim ?_ (by with_reducible assumption))
    | (with_reducible refine KeptOpt.elim1 ?_ (by with_reducible assumption))
    | (with_reducible refine KeptOpt.elim2 ?_ (by with_reducible assumption))
    | (with_reducible refine KeptOpt.elim3 ?_ (by with_reducible assumption))
    | (with_reducible refine KeptOpt.elim4 ?_ (by with_reducible assumption))

theorem appendWrite_kept (m : Model) (c : Cell) (d : Desc) (base : Nat) (p : Nat) (q : Nat) (s : State) (h0 : Kept wq s) :
    Kept wq (appendWrite m c d base p q s) := by
  unfold appendWrite
  repeat' first
    | with_reducible assumption | with_reducible intro _ | with_reducible apply hbmWrite_kept
    | with_reducible apply kept_foldl | with_reducible apply kept1_foldl

theorem appendPos_kept (s : State) (c : Cell) (m : Model) (n : Nat) (d : Desc) (q : Nat) (h0 : Kept wq s) :
    Kept1 wq (appendPos s c m n d q) := by
  unfold appendPos
  repeat' first
    | with_reducible assumption | with_reducible intro _ | with_reducible apply setSes_kept
    | with_reducible apply appendPage_kept | with_reducible apply appendWrite_kept | with_reducible apply kept_ite
    | with_reducible apply kept1_ite | fail_if_no_progress with_reducible apply kept_upd
    | fail_if_no_progress with_reducible apply kept1_mkfst
    | (with_reducible apply kept1_mk; fail_if_success with_reducible apply kept1_fst) | with_reducible apply kept1_fst
    | ((conv => arg 2; with_reducible whnf); split) | (with_reducible refine Kept1.elim ?_ (by with_reducible assumption))
    | (with_reducible refine KeptEx.elim ?_ (by with_reducible assumption))

theorem intoCell_kept (n a : Nat) (x : ExtRes) (h : Kept1 wq x) : Kept1 wq (intoCell n a x) := by
  unfold intoCell
  split
  · exact h
  · exact setCell_kept _ _ _ h

theorem outOfCell_kept (s : State) (c : Cell) (a len : Nat) (k : List Byte → State × Nat) (hk : ∀ bs, Kept1 wq (k bs))
    (h : Kept wq s) : Kept1 wq (outOfCell s c a len k) := by
  unfold outOfCell
  split
  · exact h
  · exact hk _

theorem markRecv_kept (s : State) (sender : Nat) (a : Word) (h0 : Kept wq s) :
    Kept wq (markRecv s sender a) := by
  unfold markRecv
  repeat' first
    | with_reducible assumption | with_reducible intro _ | with_reducible apply setCell_kept | with_reducible apply kept_ite
    | fail_if_no_progress with_reducible apply kept_upd | ((conv => arg 2; with_reducible whnf); split)

theorem runElem_kept (s : State) (n : Nat) (d : Desc) (h : Kept wq s) : KeptE wq (runElem s n d) := by
  have aux : ∀ (t : State) (j : Nat) (a : Word) (bs : List Byte), Kept wq t →
      Kept1 wq (if (extWrite t (s.cell n) a bs).2 = 0 then markRecv (extWrite t (s.cell n) a bs).1 n a
        else (extWrite t (s.cell n) a bs).1, (extWrite t (s.cell n) a bs).2) := by
    intro t j a bs ht
    have hw := extWrite_kept t (s.cell n) a bs ht
    show Kept wq (if _ then _ else _)
    split
    · exact markRecv_kept _ _ _ hw
    · exact hw
  unfold runElem
  dsimp only
  show Kept wq (Prod.fst _)
  apply Kept1_fst'
  split
  · exact intoCell_kept _ _ _ (extRead_kept _ _ _ _ h)
  · split
    · exact outOfCell_kept _ _ _ _ _ (fun bs => extWrite_kept _ _ _ _ h) h
    · split
      · split
        · exact aux _ 0 _ _ (draw_kept s h)
        · exact h
      · split
        · exact intoCell_kept _ _ _ (walkPage_kept _ _ _ _ _ h)
        · split
          · exact appendPos_kept _ _ _ _ _ _ h
          · exact aux _ 0 _ _ (draw_kept s h)

theorem setCellDesc_kept (s : State) (n : Nat) (k : Nat) (d : Desc) (h0 : Kept wq s) :
    Kept wq (State.setCellDesc s n k d) := by
  unfold State.setCellDesc
  repeat' first
    | with_reducible assumption | with_reducible apply setCell_kept

theorem faultDesc_kept (s : State) (n : Nat) (k : Nat) (st : Nat) (h0 : Kept wq s) :
    Kept wq (faultDesc s n k st) := by
  unfold faultDesc
  repeat' first
    | with_reducible assumption | with_reducible apply setCellDesc_kept | fail_if_no_progress with_reducible apply kept_upd

theorem runDesc_kept (n k limit : Nat) : ∀ (f : Nat) (s : State), Kept wq s → Kept wq (runDesc n k limit f s)
  | 0, _, h => h
  | f + 1, s, h => by
    have hr := fun d => runElem_kept s n d h
    unfold runDesc
    dsimp only
    split
    · exact h
    · split
      · exact faultDesc_kept _ _ _ _ (hr _)
      · exact runDesc_kept n k limit f _ (setCellDesc_kept _ _ _ _ (hr _))

theorem finishDesc_kept (s : State) (n : Nat) (k : Nat) (h0 : Kept wq s) :
    Kept wq (finishDesc s n k) := by
  unfold finishDesc
  repeat' first
    | with_reducible assumption | with_reducible intro _ | with_reducible apply setCellDesc_kept
    | with_reducible apply runDesc_kept | with_reducible apply kept_ite | fail_if_no_progress with_reducible apply kept_upd
    | ((conv => arg 2; with_reducible whnf); split)

theorem elemFault_kept (s : State) (n : Nat) (k : Nat) (element : Nat) (status : Nat) (h0 : Kept wq s) :
    Kept wq (elemFault s n k element status) := by
  unfold elemFault
  repeat' first
    | with_reducible assumption | with_reducible intro _ | with_reducible apply faultDesc_kept
    | with_reducible apply runDesc_kept | with_reducible apply runElem_kept | with_reducible apply kept_ite
    | with_reducible apply keptE_s | ((conv => arg 2; with_reducible whnf); split)

theorem startBody_kept (x : CellItem) (d : Desc) (ok : Cell → Bool) (s : State) (c : Cell) (h0 : Kept wq s) :
    KeptC wq (startBody x d ok s c) := by
  unfold startBody
  repeat' first
    | with_reducible assumption | with_reducible intro _ | with_reducible apply kept_ite | with_reducible apply keptC_ite
    | fail_if_no_progress with_reducible apply kept_upd | with_reducible apply keptC_ok | with_reducible apply keptC_jump
    | with_reducible apply keptC_exc | with_reducible apply keptC_wait | ((conv => arg 2; with_reducible whnf); split)

theorem appBody_kept (x : CellItem) (s : State) (c : Cell) (h0 : Kept wq s) :
    KeptC wq (appBody x s c) := by
  unfold appBody
  repeat' first
    | with_reducible assumption | with_reducible apply startBody_kept | fail_if_no_progress with_reducible apply kept_upd
    | with_reducible apply keptC_ok | with_reducible apply keptC_jump | with_reducible apply keptC_exc
    | with_reducible apply keptC_wait

theorem dmaWaitBody_kept (x : CellItem) (s : State) (c : Cell) (h0 : Kept wq s) :
    KeptC wq (dmaWaitBody x s c) := by
  unfold dmaWaitBody
  repeat' first
    | with_reducible assumption | with_reducible intro _ | with_reducible apply kept_ite | with_reducible apply keptC_ite
    | with_reducible apply keptC_ok | with_reducible apply keptC_jump | with_reducible apply keptC_exc
    | with_reducible apply keptC_wait | ((conv => arg 2; with_reducible whnf); split)

theorem lgtBody_kept (x : CellItem) (s : State) (c : Cell) (h0 : Kept wq s) :
    KeptC wq (lgtBody x s c) := by
  unfold lgtBody
  repeat' first
    | with_reducible assumption | with_reducible intro _ | with_reducible apply cellLoad_kept
    | with_reducible apply kept_ite | with_reducible apply keptC_ite | fail_if_no_progress with_reducible apply kept_upd
    | with_reducible apply keptC_ok | with_reducible apply keptC_jump | with_reducible apply keptC_exc
    | with_reducible apply keptC_wait | ((conv => arg 2; with_reducible whnf); split)

/-! ### Sync -/

/-- The state of a result, and `Kept` of it. -/
def SyncOut.st : SyncOut → State
  | .done s _ => s
  | .fail s _ => s
  | .wait s => s
/-- The state of a result, and `Kept` of it. -/
def KeptS (wq : List Instr) (o : SyncOut) : Prop := Kept wq o.st
theorem keptS_done {s r} (h : Kept wq s) : KeptS wq (.done s r) := h
theorem keptS_fail {s n} (h : Kept wq s) : KeptS wq (.fail s n) := h
theorem keptS_wait {s} (h : Kept wq s) : KeptS wq (.wait s) := h
theorem KeptS.elimD {o t r} (h : KeptS wq o) (e : o = .done t r) : Kept wq t := by subst e; exact h
theorem KeptS.elimF {o t r} (h : KeptS wq o) (e : o = .fail t r) : Kept wq t := by subst e; exact h
theorem KeptS.elimW {o t} (h : KeptS wq o) (e : o = .wait t) : Kept wq t := by subst e; exact h

theorem setVal_kept (s : State) (n : Nat) (v : Nat) (h0 : Kept wq s) :
    Kept wq (setVal s n v) := by
  unfold setVal
  repeat' first
    | with_reducible assumption | with_reducible apply setFld_kept

theorem nextObjInstar_kept (s : State) (n : Nat) (h0 : Kept wq s) :
    Kept wq (nextObjInstar s n) := by
  unfold nextObjInstar
  repeat' first
    | with_reducible assumption | with_reducible intro _ | with_reducible apply setFld_kept | with_reducible apply kept_ite
    | ((conv => arg 2; with_reducible whnf); split)

theorem countStale_kept (s : State) (st : Nat) (h0 : Kept wq s) :
    Kept wq (countStale s st) := by
  unfold countStale
  repeat' first
    | with_reducible assumption | with_reducible intro _ | with_reducible apply incSat_kept | with_reducible apply kept_ite
    | ((conv => arg 2; with_reducible whnf); split)

theorem takeQuoin_kept (s : State) (n : Nat) (actor : Nat) (h0 : Kept wq s) :
    Kept1 wq (takeQuoin s n actor) := by
  unfold takeQuoin
  repeat' first
    | with_reducible assumption | with_reducible intro _ | with_reducible apply setFld_kept
    | with_reducible apply setVal_kept | with_reducible apply kept_ite | with_reducible apply kept1_ite
    | fail_if_no_progress with_reducible apply kept1_mkfst
    | (with_reducible apply kept1_mk; fail_if_success with_reducible apply kept1_fst)
    | ((conv => arg 2; with_reducible whnf); split)

theorem tryWait_kept (op : Nat) (s : State) (n : Nat) (actor : Nat) (v : Word) (h0 : Kept wq s) :
    KeptOpt (Kept1 wq) (tryWait op s n actor v) := by
  unfold tryWait
  repeat' first
    | with_reducible assumption | with_reducible intro _ | with_reducible apply setVal_kept
    | with_reducible apply takeQuoin_kept | with_reducible apply kept_ite | with_reducible apply kept1_ite
    | fail_if_no_progress with_reducible apply kept1_mkfst
    | (with_reducible apply kept1_mk; fail_if_success with_reducible apply kept1_fst) | with_reducible apply keptOpt_some
    | with_reducible apply keptOpt_none | with_reducible apply keptOpt_map | with_reducible apply keptOpt_pure
    | with_reducible apply keptOpt_bind | with_reducible apply keptOpt_bindO | with_reducible apply kept1_fst
    | ((conv => arg 2; with_reducible whnf); split)

theorem dropWaiter_kept (s : State) (n : Nat) (w : Waiter) (h0 : Kept wq s) :
    Kept wq (dropWaiter s n w) := by
  unfold dropWaiter
  repeat' first
    | with_reducible assumption | with_reducible intro _ | with_reducible apply decFld_kept | with_reducible apply kept_ite
    | fail_if_no_progress with_reducible apply kept_upd | ((conv => arg 2; with_reducible whnf); split)

theorem wake_kept (s : State) (w : Waiter) (r : Word) (h0 : Kept wq s) :
    Kept wq (wake s w r) := by
  unfold wake
  repeat' first
    | with_reducible assumption | with_reducible intro _ | with_reducible apply setCell_kept
    | with_reducible apply complete_kept | with_reducible apply kept_ite | fail_if_no_progress with_reducible apply kept_upd
    | ((conv => arg 2; with_reducible whnf); split)

theorem failWait_kept (s : State) (w : Waiter) (st : Nat) (h0 : Kept wq s) :
    Kept wq (failWait s w st) := by
  unfold failWait
  repeat' first
    | with_reducible assumption | with_reducible intro _ | with_reducible apply completeFail_kept
    | with_reducible apply takeException_kept | with_reducible apply kept_ite
    | fail_if_no_progress with_reducible apply kept_upd | ((conv => arg 2; with_reducible whnf); split)

theorem serve_kept (s : State) (n : Nat) (h0 : Kept wq s) :
    Kept wq (serve s n) := by
  unfold serve
  repeat' first
    | with_reducible assumption | with_reducible intro _ | with_reducible apply dropWaiter_kept
    | with_reducible apply tryWait_kept | with_reducible apply wake_kept | with_reducible apply kept_foldl
    | with_reducible apply kept1_foldl | fail_if_no_progress with_reducible apply kept1_mkfst
    | (with_reducible apply kept1_mk; fail_if_success with_reducible apply kept1_fst) | with_reducible apply keptOpt_some
    | with_reducible apply keptOpt_none | with_reducible apply keptOpt_map | with_reducible apply keptOpt_pure
    | with_reducible apply keptOpt_bind | with_reducible apply keptOpt_bindO | with_reducible apply kept1_fst
    | ((conv => arg 2; with_reducible whnf); split) | (with_reducible refine Kept1.elim ?_ (by with_reducible assumption))
    | (with_reducible refine KeptOpt.elim ?_ (by with_reducible assumption))
    | (with_reducible refine KeptOpt.elim1 ?_ (by with_reducible assumption))
    | (with_reducible refine KeptOpt.elim2 ?_ (by with_reducible assumption))
    | (with_reducible refine KeptOpt.elim3 ?_ (by with_reducible assumption))
    | (with_reducible refine KeptOpt.elim4 ?_ (by with_reducible assumption))

theorem addWaiter_kept (s : State) (n : Nat) (w : Waiter) (h0 : Kept wq s) :
    Kept wq (addWaiter s n w) := by
  unfold addWaiter
  repeat' first
    | with_reducible assumption | with_reducible apply incSat_kept | fail_if_no_progress with_reducible apply kept_upd

theorem acquire_kept (op : Nat) (s : State) (n : Nat) (actor : Nat) (ret : Nat) (v : Word) (h0 : Kept wq s) :
    KeptS wq (acquire op s n actor ret v) := by
  unfold acquire
  repeat' first
    | with_reducible assumption | with_reducible apply addWaiter_kept | with_reducible apply tryWait_kept
    | fail_if_no_progress with_reducible apply kept1_mkfst
    | (with_reducible apply kept1_mk; fail_if_success with_reducible apply kept1_fst) | with_reducible apply keptOpt_some
    | with_reducible apply keptOpt_none | with_reducible apply keptOpt_map | with_reducible apply keptOpt_pure
    | with_reducible apply keptOpt_bind | with_reducible apply keptOpt_bindO | with_reducible apply keptS_done
    | with_reducible apply keptS_fail | with_reducible apply keptS_wait | with_reducible apply kept1_fst
    | ((conv => arg 2; with_reducible whnf); split) | (with_reducible refine Kept1.elim ?_ (by with_reducible assumption))
    | (with_reducible refine KeptOpt.elim ?_ (by with_reducible assumption))
    | (with_reducible refine KeptOpt.elim1 ?_ (by with_reducible assumption))
    | (with_reducible refine KeptOpt.elim2 ?_ (by with_reducible assumption))
    | (with_reducible refine KeptOpt.elim3 ?_ (by with_reducible assumption))
    | (with_reducible refine KeptOpt.elim4 ?_ (by with_reducible assumption))

theorem counterAdd_kept (s : State) (n : Nat) (v : Word) (h0 : Kept wq s) :
    KeptS wq (counterAdd s n v) := by
  unfold counterAdd
  repeat' first
    | with_reducible assumption | with_reducible apply serve_kept | with_reducible apply setVal_kept
    | with_reducible apply keptS_done | with_reducible apply keptS_fail | with_reducible apply keptS_wait

theorem semGive_kept (s : State) (n : Nat) (h0 : Kept wq s) :
    KeptS wq (semGive s n) := by
  unfold semGive
  repeat' first
    | with_reducible assumption | with_reducible intro _ | with_reducible apply serve_kept
    | with_reducible apply setVal_kept | with_reducible apply kept_ite | with_reducible apply keptS_done
    | with_reducible apply keptS_fail | with_reducible apply keptS_wait | ((conv => arg 2; with_reducible whnf); split)

theorem barArrive_kept (s : State) (n : Nat) (h0 : Kept wq s) :
    KeptS wq (barArrive s n) := by
  unfold barArrive
  repeat' first
    | with_reducible assumption | with_reducible intro _ | with_reducible apply serve_kept
    | with_reducible apply setVal_kept | with_reducible apply kept_ite | with_reducible apply keptS_done
    | with_reducible apply keptS_fail | with_reducible apply keptS_wait | ((conv => arg 2; with_reducible whnf); split)

theorem quoinRelease_kept (s : State) (n : Nat) (actor : Nat) (h0 : Kept wq s) :
    KeptS wq (quoinRelease s n actor) := by
  unfold quoinRelease
  repeat' first
    | with_reducible assumption | with_reducible intro _ | with_reducible apply setFld_kept
    | with_reducible apply serve_kept | with_reducible apply setVal_kept | with_reducible apply kept_ite
    | with_reducible apply keptS_done | with_reducible apply keptS_fail | with_reducible apply keptS_wait
    | ((conv => arg 2; with_reducible whnf); split)

theorem quoinTry_kept (s : State) (n : Nat) (actor : Nat) (h0 : Kept wq s) :
    KeptS wq (quoinTry s n actor) := by
  unfold quoinTry
  repeat' first
    | with_reducible assumption | with_reducible apply tryWait_kept | fail_if_no_progress with_reducible apply kept1_mkfst
    | (with_reducible apply kept1_mk; fail_if_success with_reducible apply kept1_fst) | with_reducible apply keptOpt_some
    | with_reducible apply keptOpt_none | with_reducible apply keptOpt_map | with_reducible apply keptOpt_pure
    | with_reducible apply keptOpt_bind | with_reducible apply keptOpt_bindO | with_reducible apply keptS_done
    | with_reducible apply keptS_fail | with_reducible apply keptS_wait | with_reducible apply kept1_fst
    | ((conv => arg 2; with_reducible whnf); split) | (with_reducible refine Kept1.elim ?_ (by with_reducible assumption))
    | (with_reducible refine KeptOpt.elim ?_ (by with_reducible assumption))
    | (with_reducible refine KeptOpt.elim1 ?_ (by with_reducible assumption))
    | (with_reducible refine KeptOpt.elim2 ?_ (by with_reducible assumption))
    | (with_reducible refine KeptOpt.elim3 ?_ (by with_reducible assumption))
    | (with_reducible refine KeptOpt.elim4 ?_ (by with_reducible assumption))

theorem syncUse_kept (u : SyncUse) (op kind : Nat) (release : Bool) (f : State → Nat → Nat → Nat → Word → SyncOut) (s : State)
    (hf : ∀ t n a b v, Kept wq t → KeptS wq (f t n a b v)) (h : Kept wq s) : KeptOut wq (syncUse u op kind release f s) := by
  unfold syncUse
  split
  · refine cellItem_kept _ _ _ _ (fun t c ht => ?_) h
    split
    · exact ht
    · split
      · exact countStale_kept _ _ ht
      · rename_i n e
        have hh := fun a b v => hf t n a b v ht
        split <;> (rename_i e2; first | exact KeptS.elimD (hh _ _ _) e2 | exact KeptS.elimF (hh _ _ _) e2 | exact KeptS.elimW (hh _ _ _) e2)
  · refine keptO_next (runItem_kept _ _ _ _ _ (fun t ht => ?_) h)
    split
    · exact countStale_kept _ _ ht
    · rename_i n e
      have hh := fun a b v => hf t n a b v ht
      split <;> (rename_i e2; first | exact KeptS.elimD (hh _ _ _) e2 | exact KeptS.elimF (hh _ _ _) e2 | exact KeptS.elimW (hh _ _ _) e2)

theorem syncInitBody_kept (src : Src) (kind : Nat) (ownerKind : Nat) (owner : Nat) (value : Word) (s : State) (h0 : Kept wq s) :
    Kept1 wq (syncInitBody src kind ownerKind owner value s) := by
  unfold syncInitBody
  repeat' first
    | with_reducible assumption | with_reducible intro _ | with_reducible apply incSat_kept
    | with_reducible apply setReg_kept | with_reducible apply nextObjInstar_kept | with_reducible apply setVal_kept
    | with_reducible apply kept_ite | with_reducible apply kept1_ite | fail_if_no_progress with_reducible apply kept1_mkfst
    | (with_reducible apply kept1_mk; fail_if_success with_reducible apply kept1_fst)
    | ((conv => arg 2; with_reducible whnf); split)

theorem freeObj_kept (s : State) (n : Nat) (h0 : Kept wq s) :
    Kept wq (freeObj s n) := by
  unfold freeObj
  repeat' first
    | with_reducible assumption | with_reducible intro _ | with_reducible apply decFld_kept
    | with_reducible apply setReg_kept | with_reducible apply dropWaiter_kept | with_reducible apply failWait_kept
    | with_reducible apply nextObjInstar_kept | with_reducible apply setVal_kept | with_reducible apply kept_foldl
    | with_reducible apply kept1_foldl

theorem syncFreeBody_kept (src : Src) (ref : Word) (s : State) (h0 : Kept wq s) :
    Kept1 wq (syncFreeBody src ref s) := by
  unfold syncFreeBody
  repeat' first
    | with_reducible assumption | with_reducible intro _ | with_reducible apply countStale_kept
    | with_reducible apply freeObj_kept | with_reducible apply kept_ite | with_reducible apply kept1_ite
    | fail_if_no_progress with_reducible apply kept1_mkfst
    | (with_reducible apply kept1_mk; fail_if_success with_reducible apply kept1_fst)
    | ((conv => arg 2; with_reducible whnf); split)

theorem breakQuoin_kept (source : Nat) (s : State) (n : Nat) (h0 : Kept wq s) :
    Kept wq (breakQuoin source s n) := by
  unfold breakQuoin
  repeat' first
    | with_reducible assumption | with_reducible apply incSat_kept | with_reducible apply setFld_kept
    | with_reducible apply fault_kept | with_reducible apply nextObjInstar_kept | with_reducible apply serve_kept
    | with_reducible apply setVal_kept

theorem breakQuoins_kept (s : State) (source : Nat) (actor : Nat) (inst : Nat) (h0 : Kept wq s) :
    Kept wq (breakQuoins s source actor inst) := by
  unfold breakQuoins
  repeat' first
    | with_reducible assumption | with_reducible intro _ | with_reducible apply breakQuoin_kept
    | with_reducible apply kept_foldl | with_reducible apply kept1_foldl

theorem waitTimeout_kept (s : State) (n : Nat) (actor : Nat) (h0 : Kept wq s) :
    Kept wq (waitTimeout s n actor) := by
  unfold waitTimeout
  repeat' first
    | with_reducible assumption | with_reducible intro _ | with_reducible apply dropWaiter_kept
    | with_reducible apply failWait_kept | with_reducible apply kept_ite | ((conv => arg 2; with_reducible whnf); split)

end Sys2Proof.Machine
end

