-- ==== Sys2Proof/Laws/KeptUnits.lean ====
section
/-! SUPPORT. Each operation of restoration, search, bays, the translation layer and resets keeps the queue and the canonical form. -/

namespace Sys2Proof.Machine

variable {wq : List Instr}

/-! ### Restore -/

theorem announce_kept (s : State) (i : Nat) (h0 : Kept wq s) :
    Kept wq (announce s i) := by
  unfold announce
  repeat' first
    | with_reducible assumption | with_reducible intro _ | with_reducible apply setSes_kept
    | with_reducible apply sesNotice_kept | with_reducible apply kept_ite
    | fail_if_no_progress with_reducible apply kept_upd | ((conv => arg 2; with_reducible whnf); split)

theorem placeEntry_kept (s : State) (i : Nat) (e : Session) (h0 : Kept wq s) :
    Kept wq (placeEntry s i e) := by
  unfold placeEntry
  repeat' first
    | with_reducible assumption | with_reducible apply incWrap_kept | with_reducible apply announce_kept
    | fail_if_no_progress with_reducible apply kept_upd

theorem tombRec_kept (s : State) (b : Nat) (x : DirRec × HeadPage) (h0 : Kept wq s) :
    Kept wq (tombRec s b x) := by
  unfold tombRec
  repeat' first
    | with_reducible assumption | with_reducible intro _ | with_reducible apply journalSubmit_kept
    | with_reducible apply kept_ite | fail_if_no_progress with_reducible apply kept_upd
    | ((conv => arg 2; with_reducible whnf); split)

theorem adoptedElsewhere_kept (s : State) (r : DirRec) (h0 : Kept wq s) :
    Kept wq (adoptedElsewhere s r) := by
  unfold adoptedElsewhere
  repeat' first
    | with_reducible assumption | with_reducible intro _ | with_reducible apply faultSession_kept
    | with_reducible apply kept_ite | ((conv => arg 2; with_reducible whnf); split)

theorem adopt_kept (s : State) (b : Nat) (status : Nat) (x : DirRec × HeadPage) (h0 : Kept wq s) :
    KeptOpt (Kept wq) (adopt s b status x) := by
  unfold adopt
  repeat' first
    | with_reducible assumption | with_reducible apply adoptedElsewhere_kept | with_reducible apply journalSubmit_kept
    | with_reducible apply placeEntry_kept | with_reducible apply takeIndex_kept
    | fail_if_no_progress with_reducible apply kept_upd | fail_if_no_progress with_reducible apply kept1_mkfst
    | (with_reducible apply kept1_mk; fail_if_success with_reducible apply kept1_fst)
    | fail_if_no_progress with_reducible apply kept2_mksnd
    | (with_reducible apply kept2_mk; fail_if_success with_reducible apply kept2_snd)
    | (with_reducible apply kept3_mk; fail_if_success with_reducible apply kept3_snd)
    | (with_reducible apply kept4_mk; fail_if_success with_reducible apply kept4_snd) | with_reducible apply keptOpt_some
    | with_reducible apply keptOpt_none | with_reducible apply keptOpt_map | with_reducible apply keptOpt_pure
    | with_reducible apply keptOpt_bind | with_reducible apply keptOpt_bindO | with_reducible apply kept1_fst
    | with_reducible apply kept4_snd | with_reducible apply kept3_snd | with_reducible apply kept2_snd
    | ((conv => arg 2; with_reducible whnf); split) | (with_reducible refine Kept1.elim ?_ (by with_reducible assumption))
    | (with_reducible refine Kept2.elim ?_ (by with_reducible assumption))
    | (with_reducible refine Kept3.elim ?_ (by with_reducible assumption))
    | (with_reducible refine Kept4.elim ?_ (by with_reducible assumption))
    | (with_reducible refine KeptOpt.elim ?_ (by with_reducible assumption))
    | (with_reducible refine KeptOpt.elim1 ?_ (by with_reducible assumption))
    | (with_reducible refine KeptOpt.elim2 ?_ (by with_reducible assumption))
    | (with_reducible refine KeptOpt.elim3 ?_ (by with_reducible assumption))
    | (with_reducible refine KeptOpt.elim4 ?_ (by with_reducible assumption))

theorem holdBack_kept (s : State) (b : Nat) (x : DirRec × HeadPage) (h0 : Kept wq s) :
    Kept wq (holdBack s b x) := by
  unfold holdBack
  repeat' first
    | with_reducible assumption | with_reducible apply setBay_kept | fail_if_no_progress with_reducible apply kept_upd

theorem adoptOther_kept (s : State) (b : Nat) (x : DirRec × HeadPage) (h0 : Kept wq s) :
    Kept wq (adoptOther s b x) := by
  unfold adoptOther
  repeat' first
    | with_reducible assumption | with_reducible intro _ | with_reducible apply adopt_kept
    | with_reducible apply holdBack_kept | with_reducible apply kept_ite | with_reducible apply kept_getD
    | fail_if_no_progress with_reducible apply kept1_mkfst
    | (with_reducible apply kept1_mk; fail_if_success with_reducible apply kept1_fst) | with_reducible apply keptOpt_some
    | with_reducible apply keptOpt_none | with_reducible apply keptOpt_map | with_reducible apply keptOpt_pure
    | with_reducible apply keptOpt_bind | with_reducible apply keptOpt_bindO | ((conv => arg 2; with_reducible whnf); split)

theorem restoreLate_kept (s : State) (b : Nat) (x : DirRec × HeadPage) (h0 : Kept wq s) :
    Kept wq (restoreLate s b x) := by
  unfold restoreLate
  repeat' first
    | with_reducible assumption | with_reducible intro _ | with_reducible apply adopt_kept
    | with_reducible apply holdBack_kept | with_reducible apply tombRec_kept | with_reducible apply kept_ite
    | with_reducible apply kept_getD | fail_if_no_progress with_reducible apply kept1_mkfst
    | (with_reducible apply kept1_mk; fail_if_success with_reducible apply kept1_fst) | with_reducible apply keptOpt_some
    | with_reducible apply keptOpt_none | with_reducible apply keptOpt_map | with_reducible apply keptOpt_pure
    | with_reducible apply keptOpt_bind | with_reducible apply keptOpt_bindO | ((conv => arg 2; with_reducible whnf); split)

theorem recAfterReady_kept (b : Nat) (seen : Bool) (s : State) (x : DirRec × HeadPage) (h0 : Kept wq s) :
    Kept wq (recAfterReady b seen s x) := by
  unfold recAfterReady
  repeat' first
    | with_reducible assumption | with_reducible intro _ | with_reducible apply adoptOther_kept
    | with_reducible apply restoreLate_kept | with_reducible apply tombRec_kept | with_reducible apply kept_ite
    | ((conv => arg 2; with_reducible whnf); split)

theorem restoreOwn_kept (s : State) (b : Nat) (x : DirRec × HeadPage) (h0 : Kept wq s) :
    Kept wq (restoreOwn s b x) := by
  unfold restoreOwn
  repeat' first
    | with_reducible assumption | with_reducible intro _ | with_reducible apply placeEntry_kept
    | with_reducible apply tombRec_kept | with_reducible apply kept_ite | ((conv => arg 2; with_reducible whnf); split)

theorem markSettled_kept (s : State) (b : Nat) (h0 : Kept wq s) :
    Kept wq (markSettled s b) := by
  unfold markSettled
  repeat' first
    | with_reducible assumption | with_reducible intro _ | with_reducible apply setBay_kept | with_reducible apply kept_ite
    | fail_if_no_progress with_reducible apply kept_upd | ((conv => arg 2; with_reducible whnf); split)

theorem restoreAll_kept (s : State) (h0 : Kept wq s) :
    Kept wq (restoreAll s) := by
  unfold restoreAll
  repeat' first
    | with_reducible assumption | with_reducible intro _ | with_reducible apply adoptOther_kept
    | with_reducible apply markSettled_kept | with_reducible apply restoreOwn_kept | with_reducible apply tombRec_kept
    | with_reducible apply kept_ite | with_reducible apply kept_foldl | with_reducible apply kept1_foldl
    | ((conv => arg 2; with_reducible whnf); split)

theorem restoreBay_kept (s : State) (b : Nat) (h0 : Kept wq s) :
    Kept wq (restoreBay s b) := by
  unfold restoreBay
  repeat' first
    | with_reducible assumption | with_reducible intro _ | with_reducible apply markSettled_kept
    | with_reducible apply recAfterReady_kept | with_reducible apply kept_foldl | with_reducible apply kept1_foldl

theorem retryHeld_kept (s : State) (b : Nat) (h0 : Kept wq s) :
    Kept wq (retryHeld s b) := by
  unfold retryHeld
  repeat' first
    | with_reducible assumption | with_reducible intro _ | with_reducible apply setBay_kept
    | with_reducible apply adoptOther_kept | with_reducible apply restoreLate_kept | with_reducible apply kept_ite
    | fail_if_no_progress with_reducible apply kept_upd | with_reducible apply kept_foldl | with_reducible apply kept1_foldl
    | ((conv => arg 2; with_reducible whnf); split)

theorem fromShard_kept (s : State) (i : Nat) (c : Copy) (h0 : Kept wq s) :
    Kept wq (fromShard s i c) := by
  unfold fromShard
  repeat' first
    | with_reducible assumption | with_reducible apply setSes_kept | with_reducible apply allocFrames_kept
    | with_reducible apply commitRevival_kept | with_reducible apply faultSession_kept
    | with_reducible apply freeFrames_kept | with_reducible apply restoreCopy_kept | with_reducible apply sesNotice_kept
    | fail_if_no_progress with_reducible apply kept_upd | fail_if_no_progress with_reducible apply kept1_mkfst
    | (with_reducible apply kept1_mk; fail_if_success with_reducible apply kept1_fst)
    | fail_if_no_progress with_reducible apply kept2_mksnd
    | (with_reducible apply kept2_mk; fail_if_success with_reducible apply kept2_snd)
    | (with_reducible apply kept3_mk; fail_if_success with_reducible apply kept3_snd)
    | (with_reducible apply kept4_mk; fail_if_success with_reducible apply kept4_snd) | with_reducible apply kept1_fst
    | with_reducible apply kept4_snd | with_reducible apply kept3_snd | with_reducible apply kept2_snd
    | ((conv => arg 2; with_reducible whnf); split) | (with_reducible refine Kept1.elim ?_ (by with_reducible assumption))
    | (with_reducible refine Kept2.elim ?_ (by with_reducible assumption))
    | (with_reducible refine Kept3.elim ?_ (by with_reducible assumption))
    | (with_reducible refine Kept4.elim ?_ (by with_reducible assumption))
    | (with_reducible refine KeptOpt.elim ?_ (by with_reducible assumption))
    | (with_reducible refine KeptOpt.elim1 ?_ (by with_reducible assumption))
    | (with_reducible refine KeptOpt.elim2 ?_ (by with_reducible assumption))
    | (with_reducible refine KeptOpt.elim3 ?_ (by with_reducible assumption))
    | (with_reducible refine KeptOpt.elim4 ?_ (by with_reducible assumption))

theorem lostCopy_kept (s : State) (i : Nat) (e : Session) (status : Nat) (h0 : Kept wq s) :
    Kept wq (lostCopy s i e status) := by
  unfold lostCopy
  repeat' first
    | with_reducible assumption | with_reducible intro _ | with_reducible apply draw_kept | with_reducible apply setSes_kept
    | with_reducible apply faultSession_kept | with_reducible apply fromShard_kept | with_reducible apply journalSubmit_kept
    | with_reducible apply kept_ite | with_reducible apply kept1_ite | fail_if_no_progress with_reducible apply kept_upd
    | fail_if_no_progress with_reducible apply kept1_mkfst
    | (with_reducible apply kept1_mk; fail_if_success with_reducible apply kept1_fst)
    | fail_if_no_progress with_reducible apply kept2_mksnd
    | (with_reducible apply kept2_mk; fail_if_success with_reducible apply kept2_snd)
    | (with_reducible apply kept3_mk; fail_if_success with_reducible apply kept3_snd)
    | (with_reducible apply kept4_mk; fail_if_success with_reducible apply kept4_snd) | with_reducible apply kept1_fst
    | with_reducible apply kept4_snd | with_reducible apply kept3_snd | with_reducible apply kept2_snd
    | ((conv => arg 2; with_reducible whnf); split) | (with_reducible refine Kept1.elim ?_ (by with_reducible assumption))
    | (with_reducible refine Kept2.elim ?_ (by with_reducible assumption))
    | (with_reducible refine Kept3.elim ?_ (by with_reducible assumption))
    | (with_reducible refine Kept4.elim ?_ (by with_reducible assumption))

theorem cartridgeLost_kept (s : State) (b : Nat) (serial : Nat) (h0 : Kept wq s) :
    Kept wq (cartridgeLost s b serial) := by
  unfold cartridgeLost
  repeat' first
    | with_reducible assumption | with_reducible intro _ | with_reducible apply setSes_kept
    | with_reducible apply lostCopy_kept | with_reducible apply kept_ite | fail_if_no_progress with_reducible apply kept_upd
    | with_reducible apply kept_foldl | with_reducible apply kept1_foldl | ((conv => arg 2; with_reducible whnf); split)

/-! ### Search -/

theorem setVse_kept (s : State) (slot : Nat) (x : Index) (h0 : Kept wq s) :
    Kept wq (State.setVse s slot x) := by
  unfold State.setVse
  repeat' first
    | with_reducible assumption | fail_if_no_progress with_reducible apply kept_upd

theorem openBody_kept (src : Src) (id : Nat) (slot : Nat) (part : Nat) (prio : Nat) (pinCodes : Bool) (pinVec : Bool) (qpg : Nat) (sideCap : Nat) (encPart : Nat) (encSlice : Nat) (noEnc : Bool) (s : State) (h0 : Kept wq s) :
    Kept1 wq (openBody src id slot part prio pinCodes pinVec qpg sideCap encPart encSlice noEnc s) := by
  unfold openBody
  repeat' first
    | with_reducible assumption | with_reducible intro _ | with_reducible apply setFld_kept
    | with_reducible apply setReg_kept | with_reducible apply setVse_kept | with_reducible apply refreshErr_kept
    | with_reducible apply kept_ite | with_reducible apply kept1_ite | fail_if_no_progress with_reducible apply kept_upd
    | fail_if_no_progress with_reducible apply kept1_mkfst
    | (with_reducible apply kept1_mk; fail_if_success with_reducible apply kept1_fst)
    | ((conv => arg 2; with_reducible whnf); split)

theorem closeSlot_kept (s : State) (slot : Nat) (h0 : Kept wq s) :
    Kept wq (closeSlot s slot) := by
  unfold closeSlot
  repeat' first
    | with_reducible assumption | with_reducible apply setFld_kept | with_reducible apply setReg_kept
    | with_reducible apply refreshErr_kept | fail_if_no_progress with_reducible apply kept_upd

theorem tryClose_kept (s : State) (slot : Nat) (h0 : Kept wq s) :
    Kept wq (tryClose s slot) := by
  unfold tryClose
  repeat' first
    | with_reducible assumption | with_reducible intro _ | with_reducible apply closeSlot_kept
    | with_reducible apply complete_kept | with_reducible apply kept_ite | ((conv => arg 2; with_reducible whnf); split)

theorem indexNotice_kept (s : State) (src : Src) (status : Nat) (seq : Nat) (id : Nat) (h0 : Kept wq s) :
    Kept wq (indexNotice s src status seq id) := by
  unfold indexNotice
  repeat' first
    | with_reducible assumption | with_reducible apply notice_kept

theorem closeBody_kept (src : Src) (slot : Nat) (s : State) (h0 : Kept wq s) :
    Kept1 wq (closeBody src slot s) := by
  unfold closeBody
  repeat' first
    | with_reducible assumption | with_reducible intro _ | with_reducible apply draw_kept | with_reducible apply setVse_kept
    | with_reducible apply closeSlot_kept | with_reducible apply indexNotice_kept | with_reducible apply kept_ite
    | with_reducible apply kept1_ite | fail_if_no_progress with_reducible apply kept_upd | with_reducible apply kept_foldl
    | with_reducible apply kept1_foldl | fail_if_no_progress with_reducible apply kept1_mkfst
    | (with_reducible apply kept1_mk; fail_if_success with_reducible apply kept1_fst)
    | fail_if_no_progress with_reducible apply kept2_mksnd
    | (with_reducible apply kept2_mk; fail_if_success with_reducible apply kept2_snd)
    | (with_reducible apply kept3_mk; fail_if_success with_reducible apply kept3_snd)
    | (with_reducible apply kept4_mk; fail_if_success with_reducible apply kept4_snd) | with_reducible apply kept1_fst
    | with_reducible apply kept4_snd | with_reducible apply kept3_snd | with_reducible apply kept2_snd
    | ((conv => arg 2; with_reducible whnf); split) | (with_reducible refine Kept1.elim ?_ (by with_reducible assumption))
    | (with_reducible refine Kept2.elim ?_ (by with_reducible assumption))
    | (with_reducible refine Kept3.elim ?_ (by with_reducible assumption))
    | (with_reducible refine Kept4.elim ?_ (by with_reducible assumption))

theorem policeQuery_kept (s : State) (ctx : Nat) (slot : Nat) (k : Nat) (probes : Nat) (rerank : Nat) (contract : Nat) (h0 : Kept wq s) :
    Kept4 wq (policeQuery s ctx slot k probes rerank contract) := by
  unfold policeQuery
  repeat' first
    | with_reducible assumption | with_reducible intro _ | with_reducible apply police_kept | with_reducible apply kept_ite
    | with_reducible apply kept1_ite | fail_if_no_progress with_reducible apply kept1_mkfst
    | (with_reducible apply kept1_mk; fail_if_success with_reducible apply kept1_fst)
    | fail_if_no_progress with_reducible apply kept2_mksnd
    | (with_reducible apply kept2_mk; fail_if_success with_reducible apply kept2_snd)
    | (with_reducible apply kept3_mk; fail_if_success with_reducible apply kept3_snd)
    | (with_reducible apply kept4_mk; fail_if_success with_reducible apply kept4_snd) | with_reducible apply keptOpt_some
    | with_reducible apply keptOpt_none | with_reducible apply keptOpt_map | with_reducible apply keptOpt_pure
    | with_reducible apply keptOpt_bind | with_reducible apply keptOpt_bindO | with_reducible apply kept1_fst
    | with_reducible apply kept4_snd | with_reducible apply kept3_snd | with_reducible apply kept2_snd
    | ((conv => arg 2; with_reducible whnf); split) | (with_reducible refine Kept1.elim ?_ (by with_reducible assumption))
    | (with_reducible refine Kept2.elim ?_ (by with_reducible assumption))
    | (with_reducible refine Kept3.elim ?_ (by with_reducible assumption))
    | (with_reducible refine Kept4.elim ?_ (by with_reducible assumption))

theorem vseQueryBody_kept (src : Src) (slot : Nat) (k : Nat) (probes : Nat) (rerank : Nat) (qaddr : Word) (fmask : BitVec 32) (fval : BitVec 32) (raddr : Word) (contract : Nat) (s : State) (h0 : Kept wq s) :
    Kept1 wq (vseQueryBody src slot k probes rerank qaddr fmask fval raddr contract s) := by
  unfold vseQueryBody
  repeat' first
    | with_reducible assumption | with_reducible intro _ | with_reducible apply setVse_kept
    | with_reducible apply policeQuery_kept | with_reducible apply kept_ite | with_reducible apply kept1_ite
    | fail_if_no_progress with_reducible apply kept_upd | fail_if_no_progress with_reducible apply kept1_mkfst
    | (with_reducible apply kept1_mk; fail_if_success with_reducible apply kept1_fst)
    | fail_if_no_progress with_reducible apply kept2_mksnd
    | (with_reducible apply kept2_mk; fail_if_success with_reducible apply kept2_snd)
    | (with_reducible apply kept3_mk; fail_if_success with_reducible apply kept3_snd)
    | (with_reducible apply kept4_mk; fail_if_success with_reducible apply kept4_snd) | with_reducible apply kept1_fst
    | with_reducible apply kept4_snd | with_reducible apply kept3_snd | with_reducible apply kept2_snd
    | ((conv => arg 2; with_reducible whnf); split) | (with_reducible refine Kept1.elim ?_ (by with_reducible assumption))
    | (with_reducible refine Kept2.elim ?_ (by with_reducible assumption))
    | (with_reducible refine Kept3.elim ?_ (by with_reducible assumption))
    | (with_reducible refine Kept4.elim ?_ (by with_reducible assumption))
    | (with_reducible refine KeptOpt.elim ?_ (by with_reducible assumption))
    | (with_reducible refine KeptOpt.elim1 ?_ (by with_reducible assumption))
    | (with_reducible refine KeptOpt.elim2 ?_ (by with_reducible assumption))
    | (with_reducible refine KeptOpt.elim3 ?_ (by with_reducible assumption))
    | (with_reducible refine KeptOpt.elim4 ?_ (by with_reducible assumption))

theorem searchRelease_kept (s : State) (p : Nat) (h0 : Kept wq s) :
    Kept wq (searchRelease s p) := by
  unfold searchRelease
  repeat' first
    | with_reducible assumption | with_reducible intro _ | with_reducible apply setPart_kept
    | with_reducible apply dispatch_kept | with_reducible apply kept_ite | fail_if_no_progress with_reducible apply kept_upd
    | with_reducible apply kept_foldl | with_reducible apply kept1_foldl | ((conv => arg 2; with_reducible whnf); split)

theorem setQuery_kept (s : State) (slot : Nat) (x : Index) (n : Nat) (q : Query) (h0 : Kept wq s) :
    Kept wq (setQuery s slot x n q) := by
  unfold setQuery
  repeat' first
    | with_reducible assumption | with_reducible apply setVse_kept | fail_if_no_progress with_reducible apply kept_upd

theorem pinMiss_kept (s : State) (slot : Nat) (x : Index) (pg : Nat) (h0 : Kept wq s) :
    Kept wq (pinMiss s slot x pg) := by
  unfold pinMiss
  repeat' first
    | with_reducible assumption | with_reducible intro _ | with_reducible apply incSat_kept
    | with_reducible apply setVse_kept | with_reducible apply kept_ite | fail_if_no_progress with_reducible apply kept_upd
    | ((conv => arg 2; with_reducible whnf); split)

theorem scanReturn_kept (s : State) (slot : Nat) (n : Nat) (p : Nat) (engine : Nat) (inst : Nat) (h0 : Kept wq s) :
    Kept wq (scanReturn s slot n p engine inst) := by
  unfold scanReturn
  repeat' first
    | with_reducible assumption | with_reducible intro _ | with_reducible apply pinMiss_kept
    | with_reducible apply setQuery_kept | with_reducible apply staleMessage_kept | with_reducible apply kept_ite
    | fail_if_no_progress with_reducible apply kept_upd | ((conv => arg 2; with_reducible whnf); split)

theorem readReturn_kept (s : State) (slot : Nat) (n : Nat) (key : Nat) (engine : Nat) (inst : Nat) (h0 : Kept wq s) :
    Kept wq (readReturn s slot n key engine inst) := by
  unfold readReturn
  repeat' first
    | with_reducible assumption | with_reducible intro _ | with_reducible apply pinMiss_kept
    | with_reducible apply setQuery_kept | with_reducible apply staleMessage_kept | with_reducible apply kept_ite
    | fail_if_no_progress with_reducible apply kept_upd | ((conv => arg 2; with_reducible whnf); split)

theorem dropOld_kept (s : State) (slot : Nat) (h0 : Kept wq s) :
    Kept wq (dropOld s slot) := by
  unfold dropOld
  repeat' first
    | with_reducible assumption | with_reducible intro _ | with_reducible apply setVse_kept
    | with_reducible apply objDel_kept | fail_if_no_progress with_reducible apply kept_upd | with_reducible apply kept_foldl
    | with_reducible apply kept1_foldl | ((conv => arg 2; with_reducible whnf); split)

theorem endQuery_kept (s : State) (slot : Nat) (n : Nat) (h0 : Kept wq s) :
    Kept wq (endQuery s slot n) := by
  unfold endQuery
  repeat' first
    | with_reducible assumption | with_reducible intro _ | with_reducible apply setPart_kept
    | with_reducible apply setVse_kept | with_reducible apply dropOld_kept | with_reducible apply endGalley_kept
    | with_reducible apply policeDone_kept | with_reducible apply tryClose_kept | with_reducible apply kept_ite
    | fail_if_no_progress with_reducible apply kept_upd | ((conv => arg 2; with_reducible whnf); split)

theorem queryDone_kept (s : State) (slot : Nat) (n : Nat) (h0 : Kept wq s) :
    Kept wq (queryDone s slot n) := by
  unfold queryDone
  repeat' first
    | with_reducible assumption | with_reducible intro _ | with_reducible apply complete_kept
    | with_reducible apply completeFail_kept | with_reducible apply endQuery_kept | with_reducible apply itemWrite_kept
    | with_reducible apply kept_ite | ((conv => arg 2; with_reducible whnf); split)
    | (with_reducible refine KeptEx.elim ?_ (by with_reducible assumption))

theorem appendSide_kept (s : State) (slot : Nat) (x : Index) (id : Nat) (attr : BitVec 32) (delete : Bool) (vec : List (BitVec 32)) (src : Option Src) (doc : Bool) (h0 : Kept wq s) :
    Kept wq (appendSide s slot x id attr delete vec src doc) := by
  unfold appendSide
  repeat' first
    | with_reducible assumption | with_reducible intro _ | with_reducible apply setVse_kept | with_reducible apply kept_ite
    | fail_if_no_progress with_reducible apply kept_upd | ((conv => arg 2; with_reducible whnf); split)

theorem insertBody_kept (src : Src) (slot : Nat) (attr : BitVec 32) (id : Word) (addr : Word) (s : State) (h0 : Kept wq s) :
    Kept1 wq (insertBody src slot attr id addr s) := by
  unfold insertBody
  repeat' first
    | with_reducible assumption | with_reducible intro _ | with_reducible apply appendSide_kept
    | with_reducible apply kept_ite | with_reducible apply kept1_ite | fail_if_no_progress with_reducible apply kept1_mkfst
    | (with_reducible apply kept1_mk; fail_if_success with_reducible apply kept1_fst)
    | ((conv => arg 2; with_reducible whnf); split)

theorem deleteBody_kept (src : Src) (slot : Nat) (id : Word) (s : State) (h0 : Kept wq s) :
    Kept1 wq (deleteBody src slot id s) := by
  unfold deleteBody
  repeat' first
    | with_reducible assumption | with_reducible intro _ | with_reducible apply appendSide_kept
    | with_reducible apply kept_ite | with_reducible apply kept1_ite | fail_if_no_progress with_reducible apply kept1_mkfst
    | (with_reducible apply kept1_mk; fail_if_success with_reducible apply kept1_fst)
    | ((conv => arg 2; with_reducible whnf); split)

theorem sideClose_kept (s : State) (slot : Nat) (h0 : Kept wq s) :
    Kept wq (sideClose s slot) := by
  unfold sideClose
  repeat' first
    | with_reducible assumption | with_reducible intro _ | with_reducible apply setVse_kept | with_reducible apply kept_ite
    | ((conv => arg 2; with_reducible whnf); split)

theorem objPatch_kept (s : State) (id : Nat) (a : Nat) (bs : List Byte) (h0 : Kept wq s) :
    Kept wq (objPatch s id a bs) := by
  unfold objPatch
  repeat' first
    | with_reducible assumption | with_reducible apply objStore_kept | ((conv => arg 2; with_reducible whnf); split)

theorem recDurable_kept (slot : Nat) (x : Index) (s : State) (r : SideRec) (h0 : Kept wq s) :
    Kept wq (recDurable slot x s r) := by
  unfold recDurable
  repeat' first
    | with_reducible assumption | with_reducible intro _ | with_reducible apply incWrap_kept
    | with_reducible apply setFld_kept | with_reducible apply complete_kept | with_reducible apply indexNotice_kept
    | with_reducible apply objPatch_kept | with_reducible apply kept_ite | ((conv => arg 2; with_reducible whnf); split)

theorem sideDurable_kept (s : State) (slot : Nat) (h0 : Kept wq s) :
    Kept wq (sideDurable s slot) := by
  unfold sideDurable
  repeat' first
    | with_reducible assumption | with_reducible intro _ | with_reducible apply incWrap_kept
    | with_reducible apply setVse_kept | with_reducible apply recDurable_kept | with_reducible apply tryClose_kept
    | with_reducible apply kept_ite | fail_if_no_progress with_reducible apply kept_upd | with_reducible apply kept_foldl
    | with_reducible apply kept1_foldl | ((conv => arg 2; with_reducible whnf); split)

theorem mergeBody_kept (src : Src) (slot : Nat) (id : Nat) (s : State) (h0 : Kept wq s) :
    Kept1 wq (mergeBody src slot id s) := by
  unfold mergeBody
  repeat' first
    | with_reducible assumption | with_reducible intro _ | with_reducible apply setFld_kept
    | with_reducible apply setVse_kept | with_reducible apply kept_ite | with_reducible apply kept1_ite
    | fail_if_no_progress with_reducible apply kept_upd | fail_if_no_progress with_reducible apply kept1_mkfst
    | (with_reducible apply kept1_mk; fail_if_success with_reducible apply kept1_fst)
    | ((conv => arg 2; with_reducible whnf); split)

theorem mergeChange_kept (s : State) (slot : Nat) (h0 : Kept wq s) :
    Kept wq (mergeChange s slot) := by
  unfold mergeChange
  repeat' first
    | with_reducible assumption | with_reducible intro _ | with_reducible apply setFld_kept
    | with_reducible apply setVse_kept | with_reducible apply chargeWrite_kept | with_reducible apply complete_kept
    | with_reducible apply completeFail_kept | with_reducible apply dropOld_kept | with_reducible apply objStore_kept
    | with_reducible apply tryClose_kept | with_reducible apply kept_ite | fail_if_no_progress with_reducible apply kept_upd
    | with_reducible apply kept_foldl | with_reducible apply kept1_foldl | ((conv => arg 2; with_reducible whnf); split)

theorem docBody_kept (src : Src) (slot : Nat) (tokens : Nat) (attr : BitVec 32) (id : Word) (addr : Word) (s : State) (h0 : Kept wq s) :
    Kept1 wq (docBody src slot tokens attr id addr s) := by
  unfold docBody
  repeat' first
    | with_reducible assumption | with_reducible intro _ | with_reducible apply setVse_kept | with_reducible apply kept_ite
    | with_reducible apply kept1_ite | fail_if_no_progress with_reducible apply kept_upd
    | fail_if_no_progress with_reducible apply kept1_mkfst
    | (with_reducible apply kept1_mk; fail_if_success with_reducible apply kept1_fst)
    | ((conv => arg 2; with_reducible whnf); split)

theorem putVector_kept (s : State) (w : List Word) (vs : Nat → List Nat) (h0 : Kept wq s) :
    KeptOpt (Kept1 wq) (putVector s w vs) := by
  unfold putVector
  repeat' first
    | with_reducible assumption | with_reducible intro _ | with_reducible apply setVse_kept
    | with_reducible apply appendSide_kept | with_reducible apply indexNotice_kept | with_reducible apply kept_ite
    | with_reducible apply kept1_ite | fail_if_no_progress with_reducible apply kept_upd
    | fail_if_no_progress with_reducible apply kept1_mkfst
    | (with_reducible apply kept1_mk; fail_if_success with_reducible apply kept1_fst) | with_reducible apply keptOpt_some
    | with_reducible apply keptOpt_none | with_reducible apply keptOpt_map | with_reducible apply keptOpt_pure
    | with_reducible apply keptOpt_bind | with_reducible apply keptOpt_bindO | ((conv => arg 2; with_reducible whnf); split)

theorem vsrPutBody_kept (x : CellItem) (s : State) (c : Cell) (h0 : Kept wq s) :
    KeptC wq (vsrPutBody x s c) := by
  unfold vsrPutBody
  repeat' first
    | with_reducible assumption | with_reducible intro _ | with_reducible apply draw_kept
    | with_reducible apply putVector_kept | with_reducible apply kept_ite | with_reducible apply kept1_ite
    | with_reducible apply keptC_ite | fail_if_no_progress with_reducible apply kept1_mkfst
    | (with_reducible apply kept1_mk; fail_if_success with_reducible apply kept1_fst)
    | fail_if_no_progress with_reducible apply kept2_mksnd
    | (with_reducible apply kept2_mk; fail_if_success with_reducible apply kept2_snd)
    | (with_reducible apply kept3_mk; fail_if_success with_reducible apply kept3_snd)
    | (with_reducible apply kept4_mk; fail_if_success with_reducible apply kept4_snd) | with_reducible apply keptOpt_some
    | with_reducible apply keptOpt_none | with_reducible apply keptOpt_map | with_reducible apply keptOpt_pure
    | with_reducible apply keptOpt_bind | with_reducible apply keptOpt_bindO | with_reducible apply keptOpt_bindO
    | with_reducible apply keptC_ok | with_reducible apply keptC_jump | with_reducible apply keptC_exc
    | with_reducible apply keptC_wait | with_reducible apply kept1_fst | with_reducible apply kept4_snd
    | with_reducible apply kept3_snd | with_reducible apply kept2_snd | ((conv => arg 2; with_reducible whnf); split)
    | (with_reducible refine Kept1.elim ?_ (by with_reducible assumption))
    | (with_reducible refine Kept2.elim ?_ (by with_reducible assumption))
    | (with_reducible refine Kept3.elim ?_ (by with_reducible assumption))
    | (with_reducible refine Kept4.elim ?_ (by with_reducible assumption))
    | (with_reducible refine KeptOpt.elim ?_ (by with_reducible assumption))
    | (with_reducible refine KeptOpt.elim1 ?_ (by with_reducible assumption))
    | (with_reducible refine KeptOpt.elim2 ?_ (by with_reducible assumption))
    | (with_reducible refine KeptOpt.elim3 ?_ (by with_reducible assumption))
    | (with_reducible refine KeptOpt.elim4 ?_ (by with_reducible assumption))

theorem vsrScanBody_kept (x : CellItem) (s : State) (c : Cell) (h0 : Kept wq s) :
    KeptC wq (vsrScanBody x s c) := by
  unfold vsrScanBody
  repeat' first
    | with_reducible assumption | with_reducible intro _ | with_reducible apply memCorrected_kept
    | with_reducible apply memError_kept | with_reducible apply kept_ite | with_reducible apply keptC_ite
    | with_reducible apply keptC_ok | with_reducible apply keptC_jump | with_reducible apply keptC_exc
    | with_reducible apply keptC_wait | ((conv => arg 2; with_reducible whnf); split)

theorem meter_kept (s : State) (inputUj : Nat) (busy : Nat) (l : List (Nat × Nat)) (h0 : Kept wq s) :
    Kept wq (meter s inputUj busy l) := by
  unfold meter
  repeat' first
    | with_reducible assumption | with_reducible intro _ | with_reducible apply incWrap_kept | with_reducible apply kept_ite
    | with_reducible apply kept_foldl | with_reducible apply kept1_foldl | ((conv => arg 2; with_reducible whnf); split)

/-! ### Bays -/

theorem showBays_kept (s : State) (h0 : Kept wq s) :
    Kept wq (showBays s) := by
  unfold showBays
  repeat' first
    | with_reducible assumption | with_reducible intro _ | with_reducible apply setFld_kept | with_reducible apply edge_kept
    | with_reducible apply kept_ite | ((conv => arg 2; with_reducible whnf); split)

theorem setBst_kept (s : State) (b : Nat) (st : Nat) (h0 : Kept wq s) :
    Kept wq (setBst s b st) := by
  unfold setBst
  repeat' first
    | with_reducible assumption | with_reducible apply setBay_kept | with_reducible apply setFld_kept
    | with_reducible apply showBays_kept | fail_if_no_progress with_reducible apply kept_upd

theorem presence_kept (s : State) (b : Nat) (h0 : Kept wq s) :
    Kept wq (presence s b) := by
  unfold presence
  repeat' first
    | with_reducible assumption | with_reducible intro _ | with_reducible apply setBay_kept
    | with_reducible apply setFld_kept | with_reducible apply edge_kept | with_reducible apply setBst_kept
    | with_reducible apply kept_ite | fail_if_no_progress with_reducible apply kept_upd
    | ((conv => arg 2; with_reducible whnf); split)

theorem holdUp_kept (s : State) (b : Nat) (h0 : Kept wq s) :
    Kept wq (holdUp s b) := by
  unfold holdUp
  repeat' first
    | with_reducible assumption | with_reducible intro _ | with_reducible apply setBay_kept
    | with_reducible apply setFld_kept | with_reducible apply capacityChange_kept | with_reducible apply edge_kept
    | with_reducible apply setBst_kept | with_reducible apply showBays_kept | with_reducible apply kept_ite
    | fail_if_no_progress with_reducible apply kept_upd | ((conv => arg 2; with_reducible whnf); split)

theorem holdUpLate_kept (s : State) (b : Nat) (h0 : Kept wq s) :
    Kept wq (holdUpLate s b) := by
  unfold holdUpLate
  repeat' first
    | with_reducible assumption | with_reducible intro _ | with_reducible apply setFld_kept
    | with_reducible apply setBst_kept | with_reducible apply kept_ite | ((conv => arg 2; with_reducible whnf); split)

theorem showWear_kept (s : State) (b : Nat) (w : WearRec) (h0 : Kept wq s) :
    Kept wq (showWear s b w) := by
  unfold showWear
  repeat' first
    | with_reducible assumption | with_reducible apply hostWr_kept | with_reducible apply setFld_kept

theorem colophonRead_kept (s : State) (b : Nat) (c : Colophon) (wa : Option WearRec) (wb : Option WearRec) (sb : Option WearRec) (erased : Bool) (h0 : Kept wq s) :
    Kept wq (colophonRead s b c wa wb sb erased) := by
  unfold colophonRead
  repeat' first
    | with_reducible assumption | with_reducible intro _ | with_reducible apply setBay_kept
    | with_reducible apply setFld_kept | with_reducible apply fault_kept | with_reducible apply setBst_kept
    | with_reducible apply showWear_kept | with_reducible apply kept_ite | fail_if_no_progress with_reducible apply kept_upd
    | ((conv => arg 2; with_reducible whnf); split)

theorem i3cQuiet_kept (s : State) (b : Nat) (h0 : Kept wq s) :
    Kept wq (i3cQuiet s b) := by
  unfold i3cQuiet
  repeat' first
    | with_reducible assumption | with_reducible intro _ | with_reducible apply fault_kept
    | with_reducible apply setBst_kept | with_reducible apply kept_ite | ((conv => arg 2; with_reducible whnf); split)

theorem sendFlit_kept (s : State) (b : Nat) (typ : Nat) (channel : Nat) (optag : Nat) (payload : List Byte) (h0 : Kept wq s) :
    Kept wq (sendFlit s b typ channel optag payload) := by
  unfold sendFlit
  repeat' first
    | with_reducible assumption | with_reducible intro _ | with_reducible apply setBay_kept | with_reducible apply kept_ite
    | fail_if_no_progress with_reducible apply kept_upd | ((conv => arg 2; with_reducible whnf); split)

theorem sendCommand_kept (s : State) (b : Nat) (channel : Nat) (optag : Nat) (payload : List Byte) (h0 : Kept wq s) :
    Kept wq (sendCommand s b channel optag payload) := by
  unfold sendCommand
  repeat' first
    | with_reducible assumption | with_reducible intro _ | with_reducible apply setBay_kept
    | with_reducible apply sendFlit_kept | with_reducible apply kept_ite | fail_if_no_progress with_reducible apply kept_upd
    | ((conv => arg 2; with_reducible whnf); split)

theorem sendIssuer_kept (b : Nat) (s : State) (ch : Nat) (h0 : Kept wq s) :
    Kept wq (sendIssuer b s ch) := by
  unfold sendIssuer
  repeat' first
    | with_reducible assumption | with_reducible apply setBay_kept | with_reducible apply sendFlit_kept
    | fail_if_no_progress with_reducible apply kept_upd

theorem linkUp_kept (s : State) (b : Nat) (lanes : Nat) (h0 : Kept wq s) :
    Kept wq (linkUp s b lanes) := by
  unfold linkUp
  repeat' first
    | with_reducible assumption | with_reducible intro _ | with_reducible apply setBay_kept
    | with_reducible apply setFld_kept | with_reducible apply sendIssuer_kept | with_reducible apply setBst_kept
    | fail_if_no_progress with_reducible apply kept_upd | with_reducible apply kept_foldl | with_reducible apply kept1_foldl

theorem trained_kept (s : State) (b : Nat) (lanes : Nat) (same : Bool) (h0 : Kept wq s) :
    Kept wq (trained s b lanes same) := by
  unfold trained
  repeat' first
    | with_reducible assumption | with_reducible intro _ | with_reducible apply cartridgeLost_kept
    | with_reducible apply linkUp_kept | with_reducible apply setBst_kept | with_reducible apply kept_ite
    | ((conv => arg 2; with_reducible whnf); split)

theorem retryTraining_kept (s : State) (b : Nat) (lanes : Nat) (same : Bool) (h0 : Kept wq s) :
    Kept wq (retryTraining s b lanes same) := by
  unfold retryTraining
  repeat' first
    | with_reducible assumption | with_reducible intro _ | with_reducible apply linkUp_kept
    | with_reducible apply setBst_kept | with_reducible apply kept_ite | ((conv => arg 2; with_reducible whnf); split)

theorem writeWear_kept (s : State) (b : Nat) (accepted : Bool) (h0 : Kept wq s) :
    Kept wq (writeWear s b accepted) := by
  unfold writeWear
  repeat' first
    | with_reducible assumption | with_reducible intro _ | with_reducible apply setBay_kept
    | with_reducible apply accepted_kept | with_reducible apply kept_ite | fail_if_no_progress with_reducible apply kept_upd
    | ((conv => arg 2; with_reducible whnf); split)

theorem freshCartridge_kept (s : State) (b : Nat) (h0 : Kept wq s) :
    Kept wq (freshCartridge s b) := by
  unfold freshCartridge
  repeat' first
    | with_reducible assumption | with_reducible intro _ | with_reducible apply kept_ite
    | fail_if_no_progress with_reducible apply kept_upd | ((conv => arg 2; with_reducible whnf); split)

theorem replayed_kept (s : State) (b : Nat) (h0 : Kept wq s) :
    Kept wq (replayed s b) := by
  unfold replayed
  repeat' first
    | with_reducible assumption | with_reducible intro _ | with_reducible apply setFld_kept
    | with_reducible apply capacityChange_kept | with_reducible apply restoreBay_kept | with_reducible apply setBst_kept
    | with_reducible apply kept_ite | fail_if_no_progress with_reducible apply kept_upd
    | ((conv => arg 2; with_reducible whnf); split)

theorem replayEnd_kept (s : State) (b : Nat) (opened : Bool) (n : Nat) (recs : List (DirRec × HeadPage)) (h0 : Kept wq s) :
    Kept wq (replayEnd s b opened n recs) := by
  unfold replayEnd
  repeat' first
    | with_reducible assumption | with_reducible intro _ | with_reducible apply setBay_kept
    | with_reducible apply fault_kept | with_reducible apply freshCartridge_kept | with_reducible apply replayed_kept
    | with_reducible apply setBst_kept | with_reducible apply writeWear_kept | with_reducible apply kept_ite
    | fail_if_no_progress with_reducible apply kept_upd | with_reducible apply kept_foldl | with_reducible apply kept1_foldl
    | ((conv => arg 2; with_reducible whnf); split)

theorem foreignLate_kept (s : State) (b : Nat) (h0 : Kept wq s) :
    Kept wq (foreignLate s b) := by
  unfold foreignLate
  repeat' first
    | with_reducible assumption | with_reducible intro _ | with_reducible apply fault_kept
    | with_reducible apply setBst_kept | with_reducible apply kept_ite | ((conv => arg 2; with_reducible whnf); split)

theorem owedAgain_kept (s : State) (b : Nat) (x : Nat × Session) (h0 : Kept wq s) :
    Kept wq (owedAgain s b x) := by
  unfold owedAgain
  repeat' first
    | with_reducible assumption | with_reducible intro _ | with_reducible apply tombstone_kept
    | with_reducible apply kept_ite | fail_if_no_progress with_reducible apply kept_upd
    | ((conv => arg 2; with_reducible whnf); split)

theorem searchEnds_kept (st : Nat) (s : State) (slot : Nat) (h0 : Kept wq s) :
    Kept wq (searchEnds st s slot) := by
  unfold searchEnds
  repeat' first
    | with_reducible assumption | with_reducible intro _ | with_reducible apply setFld_kept
    | with_reducible apply setVse_kept | with_reducible apply completeFail_kept | with_reducible apply endQuery_kept
    | with_reducible apply indexNotice_kept | with_reducible apply tryClose_kept | with_reducible apply kept_ite
    | fail_if_no_progress with_reducible apply kept_upd | with_reducible apply kept_foldl | with_reducible apply kept1_foldl
    | ((conv => arg 2; with_reducible whnf); split)

theorem searchLost_kept (s : State) (slot : Nat) (h0 : Kept wq s) :
    Kept wq (searchLost s slot) := by
  unfold searchLost
  repeat' first
    | with_reducible assumption | with_reducible apply searchEnds_kept

theorem bayGone_kept (s : State) (b : Nat) (h0 : Kept wq s) :
    Kept wq (bayGone s b) := by
  unfold bayGone
  repeat' first
    | with_reducible assumption | with_reducible intro _ | with_reducible apply setBay_kept
    | with_reducible apply abortRevival_kept | with_reducible apply completeFail_kept | with_reducible apply owedAgain_kept
    | with_reducible apply parkFailed_kept | with_reducible apply searchLost_kept
    | fail_if_no_progress with_reducible apply kept_upd | with_reducible apply kept_foldl | with_reducible apply kept1_foldl

theorem clearBay_kept (s : State) (b : Nat) (h0 : Kept wq s) :
    Kept wq (clearBay s b) := by
  unfold clearBay
  repeat' first
    | with_reducible assumption | with_reducible apply setBay_kept | with_reducible apply setFld_kept
    | with_reducible apply setReg_kept

theorem removed_kept (s : State) (b : Nat) (h0 : Kept wq s) :
    Kept wq (removed s b) := by
  unfold removed
  repeat' first
    | with_reducible assumption | with_reducible intro _ | with_reducible apply setBay_kept
    | with_reducible apply setFld_kept | with_reducible apply bayGone_kept | with_reducible apply capacityChange_kept
    | with_reducible apply clearBay_kept | with_reducible apply edge_kept | with_reducible apply setBst_kept
    | with_reducible apply showBays_kept | with_reducible apply kept_ite | fail_if_no_progress with_reducible apply kept_upd
    | ((conv => arg 2; with_reducible whnf); split)

theorem endLife_kept (s : State) (b : Nat) (reason : Nat) (h0 : Kept wq s) :
    Kept wq (endLife s b reason) := by
  unfold endLife
  repeat' first
    | with_reducible assumption | with_reducible intro _ | with_reducible apply setBay_kept
    | with_reducible apply setFld_kept | with_reducible apply capacityChange_kept | with_reducible apply completeFail_kept
    | with_reducible apply parkFailed_kept | with_reducible apply setBst_kept | with_reducible apply writeWear_kept
    | with_reducible apply kept_ite | fail_if_no_progress with_reducible apply kept_upd | with_reducible apply kept_foldl
    | with_reducible apply kept1_foldl | ((conv => arg 2; with_reducible whnf); split)

theorem holdUpBad_kept (s : State) (b : Nat) (h0 : Kept wq s) :
    Kept wq (holdUpBad s b) := by
  unfold holdUpBad
  repeat' first
    | with_reducible assumption | with_reducible intro _ | with_reducible apply setBay_kept
    | with_reducible apply setFld_kept | with_reducible apply capacityChange_kept | with_reducible apply edge_kept
    | with_reducible apply showBays_kept | with_reducible apply kept_ite | fail_if_no_progress with_reducible apply kept_upd
    | ((conv => arg 2; with_reducible whnf); split)

theorem crtPutBody_kept (src : Src) (id : Nat) (source : Word) (len : Nat) (s : State) (h0 : Kept wq s) :
    Kept1 wq (crtPutBody src id source len s) := by
  unfold crtPutBody
  repeat' first
    | with_reducible assumption | with_reducible intro _ | with_reducible apply ensureKey_kept
    | with_reducible apply objPut_kept | with_reducible apply kept_ite | with_reducible apply kept1_ite
    | with_reducible apply kept_foldl | with_reducible apply kept1_foldl
    | fail_if_no_progress with_reducible apply kept1_mkfst
    | (with_reducible apply kept1_mk; fail_if_success with_reducible apply kept1_fst)
    | ((conv => arg 2; with_reducible whnf); split)

theorem crtGetBody_kept (src : Src) (id : Nat) (dest : Word) (offset : Nat) (len : Nat) (s : State) (h0 : Kept wq s) :
    Kept1 wq (crtGetBody src id dest offset len s) := by
  unfold crtGetBody
  repeat' first
    | with_reducible assumption | with_reducible apply itemWrite_kept | fail_if_no_progress with_reducible apply kept1_mkfst
    | (with_reducible apply kept1_mk; fail_if_success with_reducible apply kept1_fst)
    | ((conv => arg 2; with_reducible whnf); split) | (with_reducible refine KeptEx.elim ?_ (by with_reducible assumption))

theorem crtDelBody_kept (src : Src) (id : Nat) (s : State) (h0 : Kept wq s) :
    Kept1 wq (crtDelBody src id s) := by
  unfold crtDelBody
  repeat' first
    | with_reducible assumption | with_reducible intro _ | with_reducible apply objDel_kept | with_reducible apply kept_ite
    | with_reducible apply kept1_ite | fail_if_no_progress with_reducible apply kept1_mkfst
    | (with_reducible apply kept1_mk; fail_if_success with_reducible apply kept1_fst)
    | ((conv => arg 2; with_reducible whnf); split)

theorem ejectBody_kept (src : Src) (b : Nat) (s : State) (h0 : Kept wq s) :
    Kept1 wq (ejectBody src b s) := by
  unfold ejectBody
  repeat' first
    | with_reducible assumption | with_reducible intro _ | with_reducible apply setBay_kept
    | with_reducible apply capacityChange_kept | with_reducible apply setBst_kept | with_reducible apply kept_ite
    | with_reducible apply kept1_ite | fail_if_no_progress with_reducible apply kept_upd
    | fail_if_no_progress with_reducible apply kept1_mkfst
    | (with_reducible apply kept1_mk; fail_if_success with_reducible apply kept1_fst)
    | ((conv => arg 2; with_reducible whnf); split)

theorem ejected_kept (s : State) (b : Nat) (h0 : Kept wq s) :
    Kept wq (ejected s b) := by
  unfold ejected
  repeat' first
    | with_reducible assumption | with_reducible intro _ | with_reducible apply setBay_kept
    | with_reducible apply capacityChange_kept | with_reducible apply complete_kept | with_reducible apply setBst_kept
    | with_reducible apply writeWear_kept | with_reducible apply kept_ite
    | fail_if_no_progress with_reducible apply kept_upd | with_reducible apply kept_foldl | with_reducible apply kept1_foldl
    | ((conv => arg 2; with_reducible whnf); split)

theorem formatBody_kept (src : Src) (b : Nat) (s : State) (h0 : Kept wq s) :
    Kept1 wq (formatBody src b s) := by
  unfold formatBody
  repeat' first
    | with_reducible assumption | with_reducible intro _ | with_reducible apply incSat_kept
    | with_reducible apply setBay_kept | with_reducible apply freshCartridge_kept | with_reducible apply setBst_kept
    | with_reducible apply kept_ite | with_reducible apply kept1_ite | fail_if_no_progress with_reducible apply kept_upd
    | fail_if_no_progress with_reducible apply kept1_mkfst
    | (with_reducible apply kept1_mk; fail_if_success with_reducible apply kept1_fst)
    | ((conv => arg 2; with_reducible whnf); split)

/-! ### Flash -/

theorem startCompact_kept (s : State) (b : Nat) (h0 : Kept wq s) :
    Kept wq (startCompact s b) := by
  unfold startCompact
  repeat' first
    | with_reducible assumption | with_reducible intro _ | with_reducible apply setBay_kept
    | with_reducible apply setFld_kept | with_reducible apply kept_ite | fail_if_no_progress with_reducible apply kept_upd
    | ((conv => arg 2; with_reducible whnf); split)

theorem compactBody_kept (src : Src) (b : Nat) (s : State) (h0 : Kept wq s) :
    Kept1 wq (compactBody src b s) := by
  unfold compactBody
  repeat' first
    | with_reducible assumption | with_reducible intro _ | with_reducible apply setBay_kept
    | with_reducible apply startCompact_kept | with_reducible apply kept_ite | with_reducible apply kept1_ite
    | fail_if_no_progress with_reducible apply kept_upd | fail_if_no_progress with_reducible apply kept1_mkfst
    | (with_reducible apply kept1_mk; fail_if_success with_reducible apply kept1_fst)
    | ((conv => arg 2; with_reducible whnf); split)

theorem compacted_kept (s : State) (b : Nat) (h0 : Kept wq s) :
    Kept wq (compacted s b) := by
  unfold compacted
  repeat' first
    | with_reducible assumption | with_reducible intro _ | with_reducible apply incWrap_kept
    | with_reducible apply setBay_kept | with_reducible apply setFld_kept | with_reducible apply complete_kept
    | with_reducible apply writeWear_kept | fail_if_no_progress with_reducible apply kept_upd
    | with_reducible apply kept_foldl | with_reducible apply kept1_foldl | ((conv => arg 2; with_reducible whnf); split)

theorem setBlock_kept (s : State) (b : Nat) (n : Nat) (x : Block) (h0 : Kept wq s) :
    Kept wq (setBlock s b n x) := by
  unfold setBlock
  repeat' first
    | with_reducible assumption | with_reducible apply setBay_kept | fail_if_no_progress with_reducible apply kept_upd

theorem issue_kept (s : State) (b : Nat) (tag : Nat) (op : Nat) (o : ChanOp) (h0 : Kept wq s) :
    Kept wq (issue s b tag op o) := by
  unfold issue
  repeat' first
    | with_reducible assumption | with_reducible apply sendCommand_kept

theorem suspendDie_kept (s : State) (b : Nat) (ch : Nat) (die : Nat) (h0 : Kept wq s) :
    Kept wq (suspendDie s b ch die) := by
  unfold suspendDie
  repeat' first
    | with_reducible assumption | with_reducible intro _ | with_reducible apply setBay_kept
    | with_reducible apply sendCommand_kept | with_reducible apply kept_ite
    | fail_if_no_progress with_reducible apply kept_upd | ((conv => arg 2; with_reducible whnf); split)

theorem resumeDie_kept (s : State) (b : Nat) (ch : Nat) (die : Nat) (h0 : Kept wq s) :
    Kept wq (resumeDie s b ch die) := by
  unfold resumeDie
  repeat' first
    | with_reducible assumption | with_reducible intro _ | with_reducible apply setBay_kept
    | with_reducible apply sendCommand_kept | with_reducible apply kept_ite
    | fail_if_no_progress with_reducible apply kept_upd | ((conv => arg 2; with_reducible whnf); split)

theorem endOp_kept (s : State) (b : Nat) (tag : Nat) (o : ChanOp) (h0 : Kept wq s) :
    Kept wq (endOp s b tag o) := by
  unfold endOp
  repeat' first
    | with_reducible assumption | with_reducible apply setBay_kept | with_reducible apply resumeDie_kept
    | fail_if_no_progress with_reducible apply kept_upd

theorem opOf_kept (s : State) (b : Nat) (tag : Nat) (h0 : Kept wq s) :
    Kept2 wq (opOf s b tag) := by
  unfold opOf
  repeat' first
    | with_reducible assumption | with_reducible apply draw_kept | fail_if_no_progress with_reducible apply kept_upd
    | fail_if_no_progress with_reducible apply kept1_mkfst
    | (with_reducible apply kept1_mk; fail_if_success with_reducible apply kept1_fst)
    | fail_if_no_progress with_reducible apply kept2_mksnd
    | (with_reducible apply kept2_mk; fail_if_success with_reducible apply kept2_snd)
    | (with_reducible apply kept3_mk; fail_if_success with_reducible apply kept3_snd)
    | (with_reducible apply kept4_mk; fail_if_success with_reducible apply kept4_snd) | with_reducible apply kept1_fst
    | with_reducible apply kept4_snd | with_reducible apply kept3_snd | with_reducible apply kept2_snd
    | ((conv => arg 2; with_reducible whnf); split) | (with_reducible refine Kept1.elim ?_ (by with_reducible assumption))
    | (with_reducible refine Kept2.elim ?_ (by with_reducible assumption))
    | (with_reducible refine Kept3.elim ?_ (by with_reducible assumption))
    | (with_reducible refine Kept4.elim ?_ (by with_reducible assumption))

theorem readDone_kept (s : State) (b : Nat) (tag : Nat) (decoded : Bool) (h0 : Kept wq s) :
    Kept wq (readDone s b tag decoded) := by
  unfold readDone
  repeat' first
    | with_reducible assumption | with_reducible intro _ | with_reducible apply incSat_kept
    | with_reducible apply setBay_kept | with_reducible apply endOp_kept | with_reducible apply fault_kept
    | with_reducible apply issue_kept | with_reducible apply opOf_kept | with_reducible apply setBlock_kept
    | with_reducible apply kept_ite | with_reducible apply kept1_ite | fail_if_no_progress with_reducible apply kept_upd
    | fail_if_no_progress with_reducible apply kept1_mkfst
    | (with_reducible apply kept1_mk; fail_if_success with_reducible apply kept1_fst)
    | fail_if_no_progress with_reducible apply kept2_mksnd
    | (with_reducible apply kept2_mk; fail_if_success with_reducible apply kept2_snd)
    | (with_reducible apply kept3_mk; fail_if_success with_reducible apply kept3_snd)
    | (with_reducible apply kept4_mk; fail_if_success with_reducible apply kept4_snd) | with_reducible apply kept1_fst
    | with_reducible apply kept4_snd | with_reducible apply kept3_snd | with_reducible apply kept2_snd
    | ((conv => arg 2; with_reducible whnf); split) | (with_reducible refine Kept1.elim ?_ (by with_reducible assumption))
    | (with_reducible refine Kept2.elim ?_ (by with_reducible assumption))
    | (with_reducible refine Kept3.elim ?_ (by with_reducible assumption))
    | (with_reducible refine Kept4.elim ?_ (by with_reducible assumption))

theorem retireBlock_kept (s : State) (b : Nat) (n : Nat) (h0 : Kept wq s) :
    Kept wq (retireBlock s b n) := by
  unfold retireBlock
  repeat' first
    | with_reducible assumption | with_reducible intro _ | with_reducible apply decFld_kept
    | with_reducible apply setBay_kept | with_reducible apply setBlock_kept | with_reducible apply kept_ite
    | fail_if_no_progress with_reducible apply kept_upd | ((conv => arg 2; with_reducible whnf); split)

theorem programFailed_kept (s : State) (b : Nat) (block : Nat) (erase : Bool) (h0 : Kept wq s) :
    Kept wq (programFailed s b block erase) := by
  unfold programFailed
  repeat' first
    | with_reducible assumption | with_reducible intro _ | with_reducible apply incWrap_kept
    | with_reducible apply retireBlock_kept | with_reducible apply kept_ite | ((conv => arg 2; with_reducible whnf); split)

theorem dieLate_kept (s : State) (b : Nat) (ch : Nat) (die : Nat) (h0 : Kept wq s) :
    Kept wq (dieLate s b ch die) := by
  unfold dieLate
  repeat' first
    | with_reducible assumption | with_reducible intro _ | with_reducible apply setBay_kept
    | with_reducible apply fault_kept | with_reducible apply issue_kept | with_reducible apply sendCommand_kept
    | with_reducible apply kept_ite | fail_if_no_progress with_reducible apply kept_upd
    | ((conv => arg 2; with_reducible whnf); split)

theorem sendNak_kept (s : State) (b : Nat) (h0 : Kept wq s) :
    Kept wq (sendNak s b) := by
  unfold sendNak
  repeat' first
    | with_reducible assumption | with_reducible apply setBay_kept | fail_if_no_progress with_reducible apply kept_upd

theorem resendAll_kept (s : State) (b : Nat) (h0 : Kept wq s) :
    Kept wq (resendAll s b) := by
  unfold resendAll
  repeat' first
    | with_reducible assumption | with_reducible apply incSat_kept | with_reducible apply setBay_kept
    | with_reducible apply fault_kept | fail_if_no_progress with_reducible apply kept_upd

theorem takeAck_kept (s : State) (b : Nat) (ack : Nat) (h0 : Kept wq s) :
    Kept wq (takeAck s b ack) := by
  unfold takeAck
  repeat' first
    | with_reducible assumption | with_reducible intro _ | with_reducible apply setBay_kept
    | fail_if_no_progress with_reducible apply kept_upd | ((conv => arg 2; with_reducible whnf); split)

theorem sendHeld_kept (b ch : Nat) : ∀ (n : Nat) (s : State), Kept wq s → Kept wq (sendHeld b ch n s)
  | 0, _, h => h
  | n + 1, s, h => by
    unfold sendHeld
    dsimp only
    split
    · exact h
    · exact sendHeld_kept b ch n _ (sendCommand_kept _ _ _ _ _ (setBay_kept _ _ _ h))

theorem statusFlit_kept (s : State) (b : Nat) (f : Flit) (h0 : Kept wq s) :
    Kept wq (statusFlit s b f) := by
  unfold statusFlit
  repeat' first
    | with_reducible assumption | with_reducible intro _ | with_reducible apply setBay_kept
    | with_reducible apply dieLate_kept | with_reducible apply endOp_kept | with_reducible apply programFailed_kept
    | with_reducible apply staleMessage_kept | with_reducible apply kept_ite
    | fail_if_no_progress with_reducible apply kept_upd | ((conv => arg 2; with_reducible whnf); split)

theorem flitBody_kept (s : State) (b : Nat) (f : Flit) (h0 : Kept wq s) :
    Kept wq (flitBody s b f) := by
  unfold flitBody
  repeat' first
    | with_reducible assumption | with_reducible intro _ | with_reducible apply setBay_kept
    | with_reducible apply sendHeld_kept | with_reducible apply statusFlit_kept | with_reducible apply kept_ite
    | fail_if_no_progress with_reducible apply kept_upd | ((conv => arg 2; with_reducible whnf); split)

theorem flitIn_kept (s : State) (b : Nat) (f : Flit) (h0 : Kept wq s) :
    Kept wq (flitIn s b f) := by
  unfold flitIn
  repeat' first
    | with_reducible assumption | with_reducible intro _ | with_reducible apply setBay_kept
    | with_reducible apply flitBody_kept | with_reducible apply resendAll_kept | with_reducible apply sendNak_kept
    | with_reducible apply takeAck_kept | with_reducible apply kept_ite | fail_if_no_progress with_reducible apply kept_upd
    | ((conv => arg 2; with_reducible whnf); split)

theorem flitLate_kept (s : State) (b : Nat) (h0 : Kept wq s) :
    Kept wq (flitLate s b) := by
  unfold flitLate
  repeat' first
    | with_reducible assumption | with_reducible intro _ | with_reducible apply resendAll_kept
    | with_reducible apply kept_ite | ((conv => arg 2; with_reducible whnf); split)

theorem retrained_kept (s : State) (b : Nat) (lanes : Nat) (h0 : Kept wq s) :
    Kept wq (retrained s b lanes) := by
  unfold retrained
  repeat' first
    | with_reducible assumption | with_reducible intro _ | with_reducible apply draw_kept | with_reducible apply incSat_kept
    | with_reducible apply setBay_kept | with_reducible apply setFld_kept | with_reducible apply bayGone_kept
    | with_reducible apply capacityChange_kept | with_reducible apply cartridgeLost_kept | with_reducible apply fault_kept
    | with_reducible apply setBst_kept | with_reducible apply kept_ite | with_reducible apply kept1_ite
    | fail_if_no_progress with_reducible apply kept_upd | fail_if_no_progress with_reducible apply kept1_mkfst
    | (with_reducible apply kept1_mk; fail_if_success with_reducible apply kept1_fst)
    | fail_if_no_progress with_reducible apply kept2_mksnd
    | (with_reducible apply kept2_mk; fail_if_success with_reducible apply kept2_snd)
    | (with_reducible apply kept3_mk; fail_if_success with_reducible apply kept3_snd)
    | (with_reducible apply kept4_mk; fail_if_success with_reducible apply kept4_snd) | with_reducible apply kept1_fst
    | with_reducible apply kept4_snd | with_reducible apply kept3_snd | with_reducible apply kept2_snd
    | ((conv => arg 2; with_reducible whnf); split)

theorem relocate_kept (s : State) (b : Nat) (n : Nat) (h0 : Kept wq s) :
    Kept wq (relocate s b n) := by
  unfold relocate
  repeat' first
    | with_reducible assumption | with_reducible apply draw_kept | with_reducible apply incWrap_kept
    | with_reducible apply setFld_kept | with_reducible apply setBlock_kept
    | fail_if_no_progress with_reducible apply kept_upd | fail_if_no_progress with_reducible apply kept1_mkfst
    | (with_reducible apply kept1_mk; fail_if_success with_reducible apply kept1_fst)
    | fail_if_no_progress with_reducible apply kept2_mksnd
    | (with_reducible apply kept2_mk; fail_if_success with_reducible apply kept2_snd)
    | (with_reducible apply kept3_mk; fail_if_success with_reducible apply kept3_snd)
    | (with_reducible apply kept4_mk; fail_if_success with_reducible apply kept4_snd) | with_reducible apply kept1_fst
    | with_reducible apply kept4_snd | with_reducible apply kept3_snd | with_reducible apply kept2_snd

theorem patrol_kept (s : State) (b : Nat) (n : Nat) (retried : Bool) (pct : Nat) (h0 : Kept wq s) :
    Kept wq (patrol s b n retried pct) := by
  unfold patrol
  repeat' first
    | with_reducible assumption | with_reducible intro _ | with_reducible apply draw_kept | with_reducible apply incSat_kept
    | with_reducible apply relocate_kept | with_reducible apply setBlock_kept | with_reducible apply kept_ite
    | with_reducible apply kept1_ite | fail_if_no_progress with_reducible apply kept_upd
    | fail_if_no_progress with_reducible apply kept1_mkfst
    | (with_reducible apply kept1_mk; fail_if_success with_reducible apply kept1_fst)
    | fail_if_no_progress with_reducible apply kept2_mksnd
    | (with_reducible apply kept2_mk; fail_if_success with_reducible apply kept2_snd)
    | (with_reducible apply kept3_mk; fail_if_success with_reducible apply kept3_snd)
    | (with_reducible apply kept4_mk; fail_if_success with_reducible apply kept4_snd) | with_reducible apply kept1_fst
    | with_reducible apply kept4_snd | with_reducible apply kept3_snd | with_reducible apply kept2_snd
    | ((conv => arg 2; with_reducible whnf); split)

theorem consolidate_kept (b : Nat) (s : State) (i : Nat) (h0 : Kept wq s) :
    Kept wq (consolidate b s i) := by
  unfold consolidate
  repeat' first
    | with_reducible assumption | with_reducible intro _ | with_reducible apply draw_kept
    | with_reducible apply incWrap_kept | with_reducible apply setSes_kept | with_reducible apply journalSubmit_kept
    | with_reducible apply kept_ite | with_reducible apply kept1_ite | fail_if_no_progress with_reducible apply kept_upd
    | fail_if_no_progress with_reducible apply kept1_mkfst
    | (with_reducible apply kept1_mk; fail_if_success with_reducible apply kept1_fst)
    | fail_if_no_progress with_reducible apply kept2_mksnd
    | (with_reducible apply kept2_mk; fail_if_success with_reducible apply kept2_snd)
    | (with_reducible apply kept3_mk; fail_if_success with_reducible apply kept3_snd)
    | (with_reducible apply kept4_mk; fail_if_success with_reducible apply kept4_snd) | with_reducible apply kept1_fst
    | with_reducible apply kept4_snd | with_reducible apply kept3_snd | with_reducible apply kept2_snd
    | ((conv => arg 2; with_reducible whnf); split) | (with_reducible refine Kept1.elim ?_ (by with_reducible assumption))
    | (with_reducible refine Kept2.elim ?_ (by with_reducible assumption))
    | (with_reducible refine Kept3.elim ?_ (by with_reducible assumption))
    | (with_reducible refine Kept4.elim ?_ (by with_reducible assumption))

theorem collect_kept (s : State) (b : Nat) (h0 : Kept wq s) :
    Kept wq (collect s b) := by
  unfold collect
  repeat' first
    | with_reducible assumption | with_reducible intro _ | with_reducible apply incWrap_kept
    | with_reducible apply consolidate_kept | with_reducible apply kept_ite
    | fail_if_no_progress with_reducible apply kept_upd | with_reducible apply kept_foldl | with_reducible apply kept1_foldl
    | ((conv => arg 2; with_reducible whnf); split)

theorem trySeal_kept (s : State) (b : Nat) (h0 : Kept wq s) :
    Kept wq (trySeal s b) := by
  unfold trySeal
  repeat' first
    | with_reducible assumption | with_reducible intro _ | with_reducible apply setFld_kept | with_reducible apply kept_ite
    | ((conv => arg 2; with_reducible whnf); split)

theorem sealBay_kept (s : State) (b : Nat) (h0 : Kept wq s) :
    Kept wq (sealBay s b) := by
  unfold sealBay
  repeat' first
    | with_reducible assumption | with_reducible intro _ | with_reducible apply setBay_kept
    | with_reducible apply closePage_kept | with_reducible apply journalSubmit_kept | with_reducible apply trySeal_kept
    | with_reducible apply kept_ite | fail_if_no_progress with_reducible apply kept_upd
    | ((conv => arg 2; with_reducible whnf); split)

theorem parkDurable_kept (b : Nat) (r : DirRec) (s : State) (i : Nat) (h0 : Kept wq s) :
    Kept wq (parkDurable b r s i) := by
  unfold parkDurable
  repeat' first
    | with_reducible assumption | with_reducible intro _ | with_reducible apply setSes_kept | with_reducible apply kept_ite
    | fail_if_no_progress with_reducible apply kept_upd | ((conv => arg 2; with_reducible whnf); split)

theorem tombDurable_kept (b : Nat) (r : DirRec) (s : State) (i : Nat) (h0 : Kept wq s) :
    Kept wq (tombDurable b r s i) := by
  unfold tombDurable
  repeat' first
    | with_reducible assumption | with_reducible intro _ | with_reducible apply finishCancel_kept
    | with_reducible apply tombstone_kept | with_reducible apply kept_ite
    | fail_if_no_progress with_reducible apply kept_upd | ((conv => arg 2; with_reducible whnf); split)

theorem recDurableAt_kept (b : Nat) (s : State) (x : DirRec × HeadPage) (h0 : Kept wq s) :
    Kept wq (recDurableAt b s x) := by
  unfold recDurableAt
  repeat' first
    | with_reducible assumption | with_reducible intro _ | with_reducible apply parkDurable_kept
    | with_reducible apply tombDurable_kept | with_reducible apply kept_ite
    | fail_if_no_progress with_reducible apply kept_upd | ((conv => arg 2; with_reducible whnf); split)

theorem pageDurable_kept (s : State) (b : Nat) (h0 : Kept wq s) :
    Kept wq (pageDurable s b) := by
  unfold pageDurable
  repeat' first
    | with_reducible assumption | with_reducible intro _ | with_reducible apply incWrap_kept
    | with_reducible apply setBay_kept | with_reducible apply setFld_kept | with_reducible apply recDurableAt_kept
    | with_reducible apply trySeal_kept | with_reducible apply kept_ite | fail_if_no_progress with_reducible apply kept_upd
    | with_reducible apply kept_foldl | with_reducible apply kept1_foldl | ((conv => arg 2; with_reducible whnf); split)

theorem unpie_kept (s : State) (i : Nat) (e : Session) (c : Copy) (f : Nat) (h0 : Kept wq s) :
    Kept wq (unpie s i e c f) := by
  unfold unpie
  repeat' first
    | with_reducible assumption | with_reducible intro _ | with_reducible apply sesNoticeFree_kept
    | with_reducible apply setFrameBytes_kept | fail_if_no_progress with_reducible apply kept_upd
    | ((conv => arg 2; with_reducible whnf); split)

theorem recoverPage_kept (s : State) (f : Nat) (crcGood : Bool) (lost : Nat) (h0 : Kept wq s) :
    Kept wq (recoverPage s f crcGood lost) := by
  unfold recoverPage
  repeat' first
    | with_reducible assumption | with_reducible intro _ | with_reducible apply faultSession_kept
    | with_reducible apply fromShard_kept | with_reducible apply sesNoticeFree_kept | with_reducible apply unpie_kept
    | with_reducible apply kept_ite | ((conv => arg 2; with_reducible whnf); split)

/-! ### Reset -/

theorem keepFld_kept (old s : State) (f : Field) (h : Kept wq s) : Kept wq (keepFld old s f) := setFld_kept _ _ _ h

theorem resetBase_kept (cold : Bool) (s : State) (h : Kept wq s) : Kept wq (resetBase cold s) :=
  ⟨h.1, regsWf_filter _ h.2.1, h.2.2, rfl⟩

theorem resetDevice_kept (cold : Bool) (s : State) (h0 : Kept wq s) :
    Kept wq (resetDevice cold s) := by
  unfold resetDevice
  repeat' first
    | with_reducible assumption | with_reducible intro _ | with_reducible apply setFld_kept
    | with_reducible apply keepFld_kept | with_reducible apply resetBase_kept | with_reducible apply kept_ite
    | with_reducible apply kept_foldl | with_reducible apply kept1_foldl | ((conv => arg 2; with_reducible whnf); split)

theorem releaseReset_kept (s : State) (h0 : Kept wq s) :
    Kept wq (releaseReset s) := by
  unfold releaseReset
  repeat' first
    | with_reducible assumption | with_reducible apply setFld_kept | fail_if_no_progress with_reducible apply kept_upd

theorem internalReset_kept (s : State) (h0 : Kept wq s) :
    Kept wq (internalReset s) := by
  unfold internalReset
  repeat' first
    | with_reducible assumption | with_reducible apply releaseReset_kept | with_reducible apply resetDevice_kept

theorem fatalStop_kept (s : State) (h0 : Kept wq s) :
    Kept wq (fatalStop s) := by
  unfold fatalStop
  repeat' first
    | with_reducible assumption | with_reducible apply internalReset_kept

end Sys2Proof.Machine
end

