-- ==== Sys2Proof/Laws/KeptFabric.lean ====
section
/-! SUPPORT. Each operation of ports, the fabric, time and faults keeps the queue and the canonical form. -/

namespace Sys2Proof.Machine

variable {wq : List Instr}

/-! ### Ports -/

theorem setPort_kept (s : State) (p : Nat) (x : Port) (h0 : Kept wq s) :
    Kept wq (State.setPort s p x) := by
  unfold State.setPort
  repeat' first
    | with_reducible assumption | fail_if_no_progress with_reducible apply kept_upd

theorem setQp_kept (s : State) (q : Nat) (x : Qp) (h0 : Kept wq s) :
    Kept wq (State.setQp s q x) := by
  unfold State.setQp
  repeat' first
    | with_reducible assumption | fail_if_no_progress with_reducible apply kept_upd

theorem rebind_kept (s : State) (q : Nat) (h0 : Kept wq s) :
    Kept wq (rebind s q) := by
  unfold rebind
  repeat' first
    | with_reducible assumption | with_reducible intro _ | with_reducible apply setQp_kept | with_reducible apply kept_ite
    | fail_if_no_progress with_reducible apply kept_upd | ((conv => arg 2; with_reducible whnf); split)

theorem rebindPort_kept (s : State) (p : Nat) (h0 : Kept wq s) :
    Kept wq (rebindPort s p) := by
  unfold rebindPort
  repeat' first
    | with_reducible assumption | with_reducible intro _ | with_reducible apply rebind_kept | with_reducible apply kept_ite
    | with_reducible apply kept_foldl | with_reducible apply kept1_foldl | ((conv => arg 2; with_reducible whnf); split)

theorem setPst_kept (s : State) (p : Nat) (st : Nat) (h0 : Kept wq s) :
    Kept wq (setPst s p st) := by
  unfold setPst
  repeat' first
    | with_reducible assumption | with_reducible intro _ | with_reducible apply setFld_kept
    | with_reducible apply setPort_kept | with_reducible apply capacityChange_kept | with_reducible apply edge_kept
    | with_reducible apply rebindPort_kept | with_reducible apply kept_ite
    | fail_if_no_progress with_reducible apply kept_upd | ((conv => arg 2; with_reducible whnf); split)

theorem portSignal_kept (s : State) (p : Nat) (h0 : Kept wq s) :
    Kept wq (portSignal s p) := by
  unfold portSignal
  repeat' first
    | with_reducible assumption | with_reducible intro _ | with_reducible apply setPst_kept | with_reducible apply kept_ite
    | ((conv => arg 2; with_reducible whnf); split)

theorem sendDiscovery_kept (s : State) (p : Nat) (h0 : Kept wq s) :
    Kept wq (sendDiscovery s p) := by
  unfold sendDiscovery
  repeat' first
    | with_reducible assumption | with_reducible apply send_kept

theorem portUp_kept (s : State) (p : Nat) (h0 : Kept wq s) :
    Kept wq (portUp s p) := by
  unfold portUp
  repeat' first
    | with_reducible assumption | with_reducible intro _ | with_reducible apply fault_kept
    | with_reducible apply sendDiscovery_kept | with_reducible apply setPst_kept | with_reducible apply kept_ite
    | ((conv => arg 2; with_reducible whnf); split)

theorem portTimeout_kept (s : State) (p : Nat) (h0 : Kept wq s) :
    Kept wq (portTimeout s p) := by
  unfold portTimeout
  repeat' first
    | with_reducible assumption | with_reducible intro _ | with_reducible apply setPst_kept | with_reducible apply kept_ite
    | ((conv => arg 2; with_reducible whnf); split)

theorem portLost_kept (s : State) (p : Nat) (h0 : Kept wq s) :
    Kept wq (portLost s p) := by
  unfold portLost
  repeat' first
    | with_reducible assumption | with_reducible intro _ | with_reducible apply fault_kept
    | with_reducible apply setPst_kept | with_reducible apply kept_ite | ((conv => arg 2; with_reducible whnf); split)

theorem serdesFails_kept (s : State) (p : Nat) (u : Nat) (h0 : Kept wq s) :
    Kept wq (serdesFails s p u) := by
  unfold serdesFails
  repeat' first
    | with_reducible assumption | with_reducible intro _ | with_reducible apply setFld_kept
    | with_reducible apply setPort_kept | with_reducible apply fault_kept | with_reducible apply setPst_kept
    | with_reducible apply kept_ite | fail_if_no_progress with_reducible apply kept_upd
    | ((conv => arg 2; with_reducible whnf); split)

theorem mediaWrite_kept (s : State) (p : Nat) (media : Nat) (cable : Nat) (h0 : Kept wq s) :
    Kept wq (mediaWrite s p media cable) := by
  unfold mediaWrite
  repeat' first
    | with_reducible assumption | with_reducible intro _ | with_reducible apply setFld_kept
    | with_reducible apply setPst_kept | with_reducible apply kept_ite | ((conv => arg 2; with_reducible whnf); split)

theorem ageNeighbour_kept (s : State) (p : Nat) (h0 : Kept wq s) :
    Kept wq (ageNeighbour s p) := by
  unfold ageNeighbour
  repeat' first
    | with_reducible assumption | with_reducible intro _ | with_reducible apply setFld_kept | with_reducible apply kept_ite
    | ((conv => arg 2; with_reducible whnf); split)

theorem discoverAll_kept (s : State) (h0 : Kept wq s) :
    Kept wq (discoverAll s) := by
  unfold discoverAll
  repeat' first
    | with_reducible assumption | with_reducible intro _ | with_reducible apply ageNeighbour_kept
    | with_reducible apply sendDiscovery_kept | with_reducible apply kept_ite
    | fail_if_no_progress with_reducible apply kept_upd | with_reducible apply kept_foldl | with_reducible apply kept1_foldl
    | ((conv => arg 2; with_reducible whnf); split)

theorem discovered_kept (s : State) (p : Nat) (d : Discovery) (h0 : Kept wq s) :
    Kept wq (discovered s p d) := by
  unfold discovered
  repeat' first
    | with_reducible assumption | with_reducible intro _ | with_reducible apply setFld_kept
    | with_reducible apply setPort_kept | with_reducible apply fault_kept | with_reducible apply setPst_kept
    | with_reducible apply kept_ite | fail_if_no_progress with_reducible apply kept_upd
    | ((conv => arg 2; with_reducible whnf); split)

theorem applyComp_kept (s : State) (bs : List Byte) (h0 : Kept wq s) :
    Kept wq (applyComp s bs) := by
  unfold applyComp
  repeat' first
    | with_reducible assumption | with_reducible intro _ | with_reducible apply setFld_kept
    | fail_if_no_progress with_reducible apply kept_upd | with_reducible apply kept_foldl | with_reducible apply kept1_foldl

theorem composeBody_kept (src : Src) (addr : Word) (s : State) (h0 : Kept wq s) :
    Kept1 wq (composeBody src addr s) := by
  unfold composeBody
  repeat' first
    | with_reducible assumption | with_reducible intro _ | with_reducible apply applyComp_kept
    | with_reducible apply kept_ite | with_reducible apply kept1_ite | fail_if_no_progress with_reducible apply kept1_mkfst
    | (with_reducible apply kept1_mk; fail_if_success with_reducible apply kept1_fst)
    | ((conv => arg 2; with_reducible whnf); split)

theorem pauseCheck_kept (p : Nat) (s : State) (c : Nat) (h0 : Kept wq s) :
    Kept wq (pauseCheck p s c) := by
  unfold pauseCheck
  repeat' first
    | with_reducible assumption | with_reducible intro _ | with_reducible apply setPort_kept
    | with_reducible apply send_kept | with_reducible apply kept_ite | fail_if_no_progress with_reducible apply kept_upd
    | ((conv => arg 2; with_reducible whnf); split)

theorem pauseChecks_kept (s : State) (p : Nat) (h0 : Kept wq s) :
    Kept wq (pauseChecks s p) := by
  unfold pauseChecks
  repeat' first
    | with_reducible assumption | with_reducible intro _ | with_reducible apply pauseCheck_kept
    | with_reducible apply kept_foldl | with_reducible apply kept1_foldl

theorem addOcc_kept (s : State) (p : Nat) (c : Nat) (n : Nat) (h0 : Kept wq s) :
    Kept wq (addOcc s p c n) := by
  unfold addOcc
  repeat' first
    | with_reducible assumption | with_reducible apply setPort_kept | with_reducible apply pauseChecks_kept
    | fail_if_no_progress with_reducible apply kept_upd

theorem freeOcc_kept (s : State) (p : Nat) (c : Nat) (n : Nat) (h0 : Kept wq s) :
    Kept wq (freeOcc s p c n) := by
  unfold freeOcc
  repeat' first
    | with_reducible assumption | with_reducible intro _ | with_reducible apply setPort_kept
    | with_reducible apply pauseChecks_kept | with_reducible apply kept_ite
    | fail_if_no_progress with_reducible apply kept_upd | ((conv => arg 2; with_reducible whnf); split)

theorem pauseRefresh_kept (s : State) (p : Nat) (c : Nat) (h0 : Kept wq s) :
    Kept wq (pauseRefresh s p c) := by
  unfold pauseRefresh
  repeat' first
    | with_reducible assumption | with_reducible intro _ | with_reducible apply setPort_kept
    | with_reducible apply pauseCheck_kept | with_reducible apply send_kept | with_reducible apply kept_ite
    | fail_if_no_progress with_reducible apply kept_upd | ((conv => arg 2; with_reducible whnf); split)

theorem pauseIn_kept (s : State) (p : Nat) (c : Nat) (quanta : Nat) (h0 : Kept wq s) :
    Kept wq (pauseIn s p c quanta) := by
  unfold pauseIn
  repeat' first
    | with_reducible assumption | with_reducible intro _ | with_reducible apply incSat_kept
    | with_reducible apply setPort_kept | with_reducible apply kept_ite | fail_if_no_progress with_reducible apply kept_upd
    | ((conv => arg 2; with_reducible whnf); split)

theorem pauseExpires_kept (s : State) (p : Nat) (c : Nat) (h0 : Kept wq s) :
    Kept wq (pauseExpires s p c) := by
  unfold pauseExpires
  repeat' first
    | with_reducible assumption | with_reducible intro _ | with_reducible apply setPort_kept | with_reducible apply kept_ite
    | fail_if_no_progress with_reducible apply kept_upd | ((conv => arg 2; with_reducible whnf); split)

theorem pauseWatchdog_kept (s : State) (p : Nat) (c : Nat) (h0 : Kept wq s) :
    Kept wq (pauseWatchdog s p c) := by
  unfold pauseWatchdog
  repeat' first
    | with_reducible assumption | with_reducible intro _ | with_reducible apply setFld_kept
    | with_reducible apply setPort_kept | with_reducible apply fault_kept | with_reducible apply rebindPort_kept
    | with_reducible apply kept_ite | fail_if_no_progress with_reducible apply kept_upd
    | ((conv => arg 2; with_reducible whnf); split)

theorem unstick_kept (s : State) (p : Nat) (c : Nat) (h0 : Kept wq s) :
    Kept wq (unstick s p c) := by
  unfold unstick
  repeat' first
    | with_reducible assumption | with_reducible intro _ | with_reducible apply setFld_kept
    | with_reducible apply setPort_kept | with_reducible apply rebindPort_kept | with_reducible apply kept_ite
    | fail_if_no_progress with_reducible apply kept_upd | ((conv => arg 2; with_reducible whnf); split)

/-! ### Fabric -/

/-- The state of a result, and `Kept` of it. -/
def KeptP (wq : List Instr) : PacketOut → Prop
  | .done s => Kept wq s
  | .refuse s _ => Kept wq s
  | .absent _ _ => True
theorem keptP_done {s} (h : Kept wq s) : KeptP wq (.done s) := h
theorem keptP_refuse {s n} (h : Kept wq s) : KeptP wq (.refuse s n) := h
theorem keptP_absent {s n} : KeptP wq (.absent s n) := trivial
theorem KeptP.elimD {o t} (h : KeptP wq o) (e : o = .done t) : Kept wq t := by subst e; exact h
theorem KeptP.elimR {o t r} (h : KeptP wq o) (e : o = .refuse t r) : Kept wq t := by subst e; exact h

theorem showSlots_kept (s : State) (h0 : Kept wq s) :
    Kept wq (showSlots s) := by
  unfold showSlots
  repeat' first
    | with_reducible assumption | with_reducible apply setFld_kept

theorem sendFrame_kept (s : State) (p : Nat) (f : EftFrame) (h0 : Kept wq s) :
    Kept wq (sendFrame s p f) := by
  unfold sendFrame
  repeat' first
    | with_reducible assumption | with_reducible intro _ | with_reducible apply send_kept | with_reducible apply kept_ite
    | ((conv => arg 2; with_reducible whnf); split)

theorem sendAck_kept (s : State) (q : Nat) (kind : Nat) (ackPsn : Nat) (retryUs : Nat) (syndrome : Nat) (h0 : Kept wq s) :
    Kept wq (sendAck s q kind ackPsn retryUs syndrome) := by
  unfold sendAck
  repeat' first
    | with_reducible assumption | with_reducible apply setQp_kept | with_reducible apply sendFrame_kept
    | fail_if_no_progress with_reducible apply kept_upd

theorem sendConnect_kept (s : State) (q : Nat) (h0 : Kept wq s) :
    Kept wq (sendConnect s q) := by
  unfold sendConnect
  repeat' first
    | with_reducible assumption | with_reducible apply sendFrame_kept | fail_if_no_progress with_reducible apply kept_upd
    | ((conv => arg 2; with_reducible whnf); split)

theorem admitWaiting_kept (s : State) (q : Nat) (h0 : Kept wq s) :
    Kept wq (admitWaiting s q) := by
  unfold admitWaiting
  repeat' first
    | with_reducible assumption | with_reducible intro _ | with_reducible apply setQp_kept | with_reducible apply kept_ite
    | fail_if_no_progress with_reducible apply kept_upd | ((conv => arg 2; with_reducible whnf); split)

theorem completeFab_kept (s : State) (i : FabItem) (st : Nat) (r : Word) (h0 : Kept wq s) :
    Kept wq (completeFab s i st r) := by
  unfold completeFab
  repeat' first
    | with_reducible assumption | with_reducible intro _ | with_reducible apply complete_kept
    | with_reducible apply completeFail_kept | with_reducible apply kept_ite | ((conv => arg 2; with_reducible whnf); split)

theorem finishItem_kept (s : State) (q : Nat) (i : FabItem) (st : Nat) (r : Word) (h0 : Kept wq s) :
    Kept wq (finishItem s q i st r) := by
  unfold finishItem
  repeat' first
    | with_reducible assumption | with_reducible intro _ | with_reducible apply setQp_kept
    | with_reducible apply admitWaiting_kept | with_reducible apply completeFab_kept | with_reducible apply kept_ite
    | fail_if_no_progress with_reducible apply kept_upd | ((conv => arg 2; with_reducible whnf); split)

theorem finishConnect_kept (s : State) (q : Nat) (st : Nat) (h0 : Kept wq s) :
    Kept wq (finishConnect s q st) := by
  unfold finishConnect
  repeat' first
    | with_reducible assumption | with_reducible intro _ | with_reducible apply setQp_kept
    | with_reducible apply complete_kept | with_reducible apply completeFail_kept | with_reducible apply kept_ite
    | fail_if_no_progress with_reducible apply kept_upd | ((conv => arg 2; with_reducible whnf); split)

theorem flushQp_kept (s : State) (q : Nat) (st : Nat) (h0 : Kept wq s) :
    Kept wq (flushQp s q st) := by
  unfold flushQp
  repeat' first
    | with_reducible assumption | with_reducible intro _ | with_reducible apply setQp_kept
    | with_reducible apply completeFab_kept | with_reducible apply finishConnect_kept
    | fail_if_no_progress with_reducible apply kept_upd | with_reducible apply kept_foldl | with_reducible apply kept1_foldl

theorem startConnect_kept (s : State) (q : Nat) (src : Option Src) (h0 : Kept wq s) :
    Kept wq (startConnect s q src) := by
  unfold startConnect
  repeat' first
    | with_reducible assumption | with_reducible apply setQp_kept | with_reducible apply rebind_kept
    | with_reducible apply sendConnect_kept | fail_if_no_progress with_reducible apply kept_upd

theorem enterError_kept (s : State) (q : Nat) (st : Nat) (h0 : Kept wq s) :
    Kept wq (enterError s q st) := by
  unfold enterError
  repeat' first
    | with_reducible assumption | with_reducible intro _ | with_reducible apply setQp_kept
    | with_reducible apply flushQp_kept | with_reducible apply startConnect_kept | with_reducible apply kept_ite
    | fail_if_no_progress with_reducible apply kept_upd | ((conv => arg 2; with_reducible whnf); split)

theorem enterInit_kept (s : State) (q : Nat) (h0 : Kept wq s) :
    Kept wq (enterInit s q) := by
  unfold enterInit
  repeat' first
    | with_reducible assumption | with_reducible intro _ | with_reducible apply setQp_kept | with_reducible apply kept_ite
    | fail_if_no_progress with_reducible apply kept_upd | ((conv => arg 2; with_reducible whnf); split)

theorem qpcBody_kept (src : Src) (ownerKind : Nat) (slice : Nat) (cls : Nat) (window : Nat) (depth : Nat) (counter : Word) (s : State) (h0 : Kept wq s) :
    Kept1 wq (qpcBody src ownerKind slice cls window depth counter s) := by
  unfold qpcBody
  repeat' first
    | with_reducible assumption | with_reducible intro _ | with_reducible apply setQp_kept
    | with_reducible apply enterInit_kept | with_reducible apply kept_ite | with_reducible apply kept1_ite
    | fail_if_no_progress with_reducible apply kept_upd | fail_if_no_progress with_reducible apply kept1_mkfst
    | (with_reducible apply kept1_mk; fail_if_success with_reducible apply kept1_fst)
    | ((conv => arg 2; with_reducible whnf); split)

theorem winBody_kept (src : Src) (q : Nat) (w : Window) (s : State) (h0 : Kept wq s) :
    Kept1 wq (winBody src q w s) := by
  unfold winBody
  repeat' first
    | with_reducible assumption | with_reducible intro _ | with_reducible apply setQp_kept | with_reducible apply kept_ite
    | with_reducible apply kept1_ite | fail_if_no_progress with_reducible apply kept_upd
    | fail_if_no_progress with_reducible apply kept1_mkfst
    | (with_reducible apply kept1_mk; fail_if_success with_reducible apply kept1_fst)
    | ((conv => arg 2; with_reducible whnf); split)

theorem connectBody_kept (src : Src) (q : Nat) (dev : Nat) (pq : Nat) (s : State) (h0 : Kept wq s) :
    Kept1 wq (connectBody src q dev pq s) := by
  unfold connectBody
  repeat' first
    | with_reducible assumption | with_reducible intro _ | with_reducible apply setQp_kept
    | with_reducible apply startConnect_kept | with_reducible apply kept_ite | with_reducible apply kept1_ite
    | fail_if_no_progress with_reducible apply kept_upd | fail_if_no_progress with_reducible apply kept1_mkfst
    | (with_reducible apply kept1_mk; fail_if_success with_reducible apply kept1_fst)
    | ((conv => arg 2; with_reducible whnf); split)

theorem qpResetBody_kept (src : Src) (q : Nat) (s : State) (h0 : Kept wq s) :
    Kept1 wq (qpResetBody src q s) := by
  unfold qpResetBody
  repeat' first
    | with_reducible assumption | with_reducible intro _ | with_reducible apply enterInit_kept
    | with_reducible apply flushQp_kept | with_reducible apply showSlots_kept | with_reducible apply kept_ite
    | with_reducible apply kept1_ite | fail_if_no_progress with_reducible apply kept1_mkfst
    | (with_reducible apply kept1_mk; fail_if_success with_reducible apply kept1_fst)
    | ((conv => arg 2; with_reducible whnf); split)

theorem destroyQp_kept (s : State) (q : Nat) (h0 : Kept wq s) :
    Kept wq (destroyQp s q) := by
  unfold destroyQp
  repeat' first
    | with_reducible assumption | with_reducible apply setQp_kept | with_reducible apply flushQp_kept
    | with_reducible apply showSlots_kept | fail_if_no_progress with_reducible apply kept_upd

theorem qpDestroyBody_kept (src : Src) (q : Nat) (s : State) (h0 : Kept wq s) :
    Kept1 wq (qpDestroyBody src q s) := by
  unfold qpDestroyBody
  repeat' first
    | with_reducible assumption | with_reducible intro _ | with_reducible apply destroyQp_kept
    | with_reducible apply kept_ite | with_reducible apply kept1_ite | fail_if_no_progress with_reducible apply kept1_mkfst
    | (with_reducible apply kept1_mk; fail_if_success with_reducible apply kept1_fst)
    | ((conv => arg 2; with_reducible whnf); split)

theorem cancelItems_kept (s : State) (q : Nat) (h0 : Kept wq s) :
    Kept wq (cancelItems s q) := by
  unfold cancelItems
  repeat' first
    | with_reducible assumption | with_reducible intro _ | with_reducible apply setQp_kept
    | with_reducible apply completeFab_kept | fail_if_no_progress with_reducible apply kept_upd
    | with_reducible apply kept_foldl | with_reducible apply kept1_foldl

theorem qpCancelBody_kept (src : Src) (q : Nat) (s : State) (h0 : Kept wq s) :
    Kept1 wq (qpCancelBody src q s) := by
  unfold qpCancelBody
  repeat' first
    | with_reducible assumption | with_reducible intro _ | with_reducible apply cancelItems_kept
    | with_reducible apply kept_ite | with_reducible apply kept1_ite | fail_if_no_progress with_reducible apply kept1_mkfst
    | (with_reducible apply kept1_mk; fail_if_success with_reducible apply kept1_fst)
    | ((conv => arg 2; with_reducible whnf); split)

theorem qpQueryBody_kept (src : Src) (q : Nat) (addr : Word) (s : State) (h0 : Kept wq s) :
    Kept1 wq (qpQueryBody src q addr s) := by
  unfold qpQueryBody
  repeat' first
    | with_reducible assumption | with_reducible intro _ | with_reducible apply itemWrite_kept
    | with_reducible apply kept_ite | with_reducible apply kept1_ite | fail_if_no_progress with_reducible apply kept1_mkfst
    | (with_reducible apply kept1_mk; fail_if_success with_reducible apply kept1_fst)
    | ((conv => arg 2; with_reducible whnf); split) | (with_reducible refine KeptEx.elim ?_ (by with_reducible assumption))

theorem revokeBody_kept (src : Src) (q : Nat) (w : Nat) (s : State) (h0 : Kept wq s) :
    Kept1 wq (revokeBody src q w s) := by
  unfold revokeBody
  repeat' first
    | with_reducible assumption | with_reducible intro _ | with_reducible apply setQp_kept | with_reducible apply kept_ite
    | with_reducible apply kept1_ite | fail_if_no_progress with_reducible apply kept_upd
    | fail_if_no_progress with_reducible apply kept1_mkfst
    | (with_reducible apply kept1_mk; fail_if_success with_reducible apply kept1_fst)
    | ((conv => arg 2; with_reducible whnf); split)

theorem postBody_kept (i : FabItem) (src : Src) (q : Nat) (s : State) (h0 : Kept wq s) :
    Kept1 wq (postBody i src q s) := by
  unfold postBody
  repeat' first
    | with_reducible assumption | with_reducible intro _ | with_reducible apply setQp_kept | with_reducible apply kept_ite
    | with_reducible apply kept1_ite | fail_if_no_progress with_reducible apply kept_upd
    | fail_if_no_progress with_reducible apply kept1_mkfst
    | (with_reducible apply kept1_mk; fail_if_success with_reducible apply kept1_fst)
    | ((conv => arg 2; with_reducible whnf); split)

theorem sendNew_kept (s : State) (p : Nat) (q : Nat) (i : FabItem) (h0 : Kept wq s) :
    Kept wq (sendNew s p q i) := by
  unfold sendNew
  repeat' first
    | with_reducible assumption | with_reducible intro _ | with_reducible apply setQp_kept
    | with_reducible apply finishItem_kept | with_reducible apply sendFrame_kept | with_reducible apply kept_ite
    | fail_if_no_progress with_reducible apply kept_upd | ((conv => arg 2; with_reducible whnf); split)

theorem sendAgain_kept (s : State) (p : Nat) (q : Nat) (h0 : Kept wq s) :
    Kept wq (sendAgain s p q) := by
  unfold sendAgain
  repeat' first
    | with_reducible assumption | with_reducible intro _ | with_reducible apply setQp_kept
    | with_reducible apply finishItem_kept | with_reducible apply sendFrame_kept | with_reducible apply kept_ite
    | fail_if_no_progress with_reducible apply kept_upd | ((conv => arg 2; with_reducible whnf); split)

theorem chooseQp_kept (s : State) (l : List Nat) (h0 : Kept wq s) :
    Kept2 wq (chooseQp s l) := by
  unfold chooseQp
  repeat' first
    | with_reducible assumption | with_reducible intro _ | with_reducible apply draw_kept | with_reducible apply kept_ite
    | with_reducible apply kept1_ite | fail_if_no_progress with_reducible apply kept1_mkfst
    | (with_reducible apply kept1_mk; fail_if_success with_reducible apply kept1_fst)
    | fail_if_no_progress with_reducible apply kept2_mksnd
    | (with_reducible apply kept2_mk; fail_if_success with_reducible apply kept2_snd)
    | (with_reducible apply kept3_mk; fail_if_success with_reducible apply kept3_snd)
    | (with_reducible apply kept4_mk; fail_if_success with_reducible apply kept4_snd) | with_reducible apply keptOpt_some
    | with_reducible apply keptOpt_none | with_reducible apply keptOpt_map | with_reducible apply keptOpt_pure
    | with_reducible apply keptOpt_bind | with_reducible apply keptOpt_bindO | with_reducible apply kept1_fst
    | with_reducible apply kept4_snd | with_reducible apply kept3_snd | with_reducible apply kept2_snd
    | ((conv => arg 2; with_reducible whnf); split)

theorem arbitrate_kept (s : State) (p : Nat) (h0 : Kept wq s) :
    Kept wq (arbitrate s p) := by
  unfold arbitrate
  repeat' first
    | with_reducible assumption | with_reducible intro _ | with_reducible apply setPort_kept
    | with_reducible apply chooseQp_kept | with_reducible apply sendAgain_kept | with_reducible apply sendNew_kept
    | with_reducible apply kept_ite | with_reducible apply kept1_ite | fail_if_no_progress with_reducible apply kept_upd
    | fail_if_no_progress with_reducible apply kept1_mkfst
    | (with_reducible apply kept1_mk; fail_if_success with_reducible apply kept1_fst)
    | fail_if_no_progress with_reducible apply kept2_mksnd
    | (with_reducible apply kept2_mk; fail_if_success with_reducible apply kept2_snd)
    | (with_reducible apply kept3_mk; fail_if_success with_reducible apply kept3_snd)
    | (with_reducible apply kept4_mk; fail_if_success with_reducible apply kept4_snd) | with_reducible apply keptOpt_some
    | with_reducible apply keptOpt_none | with_reducible apply keptOpt_map | with_reducible apply keptOpt_pure
    | with_reducible apply keptOpt_bind | with_reducible apply keptOpt_bindO | with_reducible apply kept1_fst
    | with_reducible apply kept4_snd | with_reducible apply kept3_snd | with_reducible apply kept2_snd
    | ((conv => arg 2; with_reducible whnf); split) | (with_reducible refine Kept1.elim ?_ (by with_reducible assumption))
    | (with_reducible refine Kept2.elim ?_ (by with_reducible assumption))
    | (with_reducible refine Kept3.elim ?_ (by with_reducible assumption))
    | (with_reducible refine Kept4.elim ?_ (by with_reducible assumption))
    | (with_reducible refine KeptOpt.elim ?_ (by with_reducible assumption))
    | (with_reducible refine KeptOpt.elim1 ?_ (by with_reducible assumption))
    | (with_reducible refine KeptOpt.elim2 ?_ (by with_reducible assumption))
    | (with_reducible refine KeptOpt.elim3 ?_ (by with_reducible assumption))
    | (with_reducible refine KeptOpt.elim4 ?_ (by with_reducible assumption))

theorem waitTimedOut_kept (s : State) (q : Nat) (h0 : Kept wq s) :
    Kept wq (waitTimedOut s q) := by
  unfold waitTimedOut
  repeat' first
    | with_reducible assumption | with_reducible intro _ | with_reducible apply finishItem_kept
    | with_reducible apply kept_ite | ((conv => arg 2; with_reducible whnf); split)

theorem ackUpTo_kept (s : State) (q : Nat) (a : Nat) (h0 : Kept wq s) :
    Kept1 wq (ackUpTo s q a) := by
  unfold ackUpTo
  repeat' first
    | with_reducible assumption | with_reducible intro _ | with_reducible apply setQp_kept
    | with_reducible apply finishItem_kept | with_reducible apply kept_ite | with_reducible apply kept1_ite
    | fail_if_no_progress with_reducible apply kept_upd | with_reducible apply kept_foldl | with_reducible apply kept1_foldl
    | fail_if_no_progress with_reducible apply kept1_mkfst
    | (with_reducible apply kept1_mk; fail_if_success with_reducible apply kept1_fst)
    | ((conv => arg 2; with_reducible whnf); split)

theorem resendRound_kept (s : State) (q : Nat) (from_ : Nat) (advanced : Bool) (h0 : Kept wq s) :
    Kept wq (resendRound s q from_ advanced) := by
  unfold resendRound
  repeat' first
    | with_reducible assumption | with_reducible intro _ | with_reducible apply setQp_kept
    | with_reducible apply enterError_kept | with_reducible apply kept_ite
    | fail_if_no_progress with_reducible apply kept_upd | ((conv => arg 2; with_reducible whnf); split)

theorem rtoPassed_kept (s : State) (q : Nat) (h0 : Kept wq s) :
    Kept wq (rtoPassed s q) := by
  unfold rtoPassed
  repeat' first
    | with_reducible assumption | with_reducible intro _ | with_reducible apply resendRound_kept
    | with_reducible apply kept_ite | ((conv => arg 2; with_reducible whnf); split)

theorem retryPassed_kept (s : State) (q : Nat) (h0 : Kept wq s) :
    Kept wq (retryPassed s q) := by
  unfold retryPassed
  repeat' first
    | with_reducible assumption | with_reducible intro _ | with_reducible apply setQp_kept | with_reducible apply kept_ite
    | fail_if_no_progress with_reducible apply kept_upd | ((conv => arg 2; with_reducible whnf); split)

theorem refused_kept (s : State) (q : Nat) (f : EftFrame) (h0 : Kept wq s) :
    Kept wq (refused s q f) := by
  unfold refused
  repeat' first
    | with_reducible assumption | with_reducible intro _ | with_reducible apply ackUpTo_kept
    | with_reducible apply enterError_kept | with_reducible apply finishItem_kept | with_reducible apply kept_ite
    | with_reducible apply kept1_ite | fail_if_no_progress with_reducible apply kept1_mkfst
    | (with_reducible apply kept1_mk; fail_if_success with_reducible apply kept1_fst) | with_reducible apply kept1_fst
    | ((conv => arg 2; with_reducible whnf); split) | (with_reducible refine Kept1.elim ?_ (by with_reducible assumption))

theorem ackIn_kept (s : State) (q : Nat) (f : EftFrame) (h0 : Kept wq s) :
    Kept wq (ackIn s q f) := by
  unfold ackIn
  repeat' first
    | with_reducible assumption | with_reducible intro _ | with_reducible apply setQp_kept
    | with_reducible apply ackUpTo_kept | with_reducible apply refused_kept | with_reducible apply resendRound_kept
    | with_reducible apply kept_ite | with_reducible apply kept1_ite | fail_if_no_progress with_reducible apply kept_upd
    | fail_if_no_progress with_reducible apply kept1_mkfst
    | (with_reducible apply kept1_mk; fail_if_success with_reducible apply kept1_fst) | with_reducible apply kept1_fst
    | ((conv => arg 2; with_reducible whnf); split)

theorem putChunk_kept (s : State) (i : FabItem) (bs : List Byte) (h0 : Kept wq s) :
    Kept wq (putChunk s i bs) := by
  unfold putChunk
  repeat' first
    | with_reducible assumption | with_reducible intro _ | with_reducible apply hostWr_kept
    | with_reducible apply hbmWrite_kept | with_reducible apply sealChunks_kept | with_reducible apply kept_ite
    | ((conv => arg 2; with_reducible whnf); split)

theorem readIn_kept (s : State) (q : Nat) (f : EftFrame) (h0 : Kept wq s) :
    Kept wq (readIn s q f) := by
  unfold readIn
  repeat' first
    | with_reducible assumption | with_reducible intro _ | with_reducible apply setQp_kept
    | with_reducible apply finishItem_kept | with_reducible apply putChunk_kept | with_reducible apply kept_ite
    | fail_if_no_progress with_reducible apply kept_upd | ((conv => arg 2; with_reducible whnf); split)

theorem atomicIn_kept (s : State) (q : Nat) (f : EftFrame) (h0 : Kept wq s) :
    Kept wq (atomicIn s q f) := by
  unfold atomicIn
  repeat' first
    | with_reducible assumption | with_reducible intro _ | with_reducible apply finishItem_kept
    | with_reducible apply kept_ite | ((conv => arg 2; with_reducible whnf); split)

theorem winWrite_kept (s : State) (w : Window) (a : Nat) (bs : List Byte) (h0 : Kept wq s) :
    Kept wq (winWrite s w a bs) := by
  unfold winWrite
  repeat' first
    | with_reducible assumption | with_reducible intro _ | with_reducible apply hbmWrite_kept
    | with_reducible apply kept_foldl | with_reducible apply kept1_foldl

theorem respond_kept (q psn : Nat) (w : Window) (a : Nat) : ∀ (n k len : Nat) (s : State), Kept wq s → Kept wq (respond s q psn w a n k len)
  | 0, _, _, _, h => h
  | n + 1, k, len, s, h => by
    unfold respond
    exact respond_kept q psn w a n _ _ _ (sendFrame_kept _ _ _ h)

theorem sendAtomic_kept (s : State) (q : Nat) (psn : Nat) (old : Word) (h0 : Kept wq s) :
    Kept wq (sendAtomic s q psn old) := by
  unfold sendAtomic
  repeat' first
    | with_reducible assumption | with_reducible apply sendFrame_kept | fail_if_no_progress with_reducible apply kept_upd

theorem inWindow_kept (s : State) (x : Qp) (need a len : Nat) (reads : Bool) (k : Window → State) (hk : ∀ w, Kept wq (k w))
    (h : Kept wq s) : KeptP wq (inWindow s x need a len reads k) := by
  unfold inWindow
  repeat' first
    | exact h
    | exact hk _
    | exact trivial
    | exact kept_foldl (fun t y ht => piedFrame_kept _ _ ht) _ h
    | exact piedRange_kept _ _ _ h
    | split
    | dsimp only

theorem runPacket_kept (s : State) (q : Nat) (f : EftFrame) (h0 : Kept wq s) :
    KeptP wq (runPacket s q f) := by
  unfold runPacket
  repeat' first
    | with_reducible assumption | with_reducible intro _ | with_reducible apply setQp_kept
    | with_reducible apply inWindow_kept | with_reducible apply respond_kept | with_reducible apply sendAtomic_kept
    | with_reducible apply winWrite_kept | with_reducible apply kept_ite | fail_if_no_progress with_reducible apply kept_upd
    | with_reducible apply keptP_done | with_reducible apply keptP_refuse | with_reducible apply keptP_absent
    | (with_reducible refine KeptP.elimD ?_ (by with_reducible assumption))
    | (with_reducible refine KeptP.elimR ?_ (by with_reducible assumption)) | ((conv => arg 2; with_reducible whnf); split)

theorem notifyQp_kept (s : State) (q : Nat) (h0 : Kept wq s) :
    Kept wq (notifyQp s q) := by
  unfold notifyQp
  repeat' first
    | with_reducible assumption | with_reducible intro _ | with_reducible apply setQp_kept
    | with_reducible apply countStale_kept | with_reducible apply counterAdd_kept | with_reducible apply kept_ite
    | fail_if_no_progress with_reducible apply kept_upd
    | (with_reducible refine KeptS.elimD ?_ (by with_reducible assumption))
    | (with_reducible refine KeptS.elimF ?_ (by with_reducible assumption))
    | (with_reducible refine KeptS.elimW ?_ (by with_reducible assumption)) | ((conv => arg 2; with_reducible whnf); split)

theorem accepted_kept (s : State) (q : Nat) (f : EftFrame) (h0 : Kept wq s) :
    Kept wq (accepted s q f) := by
  unfold accepted
  repeat' first
    | with_reducible assumption | with_reducible intro _ | with_reducible apply setQp_kept
    | with_reducible apply notifyQp_kept | with_reducible apply sendAck_kept | with_reducible apply kept_ite
    | fail_if_no_progress with_reducible apply kept_upd | ((conv => arg 2; with_reducible whnf); split)

theorem refusePacket_kept (s : State) (q : Nat) (f : EftFrame) (st : Nat) (h0 : Kept wq s) :
    Kept wq (refusePacket s q f st) := by
  unfold refusePacket
  repeat' first
    | with_reducible assumption | with_reducible intro _ | with_reducible apply setQp_kept
    | with_reducible apply enterError_kept | with_reducible apply fault_kept | with_reducible apply sendAck_kept
    | with_reducible apply kept_ite | fail_if_no_progress with_reducible apply kept_upd
    | ((conv => arg 2; with_reducible whnf); split)

theorem askAgain_kept (s : State) (q : Nat) (f : EftFrame) (h0 : Kept wq s) :
    Kept wq (askAgain s q f) := by
  unfold askAgain
  repeat' first
    | with_reducible assumption | with_reducible intro _ | with_reducible apply draw_kept | with_reducible apply setQp_kept
    | with_reducible apply refusePacket_kept | with_reducible apply sendAck_kept | with_reducible apply kept_ite
    | with_reducible apply kept1_ite | fail_if_no_progress with_reducible apply kept_upd
    | fail_if_no_progress with_reducible apply kept1_mkfst
    | (with_reducible apply kept1_mk; fail_if_success with_reducible apply kept1_fst)
    | fail_if_no_progress with_reducible apply kept2_mksnd
    | (with_reducible apply kept2_mk; fail_if_success with_reducible apply kept2_snd)
    | (with_reducible apply kept3_mk; fail_if_success with_reducible apply kept3_snd)
    | (with_reducible apply kept4_mk; fail_if_success with_reducible apply kept4_snd) | with_reducible apply kept1_fst
    | with_reducible apply kept4_snd | with_reducible apply kept3_snd | with_reducible apply kept2_snd
    | ((conv => arg 2; with_reducible whnf); split)

theorem wantPage_kept (s : State) (q : Nat) (w : Nat) (page : Nat) (h0 : Kept wq s) :
    Kept wq (wantPage s q w page) := by
  unfold wantPage
  repeat' first
    | with_reducible assumption | with_reducible intro _ | with_reducible apply setQp_kept | with_reducible apply kept_ite
    | fail_if_no_progress with_reducible apply kept_upd | ((conv => arg 2; with_reducible whnf); split)

theorem pageAbsent_kept (s : State) (q : Nat) (f : EftFrame) (w : Nat) (page : Nat) (h0 : Kept wq s) :
    Kept wq (pageAbsent s q f w page) := by
  unfold pageAbsent
  repeat' first
    | with_reducible assumption | with_reducible intro _ | with_reducible apply setQp_kept
    | with_reducible apply addOcc_kept | with_reducible apply askAgain_kept | with_reducible apply refusePacket_kept
    | with_reducible apply sendAck_kept | with_reducible apply wantPage_kept | with_reducible apply kept_ite
    | fail_if_no_progress with_reducible apply kept_upd | ((conv => arg 2; with_reducible whnf); split)

theorem takePacket_kept (s : State) (q : Nat) (f : EftFrame) (h0 : Kept wq s) :
    Kept wq (takePacket s q f) := by
  unfold takePacket
  repeat' first
    | with_reducible assumption | with_reducible apply accepted_kept | with_reducible apply pageAbsent_kept
    | with_reducible apply refusePacket_kept | with_reducible apply runPacket_kept
    | (with_reducible refine KeptP.elimD ?_ (by with_reducible assumption))
    | (with_reducible refine KeptP.elimR ?_ (by with_reducible assumption)) | ((conv => arg 2; with_reducible whnf); split)

theorem packetBehind_kept (s : State) (q : Nat) (f : EftFrame) (h0 : Kept wq s) :
    Kept wq (packetBehind s q f) := by
  unfold packetBehind
  repeat' first
    | with_reducible assumption | with_reducible intro _ | with_reducible apply runPacket_kept
    | with_reducible apply sendAck_kept | with_reducible apply sendAtomic_kept | with_reducible apply kept_ite
    | (with_reducible refine KeptP.elimD ?_ (by with_reducible assumption))
    | (with_reducible refine KeptP.elimR ?_ (by with_reducible assumption)) | ((conv => arg 2; with_reducible whnf); split)

theorem packetAhead_kept (s : State) (q : Nat) (h0 : Kept wq s) :
    Kept wq (packetAhead s q) := by
  unfold packetAhead
  repeat' first
    | with_reducible assumption | with_reducible intro _ | with_reducible apply setQp_kept
    | with_reducible apply sendAck_kept | with_reducible apply kept_ite | fail_if_no_progress with_reducible apply kept_upd
    | ((conv => arg 2; with_reducible whnf); split)

theorem requestIn_kept (s : State) (q : Nat) (f : EftFrame) (h0 : Kept wq s) :
    Kept wq (requestIn s q f) := by
  unfold requestIn
  repeat' first
    | with_reducible assumption | with_reducible intro _ | with_reducible apply setQp_kept
    | with_reducible apply addOcc_kept | with_reducible apply packetAhead_kept | with_reducible apply packetBehind_kept
    | with_reducible apply sendAck_kept | with_reducible apply takePacket_kept | with_reducible apply kept_ite
    | fail_if_no_progress with_reducible apply kept_upd | ((conv => arg 2; with_reducible whnf); split)

theorem staleFrame_kept (s : State) (f : EftFrame) (h0 : Kept wq s) :
    Kept wq (staleFrame s f) := by
  unfold staleFrame
  repeat' first
    | with_reducible assumption | with_reducible apply incSat_kept | with_reducible apply fault_kept

theorem fencedFrame_kept (s : State) (p : Nat) (f : EftFrame) (e : Nat × Nat × Nat) (h0 : Kept wq s) :
    Kept wq (fencedFrame s p f e) := by
  unfold fencedFrame
  repeat' first
    | with_reducible assumption | with_reducible intro _ | with_reducible apply sendFrame_kept
    | with_reducible apply kept_ite | fail_if_no_progress with_reducible apply kept_upd
    | ((conv => arg 2; with_reducible whnf); split)

theorem connectIn_kept (s : State) (f : EftFrame) (h0 : Kept wq s) :
    Kept wq (connectIn s f) := by
  unfold connectIn
  repeat' first
    | with_reducible assumption | with_reducible intro _ | with_reducible apply setQp_kept
    | with_reducible apply enterError_kept | with_reducible apply finishConnect_kept | with_reducible apply rebind_kept
    | with_reducible apply staleFrame_kept | with_reducible apply kept_ite
    | fail_if_no_progress with_reducible apply kept_upd | ((conv => arg 2; with_reducible whnf); split)

theorem frameIn_kept (s : State) (f : EftFrame) (h0 : Kept wq s) :
    Kept wq (frameIn s f) := by
  unfold frameIn
  repeat' first
    | with_reducible assumption | with_reducible intro _ | with_reducible apply ackIn_kept
    | with_reducible apply atomicIn_kept | with_reducible apply connectIn_kept | with_reducible apply enterError_kept
    | with_reducible apply readIn_kept | with_reducible apply requestIn_kept | with_reducible apply staleFrame_kept
    | with_reducible apply kept_ite | ((conv => arg 2; with_reducible whnf); split)

theorem eftIn_kept (s : State) (p : Nat) (f : EftFrame) (h0 : Kept wq s) :
    Kept wq (eftIn s p f) := by
  unfold eftIn
  repeat' first
    | with_reducible assumption | with_reducible intro _ | with_reducible apply incSat_kept
    | with_reducible apply fatalStop_kept | with_reducible apply fencedFrame_kept | with_reducible apply frameIn_kept
    | with_reducible apply leaveD1_kept | with_reducible apply kept_ite | ((conv => arg 2; with_reducible whnf); split)

theorem ackDue_kept (s : State) (q : Nat) (h0 : Kept wq s) :
    Kept wq (ackDue s q) := by
  unfold ackDue
  repeat' first
    | with_reducible assumption | with_reducible intro _ | with_reducible apply sendAck_kept | with_reducible apply kept_ite
    | ((conv => arg 2; with_reducible whnf); split)

theorem holdAgain_kept (s : State) (q : Nat) (h0 : Kept wq s) :
    Kept wq (holdAgain s q) := by
  unfold holdAgain
  repeat' first
    | with_reducible assumption | with_reducible intro _ | with_reducible apply setQp_kept
    | with_reducible apply sendAck_kept | with_reducible apply kept_ite | fail_if_no_progress with_reducible apply kept_upd
    | ((conv => arg 2; with_reducible whnf); split)

theorem dropHeld_kept (s : State) (q : Nat) (h0 : Kept wq s) :
    Kept wq (dropHeld s q) := by
  unfold dropHeld
  repeat' first
    | with_reducible assumption | with_reducible apply setQp_kept | with_reducible apply freeOcc_kept
    | fail_if_no_progress with_reducible apply kept_upd | ((conv => arg 2; with_reducible whnf); split)

theorem stallPassed_kept (s : State) (q : Nat) (h0 : Kept wq s) :
    Kept wq (stallPassed s q) := by
  unfold stallPassed
  repeat' first
    | with_reducible assumption | with_reducible intro _ | with_reducible apply askAgain_kept
    | with_reducible apply dropHeld_kept | with_reducible apply runPacket_kept | with_reducible apply kept_ite
    | (with_reducible refine KeptP.elimD ?_ (by with_reducible assumption))
    | (with_reducible refine KeptP.elimR ?_ (by with_reducible assumption)) | ((conv => arg 2; with_reducible whnf); split)

theorem bringPage_kept (s : State) (i : Nat) (e : Session) (n : Nat) (frame : Nat) (h0 : Kept wq s) :
    Kept wq (bringPage s i e n frame) := by
  unfold bringPage
  repeat' first
    | with_reducible assumption | with_reducible intro _ | with_reducible apply decFld_kept
    | with_reducible apply incWrap_kept | with_reducible apply setFrameBytes_kept | with_reducible apply kept_ite
    | fail_if_no_progress with_reducible apply kept_upd | ((conv => arg 2; with_reducible whnf); split)

theorem pageArrives_kept (s : State) (q : Nat) (frame : Nat) (h0 : Kept wq s) :
    Kept wq (pageArrives s q frame) := by
  unfold pageArrives
  repeat' first
    | with_reducible assumption | with_reducible intro _ | with_reducible apply setQp_kept
    | with_reducible apply bringPage_kept | with_reducible apply dropHeld_kept | with_reducible apply requestIn_kept
    | with_reducible apply kept_ite | fail_if_no_progress with_reducible apply kept_upd | with_reducible apply kept_foldl
    | with_reducible apply kept1_foldl | ((conv => arg 2; with_reducible whnf); split)

theorem connectLate_kept (s : State) (q : Nat) (h0 : Kept wq s) :
    Kept wq (connectLate s q) := by
  unfold connectLate
  repeat' first
    | with_reducible assumption | with_reducible intro _ | with_reducible apply enterInit_kept
    | with_reducible apply finishConnect_kept | with_reducible apply kept_ite | ((conv => arg 2; with_reducible whnf); split)

theorem lenderLost_kept (s : State) (dev : Nat) (h0 : Kept wq s) :
    Kept wq (lenderLost s dev) := by
  unfold lenderLost
  repeat' first
    | with_reducible assumption | with_reducible intro _ | with_reducible apply abortRevival_kept
    | with_reducible apply lostP2_kept | with_reducible apply parkFailed_kept | with_reducible apply kept_ite
    | fail_if_no_progress with_reducible apply kept_upd | with_reducible apply kept_foldl | with_reducible apply kept1_foldl
    | ((conv => arg 2; with_reducible whnf); split)

theorem adoptMirrors_kept (s : State) (h0 : Kept wq s) :
    Kept wq (adoptMirrors s) := by
  unfold adoptMirrors
  repeat' first
    | with_reducible assumption | with_reducible intro _ | with_reducible apply adopt_kept
    | fail_if_no_progress with_reducible apply kept_upd | with_reducible apply kept_foldl | with_reducible apply kept1_foldl
    | with_reducible apply kept_getD | fail_if_no_progress with_reducible apply kept1_mkfst
    | (with_reducible apply kept1_mk; fail_if_success with_reducible apply kept1_fst) | with_reducible apply keptOpt_some
    | with_reducible apply keptOpt_none | with_reducible apply keptOpt_map | with_reducible apply keptOpt_pure
    | with_reducible apply keptOpt_bind | with_reducible apply keptOpt_bindO | ((conv => arg 2; with_reducible whnf); split)
    | (with_reducible refine KeptOpt.elim ?_ (by with_reducible assumption))
    | (with_reducible refine KeptOpt.elim1 ?_ (by with_reducible assumption))
    | (with_reducible refine KeptOpt.elim2 ?_ (by with_reducible assumption))
    | (with_reducible refine KeptOpt.elim3 ?_ (by with_reducible assumption))
    | (with_reducible refine KeptOpt.elim4 ?_ (by with_reducible assumption))

theorem fenceIn_kept (s : State) (dev : Nat) (inst : Nat) (h0 : Kept wq s) :
    Kept wq (fenceIn s dev inst) := by
  unfold fenceIn
  repeat' first
    | with_reducible assumption | with_reducible intro _ | with_reducible apply adoptMirrors_kept
    | with_reducible apply fatalStop_kept | with_reducible apply fault_kept | with_reducible apply lenderLost_kept
    | with_reducible apply kept_ite | fail_if_no_progress with_reducible apply kept_upd
    | ((conv => arg 2; with_reducible whnf); split)

/-! ### Clock -/

theorem showOffset_kept (s : State) (o : Int) (h0 : Kept wq s) :
    Kept wq (showOffset s o) := by
  unfold showOffset
  repeat' first
    | with_reducible assumption | with_reducible intro _ | with_reducible apply setFld_kept | with_reducible apply kept_ite
    | ((conv => arg 2; with_reducible whnf); split)

theorem setLock_kept (s : State) (source : Nat) (h0 : Kept wq s) :
    Kept wq (setLock s source) := by
  unfold setLock
  repeat' first
    | with_reducible assumption | with_reducible apply setFld_kept | with_reducible apply edge_kept

theorem endHoldover_kept (s : State) (h0 : Kept wq s) :
    Kept wq (endHoldover s) := by
  unfold endHoldover
  repeat' first
    | with_reducible assumption | with_reducible intro _ | with_reducible apply setFld_kept | with_reducible apply edge_kept
    | with_reducible apply kept_ite | fail_if_no_progress with_reducible apply kept_upd
    | ((conv => arg 2; with_reducible whnf); split)

theorem syncIn_kept (s : State) (sender : Nat) (offset : Int) (h0 : Kept wq s) :
    Kept wq (syncIn s sender offset) := by
  unfold syncIn
  repeat' first
    | with_reducible assumption | with_reducible intro _ | with_reducible apply endHoldover_kept
    | with_reducible apply setLock_kept | with_reducible apply showOffset_kept | with_reducible apply kept_ite
    | fail_if_no_progress with_reducible apply kept_upd | ((conv => arg 2; with_reducible whnf); split)

theorem syncLost_kept (s : State) (h0 : Kept wq s) :
    Kept wq (syncLost s) := by
  unfold syncLost
  repeat' first
    | with_reducible assumption | with_reducible intro _ | with_reducible apply setFld_kept | with_reducible apply edge_kept
    | with_reducible apply kept_ite | fail_if_no_progress with_reducible apply kept_upd
    | ((conv => arg 2; with_reducible whnf); split)

theorem holdoverFault_kept (s : State) (offset : Int) (h0 : Kept wq s) :
    Kept wq (holdoverFault s offset) := by
  unfold holdoverFault
  repeat' first
    | with_reducible assumption | with_reducible intro _ | with_reducible apply fault_kept
    | with_reducible apply showOffset_kept | with_reducible apply kept_ite
    | fail_if_no_progress with_reducible apply kept_upd | ((conv => arg 2; with_reducible whnf); split)

theorem loneDomain_kept (s : State) (h0 : Kept wq s) :
    Kept wq (loneDomain s) := by
  unfold loneDomain
  repeat' first
    | with_reducible assumption | with_reducible intro _ | with_reducible apply setFld_kept
    | with_reducible apply setLock_kept | with_reducible apply kept_ite | ((conv => arg 2; with_reducible whnf); split)

theorem syncOut_kept (s : State) (h0 : Kept wq s) :
    Kept wq (syncOut s) := by
  unfold syncOut
  repeat' first
    | with_reducible assumption | with_reducible intro _ | with_reducible apply send_kept
    | with_reducible apply setLock_kept | with_reducible apply kept_ite | with_reducible apply kept_foldl
    | with_reducible apply kept1_foldl | ((conv => arg 2; with_reducible whnf); split)

theorem pdelayIn_kept (s : State) (p : Nat) (resp : Bool) (t1 : Nat) (t2 : Nat) (t3 : Nat) (t4 : Nat) (h0 : Kept wq s) :
    Kept wq (pdelayIn s p resp t1 t2 t3 t4) := by
  unfold pdelayIn
  repeat' first
    | with_reducible assumption | with_reducible intro _ | with_reducible apply setPort_kept
    | with_reducible apply send_kept | with_reducible apply kept_ite | fail_if_no_progress with_reducible apply kept_upd
    | ((conv => arg 2; with_reducible whnf); split)

theorem heartbeatOut_kept (s : State) (h0 : Kept wq s) :
    Kept wq (heartbeatOut s) := by
  unfold heartbeatOut
  repeat' first
    | with_reducible assumption | with_reducible intro _ | with_reducible apply send_kept | with_reducible apply kept_ite
    | fail_if_no_progress with_reducible apply kept_upd | ((conv => arg 2; with_reducible whnf); split)

theorem endHolds_kept (s : State) (h0 : Kept wq s) :
    Kept wq (endHolds s) := by
  unfold endHolds
  repeat' first
    | with_reducible assumption | with_reducible intro _ | with_reducible apply setFld_kept
    | fail_if_no_progress with_reducible apply kept_upd | with_reducible apply kept_foldl | with_reducible apply kept1_foldl

/-! ### Faults -/

theorem ringWrite_kept (s : State) (h : Nat) (ws : List Nat) (h0 : Kept wq s) :
    Kept wq (ringWrite s h ws) := by
  unfold ringWrite
  repeat' first
    | with_reducible assumption | with_reducible intro _ | with_reducible apply hostWr_kept
    | with_reducible apply incSat_kept | with_reducible apply incWrap_kept | with_reducible apply edge_kept
    | with_reducible apply kept_ite | ((conv => arg 2; with_reducible whnf); split)

theorem captureFirst_kept (s : State) (h : Nat) (ws : List Nat) (h0 : Kept wq s) :
    Kept wq (captureFirst s h ws) := by
  unfold captureFirst
  repeat' first
    | with_reducible assumption | with_reducible intro _ | with_reducible apply setFld_kept
    | with_reducible apply kept_foldl | with_reducible apply kept1_foldl

theorem deliver_kept (s : State) (h : Nat) (m : FaultMsg) (first : Bool) (h0 : Kept wq s) :
    Kept wq (deliver s h m first) := by
  unfold deliver
  repeat' first
    | with_reducible assumption | with_reducible intro _ | with_reducible apply captureFirst_kept
    | with_reducible apply edge_kept | with_reducible apply fatalStop_kept | with_reducible apply msix_kept
    | with_reducible apply ringWrite_kept | with_reducible apply kept_ite
    | fail_if_no_progress with_reducible apply kept_upd | ((conv => arg 2; with_reducible whnf); split)

theorem handleLatch_kept (s : State) (h : Nat) (h0 : Kept wq s) :
    Kept wq (handleLatch s h) := by
  unfold handleLatch
  repeat' first
    | with_reducible assumption | with_reducible intro _ | with_reducible apply deliver_kept | with_reducible apply kept_ite
    | fail_if_no_progress with_reducible apply kept_upd | ((conv => arg 2; with_reducible whnf); split)

theorem bumpInstar_kept (s : State) (f : Field) (h0 : Kept wq s) :
    Kept wq (bumpInstar s f) := by
  unfold bumpInstar
  repeat' first
    | with_reducible assumption | with_reducible apply setFld_kept

theorem markReimpose_kept (s : State) (n : Nat) (h0 : Kept wq s) :
    Kept wq (markReimpose s n) := by
  unfold markReimpose
  repeat' first
    | with_reducible assumption | with_reducible intro _ | with_reducible apply reimpose_kept
    | with_reducible apply kept_ite | fail_if_no_progress with_reducible apply kept_upd
    | ((conv => arg 2; with_reducible whnf); split)

theorem abandonPart_kept (s : State) (p : Nat) (h0 : Kept wq s) :
    Kept wq (abandonPart s p) := by
  unfold abandonPart
  repeat' first
    | with_reducible assumption | with_reducible intro _ | with_reducible apply abandonGalley_kept
    | with_reducible apply kept_foldl | with_reducible apply kept1_foldl

theorem replaceQuire_kept (s : State) (q : Nat) (h0 : Kept wq s) :
    Kept wq (replaceQuire s q) := by
  unfold replaceQuire
  repeat' first
    | with_reducible assumption | with_reducible intro _ | with_reducible apply setFld_kept
    | with_reducible apply capacityChange_kept | with_reducible apply markReimpose_kept
    | with_reducible apply refreshErr_kept | with_reducible apply kept_ite | ((conv => arg 2; with_reducible whnf); split)

theorem retireCell_kept (s : State) (f : Nat) (k : Nat) (h0 : Kept wq s) :
    Kept wq (retireCell s f k) := by
  unfold retireCell
  repeat' first
    | with_reducible assumption | with_reducible intro _ | with_reducible apply decFld_kept
    | with_reducible apply setCell_kept | with_reducible apply setFld_kept | with_reducible apply abandonPart_kept
    | with_reducible apply breakQuoins_kept | with_reducible apply bumpInstar_kept
    | with_reducible apply capacityChange_kept | with_reducible apply markReimpose_kept
    | with_reducible apply replaceQuire_kept | with_reducible apply kept_ite
    | fail_if_no_progress with_reducible apply kept_upd | ((conv => arg 2; with_reducible whnf); split)

theorem reimpose_kept (s : State) (p : Nat) (h0 : Kept wq s) :
    Kept wq (reimpose s p) := by
  unfold reimpose
  repeat' first
    | with_reducible assumption | with_reducible intro _ | with_reducible apply setSlice_kept
    | with_reducible apply abandonPart_kept | with_reducible apply dispatch_kept | with_reducible apply replaceQuire_kept
    | with_reducible apply kept_ite | fail_if_no_progress with_reducible apply kept_upd | with_reducible apply kept_foldl
    | with_reducible apply kept1_foldl | ((conv => arg 2; with_reducible whnf); split)

theorem moveFrame_kept (lo : Nat) (base : Nat) (bad : List Nat) (s : State) (f : Nat) (h0 : Kept wq s) :
    Kept wq (moveFrame lo base bad s f) := by
  unfold moveFrame
  repeat' first
    | with_reducible assumption | with_reducible intro _ | with_reducible apply copyFrame_kept
    | with_reducible apply piedFrame_kept | with_reducible apply setFrameBytes_kept | with_reducible apply kept_ite
    | fail_if_no_progress with_reducible apply kept_upd | ((conv => arg 2; with_reducible whnf); split)

theorem spareChannel_kept (bad : Option (List Nat)) (s : State) (ch : Nat) (h0 : Kept wq s) :
    Kept wq (spareChannel bad s ch) := by
  unfold spareChannel
  repeat' first
    | with_reducible assumption | with_reducible intro _ | with_reducible apply decFld_kept
    | with_reducible apply faultSession_kept | with_reducible apply fromShard_kept | with_reducible apply moveFrame_kept
    | with_reducible apply restoreCopy_kept | with_reducible apply sesNoticeFree_kept | with_reducible apply kept_ite
    | fail_if_no_progress with_reducible apply kept_upd | with_reducible apply kept_foldl | with_reducible apply kept1_foldl
    | ((conv => arg 2; with_reducible whnf); split)

theorem spareChannels_kept (s : State) (chs : List Nat) (bad : Option (List Nat)) (h0 : Kept wq s) :
    Kept wq (spareChannels s chs bad) := by
  unfold spareChannels
  repeat' first
    | with_reducible assumption | with_reducible intro _ | with_reducible apply decFld_kept
    | with_reducible apply setFld_kept | with_reducible apply capacityChange_kept | with_reducible apply spareChannel_kept
    | with_reducible apply kept_foldl | with_reducible apply kept1_foldl

theorem vacateForme_kept (s : State) (f : Nat) (h0 : Kept wq s) :
    Kept wq (vacateForme s f) := by
  unfold vacateForme
  repeat' first
    | with_reducible assumption | with_reducible intro _ | with_reducible apply decFld_kept
    | with_reducible apply setCell_kept | with_reducible apply setFld_kept | with_reducible apply abandonPart_kept
    | with_reducible apply markReimpose_kept | with_reducible apply replaceQuire_kept | with_reducible apply kept_ite
    | fail_if_no_progress with_reducible apply kept_upd | with_reducible apply kept_foldl | with_reducible apply kept1_foldl
    | ((conv => arg 2; with_reducible whnf); split)

theorem loseStack_kept (s : State) (st : Nat) (bad : Option (List Nat)) (h0 : Kept wq s) :
    Kept wq (loseStack s st bad) := by
  unfold loseStack
  repeat' first
    | with_reducible assumption | with_reducible intro _ | with_reducible apply setFld_kept
    | with_reducible apply recoverPage_kept | with_reducible apply spareChannels_kept
    | with_reducible apply vacateForme_kept | with_reducible apply kept_ite | with_reducible apply kept_foldl
    | with_reducible apply kept1_foldl | ((conv => arg 2; with_reducible whnf); split)

theorem askAdaptation_kept (s : State) (scope : Nat) (h0 : Kept wq s) :
    Kept wq (askAdaptation s scope) := by
  unfold askAdaptation
  repeat' first
    | with_reducible assumption | with_reducible intro _ | with_reducible apply draw_kept | with_reducible apply notice_kept
    | with_reducible apply kept_ite | with_reducible apply kept1_ite | with_reducible apply kept_foldl
    | with_reducible apply kept1_foldl | fail_if_no_progress with_reducible apply kept1_mkfst
    | (with_reducible apply kept1_mk; fail_if_success with_reducible apply kept1_fst)
    | fail_if_no_progress with_reducible apply kept2_mksnd
    | (with_reducible apply kept2_mk; fail_if_success with_reducible apply kept2_snd)
    | (with_reducible apply kept3_mk; fail_if_success with_reducible apply kept3_snd)
    | (with_reducible apply kept4_mk; fail_if_success with_reducible apply kept4_snd) | with_reducible apply kept1_fst
    | with_reducible apply kept4_snd | with_reducible apply kept3_snd | with_reducible apply kept2_snd
    | ((conv => arg 2; with_reducible whnf); split)

theorem dropProof_kept (s : State) (old : Option (Nat × Nat)) (h0 : Kept wq s) :
    Kept wq (dropProof s old) := by
  unfold dropProof
  repeat' first
    | with_reducible assumption | with_reducible apply objDel_kept | ((conv => arg 2; with_reducible whnf); split)

theorem writeProof_kept (s : State) (scope : Nat) (h0 : Kept wq s) :
    Kept wq (writeProof s scope) := by
  unfold writeProof
  repeat' first
    | with_reducible assumption | with_reducible intro _ | with_reducible apply draw_kept
    | with_reducible apply askAdaptation_kept | with_reducible apply bringCurrent_kept | with_reducible apply dropProof_kept
    | with_reducible apply fault_kept | with_reducible apply objPut_kept | with_reducible apply kept_ite
    | with_reducible apply kept1_ite | fail_if_no_progress with_reducible apply kept_upd | with_reducible apply kept_foldl
    | with_reducible apply kept1_foldl | fail_if_no_progress with_reducible apply kept1_mkfst
    | (with_reducible apply kept1_mk; fail_if_success with_reducible apply kept1_fst)
    | fail_if_no_progress with_reducible apply kept2_mksnd
    | (with_reducible apply kept2_mk; fail_if_success with_reducible apply kept2_snd)
    | (with_reducible apply kept3_mk; fail_if_success with_reducible apply kept3_snd)
    | (with_reducible apply kept4_mk; fail_if_success with_reducible apply kept4_snd) | with_reducible apply kept1_fst
    | with_reducible apply kept4_snd | with_reducible apply kept3_snd | with_reducible apply kept2_snd
    | ((conv => arg 2; with_reducible whnf); split)

theorem spareLane_kept (s : State) (b : Nat) (lane : Nat) (h0 : Kept wq s) :
    Kept wq (spareLane s b lane) := by
  unfold spareLane
  repeat' first
    | with_reducible assumption | with_reducible intro _ | with_reducible apply setBay_kept
    | with_reducible apply setFld_kept | with_reducible apply bayGone_kept | with_reducible apply capacityChange_kept
    | with_reducible apply cartridgeLost_kept | with_reducible apply fault_kept | with_reducible apply setBst_kept
    | with_reducible apply kept_ite | fail_if_no_progress with_reducible apply kept_upd
    | ((conv => arg 2; with_reducible whnf); split)

theorem warnAction_kept (s : State) (n : Nat) (h0 : Kept wq s) :
    Kept wq (warnAction s n) := by
  unfold warnAction
  repeat' first
    | with_reducible assumption | with_reducible intro _ | with_reducible apply retireCell_kept
    | with_reducible apply serdesFails_kept | with_reducible apply spareChannels_kept | with_reducible apply spareLane_kept
    | with_reducible apply writeProof_kept | with_reducible apply kept_ite | ((conv => arg 2; with_reducible whnf); split)

theorem warned_kept (s : State) (n : Nat) (h0 : Kept wq s) :
    Kept wq (warned s n) := by
  unfold warned
  repeat' first
    | with_reducible assumption | with_reducible intro _ | with_reducible apply setFld_kept
    | with_reducible apply fault_kept | with_reducible apply warnAction_kept | with_reducible apply kept_ite
    | fail_if_no_progress with_reducible apply kept_upd | ((conv => arg 2; with_reducible whnf); split)

theorem handover_kept (s : State) (h0 : Kept wq s) :
    Kept wq (handover s) := by
  unfold handover
  repeat' first
    | with_reducible assumption | with_reducible intro _ | with_reducible apply setFld_kept | with_reducible apply kept_ite
    | ((conv => arg 2; with_reducible whnf); split)

theorem declare_kept (s : State) (n : Nat) (st : Nat) (h0 : Kept wq s) :
    Kept wq (declare s n st) := by
  unfold declare
  repeat' first
    | with_reducible assumption | with_reducible apply fault_kept | fail_if_no_progress with_reducible apply kept_upd

theorem resetEngine_kept (s : State) (c : Nat) (h0 : Kept wq s) :
    Kept wq (resetEngine s c) := by
  unfold resetEngine
  repeat' first
    | with_reducible assumption | with_reducible intro _ | with_reducible apply bumpInstar_kept
    | with_reducible apply sendIssuer_kept | with_reducible apply kept_ite | ((conv => arg 2; with_reducible whnf); split)

theorem loseForme_kept (s : State) (f : Nat) (h0 : Kept wq s) :
    Kept wq (loseForme s f) := by
  unfold loseForme
  repeat' first
    | with_reducible assumption | with_reducible intro _ | with_reducible apply setFld_kept
    | with_reducible apply bumpInstar_kept | with_reducible apply capacityChange_kept | with_reducible apply loseStack_kept
    | with_reducible apply vacateForme_kept | with_reducible apply kept_ite | ((conv => arg 2; with_reducible whnf); split)

theorem loseBay_kept (s : State) (b : Nat) (h0 : Kept wq s) :
    Kept wq (loseBay s b) := by
  unfold loseBay
  repeat' first
    | with_reducible assumption | with_reducible intro _ | with_reducible apply setBay_kept
    | with_reducible apply bayGone_kept | with_reducible apply cartridgeLost_kept | with_reducible apply clearBay_kept
    | with_reducible apply setBst_kept | with_reducible apply showBays_kept | with_reducible apply kept_ite
    | fail_if_no_progress with_reducible apply kept_upd | ((conv => arg 2; with_reducible whnf); split)

theorem spoilStep_kept (h : Nat) (s : State) (sl : Nat) (h0 : Kept wq s) :
    Kept wq (spoilStep h s sl) := by
  unfold spoilStep
  repeat' first
    | with_reducible assumption | with_reducible intro _ | with_reducible apply setSlice_kept
    | with_reducible apply kept_ite | fail_if_no_progress with_reducible apply kept_upd
    | ((conv => arg 2; with_reducible whnf); split)

theorem loseHub_kept (s : State) (h : Nat) (h0 : Kept wq s) :
    Kept wq (loseHub s h) := by
  unfold loseHub
  repeat' first
    | with_reducible assumption | with_reducible intro _ | with_reducible apply incSat_kept
    | with_reducible apply setFld_kept | with_reducible apply bumpInstar_kept | with_reducible apply capacityChange_kept
    | with_reducible apply invalidate_kept | with_reducible apply loseBay_kept | with_reducible apply setPst_kept
    | with_reducible apply showHubs_kept | with_reducible apply spoilStep_kept | with_reducible apply kept_ite
    | fail_if_no_progress with_reducible apply kept_upd | with_reducible apply kept_foldl | with_reducible apply kept1_foldl
    | ((conv => arg 2; with_reducible whnf); split)

theorem unitLost_kept (s : State) (n : Nat) (h0 : Kept wq s) :
    Kept wq (unitLost s n) := by
  unfold unitLost
  repeat' first
    | with_reducible assumption | with_reducible intro _ | with_reducible apply declare_kept
    | with_reducible apply loseForme_kept | with_reducible apply loseHub_kept | with_reducible apply resetEngine_kept
    | with_reducible apply retireCell_kept | with_reducible apply kept_ite | ((conv => arg 2; with_reducible whnf); split)

theorem speaksAgain_kept (s : State) (n : Nat) (passed : Bool) (h0 : Kept wq s) :
    Kept wq (speaksAgain s n passed) := by
  unfold speaksAgain
  repeat' first
    | with_reducible assumption | with_reducible intro _ | with_reducible apply incSat_kept
    | with_reducible apply setFld_kept | with_reducible apply bumpInstar_kept | with_reducible apply capacityChange_kept
    | with_reducible apply fault_kept | with_reducible apply resetEngine_kept | with_reducible apply showHubs_kept
    | with_reducible apply kept_ite | fail_if_no_progress with_reducible apply kept_upd
    | ((conv => arg 2; with_reducible whnf); split)

theorem deviceLost_kept (s : State) (dev : Nat) (inst : Nat) (reporters : List Nat) (h0 : Kept wq s) :
    Kept wq (deviceLost s dev inst reporters) := by
  unfold deviceLost
  repeat' first
    | with_reducible assumption | with_reducible intro _ | with_reducible apply fault_kept
    | with_reducible apply fenceIn_kept | with_reducible apply send_kept | with_reducible apply kept_ite
    | fail_if_no_progress with_reducible apply kept_upd | ((conv => arg 2; with_reducible whnf); split)

theorem mirrorPark_kept (s : State) (r : DirRec) (h : HeadPage) (h0 : Kept wq s) :
    Kept wq (mirrorPark s r h) := by
  unfold mirrorPark
  repeat' first
    | with_reducible assumption | with_reducible intro _ | with_reducible apply chargeWrite_kept
    | with_reducible apply journalSubmit_kept | fail_if_no_progress with_reducible apply kept_upd
    | ((conv => arg 2; with_reducible whnf); split)

theorem cellTimeout_kept (s : State) (n : Nat) (h0 : Kept wq s) :
    Kept wq (cellTimeout s n) := by
  unfold cellTimeout
  repeat' first
    | with_reducible assumption | with_reducible intro _ | with_reducible apply setCell_kept
    | with_reducible apply abandonGalley_kept | with_reducible apply fault_kept | with_reducible apply kept_ite
    | fail_if_no_progress with_reducible apply kept_upd | ((conv => arg 2; with_reducible whnf); split)

theorem itemTimeout_kept (s : State) (src : Src) (h0 : Kept wq s) :
    Kept wq (itemTimeout s src) := by
  unfold itemTimeout
  repeat' first
    | with_reducible assumption | with_reducible intro _ | with_reducible apply setQueue_kept
    | with_reducible apply completeFail_kept | with_reducible apply kept_ite
    | fail_if_no_progress with_reducible apply kept_upd | ((conv => arg 2; with_reducible whnf); split)

end Sys2Proof.Machine
end

