-- ==== Sys2Proof/Laws/KeptHost.lean ====
section
/-! SUPPORT. Each operation of queues, registers, the host, security, islands and the package keeps the queue and the canonical form. -/

namespace Sys2Proof.Machine

variable {wq : List Instr}

/-! ### Queues -/

theorem accErr_kept (s : State) (fn : Nat) (off : Nat) (write : Bool) (usb : Bool) (h0 : Kept wq s) :
    Kept wq (accErr s fn off write usb) := by
  unfold accErr
  repeat' first
    | with_reducible assumption | with_reducible intro _ | with_reducible apply incSat_kept
    | with_reducible apply setFld_kept | with_reducible apply kept_ite | ((conv => arg 2; with_reducible whnf); split)

theorem beginItem_kept (s : State) (c : Nat) (q : Nat) (i : Item) (n : Nat) (h0 : Kept wq s) :
    Kept wq (beginItem s c q i n) := by
  unfold beginItem
  repeat' first
    | with_reducible assumption | with_reducible intro _ | with_reducible apply setFld_kept
    | with_reducible apply setQueue_kept | with_reducible apply completeFail_kept | with_reducible apply kept_ite
    | fail_if_no_progress with_reducible apply kept_upd | ((conv => arg 2; with_reducible whnf); split)

theorem fetchWords_kept (s : State) (c : Nat) (q : Nat) (h0 : Kept wq s) :
    Kept wq (fetchWords s c q) := by
  unfold fetchWords
  repeat' first
    | with_reducible assumption | with_reducible intro _ | with_reducible apply setFld_kept
    | with_reducible apply setQueue_kept | with_reducible apply beginItem_kept | with_reducible apply kept_ite
    | fail_if_no_progress with_reducible apply kept_upd | ((conv => arg 2; with_reducible whnf); split)

theorem fetchSlot_kept (s : State) (c : Nat) (q : Nat) (h0 : Kept wq s) :
    Kept wq (fetchSlot s c q) := by
  unfold fetchSlot
  repeat' first
    | with_reducible assumption | with_reducible intro _ | with_reducible apply setQueue_kept
    | with_reducible apply beginItem_kept | with_reducible apply queueError_kept | with_reducible apply kept_ite
    | fail_if_no_progress with_reducible apply kept_upd | ((conv => arg 2; with_reducible whnf); split)

theorem fetchNext_kept (s : State) (c : Nat) (q : Nat) (h0 : Kept wq s) :
    Kept wq (fetchNext s c q) := by
  unfold fetchNext
  repeat' first
    | with_reducible assumption | with_reducible intro _ | with_reducible apply fetchSlot_kept
    | with_reducible apply fetchWords_kept | with_reducible apply kept_ite | ((conv => arg 2; with_reducible whnf); split)

theorem fetchItem_kept (s : State) (c : Nat) (q : Nat) (h0 : Kept wq s) :
    Kept wq (fetchItem s c q) := by
  unfold fetchItem
  repeat' first
    | with_reducible assumption | with_reducible intro _ | with_reducible apply fetchNext_kept
    | with_reducible apply kept_ite | ((conv => arg 2; with_reducible whnf); split)

theorem doorbell_kept (s : State) (fn c q : Nat) (effect : State → State) (he : ∀ t, Kept wq t → Kept wq (effect t)) (h : Kept wq s) :
    Kept wq (doorbell s fn c q effect) := by
  unfold doorbell
  split
  · exact he _ (edge_kept _ _ h)
  · first
    | exact h
    | exact accErr_kept _ _ _ _ _ h
    | (split <;> first | exact h | exact accErr_kept _ _ _ _ _ h)

theorem cmdTail_kept (c : Nat) (q : Nat) (v : Nat) (s : State) (h0 : Kept wq s) :
    Kept wq (cmdTail c q v s) := by
  unfold cmdTail
  repeat' first
    | with_reducible assumption | with_reducible intro _ | with_reducible apply setQueue_kept
    | with_reducible apply fetchItem_kept | with_reducible apply queueError_kept | with_reducible apply kept_ite
    | fail_if_no_progress with_reducible apply kept_upd | ((conv => arg 2; with_reducible whnf); split)

theorem cplHead_kept (c : Nat) (q : Nat) (v : Nat) (s : State) (h0 : Kept wq s) :
    Kept wq (cplHead c q v s) := by
  unfold cplHead
  repeat' first
    | with_reducible assumption | with_reducible apply setFld_kept | with_reducible apply setQueue_kept
    | with_reducible apply drainBacklog_kept | fail_if_no_progress with_reducible apply kept_upd

theorem outHead_kept (c : Nat) (q : Nat) (v : Nat) (s : State) (h0 : Kept wq s) :
    Kept wq (outHead c q v s) := by
  unfold outHead
  repeat' first
    | with_reducible assumption | with_reducible apply setQueue_kept | with_reducible apply drainOut_kept
    | fail_if_no_progress with_reducible apply kept_upd

theorem partialOver_kept (s : State) (c : Nat) (q : Nat) (h0 : Kept wq s) :
    Kept wq (partialOver s c q) := by
  unfold partialOver
  repeat' first
    | with_reducible assumption | with_reducible intro _ | with_reducible apply setFld_kept
    | with_reducible apply cmdTail_kept | with_reducible apply queueError_kept | with_reducible apply kept_ite
    | ((conv => arg 2; with_reducible whnf); split)

theorem ringFails_kept (s : State) (c : Nat) (q : Nat) (h0 : Kept wq s) :
    Kept wq (ringFails s c q) := by
  unfold ringFails
  repeat' first
    | with_reducible assumption | with_reducible intro _ | with_reducible apply queueError_kept
    | with_reducible apply kept_ite | ((conv => arg 2; with_reducible whnf); split)

theorem enableQueue_kept (s : State) (c : Nat) (q : Nat) (h0 : Kept wq s) :
    Kept wq (enableQueue s c q) := by
  unfold enableQueue
  repeat' first
    | with_reducible assumption | with_reducible intro _ | with_reducible apply setFld_kept
    | with_reducible apply setQueue_kept | with_reducible apply announce_kept | with_reducible apply cmdTail_kept
    | with_reducible apply cplHead_kept | with_reducible apply drainBacklog_kept | with_reducible apply drainOut_kept
    | with_reducible apply outHead_kept | with_reducible apply queueError_kept | with_reducible apply kept_ite
    | fail_if_no_progress with_reducible apply kept_upd | with_reducible apply kept_foldl | with_reducible apply kept1_foldl
    | ((conv => arg 2; with_reducible whnf); split)

theorem turnOff_kept (s : State) (c : Nat) (q : Nat) (h0 : Kept wq s) :
    Kept wq (turnOff s c q) := by
  unfold turnOff
  repeat' first
    | with_reducible assumption | with_reducible apply setFld_kept | with_reducible apply setQueue_kept
    | fail_if_no_progress with_reducible apply kept_upd

theorem flushQueue_kept (s : State) (c : Nat) (q : Nat) (h0 : Kept wq s) :
    Kept wq (flushQueue s c q) := by
  unfold flushQueue
  repeat' first
    | with_reducible assumption | with_reducible intro _ | with_reducible apply setFld_kept
    | with_reducible apply cmdTail_kept | with_reducible apply notice_kept | with_reducible apply turnOff_kept
    | with_reducible apply kept_ite | ((conv => arg 2; with_reducible whnf); split)

theorem dropCtk_kept (s : State) (c : Nat) (h0 : Kept wq s) :
    Kept wq (dropCtk s c) := by
  unfold dropCtk
  repeat' first
    | with_reducible assumption | with_reducible apply setFld_kept | fail_if_no_progress with_reducible apply kept_upd
    | fail_if_no_progress ((with_reducible apply kept_updHost); rotate_left; rfl)

theorem resetQueue_kept (c : Nat) (s : State) (q : Nat) (h0 : Kept wq s) :
    Kept wq (resetQueue c s q) := by
  unfold resetQueue
  repeat' first
    | with_reducible assumption | with_reducible intro _ | with_reducible apply setQueue_kept
    | with_reducible apply turnOff_kept | with_reducible apply kept_ite | fail_if_no_progress with_reducible apply kept_upd
    | ((conv => arg 2; with_reducible whnf); split)

theorem withdrawReset_kept (s : State) (c : Nat) (h0 : Kept wq s) :
    Kept wq (withdrawReset s c) := by
  unfold withdrawReset
  repeat' first
    | with_reducible assumption | with_reducible intro _ | with_reducible apply endEvaluation_kept
    | with_reducible apply withdraw_kept | with_reducible apply kept_ite | fail_if_no_progress with_reducible apply kept_upd
    | ((conv => arg 2; with_reducible whnf); split)

theorem functionReset_kept (s : State) (c : Nat) (h0 : Kept wq s) :
    Kept wq (functionReset s c) := by
  unfold functionReset
  repeat' first
    | with_reducible assumption | with_reducible intro _ | with_reducible apply breakQuoins_kept
    | with_reducible apply destroyQp_kept | with_reducible apply dropCtk_kept | with_reducible apply resetQueue_kept
    | with_reducible apply withdrawReset_kept | fail_if_no_progress with_reducible apply kept_upd
    | with_reducible apply kept_foldl | with_reducible apply kept1_foldl

theorem portReset_kept (s : State) (h0 : Kept wq s) :
    Kept wq (portReset s) := by
  unfold portReset
  repeat' first
    | with_reducible assumption | with_reducible intro _ | with_reducible apply functionReset_kept
    | with_reducible apply kept_ite | with_reducible apply kept_foldl | with_reducible apply kept1_foldl
    | ((conv => arg 2; with_reducible whnf); split)

theorem purgeSession_kept (s : State) (i : Nat) (h0 : Kept wq s) :
    Kept wq (purgeSession s i) := by
  unfold purgeSession
  repeat' first
    | with_reducible assumption | with_reducible intro _ | with_reducible apply abortPark_kept
    | with_reducible apply abortRevival_kept | with_reducible apply completeFail_kept
    | with_reducible apply dropWaiting_kept | with_reducible apply finishCancel_kept | with_reducible apply freeBody_kept
    | with_reducible apply releaseState_kept | with_reducible apply send_kept | with_reducible apply tombstone_kept
    | with_reducible apply voidBuilt_kept | with_reducible apply kept_ite | with_reducible apply kept1_ite
    | fail_if_no_progress with_reducible apply kept_upd | fail_if_no_progress with_reducible apply kept1_mkfst
    | (with_reducible apply kept1_mk; fail_if_success with_reducible apply kept1_fst) | with_reducible apply kept1_fst
    | ((conv => arg 2; with_reducible whnf); split) | (with_reducible refine Kept1.elim ?_ (by with_reducible assumption))

theorem freeBank_kept (s : State) (b : Nat) (h0 : Kept wq s) :
    Kept wq (freeBank s b) := by
  unfold freeBank
  repeat' first
    | with_reducible assumption | with_reducible apply setFld_kept | with_reducible apply invalidate_kept

theorem purgeIndex_kept (s : State) (slot : Nat) (h0 : Kept wq s) :
    Kept wq (purgeIndex s slot) := by
  unfold purgeIndex
  repeat' first
    | with_reducible assumption | with_reducible intro _ | with_reducible apply draw_kept | with_reducible apply setVse_kept
    | with_reducible apply closeSlot_kept | with_reducible apply completeFail_kept | with_reducible apply indexNotice_kept
    | with_reducible apply searchEnds_kept | fail_if_no_progress with_reducible apply kept_upd
    | with_reducible apply kept_foldl | with_reducible apply kept1_foldl
    | fail_if_no_progress with_reducible apply kept1_mkfst
    | (with_reducible apply kept1_mk; fail_if_success with_reducible apply kept1_fst)
    | fail_if_no_progress with_reducible apply kept2_mksnd
    | (with_reducible apply kept2_mk; fail_if_success with_reducible apply kept2_snd)
    | (with_reducible apply kept3_mk; fail_if_success with_reducible apply kept3_snd)
    | (with_reducible apply kept4_mk; fail_if_success with_reducible apply kept4_snd) | with_reducible apply kept1_fst
    | with_reducible apply kept4_snd | with_reducible apply kept3_snd | with_reducible apply kept2_snd
    | ((conv => arg 2; with_reducible whnf); split) | (with_reducible refine Kept1.elim ?_ (by with_reducible assumption))
    | (with_reducible refine Kept2.elim ?_ (by with_reducible assumption))
    | (with_reducible refine Kept3.elim ?_ (by with_reducible assumption))
    | (with_reducible refine Kept4.elim ?_ (by with_reducible assumption))

theorem purgeUnits_kept (s : State) (c : Nat) (h0 : Kept wq s) :
    Kept wq (purgeUnits s c) := by
  unfold purgeUnits
  repeat' first
    | with_reducible assumption | with_reducible intro _ | with_reducible apply destroyQp_kept
    | with_reducible apply freeBank_kept | with_reducible apply freeObj_kept | with_reducible apply purgeIndex_kept
    | with_reducible apply kept_foldl | with_reducible apply kept1_foldl

theorem purgeObjects_kept (s : State) (c : Nat) (h0 : Kept wq s) :
    Kept wq (purgeObjects s c) := by
  unfold purgeObjects
  repeat' first
    | with_reducible assumption | with_reducible intro _ | with_reducible apply objDel_kept
    | fail_if_no_progress with_reducible apply kept_upd | with_reducible apply kept_foldl | with_reducible apply kept1_foldl

theorem purgeKeys_kept (s : State) (c : Nat) (h0 : Kept wq s) :
    Kept wq (purgeKeys s c) := by
  unfold purgeKeys
  repeat' first
    | with_reducible assumption | with_reducible intro _ | with_reducible apply setBay_kept
    | with_reducible apply dropCtk_kept | fail_if_no_progress with_reducible apply kept_upd
    | fail_if_no_progress ((with_reducible apply kept_updHost); rotate_left; rfl) | with_reducible apply kept_foldl
    | with_reducible apply kept1_foldl

theorem purgeOver_kept (s : State) (c : Nat) (h0 : Kept wq s) :
    Kept wq (purgeOver s c) := by
  unfold purgeOver
  repeat' first
    | with_reducible assumption | with_reducible intro _ | with_reducible apply setFld_kept | with_reducible apply kept_ite
    | ((conv => arg 2; with_reducible whnf); split)

theorem purge_kept (s : State) (c : Nat) (h0 : Kept wq s) :
    Kept wq (purge s c) := by
  unfold purge
  repeat' first
    | with_reducible assumption | with_reducible intro _ | with_reducible apply setFld_kept
    | with_reducible apply setQueue_kept | with_reducible apply completeFail_kept | with_reducible apply flushQueue_kept
    | with_reducible apply purgeKeys_kept | with_reducible apply purgeObjects_kept | with_reducible apply purgeOver_kept
    | with_reducible apply purgeSession_kept | with_reducible apply purgeUnits_kept | with_reducible apply withdraw_kept
    | with_reducible apply kept_ite | fail_if_no_progress with_reducible apply kept_upd | with_reducible apply kept_foldl
    | with_reducible apply kept1_foldl | ((conv => arg 2; with_reducible whnf); split)

theorem zeroFrame_kept (s : State) (f : Nat) (h0 : Kept wq s) :
    Kept wq (zeroFrame s f) := by
  unfold zeroFrame
  repeat' first
    | with_reducible assumption | with_reducible intro _ | with_reducible apply incWrap_kept
    | with_reducible apply purgeOver_kept | with_reducible apply setFrameBytes_kept | with_reducible apply kept_ite
    | fail_if_no_progress with_reducible apply kept_upd | ((conv => arg 2; with_reducible whnf); split)

/-! ### Registers -/

theorem lockViol_kept (s : State) (off : Nat) (h0 : Kept wq s) :
    Kept wq (lockViol s off) := by
  unfold lockViol
  repeat' first
    | with_reducible assumption | with_reducible intro _ | with_reducible apply setFld_kept | with_reducible apply kept_ite
    | ((conv => arg 2; with_reducible whnf); split)

theorem putReg_kept (s : State) (d : RegDesc) (off : Nat) (mask : Nat) (val : Nat) (h0 : Kept wq s) :
    Kept wq (putReg s d off mask val) := by
  unfold putReg
  repeat' first
    | with_reducible assumption | with_reducible intro _ | with_reducible apply setReg_kept
    | with_reducible apply lockViol_kept | with_reducible apply kept_ite | ((conv => arg 2; with_reducible whnf); split)

theorem writeQueueCtl_kept (s : State) (d : RegDesc) (off : Nat) (c : Nat) (q : Nat) (mask : Nat) (val : Nat) (h0 : Kept wq s) :
    Kept wq (writeQueueCtl s d off c q mask val) := by
  unfold writeQueueCtl
  repeat' first
    | with_reducible assumption | with_reducible intro _ | with_reducible apply setFld_kept
    | with_reducible apply enableQueue_kept | with_reducible apply flushQueue_kept | with_reducible apply putReg_kept
    | with_reducible apply kept_ite | ((conv => arg 2; with_reducible whnf); split)

theorem writeQueue_kept (s : State) (d : RegDesc) (off : Nat) (mask : Nat) (val : Nat) (h0 : Kept wq s) :
    Kept wq (writeQueue s d off mask val) := by
  unfold writeQueue
  repeat' first
    | with_reducible assumption | with_reducible intro _ | with_reducible apply accErr_kept
    | with_reducible apply putReg_kept | with_reducible apply writeQueueCtl_kept | with_reducible apply kept_ite
    | ((conv => arg 2; with_reducible whnf); split)

theorem writeCustMap_kept (s : State) (d : RegDesc) (off : Nat) (mask : Nat) (val : Nat) (h0 : Kept wq s) :
    Kept wq (writeCustMap s d off mask val) := by
  unfold writeCustMap
  repeat' first
    | with_reducible assumption | with_reducible intro _ | with_reducible apply accErr_kept
    | with_reducible apply putReg_kept | with_reducible apply retryHeld_kept | with_reducible apply kept_ite
    | with_reducible apply kept_foldl | with_reducible apply kept1_foldl | ((conv => arg 2; with_reducible whnf); split)

theorem writeCtxPages_kept (s : State) (d : RegDesc) (off : Nat) (mask : Nat) (val : Nat) (h0 : Kept wq s) :
    Kept wq (writeCtxPages s d off mask val) := by
  unfold writeCtxPages
  repeat' first
    | with_reducible assumption | with_reducible intro _ | with_reducible apply accErr_kept
    | with_reducible apply putReg_kept | with_reducible apply kept_ite | ((conv => arg 2; with_reducible whnf); split)

theorem writePart_kept (s : State) (d : RegDesc) (off : Nat) (mask : Nat) (val : Nat) (h0 : Kept wq s) :
    Kept wq (writePart s d off mask val) := by
  unfold writePart
  repeat' first
    | with_reducible assumption | with_reducible intro _ | with_reducible apply accErr_kept
    | with_reducible apply putReg_kept | with_reducible apply refreshErr_kept | with_reducible apply kept_ite
    | ((conv => arg 2; with_reducible whnf); split)

theorem writeBudgetA_kept (s : State) (d : RegDesc) (off : Nat) (mask : Nat) (val : Nat) (h0 : Kept wq s) :
    Kept wq (writeBudgetA s d off mask val) := by
  unfold writeBudgetA
  repeat' first
    | with_reducible assumption | with_reducible apply setFld_kept | with_reducible apply budgetFill_kept
    | with_reducible apply putReg_kept

theorem writeBudgetB_kept (s : State) (d : RegDesc) (off : Nat) (mask : Nat) (val : Nat) (h0 : Kept wq s) :
    Kept wq (writeBudgetB s d off mask val) := by
  unfold writeBudgetB
  repeat' first
    | with_reducible assumption | with_reducible intro _ | with_reducible apply setBudget_kept
    | with_reducible apply setFld_kept | with_reducible apply budgetFill_kept | with_reducible apply putReg_kept
    | with_reducible apply kept_ite | ((conv => arg 2; with_reducible whnf); split)

theorem writeBank_kept (s : State) (d : RegDesc) (off : Nat) (mask : Nat) (val : Nat) (h0 : Kept wq s) :
    Kept wq (writeBank s d off mask val) := by
  unfold writeBank
  repeat' first
    | with_reducible assumption | with_reducible intro _ | with_reducible apply invalidate_kept
    | with_reducible apply putReg_kept | with_reducible apply kept_ite | ((conv => arg 2; with_reducible whnf); split)

theorem writePort_kept (s : State) (d : RegDesc) (off : Nat) (mask : Nat) (val : Nat) (h0 : Kept wq s) :
    Kept wq (writePort s d off mask val) := by
  unfold writePort
  repeat' first
    | with_reducible assumption | with_reducible intro _ | with_reducible apply mediaWrite_kept
    | with_reducible apply kept_ite | ((conv => arg 2; with_reducible whnf); split)

theorem writeAt_kept (s : State) (d : RegDesc) (off : Nat) (mask : Nat) (val : Nat) (h0 : Kept wq s) :
    Kept wq (writeAt s d off mask val) := by
  unfold writeAt
  repeat' first
    | with_reducible assumption | with_reducible intro _ | with_reducible apply purge_kept
    | with_reducible apply putReg_kept | with_reducible apply refreshErr_kept | with_reducible apply writeBank_kept
    | with_reducible apply writeBudgetA_kept | with_reducible apply writeBudgetB_kept
    | with_reducible apply writeCtxPages_kept | with_reducible apply writeCustMap_kept | with_reducible apply writePart_kept
    | with_reducible apply writePort_kept | with_reducible apply writeQueue_kept | with_reducible apply kept_ite
    | ((conv => arg 2; with_reducible whnf); split)

theorem write32_kept (s : State) (off : Nat) (val : Nat) (h0 : Kept wq s) :
    Kept wq (write32 s off val) := by
  unfold write32
  repeat' first
    | with_reducible assumption | with_reducible apply writeAt_kept | ((conv => arg 2; with_reducible whnf); split)

theorem write64_kept (s : State) (off : Nat) (val : Nat) (h0 : Kept wq s) :
    Kept wq (write64 s off val) := by
  unfold write64
  repeat' first
    | with_reducible assumption | with_reducible intro _ | with_reducible apply write32_kept
    | with_reducible apply writeAt_kept | with_reducible apply kept_ite | ((conv => arg 2; with_reducible whnf); split)

theorem busWrite_kept (s : State) (fn : Nat) (off : Nat) (width : Nat) (val : Nat) (h0 : Kept wq s) :
    Kept wq (busWrite s fn off width val) := by
  unfold busWrite
  repeat' first
    | with_reducible assumption | with_reducible intro _ | with_reducible apply accErr_kept
    | with_reducible apply write32_kept | with_reducible apply write64_kept | with_reducible apply kept_ite
    | ((conv => arg 2; with_reducible whnf); split)

theorem freshen_kept (s : State) (off : Nat) (h0 : Kept wq s) :
    Kept wq (freshen s off) := by
  unfold freshen
  repeat' first
    | with_reducible assumption | with_reducible intro _ | with_reducible apply budgetFill_kept
    | with_reducible apply endHolds_kept | with_reducible apply showModel_kept | with_reducible apply wearFill_kept
    | with_reducible apply kept_ite | ((conv => arg 2; with_reducible whnf); split)

theorem clearRead_kept (s : State) (d : RegDesc) (off : Nat) (lo : Nat) (hi : Nat) (h0 : Kept wq s) :
    Kept wq (clearRead s d off lo hi) := by
  unfold clearRead
  repeat' first
    | with_reducible assumption | with_reducible intro _ | with_reducible apply setFld_kept | with_reducible apply kept_ite
    | with_reducible apply kept_foldl | with_reducible apply kept1_foldl | ((conv => arg 2; with_reducible whnf); split)

theorem setShadow_kept (s : State) (fn : Nat) (v : Option (Nat × BitVec 32)) (h0 : Kept wq s) :
    Kept wq (setShadow s fn v) := by
  unfold setShadow
  repeat' first
    | with_reducible assumption | fail_if_no_progress with_reducible apply kept_upd
    | fail_if_no_progress ((with_reducible apply kept_updHost); rotate_left; rfl)
    | ((conv => arg 2; with_reducible whnf); split)

theorem read32_kept (s : State) (fn : Nat) (off : Nat) (h0 : Kept wq s) :
    Kept1 wq (read32 s fn off) := by
  unfold read32
  repeat' first
    | with_reducible assumption | with_reducible intro _ | with_reducible apply clearRead_kept
    | with_reducible apply freshen_kept | with_reducible apply setShadow_kept | with_reducible apply kept_ite
    | with_reducible apply kept1_ite | fail_if_no_progress with_reducible apply kept1_mkfst
    | (with_reducible apply kept1_mk; fail_if_success with_reducible apply kept1_fst)
    | ((conv => arg 2; with_reducible whnf); split)

theorem read64_kept (s : State) (fn : Nat) (off : Nat) (h0 : Kept wq s) :
    Kept1 wq (read64 s fn off) := by
  unfold read64
  repeat' first
    | with_reducible assumption | with_reducible intro _ | with_reducible apply clearRead_kept
    | with_reducible apply freshen_kept | with_reducible apply read32_kept | with_reducible apply kept_ite
    | with_reducible apply kept1_ite | fail_if_no_progress with_reducible apply kept1_mkfst
    | (with_reducible apply kept1_mk; fail_if_success with_reducible apply kept1_fst) | with_reducible apply kept1_fst
    | ((conv => arg 2; with_reducible whnf); split) | (with_reducible refine Kept1.elim ?_ (by with_reducible assumption))

theorem answerTo_kept (fn : Nat) (r : State × Nat) (h : Kept1 wq r) : Kept wq (answerTo fn r) :=
  ⟨h.1, h.2.1, h.2.2, h.2.3⟩

theorem busRead_kept (s : State) (fn : Nat) (off : Nat) (width : Nat) (h0 : Kept wq s) :
    Kept wq (busRead s fn off width) := by
  unfold busRead
  repeat' first
    | with_reducible assumption | with_reducible intro _ | with_reducible apply accErr_kept
    | with_reducible apply answerTo_kept | with_reducible apply read32_kept | with_reducible apply read64_kept
    | with_reducible apply kept_ite | with_reducible apply kept1_ite | fail_if_no_progress with_reducible apply kept1_mkfst
    | (with_reducible apply kept1_mk; fail_if_success with_reducible apply kept1_fst) | with_reducible apply kept1_fst
    | ((conv => arg 2; with_reducible whnf); split) | (with_reducible refine Kept1.elim ?_ (by with_reducible assumption))

/-! ### Host -/

theorem enableVf_kept (s : State) (fn : Nat) (on : Bool) (h0 : Kept wq s) :
    Kept wq (enableVf s fn on) := by
  unfold enableVf
  repeat' first
    | with_reducible assumption | with_reducible intro _ | with_reducible apply setFld_kept | with_reducible apply kept_ite
    | ((conv => arg 2; with_reducible whnf); split)

theorem retrainHost_kept (s : State) (lanes : Nat) (h0 : Kept wq s) :
    Kept wq (retrainHost s lanes) := by
  unfold retrainHost
  repeat' first
    | with_reducible assumption | with_reducible intro _ | with_reducible apply kept_ite
    | fail_if_no_progress with_reducible apply kept_upd
    | fail_if_no_progress ((with_reducible apply kept_updHost); rotate_left; rfl)
    | ((conv => arg 2; with_reducible whnf); split)

theorem hostReadLate_kept (s : State) (src : Src) (h0 : Kept wq s) :
    Kept wq (hostReadLate s src) := by
  unfold hostReadLate
  repeat' first
    | with_reducible assumption | with_reducible intro _ | with_reducible apply setQueue_kept
    | with_reducible apply completeFail_kept | fail_if_no_progress with_reducible apply kept_upd
    | ((conv => arg 2; with_reducible whnf); split)

theorem scrubUnit_kept (n : Nat) (s : State) (u : Nat) (h0 : Kept wq s) :
    Kept wq (scrubUnit n s u) := by
  unfold scrubUnit
  repeat' first
    | with_reducible assumption | with_reducible apply memCorrected_kept

theorem scrubCell_kept (s : State) (n : Nat) (h0 : Kept wq s) :
    Kept wq (scrubCell s n) := by
  unfold scrubCell
  repeat' first
    | with_reducible assumption | with_reducible intro _ | with_reducible apply setCell_kept
    | with_reducible apply scrubUnit_kept | with_reducible apply kept_ite
    | fail_if_no_progress with_reducible apply kept_upd | with_reducible apply kept_foldl | with_reducible apply kept1_foldl
    | ((conv => arg 2; with_reducible whnf); split)

theorem scrubStack_kept (s : State) (st : Nat) (h0 : Kept wq s) :
    Kept wq (scrubStack s st) := by
  unfold scrubStack
  repeat' first
    | with_reducible assumption | with_reducible intro _ | with_reducible apply fault_kept | with_reducible apply kept_ite
    | fail_if_no_progress with_reducible apply kept_upd | with_reducible apply kept_foldl | with_reducible apply kept1_foldl
    | ((conv => arg 2; with_reducible whnf); split)

theorem scrub_kept (s : State) (n : Nat) (h0 : Kept wq s) :
    Kept wq (scrub s n) := by
  unfold scrub
  repeat' first
    | with_reducible assumption | with_reducible intro _ | with_reducible apply scrubCell_kept
    | with_reducible apply scrubStack_kept | with_reducible apply kept_ite | ((conv => arg 2; with_reducible whnf); split)

/-! ### Security -/

theorem setResponder_kept (s : State) (fn : Nat) (x : Spdm) (h0 : Kept wq s) :
    Kept wq (State.setResponder s fn x) := by
  unfold State.setResponder
  repeat' first
    | with_reducible assumption | fail_if_no_progress with_reducible apply kept_upd

theorem reply_kept (s : State) (fn : Nat) (x : Spdm) (code : Nat) (bs : List Byte) (h0 : Kept wq s) :
    Kept wq (reply s fn x code bs) := by
  unfold reply
  repeat' first
    | with_reducible assumption | with_reducible apply setResponder_kept | fail_if_no_progress with_reducible apply kept_upd

theorem spdmError_kept (s : State) (fn : Nat) (err : Nat) (status : Nat) (h0 : Kept wq s) :
    Kept wq (spdmError s fn err status) := by
  unfold spdmError
  repeat' first
    | with_reducible assumption | with_reducible apply reply_kept

theorem spdmAt_kept (s : State) (fn : Nat) (stages : List SpdmStage) (body : Spdm → State) (hb : ∀ x, Kept wq (body x))
    (h : Kept wq s) : Kept wq (spdmAt s fn stages body) := by
  unfold spdmAt
  repeat' first
    | exact h
    | exact hb _
    | exact spdmError_kept _ _ _ _ h
    | split

theorem spdmVersion_kept (s : State) (fn : Nat) (h0 : Kept wq s) :
    Kept wq (spdmVersion s fn) := by
  unfold spdmVersion
  repeat' first
    | with_reducible assumption | with_reducible intro _ | with_reducible apply reply_kept
    | with_reducible apply spdmAt_kept | fail_if_no_progress with_reducible apply kept_upd

theorem spdmCapabilities_kept (s : State) (fn : Nat) (h0 : Kept wq s) :
    Kept wq (spdmCapabilities s fn) := by
  unfold spdmCapabilities
  repeat' first
    | with_reducible assumption | with_reducible intro _ | with_reducible apply reply_kept
    | with_reducible apply spdmAt_kept | fail_if_no_progress with_reducible apply kept_upd

theorem spdmAlgorithms_kept (s : State) (fn : Nat) (offered : Bool) (h0 : Kept wq s) :
    Kept wq (spdmAlgorithms s fn offered) := by
  unfold spdmAlgorithms
  repeat' first
    | with_reducible assumption | with_reducible intro _ | with_reducible apply reply_kept
    | with_reducible apply spdmAt_kept | with_reducible apply spdmError_kept | with_reducible apply kept_ite
    | fail_if_no_progress with_reducible apply kept_upd | ((conv => arg 2; with_reducible whnf); split)

theorem spdmDigests_kept (s : State) (fn : Nat) (h0 : Kept wq s) :
    Kept wq (spdmDigests s fn) := by
  unfold spdmDigests
  repeat' first
    | with_reducible assumption | with_reducible intro _ | with_reducible apply reply_kept | with_reducible apply spdmAt_kept

theorem spdmCertificate_kept (s : State) (fn : Nat) (slot : Nat) (offset : Nat) (len : Nat) (h0 : Kept wq s) :
    Kept wq (spdmCertificate s fn slot offset len) := by
  unfold spdmCertificate
  repeat' first
    | with_reducible assumption | with_reducible intro _ | with_reducible apply reply_kept
    | with_reducible apply spdmAt_kept | with_reducible apply spdmError_kept | with_reducible apply kept_ite
    | ((conv => arg 2; with_reducible whnf); split)

theorem replyFree_kept (s : State) (fn : Nat) (x : Spdm) (code : Nat) (h0 : Kept wq s) :
    Kept wq (replyFree s fn x code) := by
  unfold replyFree
  repeat' first
    | with_reducible assumption | with_reducible apply draw_kept | with_reducible apply reply_kept
    | fail_if_no_progress with_reducible apply kept1_mkfst
    | (with_reducible apply kept1_mk; fail_if_success with_reducible apply kept1_fst)
    | fail_if_no_progress with_reducible apply kept2_mksnd
    | (with_reducible apply kept2_mk; fail_if_success with_reducible apply kept2_snd)
    | (with_reducible apply kept3_mk; fail_if_success with_reducible apply kept3_snd)
    | (with_reducible apply kept4_mk; fail_if_success with_reducible apply kept4_snd) | with_reducible apply kept1_fst
    | with_reducible apply kept4_snd | with_reducible apply kept3_snd | with_reducible apply kept2_snd

theorem spdmChallenge_kept (s : State) (fn : Nat) (slot : Nat) (h0 : Kept wq s) :
    Kept wq (spdmChallenge s fn slot) := by
  unfold spdmChallenge
  repeat' first
    | with_reducible assumption | with_reducible intro _ | with_reducible apply replyFree_kept
    | with_reducible apply spdmAt_kept | with_reducible apply spdmError_kept | with_reducible apply kept_ite
    | ((conv => arg 2; with_reducible whnf); split)

theorem spdmMeasurements_kept (s : State) (fn : Nat) (index : Nat) (h0 : Kept wq s) :
    Kept wq (spdmMeasurements s fn index) := by
  unfold spdmMeasurements
  repeat' first
    | with_reducible assumption | with_reducible intro _ | with_reducible apply reply_kept
    | with_reducible apply spdmAt_kept | with_reducible apply spdmError_kept | with_reducible apply kept_ite
    | ((conv => arg 2; with_reducible whnf); split)

theorem spdmExchange_kept (s : State) (fn : Nat) (d : BitVec 768) (h0 : Kept wq s) :
    Kept wq (spdmExchange s fn d) := by
  unfold spdmExchange
  repeat' first
    | with_reducible assumption | with_reducible intro _ | with_reducible apply replyFree_kept
    | with_reducible apply spdmAt_kept | fail_if_no_progress with_reducible apply kept_upd

theorem spdmFinish_kept (s : State) (fn : Nat) (macOk : Bool) (h0 : Kept wq s) :
    Kept wq (spdmFinish s fn macOk) := by
  unfold spdmFinish
  repeat' first
    | with_reducible assumption | with_reducible intro _ | with_reducible apply reply_kept
    | with_reducible apply spdmAt_kept | with_reducible apply kept_ite | fail_if_no_progress with_reducible apply kept_upd
    | ((conv => arg 2; with_reducible whnf); split)

theorem spdmHeartbeat_kept (s : State) (fn : Nat) (h0 : Kept wq s) :
    Kept wq (spdmHeartbeat s fn) := by
  unfold spdmHeartbeat
  repeat' first
    | with_reducible assumption | with_reducible intro _ | with_reducible apply reply_kept | with_reducible apply spdmAt_kept

theorem spdmUpdate_kept (s : State) (fn : Nat) (op : Nat) (h0 : Kept wq s) :
    Kept wq (spdmUpdate s fn op) := by
  unfold spdmUpdate
  repeat' first
    | with_reducible assumption | with_reducible intro _ | with_reducible apply reply_kept
    | with_reducible apply spdmAt_kept | with_reducible apply spdmError_kept | with_reducible apply kept_ite
    | fail_if_no_progress with_reducible apply kept_upd | ((conv => arg 2; with_reducible whnf); split)

theorem spdmEnd_kept (s : State) (fn : Nat) (h0 : Kept wq s) :
    Kept wq (spdmEnd s fn) := by
  unfold spdmEnd
  repeat' first
    | with_reducible assumption | with_reducible intro _ | with_reducible apply reply_kept
    | with_reducible apply spdmAt_kept | fail_if_no_progress with_reducible apply kept_upd

theorem mailboxAbort_kept (s : State) (fn : Nat) (h0 : Kept wq s) :
    Kept wq (mailboxAbort s fn) := by
  unfold mailboxAbort
  repeat' first
    | with_reducible assumption | with_reducible intro _ | with_reducible apply setResponder_kept
    | with_reducible apply kept_ite | fail_if_no_progress with_reducible apply kept_upd
    | fail_if_no_progress ((with_reducible apply kept_updHost); rotate_left; rfl)
    | ((conv => arg 2; with_reducible whnf); split)

theorem vendor_kept (s : State) (fn : Nat) (refuse : Nat) (allowed : Bool) (effect : State) (h0 : Kept wq s) (h1 : Kept wq effect) :
    Kept wq (vendor s fn refuse allowed effect) := by
  unfold vendor
  repeat' first
    | with_reducible assumption | with_reducible intro _ | with_reducible apply reply_kept
    | with_reducible apply spdmError_kept | with_reducible apply kept_ite | ((conv => arg 2; with_reducible whnf); split)

theorem installCtk_kept (s : State) (c : Nat) (key : BitVec 256) (h0 : Kept wq s) :
    Kept wq (installCtk s c key) := by
  unfold installCtk
  repeat' first
    | with_reducible assumption | with_reducible intro _ | with_reducible apply setFld_kept
    | with_reducible apply setQueue_kept | fail_if_no_progress with_reducible apply kept_upd
    | fail_if_no_progress ((with_reducible apply kept_updHost); rotate_left; rfl) | with_reducible apply kept_foldl
    | with_reducible apply kept1_foldl

theorem setCtk_kept (s : State) (fn : Nat) (key : BitVec 256) (h0 : Kept wq s) :
    Kept wq (setCtk s fn key) := by
  unfold setCtk
  repeat' first
    | with_reducible assumption | with_reducible apply installCtk_kept | with_reducible apply vendor_kept

theorem domainKeys_kept (s : State) (fn : Nat) (k : DomKeys) (signed : Bool) (h0 : Kept wq s) :
    Kept wq (domainKeys s fn k signed) := by
  unfold domainKeys
  repeat' first
    | with_reducible assumption | with_reducible apply vendor_kept | fail_if_no_progress with_reducible apply kept_upd
    | ((conv => arg 2; with_reducible whnf); split)

theorem clearDomain_kept (s : State) (fn : Nat) (h0 : Kept wq s) :
    Kept wq (clearDomain s fn) := by
  unfold clearDomain
  repeat' first
    | with_reducible assumption | with_reducible apply vendor_kept | fail_if_no_progress with_reducible apply kept_upd

theorem debugUnlock_kept (s : State) (fn : Nat) (serial : Nat) (count : Nat) (sigOk : Bool) (h0 : Kept wq s) :
    Kept wq (debugUnlock s fn serial count sigOk) := by
  unfold debugUnlock
  repeat' first
    | with_reducible assumption | with_reducible intro _ | with_reducible apply setFld_kept
    | with_reducible apply vendor_kept

theorem stalled_kept (s : State) (h0 : Kept wq s) :
    Kept wq (stalled s) := by
  unfold stalled
  repeat' first
    | with_reducible assumption | with_reducible intro _ | with_reducible apply kept_ite
    | fail_if_no_progress with_reducible apply kept_upd | ((conv => arg 2; with_reducible whnf); split)

theorem usbAnswer_kept (s : State) (bs : List Byte) (h0 : Kept wq s) :
    Kept wq (usbAnswer s bs) := by
  unfold usbAnswer
  repeat' first
    | with_reducible assumption | fail_if_no_progress with_reducible apply kept_upd

theorem usbEffect_kept (s : State) (status : Nat) (h0 : Kept wq s) :
    Kept wq (usbEffect s status) := by
  unfold usbEffect
  repeat' first
    | with_reducible assumption | fail_if_no_progress with_reducible apply kept_upd

theorem usbInfo_kept (s : State) (h0 : Kept wq s) :
    Kept wq (usbInfo s) := by
  unfold usbInfo
  repeat' first
    | with_reducible assumption | with_reducible intro _ | with_reducible apply usbAnswer_kept
    | with_reducible apply kept_ite | ((conv => arg 2; with_reducible whnf); split)

theorem usbFetch_kept (s : State) (off : Nat) (width : Nat) (h0 : Kept wq s) :
    Kept1 wq (usbFetch s off width) := by
  unfold usbFetch
  repeat' first
    | with_reducible assumption | with_reducible intro _ | with_reducible apply accErr_kept
    | with_reducible apply read32_kept | with_reducible apply read64_kept | with_reducible apply kept_ite
    | with_reducible apply kept1_ite | fail_if_no_progress with_reducible apply kept1_mkfst
    | (with_reducible apply kept1_mk; fail_if_success with_reducible apply kept1_fst) | with_reducible apply kept1_fst
    | ((conv => arg 2; with_reducible whnf); split)

theorem usbRead_kept (s : State) (wValue : Nat) (wIndex : Nat) (wLength : Nat) (h0 : Kept wq s) :
    Kept wq (usbRead s wValue wIndex wLength) := by
  unfold usbRead
  repeat' first
    | with_reducible assumption | with_reducible intro _ | with_reducible apply answerTo_kept
    | with_reducible apply stalled_kept | with_reducible apply usbAnswer_kept | with_reducible apply usbFetch_kept
    | with_reducible apply kept_ite | with_reducible apply kept1_ite | fail_if_no_progress with_reducible apply kept1_mkfst
    | (with_reducible apply kept1_mk; fail_if_success with_reducible apply kept1_fst) | with_reducible apply kept1_fst
    | ((conv => arg 2; with_reducible whnf); split)

theorem usbRefused_kept (s : State) (off : Nat) (h0 : Kept wq s) :
    Kept wq (usbRefused s off) := by
  unfold usbRefused
  repeat' first
    | with_reducible assumption | with_reducible apply accErr_kept | fail_if_no_progress with_reducible apply kept_upd

theorem usbWrite_kept (s : State) (wValue : Nat) (wIndex : Nat) (wLength : Nat) (val : Nat) (h0 : Kept wq s) :
    Kept wq (usbWrite s wValue wIndex wLength val) := by
  unfold usbWrite
  repeat' first
    | with_reducible assumption | with_reducible intro _ | with_reducible apply stalled_kept
    | with_reducible apply usbEffect_kept | with_reducible apply usbRefused_kept | with_reducible apply write32_kept
    | with_reducible apply write64_kept | with_reducible apply kept_ite | ((conv => arg 2; with_reducible whnf); split)

theorem usbFirst_kept (s : State) (h0 : Kept wq s) :
    Kept wq (usbFirst s) := by
  unfold usbFirst
  repeat' first
    | with_reducible assumption | with_reducible intro _ | with_reducible apply usbAnswer_kept
    | with_reducible apply kept_ite | ((conv => arg 2; with_reducible whnf); split)

theorem usbBulk_kept (s : State) (kind : Nat) (len : Nat) (wLength : Nat) (h0 : Kept wq s) :
    Kept wq (usbBulk s kind len wLength) := by
  unfold usbBulk
  repeat' first
    | with_reducible assumption | with_reducible intro _ | with_reducible apply stalled_kept
    | with_reducible apply usbEffect_kept | with_reducible apply kept_ite
    | fail_if_no_progress with_reducible apply kept_upd | ((conv => arg 2; with_reducible whnf); split)

theorem usbBulkDone_kept (s : State) (slot : Nat) (svn : Nat) (verified : Bool) (h0 : Kept wq s) :
    Kept wq (usbBulkDone s slot svn verified) := by
  unfold usbBulkDone
  repeat' first
    | with_reducible assumption | with_reducible intro _ | with_reducible apply draw_kept | with_reducible apply kept_ite
    | with_reducible apply kept1_ite | fail_if_no_progress with_reducible apply kept_upd
    | fail_if_no_progress with_reducible apply kept1_mkfst
    | (with_reducible apply kept1_mk; fail_if_success with_reducible apply kept1_fst)
    | fail_if_no_progress with_reducible apply kept2_mksnd
    | (with_reducible apply kept2_mk; fail_if_success with_reducible apply kept2_snd)
    | (with_reducible apply kept3_mk; fail_if_success with_reducible apply kept3_snd)
    | (with_reducible apply kept4_mk; fail_if_success with_reducible apply kept4_snd) | with_reducible apply kept1_fst
    | with_reducible apply kept4_snd | with_reducible apply kept3_snd | with_reducible apply kept2_snd
    | ((conv => arg 2; with_reducible whnf); split) | (with_reducible refine Kept1.elim ?_ (by with_reducible assumption))
    | (with_reducible refine Kept2.elim ?_ (by with_reducible assumption))
    | (with_reducible refine Kept3.elim ?_ (by with_reducible assumption))
    | (with_reducible refine Kept4.elim ?_ (by with_reducible assumption))

theorem usbResult_kept (s : State) (h0 : Kept wq s) :
    Kept wq (usbResult s) := by
  unfold usbResult
  repeat' first
    | with_reducible assumption | with_reducible intro _ | with_reducible apply kept_ite
    | fail_if_no_progress with_reducible apply kept_upd | ((conv => arg 2; with_reducible whnf); split)

theorem releaseCold_kept (s : State) (h0 : Kept wq s) :
    Kept wq (releaseCold s) := by
  unfold releaseCold
  repeat' first
    | with_reducible assumption | with_reducible apply setFld_kept | with_reducible apply releaseReset_kept

theorem usbReset_kept (s : State) (wValue : Nat) (wIndex : Nat) (h0 : Kept wq s) :
    Kept wq (usbReset s wValue wIndex) := by
  unfold usbReset
  repeat' first
    | with_reducible assumption | with_reducible intro _ | with_reducible apply releaseCold_kept
    | with_reducible apply resetDevice_kept | with_reducible apply stalled_kept | with_reducible apply usbEffect_kept
    | with_reducible apply kept_ite | ((conv => arg 2; with_reducible whnf); split)

theorem busReset_kept (s : State) (h0 : Kept wq s) :
    Kept wq (busReset s) := by
  unfold busReset
  repeat' first
    | with_reducible assumption | with_reducible intro _ | with_reducible apply kept_ite
    | fail_if_no_progress with_reducible apply kept_upd | ((conv => arg 2; with_reducible whnf); split)

theorem stageLate_kept (s : State) (h0 : Kept wq s) :
    Kept wq (stageLate s) := by
  unfold stageLate
  repeat' first
    | with_reducible assumption | with_reducible intro _ | with_reducible apply kept_ite
    | fail_if_no_progress with_reducible apply kept_upd | ((conv => arg 2; with_reducible whnf); split)

theorem tapLoad_kept (s : State) (code : Nat) (h0 : Kept wq s) :
    Kept wq (tapLoad s code) := by
  unfold tapLoad
  repeat' first
    | with_reducible assumption | with_reducible intro _ | with_reducible apply draw_kept | with_reducible apply kept_ite
    | with_reducible apply kept1_ite | fail_if_no_progress with_reducible apply kept_upd
    | fail_if_no_progress with_reducible apply kept1_mkfst
    | (with_reducible apply kept1_mk; fail_if_success with_reducible apply kept1_fst)
    | fail_if_no_progress with_reducible apply kept2_mksnd
    | (with_reducible apply kept2_mk; fail_if_success with_reducible apply kept2_snd)
    | (with_reducible apply kept3_mk; fail_if_success with_reducible apply kept3_snd)
    | (with_reducible apply kept4_mk; fail_if_success with_reducible apply kept4_snd) | with_reducible apply kept1_fst
    | with_reducible apply kept4_snd | with_reducible apply kept3_snd | with_reducible apply kept2_snd
    | ((conv => arg 2; with_reducible whnf); split)

/-! ### Islands -/

theorem setIsland_kept (s : State) (x : Nat) (i : Island) (h0 : Kept wq s) :
    Kept wq (State.setIsland s x i) := by
  unfold State.setIsland
  repeat' first
    | with_reducible assumption | with_reducible intro _ | with_reducible apply setFld_kept | with_reducible apply kept_ite
    | fail_if_no_progress with_reducible apply kept_upd | ((conv => arg 2; with_reducible whnf); split)

theorem sleepIsland_kept (s : State) (x : Nat) (h0 : Kept wq s) :
    Kept wq (sleepIsland s x) := by
  unfold sleepIsland
  repeat' first
    | with_reducible assumption | with_reducible intro _ | with_reducible apply setIsland_kept
    | with_reducible apply wake_kept | with_reducible apply kept_ite | ((conv => arg 2; with_reducible whnf); split)

theorem wakeIsland_kept (s : State) (x : Nat) (h0 : Kept wq s) :
    Kept wq (wakeIsland s x) := by
  unfold wakeIsland
  repeat' first
    | with_reducible assumption | with_reducible intro _ | with_reducible apply setIsland_kept
    | with_reducible apply wake_kept | with_reducible apply kept_ite | ((conv => arg 2; with_reducible whnf); split)

theorem toLimit_kept (s : State) (x : Nat) (h0 : Kept wq s) :
    Kept wq (toLimit s x) := by
  unfold toLimit
  repeat' first
    | with_reducible assumption | with_reducible intro _ | with_reducible apply setIsland_kept
    | with_reducible apply wake_kept | with_reducible apply kept_ite | ((conv => arg 2; with_reducible whnf); split)

theorem enterD1_kept (s : State) (h0 : Kept wq s) :
    Kept wq (enterD1 s) := by
  unfold enterD1
  repeat' first
    | with_reducible assumption | with_reducible intro _ | with_reducible apply setFld_kept
    | with_reducible apply toLimit_kept | with_reducible apply kept_ite | fail_if_no_progress with_reducible apply kept_upd
    | with_reducible apply kept_foldl | with_reducible apply kept1_foldl | ((conv => arg 2; with_reducible whnf); split)

theorem clearLatch_kept (s : State) (n : Nat) (h0 : Kept wq s) :
    Kept wq (clearLatch s n) := by
  unfold clearLatch
  repeat' first
    | with_reducible assumption | with_reducible apply decFld_kept | with_reducible apply setFld_kept

theorem deliverEvent_kept (s : State) (h : Nat) (h0 : Kept wq s) :
    Kept wq (deliverEvent s h) := by
  unfold deliverEvent
  repeat' first
    | with_reducible assumption | with_reducible intro _ | with_reducible apply incSat_kept
    | with_reducible apply setFld_kept | with_reducible apply clearLatch_kept | with_reducible apply endHolds_kept
    | with_reducible apply wakeIsland_kept | with_reducible apply kept_ite
    | fail_if_no_progress with_reducible apply kept_upd | with_reducible apply kept_foldl | with_reducible apply kept1_foldl
    | ((conv => arg 2; with_reducible whnf); split)

theorem timerReached_kept (s : State) (k : Nat) (h0 : Kept wq s) :
    Kept wq (timerReached s k) := by
  unfold timerReached
  repeat' first
    | with_reducible assumption | with_reducible intro _ | with_reducible apply edge_kept | with_reducible apply kept_ite
    | ((conv => arg 2; with_reducible whnf); split)

theorem addEnergy_kept (s : State) (uj : Nat) (h0 : Kept wq s) :
    Kept wq (addEnergy s uj) := by
  unfold addEnergy
  repeat' first
    | with_reducible assumption | with_reducible intro _ | with_reducible apply incWrap_kept
    | with_reducible apply setFld_kept | with_reducible apply kept_ite | ((conv => arg 2; with_reducible whnf); split)

theorem porstLow_kept (s : State) (h0 : Kept wq s) :
    Kept wq (porstLow s) := by
  unfold porstLow
  repeat' first
    | with_reducible assumption | with_reducible apply resetDevice_kept | fail_if_no_progress with_reducible apply kept_upd

theorem porstHigh_kept (s : State) (h0 : Kept wq s) :
    Kept wq (porstHigh s) := by
  unfold porstHigh
  repeat' first
    | with_reducible assumption | with_reducible intro _ | with_reducible apply releaseCold_kept
    | with_reducible apply kept_ite | fail_if_no_progress with_reducible apply kept_upd
    | ((conv => arg 2; with_reducible whnf); split)

theorem setPhase_kept (s : State) (p : Nat) (h0 : Kept wq s) :
    Kept wq (setPhase s p) := by
  unfold setPhase
  repeat' first
    | with_reducible assumption | with_reducible apply setFld_kept | fail_if_no_progress with_reducible apply kept_upd

theorem clearLatches_kept (s : State) (h0 : Kept wq s) :
    Kept wq (clearLatches s) := by
  unfold clearLatches
  repeat' first
    | with_reducible assumption | with_reducible intro _ | with_reducible apply setFld_kept | with_reducible apply kept_ite
    | with_reducible apply kept_foldl | with_reducible apply kept1_foldl | ((conv => arg 2; with_reducible whnf); split)

theorem startBay_kept (s : State) (b : Nat) (h0 : Kept wq s) :
    Kept wq (startBay s b) := by
  unfold startBay
  repeat' first
    | with_reducible assumption | with_reducible intro _ | with_reducible apply holdUp_kept
    | with_reducible apply presence_kept | with_reducible apply kept_ite | ((conv => arg 2; with_reducible whnf); split)

theorem bootSlot_kept (s : State) (i : Nat) (h0 : Kept wq s) :
    Kept wq (bootSlot s i) := by
  unfold bootSlot
  repeat' first
    | with_reducible assumption | with_reducible intro _ | with_reducible apply setFld_kept
    | with_reducible apply clearLatches_kept | with_reducible apply setPhase_kept | with_reducible apply startBay_kept
    | with_reducible apply kept_ite | fail_if_no_progress with_reducible apply kept_upd | with_reducible apply kept_foldl
    | with_reducible apply kept1_foldl | ((conv => arg 2; with_reducible whnf); split)

theorem bootFirmware_kept (s : State) (h0 : Kept wq s) :
    Kept wq (bootFirmware s) := by
  unfold bootFirmware
  repeat' first
    | with_reducible assumption | with_reducible intro _ | with_reducible apply bootSlot_kept
    | with_reducible apply setPhase_kept | with_reducible apply kept_ite | fail_if_no_progress with_reducible apply kept_upd
    | ((conv => arg 2; with_reducible whnf); split)

theorem formeTested_kept (s : State) (f : Nat) (h0 : Kept wq s) :
    Kept wq (formeTested s f) := by
  unfold formeTested
  repeat' first
    | with_reducible assumption | with_reducible intro _ | with_reducible apply setFld_kept
    | with_reducible apply kept_foldl | with_reducible apply kept1_foldl

theorem partTested_kept (s : State) (h0 : Kept wq s) :
    Kept wq (partTested s) := by
  unfold partTested
  repeat' first
    | with_reducible assumption | with_reducible intro _ | with_reducible apply setFld_kept
    | with_reducible apply capacityChange_kept | with_reducible apply formeTested_kept | with_reducible apply showBays_kept
    | with_reducible apply kept_foldl | with_reducible apply kept1_foldl

theorem goReady_kept (s : State) (h0 : Kept wq s) :
    Kept wq (goReady s) := by
  unfold goReady
  repeat' first
    | with_reducible assumption | with_reducible intro _ | with_reducible apply setFld_kept
    | with_reducible apply foreignLate_kept | with_reducible apply restoreAll_kept | with_reducible apply setPhase_kept
    | fail_if_no_progress with_reducible apply kept_upd | with_reducible apply kept_foldl | with_reducible apply kept1_foldl

theorem advancePhase_kept (s : State) (h0 : Kept wq s) :
    Kept wq (advancePhase s) := by
  unfold advancePhase
  repeat' first
    | with_reducible assumption | with_reducible intro _ | with_reducible apply bootFirmware_kept
    | with_reducible apply goReady_kept | with_reducible apply partTested_kept | with_reducible apply setPhase_kept
    | with_reducible apply kept_ite | ((conv => arg 2; with_reducible whnf); split)

/-! ### Package -/

theorem linkGone_kept (s : State) (b : Nat) (h0 : Kept wq s) :
    Kept wq (linkGone s b) := by
  unfold linkGone
  repeat' first
    | with_reducible assumption | with_reducible intro _ | with_reducible apply setFld_kept
    | with_reducible apply bayGone_kept | with_reducible apply capacityChange_kept | with_reducible apply cartridgeLost_kept
    | with_reducible apply fault_kept | with_reducible apply setBst_kept | with_reducible apply kept_ite
    | ((conv => arg 2; with_reducible whnf); split)

theorem referenceLost_kept (s : State) (h : Nat) (h0 : Kept wq s) :
    Kept wq (referenceLost s h) := by
  unfold referenceLost
  repeat' first
    | with_reducible assumption | with_reducible intro _ | with_reducible apply linkGone_kept
    | with_reducible apply portLost_kept | with_reducible apply setPst_kept | with_reducible apply kept_ite
    | fail_if_no_progress with_reducible apply kept_upd | with_reducible apply kept_foldl | with_reducible apply kept1_foldl
    | ((conv => arg 2; with_reducible whnf); split)

theorem stopPark_kept (s : State) (i : Nat) (h0 : Kept wq s) :
    Kept wq (stopPark s i) := by
  unfold stopPark
  repeat' first
    | with_reducible assumption | with_reducible intro _ | with_reducible apply abortPark_kept
    | with_reducible apply kept_ite | ((conv => arg 2; with_reducible whnf); split)

theorem sealDevice_kept (s : State) (h0 : Kept wq s) :
    Kept wq (sealDevice s) := by
  unfold sealDevice
  repeat' first
    | with_reducible assumption | with_reducible intro _ | with_reducible apply setFld_kept
    | with_reducible apply sealBay_kept | with_reducible apply setPhase_kept | with_reducible apply stopPark_kept
    | with_reducible apply kept_ite | with_reducible apply kept_foldl | with_reducible apply kept1_foldl
    | ((conv => arg 2; with_reducible whnf); split)

theorem powerFails_kept (s : State) (h0 : Kept wq s) :
    Kept wq (powerFails s) := by
  unfold powerFails
  repeat' first
    | with_reducible assumption | with_reducible intro _ | with_reducible apply setFld_kept | with_reducible apply edge_kept
    | with_reducible apply sealDevice_kept | with_reducible apply kept_ite
    | fail_if_no_progress with_reducible apply kept_upd | ((conv => arg 2; with_reducible whnf); split)

theorem powerBack_kept (s : State) (h0 : Kept wq s) :
    Kept wq (powerBack s) := by
  unfold powerBack
  repeat' first
    | with_reducible assumption | with_reducible intro _ | with_reducible apply setFld_kept
    | with_reducible apply internalReset_kept | with_reducible apply kept_ite
    | fail_if_no_progress with_reducible apply kept_upd | ((conv => arg 2; with_reducible whnf); split)

theorem standbyUp_kept (s : State) (vsb : Nat) (h0 : Kept wq s) :
    Kept wq (standbyUp s vsb) := by
  unfold standbyUp
  repeat' first
    | with_reducible assumption | with_reducible intro _ | with_reducible apply setFld_kept | with_reducible apply kept_ite
    | fail_if_no_progress with_reducible apply kept_upd | ((conv => arg 2; with_reducible whnf); split)

theorem inputLow_kept (s : State) (mv : Nat) (h0 : Kept wq s) :
    Kept wq (inputLow s mv) := by
  unfold inputLow
  repeat' first
    | with_reducible assumption | with_reducible intro _ | with_reducible apply setFld_kept | with_reducible apply edge_kept
    | with_reducible apply fault_kept | with_reducible apply sealDevice_kept | with_reducible apply kept_ite
    | ((conv => arg 2; with_reducible whnf); split)

theorem inputHigh_kept (s : State) (mv : Nat) (h0 : Kept wq s) :
    Kept wq (inputHigh s mv) := by
  unfold inputHigh
  repeat' first
    | with_reducible assumption | with_reducible intro _ | with_reducible apply setFld_kept
    | with_reducible apply fault_kept | with_reducible apply kept_ite | fail_if_no_progress with_reducible apply kept_upd
    | ((conv => arg 2; with_reducible whnf); split)

theorem holdReset_kept (s : State) (h0 : Kept wq s) :
    Kept wq (holdReset s) := by
  unfold holdReset
  repeat' first
    | with_reducible assumption | with_reducible apply resetDevice_kept | fail_if_no_progress with_reducible apply kept_upd

theorem inputOver_kept (s : State) (mv : Nat) (h0 : Kept wq s) :
    Kept wq (inputOver s mv) := by
  unfold inputOver
  repeat' first
    | with_reducible assumption | with_reducible intro _ | with_reducible apply holdReset_kept
    | with_reducible apply kept_ite | ((conv => arg 2; with_reducible whnf); split)

theorem railsGone_kept (s : State) (vin : Nat) (vsb : Nat) (h0 : Kept wq s) :
    Kept wq (railsGone s vin vsb) := by
  unfold railsGone
  repeat' first
    | with_reducible assumption | with_reducible intro _ | with_reducible apply setFld_kept
    | with_reducible apply holdReset_kept | with_reducible apply resetDevice_kept | with_reducible apply kept_ite
    | fail_if_no_progress with_reducible apply kept_upd | ((conv => arg 2; with_reducible whnf); split)

theorem heatFault_kept (s : State) (h : Nat) (h0 : Kept wq s) :
    Kept wq (heatFault s h) := by
  unfold heatFault
  repeat' first
    | with_reducible assumption | with_reducible apply fault_kept

theorem tripped_kept (s : State) (tj : Nat) (h0 : Kept wq s) :
    Kept wq (tripped s tj) := by
  unfold tripped
  repeat' first
    | with_reducible assumption | with_reducible intro _ | with_reducible apply setFld_kept
    | with_reducible apply sealDevice_kept | with_reducible apply kept_ite
    | fail_if_no_progress with_reducible apply kept_upd | ((conv => arg 2; with_reducible whnf); split)

theorem throttle_kept (s : State) (tj : Nat) (h : Nat) (h0 : Kept wq s) :
    Kept wq (throttle s tj h) := by
  unfold throttle
  repeat' first
    | with_reducible assumption | with_reducible intro _ | with_reducible apply setFld_kept
    | with_reducible apply heatFault_kept | with_reducible apply kept_ite
    | fail_if_no_progress with_reducible apply kept_upd | ((conv => arg 2; with_reducible whnf); split)

theorem limitAll_kept (s : State) (tj : Nat) (h : Nat) (h0 : Kept wq s) :
    Kept wq (limitAll s tj h) := by
  unfold limitAll
  repeat' first
    | with_reducible assumption | with_reducible intro _ | with_reducible apply setFld_kept
    | with_reducible apply heatFault_kept | with_reducible apply kept_ite
    | fail_if_no_progress with_reducible apply kept_upd | ((conv => arg 2; with_reducible whnf); split)

theorem liftLimits_kept (s : State) (tj : Nat) (h0 : Kept wq s) :
    Kept wq (liftLimits s tj) := by
  unfold liftLimits
  repeat' first
    | with_reducible assumption | with_reducible intro _ | with_reducible apply setFld_kept | with_reducible apply kept_ite
    | fail_if_no_progress with_reducible apply kept_upd | ((conv => arg 2; with_reducible whnf); split)

end Sys2Proof.Machine
end

