-- ==== Sys2Proof/Laws/State.lean ====
section
/-! SUPPORT. What each named update of the state leaves: one lemma for each field, and one for each way of reading a field, that
the update does not change; then what a read of the place written gives. -/

namespace Sys2Proof.Machine

variable (s : State)

/-! ### setReg -/

@[simp] theorem setReg_pending (o : Nat) (w : Word) : (s.setReg o w).pending = s.pending := rfl
@[simp] theorem setReg_clk (o : Nat) (w : Word) : (s.setReg o w).clk = s.clk := rfl
@[simp] theorem setReg_pins (o : Nat) (w : Word) : (s.setReg o w).pins = s.pins := rfl
@[simp] theorem setReg_host (o : Nat) (w : Word) : (s.setReg o w).host = s.host := rfl
@[simp] theorem setReg_ses (o : Nat) (w : Word) : (s.setReg o w).ses = s.ses := rfl
@[simp] theorem setReg_tier (o : Nat) (w : Word) : (s.setReg o w).tier = s.tier := rfl
@[simp] theorem setReg_mkr (o : Nat) (w : Word) : (s.setReg o w).mkr = s.mkr := rfl
@[simp] theorem setReg_gal (o : Nat) (w : Word) : (s.setReg o w).gal = s.gal := rfl
@[simp] theorem setReg_cells (o : Nat) (w : Word) : (s.setReg o w).cells = s.cells := rfl
@[simp] theorem setReg_waiters (o : Nat) (w : Word) : (s.setReg o w).waiters = s.waiters := rfl
@[simp] theorem setReg_hbm (o : Nat) (w : Word) : (s.setReg o w).hbm = s.hbm := rfl
@[simp] theorem setReg_hbmBad (o : Nat) (w : Word) : (s.setReg o w).hbmBad = s.hbmBad := rfl
@[simp] theorem setReg_hbmWeak (o : Nat) (w : Word) : (s.setReg o w).hbmWeak = s.hbmWeak := rfl
@[simp] theorem setReg_tok (o : Nat) (w : Word) : (s.setReg o w).tok = s.tok := rfl
@[simp] theorem setReg_banks (o : Nat) (w : Word) : (s.setReg o w).banks = s.banks := rfl
@[simp] theorem setReg_crt (o : Nat) (w : Word) : (s.setReg o w).crt = s.crt := rfl
@[simp] theorem setReg_vse (o : Nat) (w : Word) : (s.setReg o w).vse = s.vse := rfl
@[simp] theorem setReg_fab (o : Nat) (w : Word) : (s.setReg o w).fab = s.fab := rfl
@[simp] theorem setReg_flt (o : Nat) (w : Word) : (s.setReg o w).flt = s.flt := rfl
@[simp] theorem setReg_sec (o : Nat) (w : Word) : (s.setReg o w).sec = s.sec := rfl
@[simp] theorem setReg_isl (o : Nat) (w : Word) : (s.setReg o w).isl = s.isl := rfl
@[simp] theorem setReg_freeCtr (o : Nat) (w : Word) : (s.setReg o w).freeCtr = s.freeCtr := rfl
@[simp] theorem setReg_at_now (o : Nat) (w : Word) : (s.setReg o w).now = s.now := rfl
@[simp] theorem setReg_at_awake (o : Nat) (w : Word) : (s.setReg o w).awake = s.awake := rfl
@[simp] theorem setReg_at_queue (o : Nat) (w : Word) (k r : Nat) : (s.setReg o w).queue k r = s.queue k r := rfl
@[simp] theorem setReg_at_ctkOf (o : Nat) (w : Word) (k : Nat) : (s.setReg o w).ctkOf k = s.ctkOf k := rfl
@[simp] theorem setReg_at_hostRd (o : Nat) (w : Word) (g b y : Nat) : (s.setReg o w).hostRd g b y = s.hostRd g b y := rfl
@[simp] theorem setReg_at_cell (o : Nat) (w : Word) (k : Nat) : (s.setReg o w).cell k = s.cell k := rfl
@[simp] theorem setReg_at_ses (o : Nat) (w : Word) (k : Nat) : (s.setReg o w).ses? k = s.ses? k := rfl
@[simp] theorem setReg_at_frame (o : Nat) (w : Word) (k : Nat) : (s.setReg o w).frame k = s.frame k := rfl
@[simp] theorem setReg_at_bay (o : Nat) (w : Word) (k : Nat) : (s.setReg o w).bay k = s.bay k := rfl
@[simp] theorem setReg_at_slice (o : Nat) (w : Word) (k : Nat) : (s.setReg o w).slice k = s.slice k := rfl
@[simp] theorem setReg_at_part (o : Nat) (w : Word) (k : Nat) : (s.setReg o w).part k = s.part k := rfl
@[simp] theorem setReg_at_bank (o : Nat) (w : Word) (k : Nat) : (s.setReg o w).bank k = s.bank k := rfl
@[simp] theorem setReg_at_port (o : Nat) (w : Word) (k : Nat) : (s.setReg o w).port k = s.port k := rfl
@[simp] theorem setReg_at_qp (o : Nat) (w : Word) (k : Nat) : (s.setReg o w).qp k = s.qp k := rfl
@[simp] theorem setReg_at_responder (o : Nat) (w : Word) (k : Nat) : (s.setReg o w).responder k = s.responder k := rfl
@[simp] theorem setReg_at_island (o : Nat) (w : Word) (k : Nat) : (s.setReg o w).island k = s.island k := rfl

/-! ### setFld -/

@[simp] theorem setFld_pending (f : Field) (v : Nat) : (s.setFld f v).pending = s.pending := rfl
@[simp] theorem setFld_clk (f : Field) (v : Nat) : (s.setFld f v).clk = s.clk := rfl
@[simp] theorem setFld_pins (f : Field) (v : Nat) : (s.setFld f v).pins = s.pins := rfl
@[simp] theorem setFld_host (f : Field) (v : Nat) : (s.setFld f v).host = s.host := rfl
@[simp] theorem setFld_ses (f : Field) (v : Nat) : (s.setFld f v).ses = s.ses := rfl
@[simp] theorem setFld_tier (f : Field) (v : Nat) : (s.setFld f v).tier = s.tier := rfl
@[simp] theorem setFld_mkr (f : Field) (v : Nat) : (s.setFld f v).mkr = s.mkr := rfl
@[simp] theorem setFld_gal (f : Field) (v : Nat) : (s.setFld f v).gal = s.gal := rfl
@[simp] theorem setFld_cells (f : Field) (v : Nat) : (s.setFld f v).cells = s.cells := rfl
@[simp] theorem setFld_waiters (f : Field) (v : Nat) : (s.setFld f v).waiters = s.waiters := rfl
@[simp] theorem setFld_hbm (f : Field) (v : Nat) : (s.setFld f v).hbm = s.hbm := rfl
@[simp] theorem setFld_hbmBad (f : Field) (v : Nat) : (s.setFld f v).hbmBad = s.hbmBad := rfl
@[simp] theorem setFld_hbmWeak (f : Field) (v : Nat) : (s.setFld f v).hbmWeak = s.hbmWeak := rfl
@[simp] theorem setFld_tok (f : Field) (v : Nat) : (s.setFld f v).tok = s.tok := rfl
@[simp] theorem setFld_banks (f : Field) (v : Nat) : (s.setFld f v).banks = s.banks := rfl
@[simp] theorem setFld_crt (f : Field) (v : Nat) : (s.setFld f v).crt = s.crt := rfl
@[simp] theorem setFld_vse (f : Field) (v : Nat) : (s.setFld f v).vse = s.vse := rfl
@[simp] theorem setFld_fab (f : Field) (v : Nat) : (s.setFld f v).fab = s.fab := rfl
@[simp] theorem setFld_flt (f : Field) (v : Nat) : (s.setFld f v).flt = s.flt := rfl
@[simp] theorem setFld_sec (f : Field) (v : Nat) : (s.setFld f v).sec = s.sec := rfl
@[simp] theorem setFld_isl (f : Field) (v : Nat) : (s.setFld f v).isl = s.isl := rfl
@[simp] theorem setFld_freeCtr (f : Field) (v : Nat) : (s.setFld f v).freeCtr = s.freeCtr := rfl
@[simp] theorem setFld_at_now (f : Field) (v : Nat) : (s.setFld f v).now = s.now := rfl
@[simp] theorem setFld_at_awake (f : Field) (v : Nat) : (s.setFld f v).awake = s.awake := rfl
@[simp] theorem setFld_at_queue (f : Field) (v : Nat) (k r : Nat) : (s.setFld f v).queue k r = s.queue k r := rfl
@[simp] theorem setFld_at_ctkOf (f : Field) (v : Nat) (k : Nat) : (s.setFld f v).ctkOf k = s.ctkOf k := rfl
@[simp] theorem setFld_at_hostRd (f : Field) (v : Nat) (g b y : Nat) : (s.setFld f v).hostRd g b y = s.hostRd g b y := rfl
@[simp] theorem setFld_at_cell (f : Field) (v : Nat) (k : Nat) : (s.setFld f v).cell k = s.cell k := rfl
@[simp] theorem setFld_at_ses (f : Field) (v : Nat) (k : Nat) : (s.setFld f v).ses? k = s.ses? k := rfl
@[simp] theorem setFld_at_frame (f : Field) (v : Nat) (k : Nat) : (s.setFld f v).frame k = s.frame k := rfl
@[simp] theorem setFld_at_bay (f : Field) (v : Nat) (k : Nat) : (s.setFld f v).bay k = s.bay k := rfl
@[simp] theorem setFld_at_slice (f : Field) (v : Nat) (k : Nat) : (s.setFld f v).slice k = s.slice k := rfl
@[simp] theorem setFld_at_part (f : Field) (v : Nat) (k : Nat) : (s.setFld f v).part k = s.part k := rfl
@[simp] theorem setFld_at_bank (f : Field) (v : Nat) (k : Nat) : (s.setFld f v).bank k = s.bank k := rfl
@[simp] theorem setFld_at_port (f : Field) (v : Nat) (k : Nat) : (s.setFld f v).port k = s.port k := rfl
@[simp] theorem setFld_at_qp (f : Field) (v : Nat) (k : Nat) : (s.setFld f v).qp k = s.qp k := rfl
@[simp] theorem setFld_at_responder (f : Field) (v : Nat) (k : Nat) : (s.setFld f v).responder k = s.responder k := rfl
@[simp] theorem setFld_at_island (f : Field) (v : Nat) (k : Nat) : (s.setFld f v).island k = s.island k := rfl

/-! ### incSat -/

@[simp] theorem incSat_pending (f : Field) (n : Nat) : (s.incSat f n).pending = s.pending := rfl
@[simp] theorem incSat_clk (f : Field) (n : Nat) : (s.incSat f n).clk = s.clk := rfl
@[simp] theorem incSat_pins (f : Field) (n : Nat) : (s.incSat f n).pins = s.pins := rfl
@[simp] theorem incSat_host (f : Field) (n : Nat) : (s.incSat f n).host = s.host := rfl
@[simp] theorem incSat_ses (f : Field) (n : Nat) : (s.incSat f n).ses = s.ses := rfl
@[simp] theorem incSat_tier (f : Field) (n : Nat) : (s.incSat f n).tier = s.tier := rfl
@[simp] theorem incSat_mkr (f : Field) (n : Nat) : (s.incSat f n).mkr = s.mkr := rfl
@[simp] theorem incSat_gal (f : Field) (n : Nat) : (s.incSat f n).gal = s.gal := rfl
@[simp] theorem incSat_cells (f : Field) (n : Nat) : (s.incSat f n).cells = s.cells := rfl
@[simp] theorem incSat_waiters (f : Field) (n : Nat) : (s.incSat f n).waiters = s.waiters := rfl
@[simp] theorem incSat_hbm (f : Field) (n : Nat) : (s.incSat f n).hbm = s.hbm := rfl
@[simp] theorem incSat_hbmBad (f : Field) (n : Nat) : (s.incSat f n).hbmBad = s.hbmBad := rfl
@[simp] theorem incSat_hbmWeak (f : Field) (n : Nat) : (s.incSat f n).hbmWeak = s.hbmWeak := rfl
@[simp] theorem incSat_tok (f : Field) (n : Nat) : (s.incSat f n).tok = s.tok := rfl
@[simp] theorem incSat_banks (f : Field) (n : Nat) : (s.incSat f n).banks = s.banks := rfl
@[simp] theorem incSat_crt (f : Field) (n : Nat) : (s.incSat f n).crt = s.crt := rfl
@[simp] theorem incSat_vse (f : Field) (n : Nat) : (s.incSat f n).vse = s.vse := rfl
@[simp] theorem incSat_fab (f : Field) (n : Nat) : (s.incSat f n).fab = s.fab := rfl
@[simp] theorem incSat_flt (f : Field) (n : Nat) : (s.incSat f n).flt = s.flt := rfl
@[simp] theorem incSat_sec (f : Field) (n : Nat) : (s.incSat f n).sec = s.sec := rfl
@[simp] theorem incSat_isl (f : Field) (n : Nat) : (s.incSat f n).isl = s.isl := rfl
@[simp] theorem incSat_freeCtr (f : Field) (n : Nat) : (s.incSat f n).freeCtr = s.freeCtr := rfl
@[simp] theorem incSat_at_now (f : Field) (n : Nat) : (s.incSat f n).now = s.now := rfl
@[simp] theorem incSat_at_awake (f : Field) (n : Nat) : (s.incSat f n).awake = s.awake := rfl
@[simp] theorem incSat_at_queue (f : Field) (n : Nat) (k r : Nat) : (s.incSat f n).queue k r = s.queue k r := rfl
@[simp] theorem incSat_at_ctkOf (f : Field) (n : Nat) (k : Nat) : (s.incSat f n).ctkOf k = s.ctkOf k := rfl
@[simp] theorem incSat_at_hostRd (f : Field) (n : Nat) (g b y : Nat) : (s.incSat f n).hostRd g b y = s.hostRd g b y := rfl
@[simp] theorem incSat_at_cell (f : Field) (n : Nat) (k : Nat) : (s.incSat f n).cell k = s.cell k := rfl
@[simp] theorem incSat_at_ses (f : Field) (n : Nat) (k : Nat) : (s.incSat f n).ses? k = s.ses? k := rfl
@[simp] theorem incSat_at_frame (f : Field) (n : Nat) (k : Nat) : (s.incSat f n).frame k = s.frame k := rfl
@[simp] theorem incSat_at_bay (f : Field) (n : Nat) (k : Nat) : (s.incSat f n).bay k = s.bay k := rfl
@[simp] theorem incSat_at_slice (f : Field) (n : Nat) (k : Nat) : (s.incSat f n).slice k = s.slice k := rfl
@[simp] theorem incSat_at_part (f : Field) (n : Nat) (k : Nat) : (s.incSat f n).part k = s.part k := rfl
@[simp] theorem incSat_at_bank (f : Field) (n : Nat) (k : Nat) : (s.incSat f n).bank k = s.bank k := rfl
@[simp] theorem incSat_at_port (f : Field) (n : Nat) (k : Nat) : (s.incSat f n).port k = s.port k := rfl
@[simp] theorem incSat_at_qp (f : Field) (n : Nat) (k : Nat) : (s.incSat f n).qp k = s.qp k := rfl
@[simp] theorem incSat_at_responder (f : Field) (n : Nat) (k : Nat) : (s.incSat f n).responder k = s.responder k := rfl
@[simp] theorem incSat_at_island (f : Field) (n : Nat) (k : Nat) : (s.incSat f n).island k = s.island k := rfl

/-! ### incWrap -/

@[simp] theorem incWrap_pending (f : Field) (n : Nat) : (s.incWrap f n).pending = s.pending := rfl
@[simp] theorem incWrap_clk (f : Field) (n : Nat) : (s.incWrap f n).clk = s.clk := rfl
@[simp] theorem incWrap_pins (f : Field) (n : Nat) : (s.incWrap f n).pins = s.pins := rfl
@[simp] theorem incWrap_host (f : Field) (n : Nat) : (s.incWrap f n).host = s.host := rfl
@[simp] theorem incWrap_ses (f : Field) (n : Nat) : (s.incWrap f n).ses = s.ses := rfl
@[simp] theorem incWrap_tier (f : Field) (n : Nat) : (s.incWrap f n).tier = s.tier := rfl
@[simp] theorem incWrap_mkr (f : Field) (n : Nat) : (s.incWrap f n).mkr = s.mkr := rfl
@[simp] theorem incWrap_gal (f : Field) (n : Nat) : (s.incWrap f n).gal = s.gal := rfl
@[simp] theorem incWrap_cells (f : Field) (n : Nat) : (s.incWrap f n).cells = s.cells := rfl
@[simp] theorem incWrap_waiters (f : Field) (n : Nat) : (s.incWrap f n).waiters = s.waiters := rfl
@[simp] theorem incWrap_hbm (f : Field) (n : Nat) : (s.incWrap f n).hbm = s.hbm := rfl
@[simp] theorem incWrap_hbmBad (f : Field) (n : Nat) : (s.incWrap f n).hbmBad = s.hbmBad := rfl
@[simp] theorem incWrap_hbmWeak (f : Field) (n : Nat) : (s.incWrap f n).hbmWeak = s.hbmWeak := rfl
@[simp] theorem incWrap_tok (f : Field) (n : Nat) : (s.incWrap f n).tok = s.tok := rfl
@[simp] theorem incWrap_banks (f : Field) (n : Nat) : (s.incWrap f n).banks = s.banks := rfl
@[simp] theorem incWrap_crt (f : Field) (n : Nat) : (s.incWrap f n).crt = s.crt := rfl
@[simp] theorem incWrap_vse (f : Field) (n : Nat) : (s.incWrap f n).vse = s.vse := rfl
@[simp] theorem incWrap_fab (f : Field) (n : Nat) : (s.incWrap f n).fab = s.fab := rfl
@[simp] theorem incWrap_flt (f : Field) (n : Nat) : (s.incWrap f n).flt = s.flt := rfl
@[simp] theorem incWrap_sec (f : Field) (n : Nat) : (s.incWrap f n).sec = s.sec := rfl
@[simp] theorem incWrap_isl (f : Field) (n : Nat) : (s.incWrap f n).isl = s.isl := rfl
@[simp] theorem incWrap_freeCtr (f : Field) (n : Nat) : (s.incWrap f n).freeCtr = s.freeCtr := rfl
@[simp] theorem incWrap_at_now (f : Field) (n : Nat) : (s.incWrap f n).now = s.now := rfl
@[simp] theorem incWrap_at_awake (f : Field) (n : Nat) : (s.incWrap f n).awake = s.awake := rfl
@[simp] theorem incWrap_at_queue (f : Field) (n : Nat) (k r : Nat) : (s.incWrap f n).queue k r = s.queue k r := rfl
@[simp] theorem incWrap_at_ctkOf (f : Field) (n : Nat) (k : Nat) : (s.incWrap f n).ctkOf k = s.ctkOf k := rfl
@[simp] theorem incWrap_at_hostRd (f : Field) (n : Nat) (g b y : Nat) : (s.incWrap f n).hostRd g b y = s.hostRd g b y := rfl
@[simp] theorem incWrap_at_cell (f : Field) (n : Nat) (k : Nat) : (s.incWrap f n).cell k = s.cell k := rfl
@[simp] theorem incWrap_at_ses (f : Field) (n : Nat) (k : Nat) : (s.incWrap f n).ses? k = s.ses? k := rfl
@[simp] theorem incWrap_at_frame (f : Field) (n : Nat) (k : Nat) : (s.incWrap f n).frame k = s.frame k := rfl
@[simp] theorem incWrap_at_bay (f : Field) (n : Nat) (k : Nat) : (s.incWrap f n).bay k = s.bay k := rfl
@[simp] theorem incWrap_at_slice (f : Field) (n : Nat) (k : Nat) : (s.incWrap f n).slice k = s.slice k := rfl
@[simp] theorem incWrap_at_part (f : Field) (n : Nat) (k : Nat) : (s.incWrap f n).part k = s.part k := rfl
@[simp] theorem incWrap_at_bank (f : Field) (n : Nat) (k : Nat) : (s.incWrap f n).bank k = s.bank k := rfl
@[simp] theorem incWrap_at_port (f : Field) (n : Nat) (k : Nat) : (s.incWrap f n).port k = s.port k := rfl
@[simp] theorem incWrap_at_qp (f : Field) (n : Nat) (k : Nat) : (s.incWrap f n).qp k = s.qp k := rfl
@[simp] theorem incWrap_at_responder (f : Field) (n : Nat) (k : Nat) : (s.incWrap f n).responder k = s.responder k := rfl
@[simp] theorem incWrap_at_island (f : Field) (n : Nat) (k : Nat) : (s.incWrap f n).island k = s.island k := rfl

/-! ### decFld -/

@[simp] theorem decFld_pending (f : Field) (n : Nat) : (s.decFld f n).pending = s.pending := rfl
@[simp] theorem decFld_clk (f : Field) (n : Nat) : (s.decFld f n).clk = s.clk := rfl
@[simp] theorem decFld_pins (f : Field) (n : Nat) : (s.decFld f n).pins = s.pins := rfl
@[simp] theorem decFld_host (f : Field) (n : Nat) : (s.decFld f n).host = s.host := rfl
@[simp] theorem decFld_ses (f : Field) (n : Nat) : (s.decFld f n).ses = s.ses := rfl
@[simp] theorem decFld_tier (f : Field) (n : Nat) : (s.decFld f n).tier = s.tier := rfl
@[simp] theorem decFld_mkr (f : Field) (n : Nat) : (s.decFld f n).mkr = s.mkr := rfl
@[simp] theorem decFld_gal (f : Field) (n : Nat) : (s.decFld f n).gal = s.gal := rfl
@[simp] theorem decFld_cells (f : Field) (n : Nat) : (s.decFld f n).cells = s.cells := rfl
@[simp] theorem decFld_waiters (f : Field) (n : Nat) : (s.decFld f n).waiters = s.waiters := rfl
@[simp] theorem decFld_hbm (f : Field) (n : Nat) : (s.decFld f n).hbm = s.hbm := rfl
@[simp] theorem decFld_hbmBad (f : Field) (n : Nat) : (s.decFld f n).hbmBad = s.hbmBad := rfl
@[simp] theorem decFld_hbmWeak (f : Field) (n : Nat) : (s.decFld f n).hbmWeak = s.hbmWeak := rfl
@[simp] theorem decFld_tok (f : Field) (n : Nat) : (s.decFld f n).tok = s.tok := rfl
@[simp] theorem decFld_banks (f : Field) (n : Nat) : (s.decFld f n).banks = s.banks := rfl
@[simp] theorem decFld_crt (f : Field) (n : Nat) : (s.decFld f n).crt = s.crt := rfl
@[simp] theorem decFld_vse (f : Field) (n : Nat) : (s.decFld f n).vse = s.vse := rfl
@[simp] theorem decFld_fab (f : Field) (n : Nat) : (s.decFld f n).fab = s.fab := rfl
@[simp] theorem decFld_flt (f : Field) (n : Nat) : (s.decFld f n).flt = s.flt := rfl
@[simp] theorem decFld_sec (f : Field) (n : Nat) : (s.decFld f n).sec = s.sec := rfl
@[simp] theorem decFld_isl (f : Field) (n : Nat) : (s.decFld f n).isl = s.isl := rfl
@[simp] theorem decFld_freeCtr (f : Field) (n : Nat) : (s.decFld f n).freeCtr = s.freeCtr := rfl
@[simp] theorem decFld_at_now (f : Field) (n : Nat) : (s.decFld f n).now = s.now := rfl
@[simp] theorem decFld_at_awake (f : Field) (n : Nat) : (s.decFld f n).awake = s.awake := rfl
@[simp] theorem decFld_at_queue (f : Field) (n : Nat) (k r : Nat) : (s.decFld f n).queue k r = s.queue k r := rfl
@[simp] theorem decFld_at_ctkOf (f : Field) (n : Nat) (k : Nat) : (s.decFld f n).ctkOf k = s.ctkOf k := rfl
@[simp] theorem decFld_at_hostRd (f : Field) (n : Nat) (g b y : Nat) : (s.decFld f n).hostRd g b y = s.hostRd g b y := rfl
@[simp] theorem decFld_at_cell (f : Field) (n : Nat) (k : Nat) : (s.decFld f n).cell k = s.cell k := rfl
@[simp] theorem decFld_at_ses (f : Field) (n : Nat) (k : Nat) : (s.decFld f n).ses? k = s.ses? k := rfl
@[simp] theorem decFld_at_frame (f : Field) (n : Nat) (k : Nat) : (s.decFld f n).frame k = s.frame k := rfl
@[simp] theorem decFld_at_bay (f : Field) (n : Nat) (k : Nat) : (s.decFld f n).bay k = s.bay k := rfl
@[simp] theorem decFld_at_slice (f : Field) (n : Nat) (k : Nat) : (s.decFld f n).slice k = s.slice k := rfl
@[simp] theorem decFld_at_part (f : Field) (n : Nat) (k : Nat) : (s.decFld f n).part k = s.part k := rfl
@[simp] theorem decFld_at_bank (f : Field) (n : Nat) (k : Nat) : (s.decFld f n).bank k = s.bank k := rfl
@[simp] theorem decFld_at_port (f : Field) (n : Nat) (k : Nat) : (s.decFld f n).port k = s.port k := rfl
@[simp] theorem decFld_at_qp (f : Field) (n : Nat) (k : Nat) : (s.decFld f n).qp k = s.qp k := rfl
@[simp] theorem decFld_at_responder (f : Field) (n : Nat) (k : Nat) : (s.decFld f n).responder k = s.responder k := rfl
@[simp] theorem decFld_at_island (f : Field) (n : Nat) (k : Nat) : (s.decFld f n).island k = s.island k := rfl

/-! ### draw -/

@[simp] theorem draw_pending : (s.draw.2).pending = s.pending := rfl
@[simp] theorem draw_regs : (s.draw.2).regs = s.regs := rfl
@[simp] theorem draw_clk : (s.draw.2).clk = s.clk := rfl
@[simp] theorem draw_pins : (s.draw.2).pins = s.pins := rfl
@[simp] theorem draw_host : (s.draw.2).host = s.host := rfl
@[simp] theorem draw_ses : (s.draw.2).ses = s.ses := rfl
@[simp] theorem draw_tier : (s.draw.2).tier = s.tier := rfl
@[simp] theorem draw_mkr : (s.draw.2).mkr = s.mkr := rfl
@[simp] theorem draw_gal : (s.draw.2).gal = s.gal := rfl
@[simp] theorem draw_cells : (s.draw.2).cells = s.cells := rfl
@[simp] theorem draw_waiters : (s.draw.2).waiters = s.waiters := rfl
@[simp] theorem draw_hbm : (s.draw.2).hbm = s.hbm := rfl
@[simp] theorem draw_hbmBad : (s.draw.2).hbmBad = s.hbmBad := rfl
@[simp] theorem draw_hbmWeak : (s.draw.2).hbmWeak = s.hbmWeak := rfl
@[simp] theorem draw_tok : (s.draw.2).tok = s.tok := rfl
@[simp] theorem draw_banks : (s.draw.2).banks = s.banks := rfl
@[simp] theorem draw_crt : (s.draw.2).crt = s.crt := rfl
@[simp] theorem draw_vse : (s.draw.2).vse = s.vse := rfl
@[simp] theorem draw_fab : (s.draw.2).fab = s.fab := rfl
@[simp] theorem draw_flt : (s.draw.2).flt = s.flt := rfl
@[simp] theorem draw_sec : (s.draw.2).sec = s.sec := rfl
@[simp] theorem draw_isl : (s.draw.2).isl = s.isl := rfl
@[simp] theorem draw_at_fld (g : Field) : (s.draw.2).fld g = s.fld g := rfl
@[simp] theorem draw_at_reg (p : Nat) : (s.draw.2).reg p = s.reg p := rfl
@[simp] theorem draw_at_flag (g : Field) : (s.draw.2).flag g = s.flag g := rfl
@[simp] theorem draw_at_devAddr : (s.draw.2).devAddr = s.devAddr := rfl
@[simp] theorem draw_at_conf (k : Nat) : (s.draw.2).conf k = s.conf k := rfl
@[simp] theorem draw_at_now : (s.draw.2).now = s.now := rfl
@[simp] theorem draw_at_awake : (s.draw.2).awake = s.awake := rfl
@[simp] theorem draw_at_queue (k r : Nat) : (s.draw.2).queue k r = s.queue k r := rfl
@[simp] theorem draw_at_ctkOf (k : Nat) : (s.draw.2).ctkOf k = s.ctkOf k := rfl
@[simp] theorem draw_at_hostRd (g b y : Nat) : (s.draw.2).hostRd g b y = s.hostRd g b y := rfl
@[simp] theorem draw_at_cell (k : Nat) : (s.draw.2).cell k = s.cell k := rfl
@[simp] theorem draw_at_ses (k : Nat) : (s.draw.2).ses? k = s.ses? k := rfl
@[simp] theorem draw_at_frame (k : Nat) : (s.draw.2).frame k = s.frame k := rfl
@[simp] theorem draw_at_bay (k : Nat) : (s.draw.2).bay k = s.bay k := rfl
@[simp] theorem draw_at_slice (k : Nat) : (s.draw.2).slice k = s.slice k := rfl
@[simp] theorem draw_at_part (k : Nat) : (s.draw.2).part k = s.part k := rfl
@[simp] theorem draw_at_bank (k : Nat) : (s.draw.2).bank k = s.bank k := rfl
@[simp] theorem draw_at_port (k : Nat) : (s.draw.2).port k = s.port k := rfl
@[simp] theorem draw_at_qp (k : Nat) : (s.draw.2).qp k = s.qp k := rfl
@[simp] theorem draw_at_responder (k : Nat) : (s.draw.2).responder k = s.responder k := rfl
@[simp] theorem draw_at_island (k : Nat) : (s.draw.2).island k = s.island k := rfl

/-! ### hostWr -/

@[simp] theorem hostWr_pending (fn a : Nat) (bs : List Byte) : (s.hostWr fn a bs).pending = s.pending := rfl
@[simp] theorem hostWr_regs (fn a : Nat) (bs : List Byte) : (s.hostWr fn a bs).regs = s.regs := rfl
@[simp] theorem hostWr_clk (fn a : Nat) (bs : List Byte) : (s.hostWr fn a bs).clk = s.clk := rfl
@[simp] theorem hostWr_pins (fn a : Nat) (bs : List Byte) : (s.hostWr fn a bs).pins = s.pins := rfl
@[simp] theorem hostWr_ses (fn a : Nat) (bs : List Byte) : (s.hostWr fn a bs).ses = s.ses := rfl
@[simp] theorem hostWr_tier (fn a : Nat) (bs : List Byte) : (s.hostWr fn a bs).tier = s.tier := rfl
@[simp] theorem hostWr_mkr (fn a : Nat) (bs : List Byte) : (s.hostWr fn a bs).mkr = s.mkr := rfl
@[simp] theorem hostWr_gal (fn a : Nat) (bs : List Byte) : (s.hostWr fn a bs).gal = s.gal := rfl
@[simp] theorem hostWr_cells (fn a : Nat) (bs : List Byte) : (s.hostWr fn a bs).cells = s.cells := rfl
@[simp] theorem hostWr_waiters (fn a : Nat) (bs : List Byte) : (s.hostWr fn a bs).waiters = s.waiters := rfl
@[simp] theorem hostWr_hbm (fn a : Nat) (bs : List Byte) : (s.hostWr fn a bs).hbm = s.hbm := rfl
@[simp] theorem hostWr_hbmBad (fn a : Nat) (bs : List Byte) : (s.hostWr fn a bs).hbmBad = s.hbmBad := rfl
@[simp] theorem hostWr_hbmWeak (fn a : Nat) (bs : List Byte) : (s.hostWr fn a bs).hbmWeak = s.hbmWeak := rfl
@[simp] theorem hostWr_tok (fn a : Nat) (bs : List Byte) : (s.hostWr fn a bs).tok = s.tok := rfl
@[simp] theorem hostWr_banks (fn a : Nat) (bs : List Byte) : (s.hostWr fn a bs).banks = s.banks := rfl
@[simp] theorem hostWr_crt (fn a : Nat) (bs : List Byte) : (s.hostWr fn a bs).crt = s.crt := rfl
@[simp] theorem hostWr_vse (fn a : Nat) (bs : List Byte) : (s.hostWr fn a bs).vse = s.vse := rfl
@[simp] theorem hostWr_fab (fn a : Nat) (bs : List Byte) : (s.hostWr fn a bs).fab = s.fab := rfl
@[simp] theorem hostWr_flt (fn a : Nat) (bs : List Byte) : (s.hostWr fn a bs).flt = s.flt := rfl
@[simp] theorem hostWr_sec (fn a : Nat) (bs : List Byte) : (s.hostWr fn a bs).sec = s.sec := rfl
@[simp] theorem hostWr_isl (fn a : Nat) (bs : List Byte) : (s.hostWr fn a bs).isl = s.isl := rfl
@[simp] theorem hostWr_freeCtr (fn a : Nat) (bs : List Byte) : (s.hostWr fn a bs).freeCtr = s.freeCtr := rfl
@[simp] theorem hostWr_at_fld (fn a : Nat) (bs : List Byte) (g : Field) : (s.hostWr fn a bs).fld g = s.fld g := rfl
@[simp] theorem hostWr_at_reg (fn a : Nat) (bs : List Byte) (p : Nat) : (s.hostWr fn a bs).reg p = s.reg p := rfl
@[simp] theorem hostWr_at_flag (fn a : Nat) (bs : List Byte) (g : Field) : (s.hostWr fn a bs).flag g = s.flag g := rfl
@[simp] theorem hostWr_at_devAddr (fn a : Nat) (bs : List Byte) : (s.hostWr fn a bs).devAddr = s.devAddr := rfl
@[simp] theorem hostWr_at_conf (fn a : Nat) (bs : List Byte) (k : Nat) : (s.hostWr fn a bs).conf k = s.conf k := rfl
@[simp] theorem hostWr_at_now (fn a : Nat) (bs : List Byte) : (s.hostWr fn a bs).now = s.now := rfl
@[simp] theorem hostWr_at_awake (fn a : Nat) (bs : List Byte) : (s.hostWr fn a bs).awake = s.awake := rfl
@[simp] theorem hostWr_at_cell (fn a : Nat) (bs : List Byte) (k : Nat) : (s.hostWr fn a bs).cell k = s.cell k := rfl
@[simp] theorem hostWr_at_ses (fn a : Nat) (bs : List Byte) (k : Nat) : (s.hostWr fn a bs).ses? k = s.ses? k := rfl
@[simp] theorem hostWr_at_frame (fn a : Nat) (bs : List Byte) (k : Nat) : (s.hostWr fn a bs).frame k = s.frame k := rfl
@[simp] theorem hostWr_at_bay (fn a : Nat) (bs : List Byte) (k : Nat) : (s.hostWr fn a bs).bay k = s.bay k := rfl
@[simp] theorem hostWr_at_slice (fn a : Nat) (bs : List Byte) (k : Nat) : (s.hostWr fn a bs).slice k = s.slice k := rfl
@[simp] theorem hostWr_at_part (fn a : Nat) (bs : List Byte) (k : Nat) : (s.hostWr fn a bs).part k = s.part k := rfl
@[simp] theorem hostWr_at_bank (fn a : Nat) (bs : List Byte) (k : Nat) : (s.hostWr fn a bs).bank k = s.bank k := rfl
@[simp] theorem hostWr_at_port (fn a : Nat) (bs : List Byte) (k : Nat) : (s.hostWr fn a bs).port k = s.port k := rfl
@[simp] theorem hostWr_at_qp (fn a : Nat) (bs : List Byte) (k : Nat) : (s.hostWr fn a bs).qp k = s.qp k := rfl
@[simp] theorem hostWr_at_responder (fn a : Nat) (bs : List Byte) (k : Nat) : (s.hostWr fn a bs).responder k = s.responder k := rfl
@[simp] theorem hostWr_at_island (fn a : Nat) (bs : List Byte) (k : Nat) : (s.hostWr fn a bs).island k = s.island k := rfl

/-! ### setQueue -/

@[simp] theorem setQueue_pending (c q : Nat) (x : Queue) : (s.setQueue c q x).pending = s.pending := rfl
@[simp] theorem setQueue_regs (c q : Nat) (x : Queue) : (s.setQueue c q x).regs = s.regs := rfl
@[simp] theorem setQueue_clk (c q : Nat) (x : Queue) : (s.setQueue c q x).clk = s.clk := rfl
@[simp] theorem setQueue_pins (c q : Nat) (x : Queue) : (s.setQueue c q x).pins = s.pins := rfl
@[simp] theorem setQueue_ses (c q : Nat) (x : Queue) : (s.setQueue c q x).ses = s.ses := rfl
@[simp] theorem setQueue_tier (c q : Nat) (x : Queue) : (s.setQueue c q x).tier = s.tier := rfl
@[simp] theorem setQueue_mkr (c q : Nat) (x : Queue) : (s.setQueue c q x).mkr = s.mkr := rfl
@[simp] theorem setQueue_gal (c q : Nat) (x : Queue) : (s.setQueue c q x).gal = s.gal := rfl
@[simp] theorem setQueue_cells (c q : Nat) (x : Queue) : (s.setQueue c q x).cells = s.cells := rfl
@[simp] theorem setQueue_waiters (c q : Nat) (x : Queue) : (s.setQueue c q x).waiters = s.waiters := rfl
@[simp] theorem setQueue_hbm (c q : Nat) (x : Queue) : (s.setQueue c q x).hbm = s.hbm := rfl
@[simp] theorem setQueue_hbmBad (c q : Nat) (x : Queue) : (s.setQueue c q x).hbmBad = s.hbmBad := rfl
@[simp] theorem setQueue_hbmWeak (c q : Nat) (x : Queue) : (s.setQueue c q x).hbmWeak = s.hbmWeak := rfl
@[simp] theorem setQueue_tok (c q : Nat) (x : Queue) : (s.setQueue c q x).tok = s.tok := rfl
@[simp] theorem setQueue_banks (c q : Nat) (x : Queue) : (s.setQueue c q x).banks = s.banks := rfl
@[simp] theorem setQueue_crt (c q : Nat) (x : Queue) : (s.setQueue c q x).crt = s.crt := rfl
@[simp] theorem setQueue_vse (c q : Nat) (x : Queue) : (s.setQueue c q x).vse = s.vse := rfl
@[simp] theorem setQueue_fab (c q : Nat) (x : Queue) : (s.setQueue c q x).fab = s.fab := rfl
@[simp] theorem setQueue_flt (c q : Nat) (x : Queue) : (s.setQueue c q x).flt = s.flt := rfl
@[simp] theorem setQueue_sec (c q : Nat) (x : Queue) : (s.setQueue c q x).sec = s.sec := rfl
@[simp] theorem setQueue_isl (c q : Nat) (x : Queue) : (s.setQueue c q x).isl = s.isl := rfl
@[simp] theorem setQueue_freeCtr (c q : Nat) (x : Queue) : (s.setQueue c q x).freeCtr = s.freeCtr := rfl
@[simp] theorem setQueue_at_fld (c q : Nat) (x : Queue) (g : Field) : (s.setQueue c q x).fld g = s.fld g := rfl
@[simp] theorem setQueue_at_reg (c q : Nat) (x : Queue) (p : Nat) : (s.setQueue c q x).reg p = s.reg p := rfl
@[simp] theorem setQueue_at_flag (c q : Nat) (x : Queue) (g : Field) : (s.setQueue c q x).flag g = s.flag g := rfl
@[simp] theorem setQueue_at_devAddr (c q : Nat) (x : Queue) : (s.setQueue c q x).devAddr = s.devAddr := rfl
@[simp] theorem setQueue_at_conf (c q : Nat) (x : Queue) (k : Nat) : (s.setQueue c q x).conf k = s.conf k := rfl
@[simp] theorem setQueue_at_now (c q : Nat) (x : Queue) : (s.setQueue c q x).now = s.now := rfl
@[simp] theorem setQueue_at_awake (c q : Nat) (x : Queue) : (s.setQueue c q x).awake = s.awake := rfl
@[simp] theorem setQueue_at_cell (c q : Nat) (x : Queue) (k : Nat) : (s.setQueue c q x).cell k = s.cell k := rfl
@[simp] theorem setQueue_at_ses (c q : Nat) (x : Queue) (k : Nat) : (s.setQueue c q x).ses? k = s.ses? k := rfl
@[simp] theorem setQueue_at_frame (c q : Nat) (x : Queue) (k : Nat) : (s.setQueue c q x).frame k = s.frame k := rfl
@[simp] theorem setQueue_at_bay (c q : Nat) (x : Queue) (k : Nat) : (s.setQueue c q x).bay k = s.bay k := rfl
@[simp] theorem setQueue_at_slice (c q : Nat) (x : Queue) (k : Nat) : (s.setQueue c q x).slice k = s.slice k := rfl
@[simp] theorem setQueue_at_part (c q : Nat) (x : Queue) (k : Nat) : (s.setQueue c q x).part k = s.part k := rfl
@[simp] theorem setQueue_at_bank (c q : Nat) (x : Queue) (k : Nat) : (s.setQueue c q x).bank k = s.bank k := rfl
@[simp] theorem setQueue_at_port (c q : Nat) (x : Queue) (k : Nat) : (s.setQueue c q x).port k = s.port k := rfl
@[simp] theorem setQueue_at_qp (c q : Nat) (x : Queue) (k : Nat) : (s.setQueue c q x).qp k = s.qp k := rfl
@[simp] theorem setQueue_at_responder (c q : Nat) (x : Queue) (k : Nat) : (s.setQueue c q x).responder k = s.responder k := rfl
@[simp] theorem setQueue_at_island (c q : Nat) (x : Queue) (k : Nat) : (s.setQueue c q x).island k = s.island k := rfl

/-! ### msix -/

@[simp] theorem msix_pending (fn v : Nat) : (msix s fn v).pending = s.pending := rfl
@[simp] theorem msix_regs (fn v : Nat) : (msix s fn v).regs = s.regs := rfl
@[simp] theorem msix_clk (fn v : Nat) : (msix s fn v).clk = s.clk := rfl
@[simp] theorem msix_pins (fn v : Nat) : (msix s fn v).pins = s.pins := rfl
@[simp] theorem msix_ses (fn v : Nat) : (msix s fn v).ses = s.ses := rfl
@[simp] theorem msix_tier (fn v : Nat) : (msix s fn v).tier = s.tier := rfl
@[simp] theorem msix_mkr (fn v : Nat) : (msix s fn v).mkr = s.mkr := rfl
@[simp] theorem msix_gal (fn v : Nat) : (msix s fn v).gal = s.gal := rfl
@[simp] theorem msix_cells (fn v : Nat) : (msix s fn v).cells = s.cells := rfl
@[simp] theorem msix_waiters (fn v : Nat) : (msix s fn v).waiters = s.waiters := rfl
@[simp] theorem msix_hbm (fn v : Nat) : (msix s fn v).hbm = s.hbm := rfl
@[simp] theorem msix_hbmBad (fn v : Nat) : (msix s fn v).hbmBad = s.hbmBad := rfl
@[simp] theorem msix_hbmWeak (fn v : Nat) : (msix s fn v).hbmWeak = s.hbmWeak := rfl
@[simp] theorem msix_tok (fn v : Nat) : (msix s fn v).tok = s.tok := rfl
@[simp] theorem msix_banks (fn v : Nat) : (msix s fn v).banks = s.banks := rfl
@[simp] theorem msix_crt (fn v : Nat) : (msix s fn v).crt = s.crt := rfl
@[simp] theorem msix_vse (fn v : Nat) : (msix s fn v).vse = s.vse := rfl
@[simp] theorem msix_fab (fn v : Nat) : (msix s fn v).fab = s.fab := rfl
@[simp] theorem msix_flt (fn v : Nat) : (msix s fn v).flt = s.flt := rfl
@[simp] theorem msix_sec (fn v : Nat) : (msix s fn v).sec = s.sec := rfl
@[simp] theorem msix_isl (fn v : Nat) : (msix s fn v).isl = s.isl := rfl
@[simp] theorem msix_freeCtr (fn v : Nat) : (msix s fn v).freeCtr = s.freeCtr := rfl
@[simp] theorem msix_at_fld (fn v : Nat) (g : Field) : (msix s fn v).fld g = s.fld g := rfl
@[simp] theorem msix_at_reg (fn v : Nat) (p : Nat) : (msix s fn v).reg p = s.reg p := rfl
@[simp] theorem msix_at_flag (fn v : Nat) (g : Field) : (msix s fn v).flag g = s.flag g := rfl
@[simp] theorem msix_at_devAddr (fn v : Nat) : (msix s fn v).devAddr = s.devAddr := rfl
@[simp] theorem msix_at_conf (fn v : Nat) (k : Nat) : (msix s fn v).conf k = s.conf k := rfl
@[simp] theorem msix_at_now (fn v : Nat) : (msix s fn v).now = s.now := rfl
@[simp] theorem msix_at_awake (fn v : Nat) : (msix s fn v).awake = s.awake := rfl
@[simp] theorem msix_at_cell (fn v : Nat) (k : Nat) : (msix s fn v).cell k = s.cell k := rfl
@[simp] theorem msix_at_ses (fn v : Nat) (k : Nat) : (msix s fn v).ses? k = s.ses? k := rfl
@[simp] theorem msix_at_frame (fn v : Nat) (k : Nat) : (msix s fn v).frame k = s.frame k := rfl
@[simp] theorem msix_at_bay (fn v : Nat) (k : Nat) : (msix s fn v).bay k = s.bay k := rfl
@[simp] theorem msix_at_slice (fn v : Nat) (k : Nat) : (msix s fn v).slice k = s.slice k := rfl
@[simp] theorem msix_at_part (fn v : Nat) (k : Nat) : (msix s fn v).part k = s.part k := rfl
@[simp] theorem msix_at_bank (fn v : Nat) (k : Nat) : (msix s fn v).bank k = s.bank k := rfl
@[simp] theorem msix_at_port (fn v : Nat) (k : Nat) : (msix s fn v).port k = s.port k := rfl
@[simp] theorem msix_at_qp (fn v : Nat) (k : Nat) : (msix s fn v).qp k = s.qp k := rfl
@[simp] theorem msix_at_responder (fn v : Nat) (k : Nat) : (msix s fn v).responder k = s.responder k := rfl
@[simp] theorem msix_at_island (fn v : Nat) (k : Nat) : (msix s fn v).island k = s.island k := rfl

/-! ### setCell -/

@[simp] theorem setCell_pending (n : Nat) (c : Cell) : (s.setCell n c).pending = s.pending := rfl
@[simp] theorem setCell_regs (n : Nat) (c : Cell) : (s.setCell n c).regs = s.regs := rfl
@[simp] theorem setCell_clk (n : Nat) (c : Cell) : (s.setCell n c).clk = s.clk := rfl
@[simp] theorem setCell_pins (n : Nat) (c : Cell) : (s.setCell n c).pins = s.pins := rfl
@[simp] theorem setCell_host (n : Nat) (c : Cell) : (s.setCell n c).host = s.host := rfl
@[simp] theorem setCell_ses (n : Nat) (c : Cell) : (s.setCell n c).ses = s.ses := rfl
@[simp] theorem setCell_tier (n : Nat) (c : Cell) : (s.setCell n c).tier = s.tier := rfl
@[simp] theorem setCell_mkr (n : Nat) (c : Cell) : (s.setCell n c).mkr = s.mkr := rfl
@[simp] theorem setCell_gal (n : Nat) (c : Cell) : (s.setCell n c).gal = s.gal := rfl
@[simp] theorem setCell_waiters (n : Nat) (c : Cell) : (s.setCell n c).waiters = s.waiters := rfl
@[simp] theorem setCell_hbm (n : Nat) (c : Cell) : (s.setCell n c).hbm = s.hbm := rfl
@[simp] theorem setCell_hbmBad (n : Nat) (c : Cell) : (s.setCell n c).hbmBad = s.hbmBad := rfl
@[simp] theorem setCell_hbmWeak (n : Nat) (c : Cell) : (s.setCell n c).hbmWeak = s.hbmWeak := rfl
@[simp] theorem setCell_tok (n : Nat) (c : Cell) : (s.setCell n c).tok = s.tok := rfl
@[simp] theorem setCell_banks (n : Nat) (c : Cell) : (s.setCell n c).banks = s.banks := rfl
@[simp] theorem setCell_crt (n : Nat) (c : Cell) : (s.setCell n c).crt = s.crt := rfl
@[simp] theorem setCell_vse (n : Nat) (c : Cell) : (s.setCell n c).vse = s.vse := rfl
@[simp] theorem setCell_fab (n : Nat) (c : Cell) : (s.setCell n c).fab = s.fab := rfl
@[simp] theorem setCell_flt (n : Nat) (c : Cell) : (s.setCell n c).flt = s.flt := rfl
@[simp] theorem setCell_sec (n : Nat) (c : Cell) : (s.setCell n c).sec = s.sec := rfl
@[simp] theorem setCell_isl (n : Nat) (c : Cell) : (s.setCell n c).isl = s.isl := rfl
@[simp] theorem setCell_freeCtr (n : Nat) (c : Cell) : (s.setCell n c).freeCtr = s.freeCtr := rfl
@[simp] theorem setCell_at_fld (n : Nat) (c : Cell) (g : Field) : (s.setCell n c).fld g = s.fld g := rfl
@[simp] theorem setCell_at_reg (n : Nat) (c : Cell) (p : Nat) : (s.setCell n c).reg p = s.reg p := rfl
@[simp] theorem setCell_at_flag (n : Nat) (c : Cell) (g : Field) : (s.setCell n c).flag g = s.flag g := rfl
@[simp] theorem setCell_at_devAddr (n : Nat) (c : Cell) : (s.setCell n c).devAddr = s.devAddr := rfl
@[simp] theorem setCell_at_conf (n : Nat) (c : Cell) (k : Nat) : (s.setCell n c).conf k = s.conf k := rfl
@[simp] theorem setCell_at_now (n : Nat) (c : Cell) : (s.setCell n c).now = s.now := rfl
@[simp] theorem setCell_at_awake (n : Nat) (c : Cell) : (s.setCell n c).awake = s.awake := rfl
@[simp] theorem setCell_at_queue (n : Nat) (c : Cell) (k r : Nat) : (s.setCell n c).queue k r = s.queue k r := rfl
@[simp] theorem setCell_at_ctkOf (n : Nat) (c : Cell) (k : Nat) : (s.setCell n c).ctkOf k = s.ctkOf k := rfl
@[simp] theorem setCell_at_hostRd (n : Nat) (c : Cell) (g b y : Nat) : (s.setCell n c).hostRd g b y = s.hostRd g b y := rfl
@[simp] theorem setCell_at_ses (n : Nat) (c : Cell) (k : Nat) : (s.setCell n c).ses? k = s.ses? k := rfl
@[simp] theorem setCell_at_frame (n : Nat) (c : Cell) (k : Nat) : (s.setCell n c).frame k = s.frame k := rfl
@[simp] theorem setCell_at_bay (n : Nat) (c : Cell) (k : Nat) : (s.setCell n c).bay k = s.bay k := rfl
@[simp] theorem setCell_at_slice (n : Nat) (c : Cell) (k : Nat) : (s.setCell n c).slice k = s.slice k := rfl
@[simp] theorem setCell_at_part (n : Nat) (c : Cell) (k : Nat) : (s.setCell n c).part k = s.part k := rfl
@[simp] theorem setCell_at_bank (n : Nat) (c : Cell) (k : Nat) : (s.setCell n c).bank k = s.bank k := rfl
@[simp] theorem setCell_at_port (n : Nat) (c : Cell) (k : Nat) : (s.setCell n c).port k = s.port k := rfl
@[simp] theorem setCell_at_qp (n : Nat) (c : Cell) (k : Nat) : (s.setCell n c).qp k = s.qp k := rfl
@[simp] theorem setCell_at_responder (n : Nat) (c : Cell) (k : Nat) : (s.setCell n c).responder k = s.responder k := rfl
@[simp] theorem setCell_at_island (n : Nat) (c : Cell) (k : Nat) : (s.setCell n c).island k = s.island k := rfl

/-! ### setCellDesc -/

@[simp] theorem setCellDesc_pending (n k : Nat) (d : Desc) : (s.setCellDesc n k d).pending = s.pending := rfl
@[simp] theorem setCellDesc_regs (n k : Nat) (d : Desc) : (s.setCellDesc n k d).regs = s.regs := rfl
@[simp] theorem setCellDesc_clk (n k : Nat) (d : Desc) : (s.setCellDesc n k d).clk = s.clk := rfl
@[simp] theorem setCellDesc_pins (n k : Nat) (d : Desc) : (s.setCellDesc n k d).pins = s.pins := rfl
@[simp] theorem setCellDesc_host (n k : Nat) (d : Desc) : (s.setCellDesc n k d).host = s.host := rfl
@[simp] theorem setCellDesc_ses (n k : Nat) (d : Desc) : (s.setCellDesc n k d).ses = s.ses := rfl
@[simp] theorem setCellDesc_tier (n k : Nat) (d : Desc) : (s.setCellDesc n k d).tier = s.tier := rfl
@[simp] theorem setCellDesc_mkr (n k : Nat) (d : Desc) : (s.setCellDesc n k d).mkr = s.mkr := rfl
@[simp] theorem setCellDesc_gal (n k : Nat) (d : Desc) : (s.setCellDesc n k d).gal = s.gal := rfl
@[simp] theorem setCellDesc_waiters (n k : Nat) (d : Desc) : (s.setCellDesc n k d).waiters = s.waiters := rfl
@[simp] theorem setCellDesc_hbm (n k : Nat) (d : Desc) : (s.setCellDesc n k d).hbm = s.hbm := rfl
@[simp] theorem setCellDesc_hbmBad (n k : Nat) (d : Desc) : (s.setCellDesc n k d).hbmBad = s.hbmBad := rfl
@[simp] theorem setCellDesc_hbmWeak (n k : Nat) (d : Desc) : (s.setCellDesc n k d).hbmWeak = s.hbmWeak := rfl
@[simp] theorem setCellDesc_tok (n k : Nat) (d : Desc) : (s.setCellDesc n k d).tok = s.tok := rfl
@[simp] theorem setCellDesc_banks (n k : Nat) (d : Desc) : (s.setCellDesc n k d).banks = s.banks := rfl
@[simp] theorem setCellDesc_crt (n k : Nat) (d : Desc) : (s.setCellDesc n k d).crt = s.crt := rfl
@[simp] theorem setCellDesc_vse (n k : Nat) (d : Desc) : (s.setCellDesc n k d).vse = s.vse := rfl
@[simp] theorem setCellDesc_fab (n k : Nat) (d : Desc) : (s.setCellDesc n k d).fab = s.fab := rfl
@[simp] theorem setCellDesc_flt (n k : Nat) (d : Desc) : (s.setCellDesc n k d).flt = s.flt := rfl
@[simp] theorem setCellDesc_sec (n k : Nat) (d : Desc) : (s.setCellDesc n k d).sec = s.sec := rfl
@[simp] theorem setCellDesc_isl (n k : Nat) (d : Desc) : (s.setCellDesc n k d).isl = s.isl := rfl
@[simp] theorem setCellDesc_freeCtr (n k : Nat) (d : Desc) : (s.setCellDesc n k d).freeCtr = s.freeCtr := rfl
@[simp] theorem setCellDesc_at_fld (n k : Nat) (d : Desc) (g : Field) : (s.setCellDesc n k d).fld g = s.fld g := rfl
@[simp] theorem setCellDesc_at_reg (n k : Nat) (d : Desc) (p : Nat) : (s.setCellDesc n k d).reg p = s.reg p := rfl
@[simp] theorem setCellDesc_at_flag (n k : Nat) (d : Desc) (g : Field) : (s.setCellDesc n k d).flag g = s.flag g := rfl
@[simp] theorem setCellDesc_at_devAddr (n k : Nat) (d : Desc) : (s.setCellDesc n k d).devAddr = s.devAddr := rfl
@[simp] theorem setCellDesc_at_conf (n k : Nat) (d : Desc) (k : Nat) : (s.setCellDesc n k d).conf k = s.conf k := rfl
@[simp] theorem setCellDesc_at_now (n k : Nat) (d : Desc) : (s.setCellDesc n k d).now = s.now := rfl
@[simp] theorem setCellDesc_at_awake (n k : Nat) (d : Desc) : (s.setCellDesc n k d).awake = s.awake := rfl
@[simp] theorem setCellDesc_at_queue (n k : Nat) (d : Desc) (k r : Nat) : (s.setCellDesc n k d).queue k r = s.queue k r := rfl
@[simp] theorem setCellDesc_at_ctkOf (n k : Nat) (d : Desc) (k : Nat) : (s.setCellDesc n k d).ctkOf k = s.ctkOf k := rfl
@[simp] theorem setCellDesc_at_hostRd (n k : Nat) (d : Desc) (g b y : Nat) : (s.setCellDesc n k d).hostRd g b y = s.hostRd g b y := rfl
@[simp] theorem setCellDesc_at_ses (n k : Nat) (d : Desc) (k : Nat) : (s.setCellDesc n k d).ses? k = s.ses? k := rfl
@[simp] theorem setCellDesc_at_frame (n k : Nat) (d : Desc) (k : Nat) : (s.setCellDesc n k d).frame k = s.frame k := rfl
@[simp] theorem setCellDesc_at_bay (n k : Nat) (d : Desc) (k : Nat) : (s.setCellDesc n k d).bay k = s.bay k := rfl
@[simp] theorem setCellDesc_at_slice (n k : Nat) (d : Desc) (k : Nat) : (s.setCellDesc n k d).slice k = s.slice k := rfl
@[simp] theorem setCellDesc_at_part (n k : Nat) (d : Desc) (k : Nat) : (s.setCellDesc n k d).part k = s.part k := rfl
@[simp] theorem setCellDesc_at_bank (n k : Nat) (d : Desc) (k : Nat) : (s.setCellDesc n k d).bank k = s.bank k := rfl
@[simp] theorem setCellDesc_at_port (n k : Nat) (d : Desc) (k : Nat) : (s.setCellDesc n k d).port k = s.port k := rfl
@[simp] theorem setCellDesc_at_qp (n k : Nat) (d : Desc) (k : Nat) : (s.setCellDesc n k d).qp k = s.qp k := rfl
@[simp] theorem setCellDesc_at_responder (n k : Nat) (d : Desc) (k : Nat) : (s.setCellDesc n k d).responder k = s.responder k := rfl
@[simp] theorem setCellDesc_at_island (n k : Nat) (d : Desc) (k : Nat) : (s.setCellDesc n k d).island k = s.island k := rfl

/-! ### setBay -/

@[simp] theorem setBay_pending (b : Nat) (x : Bay) : (s.setBay b x).pending = s.pending := rfl
@[simp] theorem setBay_regs (b : Nat) (x : Bay) : (s.setBay b x).regs = s.regs := rfl
@[simp] theorem setBay_clk (b : Nat) (x : Bay) : (s.setBay b x).clk = s.clk := rfl
@[simp] theorem setBay_pins (b : Nat) (x : Bay) : (s.setBay b x).pins = s.pins := rfl
@[simp] theorem setBay_host (b : Nat) (x : Bay) : (s.setBay b x).host = s.host := rfl
@[simp] theorem setBay_ses (b : Nat) (x : Bay) : (s.setBay b x).ses = s.ses := rfl
@[simp] theorem setBay_tier (b : Nat) (x : Bay) : (s.setBay b x).tier = s.tier := rfl
@[simp] theorem setBay_mkr (b : Nat) (x : Bay) : (s.setBay b x).mkr = s.mkr := rfl
@[simp] theorem setBay_gal (b : Nat) (x : Bay) : (s.setBay b x).gal = s.gal := rfl
@[simp] theorem setBay_cells (b : Nat) (x : Bay) : (s.setBay b x).cells = s.cells := rfl
@[simp] theorem setBay_waiters (b : Nat) (x : Bay) : (s.setBay b x).waiters = s.waiters := rfl
@[simp] theorem setBay_hbm (b : Nat) (x : Bay) : (s.setBay b x).hbm = s.hbm := rfl
@[simp] theorem setBay_hbmBad (b : Nat) (x : Bay) : (s.setBay b x).hbmBad = s.hbmBad := rfl
@[simp] theorem setBay_hbmWeak (b : Nat) (x : Bay) : (s.setBay b x).hbmWeak = s.hbmWeak := rfl
@[simp] theorem setBay_tok (b : Nat) (x : Bay) : (s.setBay b x).tok = s.tok := rfl
@[simp] theorem setBay_banks (b : Nat) (x : Bay) : (s.setBay b x).banks = s.banks := rfl
@[simp] theorem setBay_vse (b : Nat) (x : Bay) : (s.setBay b x).vse = s.vse := rfl
@[simp] theorem setBay_fab (b : Nat) (x : Bay) : (s.setBay b x).fab = s.fab := rfl
@[simp] theorem setBay_flt (b : Nat) (x : Bay) : (s.setBay b x).flt = s.flt := rfl
@[simp] theorem setBay_sec (b : Nat) (x : Bay) : (s.setBay b x).sec = s.sec := rfl
@[simp] theorem setBay_isl (b : Nat) (x : Bay) : (s.setBay b x).isl = s.isl := rfl
@[simp] theorem setBay_freeCtr (b : Nat) (x : Bay) : (s.setBay b x).freeCtr = s.freeCtr := rfl
@[simp] theorem setBay_at_fld (b : Nat) (x : Bay) (g : Field) : (s.setBay b x).fld g = s.fld g := rfl
@[simp] theorem setBay_at_reg (b : Nat) (x : Bay) (p : Nat) : (s.setBay b x).reg p = s.reg p := rfl
@[simp] theorem setBay_at_flag (b : Nat) (x : Bay) (g : Field) : (s.setBay b x).flag g = s.flag g := rfl
@[simp] theorem setBay_at_devAddr (b : Nat) (x : Bay) : (s.setBay b x).devAddr = s.devAddr := rfl
@[simp] theorem setBay_at_conf (b : Nat) (x : Bay) (k : Nat) : (s.setBay b x).conf k = s.conf k := rfl
@[simp] theorem setBay_at_now (b : Nat) (x : Bay) : (s.setBay b x).now = s.now := rfl
@[simp] theorem setBay_at_awake (b : Nat) (x : Bay) : (s.setBay b x).awake = s.awake := rfl
@[simp] theorem setBay_at_queue (b : Nat) (x : Bay) (k r : Nat) : (s.setBay b x).queue k r = s.queue k r := rfl
@[simp] theorem setBay_at_ctkOf (b : Nat) (x : Bay) (k : Nat) : (s.setBay b x).ctkOf k = s.ctkOf k := rfl
@[simp] theorem setBay_at_hostRd (b : Nat) (x : Bay) (g b y : Nat) : (s.setBay b x).hostRd g b y = s.hostRd g b y := rfl
@[simp] theorem setBay_at_cell (b : Nat) (x : Bay) (k : Nat) : (s.setBay b x).cell k = s.cell k := rfl
@[simp] theorem setBay_at_ses (b : Nat) (x : Bay) (k : Nat) : (s.setBay b x).ses? k = s.ses? k := rfl
@[simp] theorem setBay_at_frame (b : Nat) (x : Bay) (k : Nat) : (s.setBay b x).frame k = s.frame k := rfl
@[simp] theorem setBay_at_slice (b : Nat) (x : Bay) (k : Nat) : (s.setBay b x).slice k = s.slice k := rfl
@[simp] theorem setBay_at_part (b : Nat) (x : Bay) (k : Nat) : (s.setBay b x).part k = s.part k := rfl
@[simp] theorem setBay_at_bank (b : Nat) (x : Bay) (k : Nat) : (s.setBay b x).bank k = s.bank k := rfl
@[simp] theorem setBay_at_port (b : Nat) (x : Bay) (k : Nat) : (s.setBay b x).port k = s.port k := rfl
@[simp] theorem setBay_at_qp (b : Nat) (x : Bay) (k : Nat) : (s.setBay b x).qp k = s.qp k := rfl
@[simp] theorem setBay_at_responder (b : Nat) (x : Bay) (k : Nat) : (s.setBay b x).responder k = s.responder k := rfl
@[simp] theorem setBay_at_island (b : Nat) (x : Bay) (k : Nat) : (s.setBay b x).island k = s.island k := rfl

/-! ### setSes -/

@[simp] theorem setSes_pending (i : Nat) (e : Session) : (s.setSes i e).pending = s.pending := rfl
@[simp] theorem setSes_regs (i : Nat) (e : Session) : (s.setSes i e).regs = s.regs := rfl
@[simp] theorem setSes_clk (i : Nat) (e : Session) : (s.setSes i e).clk = s.clk := rfl
@[simp] theorem setSes_pins (i : Nat) (e : Session) : (s.setSes i e).pins = s.pins := rfl
@[simp] theorem setSes_host (i : Nat) (e : Session) : (s.setSes i e).host = s.host := rfl
@[simp] theorem setSes_tier (i : Nat) (e : Session) : (s.setSes i e).tier = s.tier := rfl
@[simp] theorem setSes_mkr (i : Nat) (e : Session) : (s.setSes i e).mkr = s.mkr := rfl
@[simp] theorem setSes_gal (i : Nat) (e : Session) : (s.setSes i e).gal = s.gal := rfl
@[simp] theorem setSes_cells (i : Nat) (e : Session) : (s.setSes i e).cells = s.cells := rfl
@[simp] theorem setSes_waiters (i : Nat) (e : Session) : (s.setSes i e).waiters = s.waiters := rfl
@[simp] theorem setSes_hbm (i : Nat) (e : Session) : (s.setSes i e).hbm = s.hbm := rfl
@[simp] theorem setSes_hbmBad (i : Nat) (e : Session) : (s.setSes i e).hbmBad = s.hbmBad := rfl
@[simp] theorem setSes_hbmWeak (i : Nat) (e : Session) : (s.setSes i e).hbmWeak = s.hbmWeak := rfl
@[simp] theorem setSes_tok (i : Nat) (e : Session) : (s.setSes i e).tok = s.tok := rfl
@[simp] theorem setSes_banks (i : Nat) (e : Session) : (s.setSes i e).banks = s.banks := rfl
@[simp] theorem setSes_crt (i : Nat) (e : Session) : (s.setSes i e).crt = s.crt := rfl
@[simp] theorem setSes_vse (i : Nat) (e : Session) : (s.setSes i e).vse = s.vse := rfl
@[simp] theorem setSes_fab (i : Nat) (e : Session) : (s.setSes i e).fab = s.fab := rfl
@[simp] theorem setSes_flt (i : Nat) (e : Session) : (s.setSes i e).flt = s.flt := rfl
@[simp] theorem setSes_sec (i : Nat) (e : Session) : (s.setSes i e).sec = s.sec := rfl
@[simp] theorem setSes_isl (i : Nat) (e : Session) : (s.setSes i e).isl = s.isl := rfl
@[simp] theorem setSes_freeCtr (i : Nat) (e : Session) : (s.setSes i e).freeCtr = s.freeCtr := rfl
@[simp] theorem setSes_at_fld (i : Nat) (e : Session) (g : Field) : (s.setSes i e).fld g = s.fld g := rfl
@[simp] theorem setSes_at_reg (i : Nat) (e : Session) (p : Nat) : (s.setSes i e).reg p = s.reg p := rfl
@[simp] theorem setSes_at_flag (i : Nat) (e : Session) (g : Field) : (s.setSes i e).flag g = s.flag g := rfl
@[simp] theorem setSes_at_devAddr (i : Nat) (e : Session) : (s.setSes i e).devAddr = s.devAddr := rfl
@[simp] theorem setSes_at_conf (i : Nat) (e : Session) (k : Nat) : (s.setSes i e).conf k = s.conf k := rfl
@[simp] theorem setSes_at_now (i : Nat) (e : Session) : (s.setSes i e).now = s.now := rfl
@[simp] theorem setSes_at_awake (i : Nat) (e : Session) : (s.setSes i e).awake = s.awake := rfl
@[simp] theorem setSes_at_queue (i : Nat) (e : Session) (k r : Nat) : (s.setSes i e).queue k r = s.queue k r := rfl
@[simp] theorem setSes_at_ctkOf (i : Nat) (e : Session) (k : Nat) : (s.setSes i e).ctkOf k = s.ctkOf k := rfl
@[simp] theorem setSes_at_hostRd (i : Nat) (e : Session) (g b y : Nat) : (s.setSes i e).hostRd g b y = s.hostRd g b y := rfl
@[simp] theorem setSes_at_cell (i : Nat) (e : Session) (k : Nat) : (s.setSes i e).cell k = s.cell k := rfl
@[simp] theorem setSes_at_bay (i : Nat) (e : Session) (k : Nat) : (s.setSes i e).bay k = s.bay k := rfl
@[simp] theorem setSes_at_slice (i : Nat) (e : Session) (k : Nat) : (s.setSes i e).slice k = s.slice k := rfl
@[simp] theorem setSes_at_part (i : Nat) (e : Session) (k : Nat) : (s.setSes i e).part k = s.part k := rfl
@[simp] theorem setSes_at_bank (i : Nat) (e : Session) (k : Nat) : (s.setSes i e).bank k = s.bank k := rfl
@[simp] theorem setSes_at_port (i : Nat) (e : Session) (k : Nat) : (s.setSes i e).port k = s.port k := rfl
@[simp] theorem setSes_at_qp (i : Nat) (e : Session) (k : Nat) : (s.setSes i e).qp k = s.qp k := rfl
@[simp] theorem setSes_at_responder (i : Nat) (e : Session) (k : Nat) : (s.setSes i e).responder k = s.responder k := rfl
@[simp] theorem setSes_at_island (i : Nat) (e : Session) (k : Nat) : (s.setSes i e).island k = s.island k := rfl

/-! ### setLive -/

@[simp] theorem setLive_pending (id : Nat) (l : Live) : (setLive s id l).pending = s.pending := rfl
@[simp] theorem setLive_regs (id : Nat) (l : Live) : (setLive s id l).regs = s.regs := rfl
@[simp] theorem setLive_clk (id : Nat) (l : Live) : (setLive s id l).clk = s.clk := rfl
@[simp] theorem setLive_pins (id : Nat) (l : Live) : (setLive s id l).pins = s.pins := rfl
@[simp] theorem setLive_host (id : Nat) (l : Live) : (setLive s id l).host = s.host := rfl
@[simp] theorem setLive_ses (id : Nat) (l : Live) : (setLive s id l).ses = s.ses := rfl
@[simp] theorem setLive_tier (id : Nat) (l : Live) : (setLive s id l).tier = s.tier := rfl
@[simp] theorem setLive_gal (id : Nat) (l : Live) : (setLive s id l).gal = s.gal := rfl
@[simp] theorem setLive_cells (id : Nat) (l : Live) : (setLive s id l).cells = s.cells := rfl
@[simp] theorem setLive_waiters (id : Nat) (l : Live) : (setLive s id l).waiters = s.waiters := rfl
@[simp] theorem setLive_hbm (id : Nat) (l : Live) : (setLive s id l).hbm = s.hbm := rfl
@[simp] theorem setLive_hbmBad (id : Nat) (l : Live) : (setLive s id l).hbmBad = s.hbmBad := rfl
@[simp] theorem setLive_hbmWeak (id : Nat) (l : Live) : (setLive s id l).hbmWeak = s.hbmWeak := rfl
@[simp] theorem setLive_tok (id : Nat) (l : Live) : (setLive s id l).tok = s.tok := rfl
@[simp] theorem setLive_banks (id : Nat) (l : Live) : (setLive s id l).banks = s.banks := rfl
@[simp] theorem setLive_crt (id : Nat) (l : Live) : (setLive s id l).crt = s.crt := rfl
@[simp] theorem setLive_vse (id : Nat) (l : Live) : (setLive s id l).vse = s.vse := rfl
@[simp] theorem setLive_fab (id : Nat) (l : Live) : (setLive s id l).fab = s.fab := rfl
@[simp] theorem setLive_flt (id : Nat) (l : Live) : (setLive s id l).flt = s.flt := rfl
@[simp] theorem setLive_sec (id : Nat) (l : Live) : (setLive s id l).sec = s.sec := rfl
@[simp] theorem setLive_isl (id : Nat) (l : Live) : (setLive s id l).isl = s.isl := rfl
@[simp] theorem setLive_freeCtr (id : Nat) (l : Live) : (setLive s id l).freeCtr = s.freeCtr := rfl
@[simp] theorem setLive_at_fld (id : Nat) (l : Live) (g : Field) : (setLive s id l).fld g = s.fld g := rfl
@[simp] theorem setLive_at_reg (id : Nat) (l : Live) (p : Nat) : (setLive s id l).reg p = s.reg p := rfl
@[simp] theorem setLive_at_flag (id : Nat) (l : Live) (g : Field) : (setLive s id l).flag g = s.flag g := rfl
@[simp] theorem setLive_at_devAddr (id : Nat) (l : Live) : (setLive s id l).devAddr = s.devAddr := rfl
@[simp] theorem setLive_at_conf (id : Nat) (l : Live) (k : Nat) : (setLive s id l).conf k = s.conf k := rfl
@[simp] theorem setLive_at_now (id : Nat) (l : Live) : (setLive s id l).now = s.now := rfl
@[simp] theorem setLive_at_awake (id : Nat) (l : Live) : (setLive s id l).awake = s.awake := rfl
@[simp] theorem setLive_at_queue (id : Nat) (l : Live) (k r : Nat) : (setLive s id l).queue k r = s.queue k r := rfl
@[simp] theorem setLive_at_ctkOf (id : Nat) (l : Live) (k : Nat) : (setLive s id l).ctkOf k = s.ctkOf k := rfl
@[simp] theorem setLive_at_hostRd (id : Nat) (l : Live) (g b y : Nat) : (setLive s id l).hostRd g b y = s.hostRd g b y := rfl
@[simp] theorem setLive_at_cell (id : Nat) (l : Live) (k : Nat) : (setLive s id l).cell k = s.cell k := rfl
@[simp] theorem setLive_at_ses (id : Nat) (l : Live) (k : Nat) : (setLive s id l).ses? k = s.ses? k := rfl
@[simp] theorem setLive_at_frame (id : Nat) (l : Live) (k : Nat) : (setLive s id l).frame k = s.frame k := rfl
@[simp] theorem setLive_at_bay (id : Nat) (l : Live) (k : Nat) : (setLive s id l).bay k = s.bay k := rfl
@[simp] theorem setLive_at_slice (id : Nat) (l : Live) (k : Nat) : (setLive s id l).slice k = s.slice k := rfl
@[simp] theorem setLive_at_part (id : Nat) (l : Live) (k : Nat) : (setLive s id l).part k = s.part k := rfl
@[simp] theorem setLive_at_bank (id : Nat) (l : Live) (k : Nat) : (setLive s id l).bank k = s.bank k := rfl
@[simp] theorem setLive_at_port (id : Nat) (l : Live) (k : Nat) : (setLive s id l).port k = s.port k := rfl
@[simp] theorem setLive_at_qp (id : Nat) (l : Live) (k : Nat) : (setLive s id l).qp k = s.qp k := rfl
@[simp] theorem setLive_at_responder (id : Nat) (l : Live) (k : Nat) : (setLive s id l).responder k = s.responder k := rfl
@[simp] theorem setLive_at_island (id : Nat) (l : Live) (k : Nat) : (setLive s id l).island k = s.island k := rfl

/-! ### setSlice -/

@[simp] theorem setSlice_pending (n : Nat) (x : Slice) : (s.setSlice n x).pending = s.pending := rfl
@[simp] theorem setSlice_regs (n : Nat) (x : Slice) : (s.setSlice n x).regs = s.regs := rfl
@[simp] theorem setSlice_clk (n : Nat) (x : Slice) : (s.setSlice n x).clk = s.clk := rfl
@[simp] theorem setSlice_pins (n : Nat) (x : Slice) : (s.setSlice n x).pins = s.pins := rfl
@[simp] theorem setSlice_host (n : Nat) (x : Slice) : (s.setSlice n x).host = s.host := rfl
@[simp] theorem setSlice_ses (n : Nat) (x : Slice) : (s.setSlice n x).ses = s.ses := rfl
@[simp] theorem setSlice_tier (n : Nat) (x : Slice) : (s.setSlice n x).tier = s.tier := rfl
@[simp] theorem setSlice_mkr (n : Nat) (x : Slice) : (s.setSlice n x).mkr = s.mkr := rfl
@[simp] theorem setSlice_cells (n : Nat) (x : Slice) : (s.setSlice n x).cells = s.cells := rfl
@[simp] theorem setSlice_waiters (n : Nat) (x : Slice) : (s.setSlice n x).waiters = s.waiters := rfl
@[simp] theorem setSlice_hbm (n : Nat) (x : Slice) : (s.setSlice n x).hbm = s.hbm := rfl
@[simp] theorem setSlice_hbmBad (n : Nat) (x : Slice) : (s.setSlice n x).hbmBad = s.hbmBad := rfl
@[simp] theorem setSlice_hbmWeak (n : Nat) (x : Slice) : (s.setSlice n x).hbmWeak = s.hbmWeak := rfl
@[simp] theorem setSlice_tok (n : Nat) (x : Slice) : (s.setSlice n x).tok = s.tok := rfl
@[simp] theorem setSlice_banks (n : Nat) (x : Slice) : (s.setSlice n x).banks = s.banks := rfl
@[simp] theorem setSlice_crt (n : Nat) (x : Slice) : (s.setSlice n x).crt = s.crt := rfl
@[simp] theorem setSlice_vse (n : Nat) (x : Slice) : (s.setSlice n x).vse = s.vse := rfl
@[simp] theorem setSlice_fab (n : Nat) (x : Slice) : (s.setSlice n x).fab = s.fab := rfl
@[simp] theorem setSlice_flt (n : Nat) (x : Slice) : (s.setSlice n x).flt = s.flt := rfl
@[simp] theorem setSlice_sec (n : Nat) (x : Slice) : (s.setSlice n x).sec = s.sec := rfl
@[simp] theorem setSlice_isl (n : Nat) (x : Slice) : (s.setSlice n x).isl = s.isl := rfl
@[simp] theorem setSlice_freeCtr (n : Nat) (x : Slice) : (s.setSlice n x).freeCtr = s.freeCtr := rfl
@[simp] theorem setSlice_at_fld (n : Nat) (x : Slice) (g : Field) : (s.setSlice n x).fld g = s.fld g := rfl
@[simp] theorem setSlice_at_reg (n : Nat) (x : Slice) (p : Nat) : (s.setSlice n x).reg p = s.reg p := rfl
@[simp] theorem setSlice_at_flag (n : Nat) (x : Slice) (g : Field) : (s.setSlice n x).flag g = s.flag g := rfl
@[simp] theorem setSlice_at_devAddr (n : Nat) (x : Slice) : (s.setSlice n x).devAddr = s.devAddr := rfl
@[simp] theorem setSlice_at_conf (n : Nat) (x : Slice) (k : Nat) : (s.setSlice n x).conf k = s.conf k := rfl
@[simp] theorem setSlice_at_now (n : Nat) (x : Slice) : (s.setSlice n x).now = s.now := rfl
@[simp] theorem setSlice_at_awake (n : Nat) (x : Slice) : (s.setSlice n x).awake = s.awake := rfl
@[simp] theorem setSlice_at_queue (n : Nat) (x : Slice) (k r : Nat) : (s.setSlice n x).queue k r = s.queue k r := rfl
@[simp] theorem setSlice_at_ctkOf (n : Nat) (x : Slice) (k : Nat) : (s.setSlice n x).ctkOf k = s.ctkOf k := rfl
@[simp] theorem setSlice_at_hostRd (n : Nat) (x : Slice) (g b y : Nat) : (s.setSlice n x).hostRd g b y = s.hostRd g b y := rfl
@[simp] theorem setSlice_at_cell (n : Nat) (x : Slice) (k : Nat) : (s.setSlice n x).cell k = s.cell k := rfl
@[simp] theorem setSlice_at_ses (n : Nat) (x : Slice) (k : Nat) : (s.setSlice n x).ses? k = s.ses? k := rfl
@[simp] theorem setSlice_at_frame (n : Nat) (x : Slice) (k : Nat) : (s.setSlice n x).frame k = s.frame k := rfl
@[simp] theorem setSlice_at_bay (n : Nat) (x : Slice) (k : Nat) : (s.setSlice n x).bay k = s.bay k := rfl
@[simp] theorem setSlice_at_bank (n : Nat) (x : Slice) (k : Nat) : (s.setSlice n x).bank k = s.bank k := rfl
@[simp] theorem setSlice_at_port (n : Nat) (x : Slice) (k : Nat) : (s.setSlice n x).port k = s.port k := rfl
@[simp] theorem setSlice_at_qp (n : Nat) (x : Slice) (k : Nat) : (s.setSlice n x).qp k = s.qp k := rfl
@[simp] theorem setSlice_at_responder (n : Nat) (x : Slice) (k : Nat) : (s.setSlice n x).responder k = s.responder k := rfl
@[simp] theorem setSlice_at_island (n : Nat) (x : Slice) (k : Nat) : (s.setSlice n x).island k = s.island k := rfl

/-! ### setPart -/

@[simp] theorem setPart_pending (n : Nat) (x : Part) : (s.setPart n x).pending = s.pending := rfl
@[simp] theorem setPart_regs (n : Nat) (x : Part) : (s.setPart n x).regs = s.regs := rfl
@[simp] theorem setPart_clk (n : Nat) (x : Part) : (s.setPart n x).clk = s.clk := rfl
@[simp] theorem setPart_pins (n : Nat) (x : Part) : (s.setPart n x).pins = s.pins := rfl
@[simp] theorem setPart_host (n : Nat) (x : Part) : (s.setPart n x).host = s.host := rfl
@[simp] theorem setPart_ses (n : Nat) (x : Part) : (s.setPart n x).ses = s.ses := rfl
@[simp] theorem setPart_tier (n : Nat) (x : Part) : (s.setPart n x).tier = s.tier := rfl
@[simp] theorem setPart_mkr (n : Nat) (x : Part) : (s.setPart n x).mkr = s.mkr := rfl
@[simp] theorem setPart_cells (n : Nat) (x : Part) : (s.setPart n x).cells = s.cells := rfl
@[simp] theorem setPart_waiters (n : Nat) (x : Part) : (s.setPart n x).waiters = s.waiters := rfl
@[simp] theorem setPart_hbm (n : Nat) (x : Part) : (s.setPart n x).hbm = s.hbm := rfl
@[simp] theorem setPart_hbmBad (n : Nat) (x : Part) : (s.setPart n x).hbmBad = s.hbmBad := rfl
@[simp] theorem setPart_hbmWeak (n : Nat) (x : Part) : (s.setPart n x).hbmWeak = s.hbmWeak := rfl
@[simp] theorem setPart_tok (n : Nat) (x : Part) : (s.setPart n x).tok = s.tok := rfl
@[simp] theorem setPart_banks (n : Nat) (x : Part) : (s.setPart n x).banks = s.banks := rfl
@[simp] theorem setPart_crt (n : Nat) (x : Part) : (s.setPart n x).crt = s.crt := rfl
@[simp] theorem setPart_vse (n : Nat) (x : Part) : (s.setPart n x).vse = s.vse := rfl
@[simp] theorem setPart_fab (n : Nat) (x : Part) : (s.setPart n x).fab = s.fab := rfl
@[simp] theorem setPart_flt (n : Nat) (x : Part) : (s.setPart n x).flt = s.flt := rfl
@[simp] theorem setPart_sec (n : Nat) (x : Part) : (s.setPart n x).sec = s.sec := rfl
@[simp] theorem setPart_isl (n : Nat) (x : Part) : (s.setPart n x).isl = s.isl := rfl
@[simp] theorem setPart_freeCtr (n : Nat) (x : Part) : (s.setPart n x).freeCtr = s.freeCtr := rfl
@[simp] theorem setPart_at_fld (n : Nat) (x : Part) (g : Field) : (s.setPart n x).fld g = s.fld g := rfl
@[simp] theorem setPart_at_reg (n : Nat) (x : Part) (p : Nat) : (s.setPart n x).reg p = s.reg p := rfl
@[simp] theorem setPart_at_flag (n : Nat) (x : Part) (g : Field) : (s.setPart n x).flag g = s.flag g := rfl
@[simp] theorem setPart_at_devAddr (n : Nat) (x : Part) : (s.setPart n x).devAddr = s.devAddr := rfl
@[simp] theorem setPart_at_conf (n : Nat) (x : Part) (k : Nat) : (s.setPart n x).conf k = s.conf k := rfl
@[simp] theorem setPart_at_now (n : Nat) (x : Part) : (s.setPart n x).now = s.now := rfl
@[simp] theorem setPart_at_awake (n : Nat) (x : Part) : (s.setPart n x).awake = s.awake := rfl
@[simp] theorem setPart_at_queue (n : Nat) (x : Part) (k r : Nat) : (s.setPart n x).queue k r = s.queue k r := rfl
@[simp] theorem setPart_at_ctkOf (n : Nat) (x : Part) (k : Nat) : (s.setPart n x).ctkOf k = s.ctkOf k := rfl
@[simp] theorem setPart_at_hostRd (n : Nat) (x : Part) (g b y : Nat) : (s.setPart n x).hostRd g b y = s.hostRd g b y := rfl
@[simp] theorem setPart_at_cell (n : Nat) (x : Part) (k : Nat) : (s.setPart n x).cell k = s.cell k := rfl
@[simp] theorem setPart_at_ses (n : Nat) (x : Part) (k : Nat) : (s.setPart n x).ses? k = s.ses? k := rfl
@[simp] theorem setPart_at_frame (n : Nat) (x : Part) (k : Nat) : (s.setPart n x).frame k = s.frame k := rfl
@[simp] theorem setPart_at_bay (n : Nat) (x : Part) (k : Nat) : (s.setPart n x).bay k = s.bay k := rfl
@[simp] theorem setPart_at_bank (n : Nat) (x : Part) (k : Nat) : (s.setPart n x).bank k = s.bank k := rfl
@[simp] theorem setPart_at_port (n : Nat) (x : Part) (k : Nat) : (s.setPart n x).port k = s.port k := rfl
@[simp] theorem setPart_at_qp (n : Nat) (x : Part) (k : Nat) : (s.setPart n x).qp k = s.qp k := rfl
@[simp] theorem setPart_at_responder (n : Nat) (x : Part) (k : Nat) : (s.setPart n x).responder k = s.responder k := rfl
@[simp] theorem setPart_at_island (n : Nat) (x : Part) (k : Nat) : (s.setPart n x).island k = s.island k := rfl

/-! ### setBudget -/

@[simp] theorem setBudget_pending (c : Nat) (x : Nat × Nat) : (s.setBudget c x).pending = s.pending := rfl
@[simp] theorem setBudget_regs (c : Nat) (x : Nat × Nat) : (s.setBudget c x).regs = s.regs := rfl
@[simp] theorem setBudget_clk (c : Nat) (x : Nat × Nat) : (s.setBudget c x).clk = s.clk := rfl
@[simp] theorem setBudget_pins (c : Nat) (x : Nat × Nat) : (s.setBudget c x).pins = s.pins := rfl
@[simp] theorem setBudget_host (c : Nat) (x : Nat × Nat) : (s.setBudget c x).host = s.host := rfl
@[simp] theorem setBudget_ses (c : Nat) (x : Nat × Nat) : (s.setBudget c x).ses = s.ses := rfl
@[simp] theorem setBudget_tier (c : Nat) (x : Nat × Nat) : (s.setBudget c x).tier = s.tier := rfl
@[simp] theorem setBudget_mkr (c : Nat) (x : Nat × Nat) : (s.setBudget c x).mkr = s.mkr := rfl
@[simp] theorem setBudget_cells (c : Nat) (x : Nat × Nat) : (s.setBudget c x).cells = s.cells := rfl
@[simp] theorem setBudget_waiters (c : Nat) (x : Nat × Nat) : (s.setBudget c x).waiters = s.waiters := rfl
@[simp] theorem setBudget_hbm (c : Nat) (x : Nat × Nat) : (s.setBudget c x).hbm = s.hbm := rfl
@[simp] theorem setBudget_hbmBad (c : Nat) (x : Nat × Nat) : (s.setBudget c x).hbmBad = s.hbmBad := rfl
@[simp] theorem setBudget_hbmWeak (c : Nat) (x : Nat × Nat) : (s.setBudget c x).hbmWeak = s.hbmWeak := rfl
@[simp] theorem setBudget_tok (c : Nat) (x : Nat × Nat) : (s.setBudget c x).tok = s.tok := rfl
@[simp] theorem setBudget_banks (c : Nat) (x : Nat × Nat) : (s.setBudget c x).banks = s.banks := rfl
@[simp] theorem setBudget_crt (c : Nat) (x : Nat × Nat) : (s.setBudget c x).crt = s.crt := rfl
@[simp] theorem setBudget_vse (c : Nat) (x : Nat × Nat) : (s.setBudget c x).vse = s.vse := rfl
@[simp] theorem setBudget_fab (c : Nat) (x : Nat × Nat) : (s.setBudget c x).fab = s.fab := rfl
@[simp] theorem setBudget_flt (c : Nat) (x : Nat × Nat) : (s.setBudget c x).flt = s.flt := rfl
@[simp] theorem setBudget_sec (c : Nat) (x : Nat × Nat) : (s.setBudget c x).sec = s.sec := rfl
@[simp] theorem setBudget_isl (c : Nat) (x : Nat × Nat) : (s.setBudget c x).isl = s.isl := rfl
@[simp] theorem setBudget_freeCtr (c : Nat) (x : Nat × Nat) : (s.setBudget c x).freeCtr = s.freeCtr := rfl
@[simp] theorem setBudget_at_fld (c : Nat) (x : Nat × Nat) (g : Field) : (s.setBudget c x).fld g = s.fld g := rfl
@[simp] theorem setBudget_at_reg (c : Nat) (x : Nat × Nat) (p : Nat) : (s.setBudget c x).reg p = s.reg p := rfl
@[simp] theorem setBudget_at_flag (c : Nat) (x : Nat × Nat) (g : Field) : (s.setBudget c x).flag g = s.flag g := rfl
@[simp] theorem setBudget_at_devAddr (c : Nat) (x : Nat × Nat) : (s.setBudget c x).devAddr = s.devAddr := rfl
@[simp] theorem setBudget_at_conf (c : Nat) (x : Nat × Nat) (k : Nat) : (s.setBudget c x).conf k = s.conf k := rfl
@[simp] theorem setBudget_at_now (c : Nat) (x : Nat × Nat) : (s.setBudget c x).now = s.now := rfl
@[simp] theorem setBudget_at_awake (c : Nat) (x : Nat × Nat) : (s.setBudget c x).awake = s.awake := rfl
@[simp] theorem setBudget_at_queue (c : Nat) (x : Nat × Nat) (k r : Nat) : (s.setBudget c x).queue k r = s.queue k r := rfl
@[simp] theorem setBudget_at_ctkOf (c : Nat) (x : Nat × Nat) (k : Nat) : (s.setBudget c x).ctkOf k = s.ctkOf k := rfl
@[simp] theorem setBudget_at_hostRd (c : Nat) (x : Nat × Nat) (g b y : Nat) : (s.setBudget c x).hostRd g b y = s.hostRd g b y := rfl
@[simp] theorem setBudget_at_cell (c : Nat) (x : Nat × Nat) (k : Nat) : (s.setBudget c x).cell k = s.cell k := rfl
@[simp] theorem setBudget_at_ses (c : Nat) (x : Nat × Nat) (k : Nat) : (s.setBudget c x).ses? k = s.ses? k := rfl
@[simp] theorem setBudget_at_frame (c : Nat) (x : Nat × Nat) (k : Nat) : (s.setBudget c x).frame k = s.frame k := rfl
@[simp] theorem setBudget_at_bay (c : Nat) (x : Nat × Nat) (k : Nat) : (s.setBudget c x).bay k = s.bay k := rfl
@[simp] theorem setBudget_at_bank (c : Nat) (x : Nat × Nat) (k : Nat) : (s.setBudget c x).bank k = s.bank k := rfl
@[simp] theorem setBudget_at_port (c : Nat) (x : Nat × Nat) (k : Nat) : (s.setBudget c x).port k = s.port k := rfl
@[simp] theorem setBudget_at_qp (c : Nat) (x : Nat × Nat) (k : Nat) : (s.setBudget c x).qp k = s.qp k := rfl
@[simp] theorem setBudget_at_responder (c : Nat) (x : Nat × Nat) (k : Nat) : (s.setBudget c x).responder k = s.responder k := rfl
@[simp] theorem setBudget_at_island (c : Nat) (x : Nat × Nat) (k : Nat) : (s.setBudget c x).island k = s.island k := rfl

/-! ### setSlot -/

@[simp] theorem setSlot_pending (n : Nat) (x : Slot) : (s.setSlot n x).pending = s.pending := rfl
@[simp] theorem setSlot_regs (n : Nat) (x : Slot) : (s.setSlot n x).regs = s.regs := rfl
@[simp] theorem setSlot_clk (n : Nat) (x : Slot) : (s.setSlot n x).clk = s.clk := rfl
@[simp] theorem setSlot_pins (n : Nat) (x : Slot) : (s.setSlot n x).pins = s.pins := rfl
@[simp] theorem setSlot_host (n : Nat) (x : Slot) : (s.setSlot n x).host = s.host := rfl
@[simp] theorem setSlot_ses (n : Nat) (x : Slot) : (s.setSlot n x).ses = s.ses := rfl
@[simp] theorem setSlot_tier (n : Nat) (x : Slot) : (s.setSlot n x).tier = s.tier := rfl
@[simp] theorem setSlot_mkr (n : Nat) (x : Slot) : (s.setSlot n x).mkr = s.mkr := rfl
@[simp] theorem setSlot_cells (n : Nat) (x : Slot) : (s.setSlot n x).cells = s.cells := rfl
@[simp] theorem setSlot_waiters (n : Nat) (x : Slot) : (s.setSlot n x).waiters = s.waiters := rfl
@[simp] theorem setSlot_hbm (n : Nat) (x : Slot) : (s.setSlot n x).hbm = s.hbm := rfl
@[simp] theorem setSlot_hbmBad (n : Nat) (x : Slot) : (s.setSlot n x).hbmBad = s.hbmBad := rfl
@[simp] theorem setSlot_hbmWeak (n : Nat) (x : Slot) : (s.setSlot n x).hbmWeak = s.hbmWeak := rfl
@[simp] theorem setSlot_tok (n : Nat) (x : Slot) : (s.setSlot n x).tok = s.tok := rfl
@[simp] theorem setSlot_banks (n : Nat) (x : Slot) : (s.setSlot n x).banks = s.banks := rfl
@[simp] theorem setSlot_crt (n : Nat) (x : Slot) : (s.setSlot n x).crt = s.crt := rfl
@[simp] theorem setSlot_vse (n : Nat) (x : Slot) : (s.setSlot n x).vse = s.vse := rfl
@[simp] theorem setSlot_fab (n : Nat) (x : Slot) : (s.setSlot n x).fab = s.fab := rfl
@[simp] theorem setSlot_flt (n : Nat) (x : Slot) : (s.setSlot n x).flt = s.flt := rfl
@[simp] theorem setSlot_sec (n : Nat) (x : Slot) : (s.setSlot n x).sec = s.sec := rfl
@[simp] theorem setSlot_isl (n : Nat) (x : Slot) : (s.setSlot n x).isl = s.isl := rfl
@[simp] theorem setSlot_freeCtr (n : Nat) (x : Slot) : (s.setSlot n x).freeCtr = s.freeCtr := rfl
@[simp] theorem setSlot_at_fld (n : Nat) (x : Slot) (g : Field) : (s.setSlot n x).fld g = s.fld g := rfl
@[simp] theorem setSlot_at_reg (n : Nat) (x : Slot) (p : Nat) : (s.setSlot n x).reg p = s.reg p := rfl
@[simp] theorem setSlot_at_flag (n : Nat) (x : Slot) (g : Field) : (s.setSlot n x).flag g = s.flag g := rfl
@[simp] theorem setSlot_at_devAddr (n : Nat) (x : Slot) : (s.setSlot n x).devAddr = s.devAddr := rfl
@[simp] theorem setSlot_at_conf (n : Nat) (x : Slot) (k : Nat) : (s.setSlot n x).conf k = s.conf k := rfl
@[simp] theorem setSlot_at_now (n : Nat) (x : Slot) : (s.setSlot n x).now = s.now := rfl
@[simp] theorem setSlot_at_awake (n : Nat) (x : Slot) : (s.setSlot n x).awake = s.awake := rfl
@[simp] theorem setSlot_at_queue (n : Nat) (x : Slot) (k r : Nat) : (s.setSlot n x).queue k r = s.queue k r := rfl
@[simp] theorem setSlot_at_ctkOf (n : Nat) (x : Slot) (k : Nat) : (s.setSlot n x).ctkOf k = s.ctkOf k := rfl
@[simp] theorem setSlot_at_hostRd (n : Nat) (x : Slot) (g b y : Nat) : (s.setSlot n x).hostRd g b y = s.hostRd g b y := rfl
@[simp] theorem setSlot_at_cell (n : Nat) (x : Slot) (k : Nat) : (s.setSlot n x).cell k = s.cell k := rfl
@[simp] theorem setSlot_at_ses (n : Nat) (x : Slot) (k : Nat) : (s.setSlot n x).ses? k = s.ses? k := rfl
@[simp] theorem setSlot_at_frame (n : Nat) (x : Slot) (k : Nat) : (s.setSlot n x).frame k = s.frame k := rfl
@[simp] theorem setSlot_at_bay (n : Nat) (x : Slot) (k : Nat) : (s.setSlot n x).bay k = s.bay k := rfl
@[simp] theorem setSlot_at_bank (n : Nat) (x : Slot) (k : Nat) : (s.setSlot n x).bank k = s.bank k := rfl
@[simp] theorem setSlot_at_port (n : Nat) (x : Slot) (k : Nat) : (s.setSlot n x).port k = s.port k := rfl
@[simp] theorem setSlot_at_qp (n : Nat) (x : Slot) (k : Nat) : (s.setSlot n x).qp k = s.qp k := rfl
@[simp] theorem setSlot_at_responder (n : Nat) (x : Slot) (k : Nat) : (s.setSlot n x).responder k = s.responder k := rfl
@[simp] theorem setSlot_at_island (n : Nat) (x : Slot) (k : Nat) : (s.setSlot n x).island k = s.island k := rfl

/-! ### setBank -/

@[simp] theorem setBank_pending (b : Nat) (x : Bank) : (s.setBank b x).pending = s.pending := rfl
@[simp] theorem setBank_regs (b : Nat) (x : Bank) : (s.setBank b x).regs = s.regs := rfl
@[simp] theorem setBank_clk (b : Nat) (x : Bank) : (s.setBank b x).clk = s.clk := rfl
@[simp] theorem setBank_pins (b : Nat) (x : Bank) : (s.setBank b x).pins = s.pins := rfl
@[simp] theorem setBank_host (b : Nat) (x : Bank) : (s.setBank b x).host = s.host := rfl
@[simp] theorem setBank_ses (b : Nat) (x : Bank) : (s.setBank b x).ses = s.ses := rfl
@[simp] theorem setBank_tier (b : Nat) (x : Bank) : (s.setBank b x).tier = s.tier := rfl
@[simp] theorem setBank_mkr (b : Nat) (x : Bank) : (s.setBank b x).mkr = s.mkr := rfl
@[simp] theorem setBank_gal (b : Nat) (x : Bank) : (s.setBank b x).gal = s.gal := rfl
@[simp] theorem setBank_cells (b : Nat) (x : Bank) : (s.setBank b x).cells = s.cells := rfl
@[simp] theorem setBank_waiters (b : Nat) (x : Bank) : (s.setBank b x).waiters = s.waiters := rfl
@[simp] theorem setBank_hbm (b : Nat) (x : Bank) : (s.setBank b x).hbm = s.hbm := rfl
@[simp] theorem setBank_hbmBad (b : Nat) (x : Bank) : (s.setBank b x).hbmBad = s.hbmBad := rfl
@[simp] theorem setBank_hbmWeak (b : Nat) (x : Bank) : (s.setBank b x).hbmWeak = s.hbmWeak := rfl
@[simp] theorem setBank_tok (b : Nat) (x : Bank) : (s.setBank b x).tok = s.tok := rfl
@[simp] theorem setBank_crt (b : Nat) (x : Bank) : (s.setBank b x).crt = s.crt := rfl
@[simp] theorem setBank_vse (b : Nat) (x : Bank) : (s.setBank b x).vse = s.vse := rfl
@[simp] theorem setBank_fab (b : Nat) (x : Bank) : (s.setBank b x).fab = s.fab := rfl
@[simp] theorem setBank_flt (b : Nat) (x : Bank) : (s.setBank b x).flt = s.flt := rfl
@[simp] theorem setBank_sec (b : Nat) (x : Bank) : (s.setBank b x).sec = s.sec := rfl
@[simp] theorem setBank_isl (b : Nat) (x : Bank) : (s.setBank b x).isl = s.isl := rfl
@[simp] theorem setBank_freeCtr (b : Nat) (x : Bank) : (s.setBank b x).freeCtr = s.freeCtr := rfl
@[simp] theorem setBank_at_fld (b : Nat) (x : Bank) (g : Field) : (s.setBank b x).fld g = s.fld g := rfl
@[simp] theorem setBank_at_reg (b : Nat) (x : Bank) (p : Nat) : (s.setBank b x).reg p = s.reg p := rfl
@[simp] theorem setBank_at_flag (b : Nat) (x : Bank) (g : Field) : (s.setBank b x).flag g = s.flag g := rfl
@[simp] theorem setBank_at_devAddr (b : Nat) (x : Bank) : (s.setBank b x).devAddr = s.devAddr := rfl
@[simp] theorem setBank_at_conf (b : Nat) (x : Bank) (k : Nat) : (s.setBank b x).conf k = s.conf k := rfl
@[simp] theorem setBank_at_now (b : Nat) (x : Bank) : (s.setBank b x).now = s.now := rfl
@[simp] theorem setBank_at_awake (b : Nat) (x : Bank) : (s.setBank b x).awake = s.awake := rfl
@[simp] theorem setBank_at_queue (b : Nat) (x : Bank) (k r : Nat) : (s.setBank b x).queue k r = s.queue k r := rfl
@[simp] theorem setBank_at_ctkOf (b : Nat) (x : Bank) (k : Nat) : (s.setBank b x).ctkOf k = s.ctkOf k := rfl
@[simp] theorem setBank_at_hostRd (b : Nat) (x : Bank) (g b y : Nat) : (s.setBank b x).hostRd g b y = s.hostRd g b y := rfl
@[simp] theorem setBank_at_cell (b : Nat) (x : Bank) (k : Nat) : (s.setBank b x).cell k = s.cell k := rfl
@[simp] theorem setBank_at_ses (b : Nat) (x : Bank) (k : Nat) : (s.setBank b x).ses? k = s.ses? k := rfl
@[simp] theorem setBank_at_frame (b : Nat) (x : Bank) (k : Nat) : (s.setBank b x).frame k = s.frame k := rfl
@[simp] theorem setBank_at_bay (b : Nat) (x : Bank) (k : Nat) : (s.setBank b x).bay k = s.bay k := rfl
@[simp] theorem setBank_at_slice (b : Nat) (x : Bank) (k : Nat) : (s.setBank b x).slice k = s.slice k := rfl
@[simp] theorem setBank_at_part (b : Nat) (x : Bank) (k : Nat) : (s.setBank b x).part k = s.part k := rfl
@[simp] theorem setBank_at_port (b : Nat) (x : Bank) (k : Nat) : (s.setBank b x).port k = s.port k := rfl
@[simp] theorem setBank_at_qp (b : Nat) (x : Bank) (k : Nat) : (s.setBank b x).qp k = s.qp k := rfl
@[simp] theorem setBank_at_responder (b : Nat) (x : Bank) (k : Nat) : (s.setBank b x).responder k = s.responder k := rfl
@[simp] theorem setBank_at_island (b : Nat) (x : Bank) (k : Nat) : (s.setBank b x).island k = s.island k := rfl

/-! ### setVse -/

@[simp] theorem setVse_pending (n : Nat) (x : Index) : (s.setVse n x).pending = s.pending := rfl
@[simp] theorem setVse_regs (n : Nat) (x : Index) : (s.setVse n x).regs = s.regs := rfl
@[simp] theorem setVse_clk (n : Nat) (x : Index) : (s.setVse n x).clk = s.clk := rfl
@[simp] theorem setVse_pins (n : Nat) (x : Index) : (s.setVse n x).pins = s.pins := rfl
@[simp] theorem setVse_host (n : Nat) (x : Index) : (s.setVse n x).host = s.host := rfl
@[simp] theorem setVse_ses (n : Nat) (x : Index) : (s.setVse n x).ses = s.ses := rfl
@[simp] theorem setVse_tier (n : Nat) (x : Index) : (s.setVse n x).tier = s.tier := rfl
@[simp] theorem setVse_mkr (n : Nat) (x : Index) : (s.setVse n x).mkr = s.mkr := rfl
@[simp] theorem setVse_gal (n : Nat) (x : Index) : (s.setVse n x).gal = s.gal := rfl
@[simp] theorem setVse_cells (n : Nat) (x : Index) : (s.setVse n x).cells = s.cells := rfl
@[simp] theorem setVse_waiters (n : Nat) (x : Index) : (s.setVse n x).waiters = s.waiters := rfl
@[simp] theorem setVse_hbm (n : Nat) (x : Index) : (s.setVse n x).hbm = s.hbm := rfl
@[simp] theorem setVse_hbmBad (n : Nat) (x : Index) : (s.setVse n x).hbmBad = s.hbmBad := rfl
@[simp] theorem setVse_hbmWeak (n : Nat) (x : Index) : (s.setVse n x).hbmWeak = s.hbmWeak := rfl
@[simp] theorem setVse_tok (n : Nat) (x : Index) : (s.setVse n x).tok = s.tok := rfl
@[simp] theorem setVse_banks (n : Nat) (x : Index) : (s.setVse n x).banks = s.banks := rfl
@[simp] theorem setVse_crt (n : Nat) (x : Index) : (s.setVse n x).crt = s.crt := rfl
@[simp] theorem setVse_fab (n : Nat) (x : Index) : (s.setVse n x).fab = s.fab := rfl
@[simp] theorem setVse_flt (n : Nat) (x : Index) : (s.setVse n x).flt = s.flt := rfl
@[simp] theorem setVse_sec (n : Nat) (x : Index) : (s.setVse n x).sec = s.sec := rfl
@[simp] theorem setVse_isl (n : Nat) (x : Index) : (s.setVse n x).isl = s.isl := rfl
@[simp] theorem setVse_freeCtr (n : Nat) (x : Index) : (s.setVse n x).freeCtr = s.freeCtr := rfl
@[simp] theorem setVse_at_fld (n : Nat) (x : Index) (g : Field) : (s.setVse n x).fld g = s.fld g := rfl
@[simp] theorem setVse_at_reg (n : Nat) (x : Index) (p : Nat) : (s.setVse n x).reg p = s.reg p := rfl
@[simp] theorem setVse_at_flag (n : Nat) (x : Index) (g : Field) : (s.setVse n x).flag g = s.flag g := rfl
@[simp] theorem setVse_at_devAddr (n : Nat) (x : Index) : (s.setVse n x).devAddr = s.devAddr := rfl
@[simp] theorem setVse_at_conf (n : Nat) (x : Index) (k : Nat) : (s.setVse n x).conf k = s.conf k := rfl
@[simp] theorem setVse_at_now (n : Nat) (x : Index) : (s.setVse n x).now = s.now := rfl
@[simp] theorem setVse_at_awake (n : Nat) (x : Index) : (s.setVse n x).awake = s.awake := rfl
@[simp] theorem setVse_at_queue (n : Nat) (x : Index) (k r : Nat) : (s.setVse n x).queue k r = s.queue k r := rfl
@[simp] theorem setVse_at_ctkOf (n : Nat) (x : Index) (k : Nat) : (s.setVse n x).ctkOf k = s.ctkOf k := rfl
@[simp] theorem setVse_at_hostRd (n : Nat) (x : Index) (g b y : Nat) : (s.setVse n x).hostRd g b y = s.hostRd g b y := rfl
@[simp] theorem setVse_at_cell (n : Nat) (x : Index) (k : Nat) : (s.setVse n x).cell k = s.cell k := rfl
@[simp] theorem setVse_at_ses (n : Nat) (x : Index) (k : Nat) : (s.setVse n x).ses? k = s.ses? k := rfl
@[simp] theorem setVse_at_frame (n : Nat) (x : Index) (k : Nat) : (s.setVse n x).frame k = s.frame k := rfl
@[simp] theorem setVse_at_bay (n : Nat) (x : Index) (k : Nat) : (s.setVse n x).bay k = s.bay k := rfl
@[simp] theorem setVse_at_slice (n : Nat) (x : Index) (k : Nat) : (s.setVse n x).slice k = s.slice k := rfl
@[simp] theorem setVse_at_part (n : Nat) (x : Index) (k : Nat) : (s.setVse n x).part k = s.part k := rfl
@[simp] theorem setVse_at_bank (n : Nat) (x : Index) (k : Nat) : (s.setVse n x).bank k = s.bank k := rfl
@[simp] theorem setVse_at_port (n : Nat) (x : Index) (k : Nat) : (s.setVse n x).port k = s.port k := rfl
@[simp] theorem setVse_at_qp (n : Nat) (x : Index) (k : Nat) : (s.setVse n x).qp k = s.qp k := rfl
@[simp] theorem setVse_at_responder (n : Nat) (x : Index) (k : Nat) : (s.setVse n x).responder k = s.responder k := rfl
@[simp] theorem setVse_at_island (n : Nat) (x : Index) (k : Nat) : (s.setVse n x).island k = s.island k := rfl

/-! ### setPort -/

@[simp] theorem setPort_pending (n : Nat) (x : Port) : (s.setPort n x).pending = s.pending := rfl
@[simp] theorem setPort_regs (n : Nat) (x : Port) : (s.setPort n x).regs = s.regs := rfl
@[simp] theorem setPort_clk (n : Nat) (x : Port) : (s.setPort n x).clk = s.clk := rfl
@[simp] theorem setPort_pins (n : Nat) (x : Port) : (s.setPort n x).pins = s.pins := rfl
@[simp] theorem setPort_host (n : Nat) (x : Port) : (s.setPort n x).host = s.host := rfl
@[simp] theorem setPort_ses (n : Nat) (x : Port) : (s.setPort n x).ses = s.ses := rfl
@[simp] theorem setPort_tier (n : Nat) (x : Port) : (s.setPort n x).tier = s.tier := rfl
@[simp] theorem setPort_mkr (n : Nat) (x : Port) : (s.setPort n x).mkr = s.mkr := rfl
@[simp] theorem setPort_gal (n : Nat) (x : Port) : (s.setPort n x).gal = s.gal := rfl
@[simp] theorem setPort_cells (n : Nat) (x : Port) : (s.setPort n x).cells = s.cells := rfl
@[simp] theorem setPort_waiters (n : Nat) (x : Port) : (s.setPort n x).waiters = s.waiters := rfl
@[simp] theorem setPort_hbm (n : Nat) (x : Port) : (s.setPort n x).hbm = s.hbm := rfl
@[simp] theorem setPort_hbmBad (n : Nat) (x : Port) : (s.setPort n x).hbmBad = s.hbmBad := rfl
@[simp] theorem setPort_hbmWeak (n : Nat) (x : Port) : (s.setPort n x).hbmWeak = s.hbmWeak := rfl
@[simp] theorem setPort_tok (n : Nat) (x : Port) : (s.setPort n x).tok = s.tok := rfl
@[simp] theorem setPort_banks (n : Nat) (x : Port) : (s.setPort n x).banks = s.banks := rfl
@[simp] theorem setPort_crt (n : Nat) (x : Port) : (s.setPort n x).crt = s.crt := rfl
@[simp] theorem setPort_vse (n : Nat) (x : Port) : (s.setPort n x).vse = s.vse := rfl
@[simp] theorem setPort_flt (n : Nat) (x : Port) : (s.setPort n x).flt = s.flt := rfl
@[simp] theorem setPort_sec (n : Nat) (x : Port) : (s.setPort n x).sec = s.sec := rfl
@[simp] theorem setPort_isl (n : Nat) (x : Port) : (s.setPort n x).isl = s.isl := rfl
@[simp] theorem setPort_freeCtr (n : Nat) (x : Port) : (s.setPort n x).freeCtr = s.freeCtr := rfl
@[simp] theorem setPort_at_fld (n : Nat) (x : Port) (g : Field) : (s.setPort n x).fld g = s.fld g := rfl
@[simp] theorem setPort_at_reg (n : Nat) (x : Port) (p : Nat) : (s.setPort n x).reg p = s.reg p := rfl
@[simp] theorem setPort_at_flag (n : Nat) (x : Port) (g : Field) : (s.setPort n x).flag g = s.flag g := rfl
@[simp] theorem setPort_at_devAddr (n : Nat) (x : Port) : (s.setPort n x).devAddr = s.devAddr := rfl
@[simp] theorem setPort_at_conf (n : Nat) (x : Port) (k : Nat) : (s.setPort n x).conf k = s.conf k := rfl
@[simp] theorem setPort_at_now (n : Nat) (x : Port) : (s.setPort n x).now = s.now := rfl
@[simp] theorem setPort_at_awake (n : Nat) (x : Port) : (s.setPort n x).awake = s.awake := rfl
@[simp] theorem setPort_at_queue (n : Nat) (x : Port) (k r : Nat) : (s.setPort n x).queue k r = s.queue k r := rfl
@[simp] theorem setPort_at_ctkOf (n : Nat) (x : Port) (k : Nat) : (s.setPort n x).ctkOf k = s.ctkOf k := rfl
@[simp] theorem setPort_at_hostRd (n : Nat) (x : Port) (g b y : Nat) : (s.setPort n x).hostRd g b y = s.hostRd g b y := rfl
@[simp] theorem setPort_at_cell (n : Nat) (x : Port) (k : Nat) : (s.setPort n x).cell k = s.cell k := rfl
@[simp] theorem setPort_at_ses (n : Nat) (x : Port) (k : Nat) : (s.setPort n x).ses? k = s.ses? k := rfl
@[simp] theorem setPort_at_frame (n : Nat) (x : Port) (k : Nat) : (s.setPort n x).frame k = s.frame k := rfl
@[simp] theorem setPort_at_bay (n : Nat) (x : Port) (k : Nat) : (s.setPort n x).bay k = s.bay k := rfl
@[simp] theorem setPort_at_slice (n : Nat) (x : Port) (k : Nat) : (s.setPort n x).slice k = s.slice k := rfl
@[simp] theorem setPort_at_part (n : Nat) (x : Port) (k : Nat) : (s.setPort n x).part k = s.part k := rfl
@[simp] theorem setPort_at_bank (n : Nat) (x : Port) (k : Nat) : (s.setPort n x).bank k = s.bank k := rfl
@[simp] theorem setPort_at_responder (n : Nat) (x : Port) (k : Nat) : (s.setPort n x).responder k = s.responder k := rfl
@[simp] theorem setPort_at_island (n : Nat) (x : Port) (k : Nat) : (s.setPort n x).island k = s.island k := rfl

/-! ### setQp -/

@[simp] theorem setQp_pending (n : Nat) (x : Qp) : (s.setQp n x).pending = s.pending := rfl
@[simp] theorem setQp_regs (n : Nat) (x : Qp) : (s.setQp n x).regs = s.regs := rfl
@[simp] theorem setQp_clk (n : Nat) (x : Qp) : (s.setQp n x).clk = s.clk := rfl
@[simp] theorem setQp_pins (n : Nat) (x : Qp) : (s.setQp n x).pins = s.pins := rfl
@[simp] theorem setQp_host (n : Nat) (x : Qp) : (s.setQp n x).host = s.host := rfl
@[simp] theorem setQp_ses (n : Nat) (x : Qp) : (s.setQp n x).ses = s.ses := rfl
@[simp] theorem setQp_tier (n : Nat) (x : Qp) : (s.setQp n x).tier = s.tier := rfl
@[simp] theorem setQp_mkr (n : Nat) (x : Qp) : (s.setQp n x).mkr = s.mkr := rfl
@[simp] theorem setQp_gal (n : Nat) (x : Qp) : (s.setQp n x).gal = s.gal := rfl
@[simp] theorem setQp_cells (n : Nat) (x : Qp) : (s.setQp n x).cells = s.cells := rfl
@[simp] theorem setQp_waiters (n : Nat) (x : Qp) : (s.setQp n x).waiters = s.waiters := rfl
@[simp] theorem setQp_hbm (n : Nat) (x : Qp) : (s.setQp n x).hbm = s.hbm := rfl
@[simp] theorem setQp_hbmBad (n : Nat) (x : Qp) : (s.setQp n x).hbmBad = s.hbmBad := rfl
@[simp] theorem setQp_hbmWeak (n : Nat) (x : Qp) : (s.setQp n x).hbmWeak = s.hbmWeak := rfl
@[simp] theorem setQp_tok (n : Nat) (x : Qp) : (s.setQp n x).tok = s.tok := rfl
@[simp] theorem setQp_banks (n : Nat) (x : Qp) : (s.setQp n x).banks = s.banks := rfl
@[simp] theorem setQp_crt (n : Nat) (x : Qp) : (s.setQp n x).crt = s.crt := rfl
@[simp] theorem setQp_vse (n : Nat) (x : Qp) : (s.setQp n x).vse = s.vse := rfl
@[simp] theorem setQp_flt (n : Nat) (x : Qp) : (s.setQp n x).flt = s.flt := rfl
@[simp] theorem setQp_sec (n : Nat) (x : Qp) : (s.setQp n x).sec = s.sec := rfl
@[simp] theorem setQp_isl (n : Nat) (x : Qp) : (s.setQp n x).isl = s.isl := rfl
@[simp] theorem setQp_freeCtr (n : Nat) (x : Qp) : (s.setQp n x).freeCtr = s.freeCtr := rfl
@[simp] theorem setQp_at_fld (n : Nat) (x : Qp) (g : Field) : (s.setQp n x).fld g = s.fld g := rfl
@[simp] theorem setQp_at_reg (n : Nat) (x : Qp) (p : Nat) : (s.setQp n x).reg p = s.reg p := rfl
@[simp] theorem setQp_at_flag (n : Nat) (x : Qp) (g : Field) : (s.setQp n x).flag g = s.flag g := rfl
@[simp] theorem setQp_at_devAddr (n : Nat) (x : Qp) : (s.setQp n x).devAddr = s.devAddr := rfl
@[simp] theorem setQp_at_conf (n : Nat) (x : Qp) (k : Nat) : (s.setQp n x).conf k = s.conf k := rfl
@[simp] theorem setQp_at_now (n : Nat) (x : Qp) : (s.setQp n x).now = s.now := rfl
@[simp] theorem setQp_at_awake (n : Nat) (x : Qp) : (s.setQp n x).awake = s.awake := rfl
@[simp] theorem setQp_at_queue (n : Nat) (x : Qp) (k r : Nat) : (s.setQp n x).queue k r = s.queue k r := rfl
@[simp] theorem setQp_at_ctkOf (n : Nat) (x : Qp) (k : Nat) : (s.setQp n x).ctkOf k = s.ctkOf k := rfl
@[simp] theorem setQp_at_hostRd (n : Nat) (x : Qp) (g b y : Nat) : (s.setQp n x).hostRd g b y = s.hostRd g b y := rfl
@[simp] theorem setQp_at_cell (n : Nat) (x : Qp) (k : Nat) : (s.setQp n x).cell k = s.cell k := rfl
@[simp] theorem setQp_at_ses (n : Nat) (x : Qp) (k : Nat) : (s.setQp n x).ses? k = s.ses? k := rfl
@[simp] theorem setQp_at_frame (n : Nat) (x : Qp) (k : Nat) : (s.setQp n x).frame k = s.frame k := rfl
@[simp] theorem setQp_at_bay (n : Nat) (x : Qp) (k : Nat) : (s.setQp n x).bay k = s.bay k := rfl
@[simp] theorem setQp_at_slice (n : Nat) (x : Qp) (k : Nat) : (s.setQp n x).slice k = s.slice k := rfl
@[simp] theorem setQp_at_part (n : Nat) (x : Qp) (k : Nat) : (s.setQp n x).part k = s.part k := rfl
@[simp] theorem setQp_at_bank (n : Nat) (x : Qp) (k : Nat) : (s.setQp n x).bank k = s.bank k := rfl
@[simp] theorem setQp_at_responder (n : Nat) (x : Qp) (k : Nat) : (s.setQp n x).responder k = s.responder k := rfl
@[simp] theorem setQp_at_island (n : Nat) (x : Qp) (k : Nat) : (s.setQp n x).island k = s.island k := rfl

/-! ### send -/

@[simp] theorem send_pending (m : Sent) : (send s m).pending = s.pending := by unfold send; split <;> rfl
@[simp] theorem send_regs (m : Sent) : (send s m).regs = s.regs := by unfold send; split <;> rfl
@[simp] theorem send_clk (m : Sent) : (send s m).clk = s.clk := by unfold send; split <;> rfl
@[simp] theorem send_pins (m : Sent) : (send s m).pins = s.pins := by unfold send; split <;> rfl
@[simp] theorem send_host (m : Sent) : (send s m).host = s.host := by unfold send; split <;> rfl
@[simp] theorem send_ses (m : Sent) : (send s m).ses = s.ses := by unfold send; split <;> rfl
@[simp] theorem send_tier (m : Sent) : (send s m).tier = s.tier := by unfold send; split <;> rfl
@[simp] theorem send_mkr (m : Sent) : (send s m).mkr = s.mkr := by unfold send; split <;> rfl
@[simp] theorem send_gal (m : Sent) : (send s m).gal = s.gal := by unfold send; split <;> rfl
@[simp] theorem send_cells (m : Sent) : (send s m).cells = s.cells := by unfold send; split <;> rfl
@[simp] theorem send_waiters (m : Sent) : (send s m).waiters = s.waiters := by unfold send; split <;> rfl
@[simp] theorem send_hbm (m : Sent) : (send s m).hbm = s.hbm := by unfold send; split <;> rfl
@[simp] theorem send_hbmBad (m : Sent) : (send s m).hbmBad = s.hbmBad := by unfold send; split <;> rfl
@[simp] theorem send_hbmWeak (m : Sent) : (send s m).hbmWeak = s.hbmWeak := by unfold send; split <;> rfl
@[simp] theorem send_tok (m : Sent) : (send s m).tok = s.tok := by unfold send; split <;> rfl
@[simp] theorem send_banks (m : Sent) : (send s m).banks = s.banks := by unfold send; split <;> rfl
@[simp] theorem send_crt (m : Sent) : (send s m).crt = s.crt := by unfold send; split <;> rfl
@[simp] theorem send_vse (m : Sent) : (send s m).vse = s.vse := by unfold send; split <;> rfl
@[simp] theorem send_flt (m : Sent) : (send s m).flt = s.flt := by unfold send; split <;> rfl
@[simp] theorem send_sec (m : Sent) : (send s m).sec = s.sec := by unfold send; split <;> rfl
@[simp] theorem send_isl (m : Sent) : (send s m).isl = s.isl := by unfold send; split <;> rfl
@[simp] theorem send_freeCtr (m : Sent) : (send s m).freeCtr = s.freeCtr := by unfold send; split <;> rfl
@[simp] theorem send_at_fld (m : Sent) (g : Field) : (send s m).fld g = s.fld g := by unfold send; split <;> rfl
@[simp] theorem send_at_reg (m : Sent) (p : Nat) : (send s m).reg p = s.reg p := by unfold send; split <;> rfl
@[simp] theorem send_at_flag (m : Sent) (g : Field) : (send s m).flag g = s.flag g := by unfold send; split <;> rfl
@[simp] theorem send_at_devAddr (m : Sent) : (send s m).devAddr = s.devAddr := by unfold send; split <;> rfl
@[simp] theorem send_at_conf (m : Sent) (k : Nat) : (send s m).conf k = s.conf k := by unfold send; split <;> rfl
@[simp] theorem send_at_now (m : Sent) : (send s m).now = s.now := by unfold send; split <;> rfl
@[simp] theorem send_at_awake (m : Sent) : (send s m).awake = s.awake := by unfold send; split <;> rfl
@[simp] theorem send_at_queue (m : Sent) (k r : Nat) : (send s m).queue k r = s.queue k r := by unfold send; split <;> rfl
@[simp] theorem send_at_ctkOf (m : Sent) (k : Nat) : (send s m).ctkOf k = s.ctkOf k := by unfold send; split <;> rfl
@[simp] theorem send_at_hostRd (m : Sent) (g b y : Nat) : (send s m).hostRd g b y = s.hostRd g b y := by unfold send; split <;> rfl
@[simp] theorem send_at_cell (m : Sent) (k : Nat) : (send s m).cell k = s.cell k := by unfold send; split <;> rfl
@[simp] theorem send_at_ses (m : Sent) (k : Nat) : (send s m).ses? k = s.ses? k := by unfold send; split <;> rfl
@[simp] theorem send_at_frame (m : Sent) (k : Nat) : (send s m).frame k = s.frame k := by unfold send; split <;> rfl
@[simp] theorem send_at_bay (m : Sent) (k : Nat) : (send s m).bay k = s.bay k := by unfold send; split <;> rfl
@[simp] theorem send_at_slice (m : Sent) (k : Nat) : (send s m).slice k = s.slice k := by unfold send; split <;> rfl
@[simp] theorem send_at_part (m : Sent) (k : Nat) : (send s m).part k = s.part k := by unfold send; split <;> rfl
@[simp] theorem send_at_bank (m : Sent) (k : Nat) : (send s m).bank k = s.bank k := by unfold send; split <;> rfl
@[simp] theorem send_at_responder (m : Sent) (k : Nat) : (send s m).responder k = s.responder k := by unfold send; split <;> rfl
@[simp] theorem send_at_island (m : Sent) (k : Nat) : (send s m).island k = s.island k := by unfold send; split <;> rfl

/-! ### setResponder -/

@[simp] theorem setResponder_pending (fn : Nat) (x : Spdm) : (s.setResponder fn x).pending = s.pending := rfl
@[simp] theorem setResponder_regs (fn : Nat) (x : Spdm) : (s.setResponder fn x).regs = s.regs := rfl
@[simp] theorem setResponder_clk (fn : Nat) (x : Spdm) : (s.setResponder fn x).clk = s.clk := rfl
@[simp] theorem setResponder_pins (fn : Nat) (x : Spdm) : (s.setResponder fn x).pins = s.pins := rfl
@[simp] theorem setResponder_host (fn : Nat) (x : Spdm) : (s.setResponder fn x).host = s.host := rfl
@[simp] theorem setResponder_ses (fn : Nat) (x : Spdm) : (s.setResponder fn x).ses = s.ses := rfl
@[simp] theorem setResponder_tier (fn : Nat) (x : Spdm) : (s.setResponder fn x).tier = s.tier := rfl
@[simp] theorem setResponder_mkr (fn : Nat) (x : Spdm) : (s.setResponder fn x).mkr = s.mkr := rfl
@[simp] theorem setResponder_gal (fn : Nat) (x : Spdm) : (s.setResponder fn x).gal = s.gal := rfl
@[simp] theorem setResponder_cells (fn : Nat) (x : Spdm) : (s.setResponder fn x).cells = s.cells := rfl
@[simp] theorem setResponder_waiters (fn : Nat) (x : Spdm) : (s.setResponder fn x).waiters = s.waiters := rfl
@[simp] theorem setResponder_hbm (fn : Nat) (x : Spdm) : (s.setResponder fn x).hbm = s.hbm := rfl
@[simp] theorem setResponder_hbmBad (fn : Nat) (x : Spdm) : (s.setResponder fn x).hbmBad = s.hbmBad := rfl
@[simp] theorem setResponder_hbmWeak (fn : Nat) (x : Spdm) : (s.setResponder fn x).hbmWeak = s.hbmWeak := rfl
@[simp] theorem setResponder_tok (fn : Nat) (x : Spdm) : (s.setResponder fn x).tok = s.tok := rfl
@[simp] theorem setResponder_banks (fn : Nat) (x : Spdm) : (s.setResponder fn x).banks = s.banks := rfl
@[simp] theorem setResponder_crt (fn : Nat) (x : Spdm) : (s.setResponder fn x).crt = s.crt := rfl
@[simp] theorem setResponder_vse (fn : Nat) (x : Spdm) : (s.setResponder fn x).vse = s.vse := rfl
@[simp] theorem setResponder_fab (fn : Nat) (x : Spdm) : (s.setResponder fn x).fab = s.fab := rfl
@[simp] theorem setResponder_flt (fn : Nat) (x : Spdm) : (s.setResponder fn x).flt = s.flt := rfl
@[simp] theorem setResponder_isl (fn : Nat) (x : Spdm) : (s.setResponder fn x).isl = s.isl := rfl
@[simp] theorem setResponder_freeCtr (fn : Nat) (x : Spdm) : (s.setResponder fn x).freeCtr = s.freeCtr := rfl
@[simp] theorem setResponder_at_fld (fn : Nat) (x : Spdm) (g : Field) : (s.setResponder fn x).fld g = s.fld g := rfl
@[simp] theorem setResponder_at_reg (fn : Nat) (x : Spdm) (p : Nat) : (s.setResponder fn x).reg p = s.reg p := rfl
@[simp] theorem setResponder_at_flag (fn : Nat) (x : Spdm) (g : Field) : (s.setResponder fn x).flag g = s.flag g := rfl
@[simp] theorem setResponder_at_devAddr (fn : Nat) (x : Spdm) : (s.setResponder fn x).devAddr = s.devAddr := rfl
@[simp] theorem setResponder_at_conf (fn : Nat) (x : Spdm) (k : Nat) : (s.setResponder fn x).conf k = s.conf k := rfl
@[simp] theorem setResponder_at_now (fn : Nat) (x : Spdm) : (s.setResponder fn x).now = s.now := rfl
@[simp] theorem setResponder_at_awake (fn : Nat) (x : Spdm) : (s.setResponder fn x).awake = s.awake := rfl
@[simp] theorem setResponder_at_queue (fn : Nat) (x : Spdm) (k r : Nat) : (s.setResponder fn x).queue k r = s.queue k r := rfl
@[simp] theorem setResponder_at_ctkOf (fn : Nat) (x : Spdm) (k : Nat) : (s.setResponder fn x).ctkOf k = s.ctkOf k := rfl
@[simp] theorem setResponder_at_hostRd (fn : Nat) (x : Spdm) (g b y : Nat) : (s.setResponder fn x).hostRd g b y = s.hostRd g b y := rfl
@[simp] theorem setResponder_at_cell (fn : Nat) (x : Spdm) (k : Nat) : (s.setResponder fn x).cell k = s.cell k := rfl
@[simp] theorem setResponder_at_ses (fn : Nat) (x : Spdm) (k : Nat) : (s.setResponder fn x).ses? k = s.ses? k := rfl
@[simp] theorem setResponder_at_frame (fn : Nat) (x : Spdm) (k : Nat) : (s.setResponder fn x).frame k = s.frame k := rfl
@[simp] theorem setResponder_at_bay (fn : Nat) (x : Spdm) (k : Nat) : (s.setResponder fn x).bay k = s.bay k := rfl
@[simp] theorem setResponder_at_slice (fn : Nat) (x : Spdm) (k : Nat) : (s.setResponder fn x).slice k = s.slice k := rfl
@[simp] theorem setResponder_at_part (fn : Nat) (x : Spdm) (k : Nat) : (s.setResponder fn x).part k = s.part k := rfl
@[simp] theorem setResponder_at_bank (fn : Nat) (x : Spdm) (k : Nat) : (s.setResponder fn x).bank k = s.bank k := rfl
@[simp] theorem setResponder_at_port (fn : Nat) (x : Spdm) (k : Nat) : (s.setResponder fn x).port k = s.port k := rfl
@[simp] theorem setResponder_at_qp (fn : Nat) (x : Spdm) (k : Nat) : (s.setResponder fn x).qp k = s.qp k := rfl
@[simp] theorem setResponder_at_island (fn : Nat) (x : Spdm) (k : Nat) : (s.setResponder fn x).island k = s.island k := rfl

/-! ### setIsland -/

@[simp] theorem setIsland_pending (x : Nat) (i : Island) : (s.setIsland x i).pending = s.pending := by unfold State.setIsland; dsimp only; split <;> rfl
@[simp] theorem setIsland_clk (x : Nat) (i : Island) : (s.setIsland x i).clk = s.clk := by unfold State.setIsland; dsimp only; split <;> rfl
@[simp] theorem setIsland_pins (x : Nat) (i : Island) : (s.setIsland x i).pins = s.pins := by unfold State.setIsland; dsimp only; split <;> rfl
@[simp] theorem setIsland_host (x : Nat) (i : Island) : (s.setIsland x i).host = s.host := by unfold State.setIsland; dsimp only; split <;> rfl
@[simp] theorem setIsland_ses (x : Nat) (i : Island) : (s.setIsland x i).ses = s.ses := by unfold State.setIsland; dsimp only; split <;> rfl
@[simp] theorem setIsland_tier (x : Nat) (i : Island) : (s.setIsland x i).tier = s.tier := by unfold State.setIsland; dsimp only; split <;> rfl
@[simp] theorem setIsland_mkr (x : Nat) (i : Island) : (s.setIsland x i).mkr = s.mkr := by unfold State.setIsland; dsimp only; split <;> rfl
@[simp] theorem setIsland_gal (x : Nat) (i : Island) : (s.setIsland x i).gal = s.gal := by unfold State.setIsland; dsimp only; split <;> rfl
@[simp] theorem setIsland_cells (x : Nat) (i : Island) : (s.setIsland x i).cells = s.cells := by unfold State.setIsland; dsimp only; split <;> rfl
@[simp] theorem setIsland_waiters (x : Nat) (i : Island) : (s.setIsland x i).waiters = s.waiters := by unfold State.setIsland; dsimp only; split <;> rfl
@[simp] theorem setIsland_hbm (x : Nat) (i : Island) : (s.setIsland x i).hbm = s.hbm := by unfold State.setIsland; dsimp only; split <;> rfl
@[simp] theorem setIsland_hbmBad (x : Nat) (i : Island) : (s.setIsland x i).hbmBad = s.hbmBad := by unfold State.setIsland; dsimp only; split <;> rfl
@[simp] theorem setIsland_hbmWeak (x : Nat) (i : Island) : (s.setIsland x i).hbmWeak = s.hbmWeak := by unfold State.setIsland; dsimp only; split <;> rfl
@[simp] theorem setIsland_tok (x : Nat) (i : Island) : (s.setIsland x i).tok = s.tok := by unfold State.setIsland; dsimp only; split <;> rfl
@[simp] theorem setIsland_banks (x : Nat) (i : Island) : (s.setIsland x i).banks = s.banks := by unfold State.setIsland; dsimp only; split <;> rfl
@[simp] theorem setIsland_crt (x : Nat) (i : Island) : (s.setIsland x i).crt = s.crt := by unfold State.setIsland; dsimp only; split <;> rfl
@[simp] theorem setIsland_vse (x : Nat) (i : Island) : (s.setIsland x i).vse = s.vse := by unfold State.setIsland; dsimp only; split <;> rfl
@[simp] theorem setIsland_fab (x : Nat) (i : Island) : (s.setIsland x i).fab = s.fab := by unfold State.setIsland; dsimp only; split <;> rfl
@[simp] theorem setIsland_flt (x : Nat) (i : Island) : (s.setIsland x i).flt = s.flt := by unfold State.setIsland; dsimp only; split <;> rfl
@[simp] theorem setIsland_sec (x : Nat) (i : Island) : (s.setIsland x i).sec = s.sec := by unfold State.setIsland; dsimp only; split <;> rfl
@[simp] theorem setIsland_freeCtr (x : Nat) (i : Island) : (s.setIsland x i).freeCtr = s.freeCtr := by unfold State.setIsland; dsimp only; split <;> rfl
@[simp] theorem setIsland_at_now (x : Nat) (i : Island) : (s.setIsland x i).now = s.now := by unfold State.setIsland; dsimp only; split <;> rfl
@[simp] theorem setIsland_at_awake (x : Nat) (i : Island) : (s.setIsland x i).awake = s.awake := by unfold State.setIsland; dsimp only; split <;> rfl
@[simp] theorem setIsland_at_queue (x : Nat) (i : Island) (k r : Nat) : (s.setIsland x i).queue k r = s.queue k r := by unfold State.setIsland; dsimp only; split <;> rfl
@[simp] theorem setIsland_at_ctkOf (x : Nat) (i : Island) (k : Nat) : (s.setIsland x i).ctkOf k = s.ctkOf k := by unfold State.setIsland; dsimp only; split <;> rfl
@[simp] theorem setIsland_at_hostRd (x : Nat) (i : Island) (g b y : Nat) : (s.setIsland x i).hostRd g b y = s.hostRd g b y := by unfold State.setIsland; dsimp only; split <;> rfl
@[simp] theorem setIsland_at_cell (x : Nat) (i : Island) (k : Nat) : (s.setIsland x i).cell k = s.cell k := by unfold State.setIsland; dsimp only; split <;> rfl
@[simp] theorem setIsland_at_ses (x : Nat) (i : Island) (k : Nat) : (s.setIsland x i).ses? k = s.ses? k := by unfold State.setIsland; dsimp only; split <;> rfl
@[simp] theorem setIsland_at_frame (x : Nat) (i : Island) (k : Nat) : (s.setIsland x i).frame k = s.frame k := by unfold State.setIsland; dsimp only; split <;> rfl
@[simp] theorem setIsland_at_bay (x : Nat) (i : Island) (k : Nat) : (s.setIsland x i).bay k = s.bay k := by unfold State.setIsland; dsimp only; split <;> rfl
@[simp] theorem setIsland_at_slice (x : Nat) (i : Island) (k : Nat) : (s.setIsland x i).slice k = s.slice k := by unfold State.setIsland; dsimp only; split <;> rfl
@[simp] theorem setIsland_at_part (x : Nat) (i : Island) (k : Nat) : (s.setIsland x i).part k = s.part k := by unfold State.setIsland; dsimp only; split <;> rfl
@[simp] theorem setIsland_at_bank (x : Nat) (i : Island) (k : Nat) : (s.setIsland x i).bank k = s.bank k := by unfold State.setIsland; dsimp only; split <;> rfl
@[simp] theorem setIsland_at_port (x : Nat) (i : Island) (k : Nat) : (s.setIsland x i).port k = s.port k := by unfold State.setIsland; dsimp only; split <;> rfl
@[simp] theorem setIsland_at_qp (x : Nat) (i : Island) (k : Nat) : (s.setIsland x i).qp k = s.qp k := by unfold State.setIsland; dsimp only; split <;> rfl
@[simp] theorem setIsland_at_responder (x : Nat) (i : Island) (k : Nat) : (s.setIsland x i).responder k = s.responder k := by unfold State.setIsland; dsimp only; split <;> rfl

/-! ### Reading what was written -/

@[simp] theorem setQueue_same (c q : Nat) (x : Queue) : (s.setQueue c q x).queue c q = x := by simp [State.setQueue, State.queue]
@[simp] theorem setCell_same (n : Nat) (c : Cell) : (s.setCell n c).cell n = c := by simp [State.setCell, State.cell]
@[simp] theorem setBay_same (b : Nat) (x : Bay) : (s.setBay b x).bay b = x := by simp [State.setBay, State.bay]
@[simp] theorem setSlice_same (n : Nat) (x : Slice) : (s.setSlice n x).slice n = x := by simp [State.setSlice, State.slice]
@[simp] theorem setPart_same (n : Nat) (x : Part) : (s.setPart n x).part n = x := by simp [State.setPart, State.part]
@[simp] theorem setBank_same (b : Nat) (x : Bank) : (s.setBank b x).bank b = x := by simp [State.setBank, State.bank]
@[simp] theorem setPort_same (n : Nat) (x : Port) : (s.setPort n x).port n = x := by simp [State.setPort, State.port]
@[simp] theorem setQp_same (n : Nat) (x : Qp) : (s.setQp n x).qp n = x := by simp [State.setQp, State.qp]
@[simp] theorem setResponder_same (fn : Nat) (x : Spdm) : (s.setResponder fn x).responder fn = x := by simp [State.setResponder, State.responder]
theorem setCell_other (n : Nat) (c : Cell) {k : Nat} (h : k ≠ n) : (s.setCell n c).cell k = s.cell k := by
  simp [State.setCell, State.cell, mget_mset_other _ h]
theorem setBay_other (b : Nat) (x : Bay) {k : Nat} (h : k ≠ b) : (s.setBay b x).bay k = s.bay k := by
  simp [State.setBay, State.bay, mget_mset_other _ h]
theorem setSlice_other (n : Nat) (x : Slice) {k : Nat} (h : k ≠ n) : (s.setSlice n x).slice k = s.slice k := by
  simp [State.setSlice, State.slice, mget_mset_other _ h]
theorem setPart_other (n : Nat) (x : Part) {k : Nat} (h : k ≠ n) : (s.setPart n x).part k = s.part k := by
  simp [State.setPart, State.part, mget_mset_other _ h]
theorem setBank_other (b : Nat) (x : Bank) {k : Nat} (h : k ≠ b) : (s.setBank b x).bank k = s.bank k := by
  simp [State.setBank, State.bank, mget_mset_other _ h]
theorem setPort_other (n : Nat) (x : Port) {k : Nat} (h : k ≠ n) : (s.setPort n x).port k = s.port k := by
  simp [State.setPort, State.port, mget_mset_other _ h]
theorem setQp_other (n : Nat) (x : Qp) {k : Nat} (h : k ≠ n) : (s.setQp n x).qp k = s.qp k := by
  simp [State.setQp, State.qp, mget_mset_other _ h]
theorem setResponder_other (fn : Nat) (x : Spdm) {k : Nat} (h : k ≠ fn) : (s.setResponder fn x).responder k = s.responder k := by
  simp [State.setResponder, State.responder, mget_mset_other _ h]
theorem setQueue_other (c q : Nat) (x : Queue) {d r : Nat} (h : 16 * d + r ≠ 16 * c + q) :
    (s.setQueue c q x).queue d r = s.queue d r := by
  simp [State.setQueue, State.queue, mget_mset_other _ h]
theorem setSes_other (i : Nat) (e : Session) {k : Nat} (h : k ≠ i) : (s.setSes i e).ses? k = s.ses? k := by
  simp [State.setSes, State.ses?, mget_mset_other _ h]
@[simp] theorem setVse_same (n : Nat) (x : Index) : mget (s.setVse n x).vse n = some x := by simp [State.setVse]
@[simp] theorem setSlot_same (n : Nat) (x : Slot) : mget (s.setSlot n x).gal.slots n = some x := by simp [State.setSlot]

theorem setIsland_islands (x : Nat) (i : Island) : (s.setIsland x i).isl.islands = mset s.isl.islands x i := by
  unfold State.setIsland
  dsimp only
  split <;> rfl
@[simp] theorem setIsland_same (x : Nat) (i : Island) : (s.setIsland x i).island x = i := by
  simp [State.island, setIsland_islands]
theorem setIsland_other (x : Nat) (i : Island) {k : Nat} (h : k ≠ x) : (s.setIsland x i).island k = s.island k := by
  simp [State.island, setIsland_islands, mget_mset_other _ h]

end Sys2Proof.Machine
end

