-- ==== Sys2Proof/WellFormed.lean ====
section
/-! DEFINITION. Which commands are well formed: every operand fits the field that carries it (the operand words of R58, R115,
R187, R234, R361, R410, R444 and R488, the doorbells of R533) and names an object the part has (R11, R12). -/

namespace Sys2Proof

/-- A context below 64, a command queue below 16 (R533), a 32-bit queue position (R534). -/
def srcOk (src : Src) : Bool := decide (src.ctx < 64) && decide (src.queue < 16) && decide (src.qpos < 2 ^ 32)

/-- A device cell number (R12) and the field widths of R234. -/
def cellItemOk (x : CellItem) : Bool :=
  decide (x.cell < 1920) && decide (x.d < 32) && decide (x.a < 32) && decide (x.b < 32) && decide (x.c < 32) &&
  decide (x.p < 8) && decide (x.t < 32) && decide (x.fn < 16)

/-- A synchronisation operation is well formed as its cell item or its control item is. -/
def syncUseOk : SyncUse → Bool
  | .cell x => cellItemOk x
  | .item src _ _ => srcOk src

/-- Well-formed commands. -/
def Instr.wf : Instr → Bool
  | .sesCreate src vocab grammar model prio dur customer _ _ contract cls =>
      srcOk src && decide (vocab < 64) && decide (grammar < 256) && decide (model < 1024) && decide (prio < 8) &&
      decide (dur < 4) && decide (customer < 4096) && decide (contract < 65536) && decide (cls < 256)
  | .sesFeed src _ _ len _ _ genLimit => srcOk src && decide (len < 2 ^ 24) && decide (genLimit < 2 ^ 24)
  | .sesRun src _ genLimit => srcOk src && decide (genLimit < 2 ^ 24)
  | .sesWait src _ expect deadline => srcOk src && decide (expect < 2 ^ 64) && decide (deadline < 2 ^ 64)
  | .sesHold src _ => srcOk src
  | .sesRelease src _ => srcOk src
  | .sesFork src _ position _ _ _ => srcOk src && decide (position < 2 ^ 32)
  | .sesMigrate src _ device => srcOk src && decide (device < 65536)
  | .sesPark src _ hint => srcOk src && decide (hint < 4)
  | .sesRevive src _ => srcOk src
  | .sesCancel src _ => srcOk src
  | .sesEnd src _ => srcOk src
  | .sesFree src _ => srcOk src
  | .sesQuery src _ _ => srcOk src
  | .sesConfig src _ selector index _ => srcOk src && decide (selector < 256) && decide (index < 256)
  | .cancelDrainComplete index => decide (index < 2 ^ 24)
  | .sessionDrainTimeout index => decide (index < 2 ^ 24)
  | .waitGraceExpiry index => decide (index < 2 ^ 24)
  | .proactiveRevivalStart index => decide (index < 2 ^ 24)
  | .overdueExpiry index => decide (index < 2 ^ 24)
  | .deadlinePassed index => decide (index < 2 ^ 24)
  | .durLagExpiry index => decide (index < 2 ^ 24)
  | .p1PressureParking ctx => decide (ctx < 64)
  | .parkCommit index => decide (index < 2 ^ 24)
  | .parkFailure index status => decide (index < 2 ^ 24) && decide (status < 65536)
  | .revivalCommit index _ => decide (index < 2 ^ 24)
  | .migrationCommit index _ => decide (index < 2 ^ 24)
  | .migrationRefused index status => decide (index < 2 ^ 24) && decide (status < 65536)
  | .migrationTimeout index => decide (index < 2 ^ 24)
  | .advertiseFreeLentSpace => true
  | .lenderAdvertisement lender free hops reclaimMs =>
      decide (lender < 65536) && decide (free < 2 ^ 64) && decide (hops < 16) && decide (reclaimMs < 65536)
  | .reclaimNoticeSend => true
  | .reclaimNotice lender deadline => decide (lender < 65536) && decide (deadline < 2 ^ 64)
  | .reclaimResend borrower => decide (borrower < 65536)
  | .reclaimDeadline => true
  | .bayReadOnlyEvacuation bay => decide (bay < 4)
  | .mkrDefine src _ => srcOk src
  | .mkrDrop src id => srcOk src && decide (id < 4096)
  | .mkrReady src _ => srcOk src
  | .makeReadyEvaluation => true
  | .mkrWithdraw src => srcOk src
  | .mkrQuery src id _ => srcOk src && decide (id < 4096)
  | .capacityReevaluation => true
  | .galLoad src slot source _ => srcOk src && decide (slot < 1024) && decide (source < 4)
  | .galUnload src slot => srcOk src && decide (slot < 1024)
  | .galDraft src _ base count _ => srcOk src && decide (base < 2 ^ 32) && decide (count < 32)
  | .galPreempt src part _ => srcOk src && decide (part < 16)
  | .galResume src part _ => srcOk src && decide (part < 16)
  | .galleySwap part slice => decide (part < 16) && decide (slice < 4)
  | .galleyBuild part slice => decide (part < 16) && decide (slice < 4)
  | .galleyCommit part slice => decide (part < 16) && decide (slice < 4)
  | .contractStepMissed part slice => decide (part < 16) && decide (slice < 4)
  | .stepWatchdog part slice => decide (part < 16) && decide (slice < 4)
  | .tokVload src slot _ => srcOk src && decide (slot < 64)
  | .tokGload src slot _ => srcOk src && decide (slot < 256)
  | .tokUnload src kind slot => srcOk src && decide (kind < 2) && decide (slot < 256)
  | .tokEncode src vocab bytes _ _ => srcOk src && decide (vocab < 64) && decide (bytes < 2 ^ 24)
  | .logitSegment part slice recIdx offset first _ =>
      decide (part < 16) && decide (slice < 4) && decide (recIdx < 8192) && decide (offset < 2 ^ 32) &&
      decide (first < 2 ^ 32)
  | .positionSampled part slice recIdx offset =>
      decide (part < 16) && decide (slice < 4) && decide (recIdx < 8192) && decide (offset < 2 ^ 32)
  | .camCfg src bank width keyBytes _ => srcOk src && decide (bank < 32) && decide (width < 4) && decide (keyBytes < 64)
  | .camWrite src bank entry _ _ => srcOk src && decide (bank < 32) && decide (entry < 8192)
  | .camFind src bank start _ _ _ => srcOk src && decide (bank < 32) && decide (start < 8192)
  | .camRead src bank entry _ => srcOk src && decide (bank < 32) && decide (entry < 8192)
  | .camScrub bank => decide (bank < 32)
  | .presenceAsserted bay => decide (bay < 4)
  | .holdUpGood bay => decide (bay < 4)
  | .holdUpTimerExpiry bay => decide (bay < 4)
  | .colophonVerified bay _ _ _ _ _ => decide (bay < 4)
  | .i3cSilent bay => decide (bay < 4)
  | .linkTrained bay lanes _ => decide (bay < 4) && decide (lanes < 17)
  | .trainingRetry bay lanes _ => decide (bay < 4) && decide (lanes < 17)
  | .replayComplete bay _ _ _ => decide (bay < 4)
  | .endOfLife bay reason => decide (bay < 4) && decide (reason < 8)
  | .presenceDeasserted bay => decide (bay < 4)
  | .crtPut src _ _ len => srcOk src && decide (len < 2 ^ 40)
  | .crtGet src _ _ offset len => srcOk src && decide (offset < 2 ^ 64) && decide (len < 2 ^ 40)
  | .crtDel src _ => srcOk src
  | .crtEject src bay => srcOk src && decide (bay < 4)
  | .ejectDrained bay => decide (bay < 4)
  | .crtFormat src bay => srcOk src && decide (bay < 4)
  | .crtCompact src bay => srcOk src && decide (bay < 4)
  | .compaction bay => decide (bay < 4)
  | .compactionSuperblockDurable bay => decide (bay < 4)
  | .flitReceived bay _ => decide (bay < 4)
  | .flitResendTimeout bay => decide (bay < 4)
  | .retrain bay lanes => decide (bay < 4) && decide (lanes < 17)
  | .programSuspend bay channel die => decide (bay < 4) && decide (channel < 24) && decide (die < 32)
  | .pageReadDone bay optag _ correctedPct _ => decide (bay < 4) && decide (optag < 65536) && decide (correctedPct < 128)
  | .flashDieTimeout bay channel die => decide (bay < 4) && decide (channel < 24) && decide (die < 32)
  | .programOrEraseFailure bay block _ => decide (bay < 4) && decide (block < 2 ^ 32)
  | .wearRecordWrite bay _ => decide (bay < 4)
  | .journalPageClose bay => decide (bay < 4)
  | .journalPageProgrammed bay => decide (bay < 4)
  | .readDisturbRelocation bay block => decide (bay < 4) && decide (block < 2 ^ 32)
  | .patrolScan bay block _ correctedPct => decide (bay < 4) && decide (block < 2 ^ 32) && decide (correctedPct < 128)
  | .wearLevelling bay fromBlock toBlock => decide (bay < 4) && decide (fromBlock < 2 ^ 32) && decide (toBlock < 2 ^ 32)
  | .collector bay => decide (bay < 4)
  | .piedPageRecovery frame _ => decide (frame < 25165824)
  | .vseOpen src _ slot part prio _ _ qpg sideCap encPart encSlice _ =>
      srcOk src && decide (slot < 64) && decide (part < 16) && decide (prio < 8) && decide (qpg < 128) &&
      decide (sideCap < 2 ^ 25) && decide (encPart < 16) && decide (encSlice < 4)
  | .vseClose src slot => srcOk src && decide (slot < 64)
  | .vseQuery src slot k probes rerank _ _ _ _ contract =>
      srcOk src && decide (slot < 64) && decide (k < 2048) && decide (probes < 65536) && decide (rerank < 65536) &&
      decide (contract < 4096)
  | .vseInsert src slot _ _ _ => srcOk src && decide (slot < 64)
  | .vseDelete src slot _ => srcOk src && decide (slot < 64)
  | .vseMerge src slot _ => srcOk src && decide (slot < 64)
  | .vseDoc src slot tokens _ _ _ => srcOk src && decide (slot < 64) && decide (tokens < 16384)
  | .searchGalleyRelease part => decide (part < 16)
  | .partitionScanReturn slot query partition engine instar =>
      decide (slot < 64) && decide (query < 2 ^ 32) && decide (partition < 2 ^ 24) && decide (engine < 96) &&
      decide (instar < 2 ^ 24)
  | .recordReadReturn slot query key engine instar =>
      decide (slot < 64) && decide (query < 2 ^ 32) && decide (key < 2 ^ 40) && decide (engine < 96) &&
      decide (instar < 2 ^ 24)
  | .queryComplete slot query => decide (slot < 64) && decide (query < 2 ^ 32)
  | .sidePageClose slot => decide (slot < 64)
  | .sideRecordDurable slot => decide (slot < 64)
  | .mergeGenerationChange slot => decide (slot < 64)
  | .energyMeter _ _ _ => true
  | .fabQpc src ownerKind slice cls window depth _ =>
      srcOk src && decide (ownerKind < 2) && decide (slice < 64) && decide (cls < 8) && decide (window < 8192) &&
      decide (depth < 8192)
  | .fabPost src qp op _ _ _ waitKind waitQp _ raddr len _ _ _ =>
      srcOk src && decide (qp < 65536) && decide (op < 8) && decide (waitKind < 2) && decide (waitQp < 65536) &&
      decide (raddr < 2 ^ 39) && decide (len < 2 ^ 32)
  | .fabWin src qp _ _ _ mode stallUs _ len =>
      srcOk src && decide (qp < 65536) && decide (mode < 4) && decide (stallUs < 65536) && decide (len < 2 ^ 39)
  | .fabCtlConnect src qp peerDev peerQp =>
      srcOk src && decide (qp < 65536) && decide (peerDev < 65536) && decide (peerQp < 65536)
  | .fabCtlReset src qp => srcOk src && decide (qp < 65536)
  | .fabCtlDestroy src qp => srcOk src && decide (qp < 65536)
  | .fabCtlCancel src qp => srcOk src && decide (qp < 65536)
  | .fabCtlQuery src qp _ => srcOk src && decide (qp < 65536)
  | .fabCtlRevokeWindow src qp window => srcOk src && decide (qp < 65536) && decide (window < 16)
  | .fabCtlCompose src _ => srcOk src
  | .portSignalDetected port => decide (port < 16)
  | .portLinkUp port => decide (port < 16)
  | .portTrainingTimeout port => decide (port < 16)
  | .portLinkLost port => decide (port < 16)
  | .serdesFault port unit => decide (port < 16) && decide (unit < 5)
  | .fabPortMediaWrite port media cableM => decide (port < 16) && decide (media < 2) && decide (cableM < 256)
  | .discoverySend => true
  | .discoveryFrame port _ => decide (port < 16)
  | .ptpSync sender _ => decide (sender < 65536)
  | .syncMissed => true
  | .holdoverTimeFault _ => true
  | .domainOfOne => true
  | .pfcPauseReceived port cls quanta => decide (port < 16) && decide (cls < 8) && decide (quanta < 65536)
  | .pfcRefresh port cls => decide (port < 16) && decide (cls < 8)
  | .pfcWatchdog port cls => decide (port < 16) && decide (cls < 8)
  | .stuckClear port cls => decide (port < 16) && decide (cls < 8)
  | .eftFrame port _ => decide (port < 16)
  | .ackTimer qp => decide (qp < 65536)
  | .rtoExpiry qp => decide (qp < 65536)
  | .resendAfterExpiry qp => decide (qp < 65536)
  | .holdAckSend qp => decide (qp < 65536)
  | .stallTimeout qp => decide (qp < 65536)
  | .pageArrival qp frame => decide (qp < 65536) && decide (frame < 25165824)
  | .connectResend qp => decide (qp < 65536)
  | .connectTimeout qp => decide (qp < 65536)
  | .arbiterGrant port => decide (port < 16)
  | .fabWaitTimeout qp => decide (qp < 65536)
  | .fenceRecord device instar => decide (device < 65536) && decide (instar < 2 ^ 24)
  | .mirroredPark _ _ => true
  | .partnerHandleQuery _ => true
  | .unitDeclaredLost source => decide (source < 4096)
  | .deviceDeclaredLost device instar _ => decide (device < 65536) && decide (instar < 2 ^ 24)
  | .hubHandover => true
  | .faultLatchHandled hub => decide (hub < 2)
  | .failureWarning source => decide (source < 4096)
  | .hbmSparing stack channel _ _ => decide (stack < 12) && decide (channel < 32)
  | .reImposition part => decide (part < 16)
  | .staleMessageResetOrder source _ => decide (source < 4096)
  | .proofWrite scope => decide (scope < 4096)
  | .cellItemTimeout cell => decide (cell < 1920)
  | .controlItemTimeout src => srcOk src
  | .dmaTimeout cell desc => decide (cell < 1920) && decide (desc < 16)
  | .syncWaitTimeout obj actor => decide (obj < 16384) && decide (actor < 65536)
  | .nop x => cellItemOk x
  | .sadd x => cellItemOk x
  | .ssub x => cellItemOk x
  | .smul x => cellItemOk x
  | .sand x => cellItemOk x
  | .sor x => cellItemOk x
  | .sxor x => cellItemOk x
  | .shl x => cellItemOk x
  | .shr x => cellItemOk x
  | .sra x => cellItemOk x
  | .cmp x => cellItemOk x
  | .li x => cellItemOk x
  | .ld x => cellItemOk x
  | .st x => cellItemOk x
  | .rdsr x => cellItemOk x
  | .wrsr x => cellItemOk x
  | .br x => cellItemOk x
  | .bc x => cellItemOk x
  | .call x => cellItemOk x
  | .jr x => cellItemOk x
  | .trap x => cellItemOk x
  | .eret x => cellItemOk x
  | .galRec x => cellItemOk x
  | .stepDone x => cellItemOk x
  | .dftWrite x => cellItemOk x
  | .vld x => cellItemOk x
  | .vst x => cellItemOk x
  | .vbc x => cellItemOk x
  | .vmov x => cellItemOk x
  | .vadd x => cellItemOk x
  | .vsub x => cellItemOk x
  | .vmul x => cellItemOk x
  | .vmin x => cellItemOk x
  | .vmax x => cellItemOk x
  | .vand x => cellItemOk x
  | .vor x => cellItemOk x
  | .vxor x => cellItemOk x
  | .vfma x => cellItemOk x
  | .vshl x => cellItemOk x
  | .vshr x => cellItemOk x
  | .vcvt x => cellItemOk x
  | .vcmp x => cellItemOk x
  | .vsel x => cellItemOk x
  | .plog x => cellItemOk x
  | .vperm x => cellItemOk x
  | .vredAdd x => cellItemOk x
  | .vredMax x => cellItemOk x
  | .vexp2 x => cellItemOk x
  | .vrcp x => cellItemOk x
  | .vrsqrt x => cellItemOk x
  | .vgth x => cellItemOk x
  | .vsct x => cellItemOk x
  | .tmma x => cellItemOk x
  | .tzero x => cellItemOk x
  | .tld x => cellItemOk x
  | .tst x => cellItemOk x
  | .tmx x => cellItemOk x
  | .wclr x => cellItemOk x
  | .waddF32 x => cellItemOk x
  | .wmacF32 x => cellItemOk x
  | .wcvt x => cellItemOk x
  | .wmrg x => cellItemOk x
  | .dmaIn x => cellItemOk x
  | .dmaOut x => cellItemOk x
  | .dmaGth x => cellItemOk x
  | .dmaSct x => cellItemOk x
  | .dmaWalk x => cellItemOk x
  | .dmaApp x => cellItemOk x
  | .dmaWsend x => cellItemOk x
  | .dmaWait x => cellItemOk x
  | .dmaRst x => cellItemOk x
  | .dmaDescriptorDone cell desc => decide (cell < 1920) && decide (desc < 16)
  | .dmaElementFault cell desc element status =>
      decide (cell < 1920) && decide (desc < 16) && decide (element < 2 ^ 32) && decide (status < 65536)
  | .lgtSend x => cellItemOk x
  | .vsrScan x => cellItemOk x
  | .vsrPut x => cellItemOk x
  | .ctrRd u => syncUseOk u
  | .ctrAdd u => syncUseOk u
  | .ctrWait u => syncUseOk u
  | .semTake u => syncUseOk u
  | .semGive u => syncUseOk u
  | .barArv u => syncUseOk u
  | .barWait u => syncUseOk u
  | .qnAcq u => syncUseOk u
  | .qnTry u => syncUseOk u
  | .qnRel u => syncUseOk u
  | .syncRd u => syncUseOk u
  | .fence u => syncUseOk u
  | .syncInit src kind ownerKind owner _ => srcOk src && decide (kind < 8) && decide (ownerKind < 2) && decide (owner < 64)
  | .syncFree src _ => srcOk src
  | .ctlNop src => srcOk src
  | .ctlStamp src => srcOk src
  | .commandFetch ctx queue => decide (ctx < 64) && decide (queue < 16)
  | .doorbellCmdTail fn ctx queue _ => decide (fn < 64) && decide (ctx < 64) && decide (queue < 16)
  | .doorbellCplHead fn ctx queue _ => decide (fn < 64) && decide (ctx < 64) && decide (queue < 16)
  | .doorbellOutHead fn ctx queue _ => decide (fn < 64) && decide (ctx < 64) && decide (queue < 16)
  | .partialTimeout ctx queue => decide (ctx < 64) && decide (queue < 16)
  | .ringReadFailure ctx queue => decide (ctx < 64) && decide (queue < 16)
  | .queueEnable ctx queue => decide (ctx < 64) && decide (queue < 16)
  | .queueDisable ctx queue => decide (ctx < 64) && decide (queue < 16)
  | .queueFlush ctx queue => decide (ctx < 64) && decide (queue < 16)
  | .contextPurge fn ctx => decide (fn < 64) && decide (ctx < 64)
  | .sesCustMapWrite fn customer _ => decide (fn < 64) && decide (customer < 4096)
  | .sesCtxPagesWrite fn ctx _ => decide (fn < 64) && decide (ctx < 64)
  | .galPartWrite fn part _ => decide (fn < 64) && decide (part < 16)
  | .galBudgetEnable customer => decide (customer < 4096)
  | .galBudgetDepthWrite customer _ => decide (customer < 4096)
  | .camOwnerWrite fn bank ownerKind owner =>
      decide (fn < 64) && decide (bank < 32) && decide (ownerKind < 4) && decide (owner < 64)
  | .registerWrite fn offset width _ => decide (fn < 64) && decide (offset < 2 ^ 26) && decide (width < 65536)
  | .registerReadClear fn offset width => decide (fn < 64) && decide (offset < 2 ^ 26) && decide (width < 65536)
  | .registerLowHalfRead fn offset => decide (fn < 64) && decide (offset < 2 ^ 26)
  | .misalignedBar0Access fn offset width _ => decide (fn < 64) && decide (offset < 2 ^ 26) && decide (width < 65536)
  | .functionLevelReset fn => decide (fn < 64)
  | .pcieHotReset => true
  | .doeAbort fn => decide (fn < 65)
  | .getVersion fn => decide (fn < 65)
  | .getCapabilities fn => decide (fn < 65)
  | .negotiateAlgorithms fn _ => decide (fn < 65)
  | .getDigests fn => decide (fn < 65)
  | .getCertificate fn slot offset len =>
      decide (fn < 65) && decide (slot < 8) && decide (offset < 65536) && decide (len < 65536)
  | .challenge fn slot _ => decide (fn < 65) && decide (slot < 8)
  | .getMeasurements fn index => decide (fn < 65) && decide (index < 256)
  | .keyExchange fn _ => decide (fn < 65)
  | .finish fn _ => decide (fn < 65)
  | .heartbeat fn => decide (fn < 65)
  | .keyUpdate fn operation => decide (fn < 65) && decide (operation < 256)
  | .endSession fn => decide (fn < 65)
  | .setCtk fn _ => decide (fn < 65)
  | .domainKeys fn _ _ _ _ gen _ => decide (fn < 65) && decide (gen < 2 ^ 32)
  | .clearDomain fn => decide (fn < 65)
  | .debugUnlock fn serial startCount _ => decide (fn < 65) && decide (serial < 2 ^ 64) && decide (startCount < 2 ^ 32)
  | .getInfo => true
  | .readReg wValue wIndex wLength => decide (wValue < 65536) && decide (wIndex < 65536) && decide (wLength < 65536)
  | .writeReg wValue wIndex wLength _ => decide (wValue < 65536) && decide (wIndex < 65536) && decide (wLength < 65536)
  | .getFirst => true
  | .bulkStart kind len wLength => decide (kind < 256) && decide (len < 2 ^ 32) && decide (wLength < 65536)
  | .bulkTransferDone slot svn _ => decide (slot < 2) && decide (svn < 256)
  | .getResult => true
  | .reset wValue wIndex => decide (wValue < 65536) && decide (wIndex < 65536)
  | .usbBusReset => true
  | .usbStageTimeout => true
  | .frameZeroing frame => decide (frame < 25165824)
  | .memoryScrub cell => decide (cell < 1920)
  | .islandStateChoice island => decide (island < 16384)
  | .islandWake island => decide (island < 16384)
  | .d1Entry => true
  | .eventEdge source => decide (source < 2048)
  | .eventDelivery hub => decide (hub < 2)
  | .evcTimerReached timer => decide (timer < 64)
  | .energyTelemetry _ => true
  | .pwrfailNAsserted => true
  | .pwrfailNDeasserted => true
  | .porstNAsserted => true
  | .porstNReleased => true
  | .startPhaseAdvance => true
  | .serdesReferenceAbsent hub => decide (hub < 2)
  | .vinLow _ => true
  | .vinHighWarning _ => true
  | .vinOvervoltage _ => true
  | .railCollapse _ _ => true
  | .thermtrip _ => true
  | .thermalThrottle _ hub => decide (hub < 2)
  | .thermalLimitAll _ hub => decide (hub < 2)
  | .thermalLimitLift _ => true
  | .holdUpStatusBad bay => decide (bay < 4)
  | .deferredParkStart index => decide (index < 2 ^ 24)
  | .syncMessageSend => true
  | .pdelayReqSend port => decide (port < 16)
  | .pdelayMessage port _ _ _ _ _ => decide (port < 16)
  | .deviceHeartbeatSend => true
  | .pfcPauseExpiry port cls => decide (port < 16) && decide (cls < 8)
  | .hostMemoryReadTimeout src => srcOk src
  | .pcieLinkRetrain lanes => decide (lanes < 17)
  | .srIovVfEnable fn _ => decide (fn < 64)
  | .illegalInstruction x opcode ext => cellItemOk x && decide (opcode < 256) && decide (ext < 8)
  | .unsupportedManagementRequest bRequest bmRequestType wLength =>
      decide (bRequest < 256) && decide (bmRequestType < 256) && decide (wLength < 65536)
  | .testPortInstruction code => decide (code < 32)
  | .standbyRailUp _ => true
  | .lenderReclaimSweep borrower => decide (borrower < 65536)

end Sys2Proof
end

