-- ==== Sys2Proof/Tests/Slice0.lean ====
section
/-! SUPPORT. Small tests of the model: ill-formed terms that the well-formedness checks refuse, worked examples of the spec, and,
for each statement with hypotheses, states and operands that meet them together, with what the command then answers where that
can be computed (a free value cannot).  A test is named after the statement whose clause it meets. -/

set_option Elab.async false

namespace Sys2Proof.Tests

open Machine

/-! ### What the tests use -/

/-- Whether a command answers a next state that passes a check. -/
def ran (i : Instr) (s : State) (p : State → Bool) : Bool :=
  match exec i s with
  | .next t => p t
  | _ => false

/-- Whether a command answers the state it found. -/
def kept (i : Instr) (s : State) : Bool := ran i s fun t => decide (t = s)

/-- The canonical form, computed. -/
def canon (s : State) : Bool :=
  mwf s.regs && s.regs.all (fun e => decide (e.2 ≠ resetWord e.1)) && Memory.wf s.host.mem && Memory.wf s.hbm

theorem canonical_of_canon {s : State} (h : canon s = true) : Canonical s := by
  simp only [canon, Bool.and_eq_true, List.all_eq_true, decide_eq_true_eq] at h
  exact ⟨⟨h.1.1.1, h.1.1.2⟩, h.1.2, h.2⟩

/-- A state with fields of registers set. -/
def withFlds (s : State) (l : List (Field × Nat)) : State := l.foldl (fun s x => s.setFld x.1 x.2) s

/-- A running device: reset released, READY set, phase 0x7. -/
def up : State :=
  withFlds { State.reset with pins := { State.reset.pins with porstN := true, standby := true } }
    [(GLB_STATE_DEV_STATE, 0), (GLB_STATE_START_PHASE, 7), (GLB_STATE_READY, 1)]

/-- An item of queue 0 of context 0. -/
def src0 : Src := ⟨0, 0, 0⟩

theorem canonical_up : Canonical up := canonical_of_canon (by decide +kernel)

/-! ### Ill-formed terms -/

/-- Contexts end at 63 (R533). -/
theorem test_wf_src_context : srcOk ⟨64, 0, 0⟩ = false ∧ srcOk ⟨63, 15, 2 ^ 32 - 1⟩ = true := by decide
theorem test_wf_src_queue : srcOk ⟨0, 16, 0⟩ = false := by decide
theorem test_wf_src_position : srcOk ⟨0, 0, 2 ^ 32⟩ = false := by decide

/-- An item of the cell profile with every field zero. -/
def item0 : CellItem := ⟨0, 0, 0, 0, 0, 0, false, 0, 0, 0, 0⟩

/-- Cells end at 1,919, registers at 31, predicates at 7, FN at 15 (R12, R234). -/
theorem test_wf_cell_item : cellItemOk item0 = true ∧ cellItemOk { item0 with cell := 1920 } = false ∧
    cellItemOk { item0 with d := 32 } = false ∧ cellItemOk { item0 with a := 32 } = false ∧
    cellItemOk { item0 with b := 32 } = false ∧ cellItemOk { item0 with c := 32 } = false ∧
    cellItemOk { item0 with p := 8 } = false ∧ cellItemOk { item0 with t := 32 } = false ∧
    cellItemOk { item0 with fn := 16 } = false := by decide

theorem test_wf_sync_use : syncUseOk (.cell { item0 with d := 32 }) = false ∧ syncUseOk (.item ⟨64, 0, 0⟩ 0 0) = false ∧
    syncUseOk (.item src0 0 0) = true := by decide

/-- Each kind of operand out of its range: a bay, a port, a slot, a source, a bank, a length, a timer, a frame. -/
theorem test_wf_instr : (Instr.crtEject src0 4).wf = false ∧ (Instr.portLinkUp 16).wf = false ∧
    (Instr.vseClose src0 64).wf = false ∧ (Instr.unitDeclaredLost 4096).wf = false ∧ (Instr.camScrub 32).wf = false ∧
    (Instr.crtPut src0 0 0 (2 ^ 40)).wf = false ∧ (Instr.evcTimerReached 64).wf = false ∧ (Instr.frameZeroing 25165824).wf = false ∧
    (Instr.cancelDrainComplete (2 ^ 24)).wf = false ∧ (Instr.galleySwap 16 0).wf = false ∧ (Instr.galleySwap 0 4).wf = false ∧
    (Instr.islandWake 16384).wf = false ∧ (Instr.registerWrite 64 0 32 0).wf = false ∧ (Instr.sesPark src0 0 4).wf = false ∧
    (Instr.ctlNop src0).wf = true := by decide

/-- The table gives no row any bits, so no word spells a command (log entry 2). -/
theorem test_no_word_spells_a_command : decodeTableWord 64 0x50232_14C0A900000 = none := by decide

/-! ### Cell items -/

/-- A cell that runs the search program's window, whose words are 3,584 to 4,095 (R433). -/
def cellA : Cell := { cell0 with run := .running, slice := 4, pc := 3584 }

/-- A device with one cell. -/
def one (c : Cell) : State := { State.reset with cells := [(0, c)] }

/-- The cell after an item. -/
def cellAfter (i : Instr) (c : Cell) (p : Cell → Bool) : Bool := ran i (one c) fun t => p (t.cell 0)

/-- s5 of a cell after an item that names s5 as its destination. -/
def s5 (i : Instr) (c : Cell) : Option Word :=
  match exec i (one c) with
  | .next t => some (sreg (t.cell 0) 5)
  | _ => none

/-- s1 = −3, s2 = 5. -/
def cellB : Cell := { cellA with s := [(1, 0xFFFFFFFFFFFFFFFD), (2, 5)] }

/-- sD = s5, sA = s1, sB = s2, IMM = −1. -/
def item5 : CellItem := { item0 with d := 5, a := 1, b := 2, imm := 0xFFFFF, w1 := 0xDEADBEEFCAFE }

theorem test_scalar_items_go : CellGo (one cellB) item5 1 := by
  refine ⟨by decide, by decide, by decide, by decide⟩

/-- sB + IMM is 4 (R241). -/
theorem test_scalar_items : s5 (.sadd item5) cellB = some 1 ∧ s5 (.ssub item5) cellB = some (BitVec.ofInt 64 (-7)) ∧
    s5 (.smul item5) cellB = some (BitVec.ofInt 64 (-12)) ∧ s5 (.sand item5) cellB = some 4 ∧
    s5 (.sor item5) cellB = some 0xFFFFFFFFFFFFFFFD ∧ s5 (.sxor item5) cellB = some 0xFFFFFFFFFFFFFFF9 ∧
    s5 (.shl item5) cellB = some 0xFFFFFFFFFFFFFFD0 ∧ s5 (.shr item5) cellB = some 0x0FFFFFFFFFFFFFFF ∧
    s5 (.sra item5) cellB = some 0xFFFFFFFFFFFFFFFF ∧ s5 (.li item5) cellB = some 0xDEADBEEFCAFE := by decide +kernel

/-- s0 discards a write (R238). -/
theorem test_scalar_s0 : cellAfter (.sadd { item5 with d := 0 }) cellB (fun c => decide (c = { cellB with pc := 3585 })) = true := by
  decide +kernel

/-- −3 is below 4 signed and above it unsigned. -/
theorem test_cmp_signed_unsigned : s5 (.cmp { item5 with t := 22, fn := 2 }) cellB = some 1 ∧
    s5 (.cmp { item5 with t := 23, fn := 2 }) cellB = some 0 ∧ s5 (.cmp { item5 with t := 16, fn := 5 }) cellB = some 0 ∧
    s5 (.cmp { item5 with t := 17, fn := 5 }) cellB = some 1 := by decide +kernel

/-- HANDLERS for code 2, 3, 4, 7, 8, 9 and 1. -/
def handlers : Word := BitVec.ofNat 64 (2 ^ 49 + 2 ^ 50 + 2 ^ 51 + 2 ^ 52 + 2 ^ 55 + 2 ^ 56 + 2 ^ 57)

def cellH : Cell := { cellB with status := handlers }

/-- Whether an item enters the vector of an exception. -/
def traps (i : Instr) (c : Cell) (code : Nat) : Bool :=
  cellAfter i c fun d => decide (d.pc = 3584 + code) && decide (d.epc = c.pc) && decide (bits d.status.toNat 32 6 = 32 + code)

theorem test_cmp_illegal : handled cellH 2 = true ∧ CellGo (one cellH) { item5 with fn := 6 } 0 ∧
    traps (.cmp { item5 with t := 16, fn := 6 }) cellH 2 = true ∧ traps (.cmp { item5 with t := 15 }) cellH 2 = true ∧
    traps (.cmp { item5 with t := 24 }) cellH 2 = true := by
  refine ⟨by decide +kernel, ⟨by decide, by decide, by decide, by decide +kernel⟩, by decide +kernel, by decide +kernel, by decide +kernel⟩
/-! ### Loads, stores and misplaced accesses -/

/-- s1 = 0x101; bytes 0x80 to 0x87 of memory at 0x100. -/
def cellM : Cell :=
  { cellA with s := [(1, 0x101), (2, 0x1122334455667788)],
               mem := [(0x100, 0x80), (0x101, 0x81), (0x102, 0x82), (0x103, 0x83), (0x104, 0x84), (0x105, 0x85), (0x106, 0x86), (0x107, 0x87)] }

theorem test_ld_st_meet : CellGo (one cellM) item5 0 ∧ CellReads (one cellM) cellM 0x100 8 8 ∧ CellWrites (one cellM) cellM 0x100 8 8 ∧
    CellReads (one cellM) cellM 0x3BFFF8 8 8 ∧ Memory.wf cellM.mem = true := by
  refine ⟨⟨?_, ?_, ?_, ?_⟩, ⟨?_, ?_, ?_, ?_, ?_⟩, ⟨?_, ?_, ?_⟩, ⟨?_, ?_, ?_, ?_, ?_⟩, ?_⟩ <;> decide +kernel

/-- Every integer type, signed and unsigned, at 0x100. -/
theorem test_ld : s5 (.ld { item5 with t := 16 }) cellM = some 0xFFFFFFFFFFFFFF80 ∧ s5 (.ld { item5 with t := 17 }) cellM = some 0x80 ∧
    s5 (.ld { item5 with t := 18 }) cellM = some 0xFFFFFFFFFFFF8180 ∧ s5 (.ld { item5 with t := 19 }) cellM = some 0x8180 ∧
    s5 (.ld { item5 with t := 20 }) cellM = some 0xFFFFFFFF83828180 ∧ s5 (.ld { item5 with t := 21 }) cellM = some 0x83828180 ∧
    s5 (.ld { item5 with t := 22 }) cellM = some 0x8786858483828180 ∧
    s5 (.ld { item5 with t := 23 }) cellM = some 0x8786858483828180 := by decide +kernel

theorem test_st : cellAfter (.st { item5 with t := 18 }) cellM (fun c => decide (rdLE c.mem 0x100 8 = 0x8786858483827788) && decide (c.s = cellM.s)) = true ∧
    cellAfter (.st { item5 with t := 23 }) cellM (fun c => decide (rdLE c.mem 0x100 8 = 0x1122334455667788)) = true := by decide +kernel

/-- Code 3 above 0x3C_0000, code 4 where misaligned below it. -/
def cellT (a : Word) : Cell := { cellH with s := [(1, a)] }
def item1 : CellItem := { item0 with d := 1, a := 1, b := 2, t := 20 }

theorem test_misplaced : CellGo (one (cellT 0x3BFFFE)) item1 0 ∧ handled (cellT 0) 3 = true ∧ handled (cellT 0) 4 = true ∧
    traps (.ld item1) (cellT 0x3BFFFE) 3 = true ∧ traps (.st item1) (cellT 0x3BFFFE) 3 = true ∧
    traps (.ld item1) (cellT 0x3BFFFA) 4 = true ∧ traps (.st item1) (cellT 0x3BFFFA) 4 = true ∧
    traps (.vld item1) (cellT 0x3BFF10) 3 = true ∧ traps (.vst item1) (cellT 0x3BFEF8) 4 = true ∧
    traps (.vld item1) (cellT 8) 4 = true ∧ traps (.vst item1) (cellT 0xFFFFFFFFFFFFFFF0) 3 = true ∧
    traps (.tld item1) (cellT 0x3BF010) 3 = true ∧ traps (.tst item1) (cellT 0x3BEF80) 4 = true ∧
    traps (.tld item1) (cellT 0x80) 4 = true ∧ traps (.tst item1) (cellT 0x3BF100) 3 = true := by
  refine ⟨⟨?_, ?_, ?_, ?_⟩, ?_⟩ <;> decide +kernel

/-! ### Branches, traps, special registers -/

/-- pc 3,600; s1 = −3, s2 = 5. -/
def cellP : Cell := { cellB with pc := 3600, epc := 3590, status := BitVec.ofNat 64 (9 * 2 ^ 32 + 2 ^ 37) }

/-- The pc after an item. -/
def pcAfter (i : Instr) (c : Cell) : Option Nat :=
  match exec i (one c) with
  | .next t => some (t.cell 0).pc
  | _ => none

theorem test_branches : CellGo (one cellP) item5 0 ∧ pcAfter (.br item5) cellP = some 3599 ∧ pcAfter (.call item5) cellP = some 3599 ∧
    s5 (.call item5) cellP = some 3601 ∧ pcAfter (.jr { item5 with a := 2 }) cellP = some 5 ∧ pcAfter (.eret item5) cellP = some 3591 ∧
    pcAfter (.eret item5) { cellP with status := BitVec.ofNat 64 (3 * 2 ^ 32 + 2 ^ 37) } = some 3590 ∧
    pcAfter (.bc { item5 with fn := 1 }) cellP = some 3599 ∧ pcAfter (.bc { item5 with fn := 0 }) cellP = some 3601 := by
  refine ⟨⟨?_, ?_, ?_, ?_⟩, ?_⟩ <;> decide +kernel

/-- s1 = 3 and s2 = 5 are ordered one way, signed or unsigned; FN 0 to 5 of bc. -/
theorem test_bc_meets : ((List.range 6).map fun fn =>
    (relates fn 3 5, pcAfter (.bc { item5 with fn }) { cellP with s := [(1, 3), (2, 5)] })) =
    [(false, some 3601), (true, some 3599), (true, some 3599), (false, some 3601), (true, some 3599), (false, some 3601)] := by
  decide +kernel

theorem test_traps : handled cellH 9 = true ∧ handled cellH 1 = true ∧ traps (.trap item5) cellH 9 = true ∧
    extOf 0xFF = none ∧ traps (.illegalInstruction item5 0xFF 0) cellH 1 = true ∧
    fetchOk (one { cellH with pc := 3583 }) { cellH with pc := 3583 } 0 = false ∧ handled { cellH with pc := 3583 } 3 = true ∧
    traps (.sadd item5) { cellH with pc := 3583 } 3 = true ∧ traps (.trap item5) { cellH with pc := 3583 } 3 = true ∧
    handled cellB 9 = false ∧
    cellAfter (.trap item5) cellB (fun c => decide (c.run = .stopped) && decide (c.epc = 3584) && decide (c.pc = 3584)) = true := by
  decide +kernel

def cellR : Cell := { cellB with part := 3, slice := 4, rank := 7, cells := 40, epc := 3590, status := 0xA5 }
def sr (n : BitVec 20) : CellItem := { item5 with imm := n }

theorem test_rdsr : s5 (.rdsr (sr 0)) cellR = some 0 ∧ s5 (.rdsr (sr 1)) cellR = some 0 ∧ s5 (.rdsr (sr 3)) cellR = some 3 ∧
    s5 (.rdsr (sr 4)) cellR = some 7 ∧ s5 (.rdsr (sr 5)) cellR = some 40 ∧ s5 (.rdsr (sr 10)) cellR = some 0xA5 ∧
    s5 (.rdsr (sr 11)) cellR = some 3590 ∧ s5 (.rdsr (sr 0x40)) cellR = some 0 := by decide +kernel

/-- −3 written to the status register sets RM, SAT and HANDLERS, and clears the flags. -/
theorem test_wrsr : CellGo (one cellR) (sr 10) 0 ∧ cellAfter (.wrsr (sr 10)) { cellR with status := 0x3F3FFF00 } (fun c =>
      decide (c.status = BitVec.ofNat 64 (5 + 2 ^ 49 + 2 ^ 50 + 2 ^ 51 + 2 ^ 52 + 2 ^ 54 + 2 ^ 55 + 2 ^ 56 + 2 ^ 57 + 0xC000))) = true ∧
    cellAfter (.wrsr (sr 11)) cellR (fun c => decide (c.epc = 4093)) = true ∧
    cellAfter (.wrsr (sr 0)) cellR (fun c => decide (c = { cellR with pc := 3585 })) = true := by
  refine ⟨⟨?_, ?_, ?_, ?_⟩, ?_⟩ <;> decide +kernel
/-! ### Step-program items -/

/-- A record of a galley: slot 0 of session 7. -/
def recA : Rec :=
  { slot := 0, contracted := false, prefill := false, void := false, index := 7, instar := 1, context := 0, customer := 0, pos := 20,
    new := 1, draft := 0, eprio := 0, kvRoot := 0x1111, recurRoot := 0x2222, drafts := [], deducted := 0, reserved := 0, newPages := [],
    logits := [], spoiled := false, sampled := [], recurWritten := false }

def galleyA : Galley :=
  { step := 5, model := 0, release := 0, deadline := 0, cCount := 0, positions := 1, recs := [{ recA with void := true }, recA], raw := [],
    done := [], missed := false }

def sliceA : Slice :=
  { built := none, running := none, prevRelease := 0, prevDone := 0, r0 := none, contract := none, building := false, loaded := false,
    nextStep := 0 }

/-- A cell of partition 0, slice 1, whose window is words 0 to 127, in a step of one record. -/
def cellG : Cell := { cell0 with run := .running, slice := 1, pc := 4, s := [(1, 1), (2, 2)] }
def stepping : State :=
  { withFlds State.reset [(GAL_SLICE_B_IS_SIZE 0 1, 1)] with
    cells := [(0, cellG)], gal := { State.reset.gal with slices := [(1, { sliceA with running := some galleyA })] } }

theorem test_gal_rec : CellGo stepping item5 0 ∧ (stepping.slice 1).running = some galleyA ∧
    fetchRec galleyA 1 = some (1, recWords recA) ∧ (recWords recA).length ≤ 4 ∧ fetchRec galleyA 2 = none ∧
    ran (.galRec item5) stepping (fun t => decide (sreg (t.cell 0) 5 = 1) &&
      decide ((List.range (recWords recA).length).map (fun k => sreg (t.cell 0) (6 + k)) = recWords recA)) = true ∧
    ran (.galRec { item5 with a := 0 }) stepping (fun t => decide (sreg (t.cell 0) 5 = 1)) = true ∧
    ran (.galRec { item5 with a := 2 }) stepping (fun t => decide (sreg (t.cell 0) 5 = 2)) = true := by
  refine ⟨⟨?_, ?_, ?_, ?_⟩, ?_⟩ <;> decide +kernel

theorem test_step_done : ran (.stepDone item5) stepping (fun t => decide ((t.cell 0).run = .idle) &&
    decide ((t.slice 1).running = some { galleyA with done := [0] })) = true := by decide +kernel

/-- A session at index 7 in sequence slot 0, with no draft. -/
def sesA : Session :=
  { sesInit 0 1 0 0 0 0 0 0 0 0 true 0xABC 0xFFFF 0 0 0 with state := .active, seqValid := true, seqSlot := 0, tokens := 20 }
def slotA : Slot :=
  { index := 7, prefill := false, contracted := false, draftEn := true, prio := 0, holdReason := 0, part := 0, slice := 1, model := 0,
    customer := 0, pos := 20, skipped := 0, draftReady := 0, lastStep := 0, contract := 0xFFF, draftBase := 0, draft := [] }
def drafting (e : Session) : State :=
  { stepping with ses := { stepping.ses with entries := [(7, e)] }, gal := { stepping.gal with slots := [(0, slotA)] },
                  cells := [(0, { cellG with s := [(1, handleOf stepping 7 sesA), (2, 20), (3, 2)], mem := [(0x40, 9), (0x44, 8)] })] }

theorem test_dft_write : CellGo (drafting sesA) { item5 with c := 3, w1 := 0x40 } 1 ∧ (drafting sesA).ses? 7 = some sesA ∧
    bits (handleOf stepping 7 sesA).toNat 48 16 = (drafting sesA).devAddr ∧ bits (handleOf stepping 7 sesA).toNat 24 24 = 7 ∧
    draftWrite slotA 20 20 [9, 8] = some { slotA with draftBase := 20, draft := [9, 8], draftReady := 2 } ∧
    ran (.dftWrite { item5 with c := 3, w1 := 0x40 }) (drafting sesA) (fun t => decide (sreg (t.cell 0) 5 = 0x20000) &&
      decide (mget t.gal.slots 0 = some { slotA with draftBase := 20, draft := [9, 8], draftReady := 2 }) &&
      decide ((t.cell 0).pc = 6)) = true ∧
    ran (.dftWrite { item5 with c := 3, w1 := 0x40 }) (drafting { sesA with seqValid := false })
      (fun t => decide (sreg (t.cell 0) 5 = 0x2004)) = true := by
  refine ⟨⟨?_, ?_, ?_, ?_⟩, ?_⟩ <;> decide +kernel

/-! ### Vector items -/

/-- v1 counts from 0, v2 is constant 3, v3 holds 7; p1 lets the even lanes act. -/
def cellV : Cell :=
  { cellA with s := [(1, 0x100000009)], p := [(1, 0x5555555555555555), (2, 0xF0F0)],
               v := [(1, (List.range 64).map (BitVec.ofNat 32 ·)), (2, List.replicate 64 3), (3, List.replicate 64 7)] }
def itemV : CellItem := { item0 with d := 3, a := 1, b := 2, p := 1 }
/-- Lanes 4 and 5 of v3 after an item. -/
def v45 (i : Instr) (c : Cell) : Option (BitVec 32 × BitVec 32) :=
  match exec i (one c) with
  | .next t => some (lane (t.cell 0) 3 4, lane (t.cell 0) 3 5)
  | _ => none

theorem test_vector_registers : CellGo (one cellV) itemV 0 ∧ v45 (.vbc itemV) cellV = some (9, 7) ∧ v45 (.vmov itemV) cellV = some (4, 7) ∧
    v45 (.vmov { itemV with pz := true }) cellV = some (4, 0) ∧ v45 (.vperm itemV) cellV = some (3, 7) ∧
    v45 (.vand itemV) cellV = some (0, 7) ∧ v45 (.vor { itemV with t := 21 }) cellV = some (7, 7) ∧ v45 (.vxor { itemV with t := 1 }) cellV = some (7, 7) ∧
    v45 (.vsel itemV) cellV = some (4, 3) := by
  refine ⟨⟨?_, ?_, ?_, ?_⟩, ?_⟩ <;> decide +kernel

/-- and, or, xor, and-not and not of two predicate registers. -/
theorem test_plog : (List.range 5).map (fun fn =>
      match exec (.plog { itemV with d := 7, a := 1, b := 2, fn }) (one cellV) with | .next t => preg (t.cell 0) 7 | _ => 0) =
    [0x5050, 0x555555555555F5F5, 0x555555555555A5A5, 0x5555555555550505, 0xAAAAAAAAAAAAAAAA] := by decide +kernel

/-- 1.5 and 2.25 in binary32, and packed in binary16 and bfloat16. -/
def cellF (a b : BitVec 32) : Cell := { cellV with v := [(1, List.replicate 64 a), (2, List.replicate 64 b), (3, List.replicate 64 7)] }

theorem test_vector_float : CellGo (one (cellF 0x3FC00000 0x40100000)) itemV 0 ∧
    v45 (.vadd itemV) (cellF 0x3FC00000 0x40100000) = some (0x40700000, 7) ∧
    v45 (.vsub itemV) (cellF 0x3FC00000 0x40100000) = some (0xBF400000, 7) ∧
    v45 (.vmul itemV) (cellF 0x3FC00000 0x40100000) = some (0x40580000, 7) ∧
    v45 (.vfma { itemV with c := 1 }) (cellF 0x3FC00000 0x40100000) = some (0x409C0000, 7) ∧
    v45 (.vmin itemV) (cellF 0x3FC00000 0x40100000) = some (0x3FC00000, 7) ∧
    v45 (.vmax itemV) (cellF 0x3FC00000 0x40100000) = some (0x40100000, 7) ∧
    v45 (.vadd { itemV with t := 1 }) (cellF 0x3E004080 0x40803E00) = some (0x43804380, 7) ∧
    v45 (.vmul { itemV with t := 2 }) (cellF 0x3FC04010 0x40104010) = some (0x405840A2, 7) := by
  refine ⟨⟨?_, ?_, ?_, ?_⟩, ?_⟩ <;> decide +kernel


/-- A NaN, the infinities, a zero and a negative value, as the statement on the defined functions takes them. -/
theorem test_special_inputs : decodeF fmt32 0x7FC00000 = .nan ∧ decodeF fmt16 0xFC00 = .inf true ∧ decodeF fmtBf 0x7F80 = .inf false ∧
    (match decodeF fmt32 0xBF800000 with | .fin true m _ => decide (m ≠ 0) | _ => false) = true ∧
    (match decodeF fmt32 0x80000000 with | .fin true m _ => decide (m = 0) | _ => false) = true ∧
    fRcp fmt32 rne 0x80000000 = (0xFF800000, fDIVZERO) ∧ fRsqrt fmt16 rne 0xBC00 = (nanBits fmt16, fINVALID) ∧
    fExp2 fmtBf rne 0x8000 = (0x3F80, 0) := by decide +kernel

/-- 8-bit lanes wrap: 200 + 100 as u8, and as s8; a shift count is taken modulo 32. -/
theorem test_vector_integer : v45 (.vadd { itemV with t := 17 }) (cellF 200 100) = some (44, 7) ∧
    v45 (.vadd { itemV with t := 16 }) (cellF 100 100) = some (0xFFFFFFC8, 7) ∧
    v45 (.vsub { itemV with t := 19 }) (cellF 0 1) = some (0xFFFF, 7) ∧ v45 (.vmul { itemV with t := 20 }) (cellF 0x10000 0x10000) = some (0, 7) ∧
    v45 (.vmin { itemV with t := 16 }) (cellF 0x80 1) = some (0xFFFFFF80, 7) ∧ v45 (.vmax { itemV with t := 17 }) (cellF 0x80 1) = some (0x80, 7) ∧
    v45 (.vshl { itemV with t := 21 }) (cellF 1 33) = some (2, 7) ∧ v45 (.vshr { itemV with t := 20 }) (cellF 0x80000000 4) = some (0xF8000000, 7) := by
  decide +kernel

theorem test_vector_illegal : traps (.vadd { itemV with t := 22 }) { cellV with status := handlers } 2 = true ∧
    traps (.vand { itemV with t := 3 }) { cellV with status := handlers } 2 = true ∧
    traps (.vshl { itemV with t := 15 }) { cellV with status := handlers } 2 = true ∧
    traps (.vfma { itemV with t := 20 }) { cellV with status := handlers } 2 = true ∧
    traps (.vexp2 { itemV with t := 3 }) { cellV with status := handlers } 2 = true := by decide +kernel

/-- 64 ones sum to 64; the maximum of lanes 0 to 63 read as subnormals is lane 62 of the active ones; a NaN; no active lane. -/
theorem test_reductions : s5 (.vredAdd { itemV with d := 5, p := 0 }) (cellF 0x3F800000 0) = some 0x80000000 := by decide +kernel
theorem test_reductions_add : s5 (.vredAdd { itemV with d := 5 }) (cellF 0x3F800000 0) = some 0x42000000 := by decide +kernel
theorem test_reductions_max : s5 (.vredMax { itemV with d := 5 }) cellV = some 62 ∧ s5 (.vredMax { itemV with d := 5, p := 0 }) cellV = some 0xFF800000 ∧
    s5 (.vredMax { itemV with d := 5 }) (cellF 0x7F800001 0) = some 0x7FC00000 := by decide +kernel

/-- Worked values of R219. -/
theorem test_vrcp_vrsqrt : v45 (.vrcp itemV) (cellF 0x40400000 0) = some (0x3EAAAAAB, 7) ∧
    v45 (.vrsqrt itemV) (cellF 0x40000000 0) = some (0x3F3504F3, 7) := by decide +kernel
theorem test_vexp2_range : (fExp2 fmt32 rne 0xC3150000).1 = 1 ∧ fExp2 fmt32 rne 0xC3160000 = (0, fUNDERFLOW ||| fINEXACT) ∧
    (fExp2 fmt32 rne 0x43000000).1 = 0x7F800000 ∧ (fExp2 fmt32 ⟨0, true⟩ 0x43000000).1 = 0x7F7FFFFF := by decide +kernel
set_option maxRecDepth 100000 in
theorem test_vexp2_half : (fExp2 fmt32 rne 0x3F000000).1 = 0x3FB504F3 := by decide +kernel
/-! ### Conversions, comparisons, vector memory, tiles -/

/-- 2.5 to s8 is 2 under RNE; 300 to u8 is 255; NaN to an integer is 0; integer 5 to binary32. -/
theorem test_vcvt : cvtOk 16 0 = true ∧ cvtOk 17 0 = true ∧ (toIntF fmt32 rne 8 true 0x40200000).1 = 2 ∧
    toIntF fmt32 rne 8 false 0x43960000 = (255, fINVALID) ∧ toIntF fmt32 rne 32 true 0x7FC00000 = (0, fINVALID) ∧
    toIntF fmt32 rne 16 true 0xFF800000 = (0x8000, fINVALID) ∧
    (match decodeF fmt32 0x43960000 with | .fin _ m e => decide (0 ≤ e) || decide (m ≠ 0) | _ => false) = true := by decide +kernel

/-- 2^24 and above have a whole significand: at the upper limit of u32, and one above. -/
theorem test_vcvt_limits : toIntF fmt32 rne 32 false 0x4F7FFFFF = (0xFFFFFF00, 0) ∧ toIntF fmt32 rne 32 false 0x4F800000 = (0xFFFFFFFF, fINVALID) ∧
    toIntF fmt32 rne 32 true 0xCF000000 = (0x80000000, 0) ∧ toIntF fmt32 rne 32 true 0xCF000001 = (0x80000000, fINVALID) ∧
    (match decodeF fmt32 0x4F7FFFFF with | .fin false _ e => decide (0 ≤ e) | _ => false) = true := by decide +kernel

theorem test_vcmp : CellGo (one cellV) { itemV with t := 20, fn := 3, d := 4 } 0 ∧
    cmpLane 16 2 0x80 1 = (true, true, 0) ∧ cmpLane 17 2 0x80 1 = (false, false, 0) ∧ (cmpLane 0 1 0x7FC00000 0).1 = true ∧
    (cmpLane 0 0 0x7FC00000 0x7FC00000).1 = false ∧ decodeF fmt32 0x7FC00000 = .nan := by
  refine ⟨⟨?_, ?_, ?_, ?_⟩, ?_⟩ <;> decide +kernel

/-- s1 = 0x100; memory of lanes 0 and 1 there; v1 holds the addresses 0x200 (lanes 0 to 3) and 0x204. -/
def cellL : Cell :=
  { cellV with s := [(1, 0x100)], mem := [(0x100, 0x11), (0x104, 0x22), (0x200, 0x33), (0x204, 0x44), (0x300, 0x55)],
               v := [(1, List.replicate 4 0x200 ++ List.replicate 60 0x204), (2, (List.range 64).map fun k => BitVec.ofNat 32 (k + 1)), (3, List.replicate 64 7)] }

theorem test_vld_vst_meet : CellGo (one cellL) itemV 0 ∧ CellReads (one cellL) cellL 0x100 256 16 ∧ CellWrites (one cellL) cellL 0x100 256 16 ∧
    CellReads (one cellL) cellL 0x3BFF00 256 16 ∧ Memory.wf cellL.mem = true := by
  refine ⟨⟨?_, ?_, ?_, ?_⟩, ⟨?_, ?_, ?_, ?_, ?_⟩, ⟨?_, ?_, ?_⟩, ⟨?_, ?_, ?_, ?_, ?_⟩, ?_⟩ <;> decide +kernel

/-- Each active lane's word is readable and writable. -/
theorem test_vgth_vsct_meet : (∀ k, k < 64 → CellReads (one cellL) cellL (lane cellL 1 k).toNat 4 4 ∧ CellWrites (one cellL) cellL (lane cellL 1 k).toNat 4 4) ∧
    bits cellL.status.toNat 38 6 = 0 := by
  refine ⟨fun k hk => ?_, by decide +kernel⟩
  have h : lane cellL 1 k = 0x200 ∨ lane cellL 1 k = 0x204 := by
    revert k; decide +kernel
  rcases h with h | h <;> rw [h] <;> exact ⟨⟨by decide, by decide, by decide +kernel, by decide +kernel, by decide +kernel⟩, ⟨by decide, by decide, by decide +kernel⟩⟩

theorem test_vld_vgth : cellAfter (.vld itemV) cellL (fun c => decide (lane c 3 0 = 0x11) && decide (lane c 3 1 = 7) && decide (lane c 3 2 = 0)) = true ∧
    cellAfter (.vgth itemV) cellL (fun c => decide (lane c 3 0 = 0x33) && decide (lane c 3 1 = 7) && decide (lane c 3 4 = 0x44)) = true := by decide +kernel

/-- Of the active lanes 0 and 2 that store at 0x200 the higher stands, 4 to 62 store at 0x204; other bytes stay. -/
theorem test_vst_vsct : cellAfter (.vst itemV) cellL (fun c => decide (rdLE c.mem 0x100 4 = 1) && decide (rdLE c.mem 0x104 4 = 0x22) && decide (rdLE c.mem 0x108 4 = 3)) = true ∧
    cellAfter (.vsct itemV) cellL (fun c => decide (rdLE c.mem 0x200 4 = 3) && decide (rdLE c.mem 0x204 4 = 63) && decide (rdLE c.mem 0x300 4 = 0x55)) = true := by decide +kernel

/-- Tile 7 of the cell holds 1.0 everywhere; s1 = 0x1000. -/
def cellW : Cell := { cellH with s := [(1, 0x1000), (2, 0x8000), (3, 1), (4, 0x9000)], t := [(7, List.replicate 1024 0x3F800000)], mem := [(0x1004, 0x40)] }
def item7 : CellItem := { item0 with d := 7, a := 1, b := 2, c := 3 }

theorem test_tiles_meet : CellGo (one cellW) item7 0 ∧ CellReads (one cellW) cellW 0x1000 4096 256 ∧ CellWrites (one cellW) cellW 0x1000 4096 256 ∧
    Memory.wf cellW.mem = true ∧ (treg cellW 7).length = 1024 ∧ handled cellW 2 = true := by
  refine ⟨⟨?_, ?_, ?_, ?_⟩, ⟨?_, ?_, ?_, ?_, ?_⟩, ⟨?_, ?_, ?_⟩, ?_⟩ <;> decide +kernel

theorem test_tiles : cellAfter (.tzero item7) cellW (fun c => decide ((treg c 7).length = 1024) && decide ((treg c 7).getD 1023 1 = 0)) = true ∧
    cellAfter (.tld item7) cellW (fun c => decide ((treg c 7).getD 1 0 = 0x40) && decide ((treg c 7).getD 0 1 = 0)) = true ∧
    cellAfter (.tzero { item7 with d := 8 }) cellW (fun c => decide (bits c.status.toNat 32 5 = 2)) = true := by decide +kernel
/-! ### tmma, tmx and the wide accumulators -/

/-- bfloat16 times bfloat16, one block of 32: A at 0x1000 (1.0 in the first place of row 0), B at 0x8000. -/
def cellX : Cell :=
  { cellW with t := [(7, List.replicate 1024 0x3F800000)],
               mem := [(0x1000, 0x80), (0x1001, 0x3F), (0x8000, 0x40), (0x8001, 0x40), (0x8040, 0xC0), (0x8041, 0x3F)] }
def itemX : CellItem := { item7 with t := 2, fn := 2 }

theorem test_tmma_meets : CellGo (one cellX) itemX 1 ∧ tmmaPair 2 2 = true ∧ CellReads (one cellX) cellX 0x1000 (16 * blockBytes 2) 16 ∧
    CellReads (one cellX) cellX 0x8000 (64 * blockBytes 2) 16 ∧ hasScales 2 = false ∧ tmmaPair 0 0 = false ∧ hasScales 3 = true ∧ tmmaPair 3 3 = true := by
  refine ⟨⟨?_, ?_, ?_, ?_⟩, ?_, ⟨?_, ?_, ?_, ?_, ?_⟩, ⟨?_, ?_, ?_, ?_, ?_⟩, ?_⟩ <;> decide +kernel

set_option maxRecDepth 100000 in
/-- [0][0] = 1 + 1 × 3, [0][1] = 1 + 1 × 1.5, all others 1. -/
theorem test_tmma : cellAfter (.tmma itemX) cellX (fun c => decide ((treg c 7).getD 0 0 = 0x40800000) && decide ((treg c 7).getD 1 0 = 0x40200000) &&
    decide ((treg c 7).getD 2 0 = 0x3F800000) && decide ((treg c 7).getD 64 0 = 0x3F800000)) = true := by decide +kernel
/-- tmx to E4M3 (type 3): 1 KiB at s1, 32 scales at s4; a block of ones has scale 127 and elements 1.0. -/
theorem test_tmx : CellWrites (one cellW) cellW 0x1000 (32 * blockBytes 3) 16 ∧ CellWrites (one cellW) cellW 0x9000 32 1 := by
  refine ⟨⟨by decide, by decide, by decide +kernel⟩, ⟨by decide, by decide, by decide +kernel⟩⟩
set_option maxRecDepth 100000 in
theorem test_quant_ones : (quantBlock 3 (List.replicate 32 0x3F800000)).1 = 119 ∧
    (quantBlock 3 (List.replicate 32 0x3F800000)).2.1 = List.replicate 32 0x78 := by decide +kernel

theorem test_quant : quantBlock 9 (0x7FC00000 :: List.replicate 31 0) = (0xFF, List.replicate 32 0, fINVALID) ∧
    quantBlock 4 (List.replicate 32 0) = (0, List.replicate 32 0, 0) ∧ decodeF fmt32 0x7FC00000 = .nan := by decide +kernel

/-- w2 with B = 8: lanes 0 hold 1.5 × 2^8; v1 lane 0 is 2.0, v2 3.0. -/
def cellZ : Cell :=
  { cellV with v := [(1, List.replicate 64 0x40000000), (2, List.replicate 64 0x40400000)], w := [(2, ⟨List.replicate 64 0x180, 8⟩)] }
def itemZ : CellItem := { item0 with d := 2, a := 1, b := 2, imm := 0x1FF }

theorem test_wide : CellGo (one cellZ) itemZ 0 ∧
    cellAfter (.wclr itemZ) cellZ (fun c => decide ((wreg c 2).b = -1) && decide ((wreg c 2).lanes.getD 5 1 = 0)) = true ∧
    cellAfter (.waddF32 itemZ) cellZ (fun c => decide ((wreg c 2).lanes.getD 5 0 = 0x380)) = true ∧
    cellAfter (.wmacF32 itemZ) cellZ (fun c => decide ((wreg c 2).lanes.getD 5 0 = 0x780) && decide ((wreg c 2).b = 8)) = true ∧
    traps (.waddF32 { itemZ with d := 4 }) { cellZ with status := handlers } 2 = true := by
  refine ⟨⟨?_, ?_, ?_, ?_⟩, ?_⟩ <;> decide +kernel

/-- An addend of 2^175 units and more is an overflow. -/
theorem test_grid : gridAddend 0 (.fin false (2 ^ 175) 0) = (0, 8) ∧ gridAddend 0 (.fin true (2 ^ 175 - 1) 0) = (-(2 ^ 175 - 1), 0) ∧
    gridAddend 1 (.fin true 3 (-1)) = (-3, 0) := by decide +kernel

/-- Two additions in either order. -/
theorem test_wide_orders : let p : List (Machine.Num × Nat) := [(.fin false 3 0, 0), (.inf true, 0x3000)]
    let q : List (Machine.Num × Nat) := [(.nan, 0)]
    wreg (wideAdd (wideAdd cellZ 2 p) 2 q) 2 = wreg (wideAdd (wideAdd cellZ 2 q) 2 p) 2 ∧
      (wideAdd (wideAdd cellZ 2 p) 2 q).status = (wideAdd (wideAdd cellZ 2 q) 2 p).status := by decide +kernel

theorem test_wcvt : wcvtLane fmt32 rne 1 8 5 = (nanBits fmt32, 0) ∧ wcvtLane fmt32 rne 6 8 5 = (nanBits fmt32, 0) ∧
    wcvtLane fmt16 ⟨0, true⟩ 8 8 5 = (maxBits fmt16 false, fOVERFLOW ||| fINEXACT) ∧ wcvtLane fmt32 rne 0 8 0x180 = (0x3FC00000, 0) := by decide +kernel
theorem test_wcvt_limits : (wcvtLane fmt32 rne 0 0 (BitVec.ofNat 192 (2 ^ 175))) = (infBits fmt32 false, fOVERFLOW ||| fINEXACT) ∧
    (wcvtLane fmt32 rne 0 0 (BitVec.ofInt 192 (-(2 ^ 175)))).1 = 0xFF800000 ∧ (wcvtLane fmt32 rne 0 100 (BitVec.ofInt 192 (-(2 ^ 175)))).1 = 0xE5000000 := by decide +kernel

/-- A record in receive slot 0 with the accumulator's binary point, and one with another. -/
theorem test_wmrg_meets : CellGo (one cellZ) { itemZ with imm := 0 } 0 ∧ mget cellZ.recv 0 = none ∧ (recordOf (rdBytes cellZ.mem (recvAddr 0) 1544)).1 = 0 ∧
    (wreg cellZ 2).b = 8 ∧ (wreg cellZ 3).b = 0 := by
  refine ⟨⟨?_, ?_, ?_, ?_⟩, ?_⟩ <;> decide +kernel
theorem test_wmrg : cellAfter (.wmrg { itemZ with imm := 0 }) cellZ (fun c => decide (c.status.toNat.testBit 24 = true) && decide (c.status.toNat.testBit 8 = true)) = true ∧
    cellAfter (.wmrg { itemZ with imm := 0, d := 3 }) { cellZ with mem := [(recvAddr 0 + 8, 5)] } (fun c => decide (c.w.length = 2)) = true := by decide +kernel
/-! ### DMA and lgt.send -/

/-- A model image whose pages hold 16 positions of 64 values per head group. -/
def modelA : Model :=
  { wformat := 0, aformat := 0, recur := false, moe := false, quires := 1, params := 0, vocabId := 0, f := 0, a := 0, kb := 0, xb := 0,
    rb := 0, mtok := 0, wres := 0, wtotal := 0, layers := 1, attnLayers := 1, recurLayers := 0, experts := 0, program := 0,
    imageBytes := 4096, digest := [], source := 1, addr := 0x2000, kvFmt := 2, merge := 0, log2ppp := 4, kvHeads := 4, groupHeads := 2,
    headDim := 64, qPerKv := 1, scaleC := 0, ctxMax := 1024, exactB := 0, exactBl := 0, recurHalf := 0, code := [], bindings := 0 }

/-- s1 a remote address in the model's image, s2 = LOCAL, s3 = COUNT. -/
def cellD (a l n : Word) : Cell := { cellH with s := [(1, a), (2, l), (3, n)] }
def itemD (w1 : Word) : CellItem := { item0 with d := 15, a := 1, b := 2, c := 3, w1 }
def dma (c : Cell) : State := { one c with gal := { State.reset.gal with models := [(0, modelA)] } }
/-- Descriptor 15 after an item. -/
def d15 (i : Instr) (c : Cell) : Option Desc :=
  match exec i (dma c) with
  | .next t => some (descOf (t.cell 0) 15)
  | _ => none
def dmaTraps (i : Instr) (c : Cell) (code : Nat) : Bool := ran i (dma c) fun t =>
  decide (t.cell 0 = { c with status := putField (putField c.status 32 5 code) 37 1 1, epc := c.pc, pc := 3584 + code })

/-- The last byte of LOCAL, and one beyond it. -/
theorem test_dma_meets : CellGo (dma (cellD 0x2000 0x3FFF00 0x100)) (itemD 0) 0 ∧ (descOf (cellD 0 0 0) 15).active = false ∧
    d15 (.dmaIn (itemD 0)) (cellD 0x2000 0x3FFF00 0x100) = some { desc0 with op := 1, remote := 0x2000, local_ := 0x3FFF00, count := 0x100, active := true } ∧
    d15 (.dmaOut (itemD 0)) (cellD 0x2000 0x3FFF00 0) = some { desc0 with op := 2, remote := 0x2000, local_ := 0x3FFF00, count := 0, active := false } ∧
    d15 (.dmaWsend (itemD 0)) (cellD 0x2000 0x3FFF00 0x100000001) = some { desc0 with op := 7, remote := 0x2000, local_ := 0x3FFF00, count := 1, active := true } ∧
    dmaTraps (.dmaIn (itemD 0)) (cellD 0x2000 0x3FFF00 0x101) 2 = true ∧ dmaTraps (.dmaOut (itemD 0)) (cellD 0x2000 0x3FFF00 0x101) 2 = true := by
  refine ⟨⟨?_, ?_, ?_, ?_⟩, ?_⟩ <;> decide +kernel

/-- ELEM_UNITS 64 with a stride of 16 bytes, the index list at 0x40; ELEM_UNITS 65 and a stride of 8 are illegal. -/
theorem test_dma_indexed : CellGo (dma (cellD 0x2000 0 4)) (itemD 0x0000001010000040) 1 ∧ bits 0x0000001010000040 22 8 = 64 ∧
    d15 (.dmaGth (itemD 0x0000001010000040)) (cellD 0x2000 0 4) =
      some { desc0 with op := 3, remote := 0x2000, count := 4, active := true, indexAddr := 0x40, elemUnits := 64, stride := 16 } ∧
    d15 (.dmaSct (itemD 0x0000001000400040)) (cellD 0x2000 0 4) =
      some { desc0 with op := 4, remote := 0x2000, count := 4, active := true, indexAddr := 0x40, elemUnits := 1, stride := 16 } ∧
    dmaTraps (.dmaGth (itemD 0x0000001010400040)) (cellD 0x2000 0 4) 2 = true ∧
    dmaTraps (.dmaSct (itemD 0x0000000810000040)) (cellD 0x2000 0 4) 2 = true := by
  refine ⟨⟨?_, ?_, ?_, ?_⟩, ?_⟩ <;> decide +kernel

/-- A walk of whole pages into the last 16 KiB, of keys with a model's geometry, of addresses; an append of one head of the group. -/
theorem test_dma_walk_app : bits 0x0000000100000000 32 16 ≠ 0 ∧ (0x3FC000 : Nat) + 1 * 16384 = 2 ^ 22 ∧
    d15 (.dmaWalk (itemD 0x0000000100000000)) (cellD 0x2000 0x3FC000 1) =
      some { desc0 with op := 5, remote := 0x2000, local_ := 0x3FC000, count := 1, active := true, word4 := 0x0000000100000000 } ∧
    cellModel (dma (cellD 0 0 0)) (cellD 0 0 0) = some modelA ∧
    (d15 (.dmaWalk (itemD 0x0001000100000000)) (cellD 0x2000 0 1)).map (·.op) = some 5 ∧
    (d15 (.dmaWalk (itemD 0x0003000100000000)) (cellD 0x2000 0x3FFFF8 1)).map (·.op) = some 5 ∧
    (d15 (.dmaApp (itemD 0x0101000100000000)) (cellD 0x2000 0 512)).map (·.op) = some 6 ∧
    dmaTraps (.dmaApp (itemD 0x0201000100000000)) (cellD 0x2000 0 512) 2 = true := by decide +kernel

/-- Descriptor 15 in three states. -/
def cellE (d : Desc) : Cell := { cellD 0x2000 0 4 with desc := [(15, d)] }
def dActive : Desc := { desc0 with op := 1, active := true, remote := 0x2000, local_ := 0x100, count := 4 }
def dStopped (st : Nat) : Desc := { dActive with active := false, faulted := true, status := st, done := 2, faultAddr := 0x2002 }

theorem test_dma_wait : ran (.dmaWait (itemD 0)) (dma (cellE dActive)) (fun t => decide (t.cell 0 = cellE dActive)) = true ∧
    ran (.dmaOut (itemD 0)) (dma (cellE dActive)) (fun t => decide (t.cell 0 = cellE dActive)) = true ∧
    ran (.dmaWait (itemD 0)) (dma (cellE desc0)) (fun t => decide (t.cell 0 = { cellE desc0 with pc := 3585 })) = true ∧
    dmaTraps (.dmaWait (itemD 0)) { cellE (dStopped 0x5023) with status := BitVec.ofNat 64 (2 ^ 54) } 6 = true ∧
    dmaTraps (.dmaWait (itemD 0)) { cellE (dStopped 0x5024) with status := BitVec.ofNat 64 (2 ^ 56) } 8 = true ∧
    d15 (.dmaRst (itemD 0)) (cellE (dStopped 0x5023)) = some { dActive with done := 2, faultAddr := 0x2002 } ∧
    dmaTraps (.dmaRst (itemD 0)) (cellE dActive) 2 = true ∧
    (d15 (.dmaTimeout 0 15) (cellE dActive)).map (fun d => (d.active, d.faulted, d.status)) = some (false, true, 0x5024) := by decide +kernel

/-- dma.in of 4 bytes of the model's image in local HBM to cell memory at 0x100, clean and inside the window. -/
def dmaHbm (d : Desc) : State := { dma (cellE d) with hbm := [(0x2000, 0xA1), (0x2003, 0xA4)] }

theorem test_dma_done_meets : inWindows (dmaHbm dActive) (cellE dActive) 0x2000 4 = true ∧ hbmPoisoned (dmaHbm dActive) 0x2000 4 = false ∧
    (∀ i, i < 4 → dActive.remote + BitVec.ofNat 64 i = BitVec.ofNat 64 (0x2000 + i)) ∧ Memory.wf (cellE dActive).mem = true := by
  refine ⟨by decide +kernel, by decide +kernel, by decide, by decide +kernel⟩
theorem test_dma_done : ran (.dmaDescriptorDone 0 15) (dmaHbm dActive) (fun t => decide (descOf (t.cell 0) 15 = { dActive with active := false, done := 4 }) &&
    decide (rdLE (t.cell 0).mem 0x100 4 = 0xA40000A1) && decide ((t.cell 0).pc = 3584)) = true ∧
    ran (.dmaDescriptorDone 0 15) (dmaHbm { dActive with done := 3 }) (fun t => decide (rdLE (t.cell 0).mem 0x100 4 = 0xA4000000)) = true := by
  decide +kernel

/-- The same from another device, on which the fabric reports a fault at byte 2. -/
def dRemote : Desc := { dActive with remote := 0x2000000000002000 }
theorem test_dma_fault_meets : ∀ i, i < 4 → spaceOf (dRemote.remote + BitVec.ofNat 64 i) = 2 ∧
    addrOk (dRemote.remote + BitVec.ofNat 64 i) false = true := by decide
theorem test_dma_fault : ran (.dmaElementFault 0 15 2 0x5023) (dmaHbm dRemote) (fun t =>
    let f := descOf (t.cell 0) 15
    decide ((f.active, f.faulted, f.status) = (false, true, 0x5023)) && decide (f.faultAddr = dRemote.remote + BitVec.ofNat 64 f.done)) = true := by
  decide +kernel

theorem test_lgt_send : CellGo (dma (cellD 0x100 2 0x12)) (itemD 0x0000000000070003) 1 ∧
    CellReads (dma (cellD 0x100 2 0x12)) (cellD 0x100 2 0x12) 0x100 8 16 ∧
    ran (.lgtSend (itemD 0x0000000000070003)) (dma { cellD 0x100 2 0x12 with mem := [(0x104, 0x55)] }) (fun t =>
      decide (t.gal.logitsSent = [(4, 3, 7, 0x12, [0, 0x55])]) && decide ((t.cell 0).pc = 3586)) = true ∧
    dmaTraps (.lgtSend (itemD 0)) (cellD 0x100 0 0) 2 = true ∧ dmaTraps (.lgtSend (itemD 0)) (cellD 0x100 65537 0) 2 = true := by
  refine ⟨⟨?_, ?_, ?_, ?_⟩, ⟨?_, ?_, ?_, ?_, ?_⟩, ?_⟩ <;> decide +kernel
/-! ### Synchronisation -/

/-- Object 16,383 of a kind with VALUE, owned by slice 4 of partition 0, where cell 0 runs; s1 is its reference, s2 the operand. -/
def refA : Word := BitVec.ofNat 64 (16383 + 5 * 2 ^ 14)
def objects (kind ownerKind owner value : Nat) (s : State) : State :=
  withFlds s [(SYN_OBJ_A_KIND 16383, kind), (SYN_OBJ_A_INSTAR 16383, 5), (SYN_OBJ_A_OWNER_KIND 16383, ownerKind),
    (SYN_OBJ_A_OWNER 16383, owner), (SYN_OBJ_B_VALUE 16383, value)]
def syncing (kind value : Nat) (v : Word) : State :=
  objects kind 1 4 value (one { cellA with s := [(1, refA), (2, v)], status := handlers })
def held (s : State) : State := s.setFld (SYN_OBJ_A_HELD 16383) 1
/-- VALUE and s5 after an item of the cell. -/
def vs5 (i : SyncUse → Instr) (s : State) : Option (Nat × Word) :=
  match exec (i (.cell item5)) s with
  | .next t => some (t.fld (SYN_OBJ_B_VALUE 16383), sreg (t.cell 0) 5)
  | _ => none

theorem canonical_syncing : Canonical (syncing 3 (2 + 1 * 2 ^ 24 + 65535 * 2 ^ 48) 0) := canonical_of_canon (by decide +kernel)
theorem test_sync_cell_meets : CellGo (syncing 4 0 0) item5 0 ∧ (syncing 4 0 0).fld (SYN_OBJ_A_KIND 16383) = 4 ∧
    refA.toNat = 16383 + (syncing 4 0 0).fld (SYN_OBJ_A_INSTAR 16383) * 2 ^ 14 ∧ (syncing 4 0 0).fld (SYN_OBJ_A_OWNER_KIND 16383) = 1 ∧
    (syncing 4 0 0).fld (SYN_OBJ_A_OWNER 16383) = 4 ∧ (mget (syncing 4 0 0).waiters 16383).getD [] = [] ∧ cellInstar (syncing 4 0 0) 0 < 2 ^ 24 ∧
    (held (syncing 4 0 0)).flag (SYN_OBJ_A_HELD 16383) = true := by
  refine ⟨⟨?_, ?_, ?_, ?_⟩, ?_⟩ <;> decide +kernel

/-- A sum wraps; a semaphore at 1 and at 2^64 − 2; the last arrival at a barrier of 2 takes the generation from 65,535 to 0. -/
theorem test_sync_cell : vs5 .ctrRd (syncing 3 7 0) = some (7, 7) ∧ vs5 .syncRd (syncing 2 7 0) = some (7, 7) ∧
    vs5 .ctrAdd (syncing 1 (2 ^ 64 - 1) 3) = some (2, 0xFFFFFFFFFFFFFFFF) ∧ vs5 .ctrWait (syncing 1 9 9) = some (9, 9) ∧
    vs5 .semTake (syncing 2 1 0) = some (0, 0) ∧ vs5 .semGive (syncing 2 (2 ^ 64 - 2) 0) = some (2 ^ 64 - 1, 0xFFFFFFFFFFFFFFFF) ∧
    vs5 .barArv (syncing 3 (2 + 1 * 2 ^ 24 + 65535 * 2 ^ 48) 0) = some (2, 65535) ∧
    vs5 .barArv (syncing 3 (2 + 4 * 2 ^ 48) 0) = some (2 + 2 ^ 24 + 4 * 2 ^ 48, 4) ∧
    vs5 .barWait (syncing 3 (2 + 4 * 2 ^ 48) 3) = some (2 + 4 * 2 ^ 48, 4) := by decide +kernel
theorem test_sync_faults : ran (.semGive (.cell item5)) (syncing 2 (2 ^ 64 - 1) 0) (fun t => decide (bits (t.cell 0).status.toNat 32 5 = 7) &&
      decide (t.fld (SYN_OBJ_B_VALUE 16383) = 2 ^ 64 - 1)) = true ∧
    ran (.qnRel (.cell item5)) (held (syncing 4 9 0)) (fun t => decide (bits (t.cell 0).status.toNat 32 5 = 7)) = true := by decide +kernel

/-- The holder of a cell is its number and the cell's instar. -/
def holder0 : Nat := cellInstar (syncing 4 0 0) 0 * 2 ^ 16
theorem test_quoin_cell : vs5 .qnAcq (syncing 4 0 0) = some (holder0, 1) ∧ vs5 .qnTry (syncing 4 0 0) = some (holder0, 1) ∧
    vs5 .qnTry ((syncing 4 0 0).setFld (SYN_OBJ_A_BROKEN 16383) 1) = some (holder0, 2) ∧ vs5 .qnTry (held (syncing 4 9 0)) = some (9, 0) ∧
    vs5 .qnRel (held (syncing 4 holder0 0)) = some (0, 0) := by decide +kernel

/-- Object 16,383 owned by context 63; an item of its queue 15. -/
def src63 : Src := ⟨63, 15, 9⟩
def syncQ (kind value : Nat) : State := objects kind 0 63 value up
/-- VALUE after an item, its completion's status and result, and whether it is the only thing that happened. -/
def qres (i : SyncUse → Instr) (v : Word) (s : State) (op : Nat) (result : Word) : Option Nat :=
  match exec (i (.item src63 refA v)) s with
  | .next t => let u := (s.setFld (SYN_OBJ_B_VALUE 16383) (t.fld (SYN_OBJ_B_VALUE 16383)))
    let u := u.setFld (SYN_OBJ_A_HELD 16383) (t.fld (SYN_OBJ_A_HELD 16383))
    if t = complete u src63 op 0 result 0 0 then some (t.fld (SYN_OBJ_B_VALUE 16383)) else none
  | _ => none

theorem canonical_syncQ : Canonical (syncQ 4 0) := canonical_of_canon (by decide +kernel)
theorem test_sync_queue_meets : ItemGo (syncQ 1 0) src63 ∧ (syncQ 1 0).fld (SYN_OBJ_A_OWNER_KIND 16383) = 0 ∧
    (syncQ 1 0).fld (SYN_OBJ_A_OWNER 16383) = 63 ∧ refA.toNat = 16383 + (syncQ 1 0).fld (SYN_OBJ_A_INSTAR 16383) * 2 ^ 14 := by
  refine ⟨⟨?_, ?_⟩, ?_⟩ <;> decide +kernel
theorem test_sync_queue : qres .ctrRd 0 (syncQ 2 7) 0xB0 7 = some 7 ∧ qres .syncRd 0 (syncQ 4 7) 0xBA 7 = some 7 ∧
    qres .ctrAdd 3 (syncQ 1 (2 ^ 64 - 1)) 0xB1 0xFFFFFFFFFFFFFFFF = some 2 ∧ qres .ctrWait 9 (syncQ 1 9) 0xB2 9 = some 9 ∧
    qres .semTake 0 (syncQ 2 1) 0xB3 0 = some 0 ∧ qres .semGive 0 (syncQ 2 (2 ^ 64 - 2)) 0xB4 0xFFFFFFFFFFFFFFFF = some (2 ^ 64 - 1) ∧
    qres .barArv 0 (syncQ 3 (1 + 65535 * 2 ^ 48)) 0xB5 65535 = some 1 ∧ qres .barWait 3 (syncQ 3 (2 + 4 * 2 ^ 48)) 0xB6 4 = some (2 + 4 * 2 ^ 48) ∧
    qres .qnAcq 0 (syncQ 4 0) 0xB7 1 = some (0x8000 + 16 * 63 + 15) ∧ qres .qnTry 0 (syncQ 4 0) 0xB8 1 = some (0x8000 + 16 * 63 + 15) ∧
    qres .qnRel 0 (held (syncQ 4 (0x8000 + 16 * 63 + 15))) 0xB9 0 = some 0 := by decide +kernel

/-- Each wait of a cell that joins an object's queue, behind cell 1. -/
def behind : Waiter := ⟨1, 0xB2, 8, 6, 0⟩
def joins (i : SyncUse → Instr) (s : State) (op : Nat) (v : Word) : Bool :=
  ran (i (.cell item5)) { s with waiters := [(16383, [behind])] } fun t =>
    decide ((t.cell 0).wait = some (op, refA, v)) && decide ((t.cell 0).pc = 3584) &&
    decide (mget t.waiters 16383 = some [behind, ⟨0, op, v, 5, s.now⟩])
theorem test_sync_waits : joins .ctrWait (syncing 1 8 9) 0xB2 9 = true ∧ joins .semTake (syncing 2 0 0) 0xB3 0 = true ∧
    joins .barWait (syncing 3 (2 + 4 * 2 ^ 48) 4) 0xB6 4 = true ∧ joins .qnAcq (held (syncing 4 9 0)) 0xB7 0 = true := by decide +kernel

/-- Cell 1 waits for 8 when cell 0 adds 1 to 7. -/
def granting (v : Nat) : State :=
  { syncing 1 v 1 with
    cells := [(0, { cellA with s := [(1, refA), (2, 1)] }), (1, { cellA with wait := some (0xB2, refA, 8), status := BitVec.ofNat 64 (2 ^ 56) })],
    waiters := [(16383, [behind])] }
theorem canonical_granting : Canonical (granting 7) := canonical_of_canon (by decide +kernel)
theorem test_sync_grant : CellGo (granting 7) item5 0 ∧ mwf (granting 7).waiters = true ∧
    ran (.ctrAdd (.cell item5)) (granting 7) (fun t => decide (t.fld (SYN_OBJ_B_VALUE 16383) = 8) && decide (mget t.waiters 16383 = none) &&
      decide ((t.cell 1).wait = none) && decide ((t.cell 1).pc = 3585) && decide (sreg (t.cell 1) 6 = 8) && decide (sreg (t.cell 0) 5 = 7)) = true ∧
    ran (.ctrAdd (.cell item5)) (granting 6) (fun t => decide (mget t.waiters 16383 = some [behind]) && decide ((t.cell 1).pc = 3584)) = true := by
  refine ⟨⟨?_, ?_, ?_, ?_⟩, ?_⟩ <;> decide +kernel

/-- At SYNC_MS, and one nanosecond before it. -/
def timing (now : Nat) : State := { granting 7 with clk := { (granting 7).clk with now } }
theorem test_sync_timeout : let ms := (granting 7).fld FLT_TIMEOUT_A_SYNC_MS
    ran (.syncWaitTimeout 16383 1) (timing (ms * 1000000)) (fun t => decide (mget t.waiters 16383 = none) && decide ((t.cell 1).wait = none) &&
      decide ((t.cell 1).epc = 3584) && decide ((t.cell 1).pc = 3592) && decide (bits (t.cell 1).status.toNat 32 5 = 8)) = true ∧
    handled ((granting 7).cell 1) 8 = true ∧ kept (.syncWaitTimeout 16383 1) (timing (ms * 1000000 - 1)) = true := by decide +kernel

/-- Objects 0 to n − 1 are counters. -/
def crowded (s : State) : Nat → State
  | 0 => s
  | n + 1 => (crowded s n).setFld (SYN_OBJ_A_KIND n) 1

theorem canonical_crowded {s : State} (h : Canonical s) : ∀ n, Canonical (crowded s n)
  | 0 => h
  | n + 1 => ⟨regsWf_setReg _ _ (canonical_crowded h n).1, (canonical_crowded h n).2, (canonical_crowded h n).3⟩

theorem crowded_other (s : State) (f : Field) (h : f.off < 0xC40000) : ∀ n, (crowded s n).fld f = s.fld f
  | 0 => rfl
  | n + 1 => by rw [crowded, fld_setFld_other _ _ (by simp; omega), crowded_other s f h n]

theorem crowded_kind {s : State} (h : Canonical s) {j : Nat} : ∀ n, j < n → (crowded s n).fld (SYN_OBJ_A_KIND j) = 1
  | 0, hj => absurd hj (by omega)
  | n + 1, hj => by
    rw [crowded]
    by_cases e : j = n
    · subst e; exact fld_setFld_same _ _ (by simp) (canonical_crowded h j).1
    · rw [fld_setFld_other _ _ (by simp; omega)]; exact crowded_kind h n (by omega)

/-- No object is free. -/
theorem test_no_free_object : Canonical (crowded up 16384) ∧ ItemGo (crowded up 16384) src63 ∧
    ∀ j, j < 16384 → (crowded up 16384).fld (SYN_OBJ_A_KIND j) ≠ 0 := by
  refine ⟨canonical_crowded canonical_up _, ⟨?_, ?_⟩, fun j hj => by rw [crowded_kind canonical_up _ hj]; decide⟩
  · rw [State.flag, crowded_other _ _ (by decide)]; decide +kernel
  · rw [crowded_other _ _ (by decide)]; decide +kernel

/-- Of objects 0 to 2, two are claimed; object 2 has used its last instar. -/
def two : State := (crowded up 2).setFld (SYN_OBJ_A_INSTAR 2) 0xFFFFFF
theorem canonical_two : Canonical two := canonical_of_canon (by decide +kernel)
theorem test_sync_init : ItemGo two src63 ∧ two.fld (SYN_OBJ_A_KIND 2) = 0 ∧ (∀ j, j < 2 → two.fld (SYN_OBJ_A_KIND j) ≠ 0) ∧
    ran (.syncInit src63 3 0 63 16777215) two (fun t => decide (t.fld (SYN_OBJ_A_KIND 2) = 3) && decide (t.fld (SYN_OBJ_A_OWNER 2) = 63) &&
      decide (t.fld (SYN_OBJ_A_INSTAR 2) = 1) && decide (t.fld (SYN_OBJ_B_VALUE 2) = 16777215)) = true ∧
    ran (.syncInit src63 4 0 0 5) two (fun t => decide (t.fld (SYN_OBJ_B_VALUE 2) = 0)) = true := by
  refine ⟨⟨?_, ?_⟩, ?_⟩ <;> decide +kernel

/-- An item is refused with `st`: its completion is the last of its queue, a free value is drawn, and registers, sessions and cells
are those of `u`. -/
def fails (i : Instr) (s u : State) (src : Src) (op st : Nat) : Bool :=
  ran i s fun t => decide (((t.queue src.ctx src.queue).backlog.getLast?.map fun c => (c.status, c.opcode, c.qpos)) = some (st, op, src.qpos)) &&
    decide (t.freeCtr = u.freeCtr + 1) && decide (t.regs = u.regs) && decide (t.ses = u.ses) && decide (t.cells = u.cells)
/-- An item completes in `u` with a status, a result, an object and a tag. -/
def done (i : Instr) (s u : State) (src : Src) (op st : Nat) (result object tag : Word) : Bool :=
  ran i s fun t => decide (t = complete u src op st result object tag)

theorem test_sync_free : ItemGo (syncQ 4 0) src63 ∧
    ran (.syncFree src63 refA) (syncQ 4 0) (fun t => decide (t.fld (SYN_OBJ_A_KIND 16383) = 0) && decide (t.fld (SYN_OBJ_A_INSTAR 16383) = 6)) = true ∧
    bits (refA + 0x4000).toNat 0 14 = 16383 ∧ bits (refA + 0x4000).toNat 14 50 ≠ (syncQ 1 0).fld (SYN_OBJ_A_INSTAR 16383) ∧
    fails (.syncFree src63 (refA + 0x4000)) (syncQ 1 0) ((syncQ 1 0).incSat SYN_STALE_COUNT 1) src63 0xFB 0x5011 = true ∧
    fails (.ctrAdd (.item src63 (refA + 0x4000) 1)) (syncQ 1 0) ((syncQ 1 0).incSat SYN_STALE_COUNT 1) src63 0xB1 0x5011 = true ∧
    fails (.syncFree src63 refA) (held (syncQ 4 5)) (held (syncQ 4 5)) src63 0xFB 0x5017 = true := by
  refine ⟨⟨?_, ?_⟩, ?_⟩ <;> decide +kernel

/-- Fences of a cell, and the control items; context 63 that is being purged; a device before READY. -/
def purging (s : State) : State := s.setFld (HIF_CTX_CTL_PURGING 63) 1
def early (s : State) : State := s.setFld GLB_STATE_READY 0
theorem test_fences : CellGo (one cellA) item0 0 ∧ CellGo (one { cellA with desc := [(3, dActive)] }) item0 0 ∧
    (∃ d ∈ ({ cellA with desc := [(3, dActive)] } : Cell).desc, d.2.active = true) ∧
    ran (.fence (.cell item0)) (one cellA) (fun t => decide ((t.cell 0).pc = 3585)) = true ∧
    ran (.fence (.cell item0)) (one { cellA with desc := [(3, dActive)] }) (fun t => decide ((t.cell 0).pc = 3584)) = true := by
  refine ⟨⟨?_, ?_, ?_, ?_⟩, ⟨?_, ?_, ?_, ?_⟩, ⟨(3, dActive), ?_, ?_⟩, ?_⟩ <;> decide +kernel
theorem test_control_items : (early up).flag (HIF_CTX_CTL_PURGING 63) = false ∧ (purging up).flag (HIF_CTX_CTL_PURGING 63) = true ∧
    (early up).fld GLB_STATE_READY = 0 ∧
    done (.ctlNop src63) (early up) (early up) src63 0xFC 0 0 0 0 = true ∧
    done (.ctlStamp src63) (early { up with clk := { up.clk with now := 12345 } }) (early { up with clk := { up.clk with now := 12345 } }) src63 0xFD 0 12345 0 0 = true ∧
    done (.fence (.item src63 0 0)) up up src63 0xBB 0 0 0 0 = true ∧
    fails (.ctlNop src63) (purging up) (purging up) src63 0xFC 0x1005 = true ∧
    fails (.ctrAdd (.item src63 0 0)) (purging up) (purging up) src63 0xB1 0x1005 = true ∧
    fails (.syncFree src63 0) (early up) (early up) src63 0xFB 0xC001 = true := by decide +kernel
/-! ### Sessions -/

/-- A device that serves context 63: customer 5, vocabulary 1, the built-in grammar, model 3, pages, a serving slice 2 of partition 1. -/
def serv : State :=
  withFlds { up with gal := { up.gal with models := [(3, modelA)] } }
    [(SES_CUST_MAP_VALID 5, 1), (SES_CUST_MAP_CONTEXT 5, 63), (TOK_VOCAB_A_LOADED 1, 1), (TOK_GRAM_A_LOADED 0, 1), (HIF_CTX_CTL_FN_ENABLED 63, 1),
     (SES_CTX_PAGES_RSV_PAGES 63, 100), (SES_KV_FREE_FREE, 1000), (GLB_RES1_STACKS_OK, 1), (GAL_PART_ENABLE 1, 1), (GAL_SLICE_A_ENABLE 1 2, 1),
     (GAL_SLICE_A_MODEL 1 2, 3)]

/-- Session 7 of context 63, instar 9, waiting at P1. -/
def sesW : Session := sesInit 0 9 63 15 1 0 3 2 0 5 false 0xABC 0xFFFF 0 0 0
def sesS (e : Session) : State := { serv with ses := { serv.ses with entries := [(7, e)], freeList := [(8, 8), (20, 30)] } }
def h7 : Word := handleOf serv 7 sesW

theorem canonical_sesS : Canonical (sesS sesW) := canonical_of_canon (by decide +kernel)
theorem test_session_handle : ItemGo (sesS sesW) src63 ∧ Handle (sesS sesW) src63 h7 7 sesW ∧ (sesS sesW).ses? 7 = some sesW := by
  refine ⟨⟨?_, ?_⟩, ⟨?_, ?_, ?_, ?_, ?_, ?_⟩, ?_⟩ <;> decide +kernel

/-- The entry of session 7 after an item, and the status and result of its completion. -/
def after7 (i : Instr) (s : State) (p : Session → Bool) (res : Word := 0) : Bool :=
  ran i s fun t => (match t.ses? 7 with | some e => p e | none => false) &&
    decide (((t.queue 63 15).backlog.getLast?.map fun c => (c.status, c.result, c.object, c.tag)) = some (0, res, h7, 0xABC))

/-- The head of the free list is a range of one index, with an instar of its own. -/
theorem test_ses_create : bindingOk (sesS sesW) 63 1 0 3 1 5 = true ∧ contractOk (sesS sesW) 63 0xFFFF = true ∧ contractFull (sesS sesW) 0xFFFF = false ∧
    ((takeIndex (sesS sesW)).bind fun x => newPages x.2.2 63 8 (recurOf (sesS sesW) 3).1 (recurOf (sesS sesW) 3).2).isSome = true ∧
    ran (.sesCreate src63 1 0 3 7 1 5 true 0x77 0xFFFF 2) (sesS sesW) (fun t =>
      decide (t.ses.freeList = [(20, 30)]) && (match t.ses? 8 with
        | some e => decide ((e.instar, e.state, e.tier, e.context, e.queue) = (1, .waiting, .p1, 63, 15)) &&
            decide ((e.vocab, e.model, e.prio, e.dur, e.customer, e.cls, e.contract) = (1, 3, 7, 1, 5, 2, 0xFFFF)) &&
            decide (((t.queue 63 15).backlog.getLast?.map fun c => (c.status, c.result, c.object, c.tag)) =
              some (0, BitVec.ofNat 64 (sesW.instar / 9 + 8 * 2 ^ 24) + (h7 >>> 48 <<< 48), BitVec.ofNat 64 (1 + 8 * 2 ^ 24) + (h7 >>> 48 <<< 48), 0x77))
        | none => false)) = true := by decide +kernel

set_option maxRecDepth 100000 in
/-- 128 bytes to local HBM at 0x5000. -/
theorem test_ses_query : (match itemWrite (sesS sesW) src63 2 0x5000 (entryImage (sesS sesW) 7 sesW) with | .ok _ => true | _ => false) = true ∧
    (entryImage (sesS sesW) 7 sesW).length = 128 ∧ ((entryImage (sesS sesW) 7 sesW).drop 96).take 8 = leBytes 8 0xABC ∧
    ran (.sesQuery src63 h7 0x5000) (sesS sesW) (fun t => decide (rdLE t.hbm (0x5000 + 96) 8 = 0xABC) &&
      decide (rdLE t.hbm 0x5000 4 % 2 ^ 24 = 9)) = true := by decide +kernel

/-- An index no entry has, a stale instar, a handle of another device. -/
theorem test_stale_handles : bits (h7 + 0x1000000).toNat 48 16 = (sesS sesW).devAddr ∧ (sesS sesW).ses? (bits (h7 + 0x1000000).toNat 24 24) = none ∧
    fails (.sesRun src63 (h7 + 0x1000000) 1) (sesS sesW) ((sesS sesW).incSat SES_STALE_COUNT 1) src63 0xC2 0x2002 = true ∧
    fails (.sesFree src63 (h7 + 1)) (sesS sesW) ((sesS sesW).incSat SES_STALE_COUNT 1) src63 0xCC 0x2002 = true ∧
    bits (h7 + 0x1000000000000).toNat 48 16 ≠ (sesS sesW).devAddr ∧
    fails (.sesRun src63 (h7 + 0x1000000000000) 1) (sesS sesW) (sesS sesW) src63 0xC2 0x200B = true := by decide +kernel

/-- Bytes of HBM at 0x5000; a session with a transcript of as many bytes as leave room for one, and more. -/
def sesT (n : Nat) : Session := { sesW with transcriptBytes := n, segs := [.text (List.replicate 5 0x61)], transcriptPages := List.replicate ((n + 16383) / 16384) 1 }
theorem test_ses_feed : (match itemRead (sesS (sesT 4194303)) src63 2 0x5000 1 with | .ok bs => decide (bs.length = 1) | _ => false) = true ∧
    (appendSegment (sesS (sesT 4194303)) 7 (sesT 4194303) (.text [0])).isSome = true ∧
    after7 (.sesFeed src63 h7 0x5000 1 false false 0) (sesS (sesT 4194303)) (fun e => decide (e.transcriptBytes = 4194304) &&
      decide (e.segs = [.text (List.replicate 5 0x61), .text [0]]) && decide (e.state = .waiting)) 4194304 = true ∧
    fails (.sesFeed src63 h7 0x5000 2 false false 0) (sesS (sesT 4194303)) (stampStatus (sesS (sesT 4194303)) 7 0x2009) src63 0xC1 0x2009 = true ∧
    after7 (.sesFeed src63 h7 0x5000 3 false false 0) (sesS { sesT 5 with state := .active }) (fun e => decide (e.transcriptBytes = 8) && decide (e.state = .active)) 8 = true := by
  decide +kernel

/-- Slots 0 and 1 are taken. -/
def busySlots (e : Session) : State := { sesS e with gal := { serv.gal with slots := [(0, slotA), (1, slotA)] } }
theorem test_ses_run : slotsMatch (busySlots (sesT 5)) (sesT 5) = true ∧ chooseSlice (busySlots (sesT 5)) (sesT 5) = some 6 ∧
    firstFree (busySlots (sesT 5)).gal.slots 0 = 2 ∧ (sesT 5).bound = true ∧
    ran (.sesRun src63 h7 0xFFFFFF) (busySlots (sesT 5)) (fun t => (match t.ses? 7, mget t.gal.slots 2 with
      | some e, some x => decide ((e.state, e.seqValid, e.seqSlot, e.genLimit) = (.prefill, true, 2, 0xFFFFFF)) &&
          decide ((x.index, x.prefill, x.part, x.slice, x.prio, x.customer) = (7, true, 1, 2, 2, 5))
      | _, _ => false)) = true ∧
    fails (.sesRun src63 h7 5) (sesS { sesW with state := .held }) (stampStatus (sesS { sesW with state := .held }) 7 0x2004) src63 0xC2 0x2004 = true := by
  decide +kernel

/-! ### Waits, parks, revivals -/

/-- Device time 1,000; P2 open with a lender. -/
def tiers (e : Session) : State :=
  withFlds { sesS e with clk := { serv.clk with now := 1000 },
                         tier := { serv.tier with lenders := [(2, { free := 2 ^ 40, hops := 1, reclaimMs := 1000, reclaim := none })] } }
    [(SES_CLASS_A_P2_EN 0, 1), (SES_TIER_STATUS_P2_OPEN, 1)]

theorem test_ses_wait : ItemGo (tiers sesW) src63 ∧ Handle (tiers sesW) src63 h7 7 sesW ∧
    (chooseTier (tiers sesW) { sesW with expectTime := 1000, deadline := 1000, graceAt := none, overdueDone := true, deadlineDone := false, deferred := none } 0).tier = .p1 ∧
    after7 (.sesWait src63 h7 1000 1000) (tiers sesW) (fun e => decide ((e.expectTime, e.deadline, e.tier, e.park) = (1000, 1000, .p1, none))) 1 = true ∧
    fails (.sesWait src63 h7 1001 1000) (tiers sesW) (stampStatus (tiers sesW) 7 0x2011) src63 0xC3 0x2011 = true := by
  refine ⟨⟨?_, ?_⟩, ⟨?_, ?_, ?_, ?_, ?_, ?_⟩, ?_⟩ <;> decide +kernel

/-- With no hint and no time the default tier, P1; with hint 2 the lender. -/
theorem test_ses_park : (chooseTier (tiers sesW) sesW 0).tier = .p1 ∧ (chooseTier (tiers sesW) sesW 2) = ⟨.p2, 2, sesBytes sesW⟩ ∧
    (policePark (tiers sesW) sesW .p2 (sesBytes sesW)).1 ≠ 3 ∧
    after7 (.sesPark src63 h7 0) (tiers sesW) (fun e => decide ((e.tier, e.park) = (.p1, none))) 1 = true ∧
    after7 (.sesPark src63 h7 2) (tiers sesW) (fun e => decide ((e.parkBusy, e.tier, e.park.map (·.target), e.park.map (·.place)) = (true, .p1, some .p2, some 2))) 2 = true := by
  decide +kernel

/-- At P1, and at P2 with a lender. -/
def sesP2 : Session := { sesW with tier := .p2, lender := 2, aux := 0x1, kvRoot := 0x1 }
theorem test_ses_revive : (startRevival (tiers sesP2) 7 true).2 = 0 ∧ Handle (tiers sesP2) src63 h7 7 sesP2 ∧
    ran (.sesRevive ⟨63, 14, 9⟩ h7) (tiers sesW) (fun t => decide ((t.ses? 7).map (fun e => (e.tier, e.reviveBusy)) = some (.p1, false)) &&
      decide ((t.queue 63 15).backlog.map (fun c => (c.notice, c.reason, c.status)) = [(true, 3, 0)])) = true ∧
    after7 (.sesRevive src63 h7) (tiers sesP2) (fun e => decide ((e.tier, e.reviveBusy, e.rev.map (·.src), e.rev.map (·.notify)) = (.p2, true, some .p2, some true))) = true := by
  refine ⟨?_, ⟨?_, ?_, ?_, ?_, ?_, ?_⟩, ?_⟩ <;> decide +kernel

/-! ### Hold, release, config, fork, migrate -/

/-- Session 7 in slot 0, in the galley that slice 1 runs, or in none. -/
def sesR : Session := { sesW with state := .active, seqValid := true, seqSlot := 0, tokens := 20 }
def playing (e : Session) (g : Option Galley) : State :=
  { sesS e with gal := { serv.gal with slots := [(0, slotA)], slices := [(1, { sliceA with running := g })] } }
theorem test_ses_hold : inGalley (playing sesR none) 7 = false ∧ inGalley (playing sesR (some galleyA)) 7 = true ∧
    after7 (.sesHold src63 h7) (playing sesR none) (fun e => decide ((e.state, e.holdReason, e.tokens, e.tier) = (.held, 4, 20, .p1))) = true ∧
    after7 (.sesHold src63 h7) (playing sesR (some galleyA)) (fun e => decide ((e.state, e.holdReq) = (.active, true))) = true ∧
    after7 (.sesRelease src63 h7) (playing { sesR with state := .held, holdReason := 4 } none) (fun e => decide ((e.state, e.holdReason) = (.active, 0))) = true ∧
    after7 (.sesRelease src63 h7) (playing { sesR with state := .held, holdReason := 4, transcriptBytes := 1 } none) (fun e => decide ((e.state, e.holdReason) = (.prefill, 0))) = true := by
  decide +kernel

theorem test_ses_config : after7 (.sesConfig src63 h7 1 0 7) (sesS sesW) (fun e => decide ((e.prio, e.tag) = (7, 0xABC))) 2 = true ∧
    fails (.sesConfig src63 h7 1 0 8) (sesS sesW) (stampStatus (sesS sesW) 7 0x2014) src63 0xCE 0x2014 = true ∧
    ran (.sesConfig src63 h7 4 0 0xDEF) (sesS sesW) (fun t => decide ((t.ses? 7).map (·.tag) = some 0xDEF)) = true := by decide +kernel

/-- 20 positions: a page of 16 per head group and a part. -/
def sesF : Session := { sesW with state := .held, tokens := 20, kv := [(0, pageRef true false 1 0 1000), (1, pageRef true false 1 0 1001), (2, pageRef true false 1 0 1002), (3, pageRef true false 1 0 1003)],
                                  listFrames := [(0, 1010), (2, 1011)], kvRoot := pageRef false false 1 0 1010, aux := pageRef true false 1 0 1012 }
def forking : State :=
  let s := sesS sesF
  let fr (k : Nat) : Frame := { refcnt := 1, kind := k, context := 63, pied := false, crcValid := false, crc := 0 }
  { s with ses := { s.ses with frames := [(1000, fr 1), (1001, fr 1), (1002, fr 1), (1003, fr 1), (1010, fr 2), (1011, fr 2), (1012, fr 4)] } }
theorem test_ses_fork : mget forking.gal.models 3 = some modelA ∧ (forkSplit modelA sesF.kv 20).1.length = 2 ∧ (forkSplit modelA sesF.kv 20).2.length = 2 ∧
    ((takeIndex forking).bind fun x => forkPages x.2.2 7 8 sesF modelA 20).isSome = true ∧ slotsMatch forking sesF = true ∧
    ((localFrames ((forkSplit modelA sesF.kv 20).1.map (·.2))).any fun f =>
        match forking.frame f with | none => false | some x => decide (x.refcnt = 65535)) = false ∧
    ran (.sesFork src63 h7 20 false 0 0x55) forking (fun t => (match t.ses? 8 with
      | some c => decide ((c.state, c.tokens, c.link, c.tag, c.instar, c.model, c.kv.length) = (.waiting, 20, h7, 0x55, 1, 3, 4))
      | none => false) && decide ((t.frame 1000).map (·.refcnt) = some 2) && decide ((t.frame 1002).map (·.refcnt) = some 1)) = true := by decide +kernel

theorem test_ses_migrate : (sesS sesW).fab.stopped = false ∧
    after7 (.sesMigrate src63 h7 9) (sesS sesW) (fun e => decide ((e.state, e.seqValid, e.mig.map (·.dest), e.mig.map (·.prev)) = (.migrating, false, some 9, some .waiting))) = true ∧
    ran (.sesMigrate src63 h7 9) (sesS sesW) (fun t => decide (t.fab.sent = [.migrate 7 9])) = true := by decide +kernel

/-! ### Cancel, end, free -/

theorem test_ses_cancel : ItemGo (playing sesR none) src63 ∧ Handle (playing sesR none) src63 h7 7 sesR ∧ mwf (playing sesR none).gal.slots = true ∧
    ran (.sesCancel src63 h7) (playing sesR none) (fun t => decide (mget t.gal.slots 0 = none) && (match t.ses? 7 with
      | some e => decide ((e.state, e.cancelReq, e.seqValid, e.tokens) = (.cancelling, true, false, 20)) && decide (e.cancel = some (src63, 0, 0))
      | none => false)) = true := by
  refine ⟨⟨?_, ?_⟩, ⟨?_, ?_, ?_, ?_, ?_, ?_⟩, ?_⟩ <;> decide +kernel

def sesC : Session := { sesW with state := .cancelling, cancelReq := true, cancel := some (src63, 0, 0) }
def drainAt (now : Nat) : State := { sesS sesC with clk := { serv.clk with now } }
theorem test_cancel_drain : inStep (sesS sesC) 7 = false ∧ sesC.tombstone = 0 ∧
    ran (.cancelDrainComplete 7) (sesS sesC) (fun t => decide ((t.ses? 7).map (fun e => (e.state, e.cancel, e.lastStatus)) = some (.ended, none, 0))) = true ∧
    (let ms := (sesS sesC).fld FLT_TIMEOUT_B_DRAIN_MS
     ran (.sessionDrainTimeout 7) (drainAt (ms * 1000000)) (fun t => decide ((t.ses? 7).map (fun e => (e.state, e.cancel, e.lastStatus)) = some (.ended, none, 0xA001))) = true ∧
     kept (.sessionDrainTimeout 7) (drainAt (ms * 1000000 - 1)) = true) ∧
    kept (.cancelDrainComplete 7) (sesS sesW) = true ∧ kept (.sessionDrainTimeout 7) (sesS sesW) = true := by decide +kernel

theorem test_ses_end : inStep (playing sesR (some galleyA)) 7 = true ∧ inStep (playing sesR none) 7 = false ∧
    ran (.sesEnd src63 h7) (playing sesR (some galleyA)) (fun t => decide ((t.ses? 7).map (fun e => (e.state, e.endReq, e.ending)) = some (.active, true, some src63))) = true ∧
    ran (.sesEnd src63 h7) (playing sesR none) (fun t => decide ((t.ses? 7).map (fun e => (e.state, e.lastStatus, e.seqValid)) = some (.ended, 0, false))) = true := by decide +kernel

/-- The last instar is followed by 1. -/
def sesE : Session := { sesW with state := .ended, instar := 0xFFFFFF }
theorem test_ses_free : Handle (sesS sesE) src63 (handleOf serv 7 sesE) 7 sesE ∧ mwf (sesS sesE).ses.entries = true ∧
    ran (.sesFree src63 (handleOf serv 7 sesE)) (sesS sesE) (fun t => decide (t.ses? 7 = none) && decide (t.ses.freeList = [(8, 8), (20, 30), (7, 7)]) &&
      decide (mget t.ses.freeInstar 7 = some 1)) = true ∧
    ran (.sesFree src63 h7) (sesS { sesW with state := .faulted }) (fun t => decide (mget t.ses.freeInstar 7 = some 10)) = true := by
  refine ⟨⟨?_, ?_, ?_, ?_, ?_, ?_⟩, ?_⟩ <;> decide +kernel
/-! ### The times of waiting sessions -/

/-- A session with a horizon long enough for P2 with a lender. -/
def sesH (expect : Nat) : Session := { sesW with expectTime := expect, deadline := 5000 }
def timed (now : Nat) (e : Session) : State := { tiers e with clk := { serv.clk with now } }
def entry7 (i : Instr) (s : State) (p : Session → Bool) : Bool := ran i s fun t => match t.ses? 7 with | some e => p e | none => false

/-- The grace ends at 1,000; the horizon sends the session to the lender, or, with no lender, nowhere. -/
theorem test_wait_grace : let e : Session := { sesH (10 ^ 12) with graceAt := some 1000 }
    (chooseTier (tiers e) e 0).tier = .p2 ∧ (policePark (tiers e) e .p2 (chooseTier (tiers e) e 0).bytes).1 ≠ 3 ∧
    entry7 (.waitGraceExpiry 7) (tiers e) (fun x => decide (x.graceAt = none) && decide ((x.tier, x.parkBusy) = (.p1, true)) &&
      decide (x.park.map (fun p => (p.target, p.place, p.bytes)) = some (.p2, 2, sesBytes e))) = true ∧
    entry7 (.waitGraceExpiry 7) (sesS { e with graceAt := some 0 }) (fun x => decide (x.graceAt = none) && decide (x.park = none)) = true ∧
    kept (.waitGraceExpiry 7) (tiers { e with graceAt := some 1001 }) = true := by decide +kernel

theorem test_overdue : let ms := (tiers sesW).fld (SES_CLASS_A_OVERDUE_MS 0) * 1000000
    entry7 (.overdueExpiry 7) (timed (500 + ms) (sesH 500)) (fun x => decide ((x.expectTime, x.deadline, x.tier) = (0, 5000, .p1))) = true ∧
    entry7 (.overdueExpiry 7) (timed (500 + ms) { sesH 500 with deadline := 501 + ms }) (fun x => decide ((x.expectTime, x.tier) = (501 + ms, .p1))) = true ∧
    kept (.overdueExpiry 7) (timed (499 + ms) (sesH 500)) = true := by decide +kernel

/-- The last nanosecond at which the start is not yet due, and the next. -/
def sesQ (expect : Nat) : Session := { sesP2 with expectTime := expect }
def lead : Nat := (revTime .p2 (sesBytes sesP2) + margin (tiers sesP2) 0 .p2 (sesBytes sesP2)) / tick
theorem test_proactive : (startRevival (timed 1000 (sesQ (1000 + lead))) 7 false).2 = 0 ∧
    (sesQ (1000 + lead)).expectTime * tick ≤ 1000 * tick + revTime .p2 (sesBytes sesP2) + margin (tiers sesP2) 0 .p2 (sesBytes sesP2) ∧
    entry7 (.proactiveRevivalStart 7) (timed 1000 (sesQ (1000 + lead))) (fun x => decide ((x.reviveBusy, x.tier, x.rev.map (·.notify)) = (true, .p2, some false))) = true ∧
    1000 * tick + revTime .p2 (sesBytes sesP2) + margin (tiers sesP2) 0 .p2 (sesBytes sesP2) < (sesQ (1001 + lead)).expectTime * tick ∧
    kept (.proactiveRevivalStart 7) (timed 1000 (sesQ (1001 + lead))) = true := by decide +kernel

theorem test_deadline : entry7 (.deadlinePassed 7) (timed 5000 (sesH 0)) (fun x => x.deadlineDone) = true ∧
    ran (.deadlinePassed 7) (timed 5000 (sesH 0)) (fun t => decide ((t.queue 63 15).backlog.map (fun c => (c.notice, c.reason, c.status)) = [(true, 10, 0x2016)])) = true ∧
    kept (.deadlinePassed 7) (timed 5000 { sesH 0 with deadlineDone := true }) = true ∧ kept (.deadlinePassed 7) (timed 4999 (sesH 0)) = true := by decide +kernel

/-! ### Durable copies, pressure, evacuation -/

/-- Bays 1 and 2 take parks, with room and wear credit. -/
def bays (e : Session) : State :=
  withFlds { tiers e with mkr := { serv.mkr with wearFree := [0, 10 ^ 30, 10 ^ 30, 0] } }
    [(SES_TIER_STATUS_BAYS_WRITABLE, 6), (SES_TIER_STATUS_P3_OPEN, 1), (SES_CLASS_A_P3_EN 0, 1), (CRT_BAY_STATE 1, 5), (CRT_BAY_STATE 2, 5),
     (CRT_FREE_BYTES 1, 2 ^ 40), (CRT_FREE_BYTES 2, 2 ^ 40), (SES_CLASS_B_DUR_LAG_MS 0, 0), (SES_P1_WATER_LOW_PCT, 10), (SES_P1_WATER_HIGH_PCT, 20)]
def sesD : Session := { sesW with dur := 1, waitSince := 999 }
def parked (i : Instr) (s : State) (x : Tier × Nat × Nat × Bool) : Bool :=
  entry7 i s fun e => decide (e.park.map (fun p => (p.target, p.place, p.bytes, p.copyOnly)) = some x) && e.parkBusy && decide (e.deferred = none)

theorem test_dur_lag : chooseBay (bays sesD) sesD true = some (1, sesBytes sesD) ∧ (policePark (bays sesD) sesD .p3 (sesBytes sesD)).1 ≠ 3 ∧
    parked (.durLagExpiry 7) (bays sesD) (.p3, 1, sesBytes sesD, true) = true ∧ kept (.durLagExpiry 7) (bays { sesD with waitSince := 1000 }) = true ∧
    chooseBay ((bays sesD).setFld SES_TIER_STATUS_BAYS_WRITABLE 0) sesD true = none ∧
    entry7 (.durLagExpiry 7) ((bays sesD).setFld SES_TIER_STATUS_BAYS_WRITABLE 0) (fun e => e.behind && decide (e.deferred = some (.p3, 0, 0, true))) = true := by
  decide +kernel
theorem test_deferred : let e : Session := { sesD with deferred := some (.p3, 0, 0, true) }
    parked (.deferredParkStart 7) (bays e) (.p3, 1, sesBytes e, true) = true ∧
    kept (.deferredParkStart 7) ((bays e).setFld SES_TIER_STATUS_BAYS_WRITABLE 0) = true := by decide +kernel

/-- 100 pages reserved: at 90 used the water stands at LOW_PCT, at 91 below it. -/
def watered (used : Nat) : State := (bays (sesH (10 ^ 12))).setFld (SES_CTX_PAGES_USED_PAGES 63) used
theorem test_pressure : (governing (watered 91) 0xFFFF 2 fun _ => true) = none ∧ (chooseTier (watered 91) (sesH (10 ^ 12)) 0) = ⟨.p2, 2, sesBytes sesW⟩ ∧
    (watered 91).ses.entries = [(7, sesH (10 ^ 12))] ∧ kept (.p1PressureParking 63) (watered 90) = true ∧
    parked (.p1PressureParking 63) (watered 91) (.p2, 2, sesBytes sesW, false) = true := by decide +kernel

/-- A P3 copy in bay 0, which is READ_ONLY. -/
def copyA (b : Nat) : Copy :=
  { bay := b, serial := 0, gen := 1, pages := 1, extents := [], tokens := 0, generated := 0, kvPages := 0, transcript := 0, segs := [],
    cur := false, text := textInit 0 0, kv := [], recur := [] }
def sesO : Session := { sesD with p3 := some (copyA 0) }
def readOnly : State := (bays sesO).setFld (CRT_BAY_STATE 0) 6
theorem test_evacuation : chooseBay readOnly sesO true (other := true) = some (1, sesBytes sesO) ∧ readOnly.ses.entries = [(7, sesO)] ∧
    parked (.bayReadOnlyEvacuation 0) readOnly (.p3, 1, sesBytes sesO, true) = true ∧ kept (.bayReadOnlyEvacuation 0) (bays sesO) = true := by decide +kernel

/-! ### Parks and revivals commit or fail -/

def parkOp (t : Tier) (b j : Nat) (retried : Bool) : ParkOp :=
  { target := t, place := b, bytes := 16384, started := 0, retried, copyOnly := false, colour := 0, journal := j, policed := none }
def sesK (p : ParkOp) : Session := { sesW with tokens := 20, parkBusy := true, park := some p, dur := 1 }
theorem test_park_p2 : entry7 (.parkCommit 7) (tiers (sesK (parkOp .p2 2 0 false))) (fun e =>
    decide ((e.tier, e.lender, e.park, e.parkBusy) = (.p2, 2, none, false)) && decide ((e.kvRoot, e.tokens) = (0, 20)) && decide (e.p2.map (·.tokens) = some 20)) = true := by
  decide +kernel
theorem test_park_p3 : ran (.parkCommit 7) (bays (sesK (parkOp .p3 1 0 false))) (fun t =>
      decide ((t.ses? 7).bind (fun e => e.park.map (·.journal)) = some 1) && decide ((t.bay 1).nextJseq = ((bays sesW).bay 1).nextJseq + 1)) = true ∧
    kept (.parkCommit 7) (bays (sesK (parkOp .p3 1 1 false))) = true ∧
    entry7 (.parkCommit 7) (bays (sesK (parkOp .p3 1 2 false))) (fun e => decide ((e.tier, e.bay, e.park, e.parkBusy, e.dirtyPages) = (.p3, 1, none, false, 0)) &&
      decide (e.p3.map (fun y => (y.bay, y.tokens, y.pages)) = some (1, 20, 1))) = true := by decide +kernel
theorem test_park_failure : otherPlace (bays (sesK (parkOp .p3 1 0 false))) (sesK (parkOp .p3 1 0 false)) (parkOp .p3 1 0 false) = some (2, 16384) ∧
    ran (.parkFailure 7 0x8002) (bays (sesK (parkOp .p3 1 0 false))) (fun t => decide ((t.ses? 7).bind (·.park) = some { parkOp .p3 2 0 true with started := 1000 })) = true ∧
    entry7 (.parkFailure 7 0x8002) (bays (sesK (parkOp .p3 1 0 true))) (fun e => decide ((e.park, e.parkBusy, e.tier, e.lastStatus) = (none, false, .p1, 0x8002))) = true ∧
    kept (.parkCommit 7) (tiers sesW) = true ∧ kept (.parkFailure 7 1) (tiers sesW) = true := by decide +kernel

def revA : RevOp := { src := .p2, started := 0, colour := 0, bound := 10 ^ 9, notify := false, again := false, frames := [2000, 2001], lists := [2002], policed := none }
def sesV : Session := { sesP2 with p2 := some (copyA 0), rev := some revA, reviveBusy := true, tokens := 20 }
theorem test_revival : sesV.refs.length ≤ revA.frames.length ∧
    entry7 (.revivalCommit 7 []) (tiers sesV) (fun e => decide ((e.tier, e.rev, e.reviveBusy, e.lender, e.tokens) = (.p1, none, false, 0, 20)) &&
      decide (e.p2 = none) && e.refs.all fun r => refLoc r = 1) = true ∧ kept (.revivalCommit 7 []) (tiers sesW) = true := by decide +kernel

/-! ### Migrations, lending -/

def sesM : Session := { sesW with state := .migrating, mig := some { dest := 9, prev := .waiting, hold := 0, started := 0 }, instar := 0xFFFFFF }
theorem test_migration : entry7 (.migrationCommit 7 0x123) (tiers sesM) (fun e => decide ((e.state, e.moved, e.link, e.oldInstar, e.instar) = (.ended, true, 0x123, some 0xFFFFFF, 1))) = true ∧
    entry7 (.migrationRefused 7 0x2006) (tiers sesM) (fun e => decide ((e.state, e.mig, e.lastStatus) = (.waiting, none, 0x2006))) = true ∧
    (let ns := (tiers sesM).fld FLT_TIMEOUT_B_MIGRATE_MS * 1000000
     entry7 (.migrationTimeout 7) (timed ns sesM) (fun e => decide ((e.state, e.mig, e.lastStatus) = (.waiting, none, 0xA002))) = true ∧
     kept (.migrationTimeout 7) (timed (ns - 1) sesM) = true) ∧
    kept (.migrationCommit 7 0) (tiers sesW) = true ∧ kept (.migrationRefused 7 1) (tiers sesW) = true := by decide +kernel

/-- Device 1 of plane 0 lends 2 GiB; device 5 has borrowed frame 1,000 and abandoned 1,001. -/
def borrower : Borrower := { frames := [1000, 1001], orphans := [1001], acked := false, resends := 7, sentAt := 0 , told := false }
def lending (now : Nat) (reclaimAt : Option Nat) : State :=
  let s := withFlds serv [(SES_LEND_CFG_ENABLE, 1), (SES_LEND_CFG_LEND_GIB, 2), (GLB_DEV_ADDR_DEVICE, 1)]
  { s with clk := { s.clk with now }, tier := { s.tier with borrowers := [(5, borrower)], reclaimAt, lenders := [(3, ⟨2 ^ 40, 1, 1000, none⟩)] } }
theorem canonical_lending : Canonical (lending 100000 none) := canonical_of_canon (by decide +kernel)
theorem test_lending : freeLent (lending 100000 none) = 2 ^ 31 - 32768 ∧ (lending 0 none).fab.stopped = false ∧
    ran .advertiseFreeLentSpace (lending 0 none) (fun t => decide (t.tier.advertised = 2 ^ 31 - 32768) && decide (t.fab.sent = [.advert (2 ^ 31 - 32768)])) = true ∧
    kept .advertiseFreeLentSpace { lending 0 none with tier := { (lending 0 none).tier with advertised := 2 ^ 31 - 32768 } } = true ∧
    (lending 0 none).devAddr ≠ 32767 ∧ 32767 / 2 ^ 15 = (lending 0 none).fld GLB_DEV_ADDR_PLANE ∧
    ran (.lenderAdvertisement 32767 1 3 50) (lending 0 none) (fun t => decide (mget t.tier.lenders 32767 = some ⟨1, 3, 50, none⟩) && t.flag SES_TIER_STATUS_P2_OPEN) = true ∧
    kept (.lenderAdvertisement 32768 1 3 50) (lending 0 none) = true ∧ kept (.lenderAdvertisement (lending 0 none).devAddr 1 3 50) (lending 0 none) = true := by
  decide +kernel
theorem test_reclaim : let d := 100000 + (lending 0 none).fld SES_LEND_CFG_RECLAIM_MS * 1000000
    ran .reclaimNoticeSend (lending 100000 none) (fun t => decide (t.tier.reclaimAt = some d) && decide (t.fab.sent = [.reclaim 5 d]) && decide (freeLent t = 0) &&
      decide (t.fld SES_LEND_STATUS_RECLAIMING = 1)) = true ∧
    ran (.reclaimResend 5) (lending 100000 (some d)) (fun t => decide (t.fab.sent = [.reclaim 5 d]) &&
      decide (mget t.tier.borrowers 5 = some { borrower with resends := 8, sentAt := 100000 })) = true ∧
    kept (.reclaimResend 5) (lending 99999 (some d)) = true ∧ lentFrom (lending 0 none) 3 = [] ∧
    ran (.reclaimNotice 3 777) (lending 0 none) (fun t => decide (t.fab.sent = [.reclaimAck 3]) && decide ((mget t.tier.lenders 3).bind (·.reclaim) = some 777)) = true ∧
    ran .reclaimDeadline (lending d (some d)) (fun t => decide (t.tier.reclaimAt = none) && decide (t.tier.borrowers.map (·.2.frames) = [[]]) &&
      decide (t.fld SES_LEND_STATUS_RECLAIMING = 0)) = true ∧
    ran (.lenderReclaimSweep 5) (lending 0 none) (fun t => decide ((mget t.tier.borrowers 5).map (fun y => (y.frames, y.orphans)) = some ([1000], []))) = true := by
  decide +kernel
/-! ### Make-ready -/

/-- A park-throughput contract (kind 3) of context 63, number 4,033: tier P2, one session at a time, 16 KiB. -/
def conA : Contract := [BitVec.ofNat 64 (3 + 4033 * 2 ^ 8), BitVec.ofNat 64 (0xFFFFFF000 * 0), BitVec.ofNat 64 (2 + 2 ^ 26), 0x4000, 0, 0, 0, 0,
  0x10000000001000, 0x4000, 0x4010, 0x4010]
def conBytes : List Byte := conA.flatMap fun w => leBytes 8 w.toNat
/-- HBM that holds bytes at an address. -/
def withBytes (s : State) (a : Nat) (bs : List Byte) : State :=
  { s with hbm := (bs.zipIdx.filterMap fun x => if x.1 = 0 then none else some (a + x.2, x.1)) }
def reading (s : State) (bs : List Byte) : State := withBytes s 0x5000 bs
def locked (s : State) : State := s.setFld GLB_TIME_STATUS_LOCKED 1
def mkr (pending admitted shed : Map Contract) (evaluating : Option ReadyReq) : State :=
  let s := withFlds (locked up) [(GLB_RES0_HBM_GIB, 3)]
  { s with mkr := { s.mkr with pending, admitted, shed, evaluating } }

theorem test_mkr_define : (match itemRead (reading up conBytes) src63 1 0x5000 96 with | .ok bs => decide (bs = conBytes) | _ => false) = true ∧
    words8 12 conBytes = conA ∧ conA.id = 4033 ∧ defineRefusal (reading up conBytes) 63 conA = 0 ∧
    ran (.mkrDefine src63 0x5000) (reading (mkr [(4033, [])] [] [(4033, conA)] none) conBytes) (fun t => decide (mget t.mkr.pending 4033 = some conA) &&
      decide (mget t.mkr.shed 4033 = none)) = true ∧
    defineRefusal up 62 conA = 0x3004 ∧ defineRefusal up 63 (conA.set 1 1) = 0x3006 ∧ defineRefusal up 63 (conA.set 10 0x400F) = 0x3005 := by decide +kernel

theorem test_mkr_drop : mwf (mkr [(4033, conA)] [] [] none).mkr.pending = true ∧
    ran (.mkrDrop src63 4033) (mkr [(4033, conA)] [(4033, conA)] [] none) (fun t => decide (t.mkr.pending = []) && decide (t.mkr.admitted = [(4033, conA)])) = true ∧
    fails (.mkrDrop src63 4033) (mkr [] [] [] none) (mkr [] [] [] none) src63 0xD1 0x3012 = true ∧
    ran (.mkrWithdraw src63) (mkr [(5, conA), (4033, conA)] [(5, conA)] [] none) (fun t => decide (t.mkr.pending = [(5, conA)]) && decide (t.mkr.admitted = [(5, conA)])) = true ∧
    contractState (mkr [(4033, conA)] [] [] none) 4033 = some (0, conA) ∧ conA.length = 12 ∧
    ran (.mkrQuery src63 4033 0x5000) (mkr [(4033, conA)] [] [] none) (fun t => decide (rdLE t.hbm 0x5000 8 = 3 + 4033 * 2 ^ 8)) = true := by decide +kernel

theorem canonical_mkr : Canonical (mkr [] [] [] none) := canonical_of_canon (by decide +kernel)
theorem test_mkr_ready : ItemGo (mkr [] [] [] none) src63 ∧ (mkr [] [] [] none).fld GLB_TIME_STATUS_LOCKED ≠ 0 ∧
    ran (.mkrReady src63 0x40) (mkr [] [] [] none) (fun t => decide (t.mkr.evaluating = some ⟨src63, 0x40⟩) && decide (t.fld MKR_STATUS_EVALUATING = 1)) = true ∧
    ran (.mkrReady src63 0x40) (mkr [] [] [] (some ⟨src0, 0⟩)) (fun t => decide (t.mkr.evaluating = some ⟨src0, 0⟩) && decide (t.mkr.waiting = [⟨src63, 0x40⟩])) = true ∧
    fails (.mkrReady src63 0x40) up (up.setFld MKR_STATUS_LAST_STATUS 0x3002) src63 0xD2 0x3002 = true := by
  refine ⟨⟨?_, ?_⟩, ?_⟩ <;> decide +kernel

/-- An empty pending set is admitted, and replaces the context's admitted set; one with a link to nothing is not. -/
def badLink : Contract := (conA.set 0 (BitVec.ofNat 64 (2 + 4033 * 2 ^ 8))).set 1 (BitVec.ofNat 64 (0x5000 + 0xFFF * 2 ^ 24))
theorem test_evaluation : let s := mkr [] [(5, conA), (4033, conA)] [] (some ⟨src63, 0⟩)
    let b := mkr [(4033, badLink)] [] [] (some ⟨src63, 0⟩)
    linksOk s 63 = true ∧ setFor s 63 = [(5, conA)] ∧ linksOk b 63 = false ∧
    ran .makeReadyEvaluation b (fun t => decide (t.mkr.admitted = []) && decide (t.mkr.evaluating = none) && decide (t.mkr.pending = b.mkr.pending)) = true ∧
    kept .makeReadyEvaluation (mkr [] [] [] none) = true ∧ kept .capacityReevaluation (mkr [] [] [] none) = true := by decide +kernel

/-- The HBM of just the fixed 3 GiB is enough for an empty set. -/
theorem test_evaluation_admits : let s := mkr [] [(4033, conA)] [] (some ⟨src63, 0⟩)
    setFor s 63 = [] ∧ lateOnes s (setFor s 63) = [] ∧ shortScopes s (setFor s 63) ((keptOf s).map (·.2)) (chargeAll s (chargeOrder s 63) []) = [] ∧
    ran .makeReadyEvaluation s (fun t => decide (t.mkr.admitted = []) && decide (t.mkr.evaluating = none)) = true := by decide +kernel

/-! ### Bytes placed in HBM are read back -/

theorem mget_low (a : Nat) : ∀ (l : List Byte) (k j : Nat), j < a + k →
    mget ((l.zipIdx k).filterMap fun x => if x.1 = 0 then none else some (a + x.2, x.1)) j = none
  | [], _, _, _ => rfl
  | x :: l, k, j, h => by
    simp only [List.zipIdx_cons, List.filterMap_cons]
    have r := mget_low a l (k + 1) j (by omega)
    by_cases e : x = 0
    · simpa [e] using r
    · simp only [e, if_false, mget]
      rw [if_neg (by omega)]; exact r

theorem getD_bytes (a : Nat) : ∀ (l : List Byte) (k i : Nat),
    (mget ((l.zipIdx k).filterMap fun x => if x.1 = 0 then none else some (a + x.2, x.1)) (a + k + i)).getD 0 = l.getD i 0
  | [], _, _ => by simp [mget]
  | x :: l, k, i => by
    simp only [List.zipIdx_cons, List.filterMap_cons]
    have r (i : Nat) := getD_bytes a l (k + 1) i
    rcases i with _ | i
    · by_cases e : x = 0
      · simp only [e, if_true]; rw [mget_low a l (k + 1) _ (by omega)]; simp
      · simp only [e, if_false, mget]; simp
    · by_cases e : x = 0
      · simp only [e, if_true]; rw [show a + k + (i + 1) = a + (k + 1) + i by omega, r i]; simp
      · simp only [e, if_false, mget]
        rw [if_neg (by omega), show a + k + (i + 1) = a + (k + 1) + i by omega, r i]; simp

theorem rdBytes_bytes (a : Nat) (l : List Byte) : ∀ (n i : Nat), i + n = l.length →
    rdBytes (l.zipIdx.filterMap fun x => if x.1 = 0 then none else some (a + x.2, x.1)) (a + i) n = l.drop i
  | 0, i, h => by rw [List.drop_eq_nil_of_le (by omega)]; rfl
  | n + 1, i, h => by
    rw [rdBytes, rdByte, show a + i = a + 0 + i by omega, getD_bytes a l 0 i, show a + 0 + i + 1 = a + (i + 1) by omega,
      rdBytes_bytes a l n (i + 1) (by omega), List.drop_eq_getElem_cons (i := i) (by omega),
      List.getD_eq_getElem _ _ (by omega)]

/-! ### Images of models, vocabularies and grammars -/

/-- A model image of 320 bytes: word 0 (version 1, formats 2 and 2, one quire), parameters, program offset and length, the layout's version. -/
def imgA : List Byte :=
  let w : List (Nat × Nat) := [(0, 1 + 2 * 2 ^ 16 + 1 * 2 ^ 22 + 2 * 2 ^ 28), (1, 1000), (10, 312), (11, 320), (32, 1)]
  let z := (List.range 40).flatMap fun i => leBytes 8 ((mget w i).getD 0)
  z.take 208 ++ sha384 z ++ z.drop 256
set_option maxRecDepth 100000 in
theorem test_gal_load : (match readImage (reading up imgA) src0 1 0x5000 with | .ok bs => decide (bs = imgA) | _ => false) = true ∧
    headerOk imgA = true ∧ layoutOk imgA = true ∧
    ItemGo (reading up imgA) src0 ∧ src0.ctx = 0 ∧
    ran (.galLoad src0 1023 1 0x5000) (reading up imgA) (fun t => decide ((mget t.gal.models 1023).map (fun m => (m.params, m.bindings, m.source, m.addr)) = some (1000, 0, 1, 0x5000))) = true := by
  refine ⟨?_, ?_, ?_, ⟨?_, ?_⟩, rfl, ?_⟩ <;> decide +kernel
theorem test_gal_unload : sliceNames (sesS sesW) 4 = false ∧ sliceNames serv 3 = true ∧
    ItemGo serv src0 ∧ ran (.galUnload src0 4) { serv with gal := { serv.gal with models := [(3, modelA), (4, modelA)] } } (fun t => decide (t.gal.models = [(3, modelA)])) = true ∧
    fails (.galUnload src0 4) { serv with gal := { serv.gal with models := [(4, { modelA with bindings := 1 })] } }
      { serv with gal := { serv.gal with models := [(4, { modelA with bindings := 1 })] } } src0 0xD9 0x4005 = true ∧
    fails (.galUnload src63 4) serv serv src63 0xD9 0x400B = true ∧ fails (.galLoad src63 1023 1 0x5000) serv serv src63 0xD8 0x400B = true := by
  refine ⟨?_, ?_, ⟨?_, ?_⟩, ?_, ?_, ?_, ?_⟩ <;> decide +kernel

/-- Sixteen draft identities for session 7. -/
def slot7 : Slot := { slotA with index := 7 }
theorem test_gal_draft : draftWrite slot7 20 20 (List.replicate 16 9) = some { slot7 with draftBase := 20, draft := List.replicate 16 9, draftReady := 16 } ∧
    Handle (playing sesR none) src63 h7 7 sesR ∧
    ran (.galDraft src63 h7 20 16 0x5000) (reading (playing sesR none) ((List.range 16).flatMap fun _ => leBytes 4 9)) (fun t =>
      decide (mget t.gal.slots 0 = some { slotA with draftBase := 20, draft := List.replicate 16 9, draftReady := 16 })) = true := by
  refine ⟨?_, ⟨?_, ?_, ?_, ?_, ?_, ?_⟩, ?_⟩ <;> decide +kernel

/-- Partition 15 without quires, enabled. -/
def part15 (stop : Nat) : State := withFlds up [(GAL_PART_ENABLE 15, 1), (GAL_STATUS_STOPPED, stop)]
theorem canonical_part15 : Canonical (part15 0) := canonical_of_canon (by decide +kernel)
theorem test_switch : ItemGo (part15 0) src0 ∧ switchRefusal (part15 0) 0 15 0x1000 true = 0 ∧ switchRefusal (part15 0x8000) 0 15 0x1000 false = 0 ∧
    ran (.galPreempt src0 15 0x1000) (part15 0) (fun t => stopped t 15 && !stopped t 14) = true ∧
    ran (.galResume src0 15 0x1000) (part15 0x8000) (fun t => !stopped t 15) = true ∧
    switchRefusal (part15 0) 0 15 0x1001 true = 0x4007 ∧ switchRefusal (part15 0) 0 15 0x1000 false = 0x400A ∧
    fails (.galPreempt src0 15 0x1001) (part15 0) (part15 0) src0 0xDB 0x4007 = true ∧ fails (.galResume src63 15 0) (part15 0) (part15 0) src63 0xDC 0x400B = true := by
  refine ⟨⟨?_, ?_⟩, ?_⟩ <;> decide +kernel
/-! ### Galleys are built, swapped and committed -/

/-- Partition 1, slice 2 of `serv`, with one quire whose 40 cells are in service. -/
def galleyB : Galley :=
  { step := 5, model := 3, release := 1000, deadline := 3000, cCount := 0, positions := 0, recs := [], raw := [], done := [], missed := false }
def slicing (now : Nat) (y : Slice) (r : Option Nat) (quires : Nat) : State :=
  let s := withFlds serv [(GAL_PART_QUIRES 1, quires), (GAL_SLICE_A_PERIOD_NS 1 2, 2000), (GAL_SLICE_B_MAX_POS 1 2, 64), (GAL_SLICE_B_IS_SIZE 1 2, 1)]
  { s with clk := { s.clk with now }, gal := { s.gal with slices := [(6, y)], parts := [(1, { running := r, nest := [], search := none })] } }

theorem canonical_slicing : Canonical (slicing 1000 sliceA none 1) := canonical_of_canon (by decide +kernel)
theorem test_galley_build : let s := slicing 1000 { sliceA with nextStep := 4294967295 } none 0
    sliceOn s 1 2 = true ∧ (s.slice 6).built = none ∧ (sliceModel s 1 2).isSome = true ∧ s.fld (GAL_SLICE_A_KIND 1 2) = 0 ∧ boundContract s 6 = none ∧
    ran (.galleyBuild 1 2) s (fun t => decide (((t.slice 6).built.map fun g => (g.step, g.release, g.deadline, g.done)) = some (4294967295, 2000, 4000, [])) &&
      decide ((t.slice 6).nextStep = 0)) = true ∧
    kept (.galleyBuild 1 2) (slicing 1000 { sliceA with built := some galleyB } none 0) = true ∧ sliceOn s 1 3 = false ∧ kept (.galleyBuild 1 3) s = true := by
  decide +kernel

/-- The model of slice 2 names no quires, as the partition has none. -/
def bare (s : State) : State := { s with gal := { s.gal with models := [(3, { modelA with quires := 0 })] } }
theorem test_galley_swap : let s := bare (slicing 1000 { sliceA with built := some galleyB, prevDone := 1000 } none 0)
    stopped s 1 = false ∧ barred s 1 2 = false ∧ sliceOn s 1 2 = true ∧ (sliceModel s 1 2).isSome = true ∧
    ran (.galleySwap 1 2) s (fun t => decide (((t.slice 6).running.map (·.step)) = some 5) && decide ((t.slice 6).built = none) && (t.slice 6).building &&
      decide (t.fld (GAL_STEP_STEP 1 2) = 5)) = true ∧
    kept (.galleySwap 1 2) (bare (slicing 999 { sliceA with built := some galleyB } none 0)) = true := by decide +kernel

/-- Cell 0 of quire 0 is in service, and has or has not done its step. -/
def serving (s : State) : State := withFlds s [(FRM_CELL_STAT_STATE 0 0, 1), (FRM_CELL_STAT_SVC 0 0, 0)]
def stepping6 (now : Nat) (g : Galley) : State := serving (slicing now { sliceA with running := some g } (some 2) 1)
theorem test_galley_commit : partCells (stepping6 2000 galleyB) 1 = [0] ∧
    ran (.galleyCommit 1 2) (stepping6 2000 { galleyB with done := [0] }) (fun t => decide ((t.slice 6).running = none) && decide ((t.slice 6).prevDone = 2000)) = true ∧
    kept (.galleyCommit 1 2) (stepping6 2000 galleyB) = true := by decide +kernel
theorem test_cancelled_commit : let e := { sesR with cancelReq := true, history := [1, 2], state := .cancelling, cancel := some (src63, 0, 0) }
    let s := stepping6 2000 { galleyB with done := [0], recs := [{ recA with instar := 9, context := 63 }] }
    ran (.galleyCommit 1 2) { s with ses := { s.ses with entries := [(7, e)] } } (fun t => decide ((t.slice 6).running = none) &&
      decide ((t.ses? 7).map (fun x => (x.tokens, x.generated, x.history)) = some (20, 0, [1, 2]))) = true := by decide +kernel

theorem test_missed : let y := { sliceA with running := some { galleyB with cCount := 1 }, contract := some 4033 }
    ran (.contractStepMissed 1 2) ((slicing 3001 y (some 2) 0).setFld GAL_OVERRUN_COUNT (2 ^ 32 - 1)) (fun t => decide ((t.slice 6).running.map (·.missed) = some true) &&
      decide (t.fld GAL_OVERRUN_COUNT = 2 ^ 32 - 1)) = true ∧
    ran (.contractStepMissed 1 2) (slicing 3001 y (some 2) 0) (fun t => decide (t.fld GAL_OVERRUN_COUNT = 1)) = true ∧
    kept (.contractStepMissed 1 2) (slicing 3001 { y with running := some { galleyB with cCount := 1, missed := true } } (some 2) 0) = true ∧
    kept (.contractStepMissed 1 2) (slicing 3000 y (some 2) 0) = true := by decide +kernel
theorem test_watchdog : let wd := (slicing 0 sliceA none 0).fld FLT_TIMEOUT_A_STEP_WD
    (∃ n ∈ partCells (stepping6 0 galleyB) 1, n ∉ galleyB.done) ∧
    ran (.stepWatchdog 1 2) (stepping6 (1000 + wd * 2000) galleyB) (fun t => decide ((t.slice 6).running = none) && decide ((t.slice 6).prevDone = 1000 + wd * 2000)) = true ∧
    kept (.stepWatchdog 1 2) (stepping6 (999 + wd * 2000) galleyB) = true := by
  refine ⟨⟨0, ?_, ?_⟩, ?_⟩ <;> decide +kernel

/-! ### Text -/

def imgOf (w : List (Nat × Nat)) (body : List Nat) : List Byte :=
  let z := ((List.range 16).map fun i => (mget w i).getD 0) ++ body |>.flatMap (leBytes 8 ·)
  z.take 80 ++ sha384 z ++ z.drop 128
/-- A vocabulary of 256 byte tokens, each a special one-byte string; byte fallback from token 0; a trie of an empty root. -/
def imgV : List Byte :=
  imgOf [(0, 1 + 256 * 2 ^ 16), (1, 0x77), (2, 2 ^ 21), (3, 128 + 2184 * 2 ^ 32), (4, 2056 + 8 * 2 ^ 32), (5, 0x1FFFFF + 0x1FFFFF * 2 ^ 21),
         (6, 0x1FFFFF + 0x1FFFFF * 2 ^ 21), (7, 2192)] (List.replicate 256 (2 ^ 32 + 2 ^ 40) ++ [0, 0])
theorem beBytes_length : ∀ n x, (beBytes n x).length = n
  | 0, _ => rfl
  | n + 1, x => by rw [beBytes, List.length_cons, beBytes_length n x]

theorem shaRound_length (v : List Word) (k : Word × Word) (h : v.length = 8) : (shaRound v k).length = 8 := by
  unfold shaRound; split
  · rfl
  · exact h

theorem shaFold_length (l : List (Word × Word)) : ∀ v : List Word, v.length = 8 → (l.foldl shaRound v).length = 8 := by
  induction l with
  | nil => exact fun _ h => h
  | cons x l ih => exact fun v h => ih _ (shaRound_length v x h)

theorem shaBlock_length (v w : List Word) (h : v.length = 8) : (shaBlock v w).length = 8 := by
  simp only [shaBlock, List.length_zipWith, shaFold_length _ v h, h]; rfl

theorem shaBlocks_length : ∀ (n : Nat) (v w : List Word), v.length = 8 → (shaBlocks n v w).length = 8
  | 0, _, _, h => h
  | n + 1, v, w, h => by rw [shaBlocks]; exact shaBlocks_length n _ _ (shaBlock_length v _ h)

theorem sha384_length (bs : List Byte) : (sha384 bs).length = 48 := by
  have h := shaBlocks_length ((bs.length + 17 + 127) / 128) shaInit (beWords ((bs.length + 17 + 127) / 128 * 16)
    (bs ++ [0x80#8] ++ List.replicate ((bs.length + 17 + 127) / 128 * 128 - bs.length - 17) 0#8 ++ beBytes 16 (8 * bs.length))) rfl
  simp only [sha384, List.length_flatMap, beBytes_length, List.map_const', List.sum_replicate, List.length_take, h]; rfl

/-- An image whose digest stands in its place passes the digest check. -/
theorem digest_imgOf (z : List Byte) (hz : 128 ≤ z.length) (h0 : (z.drop 80).take 48 = List.replicate 48 0#8) :
    textDigestOk (z.take 80 ++ sha384 z ++ z.drop 128) = true := by
  have ha : (z.take 80).length = 80 := by rw [List.length_take]; omega
  have hb := sha384_length z
  rw [textDigestOk, decide_eq_true_eq]
  have e1 : (z.take 80 ++ sha384 z ++ z.drop 128).take 80 = z.take 80 := by
    rw [List.append_assoc, List.take_left' ha]
  have e2 : (z.take 80 ++ sha384 z ++ z.drop 128).drop 80 = sha384 z ++ z.drop 128 := by
    rw [List.append_assoc, List.drop_left' ha]
  have e3 : (z.take 80 ++ sha384 z ++ z.drop 128).drop 128 = z.drop 128 := by
    rw [List.drop_left' (by rw [List.length_append, ha, hb])]
  rw [e1, e2, e3, List.take_left' hb]
  have : z.take 80 ++ List.replicate 48 0#8 ++ z.drop 128 = z := by
    rw [← h0, List.append_assoc, show z.drop 128 = (z.drop 80).drop 48 by rw [List.drop_drop], List.take_append_drop, List.take_append_drop]
  rw [this]

theorem imgV_digest : textDigestOk imgV = true := digest_imgOf _ (by decide +kernel) (by decide +kernel)
set_option maxRecDepth 100000 in
theorem imgV_head : vocabHeadOk imgV = true := by
  simp only [vocabHeadOk, imgV_digest, Bool.and_true]
  decide +kernel
/-- The image holds a vocabulary of 256 tokens. -/
theorem test_vocabulary : ∃ v, parseVocab imgV = .ok v ∧ v.ntok = 256 := by
  have h : (match parseVocab imgV with | .ok v => decide (v.ntok = 256) | _ => false) = true := by
    rw [parseVocab, imgV_head]
    decide +kernel
  cases e : parseVocab imgV with
  | error st => rw [e] at h; exact absurd h Bool.false_ne_true
  | ok v => rw [e] at h; exact ⟨v, rfl, of_decide_eq_true h⟩

/-- An image that lies at 0x5000 is read whole. -/
theorem readHeaded_bytes (s : State) (src : Src) (bs : List Byte) (j n : Nat) (hl : bs.length = n) (hn : 128 ≤ n)
    (hh : imgWord (rdBytes (reading s bs).hbm 0x5000 128) j = n) (hb : s.hbmBad = []) : readHeaded (reading s bs) src 0x5000 j = .ok bs := by
  have h0 : addrOk 0x5000 true = true := by decide
  have h1 : spaceOf 0x5000 = 0 := by decide
  have h2 : bits (BitVec.toNat (0x5000 : Word)) 0 39 = 0x5000 := by decide
  have hp : ∀ l, hbmPoisoned (reading s bs) 0x5000 l = false := fun l => by simp [hbmPoisoned, reading, withBytes, hb]
  have hr : ∀ l, itemRead (reading s bs) src 2 0x5000 l = .ok (rdBytes (reading s bs).hbm 0x5000 l) := fun l => by
    unfold itemRead
    rw [if_neg (by rw [h0]; decide), h1]
    show (if hbmPoisoned (reading s bs) (bits (BitVec.toNat (0x5000 : Word)) 0 39) l then _ else _) = _
    rw [h2, hp]; rfl
  rw [readHeaded, hr]
  simp only [hh]
  rw [if_neg (by omega), hr]
  exact congrArg _ ((rdBytes_bytes 0x5000 bs n 0 (by omega)).trans rfl)

set_option maxRecDepth 100000 in
theorem imgV_length : imgV.length = 2192 := by decide +kernel
theorem test_tok_vload : ItemGo (reading up imgV) src63 ∧ readHeaded (reading up imgV) src63 0x5000 7 = .ok imgV :=
  ⟨⟨by decide +kernel, by decide +kernel⟩, readHeaded_bytes up src63 imgV 7 2192 imgV_length (by decide) (by decide +kernel) rfl⟩

/-- A grammar of one state without transitions for a vocabulary of one token. -/
def imgG : List Byte := imgOf [(0, 1 + 1 * 2 ^ 16), (1, 0x77), (2, 1), (3, 128 + 136 * 2 ^ 32), (4, 144), (5, 144)] [0, 0]
/-- A vocabulary of two tokens, a and b. -/
def vocA : Vocab :=
  { ntok := 2, vocabId := 0x77, byteFb := false, byteBase := 0, ends := [], strings := [([0x61], false, false), ([0x62], false, false)],
    trie := [(0, (0, [(0x61, 1), (0x62, 2)])), (1, (1, [])), (2, (2, []))], imageBytes := 0 }
def texts (vocabs : Map Vocab) (grammars : Map Grammar) (s : State) : State := { s with tok := { s.tok with vocabs, grammars } }
theorem canonical_gram : Canonical (reading (texts [(1, { vocA with ntok := 1 })] [] up) imgG) := canonical_of_canon (by decide +kernel)
set_option maxRecDepth 100000 in
theorem test_tok_gload : let s := reading (texts [(1, { vocA with ntok := 1 })] [] up) imgG
    (match readHeaded s src63 0x5000 5 with | .ok bs => decide (bs = imgG) | _ => false) = true ∧ gramHeadOk imgG = true ∧
    (parseGrammar imgG 1).map (·.nstates) = some 1 ∧
    ran (.tokGload src63 255 0x5000) s (fun t => decide ((mget t.tok.grammars 255) = parseGrammar imgG 1) && t.flag (TOK_GRAM_A_LOADED 255)) = true := by decide +kernel

theorem test_tok_unload : let g : Grammar := { nstates := 1, vocabId := 0x77, start := 0, classes := [0], states := [(0, 0, false, false)], entries := [], imageBytes := 144 }
    (texts [] [(255, g)] up).fld (TOK_GRAM_A_BINDINGS 255) = 0 ∧
    ran (.tokUnload src63 1 255) (texts [] [(255, g)] up) (fun t => decide (t.tok.grammars = []) && !t.flag (TOK_GRAM_A_LOADED 255)) = true ∧
    fails (.tokUnload src63 1 0) up up src63 0xE2 0x6007 = true := by decide +kernel

/-- "ab" gives tokens 0 and 1. -/
theorem test_tok_encode : (tokenise vocA [0x61, 0x62]).map (·.1) = [0, 1] ∧
    ran (.tokEncode src63 1 2 0x5000 0x6000) (reading (texts [(1, vocA)] [] up) [0x61, 0x62]) (fun t => decide (rdLE t.hbm 0x6000 8 = 1 * 2 ^ 32) &&
      decide (((t.queue 63 15).backlog.getLast?.map fun c => (c.status, c.result)) = some (0, 2))) = true := by decide +kernel

/-- Record 0 of slice 6 belongs to session 7, whose vocabulary has two tokens. -/
def sampling (r : Rec) (e : Session) : State :=
  let s := texts [(1, vocA)] [] (stepping6 2000 { galleyB with recs := [r] })
  { s with ses := { s.ses with entries := [(7, e)] } }
def recS (l : Map (List (Nat × List (BitVec 32)))) : Rec := { recA with instar := 9, context := 63, logits := l }
def greedy : Session := { sesR with text := { sesR.text with sampler := { sesR.text.sampler with topK := 1 } } }
theorem test_logits : wanted (sampling (recS []) greedy) (recS []) 0 = true ∧ ((recVocab (sampling (recS []) greedy) (recS [])).map (·.ntok)) = some 2 ∧
    ran (.logitSegment 1 2 0 0 1 [0x3F800000]) (sampling (recS [(0, [(0, [0])])]) greedy) (fun t => decide ((recAt t 6 0).bind (fun r => mget r.logits 0) = some [(0, [0]), (1, [0x3F800000])])) = true ∧
    ran (.logitSegment 1 2 0 0 2 [0]) (sampling (recS []) greedy) (fun t => decide ((recAt t 6 0).map (fun r => r.spoiled && r.logits.isEmpty) = some true)) = true := by decide +kernel
theorem test_sampled : let r := recS [(0, [(0, [0]), (1, [0x3F800000])])]
    let s := sampling r greedy
    allLogits r 0 2 = some [0, 0x3F800000] ∧ (gramAt s greedy vocA r 0).isSome = true ∧
    ran (.positionSampled 1 2 0 0) s (fun t => decide ((recAt t 6 0).bind (fun r => mget r.sampled 0) = some (some 1))) = true ∧
    kept (.positionSampled 1 2 0 0) (sampling { r with sampled := [(0, some 0)] } greedy) = true := by decide +kernel

/-! ### Associative banks -/

/-- Bank 31 of context 63: width 2, keys of 63 bytes; rows of entries 0 and 2,047. -/
def rowK (v b : Nat) : List Byte := BitVec.ofNat 8 v :: List.replicate 15 (BitVec.ofNat 8 b)
def banked (fl : List (Field × Nat)) (rows copy : Map (List Byte)) : State :=
  withFlds { up with banks := [(31, { rows, copy })] } ([(CAM_CFG_OWNER_KIND 31, 1), (CAM_CFG_OWNER 31, 63)] ++ fl)
theorem canonical_banked : Canonical (banked [(CAM_CFG_WIDTH 31, 2)] [] []) := canonical_of_canon (by decide +kernel)
theorem test_cam_cfg : ItemGo (banked [] [(0, rowK 1 5)] []) src63 ∧ bankOwned (banked [] [(0, rowK 1 5)] []) src63 31 = true ∧
    ran (.camCfg src63 31 2 63 true) (banked [] [(0, rowK 1 5), (8188, rowK 1 5)] []) (fun t => decide (bankUnits t 31 = 4) && decide (t.fld (CAM_CFG_KEY_BYTES 31) = 63) &&
      decide (t.fld (CAM_CFG_VALID_ENTRIES 31) = 0) && !entryValid (entryOf (t.bank 31).rows 4 2047) && !entryValid (entryOf (t.bank 31).rows 4 0)) = true ∧
    bankOwned up src63 31 = false ∧ fails (.camRead src63 31 0 0) up up src63 0xE7 0x6030 = true ∧ fails (.camWrite src63 31 0 false 0) up up src63 0xE5 0x6030 = true := by
  refine ⟨⟨?_, ?_⟩, ?_⟩ <;> decide +kernel

def entry64 : List Byte := rowK 0xFF 7 ++ rowK 8 9 ++ rowK 3 1 ++ rowK 2 2
theorem test_cam_write : bankEntries (banked [(CAM_CFG_WIDTH 31, 2)] [] []) 31 = 2048 ∧ entry64.length = 16 * 4 ∧
    ran (.camWrite src63 31 2047 false 0x5000) (reading (banked [(CAM_CFG_WIDTH 31, 2)] [(8187, rowK 1 1)] []) entry64) (fun t =>
      decide (entryOf (t.bank 31).rows 4 2047 = withValid entry64 true) && decide (entryOf (t.bank 31).copy 4 2047 = withValid entry64 true) &&
      decide (rowOf (t.bank 31).rows 8187 = rowK 1 1)) = true ∧
    ran (.camRead src63 31 2047 0x6000) (banked [(CAM_CFG_WIDTH 31, 2)] [(8188, rowK 1 1)] []) (fun t => decide (rdLE t.hbm 0x6000 2 = 0x101)) = true := by
  decide +kernel

set_option maxRecDepth 100000 in
/-- Entries 1 and 2,047 hold the key 5, 5; the mask takes its first byte alone. -/
theorem test_cam_find : let s := reading (banked [(CAM_CFG_WIDTH 31, 2), (CAM_CFG_KEY_BYTES 31, 2)] [(4, rowK 1 5), (8, rowK 1 6), (8188, rowK 1 5)] []) [5, 6]
    let res (start : Nat) (mask : Word) (r : Word) := done (.camFind src63 31 start 0x5000 mask 0) s s src63 0xE6 0 r 0 0
    res 0 1 (BitVec.ofNat 64 (1 + 2 ^ 13 + 2 ^ 14 + 2 * 2 ^ 16)) = true ∧ res 2 1 (BitVec.ofNat 64 (2047 + 2 ^ 13 + 1 * 2 ^ 16)) = true ∧ res 0 3 0 = true := by decide +kernel
theorem test_cam_scrub : ran (.camScrub 31) (banked [] [(4, rowK 1 5), (8, rowK 1 6)] [(4, rowK 1 4), (12, rowK 1 9)]) (fun t =>
    decide (rowOf (t.bank 31).rows 4 = rowK 1 4) && decide (rowOf (t.bank 31).rows 8 = List.replicate 16 0) && decide (rowOf (t.bank 31).rows 12 = rowK 1 9)) = true := by decide +kernel
/-! ### Cartridge bays -/

def colA : Colophon :=
  { sigOk := true, reservedZero := true, ver := 1, part := 0xC320, cls := 0, serial := 0x51, userBytes := 2 ^ 40, ratedWrites := 10 ^ 15, channels := 24,
    diesPerCh := 2, planes := 4, blocksPerPl := 100, pagesPerBlk := 100, tRdWorst := 60, tProgSlc := 230, tSusp := 40, tResumeMin := 36, progRate := 1000,
    retryMax := 3, peRated := 1000 }
def colBad : Colophon := { colA with tResumeMin := 37 }

/-- Bay 3 in a state, entered at time 1,000; device time `now`; READY as given. -/
def bay3 (st now : Nat) (x : Bay) (l : List (Field × Nat) := []) : State :=
  withFlds { up with clk := { up.clk with now }, pins := { up.pins with present := [false, false, false, false] },
                     crt := { up.crt with bays := [(3, x)], fresh := [0x51] } }
    ([(GLB_RES1_HUB_OK, 3), (CRT_BAY_STATE 3, st), (CRT_BAY_PRESENT 3, b2n (0 < st)), (CRT_SERIAL_SERIAL 3, 0x51)] ++ l)
def bayX : Bay := { bay0 with since := 1000, col := some colA }
/-- The state of bay 3 after a command, with a check. -/
def goes (i : Instr) (s : State) (st : Nat) (p : State → Bool := fun _ => true) : Bool := ran i s fun t => decide (bst t 3 = st) && p t

theorem canonical_bay3 : Canonical (bay3 1 0 bayX) := canonical_of_canon (by decide +kernel)
theorem test_bay_in : baysRun (bay3 0 0 bay0) 3 = true ∧ (bay3 0 0 bay0).pins.present.length = 4 ∧
    goes (.presenceAsserted 3) (bay3 0 77 bay0) 1 (fun t => t.flag (CRT_BAY_PRESENT 3) && decide ((t.bay 3).since = 77) && decide (t.pins.present[3]? = some true)) = true ∧
    goes (.presenceAsserted 3) (bay3 5 77 bayX) 5 = true ∧
    goes (.holdUpGood 3) (bay3 1 77 { bayX with badAt := some 3 }) 2 (fun t => t.flag (CRT_BAY_HOLDUP_OK 3) && decide ((t.bay 3).badAt = none)) = true ∧
    goes (.holdUpGood 3) (bay3 6 77 bayX) 6 (fun t => t.flag (CRT_BAY_HOLDUP_OK 3)) = true ∧
    goes (.holdUpTimerExpiry 3) (bay3 1 2000001000 bayX) 10 (fun t => decide (t.fld (CRT_BAY_RO_REASON 3) = 3)) = true ∧
    kept (.holdUpTimerExpiry 3) (bay3 1 2000000999 bayX) = true ∧ kept (.holdUpTimerExpiry 3) (bay3 2 2000001000 bayX) = true := by decide +kernel

theorem test_colophon : colA.tResumeMin + colA.tSusp + 2 * colA.tRdWorst + 4 ≤ 200 ∧
    goes (.colophonVerified 3 colA none none none true) (bay3 2 77 bay0) 3 (fun t => decide ((t.bay 3).col = some colA) && (t.bay 3).blank &&
      decide (t.fld (CRT_SERIAL_SERIAL 3) = 0x51) && decide (t.fld (CRT_BAY_PART 3) = 0xC320)) = true ∧
    goes (.colophonVerified 3 colA (some { bay0.wear with tagOk := true }) none none true) (bay3 2 77 bay0) 3 (fun t => !(t.bay 3).blank) = true ∧
    mget (bay3 2 77 bay0).flt.latch (0xB00 + 8 * 3 + 6) = none ∧
    goes (.colophonVerified 3 colBad none none none true) (bay3 2 77 bay0) 10 (fun t => decide ((mget t.flt.latch 0xB1E).map (·.status) = some 0x800A)) = true ∧
    kept (.colophonVerified 3 colA none none none true) (bay3 3 77 bay0) = true ∧
    goes (.i3cSilent 3) (bay3 2 100001000 bayX) 10 = true ∧ kept (.i3cSilent 3) (bay3 2 100000999 bayX) = true := by decide +kernel

theorem test_training : goes (.linkTrained 3 5 true) (bay3 3 50001000 bayX) 4 (fun t => decide (t.fld (CRT_BAY_LANES_GOOD 3) = 5)) = true ∧
    goes (.linkTrained 3 4 true) (bay3 3 2000 bayX) 10 = true ∧ goes (.linkTrained 3 6 false) (bay3 3 2000 bayX) 10 = true ∧
    goes (.linkTrained 3 6 true) (bay3 3 50001001 bayX) 10 = true ∧ kept (.linkTrained 3 6 true) (bay3 4 2000 bayX) = true ∧
    goes (.trainingRetry 3 6 true) (bay3 10 1000001000 bayX) 4 = true ∧
    goes (.trainingRetry 3 4 true) (bay3 10 1000001000 bayX) 10 (fun t => decide ((t.bay 3).since = 1000001000)) = true ∧
    kept (.trainingRetry 3 6 true) ((bay3 10 1000001000 bayX).setFld (CRT_BAY_PRESENT 3) 0) = true ∧ kept (.trainingRetry 3 6 true) (bay3 5 1000001000 bayX) = true := by
  decide +kernel

def recD (j : Nat) : DirRec × HeadPage := ({ rec0 with jseq := j }, ⟨false, 0, 0⟩)
def boot (s : State) : State := s.setFld GLB_STATE_READY 0
theorem test_replay : baysRun (boot (bay3 4 0 bayX)) 3 = true ∧ (boot (bay3 4 0 bayX)).fld GLB_STATE_READY = 0 ∧
    goes (.replayComplete 3 true 0 []) (boot (bay3 4 0 { bayX with blank := true })) 5 (fun t => !(t.bay 3).blank && t.mkr.due) = true ∧
    goes (.replayComplete 3 true 0 []) (boot (bay3 4 0 { bayX with blank := true, wear := { bay0.wear with readOnly := true } })) 6 = true ∧
    goes (.replayComplete 3 false 1 [recD 4, recD 7]) (boot (bay3 4 0 { bayX with opened := false })) 4 (fun t => (t.bay 3).tried) = true ∧
    goes (.replayComplete 3 false 0 []) (bay3 4 0 bayX) 7 = true := by decide +kernel
def domA : DomKeys := { wrap := 1, colophon := 2, composition := 3, debug := 4, gen := 1 }
theorem test_replay_keys : let s := boot (bay3 4 0 bayX)
    goes (.replayComplete 3 true 1 [recD 4, recD 7]) { s with sec := { s.sec with keys := some domA } } 5 (fun t =>
      decide ((t.bay 3).checkpoint.map (·.1.jseq) = [4]) && decide ((t.bay 3).journal.map (·.1.jseq) = [7]) && decide (7 < (t.bay 3).nextJseq)) = true := by decide +kernel

/-- 19,200 blocks: 96 spare blocks are one in 200. -/
theorem test_end_of_life : lifeOver (bay3 5 0 bayX [(CRT_BLOCKS_SPARE_BLOCKS 3, 96)]) 3 1 = true ∧ lifeOver (bay3 5 0 bayX [(CRT_BLOCKS_SPARE_BLOCKS 3, 97)]) 3 1 = false ∧
    parkingTo (bay3 5 0 bayX) 3 = [] ∧ (bayX.waitItems.filter fun y => y.1 = 0xF5) = [] ∧
    goes (.endOfLife 3 1) (bay3 5 0 bayX [(CRT_BLOCKS_SPARE_BLOCKS 3, 96)]) 6 (fun t => decide (t.fld (CRT_BAY_RO_REASON 3) = 1) && (t.bay 3).wear.readOnly && t.mkr.due) = true ∧
    kept (.endOfLife 3 1) (bay3 5 0 bayX [(CRT_BLOCKS_SPARE_BLOCKS 3, 97)]) = true ∧
    goes (.endOfLife 3 3) (bay3 5 100000000 { bayX with badAt := some 0 }) 6 = true ∧ kept (.endOfLife 3 3) (bay3 5 99999999 { bayX with badAt := some 0 }) = true := by decide +kernel

theorem test_removal : goes (.presenceDeasserted 3) (bay3 5 0 { bayX with journal := [recD 1] }) 0 (fun t => !t.flag (CRT_BAY_PRESENT 3) && decide ((t.bay 3).col = none) &&
      decide ((t.bay 3).journal.length = 0) && t.mkr.due) = true ∧
    goes (.holdUpStatusBad 3) (bay3 5 88 bayX [(CRT_BAY_HOLDUP_OK 3, 1)]) 5 (fun t => !t.flag (CRT_BAY_HOLDUP_OK 3) && decide ((t.bay 3).badAt = some 88)) = true ∧
    goes (.wearRecordWrite 3 true) (bay3 4 88 bayX) 4 (fun t => decide ((t.bay 3).wear.wgen = bayX.wear.wgen + 1) && (t.bay 3).wear.tagOk &&
      decide ((t.bay 3).wearAt = 88) && decide ((t.bay 3).wearCopy = 1)) = true ∧
    kept (.wearRecordWrite 3 true) (bay3 3 88 bayX) = true ∧ kept (.wearRecordWrite 3 true) (bay3 9 88 bayX) = true := by decide +kernel

/-! ### Cartridge items -/

/-- Object 0x1_3F08: context 63, kind 0, bay 3. -/
def obj63 : Word := 0x13F08
def stored : State := { (bay3 5 0 bayX [(CRT_FREE_BYTES 3, 16384), (CRT_BAY_HOLDUP_OK 3, 1), (SES_TIER_STATUS_BAYS_WRITABLE, 8)]) with hbm := [(0x5000, 1), (0x5001, 2), (0x5002, 3)] }
def withObj (s : State) : State := { s with crt := { s.crt with objects := [(0x13F08, ⟨3, [(0, 1), (1, 2), (2, 3)], [0x51]⟩)] } }
theorem canonical_stored : Canonical (withObj stored) := canonical_of_canon (by decide +kernel)
theorem test_crt_put : ItemGo stored src63 ∧ objWriteRefusal stored 63 0x13F08 = 0 ∧ objAt stored 0x13F08 = none ∧
    (∀ b ∈ maskBays (objMask 0x13F08), objShare 0x13F08 3 b ≤ stored.fld (CRT_FREE_BYTES b)) ∧ objKind 0x13F08 ≠ 3 ∧
    ran (.crtPut src63 obj63 0x5000 3) stored (fun t => decide ((objAt t 0x13F08).map (fun o => (o.len, objRead o 0 3)) = some (3, [1, 2, 3])) &&
      decide (((t.queue 63 15).backlog.getLast?.map fun c => (c.status, c.result)) = some (0, 3))) = true ∧
    (objAt (withObj stored) 0x13F08).isSome = true ∧ fails (.crtPut src63 obj63 0x5000 3) (withObj stored) (withObj stored) src63 0xF0 0x8007 = true := by
  refine ⟨⟨?_, ?_⟩, ?_⟩ <;> decide +kernel
theorem test_crt_get : (match objFind (withObj stored) 63 0x13F08 with | .ok o => decide (o.len = 3) | _ => false) = true ∧
    ran (.crtGet src63 obj63 0x6000 1 100) (withObj stored) (fun t => decide (rdLE t.hbm 0x6000 3 = 0x0302) &&
      decide (((t.queue 63 15).backlog.getLast?.map fun c => (c.status, c.result)) = some (0, 2))) = true ∧
    ran (.crtDel src63 obj63) (withObj stored) (fun t => decide (objAt t 0x13F08 = none)) = true ∧
    fails (.crtDel src63 obj63) stored stored src63 0xF2 0x8003 = true ∧ objCtx 0x13E08 ≠ 63 ∧
    fails (.crtGet src63 0x13E08 0x6000 0 1) (withObj stored) (withObj stored) src63 0xF1 0x8005 = true := by decide +kernel

theorem test_crt_eject : ran (.crtEject src0 3) (bay3 7 0 bayX) (fun t => decide (bst t 3 = 8) && decide ((t.bay 3).waitItems = [(0xF3, src0)]) && t.mkr.due) = true ∧
    fails (.crtEject src0 3) (bay3 8 0 bayX) (bay3 8 0 bayX) src0 0xF3 0x8009 = true ∧ fails (.crtEject src63 3) (bay3 5 0 bayX) (bay3 5 0 bayX) src63 0xF3 0x8008 = true ∧
    ran (.crtFormat src0 3) (bay3 7 0 { bayX with journal := [recD 1] }) (fun t => decide (bst t 3 = 4) && (t.bay 3).blank && decide ((t.bay 3).journal.length = 0)) = true ∧
    fails (.crtFormat src0 3) (bay3 6 0 bayX) (bay3 6 0 bayX) src0 0xF4 0x8009 = true ∧
    bayIdle (bay3 8 0 { bayX with waitItems := [(0xF3, src0)] }) 3 = true ∧
    goes (.ejectDrained 3) (bay3 8 0 { bayX with waitItems := [(0xF3, src0)] }) 9 (fun t => decide ((t.bay 3).waitItems = []) &&
      decide (((t.queue 0 0).backlog.getLast?.map fun c => (c.status, c.opcode)) = some (0, 0xF3))) = true ∧
    kept (.ejectDrained 3) (bay3 8 0 { bayX with openPage := [recD 1] }) = true ∧ kept (.ejectDrained 3) (bay3 5 0 bayX) = true := by decide +kernel
/-! ### Flash -/

theorem test_compact : ran (.crtCompact src0 3) (bay3 5 0 { bayX with journal := [recD 1, recD 2] }) (fun t => decide ((t.bay 3).compact = some 2) &&
      decide ((t.bay 3).waitItems = [(0xF5, src0)]) && t.flag (CRT_BAY_COMPACTING 3)) = true ∧
    fails (.crtCompact src0 3) (bay3 6 0 bayX) (bay3 6 0 bayX) src0 0xF5 0x8009 = true ∧
    ran (.compaction 3) (bay3 5 0 { bayX with journal := [recD 1, recD 2] } [(CRT_CFG_J_COMPACT, 2)]) (fun t => decide ((t.bay 3).compact = some 2)) = true ∧
    kept (.compaction 3) (bay3 5 0 { bayX with journal := [recD 1] } [(CRT_CFG_J_COMPACT, 2)]) = true ∧
    ran (.compactionSuperblockDurable 3) (bay3 5 0 { bayX with journal := [recD 1, recD 2], compact := some 1, waitItems := [(0xF5, src0)] }) (fun t =>
      decide ((t.bay 3).journal.map (·.1.jseq) = [2]) && decide ((t.bay 3).compact = none) && decide ((t.bay 3).wear.wgen = bayX.wear.wgen + 1) &&
      decide (((t.queue 0 0).backlog.getLast?.map fun c => (c.status, c.opcode, c.result)) = some (0, 0xF5, 1))) = true ∧
    kept (.compactionSuperblockDurable 3) (bay3 5 0 bayX) = true := by decide +kernel

def opA (retry : Nat) (again : Bool) : ChanOp := { channel := 2, die := 1, op := 1, row := 0, retry, started := 0, issuer := 0, again, owner := 0 }
def bayO (o : ChanOp) : Bay := { bayX with ops := [(9, o)], dies := [(dieKey 2 1, ⟨false, 1000⟩)] }
theorem test_die : dieOps (bayO (opA 0 false)) 2 1 ≠ [] ∧ mwf (bayO (opA 0 false)).ops = true ∧
    ran (.programSuspend 3 2 1) (bay3 5 37000 (bayO (opA 0 false))) (fun t => decide (mget (t.bay 3).dies (dieKey 2 1) = some ⟨true, 1000⟩)) = true ∧
    kept (.programSuspend 3 2 1) (bay3 5 36999 (bayO (opA 0 false))) = true ∧ kept (.programSuspend 3 2 0) (bay3 5 37000 (bayO (opA 0 false))) = true := by decide +kernel
theorem test_page_read : ran (.pageReadDone 3 9 true 0 []) (bay3 4 77 (bayO (opA 0 false))) (fun t => decide ((t.bay 3).ops = []) &&
      decide ((blockOf t 3 (blockKey (opA 0 false))).reads = 1)) = true ∧
    ran (.pageReadDone 3 9 false 0 []) (bay3 8 77 (bayO (opA 2 false))) (fun t => decide (mget (t.bay 3).ops 9 = some { opA 3 false with started := 77 }) &&
      decide (t.fld (CRT_ERRS_RETRIES 3) = 1)) = true ∧
    ran (.pageReadDone 3 9 false 0 []) (bay3 5 77 (bayO (opA 3 false)) [(CRT_ERRS_UNCORRECTABLE 3, 65535)]) (fun t => decide ((t.bay 3).ops = []) &&
      decide (t.fld (CRT_ERRS_UNCORRECTABLE 3) = 65535)) = true := by decide +kernel
theorem test_program_failure : ran (.programOrEraseFailure 3 12 false) (bay3 5 0 bayX [(CRT_BLOCKS_SPARE_BLOCKS 3, 96)]) (fun t => (blockOf t 3 12).retired &&
      decide (t.fld (CRT_BLOCKS_SPARE_BLOCKS 3) = 95)) = true := by decide +kernel
theorem test_die_timeout : let ns := (bay3 5 0 bayX).fld FLT_TIMEOUT_B_CHOP_MS * 1000000
    ran (.flashDieTimeout 3 2 1) (bay3 5 ns (bayO (opA 0 false))) (fun t => decide (mget (t.bay 3).ops 9 = some { opA 0 true with started := ns }) && decide ((t.bay 3).deadDies = [])) = true ∧
    ran (.flashDieTimeout 3 2 1) (bay3 5 ns (bayO (opA 0 true))) (fun t => decide ((t.bay 3).deadDies = [dieKey 2 1]) && decide (dieOps (t.bay 3) 2 1 = [])) = true ∧
    kept (.flashDieTimeout 3 2 1) (bay3 5 (ns - 1) (bayO (opA 0 true))) = true := by decide +kernel

/-- The receive sequence wraps at 4,096. -/
def linkA : Link := { link0 with rxSeq := 4095, nakOwed := false }
def flitA (ok : Bool) (typ seq : Nat) : Flit := { crcOk := ok, seq, typ, ack := 0, nak := false, channel := 0, len := 0, optag := 0, payload := [] }
theorem test_flits : ran (.flitReceived 3 (flitA false 1 4095)) (bay3 5 0 { bayX with link := linkA }) (fun t => (t.bay 3).link.nakOwed && decide ((t.bay 3).link.rxSeq = 4095)) = true ∧
    ran (.flitReceived 3 (flitA true 2 0)) (bay3 5 0 { bayX with link := linkA }) (fun t => (t.bay 3).link.nakOwed && decide ((t.bay 3).link.rxSeq = 4095)) = true ∧
    ran (.flitReceived 3 (flitA true 2 4095)) (bay3 8 0 { bayX with link := { linkA with nakOwed := true } }) (fun t => !(t.bay 3).link.nakOwed && decide ((t.bay 3).link.rxSeq = 0)) = true ∧
    ran (.flitResendTimeout 3) (bay3 5 4000 { bayX with link := { linkA with replay := [flitA true 2 1] } }) (fun t => decide ((t.bay 3).link.sent.length = 1) &&
      decide ((t.bay 3).link.resends = 1) && decide (t.fld (CRT_ERRS_REPLAYS 3) = 1)) = true ∧
    kept (.flitResendTimeout 3) (bay3 5 3999 { bayX with link := { linkA with replay := [flitA true 2 1] } }) = true ∧
    kept (.flitResendTimeout 3) (bay3 5 4000 bayX) = true := by decide +kernel
theorem test_retrain : let x := { bayX with link := { linkA with resends := 16 } }
    goes (.retrain 3 5) (bay3 5 0 x [(CRT_BAY_LANES_GOOD 3, 5)]) 5 (fun t => decide ((t.bay 3).link.resends = 0) && decide (t.fld (CRT_BAY_LANES_GOOD 3) = 5)) = true ∧
    goes (.retrain 3 4) (bay3 6 0 x) 10 = true ∧ kept (.retrain 3 4) (bay3 6 0 { bayX with link := { linkA with resends := 15 } }) = true := by decide +kernel

/-- A bay of part 0xC320 relocates after 50,000 reads. -/
def worn (n : Nat) : State := bay3 6 88 { bayX with blocks := [(12, { reads := n, erases := 7, retired := false, scanned := 0 })] } [(CRT_BAY_PART 3, 0xC320)]
theorem test_upkeep : bayJournals (worn 0) 3 = true ∧ readLimit (worn 0) 3 = 50000 ∧
    ran (.readDisturbRelocation 3 12) (worn 50000) (fun t => decide (((blockOf t 3 12).reads, (blockOf t 3 12).erases) = (0, 8))) = true ∧
    kept (.readDisturbRelocation 3 12) (worn 49999) = true ∧
    ran (.wearLevelling 3 12 13) (worn 5) (fun t => decide ((blockOf t 3 12).erases = 8) && decide ((blockOf t 3 13).erases = 0)) = true := by decide +kernel
theorem test_collector : mwf (bay3 5 0 bayX).crt.stale = true ∧
    ran (.collector 3) { (bay3 5 0 bayX) with crt := { (bay3 5 0 bayX).crt with stale := [(3, 9)] } } (fun t => decide (t.crt.stale = [])) = true ∧
    kept (.collector 3) (bay3 6 0 bayX) = true := by decide +kernel
theorem test_journal : ran (.journalPageClose 3) (bay3 5 101000 { bayX with openPage := [recD 1], openAt := 1000 }) (fun t => decide ((t.bay 3).openPage.length = 0) &&
      decide ((t.bay 3).inFlight.map (·.submitted) = [101000])) = true ∧
    kept (.journalPageClose 3) (bay3 5 100999 { bayX with openPage := [recD 1], openAt := 1000 }) = true ∧ kept (.journalPageClose 3) (bay3 5 101000 bayX) = true ∧
    ran (.journalPageProgrammed 3) (bay3 5 0 { bayX with inFlight := [⟨[recD 1], 0⟩], journal := [recD 0] } [(CRT_BAY_HOLDUP_OK 3, 1)]) (fun t =>
      decide ((t.bay 3).journal.map (·.1.jseq) = [0, 1]) && decide ((t.bay 3).inFlight.length = 0) && decide (t.fld (CRT_JRNL_JOURNAL 3) = 2)) = true ∧
    kept (.journalPageProgrammed 3) (bay3 5 0 bayX) = true := by decide +kernel

/-- Frame 1,000 of session 7 is pied and clean, with a P3 copy in bay 3. -/
def pied : State :=
  let s := bay3 5 0 bayX
  let e : Session := { sesW with kv := [(0, pageRef false false 1 0 1000)], p3 := some { copyA 3 with serial := 0x51 } }
  { s with ses := { s.ses with entries := [(7, e)], frames := [(1000, { refcnt := 1, kind := 1, context := 63, pied := true, crcValid := false, crc := 0 })] } }
theorem test_pied : (frameOwner pied 1000).map (·.1) = some 7 ∧ copyPresent pied { copyA 3 with serial := 0x51 } = true ∧
    (match frameOwner pied 1000 with | some x => !frameDirty x.2 1000 | none => false) = true ∧
    ran (.piedPageRecovery 1000 true) pied (fun t => decide ((t.frame 1000).map (·.pied) = some false)) = true ∧
    kept (.piedPageRecovery 1001 true) pied = true := by decide +kernel
/-! ### Search -/

/-- An index of one dimension, one partition of one code page, no main vectors, and a side section of one page; one durable side
record of the value 3.0. -/
def idxA : Index :=
  { object := 0x13F28, metric := 0, vformat := 0, d := 1, m := 1, log2rec := 6, nlist := 1, g := 1, nvec := 0, centB := 0, rrB := 0, gen := 4, centPg := 1, bookPg := 2,
    codePg := 3, vecPg := 4, sidePg := 4, sidePages := 1, side := [⟨1, 0x99, 0, false, [0x40400000], none, false, true⟩], nextSeq := 2, pageOpen := 0, pageAt := 0,
    pagesInFlight := [], queries := [], nextQuery := 5, docs := [], nextDoc := 4095, encoder := some (1, 0), merge := none, closing := none, oldObjects := [], badPins := [] }
def flashObj : FlashObj := ⟨5 * 16384, [], [0x51]⟩
def search (x : Index) (l : List (Field × Nat) := []) : State :=
  let s := withFlds stored ([(VSE_IX_A_CONTEXT 63, 63), (VSE_IX_A_SIDE_CAP 63, 256), (VSE_IX_A_QPG 63, 2), (VSE_IX_A_PART 63, 1)] ++ l)
  { s with vse := [(63, x)], crt := { s.crt with objects := [(0x13F28, flashObj)] }, hbm := [(0x5000, 0), (0x5002, 0x80), (0x5003, 0x3F)].filter (·.2 ≠ 0) }
def src15 : Src := src63

theorem canonical_search : Canonical (search idxA) := canonical_of_canon (by decide +kernel)
theorem test_index_meets : ItemGo (search idxA) src63 ∧ openIndex (search idxA) src63 63 = some idxA ∧
    ((search idxA).mkr.admitted.any fun c => decide (c.2.kind = 4) && decide (cf c.2 2 0 16 = 63)) = false ∧
    slotQuiet { idxA with docs := [] } = true ∧ mwf (search idxA).vse = true ∧ sideRefusal (search idxA) 63 idxA = 0 ∧ maskReads (search idxA) idxA.object = true := by
  refine ⟨⟨?_, ?_⟩, ?_⟩ <;> decide +kernel
theorem test_vse_close : ran (.vseClose src63 63) (search idxA) (fun t => decide (t.vse.length = 0)) = true ∧
    ran (.vseClose src63 63) (search { idxA with merge := some (src0, 0, 0) }) (fun t => decide ((mget t.vse 63).bind (·.closing) = some src63)) = true ∧
    slotQuiet { idxA with merge := some (src0, 0, 0) } = false ∧ fails (.vseClose src0 63) (search idxA) (search idxA) src0 0xE9 0x7002 = true ∧
    openIndex (search idxA) src0 63 = none := by decide +kernel
theorem test_vse_open_refused : (mget (search idxA).vse 63).isSome = true ∧
    fails (.vseOpen src63 0x13F28 63 1 0 false false 2 256 0 0 true) (search idxA) (search idxA) src63 0xE8 0x7001 = true := by decide +kernel

/-- A query of 1.0 for one result finds the side record. -/
theorem test_vse_query : (match itemRead (search idxA) src63 2 0x5000 4 with | .ok bs => decide ((chunks 4 1 bs).map leNat = [0x3F800000]) | _ => false) = true ∧
    (policeQuery (search idxA) 63 63 1 1 1 0xFFFF).1 ≠ 3 ∧
    ran (.vseQuery src63 63 1 1 1 0x5000 0 0 0x6000 0xFFFF) (search idxA) (fun t => decide (((mget t.vse 63).bind fun x => mget x.queries 5).map (fun q =>
      (q.out.map (·.1), q.gen, q.snap, q.k)) = some ([0x99], 4, 1, 1))) = true := by decide +kernel

theorem test_vse_insert : ran (.vseInsert src63 63 0x12 0x77 0x5000) (search idxA) (fun t => decide ((mget t.vse 63).map (fun x => (x.nextSeq, x.side.length)) = some (3, 2)) &&
      decide ((mget t.vse 63).bind (fun x => x.side[1]?) = some ⟨2, 0x77, 0x12, false, [0x3F800000], some src63, false, false⟩)) = true ∧
    ran (.vseDelete src63 63 0x77) (search idxA) (fun t => decide ((mget t.vse 63).bind (fun x => x.side[1]?) = some ⟨2, 0x77, 0, true, [0], some src63, false, false⟩)) = true ∧
    sideRefusal (search idxA [(VSE_IX_A_SIDE_CAP 63, 1)]) 63 idxA = 0x7008 ∧
    fails (.vseInsert src63 63 0 0x77 0x5000) (search idxA [(VSE_IX_A_SIDE_CAP 63, 1)]) (search idxA [(VSE_IX_A_SIDE_CAP 63, 1)]) src63 0xEB 0x7008 = true := by decide +kernel

theorem test_vse_merge : objMay 63 0x23F28 = true ∧ maskWrites (search idxA) 0x23F28 = true ∧ objAt (search idxA) 0x23F28 = none ∧ pinsFit (search idxA [(GLB_RES0_HBM_GIB, 32)]) 63 idxA = true ∧
    ran (.vseMerge src63 63 0x23F28) (search idxA [(GLB_RES0_HBM_GIB, 32)]) (fun t => decide ((mget t.vse 63).bind (·.merge) = some (src63, 0x23F28, 1)) && t.flag (VSE_IX_A_MERGING 63)) = true ∧
    fails (.vseMerge src63 63 0x23F28) (search { idxA with merge := some (src0, 0, 0) }) (search { idxA with merge := some (src0, 0, 0) }) src63 0xED 0x7009 = true := by decide +kernel

theorem test_vse_doc : ran (.vseDoc src63 63 1 0x12 0x77 0x5000) (search idxA) (fun t => decide ((mget t.vse 63).map (fun x => (x.nextDoc, x.docs)) = some (4096, [⟨4095, [0x3F800000], 0x12, 0x77, src63⟩])) &&
    decide (((t.queue 63 15).backlog.getLast?.map fun c => (c.status, c.result)) = some (0, 4095))) = true := by decide +kernel

/-! ### The events of a search -/

def queryA : Query :=
  { src := src63, k := 2, raddr := 0x6000, gen := 4, snap := 1, fetched := 0, colour := 0, policed := none, deadline := none, out := [(0x99, 0x40800000, 0)], dead := 0, filtered := 0,
    scanned := 0, toScan := [(0, 72)], keys := [(2 ^ 38 + 1, 73)], toRead := [] }
def asking (q : Query) : State := search { idxA with queries := [(5, q)] }
theorem test_search_release : (sortBy (fun (a b : Nat × Nat × Query) => queryLt a.2 b.2) (searchHeads (asking queryA) 1)).head?.map (·.1) = some 63 ∧
    ran (.searchGalleyRelease 1) (asking queryA) (fun t => decide ((t.part 1).search = some (63, [5], 0, none))) = true ∧
    kept (.searchGalleyRelease 1) (search idxA) = true ∧ searchHeads (search idxA) 1 = [] := by decide +kernel
def query5 (t : State) : Option Query := (mget t.vse 63).bind fun x => mget x.queries 5
theorem test_scan_return : let i := engineInstar (asking queryA) 72
    ran (.partitionScanReturn 63 5 0 72 i) (asking queryA) (fun t => decide ((query5 t).map (fun q => (q.toScan, q.toRead, q.out)) = some ([], [(2 ^ 38 + 1, 73)], queryA.out))) = true ∧
    ran (.partitionScanReturn 63 5 0 72 (i + 1)) (asking queryA) (fun t => decide (t.vse = (asking queryA).vse)) = true ∧
    ran (.recordReadReturn 63 5 (2 ^ 38 + 1) 73 (engineInstar (asking queryA) 73)) (asking { queryA with toScan := [], toRead := queryA.keys }) (fun t =>
      decide ((query5 t).map (fun q => (q.toRead, q.out)) = some ([], queryA.out))) = true := by decide +kernel
def answered : State :=
  let s := asking { queryA with toScan := [], toRead := [] }
  { s with gal := { s.gal with parts := [(1, { running := some 4, nest := [], search := some (63, [5], 0, none) })] } }
theorem test_query_complete : inSearch answered 63 5 = true ∧ (resultBytes { queryA with toScan := [], toRead := [] } 0).length = 64 ∧
    ran (.queryComplete 63 5) answered (fun t => decide (query5 t = none) && decide (rdLE t.hbm (0x6000 + 32) 8 = 0x99) &&
      decide (((t.queue 63 15).backlog.getLast?.map fun c => (c.status, c.result)) = some (0, 1 + 2 ^ 11))) = true ∧ kept (.queryComplete 63 5) (asking queryA) = true := by decide +kernel

/-- Two records of an open side page, opened at 0. -/
def sidePage (now : Nat) (x : Index) : State := { search x with clk := { stored.clk with now } }
def openA : Index := { idxA with pageOpen := 1, side := idxA.side ++ [⟨2, 0x77, 0, false, [0], some src63, false, false⟩], nextSeq := 3 }
theorem test_side_page : ran (.sidePageClose 63) (sidePage 100000 openA) (fun t => decide ((mget t.vse 63).map (fun x => (x.pageOpen, x.pagesInFlight)) = some (0, [1]))) = true ∧
    kept (.sidePageClose 63) (sidePage 99999 openA) = true ∧ kept (.sidePageClose 63) (sidePage 100000 idxA) = true ∧
    (∀ b ∈ maskBays (objMask 0x13F28), (search idxA).flag (CRT_BAY_HOLDUP_OK b) = true) ∧
    ran (.sideRecordDurable 63) (search { openA with pageOpen := 0, pagesInFlight := [1] }) (fun t => decide ((mget t.vse 63).map (fun x => (x.side.map (·.durable), x.pagesInFlight)) = some ([true, true], [])) &&
      decide (((t.queue 63 15).backlog.getLast?.map fun c => (c.status, c.opcode)) = some (0, 0xEB))) = true ∧
    kept (.sideRecordDurable 63) (search idxA) = true := by decide +kernel
theorem test_energy : ran (.energyMeter 100 3 [(63, 2)]) (search idxA [(VSE_IX_ENERGY_ENERGY_UJ 63, 2 ^ 64 - 1)]) (fun t => decide (t.fld (VSE_IX_ENERGY_ENERGY_UJ 63) = 65)) = true ∧
    kept (.mergeGenerationChange 63) (search idxA) = true := by decide +kernel

/-! ### The cell items of an index -/

def cellI : Cell := { cellH with s := [(1, 0x100), (2, 0x1000), (3, 2)], mem := [(0x108, 7), (0x118, 9), (0x100E, 5), (0x1012, 6)] }
def itemI (m out : Nat) : CellItem := { item0 with d := 5, a := 1, b := 2, c := 3, w1 := BitVec.ofNat 64 (m + out * 2 ^ 9) }
theorem test_vsr_scan : CellGo (one cellI) (itemI 1 0x2000) 1 ∧ CellReads (one cellI) cellI 0x100 (2 * entryBytesOf 1) 1 ∧ CellReads (one cellI) cellI 0x1000 512 1 ∧
    CellWrites (one cellI) cellI 0x2000 8 1 ∧
    cellAfter (.vsrScan (itemI 1 0x2000)) cellI (fun c => decide (rdLE c.mem 0x2000 8 = 5 + 6 * 2 ^ 32) && decide (sreg c 5 = 2)) = true ∧
    traps (.vsrScan (itemI 0 0x2000)) cellI 2 = true ∧ traps (.vsrScan (itemI 257 0x2000)) cellI 2 = true := by
  refine ⟨⟨?_, ?_, ?_, ?_⟩, ⟨?_, ?_, ?_, ?_, ?_⟩, ⟨?_, ?_, ?_, ?_, ?_⟩, ⟨?_, ?_, ?_⟩, ?_⟩ <;> decide +kernel

/-- Record 0 of the galley of slice 1 names document 3 of slot 63. -/
def putting : State :=
  let s := search { idxA with docs := [⟨3, [1], 0x12, 0x77, src63⟩] } [(GAL_SLICE_B_IS_SIZE 0 1, 1)]
  { s with cells := [(0, { cellG with s := [(1, 0x100), (2, 0)], mem := [(0x102, 0x80), (0x103, 0x3F)] })],
           gal := { s.gal with slices := [(1, { sliceA with running := some { galleyA with raw := [[BitVec.ofNat 64 (3 + 63 * 2 ^ 12)]], recs := [] } })] } }
def itemP : CellItem := { item0 with d := 5, a := 1, b := 2 }
theorem test_vsr_put : CellGo putting itemP 0 ∧ ran (.vsrPut itemP) putting (fun t => decide (sreg (t.cell 0) 5 = BitVec.ofNat 64 (2 * 2 ^ 16)) &&
      decide ((mget t.vse 63).map (fun x => (x.docs, x.nextSeq, x.side.length)) = some ([], 3, 2))) = true ∧
    (let t := { putting with vse := [] }; (match exec (.vsrPut itemP) t with | .next u => decide (u.freeCtr = t.freeCtr + 1) | _ => false)) = true := by
  refine ⟨⟨?_, ?_, ?_, ?_⟩, ?_, ?_⟩ <;> decide +kernel

/-! ### An index image -/

/-- The header words of an index of one dimension with no vectors. -/
def headA : List Byte := (headWords idxA).flatMap (leBytes 8)
def mapA : Map Byte := headA.zipIdx.map fun x => (x.2, x.1)
/-- The bytes the digest covers, its own place zero. -/
def bodyA : List Byte := rdBytes mapA 0 65536
/-- Forty-eight bytes at 80. -/
def digAt (d : List Byte) : Map Byte := (List.range 48).map fun i => (80 + i, d.getD i 0)
def idxObj : FlashObj := ⟨5 * 16384, mapA ++ digAt (sha384 bodyA), [0x51]⟩

theorem mget_append {α : Type} (k : Nat) (b : Map α) : ∀ a : Map α, mget (a ++ b) k = match mget a k with | some v => some v | none => mget b k
  | [] => rfl
  | (j, v) :: a => by
    by_cases e : j = k
    · simp [mget, e]
    · simp [mget, e, mget_append k b a]
theorem mget_ranged (f : Nat → Byte) (k : Nat) : ∀ n b, mget ((List.range' b n).map fun i => (80 + i, f i)) k = if 80 + b ≤ k ∧ k < 80 + b + n then some (f (k - 80)) else none
  | 0, b => by simp [mget]
  | n + 1, b => by
    rw [List.range'_succ, List.map_cons, mget, mget_ranged f k n (b + 1)]
    by_cases e : 80 + b = k
    · subst e; simp
    · rw [if_neg e]
      by_cases h : 80 + (b + 1) ≤ k ∧ k < 80 + (b + 1) + n
      · rw [if_pos h, if_pos (by omega)]
      · rw [if_neg h, if_neg (by omega)]
theorem mget_digAt (d : List Byte) (k : Nat) : mget (digAt d) k = if 80 ≤ k ∧ k < 128 then some (d.getD (k - 80) 0) else none := by
  rw [digAt, List.range_eq_range', mget_ranged (fun i => d.getD i 0) k 48 0]
theorem mget_mapA (k : Nat) (h : 80 ≤ k) : mget mapA k = none := by
  have e : mapA.all (fun x => decide (x.1 < 80)) = true := by decide +kernel
  generalize mapA = m at e
  induction m with
  | nil => rfl
  | cons x m ih =>
    simp only [List.all_cons, Bool.and_eq_true, decide_eq_true_eq] at e
    rw [show x = (x.1, x.2) from rfl, mget, if_neg (by omega)]
    exact ih e.2
theorem idxObj_far (d : List Byte) (n a : Nat) (h : a + n ≤ 80 ∨ 128 ≤ a) : rdBytes (mapA ++ digAt d) a n = rdBytes mapA a n := by
  apply rdBytes_congr
  intro k h1 h2
  rw [rdByte, rdByte, mget_append, mget_digAt, if_neg (by omega)]
  cases mget mapA k <;> rfl
theorem rdBytes_add (m : Map Byte) : ∀ n a k, rdBytes m a (n + k) = rdBytes m a n ++ rdBytes m (a + n) k
  | 0, a, k => by rw [Nat.zero_add, rdBytes, List.nil_append, Nat.add_zero]
  | n + 1, a, k => by
    rw [show n + 1 + k = (n + k) + 1 by omega, rdBytes, rdBytes, rdBytes_add m n (a + 1) k, List.cons_append, show a + (n + 1) = a + 1 + n by omega]
theorem rdBytes_digest (d : List Byte) (hd : d.length = 48) : rdBytes (mapA ++ digAt d) 80 48 = d := by
  have g : ∀ n i, i + n = 48 → rdBytes (mapA ++ digAt d) (80 + i) n = d.drop i := by
    intro n
    induction n with
    | zero => intro i h; rw [List.drop_eq_nil_of_le (by omega)]; rfl
    | succ n ih =>
      intro i h
      rw [rdBytes, rdByte, mget_append, mget_mapA _ (by omega), mget_digAt, if_pos (by omega), show 80 + i + 1 = 80 + (i + 1) by omega, ih (i + 1) (by omega),
        List.drop_eq_getElem_cons (i := i) (by omega)]
      simp only [Option.getD_some, show 80 + i - 80 = i by omega]
      rw [List.getD_eq_getElem _ _ (by omega)]
  simpa using g 48 0 rfl
/-- A digest that stands in its place is the one of the bytes around it. -/
theorem idxObj_digest : let body := rdBytes idxObj.bytes 0 65536
    body.take 80 ++ List.replicate 48 0#8 ++ body.drop 128 = bodyA ∧ ((rdBytes idxObj.bytes 0 128).drop 80).take 48 = sha384 bodyA := by
  have hs := sha384_length bodyA
  have l (m : Map Byte) (n a : Nat) : (rdBytes m a n).length = n := rdBytes_length m n a
  have m0 : rdBytes mapA 80 48 = List.replicate 48 0#8 := by decide +kernel
  have split : rdBytes idxObj.bytes 0 65536 = rdBytes mapA 0 80 ++ (sha384 bodyA ++ rdBytes mapA 128 65408) := by
    rw [show (65536 : Nat) = 80 + (48 + 65408) from rfl, rdBytes_add, rdBytes_add, show idxObj.bytes = mapA ++ digAt (sha384 bodyA) from rfl,
      idxObj_far _ 80 0 (by omega), rdBytes_digest _ hs, idxObj_far _ 65408 _ (by omega)]
  have whole : bodyA = rdBytes mapA 0 80 ++ (List.replicate 48 0#8 ++ rdBytes mapA 128 65408) := by
    rw [bodyA, show (65536 : Nat) = 80 + (48 + 65408) from rfl, rdBytes_add, rdBytes_add, m0]
  refine ⟨?_, ?_⟩
  · simp only [split]
    rw [List.take_left' (l _ _ _), ← List.append_assoc (rdBytes mapA 0 80) (sha384 bodyA), List.drop_left' (by rw [List.length_append, l, hs]), List.append_assoc, ← whole]
  · rw [show (128 : Nat) = 80 + 48 from rfl, rdBytes_add, List.drop_left' (l _ _ _), show idxObj.bytes = mapA ++ digAt (sha384 bodyA) from rfl, rdBytes_digest _ hs, List.take_of_length_le (by omega)]
/-- A state without the index, whose object is on the cartridge. -/
def opening : State :=
  let s := search idxA [(GLB_RES0_HBM_GIB, 32)]
  { s with vse := [], crt := { s.crt with objects := [(0x13F28, idxObj)] } }
def headI : Index := headIndex 0x13F28 (rdBytes idxObj.bytes 0 128)
theorem headI_fields : headI.sidePg = 4 ∧ headI.sidePages = 1 ∧ headI.log2rec = idxA.log2rec ∧ headI.gen = 4 ∧ headI.nvec = 0 := by decide +kernel
theorem objLE_far (a : Nat) (h : 128 ≤ a) : objLE idxObj a 8 = 0 := by
  have z (k : Nat) (hk : 128 ≤ k) : rdByte mapA k = 0 := by rw [rdByte, mget_mapA k (by omega)]; rfl
  rw [objLE, show idxObj.bytes = mapA ++ digAt (sha384 bodyA) from rfl, idxObj_far _ 8 a (Or.inr h)]
  simp only [rdBytes]
  rw [z _ (by omega), z _ (by omega), z _ (by omega), z _ (by omega), z _ (by omega), z _ (by omega), z _ (by omega), z _ (by omega)]
  rfl
theorem codeAt_far (p i : Nat) : 128 ≤ codeAt headI p i := by
  have h : headI.codePg = 3 := by decide +kernel
  rw [codeAt, h]
  generalize p * headI.g = u
  generalize i % entriesPage headI.m * entryBytesOf headI.m = v
  generalize i / entriesPage headI.m = w
  omega
theorem idxObj_ok : indexOk idxObj headI (rdBytes idxObj.bytes 0 128) = true := by
  unfold indexOk
  refine Bool.and_eq_true_iff.mpr ⟨Bool.and_eq_true_iff.mpr ⟨Bool.and_eq_true_iff.mpr ⟨?_, ?_⟩, ?_⟩, ?_⟩
  · decide +kernel
  · rw [List.all_eq_true]
    intro j _
    simp only [objLE_far _ (codeAt_far _ _)]
    decide
  · rw [headI_fields.2.2.2.2]; rfl
  · rw [decide_eq_true_eq, headI_fields.1]
    have h := idxObj_digest
    rw [show (4 : Nat) * 16384 = 65536 from rfl, h.2]
    exact congrArg sha384 h.1
/-- What the opened slot holds before its side section is read. -/
def opened : State :=
  ((opening.setVse 63 { headI with side := readSide idxObj headI 256 1, nextSeq := (readSide idxObj headI 256 1).length + 1, encoder := some (1, 0) }).setReg (VSE_IX_A_CONTEXT 63).off
    (BitVec.ofNat 64 (63 + 1 * 2 ^ 6 + 0 * 2 ^ 10 + b2n false * 2 ^ 13 + b2n false * 2 ^ 14 + 2 * 2 ^ 15 + 256 * 2 ^ 22)))
theorem test_vse_open : ItemGo opening src63 ∧ mget opening.vse 63 = none ∧ (∃ o, objFind opening 63 0x13F28 = .ok o ∧ o = idxObj) ∧ objKind 0x13F28 = 2 ∧
    headI.sidePages * 2 ^ (14 - headI.log2rec) = 256 ∧ (opened.vse.map fun y => y.2.nvec).sum ≤ 2 ^ 38 ∧ 0 ≤ hbmLeft opened := by
  refine ⟨⟨?_, ?_⟩, ?_, ⟨idxObj, ?_, rfl⟩, ?_, ?_, ?_, ?_⟩
  · decide +kernel
  · decide +kernel
  · decide +kernel
  · have a : objMay 63 0x13F28 = true := by decide
    have b : (objMask 0x13F28 = 0 ∨ (!((maskBays (objMask 0x13F28)).all (bayReads opening))) = true) = False := by
      rw [eq_iff_iff, iff_false]; decide +kernel
    have c : objAt opening 0x13F28 = some idxObj := by
      have k : objSerials opening 0x13F28 = [0x51] := by decide +kernel
      rw [objAt, k, show mget opening.crt.objects 0x13F28 = some idxObj from rfl]; exact if_pos rfl
    simp only [objFind, a, Bool.not_true, Bool.false_eq_true, if_false, b, c]
  · decide +kernel
  · decide +kernel
  · decide +kernel
  · decide +kernel
theorem test_merge_generation : let x := { idxA with merge := some (src63, 0x23F28, 1) }
    let s := search x [(CRT_FREE_BYTES 3, 2 ^ 30)]
    mget s.vse 63 = some x ∧ maskWrites s 0x23F28 = true ∧ (∀ b ∈ maskBays (objMask 0x23F28), objShare 0x23F28 (mergeIndex (indexObj s x) x 0x23F28 1).2.2 b ≤ s.fld (CRT_FREE_BYTES b)) ∧
    (mergeIndex (indexObj s x) x 0x23F28 1).1.gen = 5 := by decide +kernel
/-! ### Fabric instructions -/

/-- Device 5 is three hops away through port 1, which is UP. -/
def fabS (x : Qp) (l : List (Field × Nat) := []) (now : Nat := 10 ^ 9) : State :=
  let s := withFlds { up with clk := { up.clk with now } } ([(FAB_ROUTE_ENTRY 5, 2 ^ 20 + 3 * 2 ^ 16 + 2), (FAB_PORT_STATE 1, 2), (GLB_RES1_PORTS_UP, 2), (FAB_COMP_SEALED, 1)] ++ l)
  { s with fab := { s.fab with qps := [(65535, x)] } }
def qpX : Qp := { qp0 with state := .ready, owner := 63, cls := 3, instar := 0xFFFFFF, peerDev := 5, peerQp := 7, peerInstar := 2, peerQpInstar := 3, window := 1, depth := 16, port := 1,
                           sendPsn := 0xFFFFFF, txPsn := 0xFFFFFF, ackedPsn := 0xFFFFFF, expPsn := 0xFFFFFF, windows := [(0, ⟨0x4000, 0x8000, true, true, true, 0, 0⟩)] }
def lastOf (t : State) : Option (Nat × Nat × Word) := (t.queue 63 15).backlog.getLast?.map fun c => (c.status, c.opcode, c.result)
def ended (i : Instr) (s : State) (r : Nat × Nat × Word) (p : State → Bool) : Bool := ran i s fun t => decide (lastOf t = some r) && p t

theorem canonical_fabS : Canonical (fabS qpX) := canonical_of_canon (by decide +kernel)
theorem test_fabric_meets : ItemGo (fabS qpX) src63 ∧ ownsQp (fabS qpX) 63 65535 = true ∧ ownsQp (fabS qpX) 0 65535 = false ∧ (routeOf (fabS qpX) 5).isSome = true ∧ postOk 1 1 0x1000 = true ∧
    mwf qpX.windows = true := by refine ⟨⟨?_, ?_⟩, ?_⟩ <;> decide +kernel

/-- The instar of a queue pair that was at its last one goes on at 1 (R473). -/
theorem test_fab_qpc : let s := { fabS qpX with fab := { (fabS qpX).fab with qps := [(1024, { qp0 with instar := 0xFFFFFF }), (65535, qpX)] } }
    classOk s 0 0 3 = true ∧ freeQp s = some 1024 ∧
    ended (.fabQpc src63 0 0 3 4096 16 9) s (0, 0xF6, BitVec.ofNat 64 (1024 + 2 ^ 16)) (fun t => decide (t.qp 1024 = { qp0 with state := .init, instar := 1, owner := 63, cls := 3, window := 4096, depth := 16, counter := 9 })) = true := by decide +kernel
theorem test_fab_win : ended (.fabWin src63 65535 true false true 0 0 (BitVec.ofNat 64 (2 ^ 39 - 0x100)) 0x100) (fabS qpX) (0, 0xF8, 1) (fun t => decide (mget (t.qp 65535).windows 1 = some ⟨2 ^ 39 - 0x100, 0x100, true, false, true, 0, 0⟩)) = true := by decide +kernel
def posted : FabItem := { src := some src63, seq := 0, op := 5, chain := true, notify := true, wait := true, waitKind := 1, waitQp := 65535, laddr := 0x1000, raddr := 4, len := 1, operand := 5, swap := 6,
                          threshold := 7, granted := 0, psn := 0, got := 0, result := 0, posted := 10 ^ 9 }
theorem test_fab_post : let c : Instr := .fabPost src63 65535 5 true true true 1 65535 0x1000 4 1 5 6 7
    ran c (fabS qpX) (fun t => decide (t.qp 65535 = { qpX with items := [posted], nextSeq := 1 })) = true ∧
    ran c (fabS { qpX with depth := 0 }) (fun t => decide (t.fab.waiting = [(65535, posted)])) = true ∧
    postOk 6 1 0x1000 = false ∧ fails (.fabPost src63 65535 6 true true true 1 65535 0x1000 4 1 5 6 7) (fabS qpX) (fabS qpX) src63 0xF7 0x900B = true := by decide +kernel
theorem test_fab_connect : ran (.fabCtlConnect src63 65535 5 9) (fabS { qpX with state := .init }) (fun t => decide ((t.qp 65535).state = .connecting) && decide ((t.qp 65535).connect = some (some src63, 10 ^ 9)) &&
      decide ((t.qp 65535).instar = 0xFFFFFF) && decide (t.fab.sent.length = 1)) = true ∧
    fails (.fabCtlConnect src63 65535 5 9) (fabS qpX [(FAB_COMP_SEALED, 0)]) (fabS qpX [(FAB_COMP_SEALED, 0)]) src63 0xF9 0x9001 = true := by decide +kernel
def quiet : FabItem := { posted with src := none }
theorem test_fab_ctl : ended (.fabCtlReset src63 65535) (fabS { qpX with items := [quiet] }) (0, 0xF9, 0) (fun t => decide ((t.qp 65535).state = .init) && decide ((t.qp 65535).instar = 1) && decide ((t.qp 65535).items = [])) = true ∧
    ended (.fabCtlDestroy src63 65535) (fabS { qpX with items := [quiet] }) (0, 0xF9, 0) (fun t => decide (t.qp 65535 = { qp0 with instar := 0xFFFFFF })) = true ∧
    ended (.fabCtlCancel src63 65535) (fabS { qpX with items := [quiet, { quiet with granted := 1 }] }) (0, 0xF9, 0) (fun t => decide ((t.qp 65535).items = [{ quiet with granted := 1 }])) = true ∧
    ended (.fabCtlQuery src63 65535 0x1000) (fabS qpX) (0, 0xF9, 0) (fun t => decide (rdLE t.hbm 0x1000 8 = 3 + 63 * 2 ^ 4 + 3 * 2 ^ 10 + 0xFFFFFF * 2 ^ 16) && decide (rdLE t.hbm 0x1018 8 = 0xFFFFFF + 0xFFFFFF * 2 ^ 24)) = true ∧
    ended (.fabCtlRevokeWindow src63 65535 0) (fabS qpX) (0, 0xF9, 0) (fun t => decide ((t.qp 65535).windows = [])) = true ∧
    fails (.fabCtlReset src0 65535) (fabS qpX) (fabS qpX) src0 0xF9 0x9004 = true := by decide +kernel
theorem test_fab_compose_refused : fails (.fabCtlCompose src0 0x1000) (fabS qpX) (fabS qpX) src0 0xF9 0x9008 = true ∧ fails (.fabCtlCompose src63 0x1000) (fabS qpX) (fabS qpX) src63 0xF9 0x9008 = true := by decide +kernel

/-! ### Frames and timers of a queue pair -/

/-- A write of one byte at 0x4000, posted by firmware. -/
def wr1 : FabItem := { quiet with op := 1, chain := false, wait := false, laddr := 0x1000, raddr := 0x4000, len := 1 }
theorem test_arbiter : let x := { qpX with cls := 6, items := [wr1] }
    onPort (fabS x) 1 x = true ∧ resends x = false ∧ newPacket (fabS x) x = some wr1 ∧ slotsHeld (fabS x) < 262144 ∧ (fabS x).fab.stopped = false ∧
    ran (.arbiterGrant 1) (fabS x) (fun t => decide ((t.qp 65535).sendPsn = 0) && decide ((t.qp 65535).txPsn = 0) && decide (t.fab.sent.length = 1) &&
      decide (t.fld FAB_REQ_OUTSTANDING = 1)) = true ∧
    ran (.arbiterGrant 0) (fabS x) (fun t => decide (t.fab = (fabS x).fab)) = true := by decide +kernel
theorem test_wait_timeout : let i := { wr1 with wait := true, threshold := 1, waitQp := 65535, posted := 0 }
    let late := (fabS qpX).fld FLT_TIMEOUT_A_SYNC_MS * 10 ^ 6
    waitMet (fabS { qpX with items := [i] }) i = false ∧
    ran (.fabWaitTimeout 65535) (fabS { qpX with items := [i] } [] late) (fun t => decide ((t.qp 65535).cqCount = 1) && decide ((t.qp 65535).lastError = 0x9014)) = true ∧
    kept (.fabWaitTimeout 65535) (fabS { qpX with items := [i] } [] (late - 1)) = true := by decide +kernel
def sentOne : Qp := { qpX with items := [{ wr1 with granted := 1, psn := 0xFFFFFF }], sendPsn := 0, txPsn := 0, rtoAt := some 0 }
theorem test_rto : outstanding sentOne = 1 ∧ (fabS sentOne).fld FAB_TIMER_RETRY_MAX = 7 ∧
    ran (.rtoExpiry 65535) (fabS sentOne [] (rto (fabS sentOne) sentOne)) (fun t => decide ((t.qp 65535).retries = 1) && decide ((t.qp 65535).txPsn = 0xFFFFFF) && decide ((t.qp 65535).state = .ready)) = true ∧
    ran (.rtoExpiry 65535) (fabS { sentOne with retries := 7 }) (fun t => decide ((t.qp 65535).state = .error) && decide ((t.qp 65535).lastError = 0x9005) && decide ((t.qp 65535).items = [])) = true ∧
    ran (.rtoExpiry 65535) (fabS qpX) (fun t => decide (t = showSlots (fabS qpX))) = true ∧
    ran (.resendAfterExpiry 65535) (fabS { sentOne with resendAfter := some (5, 10 ^ 9) }) (fun t => decide ((t.qp 65535).txPsn = 5) && decide ((t.qp 65535).resendAfter = none)) = true ∧
    kept (.resendAfterExpiry 65535) (fabS { sentOne with resendAfter := some (5, 10 ^ 9 + 1) }) = true := by decide +kernel

def frameA : EftFrame :=
  { icrcOk := true, op := 1, cls := 3, first := true, last := true, ackreq := true, notify := true, resent := false, psn := 0xFFFFFF, srcDev := 5, dstDev := 0x8000, srcQp := 7, dstQp := 65535,
    srcInstar := 2, qpInstar := 0xFFFFFF, ackPsn := 0, ackKind := 0, retryUs := 0, syndrome := 0, raddr := 0xBFFF, operand := 0, payload := [0x5A] }
def addressed (x : Qp) (l : List (Field × Nat) := []) : State := fabS x ([(GLB_DEV_ADDR_PLANE, 1), (GLB_DEV_ADDR_VALID, 1), (GLB_RES1_STACKS_OK, 4095)] ++ l)
theorem test_frame_counted : (addressed qpX).devAddr = 0x8000 ∧
    ran (.eftFrame 1 { frameA with icrcOk := false }) (addressed qpX [(FAB_PORT_ERR_FCS 1, 65535)]) (fun t => decide (t.fld (FAB_PORT_ERR_FCS 1) = 65535) && decide (t.fab = (addressed qpX).fab)) = true ∧
    ran (.eftFrame 1 { frameA with dstDev := 0 }) (addressed qpX) (fun t => decide (t.fld (FAB_PORT_ERR_MISDIRECTED 1) = 1) && decide (t.fab = (addressed qpX).fab)) = true ∧
    ran (.eftFrame 1 { frameA with srcInstar := 3 }) (addressed qpX) (fun t => decide (t.fld FAB_STALE_COUNT = 1) && decide (t.fab.qps = (addressed qpX).fab.qps) && decide (t.hbm = [])) = true ∧
    ran (.eftFrame 0 frameA) (addressed qpX) (fun t => decide (t.fab = (addressed qpX).fab)) = true := by decide +kernel
theorem test_frame_runs : ran (.eftFrame 1 frameA) (addressed qpX) (fun t => decide (t.hbm = [(0xBFFF, 0x5A)]) && decide ((t.qp 65535).expPsn = 0) && decide ((t.qp 65535).notifyCount = 1) &&
      decide (t.fab.sent.length = 1)) = true ∧
    ran (.eftFrame 1 { frameA with psn := 0 }) (addressed qpX) (fun t => (t.qp 65535).nakSent && decide ((t.qp 65535).expPsn = 0xFFFFFF) && decide (t.hbm = [])) = true ∧
    ran (.eftFrame 1 { frameA with raddr := 0xC000 }) (addressed qpX) (fun t => decide ((t.qp 65535).lastError = 0x9021) && decide (t.hbm = [])) = true := by decide +kernel
/-- An atomic add of 5 at 0x4008 answers the word before; one at 0x4004 is misaligned (R476). -/
theorem test_frame_atomic : let s := { addressed qpX with hbm := [(0x4008, 0xFE), (0x4009, 1)] }
    ran (.eftFrame 1 { frameA with op := 4, raddr := 0x4008, operand := 5, payload := [] }) s (fun t => decide (rdLE t.hbm 0x4008 8 = 0x203) && decide ((t.qp 65535).atomics = [(0xFFFFFF, 0x1FE)])) = true ∧
    ran (.eftFrame 1 { frameA with op := 4, raddr := 0x4004, operand := 5, payload := [] }) s (fun t => decide (t.hbm = s.hbm) && decide ((t.qp 65535).lastError = 0x9022)) = true := by decide +kernel
theorem test_qp_timers : (fabS qpX).fld FAB_TIMER_ACK_NS = 2000 ∧
    ran (.ackTimer 65535) (fabS { qpX with unacked := 2, unackedAt := 0 } [] 2000) (fun t => decide (t.qp 65535 = { qpX with unacked := 0 })) = true ∧
    kept (.ackTimer 65535) (fabS { qpX with unacked := 2, unackedAt := 0 } [] 1999) = true ∧
    ran (.holdAckSend 65535) (fabS { qpX with held := some (frameA, 0, 0) } [] 4000) (fun t => decide ((t.qp 65535).held = some (frameA, 0, 4000))) = true ∧
    kept (.holdAckSend 65535) (fabS { qpX with held := some (frameA, 0, 0) } [] 3999) = true ∧
    kept (.stallTimeout 65535) (fabS qpX) = true ∧ kept (.pageArrival 65535 999) (fabS qpX) = true := by decide +kernel
theorem test_connect_timers : let x := { qpX with state := .connecting, connect := some (none, 0) }
    ran (.connectResend 65535) (fabS x) (fun t => decide (t.fab.sent.length = 1) && decide (t.fab.qps = (fabS x).fab.qps)) = true ∧ kept (.connectResend 65535) (fabS qpX) = true ∧
    ran (.connectTimeout 65535) (fabS x [(FAB_TIMER_CONNECT_MS, 255)] (255 * 10 ^ 6)) (fun t => decide ((t.qp 65535).state = .init) && decide ((t.qp 65535).instar = 1) && decide ((t.qp 65535).connect = none)) = true ∧
    kept (.connectTimeout 65535) (fabS x [(FAB_TIMER_CONNECT_MS, 255)] (255 * 10 ^ 6 - 1)) = true := by decide +kernel
theorem test_fence_record : ran (.fenceRecord 5 2) (addressed qpX) (fun t => decide (t.fab.fenced = [(5, 2, 0)])) = true ∧ devInstar (addressed qpX) = 1 ∧
    ran (.fenceRecord 0x8000 1) (addressed qpX) (fun t => decide (t = fatalStop (addressed qpX))) = true ∧ kept (.fenceRecord 0x8000 2) (addressed qpX) = true ∧
    (let s := { addressed qpX with fab := { (addressed qpX).fab with fenced := [(5, 2, 9)] } }; kept (.fenceRecord 5 2) s = true) := by decide +kernel

/-- A page of a session's list that a stalling window names is absent: the packet is held, the page asked for, and put in place when
it comes (R481). -/
def pageLess (x : Qp) (now : Nat) : State :=
  let s := addressed { x with windows := [(0, ⟨0x9000, 0x20000, true, true, true, 1, 3⟩)] } [(SES_KV_FREE_FREE, 9)]
  { s with ses := { s.ses with entries := [(7, { sesW with kvRoot := 0x9000, kv := [] })] }, clk := { s.clk with now } }
theorem test_page_absent : ran (.eftFrame 1 frameA) (pageLess qpX 5) (fun t => decide ((t.qp 65535).held = some (frameA, 5, 5)) && decide ((t.qp 65535).wanted = [(0, 2)]) && decide (t.hbm = [])) = true ∧
    (match runPacket (pageLess { qpX with held := some (frameA, 0, 0) } 3000) 65535 frameA with | .absent w p => decide (w = 0 ∧ p = 2) | _ => false) = true ∧
    ran (.stallTimeout 65535) (pageLess { qpX with held := some (frameA, 0, 0) } 3000) (fun t => decide ((t.qp 65535).held = none) && decide ((t.qp 65535).raSent = (0xFFFFFF, 1))) = true ∧
    kept (.stallTimeout 65535) (pageLess { qpX with held := some (frameA, 0, 0) } 2999) = true ∧
    (listOwner (pageLess qpX 0) ⟨0x9000, 0x20000, true, true, true, 1, 3⟩).isSome = true ∧
    ran (.pageArrival 65535 (firstFrame + 9)) (pageLess { qpX with wanted := [(0, 2)] } 0) (fun t => decide ((t.qp 65535).wanted = []) && decide (t.frame (firstFrame + 9)).isSome &&
      decide ((t.ses? 7).map (·.kv) = some [(2, pageRef false false 1 0 (firstFrame + 9))]) && decide (t.fld SES_KV_FREE_FREE = 8)) = true := by decide +kernel

/-! ### A composition image -/

theorem leNat_zeros : ∀ n, leNat (List.replicate n (0 : Byte)) = 0
  | 0 => rfl
  | n + 1 => by rw [List.replicate_succ, leNat, leNat_zeros n]; rfl
/-- Version 1 of a composition of a device's serial number and address 0, with no routes and no neighbours. -/
def compImg (serial : Nat) : List Byte := leBytes 8 1 ++ (leBytes 8 serial ++ List.replicate 0x10150 0)
theorem compImg_len (x : Nat) : (compImg x).length = compImageBytes := by simp only [compImg, List.length_append, leBytes_length, List.length_replicate]; rfl
theorem imgNat_past (x n off : Nat) (h : 16 ≤ off) : imgNat (compImg x) off n = 0 := by
  rw [imgNat, compImg, List.drop_append, List.drop_append, List.drop_eq_nil_of_le (by simp; omega), List.nil_append,
    List.drop_eq_nil_of_le (by simp; omega), List.nil_append, List.drop_replicate, List.take_replicate, leNat_zeros]
theorem imgNat_first (x : Nat) : imgNat (compImg x) 0 8 = 1 := by
  rw [imgNat, compImg, List.drop_zero, List.take_left' (leBytes_length _ _), leNat_leBytes]; rfl
theorem imgNat_serial (x : Nat) : imgNat (compImg x) 8 8 = x % 2 ^ 64 := by
  rw [imgNat, compImg, List.drop_left' (leBytes_length _ _), List.take_left' (leBytes_length _ _), leNat_leBytes]; rfl
def keyed (k : DomKeys) (bs : List Byte) : State := reading { up with sec := { up.sec with keys := some k } } bs

/-- The image is accepted where its signature verifies. -/
theorem test_compose (k : DomKeys) :
    let bs := compImg (up.reg GLB_SERIAL_SERIAL.off).toNat
    Config.compositionSig k.composition (bs.take 0x10100) (bs.drop 0x10100) = true →
    itemRead (keyed k bs) src0 2 0x5000 compImageBytes = .ok bs ∧ compOk (keyed k bs) bs = true ∧ src0.ctx = 0 ∧
    (keyed k bs).flag FAB_COMP_SEALED = false ∧ (keyed k bs).fld GLB_TIME_STATUS_SOURCE = 0 := by
  intro bs h
  have z (off n : Nat) (h : 16 ≤ off) : imgNat bs off n = 0 := imgNat_past _ n off h
  have fl (f : Field) : (keyed k bs).flag f = up.flag f := rfl
  have fd (f : Field) : (keyed k bs).fld f = up.fld f := rfl
  refine ⟨?_, ?_, rfl, ?_, ?_⟩
  · have e : hbmPoisoned (keyed k bs) 0x5000 compImageBytes = false := by
      rw [hbmPoisoned, List.any_eq_false]; intro u _
      rw [show (keyed k bs).hbmBad = [] from rfl]; simp
    have r : rdBytes (keyed k bs).hbm 0x5000 compImageBytes = bs := by
      have := rdBytes_bytes 0x5000 bs compImageBytes 0 (by rw [Nat.zero_add]; exact (compImg_len _).symm)
      exact this
    rw [itemRead, show addrOk (0x5000 : Word) true = true by decide, show spaceOf (0x5000 : Word) = 0 by decide,
      show bits (0x5000 : Word).toNat 0 39 = 0x5000 by decide]
    simp only [Bool.not_true, Bool.false_eq_true, if_false, e, r]
  · have r : compReserved bs = true := by
      rw [compReserved, imgNat_first, z 16 8 (by omega), z 24 8 (by omega), z 32 8 (by omega), z 40 88 (by omega)]
      simp only [fun p => z (0x80 + 8 * p) 8 (by omega), fun p => z (0x100 + 4 * p) 4 (by omega)]
      simp [bits]
    have q : imgNat bs 8 8 = ((keyed k bs).reg GLB_SERIAL_SERIAL.off).toNat := by
      rw [show (keyed k bs).reg GLB_SERIAL_SERIAL.off = up.reg GLB_SERIAL_SERIAL.off from rfl, imgNat_serial]
      exact Nat.mod_eq_of_lt (BitVec.isLt _)
    rw [compOk, r, imgNat_first, z 16 8 (by omega), q, z _ 4 (by omega), show (keyed k bs).sec.keys = some k from rfl]
    simp only [h]; simp [bits, bitOf]
  · rw [fl]; decide +kernel
  · rw [fd]; decide +kernel
/-! ### Ports and device time -/

/-- Port 15 in a state, with its own record. -/
def portS (st now : Nat) (y : Port := port0) (l : List (Field × Nat) := []) : State :=
  let s := withFlds { up with clk := { up.clk with now }, pins := { up.pins with serdes := [true, true] } }
    ([(GLB_RES1_HUB_OK, 3), (FAB_PORT_STATE 15, st), (FAB_PORT_CABLE_M 15, 1), (GLB_RES1_PORTS_UP, if st = 2 then 2 ^ 15 else 0)] ++ l)
  { s with fab := { s.fab with ports := [(15, y)] } }
/-- The state of port 15 after a command, with a check. -/
def port15 (i : Instr) (s : State) (st : Nat) (p : State → Bool := fun _ => true) : Bool := ran i s fun t => decide (pst t 15 = st) && p t

theorem canonical_portS : Canonical (portS 2 0) := canonical_of_canon (by decide +kernel)
/-- A cable of 178 m leaves too little headroom; one of 177 m does not (R460). -/
theorem test_port_up : portsRun (portS 0 0) 15 = true ∧ port15 (.portSignalDetected 15) (portS 0 77) 1 (fun t => decide ((t.port 15).since = 77)) = true ∧ kept (.portSignalDetected 15) (portS 1 77) = true ∧
    port15 (.portLinkUp 15) (portS 1 0 port0 [(FAB_PORT_CABLE_M 15, 177)]) 2 (fun t => decide (t.fld GLB_RES1_PORTS_UP = 2 ^ 15)) = true ∧
    port15 (.portLinkUp 15) (portS 1 0 port0 [(FAB_PORT_CABLE_M 15, 178)]) 3 (fun t => decide ((mget t.flt.latch 0xAFD).map (·.status) = some 0x9002)) = true ∧ kept (.portLinkUp 15) (portS 0 0) = true := by decide +kernel
theorem test_port_down : port15 (.portTrainingTimeout 15) (portS 1 2000000000) 0 = true ∧ kept (.portTrainingTimeout 15) (portS 1 1999999999) = true ∧ kept (.portTrainingTimeout 15) (portS 2 2000000000) = true ∧
    port15 (.portLinkLost 15) (portS 2 0) 0 (fun t => decide (t.fld GLB_RES1_PORTS_UP = 0)) = true ∧ kept (.portLinkLost 15) (portS 1 0) = true := by decide +kernel
theorem test_serdes : port15 (.serdesFault 15 4) (portS 2 0) 1 (fun t => t.flag (FAB_PORT_SPARE_USED 15) && decide ((t.port 15).bad = [4])) = true ∧ port15 (.serdesFault 15 4) (portS 0 0) 0 = true ∧
    port15 (.serdesFault 15 4) (portS 0 0 port0 [(FAB_PORT_SPARE_USED 15, 1)]) 3 = true ∧
    port15 (.fabPortMediaWrite 15 1 255) (portS 3 0) 0 (fun t => decide (t.fld (FAB_PORT_CABLE_M 15) = 255) && decide (t.fld (FAB_PORT_MEDIA 15) = 1)) = true := by decide +kernel
def discA : Discovery := { port := 3, devAddr := 0x8005, instar := 1, serial := 9, compGen := 1 }
def comp1 : Comp := { gen := 1, devices := 2, gm := 0x8005, backup := 0x8006, nbrs := (List.range 16).map fun p => (0x8005 - p, 3), digest := [] }
def composed (s : State) : State := { s with fab := { s.fab with comp := some comp1 } }
/-- A sender without an address is no miswiring; a neighbour at another port than the composition's is (R449). -/
theorem test_discovery : port15 (.discoveryFrame 15 discA) (portS 2 5) 2 (fun t => decide (t.fld (FAB_PORT_NBR_ADDR 15) = 0x8005) && t.flag (FAB_PORT_NBR_SEEN 15) && decide ((t.port 15).nbrAt = some 5)) = true ∧
    miswired (composed (portS 2 5)) 15 discA = true ∧ port15 (.discoveryFrame 15 discA) (composed (portS 2 5)) 3 = true ∧ miswired (composed (portS 2 5)) 0 discA = false ∧
    miswired (composed (portS 2 5)) 15 { discA with devAddr := 0xFFFF } = false ∧ kept (.discoveryFrame 15 discA) (portS 1 5) = true ∧
    ran .discoverySend (portS 2 100000000) (fun t => decide (t.fab.sent.length = 1) && decide (t.fab.discAt = 100000000)) = true ∧ kept .discoverySend (portS 2 99999999) = true := by decide +kernel
def paused (c e t : Nat) : Port := { port0 with paused := [(c, (e, t))] }
theorem test_pause : ran (.pfcPauseReceived 15 6 65535) (portS 2 100) (fun t => decide ((t.port 15).paused = [(6, (100 + 41942, 100))])) = true ∧
    ran (.pfcPauseReceived 15 6 100) (portS 2 100 (paused 6 120 7)) (fun t => decide ((t.port 15).paused = [(6, (164, 7))])) = true ∧
    ran (.pfcPauseReceived 15 6 0) (portS 2 100 (paused 6 120 7)) (fun t => decide ((t.port 15).paused = [])) = true ∧
    ran (.pfcPauseReceived 15 7 9) (portS 2 100) (fun t => decide (t.port 15 = port0)) = true ∧ ran (.pfcPauseReceived 15 0 9) (portS 2 100) (fun t => decide (t.port 15 = port0)) = true ∧
    ran (.pfcPauseExpiry 15 6) (portS 2 120 (paused 6 120 7)) (fun t => decide ((t.port 15).paused = [])) = true ∧ kept (.pfcPauseExpiry 15 6) (portS 2 119 (paused 6 120 7)) = true ∧
    kept (.pfcPauseExpiry 15 5) (portS 2 120 (paused 6 120 7)) = true ∧ kept (.pfcWatchdog 15 5) (portS 2 120 (paused 6 120 7)) = true := by decide +kernel
theorem test_stuck : (portS 2 0).fld FAB_TIMER_PFC_WD_MS = 100 ∧
    ran (.pfcWatchdog 15 5) (portS 2 100000007 (paused 5 200000000 7)) (fun t => decide (t.fld (FAB_PORT_STUCK 15) = 32) && decide ((t.port 15).paused = []) && decide ((t.port 15).lastPause = [(5, 100000007)]) && t.mkr.due) = true ∧
    kept (.pfcWatchdog 15 5) (portS 2 100000006 (paused 5 200000000 7)) = true ∧
    (let y := { port0 with lastPause := [(5, 7)] }
     ran (.stuckClear 15 5) (portS 2 1000000007 y [(FAB_PORT_STUCK 15, 0x30)]) (fun t => decide (t.fld (FAB_PORT_STUCK 15) = 0x10)) = true ∧ kept (.stuckClear 15 5) (portS 2 1000000006 y [(FAB_PORT_STUCK 15, 0x30)]) = true) ∧
    (let y := { port0 with pausing := [(5, 7)], occ := [(5, 2 ^ 21)] }
     mustPause (portS 2 20007 y) 15 5 = true ∧ ran (.pfcRefresh 15 5) (portS 2 20007 y) (fun t => decide ((t.port 15).pausing = [(5, 20007)]) && decide (t.fab.sent = [.pause 15 5 0xFFFF])) = true) ∧
    (let y := { port0 with pausing := [(5, 7)] }
     mustPause (portS 2 20007 y) 15 5 = false ∧ mayResume (portS 2 20007 y) 15 5 = true ∧
     ran (.pfcRefresh 15 5) (portS 2 20007 y) (fun t => decide ((t.port 15).pausing = []) && decide (t.fab.sent = [.pause 15 5 0])) = true) := by decide +kernel
theorem test_pdelay : ran (.pdelayReqSend 15) (portS 2 5) (fun t => decide (t.fab.sent = [.pdelayReq 15])) = true ∧
    ran (.pdelayMessage 15 true 100 2000 2400 1000) (portS 2 5) (fun t => decide ((t.port 15).delay = 250)) = true ∧
    ran (.pdelayMessage 15 false 0 0 0 0) (portS 2 5) (fun t => decide (t.fab.sent = [.pdelayResp 15 5 5])) = true := by decide +kernel

/-- Device time under a composition whose grandmaster is device 0x8005. -/
def timeS (good : Nat) (l : List (Field × Nat) := []) (now : Nat := 1000) : State :=
  let s := composed (portS 2 now port0 l)
  { s with clk := { s.clk with syncGood := good, syncAt := some 0, stepped := false } }
theorem test_ptp : follows (timeS 15) 0x8005 = true ∧ follows (timeS 15) 0x8006 = false ∧
    ran (.ptpSync 0x8005 40) (timeS 15) (fun t => t.flag GLB_TIME_STATUS_LOCKED && decide (t.fld GLB_TIME_STATUS_SOURCE = 2) && t.clk.stepped && decide (t.clk.now = 960)) = true ∧
    ran (.ptpSync 0x8005 (-40)) (timeS 14) (fun t => !t.flag GLB_TIME_STATUS_LOCKED && decide (t.clk.syncGood = 15)) = true ∧
    ran (.ptpSync 0x8005 (-41)) (timeS 15) (fun t => !t.flag GLB_TIME_STATUS_LOCKED && decide (t.clk.syncGood = 0)) = true ∧
    ran (.ptpSync 0x8005 9) (timeS 15 [(GLB_TIME_STATUS_LOCKED, 1), (GLB_TIME_STATUS_HOLDOVER, 1)]) (fun t => decide (t.clk.slew = -9) && decide (t.clk.now = 1000) && !t.flag GLB_TIME_STATUS_HOLDOVER) = true ∧
    kept (.ptpSync 0x8006 0) (timeS 15) = true := by decide +kernel
theorem test_holdover : ran .syncMissed (timeS 15 [(GLB_TIME_STATUS_SOURCE, 2)] 62500000) (fun t => t.flag GLB_TIME_STATUS_HOLDOVER && decide (t.clk.syncGood = 0)) = true ∧
    kept .syncMissed (timeS 15 [(GLB_TIME_STATUS_SOURCE, 2)] 62499999) = true ∧
    ran (.holdoverTimeFault 41) (timeS 0 [(GLB_TIME_STATUS_HOLDOVER, 1)]) (fun t => t.clk.reported) = true ∧ kept (.holdoverTimeFault 40) (timeS 0 [(GLB_TIME_STATUS_HOLDOVER, 1)]) = true := by decide +kernel
theorem test_domain_of_one : ran .domainOfOne (portS 0 10000000000 port0 [(GLB_STATE_READY, 0)]) (fun t => t.flag GLB_TIME_STATUS_LOCKED && decide (t.fld GLB_TIME_STATUS_SOURCE = 1) && t.flag GLB_DEV_ADDR_VALID) = true ∧
    kept .domainOfOne (portS 0 9999999999 port0 [(GLB_STATE_READY, 0)]) = true ∧ kept .domainOfOne (portS 2 10000000000 port0 [(GLB_STATE_READY, 0)]) = true := by decide +kernel
theorem test_sync_send : let s := timeS 0 [(GLB_DEV_ADDR_PLANE, 1), (GLB_DEV_ADDR_DEVICE, 5), (GLB_TIME_STATUS_LOCKED, 1)]
    sendsSync s = true ∧ ran .syncMessageSend s (fun t => decide (t.fab.sent = [.sync 15 1000])) = true ∧ sendsSync (timeS 0) = false ∧ kept .syncMessageSend (timeS 0) = true ∧
    ran .deviceHeartbeatSend (portS 2 1000000 port0 [(FAB_COMP_SEALED, 1)]) (fun t => decide (t.fab.sent = [.heartbeat]) && decide (t.flt.beatAt = 1000000)) = true ∧
    kept .deviceHeartbeatSend (portS 2 999999 port0 [(FAB_COMP_SEALED, 1)]) = true := by decide +kernel
/-! ### Faults -/

/-- A device with every unit in service, all events of `up`, and what its fault block holds. -/
def faultS (l : List (Field × Nat)) (latch : Map FaultMsg := []) : State :=
  let s := withFlds up ([(GLB_RES1_HUB_OK, 3), (GLB_RES1_FORME_OK, 0xFFF), (GLB_RES1_STACKS_OK, 0xFFF)] ++ l)
  { s with flt := { s.flt with latch } }
/-- An uncorrectable error of cell 2,015, whose collector is hub 1. -/
def msgA : FaultMsg := { source := 0x7DF, kind := 2, status := 0x8020, address := 0xFFFFFFFFFFFFFFFF, instar := 0xFFFFFF, master := 0xFFFF, access := 7, time := 2 ^ 64 - 1 }
def sevA (sev : Nat) (l : List (Field × Nat) := []) : State := faultS ([(FLT_SRC_SEV_UE 0x7DF, sev)] ++ l) [(0x7DF, msgA)]
def ringOn : List (Field × Nat) := [(FLT_RING_CFG_ENABLE, 1), (FLT_RING_CFG_LOG2_ENTRIES, 4), (FLT_RING_BASE_BASE, 2), (FLT_RING_PTR_PROD, 65535), (FLT_RING_PTR_CONS, 65535)]
def firstWords (s : State) (h : Nat) : List Nat := (List.range 4).map fun k => s.fld (FLT_FIRST_WORD h k)
/-- A message of an uncorrectable error, the first of its collector, of severity 1, on device 0 (R498). -/
def wordsA : List Nat := [0x7DF + 2 ^ 12 + 2 ^ 13 + 2 ^ 14 + 2 * 2 ^ 16 + 0x8020 * 2 ^ 32, 2 ^ 64 - 1, 0xFFFFFF + 0xFFFF * 2 ^ 24 + 7 * 2 ^ 40, 2 ^ 64 - 1]

theorem canonical_sevA : Canonical (sevA 1 ringOn) := canonical_of_canon (by decide +kernel)
theorem test_first_error : (sevA 1).hubUp 1 = true ∧ nextLatched (sevA 1) 1 = some (0x7DF, msgA) ∧ (sevA 1).flag (FLT_FIRST_CTL_VALID 1) = false ∧ severity (sevA 1) msgA = 1 ∧
    msgWords (sevA 1) msgA true = wordsA ∧
    ran (.faultLatchHandled 1) (sevA 1) (fun t => t.flag (FLT_FIRST_CTL_VALID 1) && decide (firstWords t 1 = wordsA) && decide (t.fld (FLT_LOST_RING_DROP 1) = 1)) = true := by decide +kernel
theorem test_later_error : ran (.faultLatchHandled 1) (sevA 1 (ringOn ++ [(FLT_FIRST_CTL_VALID 1, 1)])) (fun t => decide (firstWords t 1 = [0, 0, 0, 0]) && decide (t.fld FLT_RING_PTR_PROD = 0) &&
      decide (t.hostRd 0 (2 * 4096 + 32 * 15) 8 = leBytes 8 (0x7DF + 2 ^ 13 + 2 ^ 14 + 2 * 2 ^ 16 + 0x8020 * 2 ^ 32))) = true ∧
    ran (.faultLatchHandled 1) (sevA 2 (ringOn ++ [(FLT_FIRST_CTL_VALID 1, 1)])) (fun t => decide (t.flt.irqs = 1) && decide (t.flt.latch = [])) = true ∧
    ran (.faultLatchHandled 1) (sevA 1 (ringOn ++ [(FLT_RING_PTR_CONS, 65519)])) (fun t => decide (t.fld FLT_RING_PTR_PROD = 65535) && decide (t.fld (FLT_LOST_RING_DROP 1) = 1)) = true := by decide +kernel
theorem test_fatal_error : severity (sevA 3) msgA = 3 ∧
    ran (.faultLatchHandled 1) (sevA 3) (fun t => decide (t.clk.now = 0) && decide (t.fld GLB_STATE_START_PHASE = 1) && t.fab.stopped && decide (t.cells.length = 0)) = true ∧
    nextLatched (sevA 3) 0 = none ∧ kept (.faultLatchHandled 0) (sevA 3) = true := by decide +kernel

theorem test_re_imposition : let s := { faultS [] with flt := { (faultS []).flt with reimpose := [3] } }
    ran (.reImposition 3) s (fun t => decide (t.flt.reimpose = [])) = true ∧ kept (.reImposition 2) s = true := by decide +kernel
theorem test_sparing : ran (.hbmSparing 11 31 false []) (faultS [(GLB_RES0_HBM_GIB, 384)]) (fun t => t.mkr.due && decide (t.ses.remap = [(383, 25165824)]) && decide (t.fld GLB_RES0_HBM_SPARE_GIB = 46) && decide (t.fld GLB_RES0_HBM_GIB = 384)) = true ∧
    kept (.hbmSparing 11 31 true []) (faultS [(GLB_RES1_STACKS_OK, 0x7FF)]) = true := by decide +kernel
theorem test_proof_write : adaptationIn (faultS []) 0xB5F = [] ∧ ran (.proofWrite 0xB5F) (faultS []) (fun t => decide (t.flt.proofs = [])) = true ∧
    (faultS [(SES_TIER_STATUS_BAYS_WRITABLE, 8)]).fld SES_TIER_STATUS_BAYS_WRITABLE ≠ 0 := by decide +kernel
/-- Source 0x7DF with three correctable errors, at 0, 1 and 2 s; the window of 1 s ends at 2 s. -/
def warm (n : Nat) : State :=
  let s := faultS [(FLT_SRC_WARN_N 0x7DF, n), (FLT_SRC_WARN_WINDOW_S 0x7DF, 1)]
  { s with clk := { s.clk with now := 2 * 10 ^ 9 }, flt := { s.flt with times := [(0x7DF, [0, 10 ^ 9, 2 * 10 ^ 9])] } }
theorem test_warning : srcAssigned 0x7DF = true ∧ recentErrors (warm 1) 0x7DF = 2 ∧
    ran (.failureWarning 0x7DF) (warm 1) (fun t => t.flag (FLT_SRC_WARNED 0x7DF) && decide (mget t.flt.times 0x7DF = some [2 * 10 ^ 9]) = false) = true ∧
    kept (.failureWarning 0x7DF) (warm 2) = true ∧ kept (.failureWarning 0x7DF) (warm 0) = true := by decide +kernel
theorem test_hub_handover : ran .hubHandover (faultS [(FLT_SRC_WARNED 0xB4F, 1)]) (fun t => decide (t.fld GLB_STATE_ACTIVE_HUB = 1)) = true ∧ kept .hubHandover (faultS []) = true ∧
    kept .hubHandover (faultS [(FLT_SRC_WARNED 0xB4F, 1), (GLB_RES1_HUB_OK, 1)]) = true := by decide +kernel
theorem test_unit_lost_cell : ran (.unitDeclaredLost 0x7DF) (faultS [(FRM_CELL_STAT_STATE 11 167, 2), (FRM_STATUS_SPARES 11, 8)]) (fun t => decide (t.flt.lost = [0x7DF]) &&
      decide (t.fld (FRM_CELL_STAT_STATE 11 167) = 3) && decide (t.fld (FRM_STATUS_SPARES 11) = 7)) = true ∧
    (let s := { faultS [] with flt := { (faultS []).flt with lost := [0x7DF] } }; kept (.unitDeclaredLost 0x7DF) s = true ∧
      ran (.staleMessageResetOrder 0x7DF true) s (fun t => decide (t.flt.lost = []) && decide (t.fld FLT_STALE_COUNT = 1) && decide (t.fld (FRM_CELL_STAT_STATE 11 167) = 2)) = true) ∧
    kept (.staleMessageResetOrder 0x7DF true) (faultS []) = true := by decide +kernel
theorem test_unit_lost : ran (.unitDeclaredLost 0xA5F) (faultS [(FLT_UNIT_INSTAR_INSTAR 109, 0xFFFFFF)]) (fun t => decide (t.flt.lost = [0xA5F]) && decide (t.fld (FLT_UNIT_INSTAR_INSTAR 109) = 1)) = true ∧
    ran (.unitDeclaredLost 0xB5F) (faultS [(GLB_RES1_HUB_OK, 2)]) (fun t => decide (t.flt.lost = [0xB5F]) && t.fab.stopped) = true := by decide +kernel
theorem test_device_lost : let s := faultS [(GLB_DEV_ADDR_VALID, 1), (FAB_PAIR_PARTNER, 0xFFFF)]
    ran (.deviceDeclaredLost 5 2 [1, 1]) s (fun t => decide (mget t.flt.missing 5 = some [1]) && decide (t.fab = s.fab)) = true ∧ watcherCount s = 0 ∧
    ran (.deviceDeclaredLost 5 2 [7, 0]) s (fun t => decide (t.fab.sent = [.fence 5 2]) && decide (t.fab.fenced = [(5, 2, 0)])) = true := by decide +kernel
theorem test_mirror_none : mirrorBay (faultS []) 0 = none ∧ ran (.partnerHandleQuery [h7]) (faultS []) (fun t => decide (t.flt.adopted = [h7])) = true := by decide +kernel
theorem test_proof_of_a_stack : let s := stored
    adaptationIn s 0x9B0 = [] ∧ ran (.proofWrite 0x9B0) s (fun t => decide (mget t.flt.proofs 0x9B0 = some (8 + 3 * 2 ^ 4 + (0x9B0 + 2 ^ 12) * 2 ^ 32, 1))) = true := by decide +kernel
theorem test_mirrored_park : mirrorBay stored 16384 = some 3 ∧ mirrorBay stored 16385 = none ∧
    ran (.mirroredPark { rec0 with pages := 1 } ⟨false, 0, 0⟩) stored (fun t => decide (t.flt.mirrors = [({ rec0 with pages := 1 }, ⟨false, 0, 0⟩)]) && decide ((t.bay 3).nextJseq = (stored.bay 3).nextJseq + 1)) = true ∧
    kept (.mirroredPark { rec0 with pages := 2 } ⟨false, 0, 0⟩) stored = true := by decide +kernel
theorem test_cell_item_timeout : let s := { faultS [] with cells := [(1919, { cell0 with run := .running, part := 15, slice := 3 })] }
    ran (.cellItemTimeout 1919) s (fun t => decide ((t.cell 1919).run = .stopped) && decide ((mget t.flt.latch (cellSource s 1919)).map (·.status) = some 0xA011) = (srcAssigned (cellSource s 1919))) = true ∧
    kept (.cellItemTimeout 0) s = true := by decide +kernel
/-- An item of queue 15 of context 63, started at time 0, with an opcode. -/
def started (op now : Nat) : State :=
  let s := { up with clk := { up.clk with now } }
  s.setQueue 63 15 { s.queue 63 15 with started := [⟨9, [BitVec.ofNat 64 (op * 2 ^ 56)], 0, 0⟩] }
theorem test_control_item_timeout : let ns := up.fld FLT_TIMEOUT_B_CTL_ITEM_MS * 10 ^ 6
    untimed 0xC1 = false ∧ itemOpcode ⟨9, [BitVec.ofNat 64 (0xC1 * 2 ^ 56)], 0, 0⟩ = 0xC1 ∧
    ran (.controlItemTimeout src63) (started 0xC1 ns) (fun t => decide ((t.queue 63 15).mute = [9]) && decide (((t.queue 63 15).backlog.getLast?.map (·.status)) = some 0xA003)) = true ∧
    kept (.controlItemTimeout src63) (started 0xC1 (ns - 1)) = true ∧ kept (.controlItemTimeout src63) (started 0xD2 ns) = true := by decide +kernel
/-! ### Command queues -/

/-- Queue 15 of context 63 in a state: a ring of 16 words at 0x2000, 16 completion entries at 0x3000, 16 records at 0x4000. -/
def hq (st head : Nat) (x : Queue := queue0) (l : List (Field × Nat) := []) (mem : List Byte := []) : State :=
  let s := withFlds up ([(GLB_RES1_HUB_OK, 3), (HIF_CTX_CTL_FN_ENABLED 63, 1), (HIF_Q_CTL_STATE 63 15, st), (HIF_Q_CTL_ENABLE 63 15, 1), (HIF_Q_CMD_BASE 63 15, 2), (HIF_Q_CMD_LOG2_WORDS 63 15, 4),
    (HIF_Q_CPL_BASE 63 15, 3), (HIF_Q_CPL_LOG2_ENTRIES 63 15, 4), (HIF_Q_OUT_BASE 63 15, 4), (HIF_Q_OUT_LOG2_RECORDS 63 15, 4), (HIF_Q_PTR_CMD_HEAD 63 15, head)] ++ l)
  (s.setQueue 63 15 x).hostWr 63 0x2000 mem
def wAdd : Nat := 0xB1 * 2 ^ 56 + 2 * 2 ^ 53
/-- A ctr.add whose three words lie at places 15, 0 and 1 of the ring. -/
def ringA : List Byte := leBytes 8 (2 ^ 64 - 1) ++ leBytes 8 7 ++ List.replicate 104 0 ++ leBytes 8 wAdd
def wrapped (tail st : Nat) : State := hq st (2 ^ 32 - 1) { queue0 with cmdTail := tail } [] ringA
def addItem : Item := ⟨2 ^ 32 - 1, [BitVec.ofNat 64 wAdd, 0xFFFFFFFFFFFFFFFF, 7], 0, 0⟩

theorem canonical_wrapped : Canonical (wrapped 2 1) := canonical_of_canon (by decide +kernel)
theorem test_fetch : hostReach (wrapped 2 1) 63 = true ∧ queuesOpen (wrapped 2 1) 63 = true ∧ (wrapped 2 1).conf 63 = false ∧ mayBegin (wrapped 2 1) 63 15 addItem = true ∧ ctlWords 0xB1 = some 2 ∧
    itemOpcode addItem = 0xB1 ∧
    ran (.commandFetch 63 15) (wrapped 2 1) (fun t => decide ((t.queue 63 15).started = [addItem]) && decide (t.fld (HIF_Q_PTR_CMD_HEAD 63 15) = 2) && decide (t.fld (HIF_Q_CTL_STATE 63 15) = 1)) = true := by decide +kernel
theorem test_fetch_partial : ran (.commandFetch 63 15) (wrapped 1 1) (fun t => decide ((t.queue 63 15).started = []) && decide (t.fld (HIF_Q_PTR_CMD_HEAD 63 15) = 2 ^ 32 - 1) &&
      decide (t.fld (HIF_Q_CTL_STATE 63 15) = 2) && decide ((t.queue 63 15).partialAt = some 0)) = true ∧
    kept (.commandFetch 63 15) (wrapped 1 2) = true ∧ kept (.commandFetch 63 15) (wrapped 2 0) = true ∧
    (let s := hq 1 (2 ^ 32 - 1) { queue0 with cmdTail := 2, started := [⟨0, [BitVec.ofNat 64 wAdd, 0xFFFFFFFFFFFFFFFF], 0, 0⟩] } [] ringA
     mayBegin s 63 15 addItem = false ∧ kept (.commandFetch 63 15) s = true) := by decide +kernel
theorem test_doorbell : ran (.doorbellCmdTail 0 63 15 17) (hq 1 0) (fun t => decide (t.fld (HIF_Q_CTL_STATE 63 15) = 3) && decide (t.fld (HIF_Q_CTL_LAST_ERROR 63 15) = 0x1003) && decide ((t.queue 63 15).cmdTail = 0)) = true ∧
    ran (.doorbellCmdTail 63 63 15 16) (hq 1 0) (fun t => decide (t.fld (HIF_Q_CTL_STATE 63 15) = 1) && decide ((t.queue 63 15).cmdTail = 16)) = true ∧
    ran (.doorbellCmdTail 63 63 15 17) (hq 0 0) (fun t => decide ((t.queue 63 15).cmdTail = 17)) = true ∧
    ran (.doorbellCplHead 63 63 15 9) (hq 1 0) (fun t => decide ((t.queue 63 15).cplHead = 9) && t.flag (HIF_Q_CTL_ARMED 63 15)) = true ∧
    ran (.doorbellOutHead 63 63 15 9) (hq 1 0) (fun t => decide ((t.queue 63 15).outHead = 9)) = true ∧
    kept (.doorbellCmdTail 62 63 15 1) (hq 1 0) = true ∧ kept (.doorbellCplHead 63 63 15 1) (hq 1 0 queue0 [(HIF_CTX_CTL_FN_ENABLED 63, 0)]) = true := by decide +kernel
theorem test_partial_timeout : (hq 2 9).fld HIF_CFG_PARTIAL_MS = 100 ∧
    (let s := { hq 2 9 { queue0 with cmdTail := 10, partialAt := some 0 } with clk := { up.clk with now := 100000000 } }
     ran (.partialTimeout 63 15) s (fun t => decide (t.fld (HIF_Q_CTL_STATE 63 15) = 3) && decide (t.fld (HIF_Q_CTL_LAST_ERROR 63 15) = 0x1004) && decide (t.fld (HIF_Q_PTR_CMD_HEAD 63 15) = 10)) = true ∧
     kept (.partialTimeout 63 15) { s with clk := { up.clk with now := 99999999 } } = true) ∧
    ran (.ringReadFailure 63 15) (hq 2 9) (fun t => decide (t.fld (HIF_Q_CTL_STATE 63 15) = 3) && decide (t.fld (HIF_Q_CTL_LAST_ERROR 63 15) = 0xA006)) = true ∧ kept (.ringReadFailure 63 15) (hq 3 9) = true := by decide +kernel
theorem test_queue_enable : sealSpent (hq 0 9) 63 15 = false ∧
    ran (.queueEnable 63 15) (hq 0 9 { queue0 with cmdTail := 12, entries := 5, cplHead := 3 }) (fun t => decide (t.queue 63 15 = { queue0 with cmdTail := 12 }) && decide (t.fld (HIF_Q_CTL_STATE 63 15) = 1) &&
      t.flag (HIF_Q_CTL_ARMED 63 15) && decide (t.fld (HIF_Q_PTR_CMD_HEAD 63 15) = 12)) = true ∧
    ran (.queueEnable 63 15) (hq 0 9 queue0 [(HIF_Q_OUT_BASE 63 15, 0)]) (fun t => decide (t.fld (HIF_Q_CTL_STATE 63 15) = 0) && decide (t.fld (HIF_Q_CTL_LAST_ERROR 63 15) = 0x1010) && !t.flag (HIF_Q_CTL_ENABLE 63 15)) = true ∧
    kept (.queueEnable 63 15) (hq 1 9) = true ∧
    ran (.queueFlush 63 15) (hq 2 9 { queue0 with cmdTail := 12, started := [addItem] }) (fun t => decide (t.fld (HIF_Q_CTL_STATE 63 15) = 0) && !t.flag (HIF_Q_CTL_ENABLE 63 15) && decide (t.fld (HIF_Q_PTR_CMD_HEAD 63 15) = 12) &&
      decide ((t.queue 63 15).started = [addItem])) = true ∧
    ran (.queueDisable 63 15) (hq 1 9) (fun t => decide (t.fld (HIF_Q_CTL_STATE 63 15) = 0)) = true ∧ kept (.queueDisable 63 15) (hq 0 9) = true := by decide +kernel

/-- The worked example of R543's IV: chunk 2 of operand 2 of queue 3, NONCE 0x41. -/
theorem test_iv : sealIv 0x41 2 2 3 2 = 0x000000000000410000022302 := by decide
/-- A sealed slot with NONCE 5 and one word of ciphertext; the device opens it where its tag verifies. -/
def sealed (nonce : Nat) : State := hq 1 0 { queue0 with cmdTail := 1, nonce := 4 } [(HIF_CTX_CTL_CONF 63, 1)] (leBytes 8 (nonce + 2 ^ 56) ++ leBytes 8 8)
theorem test_sealed_slot_fails : openSlot (sealed 4) 63 15 0 = none ∧ unfetched (sealed 4) 63 15 = 1 ∧
    ran (.commandFetch 63 15) (sealed 4) (fun t => decide (t.fld (HIF_Q_CTL_STATE 63 15) = 3) && decide (t.fld (HIF_Q_CTL_LAST_ERROR 63 15) = 0xB011)) = true := by decide +kernel
theorem test_sealed_slot (h : openUnit (sealed 5) 63 15 1 0 0 5 0x2000 8 = some (leBytes 8 (0xBB * 2 ^ 56))) :
    openSlot (sealed 5) 63 15 0 = some (5, [BitVec.ofNat 64 (0xBB * 2 ^ 56)]) ∧ mayBegin (sealed 5) 63 15 ⟨0, [BitVec.ofNat 64 (0xBB * 2 ^ 56)], 0, 5⟩ = true ∧ ctlWords 0xBB = some 0 ∧ (sealed 5).conf 63 = true := by
  refine ⟨?_, by decide +kernel, by decide, by decide +kernel⟩
  have a : (sealed 5).fld (HIF_Q_CMD_BASE 63 15) * 4096 + 128 * (0 % ringSize (sealed 5) 63 15) = 0x2000 := by decide +kernel
  have n : leNat (((sealed 5).hostRd 63 0x2000 16).take 7) = 5 := by decide +kernel
  have l : leNat ((((sealed 5).hostRd 63 0x2000 16).drop 8).take 4) = 8 := by decide +kernel
  have o : (sealed 5).queue 63 15 = { queue0 with cmdTail := 1, nonce := 4 } := by decide +kernel
  have d : (4 < 5 ∧ 8 % 8 = 0 ∧ 8 ≤ 8 ∧ 8 ≤ 64) := by decide
  rw [openSlot, a, n, l, o, if_pos d, h]; decide +kernel

def keysOn : State := let s := hq 1 0; { s with host := { s.host with ctk := [(62, 1), (63, 2)], dataKey := [(63, 3)] }, sec := { s.sec with spdm := [(63, { (s.responder 63) with stage := .session })] } }
theorem test_function_reset : mwf keysOn.host.ctk = true ∧ mwf keysOn.sec.spdm = true ∧ mwf keysOn.host.dataKey = true ∧ ownQps keysOn 63 = [] ∧ keysOn.waiters = [] ∧ keysOn.mkr.evaluating = none ∧
    hostReach keysOn 63 = true ∧ kept (.functionLevelReset 62) keysOn = true := by decide +kernel
theorem test_purge_refused : ran (.contextPurge 63 63) keysOn (fun t => decide (t.host.ctk = keysOn.host.ctk) && decide (t.fld HIF_ACC_ERR_OFFSET = 0x1011F8) && decide (t.fld HIF_ACC_ERR_FUNCTION = 63)) = true ∧
    hostReach keysOn 0 = true := by decide +kernel
def zeroed (kind : Nat) : State := let s := withFlds serv [(SES_KV_FREE_FREE, 0)]
  { s with ses := { s.ses with frames := [(9, ⟨0, kind, 63, false, false, 0⟩)] }, hbm := [(9 * 16384 - 1, 1), (9 * 16384, 2), (10 * 16384 - 1, 3), (10 * 16384, 4)] }
theorem test_frame_zeroing : ran (.frameZeroing 9) (zeroed 6) (fun t => decide (t.hbm = [(9 * 16384 - 1, 1), (10 * 16384, 4)]) && decide (t.frame 9 = none) && decide (t.fld SES_KV_FREE_FREE = 1)) = true ∧
    kept (.frameZeroing 9) (zeroed 1) = true := by decide +kernel
/-- Word 0 of the worked example of 07: OP 0x50 and one extension word. -/
theorem test_opcode_example : itemOpcode ⟨0, [0x5023214C0A900000, 7], 0, 0⟩ = 0x50 ∧ bits 0x5023214C0A900000 53 3 = 1 := by decide
/-! ### Registers -/

def bus (l : List (Field × Nat) := []) : State := withFlds up ([(GLB_RES1_HUB_OK, 3), (GLB_RES1_FORME_OK, 0xFFF), (HIF_CTX_CTL_FN_ENABLED 63, 1)] ++ l)
/-- The access-error capture: COUNT, VALID, WRITE, FUNCTION, USB, OFFSET. -/
def acc (t : State) : List Nat := [t.fld HIF_ACC_ERR_COUNT, t.fld HIF_ACC_ERR_VALID, t.fld HIF_ACC_ERR_WRITE, t.fld HIF_ACC_ERR_FUNCTION, t.fld HIF_ACC_ERR_USB, t.fld HIF_ACC_ERR_OFFSET]
theorem canonical_bus : Canonical (bus [(HIF_ACC_ERR_COUNT, 65535)]) := canonical_of_canon (by decide +kernel)
theorem test_misaligned : (bus).hubUp 0 = true ∧ hostReach bus 63 = true ∧
    ran (.misalignedBar0Access 63 0x1002 32 false) (bus [(HIF_ACC_ERR_COUNT, 65535)]) (fun t => decide (acc t = [65535, 1, 0, 63, 0, 0x1002]) && decide (mget t.host.answer 63 = some 0)) = true ∧
    ran (.misalignedBar0Access 0 4 64 true) bus (fun t => decide (acc t = [1, 1, 1, 0, 0, 4])) = true ∧ ran (.registerWrite 63 4 64 9) bus (fun t => decide (acc t = [1, 1, 1, 63, 0, 4])) = true ∧
    ran (.registerReadClear 63 2 32) bus (fun t => decide (acc t = [1, 1, 0, 63, 0, 2]) && decide (mget t.host.answer 63 = some 0)) = true ∧ kept (.misalignedBar0Access 63 8 64 true) bus = true := by decide +kernel
theorem test_register_read : (match regAt 0x58 with | some (d, _, k) => decide (d.bits = 64 ∧ k = 0) | none => false) = true ∧ formeAnswers bus 0x58 = true ∧
    (let s := bus.setReg 0x58 0x123456789ABCDEF0
     ran (.registerReadClear 0 0x58 64) s (fun t => decide (mget t.host.answer 0 = some 0x123456789ABCDEF0)) = true ∧
     ran (.registerLowHalfRead 0 0x58) s (fun t => decide (mget t.host.answer 0 = some 0x9ABCDEF0) && decide (mget t.host.shadow 0 = some (0x58, 0x12345678))) = true) ∧
    (match regAt 0xA00120 with | some (d, _, k) => decide (d.bits = 32 ∧ k = 0) | none => false) = true ∧
    ran (.registerReadClear 0 0xA00120 32) (bus [(FLT_FIRST_CTL_VALID 0, 1)]) (fun t => decide (mget t.host.answer 0 = some 1)) = true := by decide +kernel
theorem test_register_write : ran (.registerWrite 0 0x58 64 0xFFFFFFFFFFFFFFFF) bus (fun t => decide (t.reg 0x58 = 0xFFFFFFFFFFFFFFFF)) = true ∧
    ran (.registerWrite 0 0x58 32 0x5000000001) (bus.setReg 0x58 0x123456789ABCDEF0) (fun t => decide (t.reg 0x58 = 0x1234567800000001)) = true ∧
    ran (.registerWrite 0 0x48 64 9) bus (fun t => decide (t.clk = (bus).clk)) = true ∧ ran (.registerWrite 0 0xA00160 32 1) (bus [(FLT_FIRST_CTL_VALID 1, 1)]) (fun t => !t.flag (FLT_FIRST_CTL_VALID 1)) = true ∧
    ran (.registerWrite 63 0x2060 64 9) bus (fun t => decide (acc t = [1, 1, 1, 63, 0, 0x2060])) = true := by decide +kernel

def customers : State := let s := bus [(SES_CUST_MAP_VALID 4095, 1), (SES_CUST_MAP_CONTEXT 4095, 63)]
  { s with ses := { s.ses with entries := [(7, { sesW with customer := 4095 })] } }
theorem test_cust_map : (∀ b : Nat, b < 4 → (customers.bay b).heldBack = []) ∧ ran (.sesCustMapWrite 0 4094 0x45) customers (fun t => decide (t.fld (SES_CUST_MAP_CONTEXT 4094) = 5) && t.flag (SES_CUST_MAP_VALID 4094)) = true ∧
    ran (.sesCustMapWrite 0 4095 0x45) customers (fun t => decide (t = accErr customers 0 0x204FFC true false)) = true ∧
    ran (.sesCustMapWrite 0 4095 0x7F) customers (fun t => decide (t.fld (SES_CUST_MAP_CONTEXT 4095) = 63) && t.flag (SES_CUST_MAP_VALID 4095)) = true := by decide +kernel
theorem test_ctx_pages : openFrames (bus [(GLB_RES0_HBM_GIB, 4)]) = 65536 ∧
    ran (.sesCtxPagesWrite 0 63 65535) (bus [(GLB_RES0_HBM_GIB, 4), (SES_CTX_PAGES_RSV_PAGES 0, 1), (SES_CTX_PAGES_USED_PAGES 63, 7)]) (fun t => decide (t.fld (SES_CTX_PAGES_RSV_PAGES 63) = 65535) && decide (t.fld (SES_CTX_PAGES_USED_PAGES 63) = 7)) = true ∧
    (let s := bus [(GLB_RES0_HBM_GIB, 4), (SES_CTX_PAGES_RSV_PAGES 0, 1)]; ran (.sesCtxPagesWrite 0 63 65536) s (fun t => decide (t = accErr s 0 0x2005F8 true false)) = true) := by decide +kernel
theorem test_partition_write : let s := bus [(GAL_PART_ENABLE 0, 1), (GAL_PART_QUIRES 0, 2 ^ 47)]
    Machine.locked s 0x301078 = false ∧ ran (.galPartWrite 0 15 (BitVec.ofNat 64 (2 ^ 48 + 2 ^ 47))) s (fun t => decide (t = accErr s 0 0x301078 true false)) = true ∧
    ran (.galPartWrite 0 15 (BitVec.ofNat 64 (2 ^ 48 + 2 ^ 46))) s (fun t => decide (t.fld (GAL_PART_QUIRES 15) = 2 ^ 46) && t.flag (GAL_PART_ENABLE 15)) = true := by decide +kernel
theorem test_budget : ran (.galBudgetEnable 4095) (bus [(GAL_BUDGET_A_DEPTH 4095, 9)]) (fun t => t.flag (GAL_BUDGET_B_ENABLE 4095) && decide (t.fld (GAL_BUDGET_B_LEVEL 4095) = 9)) = true ∧
    ran (.galBudgetDepthWrite 4095 5) (bus [(GAL_BUDGET_A_DEPTH 4095, 9), (GAL_BUDGET_B_LEVEL 4095, 9), (GAL_BUDGET_A_RATE 4095, 3)]) (fun t => decide (t.fld (GAL_BUDGET_A_DEPTH 4095) = 5) &&
      decide (t.fld (GAL_BUDGET_B_LEVEL 4095) = 5) && decide (t.fld (GAL_BUDGET_A_RATE 4095) = 3)) = true ∧
    ran (.camOwnerWrite 0 31 2 63) bus (fun t => decide (t.fld (CAM_CFG_OWNER_KIND 31) = 2) && decide (t.fld (CAM_CFG_OWNER 31) = 63)) = true := by decide +kernel
/-! ### Root of trust, management port, test port -/

/-- The responder of function 63 at a stage, of a device in service. -/
def spdmS (fn : Nat) (st : SpdmStage) (l : List (Field × Nat) := []) : State :=
  let s := bus l
  { s with sec := { s.sec with spdm := [(fn, { spdm0 with stage := st })], slots := [⟨true, 1, 0⟩, ⟨true, 1, 1⟩] } }
/-- The stage, and the response code, after a request; and a check. -/
def asked (i : Instr) (s : State) (fn : Nat) (st : SpdmStage) (code : Nat) (p : State → Bool := fun _ => true) : Bool :=
  ran i s fun t => decide ((t.responder fn).stage = st) && decide ((t.responder fn).answer.map (·.1) = some code) && p t
/-- The bytes of the response. -/
def replied (t : State) (fn : Nat) (bs : List Byte) : Bool := decide ((t.responder fn).answer.map (·.2) = some bs)

theorem canonical_spdmS : Canonical (spdmS 63 .session) := canonical_of_canon (by decide +kernel)
theorem test_spdm_serves : spdmServes (spdmS 63 .start) 63 = true ∧ spdmServes (spdmS 63 .start) 62 = false ∧ kept (.getVersion 62) (spdmS 63 .start) = true ∧ kept (.setCtk 62 5) (spdmS 63 .start) = true := by decide +kernel
theorem test_spdm_stages : asked (.getVersion 63) (spdmS 63 .session) 63 .version 0x04 (replied · 63 [0x13]) = true ∧
    asked (.getCapabilities 63) (spdmS 63 .version) 63 .capabilities 0x61 = true ∧ asked (.getCapabilities 63) (spdmS 63 .algorithms) 63 .algorithms 0x7F = true ∧
    asked (.negotiateAlgorithms 63 true) (spdmS 63 .capabilities) 63 .algorithms 0x63 = true ∧ asked (.negotiateAlgorithms 63 false) (spdmS 63 .capabilities) 63 .capabilities 0x7F = true ∧
    asked (.getCertificate 63 1 0 9) (spdmS 63 .algorithms) 63 .algorithms 0x7F = true ∧
    asked (.getMeasurements 63 5) (spdmS 63 .session [(DBG_CFG_INVASIVE, 1), (DBG_CFG_PROFILE_EN, 1)]) 63 .session 0x60 (replied · 63 [3]) = true ∧
    asked (.getMeasurements 63 4) (spdmS 63 .session) 63 .session 0x60 (replied · 63 (List.replicate 48 0)) = true ∧
    asked (.getMeasurements 63 7) (spdmS 63 .session [(HIF_CTX_CTL_CONF 63, 1)]) 63 .session 0x60 (replied · 63 [1]) = true ∧ asked (.getMeasurements 0 7) (spdmS 0 .session) 0 .session 0x7F = true := by decide +kernel
theorem test_spdm_session : asked (.challenge 63 0 9) (spdmS 63 .algorithms) 63 .algorithms 0x03 = true ∧
    asked (.keyExchange 63 9) (spdmS 63 .algorithms) 63 .exchange 0x64 (fun t => decide ((t.responder 63).exchange = some 9)) = true ∧ asked (.keyExchange 63 9) (spdmS 63 .session) 63 .session 0x7F = true ∧
    asked (.finish 63 true) (spdmS 63 .exchange) 63 .session 0x65 = true ∧ asked (.finish 63 false) (spdmS 63 .exchange) 63 .algorithms 0x7F = true ∧
    asked (.heartbeat 63) (spdmS 63 .session) 63 .session 0x68 = true ∧ asked (.keyUpdate 63 2) (spdmS 63 .session) 63 .session 0x69 (fun t => decide ((t.responder 63).updates = 1)) = true ∧
    asked (.endSession 63) (spdmS 63 .session) 63 .algorithms 0x6C = true := by decide +kernel
theorem test_set_ctk : asked (.setCtk 63 5) (spdmS 63 .session) 63 .session 0x7E (fun t => decide (mget t.host.ctk 63 = some 5) && t.conf 63 && decide ((t.queue 63 15).outCtr = 1)) = true ∧ anyQueueOn (spdmS 63 .session) 63 = false ∧
    asked (.setCtk 63 5) (spdmS 63 .algorithms) 63 .algorithms 0x7F (fun t => decide (t.host.ctk = []) && replied t 63 [0xFF, 0x20, 0xB0]) = true ∧
    (let s := { spdmS 0 .session with sec := { (spdmS 0 .session).sec with keys := some ⟨1, 2, 3, 4, 5⟩ } }
     asked (.domainKeys 0 7 7 7 7 6 true) s 0 .session 0x7E (fun t => decide (t.sec.keys = some ⟨7, 7, 7, 7, 6⟩)) = true ∧ asked (.domainKeys 0 7 7 7 7 5 true) s 0 .session 0x7F = true ∧
     asked (.clearDomain 0) s 0 .session 0x7E (fun t => decide (t.sec.keys = none)) = true) ∧
    asked (.clearDomain 63) (spdmS 63 .session) 63 .session 0x7F (replied · 63 [0xFF, 0x22, 0xB0]) = true ∧ asked (.debugUnlock 63 0 0 false) (spdmS 63 .session) 63 .session 0x7F (replied · 63 [0xFF, 0x21, 0xB0]) = true ∧
    (∀ c : Nat, c < 64 → (spdmS 0 .session).conf c = false) ∧ ran (.doeAbort 63) { spdmS 63 .session with sec := { (spdmS 63 .session).sec with spdm := [(63, { spdm0 with answer := some (4, []), partialReq := true })] } }
      (fun t => decide ((t.responder 63) = spdm0)) = true := by decide +kernel

def usbS (bulk : Option (Nat × Nat)) (l : List (Field × Nat) := []) : State := let s := spdmS 63 .start l; { s with sec := { s.sec with bulk, reqCount := 65535 } }
/-- STALL, status, count and data after a management request. -/
def usb (t : State) : Bool × Nat × Nat × List Byte := (t.sec.stall, t.sec.lastStatus, t.sec.reqCount, t.sec.usbIn)
def mgmt (i : Instr) (s : State) (r : Bool × Nat × Nat × List Byte) (p : State → Bool := fun _ => true) : Bool := ran i s fun t => decide (usb t = r) && p t
theorem canonical_usbS : Canonical (usbS none) := canonical_of_canon (by decide +kernel)
theorem test_management : (usbS none).pins.standby = true ∧ usbFits 0x8000 8 = true ∧ usbFits 0x8000 4 = false ∧ usbFits 0x0400 4 = false ∧
    mgmt (.readReg 0x0058 0 4) ((usbS none).setReg 0x58 0x123456789ABCDEF0) (false, 0, 65535, [0xF0, 0xDE, 0xBC, 0x9A]) = true ∧
    mgmt (.readReg 0x0000 0x80E0 8) (usbS none) (false, 0, 65535, List.replicate 8 0) = true ∧
    mgmt (.readReg 0 0x8000 4) (usbS none) (true, 0x1022, 65535, []) = true ∧
    mgmt (.writeReg 0 0x00D0 4 0x5) (usbS none) (false, 0, 0, []) = true ∧ mgmt (.writeReg 0x58 0 4 5) (usbS none) (false, 0x1021, 65535, []) (fun t => decide (t.reg 0x58 = (usbS none).reg 0x58)) = true ∧
    mgmt .getFirst (usbS none [(FLT_FIRST_WORD 0 0, 9)]) (false, 0, 65535, 9 :: List.replicate 63 0) = true ∧
    mgmt (.bulkStart 3 9 8) (usbS none) (false, 0, 0, []) (fun t => decide (t.sec.bulk = some (3, 9))) = true ∧ mgmt (.bulkStart 4 9 8) (usbS none) (true, 0x1022, 65535, []) (fun t => decide (t.sec.bulk = none)) = true ∧
    mgmt .getResult (usbS none) (false, 0, 65535, [0xFF, 0xFF, 0, 0, 0, 0, 0, 0]) = true ∧ mgmt (.reset 0xA55A 1) (usbS none) (true, 0x1022, 65535, []) = true ∧
    mgmt (.reset 0xA55A 0) (usbS none) (false, 0, 0, []) (fun t => decide (t.clk.now = 0) && decide (t.fld GLB_STATE_START_PHASE = 1)) = true ∧
    mgmt .usbBusReset (usbS (some (1, 9))) (false, 0, 65535, []) (fun t => decide (t.sec.bulk = none)) = true ∧ mgmt .usbStageTimeout (usbS (some (1, 9))) (false, 0xA007, 65535, []) = true ∧
    usbKnown 8 0x40 0 = false ∧ mgmt (.unsupportedManagementRequest 8 0x40 0) (usbS none) (true, 0x1022, 65535, []) = true := by decide +kernel
theorem test_bulk : ran (.bulkTransferDone 1 7 true) (usbS (some (3, 9))) (fun t => decide (t.sec.bulk = none) && decide (t.sec.slots.map (·.svn) = [1, 7])) = true ∧
    ran (.bulkTransferDone 1 7 false) (usbS (some (3, 9))) (fun t => decide (t.sec.bulk = none) && decide (t.sec.slots = (usbS none).sec.slots)) = true ∧
    ran (.bulkTransferDone 0 0 true) (usbS (some (2, 32)) [(FLT_RING_CFG_LOG2_ENTRIES, 8)]) (fun t => decide (t.sec.usbIn = List.replicate 32 0)) = true ∧ kept (.bulkTransferDone 1 7 true) (usbS none) = true := by decide +kernel
theorem test_tap : ran (.testPortInstruction 2) bus (fun t => decide (t.sec.tapData = 0x10E51B47)) = true ∧ ran (.testPortInstruction 0) bus (fun t => decide (t.sec.tapData = 0)) = true ∧
    ran (.testPortInstruction 3) bus (fun t => decide (t.sec.tap = 0)) = true ∧ ran (.testPortInstruction 6) bus (fun t => decide (t.sec.tap = 0) && decide (t.sec.tapData = 0)) = true ∧
    (let s := { bus with pins := { (bus).pins with standby := false } }; kept .getInfo s = true ∧ kept .getResult s = true) := by decide +kernel
/-! ### Islands, events, start-up -/

/-- Core 15 of hub 1, group 63 aimed at it, and comparator 63 in that group. -/
def isl (now : Nat) (l : List (Field × Nat) := []) : State :=
  let s := bus ([(EVC_SRC_GROUP 0x47F, 63), (EVC_GROUP_CORE 63, 15)] ++ l)
  { s with clk := { s.clk with now } }
/-- The state of an island after a command, with a check. -/
def island (i : Instr) (s : State) (x st : Nat) (p : State → Bool := fun _ => true) : Bool := ran i s fun t => decide ((t.island x).state = st) && p t

theorem canonical_isl : Canonical (isl 0) := canonical_of_canon (by decide +kernel)
theorem test_island_choice : isIsland 8207 = true ∧ islandIdle (isl 0) 8207 = true ∧ islandLimit (isl 0) 8207 = 1 ∧ nextEvent (isl 0) 8207 = none ∧
    island (.islandStateChoice 8207) (isl 0) 8207 1 (fun t => decide ((t.island 8207).entry = some (1, 0))) = true ∧
    (let n := 10 + 40 + wakeMargin (isl 0) 8207 1
     nextEvent (isl 0 [(EVC_TIMER_AT 63, n)]) 8207 = some n ∧ island (.islandStateChoice 8207) (isl 0 [(EVC_TIMER_AT 63, n)]) 8207 1 = true ∧ island (.islandStateChoice 8207) (isl 0 [(EVC_TIMER_AT 63, n - 1)]) 8207 0 = true) ∧
    isIsland 4192 = false ∧ kept (.islandStateChoice 4192) (isl 0) = true ∧ kept (.islandWake 12290) (isl 0) = true := by decide +kernel
theorem test_island_wake : (isl 5).island 2015 = ⟨3, none, none⟩ ∧ ran (.islandWake 2015) (isl 5) (fun t => decide (t.island 2015 = ⟨0, none, some 5⟩) && decide (t.fld (FRM_CELL_STAT_ISLAND 11 167) = 0)) = true ∧
    kept (.islandWake 8207) (isl 5) = true := by decide +kernel
theorem test_d1 : (isl 0).fld GLB_STATE_DEV_STATE = 0 ∧ (isl 0).flag GLB_STATE_READY = true ∧ deviceIdle (isl 0) = true ∧
    (let s := isl ((isl 0).fld PWR_CFG_IDLE_MS * 10 ^ 6); s.isl.idleSince + s.fld PWR_CFG_IDLE_MS * 10 ^ 6 ≤ s.clk.now ∧ kept .d1Entry (isl ((isl 0).fld PWR_CFG_IDLE_MS * 10 ^ 6 - 1)) = true) := by decide +kernel
theorem test_edge : evtAssigned 0x47F = true ∧ (isl 0).pins.standby = true ∧
    ran (.eventEdge 0x47F) (isl 0 [(EVC_SRC_LATCHED 0x47F, 1), (EVC_SRC_MERGED 0x47F, 255)]) (fun t => decide (t.fld (EVC_SRC_MERGED 0x47F) = 255)) = true ∧
    ran (.eventEdge 0x47F) (isl 0 [(EVC_SRC_ENABLE 0x47F, 1), (EVC_GROUP_PENDING 63, 4095), (GLB_STATE_DEV_STATE, 1)]) (fun t => t.flag (EVC_SRC_LATCHED 0x47F) && decide (t.fld (EVC_GROUP_PENDING 63) = 4095) &&
      decide (t.fld EVC_STATUS_LATCHED = 1) && decide (t.fld GLB_STATE_DEV_STATE = 0)) = true ∧ evtAssigned 0x406 = false ∧ kept (.eventEdge 0x406) (isl 0) = true := by decide +kernel
def delivering : State := isl 7 [(EVC_SRC_ENABLE 0x47F, 1), (EVC_SRC_LATCHED 0x47F, 1), (EVC_GROUP_PENDING 63, 1), (EVC_GROUP_VECTOR 63, 9), (EVC_GROUP_HOLDOFF_NS 63, 100)]
theorem test_delivery : groupCore (endHolds delivering) 63 = 15 ∧
    (let r := endHolds delivering; r.hubUp 1 = true ∧ r.awake = true ∧ r.flag (EVC_GROUP_HELD 63) = false ∧ nextGroup r 1 = some 63 ∧ nextGroup r 0 = none) ∧
    ran (.eventDelivery 0) delivering (fun t => decide (t = endHolds delivering)) = true := by decide +kernel
theorem test_comparator : ran (.evcTimerReached 63) (isl 9 [(EVC_TIMER_AT 63, 9)]) (fun t => t.flag (EVC_SRC_LATCHED 0x47F)) = true ∧ kept (.evcTimerReached 63) (isl 8 [(EVC_TIMER_AT 63, 9)]) = true ∧ kept (.evcTimerReached 63) (isl 9) = true ∧
    ran (.energyTelemetry 5) (isl 0 [(PWR_ENERGY_UJ, 2 ^ 64 - 1)]) (fun t => decide (t.fld PWR_ENERGY_UJ = 4) && decide (t.fld PWR_POWER_MW = 5)) = true := by decide +kernel
def lowS : State := { isl 9 with pins := { (isl 9).pins with porstN := false, failoverEn := true } }
theorem test_porst : ran .porstNAsserted (isl 9 [(CRT_SEAL_SEAL_US, 7), (GLB_STATE_DEV_STATE, 1)]) (fun t => !t.pins.porstN && decide (t.fld GLB_STATE_START_PHASE = 0) && decide (t.fld GLB_STATE_DEV_STATE = 3) && decide (t.fld CRT_SEAL_SEAL_US = 7)) = true ∧
    ran .porstNReleased lowS (fun t => t.pins.porstN && decide (t.clk.now = 0) && decide (t.fld GLB_STATE_START_PHASE = 1) && t.flag GLB_CAP3_FAILOVER_PORT) = true ∧ kept .porstNReleased (isl 9) = true ∧
    (lowS).awake = false ∧ kept .startPhaseAdvance lowS = true ∧ kept (.energyTelemetry 5) lowS = true := by decide +kernel
/-- A start-up phase, with the images of the firmware slots. -/
def phase (n : Nat) (slots : List FwSlot) (l : List (Field × Nat) := []) (now : Nat := 5) : State :=
  let s := isl now ([(GLB_STATE_START_PHASE, n), (GLB_STATE_READY, 0), (GLB_STATE_DEV_STATE, 3)] ++ l)
  { s with sec := { s.sec with slots, minSvn := 2, startCount := 2 ^ 24 - 1 }, pins := { s.pins with serdes := [true, true] } }
theorem test_boot : imageOk (phase 1 [⟨true, 1, 0⟩, ⟨true, 2, 0⟩]) 0 = false ∧ imageOk (phase 1 [⟨true, 1, 0⟩, ⟨true, 2, 0⟩]) 1 = true ∧
    ran .startPhaseAdvance (phase 1 [⟨true, 1, 0⟩, ⟨true, 2, 0⟩]) (fun t => decide (t.fld SEC_STATUS_BOOT_SLOT = 1) && decide (t.fld GLB_STATE_START_PHASE = 2) && decide (t.sec.startCount = 2 ^ 24) && decide (t.ses.baseInstar = 1)) = true ∧
    ran .startPhaseAdvance (phase 1 [⟨true, 2, 0⟩, ⟨true, 2, 0⟩]) (fun t => decide (t.fld SEC_STATUS_BOOT_SLOT = 0)) = true ∧
    ran .startPhaseAdvance (phase 1 [⟨false, 9, 0⟩, ⟨true, 1, 0⟩]) (fun t => decide (t.fld GLB_STATE_START_PHASE = 15) && decide (t.sec.lastStatus = 0xB001)) = true ∧
    (let s := phase 1 [⟨true, 2, 0⟩]; kept .startPhaseAdvance { s with pins := { s.pins with serdes := [true, false] } } = true) := by decide +kernel
theorem test_phases : ran .startPhaseAdvance (phase 3 []) (fun t => decide (t.fld GLB_STATE_START_PHASE = 4) && decide (t.isl.phaseAt = 5)) = true ∧ (phase 4 []).fld GLB_STATE_START_PHASE = 4 ∧
    ran .startPhaseAdvance (phase 5 [] [(GLB_DEV_ADDR_VALID, 1)]) (fun t => decide (t.fld GLB_STATE_START_PHASE = 6)) = true ∧ kept .startPhaseAdvance (phase 5 []) = true ∧
    ran .startPhaseAdvance (phase 6 [] [] 20000000000) (fun t => decide (t.fld GLB_STATE_START_PHASE = 7) && t.flag GLB_STATE_READY && decide (t.fld GLB_STATE_DEV_STATE = 0)) = true ∧
    timeLocked (phase 6 []) = false ∧ kept .startPhaseAdvance (phase 6 [] [] 19999999999) = true ∧ timeLocked (phase 6 [] [(GLB_TIME_STATUS_LOCKED, 1)]) = true ∧ kept .startPhaseAdvance (phase 7 []) = true := by decide +kernel

/-! ### Supplies, heat, the host port -/

def pwr (f : PinBlock → PinBlock) (now : Nat := 5) (l : List (Field × Nat) := []) : State := { isl now l with pins := f { (isl now l).pins with pwrfailN := true, thermtripN := true, serdes := [true, true] } }
def isSealed (t : State) : Bool := decide (t.fld GLB_STATE_START_PHASE = 8) && decide (t.fld GLB_STATE_READY = 0) && decide (t.fld GLB_STATE_DEV_STATE = 3)
def isHeld (t : State) : Bool := t.pins.ovHold && !t.awake && decide (t.fld GLB_STATE_START_PHASE = 0) && decide (t.fld GLB_STATE_DEV_STATE = 3)
theorem test_power_fail : ran .pwrfailNAsserted (pwr id) (fun t => isSealed t && !t.pins.pwrfailN) = true ∧
    ran .pwrfailNAsserted (pwr id 5 [(GLB_STATE_START_PHASE, 8)]) (fun t => !t.pins.pwrfailN && t.flag PWR_RAILS_PWRFAIL && decide (t.fld GLB_STATE_START_PHASE = 8)) = true ∧ kept .pwrfailNAsserted (pwr ({ · with pwrfailN := false })) = true ∧
    sealsDone (pwr id) = true ∧ ran .pwrfailNDeasserted (pwr ({ · with pwrfailN := false }) 5 [(GLB_STATE_START_PHASE, 8), (CRT_SEAL_SEAL_US, 9)]) (fun t => t.pins.pwrfailN && decide (t.fld GLB_STATE_START_PHASE = 1) && decide (t.clk.now = 0) &&
      decide (t.fld CRT_SEAL_SEAL_US = 9)) = true ∧
    ran .pwrfailNDeasserted (pwr ({ · with pwrfailN := false }) 5 [(PWR_RAILS_PWRFAIL, 1)]) (fun t => t.pins.pwrfailN && decide (t.fld PWR_RAILS_PWRFAIL = 0) && decide (t.clk.now = 5)) = true := by decide +kernel
theorem test_input : ran (.standbyRailUp 3135) (pwr ({ · with standby := false })) (fun t => t.pins.standby && decide (t.fld PWR_RAILS_VSB_MV = 3135)) = true ∧ kept (.standbyRailUp 3466) (pwr id) = true ∧
    ran (.vinLow 43999) (pwr id) (fun t => isSealed t && decide ((mget t.flt.latch (hubUnit (pwr id) 14)).map (fun m => (m.kind, m.status)) = some (0x10, 0xC003))) = true ∧ kept (.vinLow 44000) (pwr id) = true ∧ kept (.vinLow 39999) (pwr id) = true ∧
    ran (.vinLow 40000) (pwr ({ · with pwrfailN := false })) (fun t => decide (t.fld PWR_RAILS_VIN_MV = 40000) && decide (t.fld GLB_STATE_START_PHASE = 7)) = true ∧
    ran (.vinHighWarning 57000) (pwr ({ · with vinMsgAt := some 5 }) 1000000005) (fun t => t.flag PWR_RAILS_VIN_HIGH && decide (t.pins.vinMsgAt = some 1000000005)) = true ∧
    ran (.vinHighWarning 54001) (pwr ({ · with vinMsgAt := some 6 }) 1000000005) (fun t => t.flag PWR_RAILS_VIN_HIGH && decide (t.flt.latch.length = 0)) = true ∧ kept (.vinHighWarning 54000) (pwr id) = true ∧ kept (.vinHighWarning 57001) (pwr id) = true ∧
    ran (.vinOvervoltage 57001) (pwr id) isHeld = true ∧ kept (.vinOvervoltage 57000) (pwr id) = true := by decide +kernel
theorem test_rail_collapse : ran (.railCollapse 48000 2999) (pwr id 5 [(CRT_SEAL_SEAL_US, 9), (EVC_SRC_LATCHED 5, 1)]) (fun t => isHeld t && !t.pins.standby && decide (t.fld CRT_SEAL_SEAL_US = 0) && !t.flag (EVC_SRC_LATCHED 5)) = true ∧
    ran (.railCollapse 39999 3000) (pwr id 5 [(CRT_SEAL_SEAL_US, 9), (EVC_SRC_LATCHED 5, 1)]) (fun t => isHeld t && t.pins.standby && decide (t.fld CRT_SEAL_SEAL_US = 9) && t.flag (EVC_SRC_LATCHED 5)) = true ∧ kept (.railCollapse 40000 3000) (pwr id) = true := by decide +kernel
theorem test_reference : kept (.serdesReferenceAbsent 2) (pwr id) = true ∧
    ran (.serdesReferenceAbsent 1) (pwr id 800000000 [(GLB_STATE_START_PHASE, 1)]) (fun t => decide (t.pins.serdes = [true, false]) && decide (t.sec.lastStatus = 0xC002)) = true ∧
    (pwr id).ses.entries = [] ∧ (pwr id).vse = [] ∧ (∀ b : Nat, b < 4 → ((pwr id).bay b).waitItems = []) ∧
    ran (.serdesReferenceAbsent 1) (pwr id 5 [(FAB_PORT_STATE 15, 2), (FAB_PORT_STATE 8, 1), (FAB_PORT_STATE 7, 2), (CRT_BAY_STATE 3, 3), (CRT_BAY_STATE 1, 5)]) (fun t =>
      decide ([pst t 15, pst t 8, pst t 7, bst t 3, bst t 1] = [0, 0, 2, 10, 5])) = true := by decide +kernel
theorem test_heat : ran (.thermtrip 125) (pwr id) (fun t => isSealed t && !t.pins.thermtripN) = true ∧ kept (.thermtrip 124) (pwr id) = true ∧
    ran (.thermalThrottle 100 1) (pwr id) (fun t => decide (t.gal.limited = 1) && decide (t.pins.hotAt = some 5) && t.flag PWR_THERM_THROTTLED && decide ((mget t.flt.latch 0xB5F).map (·.status) = some 0xC004)) = true ∧ kept (.thermalThrottle 99 1) (pwr id) = true ∧
    (let s (n : Nat) : State := { pwr ({ · with hotAt := some 5 }) n with gal := { (pwr id).gal with limited := 1 } }
     ran (.thermalThrottle 300 0) (s 9) (fun t => decide (t.fld PWR_THERM_TJ_MAX_C = 255) && decide (t.flt.latch.length = 0)) = true ∧
     ran (.thermalLimitAll 104 1) (s 100000005) (fun t => decide (t.gal.limited = 2) && t.mkr.due && t.flag PWR_THERM_ALL_LIMITED) = true ∧ kept (.thermalLimitAll 104 1) (s 100000004) = true ∧ kept (.thermalLimitAll 103 1) (s 100000005) = true ∧
     ran (.thermalLimitLift 94) (s 1000000005) (fun t => decide (t.gal.limited = 0) && t.mkr.due && decide (t.pins.hotAt = none)) = true ∧ kept (.thermalLimitLift 94) (s 1000000004) = true ∧ kept (.thermalLimitLift 95) (s 1000000005) = true) := by decide +kernel
theorem test_host_port : ran (.srIovVfEnable 63 false) (isl 0) (fun t => !t.flag (HIF_CTX_CTL_FN_ENABLED 63)) = true ∧ kept (.srIovVfEnable 0 true) (isl 0) = true ∧ kept (.srIovVfEnable 64 true) (isl 0) = true ∧ kept (.srIovVfEnable 63 false) (isl 0 [(GLB_STATE_START_PHASE, 9)]) = true ∧
    (let s := { isl 0 with host := { (isl 0).host with lanes := 16 } }; ran (.pcieLinkRetrain 8) s (fun t => decide (t.host.lanes = 8)) = true ∧ kept (.pcieLinkRetrain 16) s = true ∧ kept (.pcieLinkRetrain 3) s = true) ∧
    ran (.hostMemoryReadTimeout src63) (started 0xC1 9) (fun t => decide ((t.queue 63 15).mute = [9]) && decide (((t.queue 63 15).backlog.getLast?.map (·.status)) = some 0xA006)) = true ∧ kept (.hostMemoryReadTimeout src63) (isl 0) = true := by decide +kernel
theorem test_scrub : let s := { isl 0 [(FRM_CELL_MAP_PHYS 0 0, 167), (FRM_CELL_ECC_CE 0 167, 65534)] with cells := [(0, { cell0 with weak := [1, 2], mem := [(16, 5)] })], hbmWeak := [7] }
    cellPhys s 0 = 167 ∧ ran (.memoryScrub 0) s (fun t => decide ((t.cell 0).weak = []) && decide ((t.cell 0).mem = [(16, 5)]) && decide (t.fld (FRM_CELL_ECC_CE 0 167) = 65535) && decide (t.hbmWeak = [])) = true ∧ kept (.memoryScrub 1920) s = true := by decide +kernel

/-! ### Steps -/

/-- A command in front of the queue runs on the state with the rest of the queue; on an empty one device time counts, and does not
while the part is held in reset (log entry 1). -/
theorem test_step_front : (match step { up with pending := [.ctlNop src0, .camScrub 0] } with | .next t => decide (t.pending.length = 1) | _ => false) = true := by decide +kernel
theorem test_step_tick : up.pending = [] ∧ up.clk.slew = 0 ∧ up.pins.porstN = true ∧ up.pins.ovHold = false ∧
    (match step up with | .next t => decide (t = { up with clk := { up.clk with now := 1 } }) | _ => false) = true ∧
    (match step State.reset with | .next t => decide (t = State.reset) | _ => false) = true := by decide +kernel

end Sys2Proof.Tests
end

section
/-! Every command keeps the queue of commands that wait and the canonical form of the state, and so does a step on an empty
queue: the canonical form is an invariant of `step`. -/

namespace Sys2Proof.Machine

variable {wq : List Instr} {s : State}

/-! ### The shapes of the commands' meanings -/

theorem kept_when {p : Prop} [Decidable p] {t u : State} (ht : Kept wq t) (hu : Kept wq u) :
    Kept wq (if p then t else u) :=
  kept_ite (fun _ => ht) fun _ => hu

theorem kept_ofEntry {o : Option Session} {f : Session → State} (h : Kept wq s) (hf : ∀ e, Kept wq (f e)) :
    Kept wq (match o with | none => s | some e => f e) := by
  cases o with
  | none => exact h
  | some e => exact hf e

theorem keptO_runItem {src : Src} {op : Nat} {body : State → State × Reply} {early : Bool}
    (hb : ∀ t, Kept wq t → Kept1 wq (body t)) (h : Kept wq s) : KeptOut wq (.next (runItem s src op body early)) :=
  keptO_next (runItem_kept _ _ _ _ _ hb h)

theorem keptO_sesItem {src : Src} {op : Nat} {handle : Word} {body : Nat → Session → State → State × Reply}
    {moved ended faulted stamp : Bool} (hb : ∀ i e t, Kept wq t → Kept1 wq (body i e t)) (h : Kept wq s) :
    KeptOut wq (.next (sesItem s src op handle body moved ended faulted stamp)) :=
  keptO_next (sesItem_kept _ _ _ _ _ _ _ _ _ hb h)

/-- A command about a cell faults where the part has no such cell (log entry 98). -/
theorem keptO_inService {cell : Nat} {o : Host.Outcome State Fault Refusal} (ho : KeptOut wq o) :
    KeptOut wq (if cellCount ≤ cell then .fault .noSuchCell else o) :=
  keptO_ite (fun _ => keptO_fault) fun _ => ho

theorem execFence_kept (u : SyncUse) (h : Kept wq s) : KeptOut wq (execFence u s) := by
  cases u with
  | cell x => exact cellItem_kept _ _ _ _ (fun _ _ ht => keptC_ite (fun _ => keptC_wait ht) fun _ => keptC_ok ht) h
  | item src _ _ => exact keptO_runItem (fun _ => kept1_mk) h

/-! ### Every command -/

/-- What a command answers is `Kept` because its meaning is: each arm cites the law of that meaning. Where the meaning hands a
function of its own to a shared item, the arm names the meaning, so that the function is read off it. -/
theorem exec_kept (c : Instr) (h : Kept wq s) : KeptOut wq (exec c s) :=
  match c with
  -- sessions and tiers
  | .sesCreate .. => keptO_runItem (createSession_kept _ _ _ _ _ _ _ _ _ _ _) h
  | .sesFeed .. => keptO_sesItem (feedBody_kept _ _ _ _ _ _) h
  | .sesRun .. => keptO_sesItem (runBody_kept _) h
  | .sesWait .. => keptO_sesItem (waitBody_kept _ _) h
  | .sesHold .. => keptO_sesItem holdBody_kept h
  | .sesRelease .. => keptO_sesItem releaseBody_kept h
  | .sesFork .. => keptO_sesItem (forkBody_kept _ _ _ _) h
  | .sesMigrate .. => keptO_sesItem (migrateBody_kept _) h
  | .sesPark .. => keptO_sesItem (parkBody_kept _) h
  | .sesRevive .. => keptO_sesItem reviveBody_kept h
  | .sesCancel .. => keptO_sesItem (cancelBody_kept _) h
  | .sesEnd .. => keptO_sesItem (endBody_kept _) h
  | .sesFree .. => keptO_sesItem freeBody_kept h
  | .sesQuery .. => keptO_sesItem (queryBody_kept _ _) h
  | .sesConfig .. => keptO_sesItem (configBody_kept _ _ _) h
  | .cancelDrainComplete .. => keptO_next (kept_ofEntry h fun _ => kept_when (finishCancel_kept _ _ _ h) h)
  | .sessionDrainTimeout .. => keptO_next (drainTimeout_kept _ _ h)
  | .waitGraceExpiry .. => keptO_next (graceExpiry_kept _ _ h)
  | .proactiveRevivalStart .. =>
      keptO_next (kept_ofEntry h fun _ => kept_when (startRevival_kept _ _ _ (abortPark_kept _ _ h)) h)
  | .overdueExpiry .. => keptO_next (overdue_kept _ _ h)
  | .deadlinePassed .. => keptO_next (deadlineRule_kept _ _ h)
  | .durLagExpiry .. => keptO_next (kept_ofEntry h fun _ => kept_when (bringCurrent_kept _ _ _ h) h)
  | .p1PressureParking .. => keptO_next (pressure_kept _ _ h)
  | .parkCommit .. => keptO_next (parkProgress_kept _ _ h)
  | .parkFailure .. => keptO_next (parkFailed_kept _ _ _ h)
  | .revivalCommit .. => keptO_next (revivalEnd_kept _ _ _ h)
  | .migrationCommit .. => keptO_next (migrationDone_kept _ _ _ h)
  | .migrationRefused .. => keptO_next (migrationBack_kept _ _ _ h)
  | .migrationTimeout .. => keptO_next (migrationLate_kept _ _ h)
  | .advertiseFreeLentSpace => keptO_next (kept_when h (kept_upd (send_kept _ _ h)))
  | .lenderAdvertisement .. => keptO_next (lenderHeard_kept _ _ _ _ _ h)
  | .reclaimNoticeSend => keptO_next (sendReclaim_kept _ h)
  | .reclaimNotice .. => keptO_next (reclaimHeard_kept _ _ _ h)
  | .reclaimResend .. => keptO_next (resendReclaim_kept _ _ h)
  | .reclaimDeadline => keptO_next (reclaimOver_kept _ h)
  | .bayReadOnlyEvacuation .. => keptO_next (evacuate_kept _ _ h)
  -- make-ready
  | .mkrDefine .. => keptO_runItem (defineBody_kept _ _) h
  | .mkrDrop .. => keptO_runItem (dropBody_kept _ _) h
  | .mkrReady .. => keptO_runItem (readyBody_kept _ _) h
  | .makeReadyEvaluation => keptO_next (endEvaluation_kept _ h)
  | .mkrWithdraw .. => keptO_runItem (fun _ => withdraw_kept _ _) h
  | .mkrQuery .. => keptO_runItem (mkrQueryBody_kept _ _ _) h
  | .capacityReevaluation => keptO_next (kept_when (reevaluate_kept _ h) h)
  -- galleys
  | .galLoad .. => keptO_runItem (loadBody_kept _ _ _ _) h
  | .galUnload .. => keptO_runItem (unloadBody_kept _ _) h
  | .galDraft .. => keptO_sesItem (draftBody_kept _ _ _ _) h
  | .galPreempt .. => keptO_runItem (preemptBody_kept _ _ _) h
  | .galResume .. => keptO_runItem (resumeBody_kept _ _ _) h
  | .galleySwap .. => keptO_next (swapGalley_kept _ _ _ (refreshErr_kept _ h))
  | .galleyBuild .. => keptO_next (buildGalley_kept _ _ _ h)
  | .galleyCommit .. => keptO_next (commitGalley_kept _ _ _ h)
  | .contractStepMissed .. => keptO_next (contractMissed_kept _ _ _ h)
  | .stepWatchdog .. => keptO_next (watchdog_kept _ _ _ h)
  -- text
  | .tokVload .. => keptO_runItem (vloadBody_kept _ _ _) h
  | .tokGload .. => keptO_runItem (gloadBody_kept _ _ _) h
  | .tokUnload .. =>
      keptO_runItem (fun _ ht => kept1_ite (fun _ => unloadVocab_kept _ _ ht) fun _ => unloadGrammar_kept _ _ ht) h
  | .tokEncode .. => keptO_runItem (encodeBody_kept _ _ _ _ _) h
  | .logitSegment .. => keptO_next (segmentIn_kept _ _ _ _ _ _ (arrive_kept _ _ h))
  | .positionSampled .. => keptO_next (samplePosition_kept _ _ _ _ h)
  -- associative banks
  | .camCfg .. => keptO_runItem (camCfgBody_kept _ _ _ _ _) h
  | .camWrite .. => keptO_runItem (camWriteBody_kept _ _ _ _ _) h
  | .camFind .. => keptO_runItem (camFindBody_kept _ _ _ _ _ _) h
  | .camRead .. => keptO_runItem (camReadBody_kept _ _ _ _) h
  | .camScrub .. => keptO_next (camScrub_kept _ _ h)
  -- cartridge bays and flash
  | .presenceAsserted .. => keptO_next (presence_kept _ _ h)
  | .holdUpGood .. => keptO_next (holdUp_kept _ _ h)
  | .holdUpTimerExpiry .. => keptO_next (holdUpLate_kept _ _ h)
  | .colophonVerified .. => keptO_next (colophonRead_kept _ _ _ _ _ _ _ h)
  | .i3cSilent .. => keptO_next (i3cQuiet_kept _ _ h)
  | .linkTrained .. => keptO_next (trained_kept _ _ _ _ h)
  | .trainingRetry .. => keptO_next (retryTraining_kept _ _ _ _ h)
  | .replayComplete .. => keptO_next (replayEnd_kept _ _ _ _ _ h)
  | .endOfLife .. => keptO_next (endLife_kept _ _ _ h)
  | .presenceDeasserted .. => keptO_next (removed_kept _ _ h)
  | .crtPut .. => keptO_runItem (crtPutBody_kept _ _ _ _) h
  | .crtGet .. => keptO_runItem (crtGetBody_kept _ _ _ _ _) h
  | .crtDel .. => keptO_runItem (crtDelBody_kept _ _) h
  | .crtEject .. => keptO_runItem (ejectBody_kept _ _) h
  | .ejectDrained .. => keptO_next (ejected_kept _ _ h)
  | .crtFormat .. => keptO_runItem (formatBody_kept _ _) h
  | .crtCompact .. => keptO_runItem (compactBody_kept _ _) h
  | .compaction .. => keptO_next (kept_when (startCompact_kept _ _ h) h)
  | .compactionSuperblockDurable .. => keptO_next (compacted_kept _ _ h)
  | .flitReceived .. => keptO_next (flitIn_kept _ _ _ h)
  | .flitResendTimeout .. => keptO_next (flitLate_kept _ _ h)
  | .retrain .. => keptO_next (retrained_kept _ _ _ h)
  | .programSuspend .. => keptO_next (suspendDie_kept _ _ _ _ h)
  | .pageReadDone .. => keptO_next (readDone_kept _ _ _ _ h)
  | .flashDieTimeout .. => keptO_next (dieLate_kept _ _ _ _ h)
  | .programOrEraseFailure .. => keptO_next (programFailed_kept _ _ _ _ h)
  | .wearRecordWrite .. => keptO_next (kept_when (writeWear_kept _ _ _ h) h)
  | .journalPageClose .. => keptO_next (kept_when (closePage_kept _ _ h) h)
  | .journalPageProgrammed .. => keptO_next (pageDurable_kept _ _ h)
  | .readDisturbRelocation .. => keptO_next (kept_when (relocate_kept _ _ _ h) h)
  | .patrolScan .. => keptO_next (patrol_kept _ _ _ _ _ h)
  | .wearLevelling .. => keptO_next (kept_when (relocate_kept _ _ _ h) h)
  | .collector .. => keptO_next (collect_kept _ _ h)
  | .piedPageRecovery .. => keptO_next (recoverPage_kept _ _ _ _ h)
  -- search
  | .vseOpen .. => keptO_runItem (openBody_kept _ _ _ _ _ _ _ _ _ _ _ _) h
  | .vseClose .. => keptO_runItem (closeBody_kept _ _) h
  | .vseQuery .. => keptO_runItem (vseQueryBody_kept _ _ _ _ _ _ _ _ _ _) h
  | .vseInsert .. => keptO_runItem (insertBody_kept _ _ _ _ _) h
  | .vseDelete .. => keptO_runItem (deleteBody_kept _ _ _) h
  | .vseMerge .. => keptO_runItem (mergeBody_kept _ _ _) h
  | .vseDoc .. => keptO_runItem (docBody_kept _ _ _ _ _ _) h
  | .searchGalleyRelease .. => keptO_next (searchRelease_kept _ _ h)
  | .partitionScanReturn .. => keptO_next (scanReturn_kept _ _ _ _ _ _ h)
  | .recordReadReturn .. => keptO_next (readReturn_kept _ _ _ _ _ _ h)
  | .queryComplete .. => keptO_next (queryDone_kept _ _ _ h)
  | .sidePageClose .. => keptO_next (sideClose_kept _ _ h)
  | .sideRecordDurable .. => keptO_next (sideDurable_kept _ _ h)
  | .mergeGenerationChange .. => keptO_next (mergeChange_kept _ _ h)
  | .energyMeter .. => keptO_next (meter_kept _ _ _ _ h)
  -- fabric and device time
  | .fabQpc .. => keptO_runItem (qpcBody_kept _ _ _ _ _ _ _) h
  | .fabPost .. => keptO_runItem (postBody_kept _ _ _) h
  | .fabWin .. => keptO_runItem (winBody_kept _ _ _) h
  | .fabCtlConnect .. => keptO_runItem (connectBody_kept _ _ _ _) h
  | .fabCtlReset .. => keptO_runItem (qpResetBody_kept _ _) h
  | .fabCtlDestroy .. => keptO_runItem (qpDestroyBody_kept _ _) h
  | .fabCtlCancel .. => keptO_runItem (qpCancelBody_kept _ _) h
  | .fabCtlQuery .. => keptO_runItem (qpQueryBody_kept _ _ _) h
  | .fabCtlRevokeWindow .. => keptO_runItem (revokeBody_kept _ _ _) h
  | .fabCtlCompose .. => keptO_runItem (composeBody_kept _ _) h
  | .portSignalDetected .. => keptO_next (portSignal_kept _ _ h)
  | .portLinkUp .. => keptO_next (portUp_kept _ _ h)
  | .portTrainingTimeout .. => keptO_next (portTimeout_kept _ _ h)
  | .portLinkLost .. => keptO_next (portLost_kept _ _ h)
  | .serdesFault .. => keptO_next (serdesFails_kept _ _ _ h)
  | .fabPortMediaWrite .. => keptO_next (kept_when (mediaWrite_kept _ _ _ _ h) h)
  | .discoverySend => keptO_next (discoverAll_kept _ h)
  | .discoveryFrame .. => keptO_next (discovered_kept _ _ _ h)
  | .ptpSync .. => keptO_next (syncIn_kept _ _ _ h)
  | .syncMissed => keptO_next (syncLost_kept _ h)
  | .holdoverTimeFault .. => keptO_next (holdoverFault_kept _ _ h)
  | .domainOfOne => keptO_next (loneDomain_kept _ h)
  | .pfcPauseReceived .. => keptO_next (pauseIn_kept _ _ _ _ h)
  | .pfcRefresh .. => keptO_next (kept_when (pauseRefresh_kept _ _ _ h) h)
  | .pfcWatchdog .. => keptO_next (pauseWatchdog_kept _ _ _ h)
  | .stuckClear .. => keptO_next (unstick_kept _ _ _ h)
  | .eftFrame .. => keptO_next (showSlots_kept _ (eftIn_kept _ _ _ h))
  | .ackTimer .. => keptO_next (ackDue_kept _ _ h)
  | .rtoExpiry .. => keptO_next (showSlots_kept _ (rtoPassed_kept _ _ h))
  | .resendAfterExpiry .. => keptO_next (retryPassed_kept _ _ h)
  | .holdAckSend .. => keptO_next (holdAgain_kept _ _ h)
  | .stallTimeout .. => keptO_next (stallPassed_kept _ _ h)
  | .pageArrival .. => keptO_next (pageArrives_kept _ _ _ h)
  | .connectResend .. => keptO_next (kept_when (sendConnect_kept _ _ h) h)
  | .connectTimeout .. => keptO_next (connectLate_kept _ _ h)
  | .arbiterGrant .. => keptO_next (showSlots_kept _ (arbitrate_kept _ _ h))
  | .fabWaitTimeout .. => keptO_next (waitTimedOut_kept _ _ h)
  -- faults, losses and time limits
  | .fenceRecord .. => keptO_next (fenceIn_kept _ _ _ h)
  | .mirroredPark .. => keptO_next (mirrorPark_kept _ _ _ h)
  | .partnerHandleQuery .. => keptO_next (kept_upd h)
  | .unitDeclaredLost .. => keptO_next (unitLost_kept _ _ h)
  | .deviceDeclaredLost .. => keptO_next (deviceLost_kept _ _ _ _ h)
  | .hubHandover => keptO_next (handover_kept _ h)
  | .faultLatchHandled .. => keptO_next (handleLatch_kept _ _ h)
  | .failureWarning .. => keptO_next (warned_kept _ _ h)
  | .hbmSparing .. => keptO_next (kept_when (loseStack_kept _ _ _ h) (spareChannels_kept _ _ _ h))
  | .reImposition .. => keptO_next (reimpose_kept _ _ h)
  | .staleMessageResetOrder .. => keptO_next (speaksAgain_kept _ _ _ h)
  | .proofWrite .. => keptO_next (writeProof_kept _ _ h)
  | .cellItemTimeout .. => keptO_next (cellTimeout_kept _ _ h)
  | .controlItemTimeout .. => keptO_next (itemTimeout_kept _ _ h)
  | .dmaTimeout .. => keptO_inService (keptO_ite (fun _ => keptO_next (faultDesc_kept _ _ _ _ h)) fun _ => keptO_next h)
  | .syncWaitTimeout .. => keptO_next (waitTimeout_kept _ _ _ h)
  -- scalar items of cells
  | .nop .. => regItem_kept _ _ _ _ h
  | .sadd .. => scalarItem_kept _ _ _ h
  | .ssub .. => scalarItem_kept _ _ _ h
  | .smul .. => scalarItem_kept _ _ _ h
  | .sand .. => scalarItem_kept _ _ _ h
  | .sor .. => scalarItem_kept _ _ _ h
  | .sxor .. => scalarItem_kept _ _ _ h
  | .shl x => show KeptOut wq (execShl x s) from scalarItem_kept _ _ _ h
  | .shr x => show KeptOut wq (execShr x s) from scalarItem_kept _ _ _ h
  | .sra x => show KeptOut wq (execSra x s) from scalarItem_kept _ _ _ h
  | .cmp .. => checkedItem_kept _ _ _ _ h
  | .li x => show KeptOut wq (execLi x s) from regItem_kept _ _ _ _ h
  | .ld .. => cellItem_kept _ _ _ _ (ldBody_kept _) h
  | .st .. => cellItem_kept _ _ _ _ (stBody_kept _) h
  | .rdsr .. => cellItem_kept _ _ _ _ (fun _ _ => keptC_ok) h
  | .wrsr .. => regItem_kept _ _ _ _ h
  | .br .. => cellItem_kept _ _ _ _ (fun _ _ => keptC_jump) h
  | .bc .. => cellItem_kept _ _ _ _ (bcBody_kept _) h
  | .call .. => cellItem_kept _ _ _ _ (fun _ _ => keptC_jump) h
  | .jr .. => cellItem_kept _ _ _ _ (fun _ _ => keptC_jump) h
  | .trap .. => cellItem_kept _ _ _ _ (fun _ _ => keptC_exc) h
  | .eret .. => cellItem_kept _ _ _ _ (fun _ _ => keptC_jump) h
  | .galRec .. => cellItem_kept _ _ _ _ (galRecBody_kept _) h
  | .stepDone .. => stepDoneItem_kept _ _ h
  | .dftWrite .. => cellItem_kept _ _ _ _ (dftBody_kept _) h
  -- vector items
  | .vld .. => cellItem_kept _ _ _ _ (vldBody_kept _) h
  | .vst .. => cellItem_kept _ _ _ _ (vstBody_kept _) h
  | .vbc x => show KeptOut wq (execVbc x s) from regItem_kept _ _ _ _ h
  | .vmov x => show KeptOut wq (execVmov x s) from regItem_kept _ _ _ _ h
  | .vadd .. => arithItem_kept _ _ _ _ h
  | .vsub .. => arithItem_kept _ _ _ _ h
  | .vmul .. => arithItem_kept _ _ _ _ h
  | .vmin x => show KeptOut wq (execVmin x s) from arithItem_kept _ _ _ _ h
  | .vmax x => show KeptOut wq (execVmax x s) from arithItem_kept _ _ _ _ h
  | .vand .. => bitItem_kept _ _ _ h
  | .vor .. => bitItem_kept _ _ _ h
  | .vxor .. => bitItem_kept _ _ _ h
  | .vfma .. => checkedItem_kept _ _ _ _ h
  | .vshl x => show KeptOut wq (execVshl x s) from vshiftItem_kept _ _ _ h
  | .vshr x => show KeptOut wq (execVshr x s) from vshiftItem_kept _ _ _ h
  | .vcvt .. => cellItem_kept _ _ _ _ (vcvtBody_kept _) h
  | .vcmp .. => cellItem_kept _ _ _ _ (vcmpBody_kept _) h
  | .vsel .. => regItem_kept _ _ _ _ h
  | .plog .. => checkedItem_kept _ _ _ _ h
  | .vperm x => show KeptOut wq (execVperm x s) from regItem_kept _ _ _ _ h
  | .vredAdd .. => regItem_kept _ _ _ _ h
  | .vredMax .. => regItem_kept _ _ _ _ h
  | .vexp2 .. => defItem_kept _ _ _ h
  | .vrcp .. => defItem_kept _ _ _ h
  | .vrsqrt .. => defItem_kept _ _ _ h
  | .vgth .. => cellItem_kept _ _ _ _ (vgthBody_kept _) h
  | .vsct .. => cellItem_kept _ _ _ _ (vsctBody_kept _) h
  -- tensor and wide-accumulator items
  | .tmma .. => cellItem_kept _ _ _ _ (tmmaBody_kept _) h
  | .tzero x => show KeptOut wq (execTzero x s) from checkedItem_kept _ _ _ _ h
  | .tld .. => cellItem_kept _ _ _ _ (tldBody_kept _) h
  | .tst .. => cellItem_kept _ _ _ _ (tstBody_kept _) h
  | .tmx .. => cellItem_kept _ _ _ _ (tmxBody_kept _) h
  | .wclr .. => checkedItem_kept _ _ _ _ h
  | .waddF32 .. => checkedItem_kept _ _ _ _ h
  | .wmacF32 .. => checkedItem_kept _ _ _ _ h
  | .wcvt .. => cellItem_kept _ _ _ _ (wcvtBody_kept _) h
  | .wmrg .. => cellItem_kept _ _ _ _ (wmrgBody_kept _) h
  -- descriptors and the sends of cells
  | .dmaIn .. => cellItem_kept _ _ _ _ (startBody_kept _ _ _) h
  | .dmaOut .. => cellItem_kept _ _ _ _ (startBody_kept _ _ _) h
  | .dmaGth .. => cellItem_kept _ _ _ _ (startBody_kept _ _ _) h
  | .dmaSct .. => cellItem_kept _ _ _ _ (startBody_kept _ _ _) h
  | .dmaWalk .. => cellItem_kept _ _ _ _ (startBody_kept _ _ _) h
  | .dmaApp .. => cellItem_kept _ _ _ _ (appBody_kept _) h
  | .dmaWsend .. => cellItem_kept _ _ _ _ (startBody_kept _ _ _) h
  | .dmaWait .. => cellItem_kept _ _ _ _ (dmaWaitBody_kept _) h
  | .dmaRst .. => checkedItem_kept _ _ _ _ h
  | .dmaDescriptorDone .. => keptO_inService (keptO_next (finishDesc_kept _ _ _ h))
  | .dmaElementFault .. => keptO_inService (keptO_next (elemFault_kept _ _ _ _ _ h))
  | .lgtSend .. => cellItem_kept _ _ _ _ (lgtBody_kept _) h
  | .vsrScan .. => cellItem_kept _ _ _ _ (vsrScanBody_kept _) h
  | .vsrPut .. => cellItem_kept _ _ _ _ (vsrPutBody_kept _) h
  -- synchronisation
  | .ctrRd u => show KeptOut wq (execCtrRd u s) from syncUse_kept _ _ _ _ _ _ (fun _ _ _ _ _ => keptS_done) h
  | .ctrAdd u =>
      show KeptOut wq (execCtrAdd u s) from syncUse_kept _ _ _ _ _ _ (fun _ _ _ _ _ => counterAdd_kept _ _ _) h
  | .ctrWait u => show KeptOut wq (execCtrWait u s) from syncUse_kept _ _ _ _ _ _ (acquire_kept 0xB2) h
  | .semTake u => show KeptOut wq (execSemTake u s) from syncUse_kept _ _ _ _ _ _ (acquire_kept 0xB3) h
  | .semGive u => show KeptOut wq (execSemGive u s) from syncUse_kept _ _ _ _ _ _ (fun _ _ _ _ _ => semGive_kept _ _) h
  | .barArv u => show KeptOut wq (execBarArv u s) from syncUse_kept _ _ _ _ _ _ (fun _ _ _ _ _ => barArrive_kept _ _) h
  | .barWait u => show KeptOut wq (execBarWait u s) from syncUse_kept _ _ _ _ _ _ (acquire_kept 0xB6) h
  | .qnAcq u => show KeptOut wq (execQnAcq u s) from syncUse_kept _ _ _ _ _ _ (acquire_kept 0xB7) h
  | .qnTry u => show KeptOut wq (execQnTry u s) from syncUse_kept _ _ _ _ _ _ (fun _ _ _ _ _ => quoinTry_kept _ _ _) h
  | .qnRel u =>
      show KeptOut wq (execQnRel u s) from syncUse_kept _ _ _ _ _ _ (fun _ _ _ _ _ => quoinRelease_kept _ _ _) h
  | .syncRd u => show KeptOut wq (execSyncRd u s) from syncUse_kept _ _ _ _ _ _ (fun _ _ _ _ _ => keptS_done) h
  | .fence .. => execFence_kept _ h
  | .syncInit .. => keptO_runItem (syncInitBody_kept _ _ _ _ _) h
  | .syncFree .. => keptO_runItem (syncFreeBody_kept _ _) h
  -- command queues and registers
  | .ctlNop .. => keptO_runItem (fun _ => kept1_mk) h
  | .ctlStamp .. => keptO_runItem (fun _ => kept1_mk) h
  | .commandFetch .. => keptO_next (fetchItem_kept _ _ _ h)
  | .doorbellCmdTail .. => keptO_next (doorbell_kept _ _ _ _ _ (cmdTail_kept _ _ _) h)
  | .doorbellCplHead .. => keptO_next (doorbell_kept _ _ _ _ _ (cplHead_kept _ _ _) h)
  | .doorbellOutHead .. => keptO_next (doorbell_kept _ _ _ _ _ (outHead_kept _ _ _) h)
  | .partialTimeout .. => keptO_next (partialOver_kept _ _ _ h)
  | .ringReadFailure .. => keptO_next (ringFails_kept _ _ _ h)
  | .queueEnable .. => keptO_next (kept_when (enableQueue_kept _ _ _ h) h)
  | .queueDisable .. => keptO_next (kept_when (flushQueue_kept _ _ _ h) h)
  | .queueFlush .. => keptO_next (kept_when (flushQueue_kept _ _ _ h) h)
  | .contextPurge .. => keptO_next (kept_when h (kept_when (purge_kept _ _ h) (accErr_kept _ _ _ _ _ h)))
  | .sesCustMapWrite .. => keptO_next (kept_when (busWrite_kept _ _ _ _ _ h) h)
  | .sesCtxPagesWrite .. => keptO_next (kept_when (busWrite_kept _ _ _ _ _ h) h)
  | .galPartWrite .. => keptO_next (kept_when (busWrite_kept _ _ _ _ _ h) h)
  | .galBudgetEnable .. => keptO_next (kept_when (busWrite_kept _ _ _ _ _ h) h)
  | .galBudgetDepthWrite .. => keptO_next (kept_when (busWrite_kept _ _ _ _ _ h) h)
  | .camOwnerWrite .. => keptO_next (kept_when (busWrite_kept _ _ _ _ _ h) h)
  | .registerWrite .. => keptO_next (busWrite_kept _ _ _ _ _ h)
  | .registerReadClear .. => keptO_next (busRead_kept _ _ _ _ h)
  | .registerLowHalfRead .. => keptO_next (busRead_kept _ _ _ _ h)
  | .misalignedBar0Access .. =>
      keptO_next (kept_when h (kept_when (busWrite_kept _ _ _ _ _ h) (busRead_kept _ _ _ _ h)))
  | .functionLevelReset .. => keptO_next (kept_when (functionReset_kept _ _ h) h)
  | .pcieHotReset => keptO_next (kept_when (portReset_kept _ h) h)
  -- the root of trust
  | .doeAbort .. => keptO_next (mailboxAbort_kept _ _ h)
  | .getVersion .. => keptO_next (spdmVersion_kept _ _ h)
  | .getCapabilities .. => keptO_next (spdmCapabilities_kept _ _ h)
  | .negotiateAlgorithms .. => keptO_next (spdmAlgorithms_kept _ _ _ h)
  | .getDigests .. => keptO_next (spdmDigests_kept _ _ h)
  | .getCertificate .. => keptO_next (spdmCertificate_kept _ _ _ _ _ h)
  | .challenge .. => keptO_next (spdmChallenge_kept _ _ _ h)
  | .getMeasurements .. => keptO_next (spdmMeasurements_kept _ _ _ h)
  | .keyExchange .. => keptO_next (spdmExchange_kept _ _ _ h)
  | .finish .. => keptO_next (spdmFinish_kept _ _ _ h)
  | .heartbeat .. => keptO_next (spdmHeartbeat_kept _ _ h)
  | .keyUpdate .. => keptO_next (spdmUpdate_kept _ _ _ h)
  | .endSession .. => keptO_next (spdmEnd_kept _ _ h)
  | .setCtk .. => keptO_next (setCtk_kept _ _ _ h)
  | .domainKeys .. => keptO_next (domainKeys_kept _ _ _ _ h)
  | .clearDomain .. => keptO_next (clearDomain_kept _ _ h)
  | .debugUnlock .. => keptO_next (debugUnlock_kept _ _ _ _ _ h)
  -- the management port
  | .getInfo => keptO_next (usbInfo_kept _ h)
  | .readReg .. => keptO_next (usbRead_kept _ _ _ _ h)
  | .writeReg .. => keptO_next (usbWrite_kept _ _ _ _ _ h)
  | .getFirst => keptO_next (usbFirst_kept _ h)
  | .bulkStart .. => keptO_next (usbBulk_kept _ _ _ _ h)
  | .bulkTransferDone .. => keptO_next (usbBulkDone_kept _ _ _ _ h)
  | .getResult => keptO_next (usbResult_kept _ h)
  | .reset .. => keptO_next (usbReset_kept _ _ _ h)
  | .usbBusReset => keptO_next (busReset_kept _ h)
  | .usbStageTimeout => keptO_next (stageLate_kept _ h)
  -- memories, islands, events and the package
  | .frameZeroing .. => keptO_next (zeroFrame_kept _ _ h)
  | .memoryScrub .. => keptO_next (scrub_kept _ _ h)
  | .islandStateChoice .. => keptO_next (sleepIsland_kept _ _ h)
  | .islandWake .. => keptO_next (wakeIsland_kept _ _ h)
  | .d1Entry => keptO_next (enterD1_kept _ h)
  | .eventEdge .. => keptO_next (edge_kept _ _ h)
  | .eventDelivery .. => keptO_next (deliverEvent_kept _ _ h)
  | .evcTimerReached .. => keptO_next (timerReached_kept _ _ h)
  | .energyTelemetry .. => keptO_next (addEnergy_kept _ _ h)
  | .pwrfailNAsserted => keptO_next (powerFails_kept _ h)
  | .pwrfailNDeasserted => keptO_next (powerBack_kept _ h)
  | .porstNAsserted => keptO_next (porstLow_kept _ h)
  | .porstNReleased => keptO_next (porstHigh_kept _ h)
  | .startPhaseAdvance => keptO_next (advancePhase_kept _ h)
  | .serdesReferenceAbsent .. => keptO_next (referenceLost_kept _ _ h)
  | .vinLow .. => keptO_next (inputLow_kept _ _ h)
  | .vinHighWarning .. => keptO_next (inputHigh_kept _ _ h)
  | .vinOvervoltage .. => keptO_next (inputOver_kept _ _ h)
  | .railCollapse .. => keptO_next (railsGone_kept _ _ _ h)
  | .thermtrip .. => keptO_next (tripped_kept _ _ h)
  | .thermalThrottle .. => keptO_next (throttle_kept _ _ _ h)
  | .thermalLimitAll .. => keptO_next (limitAll_kept _ _ _ h)
  | .thermalLimitLift .. => keptO_next (liftLimits_kept _ _ h)
  -- timers and events of the units above
  | .holdUpStatusBad .. => keptO_next (holdUpBad_kept _ _ h)
  | .deferredParkStart .. => keptO_next (deferredStart_kept _ _ h)
  | .syncMessageSend => keptO_next (syncOut_kept _ h)
  | .pdelayReqSend .. => keptO_next (kept_when (send_kept _ _ h) h)
  | .pdelayMessage .. => keptO_next (pdelayIn_kept _ _ _ _ _ _ _ h)
  | .deviceHeartbeatSend => keptO_next (heartbeatOut_kept _ h)
  | .pfcPauseExpiry .. => keptO_next (pauseExpires_kept _ _ _ h)
  | .hostMemoryReadTimeout .. => keptO_next (hostReadLate_kept _ _ h)
  | .pcieLinkRetrain .. => keptO_next (retrainHost_kept _ _ h)
  | .srIovVfEnable .. => keptO_next (enableVf_kept _ _ _ h)
  | .illegalInstruction .. => keptO_ite (fun _ => keptO_next h) fun _ => cellItem_kept _ _ _ _ (fun _ _ => keptC_exc) h
  | .unsupportedManagementRequest .. => keptO_next (kept_when h (stalled_kept _ h))
  | .testPortInstruction .. => keptO_next (tapLoad_kept _ _ h)
  | .standbyRailUp .. => keptO_next (standbyUp_kept _ _ h)
  | .lenderReclaimSweep .. => keptO_next (sweep_kept _ _ h)

/-! ### Steps -/

theorem step_of_pending_nil (hq : s.pending = []) : step s = .next (idleTick s) := by
  unfold step
  rw [hq]

theorem step_of_pending_cons {c : Instr} {rest : List Instr} (hq : s.pending = c :: rest) :
    step s = exec c { s with pending := rest } := by
  unfold step
  rw [hq]

/-- A step takes the front of the queue, whatever command it is, and keeps the canonical form. -/
theorem step_kept {t : State} (hs : Canonical s) (hstep : step s = .next t) : Kept s.pending.tail t := by
  cases hq : s.pending with
  | nil =>
    rw [step_of_pending_nil hq] at hstep
    cases hstep
    exact idleTick_kept s ⟨hq, hs⟩
  | cons c rest =>
    rw [step_of_pending_cons hq] at hstep
    have hrest : Kept rest { s with pending := rest } := ⟨rfl, hs.regs, hs.mem, hs.hbm⟩
    exact (exec_kept c hrest).elim hstep

/-- Settles O4: what `step_kept` keeps holds the canonical form. -/
theorem everyStepKeepsTheStateCanonical : Obligations.EveryStepKeepsTheStateCanonical := by
  unfold Obligations.EveryStepKeepsTheStateCanonical
  intro s t hs hstep
  exact (step_kept hs hstep).canon

/-! ### The tick of an empty queue (R6, R23, R24, log entry 1) -/

theorem tickClock_of_slew_zero {c : ClkBlock} (h : c.slew = 0) : tickClock c = { c with now := c.now + 1 } := by
  simp [tickClock, h]

theorem idleTick_of_awake (h : s.awake = true) : idleTick s = { s with clk := tickClock s.clk } := by
  simp [idleTick, h]

theorem idleTick_of_not_awake (h : s.awake = false) : idleTick s = s := by
  simp [idleTick, h]

/-- Settles O2, by whether the part is out of reset. -/
theorem emptyQueueCountsATick : Obligations.EmptyQueueCountsATick := by
  unfold Obligations.EmptyQueueCountsATick
  intro s hq hslew
  rw [step_of_pending_nil hq]
  constructor
  · intro hporst hhold
    have hawake : s.awake = true := by simp [State.awake, hporst, hhold]
    rw [idleTick_of_awake hawake, tickClock_of_slew_zero hslew]
  · intro hheld
    have hawake : s.awake = false := by rcases hheld with h | h <;> simp [State.awake, h]
    rw [idleTick_of_not_awake hawake]

end Sys2Proof.Machine
end

section
/-! Registers, events and fault latches as the later files read them: what a write to one field leaves of the others, and what
`edge`, `capacityChange` and `fault` leave of a state. -/

namespace Sys2Proof.Machine

variable {s t : State}

/-! ### Commands and their outcomes -/

theorem ends_of_eq {i : Instr} {u : State} {P : State → Prop} (hexec : exec i s = .next u) (he : u = t) (hP : P t) :
    Ends i s P := ⟨t, hexec.trans (congrArg _ he), hP⟩

theorem exec_unchanged {i : Instr} {u : State} (hexec : exec i s = .next u) (he : u = s) : exec i s = .next s :=
  hexec.trans (congrArg _ he)

theorem Canonical.of_kept (hs : Canonical s) (h : Kept s.pending s → Kept s.pending t) : Canonical t := (h ⟨rfl, hs⟩).canon

theorem Canonical.setFld (hs : Canonical s) (f : Field) (v : Nat) : Canonical (s.setFld f v) := hs.of_kept (setFld_kept s f v)

theorem Canonical.setPort (hs : Canonical s) (p : Nat) (x : Port) : Canonical (s.setPort p x) := hs.of_kept (setPort_kept s p x)

theorem Canonical.edge (hs : Canonical s) (n : Nat) : Canonical (edge s n) := hs.of_kept (edge_kept s n)

/-- A fold leaves of the state what each of its steps leaves. -/
theorem foldl_frame {α β : Type} (view : State → β) {f : State → α → State} (hf : ∀ u x, view (f u x) = view u) :
    ∀ (l : List α) (u : State), view (l.foldl f u) = view u
  | [], _ => rfl
  | x :: l, u => (foldl_frame view hf l (f u x)).trans (hf u x)

/-! ### Bits -/

theorem bitOf_eq_testBit (x i : Nat) : bitOf x i = x.testBit i := by
  rw [bitOf, Nat.testBit_eq_decide_div_mod_eq]

theorem bitOf_mod_two_pow {i w : Nat} (x : Nat) (h : i < w) : bitOf (x % 2 ^ w) i = bitOf x i := by
  simp [bitOf_eq_testBit, Nat.testBit_mod_two_pow, h]

theorem bitOf_add_two_pow (x i : Nat) : bitOf (x + 2 ^ i) i = !bitOf x i := by
  rw [bitOf_eq_testBit, bitOf_eq_testBit, Nat.add_comm, Nat.testBit_two_pow_add_eq]

theorem bitOf_sub_two_pow {x i : Nat} (h : bitOf x i = true) : bitOf (x - 2 ^ i) i = false := by
  have hle : 2 ^ i ≤ x := Nat.ge_two_pow_of_testBit (bitOf_eq_testBit x i ▸ h)
  have hflip := bitOf_add_two_pow (x - 2 ^ i) i
  rw [Nat.sub_add_cancel hle, h] at hflip
  simpa using hflip.symm

theorem bitOf_or_two_pow (x i : Nat) : bitOf (x ||| 2 ^ i) i = true := by
  simp [bitOf_eq_testBit, Nat.testBit_two_pow_self]

/-! ### Fields -/

theorem fld_lt (s : State) (g : Field) : s.fld g < 2 ^ g.w := Nat.mod_lt _ (Nat.two_pow_pos _)

theorem fld_of_reg {g : Field} (h : t.reg g.off = s.reg g.off) : t.fld g = s.fld g := by
  unfold State.fld
  rw [h]

theorem flag_of_fld {g : Field} (h : t.fld g = s.fld g) : t.flag g = s.flag g := by
  unfold State.flag
  rw [h]

theorem flag_eq_true {g : Field} : s.flag g = true ↔ s.fld g ≠ 0 := by simp [State.flag]

theorem flag_eq_false {g : Field} : s.flag g = false ↔ s.fld g = 0 := by simp [State.flag]

theorem reg_setFld_other (s : State) {f : Field} (v : Nat) {o : Nat} (h : o ≠ f.off) : (s.setFld f v).reg o = s.reg o :=
  reg_setReg_other s _ h

theorem reg_incSat_other (s : State) {f : Field} (n : Nat) {o : Nat} (h : o ≠ f.off) : (s.incSat f n).reg o = s.reg o :=
  reg_setReg_other s _ h

theorem reg_updFlt (s : State) (f : FltBlock) (o : Nat) : State.reg { s with flt := f } o = s.reg o := rfl

theorem fld_setFld_of_lt {f : Field} {v : Nat} (hs : Canonical s) (hw : f.lo + f.w ≤ 64) (hv : v < 2 ^ f.w) :
    (s.setFld f v).fld f = v := by
  rw [fld_setFld_same f v hw hs.regs, Nat.mod_eq_of_lt hv]

/-! ### Events (R575, R576) -/

@[simp] theorem leaveD1_clk (s : State) : (leaveD1 s).clk = s.clk := by unfold leaveD1; split <;> rfl
@[simp] theorem leaveD1_ses (s : State) : (leaveD1 s).ses = s.ses := by unfold leaveD1; split <;> rfl
@[simp] theorem leaveD1_fab (s : State) : (leaveD1 s).fab = s.fab := by unfold leaveD1; split <;> rfl
@[simp] theorem leaveD1_flt (s : State) : (leaveD1 s).flt = s.flt := by unfold leaveD1; split <;> rfl

@[simp] theorem edge_clk (s : State) (n : Nat) : (edge s n).clk = s.clk := by unfold edge; dsimp only; split_ifs <;> simp
@[simp] theorem edge_ses (s : State) (n : Nat) : (edge s n).ses = s.ses := by unfold edge; dsimp only; split_ifs <;> simp
@[simp] theorem edge_fab (s : State) (n : Nat) : (edge s n).fab = s.fab := by unfold edge; dsimp only; split_ifs <;> simp
@[simp] theorem edge_flt (s : State) (n : Nat) : (edge s n).flt = s.flt := by unfold edge; dsimp only; split_ifs <;> simp

theorem leaveD1_reg (s : State) {o : Nat} (h : o ≠ 0x40) : (leaveD1 s).reg o = s.reg o := by
  unfold leaveD1
  split
  · exact reg_setFld_other s _ h
  · rfl

/-- An edge writes the EVC_ registers, and GLB_STATE where it takes the device out of D1. -/
theorem edge_reg (s : State) (n : Nat) {o : Nat} (h : o < 0xB00000) (h' : o ≠ 0x40) : (edge s n).reg o = s.reg o := by
  have hsrc : o ≠ (EVC_SRC_LATCHED n).off := by dsimp only; omega
  have hstatus : o ≠ EVC_STATUS_LATCHED.off := by dsimp only; omega
  have hgroup (g : Nat) : o ≠ (EVC_GROUP_PENDING g).off := by dsimp only; omega
  unfold edge
  split
  · rw [leaveD1_reg _ h']
    dsimp only
    split_ifs
    · exact reg_incSat_other s 1 hsrc
    · rw [reg_incSat_other _ _ (hgroup _), reg_incSat_other _ _ hstatus, reg_setFld_other _ _ hsrc]
    · rw [reg_incSat_other _ _ hstatus, reg_setFld_other _ _ hsrc]
  · rfl

theorem edge_fld (s : State) (n : Nat) {g : Field} (h : g.off < 0xB00000) (h' : g.off ≠ 0x40) : (edge s n).fld g = s.fld g :=
  fld_of_reg (edge_reg s n h h')

@[simp] theorem capacityChange_clk (s : State) : (capacityChange s).clk = s.clk := edge_clk s _
@[simp] theorem capacityChange_ses (s : State) : (capacityChange s).ses = s.ses := edge_ses s _
@[simp] theorem capacityChange_fab (s : State) : (capacityChange s).fab = s.fab := edge_fab s _
@[simp] theorem capacityChange_flt (s : State) : (capacityChange s).flt = s.flt := edge_flt s _

theorem capacityChange_reg (s : State) {o : Nat} (h : o < 0xB00000) (h' : o ≠ 0x40) : (capacityChange s).reg o = s.reg o :=
  edge_reg s _ h h'

/-! ### Fault latches (R494, R500) -/

section
variable (s : State) (source kind status : Nat) (address : Word) (master access : Nat)

theorem fault_upd : ∃ r f, fault s source kind status address master access = { s with regs := r, flt := f } := by
  unfold fault
  split
  · split
    · exact ⟨_, _, rfl⟩
    · dsimp only
      split <;> exact ⟨_, _, rfl⟩
  · exact ⟨_, _, rfl⟩

@[simp] theorem fault_clk : (fault s source kind status address master access).clk = s.clk := by
  obtain ⟨r, f, h⟩ := fault_upd s source kind status address master access; rw [h]
@[simp] theorem fault_fab : (fault s source kind status address master access).fab = s.fab := by
  obtain ⟨r, f, h⟩ := fault_upd s source kind status address master access; rw [h]

/-- A fault writes the FLT_ registers alone. -/
theorem fault_reg {o : Nat} (h : o < 0xA00000) : (fault s source kind status address master access).reg o = s.reg o := by
  have hlost (c : Nat) : o ≠ (FLT_LOST_LOST c).off := by dsimp only; omega
  have hcount : o ≠ (FLT_SRC_COUNT source).off := by dsimp only; omega
  unfold fault
  split
  · split
    · exact reg_incSat_other _ _ (hlost _)
    · dsimp only
      split
      · rw [reg_updFlt, reg_incSat_other _ _ hcount, reg_updFlt]
      · rfl
  · rfl

theorem fault_fld {g : Field} (h : g.off < 0xA00000) : (fault s source kind status address master access).fld g = s.fld g :=
  fld_of_reg (fault_reg s source kind status address master access h)

/-- A fault that finds its latch free fills it. -/
theorem fault_latches (hsrc : srcAssigned source = true) (hfree : mget s.flt.latch source = none) :
    ∃ m, mget (fault s source kind status address master access).flt.latch source = some m ∧ m.status = status := by
  unfold fault
  rw [if_pos hsrc, hfree]
  dsimp only
  split <;> exact ⟨_, mget_mset_same _ _ _, rfl⟩

end

end Sys2Proof.Machine
end

section
/-! The state of a port (R448): what `setPst` and `rebindPort` write and what they leave. -/

namespace Sys2Proof.Machine

variable {s : State} {p : Nat}

/-! ### Binding again -/

/-- All of a state but its queue pairs. -/
def withoutQps (s : State) : State := { s with fab := { s.fab with qps := [] } }

theorem withoutQps_rebind (s : State) (q : Nat) : withoutQps (rebind s q) = withoutQps s := by
  unfold rebind
  dsimp only
  split
  · split
    · split <;> rfl
    · rfl
  · rfl

/-- Binding queue pairs again writes nothing but queue pairs. -/
theorem withoutQps_rebindPort (s : State) (p : Nat) : withoutQps (rebindPort s p) = withoutQps s := by
  refine foldl_frame withoutQps (fun u y => ?_) _ _
  split
  · split
    · exact withoutQps_rebind u y.1
    · rfl
  · rfl

/-- Where two states differ in queue pairs alone, whatever reads no queue pair reads the same of both. -/
theorem view_of_withoutQps {α : Type} {t u : State} (view : State → α) (hview : ∀ x, view (withoutQps x) = view x)
    (h : withoutQps t = withoutQps u) : view t = view u := by
  rw [← hview t, h, hview]

@[simp] theorem rebindPort_clk (s : State) (p : Nat) : (rebindPort s p).clk = s.clk :=
  view_of_withoutQps (·.clk) (fun _ => rfl) (withoutQps_rebindPort s p)
@[simp] theorem rebindPort_ses (s : State) (p : Nat) : (rebindPort s p).ses = s.ses :=
  view_of_withoutQps (·.ses) (fun _ => rfl) (withoutQps_rebindPort s p)
@[simp] theorem rebindPort_flt (s : State) (p : Nat) : (rebindPort s p).flt = s.flt :=
  view_of_withoutQps (·.flt) (fun _ => rfl) (withoutQps_rebindPort s p)
@[simp] theorem rebindPort_fld (s : State) (p : Nat) (g : Field) : (rebindPort s p).fld g = s.fld g :=
  view_of_withoutQps (·.fld g) (fun _ => rfl) (withoutQps_rebindPort s p)
@[simp] theorem rebindPort_port (s : State) (p k : Nat) : (rebindPort s p).port k = s.port k :=
  view_of_withoutQps (·.port k) (fun _ => rfl) (withoutQps_rebindPort s p)

/-! ### The steps of a port transition -/

/-- First step of `setPst`: STATE, the time it was entered, and the event. -/
def movePort (s : State) (p st : Nat) : State :=
  edge ((s.setFld (FAB_PORT_STATE p) st).setPort p { s.port p with since := s.now }) (0x420 + p)

/-- Second step of `setPst`: PORTS_UP, and a capacity change where it changes. -/
def showPort (s : State) (p st : Nat) : State :=
  let up := s.fld GLB_RES1_PORTS_UP
  if st = 2 ∧ bitOf up p = false then capacityChange (s.setFld GLB_RES1_PORTS_UP (up + 2 ^ p))
  else if st ≠ 2 ∧ bitOf up p = true then capacityChange (s.setFld GLB_RES1_PORTS_UP (up - 2 ^ p))
  else s

theorem setPst_eq (s : State) (p st : Nat) : setPst s p st =
    if pst s p = 2 ∨ st = 2 then rebindPort (showPort (movePort s p st) p st) p else showPort (movePort s p st) p st := rfl

/-- What binding again leaves alone, `setPst` leaves as its first two steps do. -/
theorem setPst_view {α : Type} (view : State → α) (h : ∀ u, view (rebindPort u p) = view u) (st : Nat) :
    view (setPst s p st) = view (showPort (movePort s p st) p st) := by
  rw [setPst_eq]
  split
  · exact h _
  · rfl

@[simp] theorem showPort_ses (s : State) (p st : Nat) : (showPort s p st).ses = s.ses := by
  unfold showPort; dsimp only; split_ifs <;> simp
@[simp] theorem showPort_clk (s : State) (p st : Nat) : (showPort s p st).clk = s.clk := by
  unfold showPort; dsimp only; split_ifs <;> simp
@[simp] theorem showPort_fab (s : State) (p st : Nat) : (showPort s p st).fab = s.fab := by
  unfold showPort; dsimp only; split_ifs <;> simp
@[simp] theorem showPort_flt (s : State) (p st : Nat) : (showPort s p st).flt = s.flt := by
  unfold showPort; dsimp only; split_ifs <;> simp

theorem showPort_reg (s : State) (p st : Nat) {o : Nat} (h : o < 0xB00000) (h38 : o ≠ 0x38) (h40 : o ≠ 0x40) :
    (showPort s p st).reg o = s.reg o := by
  unfold showPort
  dsimp only
  split_ifs
  · rw [capacityChange_reg _ h h40, reg_setFld_other _ _ h38]
  · rw [capacityChange_reg _ h h40, reg_setFld_other _ _ h38]
  · rfl

/-- PORTS_UP shows the port exactly where it has gone UP. -/
theorem showPort_portsUp (hs : Canonical s) (hp : p < 16) (st : Nat) :
    bitOf ((showPort s p st).fld GLB_RES1_PORTS_UP) p = decide (st = 2) := by
  have hwrite (v : Nat) : bitOf ((capacityChange (s.setFld GLB_RES1_PORTS_UP v)).fld GLB_RES1_PORTS_UP) p = bitOf v p := by
    rw [fld_of_reg (capacityChange_reg _ (by decide) (by decide)), fld_setFld_same _ _ (by decide) hs.regs]
    exact bitOf_mod_two_pow v hp
  unfold showPort
  dsimp only
  split_ifs with hup hdown
  · rw [hwrite, bitOf_add_two_pow, hup.2, hup.1]
    rfl
  · rw [hwrite, bitOf_sub_two_pow hdown.2]
    simp [hdown.1]
  · by_cases hst : st = 2
    · simpa [hst] using hup
    · simpa [hst] using hdown

theorem movePort_reg (s : State) (p st : Nat) {o : Nat} (h : o < 0xB00000) (h40 : o ≠ 0x40) :
    (movePort s p st).reg o = (s.setFld (FAB_PORT_STATE p) st).reg o := edge_reg _ _ h h40

theorem Canonical.movePort (hs : Canonical s) (p st : Nat) : Canonical (movePort s p st) :=
  ((hs.setFld _ _).setPort _ _).edge _

/-! ### A port transition -/

@[simp] theorem setPst_ses (s : State) (p st : Nat) : (setPst s p st).ses = s.ses :=
  (setPst_view (·.ses) (fun u => rebindPort_ses u p) st).trans (by simp [movePort])
@[simp] theorem setPst_clk (s : State) (p st : Nat) : (setPst s p st).clk = s.clk :=
  (setPst_view (·.clk) (fun u => rebindPort_clk u p) st).trans (by simp [movePort])
@[simp] theorem setPst_flt (s : State) (p st : Nat) : (setPst s p st).flt = s.flt :=
  (setPst_view (·.flt) (fun u => rebindPort_flt u p) st).trans (by simp [movePort])

/-- A port goes to a state: of its own fields only the time it was entered changes. -/
theorem setPst_port (s : State) (p st : Nat) : (setPst s p st).port p = { s.port p with since := s.clk.now } := by
  rw [setPst_view (·.port p) (fun u => rebindPort_port u p p)]
  show (mget (showPort (movePort s p st) p st).fab.ports p).getD port0 = _
  rw [showPort_fab, movePort, edge_fab]
  exact setPort_same _ p _

theorem portOffset_bounds (hp : p < 16) : 0x901000 + 0x10 * p < 0xA00000 ∧ 0x901000 + 0x10 * p ≠ 0x38 ∧
    0x901000 + 0x10 * p ≠ 0x40 := by omega

/-- The register of the port: only STATE is written. -/
theorem setPst_fld (hp : p < 16) (st : Nat) {g : Field} (hg : g.off = 0x901000 + 0x10 * p) :
    (setPst s p st).fld g = (s.setFld (FAB_PORT_STATE p) st).fld g := by
  obtain ⟨hlt, h38, h40⟩ := portOffset_bounds hp
  rw [setPst_view (·.fld g) (fun u => rebindPort_fld u p g)]
  rw [← hg] at hlt h38 h40
  exact (fld_of_reg (showPort_reg _ _ _ (by omega) h38 h40)).trans (fld_of_reg (movePort_reg s p st (by omega) h40))

theorem pst_setPst (hs : Canonical s) (hp : p < 16) {st : Nat} (hst : st < 4) : pst (setPst s p st) p = st :=
  (setPst_fld hp st rfl).trans (fld_setFld_of_lt hs (by simp) hst)

/-- The fields of the port's register above STATE stay. -/
theorem setPst_fld_above (hs : Canonical s) (hp : p < 16) (st : Nat) {g : Field} (hg : g.off = 0x901000 + 0x10 * p)
    (hlo : 2 ≤ g.lo) : (setPst s p st).fld g = s.fld g :=
  (setPst_fld hp st hg).trans (fld_setFld_disjoint st (by simp) hs.regs (.inl hlo))

theorem setPst_portsUp (hs : Canonical s) (hp : p < 16) (st : Nat) :
    bitOf ((setPst s p st).fld GLB_RES1_PORTS_UP) p = decide (st = 2) := by
  rw [setPst_view (·.fld GLB_RES1_PORTS_UP) (fun u => rebindPort_fld u p _)]
  exact showPort_portsUp (hs.movePort p st) hp st

/-- A fault leaves a port's state. -/
@[simp] theorem pst_fault (hp : p < 16) (n k c : Nat) (a : Word) (m x : Nat) : pst (fault s n k c a m x) p = pst s p :=
  fault_fld s n k c a m x (portOffset_bounds hp).1

theorem port_fault (n k c : Nat) (a : Word) (m x : Nat) : (fault s n k c a m x).port p = s.port p := by
  simp [State.port]

end Sys2Proof.Machine
end

section
/-! Ports train, fail and meet their neighbours (R448, R449, R460, R490). -/

namespace Sys2Proof.Machine

variable {s : State} {p : Nat}

/-! ### Training (R448, R460) -/

theorem portSignalDetected_trains (hs : Canonical s) (hp : p < 16) (hrun : portsRun s p = true) (hdown : pst s p = 0) :
    Ends (.portSignalDetected p) s fun t => pst t p = 1 ∧ (t.port p).since = s.clk.now ∧ t.ses = s.ses :=
  ends_of_eq rfl (if_pos ⟨hrun, hdown⟩) ⟨pst_setPst hs hp (by decide), by rw [setPst_port], setPst_ses s p 1⟩

theorem portLinkUp_fits (hs : Canonical s) (hp : p < 16) (hrun : portsRun s p = true) (htrain : pst s p = 1)
    (hfit : 6 * headroom s p ≤ 1835008) :
    Ends (.portLinkUp p) s fun t => pst t p = 2 ∧ bitOf (t.fld GLB_RES1_PORTS_UP) p = true := by
  refine ends_of_eq rfl ((if_pos ⟨hrun, htrain⟩).trans (if_pos hfit)) ⟨?_, ?_⟩
  · exact (send_at_fld _ _ _).trans (pst_setPst hs hp (by decide))
  · rw [sendDiscovery, send_at_fld, setPst_portsUp hs hp]
    rfl

theorem portUnit_assigned {u : Nat} (hp : p < 16) (hu : u < 8) : srcAssigned (portSource p u) = true := by
  have hlo : 0xA80 ≤ portSource p u := by unfold portSource; omega
  have hhi : portSource p u ≤ 0xAFF := by unfold portSource; omega
  simp [srcAssigned, hlo, hhi]

theorem portLinkUp_tooLong (hs : Canonical s) (hp : p < 16) (hrun : portsRun s p = true) (htrain : pst s p = 1)
    (hlong : 1835008 < 6 * headroom s p) :
    Ends (.portLinkUp p) s fun t => pst t p = 3 ∧ (mget s.flt.latch (portSource p 5) = none →
      ∃ m, mget t.flt.latch (portSource p 5) = some m ∧ m.status = 0x9002) := by
  refine ends_of_eq rfl ((if_pos ⟨hrun, htrain⟩).trans (if_neg (by omega))) ⟨?_, fun hfree => ?_⟩
  · rw [pst_fault hp, pst_setPst hs hp (by decide)]
  · exact fault_latches _ _ _ _ _ _ _ (portUnit_assigned hp (by decide)) (by rw [setPst_flt]; exact hfree)

theorem portTrainingTimeout_down (hs : Canonical s) (hp : p < 16) (htrain : pst s p = 1)
    (hlate : (s.port p).since + 2 * 10 ^ 9 ≤ s.clk.now) : Ends (.portTrainingTimeout p) s fun t => pst t p = 0 :=
  ends_of_eq rfl (if_pos ⟨hp, htrain, hlate⟩) (pst_setPst hs hp (by decide))

theorem portTrainingTimeout_unchanged (h : pst s p ≠ 1 ∨ s.clk.now < (s.port p).since + 2 * 10 ^ 9) :
    exec (.portTrainingTimeout p) s = .next s := by
  refine exec_unchanged rfl (if_neg ?_)
  rintro ⟨-, htrain, hlate⟩
  rcases h with h | h
  · exact h htrain
  · exact absurd hlate (Nat.not_le.2 h)

theorem portLinkLost_down (hs : Canonical s) (hp : p < 16) (hup : pst s p = 2) :
    Ends (.portLinkLost p) s fun t => pst t p = 0 ∧ bitOf (t.fld GLB_RES1_PORTS_UP) p = false := by
  refine ends_of_eq rfl (if_pos ⟨hp, hup⟩) ⟨?_, ?_⟩
  · rw [pst_fault hp, pst_setPst hs hp (by decide)]
  · rw [fault_fld _ _ _ _ _ _ _ (by decide), setPst_portsUp hs hp]
    rfl

/-! ### SerDes and media (R448, R490) -/

/-- A unit that fails is known as bad before anything else follows from it. -/
def markBad (s : State) (p u : Nat) : State := s.setPort p { s.port p with bad := (s.port p).bad ++ [u] }

@[simp] theorem markBad_port (s : State) (p u : Nat) :
    (markBad s p u).port p = { s.port p with bad := (s.port p).bad ++ [u] } := setPort_same s p _

theorem Canonical.markBad (hs : Canonical s) (p u : Nat) : Canonical (markBad s p u) := hs.setPort p _

/-- A fault of a good SerDes: the spare takes its place and the port trains again, or the port is FAILED. -/
theorem serdesFails_of_good {u : Nat} (hp : p < 16) (hu : u < 5) (hgood : u ∉ (s.port p).bad) : serdesFails s p u =
    if s.flag (FAB_PORT_SPARE_USED p) then
      fault (setPst (markBad s p u) p 3) (portSource p u) 0x06 0 (BitVec.ofNat 64 p) (0x3000 + p)
    else
      let r := (markBad s p u).setFld (FAB_PORT_SPARE_USED p) 1
      fault (if pst r p = 2 ∨ pst r p = 1 then setPst r p 1 else r) (portSource p u) 0x05 0 (BitVec.ofNat 64 u) (0x3000 + p) :=
  if_neg (by simp [hgood]; omega)

theorem serdesFault_takesSpare {u : Nat} (hs : Canonical s) (hp : p < 16) (hu : u < 5) (hgood : u ∉ (s.port p).bad)
    (hspare : s.flag (FAB_PORT_SPARE_USED p) = false) :
    Ends (.serdesFault p u) s fun t => t.flag (FAB_PORT_SPARE_USED p) = true ∧
      pst t p = (if pst s p = 2 ∨ pst s p = 1 then 1 else pst s p) ∧ u ∈ (t.port p).bad := by
  have hm := hs.markBad p u
  have hused : ((markBad s p u).setFld (FAB_PORT_SPARE_USED p) 1).fld (FAB_PORT_SPARE_USED p) = 1 :=
    fld_setFld_of_lt hm (by simp) (by simp)
  have hkept : pst ((markBad s p u).setFld (FAB_PORT_SPARE_USED p) 1) p = pst s p :=
    fld_setFld_disjoint 1 (by simp) hm.regs (.inr (by simp))
  refine ends_of_eq rfl ((serdesFails_of_good hp hu hgood).trans (if_neg (by simp [hspare]))) ⟨?_, ?_, ?_⟩
  · rw [flag_eq_true, fault_fld _ _ _ _ _ _ _ (portOffset_bounds hp).1]
    split
    · rw [setPst_fld_above (hm.setFld _ _) hp 1 rfl (by simp), hused]
      decide
    · rw [hused]
      decide
  · rw [pst_fault hp, hkept]
    split
    · exact pst_setPst (hm.setFld _ _) hp (by decide)
    · exact hkept
  · rw [port_fault]
    split
    · rw [setPst_port]
      simp
    · simp

theorem serdesFault_fails {u : Nat} (hs : Canonical s) (hp : p < 16) (hu : u < 5) (hgood : u ∉ (s.port p).bad)
    (hspare : s.flag (FAB_PORT_SPARE_USED p) = true) :
    Ends (.serdesFault p u) s fun t => pst t p = 3 ∧ u ∈ (t.port p).bad := by
  refine ends_of_eq rfl ((serdesFails_of_good hp hu hgood).trans (if_pos hspare)) ⟨?_, ?_⟩
  · rw [pst_fault hp, pst_setPst (hs.markBad p u) hp (by decide)]
  · rw [port_fault, setPst_port]
    simp

theorem fabPortMediaWrite_stores {m c : Nat} (hs : Canonical s) (hp : p < 16) (hm : m < 2) (hc : c < 256) :
    Ends (.fabPortMediaWrite p m c) s fun t => t.fld (FAB_PORT_MEDIA p) = m ∧ t.fld (FAB_PORT_CABLE_M p) = c ∧
      pst t p = (if pst s p = 3 then 0 else pst s p) := by
  have hs1 := hs.setFld (FAB_PORT_MEDIA p) m
  have hs2 := hs1.setFld (FAB_PORT_CABLE_M p) c
  have hmedia : ((s.setFld (FAB_PORT_MEDIA p) m).setFld (FAB_PORT_CABLE_M p) c).fld (FAB_PORT_MEDIA p) = m :=
    (fld_setFld_disjoint c (by simp) hs1.regs (.inr (by simp))).trans (fld_setFld_of_lt hs (by simp) hm)
  have hcable : ((s.setFld (FAB_PORT_MEDIA p) m).setFld (FAB_PORT_CABLE_M p) c).fld (FAB_PORT_CABLE_M p) = c :=
    fld_setFld_of_lt hs1 (by simp) hc
  have hst : pst ((s.setFld (FAB_PORT_MEDIA p) m).setFld (FAB_PORT_CABLE_M p) c) p = pst s p :=
    (fld_setFld_disjoint c (by simp) hs1.regs (.inr (by simp))).trans
      (fld_setFld_disjoint m (by simp) hs.regs (.inr (by simp)))
  by_cases hfailed : pst s p = 3
  · refine ends_of_eq rfl ((if_pos hp).trans (if_pos (hst.trans hfailed))) ⟨?_, ?_, ?_⟩
    · rw [setPst_fld_above hs2 hp 0 rfl (by simp), hmedia]
    · rw [setPst_fld_above hs2 hp 0 rfl (by simp), hcable]
    · rw [pst_setPst hs2 hp (by decide), if_pos hfailed]
  · exact ends_of_eq rfl ((if_pos hp).trans (if_neg (by rwa [hst]))) ⟨hmedia, hcable, by rw [hst, if_neg hfailed]⟩

/-! ### Discovery (R449, R490) -/

/-- What a port records of a discovery frame. -/
def noteNeighbour (s : State) (p : Nat) (d : Discovery) : State :=
  let r := (s.setFld (FAB_PORT_NBR_ADDR p) d.devAddr).setFld (FAB_PORT_NBR_SEEN p) 1
  r.setPort p { r.port p with nbrAt := some r.now }

theorem noteNeighbour_fld (s : State) (p : Nat) (d : Discovery) (g : Field) : (noteNeighbour s p d).fld g =
    ((s.setFld (FAB_PORT_NBR_ADDR p) d.devAddr).setFld (FAB_PORT_NBR_SEEN p) 1).fld g := setPort_at_fld _ p _ g

theorem discovered_of_up {d : Discovery} (hp : p < 16) (hup : pst s p = 2) : discovered s p d =
    if miswired s p d then fault (setPst (noteNeighbour s p d) p 3) (portSource p 5) 0x10 0x9009 0 (0x3000 + p)
    else noteNeighbour s p d := if_pos ⟨hp, hup⟩

theorem discoveryFrame_records {d : Discovery} (hs : Canonical s) (hp : p < 16) (hup : pst s p = 2)
    (hd : d.devAddr < 2 ^ 16) :
    Ends (.discoveryFrame p d) s fun t => t.fld (FAB_PORT_NBR_ADDR p) = d.devAddr ∧ t.flag (FAB_PORT_NBR_SEEN p) = true ∧
      (t.port p).nbrAt = some s.clk.now ∧ pst t p = (if miswired s p d then 3 else 2) := by
  have hs1 := hs.setFld (FAB_PORT_NBR_ADDR p) d.devAddr
  have hn : Canonical (noteNeighbour s p d) := (hs1.setFld _ 1).setPort p _
  have haddr : (noteNeighbour s p d).fld (FAB_PORT_NBR_ADDR p) = d.devAddr := by
    rw [noteNeighbour_fld, fld_setFld_disjoint 1 (by simp) hs1.regs (.inr (by simp)), fld_setFld_of_lt hs (by simp) hd]
  have hseen : (noteNeighbour s p d).fld (FAB_PORT_NBR_SEEN p) = 1 := by
    rw [noteNeighbour_fld, fld_setFld_of_lt hs1 (by simp) (by simp)]
  have hst : pst (noteNeighbour s p d) p = 2 := by
    rw [pst, noteNeighbour_fld, fld_setFld_disjoint 1 (by simp) hs1.regs (.inr (by simp)),
      fld_setFld_disjoint d.devAddr (by simp) hs.regs (.inr (by simp))]
    exact hup
  have hat : ((noteNeighbour s p d).port p).nbrAt = some s.clk.now := by
    rw [noteNeighbour, setPort_same]
    rfl
  by_cases hwrong : miswired s p d = true
  · refine ends_of_eq rfl ((discovered_of_up hp hup).trans (if_pos hwrong)) ⟨?_, ?_, ?_, ?_⟩
    · rw [fault_fld _ _ _ _ _ _ _ (portOffset_bounds hp).1, setPst_fld_above hn hp 3 rfl (by simp), haddr]
    · rw [flag_eq_true, fault_fld _ _ _ _ _ _ _ (portOffset_bounds hp).1, setPst_fld_above hn hp 3 rfl (by simp), hseen]
      decide
    · rw [port_fault, setPst_port]
      exact hat
    · rw [pst_fault hp, pst_setPst hn hp (by decide), if_pos hwrong]
  · refine ends_of_eq rfl ((discovered_of_up hp hup).trans (if_neg hwrong)) ⟨haddr, ?_, hat, ?_⟩
    · rw [flag_eq_true, hseen]
      decide
    · rw [hst, if_neg hwrong]

theorem ageNeighbour_clk (s : State) (k : Nat) : (ageNeighbour s k).clk = s.clk := by
  unfold ageNeighbour
  split
  · split <;> rfl
  · rfl

theorem ageNeighbour_fab (s : State) (k : Nat) : (ageNeighbour s k).fab = s.fab := by
  unfold ageNeighbour
  split
  · split <;> rfl
  · rfl

theorem Canonical.ageNeighbour (hs : Canonical s) (k : Nat) : Canonical (ageNeighbour s k) := hs.of_kept (ageNeighbour_kept s k)

/-- Ageing a neighbour writes NBR_SEEN, which lies above STATE. -/
theorem pst_ageNeighbour (hs : Canonical s) (k : Nat) : pst (ageNeighbour s k) p = pst s p := by
  unfold Machine.ageNeighbour
  split
  · split
    · exact fld_setFld_disjoint 0 (by simp) hs.regs (.inr (by simp))
    · rfl
  · rfl

theorem pst_ageNeighbours : ∀ (l : List Nat) {s : State}, Canonical s → pst (l.foldl ageNeighbour s) p = pst s p
  | [], _, _ => rfl
  | k :: l, _, hs => (pst_ageNeighbours l (hs.ageNeighbour k)).trans (pst_ageNeighbour hs k)

theorem send_stopped (s : State) (m : Sent) : (send s m).fab.stopped = s.fab.stopped := by unfold send; split <;> rfl

theorem send_sent (hgo : s.fab.stopped = false) (m : Sent) : (send s m).fab.sent = s.fab.sent ++ [m] := by
  simp [send, hgo]

theorem sendDiscoveries_sent : ∀ (l : List Nat) {s : State}, s.fab.stopped = false →
    (l.foldl sendDiscovery s).fab.sent.length = s.fab.sent.length + l.length
  | [], _, _ => rfl
  | k :: l, s, hgo => by
    have hgo' : (sendDiscovery s k).fab.stopped = false := (send_stopped s _).trans hgo
    rw [List.foldl_cons, sendDiscoveries_sent l hgo', sendDiscovery, send_sent hgo]
    simp
    omega

/-- The neighbours aged, as every round of discovery begins. -/
def agedNeighbours (s : State) : State := (List.range 16).foldl ageNeighbour s

theorem discoverySend_sends (hs : Canonical s) (hdue : s.fab.discAt + 100 * 10 ^ 6 ≤ s.clk.now) :
    Ends .discoverySend s fun t => t.fab.discAt = s.clk.now ∧
      (s.fab.stopped = false → t.fab.sent.length = s.fab.sent.length + (upPorts s).length) := by
  have hclk : (agedNeighbours s).clk = s.clk := foldl_frame (·.clk) ageNeighbour_clk _ s
  have hfab : (agedNeighbours s).fab = s.fab := foldl_frame (·.fab) ageNeighbour_fab _ s
  have hup : upPorts (agedNeighbours s) = upPorts s :=
    List.filter_congr fun k _ => by rw [show pst (agedNeighbours s) k = pst s k from pst_ageNeighbours _ hs]
  have hnow (l : List Nat) (u : State) : (l.foldl sendDiscovery u).clk = u.clk :=
    foldl_frame (·.clk) (fun u k => send_clk u _) l u
  refine ends_of_eq rfl (if_pos hdue) ⟨?_, fun hgo => ?_⟩
  · exact congrArg (·.now) ((hnow (upPorts (agedNeighbours s)) (agedNeighbours s)).trans hclk)
  · have hsent := sendDiscoveries_sent (upPorts (agedNeighbours s)) (s := agedNeighbours s) (by rw [hfab, hgo])
    rw [hfab] at hsent
    rw [← hup]
    exact hsent

end Sys2Proof.Machine
end

section
/-! Pauses, the watchdog of stuck classes, and peer delays (R455, R461, R462). -/

namespace Sys2Proof.Machine

variable {s : State} {p c n : Nat}

/-! ### Pauses received (R461) -/

/-- A pause is counted before it is looked at. -/
theorem countPause_fld {g : Field} (hg : g.off = 0x901000 + 0x10 * p) :
    (s.incSat (FAB_PORT_ERR_PAUSES_RX p) 1).fld g = s.fld g :=
  fld_of_reg (reg_incSat_other s 1 (by rw [hg]; dsimp only; omega))

/-- A pause of a class that the device honours and that is not stuck. -/
theorem pauseIn_of_honoured (hp : p < 16) (hup : pst s p = 2) (hc : honours c = true)
    (hfree : bitOf (s.fld (FAB_PORT_STUCK p)) c = false) : pauseIn s p c n =
    let r := s.incSat (FAB_PORT_ERR_PAUSES_RX p) 1
    if n = 0 then r.setPort p { s.port p with paused := mdel (s.port p).paused c }
    else r.setPort p { s.port p with
      paused := mset (s.port p).paused c (s.clk.now + n * 64 / 100, ((mget (s.port p).paused c).map (·.2)).getD s.clk.now) } := by
  have hfree' : ¬ bitOf ((s.incSat (FAB_PORT_ERR_PAUSES_RX p) 1).fld (FAB_PORT_STUCK p)) c = true := by
    rw [countPause_fld rfl, hfree]
    decide
  refine (if_pos ⟨hp, hup⟩).trans ((if_neg (by simp [hc])).trans ((if_neg hfree').trans ?_))
  simp only [incSat_at_port, incSat_at_now]
  cases mget (s.port p).paused c <;> rfl

theorem honours_of_lossless (h1 : 1 ≤ c) (h6 : c ≤ 6) : honours c = true := by simp [honours, h1, h6]

theorem pfcPauseReceived_pauses (hp : p < 16) (hup : pst s p = 2) (h1 : 1 ≤ c) (h6 : c ≤ 6)
    (hfree : bitOf (s.fld (FAB_PORT_STUCK p)) c = false) (hn : n ≠ 0) :
    Ends (.pfcPauseReceived p c n) s fun t => mget (t.port p).paused c =
      some (s.clk.now + n * 64 / 100, ((mget (s.port p).paused c).map (·.2)).getD s.clk.now) ∧ t.fab.qps = s.fab.qps := by
  refine ends_of_eq rfl ((pauseIn_of_honoured hp hup (honours_of_lossless h1 h6) hfree).trans (if_neg hn)) ⟨?_, rfl⟩
  rw [setPort_same]
  exact mget_mset_same c _ _

theorem pfcPauseReceived_ends (hp : p < 16) (hup : pst s p = 2) (h1 : 1 ≤ c) (h6 : c ≤ 6)
    (hfree : bitOf (s.fld (FAB_PORT_STUCK p)) c = false) (hwf : mwf (s.port p).paused = true) :
    Ends (.pfcPauseReceived p c 0) s fun t => mget (t.port p).paused c = none := by
  refine ends_of_eq rfl ((pauseIn_of_honoured hp hup (honours_of_lossless h1 h6) hfree).trans (if_pos rfl)) ?_
  rw [setPort_same]
  exact mget_mdel_same c hwf

theorem pfcPauseReceived_ignored (hp : p < 16) (hup : pst s p = 2) (hc : c = 0 ∨ 7 ≤ c) :
    Ends (.pfcPauseReceived p c n) s fun t => t.port p = s.port p ∧ t.fab.qps = s.fab.qps := by
  have hnot : honours c = false := by
    rcases hc with rfl | hc
    · rfl
    · have : ¬ c ≤ 6 := by omega
      simp [honours, this]
  exact ends_of_eq rfl ((if_pos ⟨hp, hup⟩).trans (if_pos hnot)) ⟨rfl, rfl⟩

/-! ### A pause that runs out -/

theorem pauseExpires_of_paused {e t0 : Nat} (h : mget (s.port p).paused c = some (e, t0)) : pauseExpires s p c =
    if e ≤ s.now then s.setPort p { s.port p with paused := mdel (s.port p).paused c } else s := by
  simp only [pauseExpires, h]

theorem pfcPauseExpiry_ends {e t0 : Nat} (h : mget (s.port p).paused c = some (e, t0)) (hover : e ≤ s.clk.now)
    (hwf : mwf (s.port p).paused = true) :
    Ends (.pfcPauseExpiry p c) s fun t => mget (t.port p).paused c = none ∧ t.regs = s.regs := by
  refine ends_of_eq rfl ((pauseExpires_of_paused h).trans (if_pos hover)) ⟨?_, rfl⟩
  rw [setPort_same]
  exact mget_mdel_same c hwf

theorem pfcPauseExpiry_early {e t0 : Nat} (h : mget (s.port p).paused c = some (e, t0)) (hearly : s.clk.now < e) :
    exec (.pfcPauseExpiry p c) s = .next s :=
  exec_unchanged rfl ((pauseExpires_of_paused h).trans (if_neg (Nat.not_le.2 hearly)))

theorem pfcPauseExpiry_unpaused (h : mget (s.port p).paused c = none) : exec (.pfcPauseExpiry p c) s = .next s :=
  exec_unchanged rfl (by simp only [pauseExpires, h])

/-! ### Stuck classes (R462) -/

/-- The class becomes stuck, its pause is dropped, and the time is kept. -/
def stick (s : State) (p c : Nat) : State :=
  (s.setFld (FAB_PORT_STUCK p) (s.fld (FAB_PORT_STUCK p) ||| 2 ^ c)).setPort p
    { s.port p with paused := mdel (s.port p).paused c, lastPause := mset (s.port p).lastPause c s.now }

/-- A class that becomes stuck is reported, and its queue pairs go to other ports. -/
def stickAndReport (s : State) (p c : Nat) : State :=
  rebindPort (fault (stick s p c) (portSource p 6) 0x07 0x9032 (BitVec.ofNat 64 p) (0x3000 + p)) p

theorem pauseWatchdog_of_paused {e t0 : Nat} (h : mget (s.port p).paused c = some (e, t0)) : pauseWatchdog s p c =
    if t0 + s.fld FAB_TIMER_PFC_WD_MS * 10 ^ 6 ≤ s.now ∧ honours c = true then
      let r := stickAndReport s p c
      if c = 4 ∨ c = 5 then { r with mkr := { r.mkr with due := true } } else r
    else s := by
  simp only [pauseWatchdog, h]
  rfl

theorem stickAndReport_port (s : State) (p c : Nat) : (stickAndReport s p c).port p =
    { s.port p with paused := mdel (s.port p).paused c, lastPause := mset (s.port p).lastPause c s.clk.now } := by
  rw [stickAndReport, rebindPort_port, port_fault, stick, setPort_same]
  rfl

theorem two_pow_lt_of_class (h6 : c ≤ 6) : 2 ^ c < 2 ^ 8 := Nat.pow_lt_pow_right (by decide) (by omega)

theorem stickAndReport_stuck (hs : Canonical s) (hp : p < 16) (h6 : c ≤ 6) :
    bitOf ((stickAndReport s p c).fld (FAB_PORT_STUCK p)) c = true := by
  have hlt : s.fld (FAB_PORT_STUCK p) ||| 2 ^ c < 2 ^ 8 := Nat.or_lt_two_pow (fld_lt s _) (two_pow_lt_of_class h6)
  rw [stickAndReport, rebindPort_fld, fault_fld _ _ _ _ _ _ _ (portOffset_bounds hp).1, stick, setPort_at_fld,
    fld_setFld_of_lt hs (by simp) hlt]
  exact bitOf_or_two_pow _ c

theorem pfcWatchdog_sticks {e t0 : Nat} (hs : Canonical s) (hp : p < 16) (h : mget (s.port p).paused c = some (e, t0))
    (h1 : 1 ≤ c) (h6 : c ≤ 6) (hwf : mwf (s.port p).paused = true)
    (hlate : t0 + s.fld FAB_TIMER_PFC_WD_MS * 10 ^ 6 ≤ s.clk.now) :
    Ends (.pfcWatchdog p c) s fun t => bitOf (t.fld (FAB_PORT_STUCK p)) c = true ∧ mget (t.port p).paused c = none ∧
      mget (t.port p).lastPause c = some s.clk.now ∧ (c = 4 ∨ c = 5 → t.mkr.due = true) := by
  have hstuck := stickAndReport_stuck hs hp h6
  have hport := stickAndReport_port s p c
  have hpaused : mget ((stickAndReport s p c).port p).paused c = none := by
    rw [hport]
    exact mget_mdel_same c hwf
  have hlast : mget ((stickAndReport s p c).port p).lastPause c = some s.clk.now := by
    rw [hport]
    exact mget_mset_same c _ _
  have heq := (pauseWatchdog_of_paused h).trans (if_pos ⟨hlate, honours_of_lossless h1 h6⟩)
  by_cases hc : c = 4 ∨ c = 5
  · exact ends_of_eq rfl (heq.trans (if_pos hc)) ⟨hstuck, hpaused, hlast, fun _ => rfl⟩
  · exact ends_of_eq rfl (heq.trans (if_neg hc)) ⟨hstuck, hpaused, hlast, fun h => absurd h hc⟩

theorem pfcWatchdog_early {e t0 : Nat} (h : mget (s.port p).paused c = some (e, t0))
    (hearly : s.clk.now < t0 + s.fld FAB_TIMER_PFC_WD_MS * 10 ^ 6) : exec (.pfcWatchdog p c) s = .next s :=
  exec_unchanged rfl ((pauseWatchdog_of_paused h).trans (if_neg fun hlate => absurd hlate.1 (Nat.not_le.2 hearly)))

theorem pfcWatchdog_unpaused (h : mget (s.port p).paused c = none) : exec (.pfcWatchdog p c) s = .next s :=
  exec_unchanged rfl (by simp only [pauseWatchdog, h])

theorem unstick_of_paused {t0 : Nat} (h : mget (s.port p).lastPause c = some t0) : unstick s p c =
    if t0 + 10 * s.fld FAB_TIMER_PFC_WD_MS * 10 ^ 6 ≤ s.now ∧ bitOf (s.fld (FAB_PORT_STUCK p)) c = true then
      rebindPort ((s.setFld (FAB_PORT_STUCK p) (s.fld (FAB_PORT_STUCK p) - 2 ^ c)).setPort p
        { s.port p with lastPause := mdel (s.port p).lastPause c }) p
    else s := by
  simp only [unstick, h]

theorem stuckClear_clears {t0 : Nat} (hs : Canonical s) (h : mget (s.port p).lastPause c = some t0)
    (hstuck : bitOf (s.fld (FAB_PORT_STUCK p)) c = true)
    (hlate : t0 + 10 * s.fld FAB_TIMER_PFC_WD_MS * 10 ^ 6 ≤ s.clk.now) :
    Ends (.stuckClear p c) s fun t => bitOf (t.fld (FAB_PORT_STUCK p)) c = false := by
  refine ends_of_eq rfl ((unstick_of_paused h).trans (if_pos ⟨hlate, hstuck⟩)) ?_
  rw [rebindPort_fld, setPort_at_fld, fld_setFld_of_lt hs (by simp) (Nat.lt_of_le_of_lt (Nat.sub_le _ _) (fld_lt s _))]
  exact bitOf_sub_two_pow hstuck

theorem stuckClear_early {t0 : Nat} (h : mget (s.port p).lastPause c = some t0)
    (hearly : s.clk.now < t0 + 10 * s.fld FAB_TIMER_PFC_WD_MS * 10 ^ 6) : exec (.stuckClear p c) s = .next s :=
  exec_unchanged rfl ((unstick_of_paused h).trans (if_neg fun hlate => absurd hlate.1 (Nat.not_le.2 hearly)))

/-! ### Pauses sent (R461) -/

theorem send_fab_ports (s : State) (m : Sent) : (send s m).fab.ports = s.fab.ports := by unfold send; split <;> rfl

theorem send_port (s : State) (m : Sent) (k : Nat) : (send s m).port k = s.port k := by
  unfold State.port
  rw [send_fab_ports]

/-- A pause that stands and whose condition still holds is sent again after 20 µs. -/
theorem pauseRefresh_again {t0 : Nat} (h : mget (s.port p).pausing c = some t0) (hdue : t0 + 20000 ≤ s.clk.now)
    (hmust : mustPause s p c = true) : pauseRefresh s p c =
      send (s.setPort p { s.port p with pausing := mset (s.port p).pausing c s.clk.now }) (.pause p c 0xFFFF) := by
  simp only [pauseRefresh, h]
  exact if_pos ⟨hdue, hmust⟩

/-- A pause that stands is ended once there is room again. -/
theorem pauseRefresh_ends {t0 : Nat} (h : mget (s.port p).pausing c = some t0) (hmust : mustPause s p c = false)
    (hmay : mayResume s p c = true) : pauseRefresh s p c =
      send (s.setPort p { s.port p with pausing := mdel (s.port p).pausing c }) (.pause p c 0) := by
  simp only [pauseRefresh, pauseCheck, h, hmust, hmay]
  simp

theorem pfcRefresh_again {t0 : Nat} (hp : p < 16) (hup : pst s p = 2) (h : mget (s.port p).pausing c = some t0)
    (hdue : t0 + 20000 ≤ s.clk.now) (hmust : mustPause s p c = true) :
    Ends (.pfcRefresh p c) s fun t => mget (t.port p).pausing c = some s.clk.now ∧
      (s.fab.stopped = false → t.fab.sent = s.fab.sent ++ [.pause p c 0xFFFF]) := by
  refine ends_of_eq rfl ((if_pos ⟨hp, hup⟩).trans (pauseRefresh_again h hdue hmust)) ⟨?_, fun hgo => send_sent (s := s.setPort p _) hgo _⟩
  rw [send_port, setPort_same]
  exact mget_mset_same c _ _

theorem pfcRefresh_ends {t0 : Nat} (hp : p < 16) (hup : pst s p = 2) (h : mget (s.port p).pausing c = some t0)
    (hmust : mustPause s p c = false) (hmay : mayResume s p c = true) (hwf : mwf (s.port p).pausing = true) :
    Ends (.pfcRefresh p c) s fun t => mget (t.port p).pausing c = none ∧
      (s.fab.stopped = false → t.fab.sent = s.fab.sent ++ [.pause p c 0]) := by
  refine ends_of_eq rfl ((if_pos ⟨hp, hup⟩).trans (pauseRefresh_ends h hmust hmay)) ⟨?_, fun hgo => send_sent (s := s.setPort p _) hgo _⟩
  rw [send_port, setPort_same]
  exact mget_mdel_same c hwf

/-! ### Peer delays (R455) -/

theorem pdelayReqSend_sends (hp : p < 16) (hup : pst s p = 2) : Ends (.pdelayReqSend p) s fun t =>
    (s.fab.stopped = false → t.fab.sent = s.fab.sent ++ [.pdelayReq p]) ∧ t.regs = s.regs :=
  ends_of_eq rfl (if_pos ⟨hp, hup⟩) ⟨fun hgo => send_sent hgo _, send_regs s _⟩

theorem pdelayMessage_response (t1 t2 t3 t4 : Nat) (hp : p < 16) (hup : pst s p = 2) :
    Ends (.pdelayMessage p true t1 t2 t3 t4) s fun t => (t.port p).delay = ((t4 - t1) - (t3 - t2)) / 2 :=
  ends_of_eq rfl ((if_pos ⟨hp, hup⟩).trans (if_pos rfl)) (by rw [setPort_same])

theorem pdelayMessage_request (t1 t2 t3 t4 : Nat) (hp : p < 16) (hup : pst s p = 2) :
    Ends (.pdelayMessage p false t1 t2 t3 t4) s fun t => t.port p = s.port p ∧
      (s.fab.stopped = false → t.fab.sent = s.fab.sent ++ [.pdelayResp p s.clk.now s.clk.now]) :=
  ends_of_eq rfl ((if_pos ⟨hp, hup⟩).trans (if_neg (by decide))) ⟨send_port s _ p, fun hgo => send_sent hgo _⟩

end Sys2Proof.Machine
end

section
/-! Device time in the domain (R24 to R26, R455, R457) and the heartbeat (R504); then the statement on ports and time. -/

namespace Sys2Proof.Machine

variable {s : State}

/-! ### GLB_TIME_STATUS -/

theorem Canonical.withClk (hs : Canonical s) (c : ClkBlock) : Canonical { s with clk := c } := ⟨hs.regs, hs.mem, hs.hbm⟩

theorem Canonical.showOffset (hs : Canonical s) (o : Int) : Canonical (showOffset s o) := hs.of_kept (showOffset_kept s o)

theorem Canonical.endHoldover (hs : Canonical s) : Canonical (endHoldover s) := hs.of_kept (endHoldover_kept s)

/-- OFFSET is shown above the other fields of GLB_TIME_STATUS. -/
theorem showOffset_fld (hs : Canonical s) (o : Int) {g : Field} (hg : g.lo + g.w ≤ 16) : (showOffset s o).fld g = s.fld g :=
  fld_setFld_disjoint _ (by decide) hs.regs (.inr hg)

theorem endHoldover_of_holdover (h : s.flag GLB_TIME_STATUS_HOLDOVER = true) : endHoldover s =
    edge (({ s with clk := { s.clk with reported := false } } : State).setFld GLB_TIME_STATUS_HOLDOVER 0) 0x403 := if_pos h

theorem endHoldover_of_none (h : s.flag GLB_TIME_STATUS_HOLDOVER = false) : endHoldover s = s := if_neg (by simp [h])

theorem endHoldover_locked (hs : Canonical s) : (endHoldover s).fld GLB_TIME_STATUS_LOCKED = s.fld GLB_TIME_STATUS_LOCKED := by
  cases h : s.flag GLB_TIME_STATUS_HOLDOVER with
  | true =>
    rw [endHoldover_of_holdover h, edge_fld _ _ (by decide) (by decide),
      fld_setFld_disjoint 0 (by decide) (hs.withClk _).regs (.inr (by decide))]
    rfl
  | false => rw [endHoldover_of_none h]

theorem endHoldover_holdover (hs : Canonical s) : (endHoldover s).fld GLB_TIME_STATUS_HOLDOVER = 0 := by
  cases h : s.flag GLB_TIME_STATUS_HOLDOVER with
  | true =>
    rw [endHoldover_of_holdover h, edge_fld _ _ (by decide) (by decide),
      fld_setFld_of_lt (hs.withClk _) (by decide) (by decide)]
  | false => rw [endHoldover_of_none h, flag_eq_false.1 h]

/-- Leaving holdover changes nothing of the clock but whether its fault was reported. -/
theorem endHoldover_clk (s : State) : ∃ b, (endHoldover s).clk = { s.clk with reported := b } := by
  cases h : s.flag GLB_TIME_STATUS_HOLDOVER with
  | true => exact ⟨false, by rw [endHoldover_of_holdover h, edge_clk]; rfl⟩
  | false => exact ⟨s.clk.reported, by rw [endHoldover_of_none h]⟩

@[simp] theorem setLock_clk (s : State) (k : Nat) : (setLock s k).clk = s.clk := edge_clk _ _

theorem setLock_locked (hs : Canonical s) (k : Nat) : (setLock s k).flag GLB_TIME_STATUS_LOCKED = true := by
  rw [flag_eq_true, setLock, edge_fld _ _ (by decide) (by decide),
    fld_setFld_disjoint k (by decide) (hs.setFld _ _).regs (.inr (by decide)), fld_setFld_of_lt hs (by decide) (by decide)]
  decide

theorem setLock_source (hs : Canonical s) {k : Nat} (hk : k < 4) : (setLock s k).fld GLB_TIME_STATUS_SOURCE = k := by
  rw [setLock, edge_fld _ _ (by decide) (by decide), fld_setFld_of_lt (hs.setFld _ _) (by decide) hk]

theorem setLock_reg (s : State) (k : Nat) {o : Nat} (h : o < 0xB00000) (h40 : o ≠ 0x40) (h50 : o ≠ 0x50) :
    (setLock s k).reg o = s.reg o := by
  rw [setLock, edge_reg _ _ h h40, reg_setFld_other _ _ h50, reg_setFld_other _ _ h50]

/-! ### Sync messages (R24, R455) -/

/-- Whether an offset lies within ±40 ns. -/
def near (o : Int) : Bool := decide (-40 ≤ o) && decide (o ≤ 40)

/-- The clock with a Sync message counted. -/
def countSync (s : State) (sender : Nat) (o : Int) : ClkBlock :=
  let isBackup : Bool := match s.fab.comp with
    | some c => decide (sender = c.backup) && decide (sender ≠ c.gm)
    | none => false
  { s.clk with syncAt := some s.now, backup := isBackup, syncGood := if near o then min (s.clk.syncGood + 1) 16 else 0 }

/-- What every Sync message does that is followed, before it sets the time. -/
def heardSync (s : State) (sender : Nat) (o : Int) : State :=
  showOffset (endHoldover { s with clk := countSync s sender o }) o

theorem syncIn_of_follows {a : Nat} {o : Int} (h : follows s a = true) : syncIn s a o =
    let r := heardSync s a o
    if r.flag GLB_TIME_STATUS_LOCKED then { r with clk := { r.clk with slew := -o } }
    else if r.clk.syncGood = 16 then
      let r := { r with clk := stepTime r.clk o }
      setLock { r with clk := { r.clk with syncAt := some r.now } } 2
    else r := if_pos h

section
variable {a : Nat} {o : Int}

theorem heardSync_clk (s : State) (a : Nat) (o : Int) : ∃ b, (heardSync s a o).clk = { countSync s a o with reported := b } :=
  endHoldover_clk _

theorem heardSync_now : (heardSync s a o).clk.now = s.clk.now := by
  obtain ⟨b, h⟩ := heardSync_clk s a o
  rw [h]
  rfl

theorem heardSync_syncAt : (heardSync s a o).clk.syncAt = some s.clk.now := by
  obtain ⟨b, h⟩ := heardSync_clk s a o
  rw [h]
  rfl

theorem heardSync_stepped : (heardSync s a o).clk.stepped = s.clk.stepped := by
  obtain ⟨b, h⟩ := heardSync_clk s a o
  rw [h]
  rfl

theorem heardSync_syncGood : (heardSync s a o).clk.syncGood = if near o then min (s.clk.syncGood + 1) 16 else 0 := by
  obtain ⟨b, h⟩ := heardSync_clk s a o
  rw [h]
  rfl

theorem Canonical.heardSync (hs : Canonical s) (a : Nat) (o : Int) : Canonical (heardSync s a o) :=
  (hs.withClk _).endHoldover.showOffset o

theorem heardSync_locked (hs : Canonical s) :
    (heardSync s a o).flag GLB_TIME_STATUS_LOCKED = s.flag GLB_TIME_STATUS_LOCKED := by
  refine flag_of_fld ?_
  rw [Machine.heardSync, showOffset_fld (hs.withClk _).endHoldover o (by decide), endHoldover_locked (hs.withClk _)]
  rfl

theorem heardSync_holdover (hs : Canonical s) : (heardSync s a o).flag GLB_TIME_STATUS_HOLDOVER = false := by
  rw [flag_eq_false, Machine.heardSync, showOffset_fld (hs.withClk _).endHoldover o (by decide),
    endHoldover_holdover (hs.withClk _)]

theorem near_of_bounds (h1 : -40 ≤ o) (h2 : o ≤ 40) : near o = true := by simp [near, h1, h2]

theorem not_near_of_bounds (h : o < -40 ∨ 40 < o) : near o = false := by
  simp only [near, Bool.and_eq_false_iff, decide_eq_false_iff_not]
  omega

/-- Once device time is locked, a Sync message only sets the slew. -/
theorem ptpSync_slews (hs : Canonical s) (hf : follows s a = true) (hlock : s.flag GLB_TIME_STATUS_LOCKED = true) :
    Ends (.ptpSync a o) s fun t => t.clk.slew = -o ∧ t.clk.now = s.clk.now ∧ t.flag GLB_TIME_STATUS_HOLDOVER = false ∧
      t.flag GLB_TIME_STATUS_LOCKED = true ∧ t.clk.syncAt = some s.clk.now :=
  ends_of_eq rfl ((syncIn_of_follows hf).trans (if_pos ((heardSync_locked hs).trans hlock)))
    ⟨rfl, heardSync_now, heardSync_holdover hs, (heardSync_locked hs).trans hlock, heardSync_syncAt⟩

/-- The sixteenth good Sync message in a row steps the time and locks it. -/
theorem ptpSync_locks (hs : Canonical s) (hf : follows s a = true) (hlock : s.flag GLB_TIME_STATUS_LOCKED = false)
    (h1 : -40 ≤ o) (h2 : o ≤ 40) (hgood : s.clk.syncGood = 15) :
    Ends (.ptpSync a o) s fun t => t.flag GLB_TIME_STATUS_LOCKED = true ∧ t.fld GLB_TIME_STATUS_SOURCE = 2 ∧
      t.clk.stepped = true ∧ t.clk.now = (if s.clk.stepped then s.clk.now else ((s.clk.now : Int) - o).toNat) := by
  have hcount : (heardSync s a o).clk.syncGood = 16 := by rw [heardSync_syncGood, if_pos (near_of_bounds h1 h2), hgood]; rfl
  have hopen : ¬ (heardSync s a o).flag GLB_TIME_STATUS_LOCKED = true := by rw [heardSync_locked hs, hlock]; decide
  have hr (c : ClkBlock) := (hs.heardSync a o).withClk c
  refine ends_of_eq rfl ((syncIn_of_follows hf).trans ((if_neg hopen).trans (if_pos hcount)))
    ⟨setLock_locked (hr _) 2, setLock_source (hr _) (by decide), ?_, ?_⟩
  · rw [setLock_clk]
    show (stepTime (heardSync s a o).clk o).stepped = true
    unfold stepTime
    split
    · assumption
    · rfl
  · rw [setLock_clk]
    show (stepTime (heardSync s a o).clk o).now = _
    unfold stepTime
    rw [heardSync_stepped]
    split
    · exact heardSync_now
    · exact congrArg (fun n : Nat => ((n : Int) - o).toNat) heardSync_now

/-- Fewer than sixteen good Sync messages leave the time as it is. -/
theorem ptpSync_waits (hs : Canonical s) (hf : follows s a = true) (hlock : s.flag GLB_TIME_STATUS_LOCKED = false)
    (hcount : (heardSync s a o).clk.syncGood ≠ 16) :
    Ends (.ptpSync a o) s fun t => t = heardSync s a o ∧ t.flag GLB_TIME_STATUS_LOCKED = false := by
  have hopen : (heardSync s a o).flag GLB_TIME_STATUS_LOCKED = false := (heardSync_locked hs).trans hlock
  exact ends_of_eq rfl ((syncIn_of_follows hf).trans ((if_neg (by simp [hopen])).trans (if_neg hcount))) ⟨rfl, hopen⟩

theorem ptpSync_counts (hs : Canonical s) (hf : follows s a = true) (hlock : s.flag GLB_TIME_STATUS_LOCKED = false)
    (h1 : -40 ≤ o) (h2 : o ≤ 40) (hgood : s.clk.syncGood < 15) :
    Ends (.ptpSync a o) s fun t => t.clk.syncGood = s.clk.syncGood + 1 ∧ t.flag GLB_TIME_STATUS_LOCKED = false ∧
      t.clk.now = s.clk.now := by
  have hcount : (heardSync s a o).clk.syncGood = s.clk.syncGood + 1 := by
    rw [heardSync_syncGood, if_pos (near_of_bounds h1 h2)]
    omega
  obtain ⟨t, ht, rfl, hopen⟩ := ptpSync_waits (a := a) (o := o) hs hf hlock (by omega)
  exact ⟨_, ht, hcount, hopen, heardSync_now⟩

theorem ptpSync_starts_over (hs : Canonical s) (hf : follows s a = true) (hlock : s.flag GLB_TIME_STATUS_LOCKED = false)
    (hfar : o < -40 ∨ 40 < o) :
    Ends (.ptpSync a o) s fun t => t.clk.syncGood = 0 ∧ t.flag GLB_TIME_STATUS_LOCKED = false := by
  have hcount : (heardSync s a o).clk.syncGood = 0 := by rw [heardSync_syncGood, not_near_of_bounds hfar]; rfl
  obtain ⟨t, ht, rfl, hopen⟩ := ptpSync_waits (a := a) (o := o) hs hf hlock (by omega)
  exact ⟨_, ht, hcount, hopen⟩

theorem ptpSync_unfollowed (hf : follows s a = false) : exec (.ptpSync a o) s = .next s :=
  exec_unchanged rfl (if_neg (by simp [hf]))

end

/-! ### Holdover (R26, R457) -/

theorem syncLost_of_syncAt {t0 : Nat} (h : s.clk.syncAt = some t0) : syncLost s =
    if s.fld GLB_TIME_STATUS_SOURCE = 2 ∧ s.fld GLB_TIME_STATUS_HOLDOVER = 0 ∧ t0 + 8 * syncInterval ≤ s.now then
      edge (({ s with clk := { s.clk with syncGood := 0, slew := 0, backup := false } } : State).setFld
        GLB_TIME_STATUS_HOLDOVER 1) 0x403
    else s := by
  simp only [syncLost, h]

theorem syncMissed_enters_holdover {t0 : Nat} (hs : Canonical s) (h : s.clk.syncAt = some t0)
    (hsource : s.fld GLB_TIME_STATUS_SOURCE = 2) (hnone : s.fld GLB_TIME_STATUS_HOLDOVER = 0)
    (hlate : t0 + 8 * 7812500 ≤ s.clk.now) :
    Ends .syncMissed s fun t => t.flag GLB_TIME_STATUS_HOLDOVER = true ∧ t.clk.syncGood = 0 ∧ t.clk.now = s.clk.now := by
  refine ends_of_eq rfl ((syncLost_of_syncAt h).trans (if_pos ⟨hsource, hnone, hlate⟩)) ⟨?_, ?_, ?_⟩
  · rw [flag_eq_true, edge_fld _ _ (by decide) (by decide), fld_setFld_of_lt (hs.withClk _) (by decide) (by decide)]
    decide
  · rw [edge_clk]
    rfl
  · rw [edge_clk]
    rfl

theorem syncMissed_early {t0 : Nat} (h : s.clk.syncAt = some t0) (hearly : s.clk.now < t0 + 8 * 7812500) :
    exec .syncMissed s = .next s :=
  exec_unchanged rfl ((syncLost_of_syncAt h).trans (if_neg fun hlate => absurd hlate.2.2 (Nat.not_le.2 hearly)))

theorem holdoverTimeFault_reports {o : Int} (hold : s.flag GLB_TIME_STATUS_HOLDOVER = true) (hfirst : s.clk.reported = false)
    (hfar : o < -40 ∨ 40 < o) :
    Ends (.holdoverTimeFault o) s fun t => t.clk.reported = true ∧ t.clk.now = s.clk.now := by
  refine ends_of_eq rfl (if_pos ⟨hold, hfirst, hfar⟩) ?_
  rw [fault_clk]
  exact ⟨rfl, rfl⟩

theorem holdoverTimeFault_near {o : Int} (h1 : -40 ≤ o) (h2 : o ≤ 40) : exec (.holdoverTimeFault o) s = .next s :=
  exec_unchanged rfl (if_neg fun h => by obtain ⟨-, -, hfar⟩ := h; omega)

/-! ### A domain of one (R25, R30) -/

/-- The address of a domain of one. -/
def loneAddress (s : State) : State :=
  ((s.setFld GLB_DEV_ADDR_DEVICE 0).setFld GLB_DEV_ADDR_PLANE 0).setFld GLB_DEV_ADDR_VALID 1

theorem domainOfOne_locks (hs : Canonical s) (hawake : s.awake = true) (hlate : 10 ^ 10 ≤ s.clk.now)
    (halone : s.fld GLB_RES1_PORTS_UP = 0) (hsealed : s.flag FAB_COMP_SEALED = false)
    (hopen : s.flag GLB_TIME_STATUS_LOCKED = false) (hready : s.flag GLB_STATE_READY = false) :
    Ends .domainOfOne s fun t => t.flag GLB_TIME_STATUS_LOCKED = true ∧ t.fld GLB_TIME_STATUS_SOURCE = 1 ∧
      t.fld GLB_DEV_ADDR_DEVICE = 0 ∧ t.flag GLB_DEV_ADDR_VALID = true := by
  have hs1 := hs.setFld GLB_DEV_ADDR_DEVICE 0
  have hs2 := hs1.setFld GLB_DEV_ADDR_PLANE 0
  have haddr : Canonical (loneAddress s) := hs2.setFld _ 1
  have hreg : (setLock (loneAddress s) 1).reg 0x44 = (loneAddress s).reg 0x44 :=
    setLock_reg _ _ (by decide) (by decide) (by decide)
  refine ends_of_eq rfl (if_pos ⟨hawake, hlate, halone, hsealed, hopen, hready⟩)
    ⟨setLock_locked haddr 1, setLock_source haddr (by decide), ?_, ?_⟩
  · rw [← loneAddress, fld_of_reg hreg, loneAddress, fld_setFld_disjoint 1 (by decide) hs2.regs (.inr (by decide)),
      fld_setFld_disjoint 0 (by decide) hs1.regs (.inr (by decide)), fld_setFld_of_lt hs (by decide) (by decide)]
  · rw [flag_eq_true, ← loneAddress, fld_of_reg hreg, loneAddress, fld_setFld_of_lt hs2 (by decide) (by decide)]
    decide

theorem domainOfOne_unchanged (h : s.clk.now < 10 ^ 10 ∨ s.fld GLB_RES1_PORTS_UP ≠ 0) : exec .domainOfOne s = .next s := by
  refine exec_unchanged rfl (if_neg ?_)
  rintro ⟨-, hlate, halone, -⟩
  rcases h with h | h
  · exact absurd hlate (Nat.not_le.2 h)
  · exact h halone

/-! ### Messages sent (R455, R504) -/

/-- A Sync message on each port of a list, in order. -/
def sendSyncs (s : State) (ports : List Nat) : State := ports.foldl (fun s p => send s (.sync p s.now)) s

theorem sendSyncs_sent : ∀ (l : List Nat) {s : State}, s.fab.stopped = false →
    (sendSyncs s l).fab.sent = s.fab.sent ++ l.map (fun p => .sync p s.clk.now)
  | [], _, _ => (List.append_nil _).symm
  | k :: l, s, hgo => by
    have hrest := sendSyncs_sent l (s := send s (.sync k s.now)) ((send_stopped s _).trans hgo)
    rw [send_clk, send_sent hgo, List.append_assoc] at hrest
    exact hrest

theorem syncMessageSend_sends (hsend : sendsSync s = true) (hlock : s.flag GLB_TIME_STATUS_LOCKED = true)
    (hgo : s.fab.stopped = false) : Ends .syncMessageSend s fun t =>
      t.fab.sent = s.fab.sent ++ (upPorts s).map (fun p => .sync p s.clk.now) ∧ t.regs = s.regs := by
  have heq : syncOut s = sendSyncs s (upPorts s) := by
    simp only [syncOut, hsend, hlock, if_true]
    rfl
  exact ends_of_eq rfl heq ⟨sendSyncs_sent _ hgo, foldl_frame (·.regs) (fun u k => send_regs u _) _ s⟩

theorem deviceHeartbeatSend_sends (hsealed : s.flag FAB_COMP_SEALED = true) (hdue : s.flt.beatAt + 10 ^ 6 ≤ s.clk.now) :
    Ends .deviceHeartbeatSend s fun t => t.flt.beatAt = s.clk.now ∧ t.regs = s.regs ∧
      (s.fab.stopped = false → t.fab.sent = s.fab.sent ++ [.heartbeat]) := by
  refine ends_of_eq rfl (if_pos ⟨hsealed, hdue⟩) ⟨?_, send_regs _ _, fun hgo => ?_⟩
  · rw [send_flt]
    rfl
  · exact send_sent (s := { s with flt := { s.flt with beatAt := s.now } }) hgo _

/-! ### The statement -/

/-- Settles O52: each clause is a law of this file or of the two before it. -/
theorem portsTrainPauseAndKeepTime : Obligations.PortsTrainPauseAndKeepTime := by
  unfold Obligations.PortsTrainPauseAndKeepTime
  intro s hs
  refine ⟨fun p hp => ?_, discoverySend_sends hs, ?_, ?_, ?_, ?_, ?_, domainOfOne_unchanged, syncMessageSend_sends, ?_, ?_⟩
  · refine ⟨portSignalDetected_trains hs hp, ?_, fun hrun htrain => ⟨portLinkUp_fits hs hp hrun htrain,
        portLinkUp_tooLong hs hp hrun htrain⟩, ?_, portTrainingTimeout_down hs hp, portTrainingTimeout_unchanged,
      portLinkLost_down hs hp, ?_, fun u hu hgood => ⟨serdesFault_takesSpare hs hp hu hgood, serdesFault_fails hs hp hu hgood⟩,
      fun m c => fabPortMediaWrite_stores hs hp, fun d => ⟨discoveryFrame_records hs hp, ?_⟩, fun c n hup =>
        ⟨pfcPauseReceived_pauses hp hup, pfcPauseReceived_ends hp hup, pfcPauseReceived_ignored hp hup⟩,
      fun c e t0 h => ⟨pfcPauseExpiry_ends h, pfcPauseExpiry_early h, pfcWatchdog_sticks hs hp h, pfcWatchdog_early h⟩,
      fun c h => ⟨pfcPauseExpiry_unpaused h, pfcWatchdog_unpaused h⟩,
      fun c t0 _ h hstuck => ⟨stuckClear_clears hs h hstuck, stuckClear_early h⟩,
      fun c t0 hup h => ⟨pfcRefresh_again hp hup h, pfcRefresh_ends hp hup h⟩,
      fun hup => ⟨pdelayReqSend_sends hp hup, fun t1 t2 t3 t4 =>
        ⟨pdelayMessage_response t1 t2 t3 t4 hp hup, pdelayMessage_request t1 t2 t3 t4 hp hup⟩⟩⟩
    · exact fun h => exec_unchanged rfl (if_neg fun hc => h hc.2)
    · exact fun h => exec_unchanged rfl (if_neg fun hc => h hc.2)
    · exact fun h => exec_unchanged rfl (if_neg fun hc => h hc.2)
    · exact fun h => exec_unchanged rfl (if_neg fun hc => h hc.2)
  · exact fun h => exec_unchanged rfl (if_neg (Nat.not_le.2 h))
  · exact fun a o => ⟨fun hf => ⟨ptpSync_slews hs hf, ptpSync_locks hs hf, ptpSync_counts hs hf, ptpSync_starts_over hs hf⟩,
      ptpSync_unfollowed⟩
  · exact fun t0 h hsource hnone => ⟨syncMissed_enters_holdover hs h hsource hnone, syncMissed_early h⟩
  · exact fun o => ⟨holdoverTimeFault_reports, holdoverTimeFault_near⟩
  · exact domainOfOne_locks hs
  · exact fun h => exec_unchanged rfl (if_neg (by simp [h]))
  · exact fun hsealed => ⟨deviceHeartbeatSend_sends hsealed, fun h => exec_unchanged rfl
      (if_neg fun hc => absurd hc.2 (Nat.not_le.2 h))⟩

end Sys2Proof.Machine
end

section
/-! The registers of BAR0 as data (R7): which register holds an offset, and what a write leaves in each field of it. -/

namespace Sys2Proof.Machine

variable {s : State}

/-! ### Bits of a word -/

theorem bits_one_lt (x i : Nat) : bits x i 1 < 2 := Nat.mod_lt _ (by decide)

theorem getLsbD_eq_bitOf {w : Nat} (v : BitVec w) (i : Nat) : v.getLsbD i = bitOf v.toNat i := by
  rw [bitOf_eq_testBit, BitVec.testBit_toNat]

theorem bitOf_eq_bits_one (x i : Nat) : bitOf x i = bitOf (bits x i 1) 0 := by
  simp [bitOf, bits]

theorem bits_mod_two_pow {lo w n : Nat} (x : Nat) (h : lo + w ≤ n) : bits (x % 2 ^ n) lo w = bits x lo w := by
  refine bits_eq_iff fun i hi => ?_
  rw [Nat.testBit_mod_two_pow, decide_eq_true (by omega : lo + i < n), Bool.true_and]

theorem bits_zero_of_lt {x w : Nat} (h : x < 2 ^ w) : bits x 0 w = x := by
  rw [bits, Nat.pow_zero, Nat.div_one, Nat.mod_eq_of_lt h]

/-- A flag whose field holds one bit of a word. -/
theorem flag_of_bit {g : Field} {x i : Nat} (h : s.fld g = bits x i 1) : s.flag g = bitOf x i := by
  have hlt := bits_one_lt x i
  rw [State.flag, h]
  exact decide_eq_decide.2 (by unfold bits at hlt ⊢; omega)

/-! ### The register that holds an offset -/

/-- Where a register or family holds an offset, as `regAt` looks for it. -/
def RegDesc.place (d : RegDesc) (off : Nat) : Option (RegDesc × List Nat × Nat) :=
  if d.base ≤ off then (dimsAt (d.bits / 8) d.dims (off - d.base)).map fun r => (d, r) else none

/-- Whether a register or family ends at or before an offset. -/
def RegDesc.endsBy (d : RegDesc) (lo : Nat) : Bool :=
  decide (d.base ≤ lo) && match d.dims with
    | [] => decide (d.bits / 8 ≤ lo - d.base)
    | (stride, count) :: _ => decide (count ≤ (lo - d.base) / stride)

theorem place_of_before {d : RegDesc} {off : Nat} (h : off < d.base) : d.place off = none := if_neg (Nat.not_le.2 h)

theorem place_of_endsBy {d : RegDesc} {lo off : Nat} (h : d.endsBy lo = true) (hlo : lo ≤ off) : d.place off = none := by
  obtain ⟨base, dims, nbits, fields⟩ := d
  simp only [RegDesc.endsBy, Bool.and_eq_true, decide_eq_true_eq] at h
  obtain ⟨hbase, hend⟩ := h
  have hnone : dimsAt (nbits / 8) dims (off - base) = none := by
    cases dims with
    | nil =>
      have : nbits / 8 ≤ lo - base := of_decide_eq_true hend
      rw [dimsAt, if_neg (by omega)]
    | cons x rest =>
      have hcount : x.2 ≤ (lo - base) / x.1 := of_decide_eq_true hend
      have hmono : (lo - base) / x.1 ≤ (off - base) / x.1 := Nat.div_le_div_right (by omega)
      rw [dimsAt, if_neg (by omega)]
  simp only [RegDesc.place, hnone, Option.map_none, ite_self]

theorem findSome?_of_unique {α β : Type} {f : α → Option β} {l : List α} {a : α} {b : β} (ha : a ∈ l) (hf : f a = some b)
    (hothers : ∀ x ∈ l, x ≠ a → f x = none) : l.findSome? f = some b := by
  cases hfind : l.findSome? f with
  | none => rw [List.findSome?_eq_none_iff.1 hfind a ha] at hf; cases hf
  | some c =>
    obtain ⟨x, hx, hxc⟩ := List.exists_of_findSome?_eq_some hfind
    by_cases hxa : x = a
    · rw [← hxc, hxa, hf]
    · rw [hothers x hx hxa] at hxc; cases hxc

/-- An offset belongs to the register or family that places it, where no other does. -/
theorem regAt_of_unique {d : RegDesc} {off : Nat} {r : List Nat × Nat} (hd : d ∈ regTable) (hbase : d.base ≤ off)
    (hdims : dimsAt (d.bits / 8) d.dims (off - d.base) = some r)
    (hothers : ∀ e ∈ regTable, e ≠ d → e.place off = none) : regAt off = some (d, r) := by
  refine findSome?_of_unique (f := fun e => e.place off) hd ?_ hothers
  simp only [RegDesc.place, if_pos hbase, hdims, Option.map_some]

/-- Whether a range of offsets meets the registers of a list at most, of all there are. -/
def onlyIn (ds : List RegDesc) (lo hi : Nat) : Bool :=
  regTable.all fun e => decide (e ∈ ds) || decide (hi ≤ e.base) || e.endsBy lo

theorem place_of_onlyIn {ds : List RegDesc} {lo hi off : Nat} (h : onlyIn ds lo hi = true) (hlo : lo ≤ off) (hhi : off < hi)
    {e : RegDesc} (he : e ∈ regTable) (hne : e ∉ ds) : e.place off = none := by
  have hclear := List.all_eq_true.1 h e he
  simp only [Bool.or_eq_true, decide_eq_true_eq, hne, false_or] at hclear
  rcases hclear with hbase | hend
  · exact place_of_before (by omega)
  · exact place_of_endsBy hend hlo

/-- An offset within a range that meets one register or family alone. -/
theorem regAt_of_onlyIn {d : RegDesc} {lo hi off : Nat} {r : List Nat × Nat} (hd : d ∈ regTable) (h : onlyIn [d] lo hi = true)
    (hlo : lo ≤ off) (hhi : off < hi) (hbase : d.base ≤ off)
    (hdims : dimsAt (d.bits / 8) d.dims (off - d.base) = some r) : regAt off = some (d, r) :=
  regAt_of_unique hd hbase hdims fun _ he hne => place_of_onlyIn h hlo hhi he (by simpa using hne)

/-- A family of one dimension places the bytes of its members. -/
theorem dimsAt_of_member {bytes stride count n k : Nat} (hn : n < count) (hk : k < bytes) (hbytes : bytes ≤ stride) :
    dimsAt bytes [(stride, count)] (stride * n + k) = some ([n], k) := by
  have hpos : 0 < stride := by omega
  have hdiv : (stride * n + k) / stride = n := by rw [Nat.mul_add_div hpos, Nat.div_eq_of_lt (by omega), Nat.add_zero]
  have hmod : (stride * n + k) % stride = k := by rw [Nat.mul_add_mod, Nat.mod_eq_of_lt (by omega)]
  simp only [dimsAt, hdiv, hmod, if_pos hn, if_pos hk, Option.map_some]

/-- A family of one dimension places nothing in the gap behind a member. -/
theorem place_of_gap {d : RegDesc} {off stride count n k : Nat} (hdims : d.dims = [(stride, count)])
    (hrel : off - d.base = stride * n + k) (hk : d.bits / 8 ≤ k) (hstride : k < stride) : d.place off = none := by
  have hmod : (stride * n + k) % stride = k := by rw [Nat.mul_add_mod, Nat.mod_eq_of_lt hstride]
  have hnone : dimsAt (d.bits / 8) [(stride, count)] (stride * n + k) = none := by
    simp only [dimsAt, hmod, if_neg (Nat.not_lt.2 hk), Option.map_none, ite_self]
  simp only [RegDesc.place, hdims, hrel, hnone, Option.map_none, ite_self]

/-! ### Fields packed in a word -/

/-- Whether fields rise from a bit on without overlap and fit a word of 64 bits. -/
def fieldsRise : Nat → List RegField → Bool
  | n, [] => decide (n ≤ 64)
  | n, f :: l => decide (n ≤ f.lo) && fieldsRise (f.lo + f.w) l

/-- The word that holds a value in each field. -/
def packFields (v : RegField → Nat) (l : List RegField) : Nat := (l.map fun f => v f % 2 ^ f.w * 2 ^ f.lo).sum

theorem fieldsRise_le : ∀ {l : List RegField} {n : Nat}, fieldsRise n l = true → n ≤ 64
  | [], _, h => of_decide_eq_true h
  | f :: l, n, h => by
    simp only [fieldsRise, Bool.and_eq_true, decide_eq_true_eq] at h
    have := fieldsRise_le h.2
    omega

theorem fieldsRise_bounds : ∀ {l : List RegField} {n : Nat}, fieldsRise n l = true → ∀ f ∈ l, n ≤ f.lo ∧ f.lo + f.w ≤ 64
  | f :: l, n, h, g, hg => by
    simp only [fieldsRise, Bool.and_eq_true, decide_eq_true_eq] at h
    obtain ⟨hn, hl⟩ := h
    rcases List.mem_cons.1 hg with rfl | hg
    · exact ⟨hn, fieldsRise_le hl⟩
    · have := fieldsRise_bounds hl g hg
      exact ⟨by omega, this.2⟩

theorem packFields_dvd (v : RegField → Nat) : ∀ {l : List RegField} {n : Nat}, fieldsRise n l = true →
    2 ^ n ∣ packFields v l
  | [], _, _ => Nat.dvd_zero _
  | f :: l, n, h => by
    simp only [fieldsRise, Bool.and_eq_true, decide_eq_true_eq] at h
    have hrest := packFields_dvd v h.2
    rw [packFields, List.map_cons, List.sum_cons]
    exact Nat.dvd_add (Nat.dvd_mul_left_of_dvd (Nat.pow_dvd_pow 2 h.1) _)
      (Nat.dvd_trans (Nat.pow_dvd_pow 2 (by omega)) hrest)

/-- The low part of a sum whose high part starts above a field. -/
theorem bits_low_part {x y lo w n : Nat} (hn : lo + w ≤ n) (hy : 2 ^ n ∣ y) : bits (x + y) lo w = bits x lo w := by
  obtain ⟨k, rfl⟩ := hy
  rw [← bits_mod_two_pow (x + 2 ^ n * k) hn, Nat.add_mul_mod_self_left, bits_mod_two_pow x hn]

/-- The high part of a sum whose low part ends below a field. -/
theorem bits_high_part {x y lo w n : Nat} (hn : n ≤ lo) (hx : x < 2 ^ n) (hy : 2 ^ n ∣ y) : bits (x + y) lo w = bits y lo w := by
  obtain ⟨k, rfl⟩ := hy
  obtain ⟨e, rfl⟩ := Nat.exists_eq_add_of_le hn
  unfold bits
  rw [Nat.pow_add, ← Nat.div_div_eq_div_mul, ← Nat.div_div_eq_div_mul, Nat.add_mul_div_left _ _ (Nat.two_pow_pos n),
    Nat.div_eq_of_lt hx, Nat.zero_add, Nat.mul_div_cancel_left _ (Nat.two_pow_pos n)]

theorem bits_packFields (v : RegField → Nat) : ∀ {l : List RegField} {n : Nat}, fieldsRise n l = true → ∀ f ∈ l,
    bits (packFields v l) f.lo f.w = v f % 2 ^ f.w
  | g :: l, n, h, f, hf => by
    simp only [fieldsRise, Bool.and_eq_true, decide_eq_true_eq] at h
    have hrest := packFields_dvd v h.2
    have hg : v g % 2 ^ g.w * 2 ^ g.lo < 2 ^ (g.lo + g.w) := by
      rw [Nat.pow_add, Nat.mul_comm]
      exact Nat.mul_lt_mul_of_pos_left (Nat.mod_lt _ (Nat.two_pow_pos _)) (Nat.two_pow_pos _)
    rw [packFields, List.map_cons, List.sum_cons]
    rcases List.mem_cons.1 hf with rfl | hf
    · refine (bits_low_part (Nat.le_refl _) hrest).trans ?_
      rw [bits, Nat.mul_div_cancel _ (Nat.two_pow_pos _), Nat.mod_mod]
    · exact (bits_high_part (fieldsRise_bounds h.2 f hf).1 hg hrest).trans (bits_packFields v h.2 f hf)

theorem regTable_fieldsRise : regTable.all (fun d => fieldsRise 0 d.fields) = true := by decide +kernel

theorem fieldsRise_of_mem {d : RegDesc} (hd : d ∈ regTable) : fieldsRise 0 d.fields = true :=
  List.all_eq_true.1 regTable_fieldsRise d hd

/-! ### What a write leaves in a field (R7) -/

section
variable {d : RegDesc} {f : RegField} {rel old mask val : Nat} {lock : Bool}

theorem bits_newWord (hd : d ∈ regTable) (hf : f ∈ d.fields) : bits (newWord d rel lock old mask val) f.lo f.w =
    newField f lock (storedAs d.base f.lo rel) old mask val % 2 ^ f.w :=
  bits_packFields (fun f => newField f lock (storedAs d.base f.lo rel) old mask val) (fieldsRise_of_mem hd) f hf

/-- Whether a write to a field takes effect: RW, or RWL while make-ready does not lock it. -/
def RegField.writable (f : RegField) (lock : Bool) : Bool :=
  decide (f.access = .rw) || (decide (f.access = .rwl) && !lock)

/-- A writable field that a write carries whole takes the value it is stored as. -/
theorem newField_of_written {store : Nat → Nat} (hacc : f.writable lock = true) (hmask : bits mask f.lo f.w = 2 ^ f.w - 1)
    (hw : 0 < f.w) : newField f lock store old mask val = store (bits val f.lo f.w) := by
  have hne : ¬ 2 ^ f.w - 1 = 0 := by have := Nat.one_lt_two_pow (Nat.ne_of_gt hw); omega
  have hall (x : Nat) : bits x f.lo f.w &&& (2 ^ f.w - 1) = bits x f.lo f.w := by
    rw [Nat.and_two_pow_sub_one_eq_mod, bits, Nat.mod_mod]
  simp only [newField, hmask, hall, if_neg hne, Nat.sub_self, Nat.zero_add]
  have hopen : f.access = .rw ∨ f.access = .rwl ∧ lock = false := by simpa [RegField.writable] using hacc
  rcases hopen with hrw | ⟨hrwl, hopen⟩
  · simp [hrw]
  · simp [hrwl, hopen]

/-- A field that a write does not carry, and a read-only field, stay. -/
theorem newField_of_kept {store : Nat → Nat} (h : f.access = .ro ∨ bits mask f.lo f.w = 0) :
    newField f lock store old mask val = bits old f.lo f.w := by
  unfold newField
  rcases h with h | h
  · simp [h]
  · simp [h]

end

/-! ### Writing a register -/

section
variable {d : RegDesc} {f : RegField} {off mask val : Nat}

/-- A write whose locked fields make-ready leaves open, or that carries none, is no lock violation. -/
def unlockedWrite (s : State) (d : RegDesc) (off mask : Nat) : Prop := (locked s off && carries d .rwl mask) = false

theorem putReg_of_unlocked (h : unlockedWrite s d off mask) : putReg s d off mask val =
    s.setReg off (BitVec.ofNat 64 (afterWrite s d off mask val)) := by
  rw [putReg, if_neg (by rw [h]; decide)]
  rfl

theorem fld_putReg (hs : Canonical s) (h : unlockedWrite s d off mask) (hd : d ∈ regTable) (hf : f ∈ d.fields) :
    (putReg s d off mask val).fld ⟨off, f.lo, f.w⟩ = bits (afterWrite s d off mask val) f.lo f.w := by
  have hbounds := (fieldsRise_bounds (fieldsRise_of_mem hd) f hf).2
  rw [putReg_of_unlocked h, State.fld, reg_setReg_same _ _ hs.regs, BitVec.toNat_ofNat]
  exact bits_mod_two_pow _ hbounds

/-- What a write that carries a whole writable field leaves there. -/
theorem bits_afterWrite_written (hd : d ∈ regTable) (hf : f ∈ d.fields) (hacc : f.writable (locked s off) = true)
    (hmask : bits mask f.lo f.w = 2 ^ f.w - 1) (hw : 0 < f.w) : bits (afterWrite s d off mask val) f.lo f.w =
      storedAs d.base f.lo (off - d.base) (bits val f.lo f.w) % 2 ^ f.w := by
  rw [afterWrite, bits_newWord hd hf, newField_of_written hacc hmask hw]

theorem bits_afterWrite_kept (hd : d ∈ regTable) (hf : f ∈ d.fields) (h : f.access = .ro ∨ bits mask f.lo f.w = 0) :
    bits (afterWrite s d off mask val) f.lo f.w = s.fld ⟨off, f.lo, f.w⟩ := by
  rw [afterWrite, bits_newWord hd hf, newField_of_kept h]
  exact Nat.mod_mod _ _

theorem putReg_reg_other (h : unlockedWrite s d off mask) {o : Nat} (ho : o ≠ off) :
    (putReg s d off mask val).reg o = s.reg o := by
  rw [putReg_of_unlocked h, reg_setReg_other _ _ ho]

theorem Canonical.putReg (hs : Canonical s) (d : RegDesc) (off mask val : Nat) : Canonical (putReg s d off mask val) :=
  hs.of_kept (putReg_kept s d off mask val)

end

end Sys2Proof.Machine
end

section
/-! The bus (R20 to R22, R529, R600): the record of a refused access, and what an accepted one comes to. -/

namespace Sys2Proof.Machine

variable {s : State}

/-! ### Several fields of one register -/

/-- Writes a list of fields, one after the other. -/
def setFlds (s : State) (l : List (Field × Nat)) : State := l.foldl (fun u x => u.setFld x.1 x.2) s

/-- Whether two fields share no bit position. -/
def Field.apart (f g : Field) : Prop := f.lo + f.w ≤ g.lo ∨ g.lo + g.w ≤ f.lo

theorem fld_setFlds_apart {g : Field} : ∀ (l : List (Field × Nat)) {s : State}, Canonical s →
    (∀ x ∈ l, x.1.lo + x.1.w ≤ 64 ∧ x.1.apart g) → (setFlds s l).fld g = s.fld g
  | [], _, _, _ => rfl
  | x :: l, _, hs, h => by
    obtain ⟨hfit, hapart⟩ := h x List.mem_cons_self
    have hrest := fld_setFlds_apart l (hs.setFld x.1 x.2) fun y hy => h y (List.mem_cons_of_mem _ hy)
    exact hrest.trans (fld_setFld_disjoint x.2 hfit hs.regs hapart)

theorem fld_setFlds_of_mem {f : Field} {v : Nat} {l : List (Field × Nat)} (hs : Canonical s)
    (hfit : ∀ x ∈ l, x.1.lo + x.1.w ≤ 64) (hpair : l.Pairwise fun x y => y.1.apart x.1) (hmem : (f, v) ∈ l) :
    (setFlds s l).fld f = v % 2 ^ f.w := by
  induction l generalizing s with
  | nil => cases hmem
  | cons x l ih =>
    obtain ⟨hx, hl⟩ := List.pairwise_cons.1 hpair
    have hfit' := fun y hy => hfit y (List.mem_cons_of_mem _ hy)
    have hs' := hs.setFld x.1 x.2
    rw [setFlds, List.foldl_cons]
    rcases List.mem_cons.1 hmem with rfl | hmem
    · exact (fld_setFlds_apart l hs' fun y hy => ⟨hfit' y hy, hx y hy⟩).trans
        (fld_setFld_same f v (hfit _ List.mem_cons_self) hs.regs)
    · exact ih hs' hfit' hl hmem

theorem setFlds_reg_other {o : Nat} : ∀ (l : List (Field × Nat)) (s : State), (∀ x ∈ l, o ≠ x.1.off) →
    (setFlds s l).reg o = s.reg o
  | [], _, _ => rfl
  | x :: l, s, h => (setFlds_reg_other l (s.setFld x.1 x.2) fun y hy => h y (List.mem_cons_of_mem _ hy)).trans
      (reg_setFld_other s x.2 (h x List.mem_cons_self))

theorem setFlds_ses (s : State) (l : List (Field × Nat)) : (setFlds s l).ses = s.ses := by
  refine foldl_frame (·.ses) (fun u x => ?_) l s
  rfl

theorem fld_incSat_same (hs : Canonical s) {f : Field} (n : Nat) (hfit : f.lo + f.w ≤ 64) :
    (s.incSat f n).fld f = min (2 ^ f.w - 1) (s.fld f + n) := by
  have := Nat.two_pow_pos f.w
  rw [State.incSat, fld_setFld_of_lt hs hfit (by omega), Nat.min_comm]

/-! ### The record of a refused access (R20, R600) -/

/-- The fields of HIF_ACC_ERR that the first access error fills. -/
def captured (fn off : Nat) (write usb : Bool) : List (Field × Nat) :=
  [(HIF_ACC_ERR_VALID, 1), (HIF_ACC_ERR_WRITE, b2n write), (HIF_ACC_ERR_FUNCTION, fn), (HIF_ACC_ERR_USB, b2n usb),
    (HIF_ACC_ERR_OFFSET, off)]

theorem accErr_eq (s : State) (fn off : Nat) (write usb : Bool) : accErr s fn off write usb =
    if (s.incSat HIF_ACC_ERR_COUNT 1).flag HIF_ACC_ERR_VALID then s.incSat HIF_ACC_ERR_COUNT 1
    else setFlds (s.incSat HIF_ACC_ERR_COUNT 1) (captured fn off write usb) := rfl

theorem captured_fit (fn off : Nat) (write usb : Bool) : ∀ x ∈ captured fn off write usb, x.1.lo + x.1.w ≤ 64 := by
  simp [captured]

theorem captured_apart (fn off : Nat) (write usb : Bool) :
    (captured fn off write usb).Pairwise (fun x y => y.1.apart x.1) := by
  simp [captured, Field.apart]

/-- What a refused access of a function leaves: it is counted, and the first one is captured; nothing else is written. -/
def Recorded (s : State) (fn off w : Nat) (t : State) : Prop :=
  t.fld HIF_ACC_ERR_COUNT = min (2 ^ 16 - 1) (s.fld HIF_ACC_ERR_COUNT + 1) ∧ t.flag HIF_ACC_ERR_VALID = true ∧
  (s.flag HIF_ACC_ERR_VALID = false → t.fld HIF_ACC_ERR_WRITE = w ∧ t.fld HIF_ACC_ERR_FUNCTION = fn ∧
    t.fld HIF_ACC_ERR_USB = 0 ∧ t.fld HIF_ACC_ERR_OFFSET = off % 2 ^ 26) ∧
  (∀ o, o ≠ 0x100008 → t.reg o = s.reg o) ∧ t.ses = s.ses

theorem accErr_recorded (hs : Canonical s) {fn : Nat} (hfn : fn < 64) (off : Nat) (write : Bool) :
    Recorded s fn off (b2n write) (accErr s fn off write false) := by
  have hcount := fld_incSat_same hs (f := HIF_ACC_ERR_COUNT) 1 (by decide)
  have hs1 : Canonical (s.incSat HIF_ACC_ERR_COUNT 1) := hs.of_kept (incSat_kept s _ _)
  have hvalid : (s.incSat HIF_ACC_ERR_COUNT 1).flag HIF_ACC_ERR_VALID = s.flag HIF_ACC_ERR_VALID :=
    flag_of_fld (fld_setFld_disjoint _ (by decide) hs.regs (.inr (by decide)))
  have hreg {o : Nat} (ho : o ≠ 0x100008) : (s.incSat HIF_ACC_ERR_COUNT 1).reg o = s.reg o := reg_incSat_other s 1 ho
  rw [accErr_eq, hvalid]
  cases hv : s.flag HIF_ACC_ERR_VALID with
  | true =>
    rw [if_pos rfl]
    exact ⟨hcount, hvalid.trans hv, fun h => absurd (hv.symm.trans h) (by decide), fun o => hreg, rfl⟩
  | false =>
    have hfill {f : Field} {v : Nat} (hmem : (f, v) ∈ captured fn off write false) :
        (setFlds (s.incSat HIF_ACC_ERR_COUNT 1) (captured fn off write false)).fld f = v % 2 ^ f.w :=
      fld_setFlds_of_mem hs1 (captured_fit fn off write false) (captured_apart fn off write false) hmem
    rw [if_neg (by decide)]
    refine ⟨?_, ?_, fun _ => ⟨?_, ?_, ?_, ?_⟩, fun o ho => ?_, setFlds_ses _ _⟩
    · exact (fld_setFlds_apart _ hs1 (by simp [captured, Field.apart])).trans hcount
    · rw [flag_eq_true, hfill (v := 1) (by simp [captured])]
      decide
    · rw [hfill (v := b2n write) (by simp [captured])]
      cases write <;> rfl
    · rw [hfill (v := fn) (by simp [captured])]
      exact Nat.mod_eq_of_lt hfn
    · exact hfill (v := 0) (by simp [captured, b2n])
    · exact hfill (v := off) (by simp [captured])
    · exact (setFlds_reg_other _ _ (by simpa [captured] using ho)).trans (hreg ho)

@[simp] theorem answerTo_reg (fn : Nat) (r : State × Nat) (o : Nat) : (answerTo fn r).reg o = r.1.reg o := rfl
@[simp] theorem answerTo_fld (fn : Nat) (r : State × Nat) (g : Field) : (answerTo fn r).fld g = r.1.fld g := rfl
@[simp] theorem answerTo_flag (fn : Nat) (r : State × Nat) (g : Field) : (answerTo fn r).flag g = r.1.flag g := rfl
@[simp] theorem answerTo_ses (fn : Nat) (r : State × Nat) : (answerTo fn r).ses = r.1.ses := rfl
@[simp] theorem answerTo_answer (fn : Nat) (r : State × Nat) :
    mget (answerTo fn r).host.answer fn = some (BitVec.ofNat 64 r.2) := mget_mset_same _ _ _

theorem Recorded.answerTo {fn off w : Nat} {t : State} (h : Recorded s fn off w t) (fn' n : Nat) :
    Recorded s fn off w (answerTo fn' (t, n)) := by
  simpa only [Recorded, answerTo_reg, answerTo_fld, answerTo_flag, answerTo_ses] using h

/-! ### Which accesses are accepted -/

theorem hostReach_lt {fn : Nat} (h : hostReach s fn = true) : fn < 64 := by
  simp only [hostReach, Bool.and_eq_true, decide_eq_true_eq] at h
  exact h.1.1.2

theorem accessOk_iff {off width : Nat} : accessOk off width = true ↔ (width = 32 ∧ off % 4 = 0) ∨ (width = 64 ∧ off % 8 = 0) := by
  simp [accessOk]

theorem accessOk_eq_false {off width : Nat} : accessOk off width = false ↔
    ¬ ((width = 32 ∧ off % 4 = 0) ∨ (width = 64 ∧ off % 8 = 0)) := by
  rw [← accessOk_iff, Bool.not_eq_true]

section
variable {fn off width : Nat}

theorem busWrite_refused (hreach : hostReach s fn = true) (hbad : accessOk off width = false) (v : Nat) :
    busWrite s fn off width v = accErr s fn off true false := by
  simp [busWrite, hreach, hbad]

theorem busRead_refused (hreach : hostReach s fn = true) (hbad : accessOk off width = false) :
    busRead s fn off width = answerTo fn (accErr s fn off false false, 0) := by
  simp [busRead, hreach, hbad]

/-- A virtual function's write above its window. -/
theorem busWrite_above_window (hreach : hostReach s fn = true) (hok : accessOk off width = true) (hfn : fn ≠ 0)
    (habove : 0x2060 ≤ off) (v : Nat) : busWrite s fn off width v = accErr s fn off true false := by
  have hwindow : windowOf fn off = none := by
    rw [windowOf, if_neg hfn, if_neg (by omega), if_neg (by omega)]
  simp [busWrite, hreach, hok, hwindow]

end

/-! ### Accesses of the physical function, with Hub A in service -/

/-- The physical function reaches the device and Hub A serves it. -/
structure Served (s : State) : Prop where
  reach : hostReach s 0 = true
  hub : s.hubUp 0 = true

section
variable {d : RegDesc} {l : List Nat} {off k v : Nat}

theorem Served.busWrite (h : Served s) (hlow : off < 0x1000000) {width : Nat} (hok : accessOk off width = true) :
    busWrite s 0 off width v = if width = 64 then write64 s off v else write32 s off v := by
  have hserves : portServes s off true = true := by simp [portServes, h.hub]
  have hforme : formeAnswers s off = true := by simp [formeAnswers, hlow]
  simp [Machine.busWrite, h.reach, hok, windowOf, hserves, hforme]

/-- A 32-bit write reaches the register that holds its offset. -/
theorem Served.busWrite32 (h : Served s) (hlow : off < 0x1000000) (hal : off % 4 = 0) (hat : regAt off = some (d, l, k)) :
    Machine.busWrite s 0 off 32 v = writeAt s d (off - k) ((2 ^ 32 - 1) * 2 ^ (8 * k)) (v % 2 ^ 32 * 2 ^ (8 * k)) := by
  rw [h.busWrite hlow (accessOk_iff.2 (.inl ⟨rfl, hal⟩)), if_neg (by decide), write32, hat]

/-- A 32-bit write at the base of a register. -/
theorem Served.busWrite32_base (h : Served s) (hlow : off < 0x1000000) (hal : off % 4 = 0) (hat : regAt off = some (d, l, 0)) :
    Machine.busWrite s 0 off 32 v = writeAt s d off (2 ^ 32 - 1) (v % 2 ^ 32) := by
  rw [h.busWrite32 hlow hal hat, Nat.sub_zero, Nat.mul_zero, Nat.pow_zero, Nat.mul_one, Nat.mul_one]

/-- A 64-bit write reaches a 64-bit register in one step. -/
theorem Served.busWrite64 (h : Served s) (hlow : off < 0x1000000) (hal : off % 8 = 0) (hat : regAt off = some (d, l, 0))
    (hbits : d.bits = 64) : Machine.busWrite s 0 off 64 v = writeAt s d off (2 ^ 64 - 1) (v % 2 ^ 64) := by
  rw [h.busWrite hlow (accessOk_iff.2 (.inr ⟨rfl, hal⟩)), if_pos rfl, write64, hat]
  exact if_pos hbits

/-! ### Reads (R22) -/

theorem Served.busRead (h : Served s) {width : Nat} (hok : accessOk off width = true) (hforme : formeAnswers s off = true) :
    busRead s 0 off width = answerTo 0 (if width = 64 then read64 s 0 off else read32 s 0 off) := by
  have hserves : portServes s off false = true := by simp [portServes, h.hub]
  simp [Machine.busRead, h.reach, hok, windowOf, hserves, hforme]

theorem read64_of_regAt (s : State) (fn : Nat) (hat : regAt off = some (d, l, 0)) (hbits : d.bits = 64) :
    read64 s fn off = (clearRead (freshen s off) d off 0 64, (viewReg (freshen s off) off).toNat) := by
  rw [read64, hat]
  exact if_pos hbits

theorem read32_of_regAt (s : State) (fn : Nat) (hat : regAt off = some (d, l, 0)) (hbits : d.bits = 32) :
    read32 s fn off = (clearRead (freshen s off) d off 0 32, (viewReg (freshen s off) off).toNat % 2 ^ 32) := by
  rw [read32, hat]
  exact if_pos hbits

/-- A read of a low half keeps the high half for the function. -/
theorem read32_of_low_half (s : State) (fn : Nat) (hat : regAt off = some (d, l, 0)) (hbits : d.bits = 64) :
    let w := (viewReg (freshen s off) off).toNat
    read32 s fn off = (setShadow (clearRead (freshen s off) d off 0 32) fn (some (off, BitVec.ofNat 32 (w / 2 ^ 32))), w % 2 ^ 32) := by
  rw [read32, hat]
  exact (if_neg (by omega)).trans (if_pos rfl)

theorem clearRead_reg_other (s : State) (d : RegDesc) (lo hi : Nat) {o : Nat} (ho : o ≠ off) :
    (clearRead s d off lo hi).reg o = s.reg o := by
  refine foldl_frame (·.reg o) (fun u f => ?_) _ s
  split
  · exact reg_setFld_other u 0 ho
  · rfl

/-- Bringing a register up to now leaves the access-error capture. -/
theorem freshen_accErr (s : State) (off : Nat) : (freshen s off).reg 0x100008 = s.reg 0x100008 := by
  have hbudget (c : Nat) : (budgetFill s c).reg 0x100008 = s.reg 0x100008 := by
    unfold budgetFill
    split
    · exact reg_setFld_other s _ (by dsimp only; omega)
    · rfl
  have hwear : (wearFill s).reg 0x100008 = s.reg 0x100008 :=
    foldl_frame (·.reg 0x100008) (fun u b => reg_setFld_other u _ (by dsimp only; omega)) _ _
  have hmodel : (showModel s).reg 0x100008 = s.reg 0x100008 :=
    (foldl_frame (·.reg 0x100008) (fun u r => (reg_setFld_other _ _ (by dsimp only; omega)).trans
      (reg_setFld_other u _ (by dsimp only; omega))) _ _).trans (reg_setFld_other s _ (by decide))
  have hholds : (endHolds s).reg 0x100008 = s.reg 0x100008 :=
    foldl_frame (·.reg 0x100008) (fun u x => reg_setFld_other u _ (by dsimp only; omega)) _ s
  unfold freshen
  split_ifs
  · exact hbudget _
  · exact hwear
  · exact hmodel
  · exact hholds
  · rfl

end

end Sys2Proof.Machine
end

section
/-! The registers that the statement on registers names, as the table gives them, and where they lie. -/

namespace Sys2Proof.Machine

variable {s : State}

/-- GLB_SCRATCH (R30). -/
def scratchReg : RegDesc := ⟨0x58, [], 64, [⟨0, 64, .rw, 0x0⟩]⟩
/-- GLB_TIME (R30). -/
def timeReg : RegDesc := ⟨0x48, [], 64, [⟨0, 64, .ro, 0x0⟩]⟩
/-- FLT_FIRST_CTL[h] (R526). -/
def firstCtlReg : RegDesc := ⟨0xa00120, [(0x40, 2)], 32, [⟨0, 1, .w1c, 0x0⟩]⟩
/-- SES_CUST_MAP[n] (R70). -/
def custMapReg : RegDesc := ⟨0x201000, [(0x4, 4096)], 32, [⟨0, 6, .rw, 0x0⟩, ⟨6, 1, .rw, 0x0⟩]⟩
/-- SES_CTX_PAGES[c] (R313). -/
def ctxPagesReg : RegDesc := ⟨0x200400, [(0x8, 64)], 64, [⟨0, 25, .rw, 0x0⟩, ⟨32, 25, .ro, 0x0⟩]⟩
/-- GAL_PART[p] (R188). -/
def partReg : RegDesc := ⟨0x301000, [(0x8, 16)], 64, [⟨0, 48, .rwl, 0x0⟩, ⟨48, 1, .rwl, 0x0⟩, ⟨52, 12, .rwl, 0x7d0⟩]⟩
/-- GAL_BUDGET_A[c] (R188). -/
def budgetAReg : RegDesc := ⟨0x310000, [(0x10, 4096)], 64, [⟨0, 32, .rw, 0x0⟩, ⟨32, 32, .rw, 0x0⟩]⟩
/-- GAL_BUDGET_B[c] (R188). -/
def budgetBReg : RegDesc := ⟨0x310008, [(0x10, 4096)], 64, [⟨0, 32, .ro, 0x0⟩, ⟨32, 1, .rw, 0x0⟩]⟩
/-- CAM_CFG[b] (R363). -/
def bankReg : RegDesc := ⟨0x600000, [(0x8, 32)], 64, [⟨0, 2, .rw, 0x0⟩, ⟨2, 6, .rw, 0x0⟩, ⟨8, 2, .ro, 0x0⟩,
  ⟨10, 6, .ro, 0x0⟩, ⟨16, 1, .ro, 0x0⟩, ⟨17, 14, .ro, 0x0⟩]⟩

theorem scratchReg_mem : scratchReg ∈ regTable := by decide +kernel
theorem timeReg_mem : timeReg ∈ regTable := by decide +kernel
theorem firstCtlReg_mem : firstCtlReg ∈ regTable := by decide +kernel
theorem custMapReg_mem : custMapReg ∈ regTable := by decide +kernel
theorem ctxPagesReg_mem : ctxPagesReg ∈ regTable := by decide +kernel
theorem partReg_mem : partReg ∈ regTable := by decide +kernel
theorem budgetAReg_mem : budgetAReg ∈ regTable := by decide +kernel
theorem budgetBReg_mem : budgetBReg ∈ regTable := by decide +kernel
theorem bankReg_mem : bankReg ∈ regTable := by decide +kernel

theorem regAt_scratch : regAt 0x58 = some (scratchReg, [], 0) := by decide +kernel
theorem regAt_time : regAt 0x48 = some (timeReg, [], 0) := by decide +kernel
theorem regAt_firstCtl : ∀ h, h < 2 → regAt (0xA00120 + 0x40 * h) = some (firstCtlReg, [h], 0) := by decide +kernel

/-- The members of a family whose whole range is its own. -/
theorem regAt_of_family {base stride count nbits : Nat} {fields : List RegField} {n : Nat}
    (hd : (⟨base, [(stride, count)], nbits, fields⟩ : RegDesc) ∈ regTable)
    (honly : onlyIn [⟨base, [(stride, count)], nbits, fields⟩] base (base + stride * count) = true)
    (hbytes : nbits / 8 ≤ stride) (hpos : 0 < nbits / 8) (hn : n < count) :
    regAt (base + stride * n) = some (⟨base, [(stride, count)], nbits, fields⟩, [n], 0) := by
  have hlt : stride * n < stride * count := Nat.mul_lt_mul_of_pos_left hn (by omega)
  refine regAt_of_onlyIn hd honly (by omega) (by omega) (Nat.le_add_right _ _) ?_
  rw [Nat.add_sub_cancel_left]
  exact dimsAt_of_member hn hpos hbytes

theorem regAt_custMap {n : Nat} (hn : n < 4096) : regAt (0x201000 + 4 * n) = some (custMapReg, [n], 0) :=
  regAt_of_family custMapReg_mem (by decide +kernel) (by decide) (by decide) hn

theorem regAt_ctxPages {c : Nat} (hc : c < 64) : regAt (0x200400 + 8 * c) = some (ctxPagesReg, [c], 0) :=
  regAt_of_family ctxPagesReg_mem (by decide +kernel) (by decide) (by decide) hc

theorem regAt_part {p : Nat} (hp : p < 16) : regAt (0x301000 + 8 * p) = some (partReg, [p], 0) :=
  regAt_of_family partReg_mem (by decide +kernel) (by decide) (by decide) hp

theorem regAt_bank {b : Nat} (hb : b < 32) : regAt (0x600000 + 8 * b) = some (bankReg, [b], 0) :=
  regAt_of_family bankReg_mem (by decide +kernel) (by decide) (by decide) hb

/-- GAL_BUDGET_A and GAL_BUDGET_B lie in one range, interleaved. -/
theorem onlyIn_budgets : onlyIn [budgetAReg, budgetBReg] 0x310000 0x320000 = true := by decide +kernel

theorem regAt_budgetA_high {n : Nat} (hn : n < 4096) : regAt (0x310000 + 16 * n + 4) = some (budgetAReg, [n], 4) := by
  have hgap : budgetBReg.place (0x310000 + 16 * n + 4) = none := by
    cases n with
    | zero => exact place_of_before (by decide)
    | succ m => exact place_of_gap (n := m) (k := 12) rfl (by simp only [budgetBReg]; omega) (by decide) (by decide)
  refine regAt_of_unique budgetAReg_mem (by simp only [budgetAReg]; omega) ?_ fun e he hne => ?_
  · rw [show 0x310000 + 16 * n + 4 - budgetAReg.base = 16 * n + 4 by simp only [budgetAReg]; omega]
    exact dimsAt_of_member hn (by decide) (by decide)
  · by_cases hB : e = budgetBReg
    · exact hB ▸ hgap
    · exact place_of_onlyIn onlyIn_budgets (by omega) (by omega) he (by simp [hne, hB])

theorem regAt_budgetB_high {n : Nat} (hn : n < 4096) : regAt (0x310008 + 16 * n + 4) = some (budgetBReg, [n], 4) := by
  have hgap : budgetAReg.place (0x310008 + 16 * n + 4) = none :=
    place_of_gap (n := n) (k := 12) rfl (by simp only [budgetAReg]; omega) (by decide) (by decide)
  refine regAt_of_unique budgetBReg_mem (by simp only [budgetBReg]; omega) ?_ fun e he hne => ?_
  · rw [show 0x310008 + 16 * n + 4 - budgetBReg.base = 16 * n + 4 by simp only [budgetBReg]; omega]
    exact dimsAt_of_member hn (by decide) (by decide)
  · by_cases hA : e = budgetAReg
    · exact hA ▸ hgap
    · exact place_of_onlyIn onlyIn_budgets (by omega) (by omega) he (by simp [hne, hA])

end Sys2Proof.Machine
end

section
/-! BAR0 accesses refused and accepted, reads, and writes by access code (R7, R20, R22). -/

namespace Sys2Proof.Machine

variable {s : State}

/-! ### Accesses that BAR0 does not accept (R20) -/

section
variable {fn off width : Nat}

theorem misalignedBar0Access_recorded (hs : Canonical s) (hreach : hostReach s fn = true) (hbad : accessOk off width = false)
    (wr : Bool) : Ends (.misalignedBar0Access fn off width wr) s fun t =>
      Recorded s fn off (b2n wr) t ∧ (wr = false → mget t.host.answer fn = some 0) := by
  have hrec := accErr_recorded hs (hostReach_lt hreach) off wr
  cases wr with
  | true =>
    exact ends_of_eq rfl ((if_neg (by simp [hbad])).trans (busWrite_refused hreach hbad 0)) ⟨hrec, fun h => by cases h⟩
  | false =>
    exact ends_of_eq rfl ((if_neg (by simp [hbad])).trans (busRead_refused hreach hbad))
      ⟨hrec.answerTo fn 0, fun _ => answerTo_answer _ _⟩

theorem registerWrite_recorded (hs : Canonical s) (hreach : hostReach s fn = true) (hbad : accessOk off width = false)
    (v : Word) : Ends (.registerWrite fn off width v) s (Recorded s fn off 1) :=
  ends_of_eq rfl (busWrite_refused hreach hbad _) (accErr_recorded hs (hostReach_lt hreach) off true)

theorem registerReadClear_recorded (hs : Canonical s) (hreach : hostReach s fn = true) (hbad : accessOk off width = false) :
    Ends (.registerReadClear fn off width) s fun t => Recorded s fn off 0 t ∧ mget t.host.answer fn = some 0 :=
  ends_of_eq rfl (busRead_refused hreach hbad)
    ⟨(accErr_recorded hs (hostReach_lt hreach) off false).answerTo fn 0, answerTo_answer _ _⟩

end

/-! ### Accepted reads (R22) -/

section
variable {d : RegDesc} {l : List Nat} {off : Nat}

theorem clearRead_freshen_accErr (s : State) (d : RegDesc) (lo hi : Nat) (hoff : off ≠ 0x100008) :
    (clearRead (freshen s off) d off lo hi).reg 0x100008 = s.reg 0x100008 :=
  (clearRead_reg_other _ _ _ _ hoff.symm).trans (freshen_accErr s off)

theorem registerReadClear_64 (h : Served s) (hat : regAt off = some (d, l, 0)) (hforme : formeAnswers s off = true)
    (hbits : d.bits = 64) (hal : off % 8 = 0) : Ends (.registerReadClear 0 off 64) s fun t =>
      mget t.host.answer 0 = some (viewReg (freshen s off) off) ∧ (off ≠ 0x100008 → t.reg 0x100008 = s.reg 0x100008) := by
  refine ends_of_eq rfl (h.busRead (accessOk_iff.2 (.inr ⟨rfl, hal⟩)) hforme) ?_
  rw [if_pos rfl, read64_of_regAt s 0 hat hbits]
  refine ⟨(answerTo_answer _ _).trans ?_, fun hoff => clearRead_freshen_accErr s d _ _ hoff⟩
  rw [BitVec.ofNat_toNat, BitVec.setWidth_eq]

theorem registerReadClear_32 (h : Served s) (hat : regAt off = some (d, l, 0)) (hforme : formeAnswers s off = true)
    (hbits : d.bits = 32) (hal : off % 4 = 0) : Ends (.registerReadClear 0 off 32) s fun t =>
      mget t.host.answer 0 = some (BitVec.ofNat 64 ((viewReg (freshen s off) off).toNat % 2 ^ 32)) ∧
        (off ≠ 0x100008 → t.reg 0x100008 = s.reg 0x100008) := by
  refine ends_of_eq rfl (h.busRead (accessOk_iff.2 (.inl ⟨rfl, hal⟩)) hforme) ?_
  rw [if_neg (by decide), read32_of_regAt s 0 hat hbits]
  exact ⟨answerTo_answer _ _, fun hoff => clearRead_freshen_accErr s d _ _ hoff⟩

theorem registerLowHalfRead_latches (h : Served s) (hat : regAt off = some (d, l, 0)) (hforme : formeAnswers s off = true)
    (hbits : d.bits = 64) (hal : off % 8 = 0) :
    let w := viewReg (freshen s off) off
    Ends (.registerLowHalfRead 0 off) s fun t => mget t.host.answer 0 = some (BitVec.ofNat 64 (w.toNat % 2 ^ 32)) ∧
      mget t.host.shadow 0 = some (off, BitVec.ofNat 32 (w.toNat / 2 ^ 32)) := by
  refine ends_of_eq rfl (h.busRead (accessOk_iff.2 (.inl ⟨rfl, by omega⟩)) hforme) ?_
  rw [if_neg (by decide), read32_of_low_half s 0 hat hbits]
  exact ⟨answerTo_answer _ _, mget_mset_same _ _ _⟩

end

/-! ### Writes by access code (R7) -/

section
variable {d : RegDesc} {f : RegField} {off mask val : Nat}

theorem unlocked_of_carries_none (h : carries d .rwl mask = false) : unlockedWrite s d off mask := by
  rw [unlockedWrite, h, Bool.and_false]

theorem unlocked_of_not_locked (h : locked s off = false) : unlockedWrite s d off mask := by
  rw [unlockedWrite, h, Bool.false_and]

/-- What a write leaves in a writable field that it carries whole, where the value is stored as it comes. -/
theorem bits_afterWrite_plain (hd : d ∈ regTable) (hf : f ∈ d.fields) (hacc : f.writable (locked s off) = true)
    (hmask : bits mask f.lo f.w = 2 ^ f.w - 1) (hw : 0 < f.w) (hstore : ∀ rel v, storedAs d.base f.lo rel v = v) :
    bits (afterWrite s d off mask val) f.lo f.w = bits val f.lo f.w := by
  rw [bits_afterWrite_written hd hf hacc hmask hw, hstore]
  exact Nat.mod_mod _ _

theorem reg_putReg_toNat (hs : Canonical s) (h : unlockedWrite s d off mask) :
    ((putReg s d off mask val).reg off).toNat = bits (afterWrite s d off mask val) 0 64 := by
  rw [putReg_of_unlocked h, reg_setReg_same _ _ hs.regs, BitVec.toNat_ofNat, bits, Nat.pow_zero, Nat.div_one]

theorem putReg_ses (h : unlockedWrite s d off mask) : (putReg s d off mask val).ses = s.ses := by
  rw [putReg_of_unlocked h, setReg_ses]

end

theorem bits_val32 (v : BitVec 32) (lo w : Nat) : bits (v.toNat % 2 ^ 32) lo w = bits v.toNat lo w := by
  rw [Nat.mod_eq_of_lt v.isLt]

theorem bits_val64 (v : Word) (lo w : Nat) : bits (v.toNat % 2 ^ 64) lo w = bits v.toNat lo w := by
  rw [Nat.mod_eq_of_lt v.isLt]

/-- RW: GLB_SCRATCH takes a 64-bit write whole. -/
theorem registerWrite_scratch_64 (hs : Canonical s) (h : Served s) (v : Word) : Ends (.registerWrite 0 0x58 64 v) s fun t =>
    t.reg 0x58 = v ∧ (∀ o, o ≠ 0x58 → t.reg o = s.reg o) ∧ t.ses = s.ses := by
  have hopen (mask : Nat) : unlockedWrite s scratchReg 0x58 mask := unlocked_of_carries_none rfl
  refine ends_of_eq rfl (h.busWrite64 (by decide) (by decide) regAt_scratch rfl)
    ⟨BitVec.eq_of_toNat_eq ?_, fun o ho => putReg_reg_other (hopen _) ho, putReg_ses (hopen _)⟩
  refine (reg_putReg_toNat hs (hopen _)).trans ((bits_afterWrite_plain (f := ⟨0, 64, .rw, 0⟩) scratchReg_mem
    List.mem_cons_self rfl (by decide) (by decide) fun _ _ => rfl).trans ?_)
  rw [bits_val64, bits_zero_of_lt v.isLt]

/-- A 32-bit write of a 64-bit register leaves its other half. -/
theorem newField_low_half (old x : Nat) (store : Nat → Nat) (lock : Bool) (hold : old < 2 ^ 64) (hstore : ∀ v, store v = v) :
    newField ⟨0, 64, .rw, 0⟩ lock store old (2 ^ 32 - 1) (x % 2 ^ 32) = old / 2 ^ 32 * 2 ^ 32 + x % 2 ^ 32 := by
  have hx : x % 2 ^ 32 < 2 ^ 64 := by omega
  have hmask : bits (2 ^ 32 - 1) 0 64 = 2 ^ 32 - 1 := by decide
  simp only [newField, hmask, bits_zero_of_lt hold, bits_zero_of_lt hx, hstore, Nat.and_two_pow_sub_one_eq_mod]
  rw [if_neg (by decide)]
  omega

theorem registerWrite_scratch_32 (hs : Canonical s) (h : Served s) (v : Word) : Ends (.registerWrite 0 0x58 32 v) s fun t =>
    (t.reg 0x58).toNat = (s.reg 0x58).toNat / 2 ^ 32 * 2 ^ 32 + v.toNat % 2 ^ 32 := by
  have hopen (mask : Nat) : unlockedWrite s scratchReg 0x58 mask := unlocked_of_carries_none rfl
  refine ends_of_eq rfl (h.busWrite32_base (by decide) (by decide) regAt_scratch) ?_
  refine (reg_putReg_toNat hs (hopen _)).trans ((bits_newWord (f := ⟨0, 64, .rw, 0⟩) scratchReg_mem
    List.mem_cons_self).trans ?_)
  have hlow := newField_low_half (s.reg 0x58).toNat v.toNat (storedAs scratchReg.base 0 (0x58 - scratchReg.base))
    (locked s 0x58) (s.reg 0x58).isLt fun _ => rfl
  rw [hlow, Nat.mod_eq_of_lt]
  have := (s.reg 0x58).isLt
  dsimp only
  omega

/-- RO: GLB_TIME takes no write. -/
theorem registerWrite_time (hs : Canonical s) (h : Served s) (v : Word) : Ends (.registerWrite 0 0x48 64 v) s fun t =>
    t.reg 0x48 = s.reg 0x48 ∧ t.clk = s.clk := by
  have hopen (mask : Nat) : unlockedWrite s timeReg 0x48 mask := unlocked_of_carries_none rfl
  refine ends_of_eq rfl (h.busWrite64 (by decide) (by decide) regAt_time rfl) ⟨BitVec.eq_of_toNat_eq ?_, ?_⟩
  · refine (reg_putReg_toNat hs (hopen _)).trans ((bits_afterWrite_kept (f := ⟨0, 64, .ro, 0⟩) timeReg_mem
      List.mem_cons_self (.inl rfl)).trans ?_)
    exact bits_zero_of_lt (s.reg 0x48).isLt
  · exact (congrArg (·.clk) (putReg_of_unlocked (hopen _))).trans (setReg_clk _ _ _)

/-- W1C: a bit written 1 clears, a bit written 0 stays. -/
theorem newField_w1c_bit {f : RegField} {lock : Bool} {store : Nat → Nat} {old mask val : Nat} (hacc : f.access = .w1c)
    (hw : f.w = 1) (hmask : bits mask f.lo 1 = 1) : newField f lock store old mask val =
      bits old f.lo 1 - (bits old f.lo 1 &&& bits val f.lo 1) := by
  have hval : bits val f.lo 1 &&& 1 = bits val f.lo 1 := by
    rw [Nat.and_one_is_mod, Nat.mod_eq_of_lt (bits_one_lt _ _)]
  simp only [newField, hacc, hw, hmask, hval, if_neg (by decide : ¬ (1 : Nat) = 0)]

/-- A flag cleared by the bit written to it. -/
theorem flag_of_w1c {g : Field} {t : State} {x : Nat} (hg : g.w = 1)
    (h : t.fld g = s.fld g - (s.fld g &&& bits x 0 1)) : t.flag g = (s.flag g && !bitOf x 0) := by
  have hold : s.fld g < 2 := by have := fld_lt s g; rwa [hg] at this
  have hx := bits_one_lt x 0
  rw [bitOf_eq_bits_one, State.flag, State.flag, h]
  generalize s.fld g = o at *
  generalize bits x 0 1 = b at *
  interval_cases o <;> interval_cases b <;> rfl

theorem registerWrite_firstCtl (hs : Canonical s) (h : Served s) (v : Word) {k : Nat} (hk : k < 2) :
    Ends (.registerWrite 0 (0xA00120 + 0x40 * k) 32 v) s fun t =>
      t.flag (FLT_FIRST_CTL_VALID k) = (s.flag (FLT_FIRST_CTL_VALID k) && !v.getLsbD 0) := by
  refine ends_of_eq rfl (h.busWrite32_base (by omega) (by omega) (regAt_firstCtl k hk)) ?_
  rw [getLsbD_eq_bitOf]
  have hval : bits (v.toNat % 2 ^ 32) 0 1 = bits v.toNat 0 1 := bits_mod_two_pow _ (by decide)
  have hfield := newField_w1c_bit (f := ⟨0, 1, .w1c, 0⟩) (lock := locked s (0xA00120 + 0x40 * k))
    (store := storedAs firstCtlReg.base 0 (0xA00120 + 0x40 * k - firstCtlReg.base))
    (old := (s.reg (0xA00120 + 0x40 * k)).toNat) (mask := 2 ^ 32 - 1) (val := v.toNat % 2 ^ 32) rfl rfl (by decide)
  refine flag_of_w1c rfl ((fld_putReg (f := ⟨0, 1, .w1c, 0⟩) hs (unlocked_of_carries_none rfl) firstCtlReg_mem
    List.mem_cons_self).trans ((bits_newWord firstCtlReg_mem List.mem_cons_self).trans ?_))
  rw [hfield, hval]
  exact Nat.mod_eq_of_lt (Nat.lt_of_le_of_lt (Nat.sub_le _ _) (bits_one_lt _ _))

end Sys2Proof.Machine
end

section
/-! The registers whose write has a rule of its own (R71, R152, R171, R313, R354); then the statement on registers. -/

namespace Sys2Proof.Machine

variable {s : State}

/-! ### Which rule a register's write follows -/

theorem writeAt_custMap (s : State) (off mask val : Nat) :
    writeAt s custMapReg off mask val = writeCustMap s custMapReg off mask val := by simp only [writeAt, custMapReg]
theorem writeAt_ctxPages (s : State) (off mask val : Nat) :
    writeAt s ctxPagesReg off mask val = writeCtxPages s ctxPagesReg off mask val := by simp only [writeAt, ctxPagesReg]
theorem writeAt_part (s : State) (off mask val : Nat) :
    writeAt s partReg off mask val = writePart s partReg off mask val := by simp only [writeAt, partReg]
theorem writeAt_budgetA (s : State) (off mask val : Nat) :
    writeAt s budgetAReg off mask val = writeBudgetA s budgetAReg off mask val := by simp only [writeAt, budgetAReg]
theorem writeAt_budgetB (s : State) (off mask val : Nat) :
    writeAt s budgetBReg off mask val = writeBudgetB s budgetBReg off mask val := by simp only [writeAt, budgetBReg]
theorem writeAt_bank (s : State) (off mask val : Nat) :
    writeAt s bankReg off mask val = writeBank s bankReg off mask val := by simp only [writeAt, bankReg]

/-! ### SES_CUST_MAP (R71) -/

/-- A bay that holds nothing back has nothing to try again. -/
theorem retryHeld_of_empty {b : Nat} (h : (s.bay b).heldBack = []) : (retryHeld s b).regs = s.regs ∧
    (retryHeld s b).ses = s.ses ∧ ∀ k, (s.bay k).heldBack = [] → ((retryHeld s b).bay k).heldBack = [] := by
  have hkeep (u : State) (hu : ∀ k, k ≠ b → u.bay k = s.bay k) (hb : (u.bay b).heldBack = []) :
      ∀ k, (s.bay k).heldBack = [] → (u.bay k).heldBack = [] := fun k hk => by
    by_cases hkb : k = b
    · rw [hkb, hb]
    · rw [hu k hkb, hk]
  unfold retryHeld
  dsimp only
  rw [h]
  split
  · exact ⟨rfl, rfl, hkeep _ (fun k hk => setBay_other s b _ hk) (by rw [List.foldl_nil, setBay_same])⟩
  · exact ⟨rfl, rfl, hkeep _ (fun k hk => (setBay_other _ b _ hk).trans (setBay_other s b _ hk)) (by rw [setBay_same])⟩

theorem retryHeld_foldl_of_empty : ∀ (l : List Nat) {s : State}, (∀ b ∈ l, (s.bay b).heldBack = []) →
    (l.foldl retryHeld s).regs = s.regs ∧ (l.foldl retryHeld s).ses = s.ses
  | [], _, _ => ⟨rfl, rfl⟩
  | b :: l, s, h => by
    obtain ⟨hregs, hses, hheld⟩ := retryHeld_of_empty (h b List.mem_cons_self)
    obtain ⟨hregs', hses'⟩ := retryHeld_foldl_of_empty l (s := retryHeld s b) fun k hk =>
      hheld k (h k (List.mem_cons_of_mem _ hk))
    exact ⟨hregs'.trans hregs, hses'.trans hses⟩

theorem fld_of_regs {t u : State} (h : t.regs = u.regs) (g : Field) : t.fld g = u.fld g := by
  unfold State.fld State.reg
  rw [h]

section
variable {n : Nat} {v : BitVec 32}

theorem custMap_context (s : State) (n : Nat) (v : BitVec 32) :
    bits (afterWrite s custMapReg (0x201000 + 4 * n) (2 ^ 32 - 1) (v.toNat % 2 ^ 32)) 0 6 =
      bits v.toNat 0 6 :=
  (bits_afterWrite_plain (f := ⟨0, 6, .rw, 0⟩) custMapReg_mem (by simp [custMapReg]) rfl (by decide) (by decide)
    fun _ _ => rfl).trans (bits_val32 v 0 6)

theorem custMap_valid (s : State) (n : Nat) (v : BitVec 32) :
    bits (afterWrite s custMapReg (0x201000 + 4 * n) (2 ^ 32 - 1) (v.toNat % 2 ^ 32)) 6 1 =
      bits v.toNat 6 1 :=
  (bits_afterWrite_plain (f := ⟨6, 1, .rw, 0⟩) custMapReg_mem (by simp [custMapReg]) rfl (by decide) (by decide)
    fun _ _ => rfl).trans (bits_val32 v 6 1)

/-- Whether a customer has live sessions. -/
def hasLive (s : State) (n : Nat) : Prop := ∃ y ∈ s.ses.entries, y.2.customer = n ∧ y.2.state.live = true

/-- Whether a value would take a customer's mapping away. -/
def unmaps (s : State) (n : Nat) (v : BitVec 32) : Prop :=
  (s.flag (SES_CUST_MAP_VALID n) = true ∧ v.getLsbD 6 = false) ∨ bits v.toNat 0 6 ≠ s.fld (SES_CUST_MAP_CONTEXT n)

theorem hasLive_iff : (s.ses.entries.any fun y => decide (y.2.customer = n) && y.2.state.live) = true ↔ hasLive s n := by
  simp [hasLive]

/-- A mapping is refused exactly where it would take the mapping of live sessions away. -/
theorem writeCustMap_eq (s : State) (n : Nat) (v : BitVec 32) [Decidable (hasLive s n ∧ unmaps s n v)] :
    writeCustMap s custMapReg (0x201000 + 4 * n) (2 ^ 32 - 1) (v.toNat % 2 ^ 32) =
      if hasLive s n ∧ unmaps s n v then accErr s 0 (0x201000 + 4 * n) true false
      else ([0, 1, 2, 3] : List Nat).foldl retryHeld (putReg s custMapReg (0x201000 + 4 * n) (2 ^ 32 - 1)
        (v.toNat % 2 ^ 32)) := by
  have hn : (0x201000 + 4 * n - 0x201000) / 4 = n := by omega
  unfold writeCustMap
  dsimp only
  rw [hn]
  refine if_congr (and_congr hasLive_iff ?_) rfl rfl
  rw [custMap_context, bitOf_eq_bits_one, custMap_valid, ← bitOf_eq_bits_one, ← getLsbD_eq_bitOf]
  rfl

theorem sesCustMapWrite_stores (hs : Canonical s) (h : Served s) (hn : n < 4096) (hheld : ∀ b, b < 4 → (s.bay b).heldBack = [])
    (hkeep : ¬ (hasLive s n ∧ unmaps s n v)) : Ends (.sesCustMapWrite 0 n v) s fun t =>
      t.fld (SES_CUST_MAP_CONTEXT n) = bits v.toNat 0 6 ∧ t.flag (SES_CUST_MAP_VALID n) = v.getLsbD 6 ∧ t.ses = s.ses := by
  classical
  have hopen : unlockedWrite s custMapReg (0x201000 + 4 * n) (2 ^ 32 - 1) := unlocked_of_carries_none rfl
  have hput : ∀ b ∈ [0, 1, 2, 3], ((putReg s custMapReg (0x201000 + 4 * n) (2 ^ 32 - 1) (v.toNat % 2 ^ 32)).bay b).heldBack = [] := by
    intro b hb
    rw [putReg_of_unlocked hopen, setReg_at_bay]
    exact hheld b (by simp at hb; omega)
  obtain ⟨hregs, hses⟩ := retryHeld_foldl_of_empty _ hput
  refine ends_of_eq rfl ((if_pos hn).trans ((h.busWrite32_base (by omega) (by omega) (regAt_custMap hn)).trans
    ((writeAt_custMap _ _ _ _).trans ((writeCustMap_eq s n v).trans (if_neg hkeep))))) ⟨?_, ?_, hses.trans (putReg_ses hopen)⟩
  · exact (fld_of_regs hregs _).trans ((fld_putReg (f := ⟨0, 6, .rw, 0⟩) hs hopen custMapReg_mem (by simp [custMapReg])).trans
      (custMap_context s n v))
  · rw [getLsbD_eq_bitOf]
    exact flag_of_bit ((fld_of_regs hregs _).trans ((fld_putReg (f := ⟨6, 1, .rw, 0⟩) hs hopen custMapReg_mem
      (by simp [custMapReg])).trans (custMap_valid s n v)))

theorem sesCustMapWrite_refused (h : Served s) (hn : n < 4096) (hlive : hasLive s n) (hunmaps : unmaps s n v) :
    exec (.sesCustMapWrite 0 n v) s = .next (accErr s 0 (0x201000 + 4 * n) true false) := by
  classical
  exact congrArg Host.Outcome.next ((if_pos hn).trans ((h.busWrite32_base (by omega) (by omega) (regAt_custMap hn)).trans
    ((writeAt_custMap _ _ _ _).trans ((writeCustMap_eq s n v).trans (if_pos ⟨hlive, hunmaps⟩)))))

end

/-! ### SES_CTX_PAGES (R313) -/

section
variable {c : Nat} {v : Word}

/-- The reservations of the other contexts. -/
def otherPages (s : State) (c : Nat) : Nat :=
  ((List.range 64).map fun k => if k = c then 0 else s.fld (SES_CTX_PAGES_RSV_PAGES k)).sum

theorem ctxPages_reserved (s : State) (c : Nat) (v : Word) :
    bits (afterWrite s ctxPagesReg (0x200400 + 8 * c) (2 ^ 64 - 1) (v.toNat % 2 ^ 64)) 0 25 = bits v.toNat 0 25 :=
  (bits_afterWrite_plain (f := ⟨0, 25, .rw, 0⟩) ctxPagesReg_mem (by simp [ctxPagesReg]) rfl (by decide) (by decide)
    fun _ _ => rfl).trans (bits_val64 v 0 25)

/-- A reservation is refused exactly where it changes and the frames would not do. -/
theorem writeCtxPages_eq (s : State) (c : Nat) (v : Word) :
    writeCtxPages s ctxPagesReg (0x200400 + 8 * c) (2 ^ 64 - 1) (v.toNat % 2 ^ 64) =
      if bits v.toNat 0 25 ≠ s.fld (SES_CTX_PAGES_RSV_PAGES c) ∧ openFrames s < otherPages s c + bits v.toNat 0 25 then
        accErr s 0 (0x200400 + 8 * c) true false
      else putReg s ctxPagesReg (0x200400 + 8 * c) (2 ^ 64 - 1) (v.toNat % 2 ^ 64) := by
  have hc : (0x200400 + 8 * c - 0x200400) / 8 = c := by omega
  unfold writeCtxPages
  dsimp only
  rw [hc, ctxPages_reserved]
  rfl

theorem sesCtxPagesWrite_stores (hs : Canonical s) (h : Served s) (hc : c < 64)
    (hroom : bits v.toNat 0 25 = s.fld (SES_CTX_PAGES_RSV_PAGES c) ∨ otherPages s c + bits v.toNat 0 25 ≤ openFrames s) :
    Ends (.sesCtxPagesWrite 0 c v) s fun t => t.fld (SES_CTX_PAGES_RSV_PAGES c) = bits v.toNat 0 25 ∧
      t.fld (SES_CTX_PAGES_USED_PAGES c) = s.fld (SES_CTX_PAGES_USED_PAGES c) ∧ t.ses = s.ses := by
  have hopen : unlockedWrite s ctxPagesReg (0x200400 + 8 * c) (2 ^ 64 - 1) := unlocked_of_carries_none rfl
  have hfits : ¬ (bits v.toNat 0 25 ≠ s.fld (SES_CTX_PAGES_RSV_PAGES c) ∧
      openFrames s < otherPages s c + bits v.toNat 0 25) := by
    rintro ⟨hne, hlt⟩
    exact hroom.elim hne (Nat.not_le.2 hlt)
  refine ends_of_eq rfl ((if_pos hc).trans ((h.busWrite64 (by omega) (by omega) (regAt_ctxPages hc) rfl).trans
    ((writeAt_ctxPages _ _ _ _).trans ((writeCtxPages_eq s c v).trans (if_neg hfits))))) ⟨?_, ?_, putReg_ses hopen⟩
  · exact (fld_putReg (f := ⟨0, 25, .rw, 0⟩) hs hopen ctxPagesReg_mem (by simp [ctxPagesReg])).trans (ctxPages_reserved s c v)
  · exact (fld_putReg (f := ⟨32, 25, .ro, 0⟩) hs hopen ctxPagesReg_mem (by simp [ctxPagesReg])).trans
      (bits_afterWrite_kept ctxPagesReg_mem (by simp [ctxPagesReg]) (.inl rfl))

theorem sesCtxPagesWrite_refused (h : Served s) (hc : c < 64) (hne : bits v.toNat 0 25 ≠ s.fld (SES_CTX_PAGES_RSV_PAGES c))
    (hfull : openFrames s < otherPages s c + bits v.toNat 0 25) :
    exec (.sesCtxPagesWrite 0 c v) s = .next (accErr s 0 (0x200400 + 8 * c) true false) :=
  congrArg Host.Outcome.next ((if_pos hc).trans ((h.busWrite64 (by omega) (by omega) (regAt_ctxPages hc) rfl).trans
    ((writeAt_ctxPages _ _ _ _).trans ((writeCtxPages_eq s c v).trans (if_pos ⟨hne, hfull⟩)))))

end

/-! ### GAL_PART (R152) -/

section
variable {p : Nat} {v : Word}

theorem part_quires (hlock : locked s (0x301000 + 8 * p) = false) :
    bits (afterWrite s partReg (0x301000 + 8 * p) (2 ^ 64 - 1) (v.toNat % 2 ^ 64)) 0 48 = bits v.toNat 0 48 :=
  (bits_afterWrite_plain (f := ⟨0, 48, .rwl, 0⟩) partReg_mem (by simp [partReg]) (by rw [hlock]; rfl) (by decide) (by decide)
    fun _ _ => rfl).trans (bits_val64 v 0 48)

theorem part_enable (hlock : locked s (0x301000 + 8 * p) = false) :
    bits (afterWrite s partReg (0x301000 + 8 * p) (2 ^ 64 - 1) (v.toNat % 2 ^ 64)) 48 1 = bits v.toNat 48 1 :=
  (bits_afterWrite_plain (f := ⟨48, 1, .rwl, 0⟩) partReg_mem (by simp [partReg]) (by rw [hlock]; rfl) (by decide) (by decide)
    fun _ _ => rfl).trans (bits_val64 v 48 1)

/-- Whether an enabled partition other than `p` holds a quire of a set. -/
def quireTwice (s : State) (p q : Nat) : Prop :=
  ∃ k, k < 16 ∧ k ≠ p ∧ s.flag (GAL_PART_ENABLE k) = true ∧ s.fld (GAL_PART_QUIRES k) &&& q ≠ 0

theorem quireTwice_iff {q : Nat} : ((List.range 16).any fun k => decide (k ≠ p) && s.flag (GAL_PART_ENABLE k) &&
    decide (s.fld (GAL_PART_QUIRES k) &&& q ≠ 0)) = true ↔ quireTwice s p q := by
  simp [quireTwice, and_assoc]

/-- A partition is refused exactly where it would be enabled with a quire that another enabled one holds. -/
theorem writePart_eq (hlock : locked s (0x301000 + 8 * p) = false)
    [Decidable (v.getLsbD 48 = true ∧ quireTwice s p (bits v.toNat 0 48))] :
    writePart s partReg (0x301000 + 8 * p) (2 ^ 64 - 1) (v.toNat % 2 ^ 64) =
      if v.getLsbD 48 = true ∧ quireTwice s p (bits v.toNat 0 48) then accErr s 0 (0x301000 + 8 * p) true false
      else refreshErr (putReg s partReg (0x301000 + 8 * p) (2 ^ 64 - 1) (v.toNat % 2 ^ 64)) := by
  have hp : (0x301000 + 8 * p - 0x301000) / 8 = p := by omega
  unfold writePart
  dsimp only
  rw [hp, part_quires hlock]
  refine if_congr (and_congr ?_ quireTwice_iff) rfl rfl
  rw [bitOf_eq_bits_one, part_enable hlock, ← bitOf_eq_bits_one, ← getLsbD_eq_bitOf]

theorem galPartWrite_stores (hs : Canonical s) (h : Served s) (hp : p < 16) (hlock : locked s (0x301000 + 8 * p) = false)
    (honce : v.getLsbD 48 = false ∨ ¬ quireTwice s p (bits v.toNat 0 48)) :
    Ends (.galPartWrite 0 p v) s fun t => t.fld (GAL_PART_QUIRES p) = bits v.toNat 0 48 ∧
      t.flag (GAL_PART_ENABLE p) = v.getLsbD 48 := by
  classical
  have hopen : unlockedWrite s partReg (0x301000 + 8 * p) (2 ^ 64 - 1) := unlocked_of_not_locked hlock
  have hnot : ¬ (v.getLsbD 48 = true ∧ quireTwice s p (bits v.toNat 0 48)) := by
    rintro ⟨hon, htwice⟩
    rcases honce with hoff | honce
    · rw [hoff] at hon
      cases hon
    · exact honce htwice
  refine ends_of_eq rfl ((if_pos hp).trans ((h.busWrite64 (by omega) (by omega) (regAt_part hp) rfl).trans
    ((writeAt_part _ _ _ _).trans ((writePart_eq hlock).trans (if_neg hnot))))) ⟨?_, ?_⟩
  · rw [refreshErr, fld_setFld_other _ _ (by dsimp only; omega)]
    exact (fld_putReg (f := ⟨0, 48, .rwl, 0⟩) hs hopen partReg_mem (by simp [partReg])).trans (part_quires hlock)
  · rw [getLsbD_eq_bitOf]
    refine flag_of_bit ?_
    rw [refreshErr, fld_setFld_other _ _ (by dsimp only; omega)]
    exact (fld_putReg (f := ⟨48, 1, .rwl, 0⟩) hs hopen partReg_mem (by simp [partReg])).trans (part_enable hlock)

theorem galPartWrite_refused (h : Served s) (hp : p < 16) (hlock : locked s (0x301000 + 8 * p) = false)
    (hon : v.getLsbD 48 = true) (htwice : quireTwice s p (bits v.toNat 0 48)) :
    exec (.galPartWrite 0 p v) s = .next (accErr s 0 (0x301000 + 8 * p) true false) := by
  classical
  exact congrArg Host.Outcome.next ((if_pos hp).trans ((h.busWrite64 (by omega) (by omega) (regAt_part hp) rfl).trans
    ((writeAt_part _ _ _ _).trans ((writePart_eq hlock).trans (if_pos ⟨hon, htwice⟩)))))

end

/-! ### Budgets (R171) -/

section
variable {n : Nat}

theorem Canonical.budgetFill (hs : Canonical s) (n : Nat) : Canonical (budgetFill s n) := hs.of_kept (budgetFill_kept s n)

theorem budgetFill_reg (s : State) (n : Nat) {o : Nat} (ho : o ≠ 0x310008 + 0x10 * n) : (budgetFill s n).reg o = s.reg o := by
  unfold Machine.budgetFill
  split
  · exact reg_setFld_other s _ ho
  · rfl

/-- The budget's high half with ENABLE written 1. -/
def enabledBudget (s : State) (n : Nat) : State :=
  putReg (budgetFill s n) budgetBReg (0x310008 + 16 * n) ((2 ^ 32 - 1) * 2 ^ (8 * 4)) (1 % 2 ^ 32 * 2 ^ (8 * 4))

theorem writeBudgetB_eq (s : State) (n : Nat) :
    writeBudgetB s budgetBReg (0x310008 + 16 * n) ((2 ^ 32 - 1) * 2 ^ (8 * 4)) (1 % 2 ^ 32 * 2 ^ (8 * 4)) =
      let t := enabledBudget s n
      if (!s.flag (GAL_BUDGET_B_ENABLE n) && t.flag (GAL_BUDGET_B_ENABLE n)) = true then
        (t.setFld (GAL_BUDGET_B_LEVEL n) (t.fld (GAL_BUDGET_A_DEPTH n))).setBudget n (0, t.now)
      else t := by
  have hn : (0x310008 + 16 * n - 0x310008) / 16 = n := by omega
  unfold writeBudgetB
  dsimp only
  rw [hn]
  rfl

theorem Canonical.enabledBudget (hs : Canonical s) (n : Nat) : Canonical (enabledBudget s n) := (hs.budgetFill n).putReg _ _ _ _

theorem enabledBudget_enable (hs : Canonical s) (n : Nat) : (enabledBudget s n).fld (GAL_BUDGET_B_ENABLE n) = 1 :=
  (fld_putReg (f := ⟨32, 1, .rw, 0⟩) (hs.budgetFill n) (unlocked_of_carries_none rfl) budgetBReg_mem
    (by simp [budgetBReg])).trans (bits_afterWrite_plain (f := ⟨32, 1, .rw, 0⟩) budgetBReg_mem (by simp [budgetBReg]) rfl
      (by decide) (by decide) fun _ _ => rfl)

theorem enabledBudget_depth (s : State) (n : Nat) :
    (enabledBudget s n).fld (GAL_BUDGET_A_DEPTH n) = s.fld (GAL_BUDGET_A_DEPTH n) :=
  fld_of_reg ((putReg_reg_other (unlocked_of_carries_none rfl) (by dsimp only; omega)).trans
    (budgetFill_reg s n (by dsimp only; omega)))

theorem galBudgetEnable_fills (hs : Canonical s) (h : Served s) (hn : n < 4096) :
    Ends (.galBudgetEnable n) s fun t => t.flag (GAL_BUDGET_B_ENABLE n) = true ∧
      (s.flag (GAL_BUDGET_B_ENABLE n) = false → t.fld (GAL_BUDGET_B_LEVEL n) = s.fld (GAL_BUDGET_A_DEPTH n)) := by
  have hon : (enabledBudget s n).flag (GAL_BUDGET_B_ENABLE n) = true := by
    rw [flag_eq_true, enabledBudget_enable hs]
    decide
  have heq := (h.busWrite32 (v := 1) (by omega) (by omega) (regAt_budgetB_high hn)).trans
    ((writeAt_budgetB _ _ _ _).trans (writeBudgetB_eq s n))
  cases hwas : s.flag (GAL_BUDGET_B_ENABLE n) with
  | true => exact ends_of_eq rfl ((if_pos hn).trans (heq.trans (if_neg (by simp [hwas])))) ⟨hon, fun h => by cases h⟩
  | false =>
    have hb := hs.enabledBudget n
    refine ends_of_eq rfl ((if_pos hn).trans (heq.trans (if_pos (by simp [hwas, hon])))) ⟨?_, fun _ => ?_⟩
    · rw [setBudget_at_flag, flag_of_fld (fld_setFld_disjoint _ (by simp) hb.regs (.inl (by simp)))]
      exact hon
    · rw [setBudget_at_fld, enabledBudget_depth]
      exact fld_setFld_of_lt hb (by simp) (fld_lt s (GAL_BUDGET_A_DEPTH n))

/-- The budget's depth written, its level brought up to now at the old rate. -/
def deepenedBudget (s : State) (n : Nat) (v : BitVec 32) : State :=
  putReg (budgetFill s n) budgetAReg (0x310000 + 16 * n) ((2 ^ 32 - 1) * 2 ^ (8 * 4)) (v.toNat % 2 ^ 32 * 2 ^ (8 * 4))

theorem writeBudgetA_eq (s : State) (n : Nat) (v : BitVec 32) :
    writeBudgetA s budgetAReg (0x310000 + 16 * n) ((2 ^ 32 - 1) * 2 ^ (8 * 4)) (v.toNat % 2 ^ 32 * 2 ^ (8 * 4)) =
      let t := deepenedBudget s n v
      t.setFld (GAL_BUDGET_B_LEVEL n) (min (t.fld (GAL_BUDGET_A_DEPTH n)) (t.fld (GAL_BUDGET_B_LEVEL n))) := by
  have hn : (0x310000 + 16 * n - 0x310000) / 16 = n := by omega
  unfold writeBudgetA
  dsimp only
  rw [hn]
  rfl

theorem bits_val32_high (v : BitVec 32) : bits (v.toNat % 2 ^ 32 * 2 ^ (8 * 4)) 32 32 = v.toNat := by
  rw [bits, Nat.mul_div_cancel _ (by decide), Nat.mod_mod, Nat.mod_eq_of_lt v.isLt]

theorem deepenedBudget_depth (hs : Canonical s) (n : Nat) (v : BitVec 32) :
    (deepenedBudget s n v).fld (GAL_BUDGET_A_DEPTH n) = v.toNat :=
  (fld_putReg (f := ⟨32, 32, .rw, 0⟩) (hs.budgetFill n) (unlocked_of_carries_none rfl) budgetAReg_mem
    (by simp [budgetAReg])).trans ((bits_afterWrite_plain (f := ⟨32, 32, .rw, 0⟩) budgetAReg_mem (by simp [budgetAReg]) rfl
      (by decide) (by decide) fun _ _ => rfl).trans (bits_val32_high v))

theorem deepenedBudget_rate (hs : Canonical s) (n : Nat) (v : BitVec 32) :
    (deepenedBudget s n v).fld (GAL_BUDGET_A_RATE n) = s.fld (GAL_BUDGET_A_RATE n) :=
  (fld_putReg (f := ⟨0, 32, .rw, 0⟩) (hs.budgetFill n) (unlocked_of_carries_none rfl) budgetAReg_mem
    (by simp [budgetAReg])).trans ((bits_afterWrite_kept (f := ⟨0, 32, .rw, 0⟩) budgetAReg_mem (by simp [budgetAReg])
      (.inr (by decide))).trans (fld_of_reg (budgetFill_reg s n (by dsimp only; omega))))

theorem galBudgetDepthWrite_clips (hs : Canonical s) (h : Served s) (hn : n < 4096) (v : BitVec 32) :
    Ends (.galBudgetDepthWrite n v) s fun t => t.fld (GAL_BUDGET_A_DEPTH n) = v.toNat ∧
      t.fld (GAL_BUDGET_A_RATE n) = s.fld (GAL_BUDGET_A_RATE n) ∧ t.fld (GAL_BUDGET_B_LEVEL n) ≤ v.toNat := by
  have hd : Canonical (deepenedBudget s n v) := (hs.budgetFill n).putReg _ _ _ _
  refine ends_of_eq rfl ((if_pos hn).trans ((h.busWrite32 (by omega) (by omega) (regAt_budgetA_high hn)).trans
    ((writeAt_budgetA _ _ _ _).trans (writeBudgetA_eq s n v)))) ⟨?_, ?_, ?_⟩
  · rw [fld_setFld_other _ _ (by dsimp only; omega), deepenedBudget_depth hs]
  · rw [fld_setFld_other _ _ (by dsimp only; omega), deepenedBudget_rate hs]
  · rw [fld_setFld_of_lt hd (by simp) (Nat.lt_of_le_of_lt (Nat.min_le_right _ _) (fld_lt _ _)), deepenedBudget_depth hs]
    exact Nat.min_le_left _ _

end

/-! ### CAM_CFG (R354) -/

section
variable {b k o : Nat}

/-- The bank's configuration with its low half written. -/
def ownedBank (s : State) (b v : Nat) : State := putReg s bankReg (0x600000 + 8 * b) (2 ^ 32 - 1) (v % 2 ^ 32)

/-- Whether or not the entries are invalidated, the fields below VALID_ENTRIES are as written. -/
theorem writeBank_fld (hs : Canonical s) (v : Nat) {g : Field} (hg : g.lo + g.w ≤ 17) :
    (writeBank s bankReg (0x600000 + 8 * b) (2 ^ 32 - 1) (v % 2 ^ 32)).fld g = (ownedBank s b v).fld g := by
  have hown : Canonical (ownedBank s b v) := hs.putReg _ _ _ _
  have hb : (0x600000 + 8 * b - 0x600000) / 8 = b := by omega
  unfold writeBank
  dsimp only
  rw [hb, ← ownedBank]
  split
  · rfl
  · rw [invalidate, fld_setFld_disjoint 0 (by simp) (hown.of_kept (setBank_kept _ _ _)).regs (.inr hg), setBank_at_fld]

theorem ownedBank_written (hs : Canonical s) {f : RegField} {v : Nat} (hf : f ∈ bankReg.fields)
    (hacc : f.writable (locked s (0x600000 + 8 * b)) = true) (hmask : bits (2 ^ 32 - 1) f.lo f.w = 2 ^ f.w - 1) (hw : 0 < f.w) :
    (ownedBank s b v).fld ⟨0x600000 + 8 * b, f.lo, f.w⟩ =
      storedAs 0x600000 f.lo (0x600000 + 8 * b - 0x600000) (bits (v % 2 ^ 32) f.lo f.w) % 2 ^ f.w :=
  (fld_putReg hs (unlocked_of_carries_none rfl) bankReg_mem hf).trans (bits_afterWrite_written bankReg_mem hf hacc hmask hw)

theorem camOwnerWrite_stores (hs : Canonical s) (h : Served s) (hb : b < 32) (hk : k < 3) (ho : o < 64) :
    Ends (.camOwnerWrite 0 b k o) s fun t => t.fld (CAM_CFG_OWNER_KIND b) = k ∧ t.fld (CAM_CFG_OWNER b) = o ∧
      t.fld (CAM_CFG_WIDTH b) = s.fld (CAM_CFG_WIDTH b) := by
  have hkind : bits ((k % 4 + o % 64 * 4) % 2 ^ 32) 0 2 = k := by unfold bits; omega
  have howner : bits ((k % 4 + o % 64 * 4) % 2 ^ 32) 2 6 = o := by unfold bits; omega
  refine ends_of_eq rfl ((if_pos hb).trans ((h.busWrite32_base (by omega) (by omega) (regAt_bank hb)).trans
    (writeAt_bank _ _ _ _))) ⟨?_, ?_, ?_⟩
  · rw [writeBank_fld hs _ (by simp)]
    refine (ownedBank_written (f := ⟨0, 2, .rw, 0⟩) hs (by simp [bankReg]) rfl (by decide) (by decide)).trans ?_
    have hstore : storedAs 0x600000 0 (0x600000 + 8 * b - 0x600000) k = k := if_neg (by omega)
    rw [hkind, hstore]
    exact Nat.mod_eq_of_lt (by dsimp only; omega)
  · rw [writeBank_fld hs _ (by simp)]
    refine (ownedBank_written (f := ⟨2, 6, .rw, 0⟩) hs (by simp [bankReg]) rfl (by decide) (by decide)).trans ?_
    rw [howner]
    exact Nat.mod_eq_of_lt ho
  · rw [writeBank_fld hs _ (by simp)]
    exact (fld_putReg (f := ⟨8, 2, .ro, 0⟩) hs (unlocked_of_carries_none rfl) bankReg_mem (by simp [bankReg])).trans
      (bits_afterWrite_kept bankReg_mem (by simp [bankReg]) (.inl rfl))

end

/-! ### The statement -/

/-- Settles O57: each clause is a law above of a refused access, of a read, or of one register's write. -/
theorem registersAreReadAndWritten : Obligations.RegistersAreReadAndWritten := by
  unfold Obligations.RegistersAreReadAndWritten
  intro s hs hub
  refine ⟨fun fn off width v wr hreach hbad => ?_, fun fn off width wr hok => ?_, fun hreach => ?_,
    fun fn off v hfn hreach habove hal => ?_⟩
  · have hbad := accessOk_eq_false.2 hbad
    exact ⟨misalignedBar0Access_recorded hs hreach hbad wr, registerWrite_recorded hs hreach hbad v,
      registerReadClear_recorded hs hreach hbad⟩
  · exact exec_unchanged rfl (if_pos (accessOk_iff.2 hok))
  · have h : Served s := ⟨hreach, hub⟩
    refine ⟨fun off d l hat hforme => ⟨fun hbits hal => ⟨registerReadClear_64 h hat hforme hbits hal,
        registerLowHalfRead_latches h hat hforme hbits hal⟩, fun hbits hal => registerReadClear_32 h hat hforme hbits hal⟩,
      fun v => ⟨registerWrite_scratch_64 hs h v, registerWrite_scratch_32 hs h v, registerWrite_time hs h v,
        fun k hk => registerWrite_firstCtl hs h v hk⟩,
      fun n v hn hheld => ⟨sesCustMapWrite_stores hs h hn hheld, sesCustMapWrite_refused h hn⟩,
      fun c v hc => ⟨sesCtxPagesWrite_stores hs h hc, sesCtxPagesWrite_refused h hc⟩,
      fun p v hp hlock => ⟨galPartWrite_refused h hp hlock, galPartWrite_stores hs h hp hlock⟩,
      fun n hn => galBudgetEnable_fills hs h hn, fun n v hn => galBudgetDepthWrite_clips hs h hn v,
      fun b k o hb hk ho => camOwnerWrite_stores hs h hb hk ho⟩
  · exact congrArg Host.Outcome.next (busWrite_above_window hreach (accessOk_iff.2 (.inr ⟨rfl, hal⟩)) hfn habove v.toNat)

end Sys2Proof.Machine
end

section
/-! The session table as later proofs read it: what a read gives after an update, which operations leave the table alone, and how
an item ends for a session that its handle names. -/

namespace Sys2Proof.Machine

variable {s t : State} {i : Nat} {e : Session}

/-! ### Updates of an entry (R41) -/

/-- An entry as one update of the table leaves it. -/
def Session.written (e : Session) : Session :=
  { e with updateSeq := (e.updateSeq + 1) % 2 ^ 32, checkBad := false, shadowBad := false, mirrored := true }

@[simp] theorem Session.written_instar (e : Session) : e.written.instar = e.instar := rfl
@[simp] theorem Session.written_state (e : Session) : e.written.state = e.state := rfl
@[simp] theorem Session.written_tier (e : Session) : e.written.tier = e.tier := rfl
@[simp] theorem Session.written_context (e : Session) : e.written.context = e.context := rfl
@[simp] theorem Session.written_queue (e : Session) : e.written.queue = e.queue := rfl
@[simp] theorem Session.written_tag (e : Session) : e.written.tag = e.tag := rfl
@[simp] theorem Session.written_tokens (e : Session) : e.written.tokens = e.tokens := rfl
@[simp] theorem Session.written_generated (e : Session) : e.written.generated = e.generated := rfl
@[simp] theorem Session.written_history (e : Session) : e.written.history = e.history := rfl
@[simp] theorem Session.written_kv (e : Session) : e.written.kv = e.kv := rfl
@[simp] theorem Session.written_recur (e : Session) : e.written.recur = e.recur := rfl
@[simp] theorem Session.written_aux (e : Session) : e.written.aux = e.aux := rfl
@[simp] theorem Session.written_transcriptPages (e : Session) : e.written.transcriptPages = e.transcriptPages := rfl
@[simp] theorem Session.written_transcriptBytes (e : Session) : e.written.transcriptBytes = e.transcriptBytes := rfl
@[simp] theorem Session.written_segs (e : Session) : e.written.segs = e.segs := rfl
@[simp] theorem Session.written_kvPages (e : Session) : e.written.kvPages = e.kvPages := rfl
@[simp] theorem Session.written_dirtyPages (e : Session) : e.written.dirtyPages = e.dirtyPages := rfl
@[simp] theorem Session.written_kvRoot (e : Session) : e.written.kvRoot = e.kvRoot := rfl
@[simp] theorem Session.written_recurRoot (e : Session) : e.written.recurRoot = e.recurRoot := rfl
@[simp] theorem Session.written_p3 (e : Session) : e.written.p3 = e.p3 := rfl
@[simp] theorem Session.written_p2 (e : Session) : e.written.p2 = e.p2 := rfl
@[simp] theorem Session.written_park (e : Session) : e.written.park = e.park := rfl
@[simp] theorem Session.written_parkBusy (e : Session) : e.written.parkBusy = e.parkBusy := rfl
@[simp] theorem Session.written_deferred (e : Session) : e.written.deferred = e.deferred := rfl
@[simp] theorem Session.written_rev (e : Session) : e.written.rev = e.rev := rfl
@[simp] theorem Session.written_reviveBusy (e : Session) : e.written.reviveBusy = e.reviveBusy := rfl
@[simp] theorem Session.written_mig (e : Session) : e.written.mig = e.mig := rfl
@[simp] theorem Session.written_cancel (e : Session) : e.written.cancel = e.cancel := rfl
@[simp] theorem Session.written_cancelReq (e : Session) : e.written.cancelReq = e.cancelReq := rfl
@[simp] theorem Session.written_ending (e : Session) : e.written.ending = e.ending := rfl
@[simp] theorem Session.written_endReq (e : Session) : e.written.endReq = e.endReq := rfl
@[simp] theorem Session.written_holdReq (e : Session) : e.written.holdReq = e.holdReq := rfl
@[simp] theorem Session.written_holdReason (e : Session) : e.written.holdReason = e.holdReason := rfl
@[simp] theorem Session.written_seqValid (e : Session) : e.written.seqValid = e.seqValid := rfl
@[simp] theorem Session.written_seqSlot (e : Session) : e.written.seqSlot = e.seqSlot := rfl
@[simp] theorem Session.written_genLimit (e : Session) : e.written.genLimit = e.genLimit := rfl
@[simp] theorem Session.written_runAfter (e : Session) : e.written.runAfter = e.runAfter := rfl
@[simp] theorem Session.written_expectTime (e : Session) : e.written.expectTime = e.expectTime := rfl
@[simp] theorem Session.written_deadline (e : Session) : e.written.deadline = e.deadline := rfl
@[simp] theorem Session.written_graceAt (e : Session) : e.written.graceAt = e.graceAt := rfl
@[simp] theorem Session.written_overdueDone (e : Session) : e.written.overdueDone = e.overdueDone := rfl
@[simp] theorem Session.written_deadlineDone (e : Session) : e.written.deadlineDone = e.deadlineDone := rfl
@[simp] theorem Session.written_contract (e : Session) : e.written.contract = e.contract := rfl
@[simp] theorem Session.written_lastStatus (e : Session) : e.written.lastStatus = e.lastStatus := rfl
@[simp] theorem Session.written_lender (e : Session) : e.written.lender = e.lender := rfl
@[simp] theorem Session.written_bay (e : Session) : e.written.bay = e.bay := rfl
@[simp] theorem Session.written_moved (e : Session) : e.written.moved = e.moved := rfl
@[simp] theorem Session.written_link (e : Session) : e.written.link = e.link := rfl
@[simp] theorem Session.written_oldInstar (e : Session) : e.written.oldInstar = e.oldInstar := rfl
@[simp] theorem Session.written_prio (e : Session) : e.written.prio = e.prio := rfl
@[simp] theorem Session.written_vocab (e : Session) : e.written.vocab = e.vocab := rfl
@[simp] theorem Session.written_model (e : Session) : e.written.model = e.model := rfl
@[simp] theorem Session.written_bound (e : Session) : e.written.bound = e.bound := rfl
@[simp] theorem Session.written_tombstone (e : Session) : e.written.tombstone = e.tombstone := rfl
@[simp] theorem Session.written_listFrames (e : Session) : e.written.listFrames = e.listFrames := rfl
@[simp] theorem Session.written_refs (e : Session) : e.written.refs = e.refs := rfl

theorem ses_setSes_same (s : State) (i : Nat) (e : Session) : (s.setSes i e).ses? i = some e.written := by
  simp [State.setSes, State.ses?, Session.written]

theorem stampStatus_of_ses (h : s.ses? i = some e) (st : Nat) : stampStatus s i st = s.setSes i { e with lastStatus := st } := by
  simp [stampStatus, h]

theorem stampStatus_same (h : s.ses? i = some e) (st : Nat) :
    (stampStatus s i st).ses? i = some ({ e with lastStatus := st } : Session).written := by
  rw [stampStatus_of_ses h, ses_setSes_same]

theorem stampStatus_other (s : State) (i st : Nat) {k : Nat} (hk : k ≠ i) : (stampStatus s i st).ses? k = s.ses? k := by
  unfold stampStatus
  split
  · rfl
  · exact setSes_other s i _ hk

/-- LAST_STATUS is all that `stampStatus` writes: of everything that reads no entry it leaves what was there. -/
theorem stampStatus_upd (s : State) (i st : Nat) :
    ∃ m, stampStatus s i st = { s with ses := { s.ses with entries := m } } := by
  unfold stampStatus
  split <;> exact ⟨_, rfl⟩

@[simp] theorem stampStatus_regs (s : State) (i st : Nat) : (stampStatus s i st).regs = s.regs := by
  obtain ⟨m, h⟩ := stampStatus_upd s i st; rw [h]
@[simp] theorem stampStatus_hbm (s : State) (i st : Nat) : (stampStatus s i st).hbm = s.hbm := by
  obtain ⟨m, h⟩ := stampStatus_upd s i st; rw [h]
@[simp] theorem stampStatus_gal (s : State) (i st : Nat) : (stampStatus s i st).gal = s.gal := by
  obtain ⟨m, h⟩ := stampStatus_upd s i st; rw [h]
@[simp] theorem stampStatus_fab (s : State) (i st : Nat) : (stampStatus s i st).fab = s.fab := by
  obtain ⟨m, h⟩ := stampStatus_upd s i st; rw [h]
@[simp] theorem stampStatus_freeList (s : State) (i st : Nat) : (stampStatus s i st).ses.freeList = s.ses.freeList := by
  obtain ⟨m, h⟩ := stampStatus_upd s i st; rw [h]
@[simp] theorem stampStatus_freeInstar (s : State) (i st : Nat) : (stampStatus s i st).ses.freeInstar = s.ses.freeInstar := by
  obtain ⟨m, h⟩ := stampStatus_upd s i st; rw [h]
@[simp] theorem stampStatus_devAddr (s : State) (i st : Nat) : (stampStatus s i st).devAddr = s.devAddr := by
  obtain ⟨m, h⟩ := stampStatus_upd s i st; rw [h]; rfl

theorem handleOf_congr (hd : t.devAddr = s.devAddr) {e' : Session} (hi : e'.instar = e.instar) :
    handleOf t i e' = handleOf s i e := by
  unfold handleOf
  rw [hd, hi]

/-! ### What leaves the table alone: completions, notices, faults, counters (R41, R535) -/

@[simp] theorem queueError_ses (s : State) (c q st : Nat) : (queueError s c q st).ses = s.ses := rfl

@[simp] theorem writeEntry_ses (s : State) (c q : Nat) (x : Completion) : (writeEntry s c q x).ses = s.ses := by
  unfold writeEntry; dsimp only; split_ifs <;> simp

@[simp] theorem post_ses (s : State) (c q : Nat) (x : Completion) : (post s c q x).ses = s.ses := by
  unfold post; dsimp only; split_ifs <;> simp

@[simp] theorem complete_ses (s : State) (src : Src) (op st : Nat) (r o g : Word) : (complete s src op st r o g).ses = s.ses := by
  unfold complete; dsimp only; split_ifs <;> simp

@[simp] theorem completeFail_ses (s : State) (src : Src) (op st : Nat) (o g : Word) :
    (completeFail s src op st o g).ses = s.ses := by
  simp [completeFail]

@[simp] theorem notice_ses (s : State) (c q reason st : Nat) (r o g : Word) : (notice s c q reason st r o g).ses = s.ses := by
  simp [notice]

@[simp] theorem fault_ses (s : State) (source kind st : Nat) (a : Word) (m x : Nat) : (fault s source kind st a m x).ses = s.ses := by
  obtain ⟨r, f, h⟩ := fault_upd s source kind st a m x; rw [h]

@[simp] theorem showBorrowed_ses (s : State) : (showBorrowed s).ses = s.ses := rfl

theorem ses?_of_ses (h : t.ses = s.ses) (k : Nat) : t.ses? k = s.ses? k := by
  unfold State.ses?
  rw [h]

@[simp] theorem complete_at_ses (s : State) (src : Src) (op st : Nat) (r o g : Word) (k : Nat) :
    (complete s src op st r o g).ses? k = s.ses? k := ses?_of_ses (complete_ses ..) k
@[simp] theorem fault_at_ses (s : State) (source kind st : Nat) (a : Word) (m x k : Nat) :
    (fault s source kind st a m x).ses? k = s.ses? k := ses?_of_ses (fault_ses ..) k
@[simp] theorem notice_at_ses (s : State) (c q reason st : Nat) (r o g : Word) (k : Nat) :
    (notice s c q reason st r o g).ses? k = s.ses? k := ses?_of_ses (notice_ses ..) k
@[simp] theorem showBorrowed_at_ses (s : State) (k : Nat) : (showBorrowed s).ses? k = s.ses? k := rfl

/-! ### Notices of a session (R41, R63, R535) -/

/-- A notice leaves its session's entry with its status in LAST_STATUS; of a cancelled session, as it was. -/
theorem sesNotice_same (h : s.ses? i = some e) (reason st : Nat) (r : Word) : (sesNotice s i reason st r).ses? i =
    some (if e.cancelReq then e else ({ e with lastStatus := st } : Session).written) := by
  unfold sesNotice
  rw [h]
  dsimp only
  split_ifs
  · exact h
  · rw [notice_at_ses, ses_setSes_same]

theorem sesNoticeFree_same (h : s.ses? i = some e) (reason st : Nat) : (sesNoticeFree s i reason st).ses? i =
    some (if e.cancelReq then e else ({ e with lastStatus := st } : Session).written) :=
  sesNotice_same (s := s.draw.2) h reason st _

/-! ### How an item ends (R31, R39, R41, R45, R535, R561, R581) -/

section
variable {src : Src} {op st : Nat} {r o g : Word}

variable {body : State → State × Reply} {early : Bool}

theorem runItem_done (hgo : ItemGo s src) (hb : body s = (t, .done st r o g)) :
    runItem s src op body early = complete t src op st r o g := by
  rw [runItem, if_neg (by simp [hgo.1]), if_neg (by simp [hgo.2]), hb]

theorem runItem_fail (hgo : ItemGo s src) (hb : body s = (t, .fail st o g)) :
    runItem s src op body early = completeFail t src op st o g := by
  rw [runItem, if_neg (by simp [hgo.1]), if_neg (by simp [hgo.2]), hb]

theorem runItem_later (hgo : ItemGo s src) (hb : body s = (t, .later)) : runItem s src op body early = t := by
  rw [runItem, if_neg (by simp [hgo.1]), if_neg (by simp [hgo.2]), hb]

end

section
variable {src : Src} {op st : Nat} {r o g h : Word} {moved ended faulted stamp : Bool} {body : Nat → Session → State → State × Reply}

/-- The body of a session item runs on the entry that its handle names, unless that entry is ENDED or FAULTED and the item does
not act on such a session. -/
theorem sesBody_of_handle (hh : Handle s src h i e) (hend : e.state = .ended → ended = true)
    (hflt : e.state = .faulted → faulted = true) :
    sesBody src h moved ended faulted stamp body s = sesReply i h e.tag stamp (body i e s) := by
  obtain ⟨hdev, hidx, hses, hans, hcheck, hmoved⟩ := hh
  have hchk : checkEntry s i e = (s, some e) := by simp [checkEntry, hcheck]
  unfold sesBody
  simp only [hdev, hidx, hses, hans, hchk, hmoved, ne_eq, not_true_eq_false, if_false, Bool.not_true, Bool.false_and]
  rw [if_neg (by simp), if_neg (by simp), if_neg (by simpa using hend), if_neg (by simpa using hflt)]

variable (hgo : ItemGo s src) (hh : Handle s src h i e) (hend : e.state = .ended → ended = true)
  (hflt : e.state = .faulted → faulted = true)
include hgo hh hend hflt

theorem sesItem_done (hb : body i e s = (t, .done st r o g)) :
    sesItem s src op h body moved ended faulted true = complete (stampStatus t i st) src op st r h e.tag :=
  runItem_done hgo (by rw [sesBody_of_handle hh hend hflt, hb]; rfl)

theorem sesItem_unstamped (hb : body i e s = (t, .done st r o g)) :
    sesItem s src op h body moved ended faulted false = complete t src op st r h e.tag :=
  runItem_done hgo (by rw [sesBody_of_handle hh hend hflt, hb]; rfl)

theorem sesItem_fail (hb : body i e s = (t, .fail st o g)) :
    sesItem s src op h body moved ended faulted true = completeFail (stampStatus t i st) src op st h e.tag :=
  runItem_fail hgo (by rw [sesBody_of_handle hh hend hflt, hb]; rfl)

theorem sesItem_later (hb : body i e s = (t, .later)) : sesItem s src op h body moved ended faulted stamp = t :=
  runItem_later hgo (by rw [sesBody_of_handle hh hend hflt, hb]; rfl)

end

section
variable {c : Instr} {src : Src} {op st : Nat} {r o g h : Word} {moved ended faulted stamp : Bool}
  {body : Nat → Session → State → State × Reply}
variable (hgo : ItemGo s src) (hh : Handle s src h i e) (hend : e.state ≠ .ended) (hflt : e.state ≠ .faulted)
include hgo hh hend hflt

/-! An item of a session that is neither ENDED nor FAULTED. -/

theorem completes_of_done (hexec : exec c s = .next (sesItem s src op h body moved ended faulted))
    (hb : body i e s = (t, .done st r o g)) : Completes c s src op st r h e.tag (stampStatus t i st) :=
  hexec.trans (congrArg _ (sesItem_done hgo hh (absurd · hend) (absurd · hflt) hb))

theorem exec_of_fail (hexec : exec c s = .next (sesItem s src op h body moved ended faulted))
    (hb : body i e s = (t, .fail st o g)) : exec c s = .next (completeFail (stampStatus t i st) src op st h e.tag) :=
  hexec.trans (congrArg _ (sesItem_fail hgo hh (absurd · hend) (absurd · hflt) hb))

theorem exec_of_later (hexec : exec c s = .next (sesItem s src op h body moved ended faulted stamp))
    (hb : body i e s = (t, .later)) : exec c s = .next t :=
  hexec.trans (congrArg _ (sesItem_later hgo hh (absurd · hend) (absurd · hflt) hb))

end

end Sys2Proof.Machine
end

section
/-! Page frames: what allocating, holding and releasing them leaves of the state (R286 to R291). -/

namespace Sys2Proof.Machine

variable {s t : State}

/-! ### Allocation -/

/-- What an allocation may write: registers and the table of frames. -/
def AllocFrom (s t : State) : Prop := ∃ r m, t = { s with regs := r, ses := { s.ses with frames := m } }

theorem AllocFrom.refl (s : State) : AllocFrom s s := ⟨_, _, rfl⟩

theorem AllocFrom.trans {u : State} (h : AllocFrom s t) (h' : AllocFrom t u) : AllocFrom s u := by
  obtain ⟨r, m, rfl⟩ := h
  obtain ⟨r', m', rfl⟩ := h'
  exact ⟨r', m', rfl⟩

theorem AllocFrom.hbm (h : AllocFrom s t) : t.hbm = s.hbm := by
  obtain ⟨r, m, rfl⟩ := h
  rfl

theorem AllocFrom.ses? (h : AllocFrom s t) (k : Nat) : t.ses? k = s.ses? k := by
  obtain ⟨r, m, rfl⟩ := h
  rfl

section
variable {c kind near owner f n : Nat} {fs : List Nat}

theorem allocFrame_eq (h : allocFrame s c kind near owner = some (f, t)) : ∃ m,
    t = (({ s with ses := { s.ses with frames := m } } : State).decFld SES_KV_FREE_FREE 1).incWrap (SES_CTX_PAGES_USED_PAGES c) 1 := by
  unfold allocFrame at h
  split at h
  · obtain ⟨f', -, hf⟩ := Option.map_eq_some_iff.1 h
    exact ⟨_, (congrArg Prod.snd hf).symm⟩
  · exact absurd h (by simp)

theorem allocFrame_from (h : allocFrame s c kind near owner = some (f, t)) : AllocFrom s t := by
  obtain ⟨m, rfl⟩ := allocFrame_eq h
  exact ⟨_, _, rfl⟩

/-- An allocation counts in SES_KV_FREE and SES_CTX_PAGES and writes no other register. -/
theorem allocFrame_reg (h : allocFrame s c kind near owner = some (f, t)) {o : Nat} (ho : o < 0x200000) : t.reg o = s.reg o := by
  obtain ⟨m, rfl⟩ := allocFrame_eq h
  rw [State.incWrap, reg_setFld_other _ _ (by dsimp only; omega), State.decFld, reg_setFld_other _ _ (by dsimp only; omega)]
  rfl

theorem allocFrames_succ (h : allocFrames c kind near owner (n + 1) s = some (fs, t)) : ∃ f gs u,
    allocFrame s c kind near owner = some (f, u) ∧ allocFrames c kind near owner n u = some (gs, t) ∧ fs = f :: gs := by
  rw [allocFrames] at h
  split at h
  · exact absurd h (by simp)
  · next f u hf =>
    obtain ⟨⟨gs, t'⟩, hgs, heq⟩ := Option.map_eq_some_iff.1 h
    cases heq
    exact ⟨f, gs, u, hf, hgs, rfl⟩

theorem allocFrames_from : ∀ {n : Nat} {s : State} {fs : List Nat}, allocFrames c kind near owner n s = some (fs, t) → AllocFrom s t
  | 0, s, fs, h => by
    rw [allocFrames] at h
    cases h
    exact .refl _
  | n + 1, s, fs, h => by
    obtain ⟨f, gs, u, hf, hgs, -⟩ := allocFrames_succ h
    exact (allocFrame_from hf).trans (allocFrames_from hgs)

theorem allocFrames_reg {o : Nat} (ho : o < 0x200000) : ∀ {n : Nat} {s : State} {fs : List Nat},
    allocFrames c kind near owner n s = some (fs, t) → t.reg o = s.reg o
  | 0, s, fs, h => by
    rw [allocFrames] at h
    cases h
    rfl
  | n + 1, s, fs, h => by
    obtain ⟨f, gs, u, hf, hgs, -⟩ := allocFrames_succ h
    rw [allocFrames_reg ho hgs, allocFrame_reg hf ho]

end

/-! ### Release -/

/-- What a release of frames may write: registers, the table of frames, and page references of entries (R56). -/
def ReleaseFrom (s t : State) : Prop := ∃ r m x, t = { s with regs := r, ses := { s.ses with frames := m, entries := x } }

theorem freeFrame_from (s : State) (f : Nat) : ReleaseFrom s (freeFrame s f) := by
  unfold freeFrame
  split
  · exact ⟨_, _, _, rfl⟩
  · dsimp only
    split_ifs <;> exact ⟨_, _, _, rfl⟩

theorem freeFrames_from (fs : List Nat) : ∀ s : State, ReleaseFrom s (freeFrames s fs) := by
  induction fs with
  | nil => exact fun s => ⟨_, _, _, rfl⟩
  | cons f fs ih =>
    intro s
    obtain ⟨r, m, x, hf⟩ := freeFrame_from s f
    obtain ⟨r', m', x', hfs⟩ := ih (freeFrame s f)
    exact ⟨r', m', x', by rw [freeFrames, List.foldl_cons, ← freeFrames, hfs, hf]⟩

section
variable (s : State) (fs : List Nat)

@[simp] theorem freeFrames_tier : (freeFrames s fs).tier = s.tier := by
  obtain ⟨r, m, x, h⟩ := freeFrames_from fs s; rw [h]
@[simp] theorem freeFrames_mkr : (freeFrames s fs).mkr = s.mkr := by
  obtain ⟨r, m, x, h⟩ := freeFrames_from fs s; rw [h]
@[simp] theorem freeFrames_clk : (freeFrames s fs).clk = s.clk := by
  obtain ⟨r, m, x, h⟩ := freeFrames_from fs s; rw [h]
@[simp] theorem freeFrames_gal : (freeFrames s fs).gal = s.gal := by
  obtain ⟨r, m, x, h⟩ := freeFrames_from fs s; rw [h]
@[simp] theorem freeFrames_fab : (freeFrames s fs).fab = s.fab := by
  obtain ⟨r, m, x, h⟩ := freeFrames_from fs s; rw [h]

end

/-! ### Holds and copies (R54, R55) -/

theorem holdFrame_from (s : State) (f : Nat) : AllocFrom s (holdFrame s f) := by
  unfold holdFrame
  split <;> exact ⟨_, _, rfl⟩

end Sys2Proof.Machine
end

section
/-! ses.create and ses.query, and handles that no entry answers (R31, R36, R40, R45, R604). -/

namespace Sys2Proof.Machine

variable {s t : State} {src : Src}

/-! ### The binding counts (R46) -/

/-- A binding is counted in registers and in the model's slot. -/
theorem bindSlots_upd (s : State) (e : Session) : ∃ r m, bindSlots s e = { s with regs := r, gal := { s.gal with models := m } } := by
  unfold bindSlots
  dsimp only
  split <;> exact ⟨_, _, rfl⟩

theorem reg_updGal (s : State) (g : GalBlock) (o : Nat) : State.reg { s with gal := g } o = s.reg o := rfl

theorem bindSlots_reg (s : State) (e : Session) {o : Nat} (ho : o < 0x200000) : (bindSlots s e).reg o = s.reg o := by
  have hregs : ((s.incWrap (TOK_VOCAB_A_BINDINGS e.vocab) 1).incWrap (TOK_GRAM_A_BINDINGS e.grammar) 1).reg o = s.reg o := by
    rw [State.incWrap, reg_setFld_other _ _ (by dsimp only; omega), State.incWrap, reg_setFld_other _ _ (by dsimp only; omega)]
  unfold bindSlots
  dsimp only
  split
  · exact hregs
  · rw [reg_updGal, hregs]

@[simp] theorem bindSlots_ses (s : State) (e : Session) : (bindSlots s e).ses = s.ses := by
  obtain ⟨r, m, h⟩ := bindSlots_upd s e; rw [h]
@[simp] theorem bindSlots_hbm (s : State) (e : Session) : (bindSlots s e).hbm = s.hbm := by
  obtain ⟨r, m, h⟩ := bindSlots_upd s e; rw [h]
@[simp] theorem bindSlots_cells (s : State) (e : Session) : (bindSlots s e).cells = s.cells := by
  obtain ⟨r, m, h⟩ := bindSlots_upd s e; rw [h]

/-! ### A new session (R36, R40, R604) -/

theorem createRefusal_eq_zero {ctx contract : Nat} (hok : contractOk s ctx contract = true) (hroom : contractFull s contract = false)
    (hfree : s.ses.freeList ≠ []) : createRefusal s ctx contract true = 0 := by
  simp [createRefusal, hok, hroom, hfree]

theorem takeIndex_of_freeList {lo hi : Nat} {rest : List (Nat × Nat)} (h : s.ses.freeList = (lo, hi) :: rest) :
    takeIndex s = some (lo, (mget s.ses.freeInstar lo).getD s.ses.baseInstar, { s with ses := { s.ses with
      freeList := if lo < hi then (lo + 1, hi) :: rest else rest, freeInstar := mdel s.ses.freeInstar lo } }) := by
  unfold takeIndex
  rw [h]

theorem newPages_from {c i half : Nat} {recur : Bool} {ls rs as : List Nat}
    (h : newPages s c i half recur = some (ls, rs, as, t)) : AllocFrom s t := by
  simp only [newPages, Option.bind_eq_bind, Option.bind_eq_some_iff, Prod.exists] at h
  obtain ⟨ls', s1, h1, rs', s2, h2, as', s3, h3, heq⟩ := h
  cases heq
  exact (allocFrames_from h1).trans ((allocFrames_from h2).trans (allocFrames_from h3))

section
variable {vocab grammar model prio dur customer contract cls lo hi : Nat} {draftEn : Bool} {tag : Word} {rest : List (Nat × Nat)}

/-- Where nothing refuses it, ses.create enters at the head of the free list the session that its operands and its new pages
make, and hands out its handle. -/
theorem createSession_done (hfree : s.ses.freeList = (lo, hi) :: rest)
    (hbind : bindingOk s src.ctx vocab grammar model dur customer = true) (hok : contractOk s src.ctx contract = true)
    (hroom : contractFull s contract = false) {inst : Nat} {s1 s2 : State} {ls rs as : List Nat}
    (htake : takeIndex s = some (lo, inst, s1))
    (hpages : newPages s1 src.ctx lo (recurOf s model).1 (recurOf s model).2 = some (ls, rs, as, s2)) :
    let e := withPages (sesInit s.now inst src.ctx src.queue vocab grammar model prio dur customer draftEn tag contract cls
      s.devAddr (gramStart s grammar)) ls rs as
    let t := (bindSlots { s2 with ses := { s2.ses with entries := mset s2.ses.entries lo e } } e).incWrap SES_LIVE_ALLOCATED 1
    createSession src vocab grammar model prio dur customer draftEn tag contract cls s =
      (t, .done 0 (handleOf t lo e) (handleOf t lo e) tag) := by
  intro e t
  have hst : createRefusal s src.ctx contract (bindingOk s src.ctx vocab grammar model dur customer) = 0 := by
    rw [hbind]
    exact createRefusal_eq_zero hok hroom (by simp [hfree])
  unfold createSession
  dsimp only
  rw [if_neg (by simp [hst]), htake]
  dsimp only
  rw [hpages]

theorem sesCreate_creates (hgo : ItemGo s src) (hfree : s.ses.freeList = (lo, hi) :: rest)
    (hbind : bindingOk s src.ctx vocab grammar model dur customer = true) (hok : contractOk s src.ctx contract = true)
    (hroom : contractFull s contract = false)
    (hpages : ((takeIndex s).bind fun x => newPages x.2.2 src.ctx lo (recurOf s model).1 (recurOf s model).2).isSome) :
    ∃ (t : State) (e : Session),
      Completes (.sesCreate src vocab grammar model prio dur customer draftEn tag contract cls) s src 0xC0 0
        (handleOf t lo e) (handleOf t lo e) tag t ∧
      t.ses? lo = some e ∧ e.instar = (mget s.ses.freeInstar lo).getD s.ses.baseInstar ∧ e.state = .waiting ∧ e.tier = .p1 ∧
      e.context = src.ctx ∧ e.queue = src.queue ∧ e.vocab = vocab ∧ e.grammar = grammar ∧ e.model = model ∧ e.prio = prio ∧
      e.dur = dur ∧ e.customer = customer ∧ e.draftEn = draftEn ∧ e.tag = tag ∧ e.contract = contract ∧ e.cls = cls ∧
      e.tokens = 0 ∧ e.generated = 0 ∧ e.seqValid = false ∧ e.createTime = s.clk.now ∧
      t.ses.freeList = (if lo < hi then (lo + 1, hi) :: rest else rest) ∧ t.hbm = s.hbm ∧ t.cells = s.cells := by
  have htake := takeIndex_of_freeList hfree
  rw [htake, Option.bind_some, Option.isSome_iff_exists] at hpages
  obtain ⟨⟨ls, rs, as, s2⟩, hpages⟩ := hpages
  have hdone := createSession_done (prio := prio) (draftEn := draftEn) (tag := tag) (cls := cls) hfree hbind hok hroom htake hpages
  obtain ⟨r, m, rfl⟩ := newPages_from hpages
  refine ⟨_, _, congrArg _ (runItem_done hgo hdone), ?_, rfl, rfl, rfl, rfl, rfl, rfl, rfl, rfl, rfl, rfl, rfl, rfl, rfl, rfl, rfl,
    rfl, rfl, rfl, rfl, ?_, ?_, ?_⟩
  · simp [State.ses?]
  all_goals simp

end

/-! ### The image of an entry (R40) -/

theorem flatMap_leBytes_length (ws : List Nat) : (ws.flatMap (leBytes 8)).length = 8 * ws.length := by
  induction ws with
  | nil => rfl
  | cons w ws ih => rw [List.flatMap_cons, List.length_append, leBytes_length, ih, List.length_cons]; omega

/-- Bytes 8 n to 8 n + 7 of a list of words are word n. -/
theorem flatMap_leBytes_word : ∀ (ws : List Nat) (n : Nat) (h : n < ws.length),
    ((ws.flatMap (leBytes 8)).drop (8 * n)).take 8 = leBytes 8 ws[n]
  | w :: ws, 0, _ => by simp
  | w :: ws, n + 1, h => by
    rw [List.flatMap_cons, List.drop_append, List.drop_eq_nil_of_le (by simp), List.nil_append, leBytes_length,
      show 8 * (n + 1) - 8 = 8 * n by omega, flatMap_leBytes_word ws n (by simpa using h), List.getElem_cons_succ]

/-- The bytes that CHECK covers. -/
def checkedBytes (s : State) (i : Nat) (e : Session) : List Byte :=
  (entryWords s i e).flatMap (leBytes 8) ++ leBytes 4 e.updateSeq

theorem checkedBytes_length (s : State) (i : Nat) (e : Session) : (checkedBytes s i e).length = 124 := by
  rw [checkedBytes, List.length_append, flatMap_leBytes_length, leBytes_length]
  rfl

theorem entryImage_eq (s : State) (i : Nat) (e : Session) :
    entryImage s i e = checkedBytes s i e ++ leBytes 4 (crc32c (checkedBytes s i e)).toNat := rfl

theorem entryImage_length (s : State) (i : Nat) (e : Session) : (entryImage s i e).length = 128 := by
  rw [entryImage_eq, List.length_append, checkedBytes_length, leBytes_length]

theorem entryImage_tag (s : State) (i : Nat) (e : Session) : ((entryImage s i e).drop 96).take 8 = leBytes 8 e.tag.toNat := by
  have hwords : ((entryWords s i e).flatMap (leBytes 8)).length = 120 := flatMap_leBytes_length _
  rw [entryImage_eq, checkedBytes, List.append_assoc, List.drop_append_of_le_length (by omega),
    List.take_append_of_le_length (by rw [List.length_drop]; omega)]
  exact flatMap_leBytes_word (entryWords s i e) 12 (by simp [entryWords])

theorem entryImage_check (s : State) (i : Nat) (e : Session) :
    (entryImage s i e).drop 124 = leBytes 4 (crc32c ((entryImage s i e).take 124)).toNat := by
  rw [entryImage_eq, List.drop_left' (checkedBytes_length s i e), List.take_left' (checkedBytes_length s i e)]

/-! ### Handles (R31) -/

theorem sesItem_stale {h : Word} (hgo : ItemGo s src) (hdev : bits h.toNat 48 16 = s.devAddr) (hnone : s.ses? (bits h.toNat 24 24) = none)
    (op : Nat) (body : Nat → Session → State → State × Reply) (moved ended faulted stamp : Bool) :
    sesItem s src op h body moved ended faulted stamp = completeFail (s.incSat SES_STALE_COUNT 1) src op 0x2002 0 0 :=
  runItem_fail hgo (by simp [sesBody, hdev, hnone, Reply.status])

theorem sesItem_otherDevice {h : Word} (hgo : ItemGo s src) (hdev : bits h.toNat 48 16 ≠ s.devAddr)
    (op : Nat) (body : Nat → Session → State → State × Reply) (moved ended faulted stamp : Bool) :
    sesItem s src op h body moved ended faulted stamp = completeFail s src op 0x200B 0 0 :=
  runItem_fail hgo (by simp [sesBody, hdev, Reply.status])

theorem sesQuery_writes {h dest : Word} {i : Nat} {e : Session} (hgo : ItemGo s src) (hh : Handle s src h i e)
    (hw : itemWrite s src 2 dest (entryImage s i e) = .ok t) :
    Completes (.sesQuery src h dest) s src 0xCD 0 (BitVec.ofNat 64 e.updateSeq) h e.tag t :=
  congrArg _ (sesItem_unstamped hgo hh (fun _ => rfl) (fun _ => rfl) (by rw [queryBody, hw]))

/-! ### The statement -/

/-- Settles O32: the fields of the entry that ses.create makes, the bytes of the image that ses.query writes, and the two refusals
of a handle. -/
theorem sessionsAreCreatedAndRead : Obligations.SessionsAreCreatedAndRead := by
  unfold Obligations.SessionsAreCreatedAndRead
  intro s src hgo
  refine ⟨fun vocab grammar model prio dur customer contract cls lo hi draftEn tag rest hfree hbind hok hroom hpages =>
      sesCreate_creates hgo hfree hbind hok hroom hpages,
    fun h dest i e t hh hw => ⟨sesQuery_writes hgo hh hw, entryImage_length s i e, entryImage_tag s i e, entryImage_check s i e⟩,
    fun h g hdev hnone => ⟨?_, ?_⟩, fun h g hdev => ?_⟩
  · exact congrArg _ (sesItem_stale hgo hdev hnone ..)
  · exact congrArg _ (sesItem_stale hgo hdev hnone ..)
  · exact congrArg _ (sesItem_otherDevice hgo hdev ..)

end Sys2Proof.Machine
end

section
/-! ses.feed and ses.run (R38, R39, R49, R149, R156, R322). -/

namespace Sys2Proof.Machine

variable {s t : State} {src : Src} {i : Nat} {e : Session}

/-! ### What a session waited for (R83) -/

theorem abortPark_of_none (h : s.ses? i = some e) (hpark : e.park = none) : abortPark s i = s := by
  simp [abortPark, h, hpark]

theorem abortRevival_of_none (h : s.ses? i = some e) (hrev : e.rev = none) : abortRevival s i = s := by
  simp [abortRevival, h, hrev]

/-- At P1 with no park under way the event a session waited for ends its wait and moves nothing. -/
theorem sesEvent_at_p1 (h : s.ses? i = some e) (htier : e.tier = .p1) (hpark : e.park = none) (notify : Bool) :
    sesEvent s i notify =
      (s.setSes i { e with overdueDone := true, deadlineDone := true, graceAt := none, deferred := none }, 0) := by
  simp [sesEvent, abortPark_of_none h hpark, h, htier]

/-! ### ses.feed -/

/-- A segment that found its pages stands at the end of its transcript; the session goes on as it was, and nothing is written but
its entry and the tables of frames. -/
theorem appendSegment_same {seg : Segment} (h : appendSegment s i e seg = some t) (hpre : e.state ≠ .prefill) :
    ∃ (u : State) (e' : Session), AllocFrom s u ∧ t = u.setSes i e' ∧
      e'.transcriptBytes = e.transcriptBytes + segBytes seg ∧ e'.segs = e.segs ++ [seg] ∧ e'.state = e.state ∧ e'.tier = e.tier ∧
      e'.tokens = e.tokens ∧ e'.generated = e.generated ∧ e'.park = e.park := by
  unfold appendSegment at h
  obtain ⟨r, hr, heq⟩ := Option.map_eq_some_iff.1 h
  dsimp only at heq
  split at heq
  · exact absurd ‹_› hpre
  · exact ⟨r.2, _, allocFrames_from hr, heq.symm, rfl, rfl, rfl, rfl, rfl, rfl, rfl⟩

theorem feedBody_text {addr : Word} {len : Nat} {bs : List Byte} (hcancel : e.state ≠ .cancelling) (hmig : e.state ≠ .migrating)
    (hlen : 0 < len) (hmax : e.transcriptBytes + len ≤ 4194304) (hread : itemRead s src 2 addr len = .ok bs)
    (hseg : appendSegment s i e (.text bs) = some t) :
    feedBody src addr len false false 0 i e s =
      (if e.state = .waiting then (sesEvent t i false).1 else t, .done 0 (BitVec.ofNat 64 (e.transcriptBytes + len)) 0 0) := by
  unfold feedBody
  rw [if_neg hcancel, if_neg (by simp [hmig]), if_neg (by simp), if_neg (by omega), hread]
  simp only [Bool.false_and, Bool.false_eq_true, if_false, show len ≠ 0 by omega, hseg, if_true]
  split_ifs <;> rfl

theorem sesFeed_appends {h addr : Word} {len : Nat} {bs : List Byte} (hgo : ItemGo s src) (hh : Handle s src h i e)
    (hstate : e.state = .active ∨ e.state = .held ∨ (e.state = .waiting ∧ e.tier = .p1 ∧ e.park = none)) (hlen : 0 < len)
    (hmax : e.transcriptBytes + len ≤ 4194304) (hread : itemRead s src 2 addr len = .ok bs) (hbs : bs.length = len)
    (hseg : (appendSegment s i e (.text bs)).isSome) : ∃ (t : State) (e' : Session),
      Completes (.sesFeed src h addr len false false 0) s src 0xC1 0 (BitVec.ofNat 64 (e.transcriptBytes + len)) h e.tag t ∧
      t.ses? i = some e' ∧ e'.transcriptBytes = e.transcriptBytes + len ∧ e'.segs = e.segs ++ [.text bs] ∧ e'.state = e.state ∧
      e'.tier = e.tier ∧ e'.tokens = e.tokens ∧ e'.generated = e.generated ∧ e'.lastStatus = 0 ∧ t.hbm = s.hbm ∧
      ∀ j, j ≠ i → t.ses? j = s.ses? j := by
  subst hbs
  obtain ⟨u, hseg⟩ := Option.isSome_iff_exists.1 hseg
  have hnot (x : SesState) (h1 : x ≠ .active) (h2 : x ≠ .held) (h3 : x ≠ .waiting) : e.state ≠ x := by
    rintro rfl
    tauto
  have hdone := completes_of_done (c := .sesFeed src h addr bs.length false false 0) hgo hh (hnot _ nofun nofun nofun)
    (hnot _ nofun nofun nofun) rfl
    (feedBody_text (hnot _ nofun nofun nofun) (hnot _ nofun nofun nofun) hlen hmax hread hseg)
  obtain ⟨v, e', hfrom, rfl, hbytes, hsegs, hst, htr, htok, hgen, hpk⟩ := appendSegment_same hseg (hnot _ nofun nofun nofun)
  by_cases hwait : e.state = .waiting
  · obtain ⟨htier, hpark⟩ : e.tier = .p1 ∧ e.park = none := by simpa [hwait] using hstate
    rw [if_pos hwait, sesEvent_at_p1 (ses_setSes_same ..) (e := e'.written) (htr.trans htier) (hpk.trans hpark)] at hdone
    refine ⟨_, _, hdone, stampStatus_same (ses_setSes_same ..) 0, by simp [hbytes, segBytes], by simp [hsegs],
      by simp [hst], by simp [htr], by simp [htok], by simp [hgen], rfl, by simp [hfrom.hbm], fun j hj => ?_⟩
    rw [stampStatus_other _ _ _ hj, setSes_other _ _ _ hj, setSes_other _ _ _ hj, hfrom.ses?]
  · rw [if_neg hwait] at hdone
    refine ⟨_, _, hdone, stampStatus_same (ses_setSes_same ..) 0, by simp [hbytes, segBytes], by simp [hsegs],
      by simp [hst], by simp [htr], by simp [htok], by simp [hgen], rfl, by simp [hfrom.hbm], fun j hj => ?_⟩
    rw [stampStatus_other _ _ _ hj, setSes_other _ _ _ hj, hfrom.ses?]

/-! ### ses.run -/

/-- The lowest free sequence slot, where there is one, is taken for the session on its slice. -/
theorem takeSlot_of_free {sl : Nat} {prefill : Bool} (hfree : firstFree s.gal.slots 0 < 8192) : ∃ x : Slot,
    takeSlot s i e sl prefill =
      some (({ s with gal := { s.gal with slots := mset s.gal.slots (firstFree s.gal.slots 0) x } }).incWrap SES_LIVE_SLOTS_USED 1,
        { e with seqValid := true, seqSlot := firstFree s.gal.slots 0 }) ∧
    x.index = i ∧ x.prefill = prefill ∧ x.part = sl / 4 ∧ x.slice = sl % 4 ∧ x.pos = e.tokens ∧ x.prio = e.prio ∧
    x.customer = e.customer :=
  ⟨_, if_pos hfree, rfl, rfl, rfl, rfl, rfl, rfl, rfl⟩

/-- What tokenising a transcript writes of an entry. -/
theorem tokeniseSession_upd (s : State) (e : Session) : ∃ p b, tokeniseSession s e = { e with prompt := p, tokenised := b } := by
  unfold tokeniseSession
  split <;> exact ⟨_, _, rfl⟩

/-- A run at P1 takes the lowest free sequence slot on the slice chosen and leaves its session PREFILL. -/
theorem startRun_prefills {g sl : Nat} (h : s.ses? i = some e) (hslice : chooseSlice s e = some sl)
    (hfree : firstFree s.gal.slots 0 < 8192) (hbound : e.bound = true) (htext : 0 < e.transcriptBytes) :
    ∃ (t : State) (e' : Session) (x : Slot), startRun s i g = (t, 0) ∧ t.ses? i = some e' ∧ e'.state = .prefill ∧
      e'.seqValid = true ∧ e'.seqSlot = firstFree s.gal.slots 0 ∧ e'.genLimit = g ∧
      mget t.gal.slots (firstFree s.gal.slots 0) = some x ∧ x.index = i ∧ x.prefill = true ∧
      x.part = sl / 4 ∧ x.slice = sl % 4 ∧ x.pos = e.tokens ∧ x.prio = e.prio ∧ x.customer = e.customer := by
  obtain ⟨x, htake, hx⟩ := takeSlot_of_free (i := i) (e := e) (sl := sl) (prefill := true) hfree
  unfold startRun
  rw [h]
  dsimp only
  rw [hslice]
  dsimp only
  rw [htake]
  dsimp only
  obtain ⟨p, b, htok⟩ := tokeniseSession_upd (if e.bound then _ else _) _
  rw [htok, if_pos hbound, if_neg (by dsimp only; omega)]
  exact ⟨_, _, x, rfl, ses_setSes_same .., rfl, rfl, rfl, rfl, by simp, hx⟩

theorem runSession_at_p1 {g sl : Nat} (h : s.ses? i = some e) (htier : e.tier = .p1) (hpark : e.park = none)
    (hmatch : slotsMatch s e = true) (hslice : chooseSlice s e = some sl) (hfree : firstFree s.gal.slots 0 < 8192) :
    runSession s i g = startRun
      (s.setSes i { e with overdueDone := true, deadlineDone := true, graceAt := none, deferred := none }) i g := by
  unfold runSession
  rw [h]
  dsimp only
  rw [if_neg (by simp [hmatch]), if_neg (by simp [hslice]), if_neg (by omega), sesEvent_at_p1 h htier hpark]
  dsimp only
  rw [if_neg (by simp), ses_setSes_same]
  dsimp only
  rw [if_neg (by simp [Session.written, htier])]

theorem sesRun_prefills {h : Word} {g sl : Nat} (hgo : ItemGo s src) (hh : Handle s src h i e) (hwait : e.state = .waiting)
    (htier : e.tier = .p1) (hpark : e.park = none) (htext : 0 < e.transcriptBytes) (hmatch : slotsMatch s e = true)
    (hslice : chooseSlice s e = some sl) (hfree : firstFree s.gal.slots 0 < 8192) (hbound : e.bound = true) :
    ∃ (t : State) (e' : Session) (x : Slot), Completes (.sesRun src h g) s src 0xC2 0 0 h e.tag t ∧
      t.ses? i = some e' ∧ e'.state = .prefill ∧ e'.seqValid = true ∧ e'.seqSlot = firstFree s.gal.slots 0 ∧ e'.genLimit = g ∧
      e'.lastStatus = 0 ∧ mget t.gal.slots (firstFree s.gal.slots 0) = some x ∧ x.index = i ∧ x.prefill = true ∧
      x.part = sl / 4 ∧ x.slice = sl % 4 ∧ x.pos = e.tokens ∧ x.prio = e.prio ∧ x.customer = e.customer := by
  have hses : s.ses? i = some e := hh.2.2.1
  obtain ⟨t, e', x, hrun, ht, hpre, hvalid, hslot, hlim, hx⟩ := startRun_prefills (g := g) (sl := sl)
    (s := s.setSes i { e with overdueDone := true, deadlineDone := true, graceAt := none, deferred := none })
    (ses_setSes_same ..) hslice hfree hbound htext
  have hbody : runBody g i e s = (t, .ok) := by
    unfold runBody
    rw [if_neg (by simp [hwait]), runSession_at_p1 hses htier hpark hmatch hslice hfree, hrun]
    rfl
  refine ⟨_, _, x, completes_of_done (c := .sesRun src h g) hgo hh (by simp [hwait]) (by simp [hwait]) rfl hbody,
    stampStatus_same ht 0, hpre, hvalid, hslot, hlim, rfl, ?_⟩
  rw [stampStatus_gal]
  exact hx

theorem sesRun_refused {h : Word} (hgo : ItemGo s src) (hh : Handle s src h i e) (hwait : e.state ≠ .waiting)
    (hend : e.state ≠ .ended) (hflt : e.state ≠ .faulted) (g : Nat) :
    exec (.sesRun src h g) s = .next (completeFail (stampStatus s i 0x2004) src 0xC2 0x2004 h e.tag) :=
  exec_of_fail hgo hh hend hflt rfl (if_pos hwait)

/-! ### The statement -/

/-- Settles O33: the segment that a feed appends, the slot that a run takes, and the refusal of a run that nothing waits for. -/
theorem sessionsAreFedAndRun : Obligations.SessionsAreFedAndRun := by
  unfold Obligations.SessionsAreFedAndRun
  intro s src h i e hgo hh
  exact ⟨fun addr len bs hstate hlen hmax hread hbs hseg => sesFeed_appends hgo hh hstate hlen hmax hread hbs hseg,
    fun g sl hwait htier hpark htext hmatch hslice hfree hbound =>
      sesRun_prefills hgo hh hwait htier hpark htext hmatch hslice hfree hbound,
    fun g hwait hend hflt => sesRun_refused hgo hh hwait hend hflt g⟩

end Sys2Proof.Machine
end

section
/-! Tier choices (R76 to R79), policing (R138 to R140), and the starts of parks and revivals (R83 to R88). -/

namespace Sys2Proof.Machine

variable {s t : State} {i : Nat} {e : Session}

/-! ### What policing reads and writes -/

theorem governing_of_mkr (h : t.mkr = s.mkr) (contract kind : Nat) (ok : Contract → Bool) :
    governing t contract kind ok = governing s contract kind ok := by
  have hforce : inForce t = inForce s := by
    funext id
    unfold inForce
    rw [h]
  have hlinks : linksOf t = linksOf s := by
    funext id
    unfold linksOf
    rw [hforce]
  unfold governing coverLevels
  rw [hforce, hlinks]

theorem police_fst_of_mkr (h : t.mkr = s.mkr) (hclk : t.clk = s.clk) (id len : Nat) (cap : Bool) :
    (police t id len cap).1 = (police s id len cap).1 := by
  have hnow : t.now = s.now := congrArg ClkBlock.now hclk
  unfold police inForce
  rw [h]
  cases hc : mget s.mkr.admitted id with
  | none => rfl
  | some c =>
    have hlive : liveOf t id c = liveOf s id c := by
      unfold liveOf
      rw [h, hnow]
    dsimp only
    rw [hlive]
    split <;> rfl

@[simp] theorem police_ses (s : State) (id len : Nat) (cap : Bool) : (police s id len cap).2.ses = s.ses := by
  unfold police
  cases inForce s id with
  | none => rfl
  | some c =>
    simp only []
    split <;> rfl

/-- The colour of a park depends on the contracts, the time and the session's CONTRACT alone. -/
theorem policePark_fst_of_mkr (h : t.mkr = s.mkr) (hclk : t.clk = s.clk) {e' : Session} (hc : e'.contract = e.contract)
    (tier : Tier) (D : Nat) : (policePark t e' tier D).1 = (policePark s e tier D).1 := by
  unfold policePark
  rw [governing_of_mkr h, hc]
  split
  · rfl
  · exact police_fst_of_mkr h hclk _ _ _

@[simp] theorem policePark_ses (s : State) (e : Session) (tier : Tier) (D : Nat) : (policePark s e tier D).2.2.ses = s.ses := by
  unfold policePark
  split
  · rfl
  · exact police_ses s _ D false

/-! ### Starting a park (R83, R140) -/

/-- The entry of a session whose park has started. -/
def Session.parking (e : Session) (p : ParkOp) : Session := { e with park := some p, parkBusy := true, deferred := none }

/-- A park that starts or is deferred writes PARK_BUSY and what the park is, and nothing else of its session. -/
theorem startPark_entry (h : s.ses? i = some e) (c : Choice) (copyOnly : Bool) : ∃ p b d,
    (startPark s i c copyOnly).ses? i = some ({ e with park := p, parkBusy := b, deferred := d } : Session).written := by
  unfold startPark
  rw [h]
  dsimp only
  split_ifs <;> exact ⟨_, _, _, ses_setSes_same ..⟩

theorem startPark_starts (h : s.ses? i = some e) {c : Choice} (hcolour : (policePark s e c.tier c.bytes).1 ≠ 3) (copyOnly : Bool) :
    ∃ p : ParkOp, (startPark s i c copyOnly).ses? i =
      some (e.parking p).written ∧
      p.target = c.tier ∧ p.place = c.place ∧ p.bytes = c.bytes ∧ p.copyOnly = copyOnly := by
  unfold startPark
  rw [h]
  dsimp only
  rw [if_neg hcolour]
  exact ⟨_, ses_setSes_same .., rfl, rfl, rfl, rfl⟩

/-! ### The tier chosen (R76) -/

theorem placeFor_tier {tier : Tier} {c : Choice} (h : placeFor s e tier = some c) : c.tier = tier := by
  unfold placeFor at h
  split at h
  · split at h
    · obtain ⟨l, -, rfl⟩ := Option.map_eq_some_iff.1 h; rfl
    · exact absurd h (by simp)
  · split at h
    · obtain ⟨l, -, rfl⟩ := Option.map_eq_some_iff.1 h; rfl
    · exact absurd h (by simp)
  · exact absurd h (by simp)

/-- A tier that a choice may name. -/
def Tier.chosen (x : Tier) : Prop := x = .p1 ∨ x = .p2 ∨ x = .p3

theorem chosen_of_mem {x : Tier} {f : Tier → Bool} (h : x ∈ [Tier.p3, Tier.p2].filter f) : x.chosen := by
  have := List.mem_of_mem_filter h
  simp only [List.mem_cons, List.not_mem_nil, or_false] at this
  rcases this with rfl | rfl
  · exact .inr (.inr rfl)
  · exact .inr (.inl rfl)

theorem chosen_getD_stay {o : Option Choice} (h : ∀ c, o = some c → c.tier.chosen) : (o.getD stay).tier.chosen := by
  cases o with
  | none => exact .inl rfl
  | some c => exact h c rfl

theorem defaultTier_chosen (s : State) (e : Session) : (defaultTier s e).tier.chosen := by
  refine chosen_getD_stay fun c hc => ?_
  obtain ⟨x, hx, hplace⟩ := List.exists_of_findSome?_eq_some hc
  exact placeFor_tier hplace ▸ chosen_of_mem hx

theorem chooseTier_chosen (s : State) (e : Session) (hint : Nat) : (chooseTier s e hint).tier.chosen := by
  unfold chooseTier
  split_ifs
  · exact defaultTier_chosen s e
  · exact .inl rfl
  · refine chosen_getD_stay fun c hc => ?_
    obtain ⟨x, hx, hbind⟩ := List.exists_of_findSome?_eq_some hc
    obtain ⟨c', hplace, hc'⟩ := Option.bind_eq_some_iff.1 hbind
    split at hc'
    · cases hc'
      exact placeFor_tier hplace ▸ chosen_of_mem hx
    · exact absurd hc' (by simp)

theorem chooseTier_of_past {hint : Nat} (h0 : e.expectTime ≠ 0) (hpast : e.expectTime ≤ s.clk.now) : chooseTier s e hint = stay := by
  unfold chooseTier
  rw [if_neg (by simp [h0]), if_pos ⟨h0, hpast⟩]

/-! ### Moving a session that rests at P1 -/

/-- A session at P1 with neither park nor revival under way. -/
structure Resting (e : Session) : Prop where
  tier : e.tier = .p1
  park : e.park = none
  parkBusy : e.parkBusy = false
  reviveBusy : e.reviveBusy = false

theorem applyChoice_stay (h : s.ses? i = some e) (hrest : Resting e) {c : Choice} (hc : c.tier = .p1) : applyChoice s i c = s := by
  simp [applyChoice, h, hrest.tier, hrest.park, hrest.parkBusy, hrest.reviveBusy, hc]

theorem applyChoice_park (h : s.ses? i = some e) (hrest : Resting e) {c : Choice} (hc : c.tier = .p2 ∨ c.tier = .p3) :
    applyChoice s i c = startPark s i c false := by
  rcases hc with hc | hc <;> simp [applyChoice, h, hrest.tier, hrest.park, hrest.parkBusy, hrest.reviveBusy, hc]

/-- Whatever tier is chosen for it, a session that rests at P1 keeps everything but its park. -/
theorem applyChoice_entry (h : s.ses? i = some e) (hrest : Resting e) {c : Choice} (hc : c.tier.chosen) :
    ∃ e' : Session, (applyChoice s i c).ses? i = some e' ∧ e'.tier = .p1 ∧ e'.state = e.state ∧ e'.expectTime = e.expectTime ∧
      e'.deadline = e.deadline ∧ e'.graceAt = e.graceAt := by
  rcases hc with hc | hc
  · exact ⟨e, by rw [applyChoice_stay h hrest hc, h], hrest.tier, rfl, rfl, rfl, rfl⟩
  · obtain ⟨p, b, d, hp⟩ := startPark_entry h c false
    refine ⟨_, (congrArg (·.ses? i) (applyChoice_park h hrest hc)).trans hp, ?_⟩
    exact ⟨hrest.tier, rfl, rfl, rfl, rfl⟩

/-! ### Starting a revival (R83, R86 to R88) -/

/-- The entry of a session whose revival has started. -/
def Session.reviving (e : Session) (op : RevOp) : Session := { e with rev := some op, reviveBusy := true, overdueDone := false }

theorem startRevival_starts (h : s.ses? i = some e) (hrev : e.rev = none)
    (hthere : e.tier = .p3 → ∃ y, e.p3 = some y ∧ copyPresent s y = true) {notify : Bool} (hok : (startRevival s i notify).2 = 0) :
    ∃ op : RevOp, (startRevival s i notify).1.ses? i = some (e.reviving op).written ∧
      op.src = e.tier ∧ op.notify = notify := by
  generalize hr : startRevival s i notify = r at hok ⊢
  unfold startRevival at hr
  rw [h] at hr
  dsimp only at hr
  rw [hrev] at hr
  dsimp only at hr
  rw [if_neg ?there] at hr
  case there =>
    rintro ⟨h3, hmiss⟩
    obtain ⟨y, hy, hpresent⟩ := hthere h3
    simp [hy, hpresent] at hmiss
  split at hr
  · simp [← hr] at hok
  · split at hr
    · simp [← hr] at hok
    · subst hr
      exact ⟨_, ses_setSes_same .., rfl, rfl⟩

end Sys2Proof.Machine
end

section
/-! ses.wait, ses.park and ses.revive of a WAITING session (R49, R76, R81 to R83, R86, R88). -/

namespace Sys2Proof.Machine

variable {s t : State} {src : Src} {h : Word} {i : Nat} {e : Session}

/-! ### ses.wait -/

/-- The entry of a session with the times that ses.wait gives it. -/
def waitEntry (e : Session) (expect deadline : Nat) : Session :=
  { e with expectTime := expect, deadline, graceAt := none, overdueDone := true, deadlineDone := false, deferred := none }

/-- The state that ses.wait leaves before its status is written. -/
def waitState (s : State) (i : Nat) (e : Session) (expect deadline : Nat) : State :=
  applyChoice (s.setSes i (waitEntry e expect deadline)) i (chooseTier s (waitEntry e expect deadline) 0)

theorem sesWait_completes (hgo : ItemGo s src) (hh : Handle s src h i e) (hwait : e.state = .waiting) {expect deadline : Nat}
    (htimes : deadline = 0 ∨ expect ≤ deadline) : Completes (.sesWait src h expect deadline) s src 0xC3 0
      (BitVec.ofNat 64 (chooseTier s (waitEntry e expect deadline) 0).tier.depth) h e.tag
      (stampStatus (waitState s i e expect deadline) i 0) := by
  refine completes_of_done (c := .sesWait src h expect deadline) (o := 0) (g := 0) hgo hh (by simp [hwait]) (by simp [hwait]) rfl ?_
  unfold waitBody
  rw [if_neg (by simp [hwait]), if_neg (by omega)]
  rfl

/-- An expected time that has passed keeps a session that rests at P1 there, with its new times. -/
theorem waitState_of_past (hwait : e.state = .waiting) (hrest : Resting e) {expect deadline : Nat} (h0 : expect ≠ 0)
    (hpast : expect ≤ s.clk.now) : (chooseTier s (waitEntry e expect deadline) 0).tier = .p1 ∧ ∃ e' : Session,
      (stampStatus (waitState s i e expect deadline) i 0).ses? i = some e' ∧ e'.expectTime = expect ∧ e'.deadline = deadline ∧
      e'.tier = .p1 ∧ e'.state = .waiting ∧ e'.park = none ∧ e'.lastStatus = 0 ∧
      (stampStatus (waitState s i e expect deadline) i 0).regs = s.regs ∧
      (stampStatus (waitState s i e expect deadline) i 0).hbm = s.hbm := by
  have hstay : chooseTier s (waitEntry e expect deadline) 0 = stay := chooseTier_of_past h0 hpast
  have hstate : waitState s i e expect deadline = s.setSes i (waitEntry e expect deadline) := by
    unfold waitState
    rw [hstay]
    have hrest' : Resting (waitEntry e expect deadline).written := ⟨hrest.tier, hrest.park, hrest.parkBusy, hrest.reviveBusy⟩
    exact applyChoice_stay (ses_setSes_same ..) hrest' rfl
  rw [hstate, hstay]
  exact ⟨rfl, _, stampStatus_same (ses_setSes_same ..) 0, rfl, rfl, hrest.tier, hwait, hrest.park, rfl, by simp, by simp⟩

theorem sesWait_refused (hgo : ItemGo s src) (hh : Handle s src h i e) (hwait : e.state = .waiting) {expect deadline : Nat}
    (h0 : deadline ≠ 0) (hlate : deadline < expect) : exec (.sesWait src h expect deadline) s =
      .next (completeFail (stampStatus s i 0x2011) src 0xC3 0x2011 h e.tag) := by
  refine exec_of_fail (o := 0) (g := 0) hgo hh (by simp [hwait]) (by simp [hwait]) rfl ?_
  unfold waitBody
  rw [if_neg (by simp [hwait]), if_pos ⟨h0, hlate⟩]
  rfl

/-! ### ses.park -/

/-- The entry of a session that ses.park moves: its wait grace and what was deferred are over. -/
def parkEntry (e : Session) : Session := { e with graceAt := none, deferred := none }

theorem Resting.parkEntry (h : Resting e) : Resting (parkEntry e).written := ⟨h.tier, h.park, h.parkBusy, h.reviveBusy⟩

/-- The state that ses.park leaves before its status is written. -/
def parkState (s : State) (i : Nat) (e : Session) (hint : Nat) : State :=
  applyChoice (s.setSes i (parkEntry e)) i (chooseTier s e hint)

theorem sesPark_completes (hgo : ItemGo s src) (hh : Handle s src h i e) (hwait : e.state = .waiting) (hint : Nat) :
    Completes (.sesPark src h hint) s src 0xC8 0 (BitVec.ofNat 64 (chooseTier s e hint).tier.depth) h e.tag
      (stampStatus (parkState s i e hint) i 0) := by
  refine completes_of_done (c := .sesPark src h hint) (o := 0) (g := 0) hgo hh (by simp [hwait]) (by simp [hwait]) rfl ?_
  unfold parkBody
  rw [if_neg (by simp [hwait])]
  rfl

theorem parkState_stays (hrest : Resting e) {hint : Nat} (hc : (chooseTier s e hint).tier = .p1) : ∃ e' : Session,
    (stampStatus (parkState s i e hint) i 0).ses? i = some e' ∧ e'.tier = .p1 ∧ e'.park = none ∧ e'.expectTime = e.expectTime ∧
    e'.lastStatus = 0 := by
  have hstate : parkState s i e hint = s.setSes i (parkEntry e) :=
    applyChoice_stay (ses_setSes_same ..) hrest.parkEntry hc
  rw [hstate]
  exact ⟨_, stampStatus_same (ses_setSes_same ..) 0, hrest.tier, hrest.park, rfl, rfl⟩

theorem parkState_parks (hrest : Resting e) {hint : Nat}
    (hc : (chooseTier s e hint).tier = .p2 ∨ (chooseTier s e hint).tier = .p3)
    (hcolour : (policePark s e (chooseTier s e hint).tier (chooseTier s e hint).bytes).1 ≠ 3) : ∃ (e' : Session) (p : ParkOp),
      (stampStatus (parkState s i e hint) i 0).ses? i = some e' ∧ e'.parkBusy = true ∧ e'.park = some p ∧
      p.target = (chooseTier s e hint).tier ∧ p.place = (chooseTier s e hint).place ∧ e'.tier = .p1 := by
  have hses : (s.setSes i (parkEntry e)).ses? i = some (parkEntry e).written := ses_setSes_same ..
  have hstate : parkState s i e hint = startPark (s.setSes i (parkEntry e)) i (chooseTier s e hint) false :=
    applyChoice_park hses hrest.parkEntry hc
  obtain ⟨p, hp, htarget, hplace, -, -⟩ := startPark_starts hses (c := chooseTier s e hint)
    ((policePark_fst_of_mkr (s := s) (e := e) (t := s.setSes i (parkEntry e)) (e' := (parkEntry e).written) rfl rfl rfl ..).trans_ne hcolour) false
  rw [hstate]
  exact ⟨_, p, stampStatus_same hp 0, rfl, rfl, htarget, hplace, by simp [Session.parking, parkEntry, hrest.tier]⟩

/-! ### ses.revive -/

theorem sesRevive_at_p1 (hgo : ItemGo s src) (hh : Handle s src h i e) (hwait : e.state = .waiting) (htier : e.tier = .p1)
    (hpark : e.park = none) :
    Completes (.sesRevive src h) s src 0xC9 0 0 h e.tag (stampStatus (sesNoticeFree s i 3 0) i 0) := by
  refine completes_of_done (c := .sesRevive src h) (o := 0) (g := 0) hgo hh (by simp [hwait]) (by simp [hwait]) rfl ?_
  unfold reviveBody
  rw [if_neg (by simp [hwait]), abortPark_of_none hh.2.2.1 hpark, htier]
  rfl

theorem sesRevive_at_p2 (hgo : ItemGo s src) (hh : Handle s src h i e) (hwait : e.state = .waiting) (htier : e.tier = .p2)
    (hpark : e.park = none) (hrev : e.rev = none) (hok : (startRevival s i true).2 = 0) :
    ∃ (t : State) (e' : Session) (r : RevOp), Completes (.sesRevive src h) s src 0xC9 0 0 h e.tag t ∧ t.ses? i = some e' ∧
      e'.reviveBusy = true ∧ e'.rev = some r ∧ r.src = .p2 ∧ r.notify = true ∧ e'.tier = .p2 := by
  have hses : s.ses? i = some e := hh.2.2.1
  obtain ⟨op, hop, hsrc, hnotify⟩ := startRevival_starts hses hrev (by simp [htier]) hok
  have hbody : reviveBody i e s = ((startRevival s i true).1, .ok) := by
    unfold reviveBody
    rw [if_neg (by simp [hwait]), abortPark_of_none hses hpark, htier]
    dsimp only
    rw [if_pos hok]
  exact ⟨_, _, op, completes_of_done (c := .sesRevive src h) hgo hh (by simp [hwait]) (by simp [hwait]) rfl hbody,
    stampStatus_same hop 0, rfl, rfl, hsrc.trans htier, hnotify, by simp [Session.reviving, htier]⟩

/-! ### The statement -/

/-- Settles O34: each item completes by its body, and a session that rests at P1 stays there or starts the park chosen for it. -/
theorem sessionsWaitParkAndRevive : Obligations.SessionsWaitParkAndRevive := by
  unfold Obligations.SessionsWaitParkAndRevive
  intro s src h i e hgo hh hwait
  refine ⟨fun expect deadline htimes => ⟨_, sesWait_completes hgo hh hwait htimes, fun htier hpark hbusy _ hrevive h0 hpast =>
      waitState_of_past hwait ⟨htier, hpark, hbusy, hrevive⟩ h0 hpast⟩,
    fun expect deadline h0 hlate => sesWait_refused hgo hh hwait h0 hlate,
    fun hint => ⟨_, sesPark_completes hgo hh hwait hint,
      fun htier hpark hbusy _ hrevive hc => parkState_stays ⟨htier, hpark, hbusy, hrevive⟩ hc,
      fun htier hpark hbusy _ hrevive hc hcolour => parkState_parks ⟨htier, hpark, hbusy, hrevive⟩ hc hcolour⟩,
    fun htier hpark => sesRevive_at_p1 hgo hh hwait htier hpark,
    fun htier hpark hrev hok => sesRevive_at_p2 hgo hh hwait htier hpark hrev hok⟩

end Sys2Proof.Machine
end

section
/-! ses.hold, ses.release, ses.config of PRIO and TAG, and ses.migrate (R49, R60, R185). -/

namespace Sys2Proof.Machine

variable {s t : State} {src : Src} {h : Word} {i : Nat} {e : Session}

/-! ### Holds (R49, R185) -/

theorem slotHold_upd (s : State) (slot reason : Nat) (prefill : Bool) : ∃ g, slotHold s slot reason prefill = { s with gal := g } := by
  unfold slotHold
  split <;> exact ⟨_, rfl⟩

@[simp] theorem slotHold_regs (s : State) (slot reason : Nat) (prefill : Bool) : (slotHold s slot reason prefill).regs = s.regs := by
  obtain ⟨g, h⟩ := slotHold_upd s slot reason prefill; rw [h]

/-- The entry of a session held for a reason. -/
def Session.holding (e : Session) (reason now : Nat) : Session :=
  { e with state := .held, tier := .p1, holdReason := reason, holdReq := false, lifted := false, changeTime := now }

theorem holdSession_eq (hses : s.ses? i = some e) (reason : Nat) : ∃ (u : State) (n : Nat), holdSession s i reason = u.setSes i (e.holding reason n) ∧
    u.regs = s.regs := by
  unfold holdSession
  rw [hses]
  exact ⟨_, _, rfl, slotHold_regs ..⟩

theorem unholdSession_eq (hses : s.ses? i = some e) : ∃ (u : State) (e' : Session), unholdSession s i = u.setSes i e' ∧ u.regs = s.regs ∧
    e'.state = (if 0 < e.transcriptBytes then .prefill else .active) ∧ e'.holdReason = 0 ∧ e'.tokens = e.tokens := by
  unfold unholdSession
  rw [hses]
  dsimp only
  refine ⟨_, _, rfl, slotHold_regs .., ?_⟩
  by_cases hpre : 0 < e.transcriptBytes
  · simp only [hpre, decide_true, if_true]
    obtain ⟨p, b, htok⟩ := tokeniseSession_upd _ _
    rw [htok]
    exact ⟨rfl, rfl, rfl⟩
  · simp [hpre]

theorem running_ne (hrun : e.state = .active ∨ e.state = .prefill) : e.state ≠ .ended ∧ e.state ≠ .faulted := by
  rcases hrun with hrun | hrun <;> simp [hrun]

theorem betweenRuns_ne (hstate : e.state = .waiting ∨ e.state = .held) : e.state ≠ .ended ∧ e.state ≠ .faulted := by
  rcases hstate with hstate | hstate <;> simp [hstate]

section
variable (hgo : ItemGo s src) (hh : Handle s src h i e)
include hgo hh

theorem sesHold_holds (hrun : e.state = .active ∨ e.state = .prefill) (hout : inGalley s i = false) :
    ∃ (t : State) (e' : Session), Completes (.sesHold src h) s src 0xC4 0 0 h e.tag t ∧ t.ses? i = some e' ∧ e'.lastStatus = 0 ∧
      e'.state = .held ∧ e'.holdReason = 4 ∧ e'.tokens = e.tokens ∧ e'.tier = .p1 ∧ t.regs = s.regs := by
  obtain ⟨u, n, hhold, hregs⟩ := holdSession_eq hh.2.2.1 4
  have hbody : holdBody i e s = (holdSession s i 4, .ok) := by
    unfold holdBody
    rw [if_neg (by tauto), if_neg (by simp [hout])]
  rw [hhold] at hbody
  exact ⟨_, _, completes_of_done (c := .sesHold src h) hgo hh (running_ne hrun).1 (running_ne hrun).2 rfl hbody,
    stampStatus_same (ses_setSes_same ..) 0, rfl, rfl, rfl, by simp [Session.holding], rfl, by simp [hregs]⟩

theorem sesHold_marks (hrun : e.state = .active ∨ e.state = .prefill) (hin : inGalley s i = true) :
    ∃ (t : State) (e' : Session), Completes (.sesHold src h) s src 0xC4 0 0 h e.tag t ∧ t.ses? i = some e' ∧ e'.lastStatus = 0 ∧
      e'.state = e.state ∧ e'.holdReq = true ∧ t.regs = s.regs ∧ t.gal = s.gal := by
  have hbody : holdBody i e s = (s.setSes i { e with holdReq := true }, .ok) := by
    unfold holdBody
    rw [if_neg (by tauto), if_pos hin]
  exact ⟨_, _, completes_of_done (c := .sesHold src h) hgo hh (running_ne hrun).1 (running_ne hrun).2 rfl hbody,
    stampStatus_same (ses_setSes_same ..) 0, rfl, by simp, rfl, by simp, by simp⟩

theorem sesRelease_releases (hheld : e.state = .held) (hreason : e.holdReason = 4) :
    ∃ (t : State) (e' : Session), Completes (.sesRelease src h) s src 0xC5 0 0 h e.tag t ∧ t.ses? i = some e' ∧ e'.lastStatus = 0 ∧
      e'.state = (if 0 < e.transcriptBytes then .prefill else .active) ∧ e'.holdReason = 0 ∧ e'.tokens = e.tokens ∧
      t.regs = s.regs := by
  obtain ⟨u, e', hunhold, hregs, hstate, hzero, htok⟩ := unholdSession_eq hh.2.2.1
  have hbody : releaseBody i e s = (unholdSession s i, .ok) := by
    unfold releaseBody
    rw [if_neg (by simp [hheld, hreason])]
  rw [hunhold] at hbody
  exact ⟨_, _, completes_of_done (c := .sesRelease src h) hgo hh (by simp [hheld]) (by simp [hheld]) rfl hbody,
    stampStatus_same (ses_setSes_same ..) 0, rfl, by simp [hstate], by simp [hzero], by simp [htok], by simp [hregs]⟩

end

/-! ### ses.config (R60) -/

/-- A sequence slot's copies are all that a change of its entry writes elsewhere. -/
theorem slotCopy_upd (s : State) (e : Session) : ∃ g, slotCopy s e = { s with gal := g } := by
  unfold slotCopy
  split
  · split <;> exact ⟨_, rfl⟩
  · exact ⟨_, rfl⟩

@[simp] theorem slotCopy_regs (s : State) (e : Session) : (slotCopy s e).regs = s.regs := by
  obtain ⟨g, h⟩ := slotCopy_upd s e; rw [h]
@[simp] theorem slotCopy_hbm (s : State) (e : Session) : (slotCopy s e).hbm = s.hbm := by
  obtain ⟨g, h⟩ := slotCopy_upd s e; rw [h]
@[simp] theorem slotCopy_at_ses (s : State) (e : Session) (k : Nat) : (slotCopy s e).ses? k = s.ses? k := by
  obtain ⟨g, h⟩ := slotCopy_upd s e; rw [h]; rfl

theorem live_of_ne (hfree : e.state ≠ .free) (hend : e.state ≠ .ended) (hflt : e.state ≠ .faulted) : e.state.live = true := by
  cases hst : e.state <;> simp_all [SesState.live]

section
variable {selector index : Nat} {value old : Word} {e' : Session}

/-- A binding selector that keeps the grammar and the durability writes its value and nothing else of the entry. -/
theorem configBody_binding (hlive : e.state.live = true) (hlow : selector < 0x10) (h7 : selector ≠ 7)
    (hbind : configBinding s e selector value = .ok (old, e')) (hgram : e'.grammar = e.grammar) :
    configBody selector index value i e s = (slotCopy (s.setSes i e') e', .done 0 old 0 0) := by
  unfold configBody
  rw [if_neg (by simp [hlive]), if_pos hlow, hbind]
  dsimp only
  rw [if_neg (by tauto), if_neg (by omega), regram, if_neg (by simp [hgram])]

variable (hgo : ItemGo s src) (hh : Handle s src h i e) (hfree : e.state ≠ .free) (hend : e.state ≠ .ended)
  (hflt : e.state ≠ .faulted)
include hgo hh hfree hend hflt

theorem sesConfig_writes (hlow : selector < 0x10) (h7 : selector ≠ 7) (hbind : configBinding s e selector value = .ok (old, e'))
    (hgram : e'.grammar = e.grammar) : ∃ (t : State) (e'' : Session),
      Completes (.sesConfig src h selector index value) s src 0xCE 0 old h e.tag t ∧ t.ses? i = some e'' ∧
      e''.lastStatus = 0 ∧ e''.prio = e'.prio ∧ e''.tag = e'.tag ∧ e''.state = e'.state ∧ t.regs = s.regs ∧ t.hbm = s.hbm := by
  have hbody := configBody_binding (i := i) (index := index) (live_of_ne hfree hend hflt) hlow h7 hbind hgram
  refine ⟨_, _, completes_of_done (c := .sesConfig src h selector index value) hgo hh hend hflt rfl hbody,
    stampStatus_same ((slotCopy_at_ses ..).trans (ses_setSes_same ..)) 0, rfl, ?_⟩
  simp

theorem sesConfig_refused (hlow : selector < 0x10) {st : Nat} (hbind : configBinding s e selector value = .error st) :
    exec (.sesConfig src h selector index value) s = .next (completeFail (stampStatus s i st) src 0xCE st h e.tag) := by
  refine exec_of_fail (o := 0) (g := 0) hgo hh hend hflt rfl ?_
  unfold configBody
  rw [if_neg (by simp [live_of_ne hfree hend hflt]), if_pos hlow, hbind]
  rfl

end

/-! ### ses.migrate (R49) -/

/-- A session gives its sequence slot up: SEQ_VALID is clear afterwards, whether or not it had one. -/
theorem releaseSlot_snd (s : State) (e : Session) : (releaseSlot s e).2 =
    { e with seqValid := false, seqSlot := if e.seqValid then 0 else e.seqSlot } := by
  unfold releaseSlot
  split
  · simp
  · cases e
    simp_all

theorem releaseSlot_fst (s : State) (e : Session) : ∃ r m, (releaseSlot s e).1 =
    { s with regs := r, gal := { s.gal with slots := m } } := by
  unfold releaseSlot
  split <;> exact ⟨_, _, rfl⟩

theorem releaseSlot_slots (hvalid : e.seqValid = true) : (releaseSlot s e).1.gal.slots = mdel s.gal.slots e.seqSlot := by
  rw [releaseSlot, if_pos hvalid]
  rfl

theorem voidBuilt_upd (s : State) (i : Nat) : ∃ m, voidBuilt s i = { s with gal := { s.gal with slices := m } } := ⟨_, rfl⟩

theorem sesMigrate_leaves (hgo : ItemGo s src) (hh : Handle s src h i e) (hstate : e.state = .waiting ∨ e.state = .held)
    (hpark : e.park = none) (hrev : e.rev = none) (hfab : s.fab.stopped = false) (device : Nat) :
    ∃ (t : State) (e' : Session), Completes (.sesMigrate src h device) s src 0xC7 0 0 h e.tag t ∧ t.ses? i = some e' ∧
      e'.lastStatus = 0 ∧ e'.state = .migrating ∧ e'.seqValid = false ∧
      (∃ m : MigOp, e'.mig = some m ∧ m.dest = device ∧ m.prev = e.state) ∧ t.fab.sent = s.fab.sent ++ [.migrate i device] := by
  have hses : s.ses? i = some e := hh.2.2.1
  obtain ⟨r, m, hslot⟩ := releaseSlot_fst s e
  have hbody : ∃ (u : State) (e' : Session), migrateBody device i e s = (send (voidBuilt (u.setSes i e') i) (.migrate i device), .ok) ∧
      u.fab = s.fab ∧ e'.state = .migrating ∧ e'.seqValid = false ∧
      ∃ m : MigOp, e'.mig = some m ∧ m.dest = device ∧ m.prev = e.state := by
    unfold migrateBody
    rw [if_neg (by tauto), abortPark_of_none hses hpark, abortRevival_of_none hses hrev]
    dsimp only
    rw [hses]
    dsimp only
    rw [releaseSlot_snd, hslot]
    exact ⟨_, _, rfl, rfl, rfl, rfl, _, rfl, rfl, rfl⟩
  obtain ⟨u, e', hbody, hufab, hfacts⟩ := hbody
  have hentry : (send (voidBuilt (u.setSes i e') i) (.migrate i device)).ses? i = some e'.written :=
    (send_at_ses ..).trans (ses_setSes_same u i e')
  refine ⟨_, _, completes_of_done (c := .sesMigrate src h device) hgo hh (betweenRuns_ne hstate).1 (betweenRuns_ne hstate).2 rfl hbody,
    stampStatus_same hentry 0, rfl, by simpa using hfacts.1, by simpa using hfacts.2.1, by simpa using hfacts.2.2, ?_⟩
  rw [stampStatus_fab, send_sent (by rw [← hfab, ← hufab]; rfl), ← hufab]
  rfl

end Sys2Proof.Machine
end

section
/-! ses.fork (R52 to R57, R286, R604). -/

namespace Sys2Proof.Machine

variable {s t : State} {src : Src} {h : Word} {i j : Nat} {e : Session}

/-! ### The pages of a child (R54) -/

/-- What making a child's pages may write outside the table of entries: registers of allocation, frames and HBM. -/
structure ForkFrom (s t : State) : Prop where
  low : ∀ o, o < 0x200000 → t.reg o = s.reg o
  clk : t.clk = s.clk

theorem ForkFrom.trans {u : State} (h : ForkFrom s t) (h' : ForkFrom t u) : ForkFrom s u :=
  ⟨fun o ho => (h'.low o ho).trans (h.low o ho), h'.clk.trans h.clk⟩

theorem allocFrames_forkFrom {c kind near owner n : Nat} {fs : List Nat} (h : allocFrames c kind near owner n s = some (fs, t)) :
    ForkFrom s t := by
  refine ⟨fun o ho => allocFrames_reg ho h, ?_⟩
  obtain ⟨r, m, rfl⟩ := allocFrames_from h
  rfl

theorem copyPages_forkFrom (s : State) (ps : Map Word) (fs : List Nat) : ForkFrom s (copyPages s ps fs).1 :=
  ⟨fun o _ => foldl_frame (f := fun u (x : (Nat × Word) × Nat) => copyFrame u (refIndex x.1.2) x.2) (·.reg o) (fun _ _ => rfl) _ s,
    foldl_frame (f := fun u (x : (Nat × Word) × Nat) => copyFrame u (refIndex x.1.2) x.2) (·.clk) (fun _ _ => rfl) _ s⟩

theorem holdFrames_forkFrom (s : State) (fs : List Nat) : ForkFrom s (fs.foldl holdFrame s) := by
  refine ⟨fun o _ => foldl_frame (·.reg o) (fun u f => ?_) fs s, foldl_frame (·.clk) (fun u f => ?_) fs s⟩
  · unfold holdFrame
    split <;> rfl
  · unfold holdFrame
    split <;> rfl

/-- A fork writes its parent's entry, whose page references alone change, and hands out a child of the same binding. -/
theorem forkPages_spec {m : Model} {pos : Nat} {c : Session} (h : forkPages s i j e m pos = some (t, c)) :
    ∃ (u : State) (p : Session), ForkFrom s u ∧ t = { u with ses := { u.ses with entries := mset u.ses.entries i p } } ∧
      p.tokens = e.tokens ∧ p.state = e.state ∧ p.instar = e.instar ∧ c.vocab = e.vocab ∧ c.model = e.model := by
  unfold forkPages at h
  simp only [Option.bind_eq_bind, Option.bind_eq_some_iff, Prod.exists] at h
  obtain ⟨ls, s1, h1, ks, s2, h2, rs, s3, h3, as, s4, h4, heq⟩ := h
  have hfrom : ForkFrom s ((localFrames ((forkSplit m e.kv pos).1.map (·.2))).foldl holdFrame
      (copyPages (copyPages s4 (forkSplit m e.kv pos).2 ks).1 e.recur rs).1) :=
    (allocFrames_forkFrom h1).trans ((allocFrames_forkFrom h2).trans ((allocFrames_forkFrom h3).trans
      ((allocFrames_forkFrom h4).trans ((copyPages_forkFrom ..).trans ((copyPages_forkFrom ..).trans (holdFrames_forkFrom ..))))))
  obtain ⟨ht, hc⟩ := Prod.mk.inj (Option.some.inj heq)
  subst hc
  refine ⟨_, _, hfrom, ht.symm, ?_⟩
  simp [Session.recount]

/-! ### The effect of ses.fork -/

/-- Whether a page shared by a fork at a position has all the holders that its frame can count (R55). -/
def forkFull (s : State) (e : Session) (m : Model) (pos : Nat) : Bool :=
  (localFrames ((forkSplit m e.kv pos).1.map (·.2))).any fun f =>
    match s.frame f with | none => false | some x => decide (x.refcnt = 65535)

section
variable {pos lo hi inst : Nat} {tag : Word} {m : Model} {s1 s2 : State} {p : Session}

/-- The state that ses.fork leaves before its status is written: the child entered, bound and counted. -/
def forkState (s : State) (j : Nat) (c : Session) : State :=
  (bindSlots { s with ses := { s.ses with entries := mset s.ses.entries j c } } c).incWrap SES_LIVE_ALLOCATED 1

theorem forkState_reg (s : State) (j : Nat) (c : Session) {o : Nat} (ho : o < 0x200000) : (forkState s j c).reg o = s.reg o := by
  rw [forkState, State.incWrap, reg_setFld_other _ _ (by dsimp only; omega), bindSlots_reg _ _ ho]
  rfl

theorem forkState_ses (s : State) (j : Nat) (c : Session) (k : Nat) :
    (forkState s j c).ses? k = mget (mset s.ses.entries j c) k := by
  simp [forkState, State.ses?]

theorem forkBody_done (hstate : e.state = .waiting ∨ e.state = .held) (htier : e.tier = .p1) (hpos : pos ≤ e.tokens)
    (hm : mget s.gal.models e.model = some m) (hrecur : m.recur = true → pos = e.tokens) (hfull : forkFull s e m pos = false)
    (hbind : bindingOk s e.context e.vocab e.grammar e.model e.dur e.customer = true) (hmatch : slotsMatch s e = true)
    (hok : contractOk s e.context e.contract = true) (hroom : contractFull s e.contract = false) (hfree : s.ses.freeList ≠ [])
    (htake : takeIndex s = some (lo, inst, s1)) (hfork : forkPages s1 i lo e m pos = some (s2, p)) :
    forkBody src pos none tag i e s =
      (forkState s2 lo (childEntry p s2 inst src.queue pos none tag (handleOf s2 i e)),
       .done 0 (handleOf (forkState s2 lo (childEntry p s2 inst src.queue pos none tag (handleOf s2 i e))) lo
         (childEntry p s2 inst src.queue pos none tag (handleOf s2 i e))) 0 0) := by
  have hst : createRefusal s e.context e.contract
      (bindingOk s e.context e.vocab e.grammar e.model e.dur e.customer && slotsMatch s e) = 0 := by
    rw [hbind, hmatch]
    exact createRefusal_eq_zero hok hroom hfree
  unfold forkBody
  rw [if_neg (by simp [htier, hpos]; tauto), hm]
  dsimp only
  rw [if_neg (by tauto), if_neg ?shared, if_neg (by simp [hst]), htake]
  case shared => exact Bool.eq_false_iff.1 hfull
  dsimp only
  rw [hfork]
  rfl

end

theorem devAddr_of_reg (hreg : t.reg 0x44 = s.reg 0x44) : t.devAddr = s.devAddr := by
  unfold State.devAddr
  rw [fld_of_reg (g := GLB_DEV_ADDR_DEVICE) hreg, fld_of_reg (g := GLB_DEV_ADDR_PLANE) hreg]

theorem sesFork_forks {pos lo hi : Nat} {tag : Word} {m : Model} {rest : List (Nat × Nat)} (hgo : ItemGo s src)
    (hh : Handle s src h i e) (hstate : e.state = .waiting ∨ e.state = .held) (htier : e.tier = .p1) (hpos : pos ≤ e.tokens)
    (hm : mget s.gal.models e.model = some m) (hrecur : m.recur = true → pos = e.tokens) (hfull : forkFull s e m pos = false)
    (hbind : bindingOk s e.context e.vocab e.grammar e.model e.dur e.customer = true) (hmatch : slotsMatch s e = true)
    (hok : contractOk s e.context e.contract = true) (hroom : contractFull s e.contract = false)
    (hfree : s.ses.freeList = (lo, hi) :: rest) (hne : lo ≠ i)
    (hpages : ((takeIndex s).bind fun x => forkPages x.2.2 i lo e m pos).isSome) :
    ∃ (t : State) (c : Session), Completes (.sesFork src h pos false 0 tag) s src 0xC6 0 (handleOf t lo c) h e.tag t ∧
      t.ses? lo = some c ∧ c.state = .waiting ∧ c.tokens = pos ∧ c.link = handleOf t i e ∧ c.tag = tag ∧
      c.instar = (mget s.ses.freeInstar lo).getD s.ses.baseInstar ∧ c.vocab = e.vocab ∧ c.model = e.model ∧
      ∃ e' : Session, t.ses? i = some e' ∧ e'.tokens = e.tokens ∧ e'.state = e.state := by
  have htake := takeIndex_of_freeList hfree
  rw [htake, Option.bind_some, Option.isSome_iff_exists] at hpages
  obtain ⟨⟨s2, p⟩, hfork⟩ := hpages
  have hbody := forkBody_done (src := src) (tag := tag) hstate htier hpos hm hrecur hfull hbind hmatch hok hroom (by simp [hfree])
    htake hfork
  obtain ⟨u, q, -, hs2, htok, hst, -, hvocab, hmodel⟩ := forkPages_spec hfork
  generalize hc : childEntry p s2 _ src.queue pos none tag (handleOf s2 i e) = c at hbody
  have hdone := completes_of_done (c := .sesFork src h pos false 0 tag) hgo hh (betweenRuns_ne hstate).1
    (betweenRuns_ne hstate).2 rfl hbody
  have hdev : (stampStatus (forkState s2 lo c) i 0).devAddr = s2.devAddr := by
    rw [stampStatus_devAddr, devAddr_of_reg (forkState_reg s2 lo c (by omega))]
  have hparent : (forkState s2 lo c).ses? i = some q := by
    rw [forkState_ses, mget_mset_other _ hne.symm, hs2]
    exact mget_mset_same ..
  refine ⟨stampStatus (forkState s2 lo c) i 0, c, ?_, ?_, ?_⟩
  · rwa [handleOf_congr (stampStatus_devAddr ..) rfl]
  · rw [stampStatus_other _ _ _ hne, forkState_ses, mget_mset_same]
  · rw [handleOf_congr hdev rfl]
    subst hc
    exact ⟨rfl, rfl, rfl, rfl, rfl, hvocab, hmodel, _, stampStatus_same hparent 0, by simp [htok], by simp [hst]⟩

/-! ### The statement -/

/-- Settles O35: the entry that each item leaves, and what ses.fork enters beside it. -/
theorem sessionsHoldForkAndMigrate : Obligations.SessionsHoldForkAndMigrate := by
  unfold Obligations.SessionsHoldForkAndMigrate
  intro s src h i e hgo hh
  refine ⟨fun hrun => ⟨fun hout => sesHold_holds hgo hh hrun hout, fun hin => sesHold_marks hgo hh hrun hin⟩,
    fun hheld hreason => sesRelease_releases hgo hh hheld hreason, fun hfree hend hflt => ⟨fun v hv => ?_, fun v => ?_, fun v hv => ?_⟩,
    fun pos tag m lo hi rest hstate htier hpos hm hrecur hfull hbind hmatch hok hroom hlist hne hpages =>
      sesFork_forks hgo hh hstate htier hpos hm hrecur hfull hbind hmatch hok hroom hlist hne hpages,
    fun device hstate hpark hrev hfab => sesMigrate_leaves hgo hh hstate hpark hrev hfab device⟩
  · exact sesConfig_writes (selector := 1) (e' := { e with prio := v.toNat }) hgo hh hfree hend hflt (by decide) (by decide)
      (if_neg (by omega)) rfl
  · obtain ⟨t, e', hdone, hses, hstatus, hprio, htag, hframe⟩ := sesConfig_writes (selector := 4) (index := 0) (value := v)
      (e' := { e with tag := v }) hgo hh hfree hend hflt (by decide) (by decide) rfl rfl
    exact ⟨t, e', hdone, hses, hstatus, htag, hprio, hframe⟩
  · exact sesConfig_refused (selector := 1) hgo hh hfree hend hflt (by decide) (if_pos hv)

end Sys2Proof.Machine
end

section
/-! ses.cancel with its drain and its timeout, ses.end and ses.free (R36, R49, R63 to R69). -/

namespace Sys2Proof.Machine

variable {s t : State} {src : Src} {h : Word} {i : Nat} {e : Session}

/-! ### Entries that stay listed -/

/-- Whether an index has an entry. -/
def listed (s : State) (k : Nat) : Bool := (s.ses? k).isSome

theorem listed_of_ses (h : t.ses = s.ses) (k : Nat) : listed t k = listed s k := by
  rw [listed, ses?_of_ses h, listed]

theorem listed_setSes (hses : s.ses? i = some e) (e' : Session) (k : Nat) : listed (s.setSes i e') k = listed s k := by
  by_cases hk : k = i
  · subst hk
    simp [listed, hses, ses_setSes_same]
  · simp [listed, setSes_other s i e' hk]

theorem listed_setText (s : State) (i : Nat) (x : TextState) (k : Nat) : listed (s.setText i x) k = listed s k := by
  unfold State.setText
  split
  · rfl
  · next e he =>
    by_cases hk : k = i
    · subst hk
      simp [listed, State.ses?, show mget s.ses.entries k = some e from he]
    · simp [listed, State.ses?, mget_mset_other _ hk]

theorem listed_writeOut (s : State) (c q : Nat) (r : OutRec) (k : Nat) : listed (writeOut s c q r) k = listed s k := by
  unfold writeOut
  split
  · rfl
  · dsimp only
    rw [listed_setText]
    refine listed_of_ses ?_ k
    split_ifs <;> simp

theorem listed_postOut (s : State) (c q : Nat) (r : OutRec) (k : Nat) : listed (postOut s c q r) k = listed s k := by
  unfold postOut
  dsimp only
  split
  · exact listed_writeOut s c q r k
  · rfl

theorem listed_sendData (s : State) (j : Nat) (e : Session) (kind : Nat) (data : List Byte) (k : Nat) :
    listed (sendData s j e kind data) k = listed s k :=
  foldl_frame (listed · k) (fun u _ => listed_postOut u _ _ _ k) _ s

theorem listed_releaseBytes (s : State) (i : Nat) (raw : List Byte) (k : Nat) : listed (releaseBytes s i raw) k = listed s k := by
  unfold releaseBytes
  split
  · rfl
  · split
    · dsimp only
      rw [listed_sendData]
      split
      · exact listed_setText s i _ k
      · exact listed_setText s i _ k
    · exact listed_sendData ..
    · rfl

theorem listed_flushText (s : State) (i k : Nat) : listed (flushText s i) k = listed s k := by
  unfold flushText
  split
  · rfl
  · next e he =>
    dsimp only
    split
    · exact listed_releaseBytes s i _ k
    · split
      · rw [listed_sendData]
        exact (listed_setText _ i _ k).trans (listed_releaseBytes s i _ k)
      · exact (listed_setText _ i _ k).trans (listed_releaseBytes s i _ k)

@[simp] theorem closePage_ses (s : State) (b : Nat) : (closePage s b).ses = s.ses := by
  unfold closePage
  dsimp only
  split <;> rfl

@[simp] theorem journalSubmit_ses (s : State) (b : Nat) (r : DirRec) (p : HeadPage) : (journalSubmit s b r p).ses = s.ses := by
  unfold journalSubmit
  dsimp only
  split
  · rw [closePage_ses]
    rfl
  · rfl

/-- A tombstone writes at most its own state in the session's entry. -/
theorem tombstone_entry (hses : s.ses? i = some e) : ∃ n, (tombstone s i).ses? i = some { e with tombstone := n } := by
  unfold tombstone
  rw [hses]
  dsimp only
  split
  · exact ⟨e.tombstone, hses⟩
  · split
    · exact ⟨2, by simp [State.ses?]⟩
    · exact ⟨1, by simp [State.ses?]⟩

theorem tombstone_of_no_copy (hses : s.ses? i = some e) (hcopy : e.p3 = none) : tombstone s i = s := by
  simp [tombstone, hses, hcopy]

/-! ### Leaving service (R46, R49) -/

/-- A session that leaves service keeps its instar, its cancel and its name, and holds nothing any more. -/
theorem releaseState_entry (hses : s.ses? i = some e) (st : SesState) : ∃ e' : Session,
    (releaseState s i st).ses? i = some e' ∧ e'.state = st ∧ e'.kv = [] ∧ e'.seqValid = false ∧ e'.instar = e.instar ∧
    e'.cancel = e.cancel ∧ e'.cancelReq = e.cancelReq := by
  unfold releaseState
  rw [hses]
  dsimp only
  rw [releaseSlot_snd]
  exact ⟨_, (showBorrowed_at_ses ..).trans (ses_setSes_same ..), rfl, rfl, rfl, by simp, by simp, by simp⟩

/-! ### The drain (R66 to R69) -/

theorem finishCancel_ends {x : Src × Nat × Nat} (hses : s.ses? i = some e) (hcancel : e.cancel = some x) (st : Nat) :
    ∃ e' : Session, (finishCancel s i st).ses? i = some e' ∧ e'.state = .ended ∧ e'.cancel = none ∧ e'.lastStatus = st ∧
      e'.kv = [] ∧ e'.seqValid = false := by
  obtain ⟨e', hrel, hstate, hkv, hvalid, -⟩ := releaseState_entry hses .ended
  unfold finishCancel
  rw [hses]
  dsimp only
  rw [hcancel]
  dsimp only
  rw [hrel]
  exact ⟨_, (complete_at_ses ..).trans (ses_setSes_same ..), by simp [hstate], rfl, rfl, by simp [hkv], by simp [hvalid]⟩

theorem cancelDrainComplete_ends {x : Src × Nat × Nat} (hses : s.ses? i = some e) (hcancel : e.cancel = some x)
    (hstep : inStep s i = false) (htomb : e.tombstone = 0) : Ends (.cancelDrainComplete i) s fun t => ∃ e' : Session,
      t.ses? i = some e' ∧ e'.state = .ended ∧ e'.cancel = none ∧ e'.lastStatus = 0 ∧ e'.kv = [] ∧ e'.seqValid = false := by
  refine ends_of_eq (u := _) (t := finishCancel s i 0) rfl ?_ (finishCancel_ends hses hcancel 0)
  rw [hses]
  exact if_pos (by simp [hcancel, drained, hstep, htomb])

theorem sessionDrainTimeout_ends {x : Src × Nat × Nat} (hses : s.ses? i = some e) (hcancel : e.cancel = some x)
    (hlate : x.2.1 + s.fld FLT_TIMEOUT_B_DRAIN_MS * 1000000 ≤ s.clk.now) : Ends (.sessionDrainTimeout i) s fun t =>
      ∃ e' : Session, t.ses? i = some e' ∧ e'.state = .ended ∧ e'.cancel = none ∧ e'.lastStatus = 0xA001 := by
  obtain ⟨e', hentry, hstate, hnone, hstatus, -⟩ := finishCancel_ends hses hcancel 0xA001
  have hdrain : drainTimeout s i =
      fault (finishCancel s i 0xA001) (ctxSource e.context) 0x07 0xA001 (handleOf s i e) := by
    unfold drainTimeout
    rw [hses]
    dsimp only
    rw [hcancel]
    exact if_pos hlate
  exact ends_of_eq (u := drainTimeout s i) rfl hdrain ⟨e', (fault_at_ses ..).trans hentry, hstate, hnone, hstatus⟩

theorem drain_unchanged (hses : s.ses? i = some e) (hcancel : e.cancel = none) :
    exec (.cancelDrainComplete i) s = .next s ∧ exec (.sessionDrainTimeout i) s = .next s := by
  refine ⟨exec_unchanged rfl ?_, exec_unchanged (u := drainTimeout s i) rfl ?_⟩
  · rw [hses]
    exact if_neg (by simp [hcancel])
  · simp [drainTimeout, hses, hcancel]

/-! ### ses.cancel (R63 to R66) -/

theorem inStep_voidBuilt (s : State) (i k : Nat) : inStep (voidBuilt s i) k = inStep s k := by
  unfold inStep voidBuilt
  dsimp only
  rw [List.any_map]
  rfl

/-- A cancel with no park, revival, migration, end or copy to abandon: its slot is given up, its records are voided, and the drain
begins. -/
theorem beginCancel_entry (hses : s.ses? i = some e) (hpark : e.park = none) (hrev : e.rev = none) (hending : e.ending = none)
    (hmig : e.mig = none) (hcopy : e.p3 = none) : ∃ (u : State) (e' : Session),
      beginCancel s i src = dropWaiting (voidBuilt (u.setSes i e') i) i ∧ u = (releaseSlot s e).1 ∧
      e'.state = (if e.state = .faulted then .ended else .cancelling) ∧ e'.cancelReq = true ∧ e'.seqValid = false ∧
      e'.cancel = some (src, s.clk.now, e.text.sampler.nextOseq) ∧ e'.tokens = e.tokens := by
  have htomb (u : State) (e' : Session) (hnone : e'.p3 = none) :
      tombstone (dropWaiting (voidBuilt (u.setSes i e') i) i) i = dropWaiting (voidBuilt (u.setSes i e') i) i :=
    tombstone_of_no_copy (ses_setSes_same u i e') ((Session.written_p3 e').trans hnone)
  unfold beginCancel
  rw [abortPark_of_none hses hpark, abortRevival_of_none hses hrev]
  dsimp only
  rw [hses]
  dsimp only
  rw [hending, hmig]
  dsimp only
  rw [if_neg (by simp), releaseSlot_snd]
  rw [htomb _ _ ?copy]
  case copy => exact hcopy
  exact ⟨_, _, rfl, rfl, rfl, rfl, rfl, rfl, rfl⟩

theorem inService_ne (hstate : e.state = .active ∨ e.state = .waiting ∨ e.state = .held ∨ e.state = .prefill) :
    e.state ≠ .cancelling ∧ e.state ≠ .ended ∧ e.state ≠ .faulted ∧ e.state ≠ .migrating := by
  rcases hstate with hst | hst | hst | hst <;> simp [hst]

theorem sesCancel_drains (hgo : ItemGo s src) (hh : Handle s src h i e)
    (hstate : e.state = .active ∨ e.state = .waiting ∨ e.state = .held ∨ e.state = .prefill) (hpark : e.park = none)
    (hrev : e.rev = none) (hending : e.ending = none) (hmig : e.mig = none) (hcopy : e.p3 = none) :
    Ends (.sesCancel src h) s fun t => ∃ e' : Session, t.ses? i = some e' ∧ e'.state = .cancelling ∧ e'.cancelReq = true ∧
      e'.seqValid = false ∧ e'.cancel = some (src, s.clk.now, e.text.sampler.nextOseq) ∧ e'.tokens = e.tokens ∧
      (e.seqValid = true → mwf s.gal.slots = true → mget t.gal.slots e.seqSlot = none) ∧ inStep t i = inStep s i ∧
      t.hbm = s.hbm := by
  obtain ⟨hcancelled, hend, hflt, -⟩ := inService_ne hstate
  obtain ⟨u, e', hbegin, hu, hcancelling, hreq, hvalid, hcancel, htok⟩ :=
    beginCancel_entry (src := src) hh.2.2.1 hpark hrev hending hmig hcopy
  have hbody : cancelBody src i e s = (dropWaiting (voidBuilt (u.setSes i e') i) i, .later) := by
    rw [cancelBody, if_neg hcancelled, hbegin]
  obtain ⟨r, m, hslot⟩ := releaseSlot_fst s e
  refine ⟨_, exec_of_later hgo hh hend hflt (c := .sesCancel src h) rfl hbody, _, ses_setSes_same u i e', ?_, by simp [hreq],
    by simp [hvalid], ?_, by simp [htok], fun hseq hwf => ?_, ?_, ?_⟩
  · simp [hcancelling, hflt]
  · simp [hcancel]
  · have hslots : u.gal.slots = mdel s.gal.slots e.seqSlot := by rw [hu, releaseSlot_slots hseq]
    show mget u.gal.slots e.seqSlot = none
    rw [hslots, mget_mdel_same _ hwf]
  · refine (inStep_voidBuilt (u.setSes i e') i i).trans ?_
    rw [hu, hslot]
    rfl
  · show u.hbm = s.hbm
    rw [hu, hslot]

/-! ### ses.end and ses.free -/

theorem finishEnd_ends (hses : s.ses? i = some e) (src : Src) : ∃ e' : Session, (finishEnd s i src).ses? i = some e' ∧
    e'.state = .ended ∧ e'.lastStatus = 0 ∧ e'.kv = [] ∧ e'.p3 = none ∧ e'.seqValid = false := by
  have hflush : listed (flushText s i) i = true :=
    (listed_flushText ..).trans (by simp [listed, hses])
  obtain ⟨e1, he1⟩ := Option.isSome_iff_exists.1 hflush
  have hfinal : listed (sendFinal (flushText s i) i e1 6 0) i = true := (listed_postOut ..).trans hflush
  obtain ⟨e2, he2⟩ := Option.isSome_iff_exists.1 hfinal
  obtain ⟨n, htomb⟩ := tombstone_entry he2
  obtain ⟨e', hrel, hstate, hkv, hvalid, -⟩ :=
    releaseState_entry (s := voidBuilt (tombstone (sendFinal (flushText s i) i e1 6 0) i) i) htomb .ended
  unfold finishEnd
  dsimp only
  rw [he1]
  dsimp only
  rw [hrel]
  exact ⟨_, (complete_at_ses ..).trans (ses_setSes_same ..), by simp [hstate], rfl, by simp [hkv], rfl, by simp [hvalid]⟩

section
variable (hgo : ItemGo s src) (hh : Handle s src h i e)
  (hstate : e.state = .active ∨ e.state = .waiting ∨ e.state = .held ∨ e.state = .prefill) (hreq : e.endReq = false)
include hgo hh hstate hreq

theorem sesEnd_waits (hstep : inStep s i = true) : Ends (.sesEnd src h) s fun t => ∃ e' : Session, t.ses? i = some e' ∧
    e'.state = e.state ∧ e'.endReq = true ∧ e'.ending = some src ∧ t.regs = s.regs ∧ t.gal = s.gal := by
  obtain ⟨hcancelled, hend, hflt, hmig⟩ := inService_ne hstate
  have hbody : endBody src i e s = (s.setSes i { e with endReq := true, ending := some src }, .later) := by
    unfold endBody
    rw [if_neg (by simp [hcancelled, hmig, hreq]), if_pos hstep]
  exact ⟨_, exec_of_later hgo hh (c := .sesEnd src h) hend hflt rfl hbody, _, ses_setSes_same .., by simp, rfl, rfl,
    by simp, by simp⟩

theorem sesEnd_ends (hstep : inStep s i = false) (hpark : e.park = none) : Ends (.sesEnd src h) s fun t => ∃ e' : Session,
    t.ses? i = some e' ∧ e'.state = .ended ∧ e'.lastStatus = 0 ∧ e'.kv = [] ∧ e'.p3 = none ∧ e'.seqValid = false := by
  obtain ⟨hcancelled, hend, hflt, hmig⟩ := inService_ne hstate
  have hbody : endBody src i e s = (finishEnd s i src, .later) := by
    unfold endBody
    rw [if_neg (by simp [hcancelled, hmig, hreq]), if_neg (by simp [hstep]),
      abortPark_of_none hh.2.2.1 hpark]
  exact ⟨_, exec_of_later hgo hh (c := .sesEnd src h) hend hflt rfl hbody, finishEnd_ends hh.2.2.1 src⟩

end

theorem sesFree_frees (hgo : ItemGo s src) (hh : Handle s src h i e) (hstate : e.state = .ended ∨ e.state = .faulted)
    (hwf : mwf s.ses.entries = true) : ∃ t : State, Completes (.sesFree src h) s src 0xCC 0 0 h e.tag t ∧ t.ses? i = none ∧
      t.ses.freeList = s.ses.freeList ++ [(i, i)] ∧
      mget t.ses.freeInstar i = some (if e.instar = 0xFFFFFF then 1 else e.instar + 1) ∧ t.hbm = s.hbm ∧ t.gal = s.gal := by
  have hbody : ∃ t, freeBody i e s = (t, .ok) ∧ t.ses? i = none ∧ t.ses.freeList = s.ses.freeList ++ [(i, i)] ∧
      mget t.ses.freeInstar i = some (nextInstar e.instar) ∧ t.hbm = s.hbm ∧ t.gal = s.gal := by
    unfold freeBody
    rw [if_neg (by tauto)]
    exact ⟨_, rfl, mget_mdel_same i hwf, rfl, mget_mset_same .., rfl, rfl⟩
  obtain ⟨t, hbody, hnone, hlist, hinstar, hhbm, hgal⟩ := hbody
  have hstamp : stampStatus t i 0 = t := by simp [stampStatus, hnone]
  refine ⟨t, ?_, hnone, hlist, hinstar, hhbm, hgal⟩
  have hdone := sesItem_done (op := 0xCC) (moved := true) hgo hh (fun _ => rfl) (fun _ => rfl) hbody
  rw [hstamp] at hdone
  exact congrArg _ hdone

/-! ### The statement -/

/-- Settles O36: the entry that each item and event leaves, and the index that ses.free gives back. -/
theorem sessionsCancelEndAndFree : Obligations.SessionsCancelEndAndFree := by
  unfold Obligations.SessionsCancelEndAndFree
  intro s src h i e hses
  refine ⟨fun hgo hh hstate hpark hrev hending hmig hcopy => sesCancel_drains hgo hh hstate hpark hrev hending hmig hcopy,
    fun x hcancel hstep htomb => cancelDrainComplete_ends hses hcancel hstep htomb,
    fun x hcancel hlate => sessionDrainTimeout_ends hses hcancel hlate, fun hcancel => drain_unchanged hses hcancel,
    fun hgo hh hstate hreq => ⟨fun hstep => sesEnd_waits hgo hh hstate hreq hstep,
      fun hstep hpark _ => sesEnd_ends hgo hh hstate hreq hstep hpark⟩,
    fun hgo hh hstate hwf => sesFree_frees hgo hh hstate hwf⟩

end Sys2Proof.Machine
end

section
/-! The wait grace, the overdue rule, the proactive start and the deadline (R50, R76, R83, R87, R90, R91). -/

namespace Sys2Proof.Machine

variable {s t : State} {i : Nat} {e : Session}

/-! ### The horizon rule -/

/-- A session whose wait grace is over. -/
def Session.graced (e : Session) : Session := { e with graceAt := none }

theorem Resting.graced (h : Resting e) : Resting e.graced.written := by
  obtain ⟨htier, hpark, hparkBusy, hreviveBusy⟩ := h
  exact ⟨htier, hpark, hparkBusy, hreviveBusy⟩

theorem applyHorizon_eq (hses : s.ses? i = some e) (hint : Nat) :
    applyHorizon s i hint = applyChoice (s.setSes i e.graced) i (chooseTier s e hint) := by
  unfold applyHorizon
  rw [hses]
  rfl

theorem applyHorizon_entry (hses : s.ses? i = some e) (hrest : Resting e) (hint : Nat) : ∃ e' : Session,
    (applyHorizon s i hint).ses? i = some e' ∧ e'.tier = .p1 ∧ e'.state = e.state ∧ e'.expectTime = e.expectTime ∧
    e'.deadline = e.deadline ∧ e'.graceAt = none := by
  rw [applyHorizon_eq hses]
  exact applyChoice_entry (ses_setSes_same s i e.graced) hrest.graced (chooseTier_chosen s e hint)

theorem applyHorizon_stay (hses : s.ses? i = some e) (hrest : Resting e) {hint : Nat}
    (hstay : (chooseTier s e hint).tier = .p1) : applyHorizon s i hint = s.setSes i e.graced := by
  rw [applyHorizon_eq hses]
  exact applyChoice_stay (ses_setSes_same s i e.graced) hrest.graced hstay

theorem applyHorizon_parks (hses : s.ses? i = some e) (hrest : Resting e) {hint : Nat} {c : Choice}
    (hc : chooseTier s e hint = c) (hmoves : c.tier ≠ .p1) (hcolour : (policePark s e c.tier c.bytes).1 ≠ 3) :
    ∃ p : ParkOp, (applyHorizon s i hint).ses? i = some (e.graced.written.parking p).written ∧ p.target = c.tier ∧
      p.place = c.place ∧ p.bytes = c.bytes := by
  have hchosen : c.tier = .p2 ∨ c.tier = .p3 := (hc ▸ chooseTier_chosen s e hint).resolve_left hmoves
  have hcolour' : (policePark (s.setSes i e.graced) e.graced.written c.tier c.bytes).1 ≠ 3 :=
    (policePark_fst_of_mkr (s := s) (t := s.setSes i e.graced) (e := e) (e' := e.graced.written) rfl rfl rfl c.tier
      c.bytes).trans_ne hcolour
  obtain ⟨p, hpark, htarget, hplace, hbytes, -⟩ := startPark_starts (ses_setSes_same s i e.graced) hcolour' false
  refine ⟨p, ?_, htarget, hplace, hbytes⟩
  rw [applyHorizon_eq hses, hc, applyChoice_park (ses_setSes_same s i e.graced) hrest.graced hchosen]
  exact hpark

/-! ### The wait grace (R50) -/

theorem waitGraceExpiry_ends {t0 : Nat} (hses : s.ses? i = some e) (hwait : e.state = .waiting) (hrest : Resting e)
    (hgrace : e.graceAt = some t0) (hover : t0 ≤ s.clk.now) {c : Choice} (hc : chooseTier s e 0 = c) :
    Ends (.waitGraceExpiry i) s fun t => ∃ e' : Session,
      t.ses? i = some e' ∧ e'.graceAt = none ∧ e'.tier = .p1 ∧ e'.expectTime = e.expectTime ∧
      (c.tier = .p1 → e'.park = none ∧ t.regs = s.regs) ∧
      (c.tier ≠ .p1 → (policePark s e c.tier c.bytes).1 ≠ 3 → e'.parkBusy = true ∧
        (e'.park.map fun p => (p.target, p.place, p.bytes)) = some (c.tier, c.place, c.bytes)) := by
  have hexpiry : graceExpiry s i = applyHorizon s i 0 := by
    unfold graceExpiry
    rw [hses]
    dsimp only
    rw [hgrace]
    exact if_pos ⟨hwait, hover⟩
  obtain ⟨e', hentry, htier, -, hexpect, -, hnone⟩ := applyHorizon_entry hses hrest 0
  refine ends_of_eq (u := graceExpiry s i) rfl hexpiry ⟨e', hentry, hnone, htier, hexpect, fun hstay => ?_, fun hmoves hcolour => ?_⟩
  · rw [applyHorizon_stay hses hrest (by rw [hc, hstay])] at hentry ⊢
    have hsame := Option.some.inj ((ses_setSes_same s i e.graced).symm.trans hentry)
    exact ⟨hsame ▸ hrest.park, rfl⟩
  · obtain ⟨p, hpark, htarget, hplace, hbytes⟩ := applyHorizon_parks hses hrest hc hmoves hcolour
    obtain rfl := Option.some.inj (hpark.symm.trans hentry)
    exact ⟨rfl, congrArg some (Prod.ext htarget (Prod.ext hplace hbytes))⟩

theorem waitGraceExpiry_early {t0 : Nat} (hses : s.ses? i = some e) (hgrace : e.graceAt = some t0) (hearly : s.clk.now < t0) :
    exec (.waitGraceExpiry i) s = .next s := by
  refine exec_unchanged (u := graceExpiry s i) rfl ?_
  unfold graceExpiry
  rw [hses]
  dsimp only
  rw [hgrace]
  exact if_neg fun h => absurd h.2 (Nat.not_le.2 hearly)

/-! ### The overdue rule (R90) -/

/-- What the overdue rule leaves of a session before the horizon rule is applied. -/
def Session.overdueAt (e : Session) (now : Nat) : Session :=
  { e with expectTime := if now < e.deadline then e.deadline else 0, overdueDone := decide (e.deadline ≤ now) }

theorem Resting.overdueAt (h : Resting e) (now : Nat) : Resting (e.overdueAt now).written := by
  obtain ⟨htier, hpark, hparkBusy, hreviveBusy⟩ := h
  exact ⟨htier, hpark, hparkBusy, hreviveBusy⟩

theorem overdueExpiry_ends (hses : s.ses? i = some e) (hwait : e.state = .waiting) (hrest : Resting e) (h0 : e.expectTime ≠ 0)
    (hfirst : e.overdueDone = false) (hover : e.expectTime + s.fld (SES_CLASS_A_OVERDUE_MS e.cls) * 1000000 ≤ s.clk.now) :
    Ends (.overdueExpiry i) s fun t => ∃ e' : Session, t.ses? i = some e' ∧
      e'.expectTime = (if s.clk.now < e.deadline then e.deadline else 0) ∧ e'.deadline = e.deadline ∧ e'.state = .waiting ∧
      e'.tier = .p1 := by
  have hrule : overdue s i = applyHorizon (s.setSes i (e.overdueAt s.clk.now)) i 0 := by
    unfold overdue
    rw [hses]
    exact if_pos ⟨hwait, hrest.tier, hrest.reviveBusy, h0, hfirst, hover⟩
  obtain ⟨e', hentry, htier, hstate, hexpect, hdeadline, -⟩ :=
    applyHorizon_entry (ses_setSes_same s i (e.overdueAt s.clk.now)) (hrest.overdueAt s.clk.now) 0
  exact ends_of_eq (u := overdue s i) rfl hrule ⟨e', hentry, hexpect, hdeadline, hstate.trans hwait, htier⟩

theorem overdueExpiry_early (hses : s.ses? i = some e)
    (hearly : s.clk.now < e.expectTime + s.fld (SES_CLASS_A_OVERDUE_MS e.cls) * 1000000) :
    exec (.overdueExpiry i) s = .next s := by
  refine exec_unchanged (u := overdue s i) rfl ?_
  unfold overdue
  rw [hses]
  exact if_neg fun ⟨_, _, _, _, _, hover⟩ => absurd hover (Nat.not_le.2 hearly)

/-! ### The proactive start (R87) -/

theorem proactiveRevivalStart_ends (hses : s.ses? i = some e) (hwait : e.state = .waiting) (hpark : e.park = none)
    (hrev : e.rev = none) (hrevBusy : e.reviveBusy = false)
    (hbelow : e.tier = .p2 ∨ (e.tier = .p3 ∧ ∃ y, e.p3 = some y ∧ copyPresent s y = true)) (h0 : e.expectTime ≠ 0)
    (hdue : e.expectTime * tick ≤ s.clk.now * tick + revTime e.tier (sesBytes e) + margin s e.cls e.tier (sesBytes e))
    (hok : (startRevival s i false).2 = 0) :
    Ends (.proactiveRevivalStart i) s fun t => ∃ (e' : Session) (r : RevOp), t.ses? i = some e' ∧ e'.reviveBusy = true ∧
      e'.rev = some r ∧ r.src = e.tier ∧ r.notify = false ∧ e'.tier = e.tier := by
  have htier : e.tier = .p2 ∨ e.tier = .p3 := hbelow.imp_right And.left
  have hcopy : e.tier = .p3 → ∃ y, e.p3 = some y ∧ copyPresent s y = true := fun h3 => by
    rcases hbelow with h2 | ⟨-, hy⟩
    · exact absurd (h2.symm.trans h3) (by simp)
    · exact hy
  obtain ⟨op, hentry, hsrc, hnotify⟩ := startRevival_starts hses hrev hcopy hok
  refine ends_of_eq (u := _) (t := (startRevival s i false).1) rfl ?_ ⟨_, op, hentry, rfl, rfl, hsrc, hnotify, rfl⟩
  rw [hses]
  dsimp only
  rw [if_pos ?due, abortPark_of_none hses hpark]
  case due => simp [proactiveDue, State.now, hwait, htier, hrevBusy, h0, hdue]

theorem proactiveRevivalStart_early (hses : s.ses? i = some e)
    (hearly : s.clk.now * tick + revTime e.tier (sesBytes e) + margin s e.cls e.tier (sesBytes e) < e.expectTime * tick) :
    exec (.proactiveRevivalStart i) s = .next s := by
  refine exec_unchanged rfl ?_
  rw [hses]
  exact if_neg fun hdue => absurd (of_decide_eq_true (Bool.and_eq_true _ _ ▸ hdue).2) (Nat.not_le.2 hearly)

/-! ### The deadline (R91) -/

theorem deadlinePassed_notice (hses : s.ses? i = some e) (hwait : e.state = .waiting) (h0 : e.deadline ≠ 0)
    (hpast : e.deadline ≤ s.clk.now) (hfirst : e.deadlineDone = false) :
    exec (.deadlinePassed i) s = .next (sesNoticeFree (s.setSes i { e with deadlineDone := true }) i 10 0x2016) := by
  refine congrArg Host.Outcome.next (?_ : deadlineRule s i = _)
  unfold deadlineRule
  rw [hses]
  exact if_pos ⟨hwait, h0, hfirst, hpast⟩

theorem deadlinePassed_once (hses : s.ses? i = some e) (hdone : e.deadlineDone = true) :
    exec (.deadlinePassed i) s = .next s := by
  refine exec_unchanged (u := deadlineRule s i) rfl ?_
  unfold deadlineRule
  rw [hses]
  exact if_neg (by simp [hdone])

/-! ### The statement -/

/-- Settles O37: the horizon rule, the revival or the notice that each event brings when its time has come, and nothing before. -/
theorem waitingSessionsFollowTheirTimes : Obligations.WaitingSessionsFollowTheirTimes := by
  unfold Obligations.WaitingSessionsFollowTheirTimes
  intro s i e hses hwait hpark hparkBusy hrev hrevBusy c
  refine ⟨fun htier t0 hgrace hover => waitGraceExpiry_ends hses hwait ⟨htier, hpark, hparkBusy, hrevBusy⟩ hgrace hover rfl,
    fun t0 hgrace hearly => waitGraceExpiry_early hses hgrace hearly, fun htier h0 hfirst => ⟨fun hover =>
      overdueExpiry_ends hses hwait ⟨htier, hpark, hparkBusy, hrevBusy⟩ h0 hfirst hover, overdueExpiry_early hses⟩,
    fun hbelow h0 => ⟨proactiveRevivalStart_ends hses hwait hpark hrev hrevBusy hbelow h0, proactiveRevivalStart_early hses⟩,
    fun h0 hpast => ⟨deadlinePassed_notice hses hwait h0 hpast, deadlinePassed_once hses⟩⟩

end Sys2Proof.Machine
end

section
/-! The commit of a park and its failure, and the commit of a revival (R37, R83 to R85, R93, R286). -/

namespace Sys2Proof.Machine

variable {s t : State} {i : Nat} {e : Session} {op : ParkOp}

/-! ### The park of P2 (R84) -/

theorem parkProgress_of_park (hses : s.ses? i = some e) (hpark : e.park = some op) : parkProgress s i =
    if op.target = .p2 then commitP2 s i e op
    else if op.journal = 0 then submitPark s i e op
    else if op.journal = 2 then commitP3 s i e op
    else s := by
  unfold parkProgress
  rw [hses]
  dsimp only
  rw [hpark]

theorem commitP2_entry (s : State) (i : Nat) (e : Session) (op : ParkOp) : ∃ (e' : Session) (y : Copy),
    (commitP2 s i e op).ses? i = some e' ∧ e'.tier = .p2 ∧ e'.lender = op.place ∧ e'.park = none ∧ e'.parkBusy = false ∧
    e'.kvRoot = 0 ∧ e'.recurRoot = 0 ∧ e'.tokens = e.tokens ∧ e'.p2 = some y ∧ y.tokens = e.tokens := by
  unfold commitP2
  exact ⟨_, makeCopy s e 0 true, (showBorrowed_at_ses ..).trans (ses_setSes_same ..), rfl, rfl, rfl, rfl, rfl, rfl,
    by simp [deepRefs], rfl, by simp [makeCopy]⟩

/-! ### The park of P3: its record, and its commit (R84, R93) -/

theorem bay_setBay_same (s : State) (b : Nat) (x : Bay) : (s.setBay b x).bay b = x := by
  simp [State.bay, State.setBay]

theorem bay_setSes (s : State) (i : Nat) (e : Session) (b : Nat) : (s.setSes i e).bay b = s.bay b := rfl

theorem ensureKey_nextJseq (s : State) (c b : Nat) : ((ensureKey s c b).bay b).nextJseq = (s.bay b).nextJseq := by
  unfold ensureKey
  split
  · dsimp only
    split
    · rfl
    · rw [bay_setBay_same]
  · dsimp only
    split
    · rfl
    · rw [bay_setBay_same]
      rfl

theorem closePage_nextJseq (s : State) (b : Nat) : ((closePage s b).bay b).nextJseq = (s.bay b).nextJseq := by
  unfold closePage
  dsimp only
  split
  · rfl
  · rw [bay_setBay_same]

theorem journalSubmit_nextJseq (s : State) (b : Nat) (r : DirRec) (p : HeadPage) :
    ((journalSubmit s b r p).bay b).nextJseq = (s.bay b).nextJseq + 1 := by
  unfold journalSubmit
  dsimp only
  split
  · rw [closePage_nextJseq, bay_setBay_same]
  · rw [bay_setBay_same]

theorem submitPark_entry (s : State) (i : Nat) (e : Session) (op : ParkOp) :
    (submitPark s i e op).ses? i = some ({ e with park := some { op with journal := 1 } } : Session).written ∧
    ((submitPark s i e op).bay op.place).nextJseq = (s.bay op.place).nextJseq + 1 := by
  unfold submitPark
  dsimp only
  refine ⟨ses_setSes_same .., ?_⟩
  rw [bay_setSes, journalSubmit_nextJseq, ← ensureKey_nextJseq s e.context op.place]
  rfl

theorem commitP3_entry (s : State) (i : Nat) (e : Session) (hmove : op.copyOnly = false) : ∃ (e' : Session) (y : Copy),
    (commitP3 s i e op).ses? i = some e' ∧ e'.tier = .p3 ∧ e'.bay = op.place ∧ e'.park = none ∧ e'.parkBusy = false ∧
    e'.dirtyPages = 0 ∧ e'.p3 = some y ∧ y.bay = op.place ∧ y.tokens = e.tokens ∧
    y.pages = e.kvPages + 1 + e.transcriptPages.length := by
  unfold commitP3
  dsimp only
  rw [if_neg ?moves]
  case moves => simp [hmove]
  exact ⟨_, _, (showBorrowed_at_ses ..).trans (ses_setSes_same ..), rfl, rfl, rfl, rfl, rfl, rfl, by simp [makeCopy],
    by simp [makeCopy], by simp [makeCopy, sesPages]⟩

/-! ### A park that fails (R85) -/

theorem parkFailed_retries (hses : s.ses? i = some e) (hpark : e.park = some op) (hfirst : op.retried = false) {p n : Nat}
    (hother : otherPlace s e op = some (p, n)) (st : Nat) : parkFailed s i st =
      s.setSes i { e with park := some { op with place := p, bytes := n, started := s.clk.now, retried := true, journal := 0 } } := by
  unfold parkFailed
  rw [hses]
  dsimp only
  rw [hpark]
  dsimp only
  rw [if_neg (by simp [hfirst]), hother]
  rfl

theorem parkFailed_ends (hses : s.ses? i = some e) (hpark : e.park = some op) (hretried : op.retried = true)
    (hlive : e.cancelReq = false) (st : Nat) : ∃ e' : Session, (parkFailed s i st).ses? i = some e' ∧ e'.park = none ∧
      e'.parkBusy = false ∧ e'.tier = e.tier ∧ e'.lastStatus = st := by
  unfold parkFailed
  rw [hses]
  dsimp only
  rw [hpark]
  dsimp only
  rw [if_pos hretried]
  refine ⟨_, sesNoticeFree_same (ses_setSes_same ..) 5 st, ?_⟩
  rw [if_neg ?live]
  case live => simp [hlive]
  exact ⟨rfl, rfl, by simp, rfl⟩

/-! ### The page references of a revival (R93, R286) -/

theorem refLoc_pageRef_local (d : Bool) (f : Nat) : refLoc (pageRef d false 1 0 f) = 1 := by
  unfold refLoc bits pageRef
  rw [BitVec.toNat_ofNat]
  cases d <;> simp only [b2n] <;> omega

theorem assignRefs_length : ∀ (rs : List Word) (fs : List Nat), (assignRefs rs fs).1.length = rs.length
  | [], _ => rfl
  | r :: rs, [] => by
    unfold assignRefs
    split_ifs <;> simp [assignRefs_length rs []]
  | r :: rs, f :: fs => by
    unfold assignRefs
    split_ifs
    · simp [assignRefs_length rs (f :: fs)]
    · simp [assignRefs_length rs fs]

/-- Where the frames suffice, every reference comes to local HBM, and one frame at most is used for each. -/
theorem assignRefs_local : ∀ (rs : List Word) (fs : List Nat), rs.length ≤ fs.length →
    (∀ r ∈ (assignRefs rs fs).1, refLoc r = 1) ∧ fs.length ≤ (assignRefs rs fs).2.length + rs.length
  | [], fs, _ => ⟨by simp [assignRefs], by simp [assignRefs]⟩
  | r :: rs, [], h => absurd h (by simp)
  | r :: rs, f :: fs, h => by
    have hlen : rs.length ≤ fs.length := Nat.le_of_succ_le_succ h
    unfold assignRefs
    split_ifs with hloc
    · obtain ⟨hall, hspare⟩ := assignRefs_local rs (f :: fs) (Nat.le_succ_of_le hlen)
      exact ⟨List.forall_mem_cons.2 ⟨hloc, hall⟩, by simp only [List.length_cons] at hspare ⊢; omega⟩
    · obtain ⟨hall, hspare⟩ := assignRefs_local rs fs hlen
      exact ⟨List.forall_mem_cons.2 ⟨refLoc_pageRef_local _ f, hall⟩, by simp only [List.length_cons]; omega⟩

theorem revRefs_local {fs : List Nat} (h : e.refs.length ≤ fs.length) : ∀ r ∈ (revRefs e fs).1.refs, refLoc r = 1 := by
  simp only [Session.refs, List.length_append, List.length_map, List.length_singleton] at h
  obtain ⟨ha, hna⟩ := assignRefs_local [e.aux] fs (by simp only [List.length_singleton]; omega)
  obtain ⟨ht, hnt⟩ := assignRefs_local e.transcriptPages (assignRefs [e.aux] fs).2
    (by simp only [List.length_singleton] at hna; omega)
  obtain ⟨hr, hnr⟩ := assignRefs_local (e.recur.map (·.2)) (assignRefs e.transcriptPages (assignRefs [e.aux] fs).2).2
    (by simp only [List.length_singleton, List.length_map] at hna ⊢; omega)
  obtain ⟨hk, -⟩ := assignRefs_local (e.kv.map (·.2))
    (assignRefs (e.recur.map (·.2)) (assignRefs e.transcriptPages (assignRefs [e.aux] fs).2).2).2
    (by simp only [List.length_singleton, List.length_map] at hna hnr ⊢; omega)
  have haux : (assignRefs [e.aux] fs).1.headD 0 ∈ (assignRefs [e.aux] fs).1 := by
    have hlen := assignRefs_length [e.aux] fs
    cases hx : (assignRefs [e.aux] fs).1 with
    | nil => simp [hx] at hlen
    | cons x xs => simp
  intro r hmem
  unfold revRefs Session.refs at hmem
  dsimp only at hmem
  rw [List.map_snd_zip (by simp [assignRefs_length]), List.map_snd_zip (by simp [assignRefs_length])] at hmem
  simp only [List.mem_append, List.mem_singleton] at hmem
  rcases hmem with ((hkv | hrecur) | haux') | htext
  · exact hk r hkv
  · exact hr r hrecur
  · exact haux' ▸ ha _ haux
  · exact ht r htext

/-! ### The commit of a revival (R83, R84, R88) -/

/-- What a revival leaves of a session: all of it at P1, and nothing of the revival. -/
structure Revived (e e' : Session) : Prop where
  tier : e'.tier = .p1
  rev : e'.rev = none
  reviveBusy : e'.reviveBusy = false
  p2 : e'.p2 = none
  lender : e'.lender = 0
  tokens : e'.tokens = e.tokens
  p3 : e'.p3 = e.p3
  runAfter : e'.runAfter = e.runAfter
  refs : ∀ r ∈ e'.refs, refLoc r = 1

theorem Revived.of_notice {e' : Session} (h : Revived e e') (st : Nat) :
    Revived e (if e'.cancelReq then e' else ({ e' with lastStatus := st } : Session).written) := by
  split
  · exact h
  · obtain ⟨htier, hrev, hbusy, hp2, hlender, htokens, hp3, hafter, hrefs⟩ := h
    exact ⟨htier, hrev, hbusy, hp2, hlender, htokens, hp3, hafter, hrefs⟩

theorem commitRevival_entry (s : State) (i : Nat) {op : RevOp} (hframes : e.refs.length ≤ op.frames.length) (bad : List Nat) :
    ∃ e' : Session, (commitRevival s i e op bad).ses? i = some e' ∧ Revived e e' := by
  have hlocal := revRefs_local hframes
  have htokens : (revRefs e op.frames).1.tokens = e.tokens := by simp [revRefs]
  have hp3 : (revRefs e op.frames).1.p3 = e.p3 := by simp [revRefs]
  have hafter : (revRefs e op.frames).1.runAfter = e.runAfter := by simp [revRefs]
  unfold commitRevival
  generalize revRefs e op.frames = x at hlocal htokens hp3 hafter ⊢
  obtain ⟨e1, spare⟩ := x
  change e1.tokens = e.tokens at htokens
  change e1.p3 = e.p3 at hp3
  change e1.runAfter = e.runAfter at hafter
  dsimp only
  refine ⟨_, (showBorrowed_at_ses ..).trans (ses_setSes_same ..), ?_⟩
  exact ⟨rfl, rfl, rfl, rfl, rfl, by simp [Session.recount, htokens], by simp [Session.recount, hp3],
    by simp [Session.recount, hafter], by simpa only [Session.refs, Session.recount, Session.written] using hlocal⟩

@[simp] theorem revivalLate_at_ses (s : State) (e : Session) (op : RevOp) (k : Nat) : (revivalLate s e op).ses? k = s.ses? k := by
  unfold revivalLate
  split
  · rfl
  · split
    · simp
    · rfl

theorem afterRevival_quiet {op : RevOp} (hses : s.ses? i = some e) (hnone : e.runAfter = none) (hquiet : op.notify = false)
    (hagain : op.again = false) : afterRevival s i op = s := by
  simp [afterRevival, hquiet, hses, hnone, hagain]

theorem afterRevival_notice {op : RevOp} (hnotify : op.notify = true) :
    afterRevival s i op = afterRevival (sesNoticeFree s i 3 0) i { op with notify := false } := by
  unfold afterRevival
  rw [if_pos hnotify]
  rfl

theorem afterRevival_entry {e' : Session} {op : RevOp} (hses : s.ses? i = some e') (hback : Revived e e') (hnone : e.runAfter = none)
    (hagain : op.again = false) : ∃ e' : Session, (afterRevival s i op).ses? i = some e' ∧ Revived e e' := by
  cases hnotify : op.notify with
  | false => exact ⟨e', by rw [afterRevival_quiet hses (hback.runAfter.trans hnone) hnotify hagain, hses], hback⟩
  | true =>
    have hnotice := sesNoticeFree_same hses 3 0
    have hback' := hback.of_notice 0
    refine ⟨_, ?_, hback'⟩
    have hrest := afterRevival_quiet (op := { op with notify := false }) hnotice (hback'.runAfter.trans hnone) rfl hagain
    rw [afterRevival_notice hnotify, hrest, hnotice]

theorem revivalCommit_ends {op : RevOp} (hses : s.ses? i = some e) (hrev : e.rev = some op) (hnone : e.runAfter = none)
    (hagain : op.again = false) (hframes : e.refs.length ≤ op.frames.length) (bad : List Nat) :
    Ends (.revivalCommit i bad) s fun t => ∃ e' : Session, t.ses? i = some e' ∧ Revived e e' := by
  obtain ⟨e1, hcommit, hback⟩ := commitRevival_entry s i hframes bad
  have hlate := (revivalLate_at_ses (commitRevival s i e op bad) e op i).trans hcommit
  refine ends_of_eq (u := revivalEnd s i bad) rfl ?_ (afterRevival_entry hlate hback hnone hagain)
  unfold revivalEnd
  rw [hses]
  dsimp only
  rw [hrev]

/-! ### The statement -/

/-- Settles O39: the entry that each commit leaves, the one other place a failed park tries, and the references of a revival. -/
theorem parksAndRevivalsCommit : Obligations.ParksAndRevivalsCommit := by
  unfold Obligations.ParksAndRevivalsCommit
  intro s i e hses
  refine ⟨fun op hpark => ?_, fun hpark => ?_, fun op bad hrev hnone hagain hframes => ?_, fun hrev bad => ?_⟩
  · have hprogress := parkProgress_of_park hses hpark
    have hp3 (h3 : op.target = .p3) : op.target ≠ .p2 := by simp [h3]
    refine ⟨fun h2 => ?_, fun h3 hj => ?_, fun h3 hj => ?_, fun h3 hj hmove => ?_, fun st hfirst p n hother => ?_,
      fun st hretried hlive => ?_⟩
    · obtain ⟨e', y, hentry, htier, hlender, hnone, hbusy, hkv, hrecur, htokens, hcopy, hy⟩ := commitP2_entry s i e op
      exact ends_of_eq (u := parkProgress s i) rfl (hprogress.trans (if_pos h2))
        ⟨e', hentry, htier, hlender, hnone, hbusy, hkv, hrecur, htokens, y, hcopy, hy⟩
    · obtain ⟨hentry, hjseq⟩ := submitPark_entry s i e op
      exact ends_of_eq (u := parkProgress s i) rfl (hprogress.trans ((if_neg (hp3 h3)).trans (if_pos hj)))
        ⟨_, hentry, by simp, rfl, hjseq⟩
    · refine exec_unchanged (u := parkProgress s i) rfl ?_
      rw [hprogress, if_neg (hp3 h3), if_neg (by simp [hj]), if_neg (by simp [hj])]
    · refine ends_of_eq (u := parkProgress s i) rfl ?_ (commitP3_entry s i e hmove)
      rw [hprogress, if_neg (hp3 h3), if_neg (by simp [hj]), if_pos hj]
    · exact congrArg Host.Outcome.next (parkFailed_retries hses hpark hfirst hother st)
    · exact ends_of_eq (u := parkFailed s i st) rfl rfl (parkFailed_ends hses hpark hretried hlive st)
  · refine ⟨exec_unchanged (u := parkProgress s i) rfl ?_, fun st => exec_unchanged (u := parkFailed s i st) rfl ?_⟩
    · simp [parkProgress, hses, hpark]
    · simp [parkFailed, hses, hpark]
  · obtain ⟨t, hexec, e', hentry, hback⟩ := revivalCommit_ends hses hrev hnone hagain hframes bad
    exact ⟨t, hexec, e', hentry, hback.tier, hback.rev, hback.reviveBusy, hback.p2, hback.lender, hback.tokens, hback.p3, hback.refs⟩
  · exact exec_unchanged (u := revivalEnd s i bad) rfl (by simp [revivalEnd, hses, hrev])

end Sys2Proof.Machine
end

section
/-! The ends of a migration (R34, R49, R503), and lending: advertisements, reclaims and the sweep (R84, R96, R97, R99). -/

namespace Sys2Proof.Machine

variable {s t : State} {i : Nat} {e : Session}

/-! ### Migrations (R49, R503) -/

theorem migrationDone_ends (hses : s.ses? i = some e) (hmig : e.state = .migrating) (nh : Word) : ∃ e' : Session,
    (migrationDone s i nh).ses? i = some e' ∧ e'.state = .ended ∧ e'.moved = true ∧ e'.link = nh ∧ e'.oldInstar = some e.instar ∧
    e'.instar = nextInstar e.instar ∧ e'.kv = [] := by
  obtain ⟨n, htomb⟩ := tombstone_entry hses
  obtain ⟨e1, hrel, hstate, hkv, -, hinstar, -⟩ := releaseState_entry htomb .ended
  have hnotice := sesNotice_same hrel 4 0 nh
  have hkeeps {x : Session} (hx : x = if e1.cancelReq then e1 else ({ e1 with lastStatus := 0 } : Session).written) :
      x.state = .ended ∧ x.kv = [] ∧ x.instar = e.instar := by
    subst hx
    split
    · exact ⟨hstate, hkv, hinstar⟩
    · exact ⟨by simp [hstate], by simp [hkv], by simp [hinstar]⟩
  generalize hx : (if e1.cancelReq then e1 else ({ e1 with lastStatus := 0 } : Session).written) = x at hnotice
  obtain ⟨hended, hempty, hkept⟩ := hkeeps hx.symm
  unfold migrationDone
  rw [hses]
  dsimp only
  rw [if_neg (not_not.2 hmig)]
  rw [hnotice]
  exact ⟨_, ses_setSes_same .., by simp [hended], rfl, rfl, by simp [hkept], by simp [hkept], by simp [hempty]⟩

/-- A migration of a session that was WAITING, refused or late, leaves it WAITING again. -/
theorem migrationBack_waiting {op : MigOp} (hses : s.ses? i = some e) (hstate : e.state = .migrating) (hmig : e.mig = some op)
    (hprev : op.prev = .waiting) (hlive : e.cancelReq = false) (st : Nat) : ∃ e' : Session,
      (migrationBack s i st).ses? i = some e' ∧ e'.state = .waiting ∧ e'.mig = none ∧ e'.lastStatus = st ∧ e'.tokens = e.tokens := by
  have hback : migrationBack s i st = sesNoticeFree
      (s.setSes i { e with mig := none, state := .waiting, changeTime := s.now, waitSince := s.now }) i 4 st := by
    unfold migrationBack
    rw [hses]
    dsimp only
    rw [hstate, hmig]
    dsimp only
    rw [hprev]
  refine ⟨_, (congrArg (·.ses? i) hback).trans (sesNoticeFree_same (ses_setSes_same ..) 4 st), ?_⟩
  rw [if_neg ?live]
  case live => simp [hlive]
  exact ⟨rfl, rfl, rfl, by simp⟩

theorem migrationTimeout_ends {op : MigOp} (hses : s.ses? i = some e) (hstate : e.state = .migrating) (hmig : e.mig = some op)
    (hprev : op.prev = .waiting) (hlive : e.cancelReq = false)
    (hlate : op.started + s.fld FLT_TIMEOUT_B_MIGRATE_MS * 1000000 ≤ s.clk.now) : Ends (.migrationTimeout i) s fun t =>
      ∃ e' : Session, t.ses? i = some e' ∧ e'.state = .waiting ∧ e'.mig = none ∧ e'.lastStatus = 0xA002 := by
  obtain ⟨e', hentry, hwait, hnone, hstatus, -⟩ :=
    migrationBack_waiting ((send_at_ses s (.migrateAbort i) i).trans hses) hstate hmig hprev hlive 0xA002
  have hfault : migrationLate s i =
      fault (migrationBack (send s (.migrateAbort i)) i 0xA002) (ctxSource e.context) 0x07 0xA002 (handleOf s i e) := by
    unfold migrationLate
    rw [hses]
    dsimp only
    rw [hmig]
    exact if_pos hlate
  exact ends_of_eq (u := migrationLate s i) rfl hfault ⟨e', (fault_at_ses ..).trans hentry, hwait, hnone, hstatus⟩

theorem migrationTimeout_early {op : MigOp} (hses : s.ses? i = some e) (hmig : e.mig = some op)
    (hearly : s.clk.now < op.started + s.fld FLT_TIMEOUT_B_MIGRATE_MS * 1000000) : exec (.migrationTimeout i) s = .next s := by
  refine exec_unchanged (u := migrationLate s i) rfl ?_
  unfold migrationLate
  rw [hses]
  dsimp only
  rw [hmig]
  exact if_neg (Nat.not_le.2 hearly)

theorem migration_unchanged (hses : s.ses? i = some e) (hstate : e.state ≠ .migrating) :
    (∀ nh, exec (.migrationCommit i nh) s = .next s) ∧ ∀ st, exec (.migrationRefused i st) s = .next s := by
  refine ⟨fun nh => exec_unchanged (u := migrationDone s i nh) rfl ?_,
    fun st => exec_unchanged (u := migrationBack s i st) rfl ?_⟩
  · unfold migrationDone
    rw [hses]
    exact if_pos hstate
  · unfold migrationBack
    rw [hses]
    dsimp only
    split
    · next hst _ => exact absurd hst hstate
    · rfl

/-! ### Messages to other devices (R503) -/

/-- Messages that a fold sends, each from one element. -/
theorem foldl_send_sent {α : Type} (m : α → Sent) : ∀ (l : List α) {s : State}, s.fab.stopped = false →
    (l.foldl (fun s x => send s (m x)) s).fab.sent = s.fab.sent ++ l.map m
  | [], _, _ => by simp
  | x :: l, s, hgo => by
    have hgo' : (send s (m x)).fab.stopped = false := (send_stopped s _).trans hgo
    rw [List.foldl_cons, foldl_send_sent m l hgo', send_sent hgo, List.map_cons, List.append_assoc, List.singleton_append]

theorem send_upd (s : State) (m : Sent) : ∃ f, send s m = { s with fab := f } := by
  unfold send
  split <;> exact ⟨_, rfl⟩

theorem foldl_send_upd {α : Type} {f : State → α → State} (hf : ∀ s x, ∃ b, f s x = { s with fab := b }) :
    ∀ (l : List α) (s : State), ∃ b, l.foldl f s = { s with fab := b }
  | [], _ => ⟨_, rfl⟩
  | x :: l, s => by
    obtain ⟨b, hb⟩ := hf s x
    obtain ⟨b', hb'⟩ := foldl_send_upd hf l (f s x)
    exact ⟨b', by rw [List.foldl_cons, hb', hb]⟩

/-! ### Advertisements (R96, R97) -/

theorem advertiseFreeLentSpace_sends (hgo : s.fab.stopped = false) (hnew : freeLent s ≠ s.tier.advertised) :
    Ends .advertiseFreeLentSpace s fun t => t.tier.advertised = freeLent s ∧
      t.fab.sent = s.fab.sent ++ [.advert (freeLent s)] ∧ t.ses = s.ses ∧ t.regs = s.regs := by
  refine ends_of_eq rfl (if_neg hnew) ⟨rfl, send_sent hgo _, ?_, ?_⟩
  · exact send_ses ..
  · obtain ⟨f, hf⟩ := send_upd s (.advert (freeLent s))
    rw [hf]

theorem mem_mset_same {α : Type} (k : Nat) (v : α) : ∀ m : Map α, (k, v) ∈ mset m k v
  | [] => by simp [mset]
  | (j, w) :: r => by
    unfold mset
    split_ifs
    · simp
    · simp
    · exact List.mem_cons_of_mem _ (mem_mset_same k v r)

theorem showLenders_opens (hs : Canonical s) {k : Nat} {l : Lender} (hl : (k, l) ∈ s.tier.lenders) (hfree : 0 < l.free)
    (hheld : l.reclaim = none) : (showLenders s).flag SES_TIER_STATUS_P2_OPEN = true := by
  have hcount : 0 < mcount s.tier.lenders fun _ l => decide (0 < l.free) && l.reclaim.isNone :=
    List.countP_pos_iff.2 ⟨(k, l), hl, by simp [hfree, hheld]⟩
  unfold showLenders
  dsimp only
  rw [flag_eq_true, fld_setFld_of_lt (hs.setFld _ _) (by decide) (by simp [b2n, hcount]), decide_eq_true hcount]
  decide

theorem lenderAdvertisement_lists (hs : Canonical s) {l f : Nat} (hplane : l / 2 ^ 15 = s.fld GLB_DEV_ADDR_PLANE)
    (hother : l ≠ s.devAddr) (hfree : 0 < f) (hops ms : Nat) : Ends (.lenderAdvertisement l f hops ms) s fun t =>
      mget t.tier.lenders l = some { free := f, hops := hops, reclaimMs := ms, reclaim := none } ∧
      t.flag SES_TIER_STATUS_P2_OPEN = true ∧ t.ses = s.ses := by
  refine ends_of_eq (u := lenderHeard s l f hops ms) rfl (if_pos ⟨hplane, hother⟩) ⟨mget_mset_same .., ?_, rfl⟩
  have hcanon : Canonical { s with tier := { s.tier with lenders := mset s.tier.lenders l ⟨f, hops, ms, none⟩ } } :=
    ⟨hs.regs, hs.mem, hs.hbm⟩
  exact showLenders_opens hcanon (mem_mset_same ..) hfree rfl

theorem lenderAdvertisement_ignored {l : Nat} (hother : l / 2 ^ 15 ≠ s.fld GLB_DEV_ADDR_PLANE ∨ l = s.devAddr) (f hops ms : Nat) :
    exec (.lenderAdvertisement l f hops ms) s = .next s :=
  exec_unchanged (u := lenderHeard s l f hops ms) rfl (if_neg fun h => hother.elim (absurd h.1) h.2)

/-! ### Reclaims (R99) -/

theorem reclaimNoticeSend_ends (hs : Canonical s) (hgo : s.fab.stopped = false) (hnone : s.tier.reclaimAt = none) :
    Ends .reclaimNoticeSend s fun t =>
      t.tier.reclaimAt = some (s.clk.now + s.fld SES_LEND_CFG_RECLAIM_MS * 1000000) ∧ t.fld SES_LEND_STATUS_RECLAIMING = 1 ∧
      t.fab.sent = s.fab.sent ++ s.tier.borrowers.map (fun x => .reclaim x.1 (s.clk.now + s.fld SES_LEND_CFG_RECLAIM_MS * 1000000)) ∧
      freeLent t = 0 := by
  have hsent := foldl_send_sent (fun x : Nat × Borrower => .reclaim x.1 (s.now + s.fld SES_LEND_CFG_RECLAIM_MS * msNs))
    s.tier.borrowers hgo
  obtain ⟨b, hfold⟩ := foldl_send_upd (fun s (x : Nat × Borrower) => send_upd s (.reclaim x.1 _)) s.tier.borrowers s
  refine ends_of_eq (u := sendReclaim s) rfl (if_neg (by simp [hnone])) ⟨rfl, ?_, hsent, by simp [freeLent]⟩
  rw [fld_setFld_of_lt ?canon (by decide) (by decide)]
  case canon =>
    rw [hfold]
    exact ⟨hs.regs, hs.mem, hs.hbm⟩

theorem reclaimResend_sends (hgo : s.fab.stopped = false) {d b : Nat} {x : Borrower} (hat : s.tier.reclaimAt = some d)
    (hb : mget s.tier.borrowers b = some x) (hopen : x.acked = false) (hfew : x.resends < 8) (hold : x.sentAt + 100000 ≤ s.clk.now) :
    Ends (.reclaimResend b) s fun t => t.fab.sent = s.fab.sent ++ [.reclaim b d] ∧
      mget t.tier.borrowers b = some { x with resends := x.resends + 1, sentAt := s.clk.now } := by
  obtain ⟨f, hf⟩ := send_upd s (.reclaim b d)
  refine ends_of_eq (u := resendReclaim s b) rfl (t := { send s (.reclaim b d) with tier := { s.tier with
      borrowers := mset s.tier.borrowers b { x with resends := x.resends + 1, sentAt := s.clk.now } } }) ?_
    ⟨send_sent hgo _, mget_mset_same ..⟩
  unfold resendReclaim
  rw [hat, hb]
  dsimp only
  rw [if_pos (by simp [hopen, hfew, State.now, hold]), hf]
  rfl

theorem reclaimNotice_acks (hgo : s.fab.stopped = false) {l : Nat} {x : Lender} (hl : mget s.tier.lenders l = some x)
    (hfree : lentFrom s l = []) (d : Nat) : Ends (.reclaimNotice l d) s fun t =>
      mget t.tier.lenders l = some { x with reclaim := some d } ∧ t.fab.sent = s.fab.sent ++ [.reclaimAck l] ∧ t.ses = s.ses := by
  obtain ⟨f, hf⟩ := send_upd s (.reclaimAck l)
  have hsent := send_sent hgo (.reclaimAck l)
  rw [hf] at hsent
  refine ends_of_eq (u := reclaimHeard s l d) rfl (t := showLenders { s with
      fab := f, tier := { s.tier with lenders := mset s.tier.lenders l { x with reclaim := some d } } }) ?_
    ⟨mget_mset_same .., hsent, rfl⟩
  unfold reclaimHeard
  rw [hl]
  dsimp only
  rw [hf]
  have hnone : lentFrom (showLenders { s with
      fab := f, tier := { s.tier with lenders := mset s.tier.lenders l { x with reclaim := some d } } }) l = [] := hfree
  rw [hnone, List.foldl_nil]

theorem expiredLenders_eq_nil (h : ∀ x ∈ s.tier.lenders, ∀ d, x.2.reclaim = some d → s.clk.now < d) : expiredLenders s = [] := by
  unfold expiredLenders
  rw [List.map_eq_nil_iff, List.filter_eq_nil_iff]
  intro x hx hlate
  cases hd : x.2.reclaim with
  | none => simp [hd] at hlate
  | some d =>
    rw [hd] at hlate
    exact absurd (of_decide_eq_true hlate) (Nat.not_le.2 (h x hx d hd))

/-- At its reclaim deadline the lender frees everything lent, with the deadline, the counts and the lent pages cleared. -/
theorem reclaimLender_clears (hs : Canonical s) {d : Nat} (hat : s.tier.reclaimAt = some d) (hover : d ≤ s.clk.now) :
    (reclaimLender s).tier.reclaimAt = none ∧ (∀ x ∈ (reclaimLender s).tier.borrowers, x.2.frames = []) ∧
    (reclaimLender s).fld SES_LEND_STATUS_RECLAIMING = 0 ∧ (reclaimLender s).fld SES_LEND_STATUS_LENT_GIB = 0 ∧
    (reclaimLender s).tier.lenders = s.tier.lenders ∧ (reclaimLender s).clk = s.clk := by
  obtain ⟨b, hsent⟩ := foldl_send_upd (f := fun s (x : Nat × Borrower) =>
    if x.2.frames.isEmpty then s else send s (.discarded x.1)) (fun s x => by
      split
      · exact ⟨_, rfl⟩
      · exact send_upd s _) s.tier.borrowers s
  have hcanon : Canonical ({ s with fab := b } : State) := ⟨hs.regs, hs.mem, hs.hbm⟩
  have hfreed : Canonical (s.tier.borrowers.foldl (fun s x => freeFrames s (x.2.frames ++ x.2.orphans)) { s with fab := b }) :=
    hcanon.of_kept (kept_foldl (fun u x => freeFrames_kept u (x.2.frames ++ x.2.orphans)) s.tier.borrowers)
  have htier := foldl_frame State.tier (fun u (x : Nat × Borrower) => freeFrames_tier u (x.2.frames ++ x.2.orphans))
    s.tier.borrowers { s with fab := b }
  have hclk := foldl_frame State.clk (fun u (x : Nat × Borrower) => freeFrames_clk u (x.2.frames ++ x.2.orphans))
    s.tier.borrowers { s with fab := b }
  unfold reclaimLender
  rw [hat]
  dsimp only
  rw [if_pos (show d ≤ s.now from hover), hsent]
  generalize List.foldl (fun s (x : Nat × Borrower) => freeFrames s (x.2.frames ++ x.2.orphans)) { s with fab := b }
    s.tier.borrowers = u at hfreed htier hclk ⊢
  have hcleared : Canonical ({ u with tier := { u.tier with
      reclaimAt := none,
      borrowers := s.tier.borrowers.map fun (x : Nat × Borrower) => (x.1, { x.2 with frames := [], orphans := [], told := true }) } } : State) :=
    ⟨hfreed.regs, hfreed.mem, hfreed.hbm⟩
  refine ⟨rfl, ?_, ?_, ?_, congrArg (·.lenders) htier, hclk⟩
  · intro x hx
    obtain ⟨y, -, rfl⟩ := List.mem_map.1 hx
    rfl
  · rw [fld_setFld_disjoint 0 (by decide) (hcleared.setFld _ _).regs (by decide), fld_setFld_of_lt hcleared (by decide) (by decide)]
  · rw [fld_setFld_of_lt (hcleared.setFld _ _) (by decide) (by decide)]

theorem reclaimDeadline_ends (hs : Canonical s) {d : Nat} (hat : s.tier.reclaimAt = some d) (hover : d ≤ s.clk.now)
    (hnone : ∀ x ∈ s.tier.lenders, ∀ d', x.2.reclaim = some d' → s.clk.now < d') : Ends .reclaimDeadline s fun t =>
      t.tier.reclaimAt = none ∧ (∀ x ∈ t.tier.borrowers, x.2.frames = []) ∧ t.fld SES_LEND_STATUS_RECLAIMING = 0 ∧
      t.fld SES_LEND_STATUS_LENT_GIB = 0 := by
  obtain ⟨hdone, hframes, hreclaiming, hlent, hlenders, hclk⟩ := reclaimLender_clears hs hat hover
  refine ends_of_eq (u := reclaimOver s) (t := reclaimLender s) rfl ?_ ⟨hdone, hframes, hreclaiming, hlent⟩
  unfold reclaimOver
  dsimp only
  rw [expiredLenders_eq_nil (by rw [hlenders, hclk]; exact hnone), List.foldl_nil]

/-! ### The sweep (R84) -/

theorem lenderReclaimSweep_ends {b : Nat} {x : Borrower} (hb : mget s.tier.borrowers b = some x) :
    Ends (.lenderReclaimSweep b) s fun t => ∃ y : Borrower, mget t.tier.borrowers b = some y ∧ y.orphans = [] ∧
      ∀ f, f ∈ y.frames ↔ f ∈ x.frames ∧ f ∉ x.orphans := by
  have hsweep : sweep s b = { freeFrames s x.orphans with tier := { (freeFrames s x.orphans).tier with
      borrowers := mset (freeFrames s x.orphans).tier.borrowers b
        { x with frames := x.frames.filter fun f => !x.orphans.contains f, orphans := [] } } } := by
    unfold sweep
    rw [hb]
  exact ends_of_eq (u := sweep s b) rfl hsweep ⟨_, mget_mset_same .., rfl, fun f => by simp⟩

/-! ### The statement -/

/-- Settles O40: the entry that each end of a migration leaves, and the lending tables and messages after each lending event. -/
theorem migrationsAndLendingEnd : Obligations.MigrationsAndLendingEnd := by
  unfold Obligations.MigrationsAndLendingEnd
  refine ⟨fun s i e hses => ⟨fun hstate nh => ?_, fun op hstate hmig hprev hlive => ⟨fun st => ?_, ?_, ?_⟩,
    migration_unchanged hses⟩, fun s hs hgo => ⟨advertiseFreeLentSpace_sends hgo, fun hsame => exec_unchanged rfl (if_pos hsame),
    fun l f h ms hplane hother hfree => lenderAdvertisement_lists hs hplane hother hfree h ms,
    fun l f h ms hother => lenderAdvertisement_ignored hother f h ms, reclaimNoticeSend_ends hs hgo,
    fun d b x hat hb hopen hfew hold => reclaimResend_sends hgo hat hb hopen hfew hold,
    fun l d x hl hfree => reclaimNotice_acks hgo hl hfree d,
    fun d hat hover hnone => reclaimDeadline_ends hs hat hover hnone, fun b x hb => lenderReclaimSweep_ends hb⟩⟩
  · exact ends_of_eq (u := migrationDone s i nh) rfl rfl (migrationDone_ends hses hstate nh)
  · exact ends_of_eq (u := migrationBack s i st) rfl rfl (migrationBack_waiting hses hstate hmig hprev hlive st)
  · exact migrationTimeout_ends hses hstate hmig hprev hlive
  · exact migrationTimeout_early hses hmig

end Sys2Proof.Machine
end

section
/-! The dispatch of a partition's galleys and the end of a galley: what they leave of sessions, slices and registers (R165, R178). -/

namespace Sys2Proof.Machine

variable {s t : State} {p k : Nat}

/-! ### What the movement of cells leaves -/

/-- Nothing changed but cells, waiters, partitions, the loaded images and registers outside GAL_STEP. -/
structure SliceFrame (s t : State) : Prop where
  ses : t.ses = s.ses
  clk : t.clk = s.clk
  running : ∀ n, (t.slice n).running = (s.slice n).running
  built : ∀ n, (t.slice n).built = (s.slice n).built
  building : ∀ n, (t.slice n).building = (s.slice n).building
  steps : ∀ o, 0x303000 ≤ o → o < 0x304000 → t.reg o = s.reg o

theorem SliceFrame.refl (s : State) : SliceFrame s s :=
  ⟨rfl, rfl, fun _ => rfl, fun _ => rfl, fun _ => rfl, fun _ _ _ => rfl⟩

theorem SliceFrame.trans {u : State} (h : SliceFrame s t) (h' : SliceFrame t u) : SliceFrame s u where
  ses := h'.ses.trans h.ses
  clk := h'.clk.trans h.clk
  running n := (h'.running n).trans (h.running n)
  built n := (h'.built n).trans (h.built n)
  building n := (h'.building n).trans (h.building n)
  steps o hlo hhi := (h'.steps o hlo hhi).trans (h.steps o hlo hhi)

theorem SliceFrame.foldl {α : Type} {f : State → α → State} (hf : ∀ u x, SliceFrame u (f u x)) :
    ∀ (l : List α) (s : State), SliceFrame s (l.foldl f s)
  | [], s => .refl s
  | x :: l, s => (hf s x).trans (SliceFrame.foldl hf l (f s x))

theorem SliceFrame.ite {c : Prop} [Decidable c] {u : State} (ht : SliceFrame s t) (hu : SliceFrame s u) :
    SliceFrame s (if c then t else u) := by
  split
  · exact ht
  · exact hu

theorem SliceFrame.of_slices (hses : t.ses = s.ses) (hclk : t.clk = s.clk) (hslices : t.gal.slices = s.gal.slices)
    (hregs : ∀ o, 0x303000 ≤ o → o < 0x304000 → t.reg o = s.reg o) : SliceFrame s t := by
  have hslice (n : Nat) : t.slice n = s.slice n := by rw [State.slice, hslices, State.slice]
  exact ⟨hses, hclk, fun n => by rw [hslice], fun n => by rw [hslice], fun n => by rw [hslice], hregs⟩

theorem SliceFrame.setCell (s : State) (n : Nat) (c : Cell) : SliceFrame s (s.setCell n c) :=
  .of_slices rfl rfl rfl fun _ _ _ => rfl

theorem SliceFrame.setPart (s : State) (n : Nat) (x : Part) : SliceFrame s (s.setPart n x) :=
  .of_slices rfl rfl rfl fun _ _ _ => rfl

theorem SliceFrame.setWaiters (s : State) (m : Map (List Waiter)) : SliceFrame s { s with waiters := m } :=
  .of_slices rfl rfl rfl fun _ _ _ => rfl

theorem SliceFrame.draw (s : State) : SliceFrame s s.draw.2 := .of_slices rfl rfl rfl fun _ _ _ => rfl

theorem SliceFrame.setFld (s : State) {f : Field} (hf : f.off < 0x303000 ∨ 0x304000 ≤ f.off) (v : Nat) :
    SliceFrame s (s.setFld f v) :=
  .of_slices rfl rfl rfl fun _ _ _ => reg_setFld_other _ _ (by omega)

theorem SliceFrame.setLoaded (s : State) (n : Nat) (b : Bool) : SliceFrame s (s.setSlice n { s.slice n with loaded := b }) := by
  have hslice (m : Nat) : ∃ b', (s.setSlice n { s.slice n with loaded := b }).slice m = { s.slice m with loaded := b' } := by
    by_cases hm : m = n
    · subst hm
      exact ⟨b, setSlice_same ..⟩
    · exact ⟨(s.slice m).loaded, setSlice_other s n _ hm⟩
  refine ⟨rfl, rfl, fun m => ?_, fun m => ?_, fun m => ?_, fun _ _ _ => rfl⟩
  all_goals
    obtain ⟨b', hb⟩ := hslice m
    rw [hb]

/-! ### The dispatch (R165, R178) -/

theorem withdrawWait_frame (s : State) (n : Nat) : SliceFrame s (withdrawWait s n) := by
  unfold withdrawWait
  dsimp only
  split
  · exact .refl s
  · exact ((SliceFrame.setWaiters s _).trans (.setFld _ (f := SYN_STATUS_WAITERS) (by decide) _)).trans (.setCell ..)

theorem lightSave_frame (a : Nat) (s : State) (n : Nat) : SliceFrame s (lightSave a s n) :=
  (withdrawWait_frame s n).trans (.setCell ..)

theorem suspend_frame (s : State) (p k : Nat) : SliceFrame s (suspend s p k) := by
  unfold suspend
  exact ((SliceFrame.foldl (lightSave_frame _) _ s).trans (.setFld _ (f := GAL_SWITCHES_COUNT) (by decide) _)).trans (.setPart ..)

theorem startGalley_frame (s : State) (p k : Nat) : SliceFrame s (startGalley s p k) := by
  have hcells (c b : Nat) (code : List Word) (n : Nat) (l : List (Nat × Nat)) :
      SliceFrame s (l.foldl (startCell p k c b code n) s) :=
    SliceFrame.foldl (f := startCell p k c b code n) (fun u x => .setCell u x.1 _) l s
  unfold startGalley
  exact .ite ((hcells ..).trans (SliceFrame.foldl (fun u j => .setLoaded u (4 * p + j) _) _ _)) (hcells ..)

theorem dispatch_frame (s : State) (p : Nat) : SliceFrame s (dispatch s p) := by
  unfold dispatch
  split
  · exact .refl s
  · split
    · exact .refl s
    · next k _ _ =>
      have hresume (u : State) : SliceFrame u (match (u.part p).nest.find? fun y => y.1 = k with
          | some (_, a) =>
            let v := (partCells u p).foldl (lightLoad p k a) u
            v.setPart p { v.part p with running := some k, nest := (v.part p).nest.filter fun y => y.1 ≠ k }
          | none => (startGalley u p k).setPart p { u.part p with running := some k }) := by
        split
        · exact (SliceFrame.foldl (f := lightLoad p k _) (fun v n => .setCell v n _) _ u).trans (.setPart ..)
        · exact (startGalley_frame u p k).trans (.setPart ..)
      refine .ite (.refl s) ?_
      cases (s.part p).running with
      | none => exact hresume s
      | some j => exact (suspend_frame s p j).trans (hresume _)

/-! ### The end of a galley -/

theorem stopSlice_frame (p k : Nat) (s : State) (n : Nat) : SliceFrame s (stopSlice p k s n) := by
  unfold stopSlice
  dsimp only
  split
  · exact (withdrawWait_frame s n).trans (.setCell ..)
  · exact .refl s

theorem profile_frame (s : State) (p : Nat) : SliceFrame s (profile s p) := by
  unfold profile
  split
  · exact (SliceFrame.draw s).trans (.setFld _ (f := DBG_PART_BUSY_CYCLES p) (.inr (by dsimp only; omega)) _)
  · exact .refl s

/-- The end of a slice's galley takes it out of flight, and no session is changed by it. -/
theorem endGalley_ends (hk : k < 4) (s : State) (p : Nat) : (endGalley s p k).ses = s.ses ∧ (endGalley s p k).clk = s.clk ∧
    ((endGalley s p k).slice (4 * p + k)).running = none := by
  have hstop : SliceFrame s (if ((profile s p).part p).running = some k then
      (partCells (profile s p) p).foldl (stopSlice p k) (profile s p) else profile s p) := by
    split
    · exact (profile_frame s p).trans (SliceFrame.foldl (stopSlice_frame p k) _ _)
    · exact profile_frame s p
  unfold endGalley
  dsimp only
  rw [if_pos hk]
  generalize (if ((profile s p).part p).running = some k then
      (partCells (profile s p) p).foldl (stopSlice p k) (profile s p) else profile s p) = u at hstop ⊢
  exact ⟨(dispatch_frame ..).ses.trans hstop.ses, (dispatch_frame ..).clk.trans hstop.clk,
    ((dispatch_frame ..).running _).trans (congrArg (·.running) (setSlice_same ..))⟩

end Sys2Proof.Machine
end

section
/-! The swap of a built galley (R160, R161, R163), and what shows the barred slices (R154). -/

namespace Sys2Proof.Machine

variable {s t : State} {p k : Nat}

/-! ### GAL_SLICE_ERR decides nothing (R154) -/

section
variable (s : State)

theorem refreshErr_fld {g : Field} (h : g.off ≠ 0x300008) : (refreshErr s).fld g = s.fld g := fld_setFld_other s _ h

theorem refreshErr_flag {g : Field} (h : g.off ≠ 0x300008) : (refreshErr s).flag g = s.flag g := flag_of_fld (refreshErr_fld s h)

theorem refreshErr_sliceOn (p k : Nat) : sliceOn (refreshErr s) p k = sliceOn s p k := by
  unfold sliceOn
  rw [refreshErr_flag s (by dsimp only; omega), refreshErr_flag s (by dsimp only; omega)]

theorem refreshErr_stopped (p : Nat) : stopped (refreshErr s) p = stopped s p := by
  unfold stopped
  rw [refreshErr_fld s (by decide)]

theorem refreshErr_sliceModel (p k : Nat) : sliceModel (refreshErr s) p k = sliceModel s p k := by
  unfold sliceModel
  rw [refreshErr_fld s (by dsimp only; omega)]
  rfl

theorem refreshErr_window (p k : Nat) : window (refreshErr s) p k = window s p k := by
  unfold window
  rw [refreshErr_fld s (by dsimp only; omega), refreshErr_fld s (by dsimp only; omega)]

theorem refreshErr_quireCells (q : Nat) : quireCells (refreshErr s) q = quireCells s q := by
  have hcell (f n : Nat) : cellInService (refreshErr s) f n = cellInService s f n := by
    unfold cellInService
    dsimp only
    rw [refreshErr_fld s (by dsimp only; omega), refreshErr_fld s (by dsimp only; omega), refreshErr_fld s (by dsimp only; omega)]
  unfold quireCells
  simp only [hcell]

theorem refreshErr_partQuires (p : Nat) : partQuires (refreshErr s) p = partQuires s p := by
  unfold partQuires
  rw [refreshErr_fld s (by dsimp only; omega)]

theorem refreshErr_spareMem (p : Nat) : spareMem (refreshErr s) p = spareMem s p := by
  unfold spareMem partCells
  rw [refreshErr_partQuires, funext (refreshErr_quireCells s), refreshErr_fld s (by decide)]

theorem refreshErr_barred (p k : Nat) : barred (refreshErr s) p k = barred s p k := by
  have hwhole : quireWhole (refreshErr s) = quireWhole s := funext fun q => by
    unfold quireWhole
    rw [refreshErr_quireCells]
  have henable (j : Nat) : (refreshErr s).flag (GAL_SLICE_A_ENABLE p j) = s.flag (GAL_SLICE_A_ENABLE p j) :=
    refreshErr_flag s (by dsimp only; omega)
  have hindex (n : Nat) : (refreshErr s).fld (VSE_IX_A_PART n) = s.fld (VSE_IX_A_PART n) :=
    refreshErr_fld s (by dsimp only; omega)
  have hresident : (refreshErr s).flag (GAL_SLICE_A_RESIDENT p k) = s.flag (GAL_SLICE_A_RESIDENT p k) :=
    refreshErr_flag s (by dsimp only; omega)
  have hvse : (refreshErr s).vse = s.vse := rfl
  unfold barred
  simp only [refreshErr_sliceModel, refreshErr_partQuires, refreshErr_window, refreshErr_spareMem, hwhole, henable, hindex,
    hresident, hvse]

end

/-! ### The swap (R160, R161, R163) -/

/-- A built galley as it runs once it is swapped in, none of its records left to resolve. -/
def Galley.swapped (g : Galley) (rel : Nat) : Galley :=
  { g with release := rel, deadline := rel + (g.deadline - g.release), recs := [] }

/-- When a built galley may be swapped in: a contract's at its RELEASE, another not before the galley before it is done (R160). -/
def Slice.swapTime (y : Slice) (g : Galley) : Nat := if y.contract.isNone then max g.release y.prevDone else g.release

theorem Slice.swapTime_le {y : Slice} {g : Galley} {now : Nat} (hrelease : g.release ≤ now) (hprev : y.prevDone ≤ now) :
    y.swapTime g ≤ now := by
  unfold Slice.swapTime
  split
  · exact max_le hrelease hprev
  · exact hrelease

/-- The slice whose galley was swapped in. -/
def Slice.swapped (y : Slice) (g : Galley) (rel : Nat) : Slice :=
  { y with built := none, running := some (g.swapped rel), prevRelease := rel, building := true }

/-- The state in which a swapped galley is dispatched. -/
def swapState (s : State) (p k : Nat) (g : Galley) (rel : Nat) : State :=
  showBuilding ((s.setSlice (4 * p + k) ((s.slice (4 * p + k)).swapped g rel)).setFld (GAL_STEP_STEP p k) g.step)

section
variable (g : Galley) (rel : Nat)

theorem swapState_slice : (swapState s p k g rel).slice (4 * p + k) = (s.slice (4 * p + k)).swapped g rel := by
  rw [swapState, showBuilding, setFld_at_slice, setFld_at_slice, setSlice_same]

theorem swapState_ses : (swapState s p k g rel).ses = s.ses := by
  rw [swapState, showBuilding, setFld_ses, setFld_ses, setSlice_ses]

theorem swapState_step (hs : Canonical s) : (swapState s p k g rel).fld (GAL_STEP_STEP p k) = g.step % 2 ^ 32 := by
  rw [swapState, showBuilding, fld_setFld_other _ _ (by dsimp only; omega)]
  exact fld_setFld_same _ _ (by dsimp only; omega) (by rw [setSlice_regs]; exact hs.regs)

end

theorem swapGalley_eq {g : Galley} (hbuilt : (s.slice (4 * p + k)).built = some g) (hfree : (s.slice (4 * p + k)).running = none)
    (hmodel : (sliceModel s p k).isSome) (hon : sliceOn s p k = true) (hstop : stopped s p = false) (hbar : barred s p k = false)
    (hrelease : g.release ≤ s.clk.now) (hprev : (s.slice (4 * p + k)).prevDone ≤ s.clk.now) (hrecs : g.recs = []) :
    swapGalley s p k = dispatch (swapState s p k g ((s.slice (4 * p + k)).swapTime g)) p := by
  obtain ⟨m, hm⟩ := Option.isSome_iff_exists.1 hmodel
  have hrel : (if (s.slice (4 * p + k)).contract.isNone then max g.release (s.slice (4 * p + k)).prevDone else g.release) ≤ s.now :=
    Slice.swapTime_le hrelease hprev
  unfold swapGalley
  dsimp only
  rw [hbuilt, hm]
  dsimp only
  rw [if_pos (by simp only [hon, hstop, hbar, hfree, hrel, Bool.not_false, Option.isNone_none, decide_true, Bool.and_true]), hrecs]
  rfl

theorem galleySwap_ends {g : Galley} (hs : Canonical s) (hp : p < 16) (hk : k < 4) (hbuilt : (s.slice (4 * p + k)).built = some g)
    (hfree : (s.slice (4 * p + k)).running = none) (hmodel : (sliceModel s p k).isSome) (hon : sliceOn s p k = true)
    (hstop : stopped s p = false) (hbar : barred s p k = false) (hrelease : g.release ≤ s.clk.now)
    (hprev : (s.slice (4 * p + k)).prevDone ≤ s.clk.now) (hrecs : g.recs = []) :
    Ends (.galleySwap p k) s fun t => ∃ g' : Galley, (t.slice (4 * p + k)).running = some g' ∧ (t.slice (4 * p + k)).built = none ∧
      g'.step = g.step ∧ (t.slice (4 * p + k)).building = true ∧ t.fld (GAL_STEP_STEP p k) = g.step % 2 ^ 32 ∧ t.ses = s.ses := by
  have hswap := swapGalley_eq (s := refreshErr s) (g := g) hbuilt hfree (by rwa [refreshErr_sliceModel])
    (by rwa [refreshErr_sliceOn]) (by rwa [refreshErr_stopped]) (by rwa [refreshErr_barred]) hrelease hprev hrecs
  generalize ((refreshErr s).slice (4 * p + k)).swapTime g = rel at hswap
  have hframe := dispatch_frame (swapState (refreshErr s) p k g rel) p
  refine ends_of_eq (u := swapGalley (refreshErr s) p k) rfl hswap ⟨g.swapped rel, ?_, ?_, rfl, ?_, ?_, ?_⟩
  · rw [hframe.running, swapState_slice]
    rfl
  · rw [hframe.built, swapState_slice]
    rfl
  · rw [hframe.building, swapState_slice]
    rfl
  · rw [fld_of_reg (hframe.steps _ (by dsimp only; omega) (by dsimp only; omega)), swapState_step]
    exact hs.setFld ..
  · rw [hframe.ses, swapState_ses]
    rfl

end Sys2Proof.Machine
end

section
/-! The commit of a galley, a contract step missed and the step watchdog (R64, R159, R165, R168, R175, R245, R503). -/

namespace Sys2Proof.Machine

variable {s t : State} {p k : Nat} {g : Galley}

/-! ### A record of a cancelled session (R64) -/

theorem returnReserve_ses (s : State) (c n : Nat) : (returnReserve s c n).ses = s.ses := by
  unfold returnReserve
  split <;> rfl

theorem budgetReturn_ses (s : State) (c n : Nat) : (budgetReturn s c n).ses = s.ses := by
  unfold budgetReturn
  split <;> rfl

/-- No page of a session is given back where none is new. -/
theorem dropEntries_of_none (s : State) (i : Nat) {gone : Nat → Bool} (h : ∀ j, gone j = false) : dropEntries s i gone = s := by
  unfold dropEntries
  split
  · rfl
  · simp [h]

theorem discardRec_ses (s : State) {r : Rec} (hpages : r.newPages = []) : (discardRec s r).ses = s.ses := by
  unfold discardRec abandonRec
  dsimp only
  rw [budgetReturn_ses]
  split
  · exact returnReserve_ses ..
  · split
    · rw [dropEntries_of_none _ _ (by simp [hpages]), returnReserve_ses]
    · exact returnReserve_ses ..

theorem commitRec_cancelled {r : Rec} {e : Session} (hses : s.ses? r.index = some e) (hvoid : r.void = false)
    (hpages : r.newPages = []) (hcancel : e.cancelReq = true) (m : Option Model) : (commitRec s m r).ses = s.ses := by
  have hentry : (returnReserve s r.context r.reserved).ses? r.index = some e :=
    (ses?_of_ses (returnReserve_ses ..) r.index).trans hses
  unfold commitRec
  dsimp only
  rw [hentry]
  dsimp only
  rw [if_neg (by simp [hvoid]), if_pos hcancel, discardRec_ses _ hpages, incSat_ses, returnReserve_ses]

theorem galSampled_of_cancelled {r : Rec} {e : Session} (hrecs : g.recs = [r]) (hses : s.ses? r.index = some e)
    (hcancel : e.cancelReq = true) : galSampled s g = true := by
  simp [galSampled, hrecs, hses, recTokens, hcancel]

theorem afterStep_of_quiet {i : Nat} {e : Session} (hses : s.ses? i = some e) (hending : e.ending = none) (hhold : e.holdReq = false) :
    afterStep s i = s := by
  simp [afterStep, hses, hending, hhold]

/-! ### The commit (R168, R245) -/

/-- The state in which a commit or an abandonment leaves a slice, its records settled: done at this time, nothing in flight. -/
theorem endGalley_done (hk : k < 4) (s : State) (p : Nat) :
    let u := (endGalley s p k).setSlice (4 * p + k) { (endGalley s p k).slice (4 * p + k) with prevDone := (endGalley s p k).now }
    (u.slice (4 * p + k)).running = none ∧ (u.slice (4 * p + k)).prevDone = s.clk.now ∧ u.ses = s.ses := by
  obtain ⟨hses, hclk, hrun⟩ := endGalley_ends hk s p
  dsimp only
  rw [setSlice_same]
  exact ⟨hrun, congrArg (·.now) hclk, hses⟩

theorem commitGalley_done (hk : k < 4) (hrun : (s.slice (4 * p + k)).running = some g) (hpart : (s.part p).running = some k)
    (hdone : ∀ n ∈ partCells s p, n ∈ g.done) (hsampled : galSampled s g = true) : ∃ u : State,
      commitGalley s p k = g.recs.foldl (fun s r => afterStep s r.index) u ∧ (u.slice (4 * p + k)).running = none ∧
      (u.slice (4 * p + k)).prevDone = (g.recs.foldl (fun u r => commitRec u (sliceModel s p k) r) s).clk.now ∧
      u.ses = (g.recs.foldl (fun u r => commitRec u (sliceModel s p k) r) s).ses := by
  have hall : ((partCells s p).all fun n => g.done.contains n) = true := by simpa using hdone
  unfold commitGalley
  rw [hrun]
  dsimp only
  rw [if_pos ⟨hpart, hall, hsampled⟩]
  obtain ⟨hfree, hprev, hses⟩ := endGalley_done hk (g.recs.foldl (fun u r => commitRec u (sliceModel s p k) r) s) p
  refine ⟨_, rfl, ?_⟩
  split
  · exact ⟨hfree, hprev, hses⟩
  · exact ⟨hfree, hprev, hses⟩

theorem galleyCommit_empty (hk : k < 4) (hrun : (s.slice (4 * p + k)).running = some g) (hpart : (s.part p).running = some k)
    (hdone : ∀ n ∈ partCells s p, n ∈ g.done) (hrecs : g.recs = []) : Ends (.galleyCommit p k) s fun t =>
      (t.slice (4 * p + k)).running = none ∧ (t.slice (4 * p + k)).prevDone = s.clk.now ∧ t.ses = s.ses := by
  obtain ⟨u, hcommit, hfree, hprev, hses⟩ := commitGalley_done hk hrun hpart hdone (by simp [galSampled, hrecs])
  rw [hrecs] at hcommit hprev hses
  exact ends_of_eq (u := commitGalley s p k) rfl hcommit ⟨hfree, hprev, hses⟩

theorem galleyCommit_cancelled {r : Rec} {e : Session} (hk : k < 4) (hrun : (s.slice (4 * p + k)).running = some g)
    (hpart : (s.part p).running = some k) (hdone : ∀ n ∈ partCells s p, n ∈ g.done) (hrecs : g.recs = [r]) (hvoid : r.void = false)
    (hpages : r.newPages = []) (hentry : s.ses? r.index = some e) (hcancel : e.cancelReq = true) (hending : e.ending = none)
    (hhold : e.holdReq = false) : Ends (.galleyCommit p k) s fun t => (t.slice (4 * p + k)).running = none ∧
      ∃ e' : Session, t.ses? r.index = some e' ∧ e'.tokens = e.tokens ∧ e'.generated = e.generated ∧ e'.history = e.history := by
  obtain ⟨u, hcommit, hfree, -, hses⟩ := commitGalley_done hk hrun hpart hdone (galSampled_of_cancelled hrecs hentry hcancel)
  rw [hrecs, List.foldl_cons, List.foldl_nil, commitRec_cancelled hentry hvoid hpages hcancel] at hses
  have hkept : u.ses? r.index = some e := (ses?_of_ses hses r.index).trans hentry
  have hquiet : commitGalley s p k = u := by
    rw [hcommit, hrecs, List.foldl_cons, List.foldl_nil, afterStep_of_quiet hkept hending hhold]
  exact ends_of_eq (u := commitGalley s p k) rfl hquiet ⟨hfree, e, hkept, rfl, rfl, rfl⟩

theorem not_all_done (h : ∃ n ∈ partCells s p, n ∉ g.done) : ((partCells s p).all fun n => g.done.contains n) = false := by
  obtain ⟨n, hn, hnot⟩ := h
  exact List.all_eq_false.2 ⟨n, hn, by simpa using hnot⟩

theorem galleyCommit_undone (hrun : (s.slice (4 * p + k)).running = some g) (hleft : ∃ n ∈ partCells s p, n ∉ g.done) :
    exec (.galleyCommit p k) s = .next s := by
  refine exec_unchanged (u := commitGalley s p k) rfl ?_
  unfold commitGalley
  rw [hrun]
  exact if_neg fun h => absurd h.2.1 (by rw [not_all_done hleft]; decide)

/-! ### A contract step missed (R165) -/

theorem fault_slice (s : State) (source kind status : Nat) (address : Word) (master access n : Nat) :
    (fault s source kind status address master access).slice n = s.slice n := by
  obtain ⟨r, f, h⟩ := fault_upd s source kind status address master access
  rw [h]
  rfl

theorem contractStepMissed_counts {id : Nat} (hs : Canonical s) (hrun : (s.slice (4 * p + k)).running = some g)
    (hcontract : (s.slice (4 * p + k)).contract = some id) (hcount : 0 < g.cCount) (hlate : g.deadline < s.clk.now)
    (hfirst : g.missed = false) : Ends (.contractStepMissed p k) s fun t =>
      ((t.slice (4 * p + k)).running.map (·.missed)) = some true ∧
      t.fld GAL_OVERRUN_COUNT = min (2 ^ 32 - 1) (s.fld GAL_OVERRUN_COUNT + 1) ∧ t.ses = s.ses := by
  have hmissed : contractMissed s p k = fault ((s.incSat GAL_OVERRUN_COUNT 1).setSlice (4 * p + k)
      { s.slice (4 * p + k) with running := some { g with missed := true } })
      (0xC00 + id / 64 % 64) 0x0C 0xA013 (BitVec.ofNat 64 id) := by
    unfold contractMissed
    dsimp only
    rw [hrun, hcontract]
    exact if_pos ⟨hcount, hlate, hfirst⟩
  refine ends_of_eq (u := contractMissed s p k) rfl hmissed ⟨?_, ?_, ?_⟩
  · rw [fault_slice, setSlice_same]
    rfl
  · rw [fault_fld _ _ _ _ _ _ _ (by decide), setSlice_at_fld, fld_incSat_same hs 1 (by decide)]
  · rw [fault_ses, setSlice_ses, incSat_ses]

theorem contractStepMissed_once {id : Nat} (hrun : (s.slice (4 * p + k)).running = some g)
    (hcontract : (s.slice (4 * p + k)).contract = some id) (hmissed : g.missed = true) :
    exec (.contractStepMissed p k) s = .next s := by
  refine exec_unchanged (u := contractMissed s p k) rfl ?_
  unfold contractMissed
  dsimp only
  rw [hrun, hcontract]
  exact if_neg (by simp [hmissed])

/-! ### The step watchdog (R503) -/

theorem abandonGalley_empty (hrun : (s.slice (4 * p + k)).running = some g) (hrecs : g.recs = []) :
    abandonGalley s p k =
      (endGalley s p k).setSlice (4 * p + k) { (endGalley s p k).slice (4 * p + k) with prevDone := (endGalley s p k).now } := by
  unfold abandonGalley
  rw [hrun]
  dsimp only
  rw [hrecs]
  rfl

theorem stepWatchdog_abandons (hk : k < 4) (hrun : (s.slice (4 * p + k)).running = some g) (hrecs : g.recs = [])
    (hleft : ∃ n ∈ partCells s p, n ∉ g.done)
    (hlate : g.release + s.fld FLT_TIMEOUT_A_STEP_WD * (g.deadline - g.release) ≤ s.clk.now) : Ends (.stepWatchdog p k) s fun t =>
      (t.slice (4 * p + k)).running = none ∧ (t.slice (4 * p + k)).prevDone = s.clk.now ∧ t.ses = s.ses := by
  have hwatchdog : watchdog s p k = abandonGalley (fault s (0xE00 + 4 * p + k) 0x07 0xA012 (BitVec.ofNat 64 g.step)) p k := by
    unfold watchdog
    rw [hrun]
    exact if_pos ⟨hlate, not_all_done hleft⟩
  obtain ⟨hfree, hprev, hses⟩ := endGalley_done hk (fault s (0xE00 + 4 * p + k) 0x07 0xA012 (BitVec.ofNat 64 g.step)) p
  refine ends_of_eq (u := watchdog s p k) rfl
    (hwatchdog.trans (abandonGalley_empty ((congrArg Slice.running (fault_slice ..)).trans hrun) hrecs)) ⟨hfree, ?_, ?_⟩
  · rw [hprev, fault_clk]
  · rw [hses, fault_ses]

theorem stepWatchdog_early (hrun : (s.slice (4 * p + k)).running = some g)
    (hearly : s.clk.now < g.release + s.fld FLT_TIMEOUT_A_STEP_WD * (g.deadline - g.release)) :
    exec (.stepWatchdog p k) s = .next s := by
  refine exec_unchanged (u := watchdog s p k) rfl ?_
  unfold watchdog
  rw [hrun]
  exact if_neg fun h => absurd h.1 (Nat.not_le.2 hearly)

end Sys2Proof.Machine
end

section
/-! The build of a galley (R155, R159, R160, R162, R175). -/

namespace Sys2Proof.Machine

variable {s t : State} {p k : Nat}

/-! ### The contracts in force, through the preparation of slots (R112, R155) -/

/-- The bindings of contracts to slices, and the contracts admitted. -/
def contractsIn (s : State) : Map Nat × Map Contract := (s.mkr.binding, s.mkr.admitted)

theorem contractsIn_of_mkr (h : t.mkr = s.mkr) : contractsIn t = contractsIn s := by rw [contractsIn, h, contractsIn]

theorem boundContract_of_contractsIn (h : contractsIn t = contractsIn s) (sl : Nat) : boundContract t sl = boundContract s sl := by
  obtain ⟨hbinding, hadmitted⟩ := Prod.mk.inj h
  unfold boundContract inForce
  rw [hbinding, hadmitted]

section
variable (s : State)

theorem policeDone_contracts (id : Option Nat) : contractsIn (policeDone s id) = contractsIn s := by
  unfold policeDone
  split
  · rfl
  · split
    · rfl
    · split <;> rfl

theorem abortRevival_contracts (i : Nat) : contractsIn (abortRevival s i) = contractsIn s := by
  unfold abortRevival
  split
  · rfl
  · split
    · rfl
    · exact (contractsIn_of_mkr (setSes_mkr ..)).trans
        ((policeDone_contracts ..).trans (contractsIn_of_mkr (freeFrames_mkr ..)))

theorem releaseSlot_mkr (e : Session) : (releaseSlot s e).1.mkr = s.mkr := by
  obtain ⟨r, m, h⟩ := releaseSlot_fst s e
  rw [h]

theorem releaseP2_mkr (i : Nat) (e : Session) : (releaseP2 s i e).mkr = s.mkr := by
  unfold releaseP2
  split
  · exact send_mkr ..
  · rfl

theorem unbindSlots_mkr (e : Session) : (unbindSlots s e).mkr = s.mkr := by
  unfold unbindSlots
  split
  · dsimp only
    split <;> rfl
  · rfl

theorem notBehind_mkr (e : Session) : (notBehind s e).mkr = s.mkr := by
  unfold notBehind
  split <;> rfl

theorem releaseState_contracts (i : Nat) (st : SesState) : contractsIn (releaseState s i st) = contractsIn s := by
  unfold releaseState
  split
  · rfl
  · next e _ =>
    have hdone : contractsIn (policeDone (abortRevival s i) (e.park.bind (·.policed))) = contractsIn s :=
      (policeDone_contracts ..).trans (abortRevival_contracts ..)
    dsimp only
    refine (contractsIn_of_mkr ?_).trans hdone
    rw [showBorrowed, setFld_mkr, setSes_mkr, notBehind_mkr, unbindSlots_mkr, freeFrames_mkr, releaseP2_mkr, releaseSlot_mkr]
    split
    · split
      · exact send_mkr ..
      · rfl
    · rfl

theorem fault_mkr (source kind status : Nat) (address : Word) (master access : Nat) :
    (fault s source kind status address master access).mkr = s.mkr := by
  obtain ⟨r, f, h⟩ := fault_upd s source kind status address master access
  rw [h]

theorem checkEntry_contracts (i : Nat) (e : Session) : contractsIn (checkEntry s i e).1 = contractsIn s := by
  unfold checkEntry
  split
  · rfl
  · split
    · rfl
    · refine (contractsIn_of_mkr (fault_mkr ..)).trans ?_
      split
      · exact (contractsIn_of_mkr rfl).trans (releaseState_contracts s i .faulted)
      · rfl

theorem slotHold_mkr (slot reason : Nat) (pre : Bool) : (slotHold s slot reason pre).mkr = s.mkr := by
  unfold slotHold
  split <;> rfl

theorem holdSession_mkr (i reason : Nat) : (holdSession s i reason).mkr = s.mkr := by
  unfold holdSession
  split
  · rfl
  · exact slotHold_mkr ..

theorem unholdSession_mkr (i : Nat) : (unholdSession s i).mkr = s.mkr := by
  unfold unholdSession
  split
  · rfl
  · exact slotHold_mkr ..

theorem settleHold_mkr (i : Nat) : (settleHold s i).mkr = s.mkr := by
  unfold settleHold
  split
  · rfl
  · split
    · exact holdSession_mkr ..
    · split
      · exact unholdSession_mkr ..
      · rfl

theorem budgetFill_mkr (c : Nat) : (budgetFill s c).mkr = s.mkr := by
  unfold budgetFill
  split <;> rfl

theorem prepSlot_contracts (n : Nat) : contractsIn (prepSlot s n) = contractsIn s := by
  unfold prepSlot
  split
  · rfl
  · next x0 _ =>
    split
    · rfl
    · next e0 _ =>
      have hcheck := checkEntry_contracts s x0.index e0
      split
      · next h => rwa [h] at hcheck
      · next u e1 h =>
        rw [h] at hcheck
        have hsettle : contractsIn (settleHold (budgetFill u e1.customer) x0.index) = contractsIn s :=
          (contractsIn_of_mkr ((settleHold_mkr ..).trans (budgetFill_mkr ..))).trans hcheck
        dsimp only
        split
        · exact hsettle
        · exact hsettle

end

/-! ### Positions (R162, R175) -/

theorem posOf_append (rs : List Rec) (r : Rec) : posOf (rs ++ [r]) = posOf rs + r.new := by simp [posOf]

/-- A record is made only where its positions find room. -/
theorem tryRec_room {m : Model} {c : Bool} {cap pf room step n : Nat} {x : Slot} {rings : List Nat} {r : Rec}
    (h : (tryRec s p k m c cap pf room step n x rings).2.1 = some r) : r.new ≤ room := by
  unfold tryRec at h
  split at h
  · exact absurd h (by simp)
  · split at h
    · exact absurd h (by simp)
    · extract_lets d new res at h
      clear_value new
      split at h
      · exact absurd h (by simp)
      · next hroom =>
        split at h
        · exact absurd h (by simp)
        · split at h
          · exact absurd h (by simp)
          · cases h
            exact Nat.not_lt.1 hroom

theorem fillSection_room (p k : Nat) (m : Model) (covered step : Nat) : ∀ (xs : List (Nat × Slot)) (room : Nat) (s : State)
    (rs : List Rec), posOf (fillSection p k m covered step xs room s rs).2 ≤ posOf rs + room
  | [], room, s, rs => Nat.le_add_right ..
  | x :: xs, room, s, rs => by
    unfold fillSection
    split
    · next u r n h =>
      have hroom : r.new ≤ room := tryRec_room (congrArg (·.2.1) h)
      have hrest := fillSection_room p k m covered step xs (room - r.new) u (rs ++ [r])
      rw [posOf_append] at hrest
      omega
    · split
      · exact Nat.le_add_right ..
      · exact fillSection_room p k m covered step xs room _ rs

/-- The records of a slice that no contract binds: none is contracted, and their positions stay within MAX_POS. -/
theorem selectRecs_uncontracted (hfree : boundContract s (4 * p + k) = none) (m : Model) (step : Nat) :
    (selectRecs s p k m step).2.2 = 0 ∧ posOf (selectRecs s p k m step).2.1 ≤ s.fld (GAL_SLICE_B_MAX_POS p k) := by
  have hprep : contractsIn (((sliceSlots s p k).map (·.1)).foldl prepSlot s) = contractsIn s :=
    foldl_frame contractsIn prepSlot_contracts _ s
  unfold selectRecs
  dsimp only
  rw [(boundContract_of_contractsIn hprep _).trans hfree]
  refine ⟨rfl, ?_⟩
  have hroom := fillSection_room p k m 16 step
  exact (hroom _ _ _ []).trans (Nat.le_of_eq (Nat.zero_add _))

/-! ### The build (R160) -/

theorem classFive_slice (s : State) (sl n : Nat) : (classFive s sl).slice n = s.slice n := by
  unfold classFive
  split <;> rfl

theorem galleyBuild_ends {m : Model} (hon : sliceOn s p k = true) (hbuilt : (s.slice (4 * p + k)).built = none)
    (hmodel : sliceModel s p k = some m) : Ends (.galleyBuild p k) s fun t => ∃ g : Galley,
      (t.slice (4 * p + k)).built = some g ∧ g.step = (s.slice (4 * p + k)).nextStep ∧
      (t.slice (4 * p + k)).nextStep = ((s.slice (4 * p + k)).nextStep + 1) % 2 ^ 32 ∧
      g.release = (nextRelease s p k).1 ∧ g.deadline = g.release + periodOf s p k ∧ (t.slice (4 * p + k)).building = false ∧
      g.done = [] ∧ (s.fld (GAL_SLICE_A_KIND p k) = 0 → boundContract s (4 * p + k) = none →
        g.cCount = 0 ∧ g.positions ≤ s.fld (GAL_SLICE_B_MAX_POS p k)) := by
  have hshow (u : State) (y : Slice) :
      (showBuilding (classFive (u.setSlice (4 * p + k) y) (4 * p + k))).slice (4 * p + k) = y := by
    rw [showBuilding, setFld_at_slice, classFive_slice, setSlice_same]
  have hready : (sliceOn s p k && (s.slice (4 * p + k)).built.isNone) = true := by simp [hon, hbuilt]
  refine ⟨buildGalley s p k, rfl, ?_⟩
  unfold buildGalley
  dsimp only
  rw [hready, hmodel]
  dsimp only
  rw [hshow]
  refine ⟨_, rfl, rfl, rfl, rfl, rfl, rfl, rfl, fun hkind hfree => ?_⟩
  obtain ⟨hcount, hroom⟩ := selectRecs_uncontracted hfree m (s.slice (4 * p + k)).nextStep
  simp only [hkind, if_pos, reduceIte, zero_ne_one]
  exact ⟨hcount, hroom⟩

theorem galleyBuild_unchanged (h : sliceOn s p k = false ∨ (s.slice (4 * p + k)).built ≠ none) :
    exec (.galleyBuild p k) s = .next s := by
  have hnot : (sliceOn s p k && (s.slice (4 * p + k)).built.isNone) = false := by
    rcases h with hoff | hbuilt
    · simp [hoff]
    · obtain ⟨g, hg⟩ := Option.ne_none_iff_exists'.1 hbuilt
      simp [hg]
  refine exec_unchanged (u := buildGalley s p k) rfl ?_
  unfold buildGalley
  dsimp only
  rw [hnot]

/-! ### The statement -/

/-- Settles O43: the slice that each event of a galley leaves, and the records that a build chooses. -/
theorem galleysAreBuiltSwappedAndCommitted : Obligations.GalleysAreBuiltSwappedAndCommitted := by
  unfold Obligations.GalleysAreBuiltSwappedAndCommitted
  intro s p k hp hk hs sl y
  refine ⟨fun hon hbuilt hmodel => ?_, galleyBuild_unchanged,
    fun g hbuilt hfree hmodel hon hstop hbar hrelease hprev hrecs =>
      galleySwap_ends hs hp hk hbuilt hfree hmodel hon hstop hbar hrelease hprev hrecs,
    fun g hrun hpart hdone => ⟨galleyCommit_empty hk hrun hpart hdone,
      fun r e hrecs hvoid hpages hses hcancel hending hhold =>
        galleyCommit_cancelled hk hrun hpart hdone hrecs hvoid hpages hses hcancel hending hhold⟩,
    fun g hrun hleft => galleyCommit_undone hrun hleft,
    fun g id hrun hcontract hcount hlate => ⟨contractStepMissed_counts hs hrun hcontract hcount hlate,
      contractStepMissed_once hrun hcontract⟩,
    fun g hrun hrecs hleft => ⟨stepWatchdog_abandons hk hrun hrecs hleft, stepWatchdog_early hrun⟩⟩
  obtain ⟨m, hm⟩ := Option.isSome_iff_exists.1 hmodel
  exact galleyBuild_ends hon hbuilt hm

end Sys2Proof.Machine
end

section
/-! The durability lag, deferred writes, pressure parking and evacuation (R94, R102, R105, R140). -/

namespace Sys2Proof.Machine

variable {s t : State} {i : Nat} {e : Session}

/-! ### Parks that start -/

/-- Session i, still at P1 with its tokens, has started the park of a choice. -/
def ParkStarts (i tokens : Nat) (c : Choice) (copyOnly : Bool) (t : State) : Prop :=
  ∃ e' : Session, t.ses? i = some e' ∧ e'.parkBusy = true ∧
    (e'.park.map fun p => (p.target, p.place, p.bytes, p.copyOnly)) = some (c.tier, c.place, c.bytes, copyOnly) ∧
    e'.deferred = none ∧ e'.tier = .p1 ∧ e'.tokens = tokens

theorem startPark_parkStarts (hses : s.ses? i = some e) (htier : e.tier = .p1) {c : Choice}
    (hcolour : (policePark s e c.tier c.bytes).1 ≠ 3) (copyOnly : Bool) :
    ParkStarts i e.tokens c copyOnly (startPark s i c copyOnly) := by
  obtain ⟨p, hentry, htarget, hplace, hbytes, hcopy⟩ := startPark_starts hses hcolour copyOnly
  exact ⟨_, hentry, rfl, congrArg some (Prod.ext htarget (Prod.ext hplace (Prod.ext hbytes hcopy))), rfl, htier, rfl⟩

/-- The horizon rule ends the wait grace and starts the whole park of the tier it chooses. -/
theorem applyHorizon_parkStarts (hses : s.ses? i = some e) (hrest : Resting e) {hint : Nat}
    (hmoves : (chooseTier s e hint).tier ≠ .p1)
    (hcolour : (policePark s e (chooseTier s e hint).tier (chooseTier s e hint).bytes).1 ≠ 3) :
    ParkStarts i e.tokens (chooseTier s e hint) false (applyHorizon s i hint) := by
  have hgraced := ses_setSes_same s i e.graced
  have hchosen := (chooseTier_chosen s e hint).resolve_left hmoves
  rw [applyHorizon_eq hses, applyChoice_park hgraced hrest.graced hchosen]
  exact startPark_parkStarts hgraced hrest.graced.tier
    ((policePark_fst_of_mkr (s := s) (t := s.setSes i e.graced) (e := e) (e' := e.graced.written) rfl rfl rfl _ _).trans_ne
      hcolour) false

/-! ### The durability lag (R94) -/

theorem lagging_iff (hwait : e.state = .waiting) (hrest : Resting e) (hdur : e.dur ≠ 0)
    (hdirty : e.p3 = none ∨ e.dirtyPages ≠ 0) :
    lagging s e = true ↔ e.waitSince + s.fld (SES_CLASS_B_DUR_LAG_MS e.cls) * 1000000 < s.clk.now := by
  obtain ⟨htier, -, hparkBusy, hreviveBusy⟩ := hrest
  have hstale : (e.p3.isNone || decide (e.dirtyPages ≠ 0)) = true := by simpa using hdirty
  change _ ↔ e.waitSince + s.fld (SES_CLASS_B_DUR_LAG_MS e.cls) * msNs < s.now
  unfold lagging
  rw [hstale]
  simp [hwait, hdur, htier, hparkBusy, hreviveBusy]

theorem bringCurrent_of_bay {b n : Nat} (hbay : chooseBay s e true = some (b, n)) :
    bringCurrent s i e = startPark s i ⟨.p3, b, n⟩ true := by
  unfold bringCurrent
  rw [hbay]

/-- A session whose copy waits for a bay that takes it. -/
def Session.deferring (e : Session) : Session := { e with deferred := some (.p3, 0, 0, true) }

theorem bringCurrent_of_no_bay (hbay : chooseBay s e true = none) : bringCurrent s i e = countBehind s i e.deferring := by
  unfold bringCurrent
  rw [hbay]
  rfl

theorem countBehind_entry (s : State) (i : Nat) {e : Session} (hfirst : e.behind = false) :
    (countBehind s i e).ses? i = some ({ e with behind := true } : Session).written := by
  unfold countBehind
  rw [if_neg (by simp [hfirst]), incSat_at_ses, ses_setSes_same]

theorem exec_durLagExpiry (hses : s.ses? i = some e) :
    exec (.durLagExpiry i) s = .next (if lagging s e then bringCurrent s i e else s) := by
  change execDurLagExpiry i s = _
  unfold execDurLagExpiry
  rw [hses]

section
variable (hses : s.ses? i = some e) (hwait : e.state = .waiting) (hrest : Resting e) (hdur : e.dur ≠ 0)
  (hdirty : e.p3 = none ∨ e.dirtyPages ≠ 0)
include hses hwait hrest hdur hdirty

theorem durLagExpiry_parks (hlate : e.waitSince + s.fld (SES_CLASS_B_DUR_LAG_MS e.cls) * 1000000 < s.clk.now) {b n : Nat}
    (hbay : chooseBay s e true = some (b, n)) (hcolour : (policePark s e .p3 n).1 ≠ 3) :
    Ends (.durLagExpiry i) s (ParkStarts i e.tokens ⟨.p3, b, n⟩ true) := by
  refine ends_of_eq (exec_durLagExpiry hses) ?_ (startPark_parkStarts hses hrest.tier (c := ⟨.p3, b, n⟩) hcolour true)
  rw [if_pos ((lagging_iff hwait hrest hdur hdirty).2 hlate), bringCurrent_of_bay hbay]

theorem durLagExpiry_behind (hlate : e.waitSince + s.fld (SES_CLASS_B_DUR_LAG_MS e.cls) * 1000000 < s.clk.now)
    (hbay : chooseBay s e true = none) (hfirst : e.behind = false) :
    Ends (.durLagExpiry i) s fun t => ∃ e' : Session, t.ses? i = some e' ∧ e'.behind = true ∧
      e'.deferred = some (.p3, 0, 0, true) ∧ e'.parkBusy = false := by
  refine ends_of_eq (exec_durLagExpiry hses) ?_ ⟨_, countBehind_entry s i (e := e.deferring) hfirst, rfl, rfl, hrest.parkBusy⟩
  rw [if_pos ((lagging_iff hwait hrest hdur hdirty).2 hlate), bringCurrent_of_no_bay hbay]

theorem durLagExpiry_early (hearly : s.clk.now ≤ e.waitSince + s.fld (SES_CLASS_B_DUR_LAG_MS e.cls) * 1000000) :
    exec (.durLagExpiry i) s = .next s :=
  exec_unchanged (exec_durLagExpiry hses)
    (if_neg fun hlag => absurd ((lagging_iff hwait hrest hdur hdirty).1 hlag) (Nat.not_lt.2 hearly))

end

/-! ### Deferred writes (R94, R140) -/

theorem deferredStart_copy (hses : s.ses? i = some e) (hwait : e.state = .waiting) (hrest : Resting e) {x : Tier} {p n : Nat}
    (hdeferred : e.deferred = some (x, p, n, true)) :
    deferredStart s i = (chooseBay s e true).elim s fun y => startPark s i ⟨.p3, y.1, y.2⟩ true := by
  unfold deferredStart
  rw [hses]
  dsimp only
  rw [hdeferred]
  dsimp only
  rw [if_pos ⟨hwait, hrest.parkBusy, hrest.reviveBusy⟩]
  cases chooseBay s e true <;> rfl

theorem deferredParkStart_parks (hses : s.ses? i = some e) (hwait : e.state = .waiting) (hrest : Resting e) {x : Tier} {p n : Nat}
    (hdeferred : e.deferred = some (x, p, n, true)) {b m : Nat} (hbay : chooseBay s e true = some (b, m))
    (hcolour : (policePark s e .p3 m).1 ≠ 3) :
    Ends (.deferredParkStart i) s (ParkStarts i e.tokens ⟨.p3, b, m⟩ true) := by
  refine ends_of_eq (u := deferredStart s i) rfl ?_
    (startPark_parkStarts hses hrest.tier (c := ⟨.p3, b, m⟩) hcolour true)
  rw [deferredStart_copy hses hwait hrest hdeferred, hbay, Option.elim_some]

theorem deferredParkStart_waits (hses : s.ses? i = some e) (hwait : e.state = .waiting) (hrest : Resting e) {x : Tier} {p n : Nat}
    (hdeferred : e.deferred = some (x, p, n, true)) (hbay : chooseBay s e true = none) :
    exec (.deferredParkStart i) s = .next s := by
  refine exec_unchanged (u := deferredStart s i) rfl ?_
  rw [deferredStart_copy hses hwait hrest hdeferred, hbay, Option.elim_none]

/-! ### Pressure parking (R102) -/

/-- The free pages of a context's reservation. -/
def freePages (s : State) (c : Nat) : Nat := s.fld (SES_CTX_PAGES_RSV_PAGES c) - s.fld (SES_CTX_PAGES_USED_PAGES c)

/-- The pages that pressure parking frees: from the free ones up to HIGH_PCT of the reservation. -/
def pressureNeed (s : State) (c : Nat) : Nat := (highPct s * s.fld (SES_CTX_PAGES_RSV_PAGES c) + 99) / 100 - freePages s c

theorem pressure_eq (s : State) (c : Nat) :
    pressure s c = if freePages s c * 100 < s.fld SES_P1_WATER_LOW_PCT * s.fld (SES_CTX_PAGES_RSV_PAGES c) then
      pressureRun (pressureOrder s c) (pressureNeed s c) s else s := rfl

/-- Below LOW_PCT there is something to free, as HIGH_PCT counts as more than LOW_PCT (R106). -/
theorem pressureNeed_ne_zero {c : Nat}
    (hlow : freePages s c * 100 < s.fld SES_P1_WATER_LOW_PCT * s.fld (SES_CTX_PAGES_RSV_PAGES c)) : pressureNeed s c ≠ 0 := by
  have hpct : s.fld SES_P1_WATER_LOW_PCT ≤ highPct s := (Nat.le_succ _).trans (Nat.le_max_right _ _)
  have hhigh := Nat.mul_le_mul_right (s.fld (SES_CTX_PAGES_RSV_PAGES c)) hpct
  unfold pressureNeed
  omega

theorem pressureOrder_single (hentries : s.ses.entries = [(i, e)]) (hwait : e.state = .waiting) (hrest : Resting e)
    (hfree : (governing s e.contract 2 fun _ => true) = none) : pressureOrder s e.context = [i] := by
  obtain ⟨htier, -, hparkBusy, hreviveBusy⟩ := hrest
  by_cases hexpect : e.expectTime = 0 <;>
    simp [pressureOrder, hentries, hwait, htier, hparkBusy, hreviveBusy, hfree, hexpect]

theorem pressureRun_single {need : Nat} (hneed : need ≠ 0) : pressureRun [i] need s = applyHorizon s i 0 := by
  unfold pressureRun
  rw [if_neg hneed]
  rfl

theorem p1PressureParking_parks (hses : s.ses? i = some e) (hwait : e.state = .waiting) (hrest : Resting e)
    (hlow : freePages s e.context * 100 < s.fld SES_P1_WATER_LOW_PCT * s.fld (SES_CTX_PAGES_RSV_PAGES e.context))
    (hentries : s.ses.entries = [(i, e)]) (hfree : (governing s e.contract 2 fun _ => true) = none)
    (hmoves : (chooseTier s e 0).tier ≠ .p1)
    (hcolour : (policePark s e (chooseTier s e 0).tier (chooseTier s e 0).bytes).1 ≠ 3) :
    Ends (.p1PressureParking e.context) s (ParkStarts i e.tokens (chooseTier s e 0) false) := by
  refine ends_of_eq (u := pressure s e.context) rfl ?_ (applyHorizon_parkStarts hses hrest hmoves hcolour)
  rw [pressure_eq, if_pos hlow, pressureOrder_single hentries hwait hrest hfree, pressureRun_single (pressureNeed_ne_zero hlow)]

theorem p1PressureParking_enough {c : Nat}
    (henough : s.fld SES_P1_WATER_LOW_PCT * s.fld (SES_CTX_PAGES_RSV_PAGES c) ≤ freePages s c * 100) :
    exec (.p1PressureParking c) s = .next s :=
  exec_unchanged (u := pressure s c) rfl ((pressure_eq s c).trans (if_neg (Nat.not_lt.2 henough)))

/-! ### Evacuation (R105) -/

theorem evacuateOne_starts (hses : s.ses? i = some e) (hwait : e.state = .waiting) (hrest : Resting e) {bay b n : Nat}
    (hcopy : (e.p3.map (·.bay)) = some bay) (hbay : chooseBay s e true (other := true) = some (b, n)) :
    evacuateOne s bay i = startPark s i ⟨.p3, b, n⟩ true := by
  unfold evacuateOne
  rw [hses]
  dsimp only
  rw [if_pos ⟨hwait, hrest.parkBusy, hrest.reviveBusy, hcopy⟩, hbay]

theorem bayReadOnlyEvacuation_parks (hses : s.ses? i = some e) (hwait : e.state = .waiting) (hrest : Resting e) {bay b n : Nat}
    (hreadOnly : s.fld (CRT_BAY_STATE bay) = 6) (hentries : s.ses.entries = [(i, e)])
    (hcopy : (e.p3.map (·.bay)) = some bay) (hbay : chooseBay s e true (other := true) = some (b, n))
    (hcolour : (policePark s e .p3 n).1 ≠ 3) :
    Ends (.bayReadOnlyEvacuation bay) s (ParkStarts i e.tokens ⟨.p3, b, n⟩ true) := by
  refine ends_of_eq (u := evacuate s bay) rfl ?_ (startPark_parkStarts hses hrest.tier (c := ⟨.p3, b, n⟩) hcolour true)
  unfold evacuate
  rw [if_pos hreadOnly, hentries]
  exact evacuateOne_starts hses hwait hrest hcopy hbay

theorem bayReadOnlyEvacuation_unchanged {bay : Nat} (hother : s.fld (CRT_BAY_STATE bay) ≠ 6) :
    exec (.bayReadOnlyEvacuation bay) s = .next s :=
  exec_unchanged (u := evacuate s bay) rfl (if_neg hother)

/-! ### The statement -/

/-- Settles O38: the park that each event starts once its condition holds, and no effect before. -/
theorem durableCopiesAndPressure : Obligations.DurableCopiesAndPressure := by
  unfold Obligations.DurableCopiesAndPressure
  intro s i e hses hwait hpark hparkBusy _ hrevBusy htier
  have hrest : Resting e := ⟨htier, hpark, hparkBusy, hrevBusy⟩
  refine ⟨fun hdur hdirty => ⟨fun hlate b n => durLagExpiry_parks hses hwait hrest hdur hdirty hlate,
      durLagExpiry_behind hses hwait hrest hdur hdirty, durLagExpiry_early hses hwait hrest hdur hdirty⟩,
    fun x p n hdeferred => ⟨fun b m => deferredParkStart_parks hses hwait hrest hdeferred,
      deferredParkStart_waits hses hwait hrest hdeferred⟩,
    ⟨p1PressureParking_enough, p1PressureParking_parks hses hwait hrest⟩,
    fun bay => ⟨bayReadOnlyEvacuation_unchanged, fun b n => bayReadOnlyEvacuation_parks hses hwait hrest⟩⟩

end Sys2Proof.Machine
end

section
/-! What the make-ready operations leave of the contracts and of the session table (R118 to R121, R141, R143 to R145, R148). -/

namespace Sys2Proof.Machine

variable {s t : State}

/-! ### What leaves the contracts alone: completions and notices (R535) -/

@[simp] theorem queueError_mkr (s : State) (c q st : Nat) : (queueError s c q st).mkr = s.mkr := rfl

@[simp] theorem writeEntry_mkr (s : State) (c q : Nat) (x : Completion) : (writeEntry s c q x).mkr = s.mkr := by
  unfold writeEntry; dsimp only; split_ifs <;> simp

@[simp] theorem post_mkr (s : State) (c q : Nat) (x : Completion) : (post s c q x).mkr = s.mkr := by
  unfold post; dsimp only; split_ifs <;> simp

@[simp] theorem complete_mkr (s : State) (src : Src) (op st : Nat) (r o g : Word) : (complete s src op st r o g).mkr = s.mkr := by
  unfold complete; dsimp only; split_ifs <;> simp

@[simp] theorem completeFail_mkr (s : State) (src : Src) (op st : Nat) (o g : Word) :
    (completeFail s src op st o g).mkr = s.mkr := by
  simp [completeFail]

@[simp] theorem notice_mkr (s : State) (c q reason st : Nat) (r o g : Word) : (notice s c q reason st r o g).mkr = s.mkr := by
  simp [notice]

@[simp] theorem readyDone_mkr (s : State) (src : Src) (st : Nat) : (readyDone s src st).mkr = s.mkr := by
  unfold readyDone; dsimp only; split_ifs <;> simp

/-! ### The free pools and the registers that show the model (R141, R148) -/

@[simp] theorem wearFill_mkr (s : State) :
    (wearFill s).mkr = { s.mkr with wearFree := (List.range 4).map (wearFreeNow s), wearAt := s.now } := by
  unfold wearFill
  exact foldl_frame State.mkr (fun _ _ => setFld_mkr ..) _ _

@[simp] theorem wearFill_ses (s : State) : (wearFill s).ses = s.ses := by
  unfold wearFill
  exact foldl_frame State.ses (fun _ _ => setFld_ses ..) _ _

@[simp] theorem showModel_mkr (s : State) : (showModel s).mkr = s.mkr := by
  unfold showModel
  exact foldl_frame State.mkr (fun _ _ => (setFld_mkr ..).trans (setFld_mkr ..)) _ _

@[simp] theorem showModel_ses (s : State) : (showModel s).ses = s.ses := by
  unfold showModel
  exact foldl_frame State.ses (fun _ _ => (setFld_ses ..).trans (setFld_ses ..)) _ _

/-! ### Admitted sets that take the place of others (R118, R120) -/

section
variable (s : State) (set : Map Contract)

@[simp] theorem installSets_admitted : (installSets s set).mkr.admitted = set := by simp [installSets]

@[simp] theorem installSets_pending : (installSets s set).mkr.pending = s.mkr.pending := by simp [installSets]

@[simp] theorem installSets_waiting : (installSets s set).mkr.waiting = s.mkr.waiting := by simp [installSets]

@[simp] theorem installSets_ses : (installSets s set).ses = s.ses := by simp [installSets]

end

/-! ### Sets that only lose contracts (R143 to R145) -/

/-- Every contract admitted in `t` was admitted in `s`, under the same identifier. -/
def AdmittedWithin (s t : State) : Prop := ∀ x ∈ t.mkr.admitted, ∃ y ∈ s.mkr.admitted, y.1 = x.1

theorem AdmittedWithin.of_eq (h : t.mkr.admitted = s.mkr.admitted) : AdmittedWithin s t :=
  fun x hx => ⟨x, h ▸ hx, rfl⟩

theorem AdmittedWithin.trans {u : State} (hst : AdmittedWithin s t) (htu : AdmittedWithin t u) : AdmittedWithin s u := by
  intro x hx
  obtain ⟨y, hy, hyx⟩ := htu x hx
  obtain ⟨z, hz, hzy⟩ := hst y hy
  exact ⟨z, hz, hzy.trans hyx⟩

theorem shedOne_admitted (s : State) (id : Nat) (c : Contract) (resource : Nat) :
    (shedOne s id c resource).mkr.admitted = (mdel s.mkr.admitted id).map fun x => (x.1, unlink id x.2) := by
  simp [shedOne]

theorem shedOne_admittedWithin (s : State) (id : Nat) (c : Contract) (resource : Nat) :
    AdmittedWithin s (shedOne s id c resource) := by
  intro x hx
  rw [shedOne_admitted] at hx
  obtain ⟨y, hy, rfl⟩ := List.mem_map.1 hx
  exact ⟨y, mem_mdel hy, rfl⟩

/-- A round of the shedding loop finds everything to fit, or sheds one contract and goes on. -/
theorem shedLoop_succ (n : Nat) (s : State) :
    shedLoop (n + 1) s = s ∨ ∃ id c resource, shedLoop (n + 1) s = shedLoop n (shedOne s id c resource) := by
  rw [shedLoop]
  dsimp only
  split
  · exact .inl rfl
  · exact .inr ⟨_, _, _, rfl⟩

theorem shedLoop_admittedWithin : ∀ (n : Nat) (s : State), AdmittedWithin s (shedLoop n s)
  | 0, _ => .of_eq rfl
  | n + 1, s => by
    obtain hfits | ⟨id, c, resource, hshed⟩ := shedLoop_succ n s
    · rw [hfits]
      exact .of_eq rfl
    · rw [hshed]
      exact (shedOne_admittedWithin s id c resource).trans (shedLoop_admittedWithin n _)

@[simp] theorem reevaluate_due (s : State) : (reevaluate s).mkr.due = false := by simp [reevaluate]

theorem reevaluate_admittedWithin (s : State) : AdmittedWithin s (reevaluate s) :=
  have hfill : AdmittedWithin s (wearFill s) := .of_eq (by simp)
  have hshown : AdmittedWithin (shedLoop s.mkr.admitted.length (wearFill s)) (reevaluate s) := .of_eq (by simp [reevaluate])
  (hfill.trans (shedLoop_admittedWithin _ _)).trans hshown

end Sys2Proof.Machine
end

section
/-! mkr.define, mkr.drop, mkr.ready, mkr.withdraw and mkr.query, the evaluation and the re-evaluation (R115 to R122, R143, R611). -/

namespace Sys2Proof.Machine

variable {s t : State} {src : Src}

/-! ### mkr.define and mkr.drop (R115 to R117) -/

theorem defineBody_done {a : Word} {bs : List Byte} (hread : itemRead s src 1 a 96 = .ok bs)
    (hvalid : defineRefusal s src.ctx (words8 12 bs) = 0) :
    let c : Contract := words8 12 bs
    defineBody src a s =
      ({ s with mkr := { s.mkr with pending := mset s.mkr.pending c.id c, shed := mdel s.mkr.shed c.id } },
        .done 0 (BitVec.ofNat 64 c.id) (BitVec.ofNat 64 c.id) 0) := by
  simp [defineBody, hread, hvalid]

theorem mkrDefine_completes (hgo : ItemGo s src) {a : Word} {bs : List Byte} (hread : itemRead s src 1 a 96 = .ok bs)
    (hvalid : defineRefusal s src.ctx (words8 12 bs) = 0) :
    let c : Contract := words8 12 bs
    ∃ t : State, Completes (.mkrDefine src a) s src 0xD0 0 (BitVec.ofNat 64 c.id) (BitVec.ofNat 64 c.id) 0 t ∧
      mget t.mkr.pending c.id = some c ∧ (mwf s.mkr.shed = true → mget t.mkr.shed c.id = none) ∧
      t.mkr.admitted = s.mkr.admitted ∧ t.regs = s.regs :=
  ⟨_, congrArg _ (runItem_done hgo (defineBody_done hread hvalid)), mget_mset_same .., mget_mdel_same _, rfl, rfl⟩

theorem dropBody_done {id : Nat} (hctx : id / 64 = src.ctx) (hpending : (mget s.mkr.pending id).isSome) :
    dropBody src id s =
      ({ s with mkr := { s.mkr with pending := mdel s.mkr.pending id } }, .done 0 0 (BitVec.ofNat 64 id) 0) :=
  if_pos ⟨hctx, hpending⟩

theorem mkrDrop_completes (hgo : ItemGo s src) {id : Nat} (hctx : id / 64 = src.ctx) (hpending : (mget s.mkr.pending id).isSome)
    (hwf : mwf s.mkr.pending = true) :
    ∃ t : State, Completes (.mkrDrop src id) s src 0xD1 0 0 (BitVec.ofNat 64 id) 0 t ∧ mget t.mkr.pending id = none ∧
      t.mkr.admitted = s.mkr.admitted :=
  ⟨_, congrArg _ (runItem_done hgo (dropBody_done hctx hpending)), mget_mdel_same id hwf, rfl⟩

theorem mkrDrop_refused (hgo : ItemGo s src) {id : Nat} (hnone : mget s.mkr.pending id = none) :
    exec (.mkrDrop src id) s = .next (completeFail s src 0xD1 0x3012 (BitVec.ofNat 64 id) 0) :=
  congrArg _ (runItem_fail hgo (if_neg (by simp [hnone])))

/-! ### mkr.ready (R119, R122) -/

theorem startNext_of_waiting {r : ReadyReq} {rest : List ReadyReq} (h : s.mkr.waiting = r :: rest) :
    startNext s = { s.setFld MKR_STATUS_EVALUATING 1 with mkr := { s.mkr with evaluating := some r, waiting := rest } } := by
  rw [startNext, h]

theorem startNext_mkr_of_empty (h : s.mkr.waiting = []) : (startNext s).mkr = { s.mkr with evaluating := none } := by
  rw [startNext, h]

/-- The state in which the request of a mkr.ready has been put behind those that wait. -/
def queueReady (s : State) (r : ReadyReq) : State := { s with mkr := { s.mkr with waiting := s.mkr.waiting ++ [r] } }

theorem readyBody_of_locked (hlocked : s.fld GLB_TIME_STATUS_LOCKED ≠ 0) (a : Word) :
    readyBody src a s =
      (if s.mkr.evaluating.isSome then queueReady s ⟨src, a⟩ else startNext (queueReady s ⟨src, a⟩), .later) :=
  if_neg hlocked

theorem mkrReady_starts (hgo : ItemGo s src) (a : Word) (hlocked : s.fld GLB_TIME_STATUS_LOCKED ≠ 0)
    (hidle : s.mkr.evaluating = none) (hempty : s.mkr.waiting = []) (hs : Canonical s) :
    Ends (.mkrReady src a) s fun t => t.mkr.evaluating = some ⟨src, a⟩ ∧ t.mkr.waiting = [] ∧ t.fld MKR_STATUS_EVALUATING = 1 ∧
      t.mkr.pending = s.mkr.pending ∧ t.mkr.admitted = s.mkr.admitted ∧ t.host = s.host := by
  have hwaiting : (queueReady s ⟨src, a⟩).mkr.waiting = [⟨src, a⟩] := by simp [queueReady, hempty]
  have hbody : readyBody src a s = (startNext (queueReady s ⟨src, a⟩), .later) := by simp [readyBody_of_locked hlocked, hidle]
  refine ends_of_eq rfl ((runItem_later hgo hbody).trans (startNext_of_waiting hwaiting)) ⟨rfl, rfl, ?_, rfl, rfl, rfl⟩
  exact fld_setFld_same (s := s) (f := MKR_STATUS_EVALUATING) 1 (by decide) hs.regs

theorem mkrReady_waits (hgo : ItemGo s src) (a : Word) {r : ReadyReq} (hlocked : s.fld GLB_TIME_STATUS_LOCKED ≠ 0)
    (hbusy : s.mkr.evaluating = some r) :
    Ends (.mkrReady src a) s fun t => t.mkr.evaluating = some r ∧ t.mkr.waiting = s.mkr.waiting ++ [⟨src, a⟩] ∧ t.host = s.host := by
  have hbody : readyBody src a s = (queueReady s ⟨src, a⟩, .later) := by simp [readyBody_of_locked hlocked, hbusy]
  exact ends_of_eq rfl (runItem_later hgo hbody) ⟨hbusy, rfl, rfl⟩

theorem mkrReady_unlocked (hgo : ItemGo s src) (a : Word) (hunlocked : s.fld GLB_TIME_STATUS_LOCKED = 0) :
    exec (.mkrReady src a) s = .next (completeFail (s.setFld MKR_STATUS_LAST_STATUS 0x3002) src 0xD2 0x3002 0 0) :=
  congrArg _ (runItem_fail hgo (if_pos hunlocked))

/-! ### mkr.withdraw (R121) -/

theorem mkrWithdraw_completes (hgo : ItemGo s src) :
    ∃ t : State, Completes (.mkrWithdraw src) s src 0xD3 0 0 0 0 t ∧
      t.mkr.pending = s.mkr.pending.filter (fun x => x.1 / 64 ≠ src.ctx) ∧
      t.mkr.admitted = s.mkr.admitted.filter (fun x => x.1 / 64 ≠ src.ctx) ∧ t.ses = s.ses :=
  ⟨withdraw s src.ctx, congrArg _ (runItem_done hgo rfl), installSets_pending .., installSets_admitted .., installSets_ses ..⟩

/-! ### mkr.query (R115, R611) -/

theorem mkrQueryBody_done {id st : Nat} {a : Word} {c : Contract} (hctx : id / 64 = src.ctx)
    (hstate : contractState s id = some (st, c)) (hwrite : itemWrite s src 2 a (queryImage s id st c) = .ok t) :
    mkrQueryBody src id a s = (t, .done 0 (BitVec.ofNat 64 st) (BitVec.ofNat 64 id) 0) := by
  simp [mkrQueryBody, hctx, hstate, hwrite]

theorem contractBytes_length (c : Contract) : (c.flatMap fun w => leBytes 8 w.toNat).length = 8 * c.length := by
  simp [List.length_flatMap, Nat.mul_comm]

theorem queryImage_length (s : State) (id st : Nat) {c : Contract} (hc : c.length = 12) :
    (queryImage s id st c).length = 128 := by
  simp only [queryImage, List.length_append, contractBytes_length, leBytes_length, hc]

theorem queryImage_take (s : State) (id st : Nat) {c : Contract} (hc : c.length = 12) :
    (queryImage s id st c).take 96 = c.flatMap fun w => leBytes 8 w.toNat := by
  simp only [queryImage, List.append_assoc]
  exact List.take_left' (by rw [contractBytes_length, hc])

theorem mkrQuery_completes (hgo : ItemGo s src) {id st : Nat} {a : Word} {c : Contract} (hctx : id / 64 = src.ctx)
    (hstate : contractState s id = some (st, c)) (hwrite : itemWrite s src 2 a (queryImage s id st c) = .ok t) :
    Completes (.mkrQuery src id a) s src 0xD4 0 (BitVec.ofNat 64 st) (BitVec.ofNat 64 id) 0 t :=
  congrArg _ (runItem_done hgo (mkrQueryBody_done hctx hstate hwrite))

/-! ### The evaluation (R118, R119) -/

section
variable {r : ReadyReq}

theorem evaluateOne_admits (hlocked : s.fld GLB_TIME_STATUS_LOCKED ≠ 0) (hlinks : linksOk s r.src.ctx = true)
    (hshort : shortScopes s (setFor s r.src.ctx) ((keptOf s).map (·.2)) (chargeAll s (chargeOrder s r.src.ctx) []) = [])
    (hlate : lateOnes s (setFor s r.src.ctx) = []) :
    evaluateOne s r = readyDone (installSets s (setFor s r.src.ctx)) r.src 0 := by
  simp [evaluateOne, hlocked, hlinks, hshort, hlate]

theorem evaluateOne_badLinks (hlocked : s.fld GLB_TIME_STATUS_LOCKED ≠ 0) (hlinks : linksOk s r.src.ctx = false) :
    evaluateOne s r = readyDone s r.src 0x3006 := by
  simp [evaluateOne, hlocked, hlinks]

theorem endEvaluation_mkr (heval : s.mkr.evaluating = some r) (hdue : s.mkr.due = false) (hout : evaluateOne s r = t)
    (hempty : t.mkr.waiting = []) : (endEvaluation s).mkr = { t.mkr with evaluating := none } := by
  have hend : endEvaluation s = startNext t := by simp [endEvaluation, heval, hdue, hout]
  rw [hend, startNext_mkr_of_empty hempty]

variable (heval : s.mkr.evaluating = some r) (hempty : s.mkr.waiting = []) (hdue : s.mkr.due = false)
  (hlocked : s.fld GLB_TIME_STATUS_LOCKED ≠ 0)
include heval hempty hdue hlocked

theorem makeReadyEvaluation_admits (hlinks : linksOk s r.src.ctx = true)
    (hshort : shortScopes s (setFor s r.src.ctx) ((keptOf s).map (·.2)) (chargeAll s (chargeOrder s r.src.ctx) []) = [])
    (hlate : lateOnes s (setFor s r.src.ctx) = []) :
    Ends .makeReadyEvaluation s fun t => t.mkr.admitted = setFor s r.src.ctx ∧ t.mkr.evaluating = none := by
  have hmkr := endEvaluation_mkr heval hdue (evaluateOne_admits hlocked hlinks hshort hlate) (by simpa using hempty)
  exact ends_of_eq (u := endEvaluation s) rfl rfl (by simp [hmkr])

theorem makeReadyEvaluation_badLinks (hlinks : linksOk s r.src.ctx = false) :
    Ends .makeReadyEvaluation s fun t =>
      t.mkr.admitted = s.mkr.admitted ∧ t.mkr.pending = s.mkr.pending ∧ t.mkr.evaluating = none := by
  have hmkr := endEvaluation_mkr heval hdue (evaluateOne_badLinks hlocked hlinks) (by simpa using hempty)
  exact ends_of_eq (u := endEvaluation s) rfl rfl (by simp [hmkr])

end

theorem makeReadyEvaluation_idle (hidle : s.mkr.evaluating = none) : exec .makeReadyEvaluation s = .next s :=
  exec_unchanged (u := endEvaluation s) rfl (by rw [endEvaluation, hidle])

/-! ### The re-evaluation (R143) -/

theorem capacityReevaluation_notDue (hdue : s.mkr.due = false) : exec .capacityReevaluation s = .next s :=
  exec_unchanged rfl (if_neg (by simp [hdue]))

theorem capacityReevaluation_sheds (hdue : s.mkr.due = true) :
    Ends .capacityReevaluation s fun t => t.mkr.due = false ∧ AdmittedWithin s t :=
  ends_of_eq rfl (if_pos hdue) ⟨reevaluate_due s, reevaluate_admittedWithin s⟩

/-! ### The statement -/

/-- Settles O41: each instruction by its own rule, the evaluation by its outcome, and the re-evaluation by induction on the
rounds of shedding. -/
theorem makeReadySetsAreDefinedAndEvaluated : Obligations.MakeReadySetsAreDefinedAndEvaluated := by
  unfold Obligations.MakeReadySetsAreDefinedAndEvaluated
  refine ⟨fun s src hgo => ⟨fun a bs => mkrDefine_completes hgo, fun id => mkrDrop_completes hgo,
      fun id => mkrDrop_refused hgo, mkrReady_starts hgo, fun a r => mkrReady_waits hgo a, mkrReady_unlocked hgo,
      mkrWithdraw_completes hgo, fun id a st c t hctx hstate hwrite => ⟨mkrQuery_completes hgo hctx hstate hwrite,
        fun hc => ⟨queryImage_length s id st hc, queryImage_take s id st hc⟩⟩⟩,
    fun s r heval hempty hdue _ hlocked => ⟨makeReadyEvaluation_admits heval hempty hdue hlocked,
      makeReadyEvaluation_badLinks heval hempty hdue hlocked⟩,
    fun s => ⟨makeReadyEvaluation_idle, capacityReevaluation_notDue, capacityReevaluation_sheds⟩⟩

end Sys2Proof.Machine
end

section
/-! Cell items as later proofs run them: how an item that executes ends (R198, R232), and what writes of scalar registers leave
(R238). -/

namespace Sys2Proof.Machine

/-! ### How an item that executes ends -/

section
variable {s : State} {x : CellItem} {ext : Nat} {body : State → Cell → CellOut}

theorem cellItem_of_go (hgo : CellGo s x ext) :
    cellItem x ext body s = .next (finishCell x.cell (s.cell x.cell).pc ext (body s (s.cell x.cell))) := by
  obtain ⟨hcell, hrun, hwait, hfetch⟩ := hgo
  have hexists : ¬ cellCount ≤ x.cell := Nat.not_le.2 hcell
  unfold cellItem
  dsimp only
  rw [if_neg hexists, if_neg (by simp [hrun, hwait]), if_pos hfetch]

theorem cellNext_of_ok {i : Instr} {c : Cell} (hgo : CellGo s x ext) (hexec : exec i s = cellItem x ext body s)
    (hbody : body s (s.cell x.cell) = .ok s c) : CellNext i s x ext c := by
  rw [CellNext, hexec, cellItem_of_go hgo, hbody]
  rfl

end

/-! ### Scalar registers (R238) -/

section
variable (c : Cell)

@[simp] theorem sreg_zero : sreg c 0 = 0 := rfl

theorem sreg_setS_same {n : Nat} (hn : n ≠ 0) (w : Word) : sreg (setS c n w) n = w := by
  simp [sreg, setS, hn]

theorem sreg_setS_other {m n : Nat} (h : m ≠ n) (w : Word) : sreg (setS c n w) m = sreg c m := by
  unfold setS
  split
  · rfl
  · simp [sreg, mget_mset_other _ h]

theorem setS_upd (n : Nat) (w : Word) : ∃ m, setS c n w = { c with s := m } := by
  unfold setS
  split <;> exact ⟨_, rfl⟩

end

/-! ### Words put into consecutive registers (R244) -/

/-- Puts a word, numbered by its place in a list, into the register of that place from `d` on. -/
def putWord (d : Nat) (c : Cell) (w : Word × Nat) : Cell := setS c (d + w.2) w.1

theorem putWords_upd (d : Nat) : ∀ (ws : List (Word × Nat)) (c : Cell), ∃ m, ws.foldl (putWord d) c = { c with s := m }
  | [], c => ⟨c.s, rfl⟩
  | w :: ws, c => by
    obtain ⟨m, hm⟩ := setS_upd c (d + w.2) w.1
    obtain ⟨m', hm'⟩ := putWords_upd d ws (putWord d c w)
    refine ⟨m', hm'.trans ?_⟩
    rw [putWord, hm]

theorem sreg_putWords_outside {d r : Nat} : ∀ (ws : List Word) (k : Nat) (c : Cell), r < d + k ∨ d + k + ws.length ≤ r →
    sreg ((ws.zipIdx k).foldl (putWord d) c) r = sreg c r
  | [], _, _, _ => rfl
  | w :: ws, k, c, h => by
    rw [List.length_cons] at h
    rw [List.zipIdx_cons, List.foldl_cons, sreg_putWords_outside ws (k + 1) _ (by omega)]
    exact sreg_setS_other c (by dsimp only; omega) w

theorem sreg_putWords {d : Nat} (hd : d ≠ 0) : ∀ (ws : List Word) (k : Nat) (c : Cell) (j : Nat), j < ws.length →
    sreg ((ws.zipIdx k).foldl (putWord d) c) (d + k + j) = ws.getD j 0
  | w :: ws, k, c, 0, _ => by
    rw [List.zipIdx_cons, List.foldl_cons, sreg_putWords_outside ws (k + 1) _ (by omega)]
    exact sreg_setS_same c (by omega) w
  | w :: ws, k, c, j + 1, h => by
    rw [List.zipIdx_cons, List.foldl_cons, List.getD_cons_succ, ← sreg_putWords hd ws (k + 1) (putWord d c (w, k)) j
      (Nat.lt_of_succ_lt_succ h)]
    congr 1
    omega

end Sys2Proof.Machine
end

section
/-! gal.rec, step.done and dft.write (R173, R244, R245). -/

namespace Sys2Proof.Machine

variable {s : State} {x : CellItem} {c : Cell} {g : Galley}

/-! ### gal.rec (R244) -/

/-- A cell after gal.rec found record `i`: its index in sD and its words in the registers that follow. -/
def recCell (c : Cell) (d i : Nat) (ws : List Word) : Cell :=
  ws.zipIdx.foldl (putWord (d + 1)) (setS c d (BitVec.ofNat 64 i))

section
variable (c : Cell) (d i : Nat) (ws : List Word)

theorem recCell_index : sreg (recCell c d i ws) d = if d = 0 then 0 else BitVec.ofNat 64 i := by
  rw [recCell, sreg_putWords_outside ws 0 _ (by omega)]
  split
  · next hd => rw [hd, sreg_zero]
  · next hd => exact sreg_setS_same c hd _

theorem recCell_words {k : Nat} (hk : k < ws.length) : sreg (recCell c d i ws) (d + 1 + k) = ws.getD k 0 :=
  sreg_putWords (Nat.succ_ne_zero d) ws 0 _ k hk

theorem recCell_other {r : Nat} (hr : r < d ∨ d + 1 + ws.length ≤ r) : sreg (recCell c d i ws) r = sreg c r := by
  rw [recCell, sreg_putWords_outside ws 0 _ (by omega), sreg_setS_other c (by omega)]

theorem recCell_upd : ∃ m, recCell c d i ws = { c with s := m } := by
  obtain ⟨m, hm⟩ := setS_upd c d (BitVec.ofNat 64 i)
  obtain ⟨m', hm'⟩ := putWords_upd (d + 1) ws.zipIdx (setS c d (BitVec.ofNat 64 i))
  refine ⟨m', hm'.trans ?_⟩
  rw [hm]

end

theorem cellGalley_of_running (hk : c.slice < 4) (hrun : (s.slice (4 * c.part + c.slice)).running = some g) :
    cellGalley s c = some g := by
  simp [cellGalley, hk, hrun]

theorem galRecBody_none (hd : x.d ≤ 27) (hg : cellGalley s c = some g) (hfetch : fetchRec g (sreg c x.a).toNat = none) :
    galRecBody x s c = .ok s (setS c x.d (BitVec.ofNat 64 (galCount g))) := by
  simp [galRecBody, Nat.not_lt.2 hd, hg, hfetch]

theorem galRecBody_some {i : Nat} {ws : List Word} (hd : x.d ≤ 27) (hg : cellGalley s c = some g)
    (hfetch : fetchRec g (sreg c x.a).toNat = some (i, ws)) : galRecBody x s c = .ok s (recCell c x.d i ws) := by
  unfold galRecBody
  rw [if_neg (Nat.not_lt.2 hd), hg]
  dsimp only
  rw [hfetch]
  rfl

/-! ### step.done (R245) -/

theorem markDone_of_running {n p k : Nat} (hk : k < 4) (hrun : (s.slice (4 * p + k)).running = some g) :
    markDone s n p k =
      s.setSlice (4 * p + k) { s.slice (4 * p + k) with running := some { g with done := g.done ++ [n] } } := by
  rw [markDone, if_pos hk, hrun]

/-- The state in which a cell has executed step.done, before its galley records it. -/
def cellIdle (s : State) (n : Nat) : State := s.setCell n { s.cell n with run := .idle, pc := ((s.cell n).pc + 1) % 4096 }

theorem stepDoneItem_of_go (hgo : CellGo s x 0) :
    stepDoneItem x s =
      .next (markDone (cellIdle s x.cell) x.cell (s.cell x.cell).part (s.cell x.cell).slice) := by
  have hitem : cellItem x 0 (fun s c => .ok s { c with run := .idle }) s = .next (cellIdle s x.cell) := cellItem_of_go hgo
  obtain ⟨-, hrun, hwait, hfetch⟩ := hgo
  unfold stepDoneItem
  rw [hitem]
  simp [cellIdle, hrun, hwait, hfetch]

theorem stepDone_ends (hgo : CellGo s x 0) (hk : (s.cell x.cell).slice < 4)
    (hrun : (s.slice (4 * (s.cell x.cell).part + (s.cell x.cell).slice)).running = some g) :
    Ends (.stepDone x) s fun t => (t.cell x.cell).run = .idle ∧
      (t.slice (4 * (s.cell x.cell).part + (s.cell x.cell).slice)).running = some { g with done := g.done ++ [x.cell] } ∧
      t.regs = s.regs ∧ t.ses = s.ses := by
  have hmark := markDone_of_running (s := cellIdle s x.cell) (n := x.cell) hk hrun
  refine ⟨_, (stepDoneItem_of_go hgo).trans (congrArg _ hmark), ?_, ?_, rfl, rfl⟩
  · simp [cellIdle]
  · rw [setSlice_same]

/-! ### dft.write (R173) -/

section
variable {h : Word} {e : Session} {base count a : Nat} (hdev : bits h.toNat 48 16 = s.devAddr)
  (hses : s.ses? (bits h.toNat 24 24) = some e) (hinstar : e.instar = bits h.toNat 0 24)
include hdev hses hinstar

theorem cellDraft_noSlot (hseq : e.seqValid = false) : cellDraft s c h base count a = (0x2004, 0, s) := by
  simp [cellDraft, hdev, hses, hinstar, hseq]

theorem cellDraft_writes {y z : Slot} (hseq : e.seqValid = true) (hslot : mget s.gal.slots e.seqSlot = some y)
    (hlo : 1 ≤ count) (hhi : count ≤ 16) (hmem : a + 4 * count ≤ 0x3C0000)
    (hdraft : draftWrite y e.tokens base (wordsOf (rdBytes c.mem a (4 * count))) = some z) :
    cellDraft s c h base count a = (0, z.draftReady, s.setSlot e.seqSlot z) := by
  have hrange : ¬ (count = 0 ∨ 16 < count ∨ cellLimit < a + 4 * count) := by
    simp only [cellLimit]
    omega
  simp [cellDraft, hdev, hses, hinstar, hseq, hslot, hrange, hdraft]

end

theorem dftBody_of_draft {st ready : Nat} {t : State}
    (hdraft : cellDraft s c (sreg c x.a) ((sreg c x.b).toNat % 2 ^ 32) (sreg c x.c).toNat (bits x.w1.toNat 0 22) = (st, ready, t)) :
    dftBody x s c = .ok t (setS c x.d (BitVec.ofNat 64 (st + ready * 2 ^ 16))) := by
  rw [dftBody, hdraft]

/-! ### The statement -/

/-- Settles O12: gal.rec by the record found, step.done by the mark in its galley, and dft.write by what `cellDraft` answers. -/
theorem stepProgramItemsReadTheGalley : Obligations.StepProgramItemsReadTheGalley := by
  unfold Obligations.StepProgramItemsReadTheGalley
  intro s x c sl
  refine ⟨fun g hgo hk hrun => ?_, fun e y z hgo hdev hses hinstar => ⟨fun hseq => ?_,
    fun hseq hslot hlo hhi hmem hdraft => ?_⟩⟩
  · have hg : cellGalley s c = some g := cellGalley_of_running hk hrun
    refine ⟨fun hd hfetch => cellNext_of_ok hgo rfl (galRecBody_none hd hg hfetch),
      fun i ws hd hfetch _ => ⟨recCell c x.d i ws, cellNext_of_ok hgo rfl (galRecBody_some hd hg hfetch),
        recCell_index .., fun k => recCell_words c x.d i ws, fun r => recCell_other c x.d i ws, ?_⟩,
      stepDone_ends hgo hk hrun⟩
    obtain ⟨m, hm⟩ := recCell_upd c x.d i ws
    rw [hm]
    exact ⟨rfl, rfl⟩
  · have hbody := dftBody_of_draft (cellDraft_noSlot (c := c) hdev hses hinstar hseq)
    rw [Nat.zero_mul, Nat.add_zero] at hbody
    exact cellNext_of_ok hgo rfl hbody
  · have hbody := dftBody_of_draft (cellDraft_writes hdev hses hinstar hseq hslot hlo hhi hmem hdraft)
    rw [Nat.zero_add] at hbody
    exact (cellItem_of_go hgo).trans (by rw [hbody]; rfl)

end Sys2Proof.Machine
end

section
/-! Model images and draft writes (R158, R173, R187, R558). -/

namespace Sys2Proof.Machine

variable {s t : State} {src : Src}

/-! ### gal.load and gal.unload (R158, R187, R558) -/

/-- The state in which the model slots hold `models`, slot `slot` of them `m`, and the registers show it. -/
def withModels (s : State) (models : Map Model) (slot : Nat) (m : Option Model) : State :=
  refreshErr (showLayout { s with gal := { s.gal with models } } slot m)

section
variable (s : State) (models : Map Model) (slot : Nat) (m : Option Model)

@[simp] theorem withModels_models : (withModels s models slot m).gal.models = models := by
  simp only [withModels, refreshErr, showLayout, setFld_gal]

@[simp] theorem withModels_ses : (withModels s models slot m).ses = s.ses := by
  simp only [withModels, refreshErr, showLayout, setFld_ses]

@[simp] theorem withModels_hbm : (withModels s models slot m).hbm = s.hbm := by
  simp only [withModels, refreshErr, showLayout, setFld_hbm]

end

section
variable {slot source : Nat} {a : Word} {bs : List Byte} {m : Model}

theorem loadBody_done (hctx : src.ctx = 0) (hsource : source = 1 ∨ source = 2) (hfree : mget s.gal.models slot = none)
    (hread : readImage s src source a = .ok bs) (hhead : headerOk bs = true) (hlayout : layoutOk bs = true) :
    loadBody src slot source a s =
      (withModels s (mset s.gal.models slot (modelOf bs source a)) slot (some (modelOf bs source a)),
        .done 0 (BitVec.ofNat 64 (modelOf bs source a).params) 0 0) := by
  have hkind : ¬ (source ≠ 1 ∧ source ≠ 2) := by omega
  unfold loadBody
  rw [if_neg (by simp [hctx]), if_neg hkind, if_neg (by simp [hfree]), hread]
  dsimp only
  rw [hhead, hlayout]
  rfl

theorem galLoad_completes (hgo : ItemGo s src) (hctx : src.ctx = 0) (hsource : source = 1 ∨ source = 2)
    (hfree : mget s.gal.models slot = none) (hread : readImage s src source a = .ok bs) (hhead : headerOk bs = true)
    (hlayout : layoutOk bs = true) :
    ∃ (t : State) (m : Model), Completes (.galLoad src slot source a) s src 0xD8 0 (BitVec.ofNat 64 (leNat ((bs.drop 8).take 8))) 0 0 t ∧
      mget t.gal.models slot = some m ∧ m.params = leNat ((bs.drop 8).take 8) ∧ m.bindings = 0 ∧ m.source = source ∧ m.addr = a ∧
      m.digest = (bs.drop 208).take 48 ∧ t.ses = s.ses ∧ t.hbm = s.hbm :=
  ⟨_, modelOf bs source a, congrArg _ (runItem_done hgo (loadBody_done hctx hsource hfree hread hhead hlayout)),
    by rw [withModels_models, mget_mset_same], rfl, rfl, rfl, rfl, rfl, withModels_ses .., withModels_hbm ..⟩

theorem unloadBody_done (hctx : src.ctx = 0) (hm : mget s.gal.models slot = some m) (hbind : m.bindings = 0)
    (hname : sliceNames s slot = false) :
    unloadBody src slot s = (withModels s (mdel s.gal.models slot) slot none, .ok) := by
  unfold unloadBody
  rw [if_neg (by simp [hctx]), hm]
  dsimp only
  rw [if_neg (by simp [hbind, hname])]
  rfl

theorem galUnload_completes (hgo : ItemGo s src) (hctx : src.ctx = 0) (hm : mget s.gal.models slot = some m)
    (hwf : mwf s.gal.models = true) (hbind : m.bindings = 0) (hname : sliceNames s slot = false) :
    ∃ t : State, Completes (.galUnload src slot) s src 0xD9 0 0 0 0 t ∧ mget t.gal.models slot = none ∧
      ∀ k, k ≠ slot → mget t.gal.models k = mget s.gal.models k :=
  ⟨_, congrArg _ (runItem_done hgo (unloadBody_done hctx hm hbind hname)), by rw [withModels_models, mget_mdel_same slot hwf],
    fun _ hk => by rw [withModels_models, mget_mdel_other hk]⟩

theorem galUnload_bound (hgo : ItemGo s src) (hctx : src.ctx = 0) (hm : mget s.gal.models slot = some m) (hbind : 0 < m.bindings) :
    exec (.galUnload src slot) s = .next (completeFail s src 0xD9 0x4005 0 0) := by
  refine congrArg _ (runItem_fail hgo ?_)
  unfold unloadBody
  rw [if_neg (by simp [hctx]), hm]
  exact if_pos (.inl hbind)

theorem galLoad_refused (hgo : ItemGo s src) (hctx : src.ctx ≠ 0) (slot source : Nat) (a : Word) :
    exec (.galLoad src slot source a) s = .next (completeFail s src 0xD8 0x400B 0 0) :=
  congrArg _ (runItem_fail hgo (if_pos hctx))

theorem galUnload_refused (hgo : ItemGo s src) (hctx : src.ctx ≠ 0) (slot : Nat) :
    exec (.galUnload src slot) s = .next (completeFail s src 0xD9 0x400B 0 0) :=
  congrArg _ (runItem_fail hgo (if_pos hctx))

end

/-! ### gal.draft (R173) -/

section
variable {x y : Slot} {pos base : Nat} {ts : List Nat}

/-- A draft write that a slot accepts begins a draft at the session's position, or goes on with the one it holds. -/
theorem draftWrite_cases (h : draftWrite x pos base ts = some y) :
    (base = pos ∧ x.draftReady = 0 ∧
      y = { x with draftBase := base, draft := ts.take 16, draftReady := (ts.take 16).length }) ∨
    (¬ (base = pos ∧ x.draftReady = 0) ∧
      y = { x with draft := (x.draft ++ ts).take 16, draftReady := ((x.draft ++ ts).take 16).length }) := by
  unfold draftWrite at h
  split at h
  · next hfirst => exact .inl ⟨hfirst.1, hfirst.2, (Option.some.inj h).symm⟩
  · next hlater =>
    split at h
    · exact .inr ⟨hlater, (Option.some.inj h).symm⟩
    · cases h

theorem draftWrite_index (h : draftWrite x pos base ts = some y) : y.index = x.index := by
  obtain ⟨-, -, rfl⟩ | ⟨-, rfl⟩ := draftWrite_cases h <;> rfl

theorem draftWrite_ready (h : draftWrite x pos base ts = some y) : y.draftReady = y.draft.length := by
  obtain ⟨-, -, rfl⟩ | ⟨-, rfl⟩ := draftWrite_cases h <;> rfl

theorem draftWrite_length_le (h : draftWrite x pos base ts = some y) : y.draft.length ≤ 16 := by
  obtain ⟨-, -, rfl⟩ | ⟨-, rfl⟩ := draftWrite_cases h <;> exact List.length_take_le ..

theorem draftWrite_first (h : draftWrite x pos base ts = some y) (hbase : base = pos) (hempty : x.draftReady = 0) :
    y.draft = ts.take 16 ∧ y.draftBase = base := by
  obtain ⟨-, -, rfl⟩ | ⟨hnot, -⟩ := draftWrite_cases h
  · exact ⟨rfl, rfl⟩
  · exact absurd ⟨hbase, hempty⟩ hnot

variable {count i : Nat} {a h : Word} {e : Session} {bs : List Byte}

theorem draftBody_done (hlo : 1 ≤ count) (hhi : count ≤ 16) (hseq : e.seqValid = true) (hread : itemRead s src 3 a (4 * count) = .ok bs)
    (hslot : mget s.gal.slots e.seqSlot = some x) (hindex : x.index = i) (hdraft : draftWrite x e.tokens base (wordsOf bs) = some y) :
    draftBody src base count a i e s = (s.setSlot e.seqSlot y, .done 0 (BitVec.ofNat 64 y.draftReady) 0 0) := by
  unfold draftBody
  rw [if_neg (by omega), if_neg (by simp [hseq]), hread]
  dsimp only
  rw [hslot]
  dsimp only
  rw [hdraft]
  exact if_pos ((draftWrite_index hdraft).trans hindex)

theorem galDraft_completes (hgo : ItemGo s src) (hh : Handle s src h i e) (hend : e.state ≠ .ended) (hflt : e.state ≠ .faulted)
    (hlo : 1 ≤ count) (hhi : count ≤ 16) (hseq : e.seqValid = true) (hread : itemRead s src 3 a (4 * count) = .ok bs)
    (hslot : mget s.gal.slots e.seqSlot = some x) (hindex : x.index = i) (hdraft : draftWrite x e.tokens base (wordsOf bs) = some y) :
    ∃ t : State, Completes (.galDraft src h base count a) s src 0xDA 0 (BitVec.ofNat 64 y.draftReady) h e.tag t ∧
      mget t.gal.slots e.seqSlot = some y ∧ y.draftReady = y.draft.length ∧ y.draft.length ≤ 16 ∧
      (base = e.tokens → x.draftReady = 0 → y.draft = (wordsOf bs).take 16 ∧ y.draftBase = base) := by
  refine ⟨_, completes_of_done hgo hh hend hflt rfl (draftBody_done hlo hhi hseq hread hslot hindex hdraft), ?_,
    draftWrite_ready hdraft, draftWrite_length_le hdraft, draftWrite_first hdraft⟩
  rw [stampStatus_gal, setSlot_same]

end

end Sys2Proof.Machine
end

section
/-! Full switches (R178 to R181): what gal.preempt and gal.resume leave of the cells and of the stopped partitions. -/

namespace Sys2Proof.Machine

variable {s : State} {src : Src} {p : Nat}

/-! ### Bits -/

theorem bitOf_or_two_pow_other (v : Nat) {i j : Nat} (h : j ≠ i) : bitOf (v ||| 2 ^ i) j = bitOf v j := by
  simp [bitOf_eq_testBit, Nat.testBit_two_pow_of_ne h.symm]

theorem bitOf_add_two_pow_other {v i j : Nat} (hclear : bitOf v i = false) (h : j ≠ i) : bitOf (v + 2 ^ i) j = bitOf v j := by
  rw [bitOf_eq_testBit, bitOf_eq_testBit]
  rcases Nat.lt_or_gt_of_ne h with hlt | hgt
  · rw [Nat.add_comm, Nat.testBit_two_pow_add_gt hlt]
  · have heven : v / 2 ^ i % 2 ≠ 1 := by simpa [bitOf] using hclear
    have hnext : (v + 2 ^ i) / 2 ^ (i + 1) = v / 2 ^ (i + 1) := by
      rw [pow_succ, ← Nat.div_div_eq_div_mul, ← Nat.div_div_eq_div_mul, Nat.add_div_right _ (Nat.two_pow_pos i)]
      omega
    rw [← Nat.sub_add_cancel (show i + 1 ≤ j from hgt), Nat.testBit_add, Nat.testBit_add, hnext]

theorem bitOf_sub_two_pow_other {v i j : Nat} (hset : bitOf v i = true) (h : j ≠ i) : bitOf (v - 2 ^ i) j = bitOf v j := by
  have hle : 2 ^ i ≤ v := Nat.ge_two_pow_of_testBit (bitOf_eq_testBit v i ▸ hset)
  rw [← bitOf_add_two_pow_other (bitOf_sub_two_pow hset) h, Nat.sub_add_cancel hle]

/-! ### What the movement of cells leaves of the registers -/

theorem reg_decFld_other (s : State) {f : Field} (n : Nat) {o : Nat} (h : o ≠ f.off) : (s.decFld f n).reg o = s.reg o :=
  reg_setReg_other s _ h

theorem reg_ite {c : Prop} [Decidable c] {t u : State} {o : Nat} (ht : t.reg o = s.reg o) (hu : u.reg o = s.reg o) :
    (if c then t else u).reg o = s.reg o := by
  split
  · exact ht
  · exact hu

section
variable {o : Nat} (hwait : o ≠ SYN_STATUS_WAITERS.off)
include hwait

theorem withdrawWait_reg (s : State) (n : Nat) : (withdrawWait s n).reg o = s.reg o := by
  unfold withdrawWait
  dsimp only
  split
  · rfl
  · rw [setCell_at_reg, reg_decFld_other _ _ hwait]
    rfl

theorem fullSave_reg (base : Nat) (s : State) (x : Nat × Nat) : (fullSave base s x).reg o = s.reg o :=
  withdrawWait_reg hwait s x.1

theorem lightSave_reg (a : Nat) (s : State) (n : Nat) : (lightSave a s n).reg o = s.reg o := withdrawWait_reg hwait s n

variable (hcount : o ≠ GAL_SWITCHES_COUNT.off)

include hcount in
theorem suspend_reg (s : State) (p k : Nat) : (suspend s p k).reg o = s.reg o := by
  unfold suspend
  dsimp only
  rw [setPart_at_reg, reg_incSat_other _ _ hcount, foldl_frame (State.reg · o) (lightSave_reg hwait _)]

end

theorem fullLoad_reg (p base o : Nat) (s : State) (x : Nat × Nat) : (fullLoad p base s x).reg o = s.reg o := rfl

theorem startGalley_reg (s : State) (p k o : Nat) : (startGalley s p k).reg o = s.reg o := by
  have hcells (c b : Nat) (code : List Word) (n : Nat) (l : List (Nat × Nat)) :
      (l.foldl (startCell p k c b code n) s).reg o = s.reg o :=
    foldl_frame (f := startCell p k c b code n) (State.reg · o) (fun _ _ => rfl) l s
  unfold startGalley
  exact reg_ite ((foldl_frame (State.reg · o) (fun _ _ => by rfl) _ _).trans (hcells ..)) (hcells ..)

/-- A dispatch writes no register but those that count the light switches and the waiters withdrawn. -/
theorem dispatch_reg {o : Nat} (hwait : o ≠ SYN_STATUS_WAITERS.off) (hcount : o ≠ GAL_SWITCHES_COUNT.off) (s : State) (p : Nat) :
    (dispatch s p).reg o = s.reg o := by
  have hload (k a : Nat) (u : State) : ((partCells u p).foldl (lightLoad p k a) u).reg o = u.reg o :=
    foldl_frame (f := lightLoad p k a) (State.reg · o) (fun _ _ => rfl) _ u
  unfold dispatch
  split
  · rfl
  · split
    · rfl
    · refine reg_ite rfl ?_
      cases (s.part p).running with
      | none =>
        dsimp only
        split <;> simp only [setPart_at_reg, hload, startGalley_reg]
      | some j =>
        dsimp only
        split <;> simp only [setPart_at_reg, hload, startGalley_reg, suspend_reg hwait hcount]

/-! ### The stopped partitions (R181) -/

theorem stopped_of_reg {t : State} (h : t.reg GAL_STATUS_STOPPED.off = s.reg GAL_STATUS_STOPPED.off) (q : Nat) :
    stopped t q = stopped s q := by
  unfold stopped
  rw [fld_of_reg h]

theorem stopped_setFld (hs : Canonical s) (v : Nat) {q : Nat} (hq : q < 16) :
    stopped (s.setFld GAL_STATUS_STOPPED v) q = bitOf v q := by
  unfold stopped
  rw [fld_setFld_same _ _ (by decide) hs.regs]
  exact bitOf_mod_two_pow v hq

theorem dispatch_stopped (s : State) (p q : Nat) : stopped (dispatch s p) q = stopped s q :=
  stopped_of_reg (dispatch_reg (by decide) (by decide) s p) q

theorem fullSaves_stopped (base : Nat) (l : List (Nat × Nat)) (s : State) (q : Nat) :
    stopped (l.foldl (fullSave base) s) q = stopped s q :=
  foldl_frame (stopped · q) (fun u x => stopped_of_reg (fullSave_reg (by decide) base u x) q) l s

theorem fullLoads_stopped (base : Nat) (l : List (Nat × Nat)) (s : State) (q : Nat) :
    stopped (l.foldl (fullLoad p base) s) q = stopped s q :=
  foldl_frame (f := fullLoad p base) (stopped · q) (fun u x => stopped_of_reg (fullLoad_reg p base _ u x) q) l s

theorem fullSaves_canonical (base : Nat) (l : List (Nat × Nat)) (hs : Canonical s) : Canonical (l.foldl (fullSave base) s) :=
  hs.of_kept (kept_foldl (fullSave_kept base) l)

theorem fullLoads_canonical (base : Nat) (l : List (Nat × Nat)) (hs : Canonical s) : Canonical (l.foldl (fullLoad p base) s) :=
  hs.of_kept (kept_foldl (fullLoad_kept p base) l)

/-! ### The cells of a full save (R179) -/

theorem cell_of_cells {t : State} (h : t.cells = s.cells) (n : Nat) : t.cell n = s.cell n := by
  unfold State.cell
  rw [h]

theorem withdrawWait_cell_same (s : State) (n : Nat) : (withdrawWait s n).cell n = { s.cell n with wait := none } := by
  unfold withdrawWait
  dsimp only
  split
  · next h => rw [← h]
  · rw [setCell_same]

theorem withdrawWait_cell_other (s : State) {n m : Nat} (h : m ≠ n) : (withdrawWait s n).cell m = s.cell m := by
  unfold withdrawWait
  dsimp only
  split
  · rfl
  · rw [setCell_other _ _ _ h]
    rfl

/-- A cell as its full save leaves it. -/
def Cell.saved (c : Cell) : Cell := { c with wait := none, run := if c.run = CellRun.fenced then .fenced else .stopped }

theorem Cell.saved_run (c : Cell) : c.saved.run ≠ .running := by
  unfold Cell.saved
  dsimp only
  split <;> decide

theorem fullSave_cells (base : Nat) (s : State) (x : Nat × Nat) :
    (fullSave base s x).cells = ((withdrawWait s x.1).setCell x.1 (s.cell x.1).saved).cells := by
  simp only [fullSave, State.setCell, withdrawWait_cell_same]
  rfl

theorem fullSave_cell_same (base : Nat) (s : State) (x : Nat × Nat) : (fullSave base s x).cell x.1 = (s.cell x.1).saved :=
  (cell_of_cells (fullSave_cells base s x) x.1).trans (setCell_same ..)

theorem fullSave_cell_other (base : Nat) (s : State) (x : Nat × Nat) {n : Nat} (h : n ≠ x.1) :
    (fullSave base s x).cell n = s.cell n :=
  (cell_of_cells (fullSave_cells base s x) n).trans ((setCell_other _ _ _ h).trans (withdrawWait_cell_other s h))

theorem fullSave_mem (base n : Nat) (s : State) (x : Nat × Nat) : ((fullSave base s x).cell n).mem = (s.cell n).mem := by
  by_cases h : n = x.1
  · subst h
    rw [fullSave_cell_same]
    rfl
  · rw [fullSave_cell_other base s x h]

theorem fullSaves_run (base n : Nat) : ∀ (l : List (Nat × Nat)) (s : State),
    (s.cell n).run ≠ .running ∨ n ∈ l.map (·.1) → ((l.foldl (fullSave base) s).cell n).run ≠ .running
  | [], s, h => h.resolve_right (by simp)
  | x :: l, s, h => by
    refine fullSaves_run base n l (fullSave base s x) ?_
    by_cases hx : n = x.1
    · subst hx
      rw [fullSave_cell_same]
      exact .inl (Cell.saved_run _)
    · rw [fullSave_cell_other base s x hx]
      simpa [hx] using h

theorem fullSaves_cells (base : Nat) (ns : List Nat) (s : State) {n : Nat} (hn : n ∈ ns) :
    ((ns.zipIdx.foldl (fullSave base) s).cell n).run ≠ .running ∧
    ((ns.zipIdx.foldl (fullSave base) s).cell n).mem = (s.cell n).mem :=
  ⟨fullSaves_run base n _ s (.inr (by rwa [List.zipIdx_map_fst])),
    foldl_frame (fun u => (u.cell n).mem) (fullSave_mem base n) _ s⟩

/-! ### gal.preempt and gal.resume (R181) -/

/-- The state in which the cells of a partition have been saved from an address on. -/
def savedCells (s : State) (p : Nat) (a : Word) : State := (partCells s p).zipIdx.foldl (fullSave (bits a.toNat 0 39)) s.draw.2

/-- The state in which the cells of a partition have been loaded from an address on. -/
def loadedCells (s : State) (p : Nat) (a : Word) : State := (partCells s p).zipIdx.foldl (fullLoad p (bits a.toNat 0 39)) s

/-- A partition shown stopped. -/
def showStopped (s : State) (p : Nat) : State := s.setFld GAL_STATUS_STOPPED (s.fld GAL_STATUS_STOPPED ||| 2 ^ p)

/-- A stopped partition shown running. -/
def showRunning (s : State) (p : Nat) : State := s.setFld GAL_STATUS_STOPPED (s.fld GAL_STATUS_STOPPED - 2 ^ p)

theorem showStopped_same (hs : Canonical s) (hp : p < 16) : stopped (showStopped s p) p = true := by
  rw [showStopped, stopped_setFld hs _ hp, bitOf_or_two_pow]

theorem showStopped_other (hs : Canonical s) {q : Nat} (hq : q < 16) (h : q ≠ p) : stopped (showStopped s p) q = stopped s q := by
  rw [showStopped, stopped_setFld hs _ hq, bitOf_or_two_pow_other _ h, stopped]

theorem showRunning_same (hs : Canonical s) (hp : p < 16) (hstop : stopped s p = true) : stopped (showRunning s p) p = false := by
  rw [showRunning, stopped_setFld hs _ hp, bitOf_sub_two_pow hstop]

theorem showRunning_other (hs : Canonical s) {q : Nat} (hstop : stopped s p = true) (hq : q < 16) (h : q ≠ p) :
    stopped (showRunning s p) q = stopped s q := by
  rw [showRunning, stopped_setFld hs _ hq, bitOf_sub_two_pow_other hstop h, stopped]

variable {a : Word}

/-- Only a stopped partition is resumed. -/
theorem stopped_of_resume (h : switchRefusal s src.ctx p a false = 0) : stopped s p = true := by
  by_contra hrun
  have hrun' : stopped s p = false := by simpa using hrun
  unfold switchRefusal at h
  simp only [hrun', Bool.false_and, Bool.false_eq_true, if_false, if_true] at h
  split_ifs at h

theorem preemptBody_done (h : switchRefusal s src.ctx p a true = 0) : preemptBody src p a s =
    (showStopped (savedCells s p a) p, .done 0 (BitVec.ofNat 64 (s.draw.1.toNat % (saveBound s p + 1))) 0 0) :=
  if_neg (not_not.2 h)

theorem resumeBody_done (h : switchRefusal s src.ctx p a false = 0) :
    resumeBody src p a s = (dispatch (showRunning (loadedCells s p a) p) p, .ok) :=
  if_neg (not_not.2 h)

theorem galPreempt_completes (hgo : ItemGo s src) (hs : Canonical s) (hp : p < 16) (h : switchRefusal s src.ctx p a true = 0) :
    ∃ (t : State) (d : Nat), d ≤ saveBound s p ∧ Completes (.galPreempt src p a) s src 0xDB 0 (BitVec.ofNat 64 d) 0 0 t ∧
      stopped t p = true ∧ (∀ q, q < 16 → q ≠ p → stopped t q = stopped s q) ∧
      ∀ n ∈ partCells s p, (t.cell n).run ≠ .running ∧ (t.cell n).mem = (s.cell n).mem := by
  have hdraw : Canonical s.draw.2 := hs.of_kept (draw_kept s)
  have hsaved : Canonical (savedCells s p a) := fullSaves_canonical _ _ hdraw
  refine ⟨showStopped (savedCells s p a) p, _, Nat.lt_succ_iff.1 (Nat.mod_lt _ (Nat.succ_pos _)),
    congrArg _ (runItem_done hgo (preemptBody_done h)), showStopped_same hsaved hp, fun q hq hqp => ?_,
    fun n hn => fullSaves_cells _ _ s.draw.2 hn⟩
  rw [showStopped_other hsaved hq hqp, savedCells, fullSaves_stopped]
  rfl

theorem galResume_completes (hgo : ItemGo s src) (hs : Canonical s) (hp : p < 16) (h : switchRefusal s src.ctx p a false = 0) :
    ∃ t : State, Completes (.galResume src p a) s src 0xDC 0 0 0 0 t ∧ stopped t p = false ∧
      ∀ q, q < 16 → q ≠ p → stopped t q = stopped s q := by
  have hloaded : Canonical (loadedCells s p a) := fullLoads_canonical _ _ hs
  have hstopped (q : Nat) : stopped (loadedCells s p a) q = stopped s q := fullLoads_stopped _ _ s q
  have hstop : stopped (loadedCells s p a) p = true := (hstopped p).trans (stopped_of_resume h)
  refine ⟨_, congrArg _ (runItem_done hgo (resumeBody_done h)), ?_, fun q hq hqp => ?_⟩
  · rw [dispatch_stopped, showRunning_same hloaded hp hstop]
  · rw [dispatch_stopped, showRunning_other hloaded hstop hq hqp, hstopped]

theorem galPreempt_refused (hgo : ItemGo s src) (p : Nat) (a : Word) (h : switchRefusal s src.ctx p a true ≠ 0) :
    exec (.galPreempt src p a) s = .next (completeFail s src 0xDB (switchRefusal s src.ctx p a true) 0 0) :=
  congrArg _ (runItem_fail hgo (if_pos h))

theorem galResume_refused (hgo : ItemGo s src) (p : Nat) (a : Word) (h : switchRefusal s src.ctx p a false ≠ 0) :
    exec (.galResume src p a) s = .next (completeFail s src 0xDC (switchRefusal s src.ctx p a false) 0 0) :=
  congrArg _ (runItem_fail hgo (if_pos h))

/-! ### The statement -/

/-- Settles O42: each instruction by what its body answers, and a full switch by what its saves, its loads and the dispatch leave. -/
theorem modelsAndDraftsAreLoaded : Obligations.ModelsAndDraftsAreLoaded := by
  unfold Obligations.ModelsAndDraftsAreLoaded
  intro s src hgo hs
  exact ⟨fun slot source a bs hctx _ => galLoad_completes hgo hctx, fun slot m hctx => galUnload_completes hgo hctx,
    fun slot m hctx => galUnload_bound hgo hctx, fun hctx => ⟨galLoad_refused hgo hctx, galUnload_refused hgo hctx⟩,
    fun h a base count i e bs x y hh hend hflt hlo hhi hseq hread hslot hindex =>
      galDraft_completes hgo hh hend hflt hlo hhi hseq hread hslot hindex,
    fun p a hp => galPreempt_completes hgo hs hp, fun p a hp => galResume_completes hgo hs hp,
    galPreempt_refused hgo, galResume_refused hgo⟩

end Sys2Proof.Machine
end

section
/-! Vector items as later proofs run them: how an item ends (R232, R270), the lanes that a governing predicate selects (R234), and the
flags that the lanes raise (R208, R211). -/

namespace Sys2Proof.Machine

/-! ### How an item that executes ends -/

section
variable {s : State} {x : CellItem} {ext : Nat} {i : Instr} (hgo : CellGo s x ext)
include hgo

theorem cellDraws_of_ok {body : State → Cell → CellOut} {c : Cell} {n : Nat} (hexec : exec i s = cellItem x ext body s)
    (hbody : body s (s.cell x.cell) = .ok { s with freeCtr := s.freeCtr + n } c) : CellDraws i s x ext n c := by
  rw [CellDraws, hexec, cellItem_of_go hgo, hbody]
  rfl

theorem cellTraps_of_exc {body : State → Cell → CellOut} {code : Nat} (hexec : exec i s = cellItem x ext body s)
    (hhandled : handled (s.cell x.cell) code = true) (hbody : body s (s.cell x.cell) = .exc s (s.cell x.cell) code) :
    CellTraps i s x code := by
  rw [CellTraps, hexec, cellItem_of_go hgo, hbody]
  simp only [finishCell, takeException, hhandled, if_true]

theorem cellNext_of_reg {f : Cell → Cell} (hexec : exec i s = regItem x ext f s) : CellNext i s x ext (f (s.cell x.cell)) :=
  cellNext_of_ok hgo hexec rfl

theorem cellNext_of_checked {f : Cell → Option Cell} {c : Cell} (hexec : exec i s = checkedItem x ext f s)
    (hf : f (s.cell x.cell) = some c) : CellNext i s x ext c :=
  cellNext_of_ok hgo hexec (by rw [hf])

theorem cellTraps_of_checked {f : Cell → Option Cell} (hexec : exec i s = checkedItem x ext f s)
    (hhandled : handled (s.cell x.cell) 2 = true) (hf : f (s.cell x.cell) = none) : CellTraps i s x 2 :=
  cellTraps_of_exc hgo hexec hhandled (by rw [hf])

end

/-! ### Lists indexed by lane -/

theorem getD_map_range {α : Type} (f : Nat → α) {n k : Nat} (h : k < n) (d : α) : ((List.range n).map f).getD k d = f k := by
  simp [List.getD_eq_getElem?_getD, h]

/-- A fold that ORs masks has the bits of its masks. -/
theorem testBit_foldl_lor {α : Type} (g : α → Nat) (j : Nat) : ∀ (l : List α) (a : Nat),
    (l.foldl (fun a y => a ||| g y) a).testBit j = true ↔ a.testBit j = true ∨ ∃ y ∈ l, (g y).testBit j = true
  | [], a => by simp
  | y :: l, a => by
    rw [List.foldl_cons, testBit_foldl_lor g j l, Nat.testBit_or, Bool.or_eq_true, or_assoc, List.exists_mem_cons_iff]

/-! ### Lanes under a governing predicate (R234) -/

section
variable (p : Word) (pz : Bool) (old new : List (BitVec 32))

theorem mergeLanes_length : (mergeLanes p pz old new).length = 64 := by
  rw [mergeLanes, List.length_map, List.length_range]

theorem mergeLanes_getD {k : Nat} (hk : k < 64) :
    (mergeLanes p pz old new).getD k 0 = if p.getLsbD k then new.getD k 0 else if pz then 0 else old.getD k 0 := by
  rw [mergeLanes, getD_map_range _ hk, getLsbD_eq_bitOf]

end

/-- The flags of lane results are those of the lanes whose predicate bit is 1. -/
theorem laneFlags_testBit (p : Word) (rs : List FRes) (j : Nat) :
    (laneFlags p rs).testBit j = true ↔
      ∃ k, k < rs.length ∧ p.getLsbD k = true ∧ (rs.getD k (0, 0)).2.testBit j = true := by
  have hmask : laneFlags p rs = rs.zipIdx.foldl (fun a r => a ||| if bitOf p.toNat r.2 then r.1.2 else 0) 0 := by
    unfold laneFlags
    congr 1
    funext a r
    split <;> simp
  rw [hmask, testBit_foldl_lor]
  simp only [Nat.zero_testBit, Bool.false_eq_true, false_or, ← getLsbD_eq_bitOf]
  constructor
  · rintro ⟨⟨r, k⟩, hmem, hbit⟩
    obtain ⟨hk, hr⟩ := List.mem_zipIdx' hmem
    dsimp only at hk hr hbit
    rw [hr] at hbit
    refine ⟨k, hk, ?_⟩
    rw [List.getD_eq_getElem _ _ hk]
    split at hbit
    · next hon => exact ⟨hon, hbit⟩
    · simp at hbit
  · rintro ⟨k, hk, hon, hbit⟩
    rw [List.getD_eq_getElem _ _ hk] at hbit
    exact ⟨(rs[k], k), List.mk_mem_zipIdx_iff_getElem?.2 (List.getElem?_eq_getElem hk), by rwa [if_pos hon]⟩

/-! ### Floating-point lanes -/

section
variable {s : State} {x : CellItem} {i : Instr}

/-- An item that writes lane results with their flags, each lane by `r`. -/
theorem flaggedLanesNext_of_writeF {r : Nat → FRes}
    (h : CellNext i s x 0 (writeF (s.cell x.cell) x ((List.range 64).map r))) : FlaggedLanesNext i s x r := by
  refine ⟨_, _, mergeLanes_length .., h, fun k hk => ?_, fun j => ?_⟩
  · rw [mergeLanes_getD _ _ _ _ hk, List.map_map, getD_map_range _ hk]
    rfl
  · rw [laneFlags_testBit, List.length_map, List.length_range]
    refine exists_congr fun k => and_congr_right fun hk => ?_
    rw [getD_map_range _ hk]

end

end Sys2Proof.Machine
end

section
/-! Floating-point vector items (R217, R219, R601): each writes its lanes under its predicate and raises their flags. -/

namespace Sys2Proof.Machine

section
variable {s : State} {x : CellItem} {f : Fmt} {i : Instr}

theorem floatType_of_mem (h : (x.t, f) ∈ [(0, fmt32), (1, fmt16), (2, fmtBf)]) : floatType x.t = some f := by
  simp only [List.mem_cons, Prod.mk.injEq, List.not_mem_nil, or_false] at h
  rcases h with ⟨ht, rfl⟩ | ⟨ht, rfl⟩ | ⟨ht, rfl⟩ <;> simp [floatType, ht]

variable (hgo : CellGo s x 0) (hf : floatType x.t = some f)
include hgo hf

theorem arithItem_flaggedLanes {fop : Fmt → RMode → Nat → Nat → FRes} {iop : Int → Int → Int}
    (hexec : exec i s = arithItem x fop iop s) :
    FlaggedLanesNext i s x fun k => packLane f (fun a b _ => fop f (modeOf (s.cell x.cell).status) a b)
      (lane (s.cell x.cell) x.a k) (lane (s.cell x.cell) x.b k) (lane (s.cell x.cell) x.c k) :=
  flaggedLanesNext_of_writeF (cellNext_of_checked hgo hexec (by rw [hf]; rfl))

theorem vfma_flaggedLanes :
    FlaggedLanesNext (.vfma x) s x fun k => packLane f (fFma f (modeOf (s.cell x.cell).status))
      (lane (s.cell x.cell) x.a k) (lane (s.cell x.cell) x.b k) (lane (s.cell x.cell) x.c k) :=
  flaggedLanesNext_of_writeF (cellNext_of_checked hgo rfl (by rw [vfmaBody, hf]; rfl))

theorem defItem_flaggedLanes {op : Fmt → RMode → Nat → FRes} (hexec : exec i s = defItem x op s) :
    FlaggedLanesNext i s x fun k => packLane f (fun a _ _ => op f (rneOf (s.cell x.cell).status) a)
      (lane (s.cell x.cell) x.a k) (lane (s.cell x.cell) x.b k) (lane (s.cell x.cell) x.c k) :=
  flaggedLanesNext_of_writeF (cellNext_of_checked hgo hexec (by rw [hf]; rfl))

end

/-- Settles O14: an arithmetic item, vfma or a defined function writes its lanes by the operation on the item's format. -/
theorem vectorFloatItemsRoundOnce : Obligations.VectorFloatItemsRoundOnce := by
  unfold Obligations.VectorFloatItemsRoundOnce
  intro s x f hgo hmem c md md0 each
  have hf : floatType x.t = some f := floatType_of_mem hmem
  exact ⟨arithItem_flaggedLanes hgo hf rfl, arithItem_flaggedLanes hgo hf rfl, arithItem_flaggedLanes hgo hf rfl,
    vfma_flaggedLanes hgo hf, arithItem_flaggedLanes (fop := fun f _ => fMinMax f false) hgo hf rfl,
    arithItem_flaggedLanes (fop := fun f _ => fMinMax f true) hgo hf rfl,
    defItem_flaggedLanes hgo hf rfl, defItem_flaggedLanes hgo hf rfl, defItem_flaggedLanes hgo hf rfl⟩

end Sys2Proof.Machine
end

section
/-! vred.add is the tree of R218. -/

namespace Sys2Proof.Machine

section
variable (md : RMode)

/-- The sum of a pair of neighbours. -/
def pairSum (g : Nat → Nat) (k : Nat) : FRes := fAdd fmt32 md (g (2 * k)) (g (2 * k + 1))

theorem map_range_pairs {α : Type} (g : Nat → α) (n : Nat) :
    (List.range (2 * (n + 1))).map g = g 0 :: g 1 :: (List.range (2 * n)).map fun k => g (k + 2) := by
  rw [Nat.mul_succ, List.range_succ_eq_map, List.range_succ_eq_map]
  simp

/-- One level adds each pair of neighbours. -/
theorem sumLevel_values : ∀ (n : Nat) (g : Nat → Nat),
    (sumLevel md ((List.range (2 * n)).map g)).1 = (List.range n).map fun k => (pairSum md g k).1
  | 0, _ => rfl
  | n + 1, g => by
    rw [map_range_pairs, sumLevel, sumLevel_values n, List.range_succ_eq_map, List.map_cons, List.map_map]
    rfl

theorem sumLevel_flags (j : Nat) : ∀ (n : Nat) (g : Nat → Nat),
    (sumLevel md ((List.range (2 * n)).map g)).2.testBit j = true ↔ ∃ k, k < n ∧ (pairSum md g k).2.testBit j = true
  | 0, _ => by simp [sumLevel]
  | n + 1, g => by
    rw [map_range_pairs, sumLevel, Nat.testBit_or, Bool.or_eq_true, sumLevel_flags j n, Nat.exists_lt_succ_left]
    rfl

theorem treeSum_value (g : Nat → Nat) (L i : Nat) :
    (treeSum md g (L + 1) i).1 = (fAdd fmt32 md (treeSum md g L (2 * i)).1 (treeSum md g L (2 * i + 1)).1).1 := rfl

theorem treeSum_flags (g : Nat → Nat) (L i j : Nat) :
    (treeSum md g (L + 1) i).2.testBit j = true ↔
      (fAdd fmt32 md (treeSum md g L (2 * i)).1 (treeSum md g L (2 * i + 1)).1).2.testBit j = true ∨
      (treeSum md g L (2 * i)).2.testBit j = true ∨ (treeSum md g L (2 * i + 1)).2.testBit j = true := by
  rw [treeSum, Nat.testBit_or, Nat.testBit_or, Bool.or_eq_true, Bool.or_eq_true, or_assoc]

/-- A tree over the lanes is a tree, one level lower, over the sums of pairs. -/
theorem treeSum_succ_value (g : Nat → Nat) : ∀ L i,
    (treeSum md g (L + 1) i).1 = (treeSum md (fun k => (pairSum md g k).1) L i).1
  | 0, _ => rfl
  | L + 1, i => by
    rw [treeSum_value md g (L + 1), treeSum_succ_value g L, treeSum_succ_value g L, treeSum_value]

theorem treeSum_succ_flags (g : Nat → Nat) (j : Nat) : ∀ L i,
    (treeSum md g (L + 1) i).2.testBit j = true ↔ (treeSum md (fun k => (pairSum md g k).1) L i).2.testBit j = true ∨
      ∃ k, i * 2 ^ L ≤ k ∧ k < (i + 1) * 2 ^ L ∧ (pairSum md g k).2.testBit j = true
  | 0, i => by
    have hleaf : ∀ k, (i * 2 ^ 0 ≤ k ∧ k < (i + 1) * 2 ^ 0 ∧ (pairSum md g k).2.testBit j = true) ↔
        k = i ∧ (pairSum md g k).2.testBit j = true := fun k => by
      rw [← and_assoc]
      exact and_congr_left fun _ => by omega
    simp only [hleaf, exists_eq_left]
    simp [treeSum, pairSum]
  | L + 1, i => by
    have hhalves : (∃ k, i * 2 ^ (L + 1) ≤ k ∧ k < (i + 1) * 2 ^ (L + 1) ∧ (pairSum md g k).2.testBit j = true) ↔
        (∃ k, 2 * i * 2 ^ L ≤ k ∧ k < (2 * i + 1) * 2 ^ L ∧ (pairSum md g k).2.testBit j = true) ∨
        ∃ k, (2 * i + 1) * 2 ^ L ≤ k ∧ k < (2 * i + 1 + 1) * 2 ^ L ∧ (pairSum md g k).2.testBit j = true := by
      rw [← exists_or]
      refine exists_congr fun k => ?_
      rw [← and_assoc, ← and_assoc, ← and_assoc, ← or_and_right]
      refine and_congr_left fun _ => ?_
      have hmul : i * 2 ^ (L + 1) = 2 * i * 2 ^ L := by ring
      have hmul' : (i + 1) * 2 ^ (L + 1) = (2 * i + 1 + 1) * 2 ^ L := by ring
      have hstep : (2 * i + 1) * 2 ^ L = 2 * i * 2 ^ L + 2 ^ L := by ring
      have hstep' : (2 * i + 1 + 1) * 2 ^ L = 2 * i * 2 ^ L + 2 ^ L + 2 ^ L := by ring
      omega
    rw [treeSum_flags md g (L + 1), treeSum_succ_flags g j L, treeSum_succ_flags g j L, treeSum_succ_value, treeSum_succ_value,
      treeSum_flags md _ L, hhalves]
    exact (or_congr_right or_or_or_comm).trans or_assoc.symm

/-- `n` levels over 2^n lanes leave the tree's sum, with the flags of all its additions. -/
theorem sumTree_eq_treeSum : ∀ (n : Nat) (g : Nat → Nat),
    sumTree md n ((List.range (2 ^ n)).map g) = ([(treeSum md g n 0).1], (treeSum md g n 0).2)
  | 0, _ => rfl
  | n + 1, g => by
    rw [Nat.pow_succ', sumTree, sumLevel_values, sumTree_eq_treeSum n, treeSum_succ_value, Prod.mk.injEq]
    refine ⟨rfl, Nat.eq_of_testBit_eq fun j => Bool.eq_iff_iff.2 ?_⟩
    rw [Nat.testBit_or, Bool.or_eq_true, sumLevel_flags, treeSum_succ_flags, or_comm]
    simp

end

theorem redLanes_eq (c : Cell) (x : CellItem) (off : Nat) :
    redLanes c x off = (List.range 64).map fun k => if (preg c x.p).getLsbD k then (lane c x.a k).toNat else off := by
  simp only [redLanes, ← getLsbD_eq_bitOf, lane]

/-- vred.add (R218): predicated-off lanes are −0. -/
theorem vredAddCell_eq (x : CellItem) (c : Cell) :
    let r := treeSum (modeOf c.status) (fun k => if (preg c x.p).getLsbD k then (lane c x.a k).toNat else 0x80000000) 6 0
    vredAddCell x c = raise (setS c x.d (BitVec.ofNat 64 r.1)) r.2 := by
  have htree := fun g => sumTree_eq_treeSum (modeOf c.status) 6 g
  rw [show 2 ^ 6 = 64 from rfl] at htree
  rw [vredAddCell, redLanes_eq, htree]
  rfl

end Sys2Proof.Machine
end

section
/-! The order of values (R601) and vred.max (R218). -/

namespace Sys2Proof.Machine

/-! ### The order of values that are no NaN -/

/-- The rational value of a finite number. -/
def finVal (neg : Bool) (m : Nat) (e : Int) : ℚ := smant neg m * 2 ^ e

/-- A mantissa brought to a lower exponent stands for the same value. -/
theorem aligned_val (neg : Bool) (m : Nat) {e b : Int} (h : b ≤ e) :
    ((smant neg (m * 2 ^ (e - b).toNat) : Int) : ℚ) * 2 ^ b = finVal neg m e := by
  have hexp : (2 : ℚ) ^ e = 2 ^ (e - b).toNat * 2 ^ b := by
    rw [← zpow_natCast, Int.toNat_of_nonneg (by omega), ← zpow_add₀ two_ne_zero, Int.sub_add_cancel]
  rw [finVal, hexp]
  cases neg <;> simp [smant, mul_assoc]

theorem leNum_fin (na nb : Bool) (ma mb : Nat) (ea eb : Int) :
    leNum (.fin na ma ea) (.fin nb mb eb) = true ↔
      (finVal na ma ea = 0 ∧ finVal nb mb eb = 0 → na = true ∨ nb = false) ∧ finVal na ma ea ≤ finVal nb mb eb := by
  have hpos : (0 : ℚ) < 2 ^ min ea eb := zpow_pos two_pos _
  rw [← aligned_val na ma (min_le_left ea eb), ← aligned_val nb mb (min_le_right ea eb), mul_le_mul_iff_of_pos_right hpos,
    mul_eq_zero_iff_right hpos.ne', mul_eq_zero_iff_right hpos.ne', Int.cast_eq_zero, Int.cast_eq_zero, Int.cast_le, leNum]
  split
  · next hzero => simp [hzero.1, hzero.2]
  · next hzero => simp [hzero]

theorem leNum_refl {a : Num} (ha : a ≠ .nan) : leNum a a = true := by
  cases a with
  | nan => exact absurd rfl ha
  | inf n => cases n <;> rfl
  | fin n m e => rw [leNum_fin]; cases n <;> simp

theorem leNum_trans {a b c : Num} (hab : leNum a b = true) (hbc : leNum b c = true) : leNum a c = true := by
  cases a with
  | nan => simp [leNum] at hab
  | inf x =>
    cases b with
    | nan => simp [leNum] at hab
    | inf y => cases x <;> cases c <;> simp_all [leNum]
    | fin nb mb eb => cases c <;> simp_all [leNum]
  | fin na ma ea =>
    cases b with
    | nan => simp [leNum] at hab
    | inf y => cases c <;> simp_all [leNum]
    | fin nb mb eb =>
      cases c with
      | nan => simp [leNum] at hbc
      | inf z => simpa [leNum] using hbc
      | fin nc mc ec =>
        rw [leNum_fin] at hab hbc ⊢
        obtain ⟨hab0, hab⟩ := hab
        obtain ⟨hbc0, hbc⟩ := hbc
        refine ⟨fun ⟨ha, hc⟩ => ?_, hab.trans hbc⟩
        have hb : finVal nb mb eb = 0 := le_antisymm (hc ▸ hbc) (ha ▸ hab)
        rcases hab0 ⟨ha, hb⟩ with h | h
        · exact .inl h
        · rcases hbc0 ⟨hb, hc⟩ with h' | h'
          · rw [h] at h'; cases h'
          · exact .inr h'

theorem leNum_total {a b : Num} (ha : a ≠ .nan) (hb : b ≠ .nan) (h : ¬ leNum a b = true) : leNum b a = true := by
  cases a with
  | nan => exact absurd rfl ha
  | inf x => cases b <;> simp_all [leNum]
  | fin na ma ea =>
    cases b with
    | nan => exact absurd rfl hb
    | inf y => simp_all [leNum]
    | fin nb mb eb =>
      rw [leNum_fin] at h ⊢
      by_cases hle : finVal na ma ea ≤ finVal nb mb eb
      · have hzero : ¬ (finVal na ma ea = 0 ∧ finVal nb mb eb = 0 → na = true ∨ nb = false) := fun h0 => h ⟨h0, hle⟩
        push Not at hzero
        obtain ⟨⟨h1, h2⟩, hna, hnb⟩ := hzero
        exact ⟨fun _ => .inl (by simpa using hnb), by rw [h1, h2]⟩
      · have hlt := not_le.1 hle
        exact ⟨fun ⟨h1, h2⟩ => absurd (h1.trans h2.symm) hlt.ne, hlt.le⟩

/-- Only −∞ is at or below −∞. -/
theorem eq_negInf_of_leNum {a : Num} (h : leNum a (.inf true) = true) : a = .inf true := by
  cases a <;> simp_all [leNum]

/-! ### Encodings of binary32 -/

theorem decodeF_negInf : decodeF fmt32 0xFF800000 = .inf true := by decide

theorem decodeF_nanBits : decodeF fmt32 (nanBits fmt32) = .nan := by decide

theorem decodeF_eq_inf {f : Fmt} {n : Nat} {neg : Bool} (h : decodeF f n = .inf neg) :
    bitOf n (f.bits - 1) = neg ∧ bits n f.mbits f.ebits = 2 ^ f.ebits - 1 ∧ bits n 0 f.mbits = 0 := by
  unfold decodeF at h
  dsimp only at h
  split at h
  · next hexp =>
    split at h
    · next hman => exact ⟨Num.inf.inj h, hexp, hman⟩
    · cases h
  · split at h <;> cases h

/-- −∞ has one encoding. -/
theorem eq_of_decodeF_negInf {v : BitVec 32} (h : decodeF fmt32 v.toNat = .inf true) : v.toNat = 0xFF800000 := by
  obtain ⟨hsign, hexp, hman⟩ := decodeF_eq_inf h
  have hlt := v.isLt
  have htop : v.toNat / 2 ^ 31 % 2 = 1 := of_decide_eq_true hsign
  simp only [bits, fmt32] at hexp hman
  omega

theorem sigFlag_of_ne_nan {f : Fmt} {a : Nat} (h : decodeF f a ≠ .nan) : sigFlag f a = 0 := if_neg fun hn => h hn.1

/-! ### vred.max -/

/-- One lane of vred.max. -/
def maxStep (a : FRes) (l : Nat) : FRes := withFlags (fMinMax fmt32 true a.1 l) (a.2 ||| sigFlag fmt32 l)

theorem maxStep_nan {a : FRes} {l : Nat} (h : decodeF fmt32 a.1 = .nan ∨ decodeF fmt32 l = .nan) :
    (maxStep a l).1 = nanBits fmt32 := by
  rw [maxStep, withFlags, fMinMax, if_pos h]

theorem maxStep_of_ne_nan {a : FRes} {l : Nat} (ha : decodeF fmt32 a.1 ≠ .nan) (hl : decodeF fmt32 l ≠ .nan) :
    maxStep a l = (if leNum (decodeF fmt32 a.1) (decodeF fmt32 l) then l else a.1, a.2) := by
  rw [maxStep, withFlags, fMinMax, if_neg (by simp [ha, hl]), sigFlag_of_ne_nan hl]
  split <;> simp

/-- Where a NaN stands among the lanes, the maximum is the canonical NaN. -/
theorem foldl_maxStep_nan : ∀ (l : List Nat) (a : FRes), a.1 = nanBits fmt32 ∨ (∃ y ∈ l, decodeF fmt32 y = .nan) →
    (l.foldl maxStep a).1 = nanBits fmt32
  | [], _, h => h.elim id fun ⟨_, hy, _⟩ => absurd hy List.not_mem_nil
  | y :: l, a, h => by
    refine foldl_maxStep_nan l _ ?_
    rcases h with h | ⟨z, hz, hnan⟩
    · exact .inl (maxStep_nan (.inl (h ▸ decodeF_nanBits)))
    · rcases List.mem_cons.1 hz with rfl | hz
      · exact .inl (maxStep_nan (.inr hnan))
      · exact .inr ⟨z, hz, hnan⟩

/-- Without a NaN the maximum is the start or a lane, at or above all of them, and raises nothing. -/
theorem foldl_maxStep_max : ∀ (l : List Nat) (a : FRes), decodeF fmt32 a.1 ≠ .nan → (∀ y ∈ l, decodeF fmt32 y ≠ .nan) →
    let r := l.foldl maxStep a
    r.2 = a.2 ∧ (r.1 = a.1 ∨ r.1 ∈ l) ∧ leNum (decodeF fmt32 a.1) (decodeF fmt32 r.1) = true ∧
      ∀ y ∈ l, leNum (decodeF fmt32 y) (decodeF fmt32 r.1) = true
  | [], _, ha, _ => ⟨rfl, .inl rfl, leNum_refl ha, fun _ hy => absurd hy List.not_mem_nil⟩
  | y :: l, a, ha, hl => by
    have hy : decodeF fmt32 y ≠ .nan := hl y List.mem_cons_self
    have hstep := maxStep_of_ne_nan ha hy
    have hrest := fun z hz => hl z (List.mem_cons_of_mem y hz)
    rw [List.foldl_cons, hstep]
    by_cases hle : leNum (decodeF fmt32 a.1) (decodeF fmt32 y) = true
    · rw [if_pos hle]
      obtain ⟨hflag, hmem, htop, hall⟩ := foldl_maxStep_max l (y, a.2) hy hrest
      exact ⟨hflag, .inr (List.mem_cons.2 hmem), leNum_trans hle htop, List.forall_mem_cons.2 ⟨htop, hall⟩⟩
    · rw [if_neg hle]
      obtain ⟨hflag, hmem, htop, hall⟩ := foldl_maxStep_max l (a.1, a.2) ha hrest
      exact ⟨hflag, hmem.imp_right (List.mem_cons_of_mem y), htop,
        List.forall_mem_cons.2 ⟨leNum_trans (leNum_total ha hy hle) htop, hall⟩⟩

/-- What vred.max folds, for lanes of encodings `v` of which `on` act. -/
def maxLanes (on : Nat → Bool) (v : Nat → BitVec 32) : FRes :=
  ((List.range 64).map fun k => if on k then (v k).toNat else 0xFF800000).foldl maxStep (0xFF800000, 0)

theorem vredMaxCell_eq (x : CellItem) (c : Cell) :
    vredMaxCell x c =
      let r := maxLanes (preg c x.p).getLsbD (lane c x.a)
      raise (setS c x.d (BitVec.ofNat 64 r.1)) r.2 := by
  rw [vredMaxCell, redLanes_eq]
  rfl

section
variable {on : Nat → Bool} {v : Nat → BitVec 32}

theorem maxLanes_nan {k : Nat} (hk : k < 64) (hon : on k = true) (hnan : decodeF fmt32 (v k).toNat = .nan) :
    (maxLanes on v).1 = nanBits fmt32 :=
  foldl_maxStep_nan _ _ (.inr ⟨_, List.mem_map.2 ⟨k, List.mem_range.2 hk, if_pos hon⟩, hnan⟩)

/-- Lanes of which none that acts is a NaN: the maximum is −∞ or an active lane, and no active lane exceeds it. -/
theorem maxLanes_max (hnan : ∀ k, k < 64 → on k = true → decodeF fmt32 (v k).toNat ≠ .nan) :
    (maxLanes on v).2 = 0 ∧ ((maxLanes on v).1 = 0xFF800000 ∨ ∃ k, k < 64 ∧ on k = true ∧ (maxLanes on v).1 = (v k).toNat) ∧
      ∀ k, k < 64 → on k = true → leNum (decodeF fmt32 (v k).toNat) (decodeF fmt32 (maxLanes on v).1) = true := by
  have hlanes : ∀ y ∈ (List.range 64).map fun k => if on k then (v k).toNat else 0xFF800000, decodeF fmt32 y ≠ .nan := by
    intro y hy
    obtain ⟨k, hk, rfl⟩ := List.mem_map.1 hy
    split
    · next hon => exact hnan k (List.mem_range.1 hk) hon
    · rw [decodeF_negInf]; exact Num.noConfusion
  obtain ⟨hflag, hmem, -, hall⟩ := foldl_maxStep_max _ (0xFF800000, 0) (by rw [decodeF_negInf]; exact Num.noConfusion) hlanes
  refine ⟨hflag, ?_, fun k hk hon => hall _ (List.mem_map.2 ⟨k, List.mem_range.2 hk, if_pos hon⟩)⟩
  rcases hmem with hstart | hmem
  · exact .inl hstart
  · obtain ⟨k, hk, heq⟩ := List.mem_map.1 hmem
    by_cases hon : on k = true
    · exact .inr ⟨k, List.mem_range.1 hk, hon, heq.symm.trans (if_pos hon)⟩
    · exact .inl (heq.symm.trans (if_neg hon))

theorem maxLanes_none (h : ∀ k, ¬ (k < 64 ∧ on k = true)) : maxLanes on v = (0xFF800000, 0) := by
  obtain ⟨hflag, hmem, -⟩ := maxLanes_max (v := v) fun k hk hon => absurd ⟨hk, hon⟩ (h k)
  refine Prod.ext (hmem.resolve_right ?_) hflag
  rintro ⟨k, hk, hon, -⟩
  exact h k ⟨hk, hon⟩

/-- Where a lane acts the maximum is an active lane: a maximum of −∞ is at or above it, and −∞ has one encoding. -/
theorem maxLanes_mem (hnan : ∀ k, k < 64 → on k = true → decodeF fmt32 (v k).toNat ≠ .nan) {k : Nat} (hk : k < 64)
    (hon : on k = true) : ∃ k, k < 64 ∧ on k = true ∧ (maxLanes on v).1 = (v k).toNat := by
  obtain ⟨-, hmem, hall⟩ := maxLanes_max hnan
  rcases hmem with hinf | hmem
  · have hle := hall k hk hon
    rw [hinf, decodeF_negInf] at hle
    exact ⟨k, hk, hon, hinf.trans (eq_of_decodeF_negInf (eq_negInf_of_leNum hle)).symm⟩
  · exact hmem

end

end Sys2Proof.Machine
end

section
/-! The defined functions at their special inputs and worked values (R219); then the statement on reductions and defined functions. -/

namespace Sys2Proof.Machine

/-! ### Special inputs -/

section
variable {f : Fmt} (md : RMode) {a : Nat}

theorem defined_of_nan (h : decodeF f a = .nan) :
    (fExp2 f md a).1 = nanBits f ∧ (fRcp f md a).1 = nanBits f ∧ (fRsqrt f md a).1 = nanBits f := by
  simp [fExp2, fRcp, fRsqrt, h]

theorem defined_of_negInf (h : decodeF f a = .inf true) :
    fExp2 f md a = (0, 0) ∧ fRcp f md a = (signBit f true, 0) ∧ fRsqrt f md a = (nanBits f, fINVALID) := by
  simp [fExp2, fRcp, fRsqrt, h, invalid]

theorem defined_of_posInf (h : decodeF f a = .inf false) :
    fExp2 f md a = (infBits f false, 0) ∧ fRcp f md a = (0, 0) ∧ fRsqrt f md a = (0, 0) := by
  simp [fExp2, fRcp, fRsqrt, h, signBit, b2n]

theorem fRsqrt_of_neg {m : Nat} {e : Int} (hm : m ≠ 0) (h : decodeF f a = .fin true m e) :
    fRsqrt f md a = (nanBits f, fINVALID) := by
  simp [fRsqrt, h, hm, invalid]

theorem smant_zero (neg : Bool) : smant neg 0 = 0 := by cases neg <;> rfl

/-- 2 to the power 0, whatever the exponent that zero is written with. -/
theorem exp2Fin_zero (neg : Bool) (e : Int) : exp2Fin f md neg 0 e = roundTo f md false 1 0 := by
  unfold exp2Fin
  rw [Nat.zero_mul, smant_zero]
  split
  · rfl
  · simp

theorem roundTo_one (hf : f ∈ [fmt32, fmt16, fmtBf]) (sat : Bool) :
    roundTo f ⟨0, sat⟩ false 1 0 = (f.bias * 2 ^ f.mbits, 0) := by
  simp only [List.mem_cons, List.not_mem_nil, or_false] at hf
  rcases hf with rfl | rfl | rfl <;> cases sat <;> decide +kernel

theorem defined_of_zero (hf : f ∈ [fmt32, fmt16, fmtBf]) (sat : Bool) {neg : Bool} {e : Int} (h : decodeF f a = .fin neg 0 e) :
    fExp2 f ⟨0, sat⟩ a = (f.bias * 2 ^ f.mbits, 0) ∧ fRcp f ⟨0, sat⟩ a = (infBits f neg, fDIVZERO) ∧
      fRsqrt f ⟨0, sat⟩ a = (infBits f neg, fDIVZERO) := by
  refine ⟨?_, by simp [fRcp, h], by simp [fRsqrt, h]⟩
  rw [fExp2, h]
  dsimp only
  rw [exp2Fin_zero, roundTo_one hf]

end

/-! ### Worked values -/

-- The root of each fraction bit is found bit by bit, which is deeper than the default limit.
set_option maxRecDepth 100000 in
theorem fExp2_half : (fExp2 fmt32 rne 0x3F000000).1 = 0x3FB504F3 := by decide +kernel

theorem fRcp_three : (fRcp fmt32 rne 0x40400000).1 = 0x3EAAAAAB := by decide +kernel

theorem fRsqrt_two : (fRsqrt fmt32 rne 0x40000000).1 = 0x3F3504F3 := by decide +kernel

/-- At the ends of the range: the least subnormal, underflow to zero, and overflow without and with SAT. -/
theorem fExp2_ends : (fExp2 fmt32 rne 0xC3150000).1 = 1 ∧ fExp2 fmt32 rne 0xC3160000 = (0, fUNDERFLOW ||| fINEXACT) ∧
    (fExp2 fmt32 rne 0x43000000).1 = 0x7F800000 ∧ (fExp2 fmt32 ⟨0, true⟩ 0x43000000).1 = 0x7F7FFFFF := by decide +kernel

/-! ### The statement -/

/-- Settles O16: vred.add by `sumTree_eq_treeSum`, vred.max by the order of values, the defined functions by what an input decodes to. -/
theorem reductionsAndDefinedFunctions : Obligations.ReductionsAndDefinedFunctions := by
  unfold Obligations.ReductionsAndDefinedFunctions
  refine ⟨fun s x hgo => ?_, fun f sat a hf => ?_, fExp2_half, fRcp_three, fRsqrt_two, fExp2_ends⟩
  · intro c on bitsOf
    refine ⟨?_, (maxLanes (preg c x.p).getLsbD (lane c x.a)).1, (maxLanes (preg c x.p).getLsbD (lane c x.a)).2, ?_, ?_, ?_, ?_⟩
    · have hadd : CellNext (.vredAdd x) s x 0 (vredAddCell x c) := cellNext_of_reg hgo rfl
      rwa [vredAddCell_eq] at hadd
    · have hmax : CellNext (.vredMax x) s x 0 (vredMaxCell x c) := cellNext_of_reg hgo rfl
      rwa [vredMaxCell_eq] at hmax
    · rintro ⟨k, ⟨hk, hon⟩, hnan⟩
      exact maxLanes_nan hk hon hnan
    · intro hnone
      rw [maxLanes_none hnone]
      exact ⟨rfl, rfl⟩
    · rintro ⟨k, hk, hon⟩ hnan
      have hnan' := fun k hk hon => hnan k ⟨hk, hon⟩
      obtain ⟨hflag, -, hall⟩ := maxLanes_max hnan'
      obtain ⟨j, hj, hjon, heq⟩ := maxLanes_mem hnan' hk hon
      exact ⟨hflag, ⟨j, ⟨hj, hjon⟩, heq⟩, fun k hk => hall k hk.1 hk.2⟩
  · intro md
    exact ⟨defined_of_nan md, defined_of_negInf md, defined_of_posInf md, fun m e hm => fRsqrt_of_neg md hm,
      fun neg e => defined_of_zero hf sat⟩

end Sys2Proof.Machine
end

section
/-! Conversions and comparisons (R209, R241, R602). -/

namespace Sys2Proof.Machine

/-! ### Values of integer types -/

theorem sgn_eq_toInt {w : Nat} (hw : 0 < w) (x : Nat) : sgn x w = (BitVec.ofNat w x).toInt := by
  have hpow : 2 * 2 ^ (w - 1) = 2 ^ w := by rw [← Nat.pow_succ', Nat.succ_eq_add_one, Nat.sub_add_cancel hw]
  rw [sgn, BitVec.toInt_eq_toNat_cond, BitVec.toNat_ofNat]
  split_ifs
  · rfl
  · omega
  · omega
  · push_cast
    rfl

/-- The value of a lane read at an integer type. -/
def laneVal (w : Nat) (signed : Bool) (l : BitVec 32) : Int := if signed then (l.setWidth w).toInt else ((l.setWidth w).toNat : Int)

theorem atType_toNat {w : Nat} (hw : 0 < w) (signed : Bool) (l : BitVec 32) : atType w signed l.toNat = laneVal w signed l := by
  have hlow : BitVec.ofNat w l.toNat = l.setWidth w := BitVec.eq_of_toNat_eq (by simp)
  cases signed
  · simp [atType, laneVal]
  · simp [atType, laneVal, sgn_eq_toInt hw, hlow]

/-! ### Rounding what needs none -/

theorem roundShift_of_nonpos {d : Int} (h : d ≤ 0) (rm : Nat) (neg : Bool) (m : Nat) (sticky : Bool) :
    roundShift rm neg m d sticky = (m * 2 ^ (-d).toNat, sticky) := if_pos h

/-! ### A value to an integer (R602) -/

/-- The limits of an integer type. -/
def intMin (w : Nat) (signed : Bool) : Int := if signed then -(2 ^ (w - 1)) else 0
def intMax (w : Nat) (signed : Bool) : Int := if signed then 2 ^ (w - 1) - 1 else 2 ^ w - 1

section
variable {f : Fmt} (md : RMode) (w : Nat) (signed : Bool) {a : Nat}

theorem intMin_le_intMax : intMin w signed ≤ intMax w signed := by
  have h1 : (0 : Int) < 2 ^ (w - 1) := Int.pow_pos (by decide)
  have h2 : (0 : Int) < 2 ^ w := Int.pow_pos (by decide)
  unfold intMin intMax
  split <;> omega

theorem toIntF_of_nan (h : decodeF f a = .nan) : toIntF f md w signed a = (0, fINVALID) := by
  rw [toIntF, h]

theorem toIntF_of_inf {neg : Bool} (h : decodeF f a = .inf neg) :
    toIntF f md w signed a = (((if neg then intMin w signed else intMax w signed) % 2 ^ w).toNat, fINVALID) := by
  rw [toIntF, h]
  rfl

/-- A value that is an integer needs no rounding: it saturates at the limits. -/
theorem toIntF_of_integer {neg : Bool} {m : Nat} {e : Int} (h : decodeF f a = .fin neg m e) (he : 0 ≤ e) :
    toIntF f md w signed a =
      if smant neg (m * 2 ^ e.toNat) < intMin w signed then ((intMin w signed % 2 ^ w).toNat, fINVALID)
      else if intMax w signed < smant neg (m * 2 ^ e.toNat) then ((intMax w signed % 2 ^ w).toNat, fINVALID)
      else ((smant neg (m * 2 ^ e.toNat) % 2 ^ w).toNat, 0) := by
  rw [toIntF, h]
  dsimp only
  rw [roundShift_of_nonpos (by omega), neg_neg]
  rfl

end

/-! ### vcvt -/

/-- A lane result of which the upper half may be free (log entry 12). -/
def freeHalf (s : State) (k : Nat) (free : Bool) (r : FRes) : FRes :=
  if free then (r.1 + (Config.freeWord (s.freeCtr + k)).toNat % 2 ^ 16 * 2 ^ 16, r.2) else r

theorem freeHalf_low (s : State) (k : Nat) (r : FRes) :
    (BitVec.ofNat 32 (freeHalf s k true r).1).toNat % 65536 = r.1 % 65536 := by
  rw [freeHalf, if_pos rfl, BitVec.toNat_ofNat]
  omega

section
variable {s : State} {x : CellItem} {i : Instr}

/-- A cell item that draws free values and writes lane results. -/
theorem cellDraws_lanes {r : Nat → FRes} (h : CellDraws i s x 0 64 (writeF (s.cell x.cell) x ((List.range 64).map r))) :
    ∃ (l : List (BitVec 32)) (f : Nat), l.length = 64 ∧ CellDraws i s x 0 64 (raise (setV (s.cell x.cell) x.d l) f) ∧
      ∀ k, k < 64 → l.getD k 0 = if (preg (s.cell x.cell) x.p).getLsbD k then BitVec.ofNat 32 (r k).1
        else if x.pz then 0 else lane (s.cell x.cell) x.d k := by
  refine ⟨_, _, mergeLanes_length .., h, fun k hk => ?_⟩
  rw [mergeLanes_getD _ _ _ _ hk, List.map_map, getD_map_range _ hk]
  rfl

/-- What vcvt makes of lane `k`. -/
def cvtResult (s : State) (c : Cell) (x : CellItem) (k : Nat) : FRes :=
  freeHalf s k (cvtLane (modeOf c.status) x.fn x.t (lane c x.a k)).2 (cvtLane (modeOf c.status) x.fn x.t (lane c x.a k)).1

theorem vcvt_draws (hgo : CellGo s x 0) (hok : cvtOk x.fn x.t = true) :
    CellDraws (.vcvt x) s x 0 64 (writeF (s.cell x.cell) x ((List.range 64).map (cvtResult s (s.cell x.cell) x))) :=
  cellDraws_of_ok hgo rfl (by rw [vcvtBody, hok]; rfl)

/-! ### vcmp -/

/-- The number that bits from place `n` on spell. -/
def predSum (bs : List Bool) (n : Nat) : Nat := ((bs.zipIdx n).map fun (y : Bool × Nat) => b2n y.1 * 2 ^ y.2).sum

theorem predSum_cons (b : Bool) (bs : List Bool) (n : Nat) : predSum (b :: bs) n = b2n b * 2 ^ n + predSum bs (n + 1) := by
  rw [predSum, List.zipIdx_cons, List.map_cons, List.sum_cons, predSum]

theorem predSum_succ : ∀ (bs : List Bool) (n : Nat), predSum bs (n + 1) = 2 * predSum bs n
  | [], _ => rfl
  | b :: bs, n => by
    rw [predSum_cons, predSum_cons, predSum_succ bs (n + 1), Nat.pow_succ]
    ring

theorem testBit_predSum : ∀ (bs : List Bool) (k : Nat), (predSum bs 0).testBit k = bs.getD k false
  | [], k => by simp [predSum]
  | b :: bs, k => by
    have hsum : predSum (b :: bs) 0 = Nat.bit b (predSum bs 0) := by
      rw [predSum_cons, predSum_succ, Nat.bit_val]
      cases b <;> simp [b2n, Nat.add_comm]
    rw [hsum]
    cases k with
    | zero => rw [Nat.testBit_bit_zero, List.getD_cons_zero]
    | succ k => rw [Nat.testBit_bit_succ, testBit_predSum bs k, List.getD_cons_succ]

theorem predOf_getLsbD (bs : List Bool) {k : Nat} (hk : k < 64) : (predOf bs).getLsbD k = bs.getD k false := by
  change (BitVec.ofNat 64 (predSum bs 0)).getLsbD k = _
  rw [BitVec.getLsbD_ofNat, testBit_predSum, decide_eq_true hk, Bool.true_and]

theorem getD_map_zipIdx_range {α β : Type} (g : Nat → α) (h : α × Nat → β) {n k : Nat} (hk : k < n) (d : β) :
    (((List.range n).map g).zipIdx.map h).getD k d = h (g k, k) := by
  simp [List.getD_eq_getElem?_getD, hk]

/-- Bit `k` of pD after vcmp. -/
def cmpBit (s : State) (c : Cell) (x : CellItem) (k : Nat) : Bool :=
  let r := cmpLane x.t x.fn (lane c x.a k) (lane c x.b k)
  if (preg c x.p).getLsbD k then (if r.1 = r.2.1 then r.1 else bitOf s.draw.1.toNat k)
  else if x.pz then false else (preg c x.d).getLsbD k

/-- A type of which vcmp compares lanes. -/
theorem vcmp_type {t : Nat} (h : t ∈ [0, 1, 2, 16, 17, 18, 19, 20, 21]) : ¬ ((floatType t).isNone = true ∧ (laneInt t).isNone = true) := by
  simp only [List.mem_cons, List.not_mem_nil, or_false] at h
  rcases h with rfl | rfl | rfl | rfl | rfl | rfl | rfl | rfl | rfl <;> decide

theorem vcmp_draws (hgo : CellGo s x 0) (ht : x.t ∈ [0, 1, 2, 16, 17, 18, 19, 20, 21]) (hd : x.d ≤ 7) (hfn : x.fn ≤ 5) :
    ∃ (w : Word) (f : Nat), CellDraws (.vcmp x) s x 0 1 (raise (setP (s.cell x.cell) x.d w) f) ∧
      ∀ k, k < 64 → w.getLsbD k = cmpBit s (s.cell x.cell) x k := by
  have hlegal : ¬ (7 < x.d ∨ 5 < x.fn ∨ ((floatType x.t).isNone = true ∧ (laneInt x.t).isNone = true)) := by
    rintro (h | h | h)
    · omega
    · omega
    · exact vcmp_type ht h
  refine ⟨_, _, cellDraws_of_ok hgo rfl (if_neg hlegal), fun k hk => ?_⟩
  rw [predOf_getLsbD _ hk, getD_map_zipIdx_range _ _ hk]
  rw [cmpBit, getLsbD_eq_bitOf, getLsbD_eq_bitOf]
  rfl

end

/-! ### Comparisons of lanes -/

theorem condHolds_ordInt (fn : Nat) (a b : Int) : condHolds fn (ordInt a b) false = relates fn a b := by
  have hlt : ordInt a b < 0 ↔ a < b := by unfold ordInt; split_ifs <;> omega
  have heq : ordInt a b = 0 ↔ a = b := by unfold ordInt; grind
  have hgt : 0 < ordInt a b ↔ b < a := by unfold ordInt; split_ifs <;> omega
  have hle : ordInt a b ≤ 0 ↔ a ≤ b := by rw [← not_lt, hgt, not_lt]
  have hge : 0 ≤ ordInt a b ↔ b ≤ a := by rw [← not_lt, hlt, not_lt]
  match fn with
  | 0 => simp [condHolds, relates, heq]
  | 1 => simp [condHolds, relates, heq]
  | 2 => simp [condHolds, relates, hlt]
  | 3 => simp [condHolds, relates, hge]
  | 4 => simp [condHolds, relates, hle]
  | _ + 5 => simp [condHolds, relates, hgt]

/-- Lanes of an integer type compare as their values. -/
theorem cmpLane_int {t w : Nat} {signed : Bool} (hw : 0 < w) (hf : floatType t = none) (ht : laneInt t = some (w, signed)) (fn : Nat)
    (a b : BitVec 32) : cmpLane t fn a b =
      (relates fn (laneVal w signed a) (laneVal w signed b), relates fn (laneVal w signed a) (laneVal w signed b), 0) := by
  rw [cmpLane, hf, ht]
  dsimp only
  rw [condHolds_ordInt, atType_toNat hw, atType_toNat hw]

/-- Unordered operands differ, and no other relation holds between them. -/
theorem cmpLane_of_nan {fn : Nat} {a b : BitVec 32} (h : decodeF fmt32 a.toNat = .nan ∨ decodeF fmt32 b.toNat = .nan) :
    (cmpLane 0 fn a b).1 = decide (fn = 1) := by
  have hun : (decide (decodeF fmt32 a.toNat = .nan) || decide (decodeF fmt32 b.toNat = .nan)) = true := by simpa using h
  have hcmp : (cmpLane 0 fn a b).1 = condHolds fn 0 true := by
    change (fcmp fmt32 fn a.toNat b.toNat).1 = _
    rw [fcmp]
    dsimp only
    rw [hun]
    rfl
  rw [hcmp, condHolds]
  split_ifs <;> simp_all

end Sys2Proof.Machine
end

section
/-! The statement on conversions and comparisons (R209, R241, R602). -/

namespace Sys2Proof.Machine

/-- The integer types that fit a lane, as the statements list them. -/
theorem laneInt_of_mem {t w : Nat} {signed : Bool}
    (h : (t, w, signed) ∈ [(16, 8, true), (17, 8, false), (18, 16, true), (19, 16, false), (20, 32, true), (21, 32, false)]) :
    0 < w ∧ floatType t = none ∧ laneInt t = some (w, signed) := by
  simp only [List.mem_cons, Prod.mk.injEq, List.not_mem_nil, or_false] at h
  rcases h with ⟨rfl, rfl, rfl⟩ | ⟨rfl, rfl, rfl⟩ | ⟨rfl, rfl, rfl⟩ | ⟨rfl, rfl, rfl⟩ | ⟨rfl, rfl, rfl⟩ | ⟨rfl, rfl, rfl⟩ <;>
    exact ⟨by decide, rfl, rfl⟩

theorem vcvt_lanes {s : State} {x : CellItem} (hgo : CellGo s x 0) (hok : cvtOk x.fn x.t = true) :
    ∃ (l : List (BitVec 32)) (f : Nat), l.length = 64 ∧ CellDraws (.vcvt x) s x 0 64 (raise (setV (s.cell x.cell) x.d l) f) ∧
      ∀ k, k < 64 →
        let r := cvtLane (modeOf (s.cell x.cell).status) x.fn x.t (lane (s.cell x.cell) x.a k)
        if (preg (s.cell x.cell) x.p).getLsbD k then
          (if r.2 then (l.getD k 0).toNat % 65536 = r.1.1 % 65536 else l.getD k 0 = BitVec.ofNat 32 r.1.1)
        else l.getD k 0 = if x.pz then 0 else lane (s.cell x.cell) x.d k := by
  obtain ⟨l, f, hlen, hdraw, hlane⟩ := cellDraws_lanes (vcvt_draws hgo hok)
  refine ⟨l, f, hlen, hdraw, fun k hk => ?_⟩
  rw [hlane k hk, cvtResult]
  dsimp only
  by_cases hon : (preg (s.cell x.cell) x.p).getLsbD k = true
  · rw [if_pos hon, if_pos hon]
    by_cases hfree : (cvtLane (modeOf (s.cell x.cell).status) x.fn x.t (lane (s.cell x.cell) x.a k)).2 = true
    · rw [if_pos hfree, hfree]
      exact freeHalf_low ..
    · rw [if_neg hfree, Bool.eq_false_of_not_eq_true hfree]
      rfl
  · rw [if_neg hon, if_neg hon]

theorem vcmp_bits {s : State} {x : CellItem} (hgo : CellGo s x 0) (ht : x.t ∈ [0, 1, 2, 16, 17, 18, 19, 20, 21]) (hd : x.d ≤ 7)
    (hfn : x.fn ≤ 5) :
    ∃ (w : Word) (f : Nat), CellDraws (.vcmp x) s x 0 1 (raise (setP (s.cell x.cell) x.d w) f) ∧ ∀ k, k < 64 →
        let r := cmpLane x.t x.fn (lane (s.cell x.cell) x.a k) (lane (s.cell x.cell) x.b k)
        if (preg (s.cell x.cell) x.p).getLsbD k then r.1 = r.2.1 → w.getLsbD k = r.1
        else w.getLsbD k = if x.pz then false else (preg (s.cell x.cell) x.d).getLsbD k := by
  obtain ⟨w, f, hdraw, hbit⟩ := vcmp_draws hgo ht hd hfn
  refine ⟨w, f, hdraw, fun k hk => ?_⟩
  rw [hbit k hk, cmpBit]
  dsimp only
  by_cases hon : (preg (s.cell x.cell) x.p).getLsbD k = true
  · rw [if_pos hon, if_pos hon]
    exact fun heq => if_pos heq
  · rw [if_neg hon, if_neg hon]

/-- Settles O17: vcvt and vcmp lane by lane, and `toIntF` by what its operand decodes to. -/
theorem conversionsSaturateToIntegers : Obligations.ConversionsSaturateToIntegers := by
  unfold Obligations.ConversionsSaturateToIntegers
  refine ⟨fun s x hgo => ⟨vcvt_lanes hgo, vcmp_bits hgo⟩, fun fn a b _ => ⟨fun t w signed hmem => ?_, cmpLane_of_nan⟩,
    fun md w signed a _ => ⟨toIntF_of_nan md w signed, fun neg => toIntF_of_inf md w signed, fun neg m e hfin he => ?_⟩⟩
  · obtain ⟨hw, hf, ht⟩ := laneInt_of_mem hmem
    exact cmpLane_int hw hf ht fn a b
  · have hrange := intMin_le_intMax w signed
    rw [toIntF_of_integer md w signed hfin he]
    refine ⟨fun hlo hhi => ?_, fun hlo => if_pos hlo, fun hhi => ?_⟩
    · exact (if_neg (not_lt.2 hlo)).trans (if_neg (not_lt.2 hhi))
    · exact (if_neg (not_lt.2 (hrange.trans hhi.le))).trans (if_pos hhi)

end Sys2Proof.Machine
end

section
/-! Cell memory as later proofs read and write it: slices of what a load reads, what a store leaves, and loads and stores that
complete (R193, R235, R242, R247). -/

namespace Sys2Proof.Machine

/-! ### Slices of bytes read -/

section
variable (m : Map Byte)

theorem rdBytes_append : ∀ (n a k : Nat), rdBytes m a (n + k) = rdBytes m a n ++ rdBytes m (a + n) k
  | 0, a, k => by rw [Nat.zero_add]; rfl
  | n + 1, a, k => by
    rw [Nat.succ_add_eq_add_succ, Nat.add_succ, rdBytes, rdBytes, rdBytes_append n (a + 1), List.cons_append,
      Nat.add_right_comm, Nat.add_assoc]

theorem drop_take_rdBytes {a n i k : Nat} (h : i + k ≤ n) : ((rdBytes m a n).drop i).take k = rdBytes m (a + i) k := by
  obtain ⟨r, rfl⟩ := Nat.exists_eq_add_of_le h
  rw [Nat.add_assoc, rdBytes_append, rdBytes_append, List.drop_left' (rdBytes_length m i a),
    List.take_left' (rdBytes_length m k (a + i))]

theorem rdBytes_getD : ∀ {n a i : Nat}, i < n → (rdBytes m a n).getD i 0 = rdByte m (a + i)
  | n + 1, a, 0, _ => rfl
  | n + 1, a, i + 1, h => by
    rw [rdBytes, List.getD_cons_succ, rdBytes_getD (Nat.lt_of_succ_lt_succ h)]
    congr 1
    omega

theorem chunks_rdBytes (k : Nat) : ∀ (n a : Nat), chunks k n (rdBytes m a (k * n)) = (List.range n).map fun i => rdBytes m (a + k * i) k
  | 0, _ => rfl
  | n + 1, a => by
    rw [chunks, Nat.mul_succ, Nat.add_comm (k * n), rdBytes_append, List.take_left' (rdBytes_length m k a),
      List.drop_left' (rdBytes_length m k a), chunks_rdBytes k n, List.range_succ_eq_map, List.map_cons, List.map_map]
    simp only [Nat.mul_zero, Nat.add_zero, Function.comp_def, Nat.mul_succ]
    congr 2
    funext i
    congr 1
    omega

/-- Bytes written, read back in slices. -/
theorem rdBytes_wrBytes_inside {m : Map Byte} (hm : Memory.wf m = true) (bs : List Byte) {a i k : Nat} (h : i + k ≤ bs.length) :
    rdBytes (wrBytes m a bs) (a + i) k = (bs.drop i).take k := by
  rw [← drop_take_rdBytes _ h, rdBytes_wrBytes_same bs a hm]

end

/-- A concatenation of pieces of one length is cut into its pieces again. -/
theorem drop_take_flatMap {α : Type} {f : α → List Byte} {k : Nat} (hf : ∀ y, (f y).length = k) :
    ∀ (l : List α) (n : Nat) (h : n < l.length), ((l.flatMap f).drop (k * n)).take k = f l[n]
  | y :: l, 0, _ => by
    rw [List.flatMap_cons, Nat.mul_zero, List.drop_zero, List.take_left' (hf y), List.getElem_cons_zero]
  | y :: l, n + 1, h => by
    rw [List.flatMap_cons, Nat.mul_succ, Nat.add_comm, ← List.drop_drop, List.drop_left' (hf y),
      drop_take_flatMap hf l n (Nat.lt_of_succ_lt_succ h), List.getElem_cons_succ]

theorem flatMap_length_const {α : Type} {f : α → List Byte} {k : Nat} (hf : ∀ y, (f y).length = k) (l : List α) :
    (l.flatMap f).length = k * l.length := by
  rw [List.length_flatMap, List.map_congr_left fun y _ => hf y, List.map_const', List.sum_replicate, smul_eq_mul, Nat.mul_comm]

/-! ### Loads and stores that complete -/

theorem accessCode_zero {a n align : Nat} (hrange : a + n ≤ 0x3C0000) (halign : a % align = 0) : accessCode a n align = 0 := by
  rw [accessCode, if_neg (show ¬ cellLimit < a + n from Nat.not_lt.2 hrange), if_neg (by simp [halign])]

theorem any_contains_eq_false {l us : List Nat} (h : ∀ u ∈ us, u ∉ l) : (us.any (l.contains ·)) = false := by
  simpa using h

theorem countP_contains_eq_zero {l us : List Nat} (h : ∀ u ∈ us, u ∉ l) : us.countP (l.contains ·) = 0 := by
  rw [List.countP_eq_zero]
  simpa using h

section
variable {s : State} {c : Cell} {a align : Nat}

theorem cellLoad_of_reads {n len : Nat} (h : CellReads s c a len align) (k : State → List Byte → CellOut) :
    cellLoad s n c a len align k = k s (rdBytes c.mem a len) := by
  obtain ⟨hrange, halign, hwait, hpoison, hweak⟩ := h
  unfold cellLoad
  rw [accessCode_zero hrange halign, if_neg (by simp), if_neg (by simp [hwait]), any_contains_eq_false hpoison,
    countP_contains_eq_zero hweak]
  rfl

theorem cellStore_of_writes {bs : List Byte} {n : Nat} (hlen : bs.length = n) (h : CellWrites s c a n align) :
    cellStore s c a align bs = .ok s (cellWrite c a bs) := by
  obtain ⟨hrange, halign, hwait⟩ := h
  unfold cellStore
  rw [hlen, accessCode_zero hrange halign, if_neg (by simp), if_neg (by simp [hwait])]

end

end Sys2Proof.Machine
end

section
/-! tzero, tld and tst (R213, R241). -/

namespace Sys2Proof.Machine

theorem tile0_getD (k : Nat) : tile0.getD k 0 = 0 := by
  by_cases hk : k < 1024
  · exact List.getD_replicate _ hk
  · exact List.getD_eq_default _ _ (by rw [tile0, List.length_replicate]; exact Nat.not_lt.1 hk)

/-- The tile that 4 KiB of cell memory hold. -/
def tileAt (m : Map Byte) (a : Nat) : List (BitVec 32) := (chunks 4 1024 (rdBytes m a 4096)).map fun l => BitVec.ofNat 32 (leNat l)

theorem tileAt_eq (m : Map Byte) (a : Nat) :
    tileAt m a = (List.range 1024).map fun k => BitVec.ofNat 32 (rdLE m (a + 4 * k) 4) := by
  rw [tileAt, chunks_rdBytes m 4 1024 a, List.map_map]
  rfl

theorem tileAt_length (m : Map Byte) (a : Nat) : (tileAt m a).length = 1024 := by
  rw [tileAt_eq, List.length_map, List.length_range]

/-- The bytes of a tile. -/
def tileBytes (l : List (BitVec 32)) : List Byte := l.flatMap fun v => leBytes 4 v.toNat

theorem tileBytes_length {l : List (BitVec 32)} (h : l.length = 1024) : (tileBytes l).length = 4096 := by
  rw [tileBytes, flatMap_length_const fun _ => leBytes_length .., h]

/-- A tile stored is found there, value by value. -/
theorem rdLE_tileBytes {m : Map Byte} (hm : Memory.wf m = true) {l : List (BitVec 32)} (hl : l.length = 1024) (a : Nat) {k : Nat}
    (hk : k < 1024) : rdLE (wrBytes m a (tileBytes l)) (a + 4 * k) 4 = (l.getD k 0).toNat := by
  have hslice : 4 * k + 4 ≤ (tileBytes l).length := by rw [tileBytes_length hl]; omega
  have hv := (l[k]'(hl ▸ hk)).isLt
  rw [rdLE, rdBytes_wrBytes_inside hm _ hslice, tileBytes, drop_take_flatMap (fun _ => leBytes_length ..) l k (hl ▸ hk),
    leNat_leBytes, List.getD_eq_getElem _ _ (hl ▸ hk)]
  exact Nat.mod_eq_of_lt hv

section
variable {s : State} {x : CellItem} {c : Cell}

theorem tileOk_of_le (hd : x.d ≤ 7) : tileOk x = true := decide_eq_true hd

theorem tileOk_of_lt (hd : 7 < x.d) : tileOk x = false := decide_eq_false (Nat.not_le.2 hd)

/-- What tzero makes of a cell. -/
def tzeroCell (x : CellItem) (c : Cell) : Option Cell := if tileOk x then some (setT c x.d tile0) else none

theorem tldBody_done (hd : x.d ≤ 7) (h : CellReads s c (sreg c x.a).toNat 4096 256) :
    tldBody x s c = .ok s (setT c x.d (tileAt c.mem (sreg c x.a).toNat)) := by
  rw [tldBody, tileOk_of_le hd, if_neg (by simp), cellLoad_of_reads h]
  rfl

theorem tstBody_done (hd : x.d ≤ 7) (hl : (treg c x.d).length = 1024) (h : CellWrites s c (sreg c x.a).toNat 4096 256) :
    tstBody x s c = .ok s (cellWrite c (sreg c x.a).toNat (tileBytes (treg c x.d))) := by
  rw [tstBody, tileOk_of_le hd, if_neg (by simp)]
  exact cellStore_of_writes (tileBytes_length hl) h

end

/-- Settles O19: what tld reads and tst writes, value by value. -/
theorem tileItemsMoveTiles : Obligations.TileItemsMoveTiles := by
  unfold Obligations.TileItemsMoveTiles
  intro s x hgo c a
  refine ⟨fun hd => ⟨tile0, ?_, List.length_replicate, tile0_getD⟩, fun hd hreads => ⟨tileAt c.mem a, ?_, tileAt_length _ _, fun k hk => ?_⟩,
    fun hd hwrites hm hl => ⟨cellWrite c a (tileBytes (treg c x.d)), ?_, fun k hk => rdLE_tileBytes hm hl a hk,
      fun b hb => ?_, rfl, rfl, rfl, rfl, rfl, rfl, rfl, rfl⟩, fun hd hhandled => ?_⟩
  · exact cellNext_of_checked (f := tzeroCell x) hgo rfl (if_pos (tileOk_of_le hd))
  · exact cellNext_of_ok hgo rfl (tldBody_done hd hreads)
  · rw [tileAt_eq, getD_map_range _ hk]
  · exact cellNext_of_ok hgo rfl (tstBody_done hd hl hwrites)
  · exact rdByte_wrBytes_outside _ _ _ _ (by rwa [tileBytes_length hl])
  · have hbad := tileOk_of_lt hd
    exact ⟨cellTraps_of_checked (f := tzeroCell x) hgo rfl hhandled (by rw [tzeroCell, hbad]; rfl),
      cellTraps_of_exc hgo rfl hhandled (by rw [tldBody, hbad]; rfl), cellTraps_of_exc hgo rfl hhandled (by rw [tstBody, hbad]; rfl)⟩

end Sys2Proof.Machine
end

section
/-! tmx and the quantiser (R202, R204, R212, R242). -/

namespace Sys2Proof.Machine

/-! ### Accesses of an item that makes several -/

theorem firstCode_cons {a n align : Nat} {l : List (Nat × Nat × Nat)} (h : accessCode a n align = 0) (hl : firstCode l = 0) :
    firstCode ((a, n, align) :: l) = 0 := by
  rw [firstCode, List.findSome?_cons_of_isNone (by simp [h])]
  exact hl

theorem accessCode_of_reads {s : State} {c : Cell} {a n align : Nat} (h : CellReads s c a n align) : accessCode a n align = 0 :=
  accessCode_zero h.1 h.2.1

theorem accessCode_of_writes {s : State} {c : Cell} {a n align : Nat} (h : CellWrites s c a n align) : accessCode a n align = 0 :=
  accessCode_zero h.1 h.2.1

/-! ### The blocks of a tile -/

theorem drop_take_eq_map_range {α : Type} {l : List α} {i n : Nat} (h : i + n ≤ l.length) (d : α) :
    (l.drop i).take n = (List.range n).map fun j => l.getD (i + j) d := by
  refine List.ext_getElem (by simp; omega) fun j hj hj' => ?_
  rw [List.length_map, List.length_range] at hj'
  rw [List.getElem_take, List.getElem_drop, List.getElem_map, List.getElem_range, List.getD_eq_getElem]

/-- Block `k` of a tile: half a row, quantised. -/
def tileBlock (t : Nat) (tile : List (BitVec 32)) (k : Nat) : Nat × List Nat × Nat :=
  quantBlock t ((List.range 32).map fun j => (tile.getD (32 * k + j) 0).toNat)

theorem tileBlocks_eq (t : Nat) {tile : List (BitVec 32)} (h : tile.length = 1024) :
    tileBlocks t tile = (List.range 32).map (tileBlock t tile) := by
  refine List.map_congr_left fun k hk => ?_
  have hk' := List.mem_range.1 hk
  rw [drop_take_eq_map_range (by omega) 0, List.map_map]
  rfl

theorem packElems_length (t : Nat) (codes : List Nat) : (packElems t codes).length = blockBytes t := leBytes_length _ _

/-! ### What tmx writes -/

/-- The elements and the scales that tmx writes. -/
def tmxElems (t : Nat) (tile : List (BitVec 32)) : List Byte := (tileBlocks t tile).flatMap fun y => packElems t y.2.1
def tmxScales (t : Nat) (tile : List (BitVec 32)) : List Byte := (tileBlocks t tile).map fun y => BitVec.ofNat 8 y.1

/-- A cell after tmx wrote its blocks, before the flags. -/
def tmxCell (x : CellItem) (c : Cell) : Cell :=
  cellWrite (cellWrite c (sreg c x.a).toNat (tmxElems x.t (treg c x.d))) (sreg c x.b).toNat (tmxScales x.t (treg c x.d))

theorem tmxCell_mem (x : CellItem) (c : Cell) : (tmxCell x c).mem =
    wrBytes (wrBytes c.mem (sreg c x.a).toNat (tmxElems x.t (treg c x.d))) (sreg c x.b).toNat (tmxScales x.t (treg c x.d)) := rfl

/-- All that tmx changes of a cell, apart from the flags, is its memory with the marks of its units. -/
theorem tmxCell_upd (x : CellItem) (c : Cell) : ∃ m p w, tmxCell x c = { c with mem := m, poison := p, weak := w } := ⟨_, _, _, rfl⟩

section
variable {t : Nat} {tile : List (BitVec 32)} (htile : tile.length = 1024)
include htile

theorem tmxElems_length : (tmxElems t tile).length = 32 * blockBytes t := by
  rw [tmxElems, flatMap_length_const fun _ => packElems_length .., tileBlocks_eq t htile, List.length_map, List.length_range, Nat.mul_comm]

theorem tmxScales_length : (tmxScales t tile).length = 32 := by
  rw [tmxScales, tileBlocks_eq t htile, List.length_map, List.length_map, List.length_range]

theorem tmxElems_block {k : Nat} (hk : k < 32) :
    ((tmxElems t tile).drop (k * blockBytes t)).take (blockBytes t) = packElems t (tileBlock t tile k).2.1 := by
  rw [tmxElems, tileBlocks_eq t htile, Nat.mul_comm, drop_take_flatMap (fun _ => packElems_length ..) _ k (by simpa using hk)]
  simp

theorem tmxScales_getD {k : Nat} (hk : k < 32) : (tmxScales t tile).getD k 0 = BitVec.ofNat 8 (tileBlock t tile k).1 := by
  rw [tmxScales, tileBlocks_eq t htile, List.map_map, getD_map_range _ hk]
  rfl

end

theorem rdByte_wrBytes_inside {m : Map Byte} (hm : Memory.wf m = true) (bs : List Byte) (a : Nat) {k : Nat} (hk : k < bs.length) :
    rdByte (wrBytes m a bs) (a + k) = bs.getD k 0 := by
  rw [← rdBytes_getD _ hk, rdBytes_wrBytes_same bs a hm]

theorem tmxBody_done {s : State} {x : CellItem} {c : Cell} (hd : x.d ≤ 7) (ht : hasScales x.t = true)
    (helems : CellWrites s c (sreg c x.a).toNat (32 * blockBytes x.t) 16) (hscales : CellWrites s c (sreg c x.b).toNat 32 1) :
    tmxBody x s c = .ok s (raise (tmxCell x c) ((tileBlocks x.t (treg c x.d)).foldl (fun f y => f ||| y.2.2) 0)) := by
  have hcode := firstCode_cons (accessCode_of_writes helems) (firstCode_cons (l := []) (accessCode_of_writes hscales) rfl)
  obtain ⟨-, -, hawait⟩ := helems
  obtain ⟨-, -, hbwait⟩ := hscales
  unfold tmxBody
  rw [tileOk_of_le hd, ht, if_neg (by simp)]
  dsimp only
  rw [hcode, if_neg (by simp), hawait, hbwait, if_neg (by simp)]
  rfl

/-! ### The quantiser at special blocks (R212) -/

section
variable {t : Nat} {vs : List Nat}

theorem quantBlock_special {v : Nat} (hv : v ∈ vs) (h : decodeF fmt32 v = .nan ∨ ∃ neg, decodeF fmt32 v = .inf neg) :
    quantBlock t vs = (0xFF, vs.map fun _ => 0, fINVALID) := by
  refine if_pos (List.any_eq_true.2 ⟨decodeF fmt32 v, List.mem_map_of_mem hv, ?_⟩)
  rcases h with h | ⟨neg, h⟩ <;> rw [h]

theorem decodeF_zero : decodeF fmt32 0 = .fin false 0 (-149) := by decide

theorem quantBlock_zeros (h : ∀ v ∈ vs, v = 0) :
    (quantBlock t vs).1 = 0 ∧ (∀ e ∈ (quantBlock t vs).2.1, e = 0) ∧ (quantBlock t vs).2.2 = 0 := by
  have hzero : vs.map (decodeF fmt32) = List.replicate vs.length (.fin false 0 (-149)) :=
    (List.map_congr_left fun v hv => (congrArg _ (h v hv)).trans decodeF_zero).trans (List.map_const' ..)
  unfold quantBlock
  rw [hzero]
  cases mxFmt t <;> simp [signBit, b2n]

end

/-! ### The statement -/

/-- Settles O21: the elements and the scales that tmx writes, block by block, and the quantiser at special blocks. -/
theorem tileQuantisesIntoBlocks : Obligations.TileQuantisesIntoBlocks := by
  unfold Obligations.TileQuantisesIntoBlocks
  refine ⟨fun s x hgo => ?_, fun t vs _ => ⟨fun ⟨v, hv, hspecial⟩ => ?_, quantBlock_zeros⟩⟩
  · intro c a b z block hd ht htile hm helems hscales hdisjoint
    have hmx : hasScales x.t = true := by
      simp only [List.mem_cons, List.not_mem_nil, or_false] at ht
      rcases ht with ht | ht | ht | ht | ht | ht | ht <;> rw [ht] <;> decide
    have hlen : (tmxElems x.t (treg c x.d)).length = 32 * z := tmxElems_length htile
    have hlen' : (tmxScales x.t (treg c x.d)).length = 32 := tmxScales_length htile
    refine ⟨tmxCell x c, _, cellNext_of_ok hgo rfl (tmxBody_done hd hmx helems hscales), fun k hk => ⟨?_, ?_⟩,
      fun y hya hyb => ?_, ?_⟩
    · have hslice : k * z + z ≤ 32 * z := by
        rw [← Nat.succ_mul]
        exact Nat.mul_le_mul_right z hk
      have hout : a + k * z + z ≤ b ∨ b + (tmxScales x.t (treg c x.d)).length ≤ a + k * z := by omega
      rw [tmxCell_mem, rdBytes_wrBytes_outside _ _ _ _ _ hout, rdBytes_wrBytes_inside hm _ (hslice.trans_eq hlen.symm)]
      exact tmxElems_block htile hk
    · rw [tmxCell_mem, rdByte_wrBytes_inside (Memory.wf_wrBytes _ _ hm) _ _ (hlen'.symm ▸ hk)]
      exact tmxScales_getD htile hk
    · rw [tmxCell_mem, rdByte_wrBytes_outside _ _ _ _ (hlen'.symm ▸ hyb), rdByte_wrBytes_outside _ _ _ _ (hlen.symm ▸ hya)]
    · obtain ⟨m, p, w, heq⟩ := tmxCell_upd x c
      rw [heq]
      exact ⟨rfl, rfl, rfl, rfl, rfl, rfl, rfl⟩
  · rw [quantBlock_special hv hspecial]
    exact ⟨rfl, fun e he => (List.mem_map.1 he).elim fun _ h => h.2.symm, rfl⟩

end Sys2Proof.Machine
end

section
/-! tmma (R206, R213 to R215, R242, R609): every element of a tile takes one rounded addition a block. -/

namespace Sys2Proof.Machine

/-! ### One element over the blocks -/

/-- Element `i` of a tile after one block. -/
def tmmaElem (md : RMode) (row col : List (List Num × Nat)) (i : Nat) (t : BitVec 32) : BitVec 32 :=
  BitVec.ofNat 32 (addNum fmt32 md (decodeF fmt32 t.toNat)
    (dotBlock (row.getD (i / 64) ([], 0)).1 (col.getD (i % 64) ([], 0)).1).1).1

theorem tmmaStep_getD (md : RMode) (row col : List (List Num × Nat)) (tile : List (BitVec 32)) {i : Nat} (hi : i < 1024) :
    ((tmmaStep md row col tile).map fun y => BitVec.ofNat 32 y.1).getD i 0 = tmmaElem md row col i (tile.getD i 0) := by
  rw [tmmaStep, List.map_map, getD_map_range _ hi]
  rfl

/-- An element after a run is the fold of its blocks in ascending order. -/
theorem tmmaRun_getD (md : RMode) (row col : Nat → List (List Num × Nat)) {i : Nat} (hi : i < 1024) :
    ∀ (n b : Nat) (r : List (BitVec 32) × Nat), (tmmaRun md row col n b r).1.getD i 0 =
      (List.range n).foldl (fun t k => tmmaElem md (row (b + k)) (col (b + k)) i t) (r.1.getD i 0)
  | 0, _, _ => rfl
  | n + 1, b, r => by
    rw [tmmaRun, tmmaRun_getD md row col hi n, tmmaStep_getD _ _ _ _ hi, List.range_succ_eq_map, List.foldl_cons, List.foldl_map]
    simp only [Nat.succ_eq_add_one, Nat.add_zero, Nat.add_assoc, Nat.add_comm 1]

/-! ### Operands in cell memory -/

section
variable (m : Map Byte) (t : Nat)

/-- Scale bytes of `n` blocks at `sc`: none for a type whose blocks have no scale of their own. -/
def scaleBytes (sc n : Nat) : List Byte :=
  rdBytes m (if (if hasScales t then n else 0) = 0 then 0 else sc) (if hasScales t then n else 0)

/-- The scale byte of block `i`. -/
def scaleByte (sc i : Nat) : Nat := if hasScales t then (rdByte m (sc + i)).toNat else 0

theorem scaleBytes_getD (sc : Nat) {n i : Nat} (hi : i < n) : ((scaleBytes m t sc n).getD i 0).toNat = scaleByte m t sc i := by
  unfold scaleBytes scaleByte
  by_cases h : hasScales t = true
  · simp only [if_pos h]
    rw [if_neg (by omega), rdBytes_getD m hi]
  · simp only [if_neg h]
    rfl

/-- The scaled values of block `i` of an operand at `base` with its scales at `sc`. -/
def blockValues (base sc i : Nat) : List Num :=
  (decodeBlock t (rdBytes m (base + i * blockBytes t) (blockBytes t))).1.map
    (scaleNum (blockScale t (rdBytes m (base + i * blockBytes t) (blockBytes t)) (scaleByte m t sc i)))

theorem operandBlock_values (base sc : Nat) {n i : Nat} (hi : i < n) :
    (operandBlock t (rdBytes m base (n * blockBytes t)) (scaleBytes m t sc n) i).1 = blockValues m t base sc i := by
  have hslice : i * blockBytes t + blockBytes t ≤ n * blockBytes t := by
    rw [← Nat.succ_mul]
    exact Nat.mul_le_mul_right _ hi
  unfold operandBlock
  rw [drop_take_rdBytes m hslice, scaleBytes_getD m t sc hi]
  rfl

end

/-! ### The item -/

section
variable {s : State} {x : CellItem} {c : Cell}

/-- An access of no bytes waits for nothing and meets nothing. -/
theorem cellReads_empty (s : State) (c : Cell) : CellReads s c 0 0 1 := by
  refine ⟨by decide, by decide, ?_, ?_, ?_⟩
  · simp [mustWait, overlaps]
  · exact fun u hu => absurd hu List.not_mem_nil
  · exact fun u hu => absurd hu List.not_mem_nil

theorem cellReads_scales {t sc n : Nat} (hn : n ≠ 0) (h : hasScales t = true → CellReads s c sc n 1) :
    CellReads s c (if (if hasScales t then n else 0) = 0 then 0 else sc) (if hasScales t then n else 0) 1 := by
  by_cases ht : hasScales t = true
  · simp only [if_pos ht, if_neg hn]
    exact h ht
  · simp only [if_neg ht]
    exact cellReads_empty s c

/-- Blocks of tmma's operands: sC. -/
def tmmaBlocks (x : CellItem) (c : Cell) : Nat := (sreg c x.c).toNat

/-- Block `k` of every row of the first operand and of every column of the second. -/
def tmmaRow (x : CellItem) (c : Cell) (k : Nat) : List (List Num × Nat) :=
  (List.range 16).map fun m => operandBlock x.fn (rdBytes c.mem (sreg c x.a).toNat (16 * tmmaBlocks x c * blockBytes x.fn))
    (scaleBytes c.mem x.fn (sreg c (bits x.w1.toNat 0 5)).toNat (16 * tmmaBlocks x c)) (m * tmmaBlocks x c + k)
def tmmaCol (x : CellItem) (c : Cell) (k : Nat) : List (List Num × Nat) :=
  (List.range 64).map fun m => operandBlock x.t (rdBytes c.mem (sreg c x.b).toNat (64 * tmmaBlocks x c * blockBytes x.t))
    (scaleBytes c.mem x.t (sreg c (bits x.w1.toNat 5 5)).toNat (64 * tmmaBlocks x c)) (m * tmmaBlocks x c + k)

/-- The tile that tmma leaves, and the flags it raises. -/
def tmmaTile (x : CellItem) (c : Cell) : List (BitVec 32) × Nat :=
  tmmaRun (rneOf c.status) (tmmaRow x c) (tmmaCol x c) (tmmaBlocks x c - c.tmma.getD 0) (c.tmma.getD 0) (treg c x.d, 0)

theorem tmmaBody_illegal (h : 7 < x.d ∨ tmmaBlocks x c = 0 ∨ tmmaPair x.fn x.t = false) : tmmaBody x s c = .exc s c 2 :=
  if_pos (h.imp_right (Or.imp_right fun hpair => by simp [hpair]))

theorem tmmaBody_done (hd : x.d ≤ 7) (hnb : tmmaBlocks x c ≠ 0) (hpair : tmmaPair x.fn x.t = true)
    (ha : CellReads s c (sreg c x.a).toNat (16 * tmmaBlocks x c * blockBytes x.fn) 16)
    (hb : CellReads s c (sreg c x.b).toNat (64 * tmmaBlocks x c * blockBytes x.t) 16)
    (hsa : hasScales x.fn = true → CellReads s c (sreg c (bits x.w1.toNat 0 5)).toNat (16 * tmmaBlocks x c) 1)
    (hsb : hasScales x.t = true → CellReads s c (sreg c (bits x.w1.toNat 5 5)).toNat (64 * tmmaBlocks x c) 1) :
    tmmaBody x s c = .ok s { raise (setT c x.d (tmmaTile x c).1) (tmmaTile x c).2 with tmma := none } := by
  have hsa' := cellReads_scales (by omega) hsa
  have hsb' := cellReads_scales (by omega) hsb
  have hlegal : ¬ (7 < x.d ∨ tmmaBlocks x c = 0 ∨ (!tmmaPair x.fn x.t) = true) := by simp [hnb, hpair, hd]
  unfold tmmaBody
  refine (if_neg hlegal).trans ?_
  have hcode := firstCode_cons (accessCode_of_reads ha) (firstCode_cons (accessCode_of_reads hb)
    (firstCode_cons (accessCode_of_reads hsa') (firstCode_cons (l := []) (accessCode_of_reads hsb') rfl)))
  refine (if_neg (not_not_intro hcode)).trans ?_
  refine (cellLoad_of_reads ha _).trans ((cellLoad_of_reads hb _).trans ?_)
  exact (cellLoad_of_reads hsa' _).trans (cellLoad_of_reads hsb' _)

/-- Block `j` of row or column `m` lies within the blocks of an operand. -/
theorem block_lt {nb m r j : Nat} (hm : m < r) (hj : j < nb) : m * nb + j < r * nb :=
  calc m * nb + j < m * nb + nb := Nat.add_lt_add_left hj _
    _ = (m + 1) * nb := (Nat.succ_mul m nb).symm
    _ ≤ r * nb := Nat.mul_le_mul_right nb hm

theorem tmmaRow_getD {m k : Nat} (hm : m < 16) (hk : k < tmmaBlocks x c) : ((tmmaRow x c k).getD m ([], 0)).1 =
    blockValues c.mem x.fn (sreg c x.a).toNat (sreg c (bits x.w1.toNat 0 5)).toNat (m * tmmaBlocks x c + k) := by
  rw [tmmaRow, getD_map_range _ hm, operandBlock_values _ _ _ _ (block_lt hm hk)]

theorem tmmaCol_getD {n k : Nat} (hn : n < 64) (hk : k < tmmaBlocks x c) : ((tmmaCol x c k).getD n ([], 0)).1 =
    blockValues c.mem x.t (sreg c x.b).toNat (sreg c (bits x.w1.toNat 5 5)).toNat (n * tmmaBlocks x c + k) := by
  rw [tmmaCol, getD_map_range _ hn, operandBlock_values _ _ _ _ (block_lt hn hk)]

/-- Element [m][n] of the tile that tmma leaves. -/
theorem tmmaTile_getD {m n : Nat} (hm : m < 16) (hn : n < 64) : (tmmaTile x c).1.getD (64 * m + n) 0 =
    (List.range (tmmaBlocks x c - c.tmma.getD 0)).foldl (fun t k =>
      BitVec.ofNat 32 (addNum fmt32 (rneOf c.status) (decodeF fmt32 t.toNat) (dotBlock
        (blockValues c.mem x.fn (sreg c x.a).toNat (sreg c (bits x.w1.toNat 0 5)).toNat (m * tmmaBlocks x c + (c.tmma.getD 0 + k)))
        (blockValues c.mem x.t (sreg c x.b).toNat (sreg c (bits x.w1.toNat 5 5)).toNat (n * tmmaBlocks x c + (c.tmma.getD 0 + k)))).1).1)
      ((treg c x.d).getD (64 * m + n) 0) := by
  rw [tmmaTile, tmmaRun_getD _ _ _ (by omega)]
  refine List.foldl_ext _ _ _ fun t k hk => ?_
  have hblock : c.tmma.getD 0 + k < tmmaBlocks x c := by
    have hlt := List.mem_range.1 hk
    omega
  rw [tmmaElem, show (64 * m + n) / 64 = m by omega, show (64 * m + n) % 64 = n by omega, tmmaRow_getD hm hblock,
    tmmaCol_getD hn hblock]

end

/-- Settles O20: `tmmaBody` runs its blocks from the one it is at, and each element is the fold of `tmmaRun_getD`. -/
theorem tensorProductRoundsOncePerBlock : Obligations.TensorProductRoundsOncePerBlock := by
  unfold Obligations.TensorProductRoundsOncePerBlock
  intro s x hgo c nb a b sa sb la lb scale values first
  refine ⟨fun hd hnb hpair ha hb hsa hsb => ⟨(tmmaTile x c).1, (tmmaTile x c).2,
    cellNext_of_ok hgo rfl (tmmaBody_done hd hnb hpair ha hb hsa hsb), fun m n hm hn _ => ?_⟩,
    fun h hhandled => cellTraps_of_exc hgo rfl hhandled (tmmaBody_illegal h)⟩
  exact tmmaTile_getD hm hn

end Sys2Proof.Machine
end

section
/-! Wide accumulators as later proofs read them (R208, R220 to R222, R224): lanes, binary point, and the status register. -/

namespace Sys2Proof.Machine

/-! ### The status register -/

/-- ORing flags into a field is ORing them, in place, into the word. -/
theorem putField_or {st : Word} {lo w : Nat} (h : lo + w ≤ 64) (f : Nat) :
    putField st lo w (bits st.toNat lo w ||| f) = st ||| BitVec.ofNat 64 (f % 2 ^ w * 2 ^ lo) := by
  refine BitVec.eq_of_getLsbD_eq fun i hi => ?_
  rw [← BitVec.testBit_toNat, testBit_putField _ _ _ _ h, BitVec.getLsbD_or, BitVec.getLsbD_ofNat, decide_eq_true hi, Bool.true_and,
    testBit_field, Nat.testBit_or, bits, Nat.testBit_mod_two_pow, Nat.testBit_div_two_pow, ← BitVec.testBit_toNat]
  by_cases hin : lo ≤ i ∧ i < lo + w
  · have hplace : i - lo < w := by omega
    simp [hin, hplace]
  · simp [hin]

/-- The status register after flags `f` of accumulator `j` and arithmetic flags `g` are set. -/
def wideStatus (st : Word) (j f g : Nat) : Word := st ||| BitVec.ofNat 64 (f % 2 ^ 4 * 2 ^ (16 + 4 * j)) ||| BitVec.ofNat 64 g

theorem wideStatus_comm (st : Word) (j f g f' g' : Nat) :
    wideStatus (wideStatus st j f g) j f' g' = wideStatus (wideStatus st j f' g') j f g := by
  unfold wideStatus
  ac_rfl

theorem wideStatus_getLsbD (st : Word) (j f g : Nat) {i : Nat} (hi : i < 64) : (wideStatus st j f g).getLsbD i =
    (st.getLsbD i || (decide (16 + 4 * j ≤ i ∧ i < 16 + 4 * j + 4) && f.testBit (i - (16 + 4 * j))) || g.testBit i) := by
  simp only [wideStatus, BitVec.getLsbD_or, BitVec.getLsbD_ofNat, decide_eq_true hi, Bool.true_and, testBit_field]

section
variable (c : Cell) {j : Nat} (hj : j ≤ 3)
include hj

theorem orWflags_eq (f : Nat) : orWflags c j f = { c with status := wideStatus c.status j f 0 } := by
  rw [orWflags, setWflags, wflags, putField_or (by omega)]
  simp [wideStatus]

theorem raise_orWflags (f g : Nat) : raise (orWflags c j f) g = { c with status := wideStatus c.status j f g } := by
  rw [orWflags_eq c hj, raise]
  simp [wideStatus, orFlags]

end

/-! ### Lanes -/

/-- Lanes after an addition to each, modulo 2^192. -/
def addLanes (l : List (BitVec 192)) (v : Nat → BitVec 192) : List (BitVec 192) := (List.range 64).map fun k => l.getD k 0 + v k

theorem addLanes_getD (l : List (BitVec 192)) (v : Nat → BitVec 192) {k : Nat} (hk : k < 64) :
    (addLanes l v).getD k 0 = l.getD k 0 + v k := getD_map_range _ hk 0

theorem addLanes_comm (l : List (BitVec 192)) (v w : Nat → BitVec 192) :
    addLanes (addLanes l v) w = addLanes (addLanes l w) v := by
  refine List.map_congr_left fun k hk => ?_
  rw [addLanes_getD _ _ (List.mem_range.1 hk), addLanes_getD _ _ (List.mem_range.1 hk), add_right_comm]

@[simp] theorem wreg_setW_same (c : Cell) (j : Nat) (w : Wide) : wreg (setW c j w) j = w := by
  simp [wreg, setW]

@[simp] theorem wreg_updStatus (c : Cell) (st : Word) (j : Nat) : wreg { c with status := st } j = wreg c j := rfl

/-! ### Additions (R221, R222) -/

/-- What a list of addends adds to the lanes of an accumulator of binary point `b`, and the flags that it sets. -/
def addends (b : Int) (ps : List (Num × Nat)) (k : Nat) : BitVec 192 := BitVec.ofInt 192 ((ps.map fun p => gridAddend b p.1).getD k (0, 0)).1
def addendFlags (b : Int) (ps : List (Num × Nat)) : Nat := (ps.map fun p => gridAddend b p.1).foldl (fun a y => a ||| y.2) 0
def arithFlags (ps : List (Num × Nat)) : Nat := ps.foldl (fun a p => a ||| p.2) 0

theorem wideAdd_eq (c : Cell) {j : Nat} (hj : j ≤ 3) (ps : List (Num × Nat)) : wideAdd c j ps =
    { setW c j ⟨addLanes (wreg c j).lanes (addends (wreg c j).b ps), (wreg c j).b⟩ with
      status := wideStatus c.status j (addendFlags (wreg c j).b ps) (arithFlags ps) } :=
  raise_orWflags _ hj _ _

theorem wreg_wideAdd (c : Cell) {j : Nat} (hj : j ≤ 3) (ps : List (Num × Nat)) :
    wreg (wideAdd c j ps) j = ⟨addLanes (wreg c j).lanes (addends (wreg c j).b ps), (wreg c j).b⟩ := by
  rw [wideAdd_eq c hj, wreg_updStatus, wreg_setW_same]

theorem status_wideAdd (c : Cell) {j : Nat} (hj : j ≤ 3) (ps : List (Num × Nat)) :
    (wideAdd c j ps).status = wideStatus c.status j (addendFlags (wreg c j).b ps) (arithFlags ps) := by
  rw [wideAdd_eq c hj]

/-! ### Merges (R224) -/

/-- An accumulator after a merge, and the flags that the merge sets. -/
def mergeWide (w : Wide) (r : Int × Nat × List (BitVec 192)) : Wide :=
  if r.1 = w.b then ⟨addLanes w.lanes fun k => r.2.2.getD k 0, w.b⟩ else w
def mergeFlags (b : Int) (r : Int × Nat × List (BitVec 192)) : Nat × Nat := if r.1 = b then (r.2.1, 0) else (wNAN, fINVALID)

theorem mergeWide_b (w : Wide) (r : Int × Nat × List (BitVec 192)) : (mergeWide w r).b = w.b := by
  unfold mergeWide
  split <;> rfl

theorem mergeWide_comm (w : Wide) (r u : Int × Nat × List (BitVec 192)) :
    mergeWide (mergeWide w r) u = mergeWide (mergeWide w u) r := by
  by_cases hr : r.1 = w.b <;> by_cases hu : u.1 = w.b
  · simp only [mergeWide, hr, hu, if_true, addLanes_comm w.lanes fun k => r.2.2.getD k 0]
  · simp only [mergeWide, hr, hu, if_true, if_false]
  · simp only [mergeWide, hr, hu, if_true, if_false]
  · simp only [mergeWide, hr, hu, if_false]

section
variable (c : Cell) {j : Nat} (hj : j ≤ 3) {r : Int × Nat × List (BitVec 192)}
include hj

theorem mergeRecord_of_differs (h : r.1 ≠ (wreg c j).b) :
    mergeRecord c j r = { c with status := wideStatus c.status j wNAN fINVALID } := by
  unfold mergeRecord
  exact (if_pos h).trans (raise_orWflags c hj _ _)

theorem mergeRecord_of_same (h : r.1 = (wreg c j).b) : mergeRecord c j r =
    { setW c j ⟨addLanes (wreg c j).lanes fun k => r.2.2.getD k 0, (wreg c j).b⟩ with status := wideStatus c.status j r.2.1 0 } := by
  unfold mergeRecord
  exact (if_neg (not_not_intro h)).trans (orWflags_eq _ hj _)

theorem wreg_mergeRecord (r : Int × Nat × List (BitVec 192)) : wreg (mergeRecord c j r) j = mergeWide (wreg c j) r := by
  by_cases h : r.1 = (wreg c j).b
  · rw [mergeRecord_of_same c hj h, wreg_updStatus, wreg_setW_same, mergeWide, if_pos h]
  · rw [mergeRecord_of_differs c hj h, wreg_updStatus, mergeWide, if_neg h]

theorem status_mergeRecord (r : Int × Nat × List (BitVec 192)) : (mergeRecord c j r).status =
    wideStatus c.status j (mergeFlags (wreg c j).b r).1 (mergeFlags (wreg c j).b r).2 := by
  by_cases h : r.1 = (wreg c j).b
  · rw [mergeRecord_of_same c hj h, mergeFlags, if_pos h]
  · rw [mergeRecord_of_differs c hj h, mergeFlags, if_neg h]

end

/-- Settles O23: lanes add and flags OR, each in any order, and neither changes the binary point. -/
theorem wideSumsDependOnNoOrder : Obligations.WideSumsDependOnNoOrder := by
  unfold Obligations.WideSumsDependOnNoOrder
  refine fun c j hj => ⟨fun p q _ => ⟨?_, ?_⟩, fun r u _ _ => ⟨?_, ?_⟩⟩
  · rw [wreg_wideAdd _ hj, wreg_wideAdd _ hj, wreg_wideAdd _ hj, wreg_wideAdd _ hj, addLanes_comm]
  · rw [status_wideAdd _ hj, status_wideAdd _ hj, status_wideAdd _ hj, status_wideAdd _ hj, wreg_wideAdd _ hj, wreg_wideAdd _ hj,
      wideStatus_comm]
  · rw [wreg_mergeRecord _ hj, wreg_mergeRecord _ hj, wreg_mergeRecord _ hj, wreg_mergeRecord _ hj, mergeWide_comm]
  · rw [status_mergeRecord _ hj, status_mergeRecord _ hj, status_mergeRecord _ hj, status_mergeRecord _ hj, wreg_mergeRecord _ hj,
      wreg_mergeRecord _ hj, mergeWide_b, mergeWide_b, wideStatus_comm]

end Sys2Proof.Machine
end

section
/-! wclr, wadd.f32 and wmac.f32 (R208, R220 to R222). -/

namespace Sys2Proof.Machine

/-! ### The arithmetic flags of addends: INVALID alone -/

/-- Flags among which only INVALID can be. -/
def OnlyInvalid (f : Nat) : Prop := ∀ i, f.testBit i = true → i = 8

theorem onlyInvalid_zero : OnlyInvalid 0 := fun i h => by simp at h

theorem onlyInvalid_fINVALID : OnlyInvalid fINVALID := fun i h => by
  rw [show fINVALID = 2 ^ 8 from rfl, Nat.testBit_two_pow] at h
  exact (of_decide_eq_true h).symm

theorem OnlyInvalid.lor {f g : Nat} (hf : OnlyInvalid f) (hg : OnlyInvalid g) : OnlyInvalid (f ||| g) := fun i h => by
  rw [Nat.testBit_or, Bool.or_eq_true] at h
  exact h.elim (hf i) (hg i)

theorem onlyInvalid_sigFlag (f : Fmt) (a : Nat) : OnlyInvalid (sigFlag f a) := by
  unfold sigFlag
  split
  · exact onlyInvalid_fINVALID
  · exact onlyInvalid_zero

theorem onlyInvalid_mulNum (a b : Num) : OnlyInvalid (mulNum a b).2 := by
  unfold mulNum
  split
  case h_4 | h_5 =>
    split
    · exact onlyInvalid_fINVALID
    · exact onlyInvalid_zero
  all_goals exact onlyInvalid_zero

theorem onlyInvalid_arithFlags {ps : List (Num × Nat)} (h : ∀ p ∈ ps, OnlyInvalid p.2) : OnlyInvalid (arithFlags ps) := fun i hi => by
  rcases (testBit_foldl_lor _ i ps 0).1 hi with hzero | ⟨p, hp, hbit⟩
  · simp at hzero
  · exact h p hp i hbit

/-! ### An addition to every lane -/

/-- What R220 to R222 say of an item that adds `p k` to lane `k` of accumulator D: the lanes modulo 2^192, the accumulator's four
flags, and nothing else but the arithmetic flags of the status register. -/
def AddsOnGrid (i : Instr) (s : State) (x : CellItem) (p : Nat → Num) : Prop :=
  let c := s.cell x.cell
  ∃ (w : Wide) (st : Word), CellNext i s x 0 { setW c x.d w with status := st } ∧ w.b = (wreg c x.d).b ∧
    (∀ k, k < 64 → w.lanes.getD k 0 = (wreg c x.d).lanes.getD k 0 + BitVec.ofInt 192 (gridAddend w.b (p k)).1) ∧
    (∀ j, j < 4 → ((bits st.toNat (16 + 4 * x.d) 4).testBit j = true ↔
      (bits c.status.toNat (16 + 4 * x.d) 4).testBit j = true ∨ ∃ k, k < 64 ∧ (gridAddend w.b (p k)).2.testBit j = true)) ∧
    (∀ j, j < 64 → (j < 8 ∨ 14 ≤ j) → (j < 16 + 4 * x.d ∨ 20 + 4 * x.d ≤ j) → st.getLsbD j = c.status.getLsbD j)

section
variable {s : State} {x : CellItem} {i : Instr} (hd : x.d ≤ 3) {p : Nat → Num} {g : Nat → Nat} (hg : ∀ k, OnlyInvalid (g k))

/-- The flags of an accumulator after an addition: those it had and those of its addends. -/
theorem testBit_addendFlags (b : Int) (j : Nat) : (addendFlags b ((List.range 64).map fun k => (p k, g k))).testBit j = true ↔
    ∃ k, k < 64 ∧ (gridAddend b (p k)).2.testBit j = true := by
  rw [addendFlags, testBit_foldl_lor]
  simp

include hd hg

/-- An item that adds `p k`, with arithmetic flags `g k`, to lane `k` of accumulator D. -/
theorem addsOnGrid_of_wideAdd (h : CellNext i s x 0 (wideAdd (s.cell x.cell) x.d ((List.range 64).map fun k => (p k, g k)))) :
    AddsOnGrid i s x p := by
  have hclean : OnlyInvalid (arithFlags ((List.range 64).map fun k => (p k, g k))) := onlyInvalid_arithFlags fun y hy => by
    obtain ⟨k, -, rfl⟩ := List.mem_map.1 hy
    exact hg k
  rw [wideAdd_eq _ hd] at h
  refine ⟨_, _, h, rfl, fun k hk => ?_, fun j hj => ?_, fun j hj hlow hout => ?_⟩
  · rw [addLanes_getD _ _ hk, addends, List.map_map, getD_map_range _ hk]
    rfl
  · have hplace : 16 + 4 * x.d + j < 64 := by omega
    have hother : (arithFlags ((List.range 64).map fun k => (p k, g k))).testBit (16 + 4 * x.d + j) = false :=
      Bool.eq_false_iff.2 fun hbit => absurd (hclean _ hbit) (by omega)
    rw [← testBit_addendFlags (g := g), bits, bits, Nat.testBit_mod_two_pow, Nat.testBit_mod_two_pow, Nat.testBit_div_two_pow,
      Nat.testBit_div_two_pow, BitVec.testBit_toNat, BitVec.testBit_toNat, Nat.add_comm j, wideStatus_getLsbD _ _ _ _ hplace, hother]
    simp [hj]
  · have hother : (arithFlags ((List.range 64).map fun k => (p k, g k))).testBit j = false :=
      Bool.eq_false_iff.2 fun hbit => absurd (hclean _ hbit) (by omega)
    have hfield : ¬ (16 + 4 * x.d ≤ j ∧ j < 16 + 4 * x.d + 4) := by omega
    rw [wideStatus_getLsbD _ _ _ _ hj, hother, decide_eq_false hfield]
    simp

end

/-! ### Addends on the grid -/

theorem gridAddend_fin {b e : Int} (h : 0 ≤ e + b) (neg : Bool) (m : Nat) : gridAddend b (.fin neg m e) =
    if 2 ^ 175 ≤ m * 2 ^ (e + b).toNat then (0, wOVF) else (smant neg (m * 2 ^ (e + b).toNat), 0) := by
  rw [gridAddend, roundShift_of_nonpos (by omega), neg_neg]

/-- An addend sets none but the four flags NAN, PINF, NINF and OVF. -/
theorem gridAddend_flags_lt (b : Int) (p : Num) : (gridAddend b p).2 < 2 ^ 4 := by
  cases p with
  | nan => exact (by decide : wNAN < 2 ^ 4)
  | inf neg =>
    cases neg with
    | false => exact (by decide : wPINF < 2 ^ 4)
    | true => exact (by decide : wNINF < 2 ^ 4)
  | fin neg m e =>
    rw [gridAddend]
    split
    · exact (by decide : wOVF < 2 ^ 4)
    · exact (by decide : 0 < 2 ^ 4)

/-! ### The items -/

section
variable {s : State} {x : CellItem} (hgo : CellGo s x 0)
include hgo

theorem wide_traps (hd : 3 < x.d) (hhandled : handled (s.cell x.cell) 2 = true) :
    CellTraps (.wclr x) s x 2 ∧ CellTraps (.waddF32 x) s x 2 ∧ CellTraps (.wmacF32 x) s x 2 :=
  ⟨cellTraps_of_checked hgo rfl hhandled (if_pos hd), cellTraps_of_checked hgo rfl hhandled (if_pos hd),
    cellTraps_of_checked hgo rfl hhandled (if_pos hd)⟩

variable (hd : x.d ≤ 3)
include hd

theorem wclr_clears : CellNext (.wclr x) s x 0 { setW (s.cell x.cell) x.d ⟨List.replicate 64 0, (x.imm.setWidth 9).toInt⟩ with
    status := putField (s.cell x.cell).status (16 + 4 * x.d) 4 0 } := by
  have himm : (x.imm.setWidth 9).toInt = sgn x.imm.toNat 9 := by
    rw [sgn_eq_toInt (by decide)]
    congr 1
  rw [himm]
  exact cellNext_of_checked hgo rfl (if_neg (Nat.not_lt.2 hd))

theorem waddF32_addsOnGrid : AddsOnGrid (.waddF32 x) s x fun k => decodeF fmt32 (lane (s.cell x.cell) x.a k).toNat :=
  addsOnGrid_of_wideAdd hd (fun k => onlyInvalid_sigFlag fmt32 (lane (s.cell x.cell) x.a k).toNat)
    (cellNext_of_checked hgo rfl (if_neg (Nat.not_lt.2 hd)))

theorem wmacF32_addsOnGrid : AddsOnGrid (.wmacF32 x) s x fun k =>
    (mulNum (decodeF fmt32 (lane (s.cell x.cell) x.a k).toNat) (decodeF fmt32 (lane (s.cell x.cell) x.b k).toNat)).1 :=
  addsOnGrid_of_wideAdd hd (fun k => ((onlyInvalid_mulNum _ _).lor (onlyInvalid_sigFlag fmt32 (lane (s.cell x.cell) x.a k).toNat)).lor
    (onlyInvalid_sigFlag fmt32 (lane (s.cell x.cell) x.b k).toNat)) (cellNext_of_checked hgo rfl (if_neg (Nat.not_lt.2 hd)))

end

/-! ### The statement -/

/-- Refutes O22: its flags clause reads `∀ j, j < 4 → A j ↔ B j`, which Lean brackets as `(j < 4 → A j) ↔ B j`. At j = 4 the left side
holds of itself, and the right side says that an accumulator of four flags has or gains a fifth. Any wadd.f32 that executes
refutes it; here one of w0 on a cell at the start of the search galley's window. With the bracket in the place meant, the clauses
hold: `wclr_clears`, `waddF32_addsOnGrid`, `wmacF32_addsOnGrid`, `wide_traps` and `gridAddend_fin`. -/
theorem not_wideAccumulatorsAddOnTheGrid : ¬ Obligations.WideAccumulatorsAddOnTheGrid := by
  unfold Obligations.WideAccumulatorsAddOnTheGrid
  rintro ⟨hitems, -⟩
  have hgo : CellGo { State.reset with cells := [(0, { cell0 with run := .running, pc := 3584, slice := 4 })] }
      ⟨0, 0, 0, 0, 0, 0, false, 0, 0, 0, 0⟩ 0 := by
    refine ⟨?_, ?_, ?_, ?_⟩ <;> decide
  obtain ⟨-, ⟨w, st, -, -, -, hflags, -⟩, -⟩ := (hitems _ _ hgo).1 (by decide)
  rcases (hflags 4).1 (fun hlt => absurd hlt (by decide)) with hold | ⟨k, -, hgained⟩
  · exact Bool.false_ne_true ((Nat.testBit_lt_two_pow (Nat.mod_lt _ (by decide))).symm.trans hold)
  · exact Bool.false_ne_true ((Nat.testBit_lt_two_pow (gridAddend_flags_lt _ _)).symm.trans hgained)

end Sys2Proof.Machine
end

section
/-! wcvt and wmrg (R223, R224). -/

namespace Sys2Proof.Machine

/-! ### One lane of wcvt (R223) -/

section
variable (f : Fmt) (md : RMode) {fl : Nat} (b : Int) (n : BitVec 192)

/-- The overflow result: an infinity, or under SAT the largest finite number. -/
def wideOverflow (f : Fmt) (md : RMode) (neg : Bool) : FRes :=
  (if md.sat then maxBits f neg else infBits f neg, fOVERFLOW ||| fINEXACT)

theorem wcvtLane_nan (h : fl.testBit 0 = true ∨ (fl.testBit 1 = true ∧ fl.testBit 2 = true)) :
    wcvtLane f md fl b n = (nanBits f, 0) := by
  simp only [← bitOf_eq_testBit] at h
  exact if_pos (by simpa using h)

theorem wcvtLane_posInf : wcvtLane f md 2 b n = (infBits f false, 0) := rfl

theorem wcvtLane_negInf : wcvtLane f md 4 b n = (infBits f true, 0) := rfl

theorem wcvtLane_overflow : wcvtLane f md 8 b n = wideOverflow f md (decide (n.toInt < 0)) := rfl

/-- Without a flag a lane overflows from 2^175 up in magnitude. -/
theorem wcvtLane_clear : wcvtLane f md 0 b n =
    if 2 ^ 175 ≤ n.toInt ∨ n.toInt < -(2 ^ 175) then wideOverflow f md (decide (n.toInt < 0))
    else roundTo f md (decide (n.toInt < 0)) n.toInt.natAbs (-b) := by
  by_cases h : 2 ^ 175 ≤ n.toInt ∨ n.toInt < -(2 ^ 175)
  · rw [if_pos h]
    exact if_pos (by simpa [bitOf, or_comm] using h)
  · rw [if_neg h]
    exact if_neg (by simpa [bitOf, or_comm] using h)

end

/-! ### wcvt -/

section
variable {s : State} {x : CellItem} {f : Fmt}

/-- What wcvt makes of lane `k`. -/
def wcvtResult (s : State) (c : Cell) (x : CellItem) (f : Fmt) (k : Nat) : FRes :=
  freeHalf s k (decide (f.bits = 16)) (wcvtLane f (modeOf c.status) (wflags c x.a) (wreg c x.a).b ((wreg c x.a).lanes.getD k 0))

theorem wcvtBody_done {c : Cell} (ha : x.a ≤ 3) (hf : floatType x.t = some f) : wcvtBody x s c =
    .ok { s with freeCtr := s.freeCtr + 64 } (writeF c x ((List.range 64).map (wcvtResult s c x f))) := by
  unfold wcvtBody
  rw [if_neg (Nat.not_lt.2 ha), hf]
  refine congrArg (fun rs => CellOut.ok _ (writeF c x rs)) (List.map_congr_left fun k _ => ?_)
  simp only [wcvtResult, freeHalf, decide_eq_true_eq]

/-- The bits of a format in a lane whose upper half may be free. -/
theorem freeHalf_bits (hf : f ∈ [fmt32, fmt16, fmtBf]) (s : State) (k : Nat) (r : FRes) :
    (BitVec.ofNat 32 (freeHalf s k (decide (f.bits = 16)) r).1).toNat % 2 ^ f.bits = r.1 % 2 ^ f.bits := by
  simp only [List.mem_cons, List.not_mem_nil, or_false] at hf
  rcases hf with rfl | rfl | rfl
  · exact (congrArg (· % 2 ^ 32) (BitVec.toNat_ofNat ..)).trans (Nat.mod_mod _ _)
  · exact freeHalf_low s k r
  · exact freeHalf_low s k r

theorem wcvt_lanes (hgo : CellGo s x 0) (hmem : (x.t, f) ∈ [(0, fmt32), (1, fmt16), (2, fmtBf)]) (ha : x.a ≤ 3) :
    let c := s.cell x.cell
    let w := wreg c x.a
    ∃ (l : List (BitVec 32)) (g : Nat), l.length = 64 ∧ CellDraws (.wcvt x) s x 0 64 (raise (setV c x.d l) g) ∧
      ∀ k, k < 64 → if (preg c x.p).getLsbD k then
          (l.getD k 0).toNat % 2 ^ f.bits = (wcvtLane f (modeOf c.status) (wflags c x.a) w.b (w.lanes.getD k 0)).1 % 2 ^ f.bits
        else l.getD k 0 = if x.pz then 0 else lane c x.d k := by
  intro c w
  have hformat : f ∈ [fmt32, fmt16, fmtBf] := List.mem_map_of_mem (f := Prod.snd) hmem
  obtain ⟨l, g, hlen, hdraw, hlane⟩ :=
    cellDraws_lanes (cellDraws_of_ok (i := .wcvt x) hgo rfl (wcvtBody_done ha (floatType_of_mem hmem)))
  refine ⟨l, g, hlen, hdraw, fun k hk => ?_⟩
  rw [hlane k hk]
  by_cases hon : (preg c x.p).getLsbD k = true
  · rw [if_pos hon, if_pos hon]
    exact freeHalf_bits hformat ..
  · rw [if_neg hon, if_neg hon]

end

/-! ### wmrg -/

section
variable {s : State} {x : CellItem} (hd : x.d ≤ 3)
include hd

/-- The record in receive slot IMM of a cell. -/
def slotRecord (c : Cell) (x : CellItem) : Int × Nat × List (BitVec 192) := recordOf (rdBytes c.mem (recvAddr x.imm.toNat) 1544)

theorem bits_wideStatus (st : Word) (f : Nat) :
    bits (wideStatus st x.d f 0).toNat (16 + 4 * x.d) 4 = (bits st.toNat (16 + 4 * x.d) 4 ||| f) % 16 := by
  have hfield : 16 + 4 * x.d + 4 ≤ 64 := by omega
  have hput : wideStatus st x.d f 0 = putField st (16 + 4 * x.d) 4 (bits st.toNat (16 + 4 * x.d) 4 ||| f) := by
    rw [putField_or hfield]
    simp [wideStatus]
  rw [hput]
  exact bits_putField_same _ _ _ _ hfield

variable (himm : x.imm.toNat ≤ 30)
include himm

theorem wmrgBody_done {c : Cell} (hrecv : mget c.recv x.imm.toNat = none)
    (hclean : ∀ u ∈ memUnits (recvAddr x.imm.toNat) 1544, u ∉ c.poison ∧ u ∉ c.weak) :
    wmrgBody x s c = .ok s (mergeRecord c x.d (slotRecord c x)) := by
  have hstale : recvStale s c x.imm.toNat = false := by rw [recvStale, hrecv]
  unfold wmrgBody
  rw [if_neg (by omega), hstale, if_neg (by simp), show wideBytes = 1544 from rfl,
    any_contains_eq_false fun u hu => (hclean u hu).1, countP_contains_eq_zero fun u hu => (hclean u hu).2]
  rfl

variable (hgo : CellGo s x 0) (hrecv : mget (s.cell x.cell).recv x.imm.toNat = none)
  (hclean : ∀ u ∈ memUnits (recvAddr x.imm.toNat) 1544, u ∉ (s.cell x.cell).poison ∧ u ∉ (s.cell x.cell).weak)
include hgo hrecv hclean

theorem wmrg_of_differs (hne : (slotRecord (s.cell x.cell) x).1 ≠ (wreg (s.cell x.cell) x.d).b) :
    CellNext (.wmrg x) s x 0 { s.cell x.cell with status := wideStatus (s.cell x.cell).status x.d wNAN fINVALID } :=
  cellNext_of_ok hgo rfl (by rw [wmrgBody_done hd himm hrecv hclean, mergeRecord_of_differs _ hd hne])

theorem wmrg_of_same (heq : (slotRecord (s.cell x.cell) x).1 = (wreg (s.cell x.cell) x.d).b) :
    CellNext (.wmrg x) s x 0 { setW (s.cell x.cell) x.d
        ⟨addLanes (wreg (s.cell x.cell) x.d).lanes fun k => (slotRecord (s.cell x.cell) x).2.2.getD k 0, (wreg (s.cell x.cell) x.d).b⟩ with
      status := wideStatus (s.cell x.cell).status x.d (slotRecord (s.cell x.cell) x).2.1 0 } :=
  cellNext_of_ok hgo rfl (by rw [wmrgBody_done hd himm hrecv hclean, mergeRecord_of_same _ hd heq])

end

/-! ### The statement -/

/-- Settles O24: wcvt by the flags of its accumulator, wmrg by whether the record has the accumulator's binary point. -/
theorem wideResultsLeaveAndMerge : Obligations.WideResultsLeaveAndMerge := by
  unfold Obligations.WideResultsLeaveAndMerge
  refine ⟨fun s x hgo => ⟨fun f => wcvt_lanes hgo, ?_⟩, fun f md b n _ => ?_⟩
  · intro r v hd himm hrecv hclean
    refine ⟨fun hne => ⟨_, wmrg_of_differs hd himm hgo hrecv hclean hne, ?_, ?_⟩,
      fun heq => ⟨_, _, wmrg_of_same hd himm hgo hrecv hclean heq, rfl, fun k hk => ?_, ?_⟩⟩
    · rw [wideStatus_getLsbD _ _ _ _ (by omega), decide_eq_true (by omega), Nat.sub_self, (by decide : wNAN.testBit 0 = true)]
      simp
    · rw [wideStatus_getLsbD _ _ _ _ (by omega), (by decide : fINVALID.testBit 8 = true), Bool.or_true]
    · rw [addLanes_getD _ _ hk]
      rfl
    · exact bits_wideStatus hd _ _
  · intro full
    refine ⟨fun fl => wcvtLane_nan f md b n, wcvtLane_posInf f md b n, wcvtLane_negInf f md b n,
      wcvtLane_overflow f md b n, fun hout => ?_, fun hlo hhi => ?_⟩
    · rw [wcvtLane_clear, if_pos hout]
      rfl
    · rw [wcvtLane_clear, if_neg (by omega)]

end Sys2Proof.Machine
end

section
/-! Scalar items, comparisons, branches, exceptions and special registers (R230, R238 to R241, R270). -/

namespace Sys2Proof.Machine

/-! ### Integer types (R235) -/

/-- The integer types as the statements list them, with their width in bytes. -/
theorem intType_of_mem {t w : Nat} {signed : Bool}
    (h : (t, w, signed) ∈ [(16, 1, true), (17, 1, false), (18, 2, true), (19, 2, false), (20, 4, true), (21, 4, false),
      (22, 8, true), (23, 8, false)]) : intType t = some (8 * w, signed) ∧ 0 < w ∧ w ≤ 8 := by
  simp only [List.mem_cons, Prod.mk.injEq, List.not_mem_nil, or_false] at h
  rcases h with ⟨rfl, rfl, rfl⟩ | ⟨rfl, rfl, rfl⟩ | ⟨rfl, rfl, rfl⟩ | ⟨rfl, rfl, rfl⟩ | ⟨rfl, rfl, rfl⟩ | ⟨rfl, rfl, rfl⟩ |
    ⟨rfl, rfl, rfl⟩ | ⟨rfl, rfl, rfl⟩ <;> exact ⟨rfl, by decide, by decide⟩

theorem intType_none {t : Nat} (h : t < 16 ∨ 23 < t) : intType t = none := by
  unfold intType
  iterate 8 rw [if_neg (by omega)]

theorem intType_signed {t : Nat} (h : t ∈ [16, 18, 20, 22]) : ∃ w, intType t = some (w, true) := by
  simp only [List.mem_cons, List.not_mem_nil, or_false] at h
  rcases h with rfl | rfl | rfl | rfl <;> exact ⟨_, rfl⟩

theorem intType_unsigned {t : Nat} (h : t ∈ [17, 19, 21, 23]) : ∃ w, intType t = some (w, false) := by
  simp only [List.mem_cons, List.not_mem_nil, or_false] at h
  rcases h with rfl | rfl | rfl | rfl <;> exact ⟨_, rfl⟩

/-! ### Whole registers as numbers -/

theorem atType_signed (v : Word) : atType 64 true v.toNat = v.toInt := by
  change sgn v.toNat 64 = _
  rw [sgn_eq_toInt (by decide), BitVec.ofNat_toNat, BitVec.setWidth_eq]

theorem atType_unsigned (v : Word) : atType 64 false v.toNat = v.toNat := by
  change ((v.toNat % 2 ^ 64 : Nat) : Int) = _
  rw [Nat.mod_eq_of_lt v.isLt]

/-! ### cmp (R241) -/

section
variable {x : CellItem} {c : Cell}

theorem cmpBody_of_type {w : Nat} {signed : Bool} (ht : intType x.t = some (w, signed)) (hfn : x.fn ≤ 5) :
    cmpBody x c = some (setS c x.d
      (if relates x.fn (atType 64 signed (sreg c x.a).toNat) (atType 64 signed (opB c x).toNat) then 1 else 0)) := by
  rw [cmpBody, ht]
  dsimp only
  rw [if_neg (Nat.not_lt.2 hfn), condHolds_ordInt]
  cases relates x.fn _ _ <;> rfl

theorem cmpBody_illegal (h : 5 < x.fn ∨ x.t < 16 ∨ 23 < x.t) : cmpBody x c = none := by
  unfold cmpBody
  rcases h with hfn | ht
  · cases intType x.t with
    | none => rfl
    | some y => exact if_pos hfn
  · rw [intType_none ht]

end

theorem scalarItem_next {s : State} {x : CellItem} {i : Instr} {op : Word → Word → Word} (hgo : CellGo s x 0)
    (hexec : exec i s = scalarItem x op s) :
    CellNext i s x 0 (setS (s.cell x.cell) x.d (op (sreg (s.cell x.cell) x.a) (opB (s.cell x.cell) x))) :=
  cellNext_of_reg hgo hexec

/-- Settles O6: each item is a register item, and cmp decides by its condition on the values of its type. -/
theorem scalarAndCompareItems : Obligations.ScalarAndCompareItems := by
  unfold Obligations.ScalarAndCompareItems
  constructor
  · intro s x c a b
    refine ⟨fun hgo => ⟨cellNext_of_reg (f := id) hgo rfl, ?_, ?_, ?_, ?_, ?_, ?_, ?_, ?_, ?_⟩,
      fun hgo => cellNext_of_reg (f := fun c => setS c x.d x.w1) hgo rfl⟩
    · exact scalarItem_next (op := (· + ·)) hgo rfl
    · exact scalarItem_next (op := (· - ·)) hgo rfl
    · exact scalarItem_next (op := (· * ·)) hgo rfl
    · exact scalarItem_next (op := (· &&& ·)) hgo rfl
    · exact scalarItem_next (op := (· ||| ·)) hgo rfl
    · exact scalarItem_next (op := (· ^^^ ·)) hgo rfl
    · exact scalarItem_next (op := fun a b => a <<< shiftOf b) hgo rfl
    · exact scalarItem_next (op := fun a b => a >>> shiftOf b) hgo rfl
    · exact scalarItem_next (op := fun a b => a.sshiftRight (shiftOf b)) hgo rfl
  · intro s x hgo c a b
    refine ⟨fun hfn ht => ?_, fun hfn ht => ?_, fun hbad hhandled => cellTraps_of_checked hgo rfl hhandled (cmpBody_illegal hbad)⟩
    · obtain ⟨w, ht⟩ := intType_signed ht
      have hbody := cmpBody_of_type (c := c) ht hfn
      rw [atType_signed, atType_signed] at hbody
      exact cellNext_of_checked hgo rfl hbody
    · obtain ⟨w, ht⟩ := intType_unsigned ht
      have hbody := cmpBody_of_type (c := c) ht hfn
      rw [atType_unsigned, atType_unsigned] at hbody
      exact cellNext_of_checked hgo rfl hbody

/-! ### Branches (R241, R270) -/

section
variable {s : State} {x : CellItem} {ext : Nat} {i : Instr} {body : State → Cell → CellOut}

theorem exec_of_jump {c : Cell} {pc : Nat} (hgo : CellGo s x ext) (hexec : exec i s = cellItem x ext body s)
    (hbody : body s (s.cell x.cell) = .jump s c pc) : exec i s = .next (s.setCell x.cell { c with pc := pc % 4096 }) := by
  rw [hexec, cellItem_of_go hgo, hbody]
  rfl

theorem bcBody_agrees {c : Cell} {b : Bool} (hfn : x.fn ≤ 5) (hint : relates x.fn (sreg c x.a).toInt (sreg c x.b).toInt = b)
    (hnat : relates x.fn (sreg c x.a).toNat (sreg c x.b).toNat = b) :
    bcBody x s c = if b then .jump s c (branchTo c x) else .ok s c := by
  have hholds (signed : Bool) : condHolds x.fn (ordInt (atType 64 signed (sreg c x.a).toNat) (atType 64 signed (sreg c x.b).toNat)) false = b := by
    cases signed
    · rw [condHolds_ordInt, atType_unsigned, atType_unsigned, hnat]
    · rw [condHolds_ordInt, atType_signed, atType_signed, hint]
  rw [bcBody, if_neg (Nat.not_lt.2 hfn)]
  simp only [hholds, if_true]

end

/-- Settles O9: each branch is a jump to its target, and bc is one where both readings of its condition agree. -/
theorem branchItemsMoveThePc : Obligations.BranchItemsMoveThePc := by
  unfold Obligations.BranchItemsMoveThePc
  intro s x hgo c a b target goes
  refine ⟨?_, ?_, ?_, ?_, fun hfn hint hnat => ?_, fun hfn hint hnat => ?_⟩
  · exact exec_of_jump (i := .br x) (body := fun s c => .jump s c (branchTo c x)) hgo rfl rfl
  · exact exec_of_jump (i := .call x) (body := fun s c => .jump s (setS c x.d (BitVec.ofNat 64 (c.pc + 1))) (branchTo c x)) hgo rfl rfl
  · have hjump := exec_of_jump (i := .jr x) (body := fun s c => .jump s c ((sreg c x.a).toNat % 4096)) hgo rfl rfl
    rwa [Nat.mod_mod] at hjump
  · exact exec_of_jump (i := .eret x) (body := fun s c =>
      .jump s { c with status := putField c.status 37 1 0 } (if excCode c = 9 then c.epc + 1 else c.epc)) hgo rfl rfl
  · exact exec_of_jump (i := .bc x) hgo rfl (bcBody_agrees hfn hint hnat)
  · exact cellNext_of_ok (i := .bc x) hgo rfl (bcBody_agrees hfn hint hnat)

/-! ### Exceptions (R230, R270, R271) -/

section
variable {s : State} {x : CellItem} {ext : Nat} {i : Instr} {body : State → Cell → CellOut}

/-- An item whose words leave the window. -/
theorem cellTraps_of_fetch (hcell : x.cell < 1920) (hrun : (s.cell x.cell).run = .running) (hwait : (s.cell x.cell).wait = none)
    (hfetch : fetchOk s (s.cell x.cell) ext = false) (hhandled : handled (s.cell x.cell) 3 = true)
    (hexec : exec i s = cellItem x ext body s) : CellTraps i s x 3 := by
  rw [CellTraps, hexec, cellItem, if_neg (show ¬ cellCount ≤ x.cell from Nat.not_le.2 hcell)]
  dsimp only
  rw [if_neg (by simp [hrun, hwait]), hfetch, if_neg (by simp), takeException, hhandled]
  rfl

@[simp] theorem fault_cells (s : State) (source kind st : Nat) (a : Word) (m y : Nat) : (fault s source kind st a m y).cells = s.cells := by
  obtain ⟨r, f, h⟩ := fault_upd s source kind st a m y
  rw [h]

/-- An exception that the cell does not handle stops it and abandons its galley. -/
theorem takeException_unhandled {n code : Nat} {c : Cell} (h : handled c code = false) : ∃ u : State,
    takeException s n c code = abandonGalley u c.part c.slice ∧
      u.cell n = { c with status := putField c.status 32 5 code, epc := c.pc, run := .stopped } := by
  unfold takeException
  dsimp only
  rw [h, if_neg (by simp)]
  exact ⟨_, rfl, by rw [cell_of_cells (fault_cells ..), setCell_same]⟩

end

/-- Settles O10: a trap, an unassigned opcode and a fetch outside the window end in `takeException`. -/
theorem trapsAndIllegalItemsEnterTheirVector : Obligations.TrapsAndIllegalItemsEnterTheirVector := by
  unfold Obligations.TrapsAndIllegalItemsEnterTheirVector
  intro s x op ext c
  have hsadd : exec (.sadd x) s = cellItem x 0 (fun s c => .ok s (setS c x.d (sreg c x.a + opB c x))) s := rfl
  have htrap : exec (.trap x) s = cellItem x 0 (fun s c => .exc s c 9) s := rfl
  refine ⟨fun hgo hhandled => cellTraps_of_exc hgo htrap hhandled rfl, fun hgo hop hhandled => ?_,
    fun hcell hrun hwait hfetch hhandled => ⟨cellTraps_of_fetch hcell hrun hwait hfetch hhandled hsadd,
      cellTraps_of_fetch hcell hrun hwait hfetch hhandled htrap⟩, fun hgo hnot => ?_⟩
  · have hexec : exec (.illegalInstruction x op ext) s = cellItem x ext (fun s c => .exc s c 1) s := if_neg (by simp [hop])
    exact cellTraps_of_exc hgo hexec hhandled rfl
  · obtain ⟨u, htake, hu⟩ := takeException_unhandled (s := s) (n := x.cell) hnot
    refine ⟨u, ?_, hu⟩
    rw [← htake, htrap]
    exact cellItem_of_go hgo

/-! ### Special registers (R208, R239, R240) -/

section
variable {s : State} {x : CellItem}

theorem rdsr_reads (hgo : CellGo s x 0) {k : Nat} (hk : k < 2 ^ 20) {w : Word}
    (hw : BitVec.ofNat 64 (specialReg s x.cell (s.cell x.cell) k) = w) (himm : x.imm = BitVec.ofNat 20 k) :
    CellNext (.rdsr x) s x 0 (setS (s.cell x.cell) x.d w) := by
  have hnum : srNumber x = k := by rw [srNumber, himm, BitVec.toNat_ofNat, Nat.mod_eq_of_lt hk]
  subst hw
  rw [← hnum]
  exact cellNext_of_ok (body := fun s c => .ok s (setS c x.d (BitVec.ofNat 64 (specialReg s x.cell c (srNumber x))))) hgo rfl rfl

theorem wrsrBody_other {c : Cell} (ha : x.imm ≠ 0x0A) (hb : x.imm ≠ 0x0B) : wrsrBody x c = c := by
  have hne {k : BitVec 20} (h : x.imm ≠ k) : srNumber x ≠ k.toNat := fun he => h (BitVec.eq_of_toNat_eq he)
  unfold wrsrBody
  split
  · next h => exact absurd h (hne ha)
  · next h => exact absurd h (hne hb)
  · rfl

/-- The bits of the status register that take a written value, and those that a written 1 clears. -/
theorem writeStatus_getLsbD (old v : Word) {i : Nat} (hi : i < 64) : (writeStatus old v).getLsbD i =
    if i < 3 ∨ (49 ≤ i ∧ i ≤ 52) ∨ (54 ≤ i ∧ i ≤ 57) then v.getLsbD i
    else if (8 ≤ i ∧ i ≤ 13) ∨ (16 ≤ i ∧ i ≤ 31) then old.getLsbD i && !v.getLsbD i
    else old.getLsbD i := by
  have hrw : ∀ j < 64, (BitVec.ofNat 64 (0x7 + 0x03DE * 2 ^ 48)).getLsbD j =
      decide (j < 3 ∨ (49 ≤ j ∧ j ≤ 52) ∨ (54 ≤ j ∧ j ≤ 57)) := by decide
  have hw1c : ∀ j < 64, (BitVec.ofNat 64 0xFFFF3F00).getLsbD j = decide ((8 ≤ j ∧ j ≤ 13) ∨ (16 ≤ j ∧ j ≤ 31)) := by decide
  simp only [writeStatus, BitVec.getLsbD_or, BitVec.getLsbD_and, BitVec.getLsbD_not, hrw i hi, hw1c i hi, hi, decide_true, Bool.true_and]
  by_cases h1 : i < 3 ∨ (49 ≤ i ∧ i ≤ 52) ∨ (54 ≤ i ∧ i ≤ 57)
  · simp [h1]
  · by_cases h2 : (8 ≤ i ∧ i ≤ 13) ∨ (16 ≤ i ∧ i ≤ 31) <;> simp [h1, h2]

end

/-- Settles O11: rdsr by the number that IMM gives, wrsr by the three cases of its number. -/
theorem specialRegistersReadAndWrite : Obligations.SpecialRegistersReadAndWrite := by
  unfold Obligations.SpecialRegistersReadAndWrite
  intro s x hgo c v reads
  refine ⟨rdsr_reads hgo (by decide) rfl, rdsr_reads hgo (by decide) rfl, rdsr_reads hgo (by decide) rfl,
    rdsr_reads hgo (by decide) rfl, rdsr_reads hgo (by decide) rfl, rdsr_reads hgo (by decide) rfl,
    rdsr_reads hgo (by decide) (BitVec.ofNat_toNat ..), rdsr_reads hgo (by decide) rfl, rdsr_reads hgo (by decide) rfl,
    rdsr_reads hgo (by decide) rfl, rdsr_reads hgo (by decide) rfl, fun himm => ⟨writeStatus c.status v, ?_, fun i hi => writeStatus_getLsbD _ _ hi⟩,
    fun himm => ?_, fun ha hb => ?_⟩
  · have hbody : wrsrBody x c = { c with status := writeStatus c.status v } := by rw [wrsrBody, srNumber, himm]; rfl
    exact hbody ▸ cellNext_of_reg hgo rfl
  · have hbody : wrsrBody x c = { c with epc := v.toNat % 4096 } := by rw [wrsrBody, srNumber, himm]; rfl
    exact hbody ▸ cellNext_of_reg hgo rfl
  · exact wrsrBody_other (c := c) ha hb ▸ cellNext_of_reg hgo rfl

end Sys2Proof.Machine
end

section
/-! Loads and stores of scalars, vectors and lanes (R193, R234, R241, R242, R260). -/

namespace Sys2Proof.Machine

/-! ### Little-endian values -/

theorem leNat_lt : ∀ bs : List Byte, leNat bs < 256 ^ bs.length
  | [] => Nat.one_pos
  | b :: bs => by
    have hb := b.isLt
    have ih := leNat_lt bs
    rw [leNat, List.length_cons, Nat.pow_succ']
    omega

theorem rdLE_lt (m : Map Byte) (a n : Nat) : rdLE m a n < 2 ^ (8 * n) := by
  have h := leNat_lt (rdBytes m a n)
  rwa [rdBytes_length, show (256 : Nat) = 2 ^ 8 from rfl, ← Nat.pow_mul] at h

theorem rdLE_wrBytes_leBytes {m : Map Byte} (hm : Memory.wf m = true) (a n v : Nat) :
    rdLE (wrBytes m a (leBytes n v)) a n = v % 2 ^ (8 * n) := by
  have h := rdBytes_wrBytes_same (leBytes n v) a hm
  rw [leBytes_length] at h
  rw [rdLE, h, leNat_leBytes, show (256 : Nat) = 2 ^ 8 from rfl, ← Nat.pow_mul]

/-! ### ld and st (R235, R241) -/

/-- The value that a load of `w` bytes gives a register. -/
def loadedWord (w : Nat) (signed : Bool) (v : Nat) : Word :=
  if signed then (BitVec.ofNat (8 * w) v).signExtend 64 else BitVec.ofNat 64 v

theorem ofInt_atType {w : Nat} (hw : 0 < w) (signed : Bool) {v : Nat} (hv : v < 2 ^ (8 * w)) :
    BitVec.ofInt 64 (atType (8 * w) signed v) = loadedWord w signed v := by
  cases signed with
  | true =>
    change BitVec.ofInt 64 (sgn v (8 * w)) = (BitVec.ofNat (8 * w) v).signExtend 64
    rw [sgn_eq_toInt (by omega)]
    rfl
  | false =>
    change BitVec.ofInt 64 ((v % 2 ^ (8 * w) : Nat) : Int) = BitVec.ofNat 64 v
    rw [Nat.mod_eq_of_lt hv, BitVec.ofInt_natCast]

section
variable {s : State} {x : CellItem} {c : Cell} {w : Nat} {signed : Bool} (ht : intType x.t = some (8 * w, signed))
include ht

theorem ldBody_of_type : ldBody x s c = cellLoad s x.cell c (opAddr c x).toNat w w fun s bs =>
    .ok s (setS c x.d (BitVec.ofInt 64 (atType (8 * w) signed (leNat bs)))) := by
  rw [ldBody, ht]
  dsimp only
  rw [Nat.mul_div_cancel_left w (by decide)]

theorem stBody_of_type : stBody x s c = cellStore s c (opAddr c x).toNat w (leBytes w (sreg c x.b).toNat) := by
  rw [stBody, ht]
  dsimp only
  rw [Nat.mul_div_cancel_left w (by decide)]

theorem ldBody_done (hw : 0 < w) (h : CellReads s c (opAddr c x).toNat w w) :
    ldBody x s c = .ok s (setS c x.d (loadedWord w signed (rdLE c.mem (opAddr c x).toNat w))) := by
  rw [ldBody_of_type ht, cellLoad_of_reads h, ← ofInt_atType hw signed (rdLE_lt ..)]
  rfl

theorem stBody_done (h : CellWrites s c (opAddr c x).toNat w w) :
    stBody x s c = .ok s (cellWrite c (opAddr c x).toNat (leBytes w (sreg c x.b).toNat)) := by
  rw [stBody_of_type ht, cellStore_of_writes (leBytes_length ..) h]

end

/-- Settles O7: a load gives the extended value of its bytes, a store writes the low bytes of sB and no other. -/
theorem scalarLoadsAndStores : Obligations.ScalarLoadsAndStores := by
  unfold Obligations.ScalarLoadsAndStores
  intro s x w signed hgo hmem c a
  obtain ⟨ht, hw, -⟩ := intType_of_mem hmem
  refine ⟨fun hreads => cellNext_of_ok hgo rfl (ldBody_done ht hw hreads), fun hwrites =>
    ⟨_, cellNext_of_ok hgo rfl (stBody_done ht hwrites), fun b hb => ?_, fun hm => rdLE_wrBytes_leBytes hm _ _ _,
      rfl, rfl, rfl, rfl, rfl, rfl, rfl, rfl, rfl⟩⟩
  exact rdByte_wrBytes_outside _ _ _ _ (by rwa [leBytes_length])

/-! ### Accesses that do not complete (R193, R242, R270) -/

section
variable {s : State} {c : Cell} {a align code : Nat} (hcode : code ≠ 0)
include hcode

theorem cellLoad_of_code {n len : Nat} (h : accessCode a len align = code) (k : State → List Byte → CellOut) :
    cellLoad s n c a len align k = .exc s c code := by
  unfold cellLoad
  rw [h]
  exact if_pos hcode

theorem cellStore_of_code {bs : List Byte} (h : accessCode a bs.length align = code) : cellStore s c a align bs = .exc s c code := by
  unfold cellStore
  rw [h]
  exact if_pos hcode

end

/-- An item takes the exception of a range above what loads and stores may touch, or that is misaligned below it. -/
def MeetsItsRange (i : Instr) (s : State) (x : CellItem) (a n align : Nat) : Prop :=
  (handled (s.cell x.cell) 3 = true → 0x3C0000 < a + n → CellTraps i s x 3) ∧
  (handled (s.cell x.cell) 4 = true → a + n ≤ 0x3C0000 → a % align ≠ 0 → CellTraps i s x 4)

theorem meetsItsRange_of_exc {s : State} {x : CellItem} {i : Instr} {body : State → Cell → CellOut} {a n align : Nat}
    (hgo : CellGo s x 0) (hexec : exec i s = cellItem x 0 body s)
    (hbody : ∀ code, code ≠ 0 → accessCode a n align = code → body s (s.cell x.cell) = .exc s (s.cell x.cell) code) :
    MeetsItsRange i s x a n align := by
  refine ⟨fun hhandled habove => cellTraps_of_exc hgo hexec hhandled (hbody 3 (by decide) (if_pos habove)),
    fun hhandled hbelow hmis => cellTraps_of_exc hgo hexec hhandled (hbody 4 (by decide) ?_)⟩
  rw [accessCode, if_neg (show ¬ cellLimit < a + n from Nat.not_lt.2 hbelow), if_pos hmis]

section
variable {s : State} {x : CellItem} (hgo : CellGo s x 0)
include hgo

theorem ld_meetsItsRange {w : Nat} {signed : Bool} (ht : intType x.t = some (8 * w, signed)) :
    MeetsItsRange (.ld x) s x (opAddr (s.cell x.cell) x).toNat w w :=
  meetsItsRange_of_exc hgo rfl fun _ hne hcode => (ldBody_of_type ht).trans (cellLoad_of_code hne hcode _)

theorem st_meetsItsRange {w : Nat} {signed : Bool} (ht : intType x.t = some (8 * w, signed)) :
    MeetsItsRange (.st x) s x (opAddr (s.cell x.cell) x).toNat w w :=
  meetsItsRange_of_exc hgo rfl fun _ hne hcode =>
    (stBody_of_type ht).trans (cellStore_of_code hne (by rwa [leBytes_length]))

theorem vld_meetsItsRange : MeetsItsRange (.vld x) s x (opAddr (s.cell x.cell) x).toNat 256 16 :=
  meetsItsRange_of_exc hgo rfl fun _ hne hcode => cellLoad_of_code hne hcode _

theorem vst_meetsItsRange : MeetsItsRange (.vst x) s x (opAddr (s.cell x.cell) x).toNat 256 16 :=
  meetsItsRange_of_exc (body := vstBody x) hgo rfl fun _ hne hcode => by
    rw [vstBody]
    exact (if_pos (hcode.trans_ne hne)).trans (congrArg _ hcode)

theorem tld_meetsItsRange (hd : x.d ≤ 7) : MeetsItsRange (.tld x) s x (sreg (s.cell x.cell) x.a).toNat 4096 256 :=
  meetsItsRange_of_exc (body := tldBody x) hgo rfl fun _ hne hcode => by
    rw [tldBody, tileOk_of_le hd, if_neg (by simp)]
    exact cellLoad_of_code hne hcode _

theorem tst_meetsItsRange (hd : x.d ≤ 7) (hl : (treg (s.cell x.cell) x.d).length = 1024) :
    MeetsItsRange (.tst x) s x (sreg (s.cell x.cell) x.a).toNat 4096 256 :=
  meetsItsRange_of_exc (body := tstBody x) hgo rfl fun _ hne hcode => by
    rw [tstBody, tileOk_of_le hd, if_neg (by simp)]
    exact cellStore_of_code hne (by rwa [← tileBytes, tileBytes_length hl])

end

/-- A cell at the start of the search galley's window that handles code 3, whose tile t0 is a list of no values, and whose s1 is the
first address that loads and stores may not touch. -/
def emptyTileCell : Cell :=
  { cell0 with run := .running, pc := 3584, slice := 4, s := [(1, 0x3C0000)], t := [(0, [])], status := BitVec.ofNat 64 (2 ^ 51) }

/-- Refutes O8: its clause on tst has no hypothesis on the list that holds the tile, and tst looks at the range of the bytes that it
stores. A tile held as an empty list stores nothing: at 0x3C_0000 the item completes, where 4,096 bytes would end above what stores
may touch. With a tile of 1,024 values, as O19 asks, the clauses hold: `ld_meetsItsRange`, `st_meetsItsRange`, `vld_meetsItsRange`,
`vst_meetsItsRange`, `tld_meetsItsRange` and `tst_meetsItsRange`. -/
theorem not_misplacedAccessesTrap : ¬ Obligations.MisplacedAccessesTrap := by
  unfold Obligations.MisplacedAccessesTrap
  intro hall
  have hgo : CellGo { State.reset with cells := [(0, emptyTileCell)] } ⟨0, 0, 1, 0, 0, 0, false, 0, 0, 0, 0⟩ 0 := by
    refine ⟨?_, ?_, ?_, ?_⟩ <;> decide
  have hdone : CellNext (.tst ⟨0, 0, 1, 0, 0, 0, false, 0, 0, 0, 0⟩) { State.reset with cells := [(0, emptyTileCell)] }
      ⟨0, 0, 1, 0, 0, 0, false, 0, 0, 0, 0⟩ 0 (cellWrite emptyTileCell 0x3C0000 []) := cellNext_of_ok hgo rfl rfl
  have htraps := ((hall _ _ 1 true hgo).2.2.2 (by decide)).2.1 (by decide) (by decide)
  have hnext := Host.Outcome.next.inj (hdone.symm.trans htraps)
  have hpc := congrArg Cell.pc (congrArg (State.cell · 0) hnext)
  rw [setCell_same, setCell_same] at hpc
  exact absurd hpc (by decide)

/-! ### The lanes of vld (R234, R241) -/

theorem lanesNext_of_writeV {s : State} {x : CellItem} {i : Instr} {new : List (BitVec 32)} {r : Nat → BitVec 32}
    (h : CellNext i s x 0 (writeV (s.cell x.cell) x new)) (hnew : ∀ k, k < 64 → new.getD k 0 = r k) : LanesNext i s x r :=
  ⟨_, mergeLanes_length .., h, fun k hk => by rw [mergeLanes_getD _ _ _ _ hk, hnew k hk]; rfl⟩

theorem lanesOf_rdBytes (m : Map Byte) (a : Nat) {k : Nat} (hk : k < 64) :
    (lanesOf (rdBytes m a 256)).getD k 0 = BitVec.ofNat 32 (rdLE m (a + 4 * k) 4) := by
  rw [lanesOf, chunks_rdBytes m 4 64 a, List.map_map, getD_map_range _ hk]
  rfl

/-! ### Words stored lane by lane (R241, R260) -/

/-- Stores the word of a lane at its address. -/
def storeWord (at_ val : Nat → Nat) (c : Cell) (k : Nat) : Cell := cellWrite c (at_ k) (leBytes 4 (val k))

section
variable (at_ val : Nat → Nat)

/-- A store touches cell memory alone, and the records of its errors. -/
theorem storeWords_upd : ∀ (l : List Nat) (c : Cell),
    ∃ m p w, l.foldl (storeWord at_ val) c = { c with mem := m, poison := p, weak := w }
  | [], c => ⟨c.mem, c.poison, c.weak, rfl⟩
  | k :: l, c => storeWords_upd l (storeWord at_ val c k)

theorem rdByte_storeWords_outside {y : Nat} : ∀ (l : List Nat) (c : Cell), (∀ k ∈ l, ¬ (at_ k ≤ y ∧ y < at_ k + 4)) →
    rdByte (l.foldl (storeWord at_ val) c).mem y = rdByte c.mem y
  | [], _, _ => rfl
  | k :: l, c, h => by
    have hk := h k List.mem_cons_self
    rw [List.foldl_cons, rdByte_storeWords_outside l _ fun j hj => h j (List.mem_cons_of_mem _ hj)]
    exact rdByte_wrBytes_outside _ _ _ _ (by rw [leBytes_length]; omega)

/-- A word stands where no later lane stores into it. -/
theorem rdLE_storeWords {k : Nat} : ∀ (l : List Nat) (c : Cell), Memory.wf c.mem = true → l.Pairwise (· < ·) → k ∈ l →
    (∀ j ∈ l, k < j → at_ j + 4 ≤ at_ k ∨ at_ k + 4 ≤ at_ j) → rdLE (l.foldl (storeWord at_ val) c).mem (at_ k) 4 = val k % 2 ^ 32
  | i :: l, c, hm, hl, hk, h => by
    obtain ⟨hi, hl⟩ := List.pairwise_cons.1 hl
    rw [List.foldl_cons]
    rcases List.mem_cons.1 hk with rfl | hk
    · have hlater : rdBytes (l.foldl (storeWord at_ val) (storeWord at_ val c k)).mem (at_ k) 4 =
          rdBytes (storeWord at_ val c k).mem (at_ k) 4 := rdBytes_congr _ _ fun y _ _ =>
        rdByte_storeWords_outside at_ val l _ fun j hj => by
          have := h j (List.mem_cons_of_mem _ hj) (hi j hj)
          omega
      rw [rdLE, hlater]
      exact rdLE_wrBytes_leBytes hm _ 4 _
    · exact rdLE_storeWords l _ (Memory.wf_wrBytes _ _ hm) hl hk fun j hj => h j (List.mem_cons_of_mem _ hj)

end

/-! ### The active lanes -/

/-- The lanes whose predicate bit is 1, ascending. -/
def activeLanes (c : Cell) (x : CellItem) : List Nat := (List.range 64).filter fun i => bitOf (preg c x.p).toNat i

/-- The word address that a lane of vA names. -/
def laneAt (c : Cell) (x : CellItem) (k : Nat) : Nat := (lane c x.a k).toNat

/-- The word that a lane of vB holds. -/
def laneWord (c : Cell) (x : CellItem) (k : Nat) : Nat := (lane c x.b k).toNat

section
variable {s : State} {x : CellItem} {c : Cell}

theorem mem_activeLanes {k : Nat} : k ∈ activeLanes c x ↔ k < 64 ∧ (preg c x.p).getLsbD k = true := by
  rw [activeLanes, List.mem_filter, List.mem_range, getLsbD_eq_bitOf]

theorem activeLanes_pairwise : (activeLanes c x).Pairwise (· < ·) := List.pairwise_lt_range.filter _

/-- The cell after the active lanes of vB are stored at the addresses given. -/
theorem storeWords_active (hm : Memory.wf c.mem = true) {at_ : Nat → Nat}
    {k : Nat} (hk : k < 64 ∧ (preg c x.p).getLsbD k = true)
    (h : ∀ j ∈ activeLanes c x, k < j → at_ j + 4 ≤ at_ k ∨ at_ k + 4 ≤ at_ j) :
    rdLE ((activeLanes c x).foldl (storeWord at_ (laneWord c x)) c).mem (at_ k) 4 = (lane c x.b k).toNat := by
  rw [rdLE_storeWords at_ _ _ c hm activeLanes_pairwise (mem_activeLanes.2 hk) h]
  exact Nat.mod_eq_of_lt (lane c x.b k).isLt

theorem vstBody_done (h : CellWrites s c (opAddr c x).toNat 256 16) : vstBody x s c =
    .ok s ((activeLanes c x).foldl (storeWord (fun k => (opAddr c x).toNat + 4 * k) (laneWord c x)) c) := by
  obtain ⟨hrange, halign, hwait⟩ := h
  rw [vstBody, accessCode_zero hrange halign, if_neg (by simp), if_neg (by simp [hwait]), activeLanes, List.foldl_filter]
  rfl

/-! ### Lanes at addresses of their own (R260) -/

theorem firstLane_zero (h : c.epc = c.pc → bits c.status.toNat 38 6 = 0) : firstLane c = 0 := by
  unfold firstLane
  split
  · next he => exact h he
  · rfl

theorem laneAddrs_fresh (h : firstLane c = 0) : laneAddrs c x = (activeLanes c x).map fun k => (k, laneAt c x k) := by
  unfold laneAddrs
  rw [h]
  simp only [Nat.zero_le, decide_true, Bool.true_and]
  rfl

theorem laneAddrs_below (h : firstLane c = 0) :
    (laneAddrs c x).filter (fun (y : Nat × Nat) => decide (y.1 < 64)) = (activeLanes c x).map fun k => (k, laneAt c x k) := by
  rw [laneAddrs_fresh h, List.filter_eq_self]
  intro y hy
  obtain ⟨k, hk, rfl⟩ := List.mem_map.1 hy
  exact decide_eq_true (mem_activeLanes.1 hk).1

theorem laneFault_none {load : Bool} {l : List (Nat × Nat)} (hcode : ∀ y ∈ l, accessCode y.2 4 4 = 0)
    (hpoison : load = true → ∀ y ∈ l, y.2 / 16 ∉ c.poison) : laneFault c load l = none := by
  refine List.findSome?_eq_none_iff.2 fun y hy => ?_
  dsimp only
  rw [hcode y hy, if_neg (by simp), if_neg]
  intro hbad
  simp only [Bool.and_eq_true, List.contains_iff_mem] at hbad
  exact hpoison hbad.1 y hy hbad.2

theorem mem_memUnits_self (a n : Nat) (h : 0 < n) : a / 16 ∈ memUnits a n :=
  List.mem_map.2 ⟨0, List.mem_range.2 (by omega), rfl⟩

theorem find?_eq_self (k : Nat) : ∀ l : List Nat, l.find? (fun y => decide (y = k)) = if k ∈ l then some k else none
  | [] => rfl
  | y :: l => by
    rw [List.find?_cons, find?_eq_self k l]
    by_cases h : y = k <;> simp [h, Ne.symm]

/-- What vgth reads. -/
def gathered (c : Cell) (x : CellItem) (k : Nat) : BitVec 32 := BitVec.ofNat 32 (rdLE c.mem (laneAt c x k) 4)

/-- The lanes that vgth leaves in vD. -/
def gatheredLanes (c : Cell) (x : CellItem) : List (BitVec 32) :=
  (List.range 64).map fun k => if k ∈ activeLanes c x then gathered c x k else if x.pz then 0 else lane c x.d k

theorem vgthBody_done (hfresh : c.epc = c.pc → bits c.status.toNat 38 6 = 0)
    (h : ∀ k ∈ activeLanes c x, CellReads s c (laneAt c x k) 4 4) : vgthBody x s c = .ok s (setV c x.d (gatheredLanes c x)) := by
  have hfirst := firstLane_zero hfresh
  have hunit (k : Nat) : laneAt c x k / 16 ∈ memUnits (laneAt c x k) 4 := mem_memUnits_self _ _ (by decide)
  have hfault : laneFault c true (laneAddrs c x) = none := by
    rw [laneAddrs_fresh hfirst]
    refine laneFault_none (fun y hy => ?_) (fun _ y hy => ?_) <;> obtain ⟨k, hk, rfl⟩ := List.mem_map.1 hy
    · exact accessCode_of_reads (h k hk)
    · exact (h k hk).2.2.2.1 _ (hunit k)
  have hwait : (((activeLanes c x).map fun k => (k, laneAt c x k)).any fun y => mustWait (cellModel s c) c y.2 4 false) = false := by
    rw [List.any_map, List.any_eq_false]
    exact fun k hk => by simp [(h k hk).2.2.1]
  have hweak : (((activeLanes c x).map fun k => (k, laneAt c x k)).filter fun y => c.weak.contains (y.2 / 16)) = [] := by
    refine List.filter_eq_nil_iff.2 fun y hy => ?_
    obtain ⟨k, hk, rfl⟩ := List.mem_map.1 hy
    simpa using (h k hk).2.2.2.2 _ (hunit k)
  unfold vgthBody
  dsimp only
  rw [hfault, Option.map_none, Option.getD_none, laneAddrs_below hfirst, hwait, if_neg (by simp), hweak]
  refine congrArg₂ CellOut.ok rfl ((if_pos hfirst).trans (congrArg (setV c x.d) (List.map_congr_left fun k hk => ?_)))
  rw [List.find?_map, show ((fun y : Nat × Nat => decide (y.1 = k)) ∘ fun k => (k, laneAt c x k)) = fun y => decide (y = k) from rfl,
    find?_eq_self]
  by_cases hon : k ∈ activeLanes c x
  · rw [if_pos hon, if_pos hon]
    rfl
  · have hoff : bitOf (preg c x.p).toNat k = false := by
      rw [← Bool.not_eq_true, ← getLsbD_eq_bitOf]
      exact fun hbit => hon (mem_activeLanes.2 ⟨List.mem_range.1 hk, hbit⟩)
    rw [if_neg hon, if_neg hon, Option.map_none]
    dsimp only
    rw [hoff, decide_eq_true (List.mem_range.1 hk), Bool.and_true, Bool.not_false, Bool.and_true]
    rfl

theorem vsctBody_done (hfresh : c.epc = c.pc → bits c.status.toNat 38 6 = 0)
    (h : ∀ k ∈ activeLanes c x, CellWrites s c (laneAt c x k) 4 4) :
    vsctBody x s c = .ok s ((activeLanes c x).foldl (storeWord (laneAt c x) (laneWord c x)) c) := by
  have hfirst := firstLane_zero hfresh
  have hfault : laneFault c false (laneAddrs c x) = none := by
    rw [laneAddrs_fresh hfirst]
    refine laneFault_none (fun y hy => ?_) nofun
    obtain ⟨k, hk, rfl⟩ := List.mem_map.1 hy
    exact accessCode_of_writes (h k hk)
  have hwait : (((activeLanes c x).map fun k => (k, laneAt c x k)).any fun y => mustWait (cellModel s c) c y.2 4 true) = false := by
    rw [List.any_map, List.any_eq_false]
    exact fun k hk => by simp [(h k hk).2.2]
  unfold vsctBody
  dsimp only
  rw [hfault, Option.map_none, Option.getD_none, laneAddrs_below hfirst, hwait, if_neg (by simp), List.foldl_map]
  exact congrArg (CellOut.ok s) (if_pos hfirst)

end

/-- Settles O18: vld and vgth by the lanes that they write, vst and vsct by the words that their active lanes store. -/
theorem vectorMemoryItemsMoveLanes : Obligations.VectorMemoryItemsMoveLanes := by
  unfold Obligations.VectorMemoryItemsMoveLanes
  intro s x hgo c a on at_ fresh same
  have hsame (p v : Nat → Nat) : same ((activeLanes c x).foldl (storeWord p v) c) := by
    obtain ⟨m, q, w, h⟩ := storeWords_upd p v (activeLanes c x) c
    rw [h]
    exact ⟨rfl, rfl, rfl, rfl, rfl, rfl, rfl, rfl, rfl⟩
  refine ⟨fun hreads => ?_, fun hwrites hm => ?_, fun hfresh hreads => ?_, fun hfresh hm hwrites => ?_⟩
  · exact lanesNext_of_writeV (cellNext_of_ok hgo rfl (cellLoad_of_reads hreads _)) fun k hk => lanesOf_rdBytes _ _ hk
  · refine ⟨_, cellNext_of_ok hgo rfl (vstBody_done hwrites), hsame _ _, fun k hk => ?_, fun y hy => ?_⟩
    · exact storeWords_active (at_ := fun k => a + 4 * k) hm hk fun j _ hlt => .inr (by omega)
    · exact rdByte_storeWords_outside _ _ _ _ fun k hk => hy k (mem_activeLanes.1 hk)
  · refine ⟨gatheredLanes c x, by rw [gatheredLanes, List.length_map, List.length_range],
      cellNext_of_ok hgo rfl (vgthBody_done hfresh fun k hk => hreads k (mem_activeLanes.1 hk)), fun k hk => ?_⟩
    rw [gatheredLanes, getD_map_range _ hk]
    simp only [mem_activeLanes, hk, true_and]
    rfl
  · refine ⟨_, cellNext_of_ok hgo rfl (vsctBody_done hfresh fun k hk => hwrites k (mem_activeLanes.1 hk)), hsame _ _,
      fun k hk hlast => ?_, fun y hy => ?_⟩
    · refine storeWords_active (at_ := laneAt c x) hm hk fun j hj hlt => ?_
      have hj' := mem_activeLanes.1 hj
      have hne : laneAt c x j ≠ laneAt c x k := hlast j hj' hlt
      have hkal : laneAt c x k % 4 = 0 := (hwrites k hk).2.1
      have hjal : laneAt c x j % 4 = 0 := (hwrites j hj').2.1
      omega
    · exact rdByte_storeWords_outside _ _ _ _ fun k hk => hy k (mem_activeLanes.1 hk)

end Sys2Proof.Machine
end

section
/-! Vector items on registers: moves, logic, permutation, selection, and integer arithmetic (R234, R235, R241, R601). -/

namespace Sys2Proof.Machine

/-! ### Moves, logic, permutation, selection (R241) -/

section
variable {s : State} {x : CellItem} {i : Instr} (hgo : CellGo s x 0)
include hgo

theorem lanesNext_of_reg {new : Cell → List (BitVec 32)} {r : Nat → BitVec 32}
    (hexec : exec i s = regItem x 0 (fun c => writeV c x (new c)) s)
    (hnew : ∀ k, k < 64 → (new (s.cell x.cell)).getD k 0 = r k) : LanesNext i s x r :=
  lanesNext_of_writeV (cellNext_of_reg hgo hexec) hnew

theorem bitItem_lanes {op : BitVec 32 → BitVec 32 → BitVec 32} (hexec : exec i s = bitItem x op s)
    (ht : x.t ∈ [0, 1, 2, 16, 17, 18, 19, 20, 21]) :
    LanesNext i s x fun k => op (lane (s.cell x.cell) x.a k) (lane (s.cell x.cell) x.b k) := by
  have htype : ((floatType x.t).isSome || (laneInt x.t).isSome) = true := by
    rw [Bool.or_eq_true, ← Option.not_isNone, ← Option.not_isNone, Bool.not_eq_true', Bool.not_eq_true', ← Bool.not_eq_true,
      ← Bool.not_eq_true, ← not_and_or]
    exact vcmp_type ht
  exact lanesNext_of_writeV (cellNext_of_checked hgo hexec (if_pos htype)) fun k hk => getD_map_range _ hk 0

end

/-- The word that plog writes. -/
def plogWord (fn : Nat) (a b : Word) : Word :=
  if fn = 0 then a &&& b else if fn = 1 then a ||| b else if fn = 2 then a ^^^ b else if fn = 3 then a &&& ~~~ b else ~~~ a

theorem plogBody_done {x : CellItem} {c : Cell} (hd : x.d ≤ 7) (ha : x.a ≤ 7) (hb : x.b ≤ 7) (hfn : x.fn ≤ 4) :
    plogBody x c = some (setP c x.d (plogWord x.fn (preg c x.a) (preg c x.b))) := if_neg (by omega)

/-- Settles O13: each item writes its lanes, and plog its predicate. -/
theorem vectorRegisterItemsAct : Obligations.VectorRegisterItemsAct := by
  unfold Obligations.VectorRegisterItemsAct
  intro s x hgo c
  refine ⟨?_, ?_, ?_, fun ht => ⟨bitItem_lanes (op := (· &&& ·)) hgo rfl ht, bitItem_lanes (op := (· ||| ·)) hgo rfl ht,
    bitItem_lanes (op := (· ^^^ ·)) hgo rfl ht⟩, ?_, fun hd ha hb hfn => ?_⟩
  · exact lanesNext_of_reg (new := fun c => List.replicate 64 ((sreg c x.a).setWidth 32)) hgo rfl fun k hk => List.getD_replicate _ hk
  · exact lanesNext_of_reg (new := fun c => vreg c x.a) hgo rfl fun _ _ => rfl
  · exact lanesNext_of_reg (new := fun c => (List.range 64).map fun i => (vreg c x.a).getD (((vreg c x.b).getD i 0).toNat % 64) 0)
      hgo rfl fun k hk => getD_map_range _ hk 0
  · refine ⟨_, ?_, cellNext_of_reg (f := vselCell x) hgo rfl, fun k hk => ?_⟩
    · rw [List.length_map, List.length_range]
    · rw [getD_map_range _ hk, getLsbD_eq_bitOf]
      rfl
  · refine ⟨_, cellNext_of_checked hgo rfl (plogBody_done hd ha hb hfn), fun k hk => ?_⟩
    change (plogWord x.fn (preg c x.a) (preg c x.b)).getLsbD k = _
    split
    · next hop => rw [hop]; exact BitVec.getLsbD_and
    · next hop => rw [hop]; exact BitVec.getLsbD_or
    · next hop => rw [hop]; exact BitVec.getLsbD_xor
    · next hop => rw [hop]; simp [plogWord, hk]
    · next h0 h1 h2 h3 => rw [plogWord, if_neg h0, if_neg h1, if_neg h2, if_neg h3, BitVec.getLsbD_not, decide_eq_true hk, Bool.true_and]

/-! ### Integer arithmetic (R235, R241, R601) -/

/-- An integer as it stands in a lane: reduced to the width of its type and extended by its sign (log entry 33). -/
def laneOf (w : Nat) (signed : Bool) (z : Int) : BitVec 32 :=
  if signed then (BitVec.ofInt w z).signExtend 32 else (BitVec.ofInt w z).setWidth 32

theorem intLane_eq {w : Nat} (hw : 0 < w) (signed : Bool) (z : Int) : intLane w signed z = laneOf w signed z := by
  have hlt : (z % 2 ^ w).toNat < 2 ^ w := by
    have hpos : (0 : Int) < 2 ^ w := Int.pow_pos (by decide)
    rw [Int.toNat_lt (Int.emod_nonneg z hpos.ne')]
    exact_mod_cast Int.emod_lt_of_pos z hpos
  have hred : BitVec.ofNat w (z % 2 ^ w).toNat = BitVec.ofInt w z :=
    BitVec.eq_of_toNat_eq (by simp [BitVec.toNat_ofInt, Nat.mod_eq_of_lt hlt])
  cases signed with
  | true =>
    change BitVec.ofInt 32 (sgn (z % 2 ^ w).toNat w) = (BitVec.ofInt w z).signExtend 32
    rw [sgn_eq_toInt hw, hred]
    rfl
  | false =>
    change BitVec.ofInt 32 (((z % 2 ^ w).toNat % 2 ^ w : Nat) : Int) = (BitVec.ofInt w z).setWidth 32
    rw [← hred, BitVec.ofInt_natCast, ← BitVec.toNat_ofNat, BitVec.ofNat_toNat]

section
variable {s : State} {x : CellItem} {i : Instr} {w : Nat} {signed : Bool} (hgo : CellGo s x 0) (hw : 0 < w)
include hgo hw

theorem arithItem_intLanes {fop : Fmt → RMode → Nat → Nat → FRes} {iop : Int → Int → Int} (hexec : exec i s = arithItem x fop iop s)
    (hf : floatType x.t = none) (ht : laneInt x.t = some (w, signed)) : LanesNext i s x fun k =>
      laneOf w signed (iop (laneVal w signed (lane (s.cell x.cell) x.a k)) (laneVal w signed (lane (s.cell x.cell) x.b k))) := by
  refine lanesNext_of_writeV (cellNext_of_checked hgo hexec (by rw [hf, ht])) fun k hk => ?_
  rw [laneIntOp, getD_map_range _ hk, intLane_eq hw, atType_toNat hw, atType_toNat hw]
  rfl

theorem vshiftItem_lanes {op : Int → Nat → Int} (hexec : exec i s = vshiftItem x op s) (ht : laneInt x.t = some (w, signed)) :
    LanesNext i s x fun k =>
      laneOf w signed (op (laneVal w signed (lane (s.cell x.cell) x.a k)) ((lane (s.cell x.cell) x.b k).toNat % 32)) := by
  refine lanesNext_of_writeV (cellNext_of_checked hgo hexec (by rw [ht, Option.map_some])) fun k hk => ?_
  rw [getD_map_range _ hk, intLane_eq hw, atType_toNat hw]
  rfl

end

/-! ### Types that a lane does not hold (R235) -/

theorem floatType_none {t : Nat} (h : 3 ≤ t) : floatType t = none := by
  unfold floatType
  iterate 3 rw [if_neg (by omega)]

theorem laneInt_none {t : Nat} (h : t ≤ 15 ∨ 22 ≤ t) : laneInt t = none := by
  unfold laneInt intType
  iterate 6 rw [if_neg (by omega)]
  split_ifs <;> rfl

section
variable {s : State} {x : CellItem} {i : Instr} (hgo : CellGo s x 0) (hhandled : handled (s.cell x.cell) 2 = true)
  (hf : floatType x.t = none)
include hgo hhandled

theorem vshiftItem_traps {op : Int → Nat → Int} (hexec : exec i s = vshiftItem x op s) (ht : laneInt x.t = none) : CellTraps i s x 2 :=
  cellTraps_of_checked hgo hexec hhandled (by rw [ht, Option.map_none])

include hf

theorem arithItem_traps {fop : Fmt → RMode → Nat → Nat → FRes} {iop : Int → Int → Int} (hexec : exec i s = arithItem x fop iop s)
    (ht : laneInt x.t = none) : CellTraps i s x 2 :=
  cellTraps_of_checked hgo hexec hhandled (by rw [hf, ht])

theorem bitItem_traps {op : BitVec 32 → BitVec 32 → BitVec 32} (hexec : exec i s = bitItem x op s) (ht : laneInt x.t = none) :
    CellTraps i s x 2 :=
  cellTraps_of_checked hgo hexec hhandled (if_neg (by rw [hf, ht]; decide))

theorem defItem_traps {op : Fmt → RMode → Nat → FRes} (hexec : exec i s = defItem x op s) : CellTraps i s x 2 :=
  cellTraps_of_checked hgo hexec hhandled (by rw [hf, Option.map_none])

theorem vfma_traps : CellTraps (.vfma x) s x 2 :=
  cellTraps_of_checked hgo rfl hhandled (by rw [vfmaBody, hf, Option.map_none])

end

/-- Settles O15: arithmetic and shifts by the value of each lane at its type, and the types for which each item has no operation. -/
theorem vectorIntegerItemsWrap : Obligations.VectorIntegerItemsWrap := by
  unfold Obligations.VectorIntegerItemsWrap
  intro s x hgo c
  refine ⟨fun w signed hmem => ?_, fun hhandled hlo hout => ?_, fun hhandled hlo => ?_⟩
  · obtain ⟨hw, hf, ht⟩ := laneInt_of_mem hmem
    intro v put a b n
    refine ⟨?_, ?_, ?_, ?_, ?_, ?_, ?_⟩
    · exact arithItem_intLanes (fop := fAdd) (iop := (· + ·)) hgo hw rfl hf ht
    · exact arithItem_intLanes (fop := fSub) (iop := (· - ·)) hgo hw rfl hf ht
    · exact arithItem_intLanes (fop := fMul) (iop := (· * ·)) hgo hw rfl hf ht
    · have hmin := arithItem_intLanes (i := .vmin x) (fop := fun f _ => fMinMax f false) (iop := min) hgo hw rfl hf ht
      simp only [min_def] at hmin
      exact hmin
    · have hmax := arithItem_intLanes (i := .vmax x) (fop := fun f _ => fMinMax f true) (iop := max) hgo hw rfl hf ht
      simp only [max_def] at hmax
      exact hmax
    · exact vshiftItem_lanes (op := fun a n => a * 2 ^ n) hgo hw rfl ht
    · exact vshiftItem_lanes (op := fun a n => a / 2 ^ n) hgo hw rfl ht
  · have hf := floatType_none hlo
    have ht := laneInt_none hout
    refine ⟨?_, ?_, ?_, ?_, ?_⟩
    · exact arithItem_traps (fop := fAdd) (iop := (· + ·)) hgo hhandled hf rfl ht
    · exact arithItem_traps (fop := fun f _ => fMinMax f false) (iop := min) hgo hhandled hf rfl ht
    · exact bitItem_traps (op := (· &&& ·)) hgo hhandled hf rfl ht
    · exact vshiftItem_traps (op := fun a n => a * 2 ^ n) hgo hhandled rfl ht
    · exact vshiftItem_traps (op := fun a n => a / 2 ^ n) hgo hhandled rfl ht
  · have hf := floatType_none hlo
    exact ⟨vfma_traps hgo hhandled hf, defItem_traps (op := fExp2) hgo hhandled hf rfl, defItem_traps (op := fRcp) hgo hhandled hf rfl,
      defItem_traps (op := fRsqrt) hgo hhandled hf rfl⟩

end Sys2Proof.Machine
end

section
/-! Synchronisation objects as the statements use them: the object that a reference names (R261, R262), what an operation on an object
without waiters leaves (R264, R266), and how a cell's and a queue's use of it ends. -/

namespace Sys2Proof.Machine

/-! ### The object that a reference names (R261, R262) -/

/-- A reference names object `n` by its current instar, and the object is of this kind and owner. -/
structure NamesObj (s : State) (ownerKind owner : Nat) (ref : Word) (kind n : Nat) : Prop where
  lt : n < 16384
  ref : ref.toNat = n + s.fld (SYN_OBJ_A_INSTAR n) * 2 ^ 14
  kind : s.fld (SYN_OBJ_A_KIND n) = kind
  ownerKind : s.fld (SYN_OBJ_A_OWNER_KIND n) = ownerKind
  owner : s.fld (SYN_OBJ_A_OWNER n) = owner

theorem syncLookup_of_names {s : State} {ownerKind owner kind n : Nat} {ref : Word} (h : NamesObj s ownerKind owner ref kind n)
    (h0 : kind ≠ 0) {want : Nat} (hwant : want = 0 ∨ want = kind) : syncLookup s want ownerKind owner ref = .ok n := by
  have hlt := h.lt
  have hinst : s.fld (SYN_OBJ_A_INSTAR n) < 2 ^ 24 := fld_lt s (SYN_OBJ_A_INSTAR n)
  have hn : bits ref.toNat 0 14 = n := by rw [h.ref, bits]; omega
  have hi : bits ref.toNat 14 50 = s.fld (SYN_OBJ_A_INSTAR n) := by rw [h.ref, bits]; omega
  unfold syncLookup
  dsimp only
  rw [hn, hi, h.kind, h.ownerKind, h.owner, if_neg (by simp), if_neg (by omega)]

theorem syncLookup_stale {s : State} {want ownerKind owner : Nat} {ref : Word}
    (h : bits ref.toNat 14 50 ≠ s.fld (SYN_OBJ_A_INSTAR (bits ref.toNat 0 14))) :
    syncLookup s want ownerKind owner ref = .error 0x5011 := if_pos h

/-! ### What an operation leaves (R264) -/

/-- An operation on object `n` leaves VALUE at `value`, and of cells, host memory and the other objects' registers what they were. -/
structure LeavesObj (s t : State) (n value : Nat) : Prop where
  value : t.fld (SYN_OBJ_B_VALUE n) = value
  cells : t.cells = s.cells
  host : t.host = s.host
  reg : ∀ o, o ≠ (SYN_OBJ_B_VALUE n).off → o ≠ (SYN_OBJ_A_KIND n).off → t.reg o = s.reg o

section
variable {s t : State} {n v : Nat}

theorem LeavesObj.refl (s : State) (n : Nat) : LeavesObj s s n (objVal s n) := ⟨rfl, rfl, rfl, fun _ _ _ => rfl⟩

theorem LeavesObj.setVal (hs : Canonical s) (hv : v < 2 ^ 64) : LeavesObj s (setVal s n v) n v :=
  ⟨fld_setFld_of_lt hs (Nat.le_refl 64) hv, rfl, rfl, fun _ hb _ => reg_setFld_other s v hb⟩

/-- What is left of a state whose object differs in a field of SYN_OBJ_A is left of the state itself. -/
theorem LeavesObj.of_setFld {f : Field} {w : Nat} (h : LeavesObj (s.setFld f w) t n v) (hf : f.off = (SYN_OBJ_A_KIND n).off) :
    LeavesObj s t n v :=
  ⟨h.value, h.cells, h.host, fun o hb ha => (h.reg o hb ha).trans (reg_setFld_other s w (hf ▸ ha))⟩

/-- An operation is done at once: its result, and what it leaves. -/
def DoneAt (o : SyncOut) (s : State) (n value result : Nat) : Prop :=
  ∃ t, o = .done t (BitVec.ofNat 64 result) ∧ LeavesObj s t n value

theorem serve_of_none (h : (mget s.waiters n).getD [] = []) : serve s n = s := by
  rw [serve, h]
  rfl

theorem objVal_lt (s : State) (n : Nat) : objVal s n < 2 ^ 64 := fld_lt s (SYN_OBJ_B_VALUE n)

theorem read_done : DoneAt (.done s (BitVec.ofNat 64 (objVal s n))) s n (objVal s n) (objVal s n) := ⟨s, rfl, .refl s n⟩

section
variable (hs : Canonical s) (hnone : (mget s.waiters n).getD [] = [])
include hs hnone

/-- A write of VALUE after which nobody is served. -/
theorem served_setVal (hv : v < 2 ^ 64) : LeavesObj s (serve (setVal s n v) n) n v := by
  rw [serve_of_none (by exact hnone)]
  exact .setVal hs hv

theorem counterAdd_done (w : Word) : DoneAt (counterAdd s n w) s n ((objVal s n + w.toNat) % 2 ^ 64) (objVal s n) :=
  ⟨_, rfl, served_setVal hs hnone (Nat.mod_lt _ (by decide))⟩

theorem semGive_done (h : objVal s n < 2 ^ 64 - 1) : DoneAt (semGive s n) s n (objVal s n + 1) (objVal s n + 1) :=
  ⟨_, if_neg (Nat.ne_of_lt h), served_setVal hs hnone (by omega)⟩

theorem barArrive_last (h : barArrived (objVal s n) + 1 = barExpected (objVal s n)) :
    DoneAt (barArrive s n) s n (barExpected (objVal s n) + (barGen (objVal s n) + 1) % 65536 * 2 ^ 48) (barGen (objVal s n)) := by
  refine ⟨_, by rw [barArrive, if_pos h], served_setVal hs hnone ?_⟩
  have : barExpected (objVal s n) < 2 ^ 24 := Nat.mod_lt _ (by decide)
  omega

theorem quoinRelease_done {actor : Nat} (hheld : s.flag (SYN_OBJ_A_HELD n) = true)
    (hholder : objVal s n = actor + actorInstar s actor * 2 ^ 16) : DoneAt (quoinRelease s n actor) s n 0 0 := by
  refine ⟨_, if_neg (by simp [hheld, hholder]), ?_⟩
  have hs' : Canonical ((s.setFld (SYN_OBJ_A_HELD n) 0).setFld (SYN_OBJ_A_BROKEN n) 0) := (hs.setFld _ _).setFld _ _
  exact ((served_setVal hs' (by exact hnone) (by decide)).of_setFld rfl).of_setFld rfl

end

section
variable (hs : Canonical s)
include hs

theorem barArrive_next (h : barArrived (objVal s n) + 1 < barExpected (objVal s n)) :
    DoneAt (barArrive s n) s n (objVal s n + 2 ^ 24) (barGen (objVal s n)) := by
  have hval := objVal_lt s n
  have heq : barExpected (objVal s n) + (barArrived (objVal s n) + 1) % 2 ^ 24 * 2 ^ 24 + barGen (objVal s n) * 2 ^ 48 =
      objVal s n + 2 ^ 24 := by
    simp only [barExpected, barArrived, barGen, bits] at h ⊢
    omega
  have hlt : objVal s n + 2 ^ 24 < 2 ^ 64 := by
    simp only [barExpected, barArrived, bits] at h
    omega
  refine ⟨_, by rw [barArrive, if_neg (Nat.ne_of_lt h), heq], .setVal hs hlt⟩

theorem takeQuoin_leaves {actor : Nat} (hholder : actor + actorInstar s actor * 2 ^ 16 < 2 ^ 64) :
    LeavesObj s (takeQuoin s n actor).1 n (actor + actorInstar s actor * 2 ^ 16) :=
  (LeavesObj.setVal (hs.setFld _ _) hholder).of_setFld rfl

end

/-! ### Waiting operations (R264) -/

section
variable {actor ret : Nat} {w : Word}

theorem acquire_of_some {op : Nat} {r : Word} (h : tryWait op s n actor w = some (t, r)) : acquire op s n actor ret w = .done t r := by
  rw [acquire, h]

theorem acquire_of_none {op : Nat} (h : tryWait op s n actor w = none) :
    acquire op s n actor ret w = .wait (addWaiter s n ⟨actor, op, w, ret, s.now⟩) := by
  rw [acquire, h]

theorem tryWait_counter : tryWait 0xB2 s n actor w =
    if w.toNat ≤ objVal s n then some (s, BitVec.ofNat 64 (objVal s n)) else none := rfl

theorem tryWait_semaphore : tryWait 0xB3 s n actor w =
    if 1 ≤ objVal s n then some (setVal s n (objVal s n - 1), BitVec.ofNat 64 (objVal s n - 1)) else none := rfl

theorem tryWait_barrier : tryWait 0xB6 s n actor w =
    if barGen (objVal s n) ≠ w.toNat % 65536 then some (s, BitVec.ofNat 64 (barGen (objVal s n))) else none := rfl

theorem tryWait_quoin : tryWait 0xB7 s n actor w =
    if s.flag (SYN_OBJ_A_HELD n) then none else some (takeQuoin s n actor) := rfl

theorem counterWait_done (h : w.toNat ≤ objVal s n) : DoneAt (acquire 0xB2 s n actor ret w) s n (objVal s n) (objVal s n) :=
  ⟨s, acquire_of_some (tryWait_counter.trans (if_pos h)), .refl s n⟩

theorem semTake_done (hs : Canonical s) (h : 1 ≤ objVal s n) :
    DoneAt (acquire 0xB3 s n actor ret w) s n (objVal s n - 1) (objVal s n - 1) :=
  ⟨_, acquire_of_some (tryWait_semaphore.trans (if_pos h)), .setVal hs (by have := objVal_lt s n; omega)⟩

theorem barWait_done (h : barGen (objVal s n) ≠ w.toNat % 65536) :
    DoneAt (acquire 0xB6 s n actor ret w) s n (objVal s n) (barGen (objVal s n)) :=
  ⟨s, acquire_of_some (tryWait_barrier.trans (if_pos h)), .refl s n⟩

theorem quoin_result : (takeQuoin s n actor).2 = BitVec.ofNat 64 (if s.flag (SYN_OBJ_A_BROKEN n) then 2 else 1) := by
  rw [takeQuoin]
  cases s.flag (SYN_OBJ_A_BROKEN n) <;> rfl

section
variable (hs : Canonical s) (hfree : s.flag (SYN_OBJ_A_HELD n) = false)
  (hholder : actor + actorInstar s actor * 2 ^ 16 < 2 ^ 64)
include hs hfree hholder

theorem quoinAcquire_done : DoneAt (acquire 0xB7 s n actor ret w) s n (actor + actorInstar s actor * 2 ^ 16)
    (if s.flag (SYN_OBJ_A_BROKEN n) then 2 else 1) := by
  refine ⟨_, ?_, takeQuoin_leaves hs hholder⟩
  rw [← quoin_result (actor := actor)]
  exact acquire_of_some (tryWait_quoin.trans (if_neg (by simp [hfree])))

theorem quoinTry_done : DoneAt (quoinTry s n actor) s n (actor + actorInstar s actor * 2 ^ 16)
    (if s.flag (SYN_OBJ_A_BROKEN n) then 2 else 1) := by
  refine ⟨_, ?_, takeQuoin_leaves hs hholder⟩
  rw [← quoin_result (actor := actor), quoinTry, tryWait_quoin, if_neg (by simp [hfree])]

end

theorem quoinTry_held (h : s.flag (SYN_OBJ_A_HELD n) = true) : DoneAt (quoinTry s n actor) s n (objVal s n) 0 :=
  ⟨s, by rw [quoinTry, tryWait_quoin, if_pos h]; rfl, .refl s n⟩

end

end

/-! ### How a cell's use ends (R250, R264) -/

/-- What an operation's outcome makes of the cell that issued it. -/
def cellUseOut (x : CellItem) (op : Nat) (c : Cell) : SyncOut → CellOut
  | .done s r => .ok s (setS (s.cell x.cell) x.d r)
  | .fail s _ => .exc s c 7
  | .wait s => .wait s { c with wait := some (op, sreg c x.a, sreg c x.b) }

/-- A cell's operation ends: VALUE, its result in sD, the pc past it; nothing else but the object's two registers changes. -/
def CellEnds (i : Instr) (s : State) (x : CellItem) (n value result : Nat) : Prop :=
  ∃ t u : State, exec i s = .next t ∧ t.fld (SYN_OBJ_B_VALUE n) = value ∧
    t = u.setCell x.cell { setS (s.cell x.cell) x.d (BitVec.ofNat 64 result) with pc := ((s.cell x.cell).pc + 1) % 4096 } ∧
    u.cells = s.cells ∧ ∀ o, o ≠ (SYN_OBJ_B_VALUE n).off → o ≠ (SYN_OBJ_A_KIND n).off → u.reg o = s.reg o

section
variable {s : State} {x : CellItem} {i : Instr} {op want kind n : Nat} {release : Bool}
  {f : State → Nat → Nat → Nat → Word → SyncOut}

/-- No descriptor of a cell that leaves it is in flight. -/
def Quiet (c : Cell) : Prop := ∀ d ∈ c.desc, d.2.active = false

variable (hgo : CellGo s x 0)
  (hnames : NamesObj s 1 (4 * (s.cell x.cell).part + (s.cell x.cell).slice) (sreg (s.cell x.cell) x.a) kind n) (h0 : kind ≠ 0)
  (hwant : want = 0 ∨ want = kind) (hquiet : release = true → Quiet (s.cell x.cell))
include hgo hnames h0 hwant hquiet

theorem syncUse_cell : syncUse (.cell x) op want release f s = .next (finishCell x.cell (s.cell x.cell).pc 0
    (cellUseOut x op (s.cell x.cell) (f s n x.cell x.d (sreg (s.cell x.cell) x.b)))) := by
  have hfree : (release && (s.cell x.cell).desc.any fun d => d.2.active && ([2, 4, 6, 7] : List Nat).contains d.2.op) = false := by
    rw [Bool.and_eq_false_imp]
    intro hrel
    rw [List.any_eq_false]
    intro d hd
    rw [hquiet hrel d hd, Bool.false_and]
    exact Bool.false_ne_true
  rw [syncUse, cellItem_of_go hgo, hfree, if_neg (by simp), syncLookup_of_names hnames h0 hwant]
  dsimp only
  cases f s n x.cell x.d (sreg (s.cell x.cell) x.b) <;> rfl

theorem cellUse_done {value result : Nat} (hexec : exec i s = syncUse (.cell x) op want release f s)
    (hdone : DoneAt (f s n x.cell x.d (sreg (s.cell x.cell) x.b)) s n value result) : CellEnds i s x n value result := by
  obtain ⟨t, hf, hleaves⟩ := hdone
  refine ⟨_, t, ?_, ?_, rfl, hleaves.cells, hleaves.reg⟩
  · rw [hexec, syncUse_cell hgo hnames h0 hwant hquiet, hf, cellUseOut, finishCell, cell_of_cells hleaves.cells]
  · exact hleaves.value

theorem cellUse_traps {st : Nat} (hexec : exec i s = syncUse (.cell x) op want release f s)
    (hf : f s n x.cell x.d (sreg (s.cell x.cell) x.b) = .fail s st) (hhandled : handled (s.cell x.cell) 7 = true) :
    CellTraps i s x 7 := by
  rw [CellTraps, hexec, syncUse_cell hgo hnames h0 hwant hquiet, hf]
  simp only [cellUseOut, finishCell, takeException, hhandled, if_true]

theorem cellUse_waits {t : State} (hexec : exec i s = syncUse (.cell x) op want release f s)
    (hf : f s n x.cell x.d (sreg (s.cell x.cell) x.b) = .wait t) : exec i s = .next (t.setCell x.cell
      { s.cell x.cell with wait := some (op, sreg (s.cell x.cell) x.a, sreg (s.cell x.cell) x.b) }) := by
  rw [hexec, syncUse_cell hgo hnames h0 hwant hquiet, hf]
  rfl

end

/-! ### How a queue's use ends (R264, R535) -/

/-- A queue's operation ends: VALUE, and its completion with a result; nothing else but the object's two registers changes. -/
def ItemEnds (i : Instr) (s : State) (src : Src) (op n value result : Nat) : Prop :=
  ∃ t : State, Completes i s src op 0 (BitVec.ofNat 64 result) 0 0 t ∧ t.fld (SYN_OBJ_B_VALUE n) = value ∧ t.cells = s.cells ∧
    t.host = s.host ∧ ∀ o, o ≠ (SYN_OBJ_B_VALUE n).off → o ≠ (SYN_OBJ_A_KIND n).off → t.reg o = s.reg o

theorem itemUse_done {s : State} {src : Src} {ref w : Word} {i : Instr} {op want kind n value result : Nat} {release : Bool}
    {f : State → Nat → Nat → Nat → Word → SyncOut} (hgo : ItemGo s src) (hnames : NamesObj s 0 src.ctx ref kind n) (h0 : kind ≠ 0)
    (hwant : want = 0 ∨ want = kind) (hexec : exec i s = syncUse (.item src ref w) op want release f s)
    (hdone : DoneAt (f s n (0x8000 + 16 * src.ctx + src.queue) src.qpos w) s n value result) : ItemEnds i s src op n value result := by
  obtain ⟨t, hf, hleaves⟩ := hdone
  refine ⟨t, ?_, hleaves.value, hleaves.cells, hleaves.host, hleaves.reg⟩
  rw [Completes, hexec, syncUse]
  refine congrArg _ (runItem_done hgo ?_)
  rw [syncLookup_of_names hnames h0 hwant]
  dsimp only
  rw [hf]

end Sys2Proof.Machine
end

section
/-! The operations of a cell and of a queue on an object without waiters (R250, R261, R264, R266). -/

namespace Sys2Proof.Machine

/-! ### Each operation with its number, its kind, and whether it releases (R250, R264) -/

section
variable (u : SyncUse) (s : State)

theorem exec_ctrRd : exec (.ctrRd u) s = syncUse u 0xB0 0 false (fun s n _ _ _ => .done s (BitVec.ofNat 64 (objVal s n))) s := rfl
theorem exec_ctrAdd : exec (.ctrAdd u) s = syncUse u 0xB1 1 true (fun s n _ _ v => counterAdd s n v) s := rfl
theorem exec_ctrWait : exec (.ctrWait u) s = syncUse u 0xB2 1 false (acquire 0xB2) s := rfl
theorem exec_semTake : exec (.semTake u) s = syncUse u 0xB3 2 false (acquire 0xB3) s := rfl
theorem exec_semGive : exec (.semGive u) s = syncUse u 0xB4 2 true (fun s n _ _ _ => semGive s n) s := rfl
theorem exec_barArv : exec (.barArv u) s = syncUse u 0xB5 3 true (fun s n _ _ _ => barArrive s n) s := rfl
theorem exec_barWait : exec (.barWait u) s = syncUse u 0xB6 3 false (acquire 0xB6) s := rfl
theorem exec_qnAcq : exec (.qnAcq u) s = syncUse u 0xB7 4 false (acquire 0xB7) s := rfl
theorem exec_qnTry : exec (.qnTry u) s = syncUse u 0xB8 4 false (fun s n actor _ _ => quoinTry s n actor) s := rfl
theorem exec_qnRel : exec (.qnRel u) s = syncUse u 0xB9 4 true (fun s n actor _ _ => quoinRelease s n actor) s := rfl
theorem exec_syncRd : exec (.syncRd u) s = syncUse u 0xBA 0 false (fun s n _ _ _ => .done s (BitVec.ofNat 64 (objVal s n))) s := rfl

end

theorem kind_ne_zero {k : Nat} (h : k ∈ [1, 2, 3, 4]) : k ≠ 0 := by
  rintro rfl
  exact absurd h (by decide)

theorem semGive_full {s : State} {n : Nat} (h : objVal s n = 2 ^ 64 - 1) : semGive s n = .fail s 0x5013 := if_pos h

theorem quoinRelease_refused {s : State} {n actor : Nat} (h : objVal s n ≠ actor + actorInstar s actor * 2 ^ 16) :
    quoinRelease s n actor = .fail s 0x5014 := if_pos (.inr h)

theorem actorInstar_cell (s : State) {n : Nat} (h : n < 1920) : actorInstar s n = cellInstar s n := if_pos (by omega)

/-- Settles O27: each operation by what it does to an object that nobody waits for, and the two refusals. -/
theorem syncItemsOfACell : Obligations.SyncItemsOfACell := by
  unfold Obligations.SyncItemsOfACell
  intro s x kind n hgo hs c r v old ends holder hn href hkind hokind howner hdesc hnone hinst
  have hnames : NamesObj s 1 (4 * c.part + c.slice) r kind n := ⟨hn, href, hkind, hokind, howner⟩
  have hquiet (release : Bool) : release = true → Quiet c := fun _ => hdesc
  have hcell : x.cell < 1920 := hgo.1
  have hactor : x.cell + actorInstar s x.cell * 2 ^ 16 = holder := by rw [actorInstar_cell s hcell]
  have hholder : x.cell + actorInstar s x.cell * 2 ^ 16 < 2 ^ 64 := by rw [actorInstar_cell s hcell]; omega
  refine ⟨fun hk => ?_, fun hk => ?_, fun hk hle => ?_, fun hk h1 => ?_, fun hk hlt => ?_, fun hk hfull hhandled => ?_,
    fun hk hlast => ?_, fun hk hnext => ?_, fun hk hgen => ?_, fun hk hfree => ?_, fun hk hheld => ?_, fun hk hheld hown => ?_,
    fun hk hother hhandled => ?_⟩
  · exact ⟨cellUse_done hgo hnames (kind_ne_zero hk) (.inl rfl) (hquiet _) (exec_ctrRd ..) read_done,
      cellUse_done hgo hnames (kind_ne_zero hk) (.inl rfl) (hquiet _) (exec_syncRd ..) read_done⟩
  all_goals subst hk
  · exact cellUse_done hgo hnames (by decide) (.inr rfl) (hquiet _) (exec_ctrAdd ..) (counterAdd_done hs hnone _)
  · exact cellUse_done hgo hnames (by decide) (.inr rfl) (hquiet _) (exec_ctrWait ..) (counterWait_done hle)
  · exact cellUse_done hgo hnames (by decide) (.inr rfl) (hquiet _) (exec_semTake ..) (semTake_done hs h1)
  · exact cellUse_done hgo hnames (by decide) (.inr rfl) (hquiet _) (exec_semGive ..) (semGive_done hs hnone hlt)
  · exact cellUse_traps hgo hnames (by decide) (.inr rfl) (hquiet _) (exec_semGive ..) (semGive_full hfull) hhandled
  · exact cellUse_done hgo hnames (by decide) (.inr rfl) (hquiet _) (exec_barArv ..) (barArrive_last hs hnone hlast)
  · exact cellUse_done hgo hnames (by decide) (.inr rfl) (hquiet _) (exec_barArv ..) (barArrive_next hs hnext)
  · exact cellUse_done hgo hnames (by decide) (.inr rfl) (hquiet _) (exec_barWait ..) (barWait_done hgen)
  · rw [← hactor]
    exact ⟨cellUse_done hgo hnames (by decide) (.inr rfl) (hquiet _) (exec_qnAcq ..) (quoinAcquire_done hs hfree hholder),
      cellUse_done hgo hnames (by decide) (.inr rfl) (hquiet _) (exec_qnTry ..) (quoinTry_done hs hfree hholder)⟩
  · exact cellUse_done hgo hnames (by decide) (.inr rfl) (hquiet _) (exec_qnTry ..) (quoinTry_held hheld)
  · exact cellUse_done hgo hnames (by decide) (.inr rfl) (hquiet _) (exec_qnRel ..) (quoinRelease_done hs hnone hheld (hown.trans hactor.symm))
  · exact cellUse_traps hgo hnames (by decide) (.inr rfl) (hquiet _) (exec_qnRel ..) (quoinRelease_refused (hactor ▸ hother)) hhandled

/-- Settles O28: the same operations as O27's, each completing its item. -/
theorem syncItemsOfAQueue : Obligations.SyncItemsOfAQueue := by
  unfold Obligations.SyncItemsOfAQueue
  intro s src ref value kind n hgo hs u old ends holder hn href hkind hokind howner hnone hctx hqueue
  have hnames : NamesObj s 0 src.ctx ref kind n := ⟨hn, href, hkind, hokind, howner⟩
  have hactor : holder + actorInstar s holder * 2 ^ 16 = holder := by
    rw [show actorInstar s holder = 0 from if_neg (by omega), Nat.zero_mul, Nat.add_zero]
  have hholder : holder + actorInstar s holder * 2 ^ 16 < 2 ^ 64 := by rw [hactor]; omega
  refine ⟨fun hk => ?_, fun hk => ?_, fun hk hle => ?_, fun hk h1 => ?_, fun hk hlt => ?_, fun hk hlast => ?_, fun hk hgen => ?_,
    fun hk hfree hbroken => ?_, fun hk hheld hown => ?_⟩
  · exact ⟨itemUse_done hgo hnames (kind_ne_zero hk) (.inl rfl) (exec_ctrRd ..) read_done,
      itemUse_done hgo hnames (kind_ne_zero hk) (.inl rfl) (exec_syncRd ..) read_done⟩
  all_goals subst hk
  · exact itemUse_done hgo hnames (by decide) (.inr rfl) (exec_ctrAdd ..) (counterAdd_done hs hnone _)
  · exact itemUse_done hgo hnames (by decide) (.inr rfl) (exec_ctrWait ..) (counterWait_done hle)
  · exact itemUse_done hgo hnames (by decide) (.inr rfl) (exec_semTake ..) (semTake_done hs h1)
  · exact itemUse_done hgo hnames (by decide) (.inr rfl) (exec_semGive ..) (semGive_done hs hnone hlt)
  · exact itemUse_done hgo hnames (by decide) (.inr rfl) (exec_barArv ..) (barArrive_last hs hnone hlast)
  · exact itemUse_done hgo hnames (by decide) (.inr rfl) (exec_barWait ..) (barWait_done hgen)
  · have hacq := quoinAcquire_done (ret := src.qpos) (w := value) hs hfree hholder
    have htry := quoinTry_done hs hfree hholder
    rw [hactor, hbroken] at hacq htry
    exact ⟨itemUse_done hgo hnames (by decide) (.inr rfl) (exec_qnAcq ..) hacq, itemUse_done hgo hnames (by decide) (.inr rfl) (exec_qnTry ..) htry⟩
  · exact itemUse_done hgo hnames (by decide) (.inr rfl) (exec_qnRel ..) (quoinRelease_done hs hnone hheld (hown.trans hactor.symm))

end Sys2Proof.Machine
end

section
/-! Waits that are not satisfied, the grant of one, and its timeout (R264, R265, R268). -/

namespace Sys2Proof.Machine

section
variable {s : State} {n : Nat} {w : Waiter}

/-! ### A wait that joins the queue of its object (R264, R265) -/

/-- A cell's operation waits: the cell holds it, and the object's queue has it last. -/
def CellWaits (i : Instr) (s : State) (x : CellItem) (op n : Nat) : Prop :=
  ∃ t : State, exec i s = .next t ∧
    t.cell x.cell = { s.cell x.cell with wait := some (op, sreg (s.cell x.cell) x.a, sreg (s.cell x.cell) x.b) } ∧
    mget t.waiters n = some (((mget s.waiters n).getD []) ++ [⟨x.cell, op, sreg (s.cell x.cell) x.b, x.d, s.now⟩]) ∧ t.host = s.host

theorem addWaiter_waiters : (addWaiter s n w).waiters = mset s.waiters n (((mget s.waiters n).getD []) ++ [w]) := rfl

theorem cellUse_joins {x : CellItem} {i : Instr} {op kind : Nat} (hgo : CellGo s x 0)
    (hnames : NamesObj s 1 (4 * (s.cell x.cell).part + (s.cell x.cell).slice) (sreg (s.cell x.cell) x.a) kind n) (h0 : kind ≠ 0)
    (hexec : exec i s = syncUse (.cell x) op kind false (acquire op) s)
    (hnot : tryWait op s n x.cell (sreg (s.cell x.cell) x.b) = none) : CellWaits i s x op n :=
  ⟨_, cellUse_waits hgo hnames h0 (.inr rfl) (fun h => absurd h Bool.false_ne_true) hexec (acquire_of_none hnot), setCell_same .., by
    rw [setCell_waiters, addWaiter_waiters, mget_mset_same], rfl⟩

/-! ### The only waiter leaves the queue -/

section
variable (hone : mget s.waiters n = some [w])
include hone

theorem dropWaiter_waiters : (dropWaiter s n w).waiters = mdel s.waiters n := by
  simp [dropWaiter, hone]

theorem dropWaiter_empties (hwf : mwf s.waiters = true) : mget (dropWaiter s n w).waiters n = none := by
  rw [dropWaiter_waiters hone, mget_mdel_same n hwf]

end

theorem dropWaiter_fld {g : Field} (hg : g.off ≠ 0xc00000) : (dropWaiter s n w).fld g = s.fld g := fld_setFld_other _ _ hg

theorem dropWaiter_window (c : Cell) : cellWindow (dropWaiter s n w) c = cellWindow s c := by
  unfold cellWindow window
  rw [dropWaiter_fld (by dsimp only; omega), dropWaiter_fld (by dsimp only; omega)]

/-! ### The grant to a waiting cell (R265) -/

/-- A cell whose wait ends with a result. -/
def wokenCell (c : Cell) (ret : Nat) (r : Word) : Cell := { setS c ret r with wait := none, pc := (c.pc + 1) % 4096 }

theorem serve_counter (hone : mget s.waiters n = some [w]) (hop : w.op = 0xB2) (hcell : w.actor < 1920) (hle : w.value.toNat ≤ objVal s n) :
    serve s n = (dropWaiter s n w).setCell w.actor (wokenCell (s.cell w.actor) w.ret (BitVec.ofNat 64 (objVal s n))) := by
  rw [serve, hone, Option.getD_some, List.foldl_cons, List.foldl_nil, hop, tryWait_counter, if_pos hle]
  exact if_pos (by omega)

/-- The state in which an object has a new VALUE and the one cell that waited for it has been given that VALUE. -/
def granted (s : State) (n v : Nat) (w : Waiter) : State :=
  (dropWaiter (setVal s n v) n w).setCell w.actor (wokenCell (s.cell w.actor) w.ret (BitVec.ofNat 64 v))

theorem granted_fld {g : Field} {v : Nat} (hg : g.off ≠ 0xc00000) : (granted s n v w).fld g = (setVal s n v).fld g :=
  dropWaiter_fld (s := setVal s n v) (w := w) (n := n) hg

theorem granted_waiters {v : Nat} (hone : mget s.waiters n = some [w]) (hwf : mwf s.waiters = true) :
    mget (granted s n v w).waiters n = none := dropWaiter_empties (s := setVal s n v) hone hwf

theorem granted_cell {v : Nat} : (granted s n v w).cell w.actor = wokenCell (s.cell w.actor) w.ret (BitVec.ofNat 64 v) := setCell_same ..

theorem counterAdd_serves {a : Word} {v : Nat} (hs : Canonical s) (hv : (objVal s n + a.toNat) % 2 ^ 64 = v)
    (hone : mget s.waiters n = some [w]) (hop : w.op = 0xB2) (hcell : w.actor < 1920) (hle : w.value.toNat ≤ v) :
    counterAdd s n a = .done (granted s n v w) (BitVec.ofNat 64 (objVal s n)) := by
  have hval : objVal (setVal s n v) n = v := (LeavesObj.setVal hs (hv ▸ Nat.mod_lt _ (by decide))).value
  rw [counterAdd, hv, serve_counter (s := setVal s n v) hone hop hcell (by rwa [hval]), hval]
  rfl

/-! ### The timeout of a wait (R268) -/

theorem waitTimeout_fails (hone : mget s.waiters n = some [w]) (hover : w.since + s.fld FLT_TIMEOUT_A_SYNC_MS * 1000000 ≤ s.now) :
    waitTimeout s n w.actor = failWait (dropWaiter s n w) w 0x5015 := by
  rw [waitTimeout, hone, Option.getD_some, List.find?_cons_of_pos (by simp)]
  exact if_pos hover

theorem failWait_timeout (hcell : w.actor < 1920) (hhandled : handled (s.cell w.actor) 8 = true) : failWait s w 0x5015 =
    s.setCell w.actor { s.cell w.actor with
      wait := none, status := putField (putField (s.cell w.actor).status 32 5 8) 37 1 1, epc := (s.cell w.actor).pc,
      pc := ((cellWindow s (s.cell w.actor)).1 + 8) % 4096 } := by
  have hwaiting : handled { s.cell w.actor with wait := none } 8 = true := hhandled
  rw [failWait, if_pos (by omega), if_pos rfl, takeException]
  dsimp only
  rw [hwaiting, if_pos rfl]
  rfl

theorem bits_exceptionStatus (st : Word) {code : Nat} (h : code < 32) :
    bits (putField (putField st 32 5 code) 37 1 1).toNat 32 5 = code := by
  rw [bits_putField_other _ (by decide) (.inr (by decide)), bits_putField_same _ _ _ _ (by decide)]
  exact Nat.mod_eq_of_lt h

end

/-- Settles O29: what `acquire` queues while its condition does not hold, what `serve` makes of a single waiter, and `failWait` at the
timeout. -/
theorem unsatisfiedWaitsJoinTheQueue : Obligations.UnsatisfiedWaitsJoinTheQueue := by
  unfold Obligations.UnsatisfiedWaitsJoinTheQueue
  refine ⟨fun s x kind n hgo => ?_, fun s x n w hgo hs => ?_, fun s n w hone hwf hcell hhandled hover => ?_⟩
  · intro c r v old waits hn href hkind hokind howner
    have hnames : NamesObj s 1 (4 * c.part + c.slice) r kind n := ⟨hn, href, hkind, hokind, howner⟩
    refine ⟨fun hk hlt => ?_, fun hk hzero => ?_, fun hk hgen => ?_, fun hk hheld => ?_⟩ <;> subst hk
    · exact cellUse_joins hgo hnames (by decide) (exec_ctrWait ..) (tryWait_counter.trans (if_neg (Nat.not_le.2 hlt)))
    · exact cellUse_joins hgo hnames (by decide) (exec_semTake ..) (tryWait_semaphore.trans (if_neg (by rw [show objVal s n = 0 from hzero]; decide)))
    · exact cellUse_joins hgo hnames (by decide) (exec_barWait ..) (tryWait_barrier.trans (if_neg (not_not.2 hgen)))
    · exact cellUse_joins hgo hnames (by decide) (exec_qnAcq ..) (tryWait_quoin.trans (if_pos hheld))
  · intro c sum hn href hkind hokind howner hdesc hone hwf hop hcell hother hle
    have hnames : NamesObj s 1 (4 * c.part + c.slice) (sreg c x.a) 1 n := ⟨hn, href, hkind, hokind, howner⟩
    have hexec : exec (.ctrAdd (.cell x)) s =
        .next (finishCell x.cell c.pc 0 (cellUseOut x 0xB1 c (counterAdd s n (sreg c x.b)))) :=
      (exec_ctrAdd ..).trans (syncUse_cell hgo hnames (by decide) (.inr rfl) fun _ => hdesc)
    have hv : sum < 2 ^ 64 := Nat.mod_lt _ (by decide)
    rw [counterAdd_serves (v := sum) hs rfl hone hop hcell hle, cellUseOut, finishCell] at hexec
    refine ⟨_, hexec, ?_, ?_, ?_⟩
    · rw [setCell_at_fld, granted_fld (by dsimp only; omega)]
      exact (LeavesObj.setVal hs hv).value
    · rw [setCell_waiters, granted_waiters hone hwf]
    · rw [setCell_other _ _ _ hother, setCell_same, granted_cell]
      exact ⟨rfl, rfl, fun hret => sreg_setS_same _ hret _, fun hd => sreg_setS_same _ hd _⟩
  · have hstep : exec (.syncWaitTimeout n w.actor) s = .next (waitTimeout s n w.actor) := rfl
    rw [waitTimeout_fails hone hover, failWait_timeout (s := dropWaiter s n w) hcell hhandled] at hstep
    refine ⟨_, hstep, dropWaiter_empties hone hwf, ?_⟩
    rw [setCell_same, dropWaiter_window]
    exact ⟨rfl, rfl, rfl, bits_exceptionStatus _ (by decide)⟩

end Sys2Proof.Machine
end

section
/-! sync.init, sync.free, fence, ctl.nop and ctl.stamp (R251, R261 to R263, R269, R277, R561, R581). -/

namespace Sys2Proof.Machine

variable {s : State} {src : Src} {n : Nat}

/-! ### An object as sync.init and sync.free leave it (R263, R269, R277) -/

theorem instarAfter_lt {i : Nat} (h : i < 2 ^ 24) : instarAfter i < 2 ^ 24 := by
  unfold instarAfter
  split <;> omega

theorem fld_nextObjInstar (hs : Canonical s) : (nextObjInstar s n).fld (SYN_OBJ_A_INSTAR n) = instarAfter (s.fld (SYN_OBJ_A_INSTAR n)) :=
  fld_setFld_of_lt hs (show 16 + 24 ≤ 64 by decide) (instarAfter_lt (fld_lt s (SYN_OBJ_A_INSTAR n)))

theorem Canonical.setReg (hs : Canonical s) (o : Nat) (w : Word) : Canonical (s.setReg o w) := hs.of_kept setReg_kept

/-- The word of SYN_OBJ_A that sync.init and sync.free write. -/
def objWord (kind owner inst : Nat) : Nat := kind + owner * 2 ^ 4 + inst * 2 ^ 16

/-- A state with an object's two registers written. -/
def withObj (s : State) (n kind owner inst v : Nat) : State :=
  setVal (s.setReg (SYN_OBJ_A_KIND n).off (BitVec.ofNat 64 (objWord kind owner inst))) n v

theorem withObj_flds (hs : Canonical s) {kind owner inst v : Nat} (hkind : kind < 8) (howner : owner < 64) (hinst : inst < 2 ^ 24)
    {t : State} (ha : t.reg (SYN_OBJ_A_KIND n).off = (withObj s n kind owner inst v).reg (SYN_OBJ_A_KIND n).off) :
    t.fld (SYN_OBJ_A_KIND n) = kind ∧ t.fld (SYN_OBJ_A_OWNER_KIND n) = 0 ∧ t.fld (SYN_OBJ_A_OWNER n) = owner ∧
      t.fld (SYN_OBJ_A_INSTAR n) = inst ∧ t.fld (SYN_OBJ_A_HELD n) = 0 := by
  have hword : objWord kind owner inst < 2 ^ 64 := by unfold objWord; omega
  have hreg : (t.reg (SYN_OBJ_A_KIND n).off).toNat = objWord kind owner inst := by
    rw [ha, withObj, setVal, reg_setFld_other _ _ (by dsimp only; omega), reg_setReg_same _ _ hs.regs, BitVec.toNat_ofNat,
      Nat.mod_eq_of_lt hword]
  have hbits (lo w : Nat) : State.fld t ⟨(SYN_OBJ_A_KIND n).off, lo, w⟩ = bits (objWord kind owner inst) lo w := by
    rw [State.fld, hreg]
  refine ⟨(hbits 0 3).trans ?_, (hbits 3 1).trans ?_, (hbits 4 6).trans ?_, (hbits 16 24).trans ?_, (hbits 11 1).trans ?_⟩ <;>
    (unfold bits objWord; omega)

theorem objRef_of_instar {i : Nat} (h : s.fld (SYN_OBJ_A_INSTAR n) = i) : objRef s n = BitVec.ofNat 64 (n + i * 2 ^ 14) := by
  rw [objRef, h]

theorem withObj_value (hs : Canonical s) {kind owner inst v : Nat} (hv : v < 2 ^ 64) :
    (withObj s n kind owner inst v).fld (SYN_OBJ_B_VALUE n) = v := fld_setFld_of_lt (hs.setReg _ _) (Nat.le_refl 64) hv

/-! ### sync.init (R263) -/

theorem firstFreeObj_some (hn : n < 16384) (hfree : s.fld (SYN_OBJ_A_KIND n) = 0) (hbelow : ∀ j, j < n → s.fld (SYN_OBJ_A_KIND j) ≠ 0) :
    firstFreeObj s = some n := by
  rw [firstFreeObj, List.find?_range_eq_some]
  exact ⟨decide_eq_true hfree, List.mem_range.2 hn, fun j hj => by simpa using hbelow j hj⟩

theorem firstFreeObj_none (h : ∀ j, j < 16384 → s.fld (SYN_OBJ_A_KIND j) ≠ 0) : firstFreeObj s = none := by
  rw [firstFreeObj, List.find?_eq_none]
  exact fun j hj => by simpa using h j (List.mem_range.1 hj)

/-- The state after sync.init claims object `n` for a context. -/
def claimed (s : State) (n kind owner : Nat) (value : Word) : State :=
  (withObj (nextObjInstar s n) n kind owner (instarAfter (s.fld (SYN_OBJ_A_INSTAR n))) (if kind = 4 then 0 else value.toNat)).incSat
    SYN_STATUS_IN_USE 1

section
variable {kind owner : Nat} {value : Word}

theorem syncInitBody_none (hkind : kind = 1) (hfull : firstFreeObj s = none) :
    syncInitBody src kind 0 owner value s = (s, .status 0x5016) := by
  subst hkind
  rw [syncInitBody, if_neg (by simp), if_neg (by simp), hfull]

theorem syncInitBody_done (hs : Canonical s) (hfirst : firstFreeObj s = some n)
    (hkind : kind = 1 ∨ kind = 2 ∨ kind = 4 ∨ (kind = 3 ∧ 1 ≤ value.toNat ∧ value.toNat ≤ 16777215)) (howner : owner < 64) :
    syncInitBody src kind 0 owner value s = (claimed s n kind owner value,
      .done 0 (BitVec.ofNat 64 (n + instarAfter (s.fld (SYN_OBJ_A_INSTAR n)) * 2 ^ 14)) 0 0) := by
  have hvalue : kind = 3 → ¬ (value = 0 ∨ 16777215 < value.toNat) := by
    rintro rfl (rfl | hbig)
    · simp at hkind
    · omega
  have hlegal : ¬ (kind = 0 ∨ 4 < kind ∨ (kind = 3 ∧ (value = 0 ∨ 16777215 < value.toNat))) := by
    rintro (h | h | ⟨h3, h⟩)
    · omega
    · omega
    · exact hvalue h3 h
  have hs' : Canonical (nextObjInstar s n) := hs.setFld _ _
  have hinst := (withObj_flds (n := n) (v := if kind = 4 then 0 else value.toNat) hs' (show kind < 8 by omega) howner
    (instarAfter_lt (fld_lt s (SYN_OBJ_A_INSTAR n))) rfl).2.2.2.1
  unfold syncInitBody
  rw [if_neg hlegal, if_neg (by simp), hfirst]
  dsimp only
  rw [fld_nextObjInstar hs, Nat.zero_mul, Nat.add_zero]
  exact Prod.ext rfl (congrArg (fun w => Reply.done 0 w 0 0) (objRef_of_instar hinst))

theorem syncInit_claims (hgo : ItemGo s src) (hs : Canonical s) (hn : n < 16384) (hfree : s.fld (SYN_OBJ_A_KIND n) = 0)
    (hbelow : ∀ j, j < n → s.fld (SYN_OBJ_A_KIND j) ≠ 0)
    (hkind : kind = 1 ∨ kind = 2 ∨ kind = 4 ∨ (kind = 3 ∧ 1 ≤ value.toNat ∧ value.toNat ≤ 16777215)) (howner : owner < 64) :
    Completes (.syncInit src kind 0 owner value) s src 0xFA 0
      (BitVec.ofNat 64 (n + instarAfter (s.fld (SYN_OBJ_A_INSTAR n)) * 2 ^ 14)) 0 0 (claimed s n kind owner value) :=
  congrArg _ (runItem_done hgo (syncInitBody_done hs (firstFreeObj_some hn hfree hbelow) hkind howner))

theorem claimed_flds (hs : Canonical s) (hkind : kind < 8) (howner : owner < 64) :
    let t := claimed s n kind owner value
    t.fld (SYN_OBJ_A_KIND n) = kind ∧ t.fld (SYN_OBJ_A_OWNER_KIND n) = 0 ∧ t.fld (SYN_OBJ_A_OWNER n) = owner ∧
      t.fld (SYN_OBJ_A_INSTAR n) = instarAfter (s.fld (SYN_OBJ_A_INSTAR n)) ∧ t.fld (SYN_OBJ_A_HELD n) = 0 :=
  withObj_flds (v := if kind = 4 then 0 else value.toNat) (hs.setFld _ _) hkind howner
    (instarAfter_lt (fld_lt s (SYN_OBJ_A_INSTAR n))) (reg_incSat_other _ _ (by dsimp only; omega))

theorem claimed_value (hs : Canonical s) :
    (claimed s n kind owner value).fld (SYN_OBJ_B_VALUE n) = if kind = 4 then 0 else value.toNat :=
  (fld_setFld_other _ _ (by dsimp only; omega)).trans (withObj_value (hs.setFld _ _) (by split <;> omega))

end

/-! ### sync.free (R261, R262, R269) -/

/-- The state after an object that nobody waits for is freed. -/
def freed (s : State) (n : Nat) : State :=
  (withObj (nextObjInstar s n) n 0 0 (instarAfter (s.fld (SYN_OBJ_A_INSTAR n))) 0).decFld SYN_STATUS_IN_USE 1

theorem freeObj_of_none (hs : Canonical s) (hnone : (mget s.waiters n).getD [] = []) : freeObj s n = freed s n := by
  unfold freeObj
  dsimp only
  rw [hnone, fld_nextObjInstar hs, freed, withObj, objWord, Nat.zero_mul, Nat.zero_add]
  rfl

theorem syncFreeBody_done {ref : Word} {kind : Nat} (hs : Canonical s) (hnames : NamesObj s 0 src.ctx ref kind n) (h0 : kind ≠ 0)
    (hnone : (mget s.waiters n).getD [] = []) (hheld : kind = 4 → s.flag (SYN_OBJ_A_HELD n) = false) :
    syncFreeBody src ref s = (freed s n, .ok) := by
  rw [syncFreeBody, syncLookup_of_names hnames h0 (.inl rfl)]
  dsimp only
  rw [hnames.kind, if_neg (fun h => by simp [hheld h.1] at h), freeObj_of_none hs hnone]

theorem freed_flds (hs : Canonical s) : (freed s n).fld (SYN_OBJ_A_KIND n) = 0 ∧
    (freed s n).fld (SYN_OBJ_A_INSTAR n) = instarAfter (s.fld (SYN_OBJ_A_INSTAR n)) := by
  obtain ⟨hkind, -, -, hinst, -⟩ := withObj_flds (n := n) (t := freed s n) (hs.setFld _ _) (show 0 < 8 by decide) (show 0 < 64 by decide)
    (instarAfter_lt (fld_lt s (SYN_OBJ_A_INSTAR n))) (reg_decFld_other _ _ (by dsimp only; omega))
  exact ⟨hkind, hinst⟩

theorem itemUse_stale {i : Instr} {ref w : Word} {op want : Nat} {release : Bool} {f : State → Nat → Nat → Nat → Word → SyncOut}
    (hgo : ItemGo s src) (hexec : exec i s = syncUse (.item src ref w) op want release f s)
    (h : bits ref.toNat 14 50 ≠ s.fld (SYN_OBJ_A_INSTAR (bits ref.toNat 0 14))) :
    exec i s = .next (completeFail (s.incSat SYN_STALE_COUNT 1) src op 0x5011 0 0) := by
  rw [hexec, syncUse, runItem_fail hgo]
  rw [syncLookup_stale h]
  rfl

theorem syncFree_stale {ref : Word} (hgo : ItemGo s src)
    (h : bits ref.toNat 14 50 ≠ s.fld (SYN_OBJ_A_INSTAR (bits ref.toNat 0 14))) :
    exec (.syncFree src ref) s = .next (completeFail (s.incSat SYN_STALE_COUNT 1) src 0xFB 0x5011 0 0) :=
  congrArg _ (runItem_fail hgo (by rw [syncFreeBody, syncLookup_stale h]; rfl))

/-- Settles O30: the object that sync.init claims and sync.free frees, field by field, and the refusals. -/
theorem objectsAreClaimedAndFreed : Obligations.ObjectsAreClaimedAndFreed := by
  unfold Obligations.ObjectsAreClaimedAndFreed
  intro s src hgo hs hctx
  refine ⟨fun n kind owner value hn hfree hbelow hkind howner => ?_, fun n ref hn href h0 hokind howner hnone hheld => ?_,
    fun n ref value hn hstale => ?_, fun kind owner value hfull hkind => ?_⟩
  · obtain ⟨hk, hok, ho, hi, hh⟩ := claimed_flds (n := n) (value := value) hs (show kind < 8 by omega) howner
    exact ⟨_, syncInit_claims hgo hs hn hfree hbelow hkind howner, hk, hok, ho, hi, claimed_value hs, flag_eq_false.2 hh, rfl⟩
  · have hnames : NamesObj s 0 src.ctx ref (s.fld (SYN_OBJ_A_KIND n)) n := ⟨hn, href, rfl, hokind, howner⟩
    obtain ⟨hk, hi⟩ := freed_flds (n := n) hs
    exact ⟨_, congrArg _ (runItem_done hgo (syncFreeBody_done hs hnames h0 hnone hheld)), hk, hi, rfl⟩
  · subst hn
    exact ⟨syncFree_stale hgo hstale, itemUse_stale hgo (exec_ctrAdd ..) hstale⟩
  · exact congrArg _ (runItem_fail hgo (syncInitBody_none hkind (firstFreeObj_none hfull)))

/-! ### The fence, ctl.nop and ctl.stamp (R241, R251, R561, R581) -/

section
variable {op : Nat} {body : State → State × Reply}

theorem runItem_purging (h : s.flag (HIF_CTX_CTL_PURGING src.ctx) = true) : runItem s src op body = completeFail s src op 0x1005 0 0 :=
  if_pos h

variable (hpurge : s.flag (HIF_CTX_CTL_PURGING src.ctx) = false)
include hpurge

/-- An item that waits for READY, before it. -/
theorem runItem_notReady (hready : s.fld GLB_STATE_READY = 0) (hop : earlyOp op false = false) (hop' : op ≠ 0xD2) :
    runItem s src op body = completeFail s src op 0xC001 0 0 := by
  rw [runItem, if_neg (by simp [hpurge]), if_pos ⟨hready, hop⟩, if_neg hop']

/-- An item that runs also before READY. -/
theorem runItem_early {t : State} {st : Nat} {r o g : Word} (hop : earlyOp op false = true) (hb : body s = (t, .done st r o g)) :
    runItem s src op body = complete t src op st r o g := by
  rw [runItem, if_neg (by simp [hpurge]), if_neg (by simp [hop]), hb]

end

theorem exec_fence_cell (x : CellItem) (s : State) : exec (.fence (.cell x)) s =
    cellItem x 0 (fun s c => if c.desc.any fun d => d.2.active then .wait s c else .ok s c) s := rfl

/-- Settles O31: the fence by the descriptors in flight, and each control item by the checks that stand before it. -/
theorem fencesOrderAndControlItemsComplete : Obligations.FencesOrderAndControlItemsComplete := by
  unfold Obligations.FencesOrderAndControlItemsComplete
  refine ⟨fun s x hgo => ⟨fun hquiet => ?_, fun hbusy => ?_⟩, fun s src ref value => ⟨fun hpurge => ⟨?_, ?_⟩, fun hgo => ?_,
    fun hpurge i hi => ?_, fun hpurge hready => ⟨?_, ?_⟩⟩⟩
  · have hnone : ((s.cell x.cell).desc.any fun d => d.2.active) = false := by simpa [List.any_eq_false] using hquiet
    exact cellNext_of_ok hgo (exec_fence_cell ..) (if_neg (by rw [hnone]; exact Bool.false_ne_true))
  · have hany : ((s.cell x.cell).desc.any fun d => d.2.active) = true := by simpa [List.any_eq_true] using hbusy
    rw [exec_fence_cell, cellItem_of_go hgo, hany]
    rfl
  · exact congrArg _ (runItem_early hpurge rfl rfl)
  · exact congrArg _ (runItem_early hpurge rfl rfl)
  · exact congrArg _ (runItem_done hgo rfl)
  · simp only [List.mem_cons, List.not_mem_nil, or_false] at hi
    rcases hi with rfl | rfl | rfl | rfl <;> exact congrArg _ (runItem_purging hpurge)
  · exact congrArg _ (runItem_notReady hpurge hready rfl (by decide))
  · exact congrArg _ (runItem_notReady hpurge hready rfl (by decide))

end Sys2Proof.Machine
end

section
/-! The dma items, dma.wait, dma.rst, the DMA timeout, and lgt.send (R253 to R258, R294, R325, R503). -/

namespace Sys2Proof.Machine

section
variable {s : State} {x : CellItem} {c : Cell} {d : Desc} {ok : Cell → Bool} {ext : Nat} {i : Instr}

/-! ### Starting a descriptor (R254, R255) -/

/-- A descriptor with REMOTE, LOCAL and COUNT from the registers an item names. -/
def filledDesc (x : CellItem) (c : Cell) (d : Desc) : Desc :=
  { d with remote := sreg c x.a, local_ := (sreg c x.b).toNat % 2 ^ 22, count := (sreg c x.c).toNat % 2 ^ 32 }

/-- What an item makes of a descriptor that is idle and in range. -/
def startedDesc (x : CellItem) (c : Cell) (d : Desc) : Desc :=
  { filledDesc x c d with active := decide ((sreg c x.c).toNat % 2 ^ 32 ≠ 0) }

/-- A descriptor's LOCAL extent stays in cell memory. -/
def ExtentFits (s : State) (x : CellItem) (c : Cell) (d : Desc) : Prop :=
  (sreg c x.b).toNat % 2 ^ 22 + descExtent (cellModel s c) (filledDesc x c d) ≤ 2 ^ 22

theorem startBody_legal (hd : x.d ≤ 15) (hok : ok c = true) (hfits : ExtentFits s x c d) : startBody x d ok s c =
    if (descOf c x.d).active then .wait s c else .ok s (setDesc c x.d (startedDesc x c d)) := by
  have hlegal : ¬ (15 < x.d ∨ (!ok c) = true ∨ cellBytes < (filledDesc x c d).local_ + descExtent (cellModel s c) (filledDesc x c d)) := by
    rintro (h | h | h)
    · omega
    · simp [hok] at h
    · exact absurd hfits (Nat.not_le.2 h)
  exact if_neg hlegal

theorem startBody_illegal (h : ok c = false ∨ ¬ ExtentFits s x c d) : startBody x d ok s c = .exc s c 2 := by
  have hillegal : 15 < x.d ∨ (!ok c) = true ∨ cellBytes < (filledDesc x c d).local_ + descExtent (cellModel s c) (filledDesc x c d) :=
    .inr (h.imp (by simp [·]) Nat.not_le.1)
  exact if_pos hillegal

theorem starts_of_fits (hgo : CellGo s x ext) (hexec : exec i s = cellItem x ext (startBody x d ok) s) (hd : x.d ≤ 15)
    (hidle : (descOf (s.cell x.cell) x.d).active = false) (hok : ok (s.cell x.cell) = true) (hfits : ExtentFits s x (s.cell x.cell) d) :
    Starts i s x ext (startedDesc x (s.cell x.cell) d) :=
  cellNext_of_ok hgo hexec (by rw [startBody_legal hd hok hfits, hidle, if_neg Bool.false_ne_true])

theorem traps_of_start (hgo : CellGo s x ext) (hexec : exec i s = cellItem x ext (startBody x d ok) s)
    (hhandled : handled (s.cell x.cell) 2 = true) (h : ok (s.cell x.cell) = false ∨ ¬ ExtentFits s x (s.cell x.cell) d) :
    CellTraps i s x 2 :=
  cellTraps_of_exc hgo hexec hhandled (startBody_illegal h)

theorem waits_of_active (hgo : CellGo s x ext) (hexec : exec i s = cellItem x ext (startBody x d ok) s) (hd : x.d ≤ 15)
    (hactive : (descOf (s.cell x.cell) x.d).active = true) (hok : ok (s.cell x.cell) = true) (hfits : ExtentFits s x (s.cell x.cell) d) :
    exec i s = .next (s.setCell x.cell (s.cell x.cell)) := by
  rw [hexec, cellItem_of_go hgo, startBody_legal hd hok hfits, hactive, if_pos rfl]
  rfl

/-! ### The LOCAL extent of each OP (R247, R254, R294) -/

theorem descExtent_bytes (m : Option Model) (h : d.op = 1 ∨ d.op = 2) : descExtent m d = d.count := if_pos h

theorem descExtent_indexed (m : Option Model) (h : d.op = 3 ∨ d.op = 4) : descExtent m d = d.count * d.elemUnits * 16 :=
  (if_neg (by omega)).trans (if_pos h)

theorem descExtent_walk (m : Option Model) (h : d.op = 5) : descExtent m d = d.count * walkUnit m d.word4 := by
  simp [descExtent, h]

theorem descExtent_append (m : Model) (h : d.op = 6) : descExtent (some m) d = d.count * bits d.word4.toNat 56 8 * 4 * m.headDim := by
  simp [descExtent, h]

theorem descExtent_send (m : Option Model) (h : d.op = 7) : descExtent m d = 0 := by
  simp [descExtent, h]

theorem walkUnit_page {w : Word} (m : Option Model) (h : bits w.toNat 48 2 = 0) : walkUnit m w = 16384 := by
  simp [walkUnit, walkUnit.pageSize, h]

theorem walkUnit_reference {w : Word} (m : Option Model) (h : bits w.toNat 48 2 = 3) : walkUnit m w = 8 := by
  simp [walkUnit, h]

theorem walkUnit_half {w : Word} (m : Model) (h : bits w.toNat 48 2 = 1 ∨ bits w.toNat 48 2 = 2) :
    walkUnit (some m) w = 2 * m.groupHeads * 2 ^ m.log2ppp * m.headDim := by
  rcases h with h | h <;> simp [walkUnit, kvGeometry, h]

/-! ### The items as `startBody` -/

theorem exec_dmaIn : exec (.dmaIn x) s = cellItem x 0 (startBody x (newDesc 1) fun _ => true) s := rfl
theorem exec_dmaOut : exec (.dmaOut x) s = cellItem x 0 (startBody x (newDesc 2) fun _ => true) s := rfl
theorem exec_dmaWsend : exec (.dmaWsend x) s = cellItem x 0 (startBody x (newDesc 7) fun _ => true) s := rfl
theorem exec_dmaGth : exec (.dmaGth x) s = cellItem x 1 (startBody x (indexedDesc 3 x.w1) (indexedOk x)) s := rfl
theorem exec_dmaSct : exec (.dmaSct x) s = cellItem x 1 (startBody x (indexedDesc 4 x.w1) (indexedOk x)) s := rfl
theorem exec_dmaWalk : exec (.dmaWalk x) s = cellItem x 1 (startBody x { newDesc 5 with word4 := x.w1 } fun _ => walkOk x.w1) s := rfl

theorem indexedOk_iff : indexedOk x c = true ↔ 1 ≤ bits x.w1.toNat 22 8 ∧ bits x.w1.toNat 22 8 ≤ 64 ∧ bits x.w1.toNat 32 32 % 16 = 0 ∧
    bits x.w1.toNat 0 22 + 4 * ((sreg c x.c).toNat % 2 ^ 32) ≤ 2 ^ 22 := by
  simp only [indexedOk, Bool.and_eq_true, decide_eq_true_eq, and_assoc]
  rfl

theorem walkOk_iff {w : Word} : walkOk w = true ↔ bits w.toNat 32 16 ≠ 0 ∧ bits w.toNat 50 2 ≠ 3 := by
  simp only [walkOk, Bool.and_eq_true, decide_eq_true_eq]

theorem appOk_iff {m : Model} : appOk (some m) x c = true ↔ 1 ≤ bits x.w1.toNat 56 8 ∧
    bits x.w1.toNat 48 8 + bits x.w1.toNat 56 8 ≤ m.groupHeads ∧ 1 ≤ (sreg c x.c).toNat % 2 ^ 32 ∧ (sreg c x.c).toNat % 2 ^ 32 ≤ 512 := by
  simp only [appOk, Bool.and_eq_true, decide_eq_true_eq, and_assoc]

theorem fits_bytes {op : Nat} (hop : op = 1 ∨ op = 2) :
    ExtentFits s x c (newDesc op) ↔ (sreg c x.b).toNat % 2 ^ 22 + (sreg c x.c).toNat % 2 ^ 32 ≤ 2 ^ 22 := by
  rw [ExtentFits, descExtent_bytes _ (show (filledDesc x c (newDesc op)).op = 1 ∨ _ from hop)]
  rfl

theorem fits_indexed {op : Nat} (hop : op = 3 ∨ op = 4) : ExtentFits s x c (indexedDesc op x.w1) ↔
    (sreg c x.b).toNat % 2 ^ 22 + (sreg c x.c).toNat % 2 ^ 32 * bits x.w1.toNat 22 8 * 16 ≤ 2 ^ 22 := by
  rw [ExtentFits, descExtent_indexed _ (show (filledDesc x c (indexedDesc op x.w1)).op = 3 ∨ _ from hop)]
  rfl

theorem fits_send : ExtentFits s x c (newDesc 7) := by
  rw [ExtentFits, descExtent_send _ rfl]
  omega

theorem fits_walk : ExtentFits s x c { newDesc 5 with word4 := x.w1 } ↔
    (sreg c x.b).toNat % 2 ^ 22 + (sreg c x.c).toNat % 2 ^ 32 * walkUnit (cellModel s c) x.w1 ≤ 2 ^ 22 := by
  rw [ExtentFits, descExtent_walk _ rfl]
  rfl

theorem fits_append {m : Model} (hm : cellModel s c = some m) : ExtentFits s x c { newDesc 6 with word4 := x.w1 } ↔
    (sreg c x.b).toNat % 2 ^ 22 + (sreg c x.c).toNat % 2 ^ 32 * bits x.w1.toNat 56 8 * 4 * m.headDim ≤ 2 ^ 22 := by
  rw [ExtentFits, hm, descExtent_append _ rfl]
  rfl

theorem dmaApp_starts {m : Model} (hgo : CellGo s x 1) (hd : x.d ≤ 15) (hidle : (descOf (s.cell x.cell) x.d).active = false)
    (hm : cellModel s (s.cell x.cell) = some m) (hok : appOk (some m) x (s.cell x.cell) = true)
    (hfits : ExtentFits s x (s.cell x.cell) { newDesc 6 with word4 := x.w1 }) :
    Starts (.dmaApp x) s x 1 (startedDesc x (s.cell x.cell) { newDesc 6 with word4 := x.w1 }) :=
  cellNext_of_ok (body := appBody x) hgo rfl (by
    rw [appBody, startBody_legal hd (by rwa [hm]) hfits, hidle, if_neg Bool.false_ne_true])

/-- The bytes a walk of one page may leave, by its PART: a page, one half of it, or the reference. -/
theorem fits_walk_of_part {l n : Nat} {m : Option Model} {w : Word} (hpage : bits w.toNat 48 2 = 0 → l + n * 16384 ≤ 2 ^ 22)
    (href : bits w.toNat 48 2 = 3 → l + n * 8 ≤ 2 ^ 22)
    (hhalf : bits w.toNat 48 2 = 1 ∨ bits w.toNat 48 2 = 2 → ∃ m', m = some m' ∧
      l + n * (2 * m'.groupHeads * 2 ^ m'.log2ppp * m'.headDim) ≤ 2 ^ 22) : l + n * walkUnit m w ≤ 2 ^ 22 := by
  have hpart : bits w.toNat 48 2 < 4 := Nat.mod_lt _ (by decide)
  obtain h | h | h : bits w.toNat 48 2 = 0 ∨ (bits w.toNat 48 2 = 1 ∨ bits w.toNat 48 2 = 2) ∨ bits w.toNat 48 2 = 3 := by omega
  · exact walkUnit_page m h ▸ hpage h
  · obtain ⟨m', rfl, hle⟩ := hhalf h
    rwa [walkUnit_half m' h]
  · exact walkUnit_reference m h ▸ href h

/-! ### dma.wait, dma.rst and the timeout (R257, R258, R503) -/

section
variable (hd : x.d ≤ 15)
include hd

theorem dmaWaitBody_idle (hidle : (descOf c x.d).active = false) (hclean : (descOf c x.d).faulted = false) : dmaWaitBody x s c = .ok s c := by
  simp [dmaWaitBody, hidle, hclean, Nat.not_lt.2 hd]

theorem dmaWaitBody_active (hactive : (descOf c x.d).active = true) : dmaWaitBody x s c = .wait s c := by
  simp [dmaWaitBody, hactive, Nat.not_lt.2 hd]

theorem dmaWaitBody_faulted (hidle : (descOf c x.d).active = false) (hfaulted : (descOf c x.d).faulted = true) :
    dmaWaitBody x s c = .exc s c (if (descOf c x.d).status = 0x5024 then 8 else 6) := by
  simp [dmaWaitBody, hidle, hfaulted, Nat.not_lt.2 hd]

theorem dmaRstBody_faulted (hfaulted : (descOf c x.d).faulted = true) :
    dmaRstBody x c = some (setDesc c x.d { descOf c x.d with active := true, faulted := false, status := 0 }) := by
  simp [dmaRstBody, hfaulted, Nat.not_lt.2 hd]

end

theorem dmaRstBody_clean (hclean : (descOf c x.d).faulted = false) : dmaRstBody x c = none := by
  simp [dmaRstBody, hclean]

theorem exec_dmaTimeout_active {n k : Nat} (hn : n < 1920) (hrun : (s.cell n).run ≠ .fenced) (hactive : (descOf (s.cell n) k).active = true) :
    exec (.dmaTimeout n k) s = .next (faultDesc s n k 0x5024) :=
  (if_neg (Nat.not_le.2 hn)).trans (if_pos ⟨hactive, hrun⟩)

/-! ### lgt.send (R325) -/

/-- The logits of a segment. -/
def logitsAt (c : Cell) (a n : Nat) : List (BitVec 32) := (List.range n).map fun k => BitVec.ofNat 32 (rdLE c.mem (a + 4 * k) 4)

theorem lgtBody_reads (h : ¬ ((sreg c x.b).toNat = 0 ∨ 65536 < (sreg c x.b).toNat))
    (hreads : CellReads s c (sreg c x.a).toNat (4 * (sreg c x.b).toNat) 16) : lgtBody x s c =
    .ok { s with gal := { s.gal with logitsSent := s.gal.logitsSent ++ [(4 * c.part + c.slice, bits x.w1.toNat 0 13,
      bits x.w1.toNat 16 16, (sreg c x.c).toNat, logitsAt c (sreg c x.a).toNat (sreg c x.b).toNat)] } } c := by
  rw [lgtBody, if_neg h, cellLoad_of_reads hreads, chunks_rdBytes, List.map_map]
  rfl

theorem lgtBody_illegal (h : (sreg c x.b).toNat = 0 ∨ 65536 < (sreg c x.b).toNat) : lgtBody x s c = .exc s c 2 := if_pos h

end

/-- Settles O25: each dma item by the legality and the LOCAL extent of its OP, dma.wait and dma.rst by the descriptor's flags, and the
segment that lgt.send reads. -/
theorem dmaItemsAndLgtSend : Obligations.DmaItemsAndLgtSend := by
  unfold Obligations.DmaItemsAndLgtSend
  refine ⟨⟨?_, ?_⟩, ?_⟩
  · intro s x c n l d units indexed w hd hidle
    refine ⟨fun hgo => ⟨fun hfit => ?_, ?_, fun hlong hhandled => ?_⟩, fun hgo => ⟨fun h1 h64 hstride hfit hlist => ?_,
      fun hbad hhandled => ?_, fun hstride hlist hpage href hhalf => ?_, fun m hm h1 hheads hn hn' hfit => ?_⟩⟩
    · exact ⟨starts_of_fits hgo exec_dmaIn hd hidle rfl ((fits_bytes (.inl rfl)).2 hfit),
        starts_of_fits hgo exec_dmaOut hd hidle rfl ((fits_bytes (.inr rfl)).2 hfit)⟩
    · exact starts_of_fits hgo exec_dmaWsend hd hidle rfl fits_send
    · have hover : ¬ l + n ≤ 2 ^ 22 := Nat.not_le.2 hlong
      exact ⟨traps_of_start hgo exec_dmaIn hhandled (.inr fun h => hover ((fits_bytes (.inl rfl)).1 h)),
        traps_of_start hgo exec_dmaOut hhandled (.inr fun h => hover ((fits_bytes (.inr rfl)).1 h))⟩
    · have hok : indexedOk x c = true := indexedOk_iff.2 ⟨h1, h64, hstride, hlist⟩
      exact ⟨starts_of_fits hgo exec_dmaGth hd hidle hok ((fits_indexed (.inl rfl)).2 hfit),
        starts_of_fits hgo exec_dmaSct hd hidle hok ((fits_indexed (.inr rfl)).2 hfit)⟩
    · have hok : indexedOk x c = false := by
        rw [Bool.eq_false_iff, Ne, indexedOk_iff]
        rintro ⟨h1, h64, hstride, -⟩
        rcases hbad with h | h | h
        · exact absurd h (Nat.one_le_iff_ne_zero.1 h1)
        · exact absurd h (Nat.not_lt.2 h64)
        · exact h hstride
      exact ⟨traps_of_start hgo exec_dmaGth hhandled (.inl hok), traps_of_start hgo exec_dmaSct hhandled (.inl hok)⟩
    · exact starts_of_fits hgo exec_dmaWalk hd hidle (walkOk_iff.2 ⟨hstride, hlist⟩) (fits_walk.2 (fits_walk_of_part hpage href hhalf))
    · exact dmaApp_starts hgo hd hidle hm (appOk_iff.2 ⟨h1, hheads, hn, hn'⟩) ((fits_append hm).2 hfit)
  · intro s x c d
    refine ⟨fun hgo hd => ⟨fun hidle hclean => ?_, fun hactive => ?_, fun hactive hfit => ?_, fun hidle hfaulted hst hhandled => ?_,
      fun hidle hfaulted hst hhandled => ?_, fun hfaulted => ?_, fun hclean hhandled => ?_⟩, fun hcell hrun hactive => ?_⟩
    · exact cellNext_of_ok (body := dmaWaitBody x) hgo rfl (dmaWaitBody_idle hd hidle hclean)
    · have hexec : exec (.dmaWait x) s = cellItem x 0 (dmaWaitBody x) s := rfl
      rw [hexec, cellItem_of_go hgo, dmaWaitBody_active hd hactive]
      rfl
    · exact ⟨waits_of_active hgo exec_dmaIn hd hactive rfl ((fits_bytes (.inl rfl)).2 hfit),
        waits_of_active hgo exec_dmaOut hd hactive rfl ((fits_bytes (.inr rfl)).2 hfit)⟩
    · exact cellTraps_of_exc (body := dmaWaitBody x) hgo rfl hhandled
        ((dmaWaitBody_faulted hd hidle hfaulted).trans (by rw [if_neg hst]))
    · exact cellTraps_of_exc (body := dmaWaitBody x) hgo rfl hhandled
        ((dmaWaitBody_faulted hd hidle hfaulted).trans (by rw [if_pos hst]))
    · exact cellNext_of_checked (f := dmaRstBody x) hgo rfl (dmaRstBody_faulted hd hfaulted)
    · exact cellTraps_of_checked (f := dmaRstBody x) hgo rfl hhandled (dmaRstBody_clean hclean)
    · exact ⟨elemAddr c d, exec_dmaTimeout_active hcell hrun hactive⟩
  · intro s x hgo c n a
    have hexec : exec (.lgtSend x) s = cellItem x 1 (lgtBody x) s := rfl
    refine ⟨fun hn hn' hreads => ⟨logitsAt c a n, by simp [logitsAt], fun k hk => getD_map_range _ hk _, ?_⟩,
      fun h hhandled => cellTraps_of_exc hgo hexec hhandled (lgtBody_illegal h)⟩
    rw [hexec, cellItem_of_go hgo, lgtBody_reads (by omega) hreads]
    rfl

end Sys2Proof.Machine
end

section
/-! A descriptor of OP 1 that completes from local HBM, and one that stops on a remote element fault (R237, R248, R255, R257). -/

namespace Sys2Proof.Machine

section
variable {s t u : State} {n k i m limit fuel : Nat} {c : Cell} {a : Word}

/-! ### One element of a descriptor of OP 1 (R255) -/

theorem runElem_in {d : Desc} (hop : d.op = 1) : runElem s n d =
    let r := intoCell n (d.local_ + d.done) (extRead s (s.cell n) (d.remote + BitVec.ofNat 64 d.done) (min 256 (d.count - d.done)))
    ⟨r.1, r.2, min 256 (d.count - d.done)⟩ := by
  simp [runElem, elemAddr, hop]

theorem runDesc_stops (h : limit ≤ (descOf (s.cell n) k).done) : runDesc n k limit fuel s = s := by
  cases fuel with
  | zero => rfl
  | succ f => exact if_pos h

theorem runDesc_moves (hlt : (descOf (s.cell n) k).done < limit) (helem : runElem s n (descOf (s.cell n) k) = ⟨u, 0, m⟩) :
    runDesc n k limit (fuel + 1) s = runDesc n k limit fuel
      (u.setCellDesc n k { descOf (u.cell n) k with done := (descOf (s.cell n) k).done + m }) := by
  rw [runDesc]
  dsimp only
  rw [if_neg (Nat.not_le.2 hlt), helem]
  rfl

theorem runDesc_faults {st : Nat} (hlt : (descOf (s.cell n) k).done < limit) (hst : st ≠ 0)
    (helem : runElem s n (descOf (s.cell n) k) = ⟨u, st, m⟩) : runDesc n k limit (fuel + 1) s = faultDesc u n k st := by
  rw [runDesc]
  dsimp only
  rw [if_neg (Nat.not_le.2 hlt), helem]
  exact if_pos hst

theorem descOf_setDesc_same (c : Cell) (k : Nat) (d : Desc) : descOf (setDesc c k d) k = d := by
  simp [descOf, setDesc]

theorem descOf_setDesc_other (c : Cell) (d : Desc) {j : Nat} (h : j ≠ k) : descOf (setDesc c k d) j = descOf c j := by
  rw [descOf, setDesc, mget_mset_other _ h, descOf]

theorem setCellDesc_cell (s : State) (n k : Nat) (d : Desc) : (s.setCellDesc n k d).cell n = setDesc (s.cell n) k d := setCell_same ..

/-- A cell whose descriptor `k` stands at DONE `i` of a run that began in `s`: but for its memory nothing else of it has changed. -/
structure Moved (s : State) (n k i : Nat) (t : State) : Prop where
  desc : descOf (t.cell n) k = { descOf (s.cell n) k with done := i }
  others : ∀ j, j ≠ k → descOf (t.cell n) j = descOf (s.cell n) j
  scalars : (t.cell n).s = (s.cell n).s
  vectors : (t.cell n).v = (s.cell n).v
  pc : (t.cell n).pc = (s.cell n).pc
  part : (t.cell n).part = (s.cell n).part
  slice : (t.cell n).slice = (s.cell n).slice

theorem Moved.refl (s : State) (n k : Nat) : Moved s n k (descOf (s.cell n) k).done s := ⟨rfl, fun _ _ => rfl, rfl, rfl, rfl, rfl, rfl⟩

theorem Moved.of_cells (h : Moved s n k i t) (hcells : u.cells = t.cells) : Moved s n k i u := by
  have hcell : u.cell n = t.cell n := cell_of_cells hcells n
  exact ⟨hcell ▸ h.desc, hcell ▸ h.others, hcell ▸ h.scalars, hcell ▸ h.vectors, hcell ▸ h.pc, hcell ▸ h.part, hcell ▸ h.slice⟩

/-- The state after bytes reached cell memory and DONE moved on. -/
def moveOn (t : State) (n k a : Nat) (bs : List Byte) (i : Nat) : State :=
  let u := t.setCell n (cellWrite (t.cell n) a bs)
  u.setCellDesc n k { descOf (u.cell n) k with done := i }

theorem moveOn_cell {b : Nat} {bs : List Byte} : (moveOn t n k b bs i).cell n =
    setDesc (cellWrite (t.cell n) b bs) k { descOf (t.cell n) k with done := i } := by
  rw [moveOn, setCellDesc_cell, setCell_same]
  rfl

theorem Moved.moveOn (h : Moved s n k i t) (b : Nat) (bs : List Byte) (j : Nat) : Moved s n k j (moveOn t n k b bs j) := by
  refine ⟨?_, fun l hl => ?_, ?_, ?_, ?_, ?_, ?_⟩ <;> rw [moveOn_cell]
  · rw [descOf_setDesc_same, h.desc]
  · rw [descOf_setDesc_other _ _ hl]
    exact h.others l hl
  · exact h.scalars
  · exact h.vectors
  · exact h.pc
  · exact h.part
  · exact h.slice

/-! ### From local HBM (R236, R237) -/

theorem extRead_hbm {b len : Nat} (ha : a = BitVec.ofNat 64 b) (hb : b < 2 ^ 39) (hwin : inWindows s c b len = true)
    (hclean : hbmPoisoned s b len = false) : extRead s c a len = (s, 0, rdBytes s.hbm b len) := by
  have hnat : a.toNat = b := by rw [ha, BitVec.toNat_ofNat, Nat.mod_eq_of_lt (by omega)]
  have hspace : spaceOf a = 0 := by unfold spaceOf bits; omega
  have hok : addrOk a false = true := by
    rw [addrOk, hspace, hnat]
    exact decide_eq_true (by unfold bits; omega)
  have hlow : bits a.toNat 0 39 = b := by rw [hnat, bits_zero_of_lt hb]
  rw [extRead, hok, if_neg (by simp), hspace]
  dsimp only
  rw [hlow, hwin, hclean, if_neg (by simp), if_neg (by simp)]
  rfl

/-- A run whose bytes up to `i` came from local HBM at `b`. -/
structure CopiedTo (s : State) (n k b i : Nat) (t : State) : Prop where
  moved : Moved s n k i t
  rest : t = { s with cells := t.cells }
  wf : Memory.wf (t.cell n).mem = true
  copied : ∀ j, (descOf (s.cell n) k).done ≤ j → j < i →
    rdByte (t.cell n).mem ((descOf (s.cell n) k).local_ + j) = rdByte s.hbm (b + j)
  frame : ∀ y, (y < (descOf (s.cell n) k).local_ + (descOf (s.cell n) k).done ∨ (descOf (s.cell n) k).local_ + i ≤ y) →
    rdByte (t.cell n).mem y = rdByte (s.cell n).mem y

theorem CopiedTo.refl (b : Nat) (hwf : Memory.wf (s.cell n).mem = true) : CopiedTo s n k b (descOf (s.cell n) k).done s :=
  ⟨.refl s n k, rfl, hwf, fun _ h h' => absurd h (Nat.not_le.2 h'), fun _ _ => rfl⟩

theorem CopiedTo.inWindows {b x len : Nat} (h : CopiedTo s n k b i t) : inWindows t (t.cell n) x len = inWindows s (s.cell n) x len := by
  unfold Machine.inWindows cellModel galleyFrames
  rw [h.moved.part, h.moved.slice, h.rest]
  rfl

theorem CopiedTo.hbm {b : Nat} (h : CopiedTo s n k b i t) : t.hbm = s.hbm := by rw [h.rest]

theorem CopiedTo.hbmPoisoned {b x len : Nat} (h : CopiedTo s n k b i t) : hbmPoisoned t x len = hbmPoisoned s x len := by
  rw [h.rest]
  rfl

theorem CopiedTo.moveOn {b : Nat} (h : CopiedTo s n k b i t) (hi : (descOf (s.cell n) k).done ≤ i) (m : Nat) :
    CopiedTo s n k b (i + m) (moveOn t n k ((descOf (s.cell n) k).local_ + i) (rdBytes s.hbm (b + i) m) (i + m)) := by
  have hmem : ((Machine.moveOn t n k ((descOf (s.cell n) k).local_ + i) (rdBytes s.hbm (b + i) m) (i + m)).cell n).mem =
      wrBytes (t.cell n).mem ((descOf (s.cell n) k).local_ + i) (rdBytes s.hbm (b + i) m) := by
    rw [moveOn_cell]
    rfl
  have hlen : (rdBytes s.hbm (b + i) m).length = m := rdBytes_length ..
  refine ⟨h.moved.moveOn _ _ _, ?_, ?_, fun j hj hjm => ?_, fun y hy => ?_⟩
  · have hrest := h.rest
    generalize t.cells = cells at hrest
    rw [hrest]
    rfl
  · rw [hmem]
    exact Memory.wf_wrBytes _ _ h.wf
  · rw [hmem]
    by_cases hji : j < i
    · rw [rdByte_wrBytes_outside _ _ _ _ (.inl (by omega))]
      exact h.copied j hj hji
    · obtain ⟨l, rfl⟩ := Nat.exists_eq_add_of_le (Nat.not_lt.1 hji)
      rw [← Nat.add_assoc, rdByte_wrBytes_inside h.wf _ _ (by omega), rdBytes_getD _ (by omega), Nat.add_assoc]
  · rw [hmem, rdByte_wrBytes_outside _ _ _ _ (by omega)]
    exact h.frame y (by omega)

/-- What the descriptor's bytes need of local HBM: they lie in one range, clean and inside the cell's windows. -/
structure Copyable (s : State) (n k b : Nat) : Prop where
  op : (descOf (s.cell n) k).op = 1
  place : ∀ i, (descOf (s.cell n) k).done ≤ i → i < (descOf (s.cell n) k).count →
    (descOf (s.cell n) k).remote + BitVec.ofNat 64 i = BitVec.ofNat 64 (b + i)
  range : b + (descOf (s.cell n) k).count ≤ 2 ^ 39
  reach : ∀ i m, (descOf (s.cell n) k).done ≤ i → i + m ≤ (descOf (s.cell n) k).count →
    Machine.inWindows s (s.cell n) (b + i) m = true ∧ Machine.hbmPoisoned s (b + i) m = false

theorem runElem_copies {b : Nat} (hsrc : Copyable s n k b) (h : CopiedTo s n k b i t) (hi : (descOf (s.cell n) k).done ≤ i)
    (hlt : i < (descOf (s.cell n) k).count) :
    runElem t n (descOf (t.cell n) k) = ⟨t.setCell n (cellWrite (t.cell n) ((descOf (s.cell n) k).local_ + i)
      (rdBytes s.hbm (b + i) (min 256 ((descOf (s.cell n) k).count - i)))), 0, min 256 ((descOf (s.cell n) k).count - i)⟩ := by
  obtain ⟨hwin, hclean⟩ := hsrc.reach i (min 256 ((descOf (s.cell n) k).count - i)) hi (by omega)
  have hrange := hsrc.range
  have hread : extRead t (t.cell n) _ (min 256 ((descOf (s.cell n) k).count - i)) = _ :=
    extRead_hbm (hsrc.place i hi hlt) (by omega) (h.inWindows.trans hwin) (h.hbmPoisoned.trans hclean)
  have hop : (descOf (t.cell n) k).op = 1 := by rw [h.moved.desc, hsrc.op]
  rw [runElem_in hop, h.moved.desc]
  dsimp only
  rw [hread, h.hbm]
  rfl

theorem runDesc_copies {b : Nat} (hsrc : Copyable s n k b) : ∀ {fuel i : Nat} {t : State}, CopiedTo s n k b i t →
    (descOf (s.cell n) k).done ≤ i → i ≤ (descOf (s.cell n) k).count → (descOf (s.cell n) k).count - i ≤ fuel →
    CopiedTo s n k b (descOf (s.cell n) k).count (runDesc n k (descOf (s.cell n) k).count fuel t)
  | fuel, i, t, h, hi, hle, hfuel => by
    have hdone : (descOf (t.cell n) k).done = i := by rw [h.moved.desc]
    rcases Nat.eq_or_lt_of_le hle with heq | hlt
    · rw [runDesc_stops (by omega)]
      exact heq ▸ h
    · obtain ⟨f, rfl⟩ : ∃ f, fuel = f + 1 := ⟨fuel - 1, by omega⟩
      rw [runDesc_moves (by omega) (runElem_copies hsrc h hi hlt), hdone]
      exact runDesc_copies hsrc (h.moveOn hi _) (by omega) (by omega) (by omega)

/-- The state in which a descriptor that has moved all its bytes is no longer ACTIVE. -/
def retired (t : State) (n k : Nat) : State := t.setCellDesc n k { descOf (t.cell n) k with active := false }

theorem finishDesc_moved (hrun : (s.cell n).run ≠ .fenced) (hactive : (descOf (s.cell n) k).active = true)
    (h : Moved s n k (descOf (s.cell n) k).count t)
    (ht : runDesc n k (descOf (s.cell n) k).count (descOf (s.cell n) k).count s = t) : finishDesc s n k = retired t n k := by
  rw [finishDesc]
  dsimp only
  rw [if_pos ⟨hrun, hactive⟩, ht, if_pos (by rw [h.desc]; exact ⟨hactive, Nat.le_refl _⟩)]
  rfl

theorem retired_cell : (retired t n k).cell n = setDesc (t.cell n) k { descOf (t.cell n) k with active := false } := setCellDesc_cell ..

/-! ### From a remote device (R257, 12 R480) -/

theorem qpError_cells (s : State) (q st : Nat) : (qpError s q st).cells = s.cells := by
  unfold qpError
  split <;> rfl

theorem noMapping_cells (s : State) (c : Cell) (dev : Nat) : (noMapping s c dev).cells = s.cells := by
  unfold noMapping
  dsimp only
  split
  · exact qpError_cells ..
  · rfl

/-- The way of a remote access: status 0 or 0x5023, and no cell changes. -/
theorem remoteWay_cases (s : State) (c : Cell) (dev : Nat) :
    (remoteWay s c dev).1.cells = s.cells ∧ ((remoteWay s c dev).2 = 0 ∨ (remoteWay s c dev).2 = 0x5023) := by
  unfold remoteWay
  split
  · exact ⟨noMapping_cells .., .inr rfl⟩
  · split
    · split
      · exact ⟨rfl, .inl rfl⟩
      · exact ⟨qpError_cells .., .inr rfl⟩
    · exact ⟨rfl, .inr rfl⟩

theorem extRead_fabric {len : Nat} (hspace : spaceOf a = 2) (hok : addrOk a false = true) : extRead s c a len =
    let w := remoteWay s c (bits a.toNat 44 16)
    if w.2 ≠ 0 then (w.1, w.2, [])
    else ({ s with freeCtr := s.freeCtr + 1 }, 0, Config.remoteBytes (bits a.toNat 44 16) (bits a.toNat 0 39) len s.freeCtr) := by
  rw [extRead, hok, if_neg (by simp), hspace]
  rfl

theorem extRead_remote {len : Nat} (hspace : spaceOf a = 2) (hok : addrOk a false = true) :
    (extRead s c a len).1.cells = s.cells ∧ ((extRead s c a len).2.1 = 0 ∨ (extRead s c a len).2.1 = 0x5023) := by
  obtain ⟨hcells, hstatus⟩ := remoteWay_cases s c (bits a.toNat 44 16)
  rw [extRead_fabric hspace hok]
  dsimp only
  split
  · exact ⟨hcells, hstatus⟩
  · exact ⟨rfl, .inl rfl⟩

/-- A descriptor of OP 1 whose every byte lies on another device. -/
structure Remote (s : State) (n k : Nat) : Prop where
  op : (descOf (s.cell n) k).op = 1
  space : ∀ i, i < (descOf (s.cell n) k).count → spaceOf ((descOf (s.cell n) k).remote + BitVec.ofNat 64 i) = 2
  ok : ∀ i, i < (descOf (s.cell n) k).count → addrOk ((descOf (s.cell n) k).remote + BitVec.ofNat 64 i) false = true

/-- The descriptor stopped on 0x5023 at or below byte `e`. -/
def StoppedBy (s : State) (n k e : Nat) (t : State) : Prop :=
  ∃ i, (descOf (s.cell n) k).done ≤ i ∧ i ≤ e ∧ descOf (t.cell n) k = { descOf (s.cell n) k with
      done := i, active := false, faulted := true, status := 0x5023, faultAddr := (descOf (s.cell n) k).remote + BitVec.ofNat 64 i } ∧
    (t.cell n).pc = (s.cell n).pc ∧ (t.cell n).s = (s.cell n).s

theorem Moved.faultDesc {e : Nat} (h : Moved s n k i t) (hop : (descOf (s.cell n) k).op = 1) (hi : (descOf (s.cell n) k).done ≤ i)
    (he : i ≤ e) : StoppedBy s n k e (faultDesc t n k 0x5023) := by
  refine ⟨i, hi, he, ?_, ?_, ?_⟩ <;> rw [Machine.faultDesc, setCellDesc_cell]
  · rw [descOf_setDesc_same, h.desc, elemAddr, if_pos (.inl hop)]
  · exact h.pc
  · exact h.scalars

/-- An element from a remote device faults with 0x5023 and moves nothing, or moves up to 256 bytes. -/
theorem runElem_remote (hrem : Remote s n k) (h : Moved s n k i t) (hi : i < (descOf (s.cell n) k).count) :
    ∃ u bs, u.cells = t.cells ∧
      (runElem t n (descOf (t.cell n) k) = ⟨u, 0x5023, min 256 ((descOf (s.cell n) k).count - i)⟩ ∨
       runElem t n (descOf (t.cell n) k) = ⟨u.setCell n (cellWrite (u.cell n) ((descOf (s.cell n) k).local_ + i) bs), 0,
        min 256 ((descOf (s.cell n) k).count - i)⟩) := by
  have hop : (descOf (t.cell n) k).op = 1 := by rw [h.desc, hrem.op]
  rw [runElem_in hop, h.desc]
  dsimp only
  obtain ⟨hcells, hst⟩ := extRead_remote (s := t) (c := t.cell n) (len := min 256 ((descOf (s.cell n) k).count - i))
    (hrem.space i hi) (hrem.ok i hi)
  generalize extRead t (t.cell n) _ _ = r at hcells hst ⊢
  refine ⟨r.1, r.2.2, hcells, ?_⟩
  rcases hst with hst | hst
  · exact .inr (by rw [intoCell, if_neg (by simp [hst])])
  · exact .inl (by rw [intoCell, if_pos (by simp [hst]), hst])

/-- The steps of 256 bytes below `stop`: one faults, or the run stands at `stop`. -/
theorem runDesc_remote {stop e : Nat} (hrem : Remote s n k) (hse : stop ≤ e) (he : e < (descOf (s.cell n) k).count) :
    ∀ {fuel i : Nat} {t : State}, Moved s n k i t → (descOf (s.cell n) k).done ≤ i → i ≤ stop → 256 ∣ stop - i → stop - i ≤ fuel →
    StoppedBy s n k e (runDesc n k stop fuel t) ∨ Moved s n k stop (runDesc n k stop fuel t)
  | fuel, i, t, h, hi, hle, hdvd, hfuel => by
    have hdone : (descOf (t.cell n) k).done = i := by rw [h.desc]
    rcases Nat.eq_or_lt_of_le hle with heq | hlt
    · rw [runDesc_stops (by omega)]
      exact .inr (heq ▸ h)
    · obtain ⟨f, rfl⟩ : ∃ f, fuel = f + 1 := ⟨fuel - 1, by omega⟩
      have hlen : min 256 ((descOf (s.cell n) k).count - i) = 256 := by omega
      obtain ⟨u, bs, hcells, helem | helem⟩ := runElem_remote hrem h (by omega)
      · rw [runDesc_faults (by omega) (by decide) helem]
        exact .inl ((h.of_cells hcells).faultDesc hrem.op hi (by omega))
      · rw [runDesc_moves (by omega) helem, hdone, hlen]
        exact runDesc_remote hrem hse he ((h.of_cells hcells).moveOn _ bs _) (by omega) (by omega) (by omega) (by omega)

/-- An element fault of 0x5023 in a remote transfer stops the descriptor, at the step that holds the element or below it. -/
theorem elemFault_stops {e : Nat} (hrun : (s.cell n).run ≠ .fenced) (hactive : (descOf (s.cell n) k).active = true)
    (hrem : Remote s n k) (hde : (descOf (s.cell n) k).done ≤ e) (he : e < (descOf (s.cell n) k).count) :
    StoppedBy s n k e (elemFault s n k e 0x5023) := by
  have hstop := runDesc_remote (stop := e - (e - (descOf (s.cell n) k).done) % 256) (fuel := (descOf (s.cell n) k).count) hrem
    (by omega) he (.refl s n k) (Nat.le_refl _) (by omega) (by omega) (by omega)
  have hbytes : (descOf (s.cell n) k).op = 1 ∨ (descOf (s.cell n) k).op = 2 := .inl hrem.op
  rw [elemFault]
  dsimp only
  rw [if_pos ⟨hrun, hactive, hde, he⟩, if_pos hbytes]
  generalize runDesc n k _ _ s = t at hstop ⊢
  rcases hstop with hstopped | h
  · obtain ⟨i, -, -, hdesc, -⟩ := id hstopped
    rwa [if_neg (by simp [hdesc])]
  · have hlt : e - (e - (descOf (s.cell n) k).done) % 256 < (descOf (s.cell n) k).count := by omega
    have hstops {u : State} (hcells : u.cells = t.cells) : StoppedBy s n k e (faultDesc u n k 0x5023) :=
      (h.of_cells hcells).faultDesc hrem.op (by omega) (by omega)
    rw [if_pos (by rw [h.desc]; exact ⟨hactive, Nat.le_refl _⟩)]
    obtain ⟨u, bs, hcells, helem | helem⟩ := runElem_remote hrem h hlt
    · rw [helem, if_pos (by simp)]
      exact hstops hcells
    · have hspace : spaceOf (elemAddr (t.cell n) (descOf (t.cell n) k)) = 2 := by
        rw [h.desc, elemAddr, if_pos (.inl hrem.op)]
        exact hrem.space _ hlt
      rw [helem, if_neg (by simp), if_pos ⟨rfl, hspace⟩]
      exact hstops rfl

end

/-- Settles O26: the run of 256-byte steps keeps `CopiedTo` up to COUNT from local HBM, and from a remote device ends in `StoppedBy`. -/
theorem descriptorsCompleteAndFault : Obligations.DescriptorsCompleteAndFault := by
  unfold Obligations.DescriptorsCompleteAndFault
  intro s n k hn c d hrun hactive hop hdone _
  refine ⟨fun b hplace hrange hreach hwf => ?_, fun e hde he hremote => ?_⟩
  · have hsrc : Copyable s n k b := ⟨hop, hplace, hrange, hreach⟩
    have h := runDesc_copies hsrc (.refl b hwf) (Nat.le_refl _) hdone (Nat.sub_le _ _)
    have hfinish := finishDesc_moved hrun hactive h.moved rfl
    generalize runDesc n k _ _ s = t at h hfinish
    have hexec : exec (.dmaDescriptorDone n k) s = .next (finishDesc s n k) := if_neg (Nat.not_le.2 hn)
    rw [hfinish] at hexec
    refine ⟨_, hexec, ?_⟩
    dsimp only
    rw [retired_cell, descOf_setDesc_same, h.moved.desc]
    refine ⟨rfl, rfl, rfl, h.copied, h.frame, h.hbm, ?_, h.moved.scalars, h.moved.vectors, h.moved.pc, fun j hj => ?_⟩
    · rw [retired, State.setCellDesc, setCell_regs, h.rest]
    · exact (descOf_setDesc_other _ _ hj).trans (h.moved.others j hj)
  · have hrem : Remote s n k := ⟨hop, fun i hi => (hremote i hi).1, fun i hi => (hremote i hi).2⟩
    obtain ⟨i, hi, hie, hdesc, hpc, hs⟩ := elemFault_stops hrun hactive hrem hde he
    refine ⟨_, if_neg (Nat.not_le.2 hn), ?_⟩
    dsimp only
    rw [hdesc]
    exact ⟨rfl, rfl, rfl, hi, hie, rfl, hpc, hs⟩

end Sys2Proof.Machine
end

section
/-! The items of the text engines: vocabulary and grammar images, tok.unload and tok.encode (R319 to R322, R335, R361). -/

namespace Sys2Proof.Machine

variable {s t : State} {src : Src} {slot : Nat} {a : Word} {bs : List Byte}

/-! ### tok.vload (R316, R319) -/

/-- The fields of TOK_VOCAB_A that show a loaded vocabulary, and the hub that serves it. -/
def vocabShown (slot : Nat) (v : Vocab) (hub : Nat) : List (Field × Nat) :=
  [(TOK_VOCAB_A_LOADED slot, 1), (TOK_VOCAB_A_NTOK slot, v.ntok), (TOK_VOCAB_A_BYTE_FB slot, b2n v.byteFb), (TOK_VOCAB_A_HUB slot, hub)]

/-- The state in which a vocabulary slot holds `v`, and its registers show it. -/
def withVocab (s : State) (slot : Nat) (v : Vocab) (hub : Nat) : State :=
  (setFlds { s with tok := { s.tok with vocabs := mset s.tok.vocabs slot v } } (vocabShown slot v hub)).setFld
    (TOK_VOCAB_B_VOCAB_ID slot) v.vocabId

theorem Canonical.updTok (hs : Canonical s) (x : TokBlock) : Canonical { s with tok := x } := ⟨hs.regs, hs.mem, hs.hbm⟩

theorem Canonical.setFlds (hs : Canonical s) (l : List (Field × Nat)) : Canonical (setFlds s l) := by
  induction l generalizing s with
  | nil => exact hs
  | cons x l ih => exact ih (hs.setFld x.1 x.2)

theorem setFlds_tok (s : State) (l : List (Field × Nat)) : (setFlds s l).tok = s.tok := by
  refine foldl_frame (·.tok) (fun u x => ?_) l s
  rfl

theorem withVocab_vocab (s : State) (slot : Nat) (v : Vocab) (hub : Nat) :
    mget (withVocab s slot v hub).tok.vocabs slot = some v := by
  rw [withVocab, setFld_tok, setFlds_tok, mget_mset_same]

theorem withVocab_ses (s : State) (slot : Nat) (v : Vocab) (hub : Nat) : (withVocab s slot v hub).ses = s.ses := by
  rw [withVocab, setFld_ses, setFlds_ses]

theorem withVocab_loaded (hs : Canonical s) (slot : Nat) (v : Vocab) (hub : Nat) :
    (withVocab s slot v hub).flag (TOK_VOCAB_A_LOADED slot) = true := by
  have hshown := fld_setFlds_of_mem (l := vocabShown slot v hub) (hs.updTok { s.tok with vocabs := mset s.tok.vocabs slot v })
    (by simp [vocabShown]) (by simp [vocabShown, Field.apart]) List.mem_cons_self
  rw [flag_eq_true, withVocab, fld_setFld_other _ _ (by dsimp only; omega), hshown]
  exact Nat.one_ne_zero

theorem withVocab_vocabId (hs : Canonical s) (slot : Nat) (v : Vocab) (hub : Nat) :
    (withVocab s slot v hub).fld (TOK_VOCAB_B_VOCAB_ID slot) = v.vocabId % 2 ^ 64 :=
  fld_setFld_same _ _ (by simp) ((hs.updTok _).setFlds _).regs

/-- A vocabulary has the number of tokens its header gives, and that is in range. -/
theorem parseVocab_ntok {v : Vocab} (h : parseVocab bs = .ok v) : 1 ≤ v.ntok ∧ v.ntok ≤ 1048576 := by
  unfold parseVocab at h
  cases hhead : vocabHeadOk bs with
  | false => simp [hhead] at h
  | true =>
    have hrange : 1 ≤ bits (imgWord bs 0) 16 21 ∧ bits (imgWord bs 0) 16 21 ≤ 1048576 := by
      simp only [vocabHeadOk, Bool.and_eq_true, decide_eq_true_eq] at hhead
      omega
    rw [hhead, if_neg (by decide)] at h
    dsimp only at h
    split at h
    · split_ifs at h
      cases h
      exact hrange
    · cases h

theorem vloadBody_done {v : Vocab} (hfree : mget s.tok.vocabs slot = none) (hread : readHeaded s src a 7 = .ok bs)
    (hparse : parseVocab bs = .ok v) :
    ∃ hub, vloadBody src slot a s = (withVocab s slot v hub, .done 0 (BitVec.ofNat 64 v.ntok) 0 0) := by
  unfold vloadBody
  rw [if_neg (by simp [hfree]), hread]
  dsimp only
  rw [hparse]
  exact ⟨_, rfl⟩

theorem tokVload_completes {v : Vocab} (hgo : ItemGo s src) (hs : Canonical s) (hfree : mget s.tok.vocabs slot = none)
    (hread : readHeaded s src a 7 = .ok bs) (hparse : parseVocab bs = .ok v) :
    ∃ t : State, Completes (.tokVload src slot a) s src 0xE0 0 (BitVec.ofNat 64 v.ntok) 0 0 t ∧
      mget t.tok.vocabs slot = some v ∧ t.flag (TOK_VOCAB_A_LOADED slot) = true ∧
      t.fld (TOK_VOCAB_B_VOCAB_ID slot) = v.vocabId % 2 ^ 64 ∧ 1 ≤ v.ntok ∧ v.ntok ≤ 1048576 ∧ t.ses = s.ses := by
  obtain ⟨hub, hbody⟩ := vloadBody_done hfree hread hparse
  obtain ⟨hlo, hhi⟩ := parseVocab_ntok hparse
  exact ⟨_, congrArg _ (runItem_done hgo hbody), withVocab_vocab .., withVocab_loaded hs .., withVocab_vocabId hs .., hlo, hhi,
    withVocab_ses ..⟩

/-! ### tok.gload and tok.unload of a grammar (R321, R333, R335) -/

/-- The state in which the grammar slots hold `grammars`, and the registers of one slot show what it holds. -/
def withGrammars (s : State) (grammars : Map Grammar) (slot loaded nstates vocabId : Nat) : State :=
  (setFlds { s with tok := { s.tok with grammars } } [(TOK_GRAM_A_LOADED slot, loaded), (TOK_GRAM_A_NSTATES slot, nstates)]).setFld
    (TOK_GRAM_B_VOCAB_ID slot) vocabId

theorem withGrammars_tok (s : State) (grammars : Map Grammar) (slot loaded nstates vocabId : Nat) :
    (withGrammars s grammars slot loaded nstates vocabId).tok = { s.tok with grammars } := by
  rw [withGrammars, setFld_tok, setFlds_tok]

theorem withGrammars_ses (s : State) (grammars : Map Grammar) (slot loaded nstates vocabId : Nat) :
    (withGrammars s grammars slot loaded nstates vocabId).ses = s.ses := by
  rw [withGrammars, setFld_ses, setFlds_ses]

theorem withGrammars_loaded (hs : Canonical s) (grammars : Map Grammar) (slot loaded nstates vocabId : Nat) :
    (withGrammars s grammars slot loaded nstates vocabId).fld (TOK_GRAM_A_LOADED slot) = loaded % 2 := by
  rw [withGrammars, fld_setFld_other _ _ (by dsimp only; omega)]
  exact fld_setFlds_of_mem (hs.updTok _) (by simp) (by simp [Field.apart]) List.mem_cons_self

theorem gloadBody_done {v : Vocab} {g : Grammar} {j : Nat} (hslot : slot ≠ 0) (hfree : mget s.tok.grammars slot = none)
    (hread : readHeaded s src a 5 = .ok bs) (hhead : gramHeadOk bs = true)
    (hvocab : (s.tok.vocabs.find? fun w => w.2.vocabId = imgWord bs 1) = some (j, v)) (hparse : parseGrammar bs v.ntok = some g) :
    gloadBody src slot a s = (withGrammars s (mset s.tok.grammars slot g) slot 1 g.nstates g.vocabId,
      .done 0 (BitVec.ofNat 64 g.nstates) 0 0) := by
  unfold gloadBody
  rw [if_neg hslot, if_neg (by simp [hfree]), hread]
  dsimp only
  rw [if_neg (by simp [hhead]), hvocab]
  dsimp only
  rw [hparse]
  rfl

theorem tokGload_completes {v : Vocab} {g : Grammar} {j : Nat} (hgo : ItemGo s src) (hs : Canonical s) (hslot : slot ≠ 0)
    (hfree : mget s.tok.grammars slot = none) (hread : readHeaded s src a 5 = .ok bs) (hhead : gramHeadOk bs = true)
    (hvocab : (s.tok.vocabs.find? fun w => w.2.vocabId = imgWord bs 1) = some (j, v)) (hparse : parseGrammar bs v.ntok = some g) :
    ∃ t : State, Completes (.tokGload src slot a) s src 0xE1 0 (BitVec.ofNat 64 g.nstates) 0 0 t ∧
      mget t.tok.grammars slot = some g ∧ t.flag (TOK_GRAM_A_LOADED slot) = true ∧ t.ses = s.ses := by
  refine ⟨_, congrArg _ (runItem_done hgo (gloadBody_done hslot hfree hread hhead hvocab hparse)), ?_, ?_, withGrammars_ses ..⟩
  · rw [withGrammars_tok, mget_mset_same]
  · rw [flag_eq_true, withGrammars_loaded hs]
    decide

theorem unloadGrammar_done {g : Grammar} (hslot : slot ≠ 0) (hg : mget s.tok.grammars slot = some g)
    (hbind : s.fld (TOK_GRAM_A_BINDINGS slot) = 0) :
    unloadGrammar s slot = (withGrammars s (mdel s.tok.grammars slot) slot 0 0 0, .ok) := by
  unfold unloadGrammar
  rw [if_neg hslot, if_neg (by simp [hg]), if_neg (by simp [hbind])]
  rfl

theorem tokUnload_grammar_completes {g : Grammar} (hgo : ItemGo s src) (hs : Canonical s) (hslot : slot ≠ 0)
    (hg : mget s.tok.grammars slot = some g) (hwf : mwf s.tok.grammars = true) (hbind : s.fld (TOK_GRAM_A_BINDINGS slot) = 0) :
    ∃ t : State, Completes (.tokUnload src 1 slot) s src 0xE2 0 0 0 0 t ∧ mget t.tok.grammars slot = none ∧
      t.flag (TOK_GRAM_A_LOADED slot) = false ∧ t.tok.vocabs = s.tok.vocabs := by
  refine ⟨_, congrArg _ (runItem_done hgo (unloadGrammar_done hslot hg hbind)), ?_, ?_, ?_⟩
  · rw [withGrammars_tok, mget_mdel_same slot hwf]
  · rw [flag_eq_false, withGrammars_loaded hs]
  · rw [withGrammars_tok]

theorem tokUnload_builtIn (hgo : ItemGo s src) : exec (.tokUnload src 1 0) s = .next (completeFail s src 0xE2 0x6007 0 0) :=
  congrArg _ (runItem_fail hgo rfl)

/-! ### tok.encode (R322) -/

theorem encodeBody_done {vocab n : Nat} {d : Word} {v : Vocab} (hn : n ≠ 0) (hv : mget s.tok.vocabs vocab = some v)
    (hread : itemRead s src 2 a n = .ok bs)
    (hwrite : itemWrite s src 3 d (((tokenise v bs).map (·.1)).flatMap fun x => leBytes 4 x) = .ok t) :
    encodeBody src vocab n a d s = (t, .done 0 (BitVec.ofNat 64 (tokenise v bs).length) 0 0) := by
  unfold encodeBody
  rw [if_neg hn, hv]
  dsimp only
  rw [hread]
  dsimp only
  rw [hwrite, List.length_map]

end Sys2Proof.Machine
end

section
/-! Logits and sampling (R325 to R331, R341); then the statement on the text engines. -/

namespace Sys2Proof.Machine

variable {s t : State} {sl i o : Nat} {r : Rec}

/-! ### Records of a galley in flight -/

theorem recAt_of_running {g : Galley} (hrun : (s.slice sl).running = some g) (hrec : g.recs[i]? = some r) :
    recAt s sl i = some r := by
  rw [recAt, hrun]
  exact hrec

theorem recAt_of_slice (h : t.slice sl = s.slice sl) : recAt t sl i = recAt s sl i := by
  rw [recAt, recAt, h]

theorem recAt_setRec (h : recAt s sl i = some r) (r' : Rec) : recAt (setRec s sl i r') sl i = some r' := by
  obtain ⟨g, hrun, hrec⟩ := Option.bind_eq_some_iff.1 h
  obtain ⟨hi, -⟩ := List.getElem?_eq_some_iff.1 hrec
  have hset : (g.recs.set i r')[i]? = some r' := List.getElem?_set_self hi
  refine recAt_of_running (g := { g with recs := g.recs.set i r' }) ?_ hset
  rw [setRec, hrun, setSlice_same]

theorem setRec_regs (s : State) (sl i : Nat) (r : Rec) : (setRec s sl i r).regs = s.regs := by
  unfold setRec
  split <;> rfl

theorem setRec_ses (s : State) (sl i : Nat) (r : Rec) : (setRec s sl i r).ses = s.ses := by
  unfold setRec
  split <;> rfl

/-! ### Segments (R325, R326) -/

/-- The tokens that the engine expects logits of for a record. -/
def vocabTokens (s : State) (r : Rec) : Nat := ((recVocab s r).map (·.ntok)).getD 0

/-- The segments of a position that have come. -/
def Rec.segments (r : Rec) (o : Nat) : List (Nat × List (BitVec 32)) := (mget r.logits o).getD []

/-- A segment meets none of those that have come. -/
def Apart (first n : Nat) (l : List (Nat × List (BitVec 32))) : Prop := ∀ x ∈ l, first + n ≤ x.1 ∨ x.1 + x.2.length ≤ first

theorem any_overlaps_of_apart {first n : Nat} {l : List (Nat × List (BitVec 32))} (h : Apart first n l) :
    (l.any fun x => overlaps first n x.1 x.2.length) = false := by
  refine List.any_eq_false.2 fun x hx => ?_
  have := h x hx
  simp only [overlaps, Bool.and_eq_true, decide_eq_true_eq]
  omega

section
variable {first : Nat} {ls : List (BitVec 32)} (hrec : recAt s sl i = some r) (hvoid : r.void = false) (hwant : wanted s r o = true)
include hrec hvoid hwant

theorem segmentIn_of_wanted : segmentIn s sl i o first ls =
    if vocabTokens s r < first + ls.length ∨ ((r.segments o).any fun x => overlaps first ls.length x.1 x.2.length) = true then
      badSegment s sl i
    else setRec s sl i { r with logits := mset r.logits o (r.segments o ++ [(first, ls)]) } := by
  unfold segmentIn
  rw [hrec]
  dsimp only
  rw [if_neg (by simp [hvoid]), if_neg (by simp [hwant])]
  rfl

theorem segmentIn_of_apart (hfit : first + ls.length ≤ vocabTokens s r) (hapart : Apart first ls.length (r.segments o)) :
    segmentIn s sl i o first ls = setRec s sl i { r with logits := mset r.logits o (r.segments o ++ [(first, ls)]) } := by
  rw [segmentIn_of_wanted hrec hvoid hwant, any_overlaps_of_apart hapart, if_neg (by simp [hfit])]

theorem segmentIn_of_outside (hout : vocabTokens s r < first + ls.length) : segmentIn s sl i o first ls = badSegment s sl i := by
  rw [segmentIn_of_wanted hrec hvoid hwant, if_pos (.inl hout)]

end

theorem badSegment_recAt (hrec : recAt s sl i = some r) (hvoid : r.void = false) :
    recAt (badSegment s sl i) sl i = some { r with spoiled := true } := by
  unfold badSegment
  rw [hrec]
  dsimp only
  rw [if_neg (by simp [hvoid]), recAt_of_slice (fault_slice ..), recAt_setRec hrec]

theorem logitSegment_kept {p k first : Nat} {ls : List (BitVec 32)} (hrec : recAt s (4 * p + k) i = some r) (hvoid : r.void = false)
    (hwant : wanted s r o = true) (hfit : first + ls.length ≤ vocabTokens s r) (hapart : Apart first ls.length (r.segments o)) :
    Ends (.logitSegment p k i o first ls) s fun t => ∃ r' : Rec, recAt t (4 * p + k) i = some r' ∧
      mget r'.logits o = some (r.segments o ++ [(first, ls)]) ∧ r'.spoiled = r.spoiled ∧ t.ses = s.ses ∧ t.regs = s.regs := by
  let u := arrive s (4 * p + k, i, o, first, ls)
  have hu : recAt u (4 * p + k) i = some r := hrec
  exact ends_of_eq rfl (segmentIn_of_apart hu hvoid hwant hfit hapart)
    ⟨_, recAt_setRec hu _, mget_mset_same .., rfl, setRec_ses u .., setRec_regs u ..⟩

theorem logitSegment_spoils {p k first : Nat} {ls : List (BitVec 32)} (hrec : recAt s (4 * p + k) i = some r) (hvoid : r.void = false)
    (hwant : wanted s r o = true) (hout : vocabTokens s r < first + ls.length) :
    Ends (.logitSegment p k i o first ls) s fun t => ∃ r' : Rec, recAt t (4 * p + k) i = some r' ∧
      r'.spoiled = true ∧ r'.logits = r.logits := by
  have hu : recAt (arrive s (4 * p + k, i, o, first, ls)) (4 * p + k) i = some r := hrec
  exact ends_of_eq rfl (segmentIn_of_outside hu hvoid hwant hout) ⟨_, badSegment_recAt hu hvoid, rfl, rfl⟩

/-! ### The draw (R331, R341) -/

/-- The draw of R331 at a position of a record, under the mask of its grammar. -/
def drawAt (s : State) (e : Session) (v : Vocab) (r : Rec) (o : Nat) (zs : List Nat) (st : GState) : Draw :=
  sampleToken e.text.sampler (r.pos + o) zs (gramMask v (mget s.tok.grammars e.grammar) e.text.sampler.ignoreEnd st)

/-- A position that the engine samples now: its record stands, its session is as the galley knew it, and it is not yet sampled
though its logits are complete (R331). -/
structure ReadyToSample (s : State) (r : Rec) (o : Nat) (e : Session) (v : Vocab) (zs : List Nat) (st : GState) : Prop where
  ses : s.ses? r.index = some e
  vocab : mget s.tok.vocabs e.vocab = some v
  void : r.void = false
  spoiled : r.spoiled = false
  cancel : e.cancelReq = false
  instar : e.instar = r.instar
  wanted : wanted s r o = true
  fresh : mget r.sampled o = none
  logits : allLogits r o v.ntok = some zs
  gram : gramAt s e v r o = some st

theorem samplePosition_of_ready {e : Session} {v : Vocab} {zs : List Nat} {st : GState} (hrec : recAt s sl i = some r)
    (h : ReadyToSample s r o e v zs st) : samplePosition s sl i o =
      setRec (drawn s v (drawAt s e v r o zs st)).1 sl i { r with sampled := mset r.sampled o (drawn s v (drawAt s e v r o zs st)).2 } := by
  have hvocab : recVocab s r = some v := by rw [recVocab, h.ses]; exact h.vocab
  unfold samplePosition
  rw [hrec]
  dsimp only
  rw [h.ses, hvocab]
  dsimp only
  rw [if_neg (by simp [h.void, h.spoiled, h.cancel, h.instar, h.wanted, h.fresh]), h.logits, h.gram]
  rfl

/-- A draw that changes nothing but its record: what it gives is kept for the position. -/
theorem positionSampled_of_drawn {p k : Nat} {e : Session} {v : Vocab} {zs : List Nat} {st : GState} {x : Option Nat}
    (hrec : recAt s (4 * p + k) i = some r) (h : ReadyToSample s r o e v zs st) (hdrawn : drawn s v (drawAt s e v r o zs st) = (s, x)) :
    Ends (.positionSampled p k i o) s fun t => ∃ r' : Rec, recAt t (4 * p + k) i = some r' ∧ mget r'.sampled o = some x ∧
      t.regs = s.regs ∧ t.ses = s.ses := by
  refine ends_of_eq rfl (samplePosition_of_ready hrec h) ?_
  rw [hdrawn]
  exact ⟨_, recAt_setRec hrec _, mget_mset_same .., setRec_regs .., setRec_ses ..⟩

theorem positionSampled_once {p k : Nat} (hrec : recAt s (4 * p + k) i = some r) (hdone : (mget r.sampled o).isSome) :
    exec (.positionSampled p k i o) s = .next s := by
  refine exec_unchanged rfl ?_
  unfold samplePosition
  rw [hrec]
  dsimp only
  split
  · exact if_pos (by simp [hdone])
  · rfl

/-! ### The statement -/

/-- Settles O44: the items by what their bodies answer, a segment by its range, and the draw by `samplePosition_of_ready`. -/
theorem textEnginesLoadEncodeAndSample : Obligations.TextEnginesLoadEncodeAndSample := by
  unfold Obligations.TextEnginesLoadEncodeAndSample
  refine ⟨fun s src hgo hs => ⟨fun slot a bs v _ hfree hread hparse => tokVload_completes hgo hs hfree hread hparse,
    fun slot a bs v g j hslot _ hfree hread hhead hvocab hparse =>
      tokGload_completes hgo hs (Nat.ne_of_gt hslot) hfree hread hhead hvocab hparse,
    fun slot g hslot _ hg hwf hbind => tokUnload_grammar_completes hgo hs (Nat.ne_of_gt hslot) hg hwf hbind,
    tokUnload_builtIn hgo,
    fun vocab n a d v bs t hn hv hread hwrite => congrArg _ (runItem_done hgo (encodeBody_done hn hv hread hwrite))⟩, ?_⟩
  intro s p k i o first ls g r _ _ hrun hget hvoid hwant
  have hrec : recAt s (4 * p + k) i = some r := recAt_of_running hrun hget
  refine ⟨logitSegment_kept hrec hvoid hwant, logitSegment_spoils hrec hvoid hwant, ?_, positionSampled_once hrec⟩
  intro e v zs st hses hvocab hspoiled hcancel hinstar hfresh hlogits hgram
  have h : ReadyToSample s r o e v zs st := ⟨hses, hvocab, hvoid, hspoiled, hcancel, hinstar, hwant, hfresh, hlogits, hgram⟩
  refine ⟨fun x hd => positionSampled_of_drawn hrec h ((congrArg (drawn s v) hd).trans rfl), fun hd => ?_⟩
  obtain ⟨t, hexec, r', hr, hx, -, hsame⟩ := positionSampled_of_drawn (x := none) hrec h ((congrArg (drawn s v) hd).trans rfl)
  exact ⟨t, hexec, r', hr, hx, hsame⟩

end Sys2Proof.Machine
end

section
/-! Rows and entries of an associative bank (R353, R355, R356): what a write gives back, and what invalidating leaves. -/

namespace Sys2Proof.Machine

variable {rows : Map (List Byte)} {bs : List Byte} {i j k n w e : Nat}

/-! ### A row -/

theorem rowOf_setRow_same (hwf : mwf rows = true) (hlen : bs.length = 16) : rowOf (setRow rows i bs) i = bs := by
  unfold setRow
  split_ifs with hzero
  · have hbs : bs = List.replicate 16 0#8 := List.eq_replicate_iff.2 ⟨hlen, by simpa using hzero⟩
    rw [rowOf, mget_mdel_same i hwf, hbs]
    rfl
  · rw [rowOf, mget_mset_same]
    rfl

theorem rowOf_setRow_other (h : j ≠ i) : rowOf (setRow rows i bs) j = rowOf rows j := by
  unfold setRow rowOf
  split_ifs
  · rw [mget_mdel_other h]
  · rw [mget_mset_other _ h]

theorem mwf_setRow (hwf : mwf rows = true) : mwf (setRow rows i bs) = true := by
  unfold setRow
  split_ifs
  · exact mwf_mdel hwf
  · exact mwf_mset hwf

/-! ### The rows of an entry -/

/-- The bytes of the row at place `i` of an entry. -/
def chunk (bs : List Byte) (i : Nat) : List Byte := (bs.drop (16 * i)).take 16

theorem flatMap_chunk (bs : List Byte) : ∀ n, (List.range n).flatMap (chunk bs) = bs.take (16 * n)
  | 0 => rfl
  | n + 1 => by
    rw [List.range_succ, List.flatMap_append, flatMap_chunk bs n, Nat.mul_succ, List.take_add, List.flatMap_singleton, chunk]

/-- Writes the `n` rows from row `k` on. -/
def setRows (rows : Map (List Byte)) (k n : Nat) (bs : List Byte) : Map (List Byte) :=
  (List.range n).foldl (fun m i => setRow m (k + i) (chunk bs i)) rows

theorem setEntry_eq (rows : Map (List Byte)) (w e : Nat) (bs : List Byte) : setEntry rows w e bs = setRows rows (w * e) w bs := rfl

theorem setRows_succ (rows : Map (List Byte)) (k n : Nat) (bs : List Byte) :
    setRows rows k (n + 1) bs = setRow (setRows rows k n bs) (k + n) (chunk bs n) := by
  rw [setRows, List.range_succ, List.foldl_append]
  rfl

theorem mwf_setRows (hwf : mwf rows = true) : ∀ n, mwf (setRows rows k n bs) = true
  | 0 => hwf
  | n + 1 => by
    rw [setRows_succ]
    exact mwf_setRow (mwf_setRows hwf n)

theorem rowOf_setRows_outside : ∀ {n : Nat}, (j < k ∨ k + n ≤ j) → rowOf (setRows rows k n bs) j = rowOf rows j
  | 0, _ => rfl
  | n + 1, h => by
    rw [setRows_succ, rowOf_setRow_other (by omega), rowOf_setRows_outside (by omega)]

theorem rowOf_setRows_inside (hwf : mwf rows = true) : ∀ {n : Nat}, 16 * n ≤ bs.length → i < n →
    rowOf (setRows rows k n bs) (k + i) = chunk bs i
  | n + 1, hlen, hi => by
    rw [setRows_succ]
    by_cases h : i = n
    · subst h
      exact rowOf_setRow_same (mwf_setRows hwf i) (by rw [chunk, List.length_take, List.length_drop]; omega)
    · rw [rowOf_setRow_other (by omega), rowOf_setRows_inside hwf (by omega) (by omega)]

theorem entryOf_setEntry (hwf : mwf rows = true) (hlen : bs.length = 16 * w) : entryOf (setEntry rows w e bs) w e = bs := by
  have hrows : entryOf (setEntry rows w e bs) w e = (List.range w).flatMap (chunk bs) :=
    List.flatMap_congr fun i hi => rowOf_setRows_inside hwf (by omega) (List.mem_range.1 hi)
  rw [hrows, flatMap_chunk, ← hlen, List.take_length]

/-! ### Invalid entries -/

theorem mem_of_mget {α : Type} {k : Nat} {v : α} : ∀ {m : Map α}, mget m k = some v → (k, v) ∈ m
  | (i, x) :: m, h => by
    rw [mget] at h
    split_ifs at h with hik
    · cases h
      exact hik ▸ List.mem_cons_self
    · exact List.mem_cons_of_mem _ (mem_of_mget h)

theorem withValid_false (h : bs ≠ []) : ∃ r, withValid bs false = 0 :: r := by
  cases bs with
  | nil => exact absurd rfl h
  | cons b r => exact ⟨r, rfl⟩

/-- The row that starts an entry at the new width has VALID clear: it is listed with byte 0 zero, or not listed. -/
theorem rowOf_invalidRows {w1 w2 : Nat} (rows : Map (List Byte)) (hk : k % w2 = 0) : ∃ r, rowOf (invalidRows rows w1 w2) k = 0 :: r := by
  cases hget : mget (invalidRows rows w1 w2) k with
  | none => exact ⟨List.replicate 15 0, by rw [rowOf, hget]; rfl⟩
  | some y =>
    obtain ⟨hmem, hlisted⟩ := List.mem_filter.1 (mem_of_mget hget)
    obtain ⟨⟨i, x⟩, -, hx⟩ := List.mem_map.1 hmem
    have hy : y = withValid x false := by
      dsimp only at hx
      split_ifs at hx with hstart
      · exact (congrArg (·.2) hx).symm
      · have hik : i = k := congrArg (·.1) hx
        exact absurd (.inr (hik ▸ hk)) hstart
    have hne : x ≠ [] := by
      rintro rfl
      rw [hy] at hlisted
      exact absurd hlisted (by simp [withValid])
    rw [rowOf, hget, hy]
    exact withValid_false hne

theorem entryValid_invalidRows {w1 : Nat} (rows : Map (List Byte)) (hw : 0 < w) (e : Nat) :
    entryValid (entryOf (invalidRows rows w1 w) w e) = false := by
  obtain ⟨r, hr⟩ := rowOf_invalidRows (w1 := w1) rows (Nat.mul_mod_right w e)
  obtain ⟨v, rfl⟩ : ∃ v, w = v + 1 := ⟨w - 1, by omega⟩
  rw [entryOf, List.range_succ_eq_map, List.flatMap_cons, show (v + 1) * e + 0 = (v + 1) * e from rfl, hr]
  simp [entryValid, bitOf]

end Sys2Proof.Machine
end

section
/-! The associative banks: cam.cfg, cam.write, cam.find, cam.read and the scrub (R353 to R361); then the statement on them. -/

namespace Sys2Proof.Machine

variable {s t : State} {src : Src} {b e : Nat} {a : Word} {bs : List Byte}

/-! ### A bank's registers -/

theorem b2n_lt_two (v : Bool) : b2n v < 2 := by cases v <;> decide

theorem bankUnits_of_fld (h : t.fld (CAM_CFG_WIDTH b) = s.fld (CAM_CFG_WIDTH b)) : bankUnits t b = bankUnits s b := by
  rw [bankUnits, bankUnits, h]

theorem bankEntries_le (s : State) (b : Nat) : bankEntries s b ≤ 8192 := Nat.div_le_self _ _

@[simp] theorem showValid_bank (s : State) (b c : Nat) : (showValid s b).bank c = s.bank c := setFld_at_bank ..

theorem showValid_units (hs : Canonical s) : bankUnits (showValid s b) b = bankUnits s b :=
  bankUnits_of_fld (fld_setFld_disjoint _ (by simp) hs.regs (.inr (by simp)))

theorem setFlds_bank (s : State) (l : List (Field × Nat)) (c : Nat) : (setFlds s l).bank c = s.bank c := by
  refine foldl_frame (·.bank c) (fun u x => ?_) l s
  rfl

/-! ### cam.cfg (R354, R355) -/

/-- What cam.cfg writes of CAM_CFG. -/
def bankShape (b width keyBytes : Nat) (verify : Bool) : List (Field × Nat) :=
  [(CAM_CFG_WIDTH b, width), (CAM_CFG_KEY_BYTES b, keyBytes), (CAM_CFG_VERIFY b, b2n verify)]

/-- The state in which a bank has a new shape and no valid entry. -/
def shaped (s : State) (b width keyBytes : Nat) (verify : Bool) : State :=
  setFlds (invalidate s b (bankUnits s b) (2 ^ width)) (bankShape b width keyBytes verify)

section
variable {width keyBytes : Nat} {verify : Bool}

theorem Canonical.invalidate (hs : Canonical s) (b w1 w2 : Nat) : Canonical (invalidate s b w1 w2) :=
  (hs.of_kept (setBank_kept s b _)).setFld _ _

theorem shaped_fld (hs : Canonical s) {f : Field} {v : Nat} (hmem : (f, v) ∈ bankShape b width keyBytes verify) (hv : v < 2 ^ f.w) :
    (shaped s b width keyBytes verify).fld f = v :=
  (fld_setFlds_of_mem (hs.invalidate b _ _) (by simp [bankShape]) (by simp [bankShape, Field.apart]) hmem).trans (Nat.mod_eq_of_lt hv)

theorem shaped_validEntries (hs : Canonical s) : (shaped s b width keyBytes verify).fld (CAM_CFG_VALID_ENTRIES b) = 0 :=
  (fld_setFlds_apart _ (hs.invalidate b _ _) (by simp [bankShape, Field.apart])).trans
    (fld_setFld_of_lt (hs.of_kept (setBank_kept s b _)) (by simp) (by simp))

theorem shaped_rows : ((shaped s b width keyBytes verify).bank b).rows = invalidRows (s.bank b).rows (bankUnits s b) (2 ^ width) := by
  rw [shaped, setFlds_bank, invalidate, setFld_at_bank, setBank_same]

theorem camCfgBody_done (hown : bankOwned s src b = true) (hwidth : width ≤ 2) (hkey : 1 ≤ keyBytes)
    (hfit : keyBytes ≤ 16 * 2 ^ width - 1) : camCfgBody src b width keyBytes verify s = (shaped s b width keyBytes verify, .ok) := by
  unfold camCfgBody
  rw [if_neg (by simp [hown]), if_neg (by omega), if_neg (by omega)]
  rfl

theorem camCfg_completes (hgo : ItemGo s src) (hs : Canonical s) (hown : bankOwned s src b = true) (hwidth : width ≤ 2)
    (hkey : 1 ≤ keyBytes) (hfit : keyBytes ≤ 16 * 2 ^ width - 1) :
    ∃ t : State, Completes (.camCfg src b width keyBytes verify) s src 0xE4 0 0 0 0 t ∧ bankUnits t b = 2 ^ width ∧
      t.fld (CAM_CFG_KEY_BYTES b) = keyBytes ∧ t.flag (CAM_CFG_VERIFY b) = verify ∧ t.fld (CAM_CFG_VALID_ENTRIES b) = 0 ∧
      ∀ e, entryValid (entryOf (t.bank b).rows (bankUnits t b) e) = false := by
  have hpow : 2 ^ width ≤ 2 ^ 2 := Nat.pow_le_pow_right (by decide) hwidth
  have hunits : bankUnits (shaped s b width keyBytes verify) b = 2 ^ width :=
    congrArg (2 ^ ·) (shaped_fld hs (by simp [bankShape]) (by dsimp only; omega))
  refine ⟨_, congrArg _ (runItem_done hgo (camCfgBody_done hown hwidth hkey hfit)), hunits, ?_, ?_, shaped_validEntries hs, fun e => ?_⟩
  · exact shaped_fld hs (by simp [bankShape]) (by dsimp only; omega)
  · rw [State.flag, shaped_fld hs (f := CAM_CFG_VERIFY b) (v := b2n verify) (by simp [bankShape]) (b2n_lt_two verify)]
    cases verify <;> rfl
  · rw [hunits, shaped_rows]
    exact entryValid_invalidRows _ (Nat.two_pow_pos _) e

end

/-! ### cam.write (R356, R361) -/

theorem withValid_length (bs : List Byte) (v : Bool) : (withValid bs v).length = bs.length := List.length_set

theorem storeEntry_units (hs : Canonical s) : bankUnits (storeEntry s b e bs) b = bankUnits s b :=
  showValid_units (hs.of_kept (setBank_kept s b _))

theorem storeEntry_bank (s : State) (b e : Nat) (bs : List Byte) : (storeEntry s b e bs).bank b =
    ⟨setEntry (s.bank b).rows (bankUnits s b) e bs, setEntry (s.bank b).copy (bankUnits s b) e bs⟩ := by
  rw [storeEntry, showValid_bank, setBank_same]

theorem storeEntry_bank_other (e : Nat) (bs : List Byte) {c : Nat} (h : c ≠ b) : (storeEntry s b e bs).bank c = s.bank c := by
  rw [storeEntry, showValid_bank, setBank_other _ _ _ h]

theorem camWriteBody_done (hown : bankOwned s src b = true) (he : e < bankEntries s b)
    (hread : itemRead s src 2 a (16 * bankUnits s b) = .ok bs) :
    camWriteBody src b e false a s = (storeEntry s b e (withValid bs (entryValid bs)), .ok) := by
  unfold camWriteBody
  rw [if_neg (by simp [hown]), if_neg (Nat.not_le.2 he)]
  dsimp only
  rw [hread]
  rfl

theorem camWrite_completes (hgo : ItemGo s src) (hs : Canonical s) (hown : bankOwned s src b = true) (he : e < bankEntries s b)
    (hread : itemRead s src 2 a (16 * bankUnits s b) = .ok bs) (hlen : bs.length = 16 * bankUnits s b)
    (hrows : mwf (s.bank b).rows = true) (hcopy : mwf (s.bank b).copy = true) :
    ∃ t : State, Completes (.camWrite src b e false a) s src 0xE5 0 0 0 0 t ∧
      entryOf (t.bank b).rows (bankUnits t b) e = withValid bs (entryValid bs) ∧
      entryOf (t.bank b).copy (bankUnits s b) e = withValid bs (entryValid bs) ∧
      (∀ j, (j < bankUnits s b * e ∨ bankUnits s b * e + bankUnits s b ≤ j) → rowOf (t.bank b).rows j = rowOf (s.bank b).rows j) ∧
      ∀ c, c ≠ b → t.bank c = s.bank c := by
  have hlen' : (withValid bs (entryValid bs)).length = 16 * bankUnits s b := (withValid_length bs _).trans hlen
  refine ⟨_, congrArg _ (runItem_done hgo (camWriteBody_done hown he hread)), ?_, ?_, fun j hj => ?_,
    fun c hc => storeEntry_bank_other _ _ hc⟩
  · rw [storeEntry_units hs, storeEntry_bank, entryOf_setEntry hrows hlen']
  · rw [storeEntry_bank, entryOf_setEntry hcopy hlen']
  · rw [storeEntry_bank, setEntry_eq, rowOf_setRows_outside hj]

theorem camWrite_refused (hgo : ItemGo s src) (hown : bankOwned s src b = false) (e : Nat) (clear : Bool) (a : Word) :
    exec (.camWrite src b e clear a) s = .next (completeFail s src 0xE5 0x6030 0 0) :=
  congrArg _ (runItem_fail hgo (if_pos (by simp [hown])))

/-! ### cam.find (R357, R359) -/

theorem camResult_found {e : Nat} (he : e < 8192) (l : List Nat) :
    bits (camResult (e :: l)).toNat 0 13 = e ∧ (camResult (e :: l)).getLsbD 13 = true ∧ (camResult (e :: l)).getLsbD 14 = !l.isEmpty := by
  have hb := b2n_lt_two (!l.isEmpty)
  have hc : min 8191 (e :: l).length ≤ 8191 := Nat.min_le_left _ _
  have hbit : (!l.isEmpty) = decide (b2n (!l.isEmpty) = 1) := by cases l <;> rfl
  rw [camResult]
  generalize min 8191 (e :: l).length = c at hc
  generalize b2n (!l.isEmpty) = m at hb hbit
  rw [hbit]
  refine ⟨?_, ?_, ?_⟩
  · rw [BitVec.toNat_ofNat, Nat.mod_eq_of_lt (by omega)]
    unfold bits
    omega
  · rw [BitVec.getLsbD_ofNat, Nat.testBit_eq_decide_div_mod_eq]
    simp only [Nat.reduceLT, decide_true, Bool.true_and, decide_eq_true_eq]
    omega
  · rw [BitVec.getLsbD_ofNat, Nat.testBit_eq_decide_div_mod_eq]
    simp only [Nat.reduceLT, decide_true, Bool.true_and, decide_eq_decide]
    omega

section
variable {start mask : Nat} {key : List Byte}

/-- An entry from START on that matches the key (R357). -/
def Hits (s : State) (b start : Nat) (key : List Byte) (mask e : Nat) : Prop :=
  start ≤ e ∧ e < bankEntries s b ∧ keyMatches key mask (entryOf (s.bank b).rows (bankUnits s b) e) = true

theorem mem_camMatches : e ∈ camMatches s b start key mask ↔ Hits s b start key mask e := by
  rw [camMatches, List.mem_filter, List.mem_range, Bool.and_eq_true, decide_eq_true_eq, Hits]
  tauto

theorem camMatches_nil (h : ∀ e, ¬ Hits s b start key mask e) : camMatches s b start key mask = [] :=
  List.eq_nil_iff_forall_not_mem.2 fun e he => h e (mem_camMatches.1 he)

/-- The matches begin with the least of them, and another follows just where another matches. -/
theorem camMatches_cons (hit : Hits s b start key mask e) (least : ∀ j, Hits s b start key mask j → e ≤ j) :
    ∃ l, camMatches s b start key mask = e :: l ∧ (l.isEmpty = false ↔ ∃ j, j ≠ e ∧ Hits s b start key mask j) := by
  have hsorted : (camMatches s b start key mask).Pairwise (· < ·) := List.pairwise_lt_range.filter _
  cases hm : camMatches s b start key mask with
  | nil => exact absurd (mem_camMatches.2 hit) (by simp [hm])
  | cons x l =>
    rw [hm] at hsorted
    have hafter : ∀ j ∈ l, x < j := (List.pairwise_cons.1 hsorted).1
    have hmem (j : Nat) : j ∈ x :: l ↔ Hits s b start key mask j := by rw [← hm]; exact mem_camMatches
    have hx : x = e := by
      rcases List.mem_cons.1 ((hmem e).2 hit) with rfl | hl
      · rfl
      · exact absurd (least x ((hmem x).1 List.mem_cons_self)) (Nat.not_le.2 (hafter e hl))
    subst hx
    refine ⟨l, rfl, fun hl => ?_, fun ⟨j, hne, hj⟩ => ?_⟩
    · obtain ⟨j, hj⟩ := List.exists_mem_of_ne_nil l (by simpa using hl)
      exact ⟨j, Nat.ne_of_gt (hafter j hj), (hmem j).1 (List.mem_cons_of_mem _ hj)⟩
    · rcases List.mem_cons.1 ((hmem j).2 hj) with rfl | hl
      · exact absurd rfl hne
      · simpa using List.ne_nil_of_mem hl

theorem camSearch_of_unverified (hverify : s.flag (CAM_CFG_VERIFY b) = false) :
    camSearch s b start key mask = (s, camMatches s b start key mask) := by
  unfold camSearch
  dsimp only
  split
  · rfl
  · exact if_neg (by simp [hverify])

theorem camFindBody_done {ka m : Word} (hown : bankOwned s src b = true) (hstart : start < bankEntries s b)
    (hverify : s.flag (CAM_CFG_VERIFY b) = false) (hread : itemRead s src 2 ka (s.fld (CAM_CFG_KEY_BYTES b)) = .ok key) :
    camFindBody src b start ka m 0 s = (s, .done 0 (camResult (camMatches s b start key m.toNat)) 0 0) := by
  unfold camFindBody
  rw [if_neg (by simp [hown]), if_neg (Nat.not_le.2 hstart)]
  dsimp only
  rw [hread]
  dsimp only
  rw [camSearch_of_unverified hverify]
  split
  · rfl
  · exact if_pos rfl

theorem camFind_completes {ka m : Word} (hgo : ItemGo s src) (hown : bankOwned s src b = true) (hstart : start < bankEntries s b)
    (hverify : s.flag (CAM_CFG_VERIFY b) = false) (hread : itemRead s src 2 ka (s.fld (CAM_CFG_KEY_BYTES b)) = .ok key) :
    Completes (.camFind src b start ka m 0) s src 0xE6 0 (camResult (camMatches s b start key m.toNat)) 0 0 s :=
  congrArg _ (runItem_done hgo (camFindBody_done hown hstart hverify hread))

end

/-! ### cam.read (R361) -/

theorem camReadBody_done (hown : bankOwned s src b = true) (he : e < bankEntries s b)
    (hwrite : itemWrite s src 2 a (entryOf (s.bank b).rows (bankUnits s b) e) = .ok t) :
    camReadBody src b e a s =
      (t, .done 0 (if entryValid (entryOf (s.bank b).rows (bankUnits s b) e) then 1 else 0) 0 0) := by
  unfold camReadBody
  rw [if_neg (by simp [hown]), if_neg (Nat.not_le.2 he)]
  dsimp only
  rw [hwrite]
  cases entryValid (entryOf (s.bank b).rows (bankUnits s b) e) <;> rfl

theorem camRead_refused (hgo : ItemGo s src) (hown : bankOwned s src b = false) (e : Nat) (a : Word) :
    exec (.camRead src b e a) s = .next (completeFail s src 0xE7 0x6030 0 0) :=
  congrArg _ (runItem_fail hgo (if_pos (by simp [hown])))

/-! ### The scrub (R360) -/

theorem rowOf_of_rowsDiffer {x : Bank} (h : rowsDiffer x = 0) {i : Nat} (hi : i < 8192) : rowOf x.rows i = rowOf x.copy i := by
  have hrow := List.countP_eq_zero.1 h i (List.mem_range.2 hi)
  simpa using hrow

theorem camScrub_ends (hused : s.fld (CAM_CFG_OWNER_KIND b) ≠ 0) :
    Ends (.camScrub b) s fun t => (∀ i, i < 8192 → rowOf (t.bank b).rows i = rowOf (s.bank b).copy i) ∧
      (t.bank b).copy = (s.bank b).copy ∧ t.ses = s.ses := by
  by_cases hsame : rowsDiffer (s.bank b) = 0
  · exact ends_of_eq rfl ((if_neg hused).trans (if_pos hsame)) ⟨fun i hi => rowOf_of_rowsDiffer hsame hi, rfl, rfl⟩
  · refine ends_of_eq rfl ((if_neg hused).trans (if_neg hsame)) ?_
    rw [showValid_bank, incSat_at_bank, setBank_same]
    exact ⟨fun _ _ => rfl, rfl, rfl⟩

/-! ### The statement -/

/-- Settles O45: the items by what their bodies answer, cam.find by the least of `camMatches`, and the scrub by its two outcomes. -/
theorem associativeBanksFindTheFirst : Obligations.AssociativeBanksFindTheFirst := by
  unfold Obligations.AssociativeBanksFindTheFirst
  refine ⟨fun s src b hgo hs _ => ⟨fun hown e a => ⟨camRead_refused hgo hown e a, camWrite_refused hgo hown e false a⟩,
    fun hown => ⟨fun width keyBytes verify hwidth hkey hfit => ?_,
      fun e a bs he hread hlen hrows hcopy => camWrite_completes hgo hs hown he hread hlen hrows hcopy,
      fun start ka mask key hstart hverify hread => ?_,
      fun e a t he hwrite => congrArg _ (runItem_done hgo (camReadBody_done hown he hwrite))⟩⟩, fun s b => camScrub_ends⟩
  · obtain ⟨t, hdone, hunits, hbytes, hflag, hcount, hinvalid⟩ := camCfg_completes (verify := verify) hgo hs hown hwidth hkey hfit
    exact ⟨t, hdone, hunits, hbytes, hflag, hcount, fun _ e _ => hinvalid e⟩
  · have hfind := camFind_completes (m := mask) hgo hown hstart hverify hread
    refine ⟨fun hnone => ?_, fun e hit least => ?_⟩
    · rw [camMatches_nil hnone] at hfind
      exact hfind
    · obtain ⟨l, hmatches, hmore⟩ := camMatches_cons hit least
      rw [hmatches] at hfind
      obtain ⟨hentry, hfound, hsecond⟩ := camResult_found (Nat.lt_of_lt_of_le hit.2.1 (bankEntries_le s b)) l
      refine ⟨_, hfind, hentry, hfound, ?_⟩
      rw [hsecond, Bool.not_eq_true']
      exact hmore

end Sys2Proof.Machine
end

section
/-! What events, faults and capacity changes leave of a state and of the registers of the bays (R412, R494, R575). -/

namespace Sys2Proof.Machine

variable {s t : State} {b : Nat}

/-! ### Fields apart -/

/-- Field `g` shares no bit with field `f`. -/
def FieldsApart (f g : Field) : Prop := g.off ≠ f.off ∨ f.lo + f.w ≤ g.lo ∨ g.lo + g.w ≤ f.lo

theorem fld_setFld_apart (hs : Canonical s) {f g : Field} (v : Nat) (hw : f.lo + f.w ≤ 64) (h : FieldsApart f g) :
    (s.setFld f v).fld g = s.fld g :=
  h.elim (fld_setFld_other s v) (fld_setFld_disjoint v hw hs.regs)

theorem flag_setFld_one (hs : Canonical s) {f : Field} (hw : f.lo + f.w ≤ 64) (h1 : 1 ≤ f.w) : (s.setFld f 1).flag f = true := by
  rw [flag_eq_true, fld_setFld_of_lt hs hw (Nat.one_lt_two_pow (by omega))]
  exact Nat.one_ne_zero

theorem flag_setFld_zero (hs : Canonical s) {f : Field} (hw : f.lo + f.w ≤ 64) : (s.setFld f 0).flag f = false := by
  rw [flag_eq_false, fld_setFld_of_lt hs hw (Nat.two_pow_pos _)]

/-! ### Canonical states -/

theorem Canonical.setBay (hs : Canonical s) (b : Nat) (x : Bay) : Canonical (s.setBay b x) := hs.of_kept (setBay_kept s b x)

theorem Canonical.fault (hs : Canonical s) (n k c : Nat) (a : Word) (m x : Nat) : Canonical (fault s n k c a m x) :=
  hs.of_kept (fault_kept s n k c a m x)

theorem Canonical.capacityChange (hs : Canonical s) : Canonical (capacityChange s) := hs.of_kept (capacityChange_kept s)

/-! ### Events -/

theorem leaveD1_upd (s : State) : ∃ r i, leaveD1 s = { s with regs := r, isl := i } := by
  unfold leaveD1
  split <;> exact ⟨_, _, rfl⟩

/-- An edge writes registers and the islands alone. -/
theorem edge_upd (s : State) (n : Nat) : ∃ r i, edge s n = { s with regs := r, isl := i } := by
  unfold edge
  split
  · dsimp only
    split_ifs <;> exact leaveD1_upd _
  · exact ⟨_, _, rfl⟩

@[simp] theorem edge_crt (s : State) (n : Nat) : (edge s n).crt = s.crt := by obtain ⟨r, i, h⟩ := edge_upd s n; rw [h]
@[simp] theorem edge_pins (s : State) (n : Nat) : (edge s n).pins = s.pins := by obtain ⟨r, i, h⟩ := edge_upd s n; rw [h]
@[simp] theorem edge_host (s : State) (n : Nat) : (edge s n).host = s.host := by obtain ⟨r, i, h⟩ := edge_upd s n; rw [h]
@[simp] theorem edge_mkr (s : State) (n : Nat) : (edge s n).mkr = s.mkr := by obtain ⟨r, i, h⟩ := edge_upd s n; rw [h]
@[simp] theorem edge_vse (s : State) (n : Nat) : (edge s n).vse = s.vse := by obtain ⟨r, i, h⟩ := edge_upd s n; rw [h]
@[simp] theorem edge_at_bay (s : State) (n b : Nat) : (edge s n).bay b = s.bay b := by simp [State.bay]
@[simp] theorem edge_at_awake (s : State) (n : Nat) : (edge s n).awake = s.awake := by simp [State.awake]

theorem leaveD1_fld (hs : Canonical s) {g : Field} (h : g.off ≠ 0x40 ∨ 2 ≤ g.lo) : (leaveD1 s).fld g = s.fld g := by
  unfold leaveD1
  split
  · exact fld_setFld_apart hs 0 (by decide) (h.imp_right .inl)
  · rfl

/-- Below the event registers an edge changes at most DEV_STATE. -/
theorem edge_fld_below (hs : Canonical s) (n : Nat) {g : Field} (h : g.off < 0xB00000) (h' : g.off ≠ 0x40 ∨ 2 ≤ g.lo) :
    (edge s n).fld g = s.fld g := by
  have hsrc : g.off ≠ (EVC_SRC_LATCHED n).off := by dsimp only; omega
  have hstatus : g.off ≠ EVC_STATUS_LATCHED.off := by dsimp only; omega
  have hgroup (k : Nat) : g.off ≠ (EVC_GROUP_PENDING k).off := by dsimp only; omega
  have hcanon (u : State) (f : Field) (k : Nat) (hu : Canonical u) : Canonical (u.incSat f k) := hu.setFld _ _
  unfold edge
  split
  · dsimp only
    split_ifs
    · rw [leaveD1_fld (hcanon _ _ _ hs) h']
      exact fld_of_reg (reg_incSat_other s 1 hsrc)
    · rw [leaveD1_fld (hcanon _ _ _ (hcanon _ _ _ (hs.setFld _ _))) h']
      exact fld_of_reg (by rw [reg_incSat_other _ _ (hgroup _), reg_incSat_other _ _ hstatus, reg_setFld_other _ _ hsrc])
    · rw [leaveD1_fld (hcanon _ _ _ (hs.setFld _ _)) h']
      exact fld_of_reg (by rw [reg_incSat_other _ _ hstatus, reg_setFld_other _ _ hsrc])
  · rfl

/-! ### Capacity changes -/

@[simp] theorem capacityChange_crt (s : State) : (capacityChange s).crt = s.crt := edge_crt s _
@[simp] theorem capacityChange_host (s : State) : (capacityChange s).host = s.host := edge_host s _
@[simp] theorem capacityChange_vse (s : State) : (capacityChange s).vse = s.vse := edge_vse s _
@[simp] theorem capacityChange_due (s : State) : (capacityChange s).mkr.due = true := rfl
@[simp] theorem capacityChange_at_bay (s : State) (b : Nat) : (capacityChange s).bay b = s.bay b := by simp [State.bay]

theorem capacityChange_fld_below (hs : Canonical s) {g : Field} (h : g.off < 0xB00000) (h' : g.off ≠ 0x40 ∨ 2 ≤ g.lo) :
    (capacityChange s).fld g = s.fld g := edge_fld_below hs _ h h'

/-! ### Faults -/

section
variable (s : State) (source kind status : Nat) (address : Word) (master access : Nat)

@[simp] theorem fault_crt : (fault s source kind status address master access).crt = s.crt := by
  obtain ⟨r, f, h⟩ := fault_upd s source kind status address master access; rw [h]
@[simp] theorem fault_pins : (fault s source kind status address master access).pins = s.pins := by
  obtain ⟨r, f, h⟩ := fault_upd s source kind status address master access; rw [h]
@[simp] theorem fault_vse : (fault s source kind status address master access).vse = s.vse := by
  obtain ⟨r, f, h⟩ := fault_upd s source kind status address master access; rw [h]
@[simp] theorem fault_gal : (fault s source kind status address master access).gal = s.gal := by
  obtain ⟨r, f, h⟩ := fault_upd s source kind status address master access; rw [h]
@[simp] theorem fault_at_bay (b : Nat) : (fault s source kind status address master access).bay b = s.bay b := by simp [State.bay]

/-- A fault that finds its latch free fills it with its kind and status. -/
theorem fault_reports (hsrc : srcAssigned source = true) (hfree : mget s.flt.latch source = none) :
    ∃ m, mget (fault s source kind status address master access).flt.latch source = some m ∧ m.kind = kind ∧ m.status = status := by
  unfold fault
  rw [if_pos hsrc, hfree]
  dsimp only
  split <;> exact ⟨_, mget_mset_same _ _ _, rfl, rfl⟩

end

/-! ### Registers of the bays -/

/-- The offsets of the cartridge registers (R412). -/
def CrtReg (o : Nat) : Prop := 0x800000 ≤ o ∧ o < 0x900000

theorem edge_crtReg (s : State) (n : Nat) {o : Nat} (h : CrtReg o) : (edge s n).reg o = s.reg o :=
  edge_reg s n (by unfold CrtReg at h; omega) (by unfold CrtReg at h; omega)

theorem capacityChange_crtReg (s : State) {o : Nat} (h : CrtReg o) : (capacityChange s).reg o = s.reg o := edge_crtReg s _ h

theorem fault_crtReg (s : State) (n k c : Nat) (a : Word) (m x : Nat) {o : Nat} (h : CrtReg o) :
    (fault s n k c a m x).reg o = s.reg o :=
  fault_reg s n k c a m x (by unfold CrtReg at h; omega)

end Sys2Proof.Machine
end

section
/-! The state of a bay (R364): what `showBays` and `setBst` write and what they leave. -/

namespace Sys2Proof.Machine

variable {s t : State} {b : Nat}

/-! ### What shows the bays -/

/-- Showing the bays writes registers and the islands alone. -/
theorem showBays_upd (s : State) : ∃ r i, showBays s = { s with regs := r, isl := i } := by
  unfold showBays
  dsimp only
  split
  · exact edge_upd _ _
  · exact ⟨_, _, rfl⟩

@[simp] theorem showBays_crt (s : State) : (showBays s).crt = s.crt := by obtain ⟨r, i, h⟩ := showBays_upd s; rw [h]
@[simp] theorem showBays_ses (s : State) : (showBays s).ses = s.ses := by obtain ⟨r, i, h⟩ := showBays_upd s; rw [h]
@[simp] theorem showBays_pins (s : State) : (showBays s).pins = s.pins := by obtain ⟨r, i, h⟩ := showBays_upd s; rw [h]
@[simp] theorem showBays_host (s : State) : (showBays s).host = s.host := by obtain ⟨r, i, h⟩ := showBays_upd s; rw [h]
@[simp] theorem showBays_mkr (s : State) : (showBays s).mkr = s.mkr := by obtain ⟨r, i, h⟩ := showBays_upd s; rw [h]
@[simp] theorem showBays_vse (s : State) : (showBays s).vse = s.vse := by obtain ⟨r, i, h⟩ := showBays_upd s; rw [h]
@[simp] theorem showBays_flt (s : State) : (showBays s).flt = s.flt := by obtain ⟨r, i, h⟩ := showBays_upd s; rw [h]
@[simp] theorem showBays_clk (s : State) : (showBays s).clk = s.clk := by obtain ⟨r, i, h⟩ := showBays_upd s; rw [h]
@[simp] theorem showBays_at_bay (s : State) (k : Nat) : (showBays s).bay k = s.bay k := by simp [State.bay]

/-- Below the event registers, showing the bays changes BAYS_PRESENT and the tiers' status, and at most DEV_STATE. -/
theorem showBays_fld (hs : Canonical s) {g : Field} (h38 : FieldsApart GLB_RES1_BAYS_PRESENT g) (h18 : g.off ≠ 0x200018)
    (h : g.off < 0xB00000) (h40 : g.off ≠ 0x40 ∨ 2 ≤ g.lo) : (showBays s).fld g = s.fld g := by
  have hthree (v w x : Nat) : (((s.setFld GLB_RES1_BAYS_PRESENT v).setFld SES_TIER_STATUS_BAYS_WRITABLE w).setFld
      SES_TIER_STATUS_P3_OPEN x).fld g = s.fld g := by
    rw [fld_setFld_other _ _ h18, fld_setFld_other _ _ h18, fld_setFld_apart hs _ (by decide) h38]
  unfold showBays
  dsimp only
  split
  · rw [edge_fld_below (((hs.setFld _ _).setFld _ _).setFld _ _) _ h h40]
    exact hthree _ _ _
  · exact hthree _ _ _

theorem showBays_crtFld (hs : Canonical s) {g : Field} (h : CrtReg g.off) : (showBays s).fld g = s.fld g := by
  unfold CrtReg at h
  exact showBays_fld hs (.inl (by dsimp only; omega)) (by omega) (by omega) (by omega)

theorem Canonical.showBays (hs : Canonical s) : Canonical (showBays s) := hs.of_kept (showBays_kept s)

/-! ### Fields of a bay -/

theorem crtReg_of_bay {o : Nat} (hb : b < 4) (hlo : 0x800100 + 0x100 * b ≤ o) (hhi : o < 0x800200 + 0x100 * b) : CrtReg o := by
  unfold CrtReg; omega

/-! ### A bay goes to a state -/

@[simp] theorem setBst_ses (s : State) (b st : Nat) : (setBst s b st).ses = s.ses := by simp [setBst]
@[simp] theorem setBst_pins (s : State) (b st : Nat) : (setBst s b st).pins = s.pins := by simp [setBst]
@[simp] theorem setBst_host (s : State) (b st : Nat) : (setBst s b st).host = s.host := by simp [setBst]
@[simp] theorem setBst_mkr (s : State) (b st : Nat) : (setBst s b st).mkr = s.mkr := by simp [setBst]
@[simp] theorem setBst_vse (s : State) (b st : Nat) : (setBst s b st).vse = s.vse := by simp [setBst]
@[simp] theorem setBst_flt (s : State) (b st : Nat) : (setBst s b st).flt = s.flt := by simp [setBst]
@[simp] theorem setBst_clk (s : State) (b st : Nat) : (setBst s b st).clk = s.clk := by simp [setBst]

/-- Of a bay's own fields only the time of the change is written. -/
@[simp] theorem setBst_bay (s : State) (b st : Nat) : (setBst s b st).bay b = { s.bay b with since := s.clk.now } := by
  simp [setBst, State.now]

theorem setBst_bay_other (s : State) {b k : Nat} (h : k ≠ b) (st : Nat) : (setBst s b st).bay k = s.bay k := by
  rw [setBst, showBays_at_bay, setBay_other _ _ _ h, setFld_at_bay]

theorem Canonical.setBst (hs : Canonical s) (b st : Nat) : Canonical (setBst s b st) := hs.of_kept (setBst_kept s b st)

theorem setBst_crtFld (hs : Canonical s) (b st : Nat) {g : Field} (h : CrtReg g.off) :
    (setBst s b st).fld g = (s.setFld (CRT_BAY_STATE b) st).fld g := by
  rw [setBst, showBays_crtFld ((hs.setFld _ _).setBay _ _) h, setBay_at_fld]

/-- A bay's state is the state it was put in. -/
theorem bst_setBst (hs : Canonical s) (hb : b < 4) {st : Nat} (hst : st < 16) : bst (setBst s b st) b = st := by
  rw [bst, setBst_crtFld hs b st (crtReg_of_bay hb (by simp) (by simp)), fld_setFld_of_lt hs (by simp) hst]

theorem setBst_fld_apart (hs : Canonical s) (b st : Nat) {g : Field} (h : CrtReg g.off) (ha : FieldsApart (CRT_BAY_STATE b) g) :
    (setBst s b st).fld g = s.fld g := by
  rw [setBst_crtFld hs b st h, fld_setFld_apart hs _ (by simp) ha]

end Sys2Proof.Machine
end

section
/-! Presence, hold-up status, the colophon and the link of a bay (R365, R376 to R379, R399). -/

namespace Sys2Proof.Machine

variable {s t : State} {b : Nat}

/-! ### Pins that move -/

/-- `t` is `s` with other pins, and with what the event of a pin writes. -/
structure PinsMoved (s t : State) : Prop where
  canon : Canonical t
  crt : t.crt = s.crt
  ses : t.ses = s.ses
  clk : t.clk = s.clk
  awake : t.awake = s.awake
  fld : ∀ g : Field, g.off < 0xB00000 → (g.off ≠ 0x40 ∨ 2 ≤ g.lo) → t.fld g = s.fld g

theorem PinsMoved.refl (hs : Canonical s) : PinsMoved s s := ⟨hs, rfl, rfl, rfl, rfl, fun _ _ _ => rfl⟩

theorem pinsMoved_edge (hs : Canonical s) {p : PinBlock} (hp : (p.porstN && !p.ovHold) = s.awake) (n : Nat) :
    PinsMoved s (edge { s with pins := p } n) :=
  have hcanon : Canonical { s with pins := p } := ⟨hs.regs, hs.mem, hs.hbm⟩
  ⟨hcanon.edge n, edge_crt _ n, edge_ses _ n, edge_clk _ n, (edge_at_awake _ n).trans hp,
    fun _ h h' => edge_fld_below hcanon n h h'⟩

section
variable (h : PinsMoved s t)
include h

theorem PinsMoved.bay (b : Nat) : t.bay b = s.bay b := by simp [State.bay, h.crt]

theorem PinsMoved.crtFld {g : Field} (hg : CrtReg g.off) : t.fld g = s.fld g := by
  unfold CrtReg at hg
  exact h.fld g (by omega) (.inl (by omega))

theorem PinsMoved.bst (hb : b < 4) : bst t b = bst s b := h.crtFld (crtReg_of_bay hb (by simp) (by simp))

theorem PinsMoved.baysRun (b : Nat) : baysRun t b = baysRun s b := by
  simp only [Machine.baysRun, State.hubUp, State.hubOk, h.awake, h.fld GLB_RES1_HUB_OK (by decide) (by decide),
    h.fld GLB_STATE_START_PHASE (by decide) (by decide)]

end

/-! ### Presence (R365) -/

/-- First step of `presence`: the pin, and its event. -/
def presentPin (s : State) (b : Nat) : State :=
  if s.pins.present.getD b false then s
  else edge { s with pins := { s.pins with present := s.pins.present.set b true } } (0x410 + b)

theorem presentPin_moved (hs : Canonical s) (b : Nat) : PinsMoved s (presentPin s b) := by
  unfold presentPin
  split
  · exact .refl hs
  · refine pinsMoved_edge hs ?_ _
    rfl

theorem presentPin_present (h : s.pins.present.length = 4) (hb : b < 4) : (presentPin s b).pins.present[b]? = some true := by
  unfold presentPin
  split
  · next hpin =>
    rw [List.getD_eq_getElem?_getD] at hpin
    cases hget : s.pins.present[b]? with
    | none => simp [hget] at hpin
    | some v => simpa [hget] using hpin
  · simp [h, hb]

/-- Second step of `presence`: PRESENT, and the time it was first seen. -/
def markPresent (s : State) (b : Nat) : State :=
  (s.setFld (CRT_BAY_PRESENT b) 1).setBay b { (s.setFld (CRT_BAY_PRESENT b) 1).bay b with presAt := some s.now }

theorem presence_eq (hs : Canonical s) (hb : b < 4) (hrun : baysRun s b = true) :
    presence s b = if bst (markPresent (presentPin s b) b) b = 0 then setBst (markPresent (presentPin s b) b) b 1
      else markPresent (presentPin s b) b := by
  have hrun' := ((presentPin_moved hs b).baysRun b).trans hrun
  unfold presence
  rw [if_neg (by omega)]
  exact if_pos hrun'

section
variable (hs : Canonical s)
include hs

theorem markPresent_canon (b : Nat) : Canonical (markPresent s b) := (hs.setFld _ _).setBay _ _

theorem bst_markPresent : bst (markPresent s b) b = bst s b :=
  (setBay_at_fld ..).trans (fld_setFld_apart hs 1 (by simp) (.inr (.inr (by simp))))

theorem markPresent_present : (markPresent s b).flag (CRT_BAY_PRESENT b) = true := flag_setFld_one hs (by simp) (by simp)

end

theorem presenceAsserted_charges (hs : Canonical s) (hb : b < 4) (hrun : baysRun s b = true) (hempty : bst s b = 0)
    (hpins : s.pins.present.length = 4) : Ends (.presenceAsserted b) s fun t => bst t b = 1 ∧
      t.flag (CRT_BAY_PRESENT b) = true ∧ (t.bay b).since = s.clk.now ∧ t.pins.present[b]? = some true ∧ t.ses = s.ses := by
  have hpin := presentPin_moved hs b
  have hmark := markPresent_canon hpin.canon b
  have hbst : bst (markPresent (presentPin s b) b) b = 0 := by rw [bst_markPresent hpin.canon, hpin.bst hb, hempty]
  refine ends_of_eq (u := presence s b) rfl ((presence_eq hs hb hrun).trans (if_pos hbst)) ⟨bst_setBst hmark hb (by decide), ?_, ?_, ?_, ?_⟩
  · rw [flag_of_fld (setBst_fld_apart hmark b 1 (crtReg_of_bay hb (by simp) (by simp)) (.inr (.inl (by simp))))]
    exact markPresent_present hpin.canon
  · simp [markPresent, hpin.clk]
  · rw [setBst_pins]
    exact presentPin_present hpins hb
  · rw [setBst_ses]
    exact hpin.ses

theorem presenceAsserted_other (hs : Canonical s) (hb : b < 4) (hrun : baysRun s b = true) (hin : bst s b ≠ 0) :
    Ends (.presenceAsserted b) s fun t => bst t b = bst s b := by
  have hpin := presentPin_moved hs b
  have hbst : bst (markPresent (presentPin s b) b) b = bst s b := by rw [bst_markPresent hpin.canon, hpin.bst hb]
  exact ends_of_eq (u := presence s b) rfl ((presence_eq hs hb hrun).trans (if_neg (by rwa [hbst]))) hbst

/-! ### Hold-up status (R365, R399) -/

/-- First step of `holdUp`: the pin, and its event. -/
def holdUpPin (s : State) (b : Nat) : State :=
  if s.pins.holdup.getD b false then s
  else edge { s with pins := { s.pins with holdup := s.pins.holdup.set b true } } (0x414 + b)

theorem holdUpPin_moved (hs : Canonical s) (b : Nat) : PinsMoved s (holdUpPin s b) := by
  unfold holdUpPin
  split
  · exact .refl hs
  · refine pinsMoved_edge hs ?_ _
    rfl

/-- Second step of `holdUp`: HOLDUP_OK. -/
def markHoldUp (s : State) (b : Nat) : State :=
  (s.setFld (CRT_BAY_HOLDUP_OK b) 1).setBay b { (s.setFld (CRT_BAY_HOLDUP_OK b) 1).bay b with badAt := none }

theorem holdUp_eq (hs : Canonical s) (hb : b < 4) (hrun : baysRun s b = true) :
    holdUp s b = let u := markHoldUp (holdUpPin s b) b
      if bst u b = 1 then setBst u b 2 else if bst u b = 5 then capacityChange (showBays u) else u := by
  have hrun' := ((holdUpPin_moved hs b).baysRun b).trans hrun
  unfold holdUp
  rw [if_neg (by omega)]
  exact if_pos hrun'

theorem holdUpGood_verifies (hs : Canonical s) (hb : b < 4) (hrun : baysRun s b = true) (hcharging : bst s b = 1) :
    Ends (.holdUpGood b) s fun t => bst t b = 2 ∧ t.flag (CRT_BAY_HOLDUP_OK b) = true ∧ (t.bay b).badAt = none := by
  have hpin := holdUpPin_moved hs b
  have hmark : Canonical (markHoldUp (holdUpPin s b) b) := (hpin.canon.setFld _ _).setBay _ _
  have hbst : bst (markHoldUp (holdUpPin s b) b) b = 1 := by
    rw [← hcharging, ← hpin.bst hb]
    exact fld_setFld_apart hpin.canon 1 (by simp) (.inr (.inr (by simp)))
  refine ends_of_eq (u := holdUp s b) rfl ((holdUp_eq hs hb hrun).trans (if_pos hbst)) ⟨bst_setBst hmark hb (by decide), ?_, ?_⟩
  · rw [flag_of_fld (setBst_fld_apart hmark b 2 (crtReg_of_bay hb (by simp) (by simp)) (.inr (.inl (by simp))))]
    exact flag_setFld_one hpin.canon (by simp) (by simp)
  · simp [markHoldUp]

theorem holdUpGood_other (hs : Canonical s) (hb : b < 4) (hrun : baysRun s b = true) (hother : bst s b ≠ 1) :
    Ends (.holdUpGood b) s fun t => bst t b = bst s b ∧ t.flag (CRT_BAY_HOLDUP_OK b) = true := by
  have hpin := holdUpPin_moved hs b
  have hmark : Canonical (markHoldUp (holdUpPin s b) b) := (hpin.canon.setFld _ _).setBay _ _
  have hbst : bst (markHoldUp (holdUpPin s b) b) b = bst s b := by
    rw [← hpin.bst hb]
    exact fld_setFld_apart hpin.canon 1 (by simp) (.inr (.inr (by simp)))
  have hflag : (markHoldUp (holdUpPin s b) b).flag (CRT_BAY_HOLDUP_OK b) = true := flag_setFld_one hpin.canon (by simp) (by simp)
  have hshown {g : Field} (hg : CrtReg g.off) : (capacityChange (showBays (markHoldUp (holdUpPin s b) b))).fld g =
      (markHoldUp (holdUpPin s b) b).fld g :=
    (fld_of_reg (capacityChange_crtReg _ hg)).trans (showBays_crtFld hmark hg)
  have hends := (holdUp_eq hs hb hrun).trans (if_neg (by rwa [hbst]))
  by_cases h5 : bst (markHoldUp (holdUpPin s b) b) b = 5
  · exact ends_of_eq (u := holdUp s b) rfl (hends.trans (if_pos h5))
      ⟨(hshown (crtReg_of_bay hb (by simp) (by simp))).trans hbst,
        (flag_of_fld (hshown (crtReg_of_bay hb (by simp) (by simp)))).trans hflag⟩
  · exact ends_of_eq (u := holdUp s b) rfl (hends.trans (if_neg h5)) ⟨hbst, hflag⟩

theorem holdUpTimerExpiry_fails (hs : Canonical s) (hb : b < 4) (hcharging : bst s b = 1)
    (hlate : (s.bay b).since + 2 * 10 ^ 9 ≤ s.clk.now) : Ends (.holdUpTimerExpiry b) s fun t => bst t b = 10 ∧
      t.fld (CRT_BAY_RO_REASON b) = 3 := by
  refine ends_of_eq (u := holdUpLate s b) rfl (if_pos ⟨hcharging, hlate⟩) ⟨bst_setBst (hs.setFld _ _) hb (by decide), ?_⟩
  rw [setBst_fld_apart (hs.setFld _ _) b 10 (crtReg_of_bay hb (by simp) (by simp)) (.inr (.inl (by simp)))]
  exact fld_setFld_of_lt hs (by simp) (by simp)

theorem holdUpTimerExpiry_unchanged (h : bst s b ≠ 1 ∨ s.clk.now < (s.bay b).since + 2 * 10 ^ 9) :
    exec (.holdUpTimerExpiry b) s = .next s :=
  exec_unchanged (u := holdUpLate s b) rfl (if_neg fun hc => h.elim (· hc.1) (Nat.not_lt.2 hc.2))

/-- First step of `holdUpBad`: the pin, and its event. -/
def holdUpPinLow (s : State) (b : Nat) : State :=
  if s.pins.holdup.getD b false then
    edge { s with pins := { s.pins with holdup := s.pins.holdup.set b false } } (0x414 + b)
  else s

theorem holdUpPinLow_moved (hs : Canonical s) (b : Nat) : PinsMoved s (holdUpPinLow s b) := by
  unfold holdUpPinLow
  split
  · refine pinsMoved_edge hs ?_ _
    rfl
  · exact .refl hs

theorem holdUpStatusBad_ends (hs : Canonical s) (hb : b < 4) : Ends (.holdUpStatusBad b) s fun t =>
    t.flag (CRT_BAY_HOLDUP_OK b) = false ∧ bst t b = bst s b ∧
      (bst s b = 5 → (t.bay b).badAt = some ((s.bay b).badAt.getD s.clk.now)) := by
  have hpin := holdUpPinLow_moved hs b
  have heq : holdUpBad s b = let u := (holdUpPinLow s b).setFld (CRT_BAY_HOLDUP_OK b) 0
      if bst u b = 5 then
        capacityChange (showBays (u.setBay b { u.bay b with badAt := some (((u.bay b).badAt).getD u.now) }))
      else u := if_neg (by omega)
  have hflag : ((holdUpPinLow s b).setFld (CRT_BAY_HOLDUP_OK b) 0).flag (CRT_BAY_HOLDUP_OK b) = false :=
    flag_setFld_zero hpin.canon (by simp)
  have hbst : bst ((holdUpPinLow s b).setFld (CRT_BAY_HOLDUP_OK b) 0) b = bst s b := by
    rw [← hpin.bst hb]
    exact fld_setFld_apart hpin.canon 0 (by simp) (.inr (.inr (by simp)))
  have hshown (x : Bay) {g : Field} (hg : CrtReg g.off) :
      (capacityChange (showBays (((holdUpPinLow s b).setFld (CRT_BAY_HOLDUP_OK b) 0).setBay b x))).fld g =
        ((holdUpPinLow s b).setFld (CRT_BAY_HOLDUP_OK b) 0).fld g :=
    (fld_of_reg (capacityChange_crtReg _ hg)).trans (showBays_crtFld ((hpin.canon.setFld _ _).setBay _ _) hg)
  by_cases h5 : bst s b = 5
  · refine ends_of_eq (u := holdUpBad s b) rfl (heq.trans (if_pos (hbst.trans h5)))
      ⟨(flag_of_fld (hshown _ (crtReg_of_bay hb (by simp) (by simp)))).trans hflag,
        (hshown _ (crtReg_of_bay hb (by simp) (by simp))).trans hbst, fun _ => ?_⟩
    simp [hpin.bay, State.now, hpin.clk]
  · exact ends_of_eq (u := holdUpBad s b) rfl (heq.trans (if_neg (by rwa [hbst]))) ⟨hflag, hbst, fun h => absurd h h5⟩

end Sys2Proof.Machine
end

section
/-! The colophon and the link of a bay (R365 to R368, R376 to R379). -/

namespace Sys2Proof.Machine

variable {s t : State} {b : Nat}

/-! ### Fault sources of a bay (R494) -/

theorem baySource_assigned {u : Nat} (hb : b < 4) (hu : u < 8) : srcAssigned (baySource b u) = true := by
  have hlo : 0xB00 ≤ baySource b u := by unfold baySource; omega
  have hhi : baySource b u ≤ 0xB1F := by unfold baySource; omega
  simp [srcAssigned, hlo, hhi]

/-- A fault leaves a bay's state. -/
theorem bst_fault (hb : b < 4) (n k c : Nat) (a : Word) (m x : Nat) : bst (fault s n k c a m x) b = bst s b :=
  fld_of_reg (fault_crtReg _ _ _ _ _ _ _ (crtReg_of_bay hb (by simp) (by simp)))

/-! ### The colophon (R376 to R379) -/

theorem colophonOk_iff (c : Colophon) : colophonOk c = true ↔ c.sigOk = true ∧ c.ver = 1 ∧ c.channels = 24 ∧ c.tProgSlc ≤ 230 ∧
    c.tResumeMin + c.tSusp + 2 * c.tRdWorst + 4 ≤ 200 ∧ c.reservedZero = true := by
  simp [colophonOk, and_assoc]

theorem newestWear_eq_none {x y : Option WearRec} : newestWear x y = none ↔ x = none ∧ y = none := by
  cases x <;> cases y <;> simp [newestWear]
  split <;> simp

theorem filter_tagOk_eq_none {x : Option WearRec} : x.filter (·.tagOk) = none ↔ ∀ w, x = some w → w.tagOk = false := by
  cases x <;> simp

/-- A cartridge is blank when no wear record verifies and its flash reads erased. -/
theorem insertedWear_blank (wa wb sb : Option WearRec) (er : Bool) : (insertedWear wa wb sb er).2.1 = true ↔ er = true ∧
    (∀ w, wa = some w → w.tagOk = false) ∧ (∀ w, wb = some w → w.tagOk = false) ∧ ∀ w, sb = some w → w.tagOk = false := by
  have hrec : newestWear (wa.filter (·.tagOk)) (wb.filter (·.tagOk)) = none ↔
      (∀ w, wa = some w → w.tagOk = false) ∧ ∀ w, wb = some w → w.tagOk = false := by
    rw [newestWear_eq_none, filter_tagOk_eq_none, filter_tagOk_eq_none]
  rw [← and_assoc (b := ∀ w, wb = some w → w.tagOk = false), ← hrec, ← filter_tagOk_eq_none]
  unfold insertedWear
  cases newestWear (wa.filter (·.tagOk)) (wb.filter (·.tagOk)) <;> cases sb.filter (·.tagOk) <;> cases er <;> simp

@[simp] theorem showWear_bay (s : State) (b : Nat) (w : WearRec) (k : Nat) : (showWear s b w).bay k = s.bay k := rfl

theorem Canonical.showWear (hs : Canonical s) (b : Nat) (w : WearRec) : Canonical (showWear s b w) := hs.of_kept (showWear_kept s b w)

theorem showWear_fld (s : State) (b : Nat) (w : WearRec) {g : Field} (h1 : g.off ≠ (CRT_HOST_WR_BYTES b).off)
    (h2 : g.off ≠ (CRT_NAND_WR_BYTES b).off) (h3 : g.off ≠ (CRT_BLOCKS_ERASE_MAX b).off) : (showWear s b w).fld g = s.fld g := by
  have h3' : g.off ≠ (CRT_BLOCKS_ERASE_MEAN b).off := h3
  have h3'' : g.off ≠ (CRT_BLOCKS_SPARE_BLOCKS b).off := h3
  rw [showWear, fld_setFld_other _ _ h3'', fld_setFld_other _ _ h3', fld_setFld_other _ _ h3, fld_setFld_other _ _ h2,
    fld_setFld_other _ _ h1]

/-- What `colophonRead` writes for an accepted colophon, before the bay goes to TRAINING. -/
def takeColophon (s : State) (b : Nat) (c : Colophon) (w : WearRec × Bool × Bool) : State :=
  let s := s.setBay b { s.bay b with col := some c, wear := w.1, blank := w.2.1, wearAt := s.now }
  let s := (s.setFld (CRT_BAY_PART b) c.part).setFld (CRT_SERIAL_SERIAL b) c.serial
  (showWear s b w.1).setFld (CRT_BAY_WEAR_UNVERIFIED b) (b2n w.2.2)

section
variable {c : Colophon} {w : WearRec × Bool × Bool}

theorem takeColophon_bay : (takeColophon s b c w).bay b =
    { s.bay b with col := some c, wear := w.1, blank := w.2.1, wearAt := s.now } := by simp [takeColophon]

variable (hs : Canonical s)
include hs

theorem Canonical.takeColophon : Canonical (takeColophon s b c w) :=
  ((((hs.setBay _ _).setFld _ _).setFld _ _).showWear b w.1).setFld _ _

theorem takeColophon_serial : (takeColophon s b c w).fld (CRT_SERIAL_SERIAL b) = c.serial % 2 ^ 64 := by
  rw [takeColophon, fld_setFld_other _ _ (by simp), showWear_fld _ _ _ (by simp) (by simp) (by simp)]
  exact fld_setFld_same _ _ (by simp) ((hs.setBay _ _).setFld _ _).regs

theorem takeColophon_part : (takeColophon s b c w).fld (CRT_BAY_PART b) = c.part % 2 ^ 16 := by
  rw [takeColophon, fld_setFld_apart ((((hs.setBay _ _).setFld _ _).setFld _ _).showWear b w.1) _ (by simp) (.inr (.inl (by simp))),
    showWear_fld _ _ _ (by simp) (by simp) (by simp), fld_setFld_other _ _ (by simp)]
  exact fld_setFld_same _ _ (by simp) (hs.setBay _ _).regs

end

theorem colophonVerified_trains {c : Colophon} (hs : Canonical s) (hb : b < 4) (hst : bst s b = 2) (hok : colophonOk c = true)
    (wa wb sb : Option WearRec) (er : Bool) : Ends (.colophonVerified b c wa wb sb er) s fun t =>
      bst t b = 3 ∧ (t.bay b).col = some c ∧ t.fld (CRT_SERIAL_SERIAL b) = c.serial % 2 ^ 64 ∧
      t.fld (CRT_BAY_PART b) = c.part % 2 ^ 16 ∧ ((t.bay b).blank = true ↔ (insertedWear wa wb sb er).2.1 = true) := by
  have heq : colophonRead s b c wa wb sb er = setBst (takeColophon s b c (insertedWear wa wb sb er)) b 3 := by
    rw [colophonRead, if_neg (by simp [hst]), if_pos hok]
    rfl
  have htaken : Canonical (takeColophon s b c (insertedWear wa wb sb er)) := hs.takeColophon
  refine ends_of_eq (u := colophonRead s b c wa wb sb er) rfl heq ⟨bst_setBst htaken hb (by decide), ?_, ?_, ?_, ?_⟩
  · rw [setBst_bay, takeColophon_bay]
  · rw [setBst_fld_apart htaken b 3 (crtReg_of_bay hb (by simp) (by simp)) (.inl (by simp))]
    exact takeColophon_serial hs
  · rw [setBst_fld_apart htaken b 3 (crtReg_of_bay hb (by simp) (by simp)) (.inr (.inl (by simp)))]
    exact takeColophon_part hs
  · rw [setBst_bay, takeColophon_bay]

theorem colophonVerified_refused {c : Colophon} (hs : Canonical s) (hb : b < 4) (hst : bst s b = 2) (hbad : colophonOk c = false)
    (hfree : mget s.flt.latch (0xB00 + 8 * b + 6) = none) (wa wb sb : Option WearRec) (er : Bool) :
    Ends (.colophonVerified b c wa wb sb er) s fun t => bst t b = 10 ∧ (t.bay b).col = (s.bay b).col ∧
      ∃ m, mget t.flt.latch (0xB00 + 8 * b + 6) = some m ∧ m.status = 0x800A := by
  refine ends_of_eq (u := colophonRead s b c wa wb sb er) rfl ((if_neg (by simp [hst])).trans (if_neg (by simp [hbad])))
    ⟨(bst_fault hb ..).trans (bst_setBst hs hb (by decide)), by simp, ?_⟩
  exact fault_latches _ _ _ _ _ _ _ (baySource_assigned hb (by decide)) (by rw [setBst_flt]; exact hfree)

theorem colophonVerified_unchanged (hst : bst s b ≠ 2) (c : Colophon) (wa wb sb : Option WearRec) (er : Bool) :
    exec (.colophonVerified b c wa wb sb er) s = .next s :=
  exec_unchanged (u := colophonRead s b c wa wb sb er) rfl (if_pos hst)

theorem i3cSilent_fails (hs : Canonical s) (hb : b < 4) (hst : bst s b = 2) (hlate : (s.bay b).since + 100 * 10 ^ 6 ≤ s.clk.now) :
    Ends (.i3cSilent b) s fun t => bst t b = 10 :=
  ends_of_eq (u := i3cQuiet s b) rfl (if_pos ⟨hst, hlate⟩) ((bst_fault hb ..).trans (bst_setBst hs hb (by decide)))

theorem i3cSilent_unchanged (h : bst s b ≠ 2 ∨ s.clk.now < (s.bay b).since + 100 * 10 ^ 6) : exec (.i3cSilent b) s = .next s :=
  exec_unchanged (u := i3cQuiet s b) rfl (if_neg fun hc => h.elim (· hc.1) (Nat.not_lt.2 hc.2))

/-! ### A trained link (R365, R370) -/

@[simp] theorem sendIssuer_regs (b : Nat) (s : State) (ch : Nat) : (sendIssuer b s ch).regs = s.regs := rfl
@[simp] theorem sendIssuer_ops (b : Nat) (s : State) (ch : Nat) : ((sendIssuer b s ch).bay b).ops = (s.bay b).ops := by
  simp [sendIssuer, sendFlit]
@[simp] theorem sendIssuer_col (b : Nat) (s : State) (ch : Nat) : ((sendIssuer b s ch).bay b).col = (s.bay b).col := by
  simp [sendIssuer, sendFlit]

/-- First step of `linkUp`: the link as training leaves it, and LANES_GOOD. -/
def linkTrainedAt (s : State) (b lanes : Nat) : State :=
  (s.setBay b { s.bay b with link := link0, ops := [], dies := [] }).setFld (CRT_BAY_LANES_GOOD b) lanes

/-- Second step of `linkUp`: the bridge has the instar of every engine. -/
def issuersSent (s : State) (b : Nat) : State := (List.range 24).foldl (sendIssuer b) s

theorem linkUp_eq (s : State) (b lanes : Nat) : linkUp s b lanes = setBst (issuersSent (linkTrainedAt s b lanes) b) b 4 := rfl

theorem Canonical.issuersSent (hs : Canonical s) (b : Nat) : Canonical (issuersSent s b) :=
  hs.of_kept (kept_foldl (fun u ch => sendIssuer_kept b u ch) _)
theorem issuersSent_regs (s : State) (b : Nat) : (issuersSent s b).regs = s.regs :=
  foldl_frame State.regs (sendIssuer_regs b) (List.range 24) s
theorem issuersSent_ops (s : State) (b : Nat) : ((issuersSent s b).bay b).ops = (s.bay b).ops :=
  foldl_frame (fun u : State => (u.bay b).ops) (sendIssuer_ops b) (List.range 24) s
theorem issuersSent_col (s : State) (b : Nat) : ((issuersSent s b).bay b).col = (s.bay b).col :=
  foldl_frame (fun u : State => (u.bay b).col) (sendIssuer_col b) (List.range 24) s

theorem linkUp_replays (hs : Canonical s) (hb : b < 4) {lanes : Nat} (hlanes : lanes < 8) :
    bst (linkUp s b lanes) b = 4 ∧ (linkUp s b lanes).fld (CRT_BAY_LANES_GOOD b) = lanes ∧ ((linkUp s b lanes).bay b).ops = [] ∧
      ((linkUp s b lanes).bay b).col = (s.bay b).col := by
  have hat : Canonical (linkTrainedAt s b lanes) := (hs.setBay _ _).setFld _ _
  have hsent : Canonical (issuersSent (linkTrainedAt s b lanes) b) := hat.issuersSent b
  rw [linkUp_eq]
  refine ⟨bst_setBst hsent hb (by decide), ?_, ?_, ?_⟩
  · rw [setBst_fld_apart hsent b 4 (crtReg_of_bay hb (by simp) (by simp)) (.inr (.inl (by simp))), State.fld, State.reg,
      issuersSent_regs]
    exact fld_setFld_of_lt (hs.setBay _ _) (by simp) hlanes
  · rw [setBst_bay, issuersSent_ops]
    simp [linkTrainedAt]
  · rw [setBst_bay, issuersSent_col]
    simp [linkTrainedAt]

theorem trainOk_iff (lanes : Nat) (same : Bool) : trainOk lanes same = true ↔ 5 ≤ lanes ∧ lanes ≤ 6 ∧ same = true := by
  simp [trainOk, and_assoc]

section
variable {lanes : Nat} {same : Bool}

theorem linkTrained_replays (hs : Canonical s) (hb : b < 4) (hst : bst s b = 3) (hok : trainOk lanes same = true)
    (hintime : s.clk.now ≤ (s.bay b).since + 50 * 10 ^ 6) : Ends (.linkTrained b lanes same) s fun t =>
      bst t b = 4 ∧ t.fld (CRT_BAY_LANES_GOOD b) = lanes ∧ (t.bay b).ops = [] ∧ (t.bay b).col = (s.bay b).col :=
  have hlanes : lanes < 8 := by have := ((trainOk_iff lanes same).1 hok).2.1; omega
  ends_of_eq (u := trained s b lanes same) rfl
    ((if_neg (by simp [hst])).trans (if_pos (by simp only [hok, Bool.true_and, decide_eq_true_eq]; exact hintime)))
    (linkUp_replays hs hb hlanes)

theorem linkTrained_fails (hs : Canonical s) (hb : b < 4) (hst : bst s b = 3)
    (hbad : lanes < 5 ∨ same = false ∨ (s.bay b).since + 50 * 10 ^ 6 < s.clk.now) : ∃ t : State, bst t b = 10 ∧
      exec (.linkTrained b lanes same) s = .next (cartridgeLost t b (s.fld (CRT_SERIAL_SERIAL b))) := by
  have hno : ¬ (trainOk lanes same && decide (s.now ≤ (s.bay b).since + 50 * 10 ^ 6)) = true := by
    rw [Bool.and_eq_true, trainOk_iff, decide_eq_true_eq]
    rintro ⟨⟨h5, -, hsame⟩, htime⟩
    rcases hbad with h | h | h
    · omega
    · simp [hsame] at h
    · exact absurd htime (Nat.not_le.2 h)
  exact ⟨setBst s b 10, bst_setBst hs hb (by decide), congrArg Host.Outcome.next
    ((if_neg (by simp [hst])).trans (if_neg hno) : trained s b lanes same = _)⟩

end

end Sys2Proof.Machine
end

section
/-! Training again, wear records, the end of a replay, the end of life and removal (R365, R366, R375, R379, R400, R406, R407, R580). -/

namespace Sys2Proof.Machine

variable {s t : State} {b : Nat}

/-! ### Training again (R365) -/

section
variable {lanes : Nat} {same : Bool}

section
variable (hst : bst s b = 10) (hpres : s.flag (CRT_BAY_PRESENT b) = true) (hcol : (s.bay b).col.isSome)
  (hlate : (s.bay b).since + 10 ^ 9 ≤ s.clk.now)
include hst hpres hcol hlate

theorem retryTraining_eq : retryTraining s b lanes same = if trainOk lanes same then linkUp s b lanes else setBst s b 10 :=
  if_pos ⟨hst, hpres, hcol, hlate⟩

theorem trainingRetry_replays (hs : Canonical s) (hb : b < 4) (hok : trainOk lanes same = true) :
    Ends (.trainingRetry b lanes same) s fun t => bst t b = 4 ∧ t.fld (CRT_BAY_LANES_GOOD b) = lanes := by
  have hlanes : lanes < 8 := by have := ((trainOk_iff lanes same).1 hok).2.1; omega
  obtain ⟨hbst, hgood, -⟩ := linkUp_replays hs hb hlanes
  exact ends_of_eq (u := retryTraining s b lanes same) rfl ((retryTraining_eq hst hpres hcol hlate).trans (if_pos hok)) ⟨hbst, hgood⟩

theorem trainingRetry_fails (hs : Canonical s) (hb : b < 4) (hbad : lanes < 5 ∨ same = false) :
    Ends (.trainingRetry b lanes same) s fun t => bst t b = 10 ∧ (t.bay b).since = s.clk.now := by
  have hno : ¬ trainOk lanes same = true := by
    rw [trainOk_iff]
    rintro ⟨h5, -, hsame⟩
    exact hbad.elim (Nat.not_lt.2 h5) (by simp [hsame])
  exact ends_of_eq (u := retryTraining s b lanes same) rfl ((retryTraining_eq hst hpres hcol hlate).trans (if_neg hno))
    ⟨bst_setBst hs hb (by decide), by rw [setBst_bay]⟩

end

theorem trainingRetry_unchanged (h : bst s b ≠ 10 ∨ s.flag (CRT_BAY_PRESENT b) = false) :
    exec (.trainingRetry b lanes same) s = .next s :=
  exec_unchanged (u := retryTraining s b lanes same) rfl
    (if_neg fun ⟨hst, hpres, _⟩ => h.elim (· hst) (by simp [hpres]))

theorem linkTrained_unchanged (hst : bst s b ≠ 3) : exec (.linkTrained b lanes same) s = .next s :=
  exec_unchanged (u := trained s b lanes same) rfl (if_pos hst)

end

/-! ### Wear records (R375, R378, R379) -/

@[simp] theorem writeWear_bay (s : State) (b : Nat) (a : Bool) : (writeWear s b a).bay b =
    { s.bay b with wear := wearNow s b, wearAt := s.clk.now, wearCopy := if a then 1 - (s.bay b).wearCopy else (s.bay b).wearCopy } := by
  simp [writeWear, State.now]

@[simp] theorem writeWear_at_fld (s : State) (b : Nat) (a : Bool) (g : Field) : (writeWear s b a).fld g = s.fld g := rfl
@[simp] theorem writeWear_ses (s : State) (b : Nat) (a : Bool) : (writeWear s b a).ses = s.ses := rfl
@[simp] theorem writeWear_regs (s : State) (b : Nat) (a : Bool) : (writeWear s b a).regs = s.regs := rfl

theorem Canonical.writeWear (hs : Canonical s) (b : Nat) (a : Bool) : Canonical (writeWear s b a) := ⟨hs.regs, hs.mem, hs.hbm⟩

@[simp] theorem wearNow_wgen (s : State) (b : Nat) : (wearNow s b).wgen = (s.bay b).wear.wgen + 1 := rfl
@[simp] theorem wearNow_tagOk (s : State) (b : Nat) : (wearNow s b).tagOk = true := rfl
@[simp] theorem wearNow_readOnly (s : State) (b : Nat) : (wearNow s b).readOnly = (s.bay b).wear.readOnly := rfl

theorem wearRecordWrite_ends (h4 : 4 ≤ bst s b) (h8 : bst s b ≤ 8) (a : Bool) : Ends (.wearRecordWrite b a) s fun t =>
    (t.bay b).wear.wgen = (s.bay b).wear.wgen + 1 ∧ (t.bay b).wear.tagOk = true ∧ (t.bay b).wearAt = s.clk.now ∧
    (t.bay b).wearCopy = (if a then 1 - (s.bay b).wearCopy else (s.bay b).wearCopy) ∧ t.regs = s.regs ∧ t.ses = s.ses :=
  ends_of_eq (t := writeWear s b a) rfl (if_pos ⟨h4, h8⟩) ⟨by simp, by simp, by simp, by simp, rfl, rfl⟩

theorem wearRecordWrite_unchanged (h : bst s b < 4 ∨ 8 < bst s b) (a : Bool) : exec (.wearRecordWrite b a) s = .next s :=
  exec_unchanged rfl (if_neg fun hc => h.elim (Nat.not_lt.2 hc.1) (Nat.not_lt.2 hc.2))

/-! ### The end of a replay (R365, R400, R580) -/

theorem fld_updCrt (s : State) (c : CrtBlock) (g : Field) : State.fld { s with crt := c } g = s.fld g := rfl

theorem Canonical.updCrt (hs : Canonical s) (c : CrtBlock) : Canonical { s with crt := c } := ⟨hs.regs, hs.mem, hs.hbm⟩

theorem setBst_ready (hs : Canonical s) (b st : Nat) : (setBst s b st).fld GLB_STATE_READY = s.fld GLB_STATE_READY := by
  rw [setBst, showBays_fld ((hs.setFld _ _).setBay _ _) (.inl (by decide)) (by decide) (by decide) (by decide), setBay_at_fld,
    fld_setFld_other _ _ (by simp; omega)]

/-- What `replayed` shows of the directory. -/
def directoryShown (s : State) (b : Nat) : State :=
  let u := (s.setFld (CRT_JRNL_JOURNAL b) (s.bay b).journal.length).setFld (CRT_JRNL_CHECKPOINT b) (s.bay b).checkpoint.length
  u.setFld (CRT_FREE_BYTES b) (freeAfter u b)

/-- What `replayed` writes before the bay goes to WRITABLE or READ_ONLY. -/
def replayShown (s : State) (b : Nat) : State :=
  let u := directoryShown s b
  State.setFld { u with crt := { u.crt with stale := mdel u.crt.stale b } } (CRT_BAY_RO_REASON b)
    (if (s.bay b).wear.readOnly then (s.bay b).wear.roReason else 0)

@[simp] theorem replayShown_bay (s : State) (b k : Nat) : (replayShown s b).bay k = s.bay k := rfl
@[simp] theorem replayShown_clk (s : State) (b : Nat) : (replayShown s b).clk = s.clk := rfl

theorem Canonical.directoryShown (hs : Canonical s) (b : Nat) : Canonical (directoryShown s b) :=
  ((hs.setFld _ _).setFld _ _).setFld _ _

theorem Canonical.replayShown (hs : Canonical s) (b : Nat) : Canonical (replayShown s b) :=
  ((hs.directoryShown b).updCrt _).setFld _ _

theorem directoryShown_ready (s : State) (b : Nat) : (directoryShown s b).fld GLB_STATE_READY = s.fld GLB_STATE_READY := by
  rw [directoryShown, fld_setFld_other _ _ (by simp; omega), fld_setFld_other _ _ (by simp; omega),
    fld_setFld_other _ _ (by simp; omega)]

theorem replayShown_ready (s : State) (b : Nat) : (replayShown s b).fld GLB_STATE_READY = s.fld GLB_STATE_READY := by
  rw [replayShown, fld_setFld_other _ _ (by simp; omega), fld_updCrt, directoryShown_ready]

/-- Before READY the records of a bay are not restored yet: the bay goes to its state, and that is all. -/
theorem replayed_notReady (hs : Canonical s) (hready : s.fld GLB_STATE_READY = 0) (b : Nat) :
    replayed s b = capacityChange (setBst (replayShown s b) b (if (s.bay b).wear.readOnly then 6 else 5)) := by
  refine if_neg ?_
  rw [flag_eq_true, not_not]
  exact (capacityChange_fld_below ((hs.replayShown b).setBst _ _) (by decide) (by decide)).trans
    ((setBst_ready (hs.replayShown b) _ _).trans ((replayShown_ready s b).trans hready))

theorem replayed_ends (hs : Canonical s) (hb : b < 4) (hready : s.fld GLB_STATE_READY = 0) :
    bst (replayed s b) b = (if (s.bay b).wear.readOnly then 6 else 5) ∧ (replayed s b).mkr.due = true ∧
      (replayed s b).bay b = { s.bay b with since := s.clk.now } := by
  rw [replayed_notReady hs hready]
  refine ⟨?_, rfl, by simp⟩
  rw [bst, fld_of_reg (capacityChange_crtReg _ (crtReg_of_bay hb (by simp) (by simp)))]
  exact bst_setBst (hs.replayShown b) hb (by split <;> decide)

theorem le_foldl_max : ∀ (l : List Nat) (m : Nat), m ≤ l.foldl max m ∧ ∀ x ∈ l, x ≤ l.foldl max m
  | [], m => ⟨Nat.le_refl m, by simp⟩
  | y :: l, m => by
    obtain ⟨hmax, hmem⟩ := le_foldl_max l (max m y)
    refine ⟨(Nat.le_max_left m y).trans hmax, fun x hx => ?_⟩
    rcases List.mem_cons.1 hx with rfl | hx
    · exact (Nat.le_max_right m x).trans hmax
    · exact hmem x hx

/-- A blank cartridge as its replay initialises it: a wear record, and an empty superblock. -/
def initialised (s : State) (b : Nat) : State :=
  let s := writeWear (freshCartridge s b) b true
  s.setBay b { s.bay b with blank := false, opened := true, sbGen := (s.bay b).sbGen + 1, sbSlot := 1 - (s.bay b).sbSlot,
                            checkpoint := [], journal := [], nextJseq := 1, settled := false }

@[simp] theorem freshCartridge_bay (s : State) (b k : Nat) : (freshCartridge s b).bay k = s.bay k := rfl

theorem initialised_fld (s : State) (b : Nat) (g : Field) : (initialised s b).fld g = s.fld g := by
  rw [initialised, setBay_at_fld, writeWear_at_fld, freshCartridge, fld_updCrt]

theorem initialised_bay (s : State) (b : Nat) : ((initialised s b).bay b).wear.readOnly = (s.bay b).wear.readOnly ∧
    ((initialised s b).bay b).blank = false ∧ ((initialised s b).bay b).checkpoint = [] ∧ ((initialised s b).bay b).journal = [] := by
  simp [initialised]

section
variable {opened : Bool} {n : Nat} {recs : List (DirRec × HeadPage)}

theorem replayComplete_blank (hs : Canonical s) (hb : b < 4) (hst : bst s b = 4) (hready : s.fld GLB_STATE_READY = 0)
    (hblank : (s.bay b).blank = true) : Ends (.replayComplete b opened n recs) s fun t =>
      bst t b = (if (s.bay b).wear.readOnly then 6 else 5) ∧ (t.bay b).blank = false ∧ (t.bay b).checkpoint = [] ∧
      (t.bay b).journal = [] ∧ t.mkr.due = true := by
  have hcanon : Canonical (initialised s b) := ((hs.updCrt _).writeWear b true).setBay b _
  obtain ⟨hbst, hdue, hbay⟩ := replayed_ends hcanon hb ((initialised_fld s b _).trans hready)
  obtain ⟨hwear, hnot, hcheckpoint, hjournal⟩ := initialised_bay s b
  refine ends_of_eq (u := replayEnd s b opened n recs) (t := replayed (initialised s b) b) rfl
    ((if_neg (by simp [hst])).trans (if_pos hblank)) ⟨hbst.trans (by rw [hwear]), ?_, ?_, ?_, hdue⟩
  · rw [hbay]; exact hnot
  · rw [hbay]; exact hcheckpoint
  · rw [hbay]; exact hjournal

theorem replayComplete_opened (hs : Canonical s) (hb : b < 4) (hst : bst s b = 4) (hready : s.fld GLB_STATE_READY = 0)
    (hblank : (s.bay b).blank = false) (hkeys : s.sec.keys.isSome) (hopen : opened = true) :
    Ends (.replayComplete b opened n recs) s fun t => bst t b = (if (s.bay b).wear.readOnly then 6 else 5) ∧
      (t.bay b).checkpoint = recs.take n ∧ (t.bay b).journal = recs.drop n ∧ (∀ y ∈ recs, y.1.jseq < (t.bay b).nextJseq) ∧
      t.mkr.due = true := by
  obtain ⟨hbst, hdue, hbay⟩ := replayed_ends (hs.setBay b { s.bay b with
    opened := true, checkpoint := recs.take n, journal := recs.drop n,
    nextJseq := (recs.map fun (y : DirRec × HeadPage) => y.1.jseq).foldl max 0 + 1, settled := false }) hb hready
  refine ends_of_eq (u := replayEnd s b opened n recs) rfl
    ((if_neg (by simp [hst])).trans ((if_neg (by simp [hblank])).trans (if_pos (by simp [hkeys, hopen]))))
    ⟨hbst.trans (by simp), ?_, ?_, fun y hy => ?_, hdue⟩
  · rw [hbay, setBay_same]
  · rw [hbay, setBay_same]
  · rw [hbay, setBay_same]
    exact Nat.lt_succ_of_le ((le_foldl_max _ 0).2 _ (List.mem_map_of_mem hy))

theorem replayComplete_keyless (hst : bst s b = 4) (hready : s.fld GLB_STATE_READY = 0) (hblank : (s.bay b).blank = false)
    (hkeys : s.sec.keys = none) : Ends (.replayComplete b opened n recs) s fun t => bst t b = 4 ∧ (t.bay b).tried = true := by
  refine ends_of_eq (u := replayEnd s b opened n recs) rfl
    ((if_neg (by simp [hst])).trans ((if_neg (by simp [hblank])).trans ((if_neg (by simp [hkeys])).trans
      (if_neg (by simp [State.flag, hready]))))) ⟨hst, by rw [setBay_same]⟩

theorem replayComplete_foreign (hs : Canonical s) (hb : b < 4) (hst : bst s b = 4) (hready : s.fld GLB_STATE_READY ≠ 0)
    (hblank : (s.bay b).blank = false) (hshut : (s.bay b).opened = false) (hopen : opened = false) :
    Ends (.replayComplete b opened n recs) s fun t => bst t b = 7 :=
  ends_of_eq (u := replayEnd s b opened n recs) rfl
    ((if_neg (by simp [hst])).trans ((if_neg (by simp [hblank])).trans ((if_neg (by simp [hshut, hopen])).trans
      (if_pos (by simp [State.flag, hready])))))
    ((bst_fault hb ..).trans (bst_setBst hs hb (by decide)))

end

/-! ### End of life (R406, R407) -/

theorem lifeOver_reason {r : Nat} (h : lifeOver s b r = true) : r < 5 := by
  by_contra hr
  obtain ⟨k, rfl⟩ : ∃ k, r = k + 5 := ⟨r - 5, by omega⟩
  unfold lifeOver at h
  split at h <;> simp_all

/-- What `endLife` writes before the bay goes to READ_ONLY. -/
def lifeEnded (s : State) (b reason : Nat) : State :=
  let s := (s.setFld (CRT_BAY_RO_REASON b) reason).setFld (CRT_BAY_COMPACTING b) 0
  writeWear (s.setBay b { s.bay b with wear := { (s.bay b).wear with readOnly := true, roReason := reason }, compact := none }) b true

/-- What `endLife` does once the bay is READ_ONLY: its parks fail, and so do the items that wait for a compaction. -/
def lifeAftermath (s : State) (b : Nat) : State :=
  let s := (parkingTo s b).foldl (fun s i => parkFailed s i 0x8002) s
  let items := (s.bay b).waitItems.filter fun y => y.1 = 0xF5
  let s := s.setBay b { s.bay b with waitItems := (s.bay b).waitItems.filter fun y => y.1 ≠ 0xF5 }
  capacityChange (items.foldl (fun s y => completeFail s y.2 y.1 0x8009 0 0) s)

theorem endLife_eq {r : Nat} (hst : bst s b = 5) (hover : lifeOver s b r = true) :
    endLife s b r = lifeAftermath (setBst (lifeEnded s b r) b 6) b := if_pos (by simp [hst, hover])

theorem lifeAftermath_quiet (hparks : parkingTo s b = []) (hitems : ((s.bay b).waitItems.filter fun y => y.1 = 0xF5) = []) :
    lifeAftermath s b = capacityChange (s.setBay b { s.bay b with waitItems := (s.bay b).waitItems.filter fun y => y.1 ≠ 0xF5 }) := by
  rw [lifeAftermath, hparks]
  dsimp only [List.foldl_nil]
  rw [hitems, List.foldl_nil]

theorem parkingTo_of_ses (h : t.ses = s.ses) (b : Nat) : parkingTo t b = parkingTo s b := by
  unfold parkingTo
  rw [h]

theorem lifeEnded_bay (s : State) (b r : Nat) : ((lifeEnded s b r).bay b).waitItems = (s.bay b).waitItems ∧
    ((lifeEnded s b r).bay b).wear.readOnly = true ∧ ((lifeEnded s b r).bay b).compact = none := by
  simp [lifeEnded]

theorem lifeEnded_ses (s : State) (b r : Nat) : (lifeEnded s b r).ses = s.ses := by simp [lifeEnded]

theorem lifeEnded_reason (hs : Canonical s) {r : Nat} (hr : r < 16) : (lifeEnded s b r).fld (CRT_BAY_RO_REASON b) = r := by
  rw [lifeEnded, writeWear_at_fld, setBay_at_fld, fld_setFld_apart (hs.setFld _ _) 0 (by simp) (.inr (.inr (by simp))),
    fld_setFld_of_lt hs (by simp) hr]

theorem endOfLife_ends {r : Nat} (hs : Canonical s) (hb : b < 4) (hst : bst s b = 5) (hover : lifeOver s b r = true)
    (hparks : parkingTo s b = []) (hitems : ((s.bay b).waitItems.filter fun y => y.1 = 0xF5) = []) :
    Ends (.endOfLife b r) s fun t => bst t b = 6 ∧ t.fld (CRT_BAY_RO_REASON b) = r ∧ (t.bay b).wear.readOnly = true ∧
      (t.bay b).compact = none ∧ t.mkr.due = true := by
  have hended : Canonical (lifeEnded s b r) := (((hs.setFld _ _).setFld _ _).setBay _ _).writeWear b true
  obtain ⟨hwait, hread, hcompact⟩ := lifeEnded_bay s b r
  have hquiet := lifeAftermath_quiet (s := setBst (lifeEnded s b r) b 6) (b := b)
    ((parkingTo_of_ses ((setBst_ses ..).trans (lifeEnded_ses s b r)) b).trans hparks) (by rw [setBst_bay, hwait, hitems])
  refine ends_of_eq (u := endLife s b r) rfl ((endLife_eq hst hover).trans hquiet) ⟨?_, ?_, ?_, ?_, rfl⟩
  · rw [bst, fld_of_reg (capacityChange_crtReg _ (crtReg_of_bay hb (by simp) (by simp))), setBay_at_fld]
    exact bst_setBst hended hb (by decide)
  · rw [fld_of_reg (capacityChange_crtReg _ (crtReg_of_bay hb (by simp) (by simp))), setBay_at_fld,
      setBst_fld_apart hended b 6 (crtReg_of_bay hb (by simp) (by simp)) (.inr (.inl (by simp)))]
    exact lifeEnded_reason hs (Nat.lt_trans (lifeOver_reason hover) (by decide))
  · simpa using hread
  · simpa using hcompact

theorem endOfLife_unchanged {r : Nat} (h : bst s b ≠ 5 ∨ lifeOver s b r = false) : exec (.endOfLife b r) s = .next s :=
  exec_unchanged (u := endLife s b r) rfl (if_neg (by simpa [Decidable.imp_iff_not_or] using h))

/-! ### Removal (R365, R366) -/

/-- First step of `removed`: the pin, and its event. -/
def presentPinLow (s : State) (b : Nat) : State :=
  if s.pins.present.getD b false then
    edge { s with pins := { s.pins with present := s.pins.present.set b false } } (0x410 + b)
  else s

theorem presentPinLow_moved (hs : Canonical s) (b : Nat) : PinsMoved s (presentPinLow s b) := by
  unfold presentPinLow
  split
  · refine pinsMoved_edge hs ?_ _
    rfl
  · exact .refl hs

/-- Of the register that holds a bay's STATE, `clearBay` leaves HOLDUP_OK alone. -/
theorem clearBay_fld (hs : Canonical s) (b : Nat) {g : Field} (hoff : g.off = (CRT_BAY_STATE b).off)
    (ha : FieldsApart (CRT_BAY_HOLDUP_OK b) g) : (clearBay s b).fld g = 0 := by
  have hcleared (u : State) (w : Word) {o : Nat} (ho : o ≠ (CRT_BAY_STATE b).off) (h : u.reg g.off = 0) : (u.setReg o w).reg g.off = 0 := by
    rw [reg_setReg_other _ _ (by rw [hoff]; exact ho.symm), h]
  rw [clearBay, setBay_at_fld, fld_setFld_apart _ _ (by simp) ha]
  rotate_left
  · have hreg : ∀ {u : State} (o : Nat) (w : Word), Canonical u → Canonical (u.setReg o w) := fun o w h => h.of_kept setReg_kept
    exact hreg _ _ (hreg _ _ (hreg _ _ (hreg _ _ (hreg _ _ (hreg _ _ (hreg _ _ hs))))))
  have hzero : ((((((((s.setReg (CRT_BAY_STATE b).off 0).setReg (CRT_SERIAL_SERIAL b).off 0).setReg (CRT_HOST_WR_BYTES b).off 0).setReg
      (CRT_NAND_WR_BYTES b).off 0).setReg (CRT_BLOCKS_ERASE_MAX b).off 0).setReg (CRT_FREE_BYTES b).off 0).setReg
      (CRT_JRNL_JOURNAL b).off 0).reg g.off) = 0 := by
    refine hcleared _ _ (by simp) (hcleared _ _ (by simp) (hcleared _ _ (by simp) (hcleared _ _ (by simp)
      (hcleared _ _ (by simp) (hcleared _ _ (by simp) ?_)))))
    rw [hoff, reg_setReg_same _ _ hs.regs]
  rw [State.fld, hzero]
  simp [bits]

theorem presenceDeasserted_empties (hs : Canonical s) (hb : b < 4) (hin : bst s b ≠ 0) : Ends (.presenceDeasserted b) s fun t =>
    bst t b = 0 ∧ t.flag (CRT_BAY_PRESENT b) = false ∧ (t.bay b).col = none ∧ (t.bay b).journal = [] ∧ t.mkr.due = true := by
  have hpin := presentPinLow_moved hs b
  have hgone : Canonical (bayGone (setBst (presentPinLow s b) b 0) b) := (hpin.canon.setBst b 0).of_kept (bayGone_kept _ b)
  have hclear : Canonical (clearBay (bayGone (setBst (presentPinLow s b) b 0) b) b) := hgone.of_kept (clearBay_kept _ b)
  have heq : removed s b = let u := bayGone (setBst (presentPinLow s b) b 0) b
      capacityChange (showBays ((clearBay u b).setBay b { bay0 with since := u.now })) :=
    (if_neg (by omega)).trans (if_neg (by show ¬ bst (presentPinLow s b) b = 0; rwa [hpin.bst hb]))
  have hread (x : Bay) {g : Field} (h : CrtReg g.off) : (capacityChange (showBays ((clearBay (bayGone
      (setBst (presentPinLow s b) b 0) b) b).setBay b x))).fld g = (clearBay (bayGone (setBst (presentPinLow s b) b 0) b) b).fld g := by
    rw [fld_of_reg (capacityChange_crtReg _ h), showBays_crtFld (hclear.setBay _ _) h, setBay_at_fld]
  refine ends_of_eq (u := removed s b) rfl heq ⟨?_, ?_, ?_, ?_, rfl⟩
  · exact (hread _ (crtReg_of_bay hb (by simp) (by simp))).trans (clearBay_fld hgone b rfl (.inr (.inr (by simp))))
  · rw [flag_eq_false, hread _ (crtReg_of_bay hb (by simp) (by simp))]
    exact clearBay_fld hgone b rfl (.inr (.inr (by simp)))
  · simp [bay0]
  · simp [bay0]

/-! ### The statement -/

/-- Settles O46: each event by the state of the bay that it finds, its time bound and what it carries. -/
theorem baysFollowTheirTransitions : Obligations.BaysFollowTheirTransitions := by
  unfold Obligations.BaysFollowTheirTransitions
  intro s b hb hs hrun
  refine ⟨presenceAsserted_charges hs hb hrun, presenceAsserted_other hs hb hrun, holdUpGood_verifies hs hb hrun,
    holdUpGood_other hs hb hrun, holdUpTimerExpiry_fails hs hb, holdUpTimerExpiry_unchanged, fun c wa wb sb er => ⟨fun hst hok => ?_,
      fun hst hbad hfree => colophonVerified_refused hs hb hst (by rwa [← colophonOk_iff, Bool.not_eq_true] at hbad) hfree wa wb sb er,
      fun hst => colophonVerified_unchanged hst c wa wb sb er⟩,
    i3cSilent_fails hs hb, i3cSilent_unchanged, fun lanes same => ⟨fun hst h5 h6 hsame => linkTrained_replays hs hb hst
        ((trainOk_iff lanes same).2 ⟨h5, h6, hsame⟩),
      linkTrained_fails hs hb, linkTrained_unchanged, fun hst hpres hcol hlate => ⟨fun h5 h6 hsame =>
        trainingRetry_replays hst hpres hcol hlate hs hb ((trainOk_iff lanes same).2 ⟨h5, h6, hsame⟩),
        trainingRetry_fails hst hpres hcol hlate hs hb⟩, trainingRetry_unchanged⟩,
    fun opened n recs hst hready => ⟨replayComplete_blank hs hb hst hready, replayComplete_opened hs hb hst hready,
      replayComplete_keyless hst hready⟩,
    fun opened n recs => replayComplete_foreign hs hb, fun r => endOfLife_ends hs hb, fun r => endOfLife_unchanged,
    presenceDeasserted_empties hs hb, holdUpStatusBad_ends hs hb,
    fun a => ⟨fun h4 h8 => wearRecordWrite_ends h4 h8 a, fun h => wearRecordWrite_unchanged h a⟩⟩
  obtain ⟨t, hexec, hbst, hcol, hserial, hpart, hblank⟩ :=
    colophonVerified_trains hs hb hst ((colophonOk_iff c).2 hok) wa wb sb er
  exact ⟨t, hexec, hbst, hcol, hserial, hpart, hblank.trans (insertedWear_blank wa wb sb er)⟩

end Sys2Proof.Machine
end

section
/-! Flash objects (R409, R410): crt.put, crt.get and crt.del. -/

namespace Sys2Proof.Machine

variable {s t : State} {src : Src}

/-! ### The bytes of an object -/

/-- Bytes stored from address `k`, without the zeros: what `objPut` keeps of them from address 0. -/
def storedFrom (bs : List Byte) (k : Nat) : Map Byte := ((bs.zipIdx k).filter fun x => decide (x.1 ≠ 0)).map fun x => (x.2, x.1)

theorem storedFrom_cons (y : Byte) (bs : List Byte) (k : Nat) :
    storedFrom (y :: bs) k = if y = 0 then storedFrom bs (k + 1) else (k, y) :: storedFrom bs (k + 1) := by
  unfold storedFrom
  rw [List.zipIdx_cons, List.filter_cons]
  by_cases h : y = 0#8 <;> simp [h]

theorem rdByte_storedFrom_below : ∀ (bs : List Byte) {a k : Nat}, a < k → rdByte (storedFrom bs k) a = 0
  | [], _, _, _ => rfl
  | y :: bs, a, k, h => by
    have hrest := rdByte_storedFrom_below bs (Nat.lt_succ_of_lt h)
    rw [storedFrom_cons]
    split
    · exact hrest
    · rw [rdByte, mget, if_neg (Nat.ne_of_gt h)]
      exact hrest

/-- What is stored is read back. -/
theorem rdBytes_storedFrom : ∀ (bs : List Byte) (k : Nat), rdBytes (storedFrom bs k) k bs.length = bs
  | [], _ => rfl
  | y :: bs, k => by
    have hfirst : rdByte (storedFrom (y :: bs) k) k = y := by
      rw [storedFrom_cons]
      split
      · next hy => rw [rdByte_storedFrom_below bs (Nat.lt_succ_self k), hy]
      · simp [rdByte, mget]
    have hrest : rdBytes (storedFrom (y :: bs) k) (k + 1) bs.length = rdBytes (storedFrom bs (k + 1)) (k + 1) bs.length := by
      refine rdBytes_congr _ _ fun a ha _ => ?_
      rw [storedFrom_cons]
      split
      · rfl
      · rw [rdByte, mget, if_neg (by omega)]
        rfl
    rw [List.length_cons, rdBytes, hfirst, hrest, rdBytes_storedFrom bs (k + 1)]

/-! ### What the operations on objects leave -/

theorem objSerials_of_fld (h : ∀ b, t.fld (CRT_SERIAL_SERIAL b) = s.fld (CRT_SERIAL_SERIAL b)) (id : Nat) :
    objSerials t id = objSerials s id := by
  simp only [objSerials, h]

@[simp] theorem chargeWrite_crt (s : State) (b n : Nat) : (chargeWrite s b n).crt = s.crt := rfl
@[simp] theorem chargeWrite_ses (s : State) (b n : Nat) : (chargeWrite s b n).ses = s.ses := rfl
@[simp] theorem chargeWrite_hbm (s : State) (b n : Nat) : (chargeWrite s b n).hbm = s.hbm := rfl

theorem chargeWrite_serial (s : State) (b n k : Nat) : (chargeWrite s b n).fld (CRT_SERIAL_SERIAL k) = s.fld (CRT_SERIAL_SERIAL k) := by
  rw [chargeWrite, State.incWrap, fld_setFld_other _ _ (by dsimp only; omega), State.incWrap,
    fld_setFld_other _ _ (by dsimp only; omega), State.decFld, fld_setFld_other _ _ (by dsimp only; omega)]

theorem ensureKey_upd (s : State) (c b : Nat) : ∃ h x n, ensureKey s c b = { s with host := h, crt := x, freeCtr := n } := by
  unfold ensureKey
  dsimp only
  split <;> split <;> exact ⟨_, _, _, rfl⟩

theorem ensureKey_ses (s : State) (c b : Nat) : (ensureKey s c b).ses = s.ses := by
  obtain ⟨h, x, n, heq⟩ := ensureKey_upd s c b; rw [heq]
theorem ensureKey_hbm (s : State) (c b : Nat) : (ensureKey s c b).hbm = s.hbm := by
  obtain ⟨h, x, n, heq⟩ := ensureKey_upd s c b; rw [heq]

/-- First step of crt.put: each bay of the object holds its context's key. -/
def keysReady (s : State) (id : Nat) : State := (maskBays (objMask id)).foldl (fun s b => ensureKey s (objCtx id) b) s

theorem keysReady_ses (s : State) (id : Nat) : (keysReady s id).ses = s.ses :=
  foldl_frame State.ses (fun u b => ensureKey_ses u _ b) _ _

theorem keysReady_hbm (s : State) (id : Nat) : (keysReady s id).hbm = s.hbm :=
  foldl_frame State.hbm (fun u b => ensureKey_hbm u _ b) _ _

theorem objPut_ses (s : State) (id : Nat) (bs : List Byte) : (objPut s id bs).ses = s.ses :=
  foldl_frame State.ses (fun u b => chargeWrite_ses u b _) _ _

theorem objPut_hbm (s : State) (id : Nat) (bs : List Byte) : (objPut s id bs).hbm = s.hbm :=
  foldl_frame State.hbm (fun u b => chargeWrite_hbm u b _) _ _

theorem objPut_crt (s : State) (id : Nat) (bs : List Byte) : (objPut s id bs).crt =
    { s.crt with objects := mset s.crt.objects id ⟨bs.length, storedFrom bs 0, objSerials s id⟩ } :=
  foldl_frame State.crt (fun u b => chargeWrite_crt u b _) _ _

theorem objPut_serials (s : State) (id : Nat) (bs : List Byte) : objSerials (objPut s id bs) id = objSerials s id :=
  objSerials_of_fld (fun k => foldl_frame (fun u : State => u.fld (CRT_SERIAL_SERIAL k)) (fun u b => chargeWrite_serial u b _ k) _ _) id

/-- An object that is put is there. -/
theorem objAt_objPut (s : State) (id : Nat) (bs : List Byte) :
    objAt (objPut s id bs) id = some ⟨bs.length, storedFrom bs 0, objSerials s id⟩ := by
  rw [objAt, objPut_crt, mget_mset_same]
  dsimp only
  rw [objPut_serials, if_pos rfl]

/-- Whether an object is in the list of those known, on the cartridges now in its bays. -/
def objKnown (s : State) (id : Nat) : Bool :=
  match mget s.crt.objects id with
  | some x => decide (x.serials = objSerials s id)
  | none => false

theorem objDel_crt (s : State) (id : Nat) (o : FlashObj) : (objDel s id o).crt =
    { s.crt with objects := if objKnown s id then mdel s.crt.objects id else s.crt.objects,
                 gone := s.crt.gone ++ [(id, objSerials s id, if objKnown s id then 0 else o.len)] } :=
  foldl_frame State.crt (fun u _ => incWrap_crt u _ _) _ _

theorem objDel_ses (s : State) (id : Nat) (o : FlashObj) : (objDel s id o).ses = s.ses :=
  foldl_frame State.ses (fun u _ => incWrap_ses u _ _) _ _

theorem objDel_serials (s : State) (id : Nat) (o : FlashObj) : objSerials (objDel s id o) id = objSerials s id :=
  objSerials_of_fld (fun k => foldl_frame (fun u : State => u.fld (CRT_SERIAL_SERIAL k))
    (fun _ _ => fld_setFld_other _ _ (by dsimp only; omega)) _ _) id

/-- An object that is deleted is not there: neither in the list of those known, nor as found on its cartridges. -/
theorem objAt_objDel (hwf : mwf s.crt.objects = true) (id : Nat) (o : FlashObj) : objAt (objDel s id o) id = none := by
  have hfound : objFound (objDel s id o) (objSerials s id) id = none := by
    rw [objFound, objDel_crt, if_pos (by simp)]
  rw [objAt, objDel_serials, objDel_crt]
  dsimp only
  unfold objKnown
  cases hget : mget s.crt.objects id with
  | none => simp [hget, hfound]
  | some x =>
    by_cases hx : x.serials = objSerials s id
    · simp [hx, mget_mdel_same id hwf, hfound]
    · simp [hx, hget, hfound]

/-! ### crt.put -/

section
variable {id a : Word} {n : Nat} {bs : List Byte}

theorem crtPutBody_done (hmay : objWriteRefusal s src.ctx id.toNat = 0) (hnew : objAt s id.toNat = none)
    (hroom : ∀ b ∈ maskBays (objMask id.toNat), objShare id.toNat n b ≤ s.fld (CRT_FREE_BYTES b))
    (hread : itemRead s src 2 a n = .ok bs) (hproof : objKind id.toNat ≠ 3 ∨ proofOk bs = true) :
    crtPutBody src id.toNat a n s = (objPut (keysReady s id.toNat) id.toNat bs, .done 0 (BitVec.ofNat 64 n) 0 0) := by
  have hfits : ¬ ((maskBays (objMask id.toNat)).any fun b => s.fld (CRT_FREE_BYTES b) < objShare id.toNat n b) = true := by
    simpa using hroom
  unfold crtPutBody
  dsimp only
  rw [if_neg (by simp [hmay]), if_neg (by simp [hnew]), if_neg hfits, hread]
  refine if_neg ?_
  rintro ⟨hkind, -, hbad⟩
  exact hproof.elim (· hkind) (by simpa using hbad)

theorem crtPut_completes (hgo : ItemGo s src) (hmay : objWriteRefusal s src.ctx id.toNat = 0) (hnew : objAt s id.toNat = none)
    (hroom : ∀ b ∈ maskBays (objMask id.toNat), objShare id.toNat n b ≤ s.fld (CRT_FREE_BYTES b))
    (hread : itemRead s src 2 a n = .ok bs) (hproof : objKind id.toNat ≠ 3 ∨ proofOk bs = true) : ∃ (t : State) (o : FlashObj),
      Completes (.crtPut src id a n) s src 0xF0 0 (BitVec.ofNat 64 n) 0 0 t ∧ objAt t id.toNat = some o ∧ o.len = bs.length ∧
      objRead o 0 bs.length = bs ∧ t.ses = s.ses ∧ t.hbm = s.hbm := by
  refine ⟨_, _, congrArg _ (runItem_done hgo (crtPutBody_done hmay hnew hroom hread hproof)), objAt_objPut .., rfl, ?_, ?_, ?_⟩
  · simp [objRead, rdBytes_storedFrom]
  · rw [objPut_ses, keysReady_ses]
  · rw [objPut_hbm, keysReady_hbm]

theorem crtPut_exists (hgo : ItemGo s src) (hmay : objWriteRefusal s src.ctx id.toNat = 0) (hold : (objAt s id.toNat).isSome) :
    exec (.crtPut src id a n) s = .next (completeFail s src 0xF0 0x8007 0 0) :=
  congrArg _ (runItem_fail hgo ((if_neg (by simp [hmay])).trans (if_pos hold)))

end

/-! ### crt.get and crt.del -/

theorem crtGet_completes {id a : Word} {off n : Nat} {o : FlashObj} (hgo : ItemGo s src) (hfind : objFind s src.ctx id.toNat = .ok o)
    (hwrite : itemWrite s src 2 a (objRead o off n) = .ok t) :
    Completes (.crtGet src id a off n) s src 0xF1 0 (BitVec.ofNat 64 (min n (o.len - off))) 0 0 t := by
  refine congrArg _ (runItem_done hgo ?_)
  unfold crtGetBody
  rw [hfind]
  dsimp only
  rw [hwrite]
  simp [objRead]

theorem crtDel_completes {id : Word} {o : FlashObj} (hgo : ItemGo s src) (hmay : objWriteRefusal s src.ctx id.toNat = 0)
    (hold : objAt s id.toNat = some o) (hwf : mwf s.crt.objects = true) :
    ∃ t : State, Completes (.crtDel src id) s src 0xF2 0 0 0 0 t ∧ objAt t id.toNat = none ∧ t.ses = s.ses := by
  refine ⟨_, congrArg _ (runItem_done (t := objDel s id.toNat o) hgo ?_), objAt_objDel hwf _ o, objDel_ses ..⟩
  unfold crtDelBody
  dsimp only
  rw [if_neg (by simp [hmay]), hold]
  rfl

theorem crtDel_absent {id : Word} (hgo : ItemGo s src) (hmay : objWriteRefusal s src.ctx id.toNat = 0) (hnone : objAt s id.toNat = none) :
    exec (.crtDel src id) s = .next (completeFail s src 0xF2 0x8003 0 0) := by
  refine congrArg _ (runItem_fail hgo ?_)
  unfold crtDelBody
  dsimp only
  rw [if_neg (by simp [hmay]), hnone]
  rfl

/-! ### Objects of another context -/

section
variable {id : Word} (hgo : ItemGo s src) (hpf : src.ctx ≠ 0) (hother : src.ctx ≠ objCtx id.toNat)
include hpf hother

theorem objWriteRefusal_other : objWriteRefusal s src.ctx id.toNat = 0x8005 := if_pos (by simp [objMay, hpf, hother])

include hgo

theorem crtPut_other (a : Word) (n : Nat) : exec (.crtPut src id a n) s = .next (completeFail s src 0xF0 0x8005 0 0) := by
  refine congrArg _ (runItem_fail hgo ?_)
  unfold crtPutBody
  rw [objWriteRefusal_other hpf hother]
  rfl

theorem crtGet_other (a : Word) (m n : Nat) : exec (.crtGet src id a m n) s = .next (completeFail s src 0xF1 0x8005 0 0) := by
  have hfind : objFind s src.ctx id.toNat = .error 0x8005 := if_pos (by simp [objMay, hpf, hother])
  refine congrArg _ (runItem_fail hgo ?_)
  unfold crtGetBody
  rw [hfind]
  rfl

theorem crtDel_other : exec (.crtDel src id) s = .next (completeFail s src 0xF2 0x8005 0 0) := by
  refine congrArg _ (runItem_fail hgo ?_)
  unfold crtDelBody
  rw [objWriteRefusal_other hpf hother]
  rfl

end

end Sys2Proof.Machine
end

section
/-! crt.eject, crt.format and crt.compact for the physical function (R365, R410, R610); then the statement on the cartridge items. -/

namespace Sys2Proof.Machine

variable {s t : State} {src : Src} {b : Nat}

/-! ### crt.eject and the end of an eject -/

section
variable (hgo : ItemGo s src) (hpf : src.ctx = 0)
include hgo hpf

theorem crtEject_ejects (hs : Canonical s) (hb : b < 4) (hst : bst s b = 5 ∨ bst s b = 6 ∨ bst s b = 7) :
    Ends (.crtEject src b) s fun t => bst t b = 8 ∧ (t.bay b).waitItems = (s.bay b).waitItems ++ [(0xF3, src)] ∧
      t.mkr.due = true ∧ t.host = s.host := by
  refine ends_of_eq rfl (runItem_later hgo ((if_neg (by simp [hpf])).trans (if_pos hst))) ⟨?_, ?_, rfl, ?_⟩
  · rw [bst, fld_of_reg (capacityChange_crtReg _ (crtReg_of_bay hb (by simp) (by simp)))]
    exact bst_setBst (hs.setBay _ _) hb (by decide)
  · simp
  · simp

theorem crtEject_busy (hst : bst s b = 3 ∨ bst s b = 4 ∨ bst s b = 8) :
    exec (.crtEject src b) s = .next (completeFail s src 0xF3 0x8009 0 0) :=
  congrArg _ (runItem_fail hgo ((if_neg (by simp [hpf])).trans ((if_neg (by omega)).trans (if_pos hst))))

end

/-- First step of `ejected`: the superblock and the wear record are written, where they were not. -/
def ejectWritten (s : State) (b : Nat) : State :=
  if (s.bay b).drained then s
  else writeWear (s.setBay b { s.bay b with sbGen := (s.bay b).sbGen + 1, sbSlot := 1 - (s.bay b).sbSlot, drained := true }) b true

theorem Canonical.ejectWritten (hs : Canonical s) (b : Nat) : Canonical (ejectWritten s b) := by
  unfold Machine.ejectWritten
  split
  · exact hs
  · exact (hs.setBay _ _).writeWear b true

theorem ejectWritten_waitItems (s : State) (b : Nat) : ((ejectWritten s b).bay b).waitItems = (s.bay b).waitItems := by
  unfold ejectWritten
  split <;> simp

theorem ejectDrained_ends (hs : Canonical s) (hb : b < 4) (hst : bst s b = 8) (hidle : bayIdle s b = true) :
    ∃ u : State, bst u b = 9 ∧ (u.bay b).waitItems = [] ∧ u.mkr.due = true ∧
      exec (.ejectDrained b) s = .next ((s.bay b).waitItems.foldl (fun s y => complete s y.2 y.1 0 0 0 0) u) := by
  let v := ejectWritten s b
  have hv : Canonical (v.setBay b { v.bay b with waitItems := [] }) := (hs.ejectWritten b).setBay _ _
  have heq : ejected s b = (v.bay b).waitItems.foldl (fun s y => complete s y.2 y.1 0 0 0 0)
      (capacityChange (setBst (v.setBay b { v.bay b with waitItems := [] }) b 9)) := if_pos (by simp [hst, hidle])
  refine ⟨capacityChange (setBst (v.setBay b { v.bay b with waitItems := [] }) b 9), ?_, by simp, rfl, ?_⟩
  · rw [bst, fld_of_reg (capacityChange_crtReg _ (crtReg_of_bay hb (by simp) (by simp)))]
    exact bst_setBst hv hb (by decide)
  · rw [← ejectWritten_waitItems s b]
    exact congrArg Host.Outcome.next heq

theorem ejectDrained_unchanged (h : bst s b ≠ 8 ∨ bayIdle s b = false) : exec (.ejectDrained b) s = .next s :=
  exec_unchanged (u := ejected s b) rfl (if_neg (by simpa [Decidable.imp_iff_not_or] using h))

/-! ### crt.format -/

/-- What crt.format leaves of a cartridge, before the bay goes to REPLAYING. -/
def formatted (s : State) (b : Nat) : State :=
  let s := freshCartridge s b
  let s := (s.incSat (CRT_BLOCKS_ERASE_MAX b) 1).incSat (CRT_BLOCKS_ERASE_MEAN b) 1
  s.setBay b { s.bay b with blocks := [], checkpoint := [], journal := [], heldBack := [], keyTable := [], blank := true }

theorem formatted_ses (s : State) (b : Nat) : (formatted s b).ses = s.ses := rfl

theorem formatted_bay (s : State) (b : Nat) : ((formatted s b).bay b).blank = true ∧ ((formatted s b).bay b).checkpoint = [] ∧
    ((formatted s b).bay b).journal = [] := by simp [formatted]

theorem Canonical.formatted (hs : Canonical s) (b : Nat) : Canonical (formatted s b) :=
  (((hs.of_kept (freshCartridge_kept s b)).setFld _ _).setFld _ _).setBay _ _

theorem crtFormat_completes (hgo : ItemGo s src) (hpf : src.ctx = 0) (hs : Canonical s) (hb : b < 4) (hst : bst s b = 7) :
    ∃ t : State, Completes (.crtFormat src b) s src 0xF4 0 0 0 0 t ∧ bst t b = 4 ∧ (t.bay b).blank = true ∧
      (t.bay b).checkpoint = [] ∧ (t.bay b).journal = [] ∧ t.ses = s.ses := by
  obtain ⟨hblank, hcheckpoint, hjournal⟩ := formatted_bay s b
  refine ⟨setBst (formatted s b) b 4, congrArg _ (runItem_done hgo ((if_neg (by simp [hpf])).trans (if_neg (by simp [hst])))),
    bst_setBst (hs.formatted b) hb (by decide), ?_, ?_, ?_, ?_⟩
  · rw [setBst_bay]; exact hblank
  · rw [setBst_bay]; exact hcheckpoint
  · rw [setBst_bay]; exact hjournal
  · rw [setBst_ses, formatted_ses]

theorem crtFormat_busy (hgo : ItemGo s src) (hpf : src.ctx = 0) (hst : bst s b ≠ 7) :
    exec (.crtFormat src b) s = .next (completeFail s src 0xF4 0x8009 0 0) :=
  congrArg _ (runItem_fail hgo ((if_neg (by simp [hpf])).trans (if_pos hst)))

/-! ### The statement -/

/-- Settles O47: the items of an object by what `objAt` finds, those of a bay by its state, and every item by its context. -/
theorem cartridgeItemsPutGetAndEject : Obligations.CartridgeItemsPutGetAndEject := by
  unfold Obligations.CartridgeItemsPutGetAndEject
  exact fun s src hgo hs => ⟨fun id a n bs => crtPut_completes hgo, fun id a n => crtPut_exists hgo,
    fun id a off n o t => crtGet_completes hgo, fun id o => crtDel_completes hgo, fun id => crtDel_absent hgo,
    fun id a d m n hpf hother => ⟨crtPut_other hgo hpf hother a n, crtGet_other hgo hpf hother d m n, crtDel_other hgo hpf hother⟩,
    fun b hb hpf => ⟨crtEject_ejects hgo hpf hs hb, crtEject_busy hgo hpf, crtFormat_completes hgo hpf hs hb, crtFormat_busy hgo hpf,
      ejectDrained_ends hs hb, ejectDrained_unchanged⟩,
    fun b hpf => ⟨congrArg _ (runItem_fail hgo (if_pos hpf)), congrArg _ (runItem_fail hgo (if_pos hpf)),
      congrArg _ (runItem_fail hgo (if_pos hpf))⟩⟩

end Sys2Proof.Machine
end

section
/-! Compaction (R395, R396, R410). -/

namespace Sys2Proof.Machine

variable {s t : State} {src : Src} {b : Nat}

/-! ### Counters -/

theorem fld_incSat_apart (hs : Canonical s) {f g : Field} (n : Nat) (hw : f.lo + f.w ≤ 64) (h : FieldsApart f g) :
    (s.incSat f n).fld g = s.fld g := fld_setFld_apart hs _ hw h

theorem fld_incWrap_other (s : State) {f g : Field} (n : Nat) (h : g.off ≠ f.off) : (s.incWrap f n).fld g = s.fld g :=
  fld_setFld_other s _ h

theorem Canonical.incSat (hs : Canonical s) (f : Field) (n : Nat) : Canonical (s.incSat f n) := hs.setFld _ _

theorem Canonical.incWrap (hs : Canonical s) (f : Field) (n : Nat) : Canonical (s.incWrap f n) := hs.setFld _ _

theorem Canonical.draw (hs : Canonical s) : Canonical s.draw.2 := ⟨hs.regs, hs.mem, hs.hbm⟩

/-! ### The start of a compaction -/

@[simp] theorem startCompact_ses (s : State) (b : Nat) : (startCompact s b).ses = s.ses := by unfold startCompact; split <;> rfl
@[simp] theorem startCompact_host (s : State) (b : Nat) : (startCompact s b).host = s.host := by unfold startCompact; split <;> rfl

/-- A compaction under way keeps its J0; one that starts fixes it at the end of the journal. -/
theorem startCompact_bay (s : State) (b : Nat) : (startCompact s b).bay b =
    { s.bay b with compact := some ((s.bay b).compact.getD (s.bay b).journal.length) } := by
  cases hc : (s.bay b).compact with
  | some j => rw [startCompact, if_pos (by simp [hc]), Option.getD_some, ← hc]
  | none => rw [startCompact, if_neg (by simp [hc]), setFld_at_bay, setBay_same, Option.getD_none]

theorem startCompact_compacting (hs : Canonical s) (hnone : (s.bay b).compact = none) :
    (startCompact s b).flag (CRT_BAY_COMPACTING b) = true := by
  rw [startCompact, if_neg (by simp [hnone])]
  exact flag_setFld_one (hs.setBay _ _) (by simp) (by simp)

theorem crtCompact_waits (hgo : ItemGo s src) (hpf : src.ctx = 0) (hs : Canonical s) (hst : bst s b = 5) :
    Ends (.crtCompact src b) s fun t =>
      (t.bay b).compact = some ((s.bay b).compact.getD (s.bay b).journal.length) ∧
      (t.bay b).waitItems = (s.bay b).waitItems ++ [(0xF5, src)] ∧
      ((s.bay b).compact = none → t.flag (CRT_BAY_COMPACTING b) = true) ∧ t.host = s.host := by
  refine ends_of_eq rfl (runItem_later hgo ((if_neg (by simp [hpf])).trans (if_neg (by simp [hst])))) ⟨?_, ?_, fun hnone => ?_, ?_⟩
  · simp [startCompact_bay]
  · simp [startCompact_bay]
  · exact startCompact_compacting hs hnone
  · simp

theorem crtCompact_busy (hgo : ItemGo s src) (hpf : src.ctx = 0) (hst : bst s b ≠ 5) :
    exec (.crtCompact src b) s = .next (completeFail s src 0xF5 0x8009 0 0) :=
  congrArg _ (runItem_fail hgo ((if_neg (by simp [hpf])).trans (if_pos hst)))

theorem compaction_starts (hs : Canonical s) (hst : bst s b = 5) (hnone : (s.bay b).compact = none)
    (hfull : s.fld CRT_CFG_J_COMPACT ≤ (s.bay b).journal.length) : Ends (.compaction b) s fun t =>
      (t.bay b).compact = some (s.bay b).journal.length ∧ t.flag (CRT_BAY_COMPACTING b) = true ∧ t.ses = s.ses :=
  ends_of_eq (t := startCompact s b) rfl (if_pos ⟨hst, hfull⟩)
    ⟨by simp [startCompact_bay, hnone], startCompact_compacting hs hnone, startCompact_ses s b⟩

theorem compaction_unchanged (h : bst s b ≠ 5 ∨ (s.bay b).journal.length < s.fld CRT_CFG_J_COMPACT) :
    exec (.compaction b) s = .next s :=
  exec_unchanged rfl (if_neg fun hc => h.elim (· hc.1) (Nat.not_lt.2 hc.2))

/-! ### The end of a compaction -/

/-- The bay once the superblock of a compaction is durable. -/
def mergedBay (x : Bay) (j0 : Nat) : Bay :=
  let cp := liveRecs (x.checkpoint ++ x.journal.take j0)
  { x with checkpoint := cp, journal := x.journal.drop j0, sbGen := x.sbGen + 1, sbSlot := 1 - x.sbSlot, compact := none,
           keyTable := (x.keyTable ++ cp.map fun (y : DirRec × HeadPage) => (y.1.keyId, y.1.context)).eraseDups,
           waitItems := x.waitItems.filter fun y => y.1 ≠ 0xF5 }

/-- What `compacted` writes before the waiting items complete and but for the wear record. -/
def merged (s : State) (b j0 : Nat) : State :=
  let cp := liveRecs ((s.bay b).checkpoint ++ (s.bay b).journal.take j0)
  let s := ((s.setBay b (mergedBay (s.bay b) j0)).setFld (CRT_JRNL_JOURNAL b) ((s.bay b).journal.drop j0).length).setFld
    (CRT_JRNL_CHECKPOINT b) cp.length
  (s.incWrap (CRT_NAND_WR_BYTES b) (inPages (128 * cp.length) * pageBytes + 2 * pageBytes)).setFld (CRT_BAY_COMPACTING b) 0

theorem merged_bay (s : State) (b j0 : Nat) : (merged s b j0).bay b = mergedBay (s.bay b) j0 := by simp [merged]

theorem merged_journal (hs : Canonical s) (b j0 : Nat) :
    (merged s b j0).fld (CRT_JRNL_JOURNAL b) = ((s.bay b).journal.drop j0).length % 2 ^ 26 := by
  have hx := hs.setBay b (mergedBay (s.bay b) j0)
  rw [merged, fld_setFld_other _ _ (by simp), fld_incWrap_other _ _ (by simp),
    fld_setFld_apart (hx.setFld _ _) _ (by simp) (.inr (.inr (by simp)))]
  exact fld_setFld_same _ _ (by simp) hx.regs

theorem merged_compacting (hs : Canonical s) (b j0 : Nat) : (merged s b j0).flag (CRT_BAY_COMPACTING b) = false :=
  flag_setFld_zero ((((hs.setBay _ _).setFld _ _).setFld _ _).incWrap _ _) (by simp)

theorem compactionSuperblockDurable_ends (hs : Canonical s) {j0 : Nat} (hj0 : (s.bay b).compact = some j0) :
    ∃ u : State, (u.bay b).journal = (s.bay b).journal.drop j0 ∧ (u.bay b).compact = none ∧
      (u.bay b).checkpoint = liveRecs ((s.bay b).checkpoint ++ (s.bay b).journal.take j0) ∧ u.flag (CRT_BAY_COMPACTING b) = false ∧
      u.fld (CRT_JRNL_JOURNAL b) = ((s.bay b).journal.drop j0).length % 2 ^ 26 ∧ (u.bay b).wear.wgen = (s.bay b).wear.wgen + 1 ∧
      exec (.compactionSuperblockDurable b) s = .next (((s.bay b).waitItems.filter fun y => y.1 = 0xF5).foldl
        (fun s' y => complete s' y.2 0xF5 0 (BitVec.ofNat 64 ((s.bay b).journal.drop j0).length) 0 0) u) := by
  refine ⟨writeWear (merged s b j0) b true, ?_, ?_, ?_, (flag_of_fld (writeWear_at_fld ..)).trans (merged_compacting hs b j0),
    (writeWear_at_fld ..).trans (merged_journal hs b j0), ?_, ?_⟩
  · simp [merged_bay, mergedBay]
  · simp [merged_bay, mergedBay]
  · simp [merged_bay, mergedBay]
  · simp [merged_bay, mergedBay]
  · refine congrArg Host.Outcome.next ?_
    unfold compacted
    dsimp only
    rw [hj0]
    rfl

theorem compactionSuperblockDurable_unchanged (hnone : (s.bay b).compact = none) :
    exec (.compactionSuperblockDurable b) s = .next s := by
  refine exec_unchanged (u := compacted s b) rfl ?_
  unfold compacted
  dsimp only
  rw [hnone]

end Sys2Proof.Machine
end

section
/-! Channel operations of a bay (R371 to R374, R389, R503), through what sending flits leaves of a state (R367). -/

namespace Sys2Proof.Machine

variable {s t u : State} {b : Nat}

/-! ### Flits sent -/

/-- `t` is `s` with flits sent on the link of bay `b`, and dies of it suspended or resumed: what the link has received stands. -/
structure LinkMoved (b : Nat) (s t : State) : Prop where
  upd : ∃ m, t = { s with crt := { s.crt with bays := m } }
  bay : ∃ l d, t.bay b = { s.bay b with link := l, dies := d } ∧ l.rxSeq = (s.bay b).link.rxSeq ∧
    l.nakOwed = (s.bay b).link.nakOwed

theorem LinkMoved.refl (b : Nat) (s : State) : LinkMoved b s s := ⟨⟨_, rfl⟩, _, _, rfl, rfl, rfl⟩

theorem LinkMoved.trans (h : LinkMoved b s t) (h' : LinkMoved b t u) : LinkMoved b s u := by
  obtain ⟨⟨m, rfl⟩, l, d, hbay, hseq, hnak⟩ := h
  obtain ⟨⟨m', rfl⟩, l', d', hbay', hseq', hnak'⟩ := h'
  refine ⟨⟨m', rfl⟩, l', d', ?_, ?_, ?_⟩
  · rw [hbay', hbay]
  · rw [hseq', hbay, hseq]
  · rw [hnak', hbay, hnak]

theorem linkMoved_setBay {l : Link} {d : Map DieOp} (hseq : l.rxSeq = (s.bay b).link.rxSeq)
    (hnak : l.nakOwed = (s.bay b).link.nakOwed) : LinkMoved b s (s.setBay b { s.bay b with link := l, dies := d }) :=
  ⟨⟨_, rfl⟩, l, d, setBay_same .., hseq, hnak⟩

section
variable (h : LinkMoved b s t)
include h

theorem LinkMoved.canon (hs : Canonical s) : Canonical t := by obtain ⟨⟨m, rfl⟩, -⟩ := h; exact hs.updCrt _
theorem LinkMoved.regs : t.regs = s.regs := by obtain ⟨⟨m, rfl⟩, -⟩ := h; rfl
theorem LinkMoved.ses : t.ses = s.ses := by obtain ⟨⟨m, rfl⟩, -⟩ := h; rfl
theorem LinkMoved.fld (g : Field) : t.fld g = s.fld g := by obtain ⟨⟨m, rfl⟩, -⟩ := h; rfl
theorem LinkMoved.ops : (t.bay b).ops = (s.bay b).ops := by obtain ⟨-, l, d, hbay, -⟩ := h; rw [hbay]
theorem LinkMoved.blocks : (t.bay b).blocks = (s.bay b).blocks := by obtain ⟨-, l, d, hbay, -⟩ := h; rw [hbay]
theorem LinkMoved.deadDies : (t.bay b).deadDies = (s.bay b).deadDies := by obtain ⟨-, l, d, hbay, -⟩ := h; rw [hbay]
theorem LinkMoved.rxSeq : (t.bay b).link.rxSeq = (s.bay b).link.rxSeq := by obtain ⟨-, l, d, hbay, hseq, -⟩ := h; rw [hbay]; exact hseq
theorem LinkMoved.nakOwed : (t.bay b).link.nakOwed = (s.bay b).link.nakOwed := by
  obtain ⟨-, l, d, hbay, -, hnak⟩ := h; rw [hbay]; exact hnak

end

theorem sendFlit_moved (s : State) (b typ ch tag : Nat) (p : List Byte) : LinkMoved b s (sendFlit s b typ ch tag p) :=
  linkMoved_setBay rfl rfl

theorem sendCommand_moved (s : State) (b ch tag : Nat) (p : List Byte) : LinkMoved b s (sendCommand s b ch tag p) := by
  unfold sendCommand
  dsimp only
  split
  · refine .trans (t := s.setBay b { s.bay b with link := _ }) ?_ (sendFlit_moved ..)
    exact linkMoved_setBay rfl rfl
  · exact linkMoved_setBay rfl rfl

theorem sendCommand_dies (s : State) (b ch tag : Nat) (p : List Byte) :
    ((sendCommand s b ch tag p).bay b).dies = (s.bay b).dies := by
  unfold sendCommand
  dsimp only
  split <;> simp [sendFlit]

theorem issue_moved (s : State) (b tag op : Nat) (o : ChanOp) : LinkMoved b s (issue s b tag op o) := sendCommand_moved ..

/-! ### Suspending a die (R373) -/

theorem programSuspend_suspends {ch die : Nat} {d : DieOp} (hdie : mget (s.bay b).dies (dieKey ch die) = some d)
    (hrun : d.suspended = false) (hops : dieOps (s.bay b) ch die ≠ [])
    (hrest : d.resumedAt + (((s.bay b).col.map (·.tResumeMin)).getD 0) * 1000 ≤ s.clk.now) :
    Ends (.programSuspend b ch die) s fun t =>
      mget (t.bay b).dies (dieKey ch die) = some { d with suspended := true } ∧ t.regs = s.regs := by
  have heq : suspendDie s b ch die = sendCommand
      (s.setBay b { s.bay b with dies := mset (s.bay b).dies (dieKey ch die) { d with suspended := true } }) b ch 0
      (commandBytes 0x30 die 0 0 0 0 (engineInstar s (24 * b + ch))) := by
    unfold suspendDie
    dsimp only
    rw [hdie]
    exact if_pos ⟨hrun, by simpa using hops, hrest⟩
  refine ends_of_eq (u := suspendDie s b ch die) rfl heq ⟨?_, (sendCommand_moved ..).regs⟩
  rw [sendCommand_dies, setBay_same, mget_mset_same]

theorem programSuspend_unchanged {ch die : Nat} (hdie : mget (s.bay b).dies (dieKey ch die) = none) :
    exec (.programSuspend b ch die) s = .next s := by
  refine exec_unchanged (u := suspendDie s b ch die) rfl ?_
  unfold suspendDie
  dsimp only
  rw [hdie]

/-! ### Page reads (R374) -/

theorem resumeDie_moved (s : State) (b ch die : Nat) : LinkMoved b s (resumeDie s b ch die) := by
  unfold resumeDie
  dsimp only
  split
  · exact .refl b s
  · split
    · exact (linkMoved_setBay rfl rfl).trans (sendCommand_moved ..)
    · exact .refl b s

/-- An operation that ends is off its channel; the rest is flits and dies. -/
theorem endOp_moved (s : State) (b tag : Nat) (o : ChanOp) :
    LinkMoved b (s.setBay b { s.bay b with ops := mdel (s.bay b).ops tag }) (endOp s b tag o) := resumeDie_moved ..

theorem endOp_fld (s : State) (b tag : Nat) (o : ChanOp) (g : Field) : (endOp s b tag o).fld g = s.fld g := (endOp_moved ..).fld g

theorem endOp_ops (s : State) (b tag : Nat) (o : ChanOp) : ((endOp s b tag o).bay b).ops = mdel (s.bay b).ops tag := by
  rw [(endOp_moved ..).ops, setBay_same]

theorem Canonical.endOp (hs : Canonical s) (b tag : Nat) (o : ChanOp) : Canonical (endOp s b tag o) :=
  (endOp_moved ..).canon (hs.setBay _ _)

theorem blockOf_of_bay (h : (t.bay b).blocks = (s.bay b).blocks) (n : Nat) : blockOf t b n = blockOf s b n := by
  unfold blockOf
  rw [h]

@[simp] theorem blockOf_setBlock (s : State) (b n : Nat) (x : Block) : blockOf (setBlock s b n x) b n = x := by
  simp [blockOf, setBlock]

@[simp] theorem setBlock_at_fld (s : State) (b n : Nat) (x : Block) (g : Field) : (setBlock s b n x).fld g = s.fld g := rfl
@[simp] theorem setBlock_ops (s : State) (b n : Nat) (x : Block) : ((setBlock s b n x).bay b).ops = (s.bay b).ops := by simp [setBlock]
@[simp] theorem setBlock_col (s : State) (b n : Nat) (x : Block) : ((setBlock s b n x).bay b).col = (s.bay b).col := by simp [setBlock]

theorem Canonical.setBlock (hs : Canonical s) (b n : Nat) (x : Block) : Canonical (setBlock s b n x) := hs.setBay b _

/-- First step of `readDone`: the read counts for its block. -/
def readCounted (s : State) (b : Nat) (o : ChanOp) : State :=
  setBlock s b (blockKey o) { blockOf s b (blockKey o) with reads := (blockOf s b (blockKey o)).reads + 1 }

section
variable {tag pct : Nat} {bs : List Byte} {o : ChanOp} (h4 : 4 ≤ bst s b) (h8 : bst s b ≤ 8) (hop : mget (s.bay b).ops tag = some o)
include h4 h8 hop

theorem readDone_eq (decoded : Bool) : readDone s b tag decoded =
    if decoded then endOp (readCounted s b o) b tag o
    else if o.retry < ((s.bay b).col.map (·.retryMax)).getD 0 then
      let o' := { o with retry := o.retry + 1, started := s.clk.now }
      let u := ((readCounted s b o).setBay b { (readCounted s b o).bay b with ops := mset (s.bay b).ops tag o' }).incSat
        (CRT_ERRS_RETRIES b) 1
      issue (issue u b tag 0x06 o') b tag 0x01 o'
    else fault ((endOp (readCounted s b o) b tag o).incSat (CRT_ERRS_UNCORRECTABLE b) 1) (baySource b 7) 0x02 0
      (BitVec.ofNat 64 (flashAddr o)) (0x1000 + 24 * b + o.channel) 8 := by
  have hopOf : opOf s b tag = (o, s) := by unfold opOf; rw [hop]
  have hcol : ((readCounted s b o).bay b).col = (s.bay b).col := setBlock_col ..
  have hops : ((readCounted s b o).bay b).ops = (s.bay b).ops := setBlock_ops ..
  unfold readDone
  rw [if_neg (by omega), hopOf, ← hcol, ← hops]
  rfl

theorem pageReadDone_decoded (hwf : mwf (s.bay b).ops = true) : Ends (.pageReadDone b tag true pct bs) s fun t =>
    mget (t.bay b).ops tag = none ∧ (blockOf t b (blockKey o)).reads = (blockOf s b (blockKey o)).reads + 1 := by
  refine ends_of_eq (u := readDone s b tag true) rfl ((readDone_eq h4 h8 hop true).trans (if_pos rfl)) ⟨?_, ?_⟩
  · rw [endOp_ops, readCounted, setBlock_ops, mget_mdel_same tag hwf]
  · rw [blockOf_of_bay (endOp_moved ..).blocks, blockOf_of_bay (s := readCounted s b o) (by rw [setBay_same]), readCounted,
      blockOf_setBlock]

theorem pageReadDone_retries (hs : Canonical s) (hmore : o.retry < ((s.bay b).col.map (·.retryMax)).getD 0) :
    Ends (.pageReadDone b tag false pct bs) s fun t =>
      mget (t.bay b).ops tag = some { o with retry := o.retry + 1, started := s.clk.now } ∧
      t.fld (CRT_ERRS_RETRIES b) = min (2 ^ 16 - 1) (s.fld (CRT_ERRS_RETRIES b) + 1) := by
  have heq := (readDone_eq h4 h8 hop false).trans ((if_neg Bool.false_ne_true).trans (if_pos hmore))
  have hcounted : Canonical (readCounted s b o) := hs.setBlock ..
  refine ends_of_eq (u := readDone s b tag false) rfl heq ⟨?_, ?_⟩
  · rw [(issue_moved ..).ops, (issue_moved ..).ops, incSat_at_bay, setBay_same, mget_mset_same]
  · rw [(issue_moved ..).fld, (issue_moved ..).fld, fld_incSat_same (hcounted.setBay _ _) _ (by simp), setBay_at_fld, readCounted,
      setBlock_at_fld]

theorem pageReadDone_uncorrectable (hs : Canonical s) (hb : b < 4) (hwf : mwf (s.bay b).ops = true)
    (hlast : ((s.bay b).col.map (·.retryMax)).getD 0 ≤ o.retry) : Ends (.pageReadDone b tag false pct bs) s fun t =>
      mget (t.bay b).ops tag = none ∧
      t.fld (CRT_ERRS_UNCORRECTABLE b) = min (2 ^ 16 - 1) (s.fld (CRT_ERRS_UNCORRECTABLE b) + 1) := by
  have heq := (readDone_eq h4 h8 hop false).trans ((if_neg Bool.false_ne_true).trans (if_neg (Nat.not_lt.2 hlast)))
  have hcounted : Canonical (readCounted s b o) := hs.setBlock ..
  refine ends_of_eq (u := readDone s b tag false) rfl heq ⟨?_, ?_⟩
  · rw [fault_at_bay, incSat_at_bay, endOp_ops, readCounted, setBlock_ops, mget_mdel_same tag hwf]
  · rw [fld_of_reg (fault_crtReg _ _ _ _ _ _ _ (crtReg_of_bay hb (by simp) (by simp))),
      fld_incSat_same (hcounted.endOp ..) _ (by simp), endOp_fld, readCounted, setBlock_at_fld]

end

/-! ### Failed programs and erases (R389) -/

theorem retireBlock_ses (s : State) (b n : Nat) : (retireBlock s b n).ses = s.ses := by
  unfold retireBlock
  dsimp only
  split <;> rfl

theorem retireBlock_retired (s : State) (b n : Nat) : (blockOf (retireBlock s b n) b n).retired = true := by
  unfold retireBlock
  dsimp only
  split
  · assumption
  · simp [blockOf, setBlock]

theorem fld_decFld_same (hs : Canonical s) {f : Field} (n : Nat) (hw : f.lo + f.w ≤ 64) :
    (s.decFld f n).fld f = s.fld f - n :=
  fld_setFld_of_lt hs hw (Nat.lt_of_le_of_lt (Nat.sub_le _ n) (fld_lt s f))

/-- A block listed as retired, in the bay and in its wear record. -/
def blockRetired (s : State) (b n : Nat) : State :=
  let u := setBlock s b n { blockOf s b n with retired := true }
  u.setBay b { u.bay b with wear := { (u.bay b).wear with retired := (u.bay b).wear.retired + 1 } }

theorem blockRetired_fld (s : State) (b n : Nat) (g : Field) : (blockRetired s b n).fld g = s.fld g := by
  rw [blockRetired, setBay_at_fld, setBlock_at_fld]

theorem retireBlock_eq {n : Nat} (hlive : (blockOf s b n).retired = false) :
    retireBlock s b n = (blockRetired s b n).decFld (CRT_BLOCKS_SPARE_BLOCKS b) 1 := if_neg (by simp [hlive])

theorem retireBlock_spare (hs : Canonical s) (n : Nat) (hlive : (blockOf s b n).retired = false) :
    (retireBlock s b n).fld (CRT_BLOCKS_SPARE_BLOCKS b) = s.fld (CRT_BLOCKS_SPARE_BLOCKS b) - 1 := by
  have hretired : Canonical (blockRetired s b n) := (hs.setBlock ..).setBay _ _
  rw [retireBlock_eq hlive, fld_decFld_same hretired _ (by simp), blockRetired_fld]

theorem programOrEraseFailure_ends (hs : Canonical s) (h4 : 4 ≤ bst s b) (h8 : bst s b ≤ 8) (n : Nat) (er : Bool) :
    Ends (.programOrEraseFailure b n er) s fun t => (blockOf t b n).retired = true ∧
      ((blockOf s b n).retired = false → t.fld (CRT_BLOCKS_SPARE_BLOCKS b) = s.fld (CRT_BLOCKS_SPARE_BLOCKS b) - 1) ∧ t.ses = s.ses := by
  have heq : programFailed s b n er = if er then retireBlock s b n
      else (retireBlock s b n).incWrap (CRT_NAND_WR_BYTES b) pageBytes := if_neg (by omega)
  refine ends_of_eq (u := programFailed s b n er) rfl heq ?_
  cases er with
  | true =>
    rw [if_pos rfl]
    exact ⟨retireBlock_retired s b n, retireBlock_spare hs n, retireBlock_ses s b n⟩
  | false =>
    rw [if_neg Bool.false_ne_true]
    refine ⟨?_, fun hlive => ?_, ?_⟩
    · rw [blockOf_of_bay (s := retireBlock s b n) (by rw [incWrap_at_bay])]
      exact retireBlock_retired s b n
    · rw [fld_incWrap_other _ _ (by simp)]
      exact retireBlock_spare hs n hlive
    · rw [incWrap_ses, retireBlock_ses]

/-! ### Operations that are late (R503) -/

/-- The operations of a die that have passed CHOP_MS. -/
def lateOps (s : State) (b ch die : Nat) : Map ChanOp :=
  (dieOps (s.bay b) ch die).filter fun o => o.2.started + s.fld FLT_TIMEOUT_B_CHOP_MS * msNs ≤ s.now

/-- First step of `dieLate`: the fault, and the reset of the die. -/
def dieReset (s : State) (b ch die tag : Nat) (o : ChanOp) : State :=
  sendCommand (fault s (0xA00 + 24 * b + ch) 0x07 0xA004 (BitVec.ofNat 64 (flashAddr o)) (0x1000 + 24 * b + ch) 8) b ch tag
    (commandBytes 0x60 die 0 0 0 0 o.issuer)

/-- A bay without a die: its operations are gone, and it is listed as dead. -/
def withoutDie (x : Bay) (ch die : Nat) : Bay :=
  { x with ops := x.ops.filter fun y => !(decide (y.2.channel = ch) && decide (y.2.die = die)),
           dies := mdel x.dies (dieKey ch die),
           deadDies := if x.deadDies.contains (dieKey ch die) then x.deadDies else x.deadDies ++ [dieKey ch die] }

theorem dieOps_withoutDie (x : Bay) (ch die : Nat) : dieOps (withoutDie x ch die) ch die = [] := by
  simp only [dieOps, withoutDie, List.filter_filter, List.filter_eq_nil_iff]
  intro y _
  simp

theorem mem_deadDies_withoutDie (x : Bay) (ch die : Nat) : dieKey ch die ∈ (withoutDie x ch die).deadDies := by
  unfold withoutDie
  dsimp only
  split
  · next h => simpa using h
  · simp

/-- What `dieLate` does for the first late operation: one repeat, then the die is retired. -/
def dieLateAt (s : State) (b ch die tag : Nat) (o : ChanOp) : State :=
  let u := dieReset s b ch die tag o
  if o.again then u.setBay b (withoutDie (u.bay b) ch die)
  else
    let o := { o with again := true, started := u.now }
    issue (u.setBay b { u.bay b with ops := mset (u.bay b).ops tag o }) b tag o.op o

theorem dieLate_none {ch die : Nat} (h : lateOps s b ch die = []) : dieLate s b ch die = s := by
  unfold lateOps at h
  unfold dieLate
  dsimp only
  rw [h]

theorem dieLate_some {ch die tag : Nat} {o : ChanOp} {r : Map ChanOp} (h : lateOps s b ch die = (tag, o) :: r) :
    dieLate s b ch die = dieLateAt s b ch die tag o := by
  unfold lateOps at h
  unfold dieLate
  dsimp only
  rw [h]
  rfl

theorem dieReset_moved (s : State) (b ch die tag : Nat) (o : ChanOp) : LinkMoved b
    (fault s (0xA00 + 24 * b + ch) 0x07 0xA004 (BitVec.ofNat 64 (flashAddr o)) (0x1000 + 24 * b + ch) 8) (dieReset s b ch die tag o) :=
  sendCommand_moved ..

theorem dieReset_now (s : State) (b ch die tag : Nat) (o : ChanOp) : (dieReset s b ch die tag o).now = s.clk.now := by
  obtain ⟨m, hm⟩ := (dieReset_moved s b ch die tag o).upd
  rw [State.now, hm, fault_clk]

theorem dieLateAt_first {o : ChanOp} (h : o.again = false) (s : State) (b ch die tag : Nat) :
    mget ((dieLateAt s b ch die tag o).bay b).ops tag = some { o with again := true, started := s.clk.now } ∧
      ((dieLateAt s b ch die tag o).bay b).deadDies = (s.bay b).deadDies := by
  rw [dieLateAt, if_neg (by simp [h])]
  constructor
  · rw [(issue_moved ..).ops, setBay_same, mget_mset_same, dieReset_now]
  · rw [(issue_moved ..).deadDies, setBay_same, (dieReset_moved ..).deadDies, fault_at_bay]

theorem dieLateAt_again {o : ChanOp} (h : o.again = true) (s : State) (b ch die tag : Nat) :
    (dieLateAt s b ch die tag o).bay b = withoutDie ((dieReset s b ch die tag o).bay b) ch die := by
  rw [dieLateAt, if_pos h, setBay_same]

theorem flashDieTimeout_unchanged {ch die : Nat} (h : lateOps s b ch die = []) : exec (.flashDieTimeout b ch die) s = .next s :=
  exec_unchanged (u := dieLate s b ch die) rfl (dieLate_none h)

section
variable {ch die tag : Nat} {o : ChanOp} {r : Map ChanOp} (h : lateOps s b ch die = (tag, o) :: r)
include h

theorem flashDieTimeout_repeats (hfirst : o.again = false) : Ends (.flashDieTimeout b ch die) s fun t =>
    mget (t.bay b).ops tag = some { o with again := true, started := s.clk.now } ∧ (t.bay b).deadDies = (s.bay b).deadDies :=
  ends_of_eq (u := dieLate s b ch die) rfl (dieLate_some h) (dieLateAt_first hfirst s b ch die tag)

theorem flashDieTimeout_retires (hagain : o.again = true) : Ends (.flashDieTimeout b ch die) s fun t =>
    dieKey ch die ∈ (t.bay b).deadDies ∧ dieOps (t.bay b) ch die = [] := by
  refine ends_of_eq (u := dieLate s b ch die) rfl (dieLate_some h) ?_
  rw [dieLateAt_again hagain]
  exact ⟨mem_deadDies_withoutDie _ ch die, dieOps_withoutDie _ ch die⟩

end

end Sys2Proof.Machine
end

section
/-! Flits of a bay's link, and its retraining (R365 to R369, R507). -/

namespace Sys2Proof.Machine

variable {s t : State} {b : Nat}

/-! ### What the link has received -/

/-- The sequence number that a link waits for, and whether it owes a NAK. -/
def linkRx (s : State) (b : Nat) : Nat × Bool := ((s.bay b).link.rxSeq, (s.bay b).link.nakOwed)

theorem linkRx_of_link (h : (t.bay b).link = (s.bay b).link) : linkRx t b = linkRx s b := by
  unfold linkRx
  rw [h]

theorem LinkMoved.linkRx (h : LinkMoved b s t) : linkRx t b = linkRx s b := Prod.ext h.rxSeq h.nakOwed

theorem linkRx_setOps (s : State) (b : Nat) (m : Map ChanOp) : linkRx (s.setBay b { s.bay b with ops := m }) b = linkRx s b :=
  linkRx_of_link (by rw [setBay_same])

theorem linkRx_endOp (s : State) (b tag : Nat) (o : ChanOp) : linkRx (endOp s b tag o) b = linkRx s b :=
  (endOp_moved ..).linkRx.trans (linkRx_setOps ..)

theorem withoutDie_link (x : Bay) (ch die : Nat) : (withoutDie x ch die).link = x.link := rfl

theorem linkRx_dieLate (s : State) (b ch die : Nat) : linkRx (dieLate s b ch die) b = linkRx s b := by
  cases h : lateOps s b ch die with
  | nil => rw [dieLate_none h]
  | cons x r =>
    have hreset : linkRx (dieReset s b ch die x.1 x.2) b = linkRx s b :=
      (dieReset_moved ..).linkRx.trans (linkRx_of_link (by rw [fault_at_bay]))
    rw [dieLate_some h, dieLateAt]
    dsimp only
    split
    · exact (linkRx_of_link (by rw [setBay_same, withoutDie_link])).trans hreset
    · exact (issue_moved ..).linkRx.trans ((linkRx_setOps ..).trans hreset)

theorem linkRx_programFailed (s : State) (b n : Nat) (er : Bool) : linkRx (programFailed s b n er) b = linkRx s b := by
  have hretire : linkRx (retireBlock s b n) b = linkRx s b := by
    cases h : (blockOf s b n).retired with
    | true => rw [retireBlock, if_pos h]
    | false => exact linkRx_of_link (by rw [retireBlock_eq h, decFld_at_bay, blockRetired, setBay_same, setBlock, setBay_same])
  unfold programFailed
  dsimp only
  split_ifs
  · rfl
  · exact hretire
  · exact (linkRx_of_link (by rw [incWrap_at_bay])).trans hretire

theorem linkRx_staleMessage (s : State) (b source stale : Nat) : linkRx (staleMessage s source stale) b = linkRx s b :=
  linkRx_of_link (by rw [staleMessage, fault_at_bay, incSat_at_bay])

/-- The outcome that a status flit reports, or its operation's late repeat, is no matter of the link. -/
theorem linkRx_statusFlit (s : State) (b : Nat) (f : Flit) : linkRx (statusFlit s b f) b = linkRx s b := by
  unfold statusFlit
  split
  · rfl
  · dsimp only
    split_ifs
    · exact (linkRx_staleMessage ..).trans (linkRx_endOp ..)
    · exact (linkRx_dieLate ..).trans (linkRx_setOps ..)
    · exact (linkRx_programFailed ..).trans (linkRx_endOp ..)
    · rfl
    · exact linkRx_endOp ..

theorem linkRx_sendHeld (b ch : Nat) : ∀ (n : Nat) (s : State), linkRx (sendHeld b ch n s) b = linkRx s b
  | 0, _ => rfl
  | n + 1, s => by
    rw [sendHeld]
    dsimp only
    split
    · rfl
    · refine (linkRx_sendHeld b ch n _).trans ((sendCommand_moved ..).linkRx.trans ?_)
      rw [linkRx, setBay_same]
      rfl

theorem linkRx_flitBody (s : State) (b : Nat) (f : Flit) : linkRx (flitBody s b f) b = linkRx s b := by
  unfold flitBody
  split_ifs
  · exact linkRx_statusFlit ..
  · refine (linkRx_sendHeld ..).trans ?_
    rw [linkRx, setBay_same]
    rfl
  · rfl

/-! ### Flits received, and resends (R367, R368) -/

section
variable {f : Flit} (h4 : 4 ≤ bst s b) (h8 : bst s b ≤ 8)
include h4 h8

theorem flitReceived_bad (hbad : f.crcOk = false ∨ (f.typ ≠ 0 ∧ f.seq ≠ (s.bay b).link.rxSeq)) : Ends (.flitReceived b f) s fun t =>
    (t.bay b).link.nakOwed = true ∧ (t.bay b).link.rxSeq = (s.bay b).link.rxSeq ∧ (t.bay b).ops = (s.bay b).ops ∧ t.regs = s.regs := by
  have heq : flitIn s b f = sendNak s b := (if_neg (by omega)).trans (if_pos (by simpa using hbad))
  refine ends_of_eq (u := flitIn s b f) rfl heq ?_
  simp [sendNak]

/-- First steps of `flitIn` for a flit in order: the acknowledgement is taken, and a NAK answered. -/
def ackTaken (s : State) (b : Nat) (f : Flit) : State :=
  if f.nak then resendAll (takeAck s b f.ack) b else takeAck s b f.ack

theorem flitReceived_good (hcrc : f.crcOk = true) (htyp : f.typ ≠ 0) (hseq : f.seq = (s.bay b).link.rxSeq) :
    Ends (.flitReceived b f) s fun t => (t.bay b).link.nakOwed = false ∧
      (t.bay b).link.rxSeq = ((s.bay b).link.rxSeq + 1) % 4096 := by
  have heq : flitIn s b f = flitBody ((ackTaken s b f).setBay b { (ackTaken s b f).bay b with
      link := { ((ackTaken s b f).bay b).link with rxSeq := ((s.bay b).link.rxSeq + 1) % 4096, nakOwed := false } }) b f :=
    (if_neg (by omega)).trans ((if_neg (by simp [hcrc, hseq])).trans (if_neg htyp))
  have hrx := linkRx_flitBody ((ackTaken s b f).setBay b { (ackTaken s b f).bay b with
      link := { ((ackTaken s b f).bay b).link with rxSeq := ((s.bay b).link.rxSeq + 1) % 4096, nakOwed := false } }) b f
  rw [← heq, linkRx, linkRx, setBay_same] at hrx
  exact ends_of_eq (u := flitIn s b f) rfl rfl ⟨congrArg Prod.snd hrx, congrArg Prod.fst hrx⟩

end

theorem resendAll_link (s : State) (b : Nat) : ((resendAll s b).bay b).link.sent = (s.bay b).link.sent ++ (s.bay b).link.replay ∧
    ((resendAll s b).bay b).link.resends = (s.bay b).link.resends + 1 := by
  simp [resendAll]

theorem resendAll_replays (hs : Canonical s) (hb : b < 4) :
    (resendAll s b).fld (CRT_ERRS_REPLAYS b) = min (2 ^ 16 - 1) (s.fld (CRT_ERRS_REPLAYS b) + 1) := by
  rw [resendAll, fld_of_reg (fault_crtReg _ _ _ _ _ _ _ (crtReg_of_bay hb (by simp) (by simp))),
    fld_incSat_same (hs.setBay _ _) _ (by simp), setBay_at_fld]

theorem flitResendTimeout_resends (hs : Canonical s) (hb : b < 4) (hkept : (s.bay b).link.replay ≠ [])
    (hlate : (s.bay b).link.sentAt + 4000 ≤ s.clk.now) : Ends (.flitResendTimeout b) s fun t =>
      (t.bay b).link.sent = (s.bay b).link.sent ++ (s.bay b).link.replay ∧ (t.bay b).link.resends = (s.bay b).link.resends + 1 ∧
      t.fld (CRT_ERRS_REPLAYS b) = min (2 ^ 16 - 1) (s.fld (CRT_ERRS_REPLAYS b) + 1) :=
  ends_of_eq (u := flitLate s b) rfl (if_pos ⟨by simpa using hkept, hlate⟩)
    ⟨(resendAll_link s b).1, (resendAll_link s b).2, resendAll_replays hs hb⟩

theorem flitResendTimeout_unchanged (h : (s.bay b).link.replay = [] ∨ s.clk.now < (s.bay b).link.sentAt + 4000) :
    exec (.flitResendTimeout b) s = .next s :=
  exec_unchanged (u := flitLate s b) rfl (if_neg fun hc => h.elim (fun hnil => by simp [hnil] at hc) (Nat.not_lt.2 hc.2))

/-! ### Retraining (R368, R369, R408) -/

/-- First steps of `retrained`: the count, the fault, and LANES_GOOD. -/
def retrainCounted (s : State) (b lanes : Nat) : State :=
  (fault (s.incSat (CRT_ERRS_RETRAINS b) 1) (baySource b 7) 0x04 0 0).setFld (CRT_BAY_LANES_GOOD b) (min lanes 6)

/-- A failed lane, drawn at random, gives way to the spare. -/
def laneSpared (s : State) (b : Nat) : State :=
  let lane := s.draw.1.toNat % 6
  let u := s.draw.2.setBay b { s.draw.2.bay b with badLanes := (s.draw.2.bay b).badLanes ++ [lane] }
  fault (u.setFld (CRT_BAY_SPARE_USED b) 1) (baySource b lane) 0x05 0 (BitVec.ofNat 64 lane)

theorem laneSpared_resends (s : State) (b : Nat) : ((laneSpared s b).bay b).link.resends = (s.bay b).link.resends := by
  simp [laneSpared]

section
variable (hs : Canonical s)
include hs

theorem Canonical.retrainCounted (b lanes : Nat) : Canonical (retrainCounted s b lanes) :=
  ((hs.incSat _ _).fault _ _ _ _ _ _).setFld _ _

theorem retrainCounted_fld (b lanes : Nat) {g : Field} (hg : CrtReg g.off) (h1 : FieldsApart (CRT_BAY_LANES_GOOD b) g)
    (h2 : FieldsApart (CRT_ERRS_RETRAINS b) g) : (retrainCounted s b lanes).fld g = s.fld g := by
  rw [retrainCounted, fld_setFld_apart ((hs.incSat _ _).fault _ _ _ _ _ _) _ (by simp) h1,
    fld_of_reg (fault_crtReg _ _ _ _ _ _ _ hg), fld_incSat_apart hs _ (by simp) h2]

theorem retrainCounted_lanes (b lanes : Nat) : (retrainCounted s b lanes).fld (CRT_BAY_LANES_GOOD b) = min lanes 6 :=
  fld_setFld_of_lt ((hs.incSat _ _).fault _ _ _ _ _ _) (by simp) (Nat.lt_of_le_of_lt (Nat.min_le_right _ _) (by simp))

theorem laneSpared_fld (b : Nat) {g : Field} (hg : CrtReg g.off) (h : FieldsApart (CRT_BAY_SPARE_USED b) g) :
    (laneSpared s b).fld g = s.fld g := by
  rw [laneSpared, fld_of_reg (fault_crtReg _ _ _ _ _ _ _ hg), fld_setFld_apart (hs.draw.setBay _ _) _ (by simp) h, setBay_at_fld,
    draw_at_fld]

theorem laneSpared_used (hb : b < 4) : (laneSpared s b).flag (CRT_BAY_SPARE_USED b) = true := by
  rw [laneSpared, flag_of_fld (fld_of_reg (fault_crtReg _ _ _ _ _ _ _ (crtReg_of_bay hb (by simp) (by simp))))]
  exact flag_setFld_one (hs.draw.setBay _ _) (by simp) (by simp)

end

/-- What a retraining to five lanes or more leaves, but for the spare. -/
def retrainResumed (s : State) (b lanes : Nat) : State :=
  let u := retrainCounted s b lanes
  u.setBay b { u.bay b with link := { (u.bay b).link with resends := 0, sentAt := u.now } }

theorem retrainResumed_fld (s : State) (b lanes : Nat) (g : Field) : (retrainResumed s b lanes).fld g = (retrainCounted s b lanes).fld g := by
  rw [retrainResumed, setBay_at_fld]

theorem retrain_resumes (hs : Canonical s) (hb : b < 4) (h4 : 4 ≤ bst s b) (h8 : bst s b ≤ 8)
    (hresends : 16 ≤ (s.bay b).link.resends) {n : Nat} (hn : 5 ≤ n) : Ends (.retrain b n) s fun t =>
      bst t b = bst s b ∧ (t.bay b).link.resends = 0 ∧ t.fld (CRT_BAY_LANES_GOOD b) = min n 6 ∧
      (n < s.fld (CRT_BAY_LANES_GOOD b) → t.flag (CRT_BAY_SPARE_USED b) = true) := by
  have hcanon : Canonical (retrainResumed s b n) := (hs.retrainCounted b n).setBay _ _
  have hzero : ((retrainResumed s b n).bay b).link.resends = 0 := by rw [retrainResumed, setBay_same]
  have hbst : bst (retrainResumed s b n) b = bst s b := (retrainResumed_fld ..).trans
    (retrainCounted_fld hs b n (crtReg_of_bay hb (by simp) (by simp)) (.inr (.inr (by simp))) (.inl (by simp)))
  have hlanes : (retrainResumed s b n).fld (CRT_BAY_LANES_GOOD b) = min n 6 :=
    (retrainResumed_fld ..).trans (retrainCounted_lanes hs b n)
  have heq : retrained s b n = if n < s.fld (CRT_BAY_LANES_GOOD b) then laneSpared (retrainResumed s b n) b
      else retrainResumed s b n := (if_neg (by omega)).trans (if_pos hn)
  by_cases hfewer : n < s.fld (CRT_BAY_LANES_GOOD b)
  · refine ends_of_eq (u := retrained s b n) rfl (heq.trans (if_pos hfewer)) ⟨?_, ?_, ?_, fun _ => laneSpared_used hcanon hb⟩
    · exact (laneSpared_fld hcanon b (crtReg_of_bay hb (by simp) (by simp)) (.inr (.inr (by simp)))).trans hbst
    · rw [laneSpared_resends, hzero]
    · rw [laneSpared_fld hcanon b (crtReg_of_bay hb (by simp) (by simp)) (.inr (.inr (by simp))), hlanes]
  · exact ends_of_eq (u := retrained s b n) rfl (heq.trans (if_neg hfewer)) ⟨hbst, hzero, hlanes, fun h => absurd h hfewer⟩

theorem retrain_fails (hs : Canonical s) (hb : b < 4) (hresends : 16 ≤ (s.bay b).link.resends) {n : Nat} (hn : n < 5)
    (hst : bst s b = 5 ∨ bst s b = 6) : ∃ u : State, bst u b = 10 ∧ exec (.retrain b n) s =
      .next (cartridgeLost (capacityChange (bayGone u b)) b (s.fld (CRT_SERIAL_SERIAL b))) := by
  let v := fault (retrainCounted s b n) (baySource b 7) 0x06 0 (BitVec.ofNat 64 b) (0x4000 + b)
  have hv : Canonical v := (hs.retrainCounted b n).fault _ _ _ _ _ _
  have hread {g : Field} (hg : CrtReg g.off) (h1 : FieldsApart (CRT_BAY_LANES_GOOD b) g)
      (h2 : FieldsApart (CRT_ERRS_RETRAINS b) g) : v.fld g = s.fld g :=
    (fld_of_reg (fault_crtReg _ _ _ _ _ _ _ hg)).trans (retrainCounted_fld hs b n hg h1 h2)
  have hbst : bst v b = bst s b := hread (crtReg_of_bay hb (by simp) (by simp)) (.inr (.inr (by simp))) (.inl (by simp))
  have heq : retrained s b n = cartridgeLost (capacityChange (bayGone (setBst v b 10) b)) b (v.fld (CRT_SERIAL_SERIAL b)) :=
    (if_neg (by omega)).trans ((if_neg (by omega)).trans (if_pos (by rwa [← hbst] at hst)))
  refine ⟨setBst v b 10, bst_setBst hv hb (by decide), ?_⟩
  rw [← hread (crtReg_of_bay hb (by simp) (by simp)) (.inl (by simp)) (.inl (by simp))]
  exact congrArg Host.Outcome.next heq

theorem retrain_unchanged (hresends : (s.bay b).link.resends < 16) (n : Nat) : exec (.retrain b n) s = .next s :=
  exec_unchanged (u := retrained s b n) rfl (if_pos (.inr (.inr hresends)))

end Sys2Proof.Machine
end

section
/-! Upkeep of the flash, the journal and pied pages (R385 to R388, R391, R393); then the statement on flash, links and journals. -/

namespace Sys2Proof.Machine

variable {s t : State} {b : Nat}

/-! ### Relocation, patrol and wear levelling (R386 to R388) -/

@[simp] theorem relocate_ses (s : State) (b n : Nat) : (relocate s b n).ses = s.ses := rfl

/-- A relocated block is erased: its reads start again and its erases count one more. -/
theorem relocate_block (s : State) (b n : Nat) : blockOf (relocate s b n) b n =
    { blockOf s b n with reads := 0, erases := (blockOf s b n).erases + 1, scanned := s.clk.now } := by
  simp [relocate, blockOf, setBlock, State.now]

theorem relocate_block_other (s : State) (b : Nat) {n m : Nat} (h : m ≠ n) : blockOf (relocate s b n) b m = blockOf s b m := by
  simp [relocate, blockOf, setBlock, mget_mset_other _ h]

section
variable {n : Nat} (hjournals : bayJournals s b = true)
include hjournals

theorem readDisturbRelocation_relocates (hmany : readLimit s b ≤ (blockOf s b n).reads) :
    Ends (.readDisturbRelocation b n) s fun t => (blockOf t b n).reads = 0 ∧
      (blockOf t b n).erases = (blockOf s b n).erases + 1 ∧ t.ses = s.ses := by
  refine ends_of_eq (t := relocate s b n) rfl (if_pos (by simp [hjournals, hmany])) ?_
  rw [relocate_block]
  exact ⟨rfl, rfl, relocate_ses s b n⟩

/-- First step of `patrol`: the block has been read. -/
def patrolRead (s : State) (b n : Nat) (retried : Bool) : State :=
  let u := setBlock s.draw.2 b n { blockOf s b n with
    reads := (blockOf s b n).reads + s.draw.1.toNat % (blockPages s b + 1), scanned := s.now }
  if retried then u.incSat (CRT_ERRS_RETRIES b) 1 else u

omit hjournals in
theorem patrolRead_block (s : State) (b n : Nat) (retried : Bool) : ∃ reads, blockOf (patrolRead s b n retried) b n =
    { blockOf s b n with reads := reads, scanned := s.clk.now } := by
  refine ⟨(blockOf s b n).reads + s.draw.1.toNat % (blockPages s b + 1), ?_⟩
  unfold patrolRead
  dsimp only
  split
  · rw [blockOf, incSat_at_bay]
    exact blockOf_setBlock ..
  · exact blockOf_setBlock ..

omit hjournals in
theorem patrolRead_frame (s : State) (b n : Nat) (retried : Bool) :
    (patrolRead s b n retried).ses = s.ses ∧ (patrolRead s b n retried).clk = s.clk := by
  unfold patrolRead
  dsimp only
  split <;> exact ⟨rfl, rfl⟩

theorem patrolScan_ends (retried : Bool) (pct : Nat) : Ends (.patrolScan b n retried pct) s fun t =>
    (blockOf t b n).scanned = s.clk.now ∧ t.ses = s.ses ∧
      (retried = true ∨ 75 < pct → (blockOf t b n).erases = (blockOf s b n).erases + 1) := by
  obtain ⟨reads, hblock⟩ := patrolRead_block s b n retried
  obtain ⟨hses, hclk⟩ := patrolRead_frame s b n retried
  have heq : patrol s b n retried pct = if retried || decide (75 < pct) then relocate (patrolRead s b n retried) b n
      else patrolRead s b n retried := if_pos hjournals
  by_cases hmove : retried = true ∨ 75 < pct
  · refine ends_of_eq (u := patrol s b n retried pct) rfl (heq.trans (if_pos (by simpa using hmove))) ?_
    rw [relocate_block, hblock, relocate_ses, hses, hclk]
    exact ⟨rfl, rfl, fun _ => rfl⟩
  · refine ends_of_eq (u := patrol s b n retried pct) rfl (heq.trans (if_neg (by simpa using hmove))) ?_
    rw [hblock, hses]
    exact ⟨rfl, rfl, fun h => absurd h hmove⟩

theorem wearLevelling_moves {m : Nat} (hne : n ≠ m) (hlive : (blockOf s b m).retired = false) :
    Ends (.wearLevelling b n m) s fun t =>
      (blockOf t b n).erases = (blockOf s b n).erases + 1 ∧ blockOf t b m = blockOf s b m := by
  refine ends_of_eq (t := relocate s b n) rfl (if_pos (by simp [hjournals, hne, hlive])) ?_
  rw [relocate_block, relocate_block_other s b hne.symm]
  exact ⟨rfl, rfl⟩

end

theorem readDisturbRelocation_unchanged {n : Nat} (hfew : (blockOf s b n).reads < readLimit s b) :
    exec (.readDisturbRelocation b n) s = .next s :=
  exec_unchanged rfl (if_neg (by simp [hfew]))

/-! ### The collector (R385, R390) -/

theorem closePage_stale (s : State) (b : Nat) : (closePage s b).crt.stale = s.crt.stale := by
  unfold closePage
  dsimp only
  split <;> rfl

theorem journalSubmit_stale (s : State) (b : Nat) (r : DirRec) (p : HeadPage) : (journalSubmit s b r p).crt.stale = s.crt.stale := by
  unfold journalSubmit
  dsimp only
  split
  · exact closePage_stale _ _
  · rfl

theorem consolidate_stale (b : Nat) (s : State) (i : Nat) : (consolidate b s i).crt.stale = s.crt.stale := by
  unfold consolidate
  split
  · rfl
  · split
    · rfl
    · split
      · exact journalSubmit_stale ..
      · rfl

/-- Consolidation moves a copy; no session's tokens change. -/
theorem consolidate_tokens (b : Nat) (s : State) (i k : Nat) :
    ((consolidate b s i).ses? k).map (·.tokens) = (s.ses? k).map (·.tokens) := by
  unfold consolidate
  split
  · rfl
  · next e he =>
    split
    · rfl
    · dsimp only
      split
      · rw [ses?_of_ses (journalSubmit_ses ..), draw_at_ses, incWrap_at_ses]
        by_cases hk : k = i
        · rw [hk, ses_setSes_same, he]
          rfl
        · rw [setSes_other _ _ _ hk, draw_at_ses]
      · rfl

theorem collector_ends (hst : bst s b = 5) (hwf : mwf s.crt.stale = true) : Ends (.collector b) s fun t =>
    mget t.crt.stale b = none ∧ ∀ i, (t.ses? i).map (·.tokens) = (s.ses? i).map (·.tokens) := by
  have hstale : ((s.ses.entries.map (·.1)).foldl (consolidate b) s).crt.stale = s.crt.stale :=
    foldl_frame (fun u : State => u.crt.stale) (fun u i => consolidate_stale b u i) _ _
  have htokens (k : Nat) : (((s.ses.entries.map (·.1)).foldl (consolidate b) s).ses? k).map (·.tokens) = (s.ses? k).map (·.tokens) :=
    foldl_frame (fun u : State => (u.ses? k).map (·.tokens)) (fun u i => consolidate_tokens b u i k) _ _
  refine ends_of_eq (u := collect s b) rfl (if_pos hst) ⟨?_, fun k => htokens k⟩
  rw [incWrap_crt]
  dsimp only
  rw [hstale]
  exact mget_mdel_same b hwf

theorem collector_unchanged (hst : bst s b ≠ 5) : exec (.collector b) s = .next s :=
  exec_unchanged (u := collect s b) rfl (if_neg hst)

/-! ### Journal pages (R393, R394) -/

theorem closePage_of_open (h : (s.bay b).openPage ≠ []) : closePage s b = s.setBay b { s.bay b with
    openPage := [], inFlight := (s.bay b).inFlight ++ [⟨(s.bay b).openPage, s.now⟩],
    dies := mset (mset (s.bay b).dies 0 ⟨false, s.now⟩) 384 ⟨false, s.now⟩ } := if_neg (by simpa using h)

theorem journalPageClose_closes (hopen : (s.bay b).openPage ≠ []) (hlate : (s.bay b).openAt + 100000 ≤ s.clk.now) :
    Ends (.journalPageClose b) s fun t => (t.bay b).openPage = [] ∧
      (t.bay b).inFlight = (s.bay b).inFlight ++ [⟨(s.bay b).openPage, s.clk.now⟩] ∧ t.regs = s.regs ∧ t.ses = s.ses :=
  ends_of_eq rfl ((if_pos hlate).trans (closePage_of_open hopen))
    ⟨by rw [setBay_same], by rw [setBay_same]; rfl, rfl, rfl⟩

theorem journalPageClose_unchanged (h : (s.bay b).openPage = [] ∨ s.clk.now < (s.bay b).openAt + 100000) :
    exec (.journalPageClose b) s = .next s := by
  refine exec_unchanged rfl (ite_eq_right_iff.2 fun hlate => ?_)
  exact if_pos (by simp [h.resolve_right (Nat.not_lt.2 hlate)])

/-- What `pageDurable` writes before its records act. -/
def pageWritten (s : State) (b : Nat) (p : JPage) (rest : List JPage) : State :=
  let x := s.bay b
  let s := s.setBay b { x with inFlight := rest, journal := x.journal ++ p.records,
                               dies := if rest.isEmpty then mdel (mdel x.dies 0) 384 else x.dies }
  (s.setFld (CRT_JRNL_JOURNAL b) (x.journal.length + p.records.length)).incWrap (CRT_NAND_WR_BYTES b) (2 * pageBytes)

theorem pageWritten_bay (s : State) (b : Nat) (p : JPage) (r : List JPage) :
    ((pageWritten s b p r).bay b).journal = (s.bay b).journal ++ p.records ∧ ((pageWritten s b p r).bay b).inFlight = r := by
  simp [pageWritten]

theorem pageWritten_journal (hs : Canonical s) (b : Nat) (p : JPage) (r : List JPage) :
    (pageWritten s b p r).fld (CRT_JRNL_JOURNAL b) = ((s.bay b).journal.length + p.records.length) % 2 ^ 26 := by
  rw [pageWritten, fld_incWrap_other _ _ (by simp)]
  exact fld_setFld_same _ _ (by simp) (hs.setBay _ _).regs

theorem journalPageProgrammed_durable (hs : Canonical s) {p : JPage} {r : List JPage} (hpage : (s.bay b).inFlight = p :: r)
    (hgood : s.flag (CRT_BAY_HOLDUP_OK b) = true) : ∃ u : State, (u.bay b).journal = (s.bay b).journal ++ p.records ∧
      (u.bay b).inFlight = r ∧ u.fld (CRT_JRNL_JOURNAL b) = ((s.bay b).journal.length + p.records.length) % 2 ^ 26 ∧ u.ses = s.ses ∧
      exec (.journalPageProgrammed b) s = .next (trySeal (p.records.foldl (recDurableAt b) u) b) := by
  obtain ⟨hjournal, hflight⟩ := pageWritten_bay s b p r
  refine ⟨pageWritten s b p r, hjournal, hflight, pageWritten_journal hs b p r, rfl, congrArg Host.Outcome.next ?_⟩
  unfold pageDurable
  dsimp only
  rw [hpage]
  exact if_pos (by simp [hgood])

theorem journalPageProgrammed_unchanged (hnone : (s.bay b).inFlight = []) : exec (.journalPageProgrammed b) s = .next s := by
  refine exec_unchanged (u := pageDurable s b) rfl ?_
  unfold pageDurable
  dsimp only
  rw [hnone]

/-! ### Pied pages (R391) -/

theorem sesNotice_frame (s : State) (i reason st : Nat) (r : Word) (f : Nat) : (sesNotice s i reason st r).frame f = s.frame f := by
  unfold sesNotice
  split
  · rfl
  · split
    · rfl
    · rw [State.frame, notice_ses]
      rfl

/-- A notice leaves every session in its state. -/
theorem sesNotice_state (s : State) (i reason st : Nat) (r : Word) (k : Nat) :
    ((sesNotice s i reason st r).ses? k).map (·.state) = (s.ses? k).map (·.state) := by
  unfold sesNotice
  split
  · rfl
  · next e he =>
    split
    · rfl
    · rw [notice_at_ses]
      by_cases hk : k = i
      · rw [hk, ses_setSes_same, he]
        rfl
      · rw [setSes_other _ _ _ hk]

/-- First step of `unpie`: the bytes of the frame, as the copy holds them. -/
def pageRestored (s : State) (e : Session) (c : Copy) (f : Nat) : State :=
  match copyPage e c f with
  | some m => setFrameBytes s f m
  | none => { s with hbmBad := s.hbmBad.filter fun u => decide (u / 512 ≠ f) }

theorem pageRestored_ses (s : State) (e : Session) (c : Copy) (f : Nat) : (pageRestored s e c f).ses = s.ses := by
  unfold pageRestored
  split <;> rfl

/-- Second step of `unpie`: PIED is cleared. -/
def clearPied (s : State) (f : Nat) : State :=
  match s.frame f with
  | none => s
  | some x => { s with ses := { s.ses with frames := mset s.ses.frames f { x with pied := false } } }

theorem clearPied_frame {f : Nat} {y : Frame} (hframe : s.frame f = some y) :
    ((clearPied s f).frame f).map (·.pied) = some false := by
  unfold clearPied
  rw [hframe]
  simp [State.frame]

theorem clearPied_at_ses (s : State) (f k : Nat) : (clearPied s f).ses? k = s.ses? k := by
  unfold clearPied
  split <;> rfl

theorem unpie_eq (s : State) (i : Nat) (e : Session) (c : Copy) (f : Nat) :
    unpie s i e c f = sesNoticeFree (clearPied (pageRestored s e c f) f) i 5 0x8020 := rfl

theorem piedPageRecovery_restores {f i : Nat} {e : Session} {c : Copy} {y : Frame} (hframe : s.frame f = some y)
    (hpied : y.pied = true) (howner : frameOwner s f = some (i, e)) (hcopy : e.p3 = some c) (hpresent : copyPresent s c = true)
    (hclean : frameDirty e f = false) : Ends (.piedPageRecovery f true) s fun t =>
      (t.frame f).map (·.pied) = some false ∧ (t.ses? i).map (·.state) = (s.ses? i).map (·.state) := by
  have heq : recoverPage s f true = unpie s i e c f := by
    unfold recoverPage
    rw [hframe]
    dsimp only
    rw [if_neg (by simp [hpied]), howner]
    dsimp only
    rw [hcopy]
    simp [hpresent, hclean]
  refine ends_of_eq (u := recoverPage s f true) rfl (heq.trans (unpie_eq s i e c f)) ⟨?_, ?_⟩
  · rw [sesNoticeFree, sesNotice_frame, draw_at_frame]
    exact clearPied_frame (by rw [State.frame, pageRestored_ses]; exact hframe)
  · rw [sesNoticeFree, sesNotice_state, draw_at_ses, clearPied_at_ses, ses?_of_ses (pageRestored_ses s e c f)]

theorem piedPageRecovery_unchanged {f : Nat} (h : ∀ y, s.frame f = some y → y.pied = false) (good : Bool) :
    exec (.piedPageRecovery f good) s = .next s := by
  refine exec_unchanged (u := recoverPage s f good) rfl ?_
  unfold recoverPage
  cases hframe : s.frame f with
  | none => rfl
  | some y => exact if_pos (h y hframe)

/-! ### The statement -/

/-- Settles O48: each event of a bay's flash, link and journal by its bound, and by what it finds. -/
theorem flashLinksAndJournalsGoOn : Obligations.FlashLinksAndJournalsGoOn := by
  unfold Obligations.FlashLinksAndJournalsGoOn
  intro s b hb hs
  exact ⟨fun src hgo hpf => crtCompact_waits hgo hpf hs, fun src => crtCompact_busy, compaction_starts hs, compaction_unchanged,
    fun j0 => compactionSuperblockDurable_ends hs, compactionSuperblockDurable_unchanged,
    fun ch die d => programSuspend_suspends, fun ch die => programSuspend_unchanged,
    fun tag pct bs o h4 h8 hop hwf => ⟨pageReadDone_decoded h4 h8 hop hwf, pageReadDone_retries h4 h8 hop hs,
      pageReadDone_uncorrectable h4 h8 hop hs hb hwf⟩,
    fun n er h4 h8 => programOrEraseFailure_ends hs h4 h8 n er,
    fun ch die => ⟨flashDieTimeout_unchanged, fun tag o r h => ⟨flashDieTimeout_repeats h, flashDieTimeout_retires h⟩⟩,
    fun f h4 h8 => ⟨flitReceived_bad h4 h8, flitReceived_good h4 h8⟩,
    flitResendTimeout_resends hs hb, flitResendTimeout_unchanged,
    fun n h4 h8 hresends => ⟨retrain_resumes hs hb h4 h8 hresends, retrain_fails hs hb hresends⟩, fun n h => retrain_unchanged h n,
    fun n m pct hjournals => ⟨readDisturbRelocation_relocates hjournals, readDisturbRelocation_unchanged,
      fun retried => patrolScan_ends hjournals retried pct, wearLevelling_moves hjournals⟩,
    collector_ends, collector_unchanged, journalPageClose_closes, journalPageClose_unchanged,
    fun p r => journalPageProgrammed_durable hs, journalPageProgrammed_unchanged,
    fun f i e c y => piedPageRecovery_restores, fun f good h => piedPageRecovery_unchanged h good⟩

end Sys2Proof.Machine
end

section
/-! Power failure and the input voltage (R590, R591, 10 R397, R398, 15 R573): what an event and a fault leave above the registers of
the event channel, and the seal. -/

namespace Sys2Proof.Machine

variable {s t : State}

/-! ### Registers above the event channel -/

/-- The registers of supplies and heat, and all above them, are not an event's. -/
theorem edge_reg_above {n : Nat} (hn : n < 0x1000) {o : Nat} (h : 0xC00000 ≤ o) : (edge s n).reg o = s.reg o := by
  have hsrc : o ≠ (EVC_SRC_LATCHED n).off := by dsimp only; omega
  have hstatus : o ≠ EVC_STATUS_LATCHED.off := by dsimp only; omega
  have hgroup : o ≠ (EVC_GROUP_PENDING (s.fld (EVC_SRC_GROUP n))).off := by
    have := fld_lt s (EVC_SRC_GROUP n)
    dsimp only at this ⊢
    omega
  unfold edge
  split
  · rw [leaveD1_reg _ (by omega)]
    dsimp only
    split_ifs
    · exact reg_incSat_other s 1 hsrc
    · rw [reg_incSat_other _ _ hgroup, reg_incSat_other _ _ hstatus, reg_setFld_other _ _ hsrc]
    · rw [reg_incSat_other _ _ hstatus, reg_setFld_other _ _ hsrc]
  · rfl

theorem collector_le_one (s : State) (n : Nat) : collector s n ≤ 1 := by
  have hhub := fld_lt s GLB_STATE_ACTIVE_HUB
  unfold collector
  dsimp only at hhub ⊢
  split_ifs <;> omega

/-- A fault writes no register above the FLT_ registers. -/
theorem fault_reg_above (s : State) (n k c : Nat) (a : Word) (m x : Nat) {o : Nat} (h : 0xB00000 ≤ o) :
    (fault s n k c a m x).reg o = s.reg o := by
  by_cases hsrc : srcAssigned n = true
  · have hlost : o ≠ (FLT_LOST_LOST (collector s n)).off := by
      have := collector_le_one s n
      dsimp only
      omega
    have hcount : o ≠ (FLT_SRC_COUNT n).off := by
      simp only [srcAssigned, Bool.or_eq_true, Bool.and_eq_true, decide_eq_true_eq] at hsrc
      dsimp only
      omega
    unfold fault
    rw [if_pos hsrc]
    split
    · exact reg_incSat_other _ _ hlost
    · dsimp only
      split
      · rw [reg_updFlt, reg_incSat_other _ _ hcount, reg_updFlt]
      · rfl
  · rw [fault, if_neg hsrc]

theorem fault_fld_above (s : State) (n k c : Nat) (a : Word) (m x : Nat) {g : Field} (h : 0xB00000 ≤ g.off) :
    (fault s n k c a m x).fld g = s.fld g := fld_of_reg (fault_reg_above s n k c a m x h)

/-! ### Phases -/

theorem Canonical.setPhase (hs : Canonical s) (p : Nat) : Canonical (setPhase s p) := hs.of_kept (setPhase_kept s p)

theorem setPhase_phase (hs : Canonical s) {p : Nat} (hp : p < 16) : (setPhase s p).fld GLB_STATE_START_PHASE = p :=
  fld_setFld_of_lt (s := { s with isl := { s.isl with phaseAt := s.now } }) ⟨hs.regs, hs.mem, hs.hbm⟩ (by decide) hp

theorem setPhase_fld_apart (hs : Canonical s) (p : Nat) {g : Field} (h : FieldsApart GLB_STATE_START_PHASE g) :
    (setPhase s p).fld g = s.fld g :=
  fld_setFld_apart (s := { s with isl := { s.isl with phaseAt := s.now } }) ⟨hs.regs, hs.mem, hs.hbm⟩ p (by decide) h

@[simp] theorem setPhase_pins (s : State) (p : Nat) : (setPhase s p).pins = s.pins := rfl
@[simp] theorem setPhase_flt (s : State) (p : Nat) : (setPhase s p).flt = s.flt := rfl

/-! ### The seal -/

theorem policeDone_upd (s : State) (id : Option Nat) : ∃ k, policeDone s id = { s with mkr := k } := by
  unfold policeDone
  split
  · exact ⟨_, rfl⟩
  · split
    · exact ⟨_, rfl⟩
    · split <;> exact ⟨_, rfl⟩

/-- A park that stops gives back its place and its count, and writes its session. -/
theorem stopPark_upd (s : State) (i : Nat) : ∃ k f e, stopPark s i = { s with mkr := k, fab := f, ses := e } := by
  unfold stopPark
  cases hi : s.ses? i with
  | none => exact ⟨_, _, _, rfl⟩
  | some e =>
    cases hpark : e.park with
    | none => dsimp only; rw [hpark]; exact ⟨_, _, _, rfl⟩
    | some op =>
      dsimp only
      rw [hpark]
      dsimp only
      by_cases hj : op.target = .p3 ∧ op.journal ≠ 0
      · rw [if_pos hj]; exact ⟨_, _, _, rfl⟩
      · obtain ⟨k, hk⟩ := policeDone_upd s op.policed
        rw [if_neg hj, abortPark, hi]
        dsimp only
        rw [hpark]
        dsimp only
        rw [if_neg hj, hk]
        split
        · obtain ⟨f, hf⟩ := send_upd { s with mkr := k } (.releaseP2 op.place i)
          rw [hf]; exact ⟨_, _, _, rfl⟩
        · exact ⟨_, _, _, rfl⟩

theorem closePage_upd (s : State) (b : Nat) : ∃ c, closePage s b = { s with crt := c } := by
  unfold closePage
  dsimp only
  split <;> exact ⟨_, rfl⟩

theorem journalSubmit_upd (s : State) (b : Nat) (r : DirRec) (p : HeadPage) : ∃ c, journalSubmit s b r p = { s with crt := c } := by
  unfold journalSubmit
  dsimp only
  split
  · obtain ⟨c, hc⟩ := closePage_upd (s.setBay b _) b
    exact ⟨c, hc⟩
  · exact ⟨_, rfl⟩

theorem trySeal_upd (s : State) (b : Nat) : ∃ r, trySeal s b = { s with regs := r } := by
  unfold trySeal
  dsimp only
  split
  · exact ⟨_, rfl⟩
  · split_ifs <;> exact ⟨_, rfl⟩

/-- The seal of a bay writes its registers and the cartridges. -/
theorem sealBay_upd (s : State) (b : Nat) : ∃ r c, sealBay s b = { s with regs := r, crt := c } := by
  unfold sealBay
  dsimp only
  split_ifs
  · obtain ⟨r, hr⟩ := trySeal_upd (s.setBay b { s.bay b with sealing := some s.now }) b
    exact ⟨r, _, hr⟩
  · obtain ⟨c, hc⟩ := journalSubmit_upd (s.setBay b { s.bay b with sealing := some s.now }) b
      { rec0 with typ := 4, jstart := s.sec.startCount % 2 ^ 24, jtime := s.now } ⟨false, 0, 0⟩
    obtain ⟨c', hc'⟩ := closePage_upd _ b
    obtain ⟨r, hr⟩ := trySeal_upd _ b
    exact ⟨r, c', by rw [hr, hc']; exact congrArg (fun u : State => { u with regs := r, crt := c' }) hc⟩
  · exact ⟨_, _, rfl⟩

/-- The parks stopped and the bays sealed. -/
def parksAndBaysSealed (s : State) : State :=
  ([0, 1, 2, 3] : List Nat).foldl sealBay ((s.ses.entries.map (·.1)).foldl stopPark s)

theorem Canonical.parksAndBaysSealed (hs : Canonical s) : Canonical (parksAndBaysSealed s) :=
  hs.of_kept fun h => kept_foldl (fun u b hu => sealBay_kept u b hu) _ (kept_foldl (fun u i hu => stopPark_kept u i hu) _ h)

/-- A view that the writes of a stopped park and of a sealed bay leave alone. -/
theorem parksAndBaysSealed_view {α : Type} (view : State → α)
    (hpark : ∀ (u : State) k f e, view { u with mkr := k, fab := f, ses := e } = view u)
    (hbay : ∀ (u : State) r c, view { u with regs := r, crt := c } = view u) : view (parksAndBaysSealed s) = view s :=
  (foldl_frame view (fun u b => by obtain ⟨r, c, h⟩ := sealBay_upd u b; rw [h]; exact hbay ..) _ _).trans
    (foldl_frame view (fun u i => by obtain ⟨k, f, e, h⟩ := stopPark_upd u i; rw [h]; exact hpark ..) _ _)

@[simp] theorem parksAndBaysSealed_pins : (parksAndBaysSealed s).pins = s.pins :=
  parksAndBaysSealed_view State.pins (fun _ _ _ _ => rfl) fun _ _ _ => rfl

@[simp] theorem parksAndBaysSealed_flt : (parksAndBaysSealed s).flt = s.flt :=
  parksAndBaysSealed_view State.flt (fun _ _ _ _ => rfl) fun _ _ _ => rfl

/-- D3, not READY, START_PHASE 0x8. -/
def Sealed (t : State) : Prop :=
  t.fld GLB_STATE_START_PHASE = 8 ∧ t.fld GLB_STATE_READY = 0 ∧ t.fld GLB_STATE_DEV_STATE = 3

/-- A device that runs: out of reset, in a phase of start-up or in service. -/
def Running (s : State) : Prop :=
  s.awake = true ∧ 1 ≤ s.fld GLB_STATE_START_PHASE ∧ s.fld GLB_STATE_START_PHASE ≤ 7

theorem sealDevice_of_running (h : Running s) :
    sealDevice s = setPhase (((parksAndBaysSealed s).setFld GLB_STATE_DEV_STATE 3).setFld GLB_STATE_READY 0) 8 := if_pos h

theorem sealDevice_of_not_running (h : ¬ Running s) : sealDevice s = s := if_neg h

theorem sealDevice_seals (hs : Canonical s) (h : Running s) : Sealed (sealDevice s) := by
  have hd3 := hs.parksAndBaysSealed.setFld GLB_STATE_DEV_STATE 3
  have hready := hd3.setFld GLB_STATE_READY 0
  rw [sealDevice_of_running h]
  refine ⟨setPhase_phase hready (by decide), ?_, ?_⟩
  · rw [setPhase_fld_apart hready _ (.inr (by decide))]
    exact fld_setFld_of_lt hd3 (by decide) (by decide)
  · rw [setPhase_fld_apart hready _ (.inr (by decide)), fld_setFld_apart hd3 _ (by decide) (.inr (by decide))]
    exact fld_setFld_of_lt hs.parksAndBaysSealed (by decide) (by decide)

@[simp] theorem sealDevice_pins (s : State) : (sealDevice s).pins = s.pins := by
  by_cases h : Running s
  · rw [sealDevice_of_running h]; simp
  · rw [sealDevice_of_not_running h]

@[simp] theorem sealDevice_flt (s : State) : (sealDevice s).flt = s.flt := by
  by_cases h : Running s
  · rw [sealDevice_of_running h]; simp
  · rw [sealDevice_of_not_running h]

end Sys2Proof.Machine
end

section
/-! The commands of the supplies (R590, R591, 10 R397, 15 R573). -/

namespace Sys2Proof.Machine

variable {s t : State}

theorem hubUnit_assigned (s : State) {u : Nat} (hu : u < 16) : srcAssigned (hubUnit s u) = true := by
  have hhub := fld_lt s GLB_STATE_ACTIVE_HUB
  have hrange : 0xB40 ≤ hubUnit s u ∧ hubUnit s u ≤ 0xB5F := by
    unfold hubUnit
    dsimp only at hhub ⊢
    omega
  simp [srcAssigned, hrange]

theorem running_congr (hawake : t.awake = s.awake) (hphase : t.fld GLB_STATE_START_PHASE = s.fld GLB_STATE_START_PHASE) :
    Running t ↔ Running s := by rw [Running, Running, hawake, hphase]

/-- The message a fault left in a latch that was free: its kind and its status. -/
def Reports (s t : State) (n k st : Nat) : Prop :=
  mget s.flt.latch n = none → ∃ m, mget t.flt.latch n = some m ∧ m.kind = k ∧ m.status = st

theorem fault_makes_report {u : State} (n k c : Nat) (hsrc : srcAssigned n = true) (hu : u.flt = s.flt)
    (ht : t.flt = (fault u n k c 0).flt) : Reports s t n k c := by
  intro hfree
  rw [ht]
  exact fault_reports u n k c 0 _ _ hsrc (hu ▸ hfree)

/-! ### PWRFAIL_N asserts -/

/-- The event of a power failure, before the seal. -/
def powerFailing (s : State) : State := edge (({ s with pins := { s.pins with pwrfailN := false } }).setFld PWR_RAILS_PWRFAIL 1) 0x400

theorem powerFails_of_deasserted (h : s.pins.pwrfailN = true) : powerFails s = sealDevice (powerFailing s) := if_pos h

theorem canonical_pins (hs : Canonical s) (p : PinBlock) : Canonical { s with pins := p } := ⟨hs.regs, hs.mem, hs.hbm⟩

theorem Canonical.powerFailing (hs : Canonical s) : Canonical (powerFailing s) := ((canonical_pins hs _).setFld _ _).edge _

theorem powerFailing_phase (hs : Canonical s) : (powerFailing s).fld GLB_STATE_START_PHASE = s.fld GLB_STATE_START_PHASE := by
  rw [powerFailing, edge_fld_below ((canonical_pins hs _).setFld _ _) _ (by decide) (.inr (by decide)),
    fld_setFld_apart (canonical_pins hs _) _ (by decide) (.inl (by decide))]
  rfl

@[simp] theorem powerFailing_pins (s : State) : (powerFailing s).pins = { s.pins with pwrfailN := false } := edge_pins _ _

theorem powerFailing_running (hs : Canonical s) : Running (powerFailing s) ↔ Running s :=
  running_congr (by rw [State.awake, powerFailing_pins]; rfl) (powerFailing_phase hs)

theorem powerFailing_pwrfail (hs : Canonical s) : (powerFailing s).flag PWR_RAILS_PWRFAIL = true := by
  rw [powerFailing, flag_of_fld (fld_of_reg (edge_reg_above (by decide) (by decide)))]
  exact flag_setFld_one (canonical_pins hs _) (by decide) (by decide)

/-! ### Input voltage -/

/-- The fault of a low input voltage, before the seal. -/
def inputFailing (s : State) (mv : Nat) : State :=
  let s := s.setFld PWR_RAILS_VIN_MV mv
  fault (edge (s.setFld PWR_RAILS_VIN_LOW 1) 0x400) (hubUnit s 14) 0x10 0xC003 0

theorem inputLow_sealing {mv : Nat} (hawake : s.awake = true) (hlo : 40000 ≤ mv) (hhi : mv < 44000) (hn : s.pins.pwrfailN = true) :
    inputLow s mv = sealDevice (inputFailing s mv) := by
  unfold inputLow
  rw [if_pos ⟨hawake, hlo, hhi⟩]
  exact if_pos hn

theorem inputLow_failed {mv : Nat} (hawake : s.awake = true) (hlo : 40000 ≤ mv) (hhi : mv < 44000) (hn : s.pins.pwrfailN = false) :
    inputLow s mv = s.setFld PWR_RAILS_VIN_MV mv := by
  unfold inputLow
  rw [if_pos ⟨hawake, hlo, hhi⟩]
  exact if_neg (by simp [hn])

theorem setRails_phase (hs : Canonical s) (lo w v : Nat) (hw : lo + w ≤ 64) :
    (s.setFld ⟨0xD00020, lo, w⟩ v).fld GLB_STATE_START_PHASE = s.fld GLB_STATE_START_PHASE :=
  fld_setFld_apart hs v hw (.inl (by dsimp only; omega))

theorem Canonical.inputFailing (hs : Canonical s) (mv : Nat) : Canonical (inputFailing s mv) :=
  (((hs.setFld _ _).setFld _ _).edge _).fault ..

theorem inputFailing_phase (hs : Canonical s) (mv : Nat) :
    (inputFailing s mv).fld GLB_STATE_START_PHASE = s.fld GLB_STATE_START_PHASE := by
  have hmv := hs.setFld PWR_RAILS_VIN_MV mv
  unfold inputFailing
  dsimp only
  rw [fault_fld _ _ _ _ _ _ _ (by decide), edge_fld_below (hmv.setFld _ _) _ (by decide) (.inr (by decide)),
    setRails_phase hmv _ _ _ (by decide), setRails_phase hs _ _ _ (by decide)]

@[simp] theorem inputFailing_pins (s : State) (mv : Nat) : (inputFailing s mv).pins = s.pins :=
  (fault_pins ..).trans (edge_pins _ _)

theorem inputFailing_running (hs : Canonical s) (mv : Nat) : Running (inputFailing s mv) ↔ Running s :=
  running_congr (by rw [State.awake, inputFailing_pins]; rfl) (inputFailing_phase hs mv)

/-- The unit of the hub that serves is read the same after the input voltage is recorded. -/
theorem hubUnit_setRails (hs : Canonical s) (lo w v u : Nat) (hw : lo + w ≤ 64) :
    hubUnit (s.setFld ⟨0xD00020, lo, w⟩ v) u = hubUnit s u := by
  rw [hubUnit, hubUnit, fld_setFld_apart hs v hw (.inl (by dsimp only; omega))]

theorem inputFailing_reports (hs : Canonical s) (mv : Nat) :
    Reports s (sealDevice (inputFailing s mv)) (hubUnit s 14) 0x10 0xC003 := by
  refine fault_makes_report (u := edge ((s.setFld PWR_RAILS_VIN_MV mv).setFld PWR_RAILS_VIN_LOW 1) 0x400) _ _ _
    (hubUnit_assigned s (by decide)) (by simp) ?_
  rw [sealDevice_flt, ← hubUnit_setRails hs 0 16 mv 14 (by decide)]
  rfl

/-- The input voltage recorded, with the warning. -/
def inputHighSeen (s : State) (mv : Nat) : State := (s.setFld PWR_RAILS_VIN_MV mv).setFld PWR_RAILS_VIN_HIGH 1

theorem inputHigh_of_due {mv : Nat} (hawake : s.awake = true) (hlo : 54000 < mv) (hhi : mv ≤ 57000)
    (hdue : ∀ t0, s.pins.vinMsgAt = some t0 → t0 + 10 ^ 9 ≤ s.clk.now) :
    inputHigh s mv = fault { inputHighSeen s mv with pins := { s.pins with vinMsgAt := some s.clk.now } }
      (hubUnit (inputHighSeen s mv) 14) 0x0B 0xC003 0 := by
  unfold inputHigh
  rw [if_pos ⟨hawake, hlo, hhi⟩]
  refine if_pos ?_
  dsimp only [setFld_pins]
  cases hat : s.pins.vinMsgAt with
  | none => rfl
  | some t0 => exact decide_eq_true (hdue t0 hat)

theorem inputHigh_of_early {mv t0 : Nat} (hawake : s.awake = true) (hlo : 54000 < mv) (hhi : mv ≤ 57000)
    (hat : s.pins.vinMsgAt = some t0) (hearly : s.clk.now < t0 + 10 ^ 9) : inputHigh s mv = inputHighSeen s mv := by
  unfold inputHigh
  rw [if_pos ⟨hawake, hlo, hhi⟩]
  refine if_neg ?_
  dsimp only [setFld_pins]
  rw [hat]
  exact fun h => absurd (of_decide_eq_true h) (by change ¬ t0 + 10 ^ 9 ≤ s.clk.now; omega)

theorem inputHighSeen_shows (hs : Canonical s) {mv : Nat} (hmv : mv < 2 ^ 16) :
    (inputHighSeen s mv).fld PWR_RAILS_VIN_MV = mv ∧ (inputHighSeen s mv).flag PWR_RAILS_VIN_HIGH = true :=
  have hmv' := hs.setFld PWR_RAILS_VIN_MV mv
  ⟨(fld_setFld_apart hmv' _ (by decide) (.inr (by decide))).trans (fld_setFld_of_lt hs (by decide) hmv),
    flag_setFld_one hmv' (by decide) (by decide)⟩

theorem hubUnit_inputHighSeen (hs : Canonical s) (mv u : Nat) : hubUnit (inputHighSeen s mv) u = hubUnit s u :=
  (hubUnit_setRails (hs.setFld _ _) 33 1 1 u (by decide)).trans (hubUnit_setRails hs 0 16 mv u (by decide))

/-! ### The clauses -/

theorem pwrfailNAsserted_seals (hs : Canonical s) (h : s.pins.pwrfailN = true) (hrun : Running s) :
    Ends .pwrfailNAsserted s fun t => Sealed t ∧ t.pins.pwrfailN = false :=
  ends_of_eq (u := powerFails s) rfl (powerFails_of_deasserted h)
    ⟨sealDevice_seals hs.powerFailing ((powerFailing_running hs).2 hrun), by simp⟩

theorem pwrfailNAsserted_stopped (hs : Canonical s) (h : s.pins.pwrfailN = true) (hrun : ¬ Running s) :
    Ends .pwrfailNAsserted s fun t => t.pins.pwrfailN = false ∧ t.flag PWR_RAILS_PWRFAIL = true ∧
      t.fld GLB_STATE_START_PHASE = s.fld GLB_STATE_START_PHASE :=
  ends_of_eq (u := powerFails s) rfl
    ((powerFails_of_deasserted h).trans (sealDevice_of_not_running (mt (powerFailing_running hs).1 hrun)))
    ⟨by simp, powerFailing_pwrfail hs, powerFailing_phase hs⟩

theorem standbyRailUp_starts (hs : Canonical s) {v : Nat} (hlo : 3135 ≤ v) (hhi : v ≤ 3465) :
    Ends (.standbyRailUp v) s fun t => t.pins.standby = true ∧ t.fld PWR_RAILS_VSB_MV = v :=
  ends_of_eq (u := standbyUp s v) rfl (if_pos ⟨hlo, hhi⟩)
    ⟨rfl, fld_setFld_of_lt (canonical_pins hs _) (by decide) (by dsimp only; omega)⟩

theorem vinLow_seals (hs : Canonical s) {v : Nat} (hawake : s.awake = true) (hlo : 40000 ≤ v) (hhi : v < 44000)
    (hn : s.pins.pwrfailN = true) (hrun : Running s) :
    Ends (.vinLow v) s fun t => Sealed t ∧ Reports s t (hubUnit s 14) 0x10 0xC003 :=
  ends_of_eq (u := inputLow s v) rfl (inputLow_sealing hawake hlo hhi hn)
    ⟨sealDevice_seals (hs.inputFailing v) ((inputFailing_running hs v).2 hrun), inputFailing_reports hs v⟩

theorem vinLow_failed (hs : Canonical s) {v : Nat} (hawake : s.awake = true) (hlo : 40000 ≤ v) (hhi : v < 44000)
    (hn : s.pins.pwrfailN = false) :
    Ends (.vinLow v) s fun t => t.fld PWR_RAILS_VIN_MV = v ∧ t.flt = s.flt ∧
      t.fld GLB_STATE_START_PHASE = s.fld GLB_STATE_START_PHASE :=
  ends_of_eq (u := inputLow s v) rfl (inputLow_failed hawake hlo hhi hn)
    ⟨fld_setFld_of_lt hs (by decide) (by dsimp only; omega), rfl, setRails_phase hs _ _ _ (by decide)⟩

theorem vinHighWarning_reports (hs : Canonical s) {v : Nat} (hawake : s.awake = true) (hlo : 54000 < v) (hhi : v ≤ 57000)
    (hdue : ∀ t0, s.pins.vinMsgAt = some t0 → t0 + 10 ^ 9 ≤ s.clk.now) :
    Ends (.vinHighWarning v) s fun t => t.fld PWR_RAILS_VIN_MV = v ∧ t.flag PWR_RAILS_VIN_HIGH = true ∧
      t.pins.vinMsgAt = some s.clk.now ∧ Reports s t (hubUnit s 14) 0x0B 0xC003 := by
  obtain ⟨hmv, hhigh⟩ := inputHighSeen_shows hs (mv := v) (by omega)
  refine ends_of_eq (u := inputHigh s v) rfl (inputHigh_of_due hawake hlo hhi hdue) ⟨?_, ?_, ?_, ?_⟩
  · rw [fault_fld_above _ _ _ _ _ _ _ (by decide)]; exact hmv
  · rw [flag_of_fld (fault_fld_above _ _ _ _ _ _ _ (by decide))]; exact hhigh
  · rw [fault_pins]
  · rw [hubUnit_inputHighSeen hs]
    exact fault_makes_report (u := { inputHighSeen s v with pins := { s.pins with vinMsgAt := some s.clk.now } }) _ _ _
      (hubUnit_assigned s (by decide)) rfl rfl

theorem vinHighWarning_early (hs : Canonical s) {v t0 : Nat} (hawake : s.awake = true) (hlo : 54000 < v) (hhi : v ≤ 57000)
    (hat : s.pins.vinMsgAt = some t0) (hearly : s.clk.now < t0 + 10 ^ 9) :
    Ends (.vinHighWarning v) s fun t => t.fld PWR_RAILS_VIN_MV = v ∧ t.flag PWR_RAILS_VIN_HIGH = true ∧ t.flt = s.flt :=
  have ⟨hmv, hhigh⟩ := inputHighSeen_shows hs (mv := v) (by omega)
  ends_of_eq (u := inputHigh s v) rfl (inputHigh_of_early hawake hlo hhi hat hearly) ⟨hmv, hhigh, rfl⟩

end Sys2Proof.Machine
end

section
/-! Heat (R595, R597). -/

namespace Sys2Proof.Machine

variable {s t : State} {tj : Nat}

theorem heatSource_assigned (h : Nat) : srcAssigned (0xB4F + 16 * (h % 2)) = true := by
  have hrange : 0xB40 ≤ 0xB4F + 16 * (h % 2) ∧ 0xB4F + 16 * (h % 2) ≤ 0xB5F := by omega
  simp [srcAssigned, hrange]

theorem heatFault_fld (s : State) (h : Nat) {g : Field} (hg : 0xB00000 ≤ g.off) : (heatFault s h).fld g = s.fld g :=
  fault_fld_above _ _ _ _ _ _ _ hg

theorem heatFault_reports {u : State} (h : Nat) (hu : u.flt = s.flt) :
    Reports s (heatFault u h) (0xB4F + 16 * (h % 2)) 0x0B 0xC004 :=
  fault_makes_report _ _ _ (heatSource_assigned h) hu rfl

theorem min_tj_lt (tj : Nat) : min tj 255 < 2 ^ PWR_THERM_TJ_MAX_C.w := by dsimp only; omega

/-! ### 125 °C -/

/-- The trip recorded, before the seal. -/
def tripSeen (s : State) (tj : Nat) : State :=
  (({ s with pins := { s.pins with thermtripN := false } }).setFld PWR_THERM_TRIPPED 1).setFld PWR_THERM_TJ_MAX_C (min tj 255)

theorem tripped_of_hot (h : 125 ≤ tj) : tripped s tj = sealDevice (tripSeen s tj) := if_pos h

theorem Canonical.tripSeen (hs : Canonical s) (tj : Nat) : Canonical (tripSeen s tj) := ((canonical_pins hs _).setFld _ _).setFld _ _

theorem tripSeen_running (hs : Canonical s) (tj : Nat) : Running (tripSeen s tj) ↔ Running s := by
  refine running_congr rfl ?_
  rw [tripSeen, fld_setFld_apart ((canonical_pins hs _).setFld _ _) _ (by decide) (.inl (by decide)),
    fld_setFld_apart (canonical_pins hs _) _ (by decide) (.inl (by decide))]
  rfl

theorem thermtrip_seals (hs : Canonical s) (h : 125 ≤ tj) :
    Ends (.thermtrip tj) s fun t => t.pins.thermtripN = false ∧ (Running s → Sealed t) :=
  ends_of_eq (u := tripped s tj) rfl (tripped_of_hot h)
    ⟨congrArg PinBlock.thermtripN (sealDevice_pins (tripSeen s tj)),
      fun hrun => sealDevice_seals (hs.tripSeen tj) ((tripSeen_running hs tj).2 hrun)⟩

/-! ### 100 °C -/

/-- The first step of the limits recorded. -/
def firstStep (s : State) (tj : Nat) : State :=
  { s.setFld PWR_THERM_TJ_MAX_C (min tj 255) with
    gal := { s.gal with limited := 1 }, pins := { s.pins with hotAt := some s.clk.now } }

theorem firstStep_regs (s : State) (tj : Nat) : (firstStep s tj).regs = (s.setFld PWR_THERM_TJ_MAX_C (min tj 255)).regs := rfl

theorem Canonical.firstStep (hs : Canonical s) (tj : Nat) : Canonical (firstStep s tj) :=
  ⟨(hs.setFld PWR_THERM_TJ_MAX_C (min tj 255)).regs, hs.mem, hs.hbm⟩

/-- The first step of the limits, before its message. -/
def throttled (s : State) (tj : Nat) : State := (firstStep s tj).setFld PWR_THERM_THROTTLED 1

theorem throttle_of_unlimited {h : Nat} (hawake : s.awake = true) (hhot : 100 ≤ tj) (hfree : s.gal.limited = 0) :
    throttle s tj h = heatFault (throttled s tj) h := by
  unfold throttle
  rw [if_pos ⟨hawake, hhot⟩]
  exact if_pos hfree

theorem throttle_of_limited {h : Nat} (hawake : s.awake = true) (hhot : 100 ≤ tj) (hlim : s.gal.limited ≠ 0) :
    throttle s tj h = s.setFld PWR_THERM_TJ_MAX_C (min tj 255) := by
  unfold throttle
  rw [if_pos ⟨hawake, hhot⟩]
  exact if_neg hlim

theorem throttled_shows (hs : Canonical s) (tj : Nat) :
    (throttled s tj).fld PWR_THERM_TJ_MAX_C = min tj 255 ∧ (throttled s tj).flag PWR_THERM_THROTTLED = true := by
  refine ⟨?_, flag_setFld_one (hs.firstStep tj) (by decide) (by decide)⟩
  rw [throttled, fld_setFld_apart (hs.firstStep tj) _ (by decide) (.inr (by decide)), fld_of_regs (firstStep_regs s tj),
    fld_setFld_of_lt hs (by decide) (min_tj_lt tj)]

theorem thermalThrottle_limits (hs : Canonical s) (h : Nat) (hawake : s.awake = true) (hhot : 100 ≤ tj) (hfree : s.gal.limited = 0) :
    Ends (.thermalThrottle tj h) s fun t => t.gal.limited = 1 ∧ t.pins.hotAt = some s.clk.now ∧
      t.fld PWR_THERM_TJ_MAX_C = min tj 255 ∧ t.flag PWR_THERM_THROTTLED = true ∧
      Reports s t (0xB4F + 16 * (h % 2)) 0x0B 0xC004 := by
  obtain ⟨htj, hflag⟩ := throttled_shows hs tj
  refine ends_of_eq (u := throttle s tj h) rfl (throttle_of_unlimited hawake hhot hfree) ⟨?_, ?_, ?_, ?_, heatFault_reports h rfl⟩
  · rw [heatFault, fault_gal]; rfl
  · rw [heatFault, fault_pins]; rfl
  · rw [heatFault_fld _ _ (by decide), htj]
  · rw [flag_of_fld (heatFault_fld _ _ (by decide)), hflag]

theorem thermalThrottle_limited (hs : Canonical s) (h : Nat) (hawake : s.awake = true) (hhot : 100 ≤ tj) (hlim : s.gal.limited ≠ 0) :
    Ends (.thermalThrottle tj h) s fun t => t.fld PWR_THERM_TJ_MAX_C = min tj 255 ∧ t.gal = s.gal ∧ t.flt = s.flt :=
  ends_of_eq (u := throttle s tj h) rfl (throttle_of_limited hawake hhot hlim)
    ⟨fld_setFld_of_lt hs (by decide) (min_tj_lt tj), rfl, rfl⟩

/-! ### 103 °C for 100 ms -/

/-- The registers of the second step. -/
def secondStep (s : State) (tj : Nat) : State := (s.setFld PWR_THERM_TJ_MAX_C (min tj 255)).setFld PWR_THERM_ALL_LIMITED 1

/-- The second step of the limits, before its message. -/
def allLimited (s : State) (tj : Nat) : State :=
  { secondStep s tj with gal := { s.gal with limited := 2 }, mkr := { s.mkr with due := true } }

theorem allLimited_regs (s : State) (tj : Nat) : (allLimited s tj).regs = (secondStep s tj).regs := rfl

theorem allLimited_shows (hs : Canonical s) (tj : Nat) : (allLimited s tj).flag PWR_THERM_ALL_LIMITED = true := by
  rw [flag_of_fld (fld_of_regs (allLimited_regs s tj) _)]
  exact flag_setFld_one (hs.setFld _ _) (by decide) (by decide)

theorem limitAll_of_hot {t0 h : Nat} (hat : s.pins.hotAt = some t0) (hawake : s.awake = true) (hhot : 103 < tj)
    (hlong : t0 + 10 ^ 8 ≤ s.clk.now) (hlim : s.gal.limited = 1) : limitAll s tj h = heatFault (allLimited s tj) h := by
  unfold limitAll
  rw [hat]
  exact if_pos ⟨hawake, hhot, hlong, hlim⟩

theorem limitAll_of_not {h : Nat} (hno : s.pins.hotAt = none ∨ s.awake = false ∨ tj ≤ 103 ∨ s.gal.limited ≠ 1 ∨
    ∃ t0, s.pins.hotAt = some t0 ∧ s.clk.now < t0 + 10 ^ 8) : limitAll s tj h = s := by
  unfold limitAll
  cases hat : s.pins.hotAt with
  | none => rfl
  | some t0 =>
    refine if_neg fun ⟨hawake, hhot, hlong, hlim⟩ => ?_
    rcases hno with hnone | hasleep | hcool | hfree | ⟨t1, ht1, hearly⟩
    · rw [hat] at hnone; cases hnone
    · simp [hasleep] at hawake
    · omega
    · exact hfree hlim
    · obtain rfl : t0 = t1 := Option.some.inj (hat.symm.trans ht1)
      exact absurd hlong (Nat.not_le.2 hearly)

theorem thermalLimitAll_limits (hs : Canonical s) {t0 : Nat} (h : Nat) (hat : s.pins.hotAt = some t0) (hawake : s.awake = true)
    (hhot : 103 < tj) (hlong : t0 + 10 ^ 8 ≤ s.clk.now) (hlim : s.gal.limited = 1) :
    Ends (.thermalLimitAll tj h) s fun t => t.gal.limited = 2 ∧ t.mkr.due = true ∧ t.flag PWR_THERM_ALL_LIMITED = true ∧
      t.pins.hotAt = some t0 ∧ Reports s t (0xB4F + 16 * (h % 2)) 0x0B 0xC004 := by
  refine ends_of_eq (u := limitAll s tj h) rfl (limitAll_of_hot hat hawake hhot hlong hlim)
    ⟨?_, ?_, ?_, ?_, heatFault_reports h rfl⟩
  · rw [heatFault, fault_gal]; rfl
  · rw [heatFault, fault_mkr]; rfl
  · rw [flag_of_fld (heatFault_fld _ _ (by decide)), allLimited_shows hs]
  · rw [heatFault, fault_pins]; exact hat

/-! ### Below 95 °C -/

/-- The registers of a lift. -/
def liftSeen (s : State) (tj : Nat) : State :=
  ((s.setFld PWR_THERM_TJ_MAX_C tj).setFld PWR_THERM_THROTTLED 0).setFld PWR_THERM_ALL_LIMITED 0

/-- The limits lifted. -/
def lifted (s : State) (tj : Nat) : State :=
  { liftSeen s tj with
    gal := { s.gal with limited := 0 }, pins := { s.pins with hotAt := none }, mkr := { s.mkr with due := true } }

theorem lifted_regs (s : State) (tj : Nat) : (lifted s tj).regs = (liftSeen s tj).regs := rfl

theorem liftLimits_of_cool {t0 : Nat} (hat : s.pins.hotAt = some t0) (hawake : s.awake = true) (hcool : tj < 95)
    (hlong : t0 + 10 ^ 9 ≤ s.clk.now) : liftLimits s tj = lifted s tj := by
  unfold liftLimits
  rw [hat]
  exact if_pos ⟨hawake, hcool, hlong⟩

theorem liftLimits_of_not (hno : s.pins.hotAt = none ∨ s.awake = false ∨ 95 ≤ tj ∨
    ∃ t0, s.pins.hotAt = some t0 ∧ s.clk.now < t0 + 10 ^ 9) : liftLimits s tj = s := by
  unfold liftLimits
  cases hat : s.pins.hotAt with
  | none => rfl
  | some t0 =>
    refine if_neg fun ⟨hawake, hcool, hlong⟩ => ?_
    rcases hno with hnone | hasleep | hhot | ⟨t1, ht1, hearly⟩
    · rw [hat] at hnone; cases hnone
    · simp [hasleep] at hawake
    · omega
    · obtain rfl : t0 = t1 := Option.some.inj (hat.symm.trans ht1)
      exact absurd hlong (Nat.not_le.2 hearly)

theorem liftSeen_shows (hs : Canonical s) (hcool : tj < 95) :
    (liftSeen s tj).fld PWR_THERM_TJ_MAX_C = tj ∧ (liftSeen s tj).flag PWR_THERM_THROTTLED = false ∧
      (liftSeen s tj).flag PWR_THERM_ALL_LIMITED = false := by
  have htj := hs.setFld PWR_THERM_TJ_MAX_C tj
  have hthrottled := htj.setFld PWR_THERM_THROTTLED 0
  refine ⟨?_, ?_, flag_setFld_zero hthrottled (by decide)⟩
  · rw [liftSeen, fld_setFld_apart hthrottled _ (by decide) (.inr (by decide)),
      fld_setFld_apart htj _ (by decide) (.inr (by decide)), fld_setFld_of_lt hs (by decide) (by dsimp only; omega)]
  · rw [liftSeen, flag_of_fld (fld_setFld_apart hthrottled _ (by decide) (.inr (by decide))), flag_setFld_zero htj (by decide)]

theorem thermalLimitLift_lifts (hs : Canonical s) {t0 : Nat} (hat : s.pins.hotAt = some t0) (hawake : s.awake = true)
    (hcool : tj < 95) (hlong : t0 + 10 ^ 9 ≤ s.clk.now) :
    Ends (.thermalLimitLift tj) s fun t => t.gal.limited = 0 ∧ t.pins.hotAt = none ∧ t.mkr.due = true ∧
      t.fld PWR_THERM_TJ_MAX_C = tj ∧ t.flag PWR_THERM_THROTTLED = false ∧ t.flag PWR_THERM_ALL_LIMITED = false := by
  obtain ⟨htj, hthrottled, hall⟩ := liftSeen_shows hs hcool
  have hfld (g : Field) : (lifted s tj).fld g = (liftSeen s tj).fld g := fld_of_regs (lifted_regs s tj) g
  refine ends_of_eq (u := liftLimits s tj) rfl (liftLimits_of_cool hat hawake hcool hlong) ⟨rfl, rfl, rfl, ?_, ?_, ?_⟩
  · rw [hfld, htj]
  · rw [flag_of_fld (hfld _), hthrottled]
  · rw [flag_of_fld (hfld _), hall]

end Sys2Proof.Machine
end

section
/-! What a reset writes and keeps (R573, R583, R591), and the commands that hold the device in reset or bring it back. -/

namespace Sys2Proof.Machine

variable {s t : State} {cold : Bool}

theorem mget_filter_key {α : Type} (p : Nat → Bool) (k : Nat) :
    ∀ l : Map α, mget (l.filter fun e : Nat × α => p e.1) k = if p k = true then mget l k else none
  | [] => by simp [mget]
  | (j, v) :: l => by
    have ih := mget_filter_key p k l
    by_cases hj : j = k
    · subst hj
      cases hp : p j <;> simp [mget, hp, ih]
    · cases hp : p j <;> simp [mget, hp, hj, ih]

/-! ### Registers of a reset -/

theorem Canonical.resetBase (hs : Canonical s) : Canonical (resetBase cold s) := hs.of_kept (resetBase_kept cold s)

theorem resetBase_reg (cold : Bool) (s : State) (o : Nat) :
    (resetBase cold s).reg o = if keptReg cold o = true then s.reg o else resetWord o := by
  change (mget (s.regs.filter fun e : Nat × Word => keptReg cold e.1) o).getD (resetWord o) = _
  rw [mget_filter_key (keptReg cold) o s.regs]
  split <;> rfl

/-- The seal time kept and PWRFAIL as its pin: what both resets write. -/
def resetKept (cold : Bool) (s : State) : State :=
  (keepFld s (resetBase cold s) CRT_SEAL_SEAL_US).setFld PWR_RAILS_PWRFAIL (b2n (!s.pins.pwrfailN))

/-- What the internal reset keeps besides. -/
def keptInside (s t : State) : State :=
  (List.range 64).foldl (fun t g => keepFld s t (EVC_GROUP_PENDING g))
    (keepFld s (keepFld s (keepFld s t GLB_CAP3_FAILOVER_PORT) PWR_THERM_TRIPPED) EVC_STATUS_LATCHED)

theorem resetDevice_eq (cold : Bool) (s : State) :
    resetDevice cold s = if cold = true then resetKept cold s else keptInside s (resetKept cold s) := rfl

theorem keepFld_reg_other (s t : State) {f : Field} {o : Nat} (h : o ≠ f.off) : (keepFld s t f).reg o = t.reg o :=
  reg_setFld_other t _ h

/-- The registers the internal reset keeps a part of. -/
def PartlyKept (o : Nat) : Prop := o = 0x28 ∨ o = 0xD00028 ∨ o = 0xB03200 ∨ (0xB02000 ≤ o ∧ o < 0xB02200)

theorem keptInside_reg (s : State) {o : Nat} (h : ¬ PartlyKept o) : (keptInside s t).reg o = t.reg o := by
  have hgroups : ∀ l : List Nat, (∀ g ∈ l, g < 64) → ∀ u : State,
      (l.foldl (fun t g => keepFld s t (EVC_GROUP_PENDING g)) u).reg o = u.reg o := by
    intro l
    induction l with
    | nil => exact fun _ _ => rfl
    | cons g l ih =>
      intro hl u
      have hg : g < 64 := hl g (List.mem_cons_self ..)
      exact (ih (fun k hk => hl k (List.mem_cons_of_mem _ hk)) _).trans
        (keepFld_reg_other _ _ (by dsimp only; unfold PartlyKept at h; omega))
  unfold PartlyKept at h
  rw [keptInside, hgroups _ (fun g hg => List.mem_range.1 hg), keepFld_reg_other _ _ (by dsimp only; omega),
    keepFld_reg_other _ _ (by dsimp only; omega), keepFld_reg_other _ _ (by dsimp only; omega)]

theorem resetDevice_reg (cold : Bool) (s : State) {o : Nat} (h : ¬ PartlyKept o) :
    (resetDevice cold s).reg o = (resetKept cold s).reg o := by
  rw [resetDevice_eq]
  split
  · rfl
  · exact keptInside_reg s h

/-- A register that no reset writes by fields: as before where it is kept, else its reset value. -/
theorem resetDevice_reg_plain (cold : Bool) (s : State) {o : Nat} (h : ¬ PartlyKept o) (hseal : o ≠ CRT_SEAL_SEAL_US.off)
    (hrails : o ≠ PWR_RAILS_PWRFAIL.off) :
    (resetDevice cold s).reg o = if keptReg cold o = true then s.reg o else resetWord o := by
  rw [resetDevice_reg cold s h, resetKept, reg_setFld_other _ _ hrails, keepFld_reg_other _ _ hseal, resetBase_reg]

theorem resetDevice_state (cold : Bool) (s : State) : (resetDevice cold s).reg 0x40 = resetWord 0x40 := by
  rw [resetDevice_reg_plain cold s (by unfold PartlyKept; omega) (by decide) (by decide)]
  cases cold <;> rfl

theorem resetDevice_phase (cold : Bool) (s : State) : (resetDevice cold s).fld GLB_STATE_START_PHASE = 0 := by
  rw [State.fld, resetDevice_state]
  decide +kernel

theorem resetDevice_devState (cold : Bool) (s : State) : (resetDevice cold s).fld GLB_STATE_DEV_STATE = 3 := by
  rw [State.fld, resetDevice_state]
  decide +kernel

theorem resetDevice_sealUs (hs : Canonical s) (cold : Bool) :
    (resetDevice cold s).fld CRT_SEAL_SEAL_US = s.fld CRT_SEAL_SEAL_US := by
  have hrails : (resetKept cold s).fld CRT_SEAL_SEAL_US = (keepFld s (resetBase cold s) CRT_SEAL_SEAL_US).fld CRT_SEAL_SEAL_US :=
    fld_of_reg (reg_setFld_other _ _ (by decide))
  rw [fld_of_reg (resetDevice_reg cold s (o := CRT_SEAL_SEAL_US.off) (by unfold PartlyKept; dsimp only; omega)), hrails]
  exact fld_setFld_of_lt hs.resetBase (by decide) (fld_lt s _)

theorem resetDevice_pwrfail (hs : Canonical s) (cold : Bool) :
    (resetDevice cold s).fld PWR_RAILS_PWRFAIL = b2n (!s.pins.pwrfailN) := by
  have hkept : Canonical (keepFld s (resetBase cold s) CRT_SEAL_SEAL_US) := hs.resetBase.setFld _ _
  rw [fld_of_reg (resetDevice_reg cold s (o := PWR_RAILS_PWRFAIL.off) (by unfold PartlyKept; dsimp only; omega))]
  exact fld_setFld_of_lt hkept (by decide) (by cases s.pins.pwrfailN <;> decide)

/-- A latch of the event channel in its reset value is clear. -/
theorem resetWord_latched {n : Nat} (hn : n < 2048) : bits (resetWord (EVC_SRC_LATCHED n).off).toNat 7 1 = 0 := by
  have hat : regAt (0xB00000 + 4 * n) = some _ :=
    regAt_of_family (fields := [⟨0, 6, .ro, 0x0⟩, ⟨6, 1, .ro, 0x0⟩, ⟨7, 1, .ro, 0x0⟩, ⟨8, 8, .ro, 0x0⟩])
      (nbits := 32) (by decide +kernel) (by decide +kernel) (by decide) (by decide) hn
  have hspecial : specialReset (0xB00000 + 4 * n) = BitVec.ofNat 64 (n / 32 + b2n (evtAssigned n) * 2 ^ 6) := by
    have hidx : (0xB00000 + 4 * n - 0xB00000) / 4 = n := by omega
    unfold specialReset
    rw [if_neg (by omega), if_neg (by omega), if_neg (by omega), if_neg (by omega), if_pos (by omega), hidx]
  have hb : b2n (evtAssigned n) ≤ 1 := by cases evtAssigned n <;> decide
  dsimp only
  rw [resetWord, hat]
  simp only [List.foldl, Nat.zero_mul, BitVec.or_zero]
  rw [hspecial, BitVec.toNat_ofNat, bits]
  omega

theorem resetDevice_latched (cold : Bool) (s : State) {n : Nat} (hn : n < 2048) :
    (resetDevice cold s).flag (EVC_SRC_LATCHED n) = if cold = true then false else s.flag (EVC_SRC_LATCHED n) := by
  have hreg := resetDevice_reg_plain cold s (o := (EVC_SRC_LATCHED n).off) (by unfold PartlyKept; dsimp only; omega)
    (by dsimp only; omega) (by dsimp only; omega)
  cases cold with
  | true =>
    have hzero : (resetDevice true s).fld (EVC_SRC_LATCHED n) = 0 := by
      rw [State.fld, hreg]
      exact resetWord_latched hn
    simp [State.flag, hzero]
  | false =>
    have hkept : keptReg false (EVC_SRC_LATCHED n).off = true := by
      simp only [keptReg, Bool.not_false, Bool.true_and, Bool.or_eq_true, Bool.and_eq_true, decide_eq_true_eq]
      exact .inr ⟨by omega, by omega⟩
    rw [if_pos hkept] at hreg
    exact flag_of_fld (fld_of_reg hreg)

/-! ### The rest of the state -/

theorem resetDevice_view {α : Type} (view : State → α) (hf : ∀ (u : State) f v, view (u.setFld f v) = view u) (cold : Bool)
    (s : State) : view (resetDevice cold s) = view (resetBase cold s) := by
  have hkept : view (resetKept cold s) = view (resetBase cold s) := (hf ..).trans (hf ..)
  rw [resetDevice_eq]
  split
  · exact hkept
  · refine (foldl_frame view (fun u g => hf ..) _ _).trans ?_
    rw [keepFld, hf, keepFld, hf, keepFld, hf, hkept]

theorem resetDevice_ses (cold : Bool) (s : State) : (resetDevice cold s).ses = State.reset.ses :=
  resetDevice_view State.ses (fun _ _ _ => rfl) cold s

theorem resetDevice_objects (cold : Bool) (s : State) : (resetDevice cold s).crt.objects = s.crt.objects :=
  resetDevice_view (fun u => u.crt.objects) (fun _ _ _ => rfl) cold s

theorem Canonical.resetDevice (hs : Canonical s) : Canonical (resetDevice cold s) := hs.of_kept (resetDevice_kept cold s)

/-! ### Held in reset -/

/-- The device holds itself in reset, in D3. -/
def Held (t : State) : Prop :=
  t.pins.ovHold = true ∧ t.awake = false ∧ t.fld GLB_STATE_START_PHASE = 0 ∧ t.fld GLB_STATE_DEV_STATE = 3 ∧
    t.ses = State.reset.ses

theorem awake_of_ovHold (h : t.pins.ovHold = true) : t.awake = false := by simp [State.awake, h]

/-- A state held in reset. -/
def heldAt (t : State) : State := { t with pins := { t.pins with ovHold := true } }

theorem heldAt_regs (t : State) : (heldAt t).regs = t.regs := rfl
theorem heldAt_standby (t : State) : (heldAt t).pins.standby = t.pins.standby := rfl
theorem heldAt_objects (t : State) : (heldAt t).crt.objects = t.crt.objects := rfl
theorem heldAt_ses (t : State) : (heldAt t).ses = t.ses := rfl
theorem heldAt_ovHold (t : State) : (heldAt t).pins.ovHold = true := rfl

theorem holdReset_eq (s : State) : holdReset s = heldAt (resetDevice false s) := by unfold holdReset heldAt; rfl

theorem holdReset_fld (s : State) (g : Field) : (holdReset s).fld g = (resetDevice false s).fld g := by
  rw [holdReset_eq, fld_of_regs (heldAt_regs _)]

theorem holdReset_holds (s : State) : Held (holdReset s) := by
  have hhold : (holdReset s).pins.ovHold = true := by rw [holdReset_eq, heldAt_ovHold]
  refine ⟨hhold, awake_of_ovHold hhold, ?_, ?_, ?_⟩
  · rw [holdReset_fld, resetDevice_phase]
  · rw [holdReset_fld, resetDevice_devState]
  · rw [holdReset_eq, heldAt_ses, resetDevice_ses]

theorem resetDevice_standby (cold : Bool) (s : State) : (resetDevice cold s).pins.standby = s.pins.standby :=
  resetDevice_view (fun u => u.pins.standby) (fun _ _ _ => rfl) cold s

theorem holdReset_standby (s : State) : (holdReset s).pins.standby = s.pins.standby := by
  rw [holdReset_eq, heldAt_standby, resetDevice_standby]

theorem holdReset_objects (s : State) : (holdReset s).crt.objects = s.crt.objects := by
  rw [holdReset_eq, heldAt_objects, resetDevice_objects]

theorem holdReset_latched (s : State) {n : Nat} (hn : n < 2048) :
    (holdReset s).flag (EVC_SRC_LATCHED n) = s.flag (EVC_SRC_LATCHED n) := by
  rw [flag_of_fld (holdReset_fld s _), resetDevice_latched false s hn]
  rfl

theorem vinOvervoltage_holds (s : State) {v : Nat} (h : 57000 < v) :
    Ends (.vinOvervoltage v) s fun t => Held t ∧ t.crt.objects = s.crt.objects :=
  ends_of_eq (u := inputOver s v) rfl (if_pos h) ⟨holdReset_holds s, holdReset_objects s⟩

theorem railCollapse_holds (hs : Canonical s) {vin vsb : Nat} (hvsb : 3000 ≤ vsb) (hvin : vin < 40000) :
    Ends (.railCollapse vin vsb) s fun t => Held t ∧ t.pins.standby = s.pins.standby ∧
      t.fld CRT_SEAL_SEAL_US = s.fld CRT_SEAL_SEAL_US ∧
      ∀ n, n < 2048 → t.flag (EVC_SRC_LATCHED n) = s.flag (EVC_SRC_LATCHED n) :=
  ends_of_eq (u := railsGone s vin vsb) rfl ((if_neg (Nat.not_lt.2 hvsb)).trans (if_pos hvin))
    ⟨holdReset_holds s, holdReset_standby s, (holdReset_fld s _).trans (resetDevice_sealUs hs false), fun _ hn => holdReset_latched s hn⟩

/-! ### The always-on domain lost -/

/-- The registers of a collapse of VSB. -/
def coldReset (s : State) : State := (resetDevice true s).setFld CRT_SEAL_SEAL_US 0

/-- The collapse of VSB. -/
def standbyLost (s : State) : State :=
  { coldReset s with
    pins := { (coldReset s).pins with standby := false, ovHold := true }
    sec := { (coldReset s).sec with reqCount := 0, lastStatus := 0, usbIn := [], usbBusy := false, stall := false } }

theorem railsGone_of_standby_lost {vin vsb : Nat} (h : vsb < 3000) : railsGone s vin vsb = standbyLost s := if_pos h

theorem standbyLost_regs (s : State) : (standbyLost s).regs = (coldReset s).regs := rfl

theorem standbyLost_fld (s : State) {g : Field} (h : g.off ≠ CRT_SEAL_SEAL_US.off) :
    (standbyLost s).fld g = (resetDevice true s).fld g :=
  (fld_of_regs (standbyLost_regs s) g).trans (fld_of_reg (reg_setFld_other _ _ h))

theorem standbyLost_holds (s : State) : Held (standbyLost s) := by
  refine ⟨rfl, awake_of_ovHold rfl, ?_, ?_, resetDevice_ses true s⟩
  · rw [standbyLost_fld _ (by decide), resetDevice_phase]
  · rw [standbyLost_fld _ (by decide), resetDevice_devState]

theorem standbyLost_latched (s : State) {n : Nat} (hn : n < 2048) : (standbyLost s).flag (EVC_SRC_LATCHED n) = false := by
  rw [flag_of_fld (standbyLost_fld s (by dsimp only; omega)), resetDevice_latched true s hn]
  rfl

theorem railCollapse_loses_standby (hs : Canonical s) (vin : Nat) {vsb : Nat} (h : vsb < 3000) :
    Ends (.railCollapse vin vsb) s fun t => Held t ∧ t.pins.standby = false ∧ t.fld CRT_SEAL_SEAL_US = 0 ∧ t.sec.reqCount = 0 ∧
      ∀ n, n < 2048 → t.flag (EVC_SRC_LATCHED n) = false :=
  ends_of_eq (u := railsGone s vin vsb) rfl (railsGone_of_standby_lost h)
    ⟨standbyLost_holds s, rfl,
      (fld_of_regs (standbyLost_regs s) _).trans (fld_setFld_of_lt hs.resetDevice (by decide) (by decide)), rfl,
      fun _ hn => standbyLost_latched s hn⟩

/-! ### PWRFAIL_N deasserts -/

/-- PWRFAIL_N deasserted, before a restart. -/
def powerSeen (s : State) : State := ({ s with pins := { s.pins with pwrfailN := true } }).setFld PWR_RAILS_PWRFAIL 0

theorem Canonical.powerSeen (hs : Canonical s) : Canonical (powerSeen s) := (canonical_pins hs _).setFld _ _

theorem powerSeen_fld (s : State) {g : Field} (h : g.off ≠ PWR_RAILS_PWRFAIL.off) : (powerSeen s).fld g = s.fld g :=
  fld_of_reg ((reg_setFld_other _ _ h).trans rfl)

/-- A sealed device whose seal is complete restarts. -/
def Restarts (s : State) : Prop :=
  s.awake = true ∧ s.fld GLB_STATE_START_PHASE = 8 ∧ sealsDone s = true ∧ s.pins.thermtripN = true

theorem powerSeen_restarts (s : State) : Restarts (powerSeen s) ↔ Restarts s := by
  have hseals : sealsDone (powerSeen s) = sealsDone s := by
    unfold sealsDone
    rw [powerSeen_fld s (by decide)]
    rfl
  rw [Restarts, Restarts, hseals, powerSeen_fld s (by decide)]
  rfl

theorem powerBack_of_restarts (h : Restarts s) : powerBack s = internalReset (powerSeen s) := if_pos ((powerSeen_restarts s).2 h)

theorem powerBack_of_not (h : ¬ Restarts s) : powerBack s = powerSeen s := if_neg (mt (powerSeen_restarts s).1 h)

theorem releaseReset_fld (t : State) {g : Field} (h : g.off ≠ 0x40) : (releaseReset t).fld g = t.fld g :=
  fld_of_reg ((reg_setFld_other _ _ h).trans rfl)

theorem releaseReset_pins (t : State) : (releaseReset t).pins = t.pins := rfl
theorem releaseReset_now (t : State) : (releaseReset t).clk.now = 0 := rfl

theorem releaseReset_phase (ht : Canonical t) : (releaseReset t).fld GLB_STATE_START_PHASE = 1 :=
  fld_setFld_of_lt (s := { t with clk := { t.clk with now := 0 }, isl := { t.isl with phaseAt := 0 } }) ⟨ht.regs, ht.mem, ht.hbm⟩
    (by decide) (by decide)

theorem resetDevice_pwrfailN (cold : Bool) (s : State) : (resetDevice cold s).pins.pwrfailN = s.pins.pwrfailN :=
  resetDevice_view (fun u => u.pins.pwrfailN) (fun _ _ _ => rfl) cold s

theorem pwrfailNDeasserted_restarts (hs : Canonical s) (h : Restarts s) :
    Ends .pwrfailNDeasserted s fun t => t.pins.pwrfailN = true ∧ t.fld GLB_STATE_START_PHASE = 1 ∧ t.clk.now = 0 ∧
      t.fld PWR_RAILS_PWRFAIL = 0 ∧ t.fld CRT_SEAL_SEAL_US = s.fld CRT_SEAL_SEAL_US := by
  have hpin : (powerSeen s).pins.pwrfailN = true := rfl
  refine ends_of_eq (u := powerBack s) rfl (powerBack_of_restarts h) ?_
  unfold internalReset
  refine ⟨?_, releaseReset_phase hs.powerSeen.resetDevice, releaseReset_now _, ?_, ?_⟩
  · rw [releaseReset_pins, resetDevice_pwrfailN, hpin]
  · rw [releaseReset_fld _ (by decide), resetDevice_pwrfail hs.powerSeen, hpin]
    rfl
  · rw [releaseReset_fld _ (by decide), resetDevice_sealUs hs.powerSeen, powerSeen_fld s (by decide)]

theorem pwrfailNDeasserted_stays (hs : Canonical s) (h : ¬ Restarts s) :
    Ends .pwrfailNDeasserted s fun t => t.pins.pwrfailN = true ∧ t.fld PWR_RAILS_PWRFAIL = 0 ∧
      t.fld GLB_STATE_START_PHASE = s.fld GLB_STATE_START_PHASE ∧ t.clk = s.clk :=
  ends_of_eq (u := powerBack s) rfl (powerBack_of_not h)
    ⟨rfl, fld_setFld_of_lt (canonical_pins hs _) (by decide) (by decide), powerSeen_fld s (by decide), rfl⟩

end Sys2Proof.Machine
end

section
/-! The host port (R503, R527, R528) and the scrub (R560). -/

namespace Sys2Proof.Machine

variable {s t : State} {n : Nat}

/-! ### Virtual functions, the link, host reads -/

/-- Where VF Enable of function `fn` takes effect. -/
def VfOpen (s : State) (fn : Nat) : Prop :=
  s.awake = true ∧ 2 ≤ s.fld GLB_STATE_START_PHASE ∧ s.fld GLB_STATE_START_PHASE ≤ 8 ∧ s.hubUp 0 = true ∧ 1 ≤ fn ∧ fn < 64

theorem srIovVfEnable_enables (hs : Canonical s) {fn : Nat} (on : Bool) (h : VfOpen s fn) :
    Ends (.srIovVfEnable fn on) s fun t => t.flag (HIF_CTX_CTL_FN_ENABLED fn) = on ∧ t.host = s.host ∧ t.ses = s.ses ∧
      ∀ o, o ≠ (HIF_CTX_CTL_FN_ENABLED fn).off → t.reg o = s.reg o := by
  refine ends_of_eq (u := enableVf s fn on) rfl (if_pos h) ⟨?_, rfl, rfl, fun o ho => reg_setFld_other s _ ho⟩
  cases on
  · exact flag_setFld_zero hs (by dsimp only; omega)
  · exact flag_setFld_one hs (by dsimp only; omega) (by dsimp only; omega)

theorem mem_widths_iff : ([8, 4, 2, 1] : List Nat).contains n = true ↔ n = 8 ∨ n = 4 ∨ n = 2 ∨ n = 1 := by simp

theorem pcieLinkRetrain_narrows (hn : n = 8 ∨ n = 4 ∨ n = 2 ∨ n = 1) (hlt : n < s.host.lanes) :
    Ends (.pcieLinkRetrain n) s fun t => t.host.lanes = n ∧ t.host.queues = s.host.queues ∧ t.regs = s.regs :=
  ends_of_eq (u := retrainHost s n) rfl (if_pos ⟨mem_widths_iff.2 hn, hlt⟩) ⟨rfl, rfl, rfl⟩

theorem pcieLinkRetrain_stays (h : (n ≠ 8 ∧ n ≠ 4 ∧ n ≠ 2 ∧ n ≠ 1) ∨ s.host.lanes ≤ n) :
    exec (.pcieLinkRetrain n) s = .next s :=
  exec_unchanged (u := retrainHost s n) rfl (if_neg fun ⟨hmem, hlt⟩ => by have := mem_widths_iff.1 hmem; omega)

/-- A position joins those whose data must be dropped. -/
def muted (u : State) (src : Src) : State :=
  u.setQueue src.ctx src.queue
    { u.queue src.ctx src.queue with mute := (u.queue src.ctx src.queue).mute ++ [src.qpos] }

theorem muted_mute (u : State) (src : Src) :
    ((muted u src).queue src.ctx src.queue).mute = (u.queue src.ctx src.queue).mute ++ [src.qpos] := by
  rw [muted, setQueue_same]

theorem hostReadLate_of_found {src : Src} {i : Item}
    (h : ((s.queue src.ctx src.queue).started.find? fun y => y.qpos = src.qpos) = some i) :
    hostReadLate s src = muted (completeFail s src (itemOpcode i) 0xA006 0 0) src := by
  unfold hostReadLate
  rw [h]
  rfl

theorem hostMemoryReadTimeout_fails {src : Src} {i : Item}
    (h : ((s.queue src.ctx src.queue).started.find? fun y => y.qpos = src.qpos) = some i) :
    ∃ u : State, u = completeFail s src (itemOpcode i) 0xA006 0 0 ∧ Ends (.hostMemoryReadTimeout src) s fun t =>
      (t.queue src.ctx src.queue).mute = (u.queue src.ctx src.queue).mute ++ [src.qpos] ∧ t.regs = u.regs ∧
      t.host.mem = u.host.mem ∧ t.ses = s.ses :=
  ⟨_, rfl, ends_of_eq (u := hostReadLate s src) rfl (hostReadLate_of_found h)
    ⟨muted_mute _ _, rfl, rfl, completeFail_ses _ _ _ _ _ _⟩⟩

theorem hostMemoryReadTimeout_stays {src : Src} (h : ∀ y ∈ (s.queue src.ctx src.queue).started, y.qpos ≠ src.qpos) :
    exec (.hostMemoryReadTimeout src) s = .next s := by
  have hnone : ((s.queue src.ctx src.queue).started.find? fun y => y.qpos = src.qpos) = none :=
    List.find?_eq_none.2 fun y hy => by simpa using h y hy
  refine exec_unchanged (u := hostReadLate s src) rfl ?_
  unfold hostReadLate
  rw [hnone]

/-! ### The scrub of a cell -/

@[simp] theorem fault_hbm (s : State) (n k c : Nat) (a : Word) (m x : Nat) : (fault s n k c a m x).hbm = s.hbm := by
  obtain ⟨r, f, h⟩ := fault_upd s n k c a m x; rw [h]
@[simp] theorem fault_hbmWeak (s : State) (n k c : Nat) (a : Word) (m x : Nat) : (fault s n k c a m x).hbmWeak = s.hbmWeak := by
  obtain ⟨r, f, h⟩ := fault_upd s n k c a m x; rw [h]

/-- The corrected errors of the slot a cell stands in. -/
def cellErrors (s : State) (n : Nat) : Field := FRM_CELL_ECC_CE (n / 160) (cellPhys s n)

theorem scrubUnit_eq (n : Nat) (s : State) (u : Nat) :
    scrubUnit n s u = fault (s.incSat (cellErrors s n) 1) (cellSource s n) 0x01 0 (cellAddr n (16 * u)) n 1 := by
  rw [scrubUnit, memCorrected, if_neg Nat.one_ne_zero, cellErrors]

/-- What the correction of `k` errors of a cell leaves: the memories, the slot of the cell, and the count advanced by `k`. -/
structure Corrected (n k : Nat) (s t : State) : Prop where
  canon : Canonical t
  cells : t.cells = s.cells
  hbm   : t.hbm = s.hbm
  weak  : t.hbmWeak = s.hbmWeak
  phys  : cellPhys t n = cellPhys s n
  count : t.fld (cellErrors s n) = min (s.fld (cellErrors s n) + k) 65535

theorem corrected_refl (hs : Canonical s) : Corrected n 0 s s :=
  ⟨hs, rfl, rfl, rfl, rfl, by have := fld_lt s (cellErrors s n); dsimp only [cellErrors] at this ⊢; omega⟩

theorem Corrected.trans {j k : Nat} {u : State} (h : Corrected n j s t) (h' : Corrected n k t u) : Corrected n (j + k) s u where
  canon := h'.canon
  cells := h'.cells.trans h.cells
  hbm := h'.hbm.trans h.hbm
  weak := h'.weak.trans h.weak
  phys := h'.phys.trans h.phys
  count := by
    have hslot : cellErrors t n = cellErrors s n := by rw [cellErrors, cellErrors, h.phys]
    have hcount := h'.count
    rw [hslot, h.count] at hcount
    omega

theorem scrubUnit_corrects (hs : Canonical s) (n u : Nat) : Corrected n 1 s (scrubUnit n s u) := by
  have hphys := fld_lt s (FRM_CELL_MAP_PHYS (n / 160) (n % 160))
  have hslot : (FRM_CELL_MAP_PHYS (n / 160) (n % 160)).off ≠ (cellErrors s n).off := by
    dsimp only [cellErrors]
    omega
  rw [scrubUnit_eq]
  refine ⟨(hs.incSat _ _).fault .., ?_, ?_, ?_, ?_, ?_⟩
  · rw [fault_cells]; rfl
  · rw [fault_hbm]; rfl
  · rw [fault_hbmWeak]; rfl
  · exact (fault_fld_above _ _ _ _ _ _ _ (by dsimp only; omega)).trans (fld_of_reg (reg_incSat_other _ _ hslot))
  · rw [fault_fld_above _ _ _ _ _ _ _ (by dsimp only [cellErrors]; omega),
      fld_incSat_same hs 1 (by simp only [cellErrors]; omega), Nat.min_comm]
    rfl

theorem scrubUnits_correct (n : Nat) : ∀ (w : List Nat) {s : State}, Canonical s → Corrected n w.length s (w.foldl (scrubUnit n) s)
  | [], _, hs => corrected_refl hs
  | u :: w, _, hs => by
    have hone := scrubUnit_corrects hs n u
    have hrest := scrubUnits_correct n w hone.canon
    rw [List.length_cons, Nat.add_comm]
    exact hone.trans hrest

/-- What the scrub of a cell leaves: the cell without weak units, the other cells, HBM, and the count advanced. -/
structure CellScrubbed (n : Nat) (s t : State) : Prop where
  weak  : (t.cell n).weak = []
  mem   : (t.cell n).mem = (s.cell n).mem
  other : ∀ m, m ≠ n → t.cell m = s.cell m
  hbm   : t.hbm = s.hbm
  hbmWeak : t.hbmWeak = s.hbmWeak
  count : t.fld (cellErrors s n) = min (s.fld (cellErrors s n) + (s.cell n).weak.length) 65535

theorem scrubCell_scrubs (hs : Canonical s) (n : Nat) : CellScrubbed n s (scrubCell s n) := by
  by_cases hw : (s.cell n).weak = []
  · have hsame : scrubCell s n = s := if_pos (by rw [hw]; rfl)
    rw [hsame]
    exact ⟨hw, rfl, fun _ _ => rfl, rfl, rfl, by rw [hw]; exact (corrected_refl hs).count⟩
  · have hstep : scrubCell s n = State.setCell ((s.cell n).weak.foldl (scrubUnit n) s) n
        { State.cell ((s.cell n).weak.foldl (scrubUnit n) s) n with weak := [] } := if_neg (mt List.isEmpty_iff.1 hw)
    have hcorr := scrubUnits_correct n (s.cell n).weak hs
    rw [hstep]
    generalize (s.cell n).weak.foldl (scrubUnit n) s = u at hcorr ⊢
    refine ⟨by rw [setCell_same], ?_, fun m hm => ?_, hcorr.hbm, hcorr.weak, ?_⟩
    · rw [setCell_same, cell_of_cells hcorr.cells]
    · rw [setCell_other _ _ _ hm, cell_of_cells hcorr.cells]
    · rw [setCell_at_fld, hcorr.count]

/-! ### The scrub of a stack -/

/-- The corrections of a stack reported, its weak units still listed. -/
def stackReported (s : State) (st : Nat) : State :=
  (s.hbmWeak.filter fun u => decide (unitStack u = st)).foldl
    (fun s u => fault s (hbmSource u) 0x01 0 (BitVec.ofNat 64 (32 * u)) 0xFFFF 1) s

theorem stackReported_view {α : Type} (view : State → α)
    (hf : ∀ (u : State) a b c (d : Word) e f, view (fault u a b c d e f) = view u) (st : Nat) : view (stackReported s st) = view s :=
  foldl_frame view (fun _ _ => hf ..) _ s

theorem stackReported_hbmWeak (s : State) (st : Nat) : (stackReported s st).hbmWeak = s.hbmWeak :=
  stackReported_view State.hbmWeak (fun _ _ _ _ _ _ _ => by simp) st

theorem scrubStack_of_weak {st : Nat} (h : (s.hbmWeak.filter fun u => decide (unitStack u = st)) ≠ []) :
    scrubStack s st =
      { stackReported s st with hbmWeak := (stackReported s st).hbmWeak.filter fun u => !decide (unitStack u = st) } :=
  if_neg (mt List.isEmpty_iff.1 h)

theorem scrubStack_of_none {st : Nat} (h : (s.hbmWeak.filter fun u => decide (unitStack u = st)) = []) : scrubStack s st = s :=
  if_pos (List.isEmpty_iff.2 h)

/-- The scrub of a stack clears its weak units and no other's; of the registers it writes the FLT_ registers. -/
structure StackScrubbed (st : Nat) (s t : State) : Prop where
  cells : t.cells = s.cells
  hbm   : t.hbm = s.hbm
  fld   : ∀ g : Field, 0xB00000 ≤ g.off → t.fld g = s.fld g
  weak  : ∀ u, u ∈ t.hbmWeak ↔ u ∈ s.hbmWeak ∧ unitStack u ≠ st

theorem scrubStack_scrubs (s : State) (st : Nat) : StackScrubbed st s (scrubStack s st) := by
  by_cases h : (s.hbmWeak.filter fun u => decide (unitStack u = st)) = []
  · rw [scrubStack_of_none h]
    refine ⟨rfl, rfl, fun _ _ => rfl, fun u => ⟨fun hu => ⟨hu, fun hst => ?_⟩, And.left⟩⟩
    exact List.not_mem_nil (h ▸ List.mem_filter.2 ⟨hu, decide_eq_true hst⟩)
  · rw [scrubStack_of_weak h]
    refine ⟨?_, ?_, fun g hg => ?_, fun u => by simp [List.mem_filter, stackReported_hbmWeak]⟩
    · exact stackReported_view State.cells (fun _ _ _ _ _ _ _ => by simp) st
    · exact stackReported_view State.hbm (fun _ _ _ _ _ _ _ => by simp) st
    · exact stackReported_view (fun u => u.fld g) (fun _ _ _ _ _ _ _ => fault_fld_above _ _ _ _ _ _ _ hg) st

/-! ### One turn of the scrub -/

theorem memoryScrub_scrubs (hs : Canonical s) (hn : n < 1920) :
    Ends (.memoryScrub n) s fun t => (t.cell n).weak = [] ∧ (t.cell n).mem = (s.cell n).mem ∧ t.hbm = s.hbm ∧
      (∀ m, m ≠ n → t.cell m = s.cell m) ∧
      (cellPhys s n < 168 → t.fld (FRM_CELL_ECC_CE (n / 160) (cellPhys s n)) =
        min (s.fld (FRM_CELL_ECC_CE (n / 160) (cellPhys s n)) + (s.cell n).weak.length) 65535) ∧
      ∀ u, u ∈ t.hbmWeak ↔ u ∈ s.hbmWeak ∧ ¬ (n % 160 = 0 ∧ unitStack u = n / 160) := by
  obtain ⟨hweak, hmem, hother, hhbm, hunits, hcount⟩ := scrubCell_scrubs hs n
  have hstep : scrub s n = if n % 160 = 0 then scrubStack (scrubCell s n) (n / 160) else scrubCell s n :=
    if_neg (Nat.not_le.2 hn)
  by_cases hfirst : n % 160 = 0
  · obtain ⟨hcells', hhbm', hfld', hunits'⟩ := scrubStack_scrubs (scrubCell s n) (n / 160)
    rw [if_pos hfirst] at hstep
    refine ends_of_eq (u := scrub s n) rfl hstep ⟨?_, ?_, hhbm'.trans hhbm, fun m hm => ?_, fun _ => ?_, fun u => ?_⟩
    · rw [cell_of_cells hcells', hweak]
    · rw [cell_of_cells hcells', hmem]
    · rw [cell_of_cells hcells', hother m hm]
    · exact (hfld' _ (by dsimp only; omega)).trans hcount
    · rw [hunits', hunits]
      simp [hfirst]
  · rw [if_neg hfirst] at hstep
    exact ends_of_eq (u := scrub s n) rfl hstep ⟨hweak, hmem, hhbm, hother, fun _ => hcount, fun u => by simp [hunits, hfirst]⟩

end Sys2Proof.Machine
end

section
/-! A hub's SerDes reference is absent (R593, 10 R365, R408): its ports and its cartridge links go down. -/

namespace Sys2Proof.Machine

variable {s t : State} {p b : Nat}

/-! ### One step for each number of a list -/

/-- Where step `k` maps the `k`-th of a family of readings and leaves the others, the steps of a list map those it names. -/
theorem foldl_maps {f : State → Nat → State} {P : State → Prop} {v : State → Nat → Nat} {d : Nat → Nat} {n : Nat}
    (hd : ∀ x, d (d x) = d x)
    (hf : ∀ u k, P u → k < n → P (f u k) ∧ ∀ q, q < n → v (f u k) q = if q = k then d (v u q) else v u q) :
    ∀ (l : List Nat) (u : State), (∀ k ∈ l, k < n) → P u →
      P (l.foldl f u) ∧ ∀ q, q < n → v (l.foldl f u) q = if q ∈ l then d (v u q) else v u q
  | [], _, _, hP => ⟨hP, fun _ _ => by simp⟩
  | k :: l, u, hl, hP => by
    obtain ⟨hk, hrest⟩ := List.forall_mem_cons.1 hl
    obtain ⟨hstep, hone⟩ := hf u k hP hk
    obtain ⟨hall, hmany⟩ := foldl_maps hd hf l (f u k) hrest hstep
    refine ⟨hall, fun q hq => ?_⟩
    rw [List.foldl_cons, hmany q hq, hone q hq]
    by_cases hqk : q = k <;> by_cases hql : q ∈ l <;> simp [hqk, hql, hd]

/-! ### The ports -/

@[simp] theorem showPort_crt (s : State) (p st : Nat) : (showPort s p st).crt = s.crt := by
  unfold showPort; dsimp only; split_ifs <;> simp
@[simp] theorem showPort_vse (s : State) (p st : Nat) : (showPort s p st).vse = s.vse := by
  unfold showPort; dsimp only; split_ifs <;> simp
@[simp] theorem rebindPort_crt (s : State) (p : Nat) : (rebindPort s p).crt = s.crt :=
  view_of_withoutQps (·.crt) (fun _ => rfl) (withoutQps_rebindPort s p)
@[simp] theorem rebindPort_vse (s : State) (p : Nat) : (rebindPort s p).vse = s.vse :=
  view_of_withoutQps (·.vse) (fun _ => rfl) (withoutQps_rebindPort s p)
@[simp] theorem setPst_crt (s : State) (p st : Nat) : (setPst s p st).crt = s.crt :=
  (setPst_view (·.crt) (fun u => rebindPort_crt u p) st).trans (by simp [movePort])
@[simp] theorem setPst_vse (s : State) (p st : Nat) : (setPst s p st).vse = s.vse :=
  (setPst_view (·.vse) (fun u => rebindPort_vse u p) st).trans (by simp [movePort])

theorem Canonical.setPst (hs : Canonical s) (p st : Nat) : Canonical (setPst s p st) := hs.of_kept (setPst_kept s p st)

/-- Among the registers of bays and ports a port transition writes the port's own alone. -/
theorem setPst_fld_other (st : Nat) {g : Field} (hlo : 0x800000 ≤ g.off) (hhi : g.off < 0xA00000)
    (h : g.off ≠ (FAB_PORT_STATE p).off) : (setPst s p st).fld g = s.fld g := by
  rw [setPst_view (·.fld g) (fun u => rebindPort_fld u p g), fld_of_reg (showPort_reg _ p st (by omega) (by omega) (by omega)),
    fld_of_reg (movePort_reg _ p st (by omega) (by omega)), fld_of_reg (reg_setFld_other _ _ h)]

/-- A port of a hub without its reference: a link that is up is lost, one that trains stops. -/
def portDown (s : State) (p : Nat) : State :=
  if pst s p = 2 then portLost s p else if pst s p = 1 then setPst s p 0 else s

/-- The state of such a port after it. -/
def portDowned (x : Nat) : Nat := if x = 1 ∨ x = 2 then 0 else x

theorem portDowned_idem (x : Nat) : portDowned (portDowned x) = portDowned x := by
  unfold portDowned
  split_ifs <;> omega

/-- What the loss of ports leaves: sessions, indexes, bays and the registers of the bays. -/
structure PortsGone (s t : State) : Prop where
  canon : Canonical t
  ses   : t.ses = s.ses
  vse   : t.vse = s.vse
  crt   : t.crt = s.crt
  bst   : ∀ b, b < 4 → bst t b = bst s b

theorem PortsGone.trans {u : State} (h : PortsGone s t) (h' : PortsGone t u) : PortsGone s u :=
  ⟨h'.canon, h'.ses.trans h.ses, h'.vse.trans h.vse, h'.crt.trans h.crt, fun b hb => (h'.bst b hb).trans (h.bst b hb)⟩

theorem setPst_portsGone (hs : Canonical s) (hp : p < 16) (st : Nat) : PortsGone s (setPst s p st) :=
  ⟨hs.setPst p st, setPst_ses .., setPst_vse .., setPst_crt .., fun b hb =>
    setPst_fld_other st (by dsimp only; omega) (by dsimp only; omega) (by dsimp only; omega)⟩

theorem fault_portsGone (hs : Canonical s) (n k c : Nat) (a : Word) (m x : Nat) : PortsGone s (fault s n k c a m x) :=
  ⟨hs.fault .., fault_ses .., fault_vse .., fault_crt .., fun b hb => fault_fld _ _ _ _ _ _ _ (by dsimp only; omega)⟩

theorem pst_setPst_other {q : Nat} (hq : q < 16) (h : q ≠ p) (st : Nat) : pst (setPst s p st) q = pst s q :=
  setPst_fld_other st (by dsimp only; omega) (by dsimp only; omega) (by dsimp only; omega)

theorem portDown_step (hs : Canonical s) (hp : p < 16) :
    PortsGone s (portDown s p) ∧ ∀ q, q < 16 → pst (portDown s p) q = if q = p then portDowned (pst s q) else pst s q := by
  have hdown : ∀ q, q < 16 → pst s p = 1 ∨ pst s p = 2 →
      pst (setPst s p 0) q = if q = p then portDowned (pst s q) else pst s q := by
    intro q hq hup
    by_cases hqp : q = p
    · rw [if_pos hqp, hqp, portDowned, if_pos hup, pst_setPst hs hp (by decide)]
    · rw [if_neg hqp, pst_setPst_other hq hqp]
  have hgone := setPst_portsGone hs hp 0
  by_cases h2 : pst s p = 2
  · have hstep : portDown s p = fault (setPst s p 0) (portSource p 5) 0x06 0 (BitVec.ofNat 64 p) (0x3000 + p) :=
      (if_pos h2).trans (if_pos ⟨hp, h2⟩)
    rw [hstep]
    exact ⟨hgone.trans (fault_portsGone hgone.canon ..), fun q hq => (pst_fault hq ..).trans (hdown q hq (.inr h2))⟩
  · by_cases h1 : pst s p = 1
    · have hstep : portDown s p = setPst s p 0 := (if_neg h2).trans (if_pos h1)
      rw [hstep]
      exact ⟨hgone, fun q hq => hdown q hq (.inl h1)⟩
    · have hstep : portDown s p = s := (if_neg h2).trans (if_neg h1)
      rw [hstep]
      refine ⟨⟨hs, rfl, rfl, rfl, fun _ _ => rfl⟩, fun q _ => ?_⟩
      by_cases hqp : q = p
      · rw [if_pos hqp, hqp, portDowned, if_neg (not_or.2 ⟨h1, h2⟩)]
      · rw [if_neg hqp]

theorem portsDown_step (hs : Canonical s) {l : List Nat} (hl : ∀ q ∈ l, q < 16) :
    PortsGone s (l.foldl portDown s) ∧
      ∀ q, q < 16 → pst (l.foldl portDown s) q = if q ∈ l then portDowned (pst s q) else pst s q :=
  foldl_maps (P := PortsGone s) portDowned_idem (fun _ _ hu hk =>
    have ⟨hgone, hpst⟩ := portDown_step hu.canon hk
    ⟨hu.trans hgone, hpst⟩) l s hl ⟨hs, rfl, rfl, rfl, fun _ _ => rfl⟩

/-! ### The cartridge links -/

/-- No session, no index, and no item waits for a bay. -/
def NothingWaits (s : State) : Prop := s.ses.entries = [] ∧ s.vse = [] ∧ ∀ b, b < 4 → (s.bay b).waitItems = []

/-- The state of a bay whose link is gone. -/
def linkDowned (x : Nat) : Nat := if x = 3 ∨ x = 5 ∨ x = 6 then 10 else x

theorem linkDowned_idem (x : Nat) : linkDowned (linkDowned x) = linkDowned x := by
  unfold linkDowned
  split_ifs <;> omega

theorem bayGone_quiet (h : NothingWaits s) (hb : b < 4) : bayGone s b = s.setBay b { s.bay b with waitItems := [] } := by
  obtain ⟨hses, hvse, hitems⟩ := h
  have hpark : parkingTo s b = [] := by rw [parkingTo, hses]; rfl
  have hrev : revivingFrom s b = [] := by rw [revivingFrom, hses]; rfl
  unfold bayGone
  rw [hpark]
  dsimp only [List.foldl_nil]
  rw [hrev]
  dsimp only [List.foldl_nil]
  rw [hses]
  dsimp only [List.foldl_nil]
  rw [hitems b hb]
  dsimp only [List.foldl_nil]
  rw [setBay_vse, hvse]
  rfl

theorem cartridgeLost_quiet (h : s.ses.entries = []) (b serial : Nat) : cartridgeLost s b serial = s := by
  rw [cartridgeLost, h]
  rfl

theorem NothingWaits.congr (h : NothingWaits s) (hses : t.ses = s.ses) (hvse : t.vse = s.vse)
    (hbay : ∀ b, b < 4 → (t.bay b).waitItems = (s.bay b).waitItems) : NothingWaits t := by
  obtain ⟨h1, h2, h3⟩ := h
  exact ⟨by rw [hses, h1], by rw [hvse, h2], fun b hb => (hbay b hb).trans (h3 b hb)⟩

theorem setBst_waitItems (s : State) (b st k : Nat) : ((setBst s b st).bay k).waitItems = (s.bay k).waitItems := by
  by_cases hk : k = b
  · rw [hk, setBst_bay]
  · rw [setBst_bay_other _ hk]

/-- A bay goes to a state: of the registers of bays and ports its own alone is written. -/
theorem setBst_fld_other (hs : Canonical s) (st : Nat) {g : Field} (hlo : 0x800000 ≤ g.off) (hhi : g.off < 0xA00000)
    (h : g.off ≠ (CRT_BAY_STATE b).off) : (setBst s b st).fld g = s.fld g := by
  rw [setBst, showBays_fld ((hs.setFld _ _).setBay _ _) (.inl (by dsimp only; omega)) (by omega) (by omega) (.inl (by omega)),
    setBay_at_fld, fld_setFld_other _ _ h]

/-- What the loss of a link leaves: nothing waits yet, and the registers of other bays and of the ports. -/
structure LinkGone (b : Nat) (s t : State) : Prop where
  canon : Canonical t
  quiet : NothingWaits t
  fld   : ∀ g : Field, 0x800000 ≤ g.off → g.off < 0xA00000 → g.off ≠ (CRT_BAY_STATE b).off → t.fld g = s.fld g

theorem setBst_linkGone (hs : Canonical s) (hq : NothingWaits s) (st : Nat) : LinkGone b s (setBst s b st) :=
  ⟨hs.setBst b st, hq.congr (setBst_ses ..) (setBst_vse ..) fun k _ => setBst_waitItems s b st k,
    fun _ hlo hhi h => setBst_fld_other hs st hlo hhi h⟩

/-- The fault of a lost link recorded. -/
def linkFault (s : State) (b : Nat) : State :=
  fault (s.setFld (CRT_BAY_LANES_GOOD b) 0) (baySource b 7) 0x06 0 (BitVec.ofNat 64 b) (0x4000 + b)

theorem linkFault_linkGone (hs : Canonical s) (hq : NothingWaits s) (b : Nat) : LinkGone b s (linkFault s b) := by
  refine ⟨(hs.setFld _ _).fault .., hq.congr ?_ ?_ fun k _ => ?_, fun g hlo hhi h => ?_⟩
  · rw [linkFault, fault_ses, setFld_ses]
  · rw [linkFault, fault_vse, setFld_vse]
  · rw [linkFault, fault_at_bay, setFld_at_bay]
  · rw [linkFault, fault_fld _ _ _ _ _ _ _ hhi]
    exact fld_setFld_other _ _ h

theorem LinkGone.trans {u : State} (h : LinkGone b s t) (h' : LinkGone b t u) : LinkGone b s u :=
  ⟨h'.canon, h'.quiet, fun g hlo hhi ho => (h'.fld g hlo hhi ho).trans (h.fld g hlo hhi ho)⟩

theorem capacityChange_linkGone (hs : Canonical s) (hq : NothingWaits s) : LinkGone b s (capacityChange s) :=
  ⟨hs.capacityChange, hq.congr (capacityChange_ses _) (capacityChange_vse _) fun k _ => by rw [capacityChange_at_bay],
    fun _ hlo hhi _ => capacityChange_fld_below hs (by omega) (.inl (by omega))⟩

theorem bayGone_linkGone (hs : Canonical s) (hq : NothingWaits s) (hb : b < 4) : LinkGone b s (bayGone s b) := by
  rw [bayGone_quiet hq hb]
  refine ⟨hs.setBay _ _, hq.congr (setBay_ses ..) (setBay_vse ..) fun k _ => ?_, fun g _ _ _ => setBay_at_fld ..⟩
  by_cases hk : k = b
  · rw [hk, setBay_same, hq.2.2 b hb]
  · rw [setBay_other _ _ _ hk]

theorem linkGone_step (hs : Canonical s) (hq : NothingWaits s) (hb : b < 4) :
    LinkGone b s (linkGone s b) ∧ bst (linkGone s b) b = linkDowned (bst s b) := by
  by_cases huse : bst s b = 5 ∨ bst s b = 6
  · have hfault := linkFault_linkGone hs hq b
    have hfailed := setBst_linkGone (b := b) hfault.canon hfault.quiet 10
    have hgone := bayGone_linkGone hfailed.canon hfailed.quiet hb
    have hchange := capacityChange_linkGone (b := b) hgone.canon hgone.quiet
    have hstep : linkGone s b = capacityChange (bayGone (setBst (linkFault s b) b 10) b) :=
      (if_pos huse).trans (cartridgeLost_quiet hchange.quiet.1 b _)
    rw [hstep]
    refine ⟨((hfault.trans hfailed).trans hgone).trans hchange, ?_⟩
    rw [linkDowned, if_pos (.inr huse), bst, fld_of_reg (capacityChange_crtReg _ (crtReg_of_bay hb (by simp) (by simp))),
      bayGone_quiet hfailed.quiet hb, setBay_at_fld]
    exact bst_setBst hfault.canon hb (by decide)
  · by_cases htrain : bst s b = 3
    · have hstep : linkGone s b = setBst s b 10 := (if_neg huse).trans (if_pos htrain)
      rw [hstep, linkDowned, if_pos (.inl htrain)]
      exact ⟨setBst_linkGone hs hq 10, bst_setBst hs hb (by decide)⟩
    · have hstep : linkGone s b = s := (if_neg huse).trans (if_neg htrain)
      rw [hstep, linkDowned, if_neg (not_or.2 ⟨htrain, huse⟩)]
      exact ⟨⟨hs, hq, fun _ _ _ _ => rfl⟩, rfl⟩

/-- A state in which nothing waits, and whose ports are as in `s`. -/
def QuietWithPorts (s u : State) : Prop := Canonical u ∧ NothingWaits u ∧ ∀ p, p < 16 → pst u p = pst s p

theorem linksGone_step (hs : Canonical s) (hq : NothingWaits s) {l : List Nat} (hl : ∀ c ∈ l, c < 4) :
    QuietWithPorts s (l.foldl linkGone s) ∧
      ∀ c, c < 4 → bst (l.foldl linkGone s) c = if c ∈ l then linkDowned (bst s c) else bst s c := by
  refine foldl_maps (P := QuietWithPorts s) linkDowned_idem (fun u k ⟨hu, hquiet, hports⟩ hk => ?_) l s hl ⟨hs, hq, fun _ _ => rfl⟩
  obtain ⟨hgone, hbst⟩ := linkGone_step hu hquiet hk
  refine ⟨⟨hgone.canon, hgone.quiet, fun p hp => ?_⟩, fun c hc => ?_⟩
  · exact (hgone.fld (FAB_PORT_STATE p) (by dsimp only; omega) (by dsimp only; omega) (by dsimp only; omega)).trans (hports p hp)
  · by_cases hck : c = k
    · rw [if_pos hck, hck, hbst]
    · rw [if_neg hck]
      exact hgone.fld (CRT_BAY_STATE c) (by dsimp only; omega) (by dsimp only; omega) (by dsimp only; omega)

/-! ### The reference -/

/-- The reference of a hub seen absent. -/
def serdesOff (s : State) (h : Nat) : State := { s with pins := { s.pins with serdes := s.pins.serdes.set h false } }

theorem referenceLost_waiting {h : Nat} (hh : h < 2) (hawake : s.awake = true) (hphase : s.fld GLB_STATE_START_PHASE = 1) :
    referenceLost s h = if s.isl.phaseAt + 8 * 10 ^ 8 ≤ s.clk.now
      then { serdesOff s h with sec := { s.sec with lastStatus := 0xC002 } } else serdesOff s h :=
  (if_neg fun hno => hno.elim (Nat.not_le.2 hh) (by simp [hawake])).trans (if_pos hphase)

theorem serdesReferenceAbsent_waits {h : Nat} (hh : h < 2) (hawake : s.awake = true) (hphase : s.fld GLB_STATE_START_PHASE = 1) :
    Ends (.serdesReferenceAbsent h) s fun t => t.pins.serdes = s.pins.serdes.set h false ∧ t.regs = s.regs ∧
      t.sec.lastStatus = (if s.isl.phaseAt + 8 * 10 ^ 8 ≤ s.clk.now then 0xC002 else s.sec.lastStatus) := by
  have heq := referenceLost_waiting hh hawake hphase
  by_cases hlate : s.isl.phaseAt + 8 * 10 ^ 8 ≤ s.clk.now
  · rw [if_pos hlate] at heq ⊢
    exact ends_of_eq (u := referenceLost s h) rfl heq ⟨rfl, rfl, rfl⟩
  · rw [if_neg hlate] at heq ⊢
    exact ends_of_eq (u := referenceLost s h) rfl heq ⟨rfl, rfl, rfl⟩

theorem referenceLost_running {h : Nat} (hh : h < 2) (hawake : s.awake = true) (hlo : 2 ≤ s.fld GLB_STATE_START_PHASE)
    (hhi : s.fld GLB_STATE_START_PHASE ≤ 8) : referenceLost s h =
      ([2 * h, 2 * h + 1] : List Nat).foldl linkGone (((List.range 8).map (8 * h + ·)).foldl portDown (serdesOff s h)) :=
  (if_neg fun hno => hno.elim (Nat.not_le.2 hh) (by simp [hawake])).trans
    ((if_neg (by show ¬ s.fld GLB_STATE_START_PHASE = 1; omega)).trans
      (if_neg (by show ¬ (s.fld GLB_STATE_START_PHASE = 0 ∨ s.fld GLB_STATE_START_PHASE = 0xF); omega)))

theorem serdesReferenceAbsent_downs (hs : Canonical s) {h : Nat} (hh : h < 2) (hawake : s.awake = true)
    (hlo : 2 ≤ s.fld GLB_STATE_START_PHASE) (hhi : s.fld GLB_STATE_START_PHASE ≤ 8) (hq : NothingWaits s) :
    Ends (.serdesReferenceAbsent h) s fun t =>
      (∀ p, p < 16 → p / 8 = h → pst t p = (if pst s p = 1 ∨ pst s p = 2 then 0 else pst s p)) ∧
      ∀ b, b < 4 → b / 2 = h → bst t b = (if bst s b = 3 ∨ bst s b = 5 ∨ bst s b = 6 then 10 else bst s b) := by
  have hoff : Canonical (serdesOff s h) := canonical_pins hs _
  obtain ⟨hgone, hpst⟩ := portsDown_step hoff (l := (List.range 8).map (8 * h + ·))
    (fun q hq => by obtain ⟨k, hk, rfl⟩ := List.mem_map.1 hq; have := List.mem_range.1 hk; omega)
  have hquiet : NothingWaits (((List.range 8).map (8 * h + ·)).foldl portDown (serdesOff s h)) :=
    hq.congr hgone.ses hgone.vse fun b _ => by rw [State.bay, hgone.crt]; rfl
  obtain ⟨⟨-, -, hports⟩, hbst⟩ := linksGone_step hgone.canon hquiet (l := [2 * h, 2 * h + 1]) (by simp; omega)
  refine ends_of_eq (u := referenceLost s h) rfl (referenceLost_running hh hawake hlo hhi) ⟨fun p hp hph => ?_, fun b hb hbh => ?_⟩
  · have hmem : p ∈ (List.range 8).map (8 * h + ·) := List.mem_map.2 ⟨p % 8, List.mem_range.2 (by omega), by omega⟩
    rw [hports p hp, hpst p hp, if_pos hmem]
    rfl
  · have hmem : b ∈ [2 * h, 2 * h + 1] := by simp; omega
    rw [hbst b hb, if_pos hmem, hgone.bst b hb]
    rfl

end Sys2Proof.Machine
end

section
/-! Supplies, references, heat, the host port and the scrub (O60). -/

namespace Sys2Proof.Machine

theorem not_awake_and {s : State} {P : Prop} (h : s.awake = false ∨ ¬ P) : ¬ (s.awake = true ∧ P) := by
  rintro ⟨hawake, hP⟩
  exact h.elim (by simp [hawake]) (· hP)

/-- Settles O60: each event by the bounds it carries and by whether the device runs. -/
theorem suppliesHeatClocksAndHostPortAct : Obligations.SuppliesHeatClocksAndHostPortAct := by
  unfold Obligations.SuppliesHeatClocksAndHostPortAct
  intro s hs
  refine ⟨fun hn => ⟨pwrfailNAsserted_seals hs hn, pwrfailNAsserted_stopped hs hn⟩,
    fun hn => exec_unchanged (u := powerFails s) rfl (if_neg (by simp [hn])),
    ⟨pwrfailNDeasserted_restarts hs, pwrfailNDeasserted_stays hs⟩,
    fun v => ⟨standbyRailUp_starts hs, fun h => exec_unchanged (u := standbyUp s v) rfl (if_neg (by omega))⟩,
    fun v hawake hlo hhi => ⟨vinLow_seals hs hawake hlo hhi, vinLow_failed hs hawake hlo hhi⟩,
    fun v h => exec_unchanged (u := inputLow s v) rfl (if_neg (not_awake_and (h.imp_right fun hv => by omega))),
    fun v hawake hlo hhi => ⟨vinHighWarning_reports hs hawake hlo hhi, fun t0 => vinHighWarning_early hs hawake hlo hhi⟩,
    fun v h => exec_unchanged (u := inputHigh s v) rfl (if_neg (not_awake_and (h.imp_right fun hv => by omega))),
    fun v => ⟨vinOvervoltage_holds s, fun h => exec_unchanged (u := inputOver s v) rfl (if_neg (by omega))⟩,
    fun vin vsb => ⟨railCollapse_loses_standby hs vin, railCollapse_holds hs,
      fun hvsb hvin => exec_unchanged (u := railsGone s vin vsb) rfl ((if_neg (by omega)).trans (if_neg (by omega)))⟩,
    fun h => ⟨fun hno => exec_unchanged (u := referenceLost s h) rfl (if_pos hno), serdesReferenceAbsent_waits,
      fun hh hawake hlo hhi hses hvse hitems => serdesReferenceAbsent_downs hs hh hawake hlo hhi ⟨hses, hvse, hitems⟩⟩,
    fun tj => ⟨thermtrip_seals hs, fun h => exec_unchanged (u := tripped s tj) rfl (if_neg (by omega))⟩,
    fun tj h => ⟨thermalThrottle_limits hs h, thermalThrottle_limited hs h,
      fun hno => exec_unchanged (u := throttle s tj h) rfl (if_neg (not_awake_and (hno.imp_right fun hv => by omega))),
      fun t0 => thermalLimitAll_limits hs h, fun hno => exec_unchanged (u := limitAll s tj h) rfl (limitAll_of_not hno)⟩,
    fun tj => ⟨fun t0 => thermalLimitLift_lifts hs, fun hno => exec_unchanged (u := liftLimits s tj) rfl (liftLimits_of_not hno)⟩,
    fun fn on => ⟨srIovVfEnable_enables hs on, fun hno => exec_unchanged (u := enableVf s fn on) rfl (if_neg hno)⟩,
    fun n => ⟨pcieLinkRetrain_narrows, pcieLinkRetrain_stays⟩,
    fun src => ⟨fun i => hostMemoryReadTimeout_fails, hostMemoryReadTimeout_stays⟩,
    fun n => memoryScrub_scrubs hs, fun n hn => exec_unchanged (u := scrub s n) rfl (if_pos hn)⟩

end Sys2Proof.Machine
end

section
/-! Completions of items, and what queue pairs send: what both leave of a state (R463, R467, R535). -/

namespace Sys2Proof.Machine

variable {s t : State} {q : Nat}

/-! ### Completions (R535) -/

@[simp] theorem queueError_fab (s : State) (c q st : Nat) : (queueError s c q st).fab = s.fab := rfl
@[simp] theorem queueError_hbm (s : State) (c q st : Nat) : (queueError s c q st).hbm = s.hbm := rfl

@[simp] theorem writeEntry_fab (s : State) (c q : Nat) (x : Completion) : (writeEntry s c q x).fab = s.fab := by
  unfold writeEntry; dsimp only; split_ifs <;> simp
@[simp] theorem writeEntry_hbm (s : State) (c q : Nat) (x : Completion) : (writeEntry s c q x).hbm = s.hbm := by
  unfold writeEntry; dsimp only; split_ifs <;> simp

@[simp] theorem post_fab (s : State) (c q : Nat) (x : Completion) : (post s c q x).fab = s.fab := by
  unfold post; dsimp only; split_ifs <;> simp
@[simp] theorem post_hbm (s : State) (c q : Nat) (x : Completion) : (post s c q x).hbm = s.hbm := by
  unfold post; dsimp only; split_ifs <;> simp

@[simp] theorem complete_fab (s : State) (src : Src) (op st : Nat) (r o g : Word) : (complete s src op st r o g).fab = s.fab := by
  unfold complete; dsimp only; split_ifs <;> simp
@[simp] theorem complete_hbm (s : State) (src : Src) (op st : Nat) (r o g : Word) : (complete s src op st r o g).hbm = s.hbm := by
  unfold complete; dsimp only; split_ifs <;> simp
@[simp] theorem completeFail_fab (s : State) (src : Src) (op st : Nat) (o g : Word) :
    (completeFail s src op st o g).fab = s.fab := complete_fab s.draw.2 ..

@[simp] theorem completeFab_fab (s : State) (i : FabItem) (st : Nat) (r : Word) : (completeFab s i st r).fab = s.fab := by
  unfold completeFab
  split
  · rfl
  · split <;> simp

/-- Items that end together leave the fabric as it was. -/
theorem completeFabs_fab (st : Nat) (l : List FabItem) (s : State) :
    (l.foldl (fun s i => completeFab s i st 0) s).fab = s.fab :=
  foldl_frame (·.fab) (fun u i => completeFab_fab u i st 0) l s

/-! ### Queue pairs as a part of the fabric -/

theorem qp_of_qps (h : t.fab.qps = s.fab.qps) (q : Nat) : t.qp q = s.qp q := by rw [State.qp, h, State.qp]

theorem qp_of_fab (h : t.fab = s.fab) (q : Nat) : t.qp q = s.qp q := qp_of_qps (congrArg _ h) q

@[simp] theorem showSlots_qp (s : State) (q : Nat) : (showSlots s).qp q = s.qp q := rfl

theorem showSlots_reg (s : State) {o : Nat} (h : o ≠ 0x900010) : (showSlots s).reg o = s.reg o :=
  (reg_setFld_other _ _ h).trans (reg_setFld_other _ _ h)

/-! ### Frames sent (R463, R467) -/

theorem send_qps (s : State) (m : Sent) : (send s m).fab.qps = s.fab.qps := by unfold send; split <;> rfl

/-- A frame that is sent changes the log of frames sent alone. -/
theorem sendFrame_upd (s : State) (p : Nat) (f : EftFrame) :
    ∃ l, sendFrame s p f = { s with fab := { s.fab with sent := l } } := by
  unfold sendFrame send
  split
  · split <;> exact ⟨_, rfl⟩
  · exact ⟨_, rfl⟩

section
variable (s : State) (p : Nat) (f : EftFrame)

@[simp] theorem sendFrame_qps : (sendFrame s p f).fab.qps = s.fab.qps := by obtain ⟨l, h⟩ := sendFrame_upd s p f; rw [h]
@[simp] theorem sendFrame_qp : (sendFrame s p f).qp q = s.qp q := qp_of_qps (sendFrame_qps s p f) q
@[simp] theorem sendFrame_regs : (sendFrame s p f).regs = s.regs := by obtain ⟨l, h⟩ := sendFrame_upd s p f; rw [h]
@[simp] theorem sendFrame_hbm : (sendFrame s p f).hbm = s.hbm := by obtain ⟨l, h⟩ := sendFrame_upd s p f; rw [h]
@[simp] theorem sendFrame_host : (sendFrame s p f).host = s.host := by obtain ⟨l, h⟩ := sendFrame_upd s p f; rw [h]

end

section
variable (s : State) (q kind a r y : Nat)

/-- An acknowledgement leaves nothing unacknowledged. -/
@[simp] theorem sendAck_qp : (sendAck s q kind a r y).qp q = { s.qp q with unacked := 0 } := by
  simp [sendAck]

@[simp] theorem sendAck_regs : (sendAck s q kind a r y).regs = s.regs := by simp [sendAck]
@[simp] theorem sendAck_hbm : (sendAck s q kind a r y).hbm = s.hbm := by simp [sendAck]

end

theorem sendConnect_upd (s : State) (q : Nat) : ∃ l, sendConnect s q = { s with fab := { s.fab with sent := l } } := by
  unfold sendConnect
  dsimp only
  split
  · exact ⟨_, rfl⟩
  · exact sendFrame_upd ..

@[simp] theorem sendConnect_qps (s : State) (q : Nat) : (sendConnect s q).fab.qps = s.fab.qps := by
  obtain ⟨l, h⟩ := sendConnect_upd s q; rw [h]
@[simp] theorem sendConnect_regs (s : State) (q : Nat) : (sendConnect s q).regs = s.regs := by
  obtain ⟨l, h⟩ := sendConnect_upd s q; rw [h]
@[simp] theorem sendConnect_host (s : State) (q : Nat) : (sendConnect s q).host = s.host := by
  obtain ⟨l, h⟩ := sendConnect_upd s q; rw [h]

end Sys2Proof.Machine
end

section
/-! The states of a queue pair (R473, R474): what a flush, a binding and a transition leave of the queue pair itself. -/

namespace Sys2Proof.Machine

variable {s : State} {q st : Nat}

/-! ### Binding and connecting -/

theorem rebind_qp (s : State) (q : Nat) : ∃ p n, (rebind s q).qp q = { s.qp q with port := p, txPsn := n } := by
  unfold rebind
  dsimp only
  split
  · split
    · split
      · exact ⟨_, _, rfl⟩
      · exact ⟨_, _, setQp_same ..⟩
    · exact ⟨_, _, rfl⟩
  · exact ⟨_, _, rfl⟩

@[simp] theorem rebind_host (s : State) (q : Nat) : (rebind s q).host = s.host :=
  view_of_withoutQps (·.host) (fun _ => rfl) (withoutQps_rebind s q)

theorem startConnect_qp (s : State) (q : Nat) (src : Option Src) : ∃ p n, (startConnect s q src).qp q =
    { s.qp q with state := .connecting, connect := some (src, s.clk.now), port := p, txPsn := n } := by
  obtain ⟨p, n, h⟩ := rebind_qp (s.setQp q { s.qp q with state := .connecting, connect := some (src, s.now) }) q
  refine ⟨p, n, ?_⟩
  rw [startConnect, qp_of_qps (sendConnect_qps ..), h, setQp_same]
  rfl

@[simp] theorem startConnect_host (s : State) (q : Nat) (src : Option Src) : (startConnect s q src).host = s.host := by
  simp [startConnect]

/-! ### Flushes -/

theorem finishConnect_qp (s : State) (q st : Nat) : (finishConnect s q st).qp q = { s.qp q with connect := none } := by
  unfold finishConnect
  dsimp only
  split
  · next h => rw [← h]
  · split
    · exact setQp_same ..
    · split
      · exact (qp_of_fab (complete_fab ..) q).trans (setQp_same ..)
      · exact (qp_of_fab (completeFail_fab ..) q).trans (setQp_same ..)

theorem flushQp_qp (s : State) (q st : Nat) :
    ∃ n, (flushQp s q st).qp q = { s.qp q with items := [], cqCount := n, connect := none } := by
  unfold flushQp
  dsimp only
  rw [finishConnect_qp, qp_of_fab (completeFabs_fab ..), setQp_same]
  exact ⟨_, rfl⟩

theorem enterInit_qp (s : State) (q : Nat) : (enterInit s q).qp q =
    { quietQp (s.qp q) with state := .init, instar := if (s.qp q).instar = 0xFFFFFF then 1 else (s.qp q).instar + 1 } :=
  setQp_same ..

/-- The flush with which a queue pair enters ERROR. -/
def flushedError (s : State) (q st : Nat) : State :=
  flushQp (s.setQp q { quietQp (s.qp q) with state := .error, lastError := st }) q st

theorem enterError_eq (s : State) (q st : Nat) : enterError s q st =
    if (s.qp q).ownerKind = 0 then flushedError s q st else startConnect (flushedError s q st) q none := rfl

theorem flushedError_qp (s : State) (q st : Nat) : ∃ n, (flushedError s q st).qp q =
    { quietQp (s.qp q) with state := .error, lastError := st, items := [], cqCount := n, connect := none } := by
  obtain ⟨n, h⟩ := flushQp_qp (s.setQp q { quietQp (s.qp q) with state := .error, lastError := st }) q st
  rw [setQp_same] at h
  exact ⟨n, h⟩

/-- The queue pair of a context that enters ERROR stays there. -/
theorem enterError_qp (hkind : (s.qp q).ownerKind = 0) (st : Nat) : ∃ n, (enterError s q st).qp q =
    { quietQp (s.qp q) with state := .error, lastError := st, items := [], cqCount := n, connect := none } := by
  rw [enterError_eq, if_pos hkind]
  exact flushedError_qp s q st

/-- A queue pair that holds no packet (R481). -/
def HoldsNone (x : Qp) : Prop := x.held = none ∧ x.heldNext = []

/-- A queue pair that enters ERROR, and perhaps connects again, holds no packet. -/
theorem enterError_holdsNone (s : State) (q st : Nat) : HoldsNone ((enterError s q st).qp q) := by
  obtain ⟨n, h⟩ := flushedError_qp s q st
  rw [enterError_eq]
  split
  · rw [h]
    exact ⟨rfl, rfl⟩
  · obtain ⟨p, k, hconnect⟩ := startConnect_qp (flushedError s q st) q none
    rw [hconnect, h]
    exact ⟨rfl, rfl⟩

end Sys2Proof.Machine
end

section
/-! Claiming a queue pair, its windows and its send queue (R471 to R473, R475, R476, R479, R488). -/

namespace Sys2Proof.Machine

variable {s : State} {src : Src} {q : Nat}

/-! ### Items that are refused -/

/-- An item that its body refuses without an effect completes with the status. -/
theorem runItem_refused {op st : Nat} {body : State → State × Reply} {early : Bool} (hgo : ItemGo s src)
    (hb : body s = (s, .status st)) : runItem s src op body early = completeFail s src op st 0 0 := runItem_fail hgo hb

/-! ### fab.qpc (R472, R473) -/

/-- A queue pair as fab.qpc claims it: only its instar is left of what it was. -/
def claimedQp (s : State) (src : Src) (kind slice cls window depth : Nat) (counter : Word) (q : Nat) : Qp :=
  { qp0 with ownerKind := kind, owner := if kind = 0 then src.ctx else slice, cls := cls, window := window, depth := depth,
             counter := counter, instar := (s.qp q).instar }

section
variable {kind slice cls window depth : Nat} {counter : Word}

theorem qpcBody_claims (hkind : kind ≤ 1) (hctx : kind = 1 → src.ctx = 0) (hw1 : 1 ≤ window) (hw2 : window ≤ 4096)
    (hd1 : 16 ≤ depth) (hd2 : depth ≤ 4096) (hclass : classOk s kind slice cls = true) (hfree : freeQp s = some q) :
    let t := enterInit (s.setQp q (claimedQp s src kind slice cls window depth counter q)) q
    qpcBody src kind slice cls window depth counter s = (t, .done 0 (BitVec.ofNat 64 (q + (t.qp q).instar * 2 ^ 16)) 0 0) := by
  rw [qpcBody, if_neg (by simp [hclass]; omega), if_neg (by tauto), hfree]
  rfl

theorem fabQpc_claims (hgo : ItemGo s src) (hkind : kind ≤ 1) (hctx : kind = 1 → src.ctx = 0) (hw1 : 1 ≤ window)
    (hw2 : window ≤ 4096) (hd1 : 16 ≤ depth) (hd2 : depth ≤ 4096) (hclass : classOk s kind slice cls = true)
    (hfree : freeQp s = some q) : ∃ t : State,
      let i := if (s.qp q).instar = 0xFFFFFF then 1 else (s.qp q).instar + 1
      Completes (.fabQpc src kind slice cls window depth counter) s src 0xF6 0 (BitVec.ofNat 64 (q + i * 2 ^ 16)) 0 0 t ∧
      (t.qp q).state = .init ∧ (t.qp q).instar = i ∧ (t.qp q).ownerKind = kind ∧
      (t.qp q).owner = (if kind = 0 then src.ctx else slice) ∧ (t.qp q).cls = cls ∧ (t.qp q).window = window ∧
      (t.qp q).depth = depth ∧ (t.qp q).items = [] ∧ (t.qp q).windows = [] ∧ t.regs = s.regs ∧ ∀ r, r ≠ q → t.qp r = s.qp r := by
  have hbody := qpcBody_claims (counter := counter) hkind hctx hw1 hw2 hd1 hd2 hclass hfree
  have hqp := enterInit_qp (s.setQp q (claimedQp s src kind slice cls window depth counter q)) q
  rw [setQp_same] at hqp
  refine ⟨enterInit (s.setQp q (claimedQp s src kind slice cls window depth counter q)) q, ?_⟩
  dsimp only at hbody ⊢
  rw [hqp] at hbody ⊢
  refine ⟨congrArg _ (runItem_done hgo hbody), rfl, rfl, rfl, rfl, rfl, rfl, rfl, rfl, rfl, rfl, fun r hr => ?_⟩
  rw [enterInit, setQp_other _ _ _ hr, setQp_other _ _ _ hr]

end

/-! ### fab.win (R475) -/

theorem winBody_adds {w : Window} (hown : ownsQp s src.ctx q = true) (hmode : w.mode ≤ 2)
    (hfits : w.mode = 0 → w.base + w.len ≤ 2 ^ 39) (hfree : firstFree (s.qp q).windows 0 < 16) :
    winBody src q w s = (s.setQp q { s.qp q with windows := mset (s.qp q).windows (firstFree (s.qp q).windows 0) w },
      .done 0 (BitVec.ofNat 64 (firstFree (s.qp q).windows 0)) 0 0) := by
  rw [winBody, if_neg (by omega), if_neg (by simp [hown])]
  exact if_neg (by omega)

theorem fabWin_adds (hgo : ItemGo s src) {mode stall len : Nat} {rd wr at_ : Bool} {base : Word}
    (hown : ownsQp s src.ctx q = true) (hmode : mode ≤ 2) (hfits : mode = 0 → base.toNat + len ≤ 2 ^ 39)
    (hfree : firstFree (s.qp q).windows 0 < 16) : ∃ t : State,
      Completes (.fabWin src q rd wr at_ mode stall base len) s src 0xF8 0
        (BitVec.ofNat 64 (firstFree (s.qp q).windows 0)) 0 0 t ∧
      mget (t.qp q).windows (firstFree (s.qp q).windows 0) = some ⟨base.toNat, len, rd, wr, at_, mode, stall⟩ :=
  ⟨_, congrArg _ (runItem_done hgo (winBody_adds (w := ⟨base.toNat, len, rd, wr, at_, mode, stall⟩) hown hmode hfits hfree)),
    by rw [setQp_same]; exact mget_mset_same ..⟩

/-! ### fab.post (R471, R476, R479) -/

section
variable {i : FabItem}

/-- fab.post of an item that is in order: it joins the send queue where there is room and nothing waits before it. -/
theorem postBody_eq (hok : postOk i.op i.len i.laddr = true) (hown : ownsQp s src.ctx q = true) (hready : (s.qp q).state = .ready)
    (hwait : i.wait = true → ownsQp s src.ctx i.waitQp = true) (hroute : (routeOf s (s.qp q).peerDev).isSome = true) :
    postBody i src q s =
      if (s.qp q).items.length < (s.qp q).depth ∧ (s.fab.waiting.any fun y => decide (y.1 = q)) = false then
        (s.setQp q { s.qp q with
          items := (s.qp q).items ++ [{ i with posted := s.clk.now, src := some src, seq := (s.qp q).nextSeq }],
          nextSeq := (s.qp q).nextSeq + 1 }, .later)
      else ({ s with fab := { s.fab with waiting := s.fab.waiting ++ [(q, { i with posted := s.clk.now, src := some src })] } },
        .later) := by
  have hwaits : (i.wait && !ownsQp s src.ctx i.waitQp) = false := by
    cases h : i.wait
    · rfl
    · simp [hwait h]
  unfold postBody
  dsimp only
  rw [if_neg (by simp [hok]), if_neg (by simp [hown, hready, hwaits]), if_neg (by simpa [Option.isSome_iff_ne_none] using hroute)]
  rfl

theorem postBody_refuses (hok : postOk i.op i.len i.laddr = false) : postBody i src q s = (s, .status 0x900B) :=
  if_pos (by simp [hok])

end

theorem fabPost_posts (hgo : ItemGo s src) {op wk wq raddr len : Nat} {ch no wai : Bool} {la od sw thr : Word}
    (hok : postOk op len la = true) (hown : ownsQp s src.ctx q = true) (hready : (s.qp q).state = .ready)
    (hwait : wai = true → ownsQp s src.ctx wq = true) (hroute : (routeOf s (s.qp q).peerDev).isSome = true) :
    let x := s.qp q
    let i : FabItem := { src := some src, seq := x.nextSeq, op := op, chain := ch, notify := no, wait := wai, waitKind := wk,
                         waitQp := wq, laddr := la, raddr := raddr, len := len, operand := od, swap := sw, threshold := thr,
                         granted := 0, psn := 0, got := 0, result := 0, posted := s.clk.now }
    let c : Instr := .fabPost src q op ch no wai wk wq la raddr len od sw thr
    (x.items.length < x.depth → (∀ y ∈ s.fab.waiting, y.1 ≠ q) → Ends c s fun t =>
      t.qp q = { x with items := x.items ++ [i], nextSeq := x.nextSeq + 1 } ∧ t.host = s.host ∧ t.regs = s.regs) ∧
    (x.depth ≤ x.items.length → Ends c s fun t => t.qp q = x ∧ t.fab.waiting = s.fab.waiting ++ [(q, { i with seq := 0 })] ∧
      t.host = s.host) := by
  have hbody := postBody_eq (q := q)
    (i := { src := some src, seq := 0, op, chain := ch, notify := no, wait := wai, waitKind := wk, waitQp := wq, laddr := la,
            raddr, len, operand := od, swap := sw, threshold := thr, granted := 0, psn := 0, got := 0, result := 0, posted := 0 })
    hok hown hready hwait hroute
  refine ⟨fun hroom hnone => ?_, fun hfull => ?_⟩
  · rw [if_pos ⟨hroom, by simpa using hnone⟩] at hbody
    exact ends_of_eq rfl (runItem_later hgo hbody) ⟨setQp_same .., rfl, rfl⟩
  · rw [if_neg fun h => by omega] at hbody
    exact ends_of_eq rfl (runItem_later hgo hbody) ⟨rfl, rfl, rfl⟩

/-! ### fab.ctl connect (R452, R473) -/

theorem fabCtlConnect_starts (hgo : ItemGo s src) {dev pq : Nat} (hsealed : s.flag FAB_COMP_SEALED = true)
    (hown : ownsQp s src.ctx q = true) (hinit : (s.qp q).state = .init) (hroute : (routeOf s dev).isSome = true) :
    Ends (.fabCtlConnect src q dev pq) s fun t => (t.qp q).state = .connecting ∧ (t.qp q).peerDev = dev ∧ (t.qp q).peerQp = pq ∧
      (t.qp q).connect = some (some src, s.clk.now) ∧ (t.qp q).instar = (s.qp q).instar ∧ t.host = s.host := by
  have hbody : connectBody src q dev pq s =
      (startConnect (s.setQp q { s.qp q with peerDev := dev, peerQp := pq }) q (some src), .later) := by
    rw [connectBody, if_neg (by simp [hsealed]), if_neg (by simp [hown, hinit]),
      if_neg (by simpa [Option.isSome_iff_ne_none] using hroute)]
  obtain ⟨p, n, hqp⟩ := startConnect_qp (s.setQp q { s.qp q with peerDev := dev, peerQp := pq }) q (some src)
  rw [setQp_same] at hqp
  refine ends_of_eq rfl (runItem_later hgo hbody) ?_
  rw [hqp]
  exact ⟨rfl, rfl, rfl, rfl, rfl, startConnect_host ..⟩

end Sys2Proof.Machine
end

section
/-! fab.ctl on a queue pair that its sender owns, or does not own (R473, R474, R483, R489). -/

namespace Sys2Proof.Machine

variable {s : State} {src : Src} {q : Nat}

/-! ### Reset, destroy, cancel -/

theorem fabCtlReset_inits (hgo : ItemGo s src) (hown : ownsQp s src.ctx q = true) :
    ∃ t : State, Completes (.fabCtlReset src q) s src 0xF9 0 0 0 0 t ∧ (t.qp q).state = .init ∧ (t.qp q).items = [] ∧
      (t.qp q).connect = none ∧ (t.qp q).instar = (if (s.qp q).instar = 0xFFFFFF then 1 else (s.qp q).instar + 1) := by
  have hbody : qpResetBody src q s = (showSlots (enterInit (flushQp s q 0x9013) q), .ok) := if_neg (by simp [hown])
  obtain ⟨n, hflush⟩ := flushQp_qp s q 0x9013
  refine ⟨_, congrArg _ (runItem_done hgo hbody), ?_⟩
  rw [showSlots_qp, enterInit_qp, hflush]
  exact ⟨rfl, rfl, rfl, rfl⟩

theorem fabCtlDestroy_frees (hgo : ItemGo s src) (hown : ownsQp s src.ctx q = true) :
    ∃ t : State, Completes (.fabCtlDestroy src q) s src 0xF9 0 0 0 0 t ∧ t.qp q = { qp0 with instar := (s.qp q).instar } := by
  have hbody : qpDestroyBody src q s = (destroyQp s q, .ok) := if_neg (by simp [hown])
  obtain ⟨n, hflush⟩ := flushQp_qp s q 0x9013
  refine ⟨_, congrArg _ (runItem_done hgo hbody), ?_⟩
  rw [destroyQp, showSlots_qp, setQp_same, hflush]

/-- Cancelling leaves the items that have been granted, and none that waits for room (R483). -/
theorem cancelItems_leaves (s : State) (q : Nat) :
    ((cancelItems s q).qp q).items = (s.qp q).items.filter (fun i => decide (0 < i.granted)) ∧
    ((cancelItems s q).qp q).state = (s.qp q).state ∧ ∀ y ∈ (cancelItems s q).fab.waiting, y.1 ≠ q := by
  unfold cancelItems
  dsimp only
  rw [qp_of_fab (completeFabs_fab ..), setQp_same, completeFabs_fab]
  exact ⟨rfl, rfl, fun y hy => of_decide_eq_true (List.mem_filter.1 hy).2⟩

theorem fabCtlCancel_cancels (hgo : ItemGo s src) (hown : ownsQp s src.ctx q = true) :
    ∃ t : State, Completes (.fabCtlCancel src q) s src 0xF9 0 0 0 0 t ∧
      (t.qp q).items = (s.qp q).items.filter (fun i => decide (0 < i.granted)) ∧ (t.qp q).state = (s.qp q).state ∧
      ∀ y ∈ t.fab.waiting, y.1 ≠ q := by
  have hbody : qpCancelBody src q s = (cancelItems s q, .ok) := if_neg (by simp [hown])
  exact ⟨_, congrArg _ (runItem_done hgo hbody), cancelItems_leaves s q⟩

/-! ### Query, revoke window -/

theorem qpRecord_length (x : Qp) : (qpRecord x).length = 64 := by simp [qpRecord]

theorem fabCtlQuery_writes (hgo : ItemGo s src) (hown : ownsQp s src.ctx q = true) {a : Word} {t : State}
    (hwrite : itemWrite s src 2 a (qpRecord (s.qp q)) = .ok t) :
    (qpRecord (s.qp q)).length = 64 ∧ Completes (.fabCtlQuery src q a) s src 0xF9 0 0 0 0 t := by
  have hbody : qpQueryBody src q a s = (t, .ok) := by rw [qpQueryBody, if_neg (by simp [hown]), hwrite]
  exact ⟨qpRecord_length _, congrArg _ (runItem_done hgo hbody)⟩

theorem fabCtlRevokeWindow_revokes (hgo : ItemGo s src) (hown : ownsQp s src.ctx q = true) {w : Nat}
    (hwf : mwf (s.qp q).windows = true) : ∃ t : State, Completes (.fabCtlRevokeWindow src q w) s src 0xF9 0 0 0 0 t ∧
      mget (t.qp q).windows w = none ∧ ∀ v, v ≠ w → mget (t.qp q).windows v = mget (s.qp q).windows v := by
  have hbody : revokeBody src q w s = (s.setQp q { s.qp q with windows := mdel (s.qp q).windows w }, .ok) :=
    if_neg (by simp [hown])
  refine ⟨_, congrArg _ (runItem_done hgo hbody), ?_⟩
  rw [setQp_same]
  exact ⟨mget_mdel_same w hwf, fun v hv => mget_mdel_other hv _⟩

/-! ### Queue pairs of others (R472) -/

theorem fabCtl_notOwned (hgo : ItemGo s src) (hown : ownsQp s src.ctx q = false) (w : Nat) (a : Word) :
    exec (.fabCtlReset src q) s = .next (completeFail s src 0xF9 0x9004 0 0) ∧
    exec (.fabCtlDestroy src q) s = .next (completeFail s src 0xF9 0x9004 0 0) ∧
    exec (.fabCtlCancel src q) s = .next (completeFail s src 0xF9 0x9004 0 0) ∧
    exec (.fabCtlQuery src q a) s = .next (completeFail s src 0xF9 0x9004 0 0) ∧
    exec (.fabCtlRevokeWindow src q w) s = .next (completeFail s src 0xF9 0x9004 0 0) := by
  have hnot : (!ownsQp s src.ctx q) = true := by simp [hown]
  exact ⟨congrArg _ (runItem_refused hgo (if_pos hnot)), congrArg _ (runItem_refused hgo (if_pos hnot)),
    congrArg _ (runItem_refused hgo (if_pos hnot)), congrArg _ (runItem_refused hgo (if_pos hnot)),
    congrArg _ (runItem_refused hgo (if_pos hnot))⟩

end Sys2Proof.Machine
end

section
/-! fab.ctl compose (R451, R452), and the statement on the fabric items (O50). -/

namespace Sys2Proof.Machine

variable {s : State} {src : Src} {q : Nat} {bs : List Byte}

/-! ### The route table -/

/-- Writes the entries of some devices in the route table. -/
def setRoutes (v : Nat → Nat) (l : List Nat) (s : State) : State := l.foldl (fun s n => s.setFld (FAB_ROUTE_ENTRY n) (v n)) s

section
variable {v : Nat → Nat}

theorem Canonical.setRoutes : ∀ (l : List Nat) {s : State}, Canonical s → Canonical (setRoutes v l s)
  | [], _, hs => hs
  | n :: l, _, hs => Canonical.setRoutes l (hs.setFld (FAB_ROUTE_ENTRY n) (v n))

theorem setRoutes_fld {g : Field} (hg : g.off < 0x910000) (l : List Nat) (s : State) : (setRoutes v l s).fld g = s.fld g :=
  foldl_frame (·.fld g) (fun u n => fld_setFld_other u _ (by dsimp only; omega)) l s

theorem setRoutes_entry {n : Nat} (hv : v n < 2 ^ 32) : ∀ (l : List Nat) {s : State}, Canonical s →
    n ∈ l ∨ s.fld (FAB_ROUTE_ENTRY n) = v n → (setRoutes v l s).fld (FAB_ROUTE_ENTRY n) = v n
  | [], _, _, h => h.resolve_left List.not_mem_nil
  | k :: l, s, hs, h => by
    have hset : n ∈ l ∨ (s.setFld (FAB_ROUTE_ENTRY k) (v k)).fld (FAB_ROUTE_ENTRY n) = v n := by
      by_cases hk : n = k
      · rw [← hk]
        exact .inr (fld_setFld_of_lt hs (Nat.le_add_left _ _) hv)
      · refine h.imp (fun hmem => (List.mem_cons.1 hmem).resolve_left hk) fun hset => ?_
        rwa [fld_setFld_other _ _ (by dsimp only; omega)]
    rw [setRoutes, List.foldl_cons]
    exact setRoutes_entry hv l (hs.setFld (FAB_ROUTE_ENTRY k) (v k)) hset

end

/-! ### Applying a composition image -/

theorem imgNat_lt (bs : List Byte) (off n : Nat) : imgNat bs off n < 256 ^ n :=
  (leNat_lt _).trans_le (Nat.pow_le_pow_right (by decide) (List.length_take_le n _))

/-- The device address of an image, and the mark that it is valid. -/
def composeAddr (s : State) (bs : List Byte) : State :=
  ((s.setFld GLB_DEV_ADDR_DEVICE (bits (imgNat bs 16 8) 0 16 % 2 ^ 14)).setFld GLB_DEV_ADDR_PLANE
    (bits (imgNat bs 16 8) 0 16 / 2 ^ 15)).setFld GLB_DEV_ADDR_VALID 1

/-- The routes of an image. -/
def composeRoutes (s : State) (bs : List Byte) : State := setRoutes (fun n => imgNat bs (0x100 + 4 * n) 4) (List.range 16384) s

/-- The redundant pair of an image. -/
def composePair (s : State) (bs : List Byte) : State :=
  ((s.setFld FAB_PAIR_PARTNER (bits (imgNat bs 24 8) 32 16)).setFld FAB_PAIR_PORTS (bits (imgNat bs 32 8) 0 16)).setFld
    FAB_PAIR_HOPS (bits (imgNat bs 32 8) 16 4)

/-- The class of the domain and its number of devices, and the seal. -/
def composeDomain (s : State) (bs : List Byte) : State :=
  ((s.setFld GLB_STATE_DOMAIN_CLASS (b2n (decide (512 < (compOf bs).devices)))).setFld FAB_COMP_DEVICES
    (compOf bs).devices).setFld FAB_COMP_SEALED 1

theorem applyComp_eq (s : State) (bs : List Byte) : applyComp s bs =
    let u := composeDomain (composePair (composeRoutes (composeAddr s bs) bs) bs) bs
    { u with fab := { u.fab with comp := some (compOf bs) }, isl := { u.isl with composed := true } } := by
  simp only [applyComp, composeDomain, composePair, composeRoutes, composeAddr, setRoutes]

theorem fld_updFabIsl (s : State) (f : FabBlock) (i : IslBlock) (g : Field) :
    State.fld { s with fab := f, isl := i } g = s.fld g := rfl

theorem Canonical.composeAddr (hs : Canonical s) (bs : List Byte) : Canonical (composeAddr s bs) :=
  ((hs.setFld _ _).setFld _ _).setFld _ _
theorem Canonical.composeRoutes (hs : Canonical s) (bs : List Byte) : Canonical (composeRoutes s bs) := hs.setRoutes _
theorem Canonical.composePair (hs : Canonical s) (bs : List Byte) : Canonical (composePair s bs) :=
  ((hs.setFld _ _).setFld _ _).setFld _ _

theorem composePair_fld (s : State) (bs : List Byte) {g : Field} (hg : g.off ≠ 0x900020) : (composePair s bs).fld g = s.fld g :=
  (fld_setFld_other _ _ hg).trans ((fld_setFld_other _ _ hg).trans (fld_setFld_other _ _ hg))

theorem composeDomain_fld (s : State) (bs : List Byte) {g : Field} (hg : g.off ≠ 0x40) (hg' : g.off ≠ 0x900000) :
    (composeDomain s bs).fld g = s.fld g :=
  (fld_setFld_other _ _ hg').trans ((fld_setFld_other _ _ hg').trans (fld_setFld_other _ _ hg))

/-- What an accepted image leaves in the registers (R452, R30). -/
theorem applyComp_leaves (hs : Canonical s) (bs : List Byte) : (applyComp s bs).flag FAB_COMP_SEALED = true ∧
    (applyComp s bs).flag GLB_DEV_ADDR_VALID = true ∧ (applyComp s bs).fab.comp = some (compOf bs) ∧
    ((applyComp s bs).fld GLB_STATE_DOMAIN_CLASS = if 512 < bits (imgNat bs 16 8) 16 15 then 1 else 0) ∧
    (applyComp s bs).fld FAB_PAIR_PARTNER = bits (imgNat bs 24 8) 32 16 ∧
    ∀ n, n < 16384 → (applyComp s bs).fld (FAB_ROUTE_ENTRY n) = imgNat bs (0x100 + 4 * n) 4 := by
  have haddr := hs.composeAddr bs
  have hroutes := haddr.composeRoutes bs
  have hpair := hroutes.composePair bs
  have hfld (g : Field) : (applyComp s bs).fld g =
      (composeDomain (composePair (composeRoutes (composeAddr s bs) bs) bs) bs).fld g := by rw [applyComp_eq, fld_updFabIsl]
  refine ⟨?_, ?_, rfl, ?_, ?_, fun n hn => ?_⟩
  · rw [flag_of_fld (hfld _)]
    exact flag_setFld_one ((hpair.setFld _ _).setFld _ _) (by decide) (by decide)
  · have hkept : (applyComp s bs).fld GLB_DEV_ADDR_VALID = (composeAddr s bs).fld GLB_DEV_ADDR_VALID := by
      rw [hfld, composeDomain_fld _ _ (by decide) (by decide), composePair_fld _ _ (by decide),
        composeRoutes, setRoutes_fld (by decide)]
    rw [flag_of_fld hkept]
    exact flag_setFld_one ((hs.setFld _ _).setFld _ _) (by decide) (by decide)
  · rw [hfld, composeDomain, fld_setFld_other _ _ (by decide), fld_setFld_other _ _ (by decide),
      fld_setFld_of_lt hpair (by decide) (by unfold b2n; split <;> decide)]
    by_cases h : 512 < bits (imgNat bs 16 8) 16 15 <;> simp [b2n, compOf, h]
  · rw [hfld, composeDomain_fld _ _ (by decide) (by decide), composePair,
      fld_setFld_disjoint _ (by decide) ((hroutes.setFld _ _).setFld _ _).regs (by decide),
      fld_setFld_disjoint _ (by decide) (hroutes.setFld _ _).regs (by decide),
      fld_setFld_of_lt (v := bits (imgNat bs 24 8) 32 16) hroutes (by decide) (Nat.mod_lt _ (Nat.two_pow_pos _))]
  · rw [hfld, composeDomain_fld _ _ (by dsimp only; omega) (by dsimp only; omega), composePair_fld _ _ (by dsimp only; omega)]
    exact setRoutes_entry (imgNat_lt _ _ _) _ haddr (.inl (List.mem_range.2 hn))

theorem fabCtlCompose_applies (hs : Canonical s) (hgo : ItemGo s src) {a : Word} (hctx : src.ctx = 0)
    (hopen : s.flag FAB_COMP_SEALED = false) (hdomain : s.fld GLB_TIME_STATUS_SOURCE ≠ 1)
    (hread : itemRead s src 2 a compImageBytes = .ok bs) (hok : compOk s bs = true) : ∃ t : State,
      Completes (.fabCtlCompose src a) s src 0xF9 0 0 0 0 t ∧ t.flag FAB_COMP_SEALED = true ∧ t.flag GLB_DEV_ADDR_VALID = true ∧
      t.fab.comp = some (compOf bs) ∧ (t.fld GLB_STATE_DOMAIN_CLASS = if 512 < bits (imgNat bs 16 8) 16 15 then 1 else 0) ∧
      t.fld FAB_PAIR_PARTNER = bits (imgNat bs 24 8) 32 16 ∧
      ∀ n, n < 16384 → t.fld (FAB_ROUTE_ENTRY n) = imgNat bs (0x100 + 4 * n) 4 := by
  have hbody : composeBody src a s = (applyComp s bs, .ok) := by
    rw [composeBody, if_neg (by simp [hctx, hopen, hdomain]), hread]
    exact if_pos hok
  exact ⟨_, congrArg _ (runItem_done hgo hbody), applyComp_leaves hs bs⟩

/-! ### The statement -/

/-- Settles O50: each item by what its body answers. -/
theorem fabricItemsActOnQueuePairs : Obligations.FabricItemsActOnQueuePairs := by
  unfold Obligations.FabricItemsActOnQueuePairs
  intro s src hgo hs
  refine ⟨fun kind slice cls window depth q counter => fabQpc_claims hgo,
    fun q mode stall len rd wr at_ base => fabWin_adds hgo,
    fun q op wk wq raddr len ch no wai la od sw thr => fabPost_posts hgo,
    fun q op wk wq raddr len ch no wai la od sw thr hbad => congrArg _ (runItem_refused hgo (postBody_refuses hbad)),
    fun q dev pq => ⟨fabCtlConnect_starts hgo, fun hopen => congrArg _ (runItem_refused hgo (if_pos hopen))⟩,
    fun q hown => ⟨fabCtlReset_inits hgo hown, fabCtlDestroy_frees hgo hown, fabCtlCancel_cancels hgo hown,
      fun a t => fabCtlQuery_writes hgo hown, fun w => fabCtlRevokeWindow_revokes hgo hown⟩,
    fun q hown => fabCtl_notOwned hgo hown,
    fun a bs => fabCtlCompose_applies hs hgo,
    fun a hno => congrArg _ (runItem_refused hgo (if_pos hno))⟩

end Sys2Proof.Machine
end

section
/-! The ends of items, and the timers of the sender and of connections (R468, R473, R479, R482). -/

namespace Sys2Proof.Machine

variable {s : State} {q : Nat}

/-! ### Ends of items (R471, R479) -/

theorem admitWaiting_qp (s : State) (q : Nat) : ∃ l n, (admitWaiting s q).qp q = { s.qp q with items := l, nextSeq := n } := by
  unfold admitWaiting
  dsimp only
  split
  · split
    · exact ⟨_, _, rfl⟩
    · exact ⟨_, _, setQp_same ..⟩
  · exact ⟨_, _, rfl⟩

/-- A queue pair after the end of an item: it is counted, and a status other than 0 is the last error. -/
def Qp.counted (x : Qp) (i : FabItem) (st : Nat) : Qp :=
  let items := x.items.filter fun j => j.seq ≠ i.seq
  { x with items := items, cqCount := (x.cqCount + 1) % 2 ^ 64, lastError := if st = 0 then x.lastError else st,
           rtoAt := if items.any fun j => decide (0 < j.granted) then x.rtoAt else none }

theorem finishItem_qp (s : State) (q : Nat) (i : FabItem) (st : Nat) (r : Word) :
    ∃ l n, (finishItem s q i st r).qp q = { (s.qp q).counted i st with items := l, nextSeq := n } := by
  obtain ⟨l, n, h⟩ := admitWaiting_qp (completeFab (s.setQp q ((s.qp q).counted i st)) i st r) q
  rw [qp_of_fab (completeFab_fab ..), setQp_same] at h
  exact ⟨l, n, h⟩

/-! ### Waiting items (R479) -/

section
variable {i : FabItem}

theorem waitTimedOut_of_first (hfirst : (s.qp q).items.find? (fun i => decide (i.granted = 0)) = some i) : waitTimedOut s q =
    if i.wait = true ∧ waitMet s i = false ∧ i.posted + s.fld FLT_TIMEOUT_A_SYNC_MS * 10 ^ 6 ≤ s.clk.now then
      finishItem s q i 0x9014 0 else s := by
  unfold waitTimedOut
  dsimp only
  rw [hfirst]
  rfl

theorem fabWaitTimeout_ends (hfirst : (s.qp q).items.find? (fun i => decide (i.granted = 0)) = some i) (hwait : i.wait = true)
    (hnot : waitMet s i = false) (hlate : i.posted + s.fld FLT_TIMEOUT_A_SYNC_MS * 10 ^ 6 ≤ s.clk.now) :
    Ends (.fabWaitTimeout q) s fun t => (t.qp q).cqCount = ((s.qp q).cqCount + 1) % 2 ^ 64 ∧ (t.qp q).lastError = 0x9014 := by
  obtain ⟨l, n, h⟩ := finishItem_qp s q i 0x9014 0
  refine ends_of_eq rfl ((waitTimedOut_of_first hfirst).trans (if_pos ⟨hwait, hnot, hlate⟩)) ?_
  rw [h]
  exact ⟨rfl, rfl⟩

theorem fabWaitTimeout_unchanged (hfirst : (s.qp q).items.find? (fun i => decide (i.granted = 0)) = some i)
    (h : i.wait = false ∨ waitMet s i = true ∨ s.clk.now < i.posted + s.fld FLT_TIMEOUT_A_SYNC_MS * 10 ^ 6) :
    exec (.fabWaitTimeout q) s = .next s := by
  refine exec_unchanged rfl ((waitTimedOut_of_first hfirst).trans (if_neg ?_))
  rintro ⟨hwait, hnot, hlate⟩
  rcases h with h | h | h
  · simp [hwait] at h
  · simp [hnot] at h
  · omega

end

/-! ### RTO and RETRY_US (R468, R482) -/

theorem rtoPassed_due {t0 : Nat} (hat : (s.qp q).rtoAt = some t0) (hready : (s.qp q).state = .ready)
    (hnone : (s.qp q).resendAfter = none) (hout : 0 < outstanding (s.qp q)) (hlate : t0 + rto s (s.qp q) ≤ s.clk.now) :
    rtoPassed s q = resendRound s q (oldestPsn (s.qp q)) false := by
  unfold rtoPassed
  dsimp only
  rw [hat]
  exact if_pos ⟨hready, hnone, hout, hlate⟩

theorem rtoExpiry_resends {t0 : Nat} (hat : (s.qp q).rtoAt = some t0) (hready : (s.qp q).state = .ready)
    (hnone : (s.qp q).resendAfter = none) (hout : 0 < outstanding (s.qp q)) (hlate : t0 + rto s (s.qp q) ≤ s.clk.now)
    (hleft : (s.qp q).retries < s.fld FAB_TIMER_RETRY_MAX) :
    Ends (.rtoExpiry q) s fun t => (t.qp q).retries = (s.qp q).retries + 1 ∧ (t.qp q).txPsn = oldestPsn (s.qp q) ∧
      (t.qp q).state = .ready ∧ (t.qp q).items = (s.qp q).items := by
  have hround : rtoPassed s q = s.setQp q { s.qp q with
      retries := (s.qp q).retries + 1, txPsn := oldestPsn (s.qp q), rtoAt := some s.clk.now } :=
    (rtoPassed_due hat hready hnone hout hlate).trans (if_neg (by rw [if_neg (by decide)]; omega))
  refine ends_of_eq rfl (congrArg showSlots hround) ?_
  rw [showSlots_qp, setQp_same]
  exact ⟨rfl, rfl, hready, rfl⟩

theorem rtoExpiry_fails {t0 : Nat} (hat : (s.qp q).rtoAt = some t0) (hready : (s.qp q).state = .ready)
    (hnone : (s.qp q).resendAfter = none) (hout : 0 < outstanding (s.qp q)) (hlate : t0 + rto s (s.qp q) ≤ s.clk.now)
    (hspent : s.fld FAB_TIMER_RETRY_MAX ≤ (s.qp q).retries) (hkind : (s.qp q).ownerKind = 0) :
    Ends (.rtoExpiry q) s fun t => (t.qp q).state = .error ∧ (t.qp q).lastError = 0x9005 ∧ (t.qp q).items = [] := by
  have hround : rtoPassed s q = enterError s q 0x9005 :=
    (rtoPassed_due hat hready hnone hout hlate).trans (if_pos (by rw [if_neg (by decide)]; omega))
  obtain ⟨n, hqp⟩ := enterError_qp hkind 0x9005
  refine ends_of_eq rfl (congrArg showSlots hround) ?_
  rw [showSlots_qp, hqp]
  exact ⟨rfl, rfl, rfl⟩

theorem rtoExpiry_idle (hnone : (s.qp q).rtoAt = none) : exec (.rtoExpiry q) s = .next (showSlots s) := by
  have hpassed : rtoPassed s q = s := by
    unfold rtoPassed
    dsimp only
    rw [hnone]
  exact congrArg (fun u => Host.Outcome.next (showSlots u)) hpassed

theorem retryPassed_of_some {psn t0 : Nat} (h : (s.qp q).resendAfter = some (psn, t0)) : retryPassed s q =
    if t0 ≤ s.clk.now then s.setQp q { s.qp q with resendAfter := none, txPsn := psn, rtoAt := some s.clk.now } else s := by
  unfold retryPassed
  dsimp only
  rw [h]
  rfl

theorem resendAfterExpiry_resends {psn t0 : Nat} (h : (s.qp q).resendAfter = some (psn, t0)) (hdue : t0 ≤ s.clk.now) :
    Ends (.resendAfterExpiry q) s fun t =>
      t.qp q = { s.qp q with resendAfter := none, txPsn := psn, rtoAt := some s.clk.now } :=
  ends_of_eq rfl ((retryPassed_of_some h).trans (if_pos hdue)) (setQp_same ..)

theorem resendAfterExpiry_early {psn t0 : Nat} (h : (s.qp q).resendAfter = some (psn, t0)) (hearly : s.clk.now < t0) :
    exec (.resendAfterExpiry q) s = .next s :=
  exec_unchanged rfl ((retryPassed_of_some h).trans (if_neg (Nat.not_le.2 hearly)))

/-! ### Connections (R473) -/

theorem connectResend_sends (hstate : (s.qp q).state = .connecting) :
    Ends (.connectResend q) s fun t => t.fab.qps = s.fab.qps ∧ t.regs = s.regs :=
  ends_of_eq rfl (if_pos hstate) ⟨sendConnect_qps .., sendConnect_regs ..⟩

theorem connectLate_of_some {src : Option Src} {t0 : Nat} (h : (s.qp q).connect = some (src, t0)) : connectLate s q =
    if (s.qp q).state = .connecting ∧ t0 + s.fld FAB_TIMER_CONNECT_MS * 10 ^ 6 ≤ s.clk.now then
      enterInit (finishConnect s q 0x9003) q else s := by
  unfold connectLate
  dsimp only
  rw [h]
  rfl

theorem connectTimeout_inits {src : Option Src} {t0 : Nat} (h : (s.qp q).connect = some (src, t0))
    (hstate : (s.qp q).state = .connecting) (hlate : t0 + s.fld FAB_TIMER_CONNECT_MS * 10 ^ 6 ≤ s.clk.now) :
    Ends (.connectTimeout q) s fun t => (t.qp q).state = .init ∧ (t.qp q).connect = none ∧
      (t.qp q).instar = (if (s.qp q).instar = 0xFFFFFF then 1 else (s.qp q).instar + 1) := by
  refine ends_of_eq rfl ((connectLate_of_some h).trans (if_pos ⟨hstate, hlate⟩)) ?_
  rw [enterInit_qp, finishConnect_qp]
  exact ⟨rfl, rfl, rfl⟩

theorem connectTimeout_unchanged {src : Option Src} {t0 : Nat} (h : (s.qp q).connect = some (src, t0))
    (hno : (s.qp q).state ≠ .connecting ∨ s.clk.now < t0 + s.fld FAB_TIMER_CONNECT_MS * 10 ^ 6) :
    exec (.connectTimeout q) s = .next s := by
  refine exec_unchanged rfl ((connectLate_of_some h).trans (if_neg ?_))
  rintro ⟨hstate, hlate⟩
  exact hno.elim (· hstate) fun hearly => absurd hlate (Nat.not_le.2 hearly)

end Sys2Proof.Machine
end

section
/-! The timers of the receiver, and pages that arrive (R467, R481). -/

namespace Sys2Proof.Machine

variable {s : State} {q : Nat}

/-! ### Acknowledgements due (R467) -/

theorem ackTimer_acknowledges (hready : (s.qp q).state = .ready) (hsome : 0 < (s.qp q).unacked)
    (hdue : (s.qp q).unackedAt + s.fld FAB_TIMER_ACK_NS ≤ s.clk.now) :
    Ends (.ackTimer q) s fun t => t.qp q = { s.qp q with unacked := 0 } ∧ t.regs = s.regs :=
  ends_of_eq rfl (if_pos ⟨hready, hsome, hdue⟩) ⟨sendAck_qp .., sendAck_regs ..⟩

theorem ackTimer_unchanged (h : (s.qp q).unacked = 0 ∨ s.clk.now < (s.qp q).unackedAt + s.fld FAB_TIMER_ACK_NS) :
    exec (.ackTimer q) s = .next s := by
  refine exec_unchanged rfl (if_neg ?_)
  rintro ⟨-, hsome, hdue⟩
  exact h.elim (fun h0 => absurd h0 (Nat.pos_iff_ne_zero.1 hsome)) fun hearly => absurd hdue (Nat.not_le.2 hearly)

/-! ### Packets held (R481) -/

section
variable {f : EftFrame} {t0 l : Nat}

theorem holdAgain_of_held (h : (s.qp q).held = some (f, t0, l)) : holdAgain s q =
    if l + 4000 ≤ s.clk.now then
      sendAck (s.setQp q { s.qp q with held := some (f, t0, s.clk.now) }) q 7 (lastIn (s.qp q)) 0 0 else s := by
  unfold holdAgain
  dsimp only
  rw [h]
  rfl

theorem holdAckSend_sends (h : (s.qp q).held = some (f, t0, l)) (hdue : l + 4000 ≤ s.clk.now) :
    Ends (.holdAckSend q) s fun t => (t.qp q).held = some (f, t0, s.clk.now) ∧ (t.qp q).heldNext = (s.qp q).heldNext := by
  refine ends_of_eq rfl ((holdAgain_of_held h).trans (if_pos hdue)) ?_
  rw [sendAck_qp, setQp_same]
  exact ⟨rfl, rfl⟩

theorem holdAckSend_early (h : (s.qp q).held = some (f, t0, l)) (hearly : s.clk.now < l + 4000) :
    exec (.holdAckSend q) s = .next s :=
  exec_unchanged rfl ((holdAgain_of_held h).trans (if_neg (Nat.not_le.2 hearly)))

theorem holdAckSend_none (h : (s.qp q).held = none) : exec (.holdAckSend q) s = .next s := by
  refine exec_unchanged (u := holdAgain s q) rfl ?_
  unfold holdAgain
  dsimp only
  rw [h]

theorem pauseCheck_qps (p : Nat) (s : State) (c : Nat) : (pauseCheck p s c).fab.qps = s.fab.qps := by
  unfold pauseCheck
  split
  · split
    · exact send_qps ..
    · rfl
  · split
    · exact send_qps ..
    · rfl

theorem pauseChecks_qps (s : State) (p : Nat) : (pauseChecks s p).fab.qps = s.fab.qps := by
  rw [pauseChecks]
  exact foldl_frame (f := pauseCheck p) (fun u => u.fab.qps) (pauseCheck_qps p) _ s

theorem freeOcc_qps (s : State) (p c n : Nat) : (freeOcc s p c n).fab.qps = s.fab.qps := by
  rw [freeOcc, pauseChecks_qps]
  rfl

theorem dropHeld_holdsNone (h : (s.qp q).held = some (f, t0, l)) : HoldsNone ((dropHeld s q).qp q) := by
  unfold dropHeld
  dsimp only
  rw [h]
  dsimp only
  rw [qp_of_qps (freeOcc_qps ..), setQp_same]
  exact ⟨rfl, rfl⟩

theorem refusePacket_holdsNone (h : HoldsNone (s.qp q)) (f : EftFrame) (st : Nat) : HoldsNone ((refusePacket s q f st).qp q) := by
  unfold refusePacket
  dsimp only
  generalize (if st = 0x9031 then 6 else 4) = kind
  split
  · exact enterError_holdsNone ..
  · rw [qp_of_fab (fault_fab ..), setQp_same, sendAck_qp]
    exact h

/-- Asking the sender again, or refusing it the ninth time, leaves no packet held. -/
theorem askAgain_holdsNone (h : HoldsNone (s.qp q)) (f : EftFrame) : HoldsNone ((askAgain s q f).qp q) := by
  unfold askAgain
  dsimp only
  generalize (if (s.qp q).raSent.1 = f.psn then (s.qp q).raSent.2 else 0) = n
  split
  · exact refusePacket_holdsNone h f _
  · rw [sendAck_qp, setQp_same]
    exact h

variable {w pg : Nat}

theorem stallPassed_of_absent (h : (s.qp q).held = some (f, t0, l)) (hpage : runPacket s q f = .absent w pg) :
    stallPassed s q = if t0 + ((mget (s.qp q).windows w).map (·.stallUs)).getD 0 * 1000 ≤ s.clk.now then
      askAgain (dropHeld s q) q f else s := by
  unfold stallPassed
  dsimp only
  rw [h]
  dsimp only
  rw [hpage]
  rfl

theorem stallTimeout_drops (h : (s.qp q).held = some (f, t0, l)) (hpage : runPacket s q f = .absent w pg)
    (hlate : t0 + ((mget (s.qp q).windows w).map (·.stallUs)).getD 0 * 1000 ≤ s.clk.now) :
    Ends (.stallTimeout q) s fun t => (t.qp q).held = none ∧ (t.qp q).heldNext = [] :=
  ends_of_eq rfl ((stallPassed_of_absent h hpage).trans (if_pos hlate)) (askAgain_holdsNone (dropHeld_holdsNone h) f)

theorem stallTimeout_early (h : (s.qp q).held = some (f, t0, l)) (hpage : runPacket s q f = .absent w pg)
    (hearly : s.clk.now < t0 + ((mget (s.qp q).windows w).map (·.stallUs)).getD 0 * 1000) :
    exec (.stallTimeout q) s = .next s :=
  exec_unchanged rfl ((stallPassed_of_absent h hpage).trans (if_neg (Nat.not_le.2 hearly)))

theorem stallTimeout_none (h : (s.qp q).held = none) : exec (.stallTimeout q) s = .next s := by
  refine exec_unchanged (u := stallPassed s q) rfl ?_
  unfold stallPassed
  dsimp only
  rw [h]

end

/-! ### Pages that arrive (R481) -/

theorem listOwner_setQp (s : State) (q : Nat) (x : Qp) (w : Window) : listOwner (s.setQp q x) w = listOwner s w := rfl

theorem bringPage_places {i fr : Nat} (e : Session) (n : Nat) (hfree : s.frame fr = none) (hfirst : firstFrame ≤ fr) :
    (bringPage s i e n fr).fab = s.fab ∧ ((bringPage s i e n fr).frame fr).isSome = true ∧
    ∃ e', (bringPage s i e n fr).ses? i = some e' ∧ mget e'.kv n = some (pageRef false false 1 0 fr) := by
  rw [bringPage, if_neg (by simp [hfree]; omega)]
  refine ⟨rfl, ?_, { e with kv := mset e.kv n (pageRef false false 1 0 fr) }, ?_, mget_mset_same ..⟩
  · exact (congrArg Option.isSome (mget_mset_same fr _ s.ses.frames)).trans rfl
  · exact mget_mset_same i _ s.ses.entries

theorem pageArrival_places {w pg fr i : Nat} {r : List (Nat × Nat)} {win : Window} {e : Session}
    (hwanted : (s.qp q).wanted = (w, pg) :: r) (hwin : mget (s.qp q).windows w = some win)
    (howner : listOwner s win = some (i, e)) (hfree : s.frame fr = none) (hfirst : firstFrame ≤ fr)
    (hheld : (s.qp q).held = none) : Ends (.pageArrival q fr) s fun t => (t.qp q).wanted = r ∧ (t.frame fr).isSome = true ∧
      ∃ e', t.ses? i = some e' ∧ mget e'.kv pg = some (pageRef false false 1 0 fr) := by
  have hbring : pageArrives s q fr = bringPage (s.setQp q { s.qp q with wanted := r }) i e pg fr := by
    unfold pageArrives
    dsimp only
    rw [hwanted]
    dsimp only
    rw [hwin]
    dsimp only
    rw [listOwner_setQp, howner]
    dsimp only
    rw [hheld]
  obtain ⟨hfab, hframe, hpage⟩ :=
    bringPage_places (s := s.setQp q { s.qp q with wanted := r }) (i := i) e pg hfree hfirst
  refine ends_of_eq rfl hbring ⟨?_, hframe, hpage⟩
  rw [qp_of_fab hfab, setQp_same]

theorem pageArrival_unwanted (fr : Nat) (h : (s.qp q).wanted = []) : exec (.pageArrival q fr) s = .next s := by
  refine exec_unchanged (u := pageArrives s q fr) rfl ?_
  unfold pageArrives
  dsimp only
  rw [h]

end Sys2Proof.Machine
end

section
/-! The arbiter of a port (R468): the next packet of the one queue pair that may send. -/

namespace Sys2Proof.Machine

variable {s : State} {p q : Nat} {x : Qp} {i : FabItem} {f : EftFrame}

/-! ### Choosing -/

theorem readyQps_of_one (hqps : s.fab.qps = [(q, x)]) (hon : onPort s p x = true) (hnew : newPacket s x = some i) (c : Nat) :
    readyQps s p c true = if x.cls = c then [q] else [] := by
  by_cases hc : x.cls = c <;> simp [readyQps, hqps, hon, hnew, hc]

/-- A class that is served by rank is chosen where its queue pair is the only one. -/
theorem chooseClass_of_one (hqps : s.fab.qps = [(q, x)]) (hon : onPort s p x = true) (hnew : newPacket s x = some i)
    (hcls : x.cls = 4 ∨ x.cls = 5 ∨ x.cls = 6) : chooseClass s p true = some (x.cls, (s.port p).deficit) := by
  have hfirst : ([6, 5, 4] : List Nat).find? (fun c => !(readyQps s p c true).isEmpty) = some x.cls := by
    simp only [readyQps_of_one hqps hon hnew]
    rcases hcls with h | h | h <;> simp [h]
  unfold chooseClass
  dsimp only
  rw [hfirst]

theorem chooseQp_singleton (s : State) (q : Nat) : chooseQp s [q] = (some q, s) := rfl

theorem onPort_setDeficit (s : State) (p : Nat) (d : Map Nat) (x : Qp) :
    onPort (s.setPort p { s.port p with deficit := d }) p x = onPort s p x := by
  simp [onPort]

/-! ### Sending a new packet (R463, R468) -/

theorem openChunks_updFab (s : State) (m : FabBlock) (c q operand nonce a : Nat) : ∀ n k len : Nat,
    openChunks { s with fab := m } c q operand nonce a n k len = openChunks s c q operand nonce a n k len
  | 0, _, _ => rfl
  | n + 1, k, len => by
    rw [openChunks, openChunks, openChunks_updFab s m c q operand nonce a n]
    rfl

/-- An operand is read of the state apart from its fabric. -/
theorem itemRead_updFab (s : State) (m : FabBlock) (src : Src) (operand : Nat) (a : Word) (len : Nat) :
    itemRead { s with fab := m } src operand a len = itemRead s src operand a len := by
  unfold itemRead hostRead
  simp only [openChunks_updFab]
  rfl

/-- A packet is made of the state apart from its ports. -/
theorem packetOf_updPorts (s : State) (m : Map Port) (n : Nat) (q : Nat) (i : FabItem) (k : Nat) (r : Bool) :
    packetOf { s with fab := { s.fab with ports := m, fullPasses := n } } q i k r = packetOf s q i k r := by
  unfold packetOf itemData
  simp only [itemRead_updFab]
  rfl

theorem sendNew_sends
    (hpkt : packetOf s q (if i.granted = 0 then { i with psn := (s.qp q).sendPsn } else i) i.granted false = .ok f) :
    ∃ y : Qp, y.sendPsn = psnAdd (s.qp q).sendPsn (if i.op = 1 then 1 else itemPsns i) ∧ y.txPsn = y.sendPsn ∧
      sendNew s p q i = sendFrame (s.setQp q y) p f := by
  unfold sendNew
  dsimp only
  rw [hpkt]
  exact ⟨_, rfl, rfl, rfl⟩

theorem sendFrame_sent (hup : pst s p = 2) (hgo : s.fab.stopped = false) (f : EftFrame) :
    (sendFrame s p f).fab.sent = s.fab.sent ++ [.eft p f] := by
  rw [sendFrame, if_pos hup, send_sent hgo]

/-- The state in which the arbiter sends: no queue pair was passed over, and the deficits of the port stand. -/
def arbiterReady (s : State) (p : Nat) : State :=
  let u := { s with fab := { s.fab with fullPasses := s.fab.fullPasses + 0 } }
  u.setPort p { u.port p with deficit := (u.port p).deficit }

theorem arbitrate_of_one (hp : p < 16) (hup : pst s p = 2) (hqps : s.fab.qps = [(q, s.qp q)])
    (hon : onPort s p (s.qp q) = true) (hres : resends (s.qp q) = false) (hnew : newPacket s (s.qp q) = some i)
    (hslots : slotsHeld s < 262144) (hcls : (s.qp q).cls = 4 ∨ (s.qp q).cls = 5 ∨ (s.qp q).cls = 6) :
    arbitrate s p = sendNew (arbiterReady s p) p q i := by
  have hfree : decide (slotsHeld s < 262144) = true := decide_eq_true hslots
  have hclass := chooseClass_of_one (s := { s with fab := { s.fab with fullPasses := s.fab.fullPasses + 0 } }) hqps hon hnew hcls
  have hon' : onPort (arbiterReady s p) p (s.qp q) = true := (onPort_setDeficit ..).trans hon
  have hready := readyQps_of_one (s := arbiterReady s p) (q := q) hqps hon' hnew (s.qp q).cls
  rw [if_pos rfl] at hready
  unfold arbitrate
  rw [if_pos ⟨hp, hup⟩]
  dsimp only
  rw [hfree, if_pos rfl, hclass]
  dsimp only
  rw [← arbiterReady, hready, chooseQp_singleton]
  dsimp only
  rw [if_neg (by rw [show (arbiterReady s p).qp q = s.qp q from rfl, hres]; decide)]
  rw [show newPacket (arbiterReady s p) ((arbiterReady s p).qp q) = some i from hnew]

theorem arbiterGrant_sends (hp : p < 16) (hup : pst s p = 2) (hqps : s.fab.qps = [(q, s.qp q)])
    (hon : onPort s p (s.qp q) = true) (hres : resends (s.qp q) = false) (hnew : newPacket s (s.qp q) = some i)
    (hslots : slotsHeld s < 262144) (hcls : (s.qp q).cls = 4 ∨ (s.qp q).cls = 5 ∨ (s.qp q).cls = 6)
    (hpkt : packetOf s q (if i.granted = 0 then { i with psn := (s.qp q).sendPsn } else i) i.granted false = .ok f) :
    Ends (.arbiterGrant p) s fun t =>
      (t.qp q).sendPsn = psnAdd (s.qp q).sendPsn (if i.op = 1 then 1 else itemPsns i) ∧ (t.qp q).txPsn = (t.qp q).sendPsn ∧
      (s.fab.stopped = false → t.fab.sent = s.fab.sent ++ [.eft p f]) := by
  obtain ⟨y, hsend, htx, heq⟩ := sendNew_sends (s := arbiterReady s p) (p := p) ((packetOf_updPorts ..).trans hpkt)
  have hsends := (arbitrate_of_one hp hup hqps hon hres hnew hslots hcls).trans heq
  refine ends_of_eq rfl (congrArg showSlots hsends) ?_
  rw [showSlots_qp, sendFrame_qp, setQp_same]
  exact ⟨hsend, htx, fun hgo => sendFrame_sent (s := (arbiterReady s p).setQp q y) hup hgo f⟩

theorem arbiterGrant_idle (hdown : pst s p ≠ 2) : exec (.arbiterGrant p) s = .next (showSlots s) :=
  congrArg (fun u => Host.Outcome.next (showSlots u)) (if_neg fun h => hdown h.2)

end Sys2Proof.Machine
end

section
/-! The notify of a packet (R477): what granting the waiters of a counter leaves of the fabric and of HBM. -/

namespace Sys2Proof.Machine

variable {s : State} {q : Nat}

/-- What the execution of a packet in order must leave: the fabric and HBM. -/
def fabricAndHbm (s : State) : FabBlock × Map Byte := (s.fab, s.hbm)

theorem complete_fabricAndHbm (s : State) (src : Src) (op st : Nat) (r o g : Word) :
    fabricAndHbm (complete s src op st r o g) = fabricAndHbm s := by simp [fabricAndHbm]

/-- An operation that waits writes registers alone where it can proceed. -/
theorem tryWait_upd {op n actor : Nat} {v r : Word} {t : State} (h : tryWait op s n actor v = some (t, r)) :
    ∃ m, t = { s with regs := m } := by
  unfold tryWait at h
  split_ifs at h <;> cases h
  · exact ⟨_, rfl⟩
  · exact ⟨_, rfl⟩
  · exact ⟨_, rfl⟩
  · exact ⟨_, rfl⟩

theorem wake_fabricAndHbm (s : State) (w : Waiter) (r : Word) : fabricAndHbm (wake s w r) = fabricAndHbm s := by
  unfold wake
  split
  · rfl
  · exact complete_fabricAndHbm ..

theorem serve_fabricAndHbm (s : State) (n : Nat) : fabricAndHbm (serve s n) = fabricAndHbm s := by
  refine foldl_frame fabricAndHbm (fun u w => ?_) _ s
  split
  · rfl
  · next h =>
    obtain ⟨m, rfl⟩ := tryWait_upd h
    exact wake_fabricAndHbm ..

theorem countStale_fabricAndHbm (s : State) (st : Nat) : fabricAndHbm (countStale s st) = fabricAndHbm s := by
  unfold countStale
  split <;> rfl

/-- A notify counts on its queue pair, and leaves the other fields of it and HBM. -/
theorem notifyQp_leaves (s : State) (q : Nat) : ∃ n, fabricAndHbm (notifyQp s q) =
    fabricAndHbm (s.setQp q { s.qp q with notifyCount := n }) := by
  unfold notifyQp
  dsimp only
  split
  · exact ⟨_, rfl⟩
  · split
    · exact ⟨_, countStale_fabricAndHbm ..⟩
    · exact ⟨_, serve_fabricAndHbm ..⟩

/-! ### Accepted packets (R465, R467) -/

/-- A queue pair that has executed a packet, before it notifies and acknowledges. -/
def Qp.tookPacket (x : Qp) (now : Nat) (f : EftFrame) : Qp :=
  { x with expPsn := psnAdd f.psn (framePsns f), nakSent := false, raSent := (0, 0), unacked := x.unacked + 1,
           unackedAt := if x.unacked = 0 then now else x.unackedAt }

/-- The notify of a packet, where it asks for one. -/
def notified (s : State) (q : Nat) (f : EftFrame) : State := if f.notify && f.last then notifyQp s q else s

theorem accepted_eq (s : State) (q : Nat) (f : EftFrame) : accepted s q f =
    let u := notified (s.setQp q ((s.qp q).tookPacket s.now f)) q f
    if f.ackreq ∨ 16 ≤ (u.qp q).unacked then sendAck u q 1 (lastIn (u.qp q)) 0 0 else u := rfl

theorem notified_leaves (s : State) (q : Nat) (f : EftFrame) :
    ∃ n, (notified s q f).qp q = { s.qp q with notifyCount := n } ∧ (notified s q f).hbm = s.hbm := by
  unfold notified
  split
  · obtain ⟨n, h⟩ := notifyQp_leaves s q
    obtain ⟨hfab, hhbm⟩ := Prod.mk.inj h
    exact ⟨n, (qp_of_fab hfab q).trans (setQp_same ..), hhbm⟩
  · exact ⟨_, rfl, rfl⟩

/-- An accepted packet moves the expected PSN on and leaves HBM as its execution did. -/
theorem accepted_leaves (s : State) (q : Nat) (f : EftFrame) : ((accepted s q f).qp q).expPsn = psnAdd f.psn (framePsns f) ∧
    ((accepted s q f).qp q).nakSent = false ∧ (accepted s q f).hbm = s.hbm := by
  obtain ⟨n, hqp, hhbm⟩ := notified_leaves (s.setQp q ((s.qp q).tookPacket s.now f)) q f
  rw [setQp_same] at hqp
  rw [accepted_eq]
  dsimp only
  split
  · rw [sendAck_qp, sendAck_hbm, hqp]
    exact ⟨rfl, rfl, hhbm⟩
  · rw [hqp]
    exact ⟨rfl, rfl, hhbm⟩

end Sys2Proof.Machine
end

section
/-! Frames that arrive (R454, R464, R465, R484). -/

namespace Sys2Proof.Machine

variable {s : State} {p q : Nat} {f : EftFrame}

/-! ### Leaving D1 -/

@[simp] theorem leaveD1_hbm (s : State) : (leaveD1 s).hbm = s.hbm := by obtain ⟨r, i, h⟩ := leaveD1_upd s; rw [h]

theorem Canonical.leaveD1 (hs : Canonical s) : Canonical (leaveD1 s) := hs.of_kept (leaveD1_kept s)

theorem leaveD1_fld_other (s : State) {g : Field} (h : g.off ≠ 0x40) : (leaveD1 s).fld g = s.fld g :=
  fld_of_reg (leaveD1_reg s h)

theorem leaveD1_devAddr (s : State) : (leaveD1 s).devAddr = s.devAddr := by
  rw [State.devAddr, leaveD1_fld_other s (by decide), leaveD1_fld_other s (by decide), State.devAddr]

theorem qp_leaveD1 (s : State) (q : Nat) : (leaveD1 s).qp q = s.qp q := qp_of_fab (leaveD1_fab s) q

/-! ### Frames that reach no queue pair (R454, R465) -/

theorem eftIn_badIcrc (hp : p < 16) (hup : pst s p = 2) (hbad : f.icrcOk = false) :
    eftIn s p f = (leaveD1 s).incSat (FAB_PORT_ERR_FCS p) 1 := by
  rw [eftIn, if_neg (by omega)]
  exact if_pos (by simp [hbad])

theorem eftIn_misdirected (hp : p < 16) (hup : pst s p = 2) (hgood : f.icrcOk = true) (hdst : f.dstDev ≠ s.devAddr) :
    eftIn s p f = (leaveD1 s).incSat (FAB_PORT_ERR_MISDIRECTED p) 1 := by
  rw [eftIn, if_neg (by omega)]
  exact (if_neg (by simp [hgood])).trans (if_pos (.inl (by rwa [leaveD1_devAddr])))

theorem eftFrame_ignored (hdown : pst s p ≠ 2) : exec (.eftFrame p f) s = .next (showSlots s) :=
  congrArg (fun u => Host.Outcome.next (showSlots u)) (if_pos (.inr hdown))

/-- A frame that a port only counts changes no queue pair and no memory. -/
theorem eftFrame_counts (hs : Canonical s) {g : Field} (heq : eftIn s p f = (leaveD1 s).incSat g 1) (hw : g.lo + g.w ≤ 64)
    (h40 : g.off ≠ 0x40) (hreq : g.off ≠ 0x900010) : Ends (.eftFrame p f) s fun t => t.fab.qps = s.fab.qps ∧ t.hbm = s.hbm ∧
      t.fld g = min (2 ^ g.w - 1) (s.fld g + 1) := by
  refine ends_of_eq rfl (congrArg showSlots heq) ⟨congrArg (·.qps) (leaveD1_fab s), leaveD1_hbm s, ?_⟩
  rw [fld_of_reg (showSlots_reg _ hreq), fld_incSat_same hs.leaveD1 1 hw, leaveD1_fld_other s h40]

theorem eftFrame_badIcrc (hs : Canonical s) (hp : p < 16) (hup : pst s p = 2) (hbad : f.icrcOk = false) :
    Ends (.eftFrame p f) s fun t => t.fab.qps = s.fab.qps ∧ t.hbm = s.hbm ∧
      t.fld (FAB_PORT_ERR_FCS p) = min (2 ^ 16 - 1) (s.fld (FAB_PORT_ERR_FCS p) + 1) :=
  eftFrame_counts hs (eftIn_badIcrc hp hup hbad) (Nat.le_add_left _ _) (by dsimp only; omega)
    (by dsimp only; omega)

theorem eftFrame_misdirected (hs : Canonical s) (hp : p < 16) (hup : pst s p = 2) (hgood : f.icrcOk = true)
    (hdst : f.dstDev ≠ s.devAddr) : Ends (.eftFrame p f) s fun t => t.fab.qps = s.fab.qps ∧ t.hbm = s.hbm ∧
      t.fld (FAB_PORT_ERR_MISDIRECTED p) = min (2 ^ 16 - 1) (s.fld (FAB_PORT_ERR_MISDIRECTED p) + 1) :=
  eftFrame_counts hs (eftIn_misdirected hp hup hgood hdst) (by dsimp only; omega)
    (by dsimp only; omega) (by dsimp only; omega)

/-! ### Requests (R465, R484) -/

section
variable (hp : p < 16) (hup : pst s p = 2) (hgood : f.icrcOk = true) (hdst : f.dstDev = s.devAddr)
  (hvalid : s.flag GLB_DEV_ADDR_VALID = true) (hop : f.op ∈ ([1, 2, 4, 5, 7] : List Nat)) (hq : f.dstQp = q)
  (hopen : ∀ y ∈ s.fab.fenced, ¬ (y.1 = f.srcDev ∧ y.2.1 = f.srcInstar))
include hp hup hgood hdst hvalid hop hopen

/-- A request of an instar that is not fenced reaches its queue pair. -/
theorem eftIn_request : eftIn s p f = frameIn (leaveD1 s) f := by
  have hnone : s.fab.fenced.find? (fun y => decide (y.1 = f.srcDev) && decide (y.2.1 = f.srcInstar)) = none :=
    List.find?_eq_none.2 fun y hy => by simpa using hopen y hy
  have hop8 : f.op ≠ 8 := by intro h; simp [h] at hop
  rw [eftIn, if_neg (by omega)]
  dsimp only
  rw [leaveD1_devAddr, flag_of_fld (leaveD1_fld_other s (by decide)), leaveD1_fab, if_neg (by simp [hgood]),
    if_neg (by simp [hdst, hvalid]), if_neg (fun h => hop8 h.1), hnone]

include hq

theorem eftFrame_stale (hs : Canonical s) (hstale : f.srcInstar ≠ (s.qp q).peerInstar ∨ f.qpInstar ≠ (s.qp q).instar) :
    Ends (.eftFrame p f) s fun t => t.fab.qps = s.fab.qps ∧ t.hbm = s.hbm ∧
      t.fld FAB_STALE_COUNT = min (2 ^ 32 - 1) (s.fld FAB_STALE_COUNT + 1) := by
  have hin : eftIn s p f = staleFrame (leaveD1 s) f := by
    rw [eftIn_request hp hup hgood hdst hvalid hop hopen, frameIn, hq, qp_leaveD1]
    rw [if_neg (by intro h; simp [h] at hop), if_neg (by rintro ⟨h, -⟩; simp [h] at hop), if_pos hstale]
  refine ends_of_eq rfl (congrArg showSlots hin) ⟨?_, ?_, ?_⟩
  · show (staleFrame (leaveD1 s) f).fab.qps = _
    rw [staleFrame, fault_fab, incSat_fab, leaveD1_fab]
  · show (staleFrame (leaveD1 s) f).hbm = _
    rw [staleFrame, fault_hbm, incSat_hbm, leaveD1_hbm]
  · rw [fld_of_reg (showSlots_reg _ (by decide)), staleFrame, fault_fld _ _ _ _ _ _ _ (by decide),
      fld_incSat_same hs.leaveD1 1 (by decide), leaveD1_fld_other s (by decide)]

variable (hsrc : f.srcInstar = (s.qp q).peerInstar) (hinst : f.qpInstar = (s.qp q).instar) (hready : (s.qp q).state = .ready)
  (hheld : (s.qp q).held = none)
include hsrc hinst hready hheld

/-- A request that is not stale, on a READY queue pair that holds no packet: executed in order, else ahead or behind. -/
theorem eftIn_inOrder : eftIn s p f =
    if f.psn = (s.qp q).expPsn then takePacket (leaveD1 s) q f
    else if psnAhead f.psn (s.qp q).expPsn then packetAhead (leaveD1 s) q
    else packetBehind (leaveD1 s) q f := by
  have hreq : frameIn (leaveD1 s) f = requestIn (leaveD1 s) q f := by
    rw [frameIn, hq, qp_leaveD1]
    simp only [List.mem_cons, List.not_mem_nil, or_false] at hop
    rw [if_neg (by omega), if_neg (by omega), if_neg (by simp [hsrc, hinst]), if_neg (by simp [hready]), if_neg (by omega),
      if_neg (by omega), if_neg (by omega), if_pos (by omega)]
  rw [eftIn_request hp hup hgood hdst hvalid hop hopen, hreq, requestIn, qp_leaveD1]
  rw [hheld]

theorem eftFrame_ahead (hahead : psnAhead f.psn (s.qp q).expPsn = true) : Ends (.eftFrame p f) s fun t =>
    (t.qp q).expPsn = (s.qp q).expPsn ∧ (t.qp q).nakSent = true ∧ t.hbm = s.hbm := by
  have hne : f.psn ≠ (s.qp q).expPsn := by
    intro h
    have hself : psnDiff (s.qp q).expPsn (s.qp q).expPsn = 0 := by unfold psnDiff; omega
    simp [psnAhead, h, hself] at hahead
  have hin : eftIn s p f = packetAhead (leaveD1 s) q :=
    (eftIn_inOrder hp hup hgood hdst hvalid hop hq hopen hsrc hinst hready hheld).trans ((if_neg hne).trans (if_pos hahead))
  refine ends_of_eq rfl (congrArg showSlots hin) ?_
  show ((packetAhead (leaveD1 s) q).qp q).expPsn = _ ∧ ((packetAhead (leaveD1 s) q).qp q).nakSent = true ∧
    (packetAhead (leaveD1 s) q).hbm = _
  unfold packetAhead
  dsimp only
  split
  · next hsent => exact ⟨by rw [qp_leaveD1], hsent, leaveD1_hbm s⟩
  · rw [sendAck_qp, setQp_same, sendAck_hbm, setQp_hbm, qp_leaveD1]
    exact ⟨rfl, rfl, leaveD1_hbm s⟩

theorem eftFrame_executes {u : State} (hpsn : f.psn = (s.qp q).expPsn) (hrun : runPacket (leaveD1 s) q f = .done u) :
    Ends (.eftFrame p f) s fun t =>
      (t.qp q).expPsn = psnAdd f.psn (framePsns f) ∧ (t.qp q).nakSent = false ∧ t.hbm = u.hbm := by
  have hin : eftIn s p f = accepted u q f := by
    rw [eftIn_inOrder hp hup hgood hdst hvalid hop hq hopen hsrc hinst hready hheld, if_pos hpsn, takePacket, hrun]
  exact ends_of_eq rfl (congrArg showSlots hin) (accepted_leaves u q f)

end

end Sys2Proof.Machine
end

section
/-! Fence records (R485): what a lost lender and adopted records leave of the list of fenced instars. -/

namespace Sys2Proof.Machine

variable (s : State)

/-! ### Sessions that lose their lender (R101) -/

section
variable (i : Nat)

@[simp] theorem send_fenced (m : Sent) : (send s m).fab.fenced = s.fab.fenced := by unfold send; split <;> rfl

@[simp] theorem policeDone_fab (id : Option Nat) : (policeDone s id).fab = s.fab := by
  obtain ⟨k, h⟩ := policeDone_upd s id; rw [h]

@[simp] theorem sesNotice_fab (reason st : Nat) (r : Word) : (sesNotice s i reason st r).fab = s.fab := by
  unfold sesNotice notice
  split
  · rfl
  · split <;> simp

@[simp] theorem sesNoticeFree_fab (reason st : Nat) : (sesNoticeFree s i reason st).fab = s.fab := sesNotice_fab s.draw.2 ..

@[simp] theorem abortRevival_fab : (abortRevival s i).fab = s.fab := by
  unfold abortRevival
  split
  · rfl
  · split
    · rfl
    · simp

@[simp] theorem releaseSlot_fab (e : Session) : (releaseSlot s e).1.fab = s.fab := by
  obtain ⟨r, m, h⟩ := releaseSlot_fst s e; rw [h]

@[simp] theorem releaseP2_fenced (e : Session) : (releaseP2 s i e).fab.fenced = s.fab.fenced := by
  unfold releaseP2
  split
  · exact send_fenced ..
  · rfl

@[simp] theorem unbindSlots_fab (e : Session) : (unbindSlots s e).fab = s.fab := by
  unfold unbindSlots
  split
  · dsimp only
    split <;> rfl
  · rfl

@[simp] theorem notBehind_fab (e : Session) : (notBehind s e).fab = s.fab := by
  unfold notBehind
  split <;> rfl

@[simp] theorem showBorrowed_fab : (showBorrowed s).fab = s.fab := rfl

@[simp] theorem releaseState_fenced (st : SesState) : (releaseState s i st).fab.fenced = s.fab.fenced := by
  unfold releaseState
  split
  · rfl
  · dsimp only
    rw [showBorrowed_fab, setSes_fab, notBehind_fab, unbindSlots_fab, freeFrames_fab, releaseP2_fenced, releaseSlot_fab]
    split
    · split <;> simp
    · simp

@[simp] theorem faultSession_fenced (st : Nat) : (faultSession s i st).fab.fenced = s.fab.fenced := by
  unfold faultSession
  split
  · rfl
  · split
    · rw [sesNoticeFree_fab]
      exact releaseState_fenced s i .faulted
    · rfl

@[simp] theorem restoreCopy_fab (c : Copy) : (restoreCopy s i c).fab = s.fab := by
  unfold restoreCopy
  split
  · rfl
  · simp

theorem lostP2_fenced : (lostP2 s i).fab.fenced = s.fab.fenced := by
  unfold lostP2
  split
  · rfl
  · split
    · split <;> simp
    · simp

theorem parkFailed_fenced (st : Nat) : (parkFailed s i st).fab.fenced = s.fab.fenced := by
  unfold parkFailed
  split
  · rfl
  · split
    · rfl
    · split
      · rfl
      · dsimp only
        rw [sesNoticeFree_fab, setSes_fab]
        split <;> simp

end

/-- A lender that is lost leaves the list of fenced instars. -/
theorem lenderLost_fenced (dev : Nat) : (lenderLost s dev).fab.fenced = s.fab.fenced := by
  have hparks (l : List Nat) : (l.foldl (fun s i => parkFailed s i 0x9006) s).fab.fenced = s.fab.fenced :=
    foldl_frame (fun u => u.fab.fenced) (fun u i => parkFailed_fenced u i _) l s
  unfold lenderLost
  dsimp only
  refine (foldl_frame (fun u => u.fab.fenced) (fun u i => ?_) _ _).trans (hparks _)
  rw [lostP2_fenced]
  split
  · split <;> simp
  · rfl

/-! ### Records adopted from the partner (R523) -/

theorem closePage_fab (b : Nat) : (closePage s b).fab = s.fab := by
  unfold closePage
  dsimp only
  split <;> rfl

theorem journalSubmit_fab (b : Nat) (r : DirRec) (h : HeadPage) : (journalSubmit s b r h).fab = s.fab := by
  unfold journalSubmit
  dsimp only
  split
  · exact closePage_fab ..
  · rfl

theorem adoptedElsewhere_fenced (r : DirRec) : (adoptedElsewhere s r).fab.fenced = s.fab.fenced := by
  unfold adoptedElsewhere
  dsimp only
  split
  · rfl
  · split <;> simp

theorem announce_fab (i : Nat) : (announce s i).fab = s.fab := by
  unfold announce
  split
  · rfl
  · split <;> simp

theorem adopt_fenced {t : State} {b st : Nat} {x : DirRec × HeadPage} (h : adopt s b st x = some t) :
    t.fab.fenced = s.fab.fenced := by
  unfold adopt at h
  dsimp only at h
  split at h
  · cases h
  · next i inst u htake =>
    have hu : u.fab = (adoptedElsewhere s x.1).fab := by
      unfold takeIndex at htake
      split at htake
      · cases htake
      · cases htake
        rfl
    cases h
    rw [placeEntry, announce_fab, incWrap_fab]
    dsimp only
    rw [journalSubmit_fab, hu, adoptedElsewhere_fenced]

theorem adoptMirrors_fenced : (adoptMirrors s).fab.fenced = s.fab.fenced := by
  unfold adoptMirrors
  split
  · rfl
  · refine foldl_frame (fun u => u.fab.fenced) (fun u x => ?_) _ _
    dsimp only
    cases h : adopt u _ 0xA040 x with
    | none => rfl
    | some t => exact adopt_fenced u h

/-! ### Fencing (R485) -/

section
variable {s} {dev inst : Nat}

theorem fenceRecord_fences (hother : s.flag GLB_DEV_ADDR_VALID = false ∨ dev ≠ s.devAddr)
    (hnew : ∀ y ∈ s.fab.fenced, ¬ (y.1 = dev ∧ y.2.1 = inst)) :
    Ends (.fenceRecord dev inst) s fun t => t.fab.fenced = s.fab.fenced ++ [(dev, inst, 0)] := by
  have hnone : ¬ (s.fab.fenced.any fun y => decide (y.1 = dev) && decide (y.2.1 = inst)) = true := by
    rw [List.any_eq_true]
    rintro ⟨y, hy, hmatch⟩
    exact hnew y hy (by simpa using hmatch)
  refine ⟨fenceIn s dev inst, rfl, ?_⟩
  rw [fenceIn, if_neg (by rintro ⟨hvalid, hdev⟩; exact hother.elim (by simp [hvalid]) (· hdev)), if_neg hnone]
  dsimp only
  have hlost (u : State) (hu : u.fab.fenced = s.fab.fenced ++ [(dev, inst, 0)]) :
      (lenderLost u dev).fab.fenced = s.fab.fenced ++ [(dev, inst, 0)] := (lenderLost_fenced u dev).trans hu
  split
  · rw [adoptMirrors_fenced]
    exact hlost _ (by rw [fault_fab])
  · exact hlost _ (by rw [fault_fab])

theorem fenceRecord_known (hother : s.flag GLB_DEV_ADDR_VALID = false ∨ dev ≠ s.devAddr)
    (hknown : ∃ y ∈ s.fab.fenced, y.1 = dev ∧ y.2.1 = inst) : exec (.fenceRecord dev inst) s = .next s := by
  have hany : (s.fab.fenced.any fun y => decide (y.1 = dev) && decide (y.2.1 = inst)) = true := by simpa using hknown
  refine exec_unchanged (u := fenceIn s dev inst) rfl ?_
  rw [fenceIn, if_neg (by rintro ⟨hvalid, hdev⟩; exact hother.elim (by simp [hvalid]) (· hdev)), if_pos hany]

theorem fenceRecord_own (hvalid : s.flag GLB_DEV_ADDR_VALID = true) :
    exec (.fenceRecord s.devAddr (devInstar s)) s = .next (fatalStop s) ∧
    ∀ i, i ≠ devInstar s → exec (.fenceRecord s.devAddr i) s = .next s := by
  have hstop : fenceIn s s.devAddr (devInstar s) = fatalStop s := by rw [fenceIn, if_pos ⟨hvalid, rfl⟩, if_pos rfl]
  refine ⟨congrArg Host.Outcome.next hstop, fun i hi => exec_unchanged (u := fenceIn s s.devAddr i) rfl ?_⟩
  rw [fenceIn, if_pos ⟨hvalid, rfl⟩, if_neg hi]

end

end Sys2Proof.Machine
end

section
/-! Arbitration, frames and timers of a queue pair (O51). -/

namespace Sys2Proof.Machine

/-- Settles O51: each event by its time bound, by the state of the queue pair, and by what the frame or the page that it brings
finds. -/
theorem fabricPacketsAndTimersOfQueuePairs : Obligations.FabricPacketsAndTimersOfQueuePairs := by
  unfold Obligations.FabricPacketsAndTimersOfQueuePairs
  intro s q hs
  dsimp only
  refine ⟨fun p i f => arbiterGrant_sends,
    fun p => arbiterGrant_idle,
    fun i hfirst => ⟨fabWaitTimeout_ends hfirst, fabWaitTimeout_unchanged hfirst⟩,
    fun t0 hat hready hnone hout hlate =>
      ⟨rtoExpiry_resends hat hready hnone hout hlate, rtoExpiry_fails hat hready hnone hout hlate⟩,
    rtoExpiry_idle,
    fun psn t0 h => ⟨resendAfterExpiry_resends h, resendAfterExpiry_early h⟩,
    fun p f hp hup => ⟨eftFrame_badIcrc hs hp hup, eftFrame_misdirected hs hp hup, fun hgood hdst hvalid hop hq hopen =>
      ⟨eftFrame_stale hp hup hgood hdst hvalid hop hq hopen hs, fun hsrc hinst hready hheld =>
        ⟨eftFrame_ahead hp hup hgood hdst hvalid hop hq hopen hsrc hinst hready hheld,
          fun u => eftFrame_executes hp hup hgood hdst hvalid hop hq hopen hsrc hinst hready hheld⟩⟩⟩,
    fun p f => eftFrame_ignored,
    ackTimer_acknowledges, ackTimer_unchanged,
    fun f t0 l h =>
      ⟨holdAckSend_sends h, holdAckSend_early h, fun w pg => stallTimeout_drops h, fun w pg => stallTimeout_early h⟩,
    fun h => ⟨holdAckSend_none h, stallTimeout_none h⟩,
    fun w pg fr r win i e => pageArrival_places,
    fun fr => pageArrival_unwanted fr,
    connectResend_sends, fun h => exec_unchanged rfl (if_neg h),
    fun src t0 h => ⟨connectTimeout_inits h, connectTimeout_unchanged h⟩,
    fun dev inst hother => ⟨fenceRecord_fences hother, fenceRecord_known hother⟩,
    fenceRecord_own⟩

end Sys2Proof.Machine
end
